-- ==== Sys2Proof/Word.lean ====
section
/-! DEFINITION. Sys2Proof/Word.lean: the words of the device (R3: registers are 32 bits) and their plainest arithmetic. -/

namespace Sys2Proof

/-- One byte. -/
abbrev Byte := BitVec 8

/-- A register, 32 bits wide (R3). -/
abbrev Word := BitVec 32

/-- A run of bytes, lowest offset first. -/
abbrev Bytes := List Byte

/-- An instance number, 0 to 63 (R285). -/
abbrev Inst := Fin 64

/-- A key-slot number, 0 to 7. -/
abbrev SlotNo := Fin 8

/-- A physical channel, 0 to 127. -/
abbrev Chan := Fin 128

/-- `min (n + 1) cap`: one step of a saturating counter. -/
def satInc (cap n : Nat) : Nat := if n < cap then n + 1 else cap

/-- `min (n + k) cap`. -/
def satAdd (cap n k : Nat) : Nat := min (n + k) cap

/-- 1 for true, 0 for false. -/
def bit (b : Bool) : Nat := if b then 1 else 0

/-- `n / d` rounded up; `0` when `d` is `0`. -/
def ceilDiv (n d : Nat) : Nat := (n + d - 1) / d

end Sys2Proof
end

