-- ==== Sys2Proof/Syntax.lean ====
section
/-! DEFINITION. Sys2Proof/Syntax.lean: the commands, one constructor of `Instr` for each row of spec/opcode_table.json, and
what each carries from outside the part. A command of a ring names the instance and the identifier of a fetched
descriptor (R264); its parameters are the descriptor's. What only the outside decides (what the host stored, what
the head read, what a pin or a link partner did, how a check of an engine came out) is an operand. -/

namespace Sys2Proof

/-- A host's command identifier (R264). -/
abbrev Cid := BitVec 16

/-- A store of the host to its own memory; `space` is 0 for memory with no PASID, PASID + 1 otherwise (R258). -/
structure HostStore where
  space : Nat
  addr : Nat
  bytes : Bytes
  deriving DecidableEq, Repr

/-- Who makes a register access (R386). -/
inductive Source where
  | host | steward | jtag
  deriving DecidableEq, Repr

/-- Which access of the device to host memory failed (R253, R258, R375). -/
inductive HostFaultAt where
  /-- The descriptor fetch of a ring. -/
  | descriptor (ring : Option Inst)
  /-- A completion write of a ring. -/
  | completion (ring : Option Inst)
  /-- A data access of a fetched command. -/
  | data (ring : Option Inst) (cid : Cid)
  /-- The write of an event record. -/
  | eventRing
  /-- A host burst of mover engine `e`'s descriptor. -/
  | mover (e : Fin 4)
  deriving DecidableEq, Repr

/-- One dataset that the scan of CART_LOAD finds in a partition (R58), in tape order. -/
structure ScanDs where
  part : Nat
  dsn : Nat
  session : Nat
  isEod : Bool
  wrap : Nat
  /-- Channel bits from the start of the wrap to its first tier, and to its extent end. -/
  startBit : Nat
  endBit : Nat
  /-- Dataset pitches to the next accepted dataset of the session; none when no other follows. -/
  gap : Option Nat
  /-- The place, wrap and channel bits, before which copies of every row of it stand that C1 and C2 recover (R160, steps 1 to 3); none
  when some row is not recovered. -/
  recoveredBy : Option (Nat × Nat)
  deriving DecidableEq, Repr

/-- What the dataset indexes on tape give of a point to which a LOCATE or SPACE goes (R49, R270). -/
structure TapePoint where
  /-- Records and filemarks of the stream's tag before the point. -/
  records : Nat
  marks : Nat
  /-- Dataset in which the last record or filemark before the point lies. -/
  dsn : Nat
  /-- A SPACE over records met a filemark there. -/
  metMark : Bool
  deriving DecidableEq, Repr

/-- What calibration leaves in one channel and zone (R165): VGA gain, the ten taps, and the CAL CWOs framed. -/
structure CalResult where
  gain : Nat
  taps : List Int
  framed : Nat
  deriving DecidableEq, Repr

/-- What a cartridge and the tape give CART_LOAD. -/
structure CartView where
  /-- The bytes of cartridge memory; none when the reader reports none (R54). -/
  cm : Option Bytes
  /-- Each WRITE to the reader ends well, at the third try at the latest (R402). -/
  writes : Bool
  /-- The tape threads and tracks. -/
  threads : Bool
  scan : List ScanDs
  /-- Records and filemarks on tape: partition, tag, records, marks (R49, R270). -/
  tagCounts : List (Nat × Nat × Nat × Nat)
  /-- The hold-up check of R333: capacitance in µF, ESR in mΩ, VHOLD in mV. -/
  capUf : Nat
  esrMohm : Nat
  vhold : Nat
  /-- What calibration leaves, per channel and zone (R165); where the list ends, nothing changes. -/
  results : List CalResult
  deriving DecidableEq, Repr

/-- A bank of boot flash as the ROM or the steward reads it (R347). -/
structure BankView where
  manifest : Bytes
  motion : Bytes
  datapath : Bytes
  deriving DecidableEq, Repr

/-- The outcome of a check of one attempt on an engine. -/
inductive Check where
  | pass
  /-- The check failed, with the number of the failing condition (R78, R80, R90). -/
  | fail (code : Nat)
  deriving DecidableEq, Repr

/-- What the board profile's items say, as far as the device's rules use them (R348). -/
structure ProfileValues where
  /-- N of R210: memory devices. -/
  nDev : Nat := 0
  /-- C code of BUF_CFG.cap (R210). -/
  cap : Nat := 0
  bif0 : Nat := 3
  bif1 : Nat := 3
  devLinks : BitVec 8 := 0
  /-- Pan partition: extent, base in KiB, bitmap store and enable of pans 0 to 3 (R225). -/
  pans : List (Nat × Nat × Bool × Bool) := []
  /-- Lanes wired at the east and west ring ports (R299). -/
  eastLanes : Nat := 0
  westLanes : Nat := 0
  /-- Acceleration limit, units of 0.1 m/s² (R134, R140). -/
  accel : Nat := 100
  /-- a_0 and b_0, per band and direction: twelve pairs (R177). -/
  lines : List (Int × Int) := []
  /-- Head-line distances, to the write line and to the read line, forward then reverse (R180). -/
  headLines : List Int := []
  /-- Control-bus settings of the preamplifiers, one run of bytes each (R399). -/
  preamps : List Bytes := []
  /-- Burst threshold (R176). -/
  burst : Nat := 0
  /-- Zero-azimuth offset (R183). -/
  azZero : Int := 0
  /-- Loop coefficients of both banks of the four loops, 24 each, in the order of MOT_COEF (R191). -/
  coefs : List (BitVec 16) := []
  /-- Limits and ramps of L0 to L3, as MOT_LIM (R189). -/
  lims : List Word := []
  /-- L2 switch speed, mm/s (R188). -/
  l2Switch : Nat := 0
  /-- Read-channel defaults per zone: the set register and the ten taps (R164). -/
  zoneSets : List (Word × List Int) := []
  deriving DecidableEq, Repr

/-- The flash as the ROM reads it at boot: both banks and the board profile (R346 to R350). -/
structure FlashView where
  bankA : BankView
  bankB : BankView
  /-- The profile's bytes 0 to L − 1 (R348). -/
  profile : Bytes
  /-- Every item of the profile lies within the limits its owning chapter sets (R349). -/
  itemsOk : Bool
  /-- What the items say. -/
  values : ProfileValues
  deriving DecidableEq, Repr

/-- One line that a memory device returns wrong or poisoned during an access to a stripe (R205, R221). -/
structure LineError where
  line : Fin 20
  /-- Exclusive-or of the line read with the line stored. -/
  flip : Bytes
  poison : Bool
  /-- The line still reads so after it has been written back. -/
  hard : Bool
  deriving DecidableEq, Repr

/-- One burst that a mover engine completes, and whether the check on it passed (R18, R249 to R251). -/
inductive Burst where
  /-- A burst of the descriptor with this serial number. -/
  | descriptor (id : Nat)
  /-- Hand-over 1: the next burst of a running write command. -/
  | hostIn (v : Inst) (cid : Cid)
  /-- Hand-over 4: the next sealed block of stream `no` from PAN1 to its dataset. -/
  | panIn (v : Inst) (no : Nat)
  /-- Hand-over 7: the next block of stream `no` from the dataset buffer to a cipher engine. -/
  | extract (v : Inst) (no : Nat)
  /-- Hand-over 9: the bytes decoded for a READ_RECORDS, to host memory. -/
  | hostOut (v : Inst) (cid : Cid)
  deriving DecidableEq, Repr

/-- A head line (R180). -/
inductive HeadLine where
  | write | read
  deriving DecidableEq, Repr

/-- What one servo element reads of a frame (R172 to R176). -/
structure ElementRead where
  /-- The ten cells of the Gray field as read. -/
  gray : BitVec 10
  /-- Burst amplitudes A to D. -/
  a : Nat
  b : Nat
  c : Nat
  d : Nat
  /-- The reference point lies within ±12 µm of its prediction. -/
  inWindow : Bool
  deriving DecidableEq, Repr

/-- A frame as both elements read it, with its LX field and the azimuth interval in 1/64 clock-track cycles. -/
structure ServoFrame where
  elemA : Option ElementRead
  elemB : Option ElementRead
  lxField : BitVec 16
  interval : Int
  deriving DecidableEq, Repr

/-- The commands: one constructor for each row of the table, in its order. -/
inductive Instr where
  | openStream (v : Inst) (cid : Cid)
  | closeStream (v : Inst) (cid : Cid)
  | writeRecords (v : Inst) (cid : Cid) (bursts : Nat)
  | streamAppend (v : Inst) (cid : Cid) (bursts : Nat)
  | writeMark (v : Inst) (cid : Cid)
  | sync (v : Inst) (cid : Cid)
  | readRecords (v : Inst) (cid : Cid)
  | locate (v : Inst) (cid : Cid) (point : TapePoint)
  | space (v : Inst) (cid : Cid) (point : TapePoint)
  | readPosition (v : Inst) (cid : Cid)
  | slotBind (v : Inst) (cid : Cid)
  | slotRekey (v : Inst) (cid : Cid)
  | getStats (v : Inst) (cid : Cid)
  | nop (v : Inst) (cid : Cid)
  | invalidOpcode (ring : Option Inst) (cid : Cid)
  | instanceCreate (cid : Cid)
  | instanceShare (cid : Cid)
  | instanceQuiesce (cid : Cid)
  | instanceReset (cid : Cid)
  | instanceFreeze (cid : Cid)
  | instanceSave (cid : Cid)
  | instanceRestore (cid : Cid)
  | instanceDestroy (cid : Cid)
  | rootImportGetPub (cid : Cid)
  | rootImportImport (cid : Cid)
  | rootErase (cid : Cid)
  | cartLoad (cid : Cid) (view : CartView)
  | cartUnload (cid : Cid)
  | cartCalibrate (cid : Cid) (results : List CalResult)
  | chainStatus (cid : Cid)
  | raitGroupSet (cid : Cid)
  | raitGroupClear (cid : Cid)
  | logReadEntries (cid : Cid)
  | logReadCertificates (cid : Cid)
  | serviceChallenge (cid : Cid)
  | serviceResponse (cid : Cid)
  | fwStageWrite (cid : Cid)
  | fwStageFinish (cid : Cid)
  | fwStageAbandon (cid : Cid)
  | fwActivateNext (cid : Cid)
  | fwActivateNow (cid : Cid)
  | fwActivateCommitSvn (cid : Cid)
  | fwActivateCancel (cid : Cid)
  | bufferFillStatus (cid : Cid)
  | hifDbSqTail (page : Option Inst) (value : Word) (stores : List HostStore)
  | hifDbCqHead (page : Option Inst) (value : Word)
  | descriptorFetch (ring : Option Inst)
  | irqTimerExpiry (ring : Option Inst)
  | pcieLinkUp (speed : Nat) (width : Nat)
  | hostFault (fault : HostFaultAt)
  | mqEnable
  | mqDisable
  | eventRingEnable
  | eventRingDisable
  | evtRingHeadWrite (value : Word)
  | evtLock
  | panLock (by_ : Source)
  | quenchCfgLock (value : Word)
  | writeSetCommit (c : Chan) (bitsLeft : Nat)
  | writeCommitAll (bitsLeft : Nat)
  | readSetCommit (c : Chan) (bitsLeft : Nat)
  | readCommitAll (bitsLeft : Nat)
  | coefWrite (by_ : Source) (l : Fin 4) (k : Fin 2) (sec : Fin 2) (c : Fin 6) (value : BitVec 16)
  | coefBankSwap (by_ : Source) (l : Fin 4)
  | loopEnable (by_ : Source) (mask : BitVec 4)
  | motionStop (by_ : Source)
  | motionBrake (by_ : Source)
  | functionReset (flr : Bool)
  | warmReset
  | coldResetRequest
  | perstAssert
  | stewardWatchdog
  | toField
  | serviceClose
  | katStart (pass : Bool)
  | fillRestart
  | serviceDescriptorPost
  | retireClear
  | reassemble
  | countModeWrite (by_ : Source) (p : Fin 4) (on : Bool)
  /-- With `high`, a 64-bit write: `value` at the offset and then `high` 4 above it (R3). -/
  | registerWrite (bar2 : Bool) (off : Nat) (value : Word) (high : Option Word)
  | malformedAccess (bar2 : Bool) (off : Nat) (size : Nat) (write : Bool)
  /-- With `wide`, a 64-bit read: the offset and then 4 above it (R3). -/
  | rcFieldRead (bar2 : Bool) (off : Nat) (wide : Bool)
  | timeLoRead
  | copy (desc : Bytes) (bursts : Nat)
  | fill (desc : Bytes) (bursts : Nat)
  | compare (desc : Bytes) (bursts : Nat)
  | gather (desc : Bytes) (bursts : Nat)
  | scatter (desc : Bytes) (bursts : Nat)
  | requestLine (l : Fin 38)
  | burstDone (e : Fin 4) (work : Burst) (check : Check)
  | alloc (requester : Nat) (size : Nat) (charge : Option Inst) (wait : Bool) (badLink : Bool)
  | free (requester : Nat) (handle : Nat)
  | handoff (requester : Nat) (handle : Nat) (dest : Nat)
  | acquire (requester : Nat) (handle : Nat)
  | release (requester : Nat) (handle : Nat)
  | cancel (requester : Nat)
  | panListRebuild (p : Fin 4)
  | bufferRead (ba : Nat) (errs : List LineError) (spares : Nat)
  | bufferWrite (ba : Nat) (data : Bytes) (errs : List LineError) (spares : Nat)
  | rakeVisit (errs : List LineError) (spares : Nat)
  | memdevEventPoll (d : Fin 8) (lines : List Nat)
  | fillChunkDone
  | cxlPerstRelease
  | cxlLinkUp (d : Fin 8) (gts : Nat) (width : Nat) (mem : Bool) (singleLd : Bool)
  | memoryActive (d : Fin 8) (gib : Nat) (tagOk : Bool) (mediaReady : Bool)
  | bringupTimeout (d : Fin 8)
  | memdevLost (d : Fin 8) (cause : Fin 3)
  | sliceCodeDone (n : Fin 8) (check : Check)
  | cipherSealDone (e : Fin 4) (check : Check)
  | cipherOpenDone (e : Fin 4) (check : Check)
  | sliceDecompressDone (n : Fin 8) (check : Check)
  | datasetIdleTimeout (v : Inst) (no : Nat)
  | slotDecision
  | tierFix (rowErrors : List (Nat × Fin 4))
  | writeFifoUnderrun (c : Chan)
  | cwoJudged (c : Chan)
  | fenceTimeout
  | maxWaitExpiry
  | tapeRestart
  | positionReached (wrap : Fin 240)
  | rampEnd
  | paceWindowEnd (counts : List Nat) (waited : Nat)
  | servoFrameBoundary (line : HeadLine) (lx : Nat)
  | timingUpdate (c : Chan) (samples : List Int) (sum phiA phiB : Int)
  | muStep (c : Chan)
  | syncWindowClose (c : Chan) (tone : Int)
  | resyncWindowClose (c : Chan) (j : Fin 4)
  | headerDecodeDone (c : Chan)
  | c1DecodeDone (k : Fin 16) (rowOk : Bool)
  | sampleOverwrite (c : Chan)
  | ctLost (b : Bool)
  | ctRegained (b : Bool)
  | holdoverEnd
  | synthLock (z : Fin 3)
  | datasetRecovery (dsn : Nat)
  | readAheadRestart
  | servoFrameDecided (f : ServoFrame)
  | frameMissed
  | l3Sample
  | mlsync
  | inFrame (frame : Bytes)
  | inFrameAbsent
  | l1Sample (pos : Int)
  | tapeStopped
  | pafltAssert (k : Fin 8)
  | vddAonRise
  | powerOnResetRelease
  | rngStartupPass
  | rngContinuousFail (tests : Fin 4)
  | bootImagesLoaded (f : FlashView)
  | bootEntrySigned
  | ringLinkTrained (q : Fin 2) (lanes : Nat)
  | assemblyEnd
  | quenchDetect (cause : Fin 3) (vsense : Nat) (window : Nat) (vholdEnd : Nat) (braking : Bool)
  | quenchPowerOff
  | quenchReset (vsense : Nat) (pwrfailHigh : Bool)
  | thermtrip
  | leakPeriod (site : Fin 304)
  | pewterUnload
  | eventRecordWrite
  | eventIrqTimer
  | pendingCopyApply (v : Inst) (k : SlotNo)
  | quiesceComplete (v : Inst)
  | challengeLapse
  | dataRow (q : Fin 2) (frame : Bytes) (lanes : BitVec 4)
  | readRow (q : Fin 2) (frame : Bytes) (lanes : BitVec 4)
  | ack (q : Fin 2) (frame : Bytes) (lanes : BitVec 4)
  | nak (q : Fin 2) (frame : Bytes) (lanes : BitVec 4)
  | beacon (q : Fin 2) (frame : Bytes) (lanes : BitVec 4)
  | token (q : Fin 2) (frame : Bytes) (lanes : BitVec 4)
  | attest (q : Fin 2) (frame : Bytes) (lanes : BitVec 4)
  | roster (q : Fin 2) (frame : Bytes) (lanes : BitVec 4)
  | topology (q : Fin 2) (frame : Bytes) (lanes : BitVec 4)
  | join (q : Fin 2) (frame : Bytes) (lanes : BitVec 4)
  | joinAck (q : Fin 2) (frame : Bytes) (lanes : BitVec 4)
  | groupSerial (q : Fin 2) (frame : Bytes) (lanes : BitVec 4)
  | groupStart (q : Fin 2) (frame : Bytes) (lanes : BitVec 4)
  | payloadOk (q : Fin 2) (frame : Bytes) (lanes : BitVec 4)
  | stripeCommit (q : Fin 2) (frame : Bytes) (lanes : BitVec 4)
  | xoff (q : Fin 2) (frame : Bytes) (lanes : BitVec 4)
  | xon (q : Fin 2) (frame : Bytes) (lanes : BitVec 4)
  | sessionEnd (q : Fin 2) (frame : Bytes) (lanes : BitVec 4)
  | readReq (q : Fin 2) (frame : Bytes) (lanes : BitVec 4)
  | positionLost (q : Fin 2) (frame : Bytes) (lanes : BitVec 4)
  | groupFail (q : Fin 2) (frame : Bytes) (lanes : BitVec 4)
  | ackTimeout (q : Fin 2)
  | ackTimer (q : Fin 2)
  | linkDown (q : Fin 2)
  | laneRetrainDone (q : Fin 2) (lanes : Nat)
  | payloadConfirmTimeout (position : Nat) (stripe : Nat)
  | readRowTimeout (position : Nat) (stripe : Nat) (row : Nat)
  | getVersion (request : Bytes)
  | getCapabilities (request : Bytes)
  | negotiateAlgorithms (request : Bytes)
  | getDigests (request : Bytes)
  | getCertificate (request : Bytes)
  | challenge (request : Bytes)
  | getMeasurements (request : Bytes)
  | vendorDefinedRequest (request : Bytes)
  | perstDeassert
  | pcieLinkDown (resets : Bool)
  | vddAonFail
  | msixUnmask (x : Fin 130)
  | atsInvalidation (pasid : Option Nat) (page : Nat)
  | jtagAccess (bar2 : Bool) (off : Nat) (value : Option Word)
  | pafltDeassert (k : Fin 8)
  | setEndpointId (eid : BitVec 8)
  deriving DecidableEq, Repr

end Sys2Proof
end

