-- ==== Sys2Proof/Config.lean ====
section
/-! DEFINITION. Sys2Proof/Config.lean: what a part fixes (fuses, ROM) and the values the spec leaves open.
Every constant here is opaque: no proof can see a value of it, so a claim holds whatever it is. -/

namespace Sys2Proof.Config

/-- Byte `n` of everything the random-bit generator of R92 ever delivers. `State.freeCtr` counts the bytes drawn.
DESIGN CHOICE (log entry 5): a free value. -/
opaque rng : Nat → Byte

/-- Byte `n` of a nonce that is due when the generator has failed and draws have stopped (R92). The spec gives it no value.
DESIGN CHOICE (log entry 99): a free value. -/
opaque undrawn : Nat → Byte

/-- Byte `i` of the unique device secret, a fuse value that nothing outside the enclave shows (R342, R343). -/
opaque uds : Fin 32 → Byte

/-- Byte `i` of the device identifier, a fuse value (R344, SEC_DEVID). -/
opaque deviceId : Fin 16 → Byte

/-- The blob root that the enclave derives from the device secret (R296); the derivation is not stated. -/
opaque blobRoot : Fin 32 → Byte

/-- The ROM's hash of signer key `s` (R347). -/
opaque signerHash : Fin 4 → Bytes

/-- The ROM's hashes of the two Bibemus service keys (R361). -/
opaque serviceHash : Fin 2 → Bytes

/-- The ROM version (R353, R355). -/
opaque romVersion : Word

/-- The ROM's Bibemus root CA certificate, DER (R344). -/
opaque rootCert : Bytes

/-- The issuing CA certificate, DER (R344). -/
opaque issuingCert : Bytes

/-- The device certificate, DER (R344). -/
opaque deviceCert : Bytes

/-- DER of the alias certificate that carries these fields (R344): alias public key, serial, FWIDs, svn, signature.
DER encoding of X.509 is not in the spec: a free value. -/
opaque aliasCert : Bytes → Bytes → Bytes → Nat → Bytes

/-- Whether the certificate `cert` chains to `issuer` (R301): X.509 path checking is not in the spec. -/
opaque certChains : Bytes → Bytes → Bool

/-- The public key (97 bytes) and serial (16 bytes) that a certificate in DER carries. -/
opaque certKey : Bytes → Bytes
opaque certSerial : Bytes → Bytes

/-- Hop latency `n` that the ring port measures with a passing token, in ns (R305, R309). `State.nextId` selects it. -/
opaque hopNs : Nat → Nat

/-- Vendor ID of the function, in the PCI-SIG registry (R355). -/
opaque vendorId : BitVec 16

/-- Byte `i` of the bank that did not boot, where neither an image nor a staging write has placed one (R356). -/
opaque flashByte : Nat → Byte

/-- The kind byte of EV_PEWTER for a cause that no resource brought on (R373, R378). -/
opaque pewterKind : Nat → Byte

/-- GLB_RST_CAUSE.cause after the warm reset that a session of scope RMA takes (R363): not stated. -/
opaque rmaResetCause : Fin 7

/-- CTExponent of CAPABILITIES, and the DMTF value type of measurement `i` (R355): not stated. -/
opaque spdmCtExponent : Byte
opaque measurementType : Nat → Byte

/-- The length-limited Huffman code lengths that the encoder builds from a symbol histogram (R73): which of
the equally good codes it builds is open. -/
opaque huffman : List Nat → List Nat

/-- Whether the inexact quotient `num / den` that place `n` of the control engine, the servo or the read channels forms is taken up
to the next integer, or left at the one below: R135, R141, R158, R174 to R176, R183, R186, R187 and R189 do not state the rounding. -/
opaque roundUp : Nat → Int → Int → Bool

/-- The ratio of two burst amplitudes that are both 0 (R174): not stated. -/
opaque ratioOfNothing : Int

/-- The median of an even number of positions (R149): where it lies between the two middle ones is not stated. -/
opaque middle : List Int → Int

/-- The bytes of a record that stand in host memory when the READ_RECORDS that was to deliver it fails (R83): undefined. The command's
number selects them. -/
opaque partialRecord : Nat → Bytes

/-- What a JTAG read of the steward register at an offset returns: its contents are not specified (R382).
`State.nextId` numbers the reads. -/
opaque stewardReg : Nat → Nat → Word

/-- The gain the AGC goes to from a gain and a tone peak other than 20 LSB (R144): the rule of its steps is not stated. -/
opaque agcGain : Nat → Nat → Nat

/-- The magnitude of L, in units of 1/8 nat, for a difference of path metrics (R147): the noise variance is not stated. -/
opaque llrMag : Nat → Nat

/-- The hard decision of channel `c` at bit position `p` when its soft sample is 0 (R147): 0 has no sign. -/
opaque zeroBit : Nat → Int → Bool

/-- A tap accumulator past its 20 bits (R146): whether it wraps or saturates is not stated. -/
opaque tapBeyond : Int → BitVec 20

/-- Channel bits left before the next servo-frame boundary when a register write commits a parameter set (R118, R167):
only the timing of the write decides. `State.nextId` selects it. -/
opaque bitsLeft : Nat → Nat

/-- Whether the known-answer tests that a register write starts all pass. `State.nextId` selects it. -/
opaque katPass : Nat → Bool

/-- The version byte of the quench store's header (R338): its value is not stated. -/
opaque qstoreVersion : Byte

end Sys2Proof.Config
end

