-- ==== Sys2Proof/Machine/Bytes.lean ====
section
/-! DEFINITION. Sys2Proof/Machine/Bytes.lean: byte orders (R8, R29), bit fields, cyclic redundancy checks (R16, R178,
R194) and padding. -/

namespace Sys2Proof.Machine

/-- `k` bytes of `n`, least significant first (R8). -/
def leBytes : Nat → Nat → Bytes
  | 0, _ => []
  | k + 1, n => BitVec.ofNat 8 n :: leBytes k (n / 256)

/-- `k` bytes of `n`, most significant first. -/
def beBytes (k n : Nat) : Bytes := (leBytes k n).reverse

/-- The number whose little-endian bytes these are. -/
def leNat : Bytes → Nat
  | [] => 0
  | b :: bs => b.toNat + 256 * leNat bs

/-- The number whose big-endian bytes these are. -/
def beNat (bs : Bytes) : Nat := bs.foldl (fun a b => 256 * a + b.toNat) 0

/-- `n` bytes from offset `off`; bytes past the end read 0. -/
def slice (bs : Bytes) (off n : Nat) : Bytes :=
  let t := (bs.drop off).take n
  t ++ List.replicate (n - t.length) 0

/-- The little-endian field of `n` bytes at `off`. -/
def leAt (bs : Bytes) (off n : Nat) : Nat := leNat (slice bs off n)

/-- Byte `off`, as a number. -/
def u8 (bs : Bytes) (off : Nat) : Nat := (bs.getD off 0).toNat
/-- The 16-bit field at `off`. -/
def u16 (bs : Bytes) (off : Nat) : Nat := leAt bs off 2
/-- The 32-bit field at `off`. -/
def u32 (bs : Bytes) (off : Nat) : Nat := leAt bs off 4
/-- The 64-bit field at `off`. -/
def u64 (bs : Bytes) (off : Nat) : Nat := leAt bs off 8

/-- Whether the `n` bytes from `off` are all 0. -/
def zeroAt (bs : Bytes) (off n : Nat) : Bool := (slice bs off n).all (· == 0)

/-- Overwrites `bs` with `w` at `off`; `bs` keeps its length. -/
def patch (bs : Bytes) (off : Nat) (w : Bytes) : Bytes :=
  (bs.take off ++ w ++ bs.drop (off + w.length)).take bs.length

/-- Pads with 0 bytes up to `n` bytes, or cuts to `n` bytes. -/
def padTo (n : Nat) (bs : Bytes) : Bytes := bs.take n ++ List.replicate (n - bs.length) 0

/-- `n` zero bytes. -/
def zeros (n : Nat) : Bytes := List.replicate n 0

/-- Byte-wise exclusive or; the shorter argument sets the length. -/
def xorBytes (a b : Bytes) : Bytes := List.zipWith (· ^^^ ·) a b

/-- The ASCII bytes of a string. -/
def ascii (s : String) : Bytes := s.toList.map (fun c => BitVec.ofNat 8 c.toNat)

/-- Bits `[lo + w - 1 : lo]` of a register. -/
def fld (r : Word) (lo w : Nat) : Nat := (r.toNat >>> lo) % 2 ^ w

/-- Bit `i` of a register. -/
def rbit (r : Word) (i : Nat) : Bool := r.getLsbD i

/-- The register with bits `[lo + w - 1 : lo]` replaced by `v`. -/
def setFld (r : Word) (lo w v : Nat) : Word :=
  let m := BitVec.ofNat 32 ((2 ^ w - 1) <<< lo)
  (r &&& ~~~m) ||| (BitVec.ofNat 32 (v <<< lo) &&& m)

/-- A register built from its fields: pairs of lowest bit and value. -/
def pack (fs : List (Nat × Nat)) : Word :=
  fs.foldl (fun a p => a ||| BitVec.ofNat 32 (p.2 <<< p.1)) 0

/-- One bit of a reflected CRC register. -/
def crcBit (poly c : Word) : Word := if c.getLsbD 0 then (c >>> 1) ^^^ poly else c >>> 1

/-- One byte into a CRC-32C register: the polynomial of R16, reflected, is 0x82F6_3B78. -/
def crc32cByte (c : Word) (b : Byte) : Word :=
  (List.range 8).foldl (fun c _ => crcBit 0x82F63B78#32 c) (c ^^^ b.setWidth 32)

/-- Runs the CRC-32C register over bytes. -/
def crc32cRun (c : Word) (bs : Bytes) : Word := bs.foldl crc32cByte c

/-- CRC-32C (R16): initial value and final exclusive-or of all ones. -/
def crc32c (bs : Bytes) : Word := ~~~ crc32cRun 0xFFFFFFFF#32 bs

/-- The CRC of R16 as stored: least significant byte first. -/
def crcBytes (bs : Bytes) : Bytes := leBytes 4 (crc32c bs).toNat

/-- One byte into the CRC-16 register of the motion link (R194): polynomial 0x1021, not reflected. -/
def crc16Byte (c : BitVec 16) (b : Byte) : BitVec 16 :=
  (List.range 8).foldl
    (fun c _ => if c.getLsbD 15 then (c <<< 1) ^^^ 0x1021#16 else c <<< 1) (c ^^^ (b.setWidth 16 <<< 8))

/-- CRC-16 of the motion link (R194): initial value 0xFFFF, no reflection, no final exclusive-or. -/
def crc16 (bs : Bytes) : BitVec 16 := bs.foldl crc16Byte 0xFFFF#16

/-- CRC-6 of the LX field (R178): polynomial x^6 + x + 1, initial value 0, bits from bit 0 upward. -/
def crc6 (bits : List Bool) : BitVec 6 :=
  bits.foldl (fun c b => if xor (c.getLsbD 5) b then (c <<< 1) ^^^ 0x03#6 else c <<< 1) 0#6

/-- Signed value of a `w`-bit field. -/
def signed (w v : Nat) : Int := if v % 2 ^ w < 2 ^ (w - 1) then (v % 2 ^ w : Nat) else (v % 2 ^ w : Nat) - (2 ^ w : Nat)

/-- Two's-complement field of `w` bits. -/
def unsigned (w : Nat) (v : Int) : Nat := (v % (2 ^ w : Nat)).toNat

/-- `v` held within `-lim` to `lim`. -/
def clampI (lo hi v : Int) : Int := max lo (min hi v)

/-- A quotient whose rounding the spec does not state: the integer below or above it, and itself where it is one (log entry 14). `n`
names the place. -/
def rounded (n : Nat) (num : Int) (den : Nat) : Int :=
  num / den + (if num % den ≠ 0 ∧ Config.roundUp n num den = true then 1 else 0)

/-- Element `i` of a vector set to `x`. -/
def vset {α : Type} {n : Nat} (v : Vector α n) (i : Fin n) (x : α) : Vector α n := v.set i.val x i.isLt

/-- Element `i` of a vector changed by `f`. -/
def vmod {α : Type} {n : Nat} (v : Vector α n) (i : Fin n) (f : α → α) : Vector α n := vset v i (f v[i])

end Sys2Proof.Machine
end

