-- ==== Sys2Proof/Machine/Aes.lean ====
section
/-! DEFINITION. Sys2Proof/Machine/Aes.lean: AES-256 and the modes of R86 (GCM, CBC, CFB-128, CTR, KW, CMAC), and the
key derivation of R97 (NIST SP 800-108 counter mode over AES-CMAC). -/

namespace Sys2Proof.Machine.Aes

/-- Doubling in the AES field, polynomial 0x11B. -/
def xt (a : Byte) : Byte := if a.getLsbD 7 then (a <<< 1) ^^^ 0x1B#8 else a <<< 1

/-- Multiplication in the AES field: bits of `b` from the lowest. -/
def mul (a b : Byte) : Byte :=
  ((List.range 8).foldl (fun st i => (if b.getLsbD i then st.1 ^^^ st.2 else st.1, xt st.2)) (0#8, a)).1

/-- `a^254`, the inverse in the AES field. -/
def inv (a : Byte) : Byte :=
  let a2 := mul a a
  let a4 := mul a2 a2
  let a8 := mul a4 a4
  let a16 := mul a8 a8
  let a32 := mul a16 a16
  let a64 := mul a32 a32
  mul a2 (mul a4 (mul a8 (mul a16 (mul a32 (mul a64 (mul a64 a64))))))

/-- The S-box of FIPS 197, computed. -/
def sboxOf (a : Byte) : Byte :=
  let b := inv a
  b ^^^ b.rotateLeft 1 ^^^ b.rotateLeft 2 ^^^ b.rotateLeft 3 ^^^ b.rotateLeft 4 ^^^ 0x63#8

/-- The S-box as one number: byte `a` of it is the S-box of `a`. -/
def sboxTab : Nat :=
  (0x75b227ebe28012079a059618c323c7041531d871f1e5a534ccf73f362693fdb7c072a49cafa2d4adf04759fa7dc982ca76abd7fe2b670130c56f6bf27b777c63 <<< 0) |||
    (0xd2f3ff1021dab6bcf5389d928f40a351a89f3c507f02f94585334d43fbaaefd0cf584c4a39becb6a5bb1fc20ed00d153842fe329b3d63b52a05a6e1b1a2c8309 <<< 512) |||
    (0x08ae7a65eaf4566ca94ed58d6d37c8e779e4959162acd3c25c2406490a3a32e0db0b5ede14b8ee4688902a22dc4f816073195d643d7ea7c41744975fec130ccd <<< 1024) |||
    (0x16bb54b00f2d99416842e6bf0d89a18cdf2855cee9871e9b948ed9691198f8e19e1dc186b95735610ef6034866b53e708a8bbd4b1f74dde8c6b4a61c2e2578ba <<< 1536)

/-- The inverse S-box in the same form. -/
def sboxInvTab : Nat :=
  (0x25d18b6d49a25b76b224d92866a12e084ec3fa420b954cee3d23c2a632947b54cbe9dec444438e3487ff2f9b8239e37cfbd7f3819ea340bf38a53630d56a0952 <<< 0) |||
    (0x6b8a130103bdafc1020f3fca8f1e2cd00645b3b80558e4f70ad3bc8c00abd890849d8da75746155edab9edfd5048706c92b6655dcc5ca4d41698688664f6f872 <<< 512) |||
    (0xf45acd78fec0db9a2079d2c64b3e56fc1bbe18aa0e62b76f89c5291d711af1476edf751ce837f9e28535ade72274ac9673e6b4f0cecff297eadc674f4111913a <<< 1024) |||
    (0x7d0c2155631469e126d677ba7e042b17619953833cbbebc8b0f52aae4d3be0a0ef9cc9939f7ae52d0d4ab519a97f51605fec8027591012b131c7078833a8dd1f <<< 1536)

/-- SubBytes of one byte. -/
def sub (b : Byte) : Byte := BitVec.ofNat 8 (sboxTab >>> (8 * b.toNat))

/-- InvSubBytes of one byte. -/
def subInv (b : Byte) : Byte := BitVec.ofNat 8 (sboxInvTab >>> (8 * b.toNat))

/-- The word before position `i` of an AES-256 key schedule, transformed as FIPS 197 says. -/
def keyTemp (i : Nat) (rcon : Byte) (w : Bytes) : Bytes :=
  if i % 8 = 0 then xorBytes ((w.drop 1 ++ w.take 1).map sub) [rcon, 0, 0, 0]
  else if i % 8 = 4 then w.map sub else w

/-- The 60 words of the schedule, newest first while it is built. -/
def keyWords (key : Bytes) : Array Bytes :=
  let w0 := ((List.range 8).map (fun i => slice key (4 * i) 4)).toArray
  ((List.range 52).foldl (fun (st : Array Bytes × Byte) k =>
    let i := k + 8
    let t := keyTemp i st.2 (st.1[i - 1]!)
    (st.1.push (xorBytes (st.1[i - 8]!) t), if i % 8 = 0 then xt st.2 else st.2)) (w0, 1#8)).1

/-- The 15 round keys of a 32-byte key. -/
def roundKeys (key : Bytes) : List Bytes :=
  let w := keyWords key
  (List.range 15).map (fun r => ((List.range 4).map (fun c => w[4 * r + c]!)).flatten)

/-- ShiftRows of a block held column by column. -/
def shiftRows (b : Bytes) : Bytes := (List.range 16).map (fun i => b.getD ((i + 4 * (i % 4)) % 16) 0)

/-- InvShiftRows. -/
def shiftRowsInv (b : Bytes) : Bytes := (List.range 16).map (fun i => b.getD ((i + 12 * (i % 4)) % 16) 0)

/-- One column under the circulant matrix with first row `r`. -/
def mixCol (r : List Byte) (c : Bytes) : Bytes :=
  (List.range 4).map (fun i =>
    (List.range 4).foldl (fun a j => a ^^^ mul (c.getD j 0) (r.getD ((j + 4 - i) % 4) 0)) 0#8)

/-- MixColumns by a circulant matrix. -/
def mixColumns (r : List Byte) (b : Bytes) : Bytes :=
  ((List.range 4).map (fun c => mixCol r (slice b (4 * c) 4))).flatten

/-- One round of the cipher before the last. -/
def round (b k : Bytes) : Bytes := xorBytes (mixColumns [2, 3, 1, 1] (shiftRows (b.map sub))) k

/-- AES-256 of one block under an expanded key. -/
def encryptBlock (ks : List Bytes) (b : Bytes) : Bytes :=
  let mid := ((ks.drop 1).take 13).foldl round (xorBytes b (ks.getD 0 []))
  xorBytes (shiftRows (mid.map sub)) (ks.getD 14 [])

/-- One round of the inverse cipher. -/
def roundInv (b k : Bytes) : Bytes := mixColumns [14, 11, 13, 9] (xorBytes ((shiftRowsInv b).map subInv) k)

/-- The inverse cipher of one block. -/
def decryptBlock (ks : List Bytes) (b : Bytes) : Bytes :=
  let mid := ((ks.drop 1).take 13).reverse.foldl roundInv (xorBytes b (ks.getD 14 []))
  xorBytes ((shiftRowsInv mid).map subInv) (ks.getD 0 [])

/-- A run of bytes cut in blocks of 16, the last one short. -/
def blocks (bs : Bytes) : List Bytes :=
  (List.range (ceilDiv bs.length 16)).map (fun i => (bs.drop (16 * i)).take 16)

/-- The next counter block: the low `w` bytes count, big-endian, and wrap. -/
def incr (w : Nat) (b : Bytes) : Bytes :=
  b.take (16 - w) ++ beBytes w ((beNat (b.drop (16 - w)) + 1) % 256 ^ w)

/-- CTR mode: counter block `c` for the first block, its low `w` bytes counting. -/
def ctr (ks : List Bytes) (w : Nat) (c : Bytes) (data : Bytes) : Bytes :=
  ((blocks data).foldl (fun (st : Bytes × List Bytes) b =>
    (incr w st.1, xorBytes b (encryptBlock ks st.1) :: st.2)) (c, [])).2.reverse.flatten

/-- CBC decryption (R86, R111). -/
def cbcDecrypt (ks : List Bytes) (iv data : Bytes) : Bytes :=
  ((blocks data).foldl (fun (st : Bytes × List Bytes) b =>
    (b, xorBytes (decryptBlock ks b) st.1 :: st.2)) (iv, [])).2.reverse.flatten

/-- CFB-128 decryption (R86, R111). -/
def cfbDecrypt (ks : List Bytes) (iv data : Bytes) : Bytes :=
  ((blocks data).foldl (fun (st : Bytes × List Bytes) b =>
    (b, xorBytes b (encryptBlock ks st.1) :: st.2)) (iv, [])).2.reverse.flatten

/-- Multiplication in the GHASH field of SP 800-38D; element bit 0 is the most significant bit of byte 0. -/
def gMul (x y : BitVec 128) : BitVec 128 :=
  ((List.range 128).foldl (fun (st : BitVec 128 × BitVec 128) i =>
    (if x.getMsbD i then st.1 ^^^ st.2 else st.1,
     if st.2.getLsbD 0 then (st.2 >>> 1) ^^^ 0xE1000000000000000000000000000000#128 else st.2 >>> 1)) (0#128, y)).1

/-- A block of 16 bytes as a field element, zero padded. -/
def blk (b : Bytes) : BitVec 128 := BitVec.ofNat 128 (beNat (padTo 16 b))

/-- GHASH over padded blocks. -/
def ghash (h : BitVec 128) (bs : List Bytes) : BitVec 128 := bs.foldl (fun a b => gMul (a ^^^ blk b) h) 0#128

/-- The 16-byte tag of GCM for a 96-bit IV. -/
def gcmTag (ks : List Bytes) (iv aad ct : Bytes) : Bytes :=
  let h := blk (encryptBlock ks (zeros 16))
  let s := ghash h (blocks aad ++ blocks ct ++ [beBytes 8 (8 * aad.length) ++ beBytes 8 (8 * ct.length)])
  xorBytes (beBytes 16 s.toNat) (encryptBlock ks (iv ++ [0, 0, 0, 1]))

/-- GCM keystream mode: seals or opens the body (R86, R100). -/
def gcmBody (ks : List Bytes) (iv data : Bytes) : Bytes := ctr ks 4 (iv ++ [0, 0, 0, 2]) data

/-- Doubling of SP 800-38B. -/
def cmacDouble (l : BitVec 128) : BitVec 128 := if l.getLsbD 127 then (l <<< 1) ^^^ 0x87#128 else l <<< 1

/-- AES-CMAC (SP 800-38B). -/
def cmac (key msg : Bytes) : Bytes :=
  let ks := roundKeys key
  let k1 := cmacDouble (blk (encryptBlock ks (zeros 16)))
  let k2 := cmacDouble k1
  let n := max 1 (ceilDiv msg.length 16)
  let last := msg.drop (16 * (n - 1))
  let lastB := if last.length = 16 then xorBytes last (beBytes 16 k1.toNat)
    else xorBytes (padTo 16 (last ++ [0x80])) (beBytes 16 k2.toNat)
  let c := (blocks (msg.take (16 * (n - 1)))).foldl (fun a b => encryptBlock ks (xorBytes a b)) (zeros 16)
  encryptBlock ks (xorBytes c lastB)

/-- The KDF of R97: label of 8 ASCII bytes, context of 32 bytes, 256 bits out. -/
def kdf (key : Bytes) (label : String) (context : Bytes) : Bytes :=
  let tail := ascii label ++ [0] ++ padTo 32 context ++ beBytes 4 256
  cmac key (beBytes 4 1 ++ tail) ++ cmac key (beBytes 4 2 ++ tail)

/-- The integrity check value of AES Key Wrap (R96). -/
def kwIcv : Bytes := List.replicate 8 0xA6#8

/-- AES Key Wrap of `data`, a whole number of 8-byte words (SP 800-38F). -/
def kwWrap (key data : Bytes) : Bytes :=
  let ks := roundKeys key
  let n := data.length / 8
  let r0 := (List.range n).map (fun i => slice data (8 * i) 8)
  let out := (List.range (6 * n)).foldl (fun (st : Bytes × List Bytes) k =>
    let i := k % n
    let b := encryptBlock ks (st.1 ++ st.2.getD i [])
    (xorBytes (b.take 8) (beBytes 8 (k + 1)), st.2.set i (b.drop 8))) (kwIcv, r0)
  out.1 ++ out.2.flatten

/-- AES Key Unwrap; none when the integrity check value does not match (R96). -/
def kwUnwrap (key data : Bytes) : Option Bytes :=
  let ks := roundKeys key
  let n := data.length / 8 - 1
  let r0 := (List.range n).map (fun i => slice data (8 * (i + 1)) 8)
  let out := (List.range (6 * n)).reverse.foldl (fun (st : Bytes × List Bytes) k =>
    let i := k % n
    let b := decryptBlock ks (xorBytes st.1 (beBytes 8 (k + 1)) ++ st.2.getD i [])
    (b.take 8, st.2.set i (b.drop 8))) (slice data 0 8, r0)
  if out.1 = kwIcv then some out.2.flatten else none

end Sys2Proof.Machine.Aes
end

