-- ==== Sys2Proof/Machine/Sha.lean ====
section
/-! DEFINITION. Sys2Proof/Machine/Sha.lean: SHA-384 (FIPS 180-4) and HMAC-SHA-384, which R95, R342 to R345 and R308
name. The round constants are computed as FIPS 180-4 defines them: the first 64 bits of the fractional parts of the
cube roots of the first 80 primes; the initial value from the square roots of the ninth to sixteenth primes. -/

namespace Sys2Proof.Machine.Sha

/-- Whether `n` has no divisor from 2 below it. -/
def isPrime (n : Nat) : Bool := 2 ≤ n && ((List.range n).drop 2).all (fun d => n % d != 0)

/-- The primes below 410, of which there are 80. -/
def primes : List Nat := (List.range 410).filter isPrime

/-- The largest `r < 2^k` over `acc` with `r^e ≤ n`, bit by bit. -/
def rootBits (e n : Nat) : Nat → Nat → Nat
  | 0, acc => acc
  | k + 1, acc => rootBits e n k (if (acc + 2 ^ k) ^ e ≤ n then acc + 2 ^ k else acc)

/-- 64 fraction bits of the `e`-th root of `p`. -/
def rootFrac (e p : Nat) : BitVec 64 := BitVec.ofNat 64 (rootBits e (p * 2 ^ (64 * e)) 72 0)

/-- The 80 round constants. -/
def roundK : List (BitVec 64) := primes.map (rootFrac 3)

/-- The eight words of the initial value of SHA-384. -/
def init : List (BitVec 64) := ((primes.drop 8).take 8).map (rootFrac 2)

/-- σ0 of SHA-512. -/
def s0 (x : BitVec 64) : BitVec 64 := x.rotateRight 1 ^^^ x.rotateRight 8 ^^^ (x >>> 7)
/-- σ1 of SHA-512. -/
def s1 (x : BitVec 64) : BitVec 64 := x.rotateRight 19 ^^^ x.rotateRight 61 ^^^ (x >>> 6)
/-- Σ0 of SHA-512. -/
def bs0 (x : BitVec 64) : BitVec 64 := x.rotateRight 28 ^^^ x.rotateRight 34 ^^^ x.rotateRight 39
/-- Σ1 of SHA-512. -/
def bs1 (x : BitVec 64) : BitVec 64 := x.rotateRight 14 ^^^ x.rotateRight 18 ^^^ x.rotateRight 41

/-- The 80 words of one block's message schedule. -/
def sched (b : Bytes) : List (BitVec 64) :=
  let w0 := ((List.range 16).map (fun i => BitVec.ofNat 64 (beNat (slice b (8 * i) 8)))).toArray
  ((List.range 64).foldl (fun (w : Array (BitVec 64)) k =>
    w.push (s1 (w.getD (k + 14) 0) + w.getD (k + 9) 0 + s0 (w.getD (k + 1) 0) + w.getD k 0)) w0).toList

/-- The eight working variables. -/
structure Vars where
  a : BitVec 64
  b : BitVec 64
  c : BitVec 64
  d : BitVec 64
  e : BitVec 64
  f : BitVec 64
  g : BitVec 64
  h : BitVec 64

/-- One round. -/
def round (v : Vars) (kw : BitVec 64 × BitVec 64) : Vars :=
  let t1 := v.h + bs1 v.e + ((v.e &&& v.f) ^^^ (~~~v.e &&& v.g)) + kw.1 + kw.2
  let t2 := bs0 v.a + ((v.a &&& v.b) ^^^ (v.a &&& v.c) ^^^ (v.b &&& v.c))
  { a := t1 + t2, b := v.a, c := v.b, d := v.c, e := v.d + t1, f := v.e, g := v.f, h := v.g }

/-- The compression of one 128-byte block into the chaining value. -/
def block (hs : List (BitVec 64)) (b : Bytes) : List (BitVec 64) :=
  let g := fun i => hs.getD i 0
  let v := (List.zip roundK (sched b)).foldl round
    { a := g 0, b := g 1, c := g 2, d := g 3, e := g 4, f := g 5, g := g 6, h := g 7 }
  List.zipWith (· + ·) hs [v.a, v.b, v.c, v.d, v.e, v.f, v.g, v.h]

/-- The padded message. -/
def padded (m : Bytes) : Bytes :=
  m ++ [0x80] ++ zeros ((239 - m.length % 128) % 128) ++ beBytes 16 (8 * m.length)

/-- SHA-384. -/
def sha384 (m : Bytes) : Bytes :=
  let p := padded m
  let h := (List.range (p.length / 128)).foldl (fun h i => block h (slice p (128 * i) 128)) init
  ((h.take 6).map (fun x => beBytes 8 x.toNat)).flatten

/-- HMAC-SHA-384 (FIPS 198-1). -/
def hmac (key m : Bytes) : Bytes :=
  let k := padTo 128 (if key.length > 128 then sha384 key else key)
  sha384 (k.map (· ^^^ 0x5C#8) ++ sha384 (k.map (· ^^^ 0x36#8) ++ m))

end Sys2Proof.Machine.Sha
end

