-- ==== Sys2Proof/Machine/Ecc.lean ====
section
/-! DEFINITION. Sys2Proof/Machine/Ecc.lean: the curve P-384 (FIPS 186-5): key agreement (R95), the public-key check of
R96, and ECDSA with SHA-384, signing with the deterministic nonce of RFC 6979. -/

namespace Sys2Proof.Machine.Ecc

/-- The field prime. -/
def p : Nat := 2 ^ 384 - 2 ^ 128 - 2 ^ 96 + 2 ^ 32 - 1
/-- The coefficient b. -/
def b : Nat :=
  0xb3312fa7e23ee7e4988e056be3f82d19181d9c6efe8141120314088f5013875ac656398d8a2ed19d2a85c8edd3ec2aef
/-- The group order. -/
def n : Nat :=
  0xffffffffffffffffffffffffffffffffffffffffffffffffc7634d81f4372ddf581a0db248b0a77aecec196accc52973
/-- The base point. -/
def gx : Nat :=
  0xaa87ca22be8b05378eb1c71ef320ad746e1d3b628ba79b9859f741e082542a385502f25dbf55296c3a545e3872760ab7
/-- The base point. -/
def gy : Nat :=
  0x3617de4a96262c6f5d9e98bf9292dc29f8f41dbd289a147ce9da3113b5f0b8c00a60b1ce1d7e819d7a431d7c90ea0e5f

/-- `a^e mod m`, square and multiply over `k` bits of `e`, highest first. -/
def powMod (m a e : Nat) : Nat → Nat → Nat
  | 0, acc => acc
  | k + 1, acc =>
    let sq := acc * acc % m
    powMod m a e k (if e.testBit k then sq * a % m else sq)

/-- The inverse modulo a prime `m`. -/
def invMod (m a : Nat) : Nat := powMod m (a % m) (m - 2) 384 1

/-- A point: none is the point at infinity. -/
abbrev Point := Option (Nat × Nat)

/-- A point in Jacobian coordinates; Z = 0 is the point at infinity. -/
structure Jac where
  x : Nat
  y : Nat
  z : Nat

/-- Doubling, coefficient a = −3. -/
def dbl (q : Jac) : Jac :=
  let yy := q.y * q.y % p
  let s := 4 * q.x * yy % p
  let zz := q.z * q.z % p
  let m := 3 * (q.x + (p - zz)) * (q.x + zz) % p
  let x3 := (m * m + 2 * (p - s)) % p
  { x := x3, y := (m * (s + (p - x3)) + 8 * (p - yy * yy % p)) % p, z := 2 * q.y * q.z % p }

/-- Addition. -/
def add (q r : Jac) : Jac :=
  if q.z = 0 then r else if r.z = 0 then q else
  let z1 := q.z * q.z % p
  let z2 := r.z * r.z % p
  let u1 := q.x * z2 % p
  let u2 := r.x * z1 % p
  let t1 := q.y * z2 * r.z % p
  let t2 := r.y * z1 * q.z % p
  let h := (u2 + (p - u1)) % p
  let d := (t2 + (p - t1)) % p
  if h = 0 then (if d = 0 then dbl q else { x := 1, y := 1, z := 0 }) else
  let hh := h * h % p
  let hhh := h * hh % p
  let v := u1 * hh % p
  let x3 := (d * d + (p - hhh) + 2 * (p - v)) % p
  { x := x3, y := (d * (v + (p - x3)) + (p - t1 * hhh % p)) % p, z := h * q.z * r.z % p }

/-- The affine point. -/
def affine (q : Jac) : Point :=
  if q.z = 0 then none else
  let i := invMod p q.z
  let ii := i * i % p
  some (q.x * ii % p, q.y * ii * i % p)

/-- The Jacobian form of an affine point. -/
def jac (q : Nat × Nat) : Jac := { x := q.1, y := q.2, z := 1 }

/-- `k` times a point. -/
def mulJ (k : Nat) (q : Jac) : Jac :=
  (List.range 384).reverse.foldl (fun acc i => let d := dbl acc; if k.testBit i then add d q else d)
    { x := 1, y := 1, z := 0 }

/-- The public key of a private key. -/
def pubPoint (d : Nat) : Point := affine (mulJ d (jac (gx, gy)))

/-- The uncompressed form, 97 bytes. -/
def encode (q : Nat × Nat) : Bytes := [0x04] ++ beBytes 48 q.1 ++ beBytes 48 q.2

/-- The uncompressed public key of a private key. -/
def pub (d : Nat) : Bytes := match pubPoint d with
  | some q => encode q
  | none => zeros 97

/-- Whether a point lies on the curve with both coordinates below the prime (R96). -/
def onCurve (q : Nat × Nat) : Bool :=
  q.1 < p && q.2 < p && q.2 * q.2 % p == (q.1 * q.1 * q.1 + 3 * (p - q.1) + b) % p

/-- A public key read from its uncompressed form, under the check of R96. -/
def decode (k : Bytes) : Option (Nat × Nat) :=
  let q := (beNat (slice k 1 48), beNat (slice k 49 48))
  if k.length = 97 ∧ u8 k 0 = 4 ∧ onCurve q = true then some q else none

/-- The x-coordinate of the shared secret, 48 bytes (R95). -/
def dh (d : Nat) (q : Nat × Nat) : Bytes := match affine (mulJ d (jac q)) with
  | some r => beBytes 48 r.1
  | none => zeros 48

/-- A private key from 48 random bytes: 1 to n − 1. -/
def privOf (r : Bytes) : Nat := beNat r % (n - 1) + 1

/-- The signature that nonce `k` gives for a hash; none when r or s is 0 (R419). -/
def signWith (d : Nat) (h : Bytes) (k : Nat) : Option Bytes :=
  let r := (match pubPoint k with | some q => q.1 | none => 0) % n
  let s := invMod n k * (beNat h + r * d) % n
  if r = 0 ∨ s = 0 then none else some (beBytes 48 r ++ beBytes 48 s)

/-- The signature from the first candidate of the RFC 6979 generation that lies in 1 to n − 1 and gives neither r = 0
nor s = 0 (R419); `f` bounds the candidates tried. -/
def signTry (f : Nat) (d : Nat) (h k v : Bytes) : Bytes := match f with
  | 0 => zeros 96
  | f + 1 =>
    let v1 := Sha.hmac k v
    let c := beNat v1
    match (if 0 < c ∧ c < n then signWith d h c else none) with
    | some sig => sig
    | none =>
      let k1 := Sha.hmac k (v1 ++ [0])
      signTry f d h k1 (Sha.hmac k1 v1)

/-- ECDSA signature r then s, 48 bytes each, over the SHA-384 of a message, with the nonces of RFC 6979 (R419). -/
def sign (d : Nat) (m : Bytes) : Bytes :=
  let h := Sha.sha384 m
  let x := beBytes 48 d ++ beBytes 48 (beNat h % n)
  let v0 := List.replicate 48 0x01#8
  let k1 := Sha.hmac (zeros 48) (v0 ++ [0] ++ x)
  let v1 := Sha.hmac k1 v0
  let k2 := Sha.hmac k1 (v1 ++ [1] ++ x)
  signTry 8 d h k2 (Sha.hmac k2 v1)

/-- ECDSA verification of a 96-byte signature over a message hash. -/
def verifyHash (key h sig : Bytes) : Bool :=
  match decode key with
  | none => false
  | some q =>
    let r := beNat (slice sig 0 48)
    let s := beNat (slice sig 48 48)
    if sig.length = 96 ∧ 0 < r ∧ r < n ∧ 0 < s ∧ s < n then
      let w := invMod n s
      let u1 := beNat h % n * w % n
      let u2 := r * w % n
      match affine (add (mulJ u1 (jac (gx, gy))) (mulJ u2 (jac q))) with
      | some x => x.1 % n == r
      | none => false
    else false

/-- ECDSA verification over a message. -/
def verify (key m sig : Bytes) : Bool := verifyHash key (Sha.sha384 m) sig

end Sys2Proof.Machine.Ecc
end

