-- ==== Sys2Proof/Machine/Compress.lean ====
section
/-! DEFINITION. Sys2Proof/Machine/Compress.lean: compression and decompression of one block (R64 to R78) and the framing
of records (R61, R62, R81). -/

namespace Sys2Proof.Machine

/-! ### Predictor and residues (R66 to R69) -/

/-- Seed tables (R64, R69). -/
inductive Seed | none | text | numeric | binary
  deriving DecidableEq, Repr

/-- The header code of a seed (R64). -/
def Seed.code : Seed → Nat
  | .none => 0 | .text => 1 | .numeric => 2 | .binary => 3

/-- The seed of a header code (R64). -/
def Seed.ofCode (n : Nat) : Seed := [Seed.none, Seed.text, Seed.numeric, Seed.binary].getD n .binary

/-- The prediction-table entry that a seed gives context `h` (R69). -/
def seedEntry (s : Seed) (h : Nat) : Byte × Byte :=
  match s with
  | .none => (0x00, 0xFF)
  | .text => (0x20, 0x65)
  | .numeric => (0x30, 0x2C)
  | .binary => let x := BitVec.ofNat 8 (h >>> 4); (x, x ^^^ 0xFF)

/-- Predictor state: the entries that differ from the seed table, and the two bytes before (R66). -/
structure Predictor where
  seed : Seed
  table : List (Nat × (Byte × Byte))
  p1 : Byte
  p2 : Byte

/-- State at the first byte of every block (R69). -/
def Predictor.start (s : Seed) : Predictor := { seed := s, table := [], p1 := 0, p2 := 0 }

/-- The context of the current byte, 12 bits (R66). -/
def Predictor.ctx (p : Predictor) : Nat := ((p.p1.toNat <<< 4) ^^^ p.p2.toNat) &&& 0xFFF

/-- P[h] (R66, R69). -/
def Predictor.entry (p : Predictor) : Byte × Byte := (p.table.lookup p.ctx).getD (seedEntry p.seed p.ctx)

/-- The residue of byte `v` after predictions `a` and `b` (R67). -/
def residue (a b v : Byte) : Nat :=
  if v = a then 0 else if v = b then 1
  else 2 + v.toNat - bit (decide (a.toNat < v.toNat)) - bit (decide (b.toNat < v.toNat))

/-- The byte of residue `r` after predictions `a` and `b` (R67). -/
def unresidue (a b : Byte) (r : Nat) : Byte :=
  if r = 0 then a else if r = 1 then b
  else (((List.range 256).map (BitVec.ofNat 8)).filter (fun v => v ≠ a && v ≠ b)).getD (r - 2) 0

/-- Update of the table entry and the two bytes before (R67). -/
def Predictor.step (p : Predictor) (v : Byte) : Predictor :=
  let e := p.entry
  let e' := if v = e.1 then e else if v = e.2 then (e.2, e.1) else (v, e.1)
  { p with table := if e' = e then p.table else (p.ctx, e') :: p.table.filter (fun x => x.1 ≠ p.ctx), p1 := v, p2 := p.p1 }

/-- The residues of an input block (R67). -/
def residues (p : Predictor) : Bytes → List Nat
  | [] => []
  | v :: vs => let e := p.entry; residue e.1 e.2 v :: residues (p.step v) vs

/-- RUN symbols of a run of `z` zero residues, greedily (R68); `fuel` bounds the number of symbols. -/
def runSymbols : Nat → Nat → List Nat
  | 0, _ => []
  | fuel + 1, z =>
    match (List.range 8).reverse.find? (fun k => decide (2 ^ (k + 1) ≤ z)) with
    | some k => (256 + k) :: runSymbols fuel (z - 2 ^ (k + 1))
    | none => if z = 1 then [0] else []

/-- Residues to symbols, runs of zero residues split greedily; `z` zeros stand before (R68). -/
def toSymbols (z : Nat) : List Nat → List Nat
  | [] => runSymbols (z + 1) z
  | r :: rs => if r = 0 then toSymbols (z + 1) rs else runSymbols (z + 1) z ++ r :: toSymbols 0 rs

/-! ### Code tables (R71 to R73) -/

/-- T0 and T1: the code length of each of the 264 symbols (R72). -/
def tableT0 : List Nat := [2, 3] ++ List.replicate 8 5 ++ List.replicate 130 9 ++ List.replicate 124 10
def tableT1 : List Nat := List.replicate 248 8 ++ List.replicate 16 9

/-- The canonical codes of one length, from `code` upward (R71): pairs of symbol, length and code. -/
def codesOfLen (lens : List Nat) (len code : Nat) : List (Nat × Nat × Nat) :=
  ((lens.zipIdx.filter (fun x => x.1 = len)).zipIdx).map (fun x => (x.1.2, len, code + x.2))

/-- The canonical code of a length table (R71): symbol, length, code. -/
def canonical (lens : List Nat) : List (Nat × Nat × Nat) :=
  ((List.range 15).foldl (fun st i =>
    let cs := codesOfLen lens (i + 1) st.2
    (st.1 ++ cs, (st.2 + cs.length) * 2)) (([] : List (Nat × Nat × Nat)), 0)).1

/-- The bits of a number, most significant of `n` first. -/
def codeBits (n v : Nat) : List Bool := (List.range n).map (fun i => v.testBit (n - 1 - i))

/-- Packs bits into bytes from the most significant bit, padded with 0 (R71). -/
def packBits : Nat → List Bool → Bytes
  | 0, _ => []
  | fuel + 1, l =>
    if l.isEmpty then []
    else BitVec.ofNat 8 (((l.take 8) ++ List.replicate (8 - (l.take 8).length) false).foldl (fun a b => 2 * a + bit b) 0) ::
      packBits fuel (l.drop 8)

/-- The bitstream bytes of symbols under a length table (R71). -/
def encodeSymbols (lens : List Nat) (syms : List Nat) : Bytes :=
  let codes := canonical lens
  let bits := syms.flatMap (fun s =>
    match codes.find? (fun c => c.1 = s) with
    | some c => codeBits c.2.1 c.2.2
    | none => [])
  packBits bits.length bits

/-- Symbol histogram over the 264 symbols (R73). -/
def histogram (syms : List Nat) : List Nat := (List.range 264).map (fun s => syms.countP (· == s))

/-- A DYNAMIC table is valid: some length non-zero and Kraft's sum at most 1 (R73). -/
def tableValid (lens : List Nat) : Bool :=
  lens.any (· != 0) &&
  decide (((lens.filter (· ≠ 0)).map (fun l => 2 ^ (15 - l))).foldl (· + ·) 0 ≤ 2 ^ 15)

/-- Adds a weighted set of symbols to a list that rises by weight, before those of its own weight. -/
def insertLight (x : Nat × List Nat) : List (Nat × List Nat) → List (Nat × List Nat)
  | [] => [x]
  | y :: ys => if x.1 ≤ y.1 then x :: y :: ys else y :: insertLight x ys

/-- Neighbours joined two by two; a last odd one is dropped. -/
def packages : List (Nat × List Nat) → List (Nat × List Nat)
  | a :: b :: t => (a.1 + b.1, a.2 ++ b.2) :: packages t
  | _ => []

/-- A length-limited Huffman code of a histogram, with lengths of 15 or less, by package and merge (R73). -/
def huffmanTable (hist : List Nat) : List Nat :=
  let used := (List.range 264).filter (fun s => hist.getD s 0 != 0)
  let leaves := used.foldr (fun s l => insertLight (hist.getD s 0, [s]) l) []
  let top := (List.range 14).foldl (fun cur _ => (packages cur).foldr insertLight leaves) leaves
  let chosen := (top.take (2 * used.length - 2)).flatMap (·.2)
  (List.range 264).map (fun s => if used == [s] then 1 else chosen.count s)

/-- The bits that a length table spends on a histogram. -/
def tableCost (lens hist : List Nat) : Nat := (List.zipWith (· * ·) lens hist).sum

/-- Whether a length table is a length-limited Huffman code of a histogram (R73): lengths of 15 or less for just the symbols in use, and no
such code spends fewer bits. -/
def isHuffman (lens hist : List Nat) : Bool :=
  lens.length == 264 && lens.all (fun l => decide (l ≤ 15)) && tableValid lens
    && (List.range 264).all (fun s => (lens.getD s 0 != 0) == (hist.getD s 0 != 0)) && tableCost lens hist == tableCost (huffmanTable hist) hist

/-- The dynamic table of a block (R73): of the length-limited Huffman codes of its histogram, one that the spec leaves open. -/
def dynamicTable (syms : List Nat) : List Nat :=
  let h := histogram syms
  let l := Config.huffman h
  if isHuffman l h then l else huffmanTable h

/-- The 132 bytes of a code table (R73). -/
def tableBytes (lens : List Nat) : Bytes :=
  (List.range 132).map (fun k => BitVec.ofNat 8 (16 * lens.getD (2 * k) 0 + lens.getD (2 * k + 1) 0))

/-- The code table that 132 bytes spell (R73). -/
def tableOfBytes (b : Bytes) : List Nat :=
  (List.range 132).flatMap (fun k => [u8 b k / 16, u8 b k % 16])

/-! ### The block header and body (R64, R65, R74) -/

/-- Block modes (R64). -/
def modeStored : Nat := 0
def modeStatic : Nat := 1
def modeDynamic : Nat := 2

/-- What the framer says of a block with its input (R50, R62, R64). -/
structure BlockMeta where
  continues : Bool
  endsOpen : Bool
  firstFrame : Option Nat
  deriving DecidableEq, Repr

/-- Header bytes 0 to 11 (R64). -/
def headerBytes (mode seed : Nat) (m : BlockMeta) (inLen bodyLen tab : Nat) : Bytes :=
  leBytes 1 (mode + 4 * seed + 16 * bit m.continues + 32 * bit m.endsOpen) ++ [0xF3] ++ leBytes 3 inLen ++
    leBytes 3 bodyLen ++ leBytes 3 (m.firstFrame.getD 0xFFFFFF) ++ leBytes 1 tab

/-- A block as coded: header with its block CRC, then the body (R16, R64). -/
def withBlockCrc (h body : Bytes) : Bytes := h ++ crcBytes (h ++ body) ++ body

/-- The body trailer (R65). -/
def trailer (input : Bytes) (symCount : Nat) : Bytes := crcBytes input ++ leBytes 4 symCount

/-- The seed that AUTO chooses from the first 256 input bytes (R70). -/
def autoSeed (input : Bytes) : Seed :=
  let f := input.take 256
  let n := f.length
  let t := f.countP (fun b => (0x20 ≤ b.toNat && b.toNat ≤ 0x7E) || b == 0x09 || b == 0x0A || b == 0x0D)
  let d := f.countP (fun b => (0x30 ≤ b.toNat && b.toNat ≤ 0x39) || b == 0x2B || b == 0x2C || b == 0x2D || b == 0x2E)
  let z := f.countP (· == 0)
  if 7 * n ≤ 8 * t ∧ n ≤ 2 * d then .numeric
  else if 7 * n ≤ 8 * t then .text
  else if n ≤ 2 * z then .none
  else .binary

/-- A candidate coding: mode, static table number and body (R65). -/
def codings (effort : Nat) (input : Bytes) (seed : Seed) : List (Nat × Nat × Bytes) :=
  if effort = 0 then []
  else
    let syms := toSymbols 0 (residues (Predictor.start seed) input)
    let tr := trailer input syms.length
    let t0 := (modeStatic, 0, encodeSymbols tableT0 syms ++ tr)
    let t1 := (modeStatic, 1, encodeSymbols tableT1 syms ++ tr)
    if effort = 1 then [t0, t1]
    else
      let dt := dynamicTable syms
      [t0, t1, (modeDynamic, 0, tableBytes dt ++ encodeSymbols dt syms ++ tr)]

/-- The shortest coding, the earliest on a tie (R74). -/
def shortest : List (Nat × Nat × Bytes) → Option (Nat × Nat × Bytes)
  | [] => none
  | c :: cs =>
    match shortest cs with
    | none => some c
    | some d => if d.2.2.length < c.2.2.length then some d else some c

/-- Codes one block (R65, R74): the whole coded block with its block CRC; STORED bounds its length (R75). -/
def codeBlock (effort : Nat) (seed : Seed) (m : BlockMeta) (input : Bytes) : Bytes :=
  let n := input.length
  let stored := input ++ trailer input 0
  match shortest (codings effort input seed) with
  | some (mode, tab, body) =>
    if body.length < n + 8 then withBlockCrc (headerBytes mode seed.code m n body.length tab) body
    else withBlockCrc (headerBytes modeStored seed.code m n stored.length 0) stored
  | none => withBlockCrc (headerBytes modeStored seed.code m n stored.length 0) stored

/-! ### Decoding (R71, R78) -/

/-- The next symbol of a bit run: the code that is a prefix of it, with the bits left (R71). -/
def nextSymbol (codes : List (Nat × Nat × Nat)) (bits : List Bool) : Option (Nat × List Bool) :=
  (codes.find? (fun c => decide (c.2.1 ≤ bits.length) && (bits.take c.2.1 == codeBits c.2.1 c.2.2))).map
    (fun c => (c.1, bits.drop c.2.1))

/-- One byte from a residue. -/
def produce (p : Predictor) (r : Nat) : Byte × Predictor :=
  let e := p.entry
  let v := unresidue e.1 e.2 r
  (v, p.step v)

/-- `n` bytes of residue 0 (R68). -/
def produceRun : Nat → Predictor → Bytes × Predictor
  | 0, p => ([], p)
  | n + 1, p => let (v, p') := produce p 0; let (vs, p'') := produceRun n p'; (v :: vs, p'')

/-- The outcome of decoding a bitstream: the failing condition of R78, or bytes, symbols and bits left over. -/
inductive Decoded where
  | fail (condition : Nat)
  | ok (out : Bytes) (symbols : Nat) (rest : List Bool)
  deriving DecidableEq, Repr

/-- Decodes symbols until `need` bytes stand or none is left, newest bytes first (R68, R78 conditions 4 and 5). Bits left that begin a code are
condition 5, others 4; a stream that ends with a code and lacks bytes is left to condition 6. DESIGN CHOICE (log entry 113). -/
def decodeStream (codes : List (Nat × Nat × Nat)) : Nat → Predictor → Nat → Bytes → Nat → List Bool → Decoded
  | 0, _, _, acc, n, bits => .ok acc.reverse n bits
  | fuel + 1, p, need, acc, n, bits =>
    if need = 0 then .ok acc.reverse n bits
    else if bits.isEmpty then .ok acc.reverse n bits
    else
      match nextSymbol codes bits with
      | none => if codes.any (fun c => decide (bits.length < c.2.1) && (bits == (codeBits c.2.1 c.2.2).take bits.length)) then .fail 5 else .fail 4
      | some (sym, rest) =>
        if sym < 256 then
          let (v, p') := produce p sym
          decodeStream codes fuel p' (need - 1) (v :: acc) (n + 1) rest
        else
          let len := 2 ^ (sym - 255)
          if need < len then .fail 5
          else let (vs, p') := produceRun len p; decodeStream codes fuel p' (need - len) (vs.reverse ++ acc) (n + 1) rest

/-- The bits of a byte run, most significant first. -/
def streamBits (bs : Bytes) : List Bool := bs.flatMap (fun b => codeBits 8 b.toNat)

/-- The end-of-decode checks, conditions 6, 7 and 8 in that order (R78). -/
def decodeEnd (inLen symCount : Nat) (inCrc : Bytes) (out : Bytes) (syms : Nat) (rest : List Bool) : Except Nat Bytes :=
  if out.length < inLen ∨ syms ≠ symCount ∨ 8 ≤ rest.length then .error 6
  else if rest.any (fun b => b) then .error 7
  else if crcBytes out ≠ inCrc then .error 8
  else .ok out

/-- Decodes a coded block as any decoder does, whatever encoder made it (R76, R78): the input bytes, or the failing condition. -/
def decodeBlock (blk : Bytes) : Except Nat Bytes :=
  let h0 := u8 blk 0
  let mode := h0 % 4
  let inLen := leAt blk 2 3
  let bodyLen := leAt blk 5 3
  let body := slice blk 16 bodyLen
  let inCrc := slice body (bodyLen - 8) 4
  let symCount := u32 body (bodyLen - 4)
  let seed := Seed.ofCode (h0 / 4 % 4)
  let fits := if mode = 0 then bodyLen = inLen + 8 else if mode = 1 then 8 ≤ bodyLen else 140 ≤ bodyLen
  if u8 blk 1 ≠ 0xF3 ∨ h0 / 64 ≠ 0 ∨ mode = 3 then .error 1
  else if inLen = 0 ∨ 65536 < inLen ∨ ¬ fits ∨ blk.length < 16 ∨ blk.length ≠ 16 + bodyLen then .error 2
  else if mode = 0 then decodeEnd inLen symCount inCrc (body.take inLen) 0 []
  else
    let lens := if mode = 1 then (if u8 blk 11 % 2 = 0 then tableT0 else tableT1) else tableOfBytes body
    if mode = 2 ∧ tableValid lens = false then .error 3
    else
      let start := if mode = 1 then 0 else 132
      let bits := streamBits (slice body start (bodyLen - 8 - start))
      match decodeStream (canonical lens) (inLen + 1) (Predictor.start seed) inLen [] 0 bits with
      | .fail c => .error c
      | .ok out n rest => decodeEnd inLen symCount inCrc out n rest

/-- The framer's metadata as a block header carries it (R64). -/
def metaOfHeader (blk : Bytes) : BlockMeta :=
  { continues := (blk.getD 0 0).getLsbD 4, endsOpen := (blk.getD 0 0).getLsbD 5,
    firstFrame := if leAt blk 8 3 = 0xFFFFFF then none else some (leAt blk 8 3) }

/-! ### Framing of records (R61, R81) -/

/-- Where a parser stands in the framed bytes of a stream (R61). -/
inductive FramePos where
  /-- At a point where a segment prefix of a new record begins. -/
  | atRecord
  /-- Inside a prefix: bytes read so far. -/
  | inPrefix (inRecord : Bool) (got : Bytes)
  /-- Inside a segment: bytes still to come, and whether it is the record's last. -/
  | inSegment (left : Nat) (last : Bool)
  /-- Inside the suffix: bytes read so far. -/
  | inSuffix (got : Bytes)
  deriving DecidableEq, Repr

/-- What one framed byte gives a reader. -/
inductive FrameEvent where
  | nothing
  /-- A record begins. -/
  | begins
  /-- One record byte. -/
  | data (b : Byte)
  /-- The record's suffix is complete: its check value. -/
  | ends (crc : Bytes)
  /-- A framing error (R81). -/
  | error
  deriving DecidableEq, Repr

/-- After a prefix of four bytes: the position that follows (R61), and whether the flags are those R81 allows. -/
def afterPrefix (inRecord : Bool) (p : Bytes) : FramePos × FrameEvent :=
  let len := leAt p 0 3
  let first := (p.getD 3 0).getLsbD 0
  let last := (p.getD 3 0).getLsbD 1
  let pos := if len = 0 then (if last then FramePos.inSuffix [] else FramePos.inPrefix true []) else FramePos.inSegment len last
  if first = inRecord then (pos, .error)
  else if first then (pos, .begins) else (pos, .nothing)

/-- One framed byte through the parser (R61, R81). -/
def frameStep (pos : FramePos) (b : Byte) : FramePos × FrameEvent :=
  match pos with
  | .atRecord => (.inPrefix false [b], .nothing)
  | .inPrefix r got => if got.length = 3 then afterPrefix r (got ++ [b]) else (.inPrefix r (got ++ [b]), .nothing)
  | .inSegment left last =>
    (if left ≤ 1 then (if last then .inSuffix [] else .inPrefix true []) else .inSegment (left - 1) last, .data b)
  | .inSuffix got => if got.length = 3 then (.atRecord, .ends (got ++ [b])) else (.inSuffix (got ++ [b]), .nothing)

/-- Whether a position lies inside a framed extent (R62). -/
def FramePos.inside : FramePos → Bool
  | .atRecord => false
  | .inPrefix r got => r || !got.isEmpty
  | _ => true

/-- The framed bytes of one segment: prefix, then the bytes (R61). -/
def segmentBytes (first last : Bool) (bs : Bytes) : Bytes :=
  leBytes 3 bs.length ++ leBytes 1 (bit first + 2 * bit last) ++ bs

end Sys2Proof.Machine
end

