-- ==== Sys2Proof/Machine/Gf.lean ====
section
/-! DEFINITION. Sys2Proof/Machine/Gf.lean: the field GF(2^8) of R37 (polynomial 0x11D, primitive element 2) and its
Reed-Solomon codes: the header code of R30, the C2 code of R37, the buffer code of R202 and the RAIT code of R313. -/

namespace Sys2Proof.Machine

/-- Multiplication by α = 2 in the field of R37. -/
def gfTwice (a : Byte) : Byte := if a.getLsbD 7 then (a <<< 1) ^^^ 0x1D#8 else a <<< 1

/-- One partial product of `gfMul`: bit `i` of `b` adds `a · α^i`. -/
def gfMulStep (st : Byte × Byte) (i : Nat) (b : Byte) : Byte × Byte :=
  (if b.getLsbD i then st.1 ^^^ st.2 else st.1, gfTwice st.2)

/-- Multiplication in the field of R37. -/
def gfMul (a b : Byte) : Byte := ((List.range 8).foldl (fun st i => gfMulStep st i b) (0#8, a)).1

/-- `a` to the power `n`. -/
def gfPow (a : Byte) : Nat → Byte
  | 0 => 1
  | n + 1 => gfMul a (gfPow a n)

/-- α to the power `n`. -/
def gfAlpha (n : Nat) : Byte := (List.range (n % 255)).foldl (fun a _ => gfTwice a) 1

/-- The inverse of a non-zero element, `a^254`; 0 for 0. -/
def gfInv (a : Byte) : Byte :=
  let a2 := gfMul a a
  let a4 := gfMul a2 a2
  let a8 := gfMul a4 a4
  let a16 := gfMul a8 a8
  let a32 := gfMul a16 a16
  let a64 := gfMul a32 a32
  let a128 := gfMul a64 a64
  gfMul a2 (gfMul a4 (gfMul a8 (gfMul a16 (gfMul a32 (gfMul a64 a128)))))

/-- One step of `rsGen`: the product with (x + α^i), coefficients highest degree first. -/
def rsGenStep (g : List Byte) (i : Nat) : List Byte :=
  List.zipWith (· ^^^ ·) (g ++ [0]) (0 :: g.map (gfMul (gfAlpha i)))

/-- The generator (x − α^0) … (x − α^(m−1)), highest degree first. -/
def rsGen (m : Nat) : List Byte := (List.range m).foldl rsGenStep [1]

/-- One data byte into the division register of an encoder with generator `g` (leading 1 left out). -/
def rsStep (g : List Byte) (reg : List Byte) (d : Byte) : List Byte :=
  let f := d ^^^ reg.headD 0
  List.zipWith (· ^^^ ·) (reg.drop 1 ++ [0]) (g.map (gfMul f))

/-- The `m` check bytes: the remainder of data(x) · x^m modulo the generator, highest degree first (R30, R37, R202). -/
def rsCheck (m : Nat) (data : List Byte) : List Byte :=
  data.foldl (rsStep ((rsGen m).drop 1)) (List.replicate m 0)

/-- Syndrome `j` of a word whose first byte is the coefficient of the highest power. -/
def rsSyndrome (w : List Byte) (j : Nat) : Byte := w.foldl (fun a b => gfMul a (gfAlpha j) ^^^ b) 0

/-- The `m` syndromes. -/
def rsSyndromes (m : Nat) (w : List Byte) : List Byte := (List.range m).map (rsSyndrome w)

/-- One pivot of `gfSolve` over rows of coefficients with the right-hand side last. -/
def gfPivot (rows : List (List Byte)) (c : Nat) : List (List Byte) :=
  match rows.zipIdx.find? (fun r => r.2 ≥ c && r.1.getD c 0 != 0) with
  | none => rows
  | some (p, i) =>
    let inv := gfInv (p.getD c 0)
    let p' := p.map (gfMul inv)
    let swapped := (rows.set i (rows.getD c [])).set c p'
    swapped.zipIdx.map (fun r =>
      if r.2 = c then r.1 else List.zipWith (fun x y => x ^^^ gfMul (r.1.getD c 0) y) r.1 p')

/-- Solves a linear system of `n` unknowns by elimination; none when it has no single solution. -/
def gfSolve (n : Nat) (rows : List (List Byte)) : Option (List Byte) :=
  let r := (List.range n).foldl gfPivot rows
  if (List.range n).all (fun i => (r.getD i []).getD i 0 == 1)
      && (r.drop n).all (fun x => x.all (· == 0)) then
    some ((r.take n).map (fun x => x.getD n 0))
  else none

/-- The word with the bytes at positions `ps` corrected so that every syndrome is 0; none when that is impossible. -/
def rsFix (m : Nat) (w : List Byte) (ps : List Nat) : Option (List Byte) :=
  let len := w.length
  let rows := (List.range m).map (fun j =>
    ps.map (fun p => gfAlpha (j * (len - 1 - p))) ++ [rsSyndrome w j])
  match gfSolve ps.length rows with
  | none => none
  | some es => some ((ps.zip es).foldl (fun a pe => a.set pe.1 (a.getD pe.1 0 ^^^ pe.2)) w)

/-- The sets of `e` positions below `n` that avoid `avoid`, lowest first. -/
def errorSets (n : Nat) (avoid : List Nat) : Nat → List (List Nat)
  | 0 => [[]]
  | e + 1 => (errorSets n avoid e).flatMap (fun s =>
      ((List.range n).filter (fun p => !avoid.contains p && s.all (fun q => decide (p < q)))).map (fun p => p :: s))

/-- Corrects `f` erasures at known positions and up to `eMax` errors with 2e + f ≤ m (R37, R202): the word and the
positions changed as errors. -/
def rsDecode (m : Nat) (w : List Byte) (erasures : List Nat) (eMax : Nat) : Option (List Byte × List Nat) :=
  (List.range (eMax + 1)).findSome? (fun e =>
    if 2 * e + erasures.length ≤ m then
      (errorSets w.length erasures e).findSome? (fun s => (rsFix m w (erasures ++ s)).map (fun r => (r, s)))
    else none)

/-- Exclusive or of rows, byte by byte. -/
def xorRows (n : Nat) (rows : List Bytes) : Bytes := rows.foldl xorBytes (zeros n)

/-- The row multiplied by α^e. -/
def scaleRow (e : Nat) (row : Bytes) : Bytes := row.map (gfMul (gfAlpha e))

/-- Parity row `j` of R313 over the data positions' rows, position 0 first. -/
def raitParity (j n : Nat) (rows : List Bytes) : Bytes :=
  xorRows n (rows.zipIdx.map (fun r => scaleRow (j * r.2) r.1))

/-- Solves R313 for the missing data positions at one byte offset: `known` pairs a data position with its byte,
`par` pairs a parity number with its byte. -/
def raitSolve (known : List (Nat × Byte)) (missing : List Nat) (par : List (Nat × Byte)) : Option (List Byte) :=
  gfSolve missing.length ((par.take missing.length).map (fun q =>
    missing.map (fun i => gfAlpha (q.1 * i)) ++
      [known.foldl (fun a k => a ^^^ gfMul (gfAlpha (q.1 * k.1)) k.2) q.2]))

end Sys2Proof.Machine
end

