-- ==== Sys2Proof/Machine/Format.lean ====
section
/-! DEFINITION. Sys2Proof/Machine/Format.lean: the FF3 recording format (R25 to R53): geometry, codeword objects,
scrambler and 32/33 modulation, the C1 code with its decoder (R158), the C2 code, datasets and their index. -/

namespace Sys2Proof.Machine

/-! ### Geometry (R25 to R27) -/

/-- The band of wrap number `w` (R26). -/
def bandOf (w : Nat) : Nat := [2, 3, 1, 4, 0, 5].getD (w / 40) 0

/-- The zone of a band: 0 A, 1 B, 2 C (R27). -/
def zoneOfBand (b : Nat) : Nat := [2, 1, 0, 0, 1, 2].getD b 0

/-- The zone of a wrap number. -/
def zoneOf (w : Nat) : Nat := zoneOfBand (bandOf w)

/-- Whether wrap number `w` runs forward (R26). -/
def wrapForward (w : Nat) : Bool := (w % 40) % 2 == 0

/-- The track of every sub-band that wrap number `w` writes (R26). -/
def trackOf (w : Nat) : Nat := let k := w % 40; if k % 2 = 0 then k / 2 else 39 - (k - 1) / 2

/-- Linear density of a zone, bits per inch (R27). -/
def densityOf (z : Nat) : Nat := [900000, 820000, 740000].getD z 740000

/-- Sample-clock multiplier of a zone, in fifths (R139): 180, 164, 148. -/
def multiplierOf (z : Nat) : Nat := [180, 164, 148].getD z 148

/-- First and last usable LX (R25). -/
def lxFirst : Nat := 2500
def lxLast : Nat := 2752499

/-- Channel bits in the 1,100 m of one wrap (R25, R27): 1,100 m at the zone's density. -/
def wrapBits (z : Nat) : Nat := 1100 * densityOf z * 10000 / 254

/-- Bits of one codeword object, a separator and a lead-in (R28, R47). -/
def cwoBits : Nat := 19280
def sepBits : Nat := 11520
def leadBits : Nat := 46080

/-- The LX that lies `n` channel bits after the start of wrap `w` (R25, R47, R171: frames of 0.4 mm). -/
def lxAt (w n : Nat) : Nat :=
  let f := n * 254 / (densityOf (zoneOf w) * 4)
  if wrapForward w then lxFirst + f else lxLast - f

/-- The six tape speeds in mm/s, by code (R133, PACE_CEIL). -/
def speedMm (code : Nat) : Nat := [6500, 5600, 4800, 4000, 3200, 2400].getD code 0

/-- Native bytes per second of `n` channels in zone `z` at speed `code`, times 10^6 (R133, exact): density · s / 0.0254
· n · 0.690 / 8. -/
def nativeMicro (n z code : Nat) : Nat := n * densityOf z * speedMm code * 1000000 / 254 * 10 * 690 / 8000

/-! ### Codeword objects (R28 to R34) -/

/-- CWO header types of R30. -/
def typeData : Nat := 1
def typeVault : Nat := 2
def typeEod : Nat := 3
def typeFill : Nat := 4
def typeCal : Nat := 5
def typeRait : Nat := 6

/-- The header of a codeword object, decoded (R30). -/
structure CwoHeader where
  type : Nat
  attempt : Nat
  revision : Nat
  dsn : Nat
  cwoIndex : Nat
  partition : Nat
  streamTag : Nat
  tierSlot : Nat
  wrap : Nat
  channel : Nat
  deriving DecidableEq, Repr

/-- Header bytes 0 to 11 (R30). -/
def CwoHeader.data (h : CwoHeader) : Bytes :=
  leBytes 1 (h.type % 16 + 16 * (h.attempt % 4) + 64 * (h.revision % 4)) ++ leBytes 4 h.dsn ++
  leBytes 2 (h.cwoIndex % 4096 + 4096 * (h.partition % 16)) ++ leBytes 2 h.streamTag ++
  leBytes 1 (h.tierSlot % 64) ++ leBytes 1 h.wrap ++ leBytes 1 (h.channel % 128)

/-- The 16 header bytes: data and Reed-Solomon check bytes (R30). -/
def CwoHeader.bytes (h : CwoHeader) : Bytes := h.data ++ rsCheck 4 h.data

/-- The header that 12 data bytes spell (R30). -/
def CwoHeader.ofData (b : Bytes) : CwoHeader where
  type := u8 b 0 % 16
  attempt := u8 b 0 / 16 % 4
  revision := u8 b 0 / 64
  dsn := u32 b 1
  cwoIndex := u16 b 5 % 4096
  partition := u16 b 5 / 4096
  streamTag := u16 b 7
  tierSlot := u8 b 9 % 64
  wrap := u8 b 10
  channel := u8 b 11 % 128

/-- Decodes 16 header bytes with up to 2 wrong bytes (R30); none when the word is beyond the code. -/
def decodeHeader (b : Bytes) : Option CwoHeader :=
  (rsDecode 4 (slice b 0 16) [] 2).map (fun r => CwoHeader.ofData r.1)

/-- The header part of acceptance (R31): decodes, type defined, revision 0, wrap the one being read. -/
def headerAccepted (wrap : Nat) (b : Bytes) : Option CwoHeader :=
  match decodeHeader b with
  | some h => if 1 ≤ h.type ∧ h.type ≤ 6 ∧ h.revision = 0 ∧ h.wrap = wrap then some h else none
  | none => none

/-- The scrambler register seeded from the physical channel (R33). -/
def scramblerSeed (c : Nat) : BitVec 16 := BitVec.ofNat 16 ((c + 1) * 0x9E37)

/-- One step of the scrambler (R33): the next register. -/
def scramblerNext (s : BitVec 16) : BitVec 16 :=
  let fb := xor (xor (s.getLsbD 0) (s.getLsbD 2)) (xor (s.getLsbD 3) (s.getLsbD 5))
  (s >>> 1) ||| (if fb then 0x8000#16 else 0#16)

/-- The first `n` outputs of the scrambler from register `s`. -/
def scramblerOut : Nat → BitVec 16 → List Bool
  | 0, _ => []
  | n + 1, s => s.getLsbD 0 :: scramblerOut n (scramblerNext s)

/-- The bits of bytes, most significant bit first within each byte (R29). -/
def bitsOf (bs : Bytes) : List Bool := bs.flatMap (fun b => (List.range 8).map (fun i => b.getLsbD (7 - i)))

/-- The byte of (up to) eight bits, most significant first. -/
def byteOfBits (l : List Bool) : Byte := BitVec.ofNat 8 ((l ++ List.replicate (8 - l.length) false).foldl (fun a b => 2 * a + bit b) 0)

/-- `n` bytes of a bit run, most significant bit first (R29). -/
def bytesOfBits : Nat → List Bool → Bytes
  | 0, _ => []
  | n + 1, l => byteOfBits (l.take 8) :: bytesOfBits n (l.drop 8)

/-- Ones minus zeros of a bit run: the disparity of R34. -/
def disparity (l : List Bool) : Int := l.foldl (fun a b => if b then a + 1 else a - 1) 0

/-- Modulates 32-bit words under R34 from running sum `rds`: flag bit then word, or flag 1 and the word inverted. -/
def modulate : Nat → Int → List Bool → List Bool
  | 0, _, _ => []
  | n + 1, rds, l =>
    let a := false :: l.take 32
    let d := disparity a
    if rds * d > 0 then (a.map not) ++ modulate n (rds - d) (l.drop 32)
    else a ++ modulate n (rds + d) (l.drop 32)

/-- The bits of a number of `n` bits, most significant first. -/
def bitsMsb (n v : Nat) : List Bool := (List.range n).map (fun i => v.testBit (n - 1 - i))

/-- The tone pattern 0b0011 repeated over `n` bits (R28, R47). -/
def tone (n : Nat) : List Bool := (List.range n).map (fun i => decide (2 ≤ i % 4))

/-- Sync mark SM32, resync marks RM0 to RM3 and the separator mark (R28, R47). -/
def sm32 : Nat := 0x47E2B51C
def resyncMark (j : Nat) : Nat := [0x3A5C, 0x5C3A, 0xA3C5, 0xC5A3].getD j 0
def separatorMark : Nat := 0xB81D4E72

/-! ### The C1 code (R35, R36) and its decoder (R158) -/

/-- Row shift constants c of R35. -/
def c1Shift (i : Nat) : Nat := [0, 1, 3, 7].getD i 0

/-- Block column shifts of block row `i`: pairs of block column and shift (R35). -/
def c1Row (i : Nat) : List (Nat × Nat) :=
  (List.range 32).map (fun j => (j, c1Shift i * (j + 1) % 512)) ++
    ((List.range 4).filter (fun k => k = i || k + 1 = i)).map (fun k => (32 + k, 0))

/-- Codeword bits that check row `u` of block row `i` covers (R35). -/
def c1Check (i u : Nat) : List Nat := (c1Row i).map (fun js => 512 * js.1 + (u + js.2) % 512)

/-- Parity block `i` from the data bits and the block before (R36). -/
def c1Parity (d : Array Bool) (prev : Array Bool) (i : Nat) : Array Bool :=
  ((List.range 512).map (fun u =>
    xor ((List.range 32).foldl (fun s j => xor s (d.getD (512 * j + (u + c1Shift i * (j + 1)) % 512) false)) false)
      (if i = 0 then false else prev.getD u false))).toArray

/-- The C1 codeword bits of a 2,048-byte payload (R36). -/
def c1Encode (payload : Bytes) : List Bool :=
  let d := bitsOf (padTo 2048 payload)
  let a := d.toArray
  let p0 := c1Parity a #[] 0
  let p1 := c1Parity a p0 1
  let p2 := c1Parity a p1 2
  let p3 := c1Parity a p2 3
  d ++ p0.toList ++ p1.toList ++ p2.toList ++ p3.toList

/-- All 2,048 parity checks hold (R158). -/
def c1Holds (bits : Array Bool) : Bool :=
  (List.range 4).all (fun i => (List.range 512).all (fun u =>
    (c1Check i u).foldl (fun s n => xor s (bits.getD n false)) false == false))

/-- A message held to 6 bits: saturates at ±31 (R158). -/
def sat31 (x : Int) : Int := clampI (-31) 31 x

/-- The state of the min-sum decoder: bit beliefs and the messages of every check, in layer order. -/
structure C1State where
  belief : Array Int
  msg : Array Int

/-- One check of one layer: normalised min-sum (R158), messages of check number `m = 512 i + u` at offset 36 m. -/
def c1CheckStep (st : C1State) (i u : Nat) : C1State :=
  let vs := (c1Check i u).zipIdx
  let base := 36 * (512 * i + u)
  let ext := vs.map (fun v => sat31 (st.belief.getD v.1 0 - st.msg.getD (base + v.2) 0))
  let sgn := ext.foldl (fun s x => if x < 0 then !s else s) false
  let new := vs.map (fun v =>
    let others := (ext.zipIdx.filter (fun x => x.2 ≠ v.2)).map (fun x => x.1.natAbs)
    let mag : Int := rounded 13 (3 * others.foldl min 31 : Nat) 4
    let s := xor sgn (decide (ext.getD v.2 0 < 0))
    sat31 (if s then -mag else mag))
  let belief := (vs.zip new).foldl (fun b vn => b.setIfInBounds vn.1.1 (ext.getD vn.1.2 0 + vn.2)) st.belief
  let msg := (vs.zip new).foldl (fun b vn => b.setIfInBounds (base + vn.1.2) vn.2) st.msg
  { belief := belief, msg := msg }

/-- One iteration: the four block rows in order (R158). -/
def c1Iteration (st : C1State) : C1State :=
  (List.range 4).foldl (fun s i => (List.range 512).foldl (fun s u => c1CheckStep s i u) s) st

/-- Runs up to `cap` iterations and stops when every check holds: the iteration count and the bits (R158). A belief below
0 stands for bit 1. -/
def c1Run (cap k : Nat) (st : C1State) : Option (Nat × Array Bool) :=
  match cap with
  | 0 => none
  | n + 1 =>
    let st' := c1Iteration st
    let bits := st'.belief.map (fun x => decide (x < 0))
    if c1Holds bits then some (k + 1, bits) else c1Run n (k + 1) st'

/-- Decodes 18,432 soft values (positive: the bit is 1) within `cap` iterations (R158): iterations and codeword bits.
The beliefs hold the negated values, since the sign rule of a check takes a positive value as a 0. -/
def c1Decode (cap : Nat) (soft : List Int) : Option (Nat × List Bool) :=
  let st : C1State := { belief := (soft.map (fun x => -(sat31 x))).toArray, msg := (List.replicate (36 * 2048) (0 : Int)).toArray }
  (c1Run cap 0 st).map (fun r => (r.1, r.2.toList))

/-- Raw errors of a decode (criterion 6 of R122): hard decisions that differ from the decoded codeword. -/
def rawErrors (hard bits : List Bool) : Nat := (List.zipWith (fun x y => if x = y then 0 else 1) hard bits).foldl (· + ·) 0

/-- The channel bits of one codeword object on physical channel `h.channel` (R28, R33, R34). -/
def cwoBitsOf (h : CwoHeader) (payload : Bytes) : List Bool :=
  let clear := bitsOf h.bytes ++ c1Encode payload
  let scr := List.zipWith xor clear (scramblerOut (128 + 18432) (scramblerSeed h.channel))
  let words := modulate 576 0 (scr.drop 128)
  let seg := fun j => (words.drop (4752 * j)).take 4752 ++ bitsMsb 16 (resyncMark j)
  tone 48 ++ bitsMsb 32 sm32 ++ scr.take 128 ++ seg 0 ++ seg 1 ++ seg 2 ++ seg 3

/-- Channel-bit offset of resync mark `j` within its codeword object (R28). -/
def resyncOffset (j : Nat) : Nat := [4960, 9728, 14496, 19264].getD j 0

/-- The bits of a separator and of a lead-in (R47). -/
def separatorPattern : List Bool := tone 11488 ++ bitsMsb 32 separatorMark
def leadInPattern : List Bool := tone leadBits

/-- Delays of a write transition after a run of equal bits, in 1/64 bit (R115). -/
def precomp (pc1 pc2 : Int) (run : Nat) : Int := if run = 1 then pc1 else if run = 2 then pc2 else 0

/-- Payload byte `k` of a CAL codeword object (R165). -/
def calByte (k : Nat) : Byte := BitVec.ofNat 8 (31 * k + 0x53)

/-! ### Datasets (R38 to R40, R48 to R50) -/

/-- Rows of one dataset, payload bytes, block-area bytes, most index entries (R38, R48). -/
def datasetRows : Nat := 3072
def payloadBytes : Nat := 5242880
def blockArea : Nat := 5238784
def maxEntries : Nat := 248

/-- Sub-dataset, row and column of payload byte `b` (R38). -/
def payloadPlace (b : Nat) : Nat × Nat × Nat := (b / 163840, b % 163840 / 2048, b % 2048)

/-- Offset of row `r` of sub-dataset `s` in a dataset buffer (R38). -/
def rowOffset (s r : Nat) : Nat := (96 * s + r) * 2048

/-- Nominal index (cwo_index) of row `r` of sub-dataset `s` (R39). -/
def nominalIndex (s r : Nat) : Nat := let t := r / 4; 128 * t + (32 * (r % 4) + (s + 5 * t) % 32)

/-- The sub-dataset and row that a nominal index carries (R39). -/
def rowOfIndex (i : Nat) : Nat × Nat :=
  let t := i / 128
  let p := i % 128
  ((p % 32 + 32 * 5 - 5 * t % 32) % 32, 4 * t + p / 32)

/-- Data tiers of a dataset over `n` channels (R40). -/
def dataTiers (n : Nat) : Nat := ceilDiv datasetRows n

/-- The map position that a rewrite copy takes in a rewrite tier (R45): the first free one from (prev + 43) mod n
upward, wrapping, passing over `prev`; `used` are the positions taken in the tier. -/
def rewritePosition (n prev : Nat) (used : List Nat) : Option Nat :=
  ((List.range n).map (fun k => (prev + 43 + k) % n)).find? (fun m => m ≠ prev && !used.contains m)

/-- The end of a block padded to 64 bytes (R48). -/
def pad64 (n : Nat) : Nat := (n + 63) / 64 * 64

/-- An index entry (R50). -/
structure IndexEntry where
  offset : Nat
  length : Nat
  recordsEnded : Nat
  kind : Nat
  continues : Bool
  deriving DecidableEq, Repr

/-- The 16 bytes of an index entry (R50). -/
def IndexEntry.bytes (e : IndexEntry) : Bytes :=
  leBytes 4 e.offset ++ leBytes 4 e.length ++ leBytes 4 e.recordsEnded ++ leBytes 1 e.kind ++
    leBytes 1 (bit e.continues) ++ zeros 2

/-- The entry that 16 bytes spell (R50). -/
def IndexEntry.ofBytes (b : Bytes) : IndexEntry :=
  { offset := u32 b 0, length := u32 b 4, recordsEnded := u32 b 8, kind := u8 b 12, continues := (b.getD 13 0).getLsbD 0 }

/-- A dataset index (R49), the CRC left out. -/
structure DsIndex where
  kind : Nat
  dsn : Nat
  streamTag : Nat
  partition : Nat
  vault : Bool
  first : Bool
  encrypted : Bool
  session : Nat
  keyEpoch : Nat
  salt : Nat
  firstCounter : Nat
  recordsBefore : Nat
  marksBefore : Nat
  vaultPos : Nat
  mapN : Nat
  areaUsed : Nat
  closedAt : Nat
  cartSerial : Bytes
  mapBits : Bytes
  entries : List IndexEntry
  deriving DecidableEq, Repr

/-- The 4,096 index bytes with the CRC field as given (R49). -/
def DsIndex.raw (x : DsIndex) (crc : Bytes) : Bytes :=
  leBytes 2 0xD3F3 ++ leBytes 1 1 ++ leBytes 1 x.kind ++ leBytes 4 x.dsn ++ leBytes 2 x.streamTag ++
  leBytes 1 x.partition ++ leBytes 1 (bit x.vault + 2 * bit x.first + 4 * bit x.encrypted) ++
  leBytes 4 x.session ++ leBytes 4 x.keyEpoch ++ leBytes 4 x.salt ++ leBytes 8 x.firstCounter ++
  leBytes 8 x.recordsBefore ++ leBytes 8 x.marksBefore ++ leBytes 2 x.entries.length ++ leBytes 1 x.vaultPos ++
  leBytes 1 x.mapN ++ leBytes 4 x.areaUsed ++ leBytes 8 x.closedAt ++ padTo 16 x.cartSerial ++ padTo 16 x.mapBits ++
  zeros 28 ++ crc ++ padTo 3968 (x.entries.flatMap IndexEntry.bytes)

/-- The index as recorded, with its CRC over all 4,096 bytes and the CRC bytes counted as zero (R49). -/
def DsIndex.bytes (x : DsIndex) : Bytes := x.raw (crcBytes (x.raw (zeros 4)))

/-- Reads a dataset index: magic, version and CRC must be right (R49). -/
def DsIndex.parse (b : Bytes) : Option DsIndex :=
  if u16 b 0 = 0xD3F3 ∧ u8 b 2 = 1 ∧ slice b 124 4 = crcBytes (patch (slice b 0 4096) 124 (zeros 4)) then
    some { kind := u8 b 3, dsn := u32 b 4, streamTag := u16 b 8, partition := u8 b 10,
           vault := (b.getD 11 0).getLsbD 0, first := (b.getD 11 0).getLsbD 1, encrypted := (b.getD 11 0).getLsbD 2,
           session := u32 b 12, keyEpoch := u32 b 16, salt := u32 b 20, firstCounter := u64 b 24,
           recordsBefore := u64 b 32, marksBefore := u64 b 40, vaultPos := u8 b 50, mapN := u8 b 51,
           areaUsed := u32 b 52, closedAt := u64 b 56, cartSerial := slice b 64 16, mapBits := slice b 80 16,
           entries := (List.range (min (u16 b 48) maxEntries)).map (fun k => IndexEntry.ofBytes (slice b (128 + 16 * k) 16)) }
  else none

/-- The 80 data rows of sub-dataset `s` in a payload (R38). -/
def subRows (payload : Bytes) (s : Nat) : List Bytes := (List.range 80).map (fun r => slice payload (s * 163840 + r * 2048) 2048)

/-- Column `j` of rows. -/
def column (rows : List Bytes) (j : Nat) : List Byte := rows.map (fun r => r.getD j 0)

/-- The 16 C2 rows of a sub-dataset (R37). -/
def c2Rows (rows : List Bytes) : List Bytes :=
  let cols := (List.range 2048).map (fun j => rsCheck 16 (column rows j))
  (List.range 16).map (fun i => cols.map (fun c => c.getD i 0))

/-- Row `r` of sub-dataset `s` of a payload, data or C2 (R37, R38). -/
def datasetRow (payload : Bytes) (s r : Nat) : Bytes :=
  if r < 80 then slice payload (s * 163840 + r * 2048) 2048 else (c2Rows (subRows payload s)).getD (r - 80) []

/-- The row that the CWO with index `i` carries (R39). -/
def rowOfCwo (payload : Bytes) (i : Nat) : Bytes := let sr := rowOfIndex i; datasetRow payload sr.1 sr.2

/-- C2 erasure decoding of one sub-dataset (R37, R160 step 2): 96 rows, `none` where missing; at most 16 missing. -/
def c2Recover (rows : List (Option Bytes)) : Option (List Bytes) :=
  let missing := (rows.zipIdx.filter (fun r => r.1.isNone)).map (fun r => r.2)
  if missing.length = 0 then some (rows.map (fun r => r.getD []))
  else if missing.length ≤ 16 then
    let full := rows.map (fun r => r.getD (zeros 2048))
    let cols := (List.range 2048).map (fun j => (rsFix 16 (column full j) missing).getD [])
    if cols.all (fun c => c.length == 96) then some ((List.range 96).map (fun r => cols.map (fun c => c.getD r 0)))
    else none
  else none

/-! ### Partition directory and cartridge memory (R53, R54) -/

/-- One directory entry (R53). -/
structure DirEntry where
  firstWrap : Nat
  wrapCount : Nat
  defined : Bool
  vault : Bool
  eodDsn : Nat
  eodWrap : Nat
  eodLx : Nat
  session : Nat
  deriving DecidableEq, Repr

/-- An undefined entry. -/
def DirEntry.none : DirEntry := { firstWrap := 0, wrapCount := 0, defined := false, vault := false, eodDsn := 0, eodWrap := 0, eodLx := 0, session := 0 }

/-- The 32 bytes of a directory entry (R53). -/
def DirEntry.bytes (e : DirEntry) : Bytes :=
  leBytes 1 e.firstWrap ++ leBytes 1 e.wrapCount ++ leBytes 1 (bit e.defined + 2 * bit e.vault) ++ zeros 1 ++
    leBytes 4 e.eodDsn ++ leBytes 1 e.eodWrap ++ zeros 3 ++ leBytes 4 e.eodLx ++ leBytes 4 e.session ++ zeros 12

/-- The entry that 32 bytes spell (R53). -/
def DirEntry.ofBytes (b : Bytes) : DirEntry :=
  { firstWrap := u8 b 0, wrapCount := u8 b 1, defined := (b.getD 2 0).getLsbD 0, vault := (b.getD 2 0).getLsbD 1,
    eodDsn := u32 b 4, eodWrap := u8 b 8, eodLx := u32 b 12, session := u32 b 16 }

/-- The 16 entries of a 512-byte image (R53). -/
def dirOfBytes (b : Bytes) : List DirEntry := (List.range 16).map (fun p => DirEntry.ofBytes (slice b (32 * p) 32))

/-- The 516 bytes of a directory: entries and CRC (R53). -/
def dirBytes (d : List DirEntry) : Bytes := let b := padTo 512 (d.flatMap DirEntry.bytes); b ++ crcBytes b

/-- Whether the reserved bytes and flag bits of an image are 0 (R53). -/
def dirReservedZero (b : Bytes) : Bool :=
  (List.range 16).all (fun p => u8 b (32 * p + 2) < 4 && zeroAt b (32 * p + 3) 1 && zeroAt b (32 * p + 9) 3 && zeroAt b (32 * p + 20) 12)

/-- The defined entries lie in ascending wraps, whole, even and within the tape; entry 0 is defined at wrap 0 (R53). -/
def dirValid (d : List DirEntry) : Bool :=
  let ds := d.filter (·.defined)
  (d.getD 0 DirEntry.none).defined && (d.getD 0 DirEntry.none).firstWrap == 0 &&
  ds.all (fun e => e.firstWrap % 2 == 0 && e.wrapCount % 2 == 0 && e.wrapCount != 0 && decide (e.firstWrap + e.wrapCount ≤ 240)) &&
  (ds.zip (ds.drop 1)).all (fun p => decide (p.1.firstWrap + p.1.wrapCount ≤ p.2.firstWrap))

/-- The manufacture record is good (R54): magic, version, format FF3, size and CRC. -/
def manufactureOk (cm : Bytes) : Bool :=
  u16 cm 0 == 0xC3F3 && u8 cm 2 == 1 && u8 cm 3 == 3 && decide (4096 ≤ u32 cm 4) && slice cm 60 4 == crcBytes (slice cm 0 60)

/-- The directory's CRC passes (R53); otherwise the cartridge is blank (R274). -/
def directoryOk (cm : Bytes) : Bool := slice cm 0x600 4 == crcBytes (slice cm 0x400 512)

end Sys2Proof.Machine
end

