-- ==== Sys2Proof/Machine/Types.lean ====
section
/-! DEFINITION. Sys2Proof/Machine/Types.lean: the records State is made of, first part: modes, power, security, events,
the host interface, rings, commands, instances and key slots. -/

namespace Sys2Proof.Machine

/-- The twelve modes of R325. -/
inductive Mode where
  | off | quench | reset | attest | assemble | idle | threaded | locate | append | retrieve | service | pewter
  deriving DecidableEq, Repr

/-- The mode code of R325. -/
def Mode.code : Mode → Nat
  | .off => 0 | .quench => 1 | .reset => 2 | .attest => 3 | .assemble => 4 | .idle => 5
  | .threaded => 6 | .locate => 7 | .append => 8 | .retrieve => 9 | .service => 10 | .pewter => 11

/-- How far start-up has come (R331, R350). -/
inductive BootStage where
  /-- The supplies are not up, or the reset is held. -/
  | held
  /-- Event 1: the power-on reset is released and the enclave reads fuses. -/
  | released
  /-- Event 3: the start-up tests have passed; GLB_MODE reads ATTEST. -/
  | testing
  /-- Event 4: images and profile loaded, measured block complete. -/
  | loaded
  /-- Event 5: entry signed; ring assembly and CXL bring-up run. -/
  | assembling
  /-- Event 6 reached. -/
  | running
  deriving DecidableEq, Repr

/-- Completion statuses of R281. -/
inductive Status where
  | ok | okCorrected | align | badOpcode | notQuiesced | noShare | badParam | badLength | hostFault | noResource
  | notReady | overrun | decompCheck | tagFail | keyRevoked | keyExhausted | blockCheck | unwrapFail | noKey
  | mediumError | writeFenced | endOfData | endOfPartition | abortedReset | abortedQuench | abortedFreeze | abortedPewter
  deriving DecidableEq, Repr

/-- The code of a status (R281). -/
def Status.code : Status → Nat
  | .ok => 0x00 | .okCorrected => 0x01 | .align => 0x10 | .badOpcode => 0x11 | .notQuiesced => 0x12
  | .noShare => 0x13 | .badParam => 0x14 | .badLength => 0x15 | .hostFault => 0x16 | .noResource => 0x17
  | .notReady => 0x18 | .overrun => 0x20 | .decompCheck => 0x21 | .tagFail => 0x22 | .keyRevoked => 0x23
  | .keyExhausted => 0x24 | .blockCheck => 0x25 | .unwrapFail => 0x26 | .noKey => 0x27 | .mediumError => 0x30
  | .writeFenced => 0x31 | .endOfData => 0x32 | .endOfPartition => 0x33 | .abortedReset => 0x40
  | .abortedQuench => 0x41 | .abortedFreeze => 0x42 | .abortedPewter => 0x43

/-- A ring pair: none is the management pair, `some v` the pair of instance `v`. -/
abbrev RingId := Option Inst

/-- What a completion reports beside cid, head, phase and target (R265). -/
structure Cpl where
  status : Status
  mark : Bool := false
  bop : Bool := false
  blank : Bool := false
  r0 : Nat := 0
  r1 : Nat := 0
  r2 : Nat := 0
  entry : Nat := 0xFFFFFFFF
  deriving DecidableEq, Repr

/-- A scatter/gather entry (R245). -/
structure SgEntry where
  addr : Nat
  len : Nat
  flags : Nat
  deriving DecidableEq, Repr

/-- Attempts of one block at one hand-over (R20). -/
structure Tries where
  /-- The attempt in progress on the present engine, 1 to 3. -/
  attempt : Nat := 1
  /-- The engine that failed three times, when the block is on a second one. -/
  first : Option Nat := none
  /-- The engine that makes the attempts, once one of them has failed on it. -/
  on : Option Nat := none
  /-- The block has been repeated from the stage before. -/
  repeated : Bool := false
  deriving DecidableEq, Repr

/-- The progress of a command that moves bytes (R247, R266, R277). -/
structure Job where
  /-- Entries of the segment in hand that are still to move. -/
  entries : List SgEntry := []
  /-- Index of the next entry, counted from the first entry of the list. -/
  index : Nat := 0
  /-- Host address just past the last entry read, where a continuation would begin (R278). -/
  nextAddr : Nat := 0
  /-- Bytes of the entry in hand that have arrived (R250). -/
  staged : Bytes := []
  /-- The entry in hand has been framed, and its bytes move into blocks (R103, R107). -/
  framed : Bool := false
  /-- List bytes consumed. -/
  consumed : Nat := 0
  /-- Records ended by the command. -/
  ended : Nat := 0
  /-- List bytes up to the end of the last sealed block (R295). -/
  sealedTo : Nat := 0
  /-- READ_RECORDS: destination runs left, as address and length. -/
  dst : List (Nat × Nat) := []
  /-- READ_RECORDS: records delivered. -/
  delivered : Nat := 0
  /-- READ_RECORDS: list bytes written. -/
  written : Nat := 0
  /-- READ_RECORDS: bytes of the record in hand that have left in bursts (R250). -/
  sent : Nat := 0
  /-- Attempts of the burst in hand (R20, hand-overs 1 and 9). -/
  tries : Tries := {}
  deriving DecidableEq, Repr

/-- Where a fetched command stands. -/
inductive CmdPhase where
  /-- Fetched, not started. -/
  | waiting
  /-- Started; bytes are moving or data is awaited. -/
  | running
  /-- STREAM_APPEND parked at the end of its chain (R277). -/
  | parked
  /-- SYNC or CLOSE_STREAM waiting for the commit of every item below `pos` of stream `sid` (R129). -/
  | commitWait (sid pos : Nat)
  /-- WRITE_MARK waiting for hand-over 3 of the block that it closed, at position `block` of its stream (R129). -/
  | markWait (sid : Nat) (block : Option Nat) (count : Nat)
  /-- A rewrite waiting in a slot's pending copy (R107). -/
  | rewriteWait (slot : SlotNo)
  /-- LOCATE or SPACE waiting for the tape to stand at the new position (R421), with the completion to come. -/
  | moveWait (cpl : Cpl)
  /-- INSTANCE_QUIESCE waiting for QUIESCED (R292). -/
  | quiesceWait
  /-- CART_UNLOAD waiting for a write session's end (R422). -/
  | sessionWait
  /-- CART_UNLOAD while the tape rewinds (R275), and CART_CALIBRATE while the calibration regions are read (R165), with what that comes to. -/
  | unloadWait
  | calWait (results : List CalResult)
  /-- Held by a quiesce with its result at hand: the completion is written on resume (R292). -/
  | held (cpl : Cpl)
  deriving DecidableEq, Repr

/-- A command that has been fetched and not completed (R261). -/
structure Cmd where
  /-- The model's own serial number of the fetch. -/
  uid : Nat
  /-- The 64 descriptor bytes (R264). -/
  desc : Bytes
  phase : CmdPhase := .waiting
  job : Job := {}
  /-- Submitted before the pause point (R290). -/
  early : Bool := true
  /-- Its completion is not written: the pair was stopped after the fetch (HIF_CTRL.mq_en). -/
  mute : Bool := false
  deriving DecidableEq, Repr

/-- A ring pair (R259 to R263). -/
structure Ring where
  sqBase : Nat := 0
  cqBase : Nat := 0
  sqLog : Nat := 0
  cqLog : Nat := 0
  irqCount : Nat := 0
  irqUsec : Nat := 0
  sqHead : Nat := 0
  sqTail : Nat := 0
  cqHead : Nat := 0
  cqTail : Nat := 0
  phase : Bool := true
  stopped : Bool := false
  /-- Last ring error, coded as HIF_ERR.kind. -/
  err : Nat := 0
  /-- Completions written and not yet signalled (R263). -/
  unsignalled : Nat := 0
  /-- Device time at which the oldest of them was written. -/
  oldest : Nat := 0
  /-- Descriptors before the pause point that are ready and not fetched (R290). -/
  earlyLeft : Nat := 0
  cmds : List Cmd := []
  deriving DecidableEq, Repr

/-- Kinds of a key slot (R106). -/
inductive SlotKind where
  | empty | ff3Gcm | ff2Cbc | ff2Cfb
  deriving DecidableEq, Repr

/-- The code of a slot kind (VI_KS_STAT). -/
def SlotKind.code : SlotKind → Nat
  | .empty => 0 | .ff3Gcm => 1 | .ff2Cbc => 2 | .ff2Cfb => 3

/-- The kind a code names. -/
def SlotKind.ofCode : Nat → Option SlotKind
  | 0 => some .empty | 1 => some .ff3Gcm | 2 => some .ff2Cbc | 3 => some .ff2Cfb | _ => none

/-- A pending copy (R107): what it changes, and the commands that complete when it becomes the slot. -/
structure PendingCopy where
  root : Option Bytes := none
  kind : Option SlotKind := none
  limit : Option Nat := none
  autoRekey : Option Bool := none
  /-- Serial numbers of the waiting commands with their rings, in the order taken. -/
  waiters : List (RingId × Nat) := []
  deriving DecidableEq, Repr

/-- A key slot (R106); its sequence state is kept apart (R101). -/
structure KeySlot where
  kind : SlotKind := .empty
  /-- The root, 32 bytes; zeros when EMPTY. -/
  root : Bytes := zeros 32
  autoRekey : Bool := true
  limitLog2 : Nat := 36
  generation : Nat := 0
  /-- An epoch that SLOT_REKEY allotted while no append stream used the slot (R104). -/
  allotted : Option Nat := none
  pending : Option PendingCopy := none
  /-- Blocks that have taken a counter under each epoch in use: epoch and count (R103). -/
  used : List (Nat × Nat) := []
  deriving DecidableEq, Repr

/-- Slot sequence state (R101). -/
structure SlotSeq where
  frontier : Nat := 0
  epoch : Nat := 0
  deriving DecidableEq, Repr

/-- A slot-state record of one copy in the quench store; `ok` is false when its CRC would fail (R338, R339). -/
structure SlotRec where
  frontier : Nat := 0
  epoch : Nat := 0
  ok : Bool := true
  deriving DecidableEq, Repr

/-- The states of an instance (R285). -/
inductive InstState where
  | unassigned | configured | active | paused | quiescing | quiesced | frozen | faulted
  deriving DecidableEq, Repr

/-- The state code of R285. -/
def InstState.code : InstState → Nat
  | .unassigned => 0 | .configured => 1 | .active => 2 | .paused => 3 | .quiescing => 4 | .quiesced => 5
  | .frozen => 6 | .faulted => 7

/-- The statistics of R271, in order. -/
structure Stats where
  consumed : Nat := 0
  sealed : Nat := 0
  records : Nat := 0
  marks : Nat := 0
  delivered : Nat := 0
  deliveredBytes : Nat := 0
  commands : Nat := 0
  failed : Nat := 0
  deriving DecidableEq, Repr

/-- The configuration of R282 that stays with an instance, beside its rings. -/
structure InstCfg where
  pasid : Nat := 0
  plaintextOk : Bool := false
  ats : Bool := false
  maxStreams : Nat := 0
  partMask : Nat := 0
  tagLo : Nat := 0
  tagHi : Nat := 0
  rtagLo : Nat := 0
  rtagHi : Nat := 0
  deriving DecidableEq, Repr

/-- One instance (chapter Virtual Instances). -/
structure InstSt where
  state : InstState := .unassigned
  seq : BitVec 16 := 0
  saved : Bool := false
  cfg : InstCfg := {}
  ring : Ring := {}
  share : Nat := 0
  shareNext : Nat := 0
  /-- Credit of R288. -/
  credit : Int := 0
  granted : BitVec 16 := 0
  /-- Counts of the last quiesce: finished, discarded, held (VI_QSC). -/
  qscFinished : Nat := 0
  qscDiscarded : Nat := 0
  qscHeld : Nat := 0
  /-- Records were cut at the freeze (R296, flags [1]). -/
  cutAtFreeze : Bool := false
  stats : Stats := {}
  slots : Vector KeySlot 8 := Vector.replicate 8 {}
  /-- Private half of the instance's ECDH pair (R95). -/
  ecdh : Option Nat := none
  /-- Pages whose translation the device caches (R255, ATS). -/
  atc : List Nat := []
  deriving DecidableEq, Repr

/-- One MSI-X table entry, with the count of messages sent (observable on the link). -/
structure MsixEntry where
  addr : Nat := 0
  data : Word := 0
  masked : Bool := true
  sent : Nat := 0
  deriving DecidableEq, Repr

/-- MSI-X (R255, R257, R383). -/
structure Msix where
  table : Vector MsixEntry 130 := Vector.replicate 130 {}
  pba : BitVec 130 := 0
  deriving DecidableEq, Repr

/-- The host interface (HIF_ registers and the management pair). -/
structure Hif where
  mqEn : Bool := false
  mqSq : Nat := 0
  mqCq : Nat := 0
  /-- HIF_MQ_CFG. -/
  mqCfg : Word := 0x00000144
  mq : Ring := {}
  errKind : Nat := 0
  errInst : Nat := 0
  errMgmt : Bool := false
  /-- HIF_LINK. -/
  linkSpeed : Nat := 0
  linkWidth : Nat := 0
  /-- The PCIe link is in L0. -/
  linkL0 : Bool := false
  /-- Doorbells written before event 6 of R331, oldest first: ring, whether it is HIF_DB_CQ_HEAD, value. -/
  early : List (RingId × Bool × Word) := []
  deriving DecidableEq, Repr

/-- Mode, resets and time (GLB_), with the outputs a host reads. -/
structure Glb where
  mode : Mode := .reset
  prev : Mode := .off
  seq : BitVec 16 := 0
  /-- GLB_RST_CAUSE. -/
  rstKind : Nat := 0
  rstCause : Nat := 0
  quenches : Nat := 0
  /-- Device time in ns (always-on). -/
  time : Nat := 0
  /-- GLB_TIME_HI as latched by the last read of GLB_TIME_LO. -/
  timeHi : Word := 0
  boot : BootStage := .held
  /-- Value drawn at the last reset (R296). -/
  bootId : Bytes := zeros 8
  /-- THERMTRIP# has latched low (R405). -/
  thermtrip : Bool := false
  /-- PERST# is asserted. -/
  perst : Bool := false
  /-- The host port is training its link (R331). -/
  training : Bool := false
  /-- The last value a register read returned. -/
  rdData : Nat := 0
  deriving DecidableEq, Repr

/-- Power (PWR_) and supply pins. -/
structure Pwr where
  /-- Bit d: domain d is powered. -/
  dom : BitVec 80 := 0
  /-- PWR_QUENCH_CFG, lock in bit 31. -/
  quenchCfg : Word := 0x00327266
  qDone : Bool := false
  qConsumed : Bool := false
  qWindowFull : Bool := false
  vholdEnd : Nat := 0
  /-- PWR_HOLD_STAT. -/
  capUf : Nat := 0
  esrMohm : Nat := 0
  holdOk : Bool := false
  /-- PWR_SENSE, mV. -/
  vsense : Nat := 0
  vhold : Nat := 0
  deriving DecidableEq, Repr

/-- A boot directory record (R346). -/
structure DirRec where
  activeB : Bool := false
  trial : Nat := 0
  seq : Nat := 0
  deriving DecidableEq, Repr

/-- The image that runs, as its manifest and the boot say (R347, R353). -/
structure ImageInfo where
  svn : Nat := 0
  signer : Nat := 0
  fwVersion : Nat := 0
  motionDigest : Bytes := zeros 48
  datapathDigest : Bytes := zeros 48
  deriving DecidableEq, Repr

/-- A service challenge (R362). -/
structure Challenge where
  scope : Nat
  bytes : Bytes
  issued : Nat
  deriving DecidableEq, Repr

/-- The security enclave (SEC_): fuses, non-volatile memory, and this boot. -/
structure Sec where
  /-- Lifecycle code of R360. -/
  lifecycle : Nat := 2
  /-- Maker key hash fused (R360). -/
  makerHash : Option Bytes := none
  floor : Nat := 0
  revoked : BitVec 4 := 0
  /-- The two boot directory copies; none is an invalid copy (R346). -/
  dir0 : Option DirRec := some {}
  dir1 : Option DirRec := none
  /-- SEC_BOOT. -/
  bankB : Bool := false
  fallback : Bool := false
  activation : Bool := false
  romPewter : Bool := false
  confirmed : Bool := false
  staged : Bool := false
  image : ImageInfo := {}
  profileValid : Bool := false
  profileVersion : Nat := 0
  profileDigest : Bytes := zeros 48
  makerKey : Bytes := []
  /-- The bank that did not boot would be accepted under R347. -/
  otherOk : Bool := false
  /-- What the flash holds in the bank that did not boot, as runs of bytes by offset, newest first (R347, R356). -/
  otherBank : List (Nat × Bytes) := []
  /-- A staging session is open (R356). -/
  staging : Bool := false
  /-- svn and fw_version of the staged bank. -/
  stagedInfo : ImageInfo := {}
  /-- Retained Ingot entries as index and 384 bytes, oldest first (R351). -/
  ingot : List (Nat × Bytes) := []
  /-- This boot's CDI and alias private key (R342); none before event 5. -/
  cdi : Bytes := []
  aliasPriv : Option Nat := none
  /-- Measured block of this boot (R353). -/
  measured : Bytes := zeros 160
  /-- The service gate. -/
  gateOpen : Bool := false
  scope : Nat := 0
  fails : Nat := 0
  challenge : Option Challenge := none
  /-- The random-bit generator: start-up tests passed and no continuous test failed (CPH_STAT.rng_ok). -/
  rngOk : Bool := false
  /-- Blob nonces recorded since the last reset, with whether they were restored (R296). -/
  nonces : List (Bytes × Bool) := []
  /-- SPDM (R355): how far version, capabilities and algorithms are agreed; those messages; the digest and certificate
  messages since; and the measurement messages since. -/
  spdmStage : Nat := 0
  vca : Bytes := []
  transcript : Bytes := []
  measLog : Bytes := []
  eid : Nat := 0
  /-- Bytes of the last SPDM response sent. -/
  response : Bytes := []
  deriving DecidableEq, Repr

/-- An event record before the ring writes it (R372); the phase bit is set at the write. -/
structure EvRec where
  time : Nat
  code : Nat
  cls : Nat
  source : Nat
  resource : Nat
  inst : Nat
  rep : Nat := 0
  detail : Bytes
  deriving DecidableEq, Repr

/-- A loss counter (R376): count, and bits [39:16] of the first and last times. -/
structure LossCtr where
  count : Nat := 0
  first : Nat := 0
  last : Nat := 0
  deriving DecidableEq, Repr

/-- One retirable resource: bucket, retirement, and when its leak period ends (R367). -/
structure Bucket where
  level : Nat := 0
  retired : Bool := false
  leakAt : Option Nat := none
  deriving DecidableEq, Repr

/-- The event unit (EVT_). -/
structure Evt where
  ringEn : Bool := false
  lock : Bool := false
  ringBase : Nat := 0
  /-- EVT_RING_CFG. -/
  ringCfg : Word := 0x00000006
  head : Nat := 0
  tail : Nat := 0
  phase : Bool := true
  stopped : Bool := false
  /-- Oldest first. -/
  fifo : List EvRec := []
  loss : Vector LossCtr 64 := Vector.replicate 64 {}
  snapshot : Vector LossCtr 64 := Vector.replicate 64 {}
  /-- Device time of the first loss since the counters were cleared. -/
  firstLoss : Nat := 0
  lossSel : Nat := 0
  /-- Vector 1: a record has been written and not signalled; when the vector last fired. -/
  irqDue : Bool := false
  lastIrq : Option Nat := none
  /-- EVT_STRIKE_CFG[k]. -/
  strikeCfg : Vector Word 8
  /-- Resources in the order of R370: 128, 128, 16, 8, 4, 8, 8, 4. -/
  buckets : Vector Bucket 304 := Vector.replicate 304 {}
  pewterCause : Nat := 0
  /-- EVT_RETIRE_CLR.clear has been taken. -/
  retireClr : Bool := false
  deriving DecidableEq, Repr

/-- The quench store (R338). -/
structure QStore where
  /-- Header state: 0 empty, 1 writing, 2 complete, 3 consumed. -/
  state : Nat := 0
  cause : Nat := 0
  number : Nat := 0
  /-- The highest quench number that the enclave has recorded (R340). -/
  recorded : Nat := 0
  time : Nat := 0
  /-- Position region. -/
  cartSerial : Bytes := zeros 16
  partition : Nat := 0
  wrap : Nat := 0
  commitDsn : Nat := 0
  session : Nat := 0
  lx : Nat := 0
  curDsn : Nat := 0
  /-- Motion region. -/
  speed : Nat := 0
  brakeSent : Bool := false
  braking : Bool := false
  /-- Retirement map (R370): level and retired bit of every resource, the Pewter cause, and whether its CRC passes. -/
  map : Vector Bucket 304 := Vector.replicate 304 {}
  pewterCause : Nat := 0
  mapOk : Bool := true
  loss : Vector LossCtr 64 := Vector.replicate 64 {}
  events : List EvRec := []
  slotA : Vector SlotRec 512 := Vector.replicate 512 {}
  slotB : Vector SlotRec 512 := Vector.replicate 512 {}
  deriving DecidableEq, Repr

end Sys2Proof.Machine
end

