-- ==== Sys2Proof/Machine/TypesData.lean ====
section
/-! DEFINITION. Sys2Proof/Machine/TypesData.lean: the records State is made of, second part: streams, compression
blocks, engines, datasets, the write queue, verify and the commit point. -/

namespace Sys2Proof.Machine

/-- Direction of a stream (R268). -/
inductive StreamDir where
  | append | read | ff2
  deriving DecidableEq, Repr

/-- A run of framed bytes on its way into a block (R61). -/
structure Piece where
  bytes : Bytes
  /-- Bytes that the host supplied; the rest are prefixes and suffixes that the framer adds. -/
  host : Bool := false
  /-- It opens a segment. -/
  opens : Bool := false
  /-- It ends a record. -/
  ends : Bool := false
  deriving DecidableEq, Repr

/-- The framer context of one append stream (R61 to R63). -/
structure Framer where
  /-- Input bytes of the open block. -/
  buf : Bytes := []
  /-- Framed bytes taken that have not entered a block: the open block is full and waits for its key (R103, R107). -/
  todo : List Piece := []
  /-- Bytes of the open segment that its prefix announced and that are still to come, and whether it ends its record: a
  command ended inside it (R103). -/
  segLeft : Nat := 0
  segLast : Bool := false
  /-- The open block began inside a framed extent (R62). -/
  continues : Bool := false
  /-- Offset of the first segment prefix that begins in the open block (R64). -/
  firstFrame : Option Nat := none
  /-- Records whose suffix ends in the open block (R50). -/
  recordsEnded : Nat := 0
  /-- The last framed byte is not the last byte of a record suffix (R64). -/
  midRecord : Bool := false
  /-- A record is open: its next segment is not its first. -/
  inRecord : Bool := false
  /-- The running CRC-32C register of the open record (R61). -/
  crc : Word := 0xFFFFFFFF
  /-- Bytes of the entry in hand that have entered a block. -/
  entryData : Nat := 0
  deriving DecidableEq, Repr

/-- An append session key (R97, R98, R103). -/
structure SessKey where
  epoch : Nat
  salt : Nat
  key : Bytes
  /-- Generation of the slot under which it was derived. -/
  gen : Nat
  session : Nat
  part : Nat
  deriving DecidableEq, Repr

/-- What a closed block carries of its key (R63, R100). -/
structure BlkKey where
  slot : SlotNo
  epoch : Nat
  salt : Nat
  counter : Nat
  key : Bytes
  deriving DecidableEq, Repr

/-- Where a block of an append stream is. -/
inductive BlkPlace where
  /-- Waiting for a slice (R85). -/
  | sliceQueue
  | slice (n : Nat)
  /-- Past hand-over 2, waiting for a cipher engine. -/
  | cipherQueue
  | engine (e : Nat)
  /-- Sealed; its PAN1 ALLOC waits (R236). -/
  | panWait (e : Nat)
  /-- Past hand-over 3: stands in the PAN1 buffer of this handle. -/
  | sealed (handle : Nat)
  deriving DecidableEq, Repr

/-- A compression block on append, from its close to the dataset buffer. -/
structure Blk where
  /-- The model's own serial number. -/
  id : Nat
  sid : Nat
  v : Inst
  /-- Block sequence number of the stream (R20). -/
  seq : Nat
  /-- Position among the stream's blocks and filemarks. -/
  pos : Nat
  input : Bytes
  head : BlockMeta
  recordsEnded : Nat
  seed : Nat
  effort : Nat
  key : Option BlkKey
  session : Nat
  part : Nat
  tag : Nat
  place : BlkPlace := .sliceQueue
  coded : Bytes := []
  out : Bytes := []
  /-- Attempts at hand-over 2, at hand-over 3 and at hand-over 4. -/
  tries : Tries := {}
  sealTries : Tries := {}
  moveTries : Tries := {}
  /-- A slice has started it: `effort` is the one it started with (R77). -/
  started : Bool := false
  /-- Bytes of it that bursts of hand-over 4 have moved (R250). -/
  moved : Nat := 0
  /-- Serial number of the command that supplied its last byte, and the list bytes of it up to that byte. -/
  carrier : Nat
  carrierTo : Nat := 0
  deriving DecidableEq, Repr

/-- A block or filemark of a stream in block sequence order, not yet in a dataset (R55). -/
inductive Item where
  | block (pos : Nat)
  | mark (pos : Nat)
  /-- A SYNC or CLOSE_STREAM, which closes the open dataset when it reaches the assembler (R112). -/
  | flush (pos : Nat)
  deriving DecidableEq, Repr

/-- The position of an item. -/
def Item.pos : Item → Nat
  | .block p => p
  | .mark p => p
  | .flush p => p

/-- A record decoded for a READ_RECORDS, or a filemark met, with where it ends. -/
inductive ReadItem where
  /-- A record, with the dataset and index entry of the block in which it ends (R20), and its number. -/
  | record (bytes : Bytes) (dsn entry no : Nat)
  | mark (dsn no : Nat)
  /-- End of data, or a failure that ends the job (R83, R270). -/
  | stop (status : Status) (dsn : Nat)
  deriving DecidableEq, Repr

/-- The framing parser of a read stream between blocks (R61, R81, R84). -/
structure ParseSt where
  pos : FramePos := .atRecord
  /-- Waiting for the first segment with flag [0] (R84). -/
  seeking : Bool := true
  /-- A segment prefix has been met since the read began, so that what follows it is bound (R81). -/
  known : Bool := false
  /-- The first block of a read has been taken (R81). -/
  begun : Bool := false
  /-- The last block was discarded whole, and this is its ends_open (R81, R84). -/
  blind : Option Bool := none
  /-- Bytes of the record being decoded, newest first. -/
  rev : Bytes := []
  deriving DecidableEq, Repr

/-- The read side of a stream: its logical position, and what has been decoded beyond it. -/
structure ReadSt where
  /-- Records and filemarks of the stream's tag before the position (R270). -/
  records : Nat := 0
  marks : Nat := 0
  dsn : Nat := 0
  /-- The next dataset and index entry to extract; in a group, with the position of the dataset in its stripe (R320). -/
  nextDsn : Nat := 0
  nextPos : Nat := 0
  nextEntry : Nat := 0
  parse : ParseSt := {}
  /-- Number of the record after the last one decoded, and of the record whose blocks were decompressed again (R82). -/
  nextNo : Nat := 0
  again : Option Nat := none
  /-- Decoded ahead of the position, in order. -/
  ready : List ReadItem := []
  /-- A dataset that it has read needed a re-read pass or a rebuild (R281). -/
  corrected : Bool := false
  deriving DecidableEq, Repr

/-- A stream context (R269). A stream that has ended stays until its last item has left. -/
structure Stream where
  sid : Nat
  v : Inst
  no : Nat
  dir : StreamDir
  tag : Nat
  part : Nat
  slot : Option SlotNo
  seed : Nat
  effort : Nat
  fr : Framer := {}
  blockSeq : Nat := 0
  itemPos : Nat := 0
  items : List Item := []
  key : Option SessKey := none
  /-- The epoch that SLOT_REKEY allotted and the next block takes up (R104). -/
  rekeyAt : Option Nat := none
  leaseNext : Nat := 0
  leaseEnd : Nat := 0
  /-- Records and filemarks of the tag written so far, from the start of the tag. -/
  recordsTotal : Nat := 0
  marksTotal : Nat := 0
  /-- The same as they stand in datasets already opened. -/
  recordsPlaced : Nat := 0
  marksPlaced : Nat := 0
  /-- The order in which it began to wait for a dataset slot (R288). -/
  waitSince : Option Nat := none
  /-- Cut, with the status of its later commands (R109, R131, R420, R21). -/
  cut : Option Status := none
  ended : Bool := false
  /-- A dataset that the next SYNC covers went through append recovery (R281, OK_CORRECTED). -/
  corrected : Bool := false
  rd : ReadSt := {}
  deriving DecidableEq, Repr

/-- What a slice or a cipher engine holds. -/
inductive EngineUse where
  | idle
  /-- An append block, by serial number. -/
  | append (id : Nat)
  /-- A block being read, by serial number. -/
  | retrieve (id : Nat)
  /-- A known-answer test, a key unwrap or a save blob (R86). -/
  | other
  deriving DecidableEq, Repr

/-- One compression slice (CMP_). -/
structure Slice where
  use : EngineUse := .idle
  effort : Nat := 0
  attempt : Nat := 0
  /-- CMP_SLICE_BLK and CMP_SLICE_CHK. -/
  blocks : Word := 0
  selfcheckFail : Nat := 0
  decodeFail : Nat := 0
  deriving DecidableEq, Repr

/-- One cipher engine (CPH_). -/
structure Engine where
  use : EngineUse := .idle
  mode : Nat := 0
  attempt : Nat := 0
  /-- Derived session keys, most recently used first, at most eight: instance, slot, epoch, key (R99). -/
  cached : List (Nat × Nat × Nat × Bytes) := []
  selfcheckFail : Nat := 0
  tagFail : Nat := 0
  deriving DecidableEq, Repr

/-- Compression and cipher control (CMP_, CPH_). -/
structure Codec where
  /-- CMP_CTRL. -/
  cmpCtrl : Word := 0x00000002
  ratio : Nat := 0
  ratioValid : Bool := false
  /-- Input and coded bytes of blocks completed in this pace window. -/
  winIn : Nat := 0
  winCoded : Nat := 0
  slices : Vector Slice 8 := Vector.replicate 8 {}
  /-- CPH_CTRL. -/
  cphCtrl : Word := 0x00000003
  katDone : Bool := false
  katPass : Bool := false
  engines : Vector Engine 4 := Vector.replicate 4 {}
  deriving DecidableEq, Repr

/-- A dataset buffer under assembly, closed, or kept until its commit (R112, R128). -/
structure DsBuf where
  /-- The model's own serial number. -/
  id : Nat
  /-- CWO type: 1 DATA, 2 VAULT, 3 EOD, 6 RAIT. -/
  kind : Nat
  /-- Stream, when the dataset carries one. -/
  sid : Option Nat := none
  v : Option Inst := none
  tag : Nat := 0
  part : Nat := 0
  session : Nat := 0
  area : Bytes := []
  entries : List IndexEntry := []
  recordsBefore : Nat := 0
  marksBefore : Nat := 0
  /-- Key of its blocks: epoch, salt, first counter, and the last counter taken (R51, R102). -/
  key : Option (Nat × Nat × Nat × Nat) := none
  /-- Lowest item position it holds, and the first not in it (R129). -/
  minPos : Nat := 0
  endPos : Nat := 0
  openedAt : Nat := 0
  lastBlock : Nat := 0
  closedAt : Nat := 0
  /-- Vault members, XOR of payloads (R59); RAIT payload. -/
  payload : Option Bytes := none
  /-- PAN3 buffer. -/
  handle : Option Nat := none
  /-- Append recovery writes it again: its dsn, position in the Vault group, and whether it is its session's first (R130). -/
  redo : Option (Nat × Nat × Bool) := none
  /-- It went through append recovery. -/
  recovered : Bool := false
  deriving DecidableEq, Repr

/-- A copy of a CWO that waits for a rewrite tier (R124). -/
structure Rewrite where
  ds : Nat
  index : Nat
  /-- Attempt number that the copy will carry, and the map position of the recording that failed. -/
  attempt : Nat
  pos : Nat
  /-- The channel of that position. -/
  chan : Nat
  deriving DecidableEq, Repr

/-- What one position of a fixed tier carries: physical channel, and the CWO's dataset, index and attempt, or a FILL. -/
structure CwoPlan where
  chan : Nat
  mapPos : Nat
  /-- Serial number of the dataset whose row it carries; none for a FILL CWO. -/
  ds : Option Nat
  index : Nat
  attempt : Nat
  tierSlot : Nat
  header : CwoHeader
  /-- The write gate was closed while it was recorded (R116). -/
  cutByGate : Bool := false
  /-- The FIFO ran empty, or its preamplifier's gate was shut, while it was recorded (R12, R398). -/
  underrun : Bool := false
  /-- The order of the tier that carries it among all tiers fixed. -/
  tier : Nat
  /-- Serial number of the dataset in whose data tiers or region it lies. -/
  home : Nat
  deriving DecidableEq, Repr

/-- A dataset that has begun to go to tape and is not committed (R127). -/
structure WrDs where
  buf : DsBuf
  dsn : Nat
  session : Nat
  first : Bool
  vaultPos : Nat
  /-- Place of its first tier: wrap, channel bits from the start of the wrap. -/
  wrap : Nat
  startBit : Nat
  map : List Nat
  /-- Nominal indexes whose copies have not passed. -/
  unpassed : List Nat
  /-- Order among datasets of the latest home of a passing copy (R127). -/
  lastHome : Nat := 0
  /-- Order of this dataset among those of the write session. -/
  order : Nat
  /-- Its separator has been fixed, which starts at this bit. -/
  closed : Bool := false
  endBit : Nat := 0
  /-- Failures judged per channel in its data tiers (R366, kind 0). -/
  chanFails : List (Nat × Nat) := []
  /-- Rewrite copies written and CWOs written, for r of R135. -/
  copies : Nat := 0
  written : Nat := 0
  deriving DecidableEq, Repr

/-- What the tape is doing. -/
inductive Motion where
  /-- No tape threaded, or tape at rest. -/
  | stopped
  /-- Decelerating to rest (R192). -/
  | stopping
  /-- Moving to a position (R421). -/
  | positioning
  /-- At the speed of writing or reading. -/
  | running
  deriving DecidableEq, Repr

/-- Why a positioning move was begun (R421). -/
inductive MoveFor where
  | none | splice | recovery | readStart | reread | turn | locate
  /-- A calibration, or the rewinding before an unload. -/
  | mgmt
  deriving DecidableEq, Repr

/-- What follows a separator. -/
inductive AfterSep where
  /-- The next dataset's tiers. -/
  | goOn
  /-- A controlled stop (R137). -/
  | stop
  /-- A turn to the next wrap, whose lead-in ends at this bit (R47). -/
  | turn (wrap bit : Nat)
  deriving DecidableEq, Repr

/-- A write session (R56, R422). -/
structure WSession where
  part : Nat
  session : Nat
  /-- Its number stands in the directory (R56). -/
  recorded : Bool := false
  /-- No dataset of it has been begun. -/
  fresh : Bool := true
  /-- Its last append stream has ended (R422). -/
  ending : Bool := false
  /-- Its EOD dataset has joined the write queue. -/
  eodQueued : Bool := false
  /-- It has failed for good: all that is left to write is its EOD dataset at the commit point (R131). -/
  failed : Bool := false
  deriving DecidableEq, Repr

/-- Format, append, verify and speed (FMT_, WCH_ hand-over counts). -/
structure Fmt where
  map : List Nat := List.range 128
  mapSeq : BitVec 16 := 0
  verifyCfg : Word := 0x0000B845
  judged : Nat := 0
  fails : Nat := 0
  appendCfg : Word := 0x00006422
  speedCfg : Word := 0x001800A0
  speedMarks : Word := 0x32200802
  /-- FMT_WSWAP.commit_all and FMT_WSWAP_LX. -/
  wswap : Bool := false
  wswapLx : Nat := 0
  sess : Option WSession := none
  /-- Open datasets, at most eight (R288). -/
  asm : List DsBuf := []
  /-- Closed datasets in the order they closed (R113). -/
  queue : List DsBuf := []
  /-- Begun and not committed, oldest first. -/
  written : List WrDs := []
  /-- A dataset is passing the write head: its serial number. -/
  cur : Option Nat := none
  /-- Next tier slot to fix in it. -/
  slot : Nat := 0
  rewriteTiers : Nat := 0
  /-- The last tier of a dataset's region is under the head: its separator, fixed, comes next (R114). -/
  lastTier : Bool := false
  /-- What follows the separator that is passing (R134, R137). -/
  afterSep : AfterSep := .goOn
  rewrites : List Rewrite := []
  /-- Fixed CWOs not yet judged, in recording order. -/
  plans : List CwoPlan := []
  tiersFixed : Nat := 0
  orderNext : Nat := 0
  nextDsn : Nat := 0
  wrap : Nat := 0
  /-- Channel bits from the start of the wrap to the next tier or separator. -/
  bit : Nat := 0
  /-- Vault group under way: members and the XOR of their payloads. -/
  vaultCount : Nat := 0
  vaultXor : Bytes := []
  /-- Commit point (FMT_COMMIT, FMT_COMMIT_LOC). -/
  commitDsn : Nat := 0
  commitWrap : Nat := 0
  commitBit : Nat := 0
  commitPart : Nat := 0
  recovery : Nat := 0
  recovering : Bool := false
  /-- Recovery drops the gate and stops the tape at the next tier-slot boundary (R130). -/
  dropDue : Bool := false
  /-- The last recovery trigger came from the fence (R131). -/
  fenceTrigger : Bool := false
  /-- Copies and CWOs written of the last 64 datasets (R135). -/
  history : List (Nat × Nat) := []
  /-- Speed state (FMT_SPEED_STAT), codes of PACE_CEIL. -/
  spCur : Nat := 7
  spWant : Nat := 7
  ramping : Bool := false
  stopped : Bool := true
  hard : Bool := false
  filling : Bool := false
  spSeq : BitVec 16 := 0
  /-- want allows a stop (R135, R137). -/
  stopAllowed : Bool := false
  /-- Framer intake of past windows, bytes, newest first; bytes in this window. -/
  intake : List Nat := []
  winIntake : Nat := 0
  /-- Windows of R136: slice-bound windows in a row, and windows with margin in a row. -/
  boundWindows : Nat := 0
  marginWindows : Nat := 0
  motion : Motion := .stopped
  moveFor : MoveFor := .none
  /-- The write gate: open, wanted open, closed for the clock tracks (R142), and servo frames it has stayed closed (R116). -/
  gateOpen : Bool := false
  gateWanted : Bool := false
  ctGate : Bool := false
  closedFrames : Nat := 0
  /-- PAFLT#[k] held low; WGATE[k] shut for it; a frame boundary, and a whole servo frame, passed with it high (R398). -/
  paflt : BitVec 8 := 0
  pafltShut : BitVec 8 := 0
  pafltOne : BitVec 8 := 0
  pafltFrame : BitVec 8 := 0
  /-- Settings as the control bus has written them to each preamplifier, and whether the profile's wait for the gates to be low (R399). -/
  preamps : Vector Bytes 8 := Vector.replicate 8 []
  preampDue : Bool := false
  /-- dsn of the dataset passing the head (FMT_CUR_DSN). -/
  curDsn : Nat := 0
  deriving DecidableEq, Repr

/-- One write channel (WCH_). -/
structure WChan where
  setA : Word := 0x00008000
  setB : Word := 0x00008000
  activeB : Bool := false
  /-- A commit waits for this many servo-frame boundaries at the write line (R118). -/
  pending : Option Nat := none
  shadowLocked : Bool := false
  swapLx : BitVec 16 := 0
  deriving DecidableEq, Repr

/-- The pace monitor (PACE_). -/
structure Pace where
  ctrl : Word := 0x00000041
  ratioMin : Nat := 0
  siteMin : Nat := 0
  valid : Bool := false
  ceil : Vector Nat 3 := Vector.replicate 3 7
  published : Bool := false
  seq : BitVec 16 := 0
  count : Vector Nat 8 := Vector.replicate 8 0
  nom : Vector Nat 8 := Vector.replicate 8 0x100000
  /-- Ratio of each site in the last window it was powered since the last reset (R14). -/
  last : Vector (Option Nat) 8 := Vector.replicate 8 none
  /-- Consecutive windows whose computed values are higher than published, and the lowest of them, per zone (R15). -/
  higher : Vector (Nat × Nat) 3 := Vector.replicate 3 (0, 0)
  deriving DecidableEq, Repr

/-- Where a dataset lies on tape: channel bits from the start of its wrap to its first tier, and to the end of its last. -/
structure Extent where
  part : Nat
  dsn : Nat
  wrap : Nat
  startBit : Nat
  endBit : Nat
  deriving DecidableEq, Repr

/-- The cartridge (R53, R54, R163, R166). -/
structure Cart where
  loaded : Bool := false
  cm : Bytes := []
  /-- The reader takes WRITEs (R402). -/
  writes : Bool := true
  serial : Bytes := zeros 16
  dir : List DirEntry := []
  /-- Highest session found on tape per partition (R56, R58), and the last dataset's records and marks per tag. -/
  tapeSession : List (Nat × Nat) := []
  /-- Records and filemarks on tape: partition, tag, records, marks (R270). -/
  tagCounts : List (Nat × Nat × Nat × Nat) := []
  /-- Datasets found on tape or committed since (R58). -/
  extents : List Extent := []
  /-- Channel bits from the start of its wrap at which the end of data of a partition lies, where they are known better than its LX
  (R56). -/
  eodBit : List (Nat × Nat) := []
  deriving DecidableEq, Repr

end Sys2Proof.Machine
end

