-- ==== Sys2Proof/Machine/TypesMem.lean ====
section
/-! DEFINITION. Sys2Proof/Machine/TypesMem.lean: the records State is made of, third part: pans, buffer memory, the block
mover. -/

namespace Sys2Proof.Machine

/-- A HELD entry of the buffer state table (R226). -/
structure HeldBuf where
  handle : Nat
  owner : Nat
  charge : Option Inst
  refs : Nat
  deriving DecidableEq, Repr

/-- An ALLOC that waits (R232, R233). -/
structure PanWaiter where
  requester : Nat
  size : Nat
  charge : Option Inst
  /-- The order of its arrival. -/
  age : Nat
  /-- It came with wait 0 while a pan that it tries rebuilds its list (R229). -/
  noWait : Bool := false
  deriving DecidableEq, Repr

/-- The requests of R231 that name a buffer. -/
inductive PanReq where
  | free
  | handoff (dest : Nat)
  | acquire
  | release
  deriving DecidableEq, Repr

/-- What the pan manager last answered (R231). -/
inductive PanResult where
  | none
  /-- ALLOC: the handle granted. -/
  | granted (handle : Nat)
  /-- ALLOC: it waits in its home pan's queue. -/
  | waits
  /-- ALLOC with wait 0: no buffer. -/
  | empty
  /-- FREE, HANDOFF, ACQUIRE, RELEASE, CANCEL: done. -/
  | done
  /-- Rejected, with the kind of PAN_ERR. -/
  | rejected (kind : Nat)
  deriving DecidableEq, Repr

/-- A run of the linked free store: handles from `first`, `count` of them, falling when `down` (R228). -/
structure FreeRun where
  first : Nat
  count : Nat
  down : Bool
  deriving DecidableEq, Repr

/-- One pan (R224 to R236). -/
structure Pan where
  /-- PAN_CFG fields. -/
  enable : Bool := false
  bitmap : Bool
  spill : Bool := false
  countMode : Bool := false
  count : Nat := 0
  baseKib : Nat := 0
  /-- PAN_THRESH. -/
  thresh : Word
  /-- Buffers, in ascending handle order, that have left UNFILLED (R227). -/
  filled : Nat := 0
  /-- Number of FREE buffers. -/
  free : Nat := 0
  low : Bool := false
  critical : Bool := false
  rebuilding : Bool := false
  /-- Linked store, head first; empty in a bitmap pan. -/
  list : List FreeRun := []
  waiting : List PanWaiter := []
  deriving DecidableEq, Repr

/-- The pan manager (PAN_). -/
structure Pans where
  lock : Bool := false
  errKind : Nat := 0
  errReq : Nat := 0
  errHandle : Nat := 0
  /-- R225 holds: the pans are in service. -/
  active : Bool := false
  pan : Vector Pan 4 := #v[{ bitmap := true, thresh := 0x00400100 }, { bitmap := false, thresh := 0x02000800 },
    { bitmap := false, thresh := 0x00100040 }, { bitmap := true, thresh := 0x00040010 }]
  /-- HELD entries, handles rising. -/
  held : List HeldBuf := []
  quota : Vector Nat 64 := Vector.replicate 64 0xFFFFFF
  heldUnits : Vector Nat 64 := Vector.replicate 64 0
  ages : Nat := 0
  /-- The answer to the last request. -/
  result : PanResult := .none
  /-- Grants not yet taken up by their requesters: requester, handle. -/
  grants : List (Nat × Nat) := []
  /-- The stream for which the assembler's PAN3 ALLOC waits (R288). -/
  asmFor : Option Nat := none
  /-- Requests that wait while their pan rebuilds its list (R229): kind, requester, handle. -/
  deferred : List (PanReq × Nat × Nat) := []
  /-- What cipher engines last wrote into PAN1 buffers: first stripe, bytes. -/
  written : List (Nat × Bytes) := []
  /-- Stripes that the buffer controller has written for others since an engine's bytes took their place. -/
  overlaid : List Nat := []
  deriving DecidableEq, Repr

/-- The mailbox commands that the device uses (R210). -/
inductive MailCmd where
  | identify | partitionInfo | healthInfo | getEvents | clearEvents | poisonList
  deriving DecidableEq, Repr

/-- HDM decoder 0 of a memory device (R203). -/
structure HdmDecoder where
  base : Nat
  size : Nat
  ways : Nat
  committed : Bool
  locked : Bool
  deriving DecidableEq, Repr

/-- One memory device (BUF_DEV_STAT). -/
structure MemDev where
  linkUp : Bool := false
  active : Bool := false
  present : Bool := false
  lost : Bool := false
  tagOk : Bool := false
  rate16 : Bool := false
  width : Nat := 0
  cause : Nat := 0
  lines : Nat := 0
  /-- Get Health Info reports media ready (R219). -/
  media : Bool := false
  /-- What its tag line holds (R218); none before the first fill. -/
  tag : Option Bytes := none
  /-- HDM decoder 0, once programmed (R203). -/
  hdm : Option HdmDecoder := none
  /-- The mailbox commands of the last exchange with it, in order (R210, R212, R220). -/
  mail : List MailCmd := []
  deriving DecidableEq, Repr

/-- One remap entry (BUF_REMAP). -/
structure Remap where
  stripe : Nat := 0
  bad : Bool := false
  valid : Bool := false
  deriving DecidableEq, Repr

/-- What the buffer controller last answered to an access (R205, R207 to R209). -/
inductive BufResult where
  | none
  /-- A read: the 1,024 data bytes of the stripe. -/
  | data (bytes : Bytes)
  /-- A read of an UNFILLED or undecodable stripe: every data line with poison. -/
  | poison
  /-- A write has been carried out. -/
  | written
  /-- A write of a whole UNFILLED stripe that is no fill write: dropped. -/
  | dropped
  /-- A partial write to an UNFILLED stripe: dropped, with an error to the writer. -/
  | failed
  deriving DecidableEq, Repr

/-- Buffer memory (BUF_). -/
structure Buf where
  nDev : Nat := 0
  cap : Nat := 0
  bif0 : Nat := 3
  bif1 : Nat := 3
  devLinks : BitVec 8 := 0
  /-- BUF_STAT.state. -/
  state : Nat := 0
  remapFull : Bool := false
  mark : Nat := 0
  /-- The 32 spare stripes are written. -/
  sparesDone : Bool := false
  /-- BUF_FILL_CFG, BUF_CXL_CFG and BUF_RAKE_CFG. -/
  fillCfg : Word := 0x00000031
  cxlCfg : Word := 0x0000000A
  rakeCfg : Word := 0x00001801
  links : BitVec 8 := 0
  rakePos : Nat := 0
  rakePasses : BitVec 16 := 0
  rakeCorrected : Nat := 0
  /-- Stripes to visit out of turn (R220). -/
  rakeQueue : List Nat := []
  eccCorrected : Nat := 0
  eccUncorr : Nat := 0
  eccUnfilled : Nat := 0
  uncorrLoc : Nat := 0
  dev : Vector MemDev 8 := Vector.replicate 8 {}
  remap : Vector Remap 32 := Vector.replicate 32 {}
  fillTag : Bytes := zeros 8
  /-- CXL_PERST#[p] is deasserted (R212, R403). -/
  perstOff : BitVec 2 := 0
  /-- Stripes written that are not all zero: stripe number on the devices, 1,024 data bytes; the check lines follow from them
  (R201 to R204). -/
  stripes : List (Nat × Bytes) := []
  /-- Lines that do not read as they were written: stripe number on the devices, and the lines. They stay so until they are
  written again (R207). -/
  damage : List (Nat × List LineError) := []
  /-- The answer to the last access. -/
  result : BufResult := .none
  deriving DecidableEq, Repr

/-- A descriptor the mover has taken (R241), and its progress. -/
structure MovDesc where
  id : Nat
  bytes : Bytes
  /-- Entries of the list still to move, when the operation has a list, with the bytes moved of the entry in hand. -/
  job : Job := {}
  inEntry : Nat := 0
  moved : Nat := 0
  /-- Attempts of the burst in hand (R20, R251), and the engine that moved the last burst (R252). -/
  tries : Tries := {}
  engine : Nat := 0
  /-- Running CRC register over the bytes moved. -/
  crc : Word := 0xFFFFFFFF
  /-- The descriptor came from MOV_SVC_DESC. -/
  service : Bool := false
  deriving DecidableEq, Repr

/-- One mover engine. -/
structure MovEng where
  /-- Descriptor whose burst it carries. -/
  use : Option Nat := none
  line : Nat := 0x3F
  op : Nat := 0
  /-- Bytes moved (MOV_ENG_BYTES shows KiB, wrapping). -/
  bytes : Nat := 0
  deriving DecidableEq, Repr

/-- One request line (MOV_LINE_STAT). -/
structure ReqLine where
  /-- Requests not yet served, oldest first: the order of arrival and the device time of each. -/
  pending : List (Nat × Nat) := []
  bound : Option Nat := none
  late : Nat := 0
  deriving DecidableEq, Repr

/-- The block mover (MOV_). -/
structure Mov where
  ctrl : Word := 0x0000000F
  errStatus : Nat := 0
  errReq : Nat := 0
  errEntry : Nat := 0
  svcDone : Bool := false
  svcPosted : Bool := false
  svcDesc : Vector Word 16 := Vector.replicate 16 0
  svcCpl : Vector Word 8 := Vector.replicate 8 0
  eng : Vector MovEng 4 := Vector.replicate 4 {}
  line : Vector ReqLine 38 := Vector.replicate 38 {}
  /-- Descriptors taken and not ended, oldest first. -/
  queue : List MovDesc := []
  /-- Bytes standing in the port FIFOs, by port number (R240). -/
  ports : List (Nat × Bytes) := []
  /-- Completions given to issuers, newest first: 32 bytes each (R252). -/
  cpls : List Bytes := []
  deriving DecidableEq, Repr

end Sys2Proof.Machine
end

