-- ==== Sys2Proof/Machine/TypesTape.lean ====
section
/-! DEFINITION. Sys2Proof/Machine/TypesTape.lean: the records State is made of, fourth part: read channels, retrieve, servo,
motion, ring and RAIT. -/

namespace Sys2Proof.Machine

/-- States of a read channel (RCH_STAT.sync_state, R149). -/
inductive SyncState where
  | acquisition | tracking | flywheeling | stopped
  deriving DecidableEq, Repr

/-- What a C1 core reports of a decode that converged (R158): the row, the iterations, and the raw errors. -/
structure C1Out where
  row : Bytes
  iterations : Nat
  errors : Nat
  deriving DecidableEq, Repr

/-- What the read channel and decoder report of one CWO read back in APPEND (R122). -/
structure Readback where
  /-- The header as decoded; none when it does not decode. -/
  header : Option Bytes
  smDist : Nat
  flywheeled : Bool
  /-- All four resync marks found at their expected positions, no slip repaired. -/
  marksOk : Bool
  /-- The C1 decode; none when it did not converge. -/
  out : Option C1Out
  /-- Samples were overwritten before a core took them (R12). -/
  overwritten : Bool
  deriving DecidableEq, Repr

/-- An attempt on its way through a C1 core (R157, R159): its place in the queue, the CWO, the alignment, and the C1 input with the
hard decisions once a core has copied them. -/
structure C1Req where
  order : Nat
  chan : Nat
  id : Nat
  align : Int
  input : Option (List Int × List Bool) := none
  deriving DecidableEq, Repr

/-- One equaliser output on its way to the detector (R145 to R147): bit position, output in units of 1/256 LSB, the ten samples it is formed
from, newest first, and the set register in force (R168). -/
structure EqOut where
  pos : Int
  y : Int
  xs : List Int
  set : Word
  deriving DecidableEq, Repr

/-- A codeword object that a channel has offered, until it is accepted or found missing (R155 to R157). -/
structure CwoJob where
  id : Nat
  /-- The wrap it was read on. -/
  wrap : Nat
  /-- Expected and chosen alignment, whether SM32 was found there, and the offset applied by slip repair (R150, R153). -/
  expected : Int
  chosen : Int
  found : Bool
  slipOff : Int
  smDist : Nat
  marksOk : Bool
  /-- Slips repaired: offset and segment (R154), the words whose C1 input is 0, and the re-cuts: bit offset in the CWO from which on, and
  bits (R153). -/
  slips : List (Int × Nat)
  erased : List Nat
  cuts : List (Int × Int)
  /-- Attempts not yet made, in order (R156). -/
  attempts : List Int
  /-- Attempts with an accepted header, in order: alignment, header, and how C1 ended (none while it runs). -/
  running : List (Int × Bytes × Option (Option C1Out)) := []
  /-- An attempt was abandoned, its samples overwritten before it was taken (R12, R157). -/
  overwritten : Bool := false
  deriving DecidableEq, Repr

/-- One read channel (RCH_, R138 to R157). -/
structure RChan where
  setA : Word := 0x28111118
  setB : Word := 0x28111118
  /-- The ten taps of each set, 8 fraction bits (R145). -/
  tapsA : List Int := [0, 0, 0, 256, 0, 0, 0, 0, 0, 0]
  tapsB : List Int := [0, 0, 0, 256, 0, 0, 0, 0, 0, 0]
  activeB : Bool := false
  pending : Option Nat := none
  shadowLocked : Bool := false
  swapLx : BitVec 16 := 0
  sync : SyncState := .stopped
  /-- Tracked offset τ in steps of 1/64 bit, the interpolator phase 0 to 63, and the turns it has wrapped (R141). -/
  tau : Int := 0
  phase : Nat := 0
  turns : Int := 0
  slips : Nat := 0
  flywheels : Nat := 0
  retries : Nat := 0
  /-- Phase wraps logged since the last mark: bit position and sign (R141, R153). -/
  wraps : List (Int × Int) := []
  /-- VGA gain as the AGC has it, in steps of 0.5 dB (R144), and the ten low bits of each tap accumulator of the active set (R146). -/
  agc : Nat := 0x18
  low : List Int := [0, 0, 0, 0, 0, 0, 0, 0, 0, 0]
  /-- Bit position of the next ADC sample, the samples that the equaliser still needs, newest first with their positions, and its outputs
  that the detector still needs, oldest first (R145, R147). -/
  count : Int := 0
  adc : List (Int × Int) := []
  eq : List EqOut := []
  /-- The brine buffer, newest sample first, and the bit position after its newest (R155). -/
  ring : List Int := []
  ringEnd : Int := 0
  /-- In acquisition: it began on a lead-in or separator, the next position to compare with SM32, the last match as distance and position,
  and the phase of the preamble tone for τ (R141, R149). -/
  onTone : Bool := false
  scanned : Int := 0
  hit : Option (Nat × Int) := none
  tone : Int := 0
  /-- Expected position of the next SM32, in bits of the common count (R149). -/
  expected : Int := 0
  /-- The CWO being framed: its expected and chosen alignment, whether SM32 was found there and at which distance. -/
  base : Int := 0
  chosen : Int := 0
  found : Bool := false
  smDist : Nat := 0
  /-- All resync marks found at their expected positions so far; slips repaired, words erased, offset applied (R153). -/
  marksOk : Bool := true
  slipLog : List (Int × Nat) := []
  erased : List Nat := []
  cuts : List (Int × Int) := []
  slipOff : Int := 0
  /-- Consecutive CWOs flywheeled (R149). -/
  flyRun : Nat := 0
  /-- A CWO is being framed. -/
  framing : Bool := false
  /-- CWOs offered and not ended, oldest first. -/
  jobs : List CwoJob := []
  /-- APPEND: CWOs decoded and not judged yet, oldest first (R122). -/
  done : List Readback := []
  /-- Equaliser step and CWOs framed toward the next (R146). -/
  mu : Nat := 6
  muCwos : Nat := 0
  /-- CWOs framed per zone since the load, and zones cold-started (R164, R166). -/
  framed : List Nat := [0, 0, 0]
  started : List Bool := [false, false, false]
  /-- Start values per zone from calibration: set word and taps (R165). -/
  startVals : List (Option (Word × List Int)) := [none, none, none]
  deriving DecidableEq, Repr

/-- Sample clock, decoding and retrieve control (RCH_ registers shared by all channels). -/
structure Rdc where
  clkCfg : Word := 0x00000018
  lockA : Bool := false
  lockB : Bool := false
  holdover : Bool := false
  /-- Servo frames of holdover still to pass (R142). -/
  holdLeft : Nat := 0
  zone : Nat := 3
  losses : Nat := 0
  /-- Measured phases, 1/64 bit, and the skew term as frozen (R141, R142). -/
  phiA : Int := 0
  phiB : Int := 0
  skew : Int := 0
  adapt : Word := 0x000054C6
  decCfg : Word := 0x000220AC
  converged : Nat := 0
  failed : Nat := 0
  retriedOk : Nat := 0
  recover : Word := 0x00000003
  eqChan : Nat := 0
  eqSet : Nat := 0
  rswap : Bool := false
  rswapLx : Nat := 0
  /-- C1 cores: the attempt that a core decodes (R159). -/
  core : Vector (Option C1Req) 16 := Vector.replicate 16 none
  /-- Attempts waiting for a core, in order (R159). -/
  coreQueue : List C1Req := []
  /-- Cores whose row has failed hand-over 6 once and is read again (R18). -/
  coreFail : BitVec 16 := 0
  /-- Consecutive tier slots in which every channel flywheeled (R149). -/
  flyTiers : Nat := 0
  /-- A separator has been decided and its mark is searched for (R151). -/
  inSeparator : Bool := false
  /-- Windows of the tier slot in hand that have closed: channel, the mark chosen as distance and position, and whether
  the separator's tone was seen. -/
  windows : List (Nat × Option (Nat × Int) × Bool) := []
  deriving DecidableEq, Repr

/-- A dataset being read (R160). -/
structure RdDs where
  dsn : Nat
  /-- Position in the group of a dataset that another member returns (R320); 0 for one read from this device's tape. -/
  pos : Nat := 0
  part : Nat
  session : Nat
  kind : Nat
  tag : Nat
  /-- Rows recovered: nominal index and row. -/
  rows : List (Nat × Bytes) := []
  /-- CWOs not found after all attempts, per channel (R366, kind 1). -/
  notFound : List (Nat × Nat) := []
  pass : Nat := 0
  corrected : Bool := false
  /-- All rows are present; or it is lost (R160 step 6). -/
  complete : Bool := false
  lost : Bool := false
  index : Option DsIndex := none
  /-- Every block of it has been taken at hand-over 7. -/
  taken : Bool := false
  /-- The PAN3 buffer of its rows, once the retrieve path has it. -/
  handle : Option Nat := none
  deriving DecidableEq, Repr

/-- Whether the retrieve path wants a PAN3 buffer for it. -/
def RdDs.wantsBuffer (d : RdDs) : Bool := d.handle.isNone && !d.taken && !d.lost

/-- Where a block being read is. -/
inductive RBlkPlace where
  /-- Waiting for mover bursts out of its dataset buffer (hand-over 7). -/
  | moverQueue
  | engineQueue
  | engine (e : Nat)
  /-- Past hand-over 8, waiting for a slice. -/
  | sliceQueue
  | slice (n : Nat)
  /-- Decoded: its framing is parsed in the order of its stream. -/
  | done
  deriving DecidableEq, Repr

/-- A block being read. -/
structure RBlk where
  id : Nat
  sid : Nat
  dsn : Nat
  entry : Nat
  encrypted : Bool
  epoch : Nat
  salt : Nat
  counter : Nat
  session : Nat
  part : Nat
  tag : Nat
  serial : Bytes
  bytes : Bytes
  /-- Records of the tag that end before this block, records that end in it, and filemarks before it (R49, R50). -/
  recBefore : Nat := 0
  recEnded : Nat := 0
  marksBefore : Nat := 0
  /-- A filemark in the stream's order. -/
  mark : Bool := false
  /-- Reading ends here with this status. -/
  stop : Option Status := none
  /-- The slice that decoded it last. -/
  lastSlice : Nat := 0
  /-- Ciphertext of an FF2 source block under this IV (R111). -/
  ff2 : Option Bytes := none
  place : RBlkPlace := .moverQueue
  /-- Bytes of it that bursts of hand-over 7 have moved (R250). -/
  moved : Nat := 0
  /-- The cipher engine whose release buffer still holds its plaintext (R93). -/
  heldBy : Option Nat := none
  /-- The slice that makes its next attempt, and a slice that it avoids since a record check failed there (R20, R82). -/
  want : Option Nat := none
  avoid : Option Nat := none
  /-- It has been parsed, and is kept while a record that it touches is open: the parser as it stood before it (R82). -/
  parsed : Option ParseSt := none
  plain : Bytes := []
  output : Bytes := []
  /-- Attempts at hand-over 7, at hand-over 8 and at hand-over 9. -/
  moveTries : Tries := {}
  tries : Tries := {}
  decTries : Tries := {}
  /-- The tag failed on this engine (R94). -/
  tagFailed : Option Nat := none
  deriving DecidableEq, Repr

/-- Retrieve (R57, R160 to R162). -/
structure Rtv where
  part : Nat := 0
  /-- Wrap being read. -/
  wrap : Nat := 0
  /-- Reading in hand begins at this dataset. -/
  low : Nat := 0
  /-- Datasets in hand, dsn rising. -/
  ds : List RdDs := []
  /-- Last accepted dataset: session and dsn (R57). -/
  last : Option (Nat × Nat) := none
  started : Bool := false
  eodSeen : Bool := false
  /-- Tape reading is stopped for read-ahead (R162). -/
  stopped : Bool := false
  /-- A re-read of this dataset is under way: dsn and pass (R161). -/
  reread : Option (Nat × Nat) := none
  blks : List RBlk := []
  /-- Blocks that wait for a slice, by serial number, in the order in which they became ready (R85). -/
  sliceQ : List Nat := []
  /-- Tier slot of the last accepted header, and of the last first copy (FMT_CUR_LOC). -/
  tier : Nat := 0
  lastData : Nat := 0
  deriving DecidableEq, Repr

/-- Servo states (R181). -/
inductive SrvState where
  | off | search | locked | flywheel | fenced
  deriving DecidableEq, Repr

/-- The servo front ends (SRV_). -/
structure Srv where
  ctrl : Word := 0x00000007
  fence : Word := 0x00230F5C
  state : SrvState := .off
  lxValid : Bool := false
  missed : Nat := 0
  gateOk : Bool := false
  validA : Bool := false
  validB : Bool := false
  straddle : Bool := false
  lx : Nat := 0
  pes : Int := 0
  yA : Nat := 0
  yB : Nat := 0
  az : Int := 0
  cntMissed : Nat := 0
  cntFences : Nat := 0
  /-- Frames of the LX group under assembly: quarter and byte (R179). -/
  group : List (Nat × Nat) := []
  mismatches : Nat := 0
  /-- Consecutive valid frames (R181). -/
  good : Nat := 0
  /-- Azimuth errors of the L3 period, and L2 samples in it (R183, R186). -/
  azErrs : List Int := []
  l2Count : Nat := 0
  forward : Bool := true
  deriving DecidableEq, Repr

/-- One second-order section's state (R185). -/
structure Section where
  x1 : Int := 0
  x2 : Int := 0
  w1 : Int := 0
  w2 : Int := 0
  deriving DecidableEq, Repr

/-- One loop (R185, R189, R191). -/
structure Loop where
  /-- MOT_LIM. -/
  lim : Word
  bankB : Bool := false
  swap : Bool := false
  /-- Coefficients: bank, section, c = 0 to 5, in that order. -/
  coef : Vector (BitVec 16) 24 := Vector.replicate 24 0
  sec0 : Section := {}
  sec1 : Section := {}
  /-- Samples since the loop started (R189). -/
  ramp : Nat := 0
  input : Int := 0
  output : Int := 0
  accSat : Bool := false
  outSat : Bool := false
  deriving DecidableEq, Repr

/-- States of the control engine (MOT_STAT.state). -/
inductive MotState where
  | off | softStart | running | stopping | stopped | braked
  deriving DecidableEq, Repr

/-- The control engine and the motion link (MOT_). -/
structure Mot where
  loopEn : BitVec 4 := 0
  stop : Bool := false
  state : MotState := .off
  linkOk : Bool := false
  coefDrop : Bool := false
  coefLocked : Bool := false
  followFault : Bool := false
  tensionFault : Bool := false
  /-- Measured speed, mm/s. -/
  speed : Nat := 0
  loop : Vector Loop 4 := #v[{ lim := 0x1F406000 }, { lim := 0x03E86000 }, { lim := 0x02006000 }, { lim := 0x00206000 }]
  /-- Queued coefficient writes: loop, index in `coef`, value (R191). -/
  queue : List (Nat × Nat × BitVec 16) := []
  tension : Word := 0x1F403333
  ff : Word := 0x00000000
  follow : Word := 0x01F407D0
  tfollow : Word := 0x0FA00666
  accel : Word := 0x00006464
  crcErr : Nat := 0
  missing : Nat := 0
  status : BitVec 8 := 0
  brakeSent : Bool := false
  /-- Speed reference and its target, µm/s; reference position in units of 1/5,000 µm, and measured position in units of
  1/64 clock-track cycle (R186, R189). -/
  speedRef : Nat := 0
  target : Nat := 0
  posRef : Int := 0
  pos : Int := 0
  /-- The measured speed stood at or above the L2 switch speed at the last swap (R188). -/
  l2High : Bool := false
  /-- Last valid sensor values (R197). -/
  tMeas : Int := 0
  supplyCount : Nat := 0
  takeupCount : Nat := 0
  supplyCurrent : Int := 0
  takeupCurrent : Int := 0
  /-- Soft-start set-point: start value and samples done (R189); Δ of R187. -/
  tStart : Int := 0
  tSamples : Nat := 0
  delta : Int := 0
  /-- Consecutive samples over the limits (R190), and consecutive bad in-frames (R198). -/
  overPos : Nat := 0
  overT : Nat := 0
  badFrames : Nat := 0
  /-- The period's in-frame is awaited: L0 and the out-frame are still to come (R195). -/
  awaiting : Bool := false
  /-- seq of the last out-frame, the brake code out-frames carry, and the last out-frame sent. -/
  seq : BitVec 8 := 0
  brake : Nat := 0
  outFrame : Bytes := []
  /-- A reset waits for the controlled stop (R193). -/
  islandReset : Bool := false
  deriving DecidableEq, Repr

/-- One ring port (CHN_PORT_). -/
structure RingPort where
  /-- 0 down, 1 training, 2 up, 3 cut. -/
  state : Nat := 0
  lanes : Nat := 0
  attested : Bool := false
  resends : Nat := 0
  crcErr : Nat := 0
  nakSent : Nat := 0
  /-- Sender: next seq, and frames not acknowledged as seq, bytes and times sent in a row, oldest first (R303, R304). -/
  txSeq : BitVec 12 := 0
  unacked : List (BitVec 12 × Bytes × Nat) := []
  /-- Frames that wait to be sent, without seq and CRC, oldest first. -/
  queue : List Bytes := []
  /-- Receiver: expected seq, frames accepted and not acknowledged, and whether a NAK is outstanding (R303). -/
  rxSeq : BitVec 12 := 0
  toAck : Nat := 0
  nakOut : Bool := false
  /-- Device time of the last NAK. -/
  nakAt : Nat := 0
  peerWindow : Nat := 512
  /-- Attestation: own nonce, neighbour's nonce, certificates and step reached (R301, R309). -/
  nonce : Bytes := []
  peerNonce : Bytes := []
  issuing : Bytes := []
  device : Bytes := []
  step : Nat := 0
  /-- Steps this side has sent. -/
  sent : Nat := 0
  /-- It went down with its last lane, and the ring has not heard of it yet (R304, R306). -/
  untold : Bool := false
  /-- Frames sent on this port, newest first (what the neighbour sees). -/
  out : List Bytes := []
  deriving DecidableEq, Repr

/-- A member of the ring as its ROSTER tells (R302, R307). -/
structure Member where
  addr : Nat
  flags : Nat
  latency : Nat
  ident : Bytes
  deriving DecidableEq, Repr

/-- A stripe that this member of the group receives (R316). -/
structure Stripe where
  stripe : Nat
  /-- Rows held: payload row, bytes (data) or sum so far (parity), and the data positions that have contributed. -/
  rows : List (Nat × Bytes × List Nat) := []
  /-- Its PAN3 buffer, once granted. -/
  handle : Option Nat := none
  /-- All of it is held, and PAYLOAD_OK has been sent. -/
  whole : Bool := false
  deriving DecidableEq, Repr

/-- A dataset of the group's stream that the origin keeps until its stripe is group-committed (R315 to R317). -/
structure HeldDs where
  stripe : Nat
  position : Nat
  /-- With its payload. -/
  ds : DsBuf
  /-- Positions that have confirmed it. -/
  confirmed : List Nat := []
  deriving DecidableEq, Repr

/-- Rows asked of a member (R320, R321): position, stripe, first row and count. -/
structure RowReq where
  position : Nat
  stripe : Nat
  first : Nat
  count : Nat
  deriving DecidableEq, Repr

/-- The RAIT group of this device (R311 to R321). -/
structure Group where
  /-- 0 none, 1 defined, 2 formed, 3 failed. -/
  state : Nat := 0
  k : Nat := 0
  p : Nat := 0
  part : Nat := 0
  west : Bool := false
  members : List Bytes := []
  id : Bytes := zeros 8
  position : Nat := 0
  lost : BitVec 32 := 0
  /-- Origin: answers to JOIN as position, eod_dsn, session, and whether the definitions agree. -/
  answers : List (Nat × Nat × Nat × Bool) := []
  /-- Serials received by GROUP_SERIAL, by position. -/
  serials : List (Nat × Bytes) := []
  s0 : Nat := 0
  session : Nat := 0
  /-- Origin: datasets of the group's stream numbered so far (R315). Member: stripes that have joined its write queue. -/
  next : Nat := 0
  stripes : List Stripe := []
  held : List HeldDs := []
  /-- First uncommitted stripe of each position, and group commit point (R317). -/
  commits : List (Nat × Nat) := []
  commit : Nat := 0
  /-- Positions that hold XOFF. -/
  xoff : List Nat := []
  sessionEnd : Option Nat := none
  /-- Member: XOFF has been sent and no XON since (R317). -/
  xoffSent : Bool := false
  /-- Member: rows asked of it that it has not returned yet. -/
  serve : List RowReq := []
  /-- Origin: rows asked for, and those that came, as position, stripe, row, and the bytes or none when lost (R320). -/
  wanted : List RowReq := []
  got : List (Nat × Nat × Nat × Option Bytes) := []
  /-- Stripes for which EV_RAIT_REBUILD has been raised. -/
  rebuilt : List Nat := []
  deriving DecidableEq, Repr

/-- Ring and RAIT (CHN_). -/
structure Chn where
  enable : Bool := true
  /-- CHN_STAT.state. -/
  state : Nat := 0
  addr : Nat := 0x3FF
  anchor : Bool := false
  raitOk : Bool := false
  pendingJoin : Bool := false
  reassemble : Bool := false
  members : Nat := 0
  budget : Nat := 1000
  /-- Measured round trip, ns. -/
  rt : Nat := 0
  linkCfg : Word := 0x00000814
  port : Vector RingPort 2 := Vector.replicate 2 {}
  /-- Lowest identifier seen in the flood, the RAIT version of the member that has it, and the chain ends that have
  echoed this member's beacon: bit 0 east, bit 1 west (R309). -/
  lowest : Bytes := []
  lowestRait : Nat := 1
  echoes : BitVec 2 := 0
  /-- A token with the chain flag, or news of a cut, has passed; and this member lies east of the anchor (R309). -/
  chain : Bool := false
  east : Bool := false
  /-- Members from west to east in a chain; empty in a ring (R306). -/
  line : List Nat := []
  roster : List Member := []
  grp : Group := {}
  deriving DecidableEq, Repr

end Sys2Proof.Machine
end

