-- ==== Sys2Proof/Machine/State.lean ====
section
/-! DEFINITION. Sys2Proof/Machine/State.lean: the state of the part, its reset value, and the reasons a step can stop. -/

namespace Sys2Proof.Machine

/-- The part. Every field is plain data. -/
structure State where
  /-- Commands that wait, first in, first out. -/
  pending : List Instr := []
  glb : Glb := {}
  pwr : Pwr := {}
  sec : Sec := {}
  evt : Evt
  qs : QStore := {}
  msix : Msix := {}
  hif : Hif := {}
  insts : Vector InstSt 64 := Vector.replicate 64 {}
  /-- Slot sequence state: entry 8v + k is slot k of instance v (R101). -/
  seqs : Vector SlotSeq 512 := Vector.replicate 512 {}
  streams : List Stream := []
  blks : List Blk := []
  codec : Codec := {}
  fmt : Fmt := {}
  wch : Vector WChan 128 := Vector.replicate 128 {}
  pace : Pace := {}
  cart : Cart := {}
  pans : Pans := {}
  buf : Buf := {}
  mov : Mov := {}
  rch : Vector RChan 128 := Vector.replicate 128 {}
  rdc : Rdc := {}
  rtv : Rtv := {}
  srv : Srv := {}
  mot : Mot := {}
  chn : Chn := {}
  /-- What the board profile in force says (R348). -/
  prof : ProfileValues := {}
  /-- Host memory as the device has seen and written it, canonical: key `space · 2^64 + address`. -/
  hostMem : List Host.Cell := []
  /-- Random bytes drawn so far (R92): the model's own counter. -/
  freeCtr : Nat := 0
  /-- The model's own serial numbers: commands, streams, blocks, datasets. -/
  nextId : Nat := 0
  deriving DecidableEq, Repr

/-- The strike configuration at reset (EVT_STRIKE_CFG): threshold and leak period of kinds 0 to 7. -/
def strikeReset : Vector Word 8 :=
  #v[0x003C0008, 0x003C0008, 0x02580004, 0x0E100003, 0x0E100003, 0x000A000F, 0x00010008, 0x0E100003]

/-- The part right after a cold reset is taken: mode RESET, start-up not begun (R326, R329, R331). -/
def State.reset : State := { evt := { strikeCfg := strikeReset } }

/-- Why a step stops. -/
inductive Fault where
  /-- Raised by JTAG_ACCESS when it writes a steward register through an open TAP: the part's behaviour after it is undefined
  until the next warm reset, and the spec gives no effect (R382). Safe: the run stops. -/
  | stewardWrite
  deriving DecidableEq, Repr

/-- Why a command is refused. -/
inductive Refusal where
  /-- The command has no meaning yet; raised by the arms of Dispatch that say so. Safe: the run stops. -/
  | notModelled (mnemonic : String)
  deriving DecidableEq, Repr

end Sys2Proof.Machine
end

