-- ==== Sys2Proof/Machine/Ops.lean ====
section
/-! DEFINITION. Sys2Proof/Machine/Ops.lean: the named operations that the meanings share: host memory, MSI-X, events,
completions, modes and domains, instance states, random bits, the retirement map. -/

namespace Sys2Proof.Machine

/-! ### Outcomes -/

/-- A meaning's outcome. -/
abbrev Out := Host.Outcome State Fault Refusal

/-- The next state. -/
def next (s : State) : Out := .next s

/-! ### Access to one element -/

/-- Instance `v`. -/
def State.inst (s : State) (v : Inst) : InstSt := s.insts[v]

/-- Instance `v` changed by `f`. -/
def State.modInst (s : State) (v : Inst) (f : InstSt → InstSt) : State := { s with insts := vmod s.insts v f }

/-- The ring pair `r`. -/
def State.ring (s : State) : RingId → Ring
  | none => s.hif.mq
  | some v => (s.inst v).ring

/-- The ring pair `r` changed by `f`. -/
def State.modRing (s : State) (r : RingId) (f : Ring → Ring) : State :=
  match r with
  | none => { s with hif := { s.hif with mq := f s.hif.mq } }
  | some v => s.modInst v (fun i => { i with ring := f i.ring })

/-- All instance numbers, lowest first. -/
def allInsts : List Inst := List.finRange 64

/-- All slot numbers. -/
def allSlots : List SlotNo := List.finRange 8

/-- Index of slot `k` of instance `v` in the sequence state (R101). -/
def seqIx (v : Inst) (k : SlotNo) : Fin 512 := Fin.ofNat 512 (8 * v.val + k.val)

/-- The first element that satisfies `p` changed by `f`. -/
def modFirst {α : Type} (p : α → Bool) (f : α → α) : List α → List α
  | [] => []
  | a :: l => if p a then f a :: l else a :: modFirst p f l

/-- Every element that satisfies `p` changed by `f`. -/
def modAll {α : Type} (p : α → Bool) (f : α → α) (l : List α) : List α := l.map (fun a => if p a then f a else a)

/-! ### Host memory (R8, R258) -/

/-- The byte at key `k`; an unlisted key reads 0. DESIGN CHOICE (log entry 3). -/
def memByte (m : List Host.Cell) (k : Nat) : Byte :=
  match m with
  | [] => 0
  | (j, b) :: m => if j = k then b else memByte m k

/-- Memory with byte `b` at key `k`; the list keeps its canonical form. -/
def memSet (m : List Host.Cell) (k : Nat) (b : Byte) : List Host.Cell :=
  match m with
  | [] => if b = 0 then [] else [(k, b)]
  | (j, c) :: m =>
    if j < k then (j, c) :: memSet m k b
    else if j = k then (if b = 0 then m else (k, b) :: m)
    else if b = 0 then (j, c) :: m else (k, b) :: (j, c) :: m

/-- Memory with a run of bytes from key `k`. -/
def memSetAll (m : List Host.Cell) (k : Nat) : Bytes → List Host.Cell
  | [] => m
  | b :: bs => memSetAll (memSet m k b) (k + 1) bs

/-- The canonical form: keys strictly rising from `lo` on, no listed byte 0. -/
def memWfFrom (lo : Nat) : List Host.Cell → Bool
  | [] => true
  | (j, b) :: m => decide (lo ≤ j) && b != 0 && memWfFrom (j + 1) m

/-- The canonical form of host memory. -/
def Memory.wf (m : List Host.Cell) : Bool := memWfFrom 0 m

/-- The key of a host address in an address space: 0 for no PASID, PASID + 1 otherwise. -/
def hostKey (space addr : Nat) : Nat := space * 2 ^ 64 + addr % 2 ^ 64

/-- `n` bytes of host memory from `addr`. -/
def hostRead (s : State) (space addr n : Nat) : Bytes := (List.range n).map (fun i => memByte s.hostMem (hostKey space (addr + i)))

/-- Host memory with `bs` from `addr` on. A run that passes the top of the space goes on at its bottom. -/
def hostWrite (space addr : Nat) (bs : Bytes) (s : State) : State :=
  let fit := 2 ^ 64 - addr % 2 ^ 64
  { s with hostMem := memSetAll (memSetAll s.hostMem (hostKey space addr) (bs.take fit)) (hostKey space 0) (bs.drop fit) }

/-- The address space that accesses for a ring carry (R258). -/
def State.space (s : State) : RingId → Nat
  | none => 0
  | some v => (s.inst v).cfg.pasid + 1

/-- The device identifier, a byte string (R344). -/
def deviceIdent : Bytes := (List.finRange 16).map Config.deviceId

/-! ### Random bits (R92) -/

/-- The next `n` random bytes; once the generator has failed, bytes that nothing is drawn for. -/
def draw (s : State) (n : Nat) : Bytes :=
  if s.sec.rngOk then (List.range n).map (fun i => Config.rng (s.freeCtr + i)) else (List.range n).map Config.undrawn

/-- `n` random bytes have been drawn: none once the generator has failed (R92). -/
def drawn (n : Nat) (s : State) : State := { s with freeCtr := if s.sec.rngOk then s.freeCtr + n else s.freeCtr }

/-! ### MSI-X (R257, R263) -/

/-- Vector `x` has been asked for: its message goes out, or its pending bit sets while it is masked or the link is not in L0. -/
def fireMsix (x : Fin 130) (s : State) : State :=
  let e := s.msix.table[x]
  if e.masked || !s.hif.linkL0 then
    { s with msix := { s.msix with pba := s.msix.pba ||| BitVec.twoPow 130 x.val } }
  else
    hostWrite 0 e.addr (leBytes 4 e.data.toNat)
      { s with msix := { s.msix with table := vset s.msix.table x { e with sent := e.sent + 1 } } }

/-- The vector of a completion ring (R257). -/
def ringVector : RingId → Fin 130
  | none => 0
  | some v => Fin.ofNat 130 (2 + 2 * v.val)

/-- The vector of an instance notice (R257). -/
def noticeVector (v : Inst) : Fin 130 := Fin.ofNat 130 (3 + 2 * v.val)

/-- Messages that waited for the link go out (R257). -/
def flushMsix (s : State) : State :=
  (List.finRange 130).foldl (fun s x =>
    if s.msix.pba.getLsbD x.val && s.hif.linkL0 && !s.msix.table[x].masked then
      fireMsix x { s with msix := { s.msix with pba := s.msix.pba &&& ~~~(BitVec.twoPow 130 x.val) } }
    else s) s

/-! ### Events (R365 to R376) -/

/-- The events of R373. -/
inductive Ev where
  | blockResend | paceCeil | chRetired | resRetired | pewter | eventLoss | quench | holdLow | rngFail
  | compSelfcheck | cphSelfcheck | tagFail | keyUnwrap | writeRecovery | writeFail | speed | ctLost | syncSlip
  | srvLock | srvFence | motFollow | motTension | motLink | bufCorrected | bufUnfilled | bufUncorr | cxlDegraded
  | memdevLost | bufFillRestart | bufRemap | bufRemapFull | panListRebuild | panBadHandle | panDoubleFree
  | panForeignFree | panLow | panCritical | movDesc | hifRingFault | hifDoorbell | chnAssembled | chnAttestFail
  | raitMemberLost | raitFail | raitRebuild | profileFail | fwReject | fwFallback | serviceFail | serviceOpen
  deriving DecidableEq, Repr

/-- Code and class of each event (R365, R373): class 0 Corrected, 1 Transient, 2 Permanent, 3 Fatal. -/
def evTable : Ev → Nat × Nat
  | .blockResend => (0x0101, 1) | .paceCeil => (0x0102, 0) | .chRetired => (0x0103, 2) | .resRetired => (0x0104, 2)
  | .pewter => (0x0105, 3) | .eventLoss => (0x0106, 0) | .quench => (0x0107, 3) | .holdLow => (0x0108, 0)
  | .rngFail => (0x0109, 3) | .compSelfcheck => (0x0201, 1) | .cphSelfcheck => (0x0301, 1) | .tagFail => (0x0302, 1)
  | .keyUnwrap => (0x0303, 1) | .writeRecovery => (0x0401, 1) | .writeFail => (0x0402, 2) | .speed => (0x0403, 0)
  | .ctLost => (0x0501, 1) | .syncSlip => (0x0502, 0) | .srvLock => (0x0601, 1) | .srvFence => (0x0602, 1)
  | .motFollow => (0x0603, 1) | .motTension => (0x0604, 1) | .motLink => (0x0605, 1) | .bufCorrected => (0x0701, 0)
  | .bufUnfilled => (0x0702, 1) | .bufUncorr => (0x0703, 1) | .cxlDegraded => (0x0704, 0) | .memdevLost => (0x0705, 2)
  | .bufFillRestart => (0x0706, 0) | .bufRemap => (0x0707, 0) | .bufRemapFull => (0x0708, 2)
  | .panListRebuild => (0x0801, 0) | .panBadHandle => (0x0802, 1) | .panDoubleFree => (0x0803, 1)
  | .panForeignFree => (0x0804, 1) | .panLow => (0x0805, 0) | .panCritical => (0x0806, 0) | .movDesc => (0x0901, 1)
  | .hifRingFault => (0x0A01, 2) | .hifDoorbell => (0x0A02, 1) | .chnAssembled => (0x0B01, 0)
  | .chnAttestFail => (0x0B02, 2) | .raitMemberLost => (0x0B03, 2) | .raitFail => (0x0B04, 2)
  | .raitRebuild => (0x0B05, 0) | .profileFail => (0x0C01, 3) | .fwReject => (0x0C02, 1) | .fwFallback => (0x0C03, 2)
  | .serviceFail => (0x0C04, 1) | .serviceOpen => (0x0C05, 0)

/-- No resource, in an event record (R372). -/
def noRes : Nat := 0xFFFF
/-- No instance, in an event record (R372). -/
def noInst : Nat := 0xFF

/-- Whether R374 merges `r` into the newest record `l`. -/
def mergeable (l r : EvRec) : Bool :=
  l.code == r.code && l.cls == r.cls && l.source == r.source && l.resource == r.resource && l.inst == r.inst

/-- Bits [39:16] of a device time (R376). -/
def lossTime (t : Nat) : Nat := (t / 2 ^ 16) % 2 ^ 24

/-- An event lost to a full FIFO (R376): its class, source and time are all that stays (R411). -/
def loseEvent (u : Evt) (r : EvRec) : Evt :=
  let i : Fin 64 := Fin.ofNat 64 (16 * r.cls + r.source)
  let first := u.loss.toList.all (fun c => c.count == 0)
  { u with
    loss := vmod u.loss i (fun c =>
      { count := satInc 65535 c.count, first := if c.count = 0 then lossTime r.time else c.first, last := lossTime r.time })
    firstLoss := if first then r.time else u.firstLoss }

/-- Places a record in the FIFO: merged, at the tail, or lost (R374, R376). An event that finds the FIFO full is lost
even when it equals the newest record, as the event-flood example has it. DEDUCED (log entry 7). -/
def enqueueEvent (u : Evt) (r : EvRec) : Evt :=
  if 256 ≤ u.fifo.length then loseEvent u r
  else
    match u.fifo.getLast? with
    | some l =>
      if 64 ≤ u.fifo.length && mergeable l r then
        { u with fifo := u.fifo.dropLast ++ [{ l with rep := satInc 65535 l.rep }] }
      else { u with fifo := u.fifo ++ [r] }
    | none => { u with fifo := u.fifo ++ [r] }

/-- Raises an event at the present device time (R374): every mode but OFF. -/
def raiseEv (e : Ev) (source resource inst : Nat) (detail : Bytes) (s : State) : State :=
  if s.glb.mode = .off then s
  else
    let r : EvRec := { time := s.glb.time, code := (evTable e).1, cls := (evTable e).2, source := source
                       resource := resource, inst := inst, detail := padTo 12 detail }
    { s with evt := enqueueEvent s.evt r }

/-- Sum of the loss counts, saturating at 32 bits. -/
def lossTotal (v : Vector LossCtr 64) : Nat := min (v.toList.foldl (fun a c => a + c.count) 0) 0xFFFFFFFF

/-- The EV_EVENT_LOSS record (R376): first-loss time, then the count. -/
def lossRecord (now first count : Nat) : EvRec :=
  { time := now, code := (evTable .eventLoss).1, cls := (evTable .eventLoss).2, source := 0xF, resource := noRes
    inst := noInst, detail := leBytes 8 first ++ leBytes 4 count }

/-- The three things done as soon as the FIFO again has 64 free entries (R376). -/
def settleLoss (now : Nat) (u : Evt) : Evt :=
  if u.fifo.length ≤ 192 && u.loss.toList.any (fun c => c.count != 0) then
    { u with snapshot := u.loss, loss := Vector.replicate 64 {}
             fifo := u.fifo ++ [lossRecord now u.firstLoss (lossTotal u.loss)] }
  else u

/-! ### Commands and completions (R261 to R265) -/

/-- Opcode of a descriptor. -/
def Cmd.opcode (c : Cmd) : Nat := u8 c.desc 0
/-- The fence flag. -/
def Cmd.fence (c : Cmd) : Bool := (c.desc.getD 1 0).getLsbD 0
/-- The host's command identifier. -/
def Cmd.cid (c : Cmd) : Nat := u16 c.desc 2
/-- The target field. -/
def Cmd.target (c : Cmd) : Nat := u16 c.desc 4

/-- The 32 bytes of a completion entry (R265). -/
def cplBytes (cid head target : Nat) (phase : Bool) (c : Cpl) : Bytes :=
  leBytes 2 cid ++ leBytes 1 c.status.code
    ++ leBytes 1 (bit phase + 2 * bit c.mark + 4 * bit c.bop + 8 * bit c.blank)
    ++ leBytes 2 head ++ leBytes 2 target ++ leBytes 8 c.r0 ++ leBytes 8 c.r1 ++ leBytes 4 c.r2 ++ leBytes 4 c.entry

/-- Whether a status counts as a failure in the statistics (R271). -/
def Status.failed (st : Status) : Bool := st != .ok && st != .okCorrected

/-- Signals a completion ring: the vector fires and nothing remains unsignalled (R263). -/
def signalRing (r : RingId) (s : State) : State :=
  fireMsix (ringVector r) (s.modRing r (fun q => { q with unsignalled := 0 }))

/-- Signals a completion ring when irq_count asks for it (R263); 0 acts as 1. -/
def moderate (r : RingId) (s : State) : State :=
  if max 1 (s.ring r).irqCount ≤ (s.ring r).unsignalled then signalRing r s else s

/-- An instance whose host addresses are translated through ATS keeps the translation of a page it uses (R255). DESIGN CHOICE (log entry
104): it keeps those of its ring pages. -/
def useAts (r : RingId) (addr : Nat) (s : State) : State :=
  match r with
  | none => s
  | some v => s.modInst v (fun i =>
      let page := addr / 4096
      if i.cfg.ats && !i.atc.contains page then { i with atc := i.atc ++ [page] } else i)

/-- Writes one completion entry and moves the completion tail on (R262, R263). -/
def putCpl (r : RingId) (cid target : Nat) (c : Cpl) (s : State) : State :=
  let q := s.ring r
  let s := useAts r (q.cqBase + 32 * q.cqTail) (hostWrite (s.space r) (q.cqBase + 32 * q.cqTail) (cplBytes cid q.sqHead target q.phase c) s)
  let wrap := q.cqTail + 1 == 2 ^ q.cqLog
  s.modRing r (fun q =>
    { q with cqTail := if wrap then 0 else q.cqTail + 1, phase := if wrap then !q.phase else q.phase
             oldest := if q.unsignalled = 0 then s.glb.time else q.oldest, unsignalled := q.unsignalled + 1 })

/-- Counts a completion in an instance's statistics (R271). -/
def countCpl (r : RingId) (st : Status) (s : State) : State :=
  match r with
  | none => s
  | some v => s.modInst v (fun i =>
      { i with stats := { i.stats with commands := i.stats.commands + 1, failed := i.stats.failed + bit st.failed } })

/-- The command of ring `r` with serial number `uid`. -/
def State.cmd? (s : State) (r : RingId) (uid : Nat) : Option Cmd := (s.ring r).cmds.find? (fun c => c.uid == uid)

/-- The command of ring `r` with serial number `uid` changed by `f`. -/
def State.modCmd (s : State) (r : RingId) (uid : Nat) (f : Cmd → Cmd) : State :=
  s.modRing r (fun q => { q with cmds := modFirst (fun c => c.uid == uid) f q.cmds })

/-- The command ends without a completion. -/
def dropCmd (r : RingId) (uid : Nat) (s : State) : State :=
  s.modRing r (fun q => { q with cmds := q.cmds.filter (fun c => c.uid != uid) })

/-- Whether a status is one of those that end commands from outside their own course (R293 to R295, R337, R379). -/
def Status.aborts (st : Status) : Bool :=
  st == .abortedReset || st == .abortedQuench || st == .abortedFreeze || st == .abortedPewter

/-- Whether a quiesce holds the completion of a command (R292): one that waits only on commit is not held, and an abort ends it. -/
def holdsCpl (s : State) (r : RingId) (k : Cmd) (st : Status) : Bool :=
  match r with
  | none => false
  | some v =>
    ((s.inst v).state == .quiescing || (s.inst v).state == .quiesced) && !st.aborts
      && (match k.phase with | .commitWait _ _ => false | _ => true)

/-- The command keeps the first completion found for it until its instance resumes (R292). -/
def holdCmd (c : Cpl) (k : Cmd) : Cmd := match k.phase with | .held _ => k | _ => { k with phase := .held c }

/-- Completes command `uid` of ring `r`. A stopped ring takes no completion (R258), a command fetched before the
management pair was stopped writes none (HIF_CTRL), and a quiesce holds it back (R292). -/
def complete (r : RingId) (uid : Nat) (c : Cpl) (s : State) : State :=
  match s.cmd? r uid with
  | none => s
  | some k =>
    if holdsCpl s r k c.status then s.modRing r (fun q => { q with cmds := modAll (fun k => k.uid == uid) (holdCmd c) q.cmds })
    else
    let s := dropCmd r uid s
    if (s.ring r).stopped || k.mute then s
    else moderate r (countCpl r c.status (putCpl r k.cid k.target c s))

/-- Completes with a status and results 0. -/
def completeSt (r : RingId) (uid : Nat) (st : Status) (s : State) : State := complete r uid { status := st } s

/-! ### Instance states (R285, R287) -/

/-- Takes an instance to a state: `seq` counts each change and the notice is raised (R287). -/
def setInstState (v : Inst) (st : InstState) (s : State) : State :=
  if (s.inst v).state = st then s
  else fireMsix (noticeVector v) (s.modInst v (fun i => { i with state := st, seq := i.seq + 1 }))

/-! ### Power domains and modes (R324 to R326) -/

/-- Resource indexes of the retirement map (R370): first index and number of each kind of R366. -/
def kindBase (k : Nat) : Nat := [0, 128, 256, 272, 280, 284, 292, 300].getD k 304
def kindCount (k : Nat) : Nat := [128, 128, 16, 8, 4, 8, 8, 4].getD k 0

/-- Whether resource `n` of kind `k` is retired. -/
def State.retired (s : State) (k n : Nat) : Bool := (s.evt.buckets[Fin.ofNat 304 (kindBase k + n)]).retired

/-- Numbers of kind `k` in service. -/
def State.inService (s : State) (k : Nat) : List Nat := (List.range (kindCount k)).filter (fun n => !s.retired k n)

/-- Domains from `a` to `b`. -/
def domRange (a b : Nat) : BitVec 80 := BitVec.ofNat 80 (2 ^ (b + 1) - 2 ^ a)

def domAttest : BitVec 80 := BitVec.ofNat 80 (2 ^ 56 + 2 ^ 68 + 2 ^ 69 + 2 ^ 72)
def domAssemble : BitVec 80 := domAttest ||| domRange 57 65 ||| domRange 72 79
def domThreaded : BitVec 80 := domAssemble ||| BitVec.ofNat 80 (2 ^ 32 + 2 ^ 33 + 2 ^ 66 + 2 ^ 67)
/-- All but 70 and 71. -/
def domAppend : BitVec 80 := domRange 0 69 ||| domRange 72 79
def domPewter : BitVec 80 := BitVec.ofNat 80 (2 ^ 32 + 2 ^ 33 + 2 ^ 56 + 2 ^ 66 + 2 ^ 67 + 2 ^ 68 + 2 ^ 69 + 2 ^ 72)

/-- The partition in use: that of the write session, or else the one being read. -/
def State.partInUse (s : State) : Nat := match s.fmt.sess with | some w => w.part | none => s.rtv.part

/-- Domain 71 is powered with Vault or RAIT only (R325). -/
def State.parityUse (s : State) : BitVec 80 :=
  if (s.cart.dir.getD s.partInUse DirEntry.none).vault || s.chn.grp.state == 2 then BitVec.twoPow 80 71 else 0

/-- Domains whose resource is retired stay off (R324); a decoder pair or a channel group is off when all of it is retired. -/
def State.retiredDoms (s : State) : BitVec 80 :=
  let all (k a n : Nat) : Bool := (List.range n).all (fun i => s.retired k (a + i))
  BitVec.ofNat 80 ((List.range 80).foldl (fun a d =>
    let off :=
      if d < 16 then all 1 (8 * d) 8 else if d < 32 then all 0 (8 * (d - 16)) 8
      else if 34 ≤ d && d < 42 then all 2 (2 * (d - 34)) 2
      else if 44 ≤ d && d < 52 then s.retired 3 (d - 44)
      else if 52 ≤ d && d < 56 then s.retired 4 (d - 52)
      else if 62 ≤ d && d < 66 then s.retired 7 (d - 62) else false
    a + (if off then 2 ^ d else 0)) 0)

/-- Ports that the board profile does not wire stay off (R325). Devices 0 to 3 are on CXL port 0, 4 to 7 on port 1 (R210). -/
def State.unwiredDoms (s : State) : BitVec 80 :=
  (if s.prof.eastLanes = 0 then BitVec.twoPow 80 59 else 0) ||| (if s.prof.westLanes = 0 then BitVec.twoPow 80 60 else 0)
    ||| (if s.prof.devLinks.toNat % 16 = 0 then BitVec.twoPow 80 57 else 0)
    ||| (if s.prof.devLinks.toNat / 16 = 0 then BitVec.twoPow 80 58 else 0)

/-- The domains that a mode powers (R325). SERVICE powers everything, domain 70 with scope DEBUG. DESIGN CHOICE (log
entry 8). -/
def State.domsOf (s : State) (m : Mode) : BitVec 80 :=
  let base : BitVec 80 := match m with
    | .off | .reset | .quench => 0
    | .attest => domAttest
    | .assemble | .idle => domAssemble
    | .threaded | .locate => domThreaded
    | .append => domAppend ||| s.parityUse
    | .retrieve => (domAppend ||| s.parityUse) &&& ~~~(domRange 16 31 ||| BitVec.twoPow 80 42)
    | .service => domAppend ||| BitVec.twoPow 80 71 ||| (if s.sec.scope.testBit 1 then BitVec.twoPow 80 70 else 0)
    | .pewter => domPewter
  base &&& ~~~(s.retiredDoms ||| s.unwiredDoms)

/-- Domains that stay on beside those of the mode: the CXL ports through a warm reset up to the new bring-up (R325,
R331), and the control-engine island while it stops the tape (R193). -/
def State.heldDoms (s : State) (m : Mode) : BitVec 80 :=
  (if m = .reset || m = .attest then s.pwr.dom &&& domRange 57 58 else 0) ||| (if s.mot.islandReset then domRange 66 67 else 0)

/-- The domains follow the mode. -/
def powerFor (m : Mode) (s : State) : State := { s with pwr := { s.pwr with dom := s.domsOf m ||| s.heldDoms m } }

/-- A change of mode (R326): GLB_MODE.seq counts it. -/
def setMode (m : Mode) (s : State) : State :=
  if s.glb.mode = m then s
  else powerFor m { s with glb := { s.glb with mode := m, prev := s.glb.mode, seq := s.glb.seq + 1 } }

/-- The modes in which the host interface serves commands: from event 6 of R331 on. -/
def Mode.served : Mode → Bool
  | .idle | .threaded | .locate | .append | .retrieve | .service | .pewter => true
  | _ => false

/-- The modes in which the tape is threaded. -/
def Mode.onTape : Mode → Bool
  | .threaded | .locate | .append | .retrieve => true
  | _ => false

/-! ### The retirement map and the slot records of the quench store (R339, R368, R370) -/

/-- Writes the retirement map to the quench store. -/
def storeMap (s : State) : State :=
  { s with qs := { s.qs with map := s.evt.buckets, pewterCause := s.evt.pewterCause, mapOk := true } }

/-- Writes one slot's sequence state to copy A and then to copy B (R339). -/
def storeSlot (i : Fin 512) (s : State) : State :=
  let r : SlotRec := { frontier := s.seqs[i].frontier, epoch := s.seqs[i].epoch, ok := true }
  { s with qs := { s.qs with slotA := vset s.qs.slotA i r, slotB := vset s.qs.slotB i r } }

/-- The record of a slot that start-up takes: copy A where its CRC passes, copy B otherwise (R339). -/
def storedSlot (s : State) (i : Fin 512) : SlotRec := if s.qs.slotA[i].ok then s.qs.slotA[i] else s.qs.slotB[i]

/-! ### Who may write (R361, R382, R384) -/

/-- Whether the JTAG TAP is open: TEST, PROVISIONED and RETURNED, or a session of scope DEBUG (R360, R361). -/
def State.tapOpen (s : State) : Bool :=
  s.sec.lifecycle == 1 || s.sec.lifecycle == 2 || s.sec.lifecycle == 4 || (s.sec.gateOpen && s.sec.scope.testBit 1)

/-- Whether a source's write to a block that takes host writes in SERVICE only has effect (R384). -/
def State.mayDrive (s : State) : Source → Bool
  | .steward => true
  | .host => s.glb.mode == .service
  | .jtag => s.tapOpen

end Sys2Proof.Machine
end

