-- ==== Sys2Proof/Machine/Pace.lean ====
section
/-! DEFINITION. Sys2Proof/Machine/Pace.lean: pace ratios and pace ceilings (R13 to R15). -/

namespace Sys2Proof.Machine

/-- Power domains of the class that a site stands for (table before R13). -/
def siteDoms (i : Nat) : BitVec 80 :=
  match i with
  | 0 => domRange 34 41 | 1 => domRange 42 43 | 2 => domRange 44 51 | 3 => domRange 52 55
  | 4 => domRange 62 65 | 5 => domRange 61 61 | 6 => domRange 43 43 | _ => domRange 71 71

/-- A site is powered whenever at least one domain of its class is. -/
def siteOn (s : State) (i : Nat) : Bool := s.pwr.dom &&& siteDoms i != 0

/-- Pace ratio of a count (R13): 0x4000 is 1.0. -/
def paceRatio (count nom : Nat) : Nat := count * 16384 / nom

/-- Guaranteed minimum ratio of a site, in units of 1/1,638,400. -/
def guaranteed (i : Nat) : Nat := if i = 3 then 1310720 else 1277952

/-- The ratio that the ceilings use for a site (R14), in units of 1/1,638,400. -/
def ceilRatio (s : State) (i : Fin 8) : Nat :=
  match s.pace.last[i] with
  | some r => 100 * r
  | none => guaranteed i.val

/-- The three conditions of R14 at speed code `c` in zone `z`. -/
def speedQualifies (s : State) (z c : Nat) : Bool :=
  -- 254 times the channel demand in bit/s
  let bits := s.fmt.map.length * densityOf z * speedMm c * 10
  let u := 1638400
  decide (bits * 16 * u ≤ 35000000000 * 254 * (s.inService 2).length * ceilRatio s 0)
    && decide (bits * u ≤ 40000000000 * 254 * ceilRatio s 1)
    && decide (bits * 690 * 4 * u ≤ 4160000000 * 254 * 8 * 1000 * (s.inService 4).length * ceilRatio s 3)

/-- The pace ceiling of zone `z` (R14): a speed code, 7 when no speed qualifies. -/
def ceiling (s : State) (z : Nat) : Nat := ((List.range 6).find? (speedQualifies s z)).getD 7

/-- The new ceiling of a zone and its run of higher windows (R15). A computation that no window's end brought about
lowers a ceiling, and leaves the run as it was. -/
def republish (window first : Bool) (raise old new : Nat) (run : Nat × Nat) : Nat × (Nat × Nat) :=
  if first || old < new then (new, (0, 0))
  else if !window then (old, run)
  else if new < old then
    let run := (run.1 + 1, max run.2 new)
    if raise ≤ run.1 then (run.2, (0, 0)) else (old, run)
  else (old, (0, 0))

/-- PACE_CEIL as read. -/
def paceCeilWord (p : Pace) : Word := pack [(0, p.ceil[0]), (3, p.ceil[1]), (6, p.ceil[2]), (16, p.seq.toNat)]

/-- Computes the three ceilings and publishes them (R15): at a window's end, or when a C1 core retires (R368). While
PACE_CTRL.hold is 1 a window neither counts in a run of higher windows nor breaks it. DESIGN CHOICE (log entry 94). -/
def publishCeilings (window : Bool) (s : State) : State :=
  if !rbit s.pace.ctrl 0 || rbit s.pace.ctrl 1 then s
  else
    let raise := max 1 (fld s.pace.ctrl 4 4)
    let step (z : Fin 3) := republish window (!s.pace.published) raise s.pace.ceil[z] (ceiling s z.val) s.pace.higher[z]
    let new : Vector Nat 3 := #v[(step 0).1, (step 1).1, (step 2).1]
    let changed := new != s.pace.ceil
    let p := { s.pace with
      ceil := new, published := true, higher := #v[(step 0).2, (step 1).2, (step 2).2]
      seq := if changed then s.pace.seq + 1 else s.pace.seq }
    let s := { s with pace := p }
    if changed then raiseEv .paceCeil 0xF noRes noInst (leBytes 4 (paceCeilWord p).toNat) s else s

/-- The ceiling of zone `z` as last published. -/
def publishedCeil (s : State) (z : Nat) : Nat := s.pace.ceil[Fin.ofNat 3 z]

end Sys2Proof.Machine
end

