-- ==== Sys2Proof/Machine/Stripes.lean ====
section
/-! DEFINITION. Sys2Proof/Machine/Stripes.lean: how buffer memory stands on the memory devices (R201 to R204, R221): lines,
stripes, the stripe code, and lines that do not read as they were written. -/

namespace Sys2Proof.Machine

/-- Usable stripes U (R204). -/
def usableStripes (nDev cap : Nat) : Nat :=
  let c := 2 ^ cap * 16 * 2 ^ 30
  nDev * (c / 64 - 1) / 20 - 32

/-! ### Layout (R201 to R204) -/

/-- Stripes T on the devices (R204). -/
def totalStripes (nDev cap : Nat) : Nat := nDev * (2 ^ cap * 16 * 2 ^ 30 / 64 - 1) / 20

/-- Usable stripes U of this buffer; 0 before the profile is loaded. -/
def State.usable (s : State) : Nat := if s.buf.nDev = 0 then 0 else usableStripes s.buf.nDev s.buf.cap

/-- The device that holds line `l` of stripe `st` (R203). -/
def lineDev (s : State) (st l : Nat) : Fin 8 := Fin.ofNat 8 ((20 * st + l) % max 1 s.buf.nDev)

/-- The device line at which it stands (R203). -/
def lineAt (s : State) (st l : Nat) : Nat := (20 * st + l) / max 1 s.buf.nDev

/-- HDM decoder 0 of device `d` (R203). -/
def hdmOf (s : State) (d : Fin 8) : HdmDecoder :=
  { base := d.val * 2 ^ 37, size := 2 ^ s.buf.cap * 16 * 2 ^ 30, ways := 1, committed := true, locked := true }

/-- The CXL.mem host physical address of line `l` of stripe `st` (R203). -/
def lineHpa (s : State) (st l : Nat) : Nat := (lineDev s st l).val * 2 ^ 37 + 64 * lineAt s st l

/-- The stripe number of spare `i` (R204). -/
def spareStripe (s : State) (i : Nat) : Nat := totalStripes s.buf.nDev s.buf.cap - 32 + i

/-- The remap entry in use for a stripe (R222: a bad entry redirects nothing). -/
def remapOf (s : State) (st : Nat) : Option (Fin 32) :=
  (List.finRange 32).find? (fun i => s.buf.remap[i].valid && !s.buf.remap[i].bad && s.buf.remap[i].stripe == st)

/-- Where a usable stripe stands: itself, or its spare (R221). -/
def physStripe (s : State) (st : Nat) : Nat := match remapOf s st with | some i => spareStripe s i.val | none => st

/-- The usable stripe that stripe `p` of the devices stands for: a spare holds the one redirected to it. -/
def logicalOf (s : State) (p : Nat) : Nat :=
  if p < s.usable then p else (s.buf.remap[Fin.ofNat 32 (p - s.usable)]).stripe

/-- The 1,024 data bytes written to a stripe of the devices; one not listed is all zero, as the fill left it (R216). -/
def storedData (s : State) (p : Nat) : Bytes := ((s.buf.stripes.find? (fun x => x.1 == p)).map (·.2)).getD (zeros 1024)

/-- A list of stripes with the data of stripe `p` as given, numbers rising, none all zero. -/
def putStripe (p : Nat) (b : Bytes) : List (Nat × Bytes) → List (Nat × Bytes)
  | [] => if b.all (· == 0) then [] else [(p, b)]
  | x :: l =>
    if x.1 < p then x :: putStripe p b l
    else
      let l := if x.1 = p then l else x :: l
      if b.all (· == 0) then l else (p, b) :: l

/-- The 20 lines of 1,280 raw bytes. -/
def linesOf (b : Bytes) : List Bytes := (List.range 20).map (fun l => slice b (64 * l) 64)

/-- The check lines of 16 data lines (R202). -/
def stripeCheck (data : List Bytes) : List Bytes :=
  let cols := (List.range 64).map (fun k => rsCheck 4 (column data k))
  (List.range 4).map (fun i => cols.map (fun c => c.getD i 0))

/-- The 1,280 raw bytes of a stripe whose data lines are given. -/
def encodeStripe (data : Bytes) : Bytes := data ++ (stripeCheck ((List.range 16).map (fun l => slice data (64 * l) 64))).flatten

/-- Decodes 20 lines with erasures (R202, R205): the lines corrected, and those changed as errors at unknown positions. -/
def decodeStripe (lines : List Bytes) (erasures : List Nat) : Option (List Bytes × List Nat) :=
  let cols := (List.range 64).map (fun k => rsDecode 4 (column lines k) erasures ((4 - erasures.length) / 2))
  if 4 < erasures.length || cols.any (fun c => c.isNone) then none
  else
    let ws := cols.map (fun c => (c.getD ([], [])).1)
    let es := cols.flatMap (fun c => (c.getD ([], [])).2)
    some ((List.range 20).map (fun l => ws.map (fun w => w.getD l 0)), (List.range 20).filter (fun l => es.contains l))

/-! ### Lines that do not read as written -/

/-- The lines of stripe `p` of the devices that do not read as they were written. -/
def damageOf (s : State) (p : Nat) : List LineError := ((s.buf.damage.find? (fun x => x.1 == p)).map (·.2)).getD []

/-- Stripe `p` of the devices with these lines reading otherwise than written. -/
def setDamage (p : Nat) (errs : List LineError) (s : State) : State :=
  let rest := s.buf.damage.filter (fun x => x.1 != p)
  { s with buf.damage := if errs.isEmpty then rest else (p, errs) :: rest }

/-- Errors of an access on top of those that stand in a stripe. -/
def addErrors (old errs : List LineError) : List LineError :=
  errs.foldl (fun l e =>
    if l.any (fun x => x.line == e.line) then
      l.map (fun x => if x.line == e.line then
        { x with flip := xorBytes x.flip (padTo 64 e.flip), poison := x.poison || e.poison, hard := x.hard || e.hard } else x)
    else l ++ [e]) old

/-- Lines of stripe `p` of the devices that a lost device holds (R205). -/
def lostLines (s : State) (p : Nat) : List Nat := (List.range 20).filter (fun l => s.buf.dev[lineDev s p l].lost)

/-- The line that a memory device returns. -/
def lineRead (errs : List LineError) (l : Nat) (b : Bytes) : Bytes :=
  match errs.find? (fun e => e.line.val == l) with
  | some e => xorBytes b (padTo 64 e.flip)
  | none => b

/-- A stripe as an access reads it (R205): the erased lines, the poisoned ones among them, and the decode. -/
structure StripeRead where
  /-- Where it stands. -/
  at_ : Nat
  raw : List Bytes
  erased : List Nat
  poisoned : List Nat
  /-- The 20 lines as decoded, and those corrected at unknown positions; none when undecodable. -/
  decoded : Option (List Bytes × List Nat)

/-- Fetches and decodes all 20 lines of stripe `p` of the devices, whose data was written as given (R205). Lines of a lost device
are not read. -/
def readLines (s : State) (p : Nat) (data : Bytes) (errs : List LineError) : StripeRead :=
  let lost := lostLines s p
  let poisoned := (List.range 20).filter (fun l => !lost.contains l && errs.any (fun e => e.line.val == l && e.poison))
  let erased := (List.range 20).filter (fun l => lost.contains l || poisoned.contains l)
  let raw := (linesOf (encodeStripe data)).zipIdx.map (fun x => if erased.contains x.2 then zeros 64 else lineRead errs x.2 x.1)
  { at_ := p, raw := raw, erased := erased, poisoned := poisoned, decoded := decodeStripe raw erased }

/-- The 1,024 data bytes, when the stripe decodes. -/
def StripeRead.data (r : StripeRead) : Option Bytes := r.decoded.map (fun d => (d.1.take 16).flatten)

/-- Whether stripe `p` of the devices reads as it was written: no line of it is damaged, and no more are lost than the code corrects
(R202). -/
def sound (s : State) (p : Nat) : Bool := (damageOf s p).isEmpty && decide ((lostLines s p).length ≤ 4)

/-- What stands stored at stripe `st`, none when it does not decode. -/
def storedRead (s : State) (st : Nat) : Option Bytes :=
  let p := physStripe s st
  if sound s p then some (storedData s p) else (readLines s p (storedData s p) (damageOf s p)).data

end Sys2Proof.Machine
end

