-- ==== Sys2Proof/Machine/Pans.lean ====
section
/-! DEFINITION. Sys2Proof/Machine/Pans.lean: the pan manager (R224 to R238). -/

namespace Sys2Proof.Machine

/-- Buffer size of a pan in KiB (R224). -/
def panKib (p : Fin 4) : Nat := [4, 64, 1024, 6144].getD p.val 4

/-- Base alignment of a pan in KiB (R224). -/
def panAlignKib (p : Fin 4) : Nat := [4, 64, 1024, 1024].getD p.val 4

/-- Buffer size of a pan in quota units of 4 KiB (R238). -/
def panUnits (p : Fin 4) : Nat := panKib p / 4

/-- The kinds of PAN_ERR. -/
def errDouble : Nat := 1
def errForeign : Nat := 2
def errHandle : Nat := 3
def errMode : Nat := 4
def errRefs : Nat := 5
def errSize : Nat := 6
def errConfig : Nat := 7

/-- The pans in order. -/
def allPans : List (Fin 4) := List.finRange 4

/-- Pan `p`. -/
def State.pan (s : State) (p : Fin 4) : Pan := s.pans.pan[p]

/-- Pan `p` changed by `f`. -/
def State.modPan (s : State) (p : Fin 4) (f : Pan → Pan) : State :=
  { s with pans := { s.pans with pan := vmod s.pans.pan p f } }

/-- First entry of pan `p` in the buffer state table (R225). -/
def panFirst (s : State) (p : Fin 4) : Nat := ((allPans.take p.val).map (fun k => (s.pan k).count)).foldl (· + ·) 0

/-- The conditions under which the pan manager enables the pans (R225). -/
def pansConsistent (s : State) : Bool :=
  let ext (p : Fin 4) : Nat × Nat := ((s.pan p).baseKib, (s.pan p).baseKib + (s.pan p).count * panKib p)
  decide (((allPans.map (fun p => (s.pan p).count)).foldl (· + ·) 0) ≤ 262144)
    && allPans.all (fun p => (s.pan p).baseKib % panAlignKib p == 0)
    && allPans.all (fun p => allPans.all (fun q => decide (p.val ≥ q.val) || (s.pan p).count == 0 || (s.pan q).count == 0
      || decide ((ext p).2 ≤ (ext q).1) || decide ((ext q).2 ≤ (ext p).1)))
    && allPans.all (fun p => decide ((ext p).2 ≤ usableStripes s.buf.nDev s.buf.cap))

/-- Whether a pan is in service (R225). -/
def panOn (s : State) (p : Fin 4) : Bool := s.pans.active && (s.pan p).enable

/-- The pan in service that holds a handle. -/
def panOfHandle (s : State) (h : Nat) : Option (Fin 4) :=
  allPans.find? (fun p => panOn s p && decide (panFirst s p ≤ h) && decide (h < panFirst s p + (s.pan p).count))

/-- State of a buffer state table entry (R226). -/
inductive BufState where
  | unfilled | free
  | held (b : HeldBuf)
  deriving DecidableEq, Repr

/-- The entry of handle `h` in pan `p`. -/
def bufState (s : State) (p : Fin 4) (h : Nat) : BufState :=
  if panFirst s p + (s.pan p).filled ≤ h then .unfilled
  else match s.pans.held.find? (fun b => b.handle == h) with
    | some b => .held b
    | none => .free

/-- Whether pan `p` holds a HELD buffer. -/
def panHolds (s : State) (p : Fin 4) : Bool :=
  s.pans.held.any (fun b => decide (panFirst s p ≤ b.handle) && decide (b.handle < panFirst s p + (s.pan p).count))

/-- LOW and CRITICAL thresholds (R236): a critical value above low acts as low. -/
def lowMark (q : Pan) : Nat := fld q.thresh 0 16
def critMark (q : Pan) : Nat := min (fld q.thresh 16 16) (fld q.thresh 0 16)

/-- Whether a threshold state stays or becomes set (R236). -/
def overMark (now : Bool) (mark free : Nat) : Bool :=
  if now then decide (free < mark + max 1 (mark / 8)) else decide (free ≤ mark)

/-- LOW and CRITICAL follow the count of free buffers, and each setting raises its event (R236). -/
def settlePan (p : Fin 4) (s : State) : State :=
  let q := s.pan p
  let l := overMark q.low (lowMark q) q.free
  let c := overMark q.critical (critMark q) q.free
  let s' := s.modPan p (fun q => { q with low := l, critical := c })
  let det := leBytes 1 p.val ++ leBytes 4 q.free
  let s' := if l && !q.low then raiseEv .panLow 0x5 p.val noInst det s' else s'
  if c && !q.critical then raiseEv .panCritical 0x5 p.val noInst det s' else s'

/-- Whether any pan is LOW: host intake stops (R236). -/
def anyLow (s : State) : Bool := allPans.any (fun p => (s.pan p).low)

/-- The lowest number from `c` on that a rising list of handles leaves out. -/
def lowestGap (c : Nat) : List Nat → Nat
  | [] => c
  | h :: hs => if h < c then lowestGap c hs else if h = c then lowestGap (c + 1) hs else c

/-- The handle that the pan's free store gives next (R228). -/
def nextFree (s : State) (p : Fin 4) : Nat :=
  let q := s.pan p
  if q.bitmap then lowestGap (panFirst s p) (s.pans.held.map (fun b => b.handle))
  else match q.list with
    | r :: _ => r.first
    | [] => 0

/-- A run of the linked store without its head. -/
def popRun : List FreeRun → List FreeRun
  | [] => []
  | r :: rs => if r.count ≤ 1 then rs
    else { r with first := if r.down then r.first - 1 else r.first + 1, count := r.count - 1 } :: rs

/-- First stripe of buffer `h` of pan `p` (R224). -/
def bufStripe (s : State) (p : Fin 4) (h : Nat) : Nat := (s.pan p).baseKib + (h - panFirst s p) * panKib p

/-- Last handle of a run. -/
def FreeRun.last (r : FreeRun) : Nat := if r.down then r.first + 1 - r.count else r.first + r.count - 1

/-- What the link of buffer `h` names: the handle after it in the list, none at the tail; nothing when it is not in the list (R228). -/
def linkAfter : List FreeRun → Nat → Option (Option Nat)
  | [], _ => none
  | r :: rs, h =>
    if (if r.down then decide (r.last ≤ h) && decide (h ≤ r.first) else decide (r.first ≤ h) && decide (h ≤ r.last)) then
      some (if h = r.last then rs.head?.map (·.first) else some (if r.down then h - 1 else h + 1))
    else linkAfter rs h

/-- The bytes of a link: the next handle, or 0xFFFFFFFF at the tail, and its complement (R228). -/
def linkBytes (next : Option Nat) : Bytes := let v := next.getD 0xFFFFFFFF; leBytes 4 v ++ leBytes 4 (0xFFFFFFFF - v)

/-- EV_BUF_UNCORR (R208, R209): kind 0 a read, 1 healed by write. -/
def noteUncorr (st kind : Nat) (s : State) : State :=
  raiseEv .bufUncorr 0x4 noRes noInst (leBytes 4 st ++ leBytes 1 kind)
    { s with buf.eccUncorr := satInc 255 s.buf.eccUncorr, buf.uncorrLoc := st }

/-- Whether the link of the buffer that a list pan gives next does not read as the pan manager wrote it (R229): poison, a wrong
complement, or another name. DEDUCED (log entry 100). -/
def linkBad (s : State) (p : Fin 4) : Bool :=
  if (s.pan p).bitmap then false
  else
    let h := nextFree s p
    let st := bufStripe s p h
    let b := linkBytes ((linkAfter (s.pan p).list h).getD none)
    if s.pans.overlaid.contains st then (match storedRead s st with | some d => d.take 8 != b | none => true)
    else if s.buf.damage.isEmpty then false
    else (readLines s (physStripe s st) (padTo 1024 b) (damageOf s (physStripe s st))).data != some (padTo 1024 b)

/-- Writes a link into a free buffer's first stripe (R208, R228). The bytes stand where no one else's do; lines that did not read as
written are written anew, and a stripe that did not decode is healed with zeros. -/
def writeLink (st : Nat) (next : Option Nat) (s : State) : State :=
  let p := physStripe s st
  let overlaid := s.pans.overlaid.contains st
  if (damageOf s p).isEmpty && !overlaid then s
  else
    let kept := if overlaid then storedRead s st else (readLines s p (zeros 1024) (damageOf s p)).data
    let s := setDamage p [] s
    if overlaid || kept.isNone then
      let s := if kept.isNone then noteUncorr st 1 s else s
      { s with
        buf.stripes := putStripe p (patch (kept.getD (zeros 1024)) 0 (linkBytes next)) s.buf.stripes
        pans.overlaid := if overlaid then s.pans.overlaid else st :: s.pans.overlaid }
    else s

/-- Writes every link of a pan's list anew where its stripe needs it (R227 to R229). -/
def relink (p : Fin 4) (s : State) : State :=
  (s.pans.overlaid ++ s.buf.damage.map (·.1)).foldl (fun s st =>
    let q := s.pan p
    let h := panFirst s p + (st - q.baseKib) / panKib p
    if q.baseKib ≤ st && (st - q.baseKib) % panKib p == 0 then
      match linkAfter q.list h with | some n => writeLink st n s | none => s
    else s) s

/-- A HELD entry placed in handle order. -/
def insertHeld (b : HeldBuf) : List HeldBuf → List HeldBuf
  | [] => [b]
  | c :: l => if c.handle < b.handle then c :: insertHeld b l else b :: c :: l

/-- The holding of an instance changed by `f` (R238). -/
def chargeUnits (v : Option Inst) (f : Nat → Nat) (s : State) : State :=
  match v with
  | none => s
  | some v => { s with pans := { s.pans with heldUnits := vmod s.pans.heldUnits v f } }

/-- Grants a buffer of pan `p`: it leaves the store and becomes HELD in one step (R233). -/
def grantBuf (p : Fin 4) (requester : Nat) (charge : Option Inst) (s : State) : Nat × State :=
  let h := nextFree s p
  let b : HeldBuf := { handle := h, owner := requester, charge := charge, refs := bit (s.pan p).countMode }
  let s := s.modPan p (fun q => { q with list := popRun q.list, free := q.free - 1 })
  let s := { s with pans := { s.pans with held := insertHeld b s.pans.held } }
  (h, settlePan p (chargeUnits charge (· + panUnits p) s))

/-- The buffer becomes FREE and its charge is released (R231). A pan in count mode outside ASSEMBLE and SERVICE leaves
that mode when its last buffer becomes FREE (R237). -/
def freeBuf (p : Fin 4) (b : HeldBuf) (s : State) : State :=
  let s := { s with pans := { s.pans with held := s.pans.held.filter (fun c => c.handle != b.handle) } }
  let s := s.modPan p (fun q =>
    { q with free := q.free + 1
             list := if q.bitmap then q.list else { first := b.handle, count := 1, down := false } :: q.list })
  let s := chargeUnits b.charge (· - panUnits p) s
  let s := if (s.pan p).bitmap then s else writeLink (bufStripe s p b.handle) ((linkAfter (s.pan p).list b.handle).getD none) s
  let leave := (s.pan p).countMode && s.glb.mode != .assemble && s.glb.mode != .service && !panHolds s p
  let s := if leave then s.modPan p (fun q => { q with countMode := false }) else s
  settlePan p s

/-- Privileged requesters: dataset assembler, rewrite path, ring parity path (R230). -/
def privileged (requester : Nat) : Bool := requester < 3

/-- Whether a candidate may take a buffer of pan `p` (R232, R234). -/
def mayTake (s : State) (p : Fin 4) (requester : Nat) (charge : Option Inst) (spilled : Bool) : Bool :=
  let q := s.pan p
  panOn s p && q.free != 0 && !q.rebuilding
    && (privileged requester || !q.critical)
    && (!spilled || privileged requester || !q.low)
    && (match charge with
        | none => true
        | some v => s.pans.quota[v] == 0xFFFFFF || decide (s.pans.heldUnits[v] + panUnits p ≤ s.pans.quota[v]))
    && (!q.countMode || s.glb.mode == .assemble || s.glb.mode == .service)

/-- The pans a request tries: its home pan, then larger ones while each pan it leaves has spill set (R232); it waits at one that
rebuilds its list (R229). -/
def tryPans (s : State) : List (Fin 4) → Bool → List (Fin 4 × Bool)
  | [], _ => []
  | p :: ps, spilled => (p, spilled) :: (if (s.pan p).spill && !(s.pan p).rebuilding then tryPans s ps true else [])

/-- Whether a request waits for a rebuild (R229). -/
def meetsRebuild (s : State) (home : Fin 4) : Bool := (tryPans s (allPans.drop home.val) false).any (fun x => (s.pan x.1).rebuilding)

/-- The home pan of a size in bytes (R232). -/
def homePan (size : Nat) : Option (Fin 4) := allPans.find? (fun p => decide (size ≤ panKib p * 1024))

/-- The pan from which a request can be served now. -/
def servingPan (s : State) (requester size : Nat) (charge : Option Inst) : Option (Fin 4) :=
  match homePan size with
  | none => none
  | some p => ((tryPans s (allPans.drop p.val) false).find? (fun x => mayTake s x.1 requester charge x.2)).map (·.1)

/-- Whether waiting request `a` comes before `b` (R233): class, age, requester number. -/
def waitsBefore (a b : PanWaiter) : Bool :=
  if privileged a.requester != privileged b.requester then privileged a.requester
  else if a.age != b.age then a.age < b.age else a.requester < b.requester

/-- Places a waiter in the order of R233. -/
def insertWaiter (a : PanWaiter) : List PanWaiter → List PanWaiter
  | [] => [a]
  | b :: l => if waitsBefore b a then b :: insertWaiter a l else a :: b :: l

/-- All waiting requests in the order of R233. -/
def allWaiters (s : State) : List PanWaiter :=
  (allPans.flatMap (fun p => (s.pan p).waiting)).foldl (fun l w => insertWaiter w l) []

/-- Requester `r` waits no longer. -/
def dropWaiter (r : Nat) (s : State) : State :=
  allPans.foldl (fun s p => s.modPan p (fun q => { q with waiting := q.waiting.filter (fun w => w.requester != r) })) s

/-- A bad link: the pan rebuilds its list (R229). -/
def startRebuild (p : Fin 4) (s : State) : State :=
  raiseEv .panListRebuild 0x5 p.val noInst (leBytes 1 p.val) (s.modPan p (fun q => { q with rebuilding := true }))

/-- One candidate of a decision: granted where it can be, unless the link read for it is bad (R229, R233). -/
def serveOne (s : State) (w : PanWaiter) : State :=
  match servingPan s w.requester w.size w.charge with
  | none => s
  | some p =>
    if linkBad s p then startRebuild p s
    else
      let g := grantBuf p w.requester w.charge (dropWaiter w.requester s)
      { g.2 with pans := { g.2.pans with grants := g.2.pans.grants ++ [(w.requester, g.1)] } }

/-- Serves every waiting candidate that can be served, in order; one that cannot is passed over (R233). -/
def serveWaiting (s : State) : State := (allWaiters s).foldl serveOne s

/-- The answer of the pan manager. -/
def panAnswer (r : PanResult) (s : State) : State := { s with pans := { s.pans with result := r } }

/-- A request that changes no entry: PAN_ERR takes its kind, requester and handle (R235). -/
def panReject (kind requester handle : Nat) (s : State) : State :=
  panAnswer (.rejected kind) { s with pans := { s.pans with errKind := kind, errReq := requester, errHandle := handle % 2 ^ 18 } }

/-- A rejection as double or foreign, with its event (R235). -/
def panMisuse (kind requester handle owner : Nat) (p : Fin 4) (s : State) : State :=
  raiseEv (if kind = errDouble then .panDoubleFree else .panForeignFree) 0x5 p.val noInst
    (leBytes 4 handle ++ leBytes 1 requester ++ leBytes 1 owner) (panReject kind requester handle s)

/-- A handle outside every enabled pan, or UNFILLED (R231). -/
def panBadHandle (requester handle : Nat) (s : State) : State :=
  raiseEv .panBadHandle 0x5 noRes noInst (leBytes 4 handle ++ leBytes 1 requester) (panReject errHandle requester handle s)

/-- The owner that the record of a FREE buffer shows in an event: none is kept. DESIGN CHOICE (log entry 9). -/
def noOwner : Nat := 0x3F

/-- Whether a requester's ALLOC waits. -/
def waitsPan (s : State) (requester : Nat) : Bool := (allWaiters s).any (fun w => w.requester == requester)

/-- The handle last granted to a requester. -/
def lastGrant (s : State) (requester : Nat) : Nat := (((s.pans.grants.filter (fun g => g.1 == requester)).getLast?).map (·.2)).getD 0

/-- ALLOC (R232 to R234): the new request is a candidate among those that wait (R233); granted, waiting, EMPTY, or rejected with
kind size. -/
def panAlloc (requester size : Nat) (charge : Option Inst) (wait : Bool) (s : State) : State :=
  if waitsPan s requester then s
  else match homePan size with
  | none => panReject errSize requester 0 s
  | some home =>
    let later := meetsRebuild s home && !(s.pan home).rebuilding
    if (servingPan s requester size charge).isNone && !later && (s.pan home).countMode && s.glb.mode != .assemble && s.glb.mode != .service then
      panReject errMode requester 0 s
    else
      let w : PanWaiter := { requester := requester, size := size, charge := charge, age := s.pans.ages, noWait := !wait }
      let s := s.modPan home (fun q => { q with waiting := q.waiting ++ [w] })
      let s := serveWaiting { s with pans.ages := s.pans.ages + 1 }
      if !waitsPan s requester then panAnswer (.granted (lastGrant s requester)) s
      else if wait || meetsRebuild s home then panAnswer .waits s
      else panAnswer .empty (dropWaiter requester s)

/-- A request to a pan that rebuilds its list waits (R229). -/
def panDefer (r : PanReq) (requester handle : Nat) (s : State) : State :=
  panAnswer .waits { s with pans.deferred := s.pans.deferred ++ [(r, requester, handle)] }

/-- FREE (R231), then the waiting candidates (R233). -/
def panFree (requester handle : Nat) (s : State) : State :=
  match panOfHandle s handle with
  | none => panBadHandle requester handle s
  | some p =>
    if (s.pan p).rebuilding then panDefer .free requester handle s else
    match bufState s p handle with
    | .unfilled => panBadHandle requester handle s
    | st =>
      if (s.pan p).countMode then panReject errMode requester handle s
      else match st with
        | .held b =>
          if b.owner = requester then serveWaiting (panAnswer .done (freeBuf p b s))
          else panMisuse errForeign requester handle b.owner p s
        | _ => panMisuse errDouble requester handle noOwner p s

/-- HANDOFF (R231). -/
def panHandoff (requester handle dest : Nat) (s : State) : State :=
  match panOfHandle s handle with
  | none => panBadHandle requester handle s
  | some p =>
    if (s.pan p).rebuilding then panDefer (.handoff dest) requester handle s else
    match bufState s p handle with
    | .unfilled => panBadHandle requester handle s
    | st =>
      if (s.pan p).countMode then panReject errMode requester handle s
      else match st with
        | .held b =>
          if b.owner = requester then
            panAnswer .done { s with pans := { s.pans with held := modFirst (fun c => c.handle == handle) (fun c => { c with owner := dest }) s.pans.held } }
          else panMisuse errForeign requester handle b.owner p s
        | _ => panMisuse errDouble requester handle noOwner p s

/-- ACQUIRE (R231). -/
def panAcquire (requester handle : Nat) (s : State) : State :=
  match panOfHandle s handle with
  | none => panBadHandle requester handle s
  | some p =>
    if (s.pan p).rebuilding then panDefer .acquire requester handle s else
    match bufState s p handle with
    | .unfilled => panBadHandle requester handle s
    | st =>
      if !(s.pan p).countMode then panReject errMode requester handle s
      else match st with
        | .held b =>
          if b.refs < 255 then
            panAnswer .done { s with pans := { s.pans with held := modFirst (fun c => c.handle == handle) (fun c => { c with refs := c.refs + 1 }) s.pans.held } }
          else panReject errRefs requester handle s
        | _ => panMisuse errDouble requester handle noOwner p s

/-- RELEASE (R231): at 0 the buffer is FREE. -/
def panRelease (requester handle : Nat) (s : State) : State :=
  match panOfHandle s handle with
  | none => panBadHandle requester handle s
  | some p =>
    if (s.pan p).rebuilding then panDefer .release requester handle s else
    match bufState s p handle with
    | .unfilled => panBadHandle requester handle s
    | st =>
      if !(s.pan p).countMode then panReject errMode requester handle s
      else match st with
        | .held b =>
          if b.refs ≤ 1 then serveWaiting (panAnswer .done (freeBuf p b s))
          else
            panAnswer .done { s with pans := { s.pans with held := modFirst (fun c => c.handle == handle) (fun c => { c with refs := c.refs - 1 }) s.pans.held } }
        | _ => panMisuse errDouble requester handle noOwner p s

/-- CANCEL: always granted (R231). -/
def panCancel (requester : Nat) (s : State) : State := panAnswer .done (dropWaiter requester s)

/-- A request of one of the device's own engines: the answer to the last request of a command stands. -/
def onBehalf (f : State → State) (s : State) : State := let t := f s; { t with pans.result := s.pans.result }

/-- One of the device's own engines frees a buffer (R231). -/
def releaseHandle (requester h : Nat) (s : State) : State := onBehalf (panFree requester h) s

/-- Carries out a request that waited for a rebuild. -/
def panCarry (s : State) (x : PanReq × Nat × Nat) : State :=
  match x.1 with
  | .free => panFree x.2.1 x.2.2 s
  | .handoff dest => panHandoff x.2.1 x.2.2 dest s
  | .acquire => panAcquire x.2.1 x.2.2 s
  | .release => panRelease x.2.1 x.2.2 s

/-- Takes up a grant of a requester: its handle. -/
def takeGrant (requester : Nat) (s : State) : Option (Nat × State) :=
  match s.pans.grants.find? (fun g => g.1 == requester) with
  | none => none
  | some g => some (g.2, { s with pans := { s.pans with grants := s.pans.grants.filter (fun x => x != g) } })

/-- Buffers of pan `p` whose whole extent lies below a fill mark (R227). -/
def filledBelow (q : Pan) (p : Fin 4) (mark : Nat) : Nat := min q.count ((mark - q.baseKib) / panKib p)

/-- The fill mark rose: buffers pass from UNFILLED to FREE in ascending handle order (R227). Each enters a linked store as
a freed buffer does, so the last one comes first. DEDUCED (log entry 10). -/
def fillPan (mark : Nat) (s : State) (p : Fin 4) : State :=
  let q := s.pan p
  let n := filledBelow q p mark
  if panOn s p && q.filled < n then
    relink p (settlePan p (s.modPan p (fun q =>
      { q with filled := n, free := q.free + (n - q.filled)
               list := if q.bitmap then q.list else { first := panFirst s p + n - 1, count := n - q.filled, down := true } :: q.list })))
  else s

/-- Every pan follows the mark, and waiting candidates are served. -/
def fillPans (s : State) : State := serveWaiting (allPans.foldl (fillPan s.buf.mark) s)

/-- A pan's part of the table rebuilt (R227): entries below the mark FREE, all others UNFILLED. -/
def rebuildPan (mark : Nat) (s : State) (p : Fin 4) : State :=
  let s := s.modPan p (fun q => { q with filled := 0, free := 0, rebuilding := false, list := [], waiting := [] })
  if panOn s p then
    let n := filledBelow (s.pan p) p mark
    relink p (settlePan p (s.modPan p (fun q =>
      { q with filled := n, free := n
               list := if q.bitmap || n = 0 then [] else [{ first := panFirst s p + n - 1, count := n, down := true }] })))
  else s.modPan p (fun q => { q with low := false, critical := false })

/-- Rebuilds the buffer state table (R227); waiting requests are discarded. -/
def rebuildTable (s : State) : State :=
  let s := { s with pans := { s.pans with held := [], heldUnits := Vector.replicate 64 0, grants := [], asmFor := none, deferred := [] } }
  allPans.foldl (rebuildPan s.buf.mark) s

/-- The list of pan `p` rebuilt from the FREE entries in ascending handle order (R229). -/
def rebuildList (s : State) (p : Fin 4) : List FreeRun :=
  let first := panFirst s p
  let free := (List.range (s.pan p).filled).filter (fun i => !s.pans.held.any (fun b => b.handle == first + i))
  free.map (fun i => { first := first + i, count := 1, down := false })

/-- The pans go into service when R225 holds; PAN_ERR says config otherwise. -/
def enablePans (s : State) : State :=
  if pansConsistent s then
    let s := { s with pans := { s.pans with active := true } }
    fillPans (allPans.foldl (fun s p => if panOn s p then settlePan p s else s) s)
  else { s with pans := { s.pans with active := false, errKind := errConfig, errReq := 0, errHandle := 0 } }

end Sys2Proof.Machine
end

