-- ==== Sys2Proof/Machine/Faults.lean ====
section
/-! DEFINITION. Sys2Proof/Machine/Faults.lean: ending commands, instances and data as a whole; strikes, retirement,
loss of a memory device, entry into Pewter mode (R214, R215, R366 to R369, R378, R379); retries under R20. -/

namespace Sys2Proof.Machine

/-! ### Ending things as a whole -/

/-- Completes every command of a ring with a status, in ring order, and then signals the ring (R337). -/
def abortRing (st : Status) (s : State) (r : RingId) : State :=
  let s := ((s.ring r).cmds.map (fun c => c.uid)).foldl (fun s u => completeSt r u st s) s
  if (s.ring r).unsignalled = 0 then s else signalRing r s

/-- The rings in the order of R337: the management ring, then instances 0 to 63. -/
def allRings : List RingId := none :: allInsts.map some

/-- Completes every command fetched and not completed (R337, R379). -/
def abortAll (st : Status) (s : State) : State := allRings.foldl (abortRing st) s

/-- Wipes the derived keys that satisfy `p` in every engine (R99, R110). -/
def wipeKeys (p : Nat × Nat × Nat × Bytes → Bool) (s : State) : State :=
  { s with codec.engines := s.codec.engines.map (fun e => { e with cached := e.cached.filter (fun k => !p k) }) }

/-- An instance as UNASSIGNED leaves it: no configuration, no key material (R110, R287). -/
def InstSt.cleared (i : InstSt) : InstSt := { state := i.state, seq := i.seq }

/-- Takes instance `v` to UNASSIGNED with its configuration and key material gone; a change raises the notice (R287). -/
def unassign (s : State) (v : Inst) : State :=
  setInstState v .unassigned (s.modInst v InstSt.cleared)

/-- Every instance UNASSIGNED (R287, R379); derived keys wiped (R110). -/
def unassignAll (s : State) : State := wipeKeys (fun _ => true) (allInsts.foldl unassign s)

/-- Drops every write gate. -/
def dropGates (s : State) : State := { s with fmt.gateOpen := false, fmt.gateWanted := false }

/-- The control bus writes the profile's settings to the preamplifiers, one after another, once the write gates are low (R399). -/
def writePreamps (s : State) : State :=
  if s.fmt.gateOpen then { s with fmt.preampDue := true }
  else { s with fmt := { s.fmt with preampDue := false, preamps := s.fmt.preamps.mapFinIdx (fun i b _ => s.prof.preamps.getD i b) } }

/-- Every dataset that is not committed, every block and every stream is gone (R132, R379). -/
def abandonData (s : State) : State :=
  { s with
    streams := [], blks := []
    fmt := { s.fmt with
      asm := [], queue := [], written := [], cur := none, rewrites := [], plans := [], sess := none
      vaultCount := 0, vaultXor := [], recovering := false, dropDue := false, lastTier := false, afterSep := .goOn
      slot := 0, rewriteTiers := 0 }
    codec.slices := s.codec.slices.map (fun c => { c with use := .idle, attempt := 0 })
    codec.engines := s.codec.engines.map (fun c => { c with use := .idle, attempt := 0 })
    rtv := { part := s.rtv.part }
    rch := s.rch.map (fun r => { r with jobs := [], framing := false })
    rdc := { s.rdc with core := Vector.replicate 16 none, coreQueue := [], windows := [] } }

/-- No scatter/gather entry in a mover completion. -/
def noMovEntry : Nat := 0xFFFFFFFF

/-- The 32 bytes of a mover completion (R252): status, engine, entry and offset; the rest is the descriptor's. -/
def movCplBytes (d : MovDesc) (status engine entry offset : Nat) : Bytes :=
  leBytes 1 status ++ leBytes 1 (u8 d.bytes 2) ++ leBytes 2 engine ++ leBytes 4 d.moved
    ++ leBytes 4 (if (u8 d.bytes 1).testBit 0 then (~~~d.crc).toNat else 0) ++ leBytes 4 entry ++ leBytes 8 offset ++ slice d.bytes 40 8

/-- A descriptor ends (R252): its completion goes to the issuer, or to MOV_SVC_CPL; MOV_ERR takes a status other than OK and
MISCOMPARE; engines and lines let go of it. -/
def endDesc (d : MovDesc) (status engine entry offset : Nat) (s : State) : State :=
  let b := movCplBytes d status engine entry offset
  let m := s.mov
  let m := { m with
    queue := m.queue.filter (fun x => x.id != d.id)
    eng := m.eng.map (fun (e : MovEng) => if e.use == some d.id then { e with use := none, line := 0x3F, op := 0 } else e)
    line := m.line.map (fun (l : ReqLine) => if l.bound == some d.id then { l with bound := none } else l) }
  let m := if status = 0 || status = 2 then m
    else { m with errStatus := status, errReq := u8 d.bytes 2 % 64, errEntry := entry % 65536 }
  let m := if d.service then
      { m with svcDone := true, svcPosted := false, svcCpl := Vector.ofFn (fun k : Fin 8 => BitVec.ofNat 32 (u32 b (4 * k.val))) }
    else { m with cpls := b :: m.cpls }
  { s with mov := m }

/-- Mover descriptors end with ABORTED, and outstanding requests are discarded (R254). -/
def abortMover (s : State) : State :=
  let s := s.mov.queue.foldl (fun s d => endDesc d 6 d.engine noMovEntry d.moved s) s
  { s with mov := { s.mov with ports := [], line := s.mov.line.map (fun l => { l with pending := [], bound := none }) } }

/-- A controlled stop of the tape begins (R192): nothing when it does not move. -/
def beginStop (s : State) : State :=
  if s.mot.state = .running || s.mot.state = .softStart then
    { s with mot.stop := true, mot.state := .stopping, mot.target := 0, fmt.motion := .stopping, fmt.moveFor := .none }
  else s

/-! ### Pewter mode (R378, R379) -/

/-- Whether the conditions of Pewter mode act in a mode (R326, R327). -/
def Mode.pewterFrom : Mode → Bool
  | .off | .quench | .reset | .pewter => false
  | _ => true

/-- A ring port whose link is down: what it was to send is gone (R304, R306). -/
def RingPort.off (p : RingPort) : RingPort :=
  { p with state := 0, lanes := 0, attested := false, queue := [], unacked := [], toAck := 0, nakOut := false, untold := false }

/-- The CXL ports lose their power (R325): every link leaves L0 (R219). -/
def Buf.portsOff (b : Buf) : Buf :=
  { b with links := 0, perstOff := 0, dev := b.dev.map (fun d => { d with linkUp := false, active := false, width := 0, rate16 := false }) }

/-- Entry into Pewter mode, events 1 to 5 of R379. Without a valid profile the reels are braked (R349). Start-up, if it
runs, ends with it: the management ring is served (R380). -/
def enterPewter (cause kind number : Nat) (s : State) : State :=
  if !s.glb.mode.pewterFrom then s
  else
    let s := storeMap { s with evt.pewterCause := cause }
    let s := raiseEv .pewter 0x0 noRes noInst (leBytes 1 cause ++ leBytes 1 kind ++ leBytes 1 number)
      { s with glb := { s.glb with mode := .pewter, prev := s.glb.mode, seq := s.glb.seq + 1, boot := .running } }
    let s := dropGates s
    let s := if s.sec.profileValid then beginStop s else { s with mot.brake := 1, mot.brakeSent := true, mot.state := .braked }
    let s := abortAll .abortedPewter (abortMover s)
    let s := unassignAll s
    let s := abandonData { s with pans.active := false, buf := s.buf.portsOff, chn.port := s.chn.port.map RingPort.off }
    powerFor .pewter s

/-- The cause of R378 that the retired resources meet, if any. -/
def pewterCauseOf (s : State) : Option Nat :=
  let retired (k : Nat) : Nat := kindCount k - (s.inService k).length
  if 8 < retired 0 then some 1
  else if 8 < retired 1 then some 2
  else if s.buf.state = 5 then some 3
  else if (s.inService 2).isEmpty then some 4
  else if (s.inService 3).isEmpty then some 5
  else if (s.inService 4).isEmpty then some 6
  else if (s.inService 7).isEmpty then some 7
  else none

/-- Judges the conditions of Pewter mode (R369, R378). -/
def judgePewter (kind number : Nat) (s : State) : State :=
  match pewterCauseOf s with
  | some c => enterPewter c kind number s
  | none => s

/-! ### Retirement (R367 to R369) -/

/-- Channels in service: write and read channel both (R40). -/
def mapInService (s : State) : List Nat := (List.range 128).filter (fun c => !s.retired 0 c && !s.retired 1 c)

/-- Source block of a kind of resource (R372). -/
def kindSource (k : Nat) : Nat := [0xA, 0xB, 0xB, 0x7, 0x8, 0x4, 0xE, 0x6].getD k 0
/-- Resource number of a kind in event records: C1 core k is 128 + k of the read channels. -/
def kindResource (k n : Nat) : Nat := if k = 2 then 128 + n else n

/-- Marks a resource retired or not. -/
def setRetired (k n : Nat) (on : Bool) (s : State) : State :=
  { s with evt.buckets := vmod s.evt.buckets (Fin.ofNat 304 (kindBase k + n)) (fun b => { b with retired := on }) }

/-- Attempts begin anew on another engine: the one that made them is retired (R20, R85). -/
def Tries.moved (t : Tries) : Tries := { t with attempt := 1, on := none }

/-- The attempts of a block as engine `n` finds them: those of another engine do not count (R20). -/
def Tries.here (t : Tries) (n : Nat) : Tries := if t.on.isSome && t.on != some n then t.moved else t

/-- Work held by a retired slice or cipher engine goes back to the front of its queue (R85, R94), and a CWO held by a
retired core to the front of the core queue. -/
def requeueHeld (k n : Nat) (s : State) : State :=
  if k = 3 then
    let held := s.blks.filter (fun b => b.place == .slice n)
    let rheld := s.rtv.blks.filter (fun b => b.place == .slice n)
    let back (b : RBlk) : RBlk := { b with place := .sliceQueue, decTries := b.decTries.moved, want := none }
    let wants (b : RBlk) : RBlk := if b.want = some n then { b with decTries := b.decTries.moved, want := none } else b
    { s with
      blks := held.map (fun b => { b with place := .sliceQueue, tries := b.tries.moved }) ++ s.blks.filter (fun b => b.place != .slice n)
      rtv.blks := s.rtv.blks.map (fun b => if b.place == .slice n then back b else wants b)
      rtv.sliceQ := rheld.map (·.id) ++ s.rtv.sliceQ
      codec.slices := vmod s.codec.slices (Fin.ofNat 8 n) (fun c => { c with use := .idle, attempt := 0 }) }
  else if k = 4 then
    let held := s.blks.filter (fun b => b.place == .engine n || b.place == .panWait n)
    -- what a release buffer still holds goes with its engine: the block is opened again (R93)
    let back (b : RBlk) : RBlk := { b with place := .engineQueue, tries := b.tries.moved, heldBy := none }
    let mine (b : RBlk) : Bool := b.place == .engine n || b.heldBy == some n
    { s with
      blks := held.map (fun b => { b with place := .cipherQueue, sealTries := b.sealTries.moved }) ++ s.blks.filter (fun b => !(b.place == .engine n || b.place == .panWait n))
      rtv.sliceQ := s.rtv.sliceQ.filter (fun i => !s.rtv.blks.any (fun b => b.id == i && b.heldBy == some n))
      rtv.blks := s.rtv.blks.map (fun b => if mine b then back b else b)
      codec.engines := vmod s.codec.engines (Fin.ofNat 4 n) (fun c => { c with use := .idle, attempt := 0, cached := [] }) }
  else if k = 2 then
    match s.rdc.core[Fin.ofNat 16 n] with
    | none => s
    | some q => { s with rdc.core := vset s.rdc.core (Fin.ofNat 16 n) none, rdc.coreQueue := q :: s.rdc.coreQueue }
  else s

/-- Loss of memory device `d` (R214, R215, R416): it stays lost until the next cold reset; a second loss, or any loss with four
devices or fewer, ends buffer service. -/
def loseDevice (d : Fin 8) (cause : Nat) (s : State) : State :=
  if s.buf.dev[d].lost then s
  else
    let s := { s with buf.dev := vmod s.buf.dev d (fun x => { x with lost := true, present := false, linkUp := false, active := false, cause := cause, width := 0 }) }
    let s := storeMap (setRetired 5 d.val true s)
    let s := raiseEv .memdevLost 0x4 d.val noInst (leBytes 1 d.val ++ leBytes 1 cause) s
    let lost := (s.buf.dev.toList.filter (fun x => x.lost)).length
    if s.buf.nDev ≤ 4 || 2 ≤ lost then judgePewter 5 d.val { s with buf.state := 5 }
    else if s.buf.state = 3 then { s with buf.state := 4 }
    else s

/-- A retired lane: its port trains anew at a width that leaves the lane out; with its last lane the port goes down, and LINK_DOWN
tells the ring (R304). -/
def retrainPort (lane : Nat) (s : State) : State :=
  let q : Fin 2 := Fin.ofNat 2 (lane / 4)
  let left := (List.range 4).filter (fun i => !s.retired 6 (4 * q.val + i))
  { s with chn.port := vmod s.chn.port q (fun p =>
      if left.isEmpty then { p.off with untold := p.state != 0 } else if p.state = 2 then { p with state := 1 } else p) }

/-- Retires resource `n` of kind `k` (R368): event, domain, map in the quench store, then the conditions of Pewter mode.
Cause 1 is strikes, 2 is R20. From the detection of a quench nothing is retired. -/
def retire (k n cause : Nat) (s : State) : State :=
  if s.retired k n || s.glb.mode = .quench then s
  else
    let s := requeueHeld k n (setRetired k n true s)
    let s :=
      if k ≤ 1 then
        raiseEv .chRetired (kindSource k) n noInst
          (leBytes 1 k ++ leBytes 1 n ++ leBytes 1 (mapInService s).length ++ leBytes 1 cause) s
      else
        raiseEv .resRetired (kindSource k) (kindResource k n) noInst
          (leBytes 1 k ++ leBytes 1 n ++ leBytes 1 cause ++ leBytes 1 (s.inService k).length) s
    let s := storeMap { s with pwr.dom := s.pwr.dom &&& ~~~s.retiredDoms }
    let s := if k = 2 then publishCeilings false s else s
    let s := if k = 5 then loseDevice (Fin.ofNat 8 n) 3 s else s
    let s := if k = 6 then retrainPort n s else s
    judgePewter k n s

/-- One strike on resource `n` of kind `k` (R367). -/
def strike (k n : Nat) (s : State) : State :=
  if s.retired k n || s.glb.mode = .quench then s
  else
    let i : Fin 304 := Fin.ofNat 304 (kindBase k + n)
    let cfg := s.evt.strikeCfg[Fin.ofNat 8 k]
    let b := s.evt.buckets[i]
    let level := min (b.level + 1) 15
    let leakAt := if b.level = 0 then some (s.glb.time + max 1 (fld cfg 16 16) * 1000000000) else b.leakAt
    let s := { s with evt.buckets := vset s.evt.buckets i { b with level := level, leakAt := leakAt } }
    if max 1 (fld cfg 0 4) ≤ level then retire k n 1 s else s

/-! ### Attempts (R20) -/

/-- What follows a failed attempt. -/
inductive Retry where
  /-- Another attempt on the same engine. -/
  | again (t : Tries)
  /-- Three attempts on another engine of the type. -/
  | other (t : Tries)
  /-- The block is repeated once from the stage before. -/
  | before (t : Tries)
  /-- The last permitted attempt has failed (R21). -/
  | lost
  deriving DecidableEq, Repr

/-- What follows a failed attempt on engine `n` (R20); `others` says whether another engine of the type is in service. After the
repeat from the stage before the block has three attempts on one engine and none on a second; R20 says so where no other
engine is in service. DESIGN CHOICE (log entry 95) where another is. -/
def retryAfter (t : Tries) (n : Nat) (others : Bool) : Retry :=
  let t := t.here n
  if t.attempt < 3 then .again { t with attempt := t.attempt + 1, on := some n }
  else if t.repeated then .lost
  else if t.first.isNone && others then .other { first := some n }
  else .before { repeated := true }

/-- An attempt passed: the engine that failed three times is retired when another engine passed the block (R20). -/
def passAfter (t : Tries) (kind : Nat) (s : State) : State :=
  match t.first with
  | some n => if t.repeated then s else retire kind n 2 s
  | none => s

/-- Whether an engine of kind `k` other than `n` is in service. -/
def othersIn (s : State) (k n : Nat) : Bool := (s.inService k).any (fun m => m != n)

/-- Whether a block that is to go through a second engine finds none in service: it is treated as having failed there (R20). -/
def lacksSecond (s : State) (k : Nat) (t : Tries) : Bool := match t.first with | some n => !othersIn s k n | none => false

/-! ### Mover engines for the bursts of blocks and records (R239, R248, R249) -/

/-- Whether mover engine `e` can carry work: in service, powered, and enabled in MOV_CTRL. -/
def moverOn (s : State) (e : Fin 4) : Bool := !s.retired 7 e.val && s.pwr.dom.getLsbD (62 + e.val) && rbit s.mov.ctrl e.val

/-- Whether it is idle besides. -/
def moverIdle (s : State) (e : Fin 4) : Bool := moverOn s e && s.mov.eng[e].use.isNone

/-- The engine that carries the next burst of a block or record: the one that makes its attempts; else the lowest-numbered idle
one, other than an engine that failed it three times while another is in service (R20, R249). -/
def moverFor (s : State) (t : Tries) : Option (Fin 4) :=
  match (List.finRange 4).find? (fun e => t.on == some e.val && moverOn s e) with
  | some e => if moverIdle s e then some e else none
  | none => (List.finRange 4).find? (fun e => moverIdle s e && (t.first != some e.val || !othersIn s 7 e.val))

/-- Attempts at a hand-over that mover engines make: a block that is to go through a second engine, and finds none in service, is
treated as having failed there (R20). -/
def moverTries (s : State) (t : Tries) : Tries := if lacksSecond s 7 t then { repeated := true } else t

/-- The line among `n` from `lo` on that holds the oldest request, and its number of arrival. -/
def oldestRequest (s : State) (lo n : Nat) : Option (Nat × Fin 38) :=
  ((List.finRange 38).filter (fun l => decide (lo ≤ l.val) && decide (l.val < lo + n))).foldl (fun best l =>
    match s.mov.line[l].pending, best with
    | p :: _, none => some (p.1, l)
    | p :: _, some b => if p.1 < b.1 then some (p.1, l) else best
    | [], _ => best) none

/-- A burst of a slice or cipher engine serves the oldest request of its lines; where none stands, its request comes with it
(R248, log entry 96). -/
def serveOldest (lo n : Nat) (s : State) : State :=
  match oldestRequest s lo n with
  | none => s
  | some r => { s with mov.line := vmod s.mov.line r.2 (fun l => { l with pending := l.pending.drop 1 }) }

/-- Bytes that engine `e` has moved for a block or record. -/
def moverMoved (e : Fin 4) (n : Nat) (s : State) : State :=
  { s with mov.eng := vmod s.mov.eng e (fun x => { x with bytes := x.bytes + n }) }

/-- EV_BLOCK_RESEND (R20): hand-over, unit, attempt. -/
def raiseResend (handover unit attempt : Nat) (kind n : Nat) (inst : Nat) (s : State) : State :=
  raiseEv .blockResend (kindSource kind) (kindResource kind n) inst (leBytes 1 handover ++ leBytes 8 unit ++ leBytes 1 attempt) s

/-- The unit of a row at hand-overs 5 and 6 (R20). -/
def rowUnit (dsn index : Nat) : Nat := dsn % 2 ^ 32 + 2 ^ 32 * (index % 2 ^ 16)

end Sys2Proof.Machine
end

