-- ==== Sys2Proof/Machine/Keys.lean ====
section
/-! DEFINITION. Sys2Proof/Machine/Keys.lean: key slots, session keys, leases and sealing (R87 to R111). -/

namespace Sys2Proof.Machine

/-- Slot `k` of instance `v`. -/
def State.slot (s : State) (v : Inst) (k : SlotNo) : KeySlot := (s.inst v).slots[k]

/-- Slot `k` of instance `v` changed by `f`. -/
def State.modSlot (s : State) (v : Inst) (k : SlotNo) (f : KeySlot → KeySlot) : State :=
  s.modInst v (fun i => { i with slots := vmod i.slots k f })

/-- The slot's generation moves on, and the instance notice is raised (R107, R108, R257). -/
def bumpGeneration (v : Inst) (k : SlotNo) (s : State) : State :=
  fireMsix (noticeVector v) (s.modSlot v k (fun q => { q with generation := (q.generation + 1) % 256 }))

/-! ### In-use count (R106) -/

/-- Whether a block of an append stream has not passed hand-over 3. -/
def BlkPlace.unsealed : BlkPlace → Bool
  | .sealed _ => false
  | _ => true

/-- Whether a block being read has not passed hand-over 8. -/
def RBlkPlace.unopened : RBlkPlace → Bool
  | .moverQueue => true
  | .engineQueue => true
  | .engine _ => true
  | _ => false

/-- The stream with a serial number. -/
def State.stream? (s : State) (sid : Nat) : Option Stream := s.streams.find? (fun x => x.sid == sid)

/-- The stream with a serial number changed by `f`. -/
def State.modStream (s : State) (sid : Nat) (f : Stream → Stream) : State :=
  { s with streams := modAll (fun x => x.sid == sid) f s.streams }

/-- Whether an append block is under slot `k` of `v`. -/
def blkUnder (v : Inst) (k : SlotNo) (b : Blk) : Bool := b.v == v && (match b.key with | some q => q.slot == k | none => false)

/-- Whether a block being read is queued or held for opening under slot `k` of `v`. -/
def rblkUnder (s : State) (v : Inst) (k : SlotNo) (b : RBlk) : Bool :=
  b.encrypted && (match s.stream? b.sid with | some x => x.v == v && x.slot == some k | none => false)

/-- The in-use count of a slot (R106). -/
def inUse (s : State) (v : Inst) (k : SlotNo) : Nat :=
  s.blks.countP (fun b => blkUnder v k b && b.place.unsealed)
    + s.rtv.blks.countP (fun b => rblkUnder s v k b && b.place.unopened)

/-! ### Sequence state and leases (R101, R105) -/

/-- Sequence state of a slot. -/
def State.seqOf (s : State) (v : Inst) (k : SlotNo) : SlotSeq := s.seqs[seqIx v k]

/-- Counters of a lease. -/
def leaseSize : Nat := 65536

/-- Takes a lease: its first counter. The quench store is written first when the frontier would pass the last value
stored plus 2^20 (R105). -/
def takeLease (v : Inst) (k : SlotNo) (s : State) : Nat × State :=
  let i := seqIx v k
  let f := s.seqs[i].frontier
  let s := if (storedSlot s i).frontier + 2 ^ 20 < f + leaseSize then storeSlot i s else s
  (f, { s with seqs := vmod s.seqs i (fun q => { q with frontier := f + leaseSize }) })

/-- The last epoch of all (R103). -/
def lastEpoch : Nat := 0xFFFFFFFF

/-- Sets a slot's epoch; an epoch above the last stored is written before it is used (R105). -/
def setEpoch (v : Inst) (k : SlotNo) (e : Nat) (s : State) : State :=
  let i := seqIx v k
  let e := min e lastEpoch
  let s := { s with seqs := vmod s.seqs i (fun q => { q with epoch := max q.epoch e }) }
  if (storedSlot s i).epoch < e then storeSlot i s else s

/-- Slots resume after a start-up without a completed quench record (R105). -/
def resumeSeqs (s : State) : State :=
  { s with seqs := Vector.ofFn (fun i => { frontier := (storedSlot s i).frontier + 2 ^ 20, epoch := min ((storedSlot s i).epoch + 1) lastEpoch }) }

/-- Slots resume from a completed quench record (R340). -/
def resumeSaved (s : State) : State :=
  { s with seqs := Vector.ofFn (fun i => { frontier := (storedSlot s i).frontier, epoch := (storedSlot s i).epoch }) }

/-! ### Session keys and sealing (R87, R88, R97 to R100) -/

/-- The context of an FF3 session key (R98). -/
def sessionContext (serial : Bytes) (part session epoch : Nat) : Bytes :=
  padTo 16 serial ++ leBytes 1 part ++ zeros 3 ++ leBytes 4 session ++ leBytes 4 epoch ++ zeros 4

/-- An FF3 session key (R97, R98). -/
def sessionKey (root serial : Bytes) (part session epoch : Nat) : Bytes :=
  Aes.kdf root "FF3-DATA" (sessionContext serial part session epoch)

/-- The 96-bit IV: salt, then counter, most significant byte first (R100). -/
def blockIv (salt counter : Nat) : Bytes := beBytes 4 salt ++ beBytes 8 counter

/-- The AAD of a block (R88). -/
def blockAad (header : Bytes) (tag part session epoch counter : Nat) : Bytes :=
  slice header 0 12 ++ leBytes 2 tag ++ leBytes 1 part ++ [0x01] ++ leBytes 4 session ++ leBytes 4 epoch ++ leBytes 8 counter

/-- Seals a coded block (R87): header bytes 0 to 11 unchanged, block CRC rewritten, ciphertext, tag. -/
def sealBlock (key : Bytes) (salt counter epoch tag part session : Nat) (coded : Bytes) : Bytes :=
  let ks := Aes.roundKeys key
  let h := slice coded 0 12
  let iv := blockIv salt counter
  let ct := Aes.gcmBody ks iv (coded.drop 16)
  let t := Aes.gcmTag ks iv (blockAad h tag part session epoch counter) ct
  withBlockCrc h (ct ++ t)

/-- Opens a sealed block: the coded block with its block CRC over plaintext when the tag matches (R17, R93). -/
def openBlock (key : Bytes) (salt counter epoch tag part session : Nat) (blk : Bytes) : Option Bytes :=
  let ks := Aes.roundKeys key
  let h := slice blk 0 12
  let iv := blockIv salt counter
  let ct := slice blk 16 (blk.length - 32)
  if blk.length < 32 then none
  else if Aes.gcmTag ks iv (blockAad h tag part session epoch counter) ct = blk.drop (blk.length - 16) then
    some (withBlockCrc h (Aes.gcmBody ks iv ct))
  else none

/-- A derived key enters an engine's cache as the most recent; the least recent of nine leaves (R99). -/
def cacheKey (e : Fin 4) (v : Inst) (k : SlotNo) (epoch : Nat) (key : Bytes) (s : State) : State :=
  let item := (v.val, k.val, epoch, key)
  { s with codec.engines := vmod s.codec.engines e (fun g => { g with cached := (item :: g.cached.filter (fun x => x != item)).take 8 }) }

/-! ### The key of a block about to close (R103, R104, R107) -/

/-- Why a block cannot close now. -/
inductive KeyStop where
  /-- A pending copy waits, or the generator has not passed its tests. -/
  | wait
  /-- The usage limit is reached with auto-rekey off, or no epoch is left. -/
  | exhausted
  deriving DecidableEq, Repr

/-- Blocks that have taken a counter under an epoch of a slot (R103). -/
def KeySlot.usedOf (q : KeySlot) (epoch : Nat) : Nat := (q.used.lookup epoch).getD 0

/-- Whether a stream's next block needs a new session key (R103, R104). -/
def needsKey (q : KeySlot) (x : Stream) (session : Nat) : Bool :=
  match x.key with
  | none => true
  | some k => k.gen != q.generation || k.session != session || k.part != x.part || x.rekeyAt.isSome
      || (q.autoRekey && decide (2 ^ q.limitLog2 ≤ q.usedOf k.epoch))

/-- The epoch a new session key takes: one allotted by SLOT_REKEY, or the slot's epoch plus 1 (R103, R104). -/
def newEpoch (q : KeySlot) (x : Stream) (epoch : Nat) : Option Nat :=
  match x.rekeyAt with
  | some e => some e
  | none => match q.allotted with
    | some e => some e
    | none => if epoch = lastEpoch then none else some (epoch + 1)

/-- The write session number in force. -/
def State.sessionNo (s : State) : Nat := match s.fmt.sess with | some w => w.session | none => 0

/-- Starts a new session key for stream `x` on slot `k`, epoch `e`: salt drawn, key derived (R98, R100). -/
def startKey (x : Stream) (k : SlotNo) (e : Nat) (s : State) : SessKey × State :=
  let s := setEpoch x.v k e s
  let salt := leNat (draw s 4)
  let q := s.slot x.v k
  let key : SessKey :=
    { epoch := e, salt := salt, key := sessionKey q.root s.cart.serial x.part s.sessionNo e
      gen := q.generation, session := s.sessionNo, part := x.part }
  (key, (drawn 4 s).modSlot x.v k (fun q => { q with allotted := none }))

/-- The session key under which stream `x`'s next block closes. A slot that has been rewritten to another kind makes it wait. DESIGN CHOICE
(log entry 114). -/
def keyFor (x : Stream) (k : SlotNo) (s : State) : Except KeyStop (SessKey × State) :=
  let q := s.slot x.v k
  if q.pending.isSome || q.kind != .ff3Gcm then .error .wait
  else if needsKey q x s.sessionNo then
    if !s.sec.rngOk then .error .wait
    else match newEpoch q x (s.seqOf x.v k).epoch with
      | none => .error .exhausted
      | some e => .ok (startKey x k e s)
  else match x.key with
    | none => .error .wait
    | some key => if 2 ^ q.limitLog2 ≤ q.usedOf key.epoch then .error .exhausted else .ok (key, s)

/-- Gives the next block of stream `sid` its key epoch and counter (R101); a stream without a slot gives none (R89). -/
def takeCounter (x : Stream) (s : State) : Except KeyStop (Option BlkKey × State) :=
  match x.slot with
  | none => .ok (none, s)
  | some k =>
    match keyFor x k s with
    | .error e => .error e
    | .ok (key, s) =>
      let (next, fin, s) :=
        if x.leaseNext < x.leaseEnd then (x.leaseNext, x.leaseEnd, s)
        else let l := takeLease x.v k s; (l.1, l.1 + leaseSize, l.2)
      let s := s.modStream x.sid (fun y => { y with key := some key, rekeyAt := none, leaseNext := next + 1, leaseEnd := fin })
      let s := s.modSlot x.v k (fun q => { q with used := (key.epoch, q.usedOf key.epoch + 1) :: q.used.filter (fun u => u.1 != key.epoch) })
      .ok (some { slot := k, epoch := key.epoch, salt := key.salt, counter := next, key := key.key }, s)

end Sys2Proof.Machine
end

