-- ==== Sys2Proof/Machine/Operands.lean ====
section
/-! DEFINITION. Sys2Proof/Machine/Operands.lean: the operand forms of commands: descriptor fields (R264, R268, R272), and
scatter/gather lists (R245, R246, R277, R278). -/

namespace Sys2Proof.Machine

/-! ### Descriptor fields -/

/-- Whether every byte of the parameters outside the given ranges (offset, size) is 0, with bytes 6, 7, 56 to 63 and
flag bits [7:1] (R264). -/
def reservedZero (d : Bytes) (used : List (Nat × Nat)) : Bool :=
  u8 d 1 ≤ 1 && zeroAt d 6 2 && zeroAt d 56 8
    && (List.range 48).all (fun i => used.any (fun r => decide (r.1 ≤ 8 + i) && decide (8 + i < r.1 + r.2)) || d.getD (8 + i) 0 == 0)

/-- A host address that R264 accepts. -/
def aligned64 (a : Nat) : Bool := a % 64 == 0

/-- The first of a list of checks that fails gives the status. DESIGN CHOICE (log entry 11): the order in which several
faults of one descriptor are reported. -/
def firstFault : List (Bool × Status) → Option Status
  | [] => none
  | (bad, st) :: l => if bad then some st else firstFault l

/-! ### Scatter/gather lists -/

def SgEntry.link (e : SgEntry) : Bool := e.flags.testBit 0
def SgEntry.eoc (e : SgEntry) : Bool := e.flags.testBit 1
def SgEntry.eor (e : SgEntry) : Bool := e.flags.testBit 2

/-- The entry that 16 bytes spell (R245). -/
def SgEntry.ofBytes (b : Bytes) : SgEntry := { addr := u64 b 0, len := u32 b 8, flags := u32 b 12 }

/-- Whether an entry passes the check of R246. -/
def SgEntry.ok (e : SgEntry) : Bool :=
  aligned64 e.addr && decide (e.flags < 8)
    && (if e.link then decide (16 ≤ e.len) && decide (e.len ≤ 4096) && e.len % 16 == 0 && !e.eoc && !e.eor
        else aligned64 e.len)

/-- At most `n` entries from `addr`, up to and including the first link entry or entry with eoc (R245, R278). -/
def readEntries (s : State) (space : Nat) : Nat → Nat → List SgEntry
  | 0, _ => []
  | n + 1, addr =>
    let e := SgEntry.ofBytes (hostRead s space addr 16)
    if e.link || e.eoc then [e] else e :: readEntries s space n (addr + 16)

/-- The index, within a segment, of the first entry that fails the check. -/
def firstBad : List SgEntry → Nat → Option Nat
  | [], _ => none
  | e :: l, i => if e.ok then firstBad l (i + 1) else some i

/-- A segment as fetched: its entries, and the address that follows them. -/
def fetchSegment (s : State) (space n addr : Nat) : List SgEntry × Nat :=
  let es := readEntries s space n addr
  (es, addr + 16 * es.length)

/-- The length of the next burst of an entry, `done` bytes of which have moved (R250). -/
def burstLen (e : SgEntry) (done : Nat) : Nat :=
  let a := e.addr + done
  min (min 4096 (e.len - done)) (4096 - a % 4096)

/-! ### Reading the parameters of the instance commands (R268) -/

/-- OPEN_STREAM. -/
structure OpenParams where
  tag : Nat
  part : Nat
  slot : Nat
  seed : Nat
  effort : Nat
  dir : Nat
  deriving DecidableEq, Repr

def openParams (d : Bytes) : OpenParams :=
  { tag := u16 d 8, part := u8 d 10, slot := u8 d 11, seed := u8 d 12, effort := u8 d 13, dir := u8 d 14 }

/-- WRITE_RECORDS and STREAM_APPEND. -/
structure WriteParams where
  sgl : Nat
  entries : Nat
  tails : Nat
  tailCap : Nat
  deriving DecidableEq, Repr

def writeParams (d : Bytes) : WriteParams :=
  { sgl := u64 d 8, entries := u16 d 16, tails := u64 d 24, tailCap := u32 d 32 }

/-- READ_RECORDS. -/
structure ReadParams where
  sgl : Nat
  entries : Nat
  maxRecords : Nat
  lens : Nat
  src : Nat
  srcEntries : Nat
  deriving DecidableEq, Repr

def readParams (d : Bytes) : ReadParams :=
  { sgl := u64 d 8, entries := u16 d 16, maxRecords := u32 d 20, lens := u64 d 24, src := u64 d 32, srcEntries := u16 d 40 }

/-- A signed 64-bit field. -/
def i64 (d : Bytes) (off : Nat) : Int := signed 64 (u64 d off)

end Sys2Proof.Machine
end

