-- ==== Sys2Proof/Machine/Streams.lean ====
section
/-! DEFINITION. Sys2Proof/Machine/Streams.lean: stream contexts, the framer, blocks on their way to pans, and waiting
commands (R61 to R64, R85, R103, R109, R129, R266, R279, R280). -/

namespace Sys2Proof.Machine

/-! ### Finding streams and commands -/

/-- The open stream with number `no` of instance `v`. -/
def State.openStream? (s : State) (v : Inst) (no : Nat) : Option Stream :=
  s.streams.find? (fun x => x.v == v && x.no == no && !x.ended)

/-- Streams open on an instance. -/
def openCount (s : State) (v : Inst) : Nat := s.streams.countP (fun x => x.v == v && !x.ended)

/-- A stream on the cartridge: append or read, not ended. -/
def Stream.onTape (x : Stream) : Bool := !x.ended && x.dir != .ff2

/-- An open append stream. -/
def Stream.appending (x : Stream) : Bool := !x.ended && x.dir == .append

/-- Whether an instance takes new commands up in its state (R285, R290): a command submitted before the pause point
waits while PAUSED. -/
def stateTakes (s : State) (v : Inst) (c : Cmd) : Bool :=
  match (s.inst v).state with
  | .active => true
  | .paused => !c.early
  | _ => false

/-- A SYNC or CLOSE_STREAM that waits only on commit: later commands of its stream do not wait for it (R280). -/
def Cmd.onCommit (c : Cmd) : Bool := match c.phase with | .commitWait _ _ => true | _ => false

/-- Whether the commands fetched before this one let it start (R280): fence, and order within a stream. -/
def orderAllows (earlier : List Cmd) (c : Cmd) : Bool :=
  (!c.fence || earlier.isEmpty) && (c.target == 0xFFFF || earlier.all (fun e => e.target != c.target || e.onCommit))

/-- The first waiting command of a ring with identifier `cid` that may start, with the commands before it. -/
def findStartable (cid : Nat) : List Cmd → List Cmd → Option Cmd
  | _, [] => none
  | before, c :: l =>
    if c.cid == cid && c.phase == .waiting && orderAllows before c then some c else findStartable cid (before ++ [c]) l

/-- The command that a row of an instance ring names, when it may start: the ring's instance and the device's mode take it. -/
def startable (s : State) (v : Inst) (cid : Cid) (op : Nat) : Option Cmd :=
  match findStartable cid.toNat [] (s.ring (some v)).cmds with
  | some c => if c.opcode == op && stateTakes s v c && s.glb.mode.served && s.glb.mode != .pewter then some c else none
  | none => none

/-- The management command that a row names. In PEWTER the row is taken up too, and its meaning answers NOT_READY (R380). -/
def startableMgmt (s : State) (cid : Cid) (op : Nat) : Option Cmd :=
  match (s.ring none).cmds.find? (fun c => c.cid == cid.toNat && c.phase == .waiting) with
  | some c =>
    if c.opcode == op && s.glb.mode.served && (!c.fence || ((s.ring none).cmds.head?.map (·.uid)) == some c.uid) then some c else none
  | none => none

/-! ### Completion of jobs -/

/-- Completes a write command with its counts (R268). -/
def completeWrite (v : Inst) (c : Cmd) (st : Status) (entry : Nat) (s : State) : State :=
  complete (some v) c.uid { status := st, r0 := c.job.consumed, r1 := c.job.ended, entry := entry } s

/-- No scatter/gather entry. -/
def noEntry : Nat := 0xFFFFFFFF

/-- Whether a command moves bytes of a write. -/
def Cmd.isWrite (c : Cmd) : Bool := c.opcode == 0x10 || c.opcode == 0x11

/-- Whether a command of a stream has begun and waits or moves. -/
def Cmd.begun (c : Cmd) : Bool := c.phase != .waiting

/-! ### Commit and hand-over 3 as waiting commands see them (R129) -/

/-- Whether every item of stream `sid` below `pos` is committed. -/
def commitDone (s : State) (sid pos : Nat) : Bool :=
  let low (d : DsBuf) : Bool := d.sid == some sid && decide (d.minPos < pos)
  (match s.stream? sid with | some x => !x.items.any (fun i => decide (i.pos < pos)) | none => true)
    && !s.fmt.asm.any low && !s.fmt.queue.any low && !s.fmt.written.any (fun w => low w.buf)
    && !s.chn.grp.held.any (fun h => low h.ds)

/-- Whether the block of stream `sid` at `pos`, where there is one, has passed hand-over 3. -/
def sealedDone (s : State) (sid : Nat) (pos : Option Nat) : Bool :=
  match pos with
  | none => true
  | some p => !s.blks.any (fun b => b.sid == sid && b.pos == p && b.place.unsealed)

/-- The completion of a waiting SYNC, CLOSE_STREAM or WRITE_MARK, when it is due. -/
def waitResult (s : State) (c : Cmd) : Option Cpl :=
  match c.phase with
  | .commitWait sid pos =>
    if commitDone s sid pos then
      let corrected := match s.stream? sid with | some x => x.corrected | none => false
      -- on the stream of a group, result1 gives the positions lost (R317)
      let lost := match s.stream? sid with
        | some x => if s.chn.grp.state = 2 && s.chn.grp.part = x.part && c.opcode = 0x13 then s.chn.grp.lost.toNat else 0
        | none => 0
      some { status := if corrected then .okCorrected else .ok, r0 := s.fmt.commitDsn, r1 := lost }
    else none
  | .markWait sid block count => if sealedDone s sid block then some { status := .ok, r0 := count } else none
  | _ => none

/-- Whether an ended stream has nothing left in the device. -/
def Stream.drained (s : State) (x : Stream) : Bool :=
  x.ended && x.items.isEmpty && !s.blks.any (fun b => b.sid == x.sid) && !s.rtv.blks.any (fun b => b.sid == x.sid)
    && !(allInsts.any (fun v => (s.ring (some v)).cmds.any (fun c => match c.phase with
        | .commitWait sid _ => sid == x.sid | .markWait sid _ _ => sid == x.sid | _ => false)))

/-- Removes ended streams that hold nothing. -/
def sweepStreams (s : State) : State := { s with streams := s.streams.filter (fun x => !x.drained s) }

/-- Completes a SYNC: its stream's recovery note is cleared. -/
def settleCmd (v : Inst) (s : State) (c : Cmd) : State :=
  match waitResult s c with
  | none => s
  | some r =>
    let s := match c.phase with
      | .commitWait sid _ => s.modStream sid (fun x => { x with corrected := false })
      | _ => s
    complete (some v) c.uid r s

/-- Completes every waiting SYNC, CLOSE_STREAM and WRITE_MARK that is due, in ring order (R129, R280). -/
def settleWaits (s : State) : State :=
  sweepStreams (allInsts.foldl (fun s v => (s.ring (some v)).cmds.foldl (settleCmd v) s) s)

/-! ### Cutting a stream (R109) -/

/-- Whether a command of stream `x`'s instance is one of the stream's and has begun. A stream that has ended is known by what
waits for it alone: its number may serve another. `from_` is the first item lost: of the waits on commit, those that
cover it are taken, and none without it. -/
def Cmd.ofStream (c : Cmd) (x : Stream) (from_ : Option Nat) : Bool :=
  match c.phase with
  | .waiting => false
  | .commitWait sid pos => sid == x.sid && (match from_ with | some p => decide (p < pos) | none => false)
  | .markWait sid _ _ => sid == x.sid
  | _ => !x.ended && c.target == x.no

/-- Completes the commands of a stream that have begun, with the status of a cut: writes report their counts; of those that
wait on commit, the ones that cover the item `from_` (R21, R108). -/
def failBegun (x : Stream) (st : Status) (from_ : Option Nat) (s : State) : State :=
  (s.ring (some x.v)).cmds.foldl (fun s c => if c.ofStream x from_ then completeWrite x.v c st noEntry s else s) s

/-- Completes every command of a stream that has begun, waits on commit among them. -/
def failAll (x : Stream) (st : Status) (s : State) : State :=
  (s.ring (some x.v)).cmds.foldl (fun s c =>
    if c.ofStream x none || (match c.phase with | .commitWait sid _ => sid == x.sid | _ => false) then completeWrite x.v c st noEntry s else s) s

/-- Cuts a stream (R109): its open block is dropped and later commands complete with `st`. -/
def cutStream (sid : Nat) (st : Status) (s : State) : State :=
  s.modStream sid (fun x => if x.cut.isSome then x else { x with cut := some st, fr := {}, waitSince := x.waitSince })

/-! ### The framer (R61 to R64) -/

/-- Input bytes of a full block (R63). -/
def blockBytes : Nat := 65536

/-- Segments of one scatter/gather entry's bytes (R61): at most 16,777,215 bytes each; `n` bounds their number. -/
def segments (n : Nat) (first eor : Bool) (bs : Bytes) : List Piece :=
  match n with
  | 0 => []
  | n + 1 =>
    let last := decide (bs.length ≤ 16777215)
    let own := bs.take 16777215
    { bytes := leBytes 3 own.length ++ leBytes 1 (bit first + 2 * bit (last && eor)), opens := true } :: { bytes := own, host := true }
      :: (if last then [] else segments n false eor (bs.drop 16777215))

/-- The suffix of a record (R61): the check value that a running CRC register gives. -/
def suffixPiece (crc : Word) : Piece := { bytes := leBytes 4 (~~~crc).toNat, ends := true }

/-- A suffix stands among the framed bytes taken. -/
def Framer.suffixDue (fr : Framer) : Bool := fr.todo.any (·.ends)

/-- A record is open once the framed bytes taken have entered a block. -/
def Framer.isOpen (fr : Framer) : Bool := fr.inRecord && !fr.suffixDue

/-- The framed pieces of bytes that begin no earlier than a segment (R61): segments, then the record suffix when the record ends. -/
def newPieces (inRecord : Bool) (crc : Word) (bs : Bytes) (eor : Bool) : List Piece :=
  segments (bs.length / 16777215 + 1) (!inRecord) eor bs ++ (if eor then [suffixPiece (crc32cRun crc bs)] else [])

/-- The framed pieces of an entry (R61). Bytes that an open segment still expects complete it first, and its record with it
where its prefix says so (R103). -/
def framePieces (fr : Framer) (bs : Bytes) (eor : Bool) : List Piece :=
  let crc := if fr.suffixDue then 0xFFFFFFFF else fr.crc
  if fr.segLeft = 0 then newPieces fr.isOpen crc bs eor
  else
    let own := bs.take fr.segLeft
    let done := decide (fr.segLeft ≤ bs.length)
    { bytes := own, host := true } ::
      (if done && fr.segLast then
        suffixPiece (crc32cRun crc own) :: (if bs.length = fr.segLeft then [] else newPieces false 0xFFFFFFFF (bs.drop fr.segLeft) eor)
      else if bs.length ≤ fr.segLeft then []
      else newPieces true (crc32cRun crc own) (bs.drop fr.segLeft) eor)

/-- Closes the open block of stream `x` (R63, R64): it takes its key epoch and counter, joins the stream's items and
waits for a slice. -/
def closeBlock (x : Stream) (carrier : Nat) (s : State) : Except KeyStop State :=
  match takeCounter x s with
  | .error e => .error e
  | .ok (key, s) =>
    let fr := x.fr
    let b : Blk :=
      { id := s.nextId, sid := x.sid, v := x.v, seq := x.blockSeq, pos := x.itemPos, input := fr.buf
        head := { continues := fr.continues, endsOpen := fr.midRecord, firstFrame := fr.firstFrame }
        recordsEnded := fr.recordsEnded, seed := x.seed, effort := x.effort, key := key, session := s.sessionNo
        part := x.part, tag := x.tag, carrier := carrier
        carrierTo := (match s.cmd? (some x.v) carrier with | some c => c.job.consumed + fr.entryData | none => 0) }
    let s := s.modStream x.sid (fun y =>
      { y with blockSeq := y.blockSeq + 1, itemPos := y.itemPos + 1, items := y.items ++ [.block y.itemPos]
               fr := { fr with buf := [], continues := fr.midRecord, firstFrame := none, recordsEnded := 0 } })
    .ok { s with blks := s.blks ++ [b], nextId := s.nextId + 1 }

/-- The framer after the first `n` bytes of the piece `p` at its head have entered the open block. -/
def Framer.add (fr : Framer) (p : Piece) (n : Nat) (rest : List Piece) : Framer :=
  let own := p.bytes.take n
  let whole := decide (p.bytes.length ≤ n)
  let ends := p.ends && whole
  { fr with
    buf := fr.buf ++ own
    todo := if whole then rest else { p with bytes := p.bytes.drop n, opens := false } :: rest
    firstFrame := if p.opens && fr.firstFrame.isNone then some fr.buf.length else fr.firstFrame
    recordsEnded := if ends then fr.recordsEnded + 1 else fr.recordsEnded
    midRecord := if own.isEmpty then fr.midRecord else !ends
    inRecord := if ends then false else fr.inRecord || p.opens
    crc := if ends then 0xFFFFFFFF else if p.host then crc32cRun fr.crc own else fr.crc
    segLeft := if p.host then fr.segLeft - own.length else fr.segLeft
    entryData := if p.host then fr.entryData + own.length else fr.entryData }

/-- Moves framed bytes into blocks, closing each block as it fills (R63); `fuel` bounds the moves. A block that cannot close
stays open and full, and the bytes after it wait. -/
def drainPieces (sid carrier : Nat) : Nat → State → Option KeyStop × State
  | 0, s => (none, s)
  | fuel + 1, s =>
    match s.stream? sid with
    | none => (none, s)
    | some x =>
      if blockBytes ≤ x.fr.buf.length then
        match closeBlock x carrier s with
        | .error e => (some e, s)
        | .ok s => drainPieces sid carrier fuel s
      else
        match x.fr.todo with
        | [] => (none, s)
        | p :: rest =>
          let room := blockBytes - x.fr.buf.length
          drainPieces sid carrier fuel
            (s.modStream sid (fun y =>
              { y with fr := y.fr.add p room rest, recordsTotal := y.recordsTotal + bit (p.ends && decide (p.bytes.length ≤ room)) }))

/-- Moves that the framed bytes of a stream may take. -/
def Framer.fuel (fr : Framer) : Nat :=
  2 * fr.todo.length + 2 * ((fr.todo.map (·.bytes.length)).foldl (· + ·) 0 / blockBytes) + 4

/-- Closes blocks as they fill until the framed bytes taken are gone, or a block cannot close. -/
def drainStream (sid carrier : Nat) (s : State) : Option KeyStop × State :=
  match s.stream? sid with
  | none => (none, s)
  | some x => drainPieces sid carrier x.fr.fuel s

/-- Bytes of the host among framed bytes that have not entered a block. -/
def hostLeft (l : List Piece) : Nat := ((l.filter (·.host)).map (·.bytes.length)).foldl (· + ·) 0

/-- The pieces before the first segment that has not begun, and the first run of host bytes of one that has. -/
def begunPieces : List Piece → List Piece
  | [] => []
  | p :: l => if p.opens then [] else if p.host then [p] else p :: begunPieces l

/-- A command ends inside its entry (R103): bytes of the host that have not entered a block are given up, and the open segment
keeps its place for them; what the device itself still owes stays. -/
def Framer.giveUp (fr : Framer) : Framer :=
  if hostLeft fr.todo = 0 then { fr with entryData := 0 }
  else if fr.segLeft != 0 then { fr with todo := [], entryData := 0 }
  else
    let kept := begunPieces fr.todo
    let after := (fr.todo.dropWhile (fun p => !p.host)).drop 1
    { fr with
      todo := kept.filter (fun p => !p.host), segLeft := hostLeft kept, entryData := 0
      segLast := hostLeft kept != 0 && (match after with | p :: _ => p.ends | [] => false) }

/-- Framed bytes of one scatter/gather entry join the stream (R61, R266). -/
def frameEntry (sid : Nat) (bs : Bytes) (eor : Bool) (s : State) : State :=
  match s.stream? sid with
  | none => s
  | some x =>
    let ps := framePieces x.fr bs eor
    let s := s.modStream sid (fun y =>
      { y with fr := { y.fr with todo := y.fr.todo ++ ps, entryData := 0 } })
    { s with fmt.winIntake := s.fmt.winIntake + bs.length }

/-- Closes the open block early (R63), if it holds a byte. -/
def closeEarly (sid carrier : Nat) (s : State) : Option KeyStop × State :=
  let r := drainStream sid carrier s
  match r.1, r.2.stream? sid with
  | some e, _ => (some e, r.2)
  | none, none => r
  | none, some x =>
    if x.fr.buf.isEmpty then r
    else match closeBlock x carrier r.2 with
      | .error e => (some e, r.2)
      | .ok s => (none, s)

/-! ### Dispatch to slices and cipher engines (R85) -/

/-- Effort of a block that starts now (R77): the stream's, held to CMP_CTRL.effort_cap; 3 acts as 2. -/
def effortNow (s : State) (effort : Nat) : Nat := min effort (min 2 (fld s.codec.cmpCtrl 0 2))

/-- The lowest-numbered idle slice in service, other than one that has failed the block three times. -/
def idleSlice (s : State) (avoid : Option Nat) : Option (Fin 8) :=
  (List.finRange 8).find? (fun n => s.codec.slices[n].use == .idle && !s.retired 3 n.val && avoid != some n.val)

/-- The lowest-numbered idle cipher engine in service, other than one that has failed the block three times. -/
def idleEngine (s : State) (avoid : Option Nat) : Option (Fin 4) :=
  (List.finRange 4).find? (fun e => s.codec.engines[e].use == .idle && !s.retired 4 e.val && avoid != some e.val)

/-- The lowest-numbered idle engine in service carries a key unwrap, a wrap or the body of a save blob (R86): mode KW or CTR. -/
def keyWork (s : State) : State :=
  match idleEngine s none with
  | some e => { s with codec.engines := vmod s.codec.engines e (fun c => { c with mode := 3, attempt := 0 }) }
  | none => s

/-- The block with a serial number changed by `f`. -/
def State.modBlk (s : State) (id : Nat) (f : Blk → Blk) : State := { s with blks := modFirst (fun b => b.id == id) f s.blks }

/-- Appended blocks that wait for a second engine when none is in service are treated as having failed there: they are repeated
from the stage before (R20). -/
def missSecond (s : State) : State :=
  { s with blks := s.blks.map (fun b =>
      if b.place == .sliceQueue && lacksSecond s 3 b.tries then { b with tries := { repeated := true } }
      else if b.place == .cipherQueue && lacksSecond s 4 b.sealTries then { b with sealTries := { repeated := true }, place := .sliceQueue }
      else b) }

/-- One block from the slice queue to a slice. -/
def dispatchSlice (s : State) : State :=
  match s.blks.find? (fun b => b.place == .sliceQueue) with
  | none => s
  | some b =>
    match idleSlice s b.tries.first with
    | none => s
    | some n =>
      let ef := if b.started then b.effort else effortNow s b.effort
      { s.modBlk b.id (fun b => { b with place := .slice n.val, effort := ef, started := true }) with
        codec.slices := vmod s.codec.slices n (fun c => { c with use := .append b.id, effort := ef, attempt := b.tries.attempt }) }

/-- One block from the cipher queue to an engine. -/
def dispatchEngine (s : State) : State :=
  match s.blks.find? (fun b => b.place == .cipherQueue) with
  | none => s
  | some b =>
    match idleEngine s b.sealTries.first with
    | none => s
    | some e =>
      { s.modBlk b.id (fun b => { b with place := .engine e.val }) with
        codec.engines := vmod s.codec.engines e (fun c => { c with use := .append b.id, mode := 0, attempt := b.sealTries.attempt }) }

/-- Blocks go to idle slices and engines in the order in which they became ready (R85); none goes to a slice while
CMP_CTRL.hold_dispatch is 1. -/
def dispatch (s : State) : State :=
  let s := missSecond s
  let s := if rbit s.codec.cmpCtrl 4 then s else (List.range 8).foldl (fun s _ => dispatchSlice s) s
  (List.range 4).foldl (fun s _ => dispatchEngine s) s

/-! ### Host intake of a write command (R250, R266, R277) -/

/-- Whether mover engines may start a host burst for an instance (R236, R290, R292). -/
def intakeOpen (s : State) (v : Inst) : Bool :=
  (s.inst v).state == .active && !anyLow s
    && (List.finRange 4).any (moverOn s) && !(s.ring (some v)).stopped

/-- A write command ends or parks at the end of its chain (R277, R279). -/
def endOfChain (v : Inst) (uid : Nat) (s : State) : State :=
  match s.cmd? (some v) uid with
  | none => s
  | some c =>
    if c.opcode == 0x10 then completeWrite v c .ok noEntry s
    else
      let later := (((s.ring (some v)).cmds.dropWhile (fun e => e.uid != uid)).drop 1).any (fun e => e.target == c.target)
      if later then completeWrite v c .ok noEntry s
      else s.modCmd (some v) uid (fun c => { c with phase := .parked })

/-- The next segment of a list: its entries are checked whole before any byte it describes moves (R246). -/
def loadSegment (v : Inst) (uid n addr : Nat) (s : State) : State :=
  match s.cmd? (some v) uid with
  | none => s
  | some c =>
    let seg := fetchSegment s (s.space (some v)) n addr
    match firstBad seg.1 0 with
    | some i => completeWrite v c .align (c.job.index + i) s
    | none => s.modCmd (some v) uid (fun c => { c with job := { c.job with entries := seg.1, nextAddr := seg.2, staged := [] } })

/-- The tail value of the record that ends now: the bytes to discard, or `none` when R266 is broken. -/
def tailOf (s : State) (v : Inst) (c : Cmd) (fr : Framer) (len : Nat) : Option Nat :=
  let p := writeParams c.desc
  if p.tailCap ≤ c.job.ended then none
  else
    let d := (memByte s.hostMem (hostKey (s.space (some v)) (p.tails + c.job.ended))).toNat
    if d ≤ 63 || (d = 64 && len = 64 && !fr.isOpen) then some d else none

/-- The entry in hand has entered blocks whole: it is consumed, and the next one follows. -/
def entryDone (v : Inst) (uid : Nat) (e : SgEntry) (s : State) : State :=
  match s.cmd? (some v) uid with
  | none => s
  | some c =>
    let s := s.modCmd (some v) uid (fun c =>
      { c with job := { c.job with entries := c.job.entries.drop 1, index := c.job.index + 1, staged := [], tries := {}, framed := false
                                   consumed := c.job.consumed + e.len, ended := c.job.ended + bit e.eor } })
    let s := s.modInst v (fun i => { i with stats := { i.stats with consumed := i.stats.consumed + e.len, records := i.stats.records + bit e.eor } })
    let s := dispatch s
    if e.eoc || (c.job.entries.drop 1).isEmpty then endOfChain v uid s else s

/-- A key is exhausted (R103): the command that supplied the block's last byte completes, reporting the bytes consumed; an entry
all of whose bytes stand in blocks is consumed whole. -/
def exhaust (v : Inst) (uid sid : Nat) (e : SgEntry) (s : State) : State :=
  match s.cmd? (some v) uid, s.stream? sid with
  | some c, some x =>
    let whole := hostLeft x.fr.todo == 0
    let n := if whole then e.len else x.fr.entryData
    let ended := bit (whole && e.eor)
    let s := s.modStream sid (fun y => { y with fr := y.fr.giveUp })
    let s := s.modInst v (fun i => { i with stats := { i.stats with consumed := i.stats.consumed + n, records := i.stats.records + ended } })
    let c := { c with job := { c.job with consumed := c.job.consumed + n, ended := c.job.ended + ended } }
    dispatch (completeWrite v c .keyExhausted noEntry s)
  | _, _ => s

/-- The framed bytes of the entry in hand move into blocks as far as its stream's key allows. -/
def drainEntry (v : Inst) (uid sid : Nat) (e : SgEntry) (s : State) : State :=
  match drainStream sid uid s with
  | (none, s) => entryDone v uid e s
  | (some .wait, s) => dispatch s
  | (some .exhausted, s) => exhaust v uid sid e s

/-- The entry in hand, whose bytes are all staged, goes to the framer. -/
def takeEntry (v : Inst) (uid : Nat) (sid : Nat) (e : SgEntry) (s : State) : State :=
  match s.cmd? (some v) uid, s.stream? sid with
  | some c, some x =>
    if c.job.framed then drainEntry v uid sid e s
    else match (if e.eor then tailOf s v c x.fr e.len else some 0) with
    | none => completeWrite v c .badLength noEntry s
    | some d =>
      drainEntry v uid sid e (frameEntry sid (c.job.staged.take (e.len - d)) e.eor
        (s.modCmd (some v) uid (fun c => { c with job := { c.job with framed := true } })))
  | _, _ => s

/-- One burst of a running write command (R250): entries of length 0 are passed over, links followed. -/
def hostBurst (v : Inst) (uid sid : Nat) (s : State) : State :=
  match s.cmd? (some v) uid with
  | none => s
  | some c =>
    match c.job.entries with
    | [] => endOfChain v uid s
    | e :: rest =>
      if e.link then
        loadSegment v uid (e.len / 16) e.addr (s.modCmd (some v) uid (fun c => { c with job := { c.job with index := c.job.index + 1 } }))
      else if e.len = 0 then
        let s := s.modCmd (some v) uid (fun c => { c with job := { c.job with entries := rest, index := c.job.index + 1 } })
        if e.eoc || rest.isEmpty then endOfChain v uid s else s
      else
        let got := c.job.staged.length
        let bs := if got < e.len then hostRead s (s.space (some v)) (e.addr + got) (burstLen e got) else []
        let s := s.modCmd (some v) uid (fun c => { c with job := { c.job with staged := c.job.staged ++ bs } })
        if got + bs.length < e.len then s else takeEntry v uid sid e s

/-- Whether a command is moving bytes. -/
def Cmd.running (c : Cmd) : Bool := c.phase == .running

/-- Up to `n` bursts of a write command, while intake is open and it runs. -/
def hostBursts (v : Inst) (uid sid : Nat) : Nat → State → State
  | 0, s => s
  | n + 1, s =>
    match s.cmd? (some v) uid with
    | some c => if c.running && intakeOpen s v then hostBursts v uid sid n (hostBurst v uid sid s) else s
    | none => s

/-- Whether an instance's commands move (R290, R292): none does from a quiesce to its end. -/
def State.moving (s : State) (v : Inst) : Bool := (s.inst v).state == .active || (s.inst v).state == .paused

/-- Entries whose bytes are staged and that waited for a key are offered to the framer again (R107). -/
def retryStaged (v : Inst) (s : State) : State :=
  if !s.moving v then s
  else (s.ring (some v)).cmds.foldl (fun s c =>
    match c.job.entries, s.openStream? v c.target with
    | e :: _, some x => if c.running && c.isWrite && c.job.staged.length == e.len && e.len != 0 then takeEntry v c.uid x.sid e s else s
    | _, _ => s) s

/-! ### Ending streams (R293 step 2, R422) -/

/-- The write session ends when the last append stream of its partition has ended (R422). -/
def checkSessionEnd (s : State) : State :=
  match s.fmt.sess with
  | none => s
  | some w =>
    if s.streams.any (fun x => x.appending && x.part == w.part) then s
    else { s with fmt.sess := some { w with ending := true } }

/-- A filemark or flush joins a stream's items. -/
def addItem (sid : Nat) (mk : Nat → Item) (s : State) : State :=
  s.modStream sid (fun x => { x with items := x.items ++ [mk x.itemPos], itemPos := x.itemPos + 1 })

/-- Discards every block on append that satisfies `gone`, with its place in its stream's order; engines that held
one are idle. -/
def discardBlocks (gone : Blk → Bool) (s : State) : State :=
  let isGone (id : Nat) : Bool := s.blks.any (fun b => b.id == id && gone b)
  { s with
    blks := s.blks.filter (fun b => !gone b)
    streams := s.streams.map (fun x =>
      { x with items := x.items.filter (fun i => match i with | .block p => !s.blks.any (fun b => b.sid == x.sid && b.pos == p && gone b) | _ => true) })
    codec.slices := s.codec.slices.map (fun c => match c.use with | .append id => if isGone id then { c with use := .idle, attempt := 0 } else c | _ => c)
    codec.engines := s.codec.engines.map (fun c => match c.use with | .append id => if isGone id then { c with use := .idle, attempt := 0 } else c | _ => c) }

/-- Removes blocks of a stream being read that satisfy `p`; engines and slices that held one are idle. -/
def dropRBlks (sid : Nat) (p : RBlk → Bool) (s : State) : State :=
  let isGone (id : Nat) : Bool := s.rtv.blks.any (fun b => b.id == id && b.sid == sid && p b)
  { s with
    rtv.blks := s.rtv.blks.filter (fun b => !(b.sid == sid && p b))
    rtv.sliceQ := s.rtv.sliceQ.filter (fun i => !isGone i)
    codec.slices := s.codec.slices.map (fun c => match c.use with | .retrieve id => if isGone id then { c with use := .idle, attempt := 0 } else c | _ => c)
    codec.engines := s.codec.engines.map (fun c => match c.use with | .retrieve id => if isGone id then { c with use := .idle, attempt := 0 } else c | _ => c) }

/-- Ends a stream without a SYNC (R293 step 2): an open record is cut as in R109; what is sealed goes to tape. -/
def endStream (s : State) (x : Stream) : State :=
  let s := s.modStream x.sid (fun x => { x with ended := true, fr := {}, items := if x.dir == .append then x.items ++ [.flush x.itemPos] else [], itemPos := x.itemPos + 1 })
  let s := if x.dir == .append then s else dropRBlks x.sid (fun _ => true) s
  checkSessionEnd s

/-- Ends every open stream of an instance. -/
def endStreams (v : Inst) (s : State) : State :=
  sweepStreams ((s.streams.filter (fun x => x.v == v && !x.ended)).foldl endStream s)

end Sys2Proof.Machine
end

