-- ==== Sys2Proof/Machine/Layout.lean ====
section
/-! DEFINITION. Sys2Proof/Machine/Layout.lean: where datasets go along a partition (R47, R56, R420), and the start of a write
session. -/

namespace Sys2Proof.Machine

/-- Directory entry of partition `p`; an undefined one past the end. -/
def State.dirEntry (s : State) (p : Nat) : DirEntry := s.cart.dir.getD p DirEntry.none

/-- Channel bits from the start of a wrap to the first bit that lies in LX frame `lx` (R25, R27). -/
def bitOfLx (w lx : Nat) : Nat :=
  let frames := if wrapForward w then lx - lxFirst else lxLast - lx
  ceilDiv (frames * densityOf (zoneOf w) * 4) 254

/-- Bits a dataset may need with `n` channels: its data tiers, 16 rewrite tiers and the separator (R47). -/
def roomNeeded (n : Nat) : Nat := (dataTiers n + 16) * cwoBits + sepBits

/-- Whether a dataset may begin at `bit` of wrap `w` (R47). -/
def fitsWrap (n w bit : Nat) : Bool := decide (bit + roomNeeded n ≤ wrapBits (zoneOf w))

/-- Where the next dataset of a partition begins: here, or after the lead-in of the next wrap (R47); none when no wrap is left. -/
def placeNext (e : DirEntry) (n w bit : Nat) : Option (Nat × Nat) :=
  if fitsWrap n w bit then some (w, bit)
  else if w + 1 < e.firstWrap + e.wrapCount then some (w + 1, leadBits) else none

/-- Where something may begin after a dataset at a place, at its largest. -/
def placeAfter (e : DirEntry) (n : Nat) (p : Nat × Nat) : Option (Nat × Nat) := placeNext e n p.1 (p.2 + roomNeeded n)

/-- Whether a DATA or VAULT dataset may begin: the EOD dataset, and with Vault on the VAULT dataset before it, still fit
after it (R420). -/
def canBegin (e : DirEntry) (n w bit : Nat) (vaultDue : Bool) : Bool :=
  match placeNext e n w bit with
  | none => false
  | some p => match placeAfter e n p with
    | none => false
    | some q => !vaultDue || (placeAfter e n q).isSome

/-- Where the end of data of a partition lies: wrap and channel bits (R53, R56). -/
def State.eodPlace (s : State) (p : Nat) : Nat × Nat :=
  let e := s.dirEntry p
  (e.eodWrap, max leadBits ((s.cart.eodBit.lookup p).getD (bitOfLx e.eodWrap e.eodLx)))

/-- Whether a partition is full (R420). -/
def partitionFull (s : State) (p : Nat) : Bool :=
  let e := s.dirEntry p
  !canBegin e (mapInService s).length (s.eodPlace p).1 (s.eodPlace p).2 e.vault

/-- Highest session number a partition has held (R56). -/
def highestSession (s : State) (p : Nat) : Nat :=
  max (s.dirEntry p).session (((s.cart.tapeSession.filter (fun x => x.1 == p)).map (·.2)).foldl max 0)

/-- Whether the device belongs to a RAIT group that still stands (R311). -/
def inGroup (s : State) : Bool := s.chn.grp.state == 1 || s.chn.grp.state == 2

/-- Whether a partition is that of the device's group, formed. -/
def groupPart (s : State) (p : Nat) : Bool := s.chn.grp.state == 2 && s.chn.grp.part == p

/-- The 16 bytes of a channel map (R49). -/
def mapBytes (map : List Nat) : Bytes :=
  (List.range 16).map (fun j => BitVec.ofNat 8 ((List.range 8).foldl (fun a k => a + if map.contains (8 * j + k) then 2 ^ k else 0) 0))

/-- The index of a dataset as it goes to tape under a number, a session and a map (R49); a dataset of a group carries the
serial of the origin's cartridge, which is this device's where it builds the index (R314). -/
def dsIndex (s : State) (d : DsBuf) (dsn session : Nat) (first : Bool) (vaultPos : Nat) (map : List Nat) : DsIndex :=
  let k := d.key.getD (0, 0, 0, 0)
  { kind := d.kind, dsn := dsn, streamTag := d.tag, partition := d.part, vault := (s.dirEntry d.part).vault
    first := first, encrypted := d.key.isSome, session := session, keyEpoch := k.1, salt := k.2.1, firstCounter := k.2.2.1
    recordsBefore := d.recordsBefore, marksBefore := d.marksBefore, vaultPos := vaultPos, mapN := map.length
    areaUsed := pad64 d.area.length, closedAt := d.closedAt, cartSerial := s.cart.serial, mapBits := mapBytes map
    entries := d.entries }

/-- The payload of such a dataset: block area and index (R38, R48, R49). -/
def dsPayload (d : DsBuf) (x : DsIndex) : Bytes := padTo blockArea d.area ++ x.bytes

/-- The index of a dataset being written (R49). -/
def WrDs.index (s : State) (w : WrDs) : DsIndex := dsIndex s w.buf w.dsn w.session w.first w.vaultPos w.map

/-- The payload of a dataset being written. -/
def WrDs.payload (s : State) (w : WrDs) : Bytes :=
  match w.buf.payload with
  | some p => p
  | none => dsPayload w.buf (w.index s)

/-- Where the first dataset of a group's session begins (R312): at the end of data, or, on a member whose data goes beyond
stripe s0, at the first tier of the dataset that it replaces (R56). -/
def groupPlace (s : State) (p s0 : Nat) : Nat × Nat :=
  let e := s.dirEntry p
  if e.eodDsn ≤ s0 then s.eodPlace p
  else if s0 = 0 then (e.firstWrap, leadBits)
  else match s.cart.extents.find? (fun x => x.part == p && x.dsn == s0), s.cart.extents.find? (fun x => x.part == p && x.dsn + 1 == s0) with
    | some x, _ => (x.wrap, x.startBit)
    | none, some x => (x.wrap, x.endBit + sepBits)
    | none, none => s.eodPlace p

/-- Starts a write session on a partition (R56): the session number is one above the highest held; in a group it is the
one the origin fixed (R312). Its first dataset takes the place and dsn of the EOD dataset. -/
def startSession (p : Nat) (s : State) : State :=
  let e := s.dirEntry p
  let pl := if groupPart s p then groupPlace s p s.chn.grp.s0 else s.eodPlace p
  let n := if groupPart s p then s.chn.grp.session else highestSession s p + 1
  let dsn := if groupPart s p then s.chn.grp.s0 else e.eodDsn
  { s with fmt := { s.fmt with
      sess := some { part := p, session := n }
      nextDsn := dsn, wrap := pl.1, bit := pl.2, lastTier := false, afterSep := .goOn, cur := none, slot := 0, rewriteTiers := 0
      vaultCount := 0, vaultXor := [], orderNext := 0
      commitDsn := dsn, commitWrap := pl.1, commitBit := pl.2, commitPart := p, recovery := 0 } }

/-- Records and filemarks of a tag on tape in a partition (R270). -/
def tapeCounts (s : State) (p tag : Nat) : Nat × Nat :=
  match s.cart.tagCounts.find? (fun x => x.1 == p && x.2.1 == tag) with
  | some x => (x.2.2.1, x.2.2.2)
  | none => (0, 0)

/-- Sets the counts of a tag on tape. -/
def setTapeCounts (p tag records marks : Nat) (s : State) : State :=
  { s with cart.tagCounts := (p, tag, records, marks) :: s.cart.tagCounts.filter (fun x => !(x.1 == p && x.2.1 == tag)) }

end Sys2Proof.Machine
end

