-- ==== Sys2Proof/Machine/RingLink.lean ====
section
/-! DEFINITION. Sys2Proof/Machine/RingLink.lean: frames of the ring, the sender of a link, routing, and the rows that the
origin of a group sends (R299 to R306, R313 to R317). -/

namespace Sys2Proof.Machine

/-! ### Frames (R300 to R302) -/

/-- Frame types. -/
def ftData : Nat := 1
def ftRead : Nat := 2
def ftAck : Nat := 3
def ftNak : Nat := 4
def ftBeacon : Nat := 5
def ftToken : Nat := 6
def ftAttest : Nat := 7
def ftControl : Nat := 8

/-- No address, and broadcast (R306). -/
def noAddr : Nat := 0x3FF

/-- Fields of a frame's header. -/
def fType (f : Bytes) : Nat := u8 f 0
def fFlags (f : Bytes) : Nat := u8 f 1
def fSeq (f : Bytes) : BitVec 12 := BitVec.ofNat 12 (u16 f 2)
def fDst (f : Bytes) : Nat := u32 f 4 % 1024
def fSrc (f : Bytes) : Nat := u32 f 4 / 1024 % 1024
def fOrigin (f : Bytes) : Nat := u32 f 4 / 1048576 % 1024
def fPos (f : Bytes) : Nat := u8 f 8
def fRow (f : Bytes) : Nat := u16 f 10
def fStripe (f : Bytes) : Nat := u32 f 12
/-- The payload of a frame of `n` bytes without its CRC. -/
def fPayload (f : Bytes) : Bytes := slice f 16 (f.length - 20)

/-- A frame without seq and CRC. -/
def mkFrame (type flags dst src origin position row stripe : Nat) (payload : Bytes) : Bytes :=
  leBytes 1 type ++ leBytes 1 flags ++ leBytes 2 0 ++ leBytes 4 (dst % 1024 + 1024 * (src % 1024) + 1048576 * (origin % 1024))
    ++ leBytes 1 position ++ leBytes 1 0 ++ leBytes 2 row ++ leBytes 4 stripe ++ payload

/-- The frame as it goes on the wire: seq, the resent flag, and the CRC-32C over header and payload. -/
def sealFrame (seq : BitVec 12) (resent : Bool) (f : Bytes) : Bytes :=
  let f := patch f 2 (leBytes 2 seq.toNat)
  let f := if resent then patch f 1 (leBytes 1 (u8 f 1 ||| 1)) else f
  f ++ crcBytes f

/-- Payload bytes that a frame type has (R300). -/
def payloadLen (type flags : Nat) : Nat :=
  if type = ftData then 2048
  else if type = ftRead then (if flags.testBit 1 then 0 else 2048)
  else if type = ftAttest then 2048
  else 48

/-! ### Ports -/

/-- Ring port `q`: 0 east, 1 west. -/
def State.rport (s : State) (q : Fin 2) : RingPort := s.chn.port[q]

/-- Ring port `q` changed by `f`. -/
def State.modPort (s : State) (q : Fin 2) (f : RingPort → RingPort) : State := { s with chn.port := vmod s.chn.port q f }

def portEast : Fin 2 := 0
def portWest : Fin 2 := 1
def otherPort (q : Fin 2) : Fin 2 := if q = 0 then 1 else 0

/-- Whether frames pass on a port: up, and not cut under R309. -/
def portUp (s : State) (q : Fin 2) : Bool := (s.rport q).state == 2

/-- Lanes of a port that carry its link (R299): the pair, or the single lane, that leaves out the retired ones. -/
def activeLanes (s : State) (q : Fin 2) : List Nat :=
  let ok := (List.range 4).filter (fun i => !s.retired 6 (4 * q.val + i))
  let n := (s.rport q).lanes
  if n = 4 then [0, 1, 2, 3]
  else if n = 2 then (if ok.contains 0 && ok.contains 1 then [0, 1] else [2, 3])
  else ok.take n

/-- The lanes that a port can train at, at its widest (R299, R304). -/
def widestLanes (s : State) (q : Fin 2) (wired : Nat) : Nat :=
  let ok := (List.range 4).filter (fun i => !s.retired 6 (4 * q.val + i))
  let w := if ok.length = 4 then 4
    else if (ok.contains 0 && ok.contains 1) || (ok.contains 2 && ok.contains 3) then 2
    else if ok.isEmpty then 0 else 1
  min w wired

/-! ### The sender (R303, R305) -/

/-- Whether a frame carries a row. -/
def isRowFrame (f : Bytes) : Bool := fType f == ftData || fType f == ftRead

/-- A row of the origin's own that waits while a member holds XOFF (R317). -/
def heldBack (s : State) (f : Bytes) : Bool := fType f == ftData && fSrc f == s.chn.addr && !s.chn.grp.xoff.isEmpty

/-- The frame that goes next: others ahead of rows (R305). -/
def nextFrame (s : State) (l : List Bytes) : Option Bytes :=
  match l.find? (fun f => !isRowFrame f) with
  | some f => some f
  | none => l.find? (fun f => !heldBack s f)

/-- Sends one waiting frame when the window allows. -/
def pumpFrame (q : Fin 2) (s : State) : State :=
  let p := s.rport q
  if !portUp s q || 512 ≤ p.unacked.length || p.peerWindow ≤ p.unacked.length then s
  else match nextFrame s p.queue with
    | none => s
    | some f =>
      let wire := sealFrame p.txSeq false f
      s.modPort q (fun p =>
        { p with queue := p.queue.erase f, unacked := p.unacked ++ [(p.txSeq, f, 1)], txSeq := p.txSeq + 1
                 out := wire :: p.out })

/-- Sends what waits at a port and may go. -/
def pumpPort (q : Fin 2) (s : State) : State := (s.rport q).queue.foldl (fun s _ => pumpFrame q s) s

/-- A frame joins what a port is to send; a port that is down or cut sends nothing. -/
def enqueueFrame (q : Fin 2) (f : Bytes) (s : State) : State :=
  if (s.rport q).state = 1 || (s.rport q).state = 2 then
    pumpPort q (s.modPort q (fun p => { p with queue := p.queue ++ [f] }))
  else s

/-- A frame that takes no seq: ACK and NAK. -/
def emitFrame (q : Fin 2) (f : Bytes) (s : State) : State :=
  if portUp s q then s.modPort q (fun p => { p with out := sealFrame 0 false f :: p.out }) else s

/-- Frames not acknowledged go again from `seq` on, with resent set. -/
def sendAgain (q : Fin 2) (seq : BitVec 12) (s : State) : State :=
  let l := (s.rport q).unacked.dropWhile (fun x => x.1 != seq)
  if l.isEmpty then s else
  let wire := l.map (fun x => sealFrame x.1 true x.2.1)
  let again (l : List (BitVec 12 × Bytes × Nat)) := l.map (fun x => (x.1, x.2.1, x.2.2 + 1))
  s.modPort q (fun p =>
    { p with out := wire.reverse ++ p.out
             unacked := p.unacked.takeWhile (fun x => x.1 != seq) ++ again (p.unacked.dropWhile (fun x => x.1 != seq)) })

/-- A go-back event of R303: counted, and the frames from `seq` on go again. -/
def resendFrom (q : Fin 2) (seq : BitVec 12) (s : State) : State :=
  if (s.rport q).unacked.any (fun x => x.1 == seq) then sendAgain q seq (s.modPort q (fun p => { p with resends := satInc 65535 p.resends })) else s

/-! ### Routing (R306) -/

/-- The place of an address in a chain. -/
def linePos (s : State) (a : Nat) : Option Nat := s.chn.line.findIdx? (fun x => x == a)

/-- Whether this member is on a ring. -/
def onRing (s : State) : Bool := s.chn.state == 5

/-- The port by which a frame leaves for an address: fewer hops and east on a tie in a ring, the only way in a chain. -/
def portTo (s : State) (dst : Nat) : Option (Fin 2) :=
  if dst = s.chn.addr then none
  else if onRing s then
    let n := max 1 s.chn.members
    let east := (dst + n - s.chn.addr % n) % n
    let west := (s.chn.addr + n - dst % n) % n
    if n ≤ dst then none else if east ≤ west then some portEast else some portWest
  else match linePos s s.chn.addr, linePos s dst with
    | some a, some b => if a < b then some portEast else some portWest
    | _, _ => none

/-- Whether a route reaches an address. -/
def reaches (s : State) (dst : Nat) : Bool := dst == s.chn.addr || (portTo s dst).isSome

/-- The address of the neighbour at a port, or none. -/
def neighbour (s : State) (q : Fin 2) : Nat :=
  if onRing s then
    let n := max 1 s.chn.members
    if q = 0 then (s.chn.addr + 1) % n else (s.chn.addr + n - 1) % n
  else match linePos s s.chn.addr with
    | some a => if q = 0 then s.chn.line.getD (a + 1) noAddr else if a = 0 then noAddr else s.chn.line.getD (a - 1) noAddr
    | none => noAddr

/-- Sends a frame to an address. -/
def sendTo (dst : Nat) (f : Bytes) (s : State) : State := match portTo s dst with | some q => enqueueFrame q f s | none => s

/-- Sends a frame to every member: once round a ring, both ways along a chain. -/
def sendAll (f : Bytes) (s : State) : State :=
  if onRing s then enqueueFrame portEast f s else enqueueFrame portWest f (enqueueFrame portEast f s)

/-! ### Group messages (R302) -/

/-- The address of a member by its identifier. -/
def addrOfIdent (s : State) (ident : Bytes) : Option Nat :=
  if ident == deviceIdent then (if s.chn.addr = noAddr then none else some s.chn.addr)
  else match s.chn.roster.find? (fun m => m.ident == ident) with
    | some m => if m.addr = noAddr then none else some m.addr
    | none => none

/-- The address of a position of the group. -/
def addrOfPos (s : State) (p : Nat) : Option Nat := (s.chn.grp.members[p]?).bind (addrOfIdent s)

/-- The origin's address, as route fields carry it. -/
def originAddr (s : State) : Nat := (addrOfPos s 0).getD 0

/-- A CONTROL payload. -/
def control (msg : Nat) (gid body : Bytes) : Bytes := leBytes 1 msg ++ zeros 3 ++ padTo 8 gid ++ padTo 36 body

/-- A CONTROL frame of the group to an address. -/
def groupMsg (dst msg position : Nat) (body : Bytes) (s : State) : Bytes :=
  mkFrame ftControl 0 dst s.chn.addr (originAddr s) position 0 0 (control msg s.chn.grp.id body)

/-- A group message to a position. -/
def tellPos (p msg position : Nat) (body : Bytes) (s : State) : State :=
  match addrOfPos s p with
  | some a => sendTo a (groupMsg a msg position body s) s
  | none => s

/-- A group message to every member. -/
def tellAll (msg position : Nat) (body : Bytes) (s : State) : State := sendAll (groupMsg noAddr msg position body s) s

/-- Number of positions. -/
def Group.size (g : Group) : Nat := g.k + g.p

/-- Whether a position is lost (R318). -/
def Group.isLost (g : Group) (p : Nat) : Bool := g.lost.getLsbD p

/-- Whether this device is the origin of its group. -/
def isOrigin (s : State) : Bool := inGroup s && s.chn.grp.position == 0

/-! ### Rows of the origin (R315, R316) -/

/-- Row `r` of a payload (R300). -/
def payloadRow (b : Bytes) (r : Nat) : Bytes := padTo 2048 (slice b (2048 * r) 2048)

/-- Rows of a payload. -/
def payloadRows : Nat := 2560

/-- The positions that take the rows of a held dataset and have not confirmed it: its data member, and every parity member;
a lost position takes none (R316, R318). -/
def HeldDs.targets (g : Group) (h : HeldDs) : List Nat :=
  (h.position :: (List.range g.p).map (fun j => g.k + j)).filter (fun p => p != 0 && !g.isLost p && !h.confirmed.contains p)

/-- How far an address lies from this member in the direction of a port. -/
def hopsBy (s : State) (q : Fin 2) (a : Nat) : Nat :=
  if onRing s then
    let n := max 1 s.chn.members
    if q = 0 then (a + n - s.chn.addr % n) % n else (s.chn.addr + n - a % n) % n
  else match linePos s s.chn.addr, linePos s a with
    | some x, some y => if q = 0 then y - x else x - y
    | _, _ => 0

/-- The farthest of some addresses in the direction of a port. -/
def farthest (s : State) (q : Fin 2) (l : List Nat) : Option Nat :=
  l.foldl (fun (b : Option Nat) a => match b with
    | none => some a
    | some c => if hopsBy s q c < hopsBy s q a then some a else some c) none

/-- The ways a row takes, each with the address of the last target on it: one direction round a ring, a copy each way in
which a target lies along a chain (R316). The frame is addressed to that last target; those before it take a copy as it
passes. DEDUCED (log entry 17). -/
def rowRoutes (s : State) (targets : List Nat) : List (Fin 2 × Nat) :=
  let as := targets.filterMap (addrOfPos s)
  if onRing s then
    let q := if s.chn.grp.west then portWest else portEast
    ((farthest s q as).map (fun a => (q, a))).toList
  else
    [portEast, portWest].flatMap (fun q =>
      ((farthest s q (as.filter (fun a => portTo s a == some q))).map (fun a => (q, a))).toList)

/-- Sends every row of a held dataset to the targets that have not confirmed it. -/
def sendPayload (h : HeldDs) (s : State) : State :=
  let routes := rowRoutes s (h.targets s.chn.grp)
  let b := h.ds.payload.getD []
  (List.range payloadRows).foldl (fun s r =>
    routes.foldl (fun s x =>
      enqueueFrame x.1 (mkFrame ftData 0 x.2 s.chn.addr s.chn.addr h.position r h.stripe (payloadRow b r)) s) s) s

/-- A dataset of the group's stream closes at the origin (R315): it takes its stripe and position, is kept, and goes to its
member and to the parity members; position 0 writes its own. -/
def stripeDs (d : DsBuf) (s : State) : State :=
  let g := s.chn.grp
  let k := max 1 g.k
  let stripe := g.s0 + g.next / k
  let pos := g.next % k
  let x := dsIndex s d stripe g.session (stripe == g.s0) 0 (mapInService s)
  let d := { d with payload := some (dsPayload d x) }
  let h : HeldDs := { stripe := stripe, position := pos, ds := d }
  let s := { s with chn.grp.next := g.next + 1, chn.grp.held := g.held ++ [h] }
  let s := if pos = 0 then { s with fmt.queue := s.fmt.queue ++ [d] } else s
  sendPayload h s

/-- The empty datasets that complete the open stripe for a stream (R315). -/
def padStripe (x : Stream) (pos : Nat) (s : State) : State :=
  if !(groupPart s x.part && isOrigin s) then s
  else
    (List.range (max 1 s.chn.grp.k)).foldl (fun s _ =>
      if s.chn.grp.next % max 1 s.chn.grp.k = 0 then s
      else
        let d : DsBuf :=
          { id := s.nextId, kind := typeData, sid := some x.sid, v := some x.v, tag := x.tag, part := x.part, session := s.sessionNo
            recordsBefore := x.recordsPlaced, marksBefore := x.marksPlaced, minPos := pos, endPos := pos, openedAt := s.glb.time
            lastBlock := s.glb.time, closedAt := s.glb.time }
        stripeDs d { s with nextId := s.nextId + 1 }) s

/-- A closed dataset joins the write queue, or its stripe in a group's stream (R113, R315). -/
def joinQueue (d : DsBuf) (s : State) : State :=
  if groupPart s d.part && isOrigin s && d.kind = typeData && d.redo.isNone then stripeDs d s
  else { s with fmt.queue := s.fmt.queue ++ [d] }

/-! ### Stripes at a member (R312 to R316) -/

/-- The first stripe that has not joined this member's write queue. -/
def nextStripe (s : State) : Nat := s.chn.grp.s0 + s.chn.grp.next

/-- Whether a stripe is held whole: every row, from every data position at a parity member, in a PAN3 buffer. -/
def stripeWhole (g : Group) (x : Stripe) : Bool :=
  x.handle.isSome && x.rows.length == payloadRows && (decide (g.position < g.k) || x.rows.all (fun r => r.2.2.length == g.k))

/-- The payload of a stripe. -/
def Stripe.payload (x : Stripe) : Bytes :=
  (List.range payloadRows).flatMap (fun r => padTo 2048 (((x.rows.find? (fun y => y.1 == r)).map (fun y => y.2.1)).getD []))

/-- The dataset that a member writes for a stripe (R314): DATA with the origin's index, or parity without one. -/
def memberDs (s : State) (x : Stripe) : DsBuf :=
  let b := x.payload
  let ix := if s.chn.grp.position < s.chn.grp.k then DsIndex.parse (slice b blockArea 4096) else none
  let d : DsBuf :=
    { id := s.nextId, kind := if s.chn.grp.position < s.chn.grp.k then typeData else typeRait, part := s.chn.grp.part
      session := s.chn.grp.session, openedAt := s.glb.time, lastBlock := s.glb.time, closedAt := s.glb.time
      payload := some b, handle := x.handle }
  match ix with
  | some i => { d with tag := i.streamTag, recordsBefore := i.recordsBefore, marksBefore := i.marksBefore, entries := i.entries }
  | none => d

/-- The next stripe joins the write queue when it is whole; the first of a session starts it. -/
def joinStripe (s : State) : State :=
  match s.chn.grp.stripes.find? (fun x => x.stripe == nextStripe s && x.whole) with
  | none => s
  | some x =>
    let d := memberDs s x
    let s := if s.fmt.sess.isSome then s else startSession s.chn.grp.part s
    { s with fmt.queue := s.fmt.queue ++ [d], nextId := s.nextId + 1, chn.grp.next := s.chn.grp.next + 1
             chn.grp.stripes := s.chn.grp.stripes.filter (fun y => y.stripe != x.stripe) }

/-- The session ends on a member once every stripe before the EOD dataset has joined the queue (R315). -/
def endStripes (s : State) : State :=
  match s.chn.grp.sessionEnd with
  | none => s
  | some e =>
    if nextStripe s < e then s
    else
      let s := if s.fmt.sess.isSome then s else startSession s.chn.grp.part s
      { s with fmt.sess := s.fmt.sess.map (fun w => { w with ending := true }), chn.grp.sessionEnd := none }

/-- Stripes that have become whole are confirmed and join the write queue in order (R314, R316). -/
def settleStripes (s : State) : State :=
  if s.chn.grp.state != 2 || isOrigin s then s
  else
    let new := s.chn.grp.stripes.filter (fun x => !x.whole && stripeWhole s.chn.grp x)
    let s := new.foldl (fun s x =>
      tellPos 0 0x20 s.chn.grp.position (leBytes 4 x.stripe)
        { s with chn.grp.stripes := modFirst (fun y => y.stripe == x.stripe) (fun y => { y with whole := true }) s.chn.grp.stripes }) s
    endStripes (s.chn.grp.stripes.foldl (fun s _ => joinStripe s) s)

/-! ### A member's back-pressure (R317) -/

/-- XOFF when PAN3 turns LOW on a member, XON when it clears. -/
def settleXoff (s : State) : State :=
  let low := (s.pan 3).low
  if s.chn.grp.state != 2 || isOrigin s || low = s.chn.grp.xoffSent then s
  else tellPos 0 (if low then 0x22 else 0x23) s.chn.grp.position (leBytes 1 3) { s with chn.grp.xoffSent := low }

end Sys2Proof.Machine
end

