-- ==== Sys2Proof/Machine/Assemble.lean ====
section
/-! DEFINITION. Sys2Proof/Machine/Assemble.lean: the dataset assembler: opening, filling and closing datasets, and the blocks
that reach pans (R48 to R51, R55, R102, R112, R113, R236, R288). -/

namespace Sys2Proof.Machine

/-! ### Closing (R112, R113) -/

/-- An open dataset closes and joins the write queue. -/
def closeDs (id : Nat) (s : State) : State :=
  match s.fmt.asm.find? (fun d => d.id == id) with
  | none => s
  | some d =>
    -- a block that bursts have moved in part goes into the next dataset from its start
    let restart (b : Blk) : Blk := if some b.sid = d.sid then { b with moved := 0 } else b
    joinQueue { d with closedAt := s.glb.time } { s with fmt.asm := s.fmt.asm.filter (fun d => d.id != id), blks := s.blks.map restart }

/-- The open dataset of a stream. -/
def State.openDs? (s : State) (sid : Nat) : Option DsBuf := s.fmt.asm.find? (fun d => d.sid == some sid)

/-- The open dataset of a stream changed by `f`. -/
def modDs (sid : Nat) (f : DsBuf → DsBuf) (s : State) : State := { s with fmt.asm := modFirst (fun d => d.sid == some sid) f s.fmt.asm }

/-! ### Entries -/

/-- A filemark entry (R50, R55): its offset is area_used at that point. -/
def DsBuf.addMark (d : DsBuf) (pos now : Nat) : DsBuf :=
  { d with
    entries := d.entries ++ [{ offset := pad64 d.area.length, length := 0, recordsEnded := 0, kind := 2, continues := false }]
    endPos := pos + 1, lastBlock := now }

/-- A block at the next multiple of 64 of the block area (R48), with its entry and its place in the key's counters. -/
def DsBuf.addBlock (d : DsBuf) (b : Blk) (now : Nat) : DsBuf :=
  let off := pad64 d.area.length
  { d with
    area := padTo off d.area ++ b.out
    entries := d.entries ++ [{ offset := off, length := b.out.length, recordsEnded := b.recordsEnded, kind := 1, continues := b.head.continues }]
    key := match d.key, b.key with
      | some (e, sa, f, _), some k => some (e, sa, f, k.counter)
      | none, some k => some (k.epoch, k.salt, k.counter, k.counter)
      | k, none => k
    endPos := b.pos + 1, lastBlock := now }

/-- Whether a block goes into an open dataset, or the dataset closes before it (R102, R112). -/
def DsBuf.takes (d : DsBuf) (b : Blk) : Bool :=
  decide (pad64 d.area.length + b.out.length ≤ blockArea) && decide (d.entries.length < maxEntries)
    && (match d.key, b.key with
        | some (e, _, _, last), some k => k.epoch == e && k.counter == last + 1
        | some _, none => false
        | none, some _ => !d.entries.any (fun x => x.kind == 1)
        | none, none => true)

/-! ### Waiting for a dataset slot (R288) -/

/-- Whether a stream waits for a dataset slot: no dataset is open for it and a sealed block, or a filemark, comes next. -/
def waitsSlot (s : State) (x : Stream) : Bool :=
  (s.openDs? x.sid).isNone && s.pans.asmFor != some x.sid
    && (match x.items with
        | .block p :: _ => s.blks.any (fun b => b.sid == x.sid && b.pos == p && !b.place.unsealed)
        | .mark _ :: _ => true
        | _ => false)

/-- Keeps the order in which streams began to wait. -/
def noteWaits (s : State) : State :=
  s.streams.foldl (fun s x =>
    if waitsSlot s x then
      if x.waitSince.isSome then s
      else { s.modStream x.sid (fun x => { x with waitSince := some s.nextId }) with nextId := s.nextId + 1 }
    else s.modStream x.sid (fun x => { x with waitSince := none })) s

/-! ### The head of a stream's order -/

/-- The head of a stream's items is taken. -/
def popItem (sid : Nat) (s : State) : State := s.modStream sid (fun x => { x with items := x.items.drop 1 })

/-- Filemarks and flushes at the head of a stream's order: a filemark joins the open dataset, a flush closes it. -/
def pumpOne (sid : Nat) (s : State) : State :=
  match s.stream? sid with
  | none => s
  | some x =>
    match x.items, s.openDs? sid with
    | .mark p :: _, some d =>
      if d.entries.length < maxEntries then
        popItem sid ((modDs sid (fun d => d.addMark p s.glb.time) s).modStream sid (fun x => { x with marksPlaced := x.marksPlaced + 1 }))
      else closeDs d.id s
    | .flush p :: _, some d => popItem sid (padStripe x p (closeDs d.id s))
    | .flush p :: _, none => popItem sid (padStripe x p s)
    | _, _ => s

/-- All that can be taken from the head of a stream's order without a burst. -/
def pump (sid : Nat) (s : State) : State :=
  match s.stream? sid with
  | none => s
  | some x => noteWaits ((x.items ++ [Item.flush 0]).foldl (fun s _ => pumpOne sid s) s)

/-- Requester number of cipher engine `e`, and of the dataset assembler (R230). -/
def reqEngine (e : Nat) : Nat := 24 + e
def reqAssembler : Nat := 0
/-- The ring parity path. -/
def reqParity : Nat := 2
/-- The retrieve path. -/
def reqRetrieve : Nat := 32

/-- The first stripe of a held buffer, and how many it has. -/
def bufExtent (s : State) (h : Nat) : Nat × Nat :=
  match panOfHandle s h with
  | some p => (bufStripe s p h, panKib p)
  | none => (0, 0)

/-- An engine's bytes take the place of what stood in `n` stripes from `st` on: they read as written (R207). -/
def freshStripes (st n : Nat) (s : State) : State :=
  let out (x : Nat) : Bool := x < st || st + n ≤ x
  let phys := (s.buf.damage.map (·.1)).filter (fun p => !out (logicalOf s p))
  { s with
    pans.overlaid := s.pans.overlaid.filter out
    buf.damage := s.buf.damage.filter (fun x => !phys.contains x.1) }

/-- Opens a dataset for a stream in a PAN3 buffer. -/
def openDs (sid handle : Nat) (s : State) : State :=
  match s.stream? sid with
  | none => releaseHandle reqAssembler handle s
  | some x =>
    let pos := match x.items with | i :: _ => i.pos | [] => x.itemPos
    let d : DsBuf :=
      { id := s.nextId, kind := typeData, sid := some sid, v := some x.v, tag := x.tag, part := x.part, session := s.sessionNo
        recordsBefore := x.recordsPlaced, marksBefore := x.marksPlaced, minPos := pos, endPos := pos, openedAt := s.glb.time
        lastBlock := s.glb.time, handle := some handle }
    let x := bufExtent s handle
    let s := freshStripes x.1 x.2 s
    pump sid { s with fmt.asm := s.fmt.asm ++ [d], nextId := s.nextId + 1, pans.asmFor := none }

/-! ### Blocks into PAN1 (R18 hand-over 3, R236) -/

/-- Cipher engine `e` writes the block into its PAN1 buffer and hands the buffer to the assembler (R231), both its
checks passed (R10): the block's command, its instance and its stream take note. -/
def blkSealed (e id handle : Nat) (s : State) : State :=
  match s.blks.find? (fun b => b.id == id) with
  | none => releaseHandle (reqEngine e) handle s
  | some b =>
    let x := bufExtent s handle
    let s := freshStripes x.1 ((b.out.length + 1023) / 1024) s
    let s := { s with pans.written := (x.1, b.out) :: s.pans.written.filter (fun w => w.1 != x.1) }
    let s := onBehalf (panHandoff (reqEngine e) handle reqAssembler) s
    let s := s.modBlk id (fun b => { b with place := .sealed handle })
    let s := s.modCmd (some b.v) b.carrier (fun c => { c with job := { c.job with sealedTo := max c.job.sealedTo b.carrierTo } })
    let s := s.modInst b.v (fun i =>
      { i with stats := { i.stats with sealed := i.stats.sealed + b.out.length }
               qscFinished := if i.state = .quiescing then i.qscFinished + 1 else i.qscFinished })
    pump b.sid s

/-- A grant of the pan manager taken up by the engine or the assembler that waited for it. -/
def takeUp (s : State) (g : Nat × Nat) : State :=
  let s' := { s with pans.grants := s.pans.grants.filter (fun x => x != g) }
  if g.1 = reqAssembler then
    match s.pans.asmFor with
    | some sid => openDs sid g.2 s'
    | none => s
  else if g.1 = reqParity then
    if s.chn.grp.stripes.any (fun x => x.handle.isNone) then
      let x := bufExtent s' g.2
      let s' := onBehalf (panHandoff reqParity g.2 reqAssembler) (freshStripes x.1 x.2 s')
      settleStripes { s' with chn.grp.stripes := modFirst (fun x => x.handle.isNone) (fun x => { x with handle := some g.2 }) s'.chn.grp.stripes }
    else s
  else if g.1 = reqRetrieve then
    let x := bufExtent s' g.2
    if s.rtv.ds.any (fun d => d.pos == 0 && d.wantsBuffer) then
      { freshStripes x.1 x.2 s' with rtv.ds := modFirst (fun d => d.pos == 0 && d.wantsBuffer) (fun d => { d with handle := some g.2 }) s'.rtv.ds }
    else releaseHandle reqRetrieve g.2 s'
  else
    match s.blks.find? (fun b => match b.place with | .panWait e => reqEngine e == g.1 | _ => false) with
    | some b =>
      let e : Fin 4 := Fin.ofNat 4 (g.1 - 24)
      blkSealed e.val b.id g.2 { s' with codec.engines := vmod s'.codec.engines e (fun c => { c with use := .idle, attempt := 0 }) }
    | none => s

/-- Grants that waited are taken up, and work goes on. -/
def settleGrants (s : State) : State := dispatch (s.pans.grants.foldl takeUp s)

/-- The dataset assembler frees a buffer, and who waits is served. -/
def giveBack (handle : Option Nat) (s : State) : State :=
  match handle with
  | some h => settleGrants (releaseHandle reqAssembler h s)
  | none => s

/-- The retrieve path frees the buffers of datasets that it is done with, and asks for one for the next dataset that has none (R230). -/
def settleReadBufs (s : State) : State :=
  let done := s.rtv.ds.filter (fun d => d.handle.isSome && (d.taken || d.lost))
  let s := { s with rtv.ds := s.rtv.ds.map (fun d => if d.taken || d.lost then { d with handle := none } else d) }
  let s := done.foldl (fun s d => match d.handle with | some h => releaseHandle reqRetrieve h s | none => s) s
  let s := if s.rtv.ds.any (fun d => d.pos == 0 && d.wantsBuffer) && !waitsPan s reqRetrieve then onBehalf (panAlloc reqRetrieve 6291456 none true) s else s
  settleGrants s

/-- Every dataset being read lets go of its buffer: reading begins elsewhere, or ends. -/
def dropReadBufs (s : State) : State :=
  let hs := s.rtv.ds.filterMap (fun d => d.handle)
  let s := { s with rtv.ds := s.rtv.ds.map (fun d => { d with handle := none }) }
  hs.foldl (fun s h => releaseHandle reqRetrieve h s) (dropWaiter reqRetrieve s)

/-- Ends every open stream of an instance, and takes what then stands at the head of each order. -/
def endAll (v : Inst) (s : State) : State :=
  let ids := (s.streams.filter (fun x => x.v == v)).map (·.sid)
  sweepStreams (ids.foldl (fun s i => pump i s) (endStreams v s))

end Sys2Proof.Machine
end

