-- ==== Sys2Proof/Machine/HostCmds.lean ====
section
/-! DEFINITION. Sys2Proof/Machine/HostCmds.lean: the stream, slot and statistics commands of an instance ring (R268 to R271,
R277 to R280, R104, R107, R108, R129). -/

namespace Sys2Proof.Machine

/-- Runs a command of an instance ring when it may start (R280); a row whose command may not start yet changes nothing. -/
def instCmd (v : Inst) (cid : Cid) (op : Nat) (f : Cmd → State → State) (s : State) : State :=
  match startable s v cid op with
  | none => s
  | some c => f c s

/-- Completes an instance command with a status and results 0. -/
def endSt (v : Inst) (c : Cmd) (st : Status) (s : State) : State := completeSt (some v) c.uid st s

/-- Completes an instance command OK with results. -/
def endOk (v : Inst) (c : Cmd) (r0 r1 r2 : Nat) (s : State) : State :=
  complete (some v) c.uid { status := .ok, r0 := r0, r1 := r1, r2 := r2 } s

/-- Whether a command submitted after the pause point needs a dataset slot (R290). -/
def pausedOut (s : State) (v : Inst) : Bool := (s.inst v).state == .paused

/-- The stream that a command names, with what its cut, or a wrong direction, makes of the command. -/
def streamCmd (v : Inst) (c : Cmd) (dirs : List StreamDir) (f : Stream → State → State) (s : State) : State :=
  match s.openStream? v c.target with
  | none => endSt v c .badParam s
  | some x =>
    match x.cut with
    | some st => endSt v c st s
    | none => if dirs.contains x.dir then f x s else endSt v c .badOpcode s

/-! ### OPEN_STREAM (R269) -/

/-- The slot number of a descriptor: 0xFF names none. -/
def slotOf (n : Nat) : Option SlotNo := if n < 8 then some (Fin.ofNat 8 n) else none

/-- Whether a stream may be opened without a slot (R89). -/
def plaintextAllowed (s : State) (v : Inst) : Bool := (s.inst v).cfg.plaintextOk && rbit s.codec.cphCtrl 1

/-- Kind of the slot that a stream names. -/
def slotKind (s : State) (v : Inst) (k : Option SlotNo) : Option SlotKind := k.map (fun k => (s.slot v k).kind)

/-- An FF2 kind (R106). -/
def SlotKind.isFf2 : SlotKind → Bool
  | .ff2Cbc | .ff2Cfb => true
  | _ => false

/-- The checks of an OPEN_STREAM on the descriptor and the instance alone. -/
def openFormFault (s : State) (v : Inst) (c : Cmd) (p : OpenParams) : Option Status :=
  firstFault
    [ (!reservedZero c.desc [(8, 7)], .badParam)
    , (!decide (c.target < (s.inst v).cfg.maxStreams), .badParam)
    , ((s.openStream? v c.target).isSome, .badParam)
    , (!(decide (p.dir ≤ 2) && decide (p.seed ≤ 4) && decide (p.effort ≤ 2)), .badParam)
    , (!(decide (p.slot < 8) || p.slot == 0xFF), .badParam) ]

/-- The checks of an FF2 decrypt stream (R111, R269). -/
def openFf2Fault (s : State) (v : Inst) (p : OpenParams) : Option Status :=
  firstFault
    [ (!(match slotKind s v (slotOf p.slot) with | some k => k.isFf2 | none => false), .badOpcode)
    , (decide (256 ≤ s.streams.countP (fun x => !x.ended)), .noResource) ]

/-- The checks of a stream on the cartridge (R89, R269, R291, R312, R333, R420). -/
def openTapeFault (s : State) (v : Inst) (p : OpenParams) : Option Status :=
  let cfg := (s.inst v).cfg
  let app := p.dir == 0
  let lo := if app then cfg.tagLo else cfg.rtagLo
  let hi := if app then cfg.tagHi else cfg.rtagHi
  let kind := slotKind s v (slotOf p.slot)
  let groupHere := inGroup s && s.chn.grp.part == p.part
  let groupBusy := inGroup s && (s.streams.any (fun x => x.onTape && x.part == s.chn.grp.part) || !s.chn.grp.stripes.isEmpty)
  firstFault
    [ (!s.glb.mode.onTape, .notReady)
    , (!(decide (p.part < 16) && cfg.partMask.testBit p.part), .badParam)
    , (!(s.dirEntry p.part).defined, .badParam)
    , (!(decide (lo ≤ p.tag) && decide (p.tag ≤ hi)), .badParam)
    , (app && s.streams.any (fun x => x.appending && x.tag == p.tag), .badParam)
    , (match kind with | some k => k.isFf2 | none => false, .badOpcode)
    , (app && kind == some .empty, .badParam)
    , (kind.isNone && !plaintextAllowed s v, .badParam)
    , (groupHere && s.chn.grp.position != 0, .badParam)
    , (groupHere && app && s.chn.grp.state != 2, .notReady)
    , (!groupHere && groupBusy, .notReady)
    , (s.streams.any (fun x => x.onTape && (if app then x.dir == .read || x.part != p.part else x.dir == .append)), .notReady)
    , (app && !s.pwr.holdOk && rbit s.pwr.quenchCfg 21, .notReady)
    , (app && s.fmt.sess.isNone && partitionFull s p.part, .endOfPartition)
    , (decide (256 ≤ s.streams.countP (fun x => !x.ended)), .noResource) ]

/-- A new stream context (R269). -/
def newStream (s : State) (v : Inst) (no : Nat) (p : OpenParams) (dir : StreamDir) : Stream :=
  let n := if dir == .append then tapeCounts s p.part p.tag else (0, 0)
  { sid := s.nextId, v := v, no := no, dir := dir, tag := p.tag, part := p.part, slot := slotOf p.slot, seed := p.seed
    effort := p.effort, recordsTotal := n.1, marksTotal := n.2, recordsPlaced := n.1, marksPlaced := n.2 }

/-- Adds a stream context. -/
def addStream (x : Stream) (s : State) : State := { s with streams := s.streams ++ [x], nextId := s.nextId + 1 }

/-- Whether the cartridge is busy ending a write session, which every OPEN_STREAM on it waits for (R422). -/
def sessionEnding (s : State) : Bool := match s.fmt.sess with | some w => w.ending | none => false

/-- Whether a CART_UNLOAD rewinds the tape or a CART_CALIBRATE reads it. -/
def tapeHeld (s : State) : Bool := s.hif.mq.cmds.any (fun c => match c.phase with | .unloadWait | .calWait _ => true | _ => false)

/-- Whether a CART_UNLOAD or CART_CALIBRATE in progress holds the cartridge (R275, R422). -/
def cartBusy (s : State) : Bool := tapeHeld s || s.hif.mq.cmds.any (fun c => c.phase == .sessionWait)

/-- OPEN_STREAM (R269); all streams open at one moment share one direction (R414). -/
def openStream (v : Inst) (c : Cmd) (s : State) : State :=
  let p := openParams c.desc
  match openFormFault s v c p with
  | some st => endSt v c st s
  | none =>
    if p.dir = 2 then
      match openFf2Fault s v p with
      | some st => endSt v c st s
      | none => endOk v c 0 0 0 (addStream (newStream s v c.target p .ff2) s)
    else if s.glb.mode.onTape && (sessionEnding s || cartBusy s) then s
    else
      match openTapeFault s v p with
      | some st => endSt v c st s
      | none =>
        if p.dir = 1 then endOk v c 0 0 0 (addStream (newStream s v c.target p .read) s)
        else
          let s := if s.fmt.sess.isNone then startSession p.part s else s
          let x := newStream s v c.target p .append
          endOk v c x.recordsTotal x.marksTotal 0 (addStream x s)

def execOpenStream (v : Inst) (cid : Cid) (s : State) : Out := next (instCmd v cid 0x01 (openStream v) s)

/-! ### CLOSE_STREAM, SYNC, WRITE_MARK (R112, R129, R422) -/

/-- Ends a stream that holds nothing more to write. -/
def closeNow (v : Inst) (c : Cmd) (x : Stream) (st : Status) (s : State) : State :=
  endSt v c st (sweepStreams (endStream s x))

/-- CLOSE_STREAM. On an append stream it closes the open block, flushes and completes on commit; on a stream cut by a
failed block check it completes with BLOCK_CHECK (R21). -/
def closeStream (v : Inst) (c : Cmd) (s : State) : State :=
  if !reservedZero c.desc [] then endSt v c .badParam s
  else match s.openStream? v c.target with
  | none => endSt v c .badParam s
  | some x =>
    if x.dir != .append then closeNow v c x .ok s
    else if pausedOut s v then endSt v c .noShare s
    else if x.cut == some .blockCheck then closeNow v c x .blockCheck s
    else match closeEarly x.sid c.uid s with
      | (some .wait, _) => s
      | (some .exhausted, _) => endSt v c .keyExhausted s
      | (none, s) =>
        match s.stream? x.sid with
        | none => s
        | some y =>
          let s := s.modCmd (some v) c.uid (fun c => { c with phase := .commitWait x.sid y.itemPos })
          settleWaits (dispatch (pump x.sid (endStream s y)))

def execCloseStream (v : Inst) (cid : Cid) (s : State) : Out := next (instCmd v cid 0x02 (closeStream v) s)

/-- SYNC (R129): the open block closes, the dataset is flushed, and the completion waits on commit. Where that block finds its key
exhausted the command ends with KEY_EXHAUSTED, and so do CLOSE_STREAM and WRITE_MARK. DESIGN CHOICE (log entry 114). -/
def sync (v : Inst) (c : Cmd) (s : State) : State :=
  if !reservedZero c.desc [] then endSt v c .badParam s
  else if pausedOut s v then endSt v c .noShare s
  else streamCmd v c [.append] (fun x s =>
    match closeEarly x.sid c.uid s with
    | (some .wait, _) => s
    | (some .exhausted, _) => endSt v c .keyExhausted s
    | (none, s) =>
      match s.stream? x.sid with
      | none => s
      | some y =>
        let s := addItem x.sid .flush s
        settleWaits (pump x.sid (dispatch (s.modCmd (some v) c.uid (fun c => { c with phase := .commitWait x.sid y.itemPos }))))) s

def execSync (v : Inst) (cid : Cid) (s : State) : Out := next (instCmd v cid 0x13 (sync v) s)

/-- WRITE_MARK (R55, R129): the block before it closes; its filemarks join the stream's order. -/
def writeMark (v : Inst) (c : Cmd) (s : State) : State :=
  let count := u16 c.desc 8
  if !reservedZero c.desc [(8, 2)] || count == 0 then endSt v c .badParam s
  else if pausedOut s v then endSt v c .noShare s
  else streamCmd v c [.append] (fun x s =>
    match closeEarly x.sid c.uid s with
    | (some .wait, _) => s
    | (some .exhausted, _) => endSt v c .keyExhausted s
    | (none, s) =>
      match s.stream? x.sid with
      | none => s
      | some y =>
        let s := (List.range count).foldl (fun s _ => addItem x.sid .mark s) s
        let s := s.modStream x.sid (fun x => { x with marksTotal := x.marksTotal + count })
        let s := s.modInst v (fun i => { i with stats := { i.stats with marks := i.stats.marks + count } })
        settleWaits (pump x.sid (dispatch (s.modCmd (some v) c.uid (fun c => { c with phase := .markWait x.sid (if y.itemPos = x.itemPos then none else some (y.itemPos - 1)) (y.marksTotal + count) }))))) s

def execWriteMark (v : Inst) (cid : Cid) (s : State) : Out := next (instCmd v cid 0x12 (writeMark v) s)

/-! ### WRITE_RECORDS and STREAM_APPEND (R266, R277) -/

/-- The checks of a write command's descriptor. -/
def writeFault (c : Cmd) (p : WriteParams) : Option Status :=
  firstFault
    [ (!reservedZero c.desc [(8, 10), (24, 12)], .badParam)
    , (!(aligned64 p.sgl && aligned64 p.tails), .align)
    , (!(decide (1 ≤ p.entries) && decide (p.entries ≤ 256)), .badParam) ]

/-- Starts a write command: its first segment is fetched and checked, and up to `bursts` bursts move. -/
def startWrite (v : Inst) (c : Cmd) (bursts : Nat) (s : State) : State :=
  let p := writeParams c.desc
  match writeFault c p with
  | some st => endSt v c st s
  | none =>
    if pausedOut s v then endSt v c .noShare s
    else streamCmd v c [.append] (fun x s =>
      let s := s.modCmd (some v) c.uid (fun c => { c with phase := .running })
      hostBursts v c.uid x.sid bursts (loadSegment v c.uid p.entries p.sgl s)) s

def execWriteRecords (v : Inst) (cid : Cid) (bursts : Nat) (s : State) : Out :=
  next (instCmd v cid 0x10 (fun c s => startWrite v c bursts s) s)

def execStreamAppend (v : Inst) (cid : Cid) (bursts : Nat) (s : State) : Out :=
  next (instCmd v cid 0x11 (fun c s => startWrite v c bursts s) s)

/-! ### READ_POSITION (R268, R270) -/

/-- READ_POSITION: the logical position of a read stream; on an append stream the end of data of its tag on tape. -/
def readPosition (v : Inst) (c : Cmd) (s : State) : State :=
  if !reservedZero c.desc [] then endSt v c .badParam s
  else streamCmd v c [.append, .read] (fun x s =>
    if x.dir == .read then endOk v c x.rd.records x.rd.marks x.rd.dsn s
    else
      let n := tapeCounts s x.part x.tag
      endOk v c n.1 n.2 s.fmt.commitDsn s) s

def execReadPosition (v : Inst) (cid : Cid) (s : State) : Out := next (instCmd v cid 0x23 (readPosition v) s)

/-! ### SLOT_BIND and SLOT_REKEY (R104, R107, R108) -/

/-- The append streams that use a slot, with those that have ended and hold data still. -/
def slotStreams (s : State) (v : Inst) (k : SlotNo) : List Stream :=
  s.streams.filter (fun x => x.v == v && x.slot == some k && x.dir == .append)

/-- The reading of a stream is put back to the start of the record at its logical position; what was decoded or in
flight beyond it is dropped (R83, R292). -/
def rewindRead (sid : Nat) (s : State) : State :=
  let s := s.modStream sid (fun x =>
    { x with rd := { x.rd with ready := [], parse := {}, nextNo := 0, again := none, nextDsn := x.rd.dsn, nextPos := 0, nextEntry := 0 } })
  let s := dropRBlks sid (fun _ => true) s
  match s.stream? sid with
  | none => s
  | some x =>
    (s.ring (some x.v)).cmds.foldl (fun s c =>
      if c.opcode == 0x20 && c.running && c.target == x.no then
        s.modCmd (some x.v) c.uid (fun c => { c with job := { c.job with sent := 0, tries := {} } })
      else s) s

/-- Blocks queued or held for opening under a slot are discarded (R108): the streams that lose one are read anew from their
logical position. -/
def discardUnopened (v : Inst) (k : SlotNo) (s : State) : State :=
  let lost := s.streams.filter (fun x => s.rtv.blks.any (fun b => b.sid == x.sid && rblkUnder s v k b && b.place.unopened))
  lost.foldl (fun s x => rewindRead x.sid s) s

/-- Ends a running READ_RECORDS with a status: counts so far, position at the start of the failing record (R83). -/
def failRead (v : Inst) (c : Cmd) (st : Status) (entry : Nat) (s : State) : State :=
  let s := match s.openStream? v c.target with | some x => rewindRead x.sid s | none => s
  complete (some v) c.uid { status := st, r0 := c.job.delivered, r1 := c.job.written, entry := entry } s

/-- Cuts the append streams of an erased slot: commands that have begun end with KEY_REVOKED (R108, R109, R412). -/
def revokeAppend (v : Inst) (k : SlotNo) (s : State) : State :=
  (slotStreams s v k).foldl (fun s x =>
    let lost := ((s.blks.filter (fun b => b.sid == x.sid && b.place.unsealed)).map (·.pos)).min?
    cutStream x.sid .keyRevoked (failBegun x .keyRevoked lost s)) s

/-- Ends the READ_RECORDS that have a block in flight under an erased slot. -/
def revokeReads (v : Inst) (k : SlotNo) (s : State) : State :=
  (s.ring (some v)).cmds.foldl (fun s c =>
    match s.openStream? v c.target with
    | some x =>
      if c.opcode == 0x20 && c.running && x.slot == some k
          && s.rtv.blks.any (fun b => b.sid == x.sid && b.encrypted && b.place.unopened) then failRead v c .keyRevoked noEntry s
      else s
    | none => s) s

/-- The waiters of a pending copy complete with
KEY_REVOKED and the generation after the erase (R108). -/
def revokeWaiters (ws : List (RingId × Nat)) (gen : Nat) (s : State) : State :=
  ws.foldl (fun s w => complete w.1 w.2 { status := .keyRevoked, r2 := gen } s) s

/-- Erases a slot (R108): root, pending copy and derived keys gone, blocks under it discarded, its streams cut, the slot
EMPTY with exponent 36 and auto-rekey on, its generation moved on. -/
def eraseSlot (v : Inst) (k : SlotNo) (s : State) : State :=
  let ws := match (s.slot v k).pending with | some p => p.waiters | none => []
  let s := revokeReads v k (revokeAppend v k s)
  let s := discardUnopened v k (discardBlocks (fun b => blkUnder v k b && b.place.unsealed) s)
  let s := wipeKeys (fun x => x.1 == v.val && x.2.1 == k.val) s
  let s := s.modSlot v k (fun q => { ({} : KeySlot) with generation := q.generation })
  let s := bumpGeneration v k s
  let s := revokeWaiters ws (s.slot v k).generation s
  settleWaits (dispatch s)

/-- Merges a rewrite into the slot's pending copy (R107). -/
def mergeRewrite (v : Inst) (k : SlotNo) (f : PendingCopy → PendingCopy) (s : State) : State :=
  s.modSlot v k (fun q => { q with pending := some (f (q.pending.getD {})) })

/-- The pending copy becomes the slot (R107): generation moves on, keys of an old root are wiped, the waiting commands
complete with the new generation, and what waited for the slot goes on. -/
def applyPending (v : Inst) (k : SlotNo) (s : State) : State :=
  match (s.slot v k).pending with
  | none => s
  | some p =>
    let s := s.modSlot v k (fun q =>
      { q with root := p.root.getD q.root, kind := p.kind.getD q.kind, limitLog2 := p.limit.getD q.limitLog2
               autoRekey := p.autoRekey.getD q.autoRekey, pending := none })
    let s := if p.root.isSome then wipeKeys (fun x => x.1 == v.val && x.2.1 == k.val) s else s
    let s := bumpGeneration v k s
    let s := p.waiters.foldl (fun s w => complete w.1 w.2 { status := .ok, r2 := (s.slot v k).generation } s) s
    dispatch (retryStaged v s)

/-- Applies the pending copy when the in-use count is 0 (R107). -/
def applyIfIdle (v : Inst) (k : SlotNo) (s : State) : State := if inUse s v k = 0 then applyPending v k s else s

/-- The kind that a SLOT_BIND names and the checks on its parameters (R107, R111). -/
def bindFault (s : State) (v : Inst) (c : Cmd) : Option Status :=
  let kind := u8 c.desc 9
  let limit := u8 c.desc 10
  firstFault
    [ (!reservedZero c.desc [(8, 4)] || c.target != 0xFFFF, .badParam)
    , (!(decide (u8 c.desc 8 < 8) && decide (kind ≤ 3) && decide (u8 c.desc 11 ≤ 1)), .badParam)
    , (kind != 0 && !(decide (20 ≤ limit) && decide (limit ≤ 36)), .badParam)
    , (decide (2 ≤ kind) && !rbit s.codec.cphCtrl 0, .badParam)
    , (kind != 0 && (s.slot v (Fin.ofNat 8 (u8 c.desc 8))).kind == .empty, .badParam) ]

/-- SLOT_BIND (R107, R108). -/
def slotBind (v : Inst) (c : Cmd) (s : State) : State :=
  match bindFault s v c with
  | some st => endSt v c st s
  | none =>
    let k : SlotNo := Fin.ofNat 8 (u8 c.desc 8)
    let q := s.slot v k
    match SlotKind.ofCode (u8 c.desc 9) with
    | none => endSt v c .badParam s
    | some .empty =>
      let s := eraseSlot v k s
      endOk v c 0 0 (s.slot v k).generation s
    | some kind =>
      let limit := u8 c.desc 10
      let auto := u8 c.desc 11 == 1
      if q.pending.isNone && q.kind == kind && q.limitLog2 == limit && q.autoRekey == auto then endOk v c 0 0 q.generation s
      else
        let s := mergeRewrite v k (fun p =>
          { p with kind := some kind, limit := some limit, autoRekey := some auto, waiters := p.waiters ++ [(some v, c.uid)] }) s
        applyIfIdle v k (s.modCmd (some v) c.uid (fun c => { c with phase := .rewriteWait k }))

def execSlotBind (v : Inst) (cid : Cid) (s : State) : Out := next (instCmd v cid 0x30 (slotBind v) s)

/-- SLOT_REKEY (R104): the new epoch is allotted at once; each append stream of the slot takes it up at its next block. -/
def slotRekey (v : Inst) (c : Cmd) (s : State) : State :=
  if !reservedZero c.desc [(8, 1)] || c.target != 0xFFFF || !decide (u8 c.desc 8 < 8) then endSt v c .badParam s
  else
    let k : SlotNo := Fin.ofNat 8 (u8 c.desc 8)
    if (s.slot v k).kind != .ff3Gcm then endSt v c .badOpcode s
    else if (s.seqOf v k).epoch = lastEpoch then endSt v c .keyExhausted s
    else
      let e := (s.seqOf v k).epoch + 1
      let s := setEpoch v k e s
      let using_ := slotStreams s v k
      let s := using_.foldl (fun s x => s.modStream x.sid (fun x => { x with rekeyAt := some e })) s
      let s := if using_.isEmpty then s.modSlot v k (fun q => { q with allotted := some e }) else s
      endOk v c 0 0 e s

def execSlotRekey (v : Inst) (cid : Cid) (s : State) : Out := next (instCmd v cid 0x31 (slotRekey v) s)

/-! ### GET_STATS, NOP, unknown opcodes (R268, R271, R272) -/

/-- The 64-byte statistics block (R271). -/
def Stats.bytes (t : Stats) : Bytes :=
  leBytes 8 t.consumed ++ leBytes 8 t.sealed ++ leBytes 8 t.records ++ leBytes 8 t.marks ++ leBytes 8 t.delivered
    ++ leBytes 8 t.deliveredBytes ++ leBytes 8 t.commands ++ leBytes 8 t.failed

/-- GET_STATS. -/
def getStats (v : Inst) (c : Cmd) (s : State) : State :=
  if !reservedZero c.desc [(8, 8)] || c.target != 0xFFFF then endSt v c .badParam s
  else if !aligned64 (u64 c.desc 8) then endSt v c .align s
  else endOk v c 0 0 0 (hostWrite (s.space (some v)) (u64 c.desc 8) (s.inst v).stats.bytes s)

def execGetStats (v : Inst) (cid : Cid) (s : State) : Out := next (instCmd v cid 0x40 (getStats v) s)

/-- NOP. -/
def nop (v : Inst) (c : Cmd) (s : State) : State :=
  if !reservedZero c.desc [] || c.target != 0xFFFF then endSt v c .badParam s else endOk v c 0 0 0 s

def execNop (v : Inst) (cid : Cid) (s : State) : Out := next (instCmd v cid 0x41 (nop v) s)

/-- The opcodes of an instance ring (R268) and of the management ring (R272). -/
def instOpcodes : List Nat := [0x01, 0x02, 0x10, 0x11, 0x12, 0x13, 0x20, 0x21, 0x22, 0x23, 0x30, 0x31, 0x40, 0x41]
def mgmtOpcodes : List Nat :=
  [0x80, 0x81, 0x82, 0x83, 0x84, 0x85, 0x86, 0x87, 0x90, 0x91, 0xA0, 0xA1, 0xA2, 0xB0, 0xB1, 0xC0, 0xC1, 0xC2, 0xD0, 0xD1, 0xD2]

/-- A command whose opcode its ring does not list ends with BAD_OPCODE (R268, R272). -/
def invalidOpcode (ring : RingId) (cid : Cid) (s : State) : State :=
  match ring with
  | none =>
    match (s.ring none).cmds.find? (fun c => c.cid == cid.toNat && c.phase == .waiting) with
    | some c =>
      if s.glb.mode.served && !mgmtOpcodes.contains c.opcode then
        completeSt none c.uid (if s.glb.mode = .pewter then .notReady else .badOpcode) s
      else s
    | none => s
  | some v =>
    match findStartable cid.toNat [] (s.ring (some v)).cmds with
    | some c => if stateTakes s v c && s.glb.mode.served && !instOpcodes.contains c.opcode then endSt v c .badOpcode s else s
    | none => s

def execInvalidOpcode (ring : Option Inst) (cid : Cid) (s : State) : Out := next (invalidOpcode ring cid s)

/-! ### The pending copy (R107) -/

def execPendingCopyApply (v : Inst) (k : SlotNo) (s : State) : Out := next (applyIfIdle v k s)

end Sys2Proof.Machine
end

