-- ==== Sys2Proof/Machine/Rings.lean ====
section
/-! DEFINITION. Sys2Proof/Machine/Rings.lean: doorbells, descriptor fetch, interrupts, the management pair and the event ring
(R256 to R263, R277 to R279, R287, R290, R374 to R376). -/

namespace Sys2Proof.Machine

/-! ### Ring faults (R258, R287) -/

/-- HIF_ERR takes the last ring error. -/
def setHifErr (kind : Nat) (r : RingId) (s : State) : State :=
  { s with hif.errKind := kind, hif.errInst := (match r with | some v => v.val | none => 0), hif.errMgmt := r.isNone }

/-- HIF_ERR bits [9:0]. -/
def hifErrBits (s : State) : Nat := s.hif.errKind + 8 * s.hif.errInst + 512 * bit s.hif.errMgmt

/-- Instance number of a ring as event records have it. -/
def ringInst : RingId → Nat
  | some v => v.val
  | none => noInst

/-- A ring stops (R258); an ACTIVE, PAUSED or QUIESCING instance is FAULTED (R287). -/
def stopRing (r : RingId) (kind : Nat) (s : State) : State :=
  let s := setHifErr kind r (s.modRing r (fun q => { q with stopped := true, err := kind }))
  let s := raiseEv .hifRingFault 0x2 noRes (ringInst r) (leBytes 2 (hifErrBits s)) s
  match r with
  | none => s
  | some v =>
    match (s.inst v).state with
    | .active | .paused | .quiescing => setInstState v .faulted s
    | _ => s

/-! ### Doorbells (R256, R260, R262, R278, R287) -/

/-- A ring that doorbells reach: that of an instance not UNASSIGNED, or the management ring. -/
def doorbellOpen (s : State) (r : RingId) : Bool :=
  s.glb.mode.served && (match r with | none => true | some v => (s.inst v).state != .unassigned)

/-- A doorbell value out of range (R260, R262): queue error with kind doorbell, and its event. -/
def badDoorbell (r : RingId) (value : Word) (s : State) : State :=
  raiseEv .hifDoorbell 0x2 noRes (ringInst r) (leBytes 4 value.toNat)
    (setHifErr 1 r (s.modRing r (fun q => { q with err := 1 })))

/-- Descriptors ready and not fetched. -/
def Ring.ready (q : Ring) : Nat := (q.sqTail + 2 ^ q.sqLog - q.sqHead) % 2 ^ q.sqLog

/-- The instance turns PAUSED: everything submitted so far lies before the pause point (R290). -/
def pauseInst (v : Inst) (s : State) : State :=
  setInstState v .paused (s.modRing (some v) (fun q =>
    { q with earlyLeft := q.ready, cmds := q.cmds.map (fun c => { c with early := true }) }))

/-- ACTIVE or PAUSED, as the share in effect says. -/
def runInst (v : Inst) (s : State) : State :=
  if (s.inst v).share = 0 then pauseInst v s else setInstState v .active s

/-- The parked entry is fetched again (R278, R410): eoc still 1 leaves the chain parked; otherwise the continuation is read,
at most 256 entries, and checked whole. -/
def refetchParked (v : Inst) (s : State) (c : Cmd) : State :=
  if c.phase != .parked then s
  else
    let e := SgEntry.ofBytes (hostRead s (s.space (some v)) (c.job.nextAddr - 16) 16)
    if e.eoc then s
    else loadSegment v c.uid 256 c.job.nextAddr (s.modCmd (some v) c.uid (fun c => { c with phase := .running }))

/-- What the host stored before it rang (R260, R278). -/
def hostStores (l : List HostStore) (s : State) : State := l.foldl (fun s w => hostWrite w.space w.addr w.bytes s) s

/-- The modes before event 6 of R331: doorbells written then are acted on at that event. -/
def Mode.starting : Mode → Bool
  | .reset | .attest | .assemble => true
  | _ => false

/-- Keeps a doorbell written too early. -/
def keepDoorbell (r : RingId) (head : Bool) (value : Word) (s : State) : State := { s with hif.early := s.hif.early ++ [(r, head, value)] }

/-- HIF_DB_SQ_TAIL. -/
def sqDoorbell (r : RingId) (value : Word) (s : State) : State :=
  if !doorbellOpen s r then s
  else
    let tail := fld value 0 12
    if 2 ^ (s.ring r).sqLog ≤ tail then badDoorbell r value s
    else
      let s := s.modRing r (fun q => { q with sqTail := tail })
      match r with
      | none => s
      | some v =>
        let s := if (s.inst v).state = .configured then runInst v s else s
        if (s.ring r).stopped then s else (s.ring r).cmds.foldl (refetchParked v) s

def execHifDbSqTail (page : Option Inst) (value : Word) (stores : List HostStore) (s : State) : Out :=
  next (if s.glb.mode.starting then keepDoorbell page false value (hostStores stores s) else sqDoorbell page value (hostStores stores s))

/-- HIF_DB_CQ_HEAD. -/
def cqDoorbell (r : RingId) (value : Word) (s : State) : State :=
  if !doorbellOpen s r then s
  else
    let head := fld value 0 12
    if 2 ^ (s.ring r).cqLog ≤ head then badDoorbell r value s
    else s.modRing r (fun q => { q with cqHead := head })

def execHifDbCqHead (page : Option Inst) (value : Word) (s : State) : Out :=
  next (if s.glb.mode.starting then keepDoorbell page true value s else cqDoorbell page value s)

/-! ### Descriptor fetch (R261, R279, R285, R290) -/

/-- Completions written and not yet consumed. -/
def Ring.unread (q : Ring) : Nat := (q.cqTail + 2 ^ q.cqLog - q.cqHead) % 2 ^ q.cqLog

/-- Whether a further completion has room for certain (R261). -/
def Ring.room (q : Ring) : Bool := decide (q.cmds.countP (fun c => !c.mute) + q.unread < 2 ^ q.cqLog - 1)

/-- Whether the device fetches from a ring (R258, R285). -/
def fetches (s : State) (r : RingId) : Bool :=
  s.glb.mode.served && !(s.ring r).stopped && (s.ring r).ready != 0 && (s.ring r).room
    && (match r with
        | none => s.hif.mqEn
        | some v => (s.inst v).state == .active || (s.inst v).state == .paused)

/-- A parked STREAM_APPEND completes when a later command of its stream has been fetched (R279). -/
def endParked (r : RingId) (target : Nat) (s : State) : State :=
  match r with
  | none => s
  | some v => (s.ring r).cmds.foldl (fun s c =>
      if c.phase == .parked && c.target == target then completeWrite v c .ok noEntry s else s) s

/-- DESCRIPTOR_FETCH: one descriptor in ring order. -/
def fetchDescriptor (r : RingId) (s : State) : State :=
  if !fetches s r then s
  else
    let q := s.ring r
    let paused := match r with | some v => (s.inst v).state == .paused | none => false
    let c : Cmd := { uid := s.nextId, desc := hostRead s (s.space r) (q.sqBase + 64 * q.sqHead) 64
                     early := !paused || q.earlyLeft != 0 }
    let s := { s.modRing r (fun q => { q with sqHead := (q.sqHead + 1) % 2 ^ q.sqLog, earlyLeft := q.earlyLeft - 1 }) with
               nextId := s.nextId + 1 }
    let s := endParked r c.target (useAts r (q.sqBase + 64 * q.sqHead) s)
    s.modRing r (fun q => { q with cmds := q.cmds ++ [c] })

def execDescriptorFetch (ring : Option Inst) (s : State) : Out := next (fetchDescriptor ring s)

/-! ### Interrupts and the link (R257, R263) -/

/-- irq_usec has passed since the oldest unsignalled completion (R263). -/
def irqTimer (r : RingId) (s : State) : State :=
  if (s.ring r).unsignalled = 0 || (s.ring r).irqUsec = 0 then s else signalRing r s

def execIrqTimerExpiry (ring : Option Inst) (s : State) : Out := next (irqTimer ring s)

/-- The link is in L0: HIF_LINK reports it and pending messages go out (R255, R257). No link comes up while PERST# is
asserted or the interface has no power. -/
def linkUp (speed width : Nat) (s : State) : State :=
  flushMsix { s with hif.linkSpeed := speed % 16, hif.linkWidth := width % 64, hif.linkL0 := true, glb.training := false }

def execPcieLinkUp (speed width : Nat) (s : State) : Out :=
  next (if s.glb.perst || s.glb.mode == .off || s.glb.mode == .quench then s else linkUp speed width s)

/-- The host unmasks vector `x`: its pending message goes out (R257). -/
def unmask (x : Fin 130) (s : State) : State :=
  flushMsix { s with msix.table := vmod s.msix.table x (fun e => { e with masked := false }) }

def execMsixUnmask (x : Fin 130) (s : State) : Out := next (unmask x s)

/-- An ATS invalidation of a page, for one PASID or for all: cached translations of it are dropped (R255). -/
def atsInvalidate (pasid : Option Nat) (page : Nat) (s : State) : State :=
  { s with insts := s.insts.map (fun i =>
      if (match pasid with | none => true | some p => i.cfg.pasid == p) then { i with atc := i.atc.filter (fun q => q != page) } else i) }

def execAtsInvalidation (pasid : Option Nat) (page : Nat) (s : State) : Out := next (atsInvalidate pasid page s)

/-! ### The management pair (R258, R259, HIF_CTRL) -/

/-- A ring size field: values outside 4 to 12 act as 4 (HIF_MQ_CFG). -/
def ringLog (n : Nat) : Nat := if 4 ≤ n ∧ n ≤ 12 then n else 4

/-- Setting mq_en starts the pair at head 0, completion tail 0 and phase 1; a stopped pair runs again (R258). Commands of
the pair as it ran before carry on without completions. -/
def mqStart (s : State) : State :=
  if s.hif.mqEn then s
  else
    { s with hif := { s.hif with
        mqEn := true
        mq := { sqBase := s.hif.mqSq, cqBase := s.hif.mqCq, sqLog := ringLog (fld s.hif.mqCfg 0 4)
                cqLog := ringLog (fld s.hif.mqCfg 4 4), irqCount := fld s.hif.mqCfg 8 8, irqUsec := fld s.hif.mqCfg 16 16
                cmds := s.hif.mq.cmds } } }

def execMqEnable (s : State) : Out := next (if s.glb.mode.served then mqStart s else s)

/-- Clearing mq_en stops the pair: unfetched descriptors are discarded, and commands already fetched run to their effect
but write no completion. -/
def mqStop (s : State) : State :=
  if !s.hif.mqEn then s
  else
    { s with hif := { s.hif with
        mqEn := false
        mq := { s.hif.mq with sqTail := s.hif.mq.sqHead, cmds := s.hif.mq.cmds.map (fun c => { c with mute := true }) } } }

def execMqDisable (s : State) : Out := next (if s.glb.mode.served then mqStop s else s)

/-! ### The event ring (R374 to R376) -/

/-- Log of the event ring's size: values outside 6 to 14 act as 6 (EVT_RING_CFG). -/
def evtLog (u : Evt) : Nat := let n := fld u.ringCfg 0 4; if 6 ≤ n ∧ n ≤ 14 then n else 6

/-- Setting ring_en starts the ring at tail 0, phase 1 and EVT_RING_HEAD 0 (R375). -/
def evtStart (s : State) : State :=
  if s.evt.ringEn then s else { s with evt := { s.evt with ringEn := true, head := 0, tail := 0, phase := true, stopped := false } }

def execEventRingEnable (s : State) : Out := next (if s.glb.mode.served then evtStart s else s)

/-- Clearing ring_en: records wait in the FIFO. -/
def evtStop (s : State) : State := { s with evt.ringEn := false }

def execEventRingDisable (s : State) : Out := next (if s.glb.mode.served then evtStop s else s)

/-- EVT_RING_HEAD: values of 2^k or more are ignored. -/
def evtHead (value : Word) (s : State) : State :=
  let head := fld value 0 14
  if 2 ^ evtLog s.evt ≤ head then s else { s with evt.head := head }

def execEvtRingHeadWrite (value : Word) (s : State) : Out := next (if s.glb.mode.served then evtHead value s else s)

/-- EVT_CTRL.lock (R385). -/
def evtSetLock (s : State) : State := { s with evt.lock := true }

def execEvtLock (s : State) : Out := next (if s.glb.mode.served then evtSetLock s else s)

/-- The 32 bytes of an event record (R372). -/
def EvRec.bytes (phase : Bool) (r : EvRec) : Bytes :=
  leBytes 8 r.time ++ leBytes 2 r.code ++ leBytes 1 r.cls ++ leBytes 1 r.source ++ leBytes 2 r.resource ++ leBytes 1 r.inst
    ++ leBytes 1 (bit phase) ++ leBytes 2 r.rep ++ zeros 2 ++ padTo 12 r.detail

/-- The ring is full when the slot after the tail is the head (R375). -/
def evtFull (u : Evt) : Bool := (u.tail + 1) % 2 ^ evtLog u == u.head

/-- Whether the unit writes a record now. -/
def evtWrites (s : State) : Bool := s.evt.ringEn && !s.evt.stopped && !evtFull s.evt && s.glb.mode != .off

/-- Vector 1 fires for a record written, when none has fired for irq_usec; otherwise the timer is awaited (R375). -/
def evtSignal (s : State) : State :=
  let usec := fld s.evt.ringCfg 16 16
  let due := match s.evt.lastIrq with | none => true | some t => decide (t + usec * 1000 ≤ s.glb.time)
  if due then fireMsix 1 { s with evt.irqDue := false, evt.lastIrq := some s.glb.time } else { s with evt.irqDue := true }

/-- EVENT_RECORD_WRITE: the oldest record goes to the ring; then losses settle (R376). -/
def writeRecord (s : State) : State :=
  if !evtWrites s then s
  else match s.evt.fifo with
    | [] => s
    | r :: rest =>
      let u := s.evt
      let s := hostWrite 0 (u.ringBase + 32 * u.tail) (r.bytes u.phase) s
      let wrap := u.tail + 1 == 2 ^ evtLog u
      let u' : Evt := { u with fifo := rest, tail := if wrap then 0 else u.tail + 1, phase := if wrap then !u.phase else u.phase }
      evtSignal { s with evt := settleLoss s.glb.time u' }

def execEventRecordWrite (s : State) : Out := next (writeRecord s)

/-- EVENT_IRQ_TIMER: irq_usec has passed since vector 1 last fired. -/
def evtTimer (s : State) : State :=
  if s.evt.irqDue then fireMsix 1 { s with evt.irqDue := false, evt.lastIrq := some s.glb.time } else s

def execEventIrqTimer (s : State) : Out := next (evtTimer s)

/-- The write of an event record meets a fault (R375): the ring stops and the record stays at the head. -/
def evtFault (s : State) : State :=
  if !evtWrites s || s.evt.fifo.isEmpty then s
  else
    let s := setHifErr 4 none { s with evt.stopped := true }
    raiseEv .hifRingFault 0x2 noRes noInst (leBytes 2 (hifErrBits s)) s

/-! ### Leaks (R367) -/

/-- Kind of resource `i` of the retirement map. -/
def kindOf (i : Nat) : Nat := if i < 128 then 0 else if i < 256 then 1 else if i < 272 then 2 else if i < 280 then 3
  else if i < 284 then 4 else if i < 292 then 5 else if i < 300 then 6 else 7

/-- LEAK_PERIOD: the bucket falls by one; a further period runs while it is not 0. -/
def leak (i : Fin 304) (s : State) : State :=
  let b := s.evt.buckets[i]
  if b.level = 0 || b.leakAt.isNone then s
  else
    let period := max 1 (fld s.evt.strikeCfg[Fin.ofNat 8 (kindOf i.val)] 16 16) * 1000000000
    let b := { b with level := b.level - 1, leakAt := if b.level = 1 then none else some ((b.leakAt.getD 0) + period) }
    { s with evt.buckets := vset s.evt.buckets i b }

def execLeakPeriod (i : Fin 304) (s : State) : Out := next (leak i s)

end Sys2Proof.Machine
end

