-- ==== Sys2Proof/Machine/Manager.lean ====
section
/-! DEFINITION. Sys2Proof/Machine/Manager.lean: instances and their roots as the management ring commands them (R95, R96,
R107, R108, R273, R282 to R298). -/

namespace Sys2Proof.Machine

/-! ### Management commands -/

/-- Completes a management command with a status and results 0. -/
def mEnd (c : Cmd) (st : Status) (s : State) : State := completeSt none c.uid st s

/-- Completes a management command OK with results. -/
def mOk (c : Cmd) (r0 r1 r2 : Nat) (s : State) : State := complete none c.uid { status := .ok, r0 := r0, r1 := r1, r2 := r2 } s

/-- The management opcodes that PEWTER serves (R380): LOG_READ and BUFFER_FILL_STATUS. -/
def pewterServes (op : Nat) : Bool := op == 0xC0 || op == 0xD2

/-- Runs a management command when it may start; in PEWTER one that is not served ends with NOT_READY (R380). -/
def mgmtCmd (cid : Cid) (op : Nat) (f : Cmd → State → State) (s : State) : State :=
  match startableMgmt s cid op with
  | none => s
  | some c => if s.glb.mode = .pewter && !pewterServes op then mEnd c .notReady s else f c s

/-- Runs a row that is one sub-operation `n` of its opcode: the first row of an opcode also answers sub-operations that
the opcode does not have, with BAD_PARAM. -/
def subCmd (cid : Cid) (op n last : Nat) (f : Cmd → State → State) (s : State) : State :=
  mgmtCmd cid op (fun c s =>
    let sub := u8 c.desc 8
    if sub = n then f c s else if n = 0 && last < sub then mEnd c .badParam s else s) s

/-- The instance that a management command names; BAD_PARAM when it names none. -/
def withTarget (c : Cmd) (f : Inst → State → State) (s : State) : State :=
  if c.target < 64 then f (Fin.ofNat 64 c.target) s else mEnd c .badParam s

/-- A command that names no instance. -/
def noTarget (c : Cmd) : Bool := c.target == 0xFFFF

/-! ### Configuration (R282, R283) -/

/-- Parameter bytes 8 to 55 of INSTANCE_CREATE, read. -/
structure CreateParams where
  pasid : Nat
  flags : Nat
  sqLog : Nat
  cqLog : Nat
  maxStreams : Nat
  sqBase : Nat
  cqBase : Nat
  irqCount : Nat
  share : Nat
  irqUsec : Nat
  quota : Nat
  partMask : Nat
  tagLo : Nat
  tagHi : Nat
  rtagLo : Nat
  rtagHi : Nat
  deriving DecidableEq, Repr

/-- The fields of 48 configuration bytes (R282). -/
def createParams (b : Bytes) : CreateParams :=
  { pasid := u32 b 0 % 2 ^ 20, flags := u8 b 4, sqLog := u8 b 5, cqLog := u8 b 6, maxStreams := u8 b 7
    sqBase := u64 b 8, cqBase := u64 b 16, irqCount := u8 b 24, share := u8 b 25, irqUsec := u16 b 26
    quota := u32 b 28 % 2 ^ 24, partMask := u16 b 32, tagLo := u16 b 34, tagHi := u16 b 36, rtagLo := u16 b 38, rtagHi := u16 b 40 }

/-- The 48 configuration bytes of an instance as they now stand (R296). -/
def cfgBytes (s : State) (v : Inst) : Bytes :=
  let i := s.inst v
  leBytes 4 i.cfg.pasid ++ leBytes 1 (bit i.cfg.plaintextOk + 2 * bit i.cfg.ats) ++ leBytes 1 i.ring.sqLog
    ++ leBytes 1 i.ring.cqLog ++ leBytes 1 i.cfg.maxStreams ++ leBytes 8 i.ring.sqBase ++ leBytes 8 i.ring.cqBase
    ++ leBytes 1 i.ring.irqCount ++ leBytes 1 i.share ++ leBytes 2 i.ring.irqUsec ++ leBytes 4 s.pans.quota[v]
    ++ leBytes 2 i.cfg.partMask ++ leBytes 2 i.cfg.tagLo ++ leBytes 2 i.cfg.tagHi ++ leBytes 2 i.cfg.rtagLo
    ++ leBytes 2 i.cfg.rtagHi ++ zeros 6

/-- Whether an instance other than `v` that is not UNASSIGNED satisfies `p`. -/
def otherInst (s : State) (v : Inst) (p : InstSt → Bool) : Bool :=
  allInsts.any (fun w => w != v && (s.inst w).state != .unassigned && p (s.inst w))

/-- A tag range that is in order and holds neither 0x0000 nor 0xFFFF. -/
def rangeOk (lo hi : Nat) : Bool := decide (1 ≤ lo) && decide (lo ≤ hi) && decide (hi ≤ 0xFFFE)

/-- Whether a configuration breaks R283 for instance `v`, its own state apart. -/
def cfgBroken (s : State) (v : Inst) (p : CreateParams) : Bool :=
  !(decide (4 ≤ p.sqLog) && decide (p.sqLog ≤ 12) && decide (4 ≤ p.cqLog) && decide (p.cqLog ≤ 12))
    || !(decide (1 ≤ p.maxStreams) && decide (p.maxStreams ≤ 16))
    || p.sqBase % 4096 != 0 || p.cqBase % 4096 != 0
    || otherInst s v (fun i => i.cfg.pasid == p.pasid)
    || !rangeOk p.tagLo p.tagHi || !rangeOk p.rtagLo p.rtagHi
    || otherInst s v (fun i => decide (i.cfg.tagLo ≤ p.tagHi) && decide (p.tagLo ≤ i.cfg.tagHi))

/-- Sets the quota of an instance; it acts at once (R238). -/
def setQuota (v : Inst) (q : Nat) (s : State) : State := settleGrants <| serveWaiting { s with pans.quota := vset s.pans.quota v q }

/-- A configuration put in force: registers, quota, rings at head 0, tail 0 and phase 1, slots EMPTY, statistics zero, no
credit (R284). An UNASSIGNED instance has no quota, so the new one makes room for no request that waits. -/
def applyCfg (v : Inst) (p : CreateParams) (s : State) : State :=
  let s := s.modInst v (fun i =>
    { state := i.state, seq := i.seq
      cfg := { pasid := p.pasid, plaintextOk := p.flags.testBit 0, ats := p.flags.testBit 1, maxStreams := p.maxStreams
               partMask := p.partMask, tagLo := p.tagLo, tagHi := p.tagHi, rtagLo := p.rtagLo, rtagHi := p.rtagHi }
      ring := { sqBase := p.sqBase, cqBase := p.cqBase, sqLog := p.sqLog, cqLog := p.cqLog, irqCount := p.irqCount, irqUsec := p.irqUsec }
      share := p.share, shareNext := p.share
      slots := i.slots.map (fun q => { ({} : KeySlot) with generation := q.generation }) })
  { s with pans.quota := vset s.pans.quota v p.quota }

/-- A new ECDH key pair (R95). -/
def newEcdh (v : Inst) (s : State) : State :=
  drawn 48 (s.modInst v (fun i => { i with ecdh := some (Ecc.privOf (draw s 48)) }))

/-- INSTANCE_CREATE (R282 to R284); NOT_READY in SERVICE (R363). -/
def instanceCreate (c : Cmd) (s : State) : State :=
  withTarget c (fun v s =>
    let b := slice c.desc 8 48
    let p := createParams b
    match firstFault
      [ (!reservedZero c.desc [(8, 42)] || !decide (u32 b 0 < 2 ^ 20) || !decide (p.flags < 4) || !decide (u32 b 28 < 2 ^ 24), .badParam)
      , (!(aligned64 p.sqBase && aligned64 p.cqBase), .align)
      , (s.glb.mode == .service, .notReady)
      , ((s.inst v).state != .unassigned || cfgBroken s v p, .badParam) ] with
    | some st => mEnd c st s
    | none => mOk c 0 0 1 (setInstState v .configured (newEcdh v (applyCfg v p s)))) s

def execInstanceCreate (cid : Cid) (s : State) : Out := next (mgmtCmd cid 0x80 instanceCreate s)

/-! ### Shares (R289) -/

/-- The share in effect becomes `n`: an ACTIVE instance of share 0 turns PAUSED, a PAUSED one of another share ACTIVE. -/
def putShare (v : Inst) (n : Nat) (s : State) : State :=
  let s := s.modInst v (fun i => { i with share := n })
  match (s.inst v).state with
  | .active => if n = 0 then pauseInst v s else s
  | .paused => if n = 0 then s else setInstState v .active s
  | _ => s

/-! ### Quiesce (R292) -/

/-- Closes the open dataset of every stream that satisfies `p`. -/
def closeAll (p : DsBuf → Bool) (s : State) : State := (s.fmt.asm.filter p).foldl (fun s d => closeDs d.id s) s

/-- The streams of an instance that read the tape or decrypt. -/
def readStreams (s : State) (v : Inst) : List Stream := s.streams.filter (fun x => x.v == v && !x.ended && x.dir == .read)

/-- Blocks of an instance being read. -/
def readBlocks (s : State) (v : Inst) : List RBlk :=
  s.rtv.blks.filter (fun b => match s.stream? b.sid with | some x => x.v == v | none => false)

/-- Commands held by a quiesce: fetched, not completed, and not waiting only on commit. -/
def heldCount (s : State) (v : Inst) : Nat := (s.ring (some v)).cmds.countP (fun c => !c.onCommit)

/-- The quiesce begins. -/
def beginQuiesce (v : Inst) (s : State) : State :=
  let gone := (readBlocks s v).length
  let s := setInstState v .quiescing (s.modInst v (fun i => { i with qscFinished := 0, qscDiscarded := gone, qscHeld := 0 }))
  let s := (s.streams.filter (fun x => x.v == v && x.appending)).foldl (fun s x =>
    (closeEarly x.sid 0 s).2) s
  let s := (readStreams s v).foldl (fun s x => rewindRead x.sid s) s
  dispatch (closeAll (fun d => d.v == some v) s)

/-- Completes the INSTANCE_QUIESCE commands of an instance with its counts. -/
def endQuiesce (v : Inst) (s : State) : State :=
  let s := s.modInst v (fun i => { i with qscHeld := heldCount s v })
  let i := s.inst v
  (s.ring none).cmds.foldl (fun s c =>
    if c.phase == .quiesceWait && c.target == v.val then mOk c i.qscFinished i.qscDiscarded i.qscHeld s else s) s

/-- INSTANCE_QUIESCE. -/
def instanceQuiesce (c : Cmd) (s : State) : State :=
  withTarget c (fun v s =>
    if !reservedZero c.desc [] then mEnd c .badParam s
    else match (s.inst v).state with
    | .unassigned | .configured => mEnd c .notReady s
    | .quiesced | .frozen => mOk c 0 0 0 s
    | .quiescing => s.modCmd none c.uid (fun c => { c with phase := .quiesceWait })
    | _ => beginQuiesce v (s.modCmd none c.uid (fun c => { c with phase := .quiesceWait }))) s

def execInstanceQuiesce (cid : Cid) (s : State) : Out := next (mgmtCmd cid 0x82 instanceQuiesce s)

/-- Whether no block of an instance is in a slice, a cipher engine or a mover burst; a block that is being re-sent is (R22). -/
def drainedInst (s : State) (v : Inst) : Bool :=
  !s.blks.any (fun b => b.v == v && (b.place.unsealed || b.moveTries != {} || b.moved != 0)) && (readBlocks s v).isEmpty

/-- QUIESCE_COMPLETE. -/
def quiesceComplete (v : Inst) (s : State) : State :=
  if (s.inst v).state = .quiescing && drainedInst s v then setInstState v .quiesced (endQuiesce v s) else s

def execQuiesceComplete (v : Inst) (s : State) : Out := next (quiesceComplete v s)

/-! ### Reset and destroy (R293, R294) -/

/-- ABORTED_RESET for each held command, in ring order, results 0. -/
def abortHeld (v : Inst) (st : Status) (s : State) : State :=
  (s.ring (some v)).cmds.foldl (fun s c => if c.onCommit then s else completeSt (some v) c.uid st s) s

/-- Erases all slots of an instance. -/
def eraseSlots (v : Inst) (s : State) : State := allSlots.foldl (fun s k => eraseSlot v k s) s

/-- A ring pair at head 0, tail 0 and phase 1. -/
def Ring.rewound (q : Ring) : Ring :=
  { q with sqHead := 0, sqTail := 0, cqHead := 0, cqTail := 0, phase := true, stopped := false, unsignalled := 0, earlyLeft := 0 }

/-- The states in which reset and destroy are accepted. -/
def InstState.settled : InstState → Bool
  | .configured | .quiesced | .frozen => true
  | _ => false

/-- INSTANCE_RESET. -/
def instanceReset (c : Cmd) (s : State) : State :=
  withTarget c (fun v s =>
    if !reservedZero c.desc [] then mEnd c .badParam s
    else if (s.inst v).state = .unassigned then mEnd c .notReady s
    else if !(s.inst v).state.settled then mEnd c .notQuiesced s
    else
      let s := eraseSlots v (endAll v (abortHeld v .abortedReset s))
      let s := s.modInst v (fun i => { i with ring := i.ring.rewound, saved := false })
      mOk c 0 0 0 (setInstState v .configured s)) s

def execInstanceReset (cid : Cid) (s : State) : Out := next (mgmtCmd cid 0x83 instanceReset s)

/-- INSTANCE_DESTROY: the slots keep only their generations; the quota goes back to its reset value. -/
def instanceDestroy (c : Cmd) (s : State) : State :=
  withTarget c (fun v s =>
    if !reservedZero c.desc [] then mEnd c .badParam s
    else if (s.inst v).state = .unassigned then mEnd c .notReady s
    else if !(s.inst v).state.settled then mEnd c .notQuiesced s
    else
      let s := eraseSlots v (endAll v (abortHeld v .abortedReset s))
      let s := s.modInst v (fun i => { state := i.state, seq := i.seq, slots := i.slots })
      mOk c 0 0 0 (setInstState v .unassigned (setQuota v 0xFFFFFF s))) s

def execInstanceDestroy (cid : Cid) (s : State) : Out := next (mgmtCmd cid 0x87 instanceDestroy s)

/-! ### Freeze (R295) -/

/-- Ends the held and running commands of a frozen instance; a SYNC or CLOSE_STREAM that waits only on commit ends with
them when a block it covers was ended. Append commands report the bytes up to the last sealed block. -/
def freezeCmds (v : Inst) (lost : List (Nat × Nat)) (s : State) : State :=
  (s.ring (some v)).cmds.foldl (fun s c =>
    let spared := match c.phase with
      | .commitWait sid pos => !lost.any (fun b => b.1 == sid && decide (b.2 < pos))
      | _ => false
    if spared then s
    else if c.isWrite && c.begun then
      complete (some v) c.uid { status := .abortedFreeze, r0 := c.job.sealedTo, r1 := c.job.ended } s
    else if c.opcode == 0x20 && c.begun then
      complete (some v) c.uid { status := .abortedFreeze, r0 := c.job.delivered, r1 := c.job.written } s
    else completeSt (some v) c.uid .abortedFreeze s) s

/-- The freeze itself. -/
def freezeInst (v : Inst) (s : State) : State :=
  let s := if (s.inst v).state = .quiescing then endQuiesce v s else s
  let isLost (b : Blk) : Bool := b.v == v && b.place.unsealed
  let lost := (s.blks.filter isLost).map (fun b => (b.sid, b.pos))
  let cut := !lost.isEmpty || s.streams.any (fun x => x.v == v && x.appending && (x.fr.inRecord || !x.fr.buf.isEmpty))
  let s := discardBlocks isLost s
  let s := (readStreams s v).foldl (fun s x => rewindRead x.sid s) s
  let s := endAll v (freezeCmds v lost s)
  let s := wipeKeys (fun x => x.1 == v.val) s
  let s := setInstState v .frozen (s.modInst v (fun i => { i with cutAtFreeze := cut, saved := false }))
  settleWaits (dispatch (allSlots.foldl (fun s k => applyPending v k s) s))

/-- INSTANCE_FREEZE. -/
def instanceFreeze (c : Cmd) (s : State) : State :=
  withTarget c (fun v s =>
    if !reservedZero c.desc [] then mEnd c .badParam s
    else match (s.inst v).state with
    | .unassigned | .configured | .frozen => mEnd c .notReady s
    | _ => mOk c 0 0 0 (freezeInst v s)) s

def execInstanceFreeze (cid : Cid) (s : State) : Out := next (mgmtCmd cid 0x84 instanceFreeze s)

/-! ### Save and restore (R296 to R298) -/

/-- The blob root (R296). -/
def blobRoot : Bytes := (List.finRange 32).map Config.blobRoot

/-- The context of the blob keys. -/
def blobContext (nonce bootId : Bytes) : Bytes := padTo 16 nonce ++ padTo 8 bootId ++ zeros 8

/-- A blob key by its label. -/
def blobKey (label : String) (nonce bootId : Bytes) : Bytes := Aes.kdf blobRoot label (blobContext nonce bootId)

/-- The 16 bytes of a slot's record in a blob. -/
def slotRecord (q : KeySlot) (r : SlotSeq) : Bytes :=
  leBytes 1 q.kind.code ++ leBytes 1 (bit q.autoRekey) ++ leBytes 1 q.limitLog2 ++ leBytes 1 q.generation
    ++ leBytes 4 r.epoch ++ leBytes 8 r.frontier

/-- The body of a blob before encryption: a wrapping for each slot that holds a root. -/
def blobWraps (s : State) (v : Inst) (kw : Bytes) : Bytes :=
  allSlots.flatMap (fun k => let q := s.slot v k; if q.kind = .empty then zeros 40 else padTo 40 (Aes.kwWrap kw q.root))

/-- The 1,024 bytes of a save blob. -/
def saveBlob (s : State) (v : Inst) (nonce : Bytes) : Bytes :=
  let i := s.inst v
  let id := s.glb.bootId
  let roots := allSlots.any (fun k => (s.slot v k).kind != .empty)
  let body := Aes.ctr (Aes.roundKeys (blobKey "FF3-BLBE" nonce id)) 16 nonce (blobWraps s v (blobKey "FF3-BLBW" nonce id))
  let b := leBytes 4 0xF3B10B5A ++ leBytes 2 1 ++ leBytes 2 1024 ++ deviceIdent ++ padTo 8 id ++ padTo 16 nonce
    ++ leBytes 1 v.val ++ leBytes 1 (bit roots + 2 * bit i.cutAtFreeze) ++ zeros 6 ++ leBytes 8 s.glb.time
    ++ cfgBytes s v ++ zeros 16 ++ allSlots.flatMap (fun k => slotRecord (s.slot v k) (s.seqOf v k))
    ++ i.stats.bytes ++ padTo 320 body ++ zeros 368
  b ++ Aes.cmac (blobKey "FF3-BLBM" nonce id) b

/-- INSTANCE_SAVE (R296). -/
def instanceSave (c : Cmd) (s : State) : State :=
  withTarget c (fun v s =>
    if !reservedZero c.desc [(16, 12)] then mEnd c .badParam s
    else if !aligned64 (u64 c.desc 16) then mEnd c .align s
    else if (s.inst v).state != .frozen then mEnd c .notReady s
    else if u32 c.desc 24 < 1024 then mEnd c .badLength s
    else
      let s := keyWork s
      let nonce := draw s 16
      let s := hostWrite 0 (u64 c.desc 16) (saveBlob s v nonce) (drawn 16 s)
      let all := s.sec.nonces ++ [(nonce, false)]
      let s := { s with sec.nonces := all.drop (all.length - 64) }
      mOk c 0 0 0 (s.modInst v (fun i => { i with saved := true }))) s

def execInstanceSave (cid : Cid) (s : State) : Out := next (mgmtCmd cid 0x85 instanceSave s)

/-- What a blob's slot record and root make of a slot. -/
def restoredSlot (rec_ : Bytes) (root : Option Bytes) : KeySlot :=
  match SlotKind.ofCode (u8 rec_ 0), root with
  | some .empty, _ => { generation := u8 rec_ 3 }
  | some k, some r => { kind := k, root := r, autoRekey := (rec_.getD 1 0).getLsbD 0, limitLog2 := u8 rec_ 2, generation := u8 rec_ 3 }
  | _, _ => { generation := u8 rec_ 3 }

/-- Whether the roots of a blob may be restored: its nonce is recorded and not yet restored. -/
def nonceOpen (s : State) (nonce : Bytes) : Bool := s.sec.nonces.any (fun x => x.1 == nonce && !x.2)

/-- The roots in a blob's body, slot by slot. -/
def blobRoots (b nonce id : Bytes) : List (Option Bytes) :=
  let body := Aes.ctr (Aes.roundKeys (blobKey "FF3-BLBE" nonce id)) 16 nonce (slice b 320 320)
  (List.range 8).map (fun k => Aes.kwUnwrap (blobKey "FF3-BLBW" nonce id) (slice body (40 * k) 40))

/-- The slots, sequence state and statistics of a blob put into instance `v` (R297 steps 3 and 4). DESIGN CHOICE (log entry 30): the
raised sequence state goes to the quench store at once, so that a later resume (R105) cannot fall below it (R101). -/
def restoreSlots (v : Inst) (b : Bytes) (roots : List (Option Bytes)) (s : State) : State :=
  let s := allSlots.foldl (fun s k =>
    let r := slice b (128 + 16 * k.val) 16
    let s := s.modSlot v k (fun _ => restoredSlot r (roots.getD k.val none))
    storeSlot (seqIx v k) { s with seqs := vmod s.seqs (seqIx v k) (fun q =>
        { frontier := max q.frontier (u64 r 8) + 2 ^ 20, epoch := min (max q.epoch (u32 r 4) + 1) lastEpoch }) }) s
  s.modInst v (fun i => { i with stats :=
    { consumed := u64 b 256, sealed := u64 b 264, records := u64 b 272, marks := u64 b 280, delivered := u64 b 288
      deliveredBytes := u64 b 296, commands := u64 b 304, failed := u64 b 312 } })

/-- INSTANCE_RESTORE (R297, R418); NOT_READY in SERVICE (R363). -/
def instanceRestore (c : Cmd) (s : State) : State :=
  withTarget c (fun v s =>
    let d := c.desc
    if !reservedZero d [(8, 4), (16, 24)] || !decide (u32 d 8 < 2 ^ 20) then mEnd c .badParam s
    else if !(aligned64 (u64 d 16) && aligned64 (u64 d 24) && aligned64 (u64 d 32)) then mEnd c .align s
    else if (s.inst v).state != .unassigned || s.glb.mode == .service then mEnd c .notReady s
    else
      let b := hostRead s 0 (u64 d 16) 1024
      let p := { createParams (slice b 64 48) with pasid := u32 d 8, sqBase := u64 d 24, cqBase := u64 d 32 }
      if u32 b 0 != 0xF3B10B5A || u16 b 4 != 1 || u16 b 6 != 1024 || cfgBroken s v p then mEnd c .badParam s
      else
        let nonce := slice b 32 16
        let id := slice b 24 8
        let open_ := nonceOpen s nonce
        if open_ && Aes.cmac (blobKey "FF3-BLBM" nonce id) (b.take 1008) != slice b 1008 16 then mEnd c .unwrapFail s
        else
          let roots := if open_ then blobRoots b nonce id else []
          let s := if open_ then keyWork s else s
          let s := if open_ then { s with sec.nonces := s.sec.nonces.map (fun x => if x.1 == nonce then (x.1, true) else x) } else s
          let s := newEcdh v (restoreSlots v b roots (applyCfg v p s))
          mOk c 0 0 (bit open_) (setInstState v .frozen s)) s

def execInstanceRestore (cid : Cid) (s : State) : Out := next (mgmtCmd cid 0x86 instanceRestore s)

/-! ### Roots (R95, R96, R107, R108, R273) -/

/-- ROOT_IMPORT GET_PUB: the public key and a signature of it with the instance number. -/
def rootGetPub (c : Cmd) (s : State) : State :=
  withTarget c (fun v s =>
    if !reservedZero c.desc [(8, 2), (16, 12)] then mEnd c .badParam s
    else if !aligned64 (u64 c.desc 16) then mEnd c .align s
    else match (s.inst v).ecdh, s.sec.aliasPriv with
    | some d, some a =>
      if u32 c.desc 24 < 193 then mEnd c .badLength s
      else
        let pub := Ecc.pub d
        mOk c 0 0 0 (hostWrite 0 (u64 c.desc 16) (pub ++ Ecc.sign a (pub ++ leBytes 1 v.val)) s)
    | _, _ => mEnd c .notReady s) s

def execRootImportGetPub (cid : Cid) (s : State) : Out := next (subCmd cid 0x90 0 1 rootGetPub s)

/-- The import key of an instance and a manager's public key (R95). -/
def importKey (d : Nat) (q : Nat × Nat) (manager : Bytes) : Bytes :=
  Aes.kdf ((Ecc.dh d q).take 32) "FF3-IMPT" ((Sha.sha384 (Ecc.pub d ++ manager)).take 32)

/-- The root that 137 bytes import (R96); none when the key or the check value fails. -/
def importedRoot (d : Nat) (b : Bytes) : Option Bytes :=
  match Ecc.decode (slice b 0 97) with
  | none => none
  | some q => Aes.kwUnwrap (importKey d q (slice b 0 97)) (slice b 97 40)

/-- A root enters a slot: at once when the slot is EMPTY, by the pending copy otherwise (R107). -/
def putRoot (c : Cmd) (v : Inst) (k : SlotNo) (root : Bytes) (s : State) : State :=
  if (s.slot v k).kind = .empty then
    let s := bumpGeneration v k (s.modSlot v k (fun q => { q with kind := .ff3Gcm, root := root }))
    mOk c 0 0 (s.slot v k).generation s
  else
    let s := mergeRewrite v k (fun p => { p with root := some root, waiters := p.waiters ++ [(none, c.uid)] }) s
    applyIfIdle v k (s.modCmd none c.uid (fun c => { c with phase := .rewriteWait k }))

/-- ROOT_IMPORT IMPORT (R96). -/
def rootImport (c : Cmd) (s : State) : State :=
  withTarget c (fun v s =>
    if !reservedZero c.desc [(8, 2), (16, 12)] || !decide (u8 c.desc 9 < 8) then mEnd c .badParam s
    else if !aligned64 (u64 c.desc 16) then mEnd c .align s
    else match (s.inst v).ecdh with
    | none => mEnd c .notReady s
    | some d =>
      if u32 c.desc 24 < 137 then mEnd c .badLength s
      else
        let s := keyWork s
        match importedRoot d (hostRead s 0 (u64 c.desc 16) 137) with
        | none => mEnd c .unwrapFail (raiseEv .keyUnwrap 0x8 noRes v.val (leBytes 1 (u8 c.desc 9)) s)
        | some r => putRoot c v (Fin.ofNat 8 (u8 c.desc 9)) r s) s

def execRootImportImport (cid : Cid) (s : State) : Out := next (subCmd cid 0x90 1 1 rootImport s)

/-- ROOT_ERASE (R108). -/
def rootErase (c : Cmd) (s : State) : State :=
  withTarget c (fun v s =>
    if !reservedZero c.desc [(8, 1)] || !decide (u8 c.desc 8 < 8) then mEnd c .badParam s
    else if (s.inst v).state = .unassigned then mEnd c .notReady s
    else
      let k : SlotNo := Fin.ofNat 8 (u8 c.desc 8)
      let s := eraseSlot v k s
      mOk c 0 0 (s.slot v k).generation s) s

def execRootErase (cid : Cid) (s : State) : Out := next (mgmtCmd cid 0x91 rootErase s)

end Sys2Proof.Machine
end

