-- ==== Sys2Proof/Machine/Buffer.lean ====
section
/-! DEFINITION. Sys2Proof/Machine/Buffer.lean: buffer memory (R201 to R222): accesses to a stripe, bring-up of the memory devices, the fill
and the rake. A step carries out one access whole before the next begins (R206). -/

namespace Sys2Proof.Machine

/-! ### An access (R205 to R209, R221, R222) -/

/-! #### What stands in a stripe

The bytes of a buffer that one of the device's own engines fills stand in that engine's record: a sealed block in what its cipher engine
wrote, a dataset in its rows. A stripe that the controller has written for another since then holds what was written (log entry 101). -/

/-- The pan buffer that stripe `st` lies in: pan, handle, and the number of the stripe in it. -/
def bufferAt (s : State) (st : Nat) : Option (Fin 4 × Nat × Nat) :=
  (allPans.find? (fun p => panOn s p && decide ((s.pan p).baseKib ≤ st) && decide (st < (s.pan p).baseKib + (s.pan p).count * panKib p))).map
    (fun p => (p, panFirst s p + (st - (s.pan p).baseKib) / panKib p, (st - (s.pan p).baseKib) % panKib p))

/-- Row `r` of sub-dataset `k` of the dataset that a PAN3 buffer holds (R38): the index and the C2 rows stand there once it begins. -/
def heldRow (s : State) (h k r : Nat) : Option Bytes :=
  match s.fmt.written.find? (fun w => w.buf.handle == some h) with
  | some w => some (datasetRow (w.payload s) k r)
  | none =>
    let row (b : Bytes) : Bytes := if r < 80 then padTo 2048 (slice b (k * 163840 + r * 2048) 2048) else zeros 2048
    match (s.fmt.asm ++ s.fmt.queue ++ s.chn.grp.held.map (·.ds)).find? (fun d => d.handle == some h) with
    | some d => some (row (d.payload.getD d.area))
    | none =>
      match s.rtv.ds.find? (fun d => d.handle == some h) with
      | some d => some (((d.rows.find? (fun x => x.1 == nominalIndex k r)).map (·.2)).getD (zeros 2048))
      | none => (s.chn.grp.stripes.find? (fun x => x.handle == some h)).map (fun x =>
          if r < 80 then ((x.rows.find? (fun y => y.1 == 80 * k + r)).map (fun y => y.2.1)).getD (zeros 2048) else zeros 2048)

/-- The bytes of stripe `st` that an engine's record gives (R38, R228). -/
def engineBytes (s : State) (st : Nat) : Option Bytes :=
  match bufferAt s st with
  | none => none
  | some (p, h, i) =>
    match heldRow s h (i / 192) (i / 2 % 96) with
    | some row => some (slice (padTo 2048 row) (1024 * (i % 2)) 1024)
    | none =>
      let b := (s.pans.written.find? (fun w => w.1 + i == st && decide (1024 * i < w.2.length))).map (fun w => padTo 1024 (slice w.2 (1024 * i) 1024))
      if i = 0 then
        match linkAfter (s.pan p).list h with
        | some next => some (patch (b.getD (storedData s (physStripe s st))) 0 (linkBytes next))
        | none => b
      else b

/-- The 1,024 data bytes that stand in stripe `st`. -/
def standing (s : State) (st : Nat) : Bytes :=
  if s.pans.overlaid.contains st then storedData s (physStripe s st)
  else (engineBytes s st).getD (storedData s (physStripe s st))

/-- A whole stripe written: it reads so from here on. -/
def putData (st : Nat) (data : Bytes) (s : State) : State :=
  let p := physStripe s st
  setDamage p [] { s with
    buf.stripes := putStripe p data s.buf.stripes
    pans.overlaid := if !s.pans.overlaid.contains st && (engineBytes s st).isSome then st :: s.pans.overlaid else s.pans.overlaid }

/-- Stripe `st` as an access reads it, with the errors that the access meets on top of those that stand (R205). -/
def readStripe (s : State) (st : Nat) (errs : List LineError) : StripeRead :=
  readLines s (physStripe s st) (standing s st) (addErrors (damageOf s (physStripe s st)) errs)

/-- Lines that the controller writes back (R221). -/
def StripeRead.writeBack (r : StripeRead) : List Nat :=
  match r.decoded with
  | some d => (List.range 20).filter (fun l => d.2.contains l || r.poisoned.contains l)
  | none => []

/-- The data bytes that a partial write takes (R208): what could not be recovered is zero. In a stripe beyond R202 by
its erasures alone the lines read without poison stand; otherwise no line of it is known. DESIGN CHOICE (log entry 16). -/
def StripeRead.dataOrZero (r : StripeRead) : Bytes :=
  match r.data with
  | some d => d
  | none => if 4 < r.erased.length then (r.raw.take 16).flatten else zeros 1024

/-- Takes spares for stripe `st`: of the entries free, the first `bad` read back wrong and are marked bad; the next holds the stripe. An
undecodable one is written with poison (R221, R222). -/
def takeSpare (st : Nat) (content : Option Bytes) : Nat → List (Fin 32) → State → State
  | _, [], s => if s.buf.remapFull then s else raiseEv .bufRemapFull 0x4 noRes noInst (leBytes 4 st) { s with buf.remapFull := true }
  | bad + 1, i :: l, s => takeSpare st content bad l { s with buf.remap := vset s.buf.remap i { stripe := st, bad := true, valid := true } }
  | 0, i :: _, s =>
    let p := spareStripe s i.val
    let s := { s with
      buf.remap := vset s.buf.remap i { stripe := st, bad := false, valid := true }
      buf.stripes := putStripe p (content.getD (zeros 1024)) s.buf.stripes }
    let poison : List LineError := (List.finRange 20).map (fun l => { line := l, flip := zeros 64, poison := true, hard := false })
    let s := setDamage p (if content.isSome then [] else poison) s
    raiseEv .bufRemap 0x4 noRes noInst (leBytes 4 st ++ leBytes 1 i.val) s

/-- Moves a hard stripe to the lowest free remap entry (R221, R222): its old spare, if it has one, is bad; with no entry
free it stays. -/
def remapStripe (st : Nat) (content : Option Bytes) (bad : Nat) (s : State) : State :=
  let free := (List.finRange 32).filter (fun i => !s.buf.remap[i].valid)
  let s := match remapOf s st, free with
    | some j, _ :: _ => { s with buf.remap := vmod s.buf.remap j (fun e => { e with bad := true }) }
    | _, _ => s
  takeSpare st content bad free s

/-- A mask with a bit per line. -/
def lineMask (ls : List Nat) : Nat := ls.foldl (fun a l => a + 2 ^ l) 0

/-- Counts a decode (R205): EV_BUF_CORRECTED for errors corrected at unknown positions; BUF_ECC_STAT.corrected for a
repair unless every erasure lies on a lost device. -/
def noteDecode (st : Nat) (r : StripeRead) (s : State) : State :=
  match r.decoded with
  | none => s
  | some d =>
    if !d.2.isEmpty then raiseEv .bufCorrected 0x4 noRes noInst (leBytes 4 st ++ leBytes 3 (lineMask r.writeBack)) s
    else if r.poisoned.isEmpty then s
    else { s with buf.eccCorrected := satInc 65535 s.buf.eccCorrected }

/-- Writes back the corrected and poisoned lines and reads them again; a line still wrong makes the stripe hard (R221). What did not
decode stands as it is (R207, R220). -/
def writeBackLines (st : Nat) (r : StripeRead) (errs : List LineError) (spares : Nat) (s : State) : State :=
  match r.decoded with
  | none => setDamage r.at_ errs s
  | some d =>
    let hard := errs.filter (fun e => e.hard && r.writeBack.contains e.line.val)
    let data := (d.1.take 16).flatten
    let s := setDamage r.at_ hard (if data = standing s st then s else putData st data s)
    if hard.isEmpty then s else remapStripe st (some data) spares s

/-- One strike on a memory device for each line corrected or found poisoned (R205). -/
def strikeLines (r : StripeRead) (s : State) : State :=
  let ls := (List.range 20).filter (fun l => r.poisoned.contains l || r.writeBack.contains l)
  let devs := ls.map (lineDev s r.at_)
  let s := devs.foldl (fun s d => { s with buf.dev := vmod s.buf.dev d (fun x => { x with lines := satInc 65535 x.lines }) }) s
  devs.foldl (fun s d => strike 5 d.val s) s

/-- EV_BUF_UNFILLED, for a read or a partial write of an UNFILLED stripe (R207). -/
def noteUnfilled (st : Nat) (event : Bool) (s : State) : State :=
  let s := { s with buf.eccUnfilled := satInc 255 s.buf.eccUnfilled }
  if event then raiseEv .bufUnfilled 0x4 noRes noInst (leBytes 4 st) s else s

/-- The controller's answer. -/
def bufAnswer (b : BufResult) (s : State) : State := { s with buf.result := b }

/-- Errors of an access to stripe `st`, with those that stand in it. -/
def errorsAt (s : State) (st : Nat) (errs : List LineError) : List LineError := addErrors (damageOf s (physStripe s st)) errs

/-- A read access to a stripe that is not UNFILLED: decode, counts, write-back, remap, strikes (R205, R209, R221). -/
def visitStripe (st : Nat) (errs : List LineError) (spares : Nat) (s : State) : StripeRead × State :=
  let r := readStripe s st errs
  let all := errorsAt s st errs
  let s := noteDecode st r s
  let s := if r.decoded.isNone then noteUncorr st 0 s else s
  (r, strikeLines r (writeBackLines st r all spares s))

/-- A read of stripe `st`, whole as every access is (R205 to R207, R209); none is served once buffer service has ended (R215). -/
def bufRead (st : Nat) (errs : List LineError) (spares : Nat) (s : State) : State :=
  if s.buf.state = 5 then bufAnswer .none s
  else if s.buf.mark ≤ st then bufAnswer .poison (noteUnfilled st true s)
  else
    let v := visitStripe st errs spares s
    bufAnswer (match v.1.data with | some d => .data d | none => .poison) v.2

/-- A write of `data` at byte `off` of stripe `st`, within it (R207, R208). -/
def bufWrite (st off : Nat) (data : Bytes) (errs : List LineError) (spares : Nat) (s : State) : State :=
  let full := off == 0 && data.length == 1024
  if s.buf.state = 5 then bufAnswer .none s
  else if s.buf.mark ≤ st then bufAnswer (if full then .dropped else .failed) (noteUnfilled st (!full) s)
  else if full then bufAnswer .written (putData st data s)
  else
    let r := readStripe s st errs
    let all := errorsAt s st errs
    let s := writeBackLines st r all spares (noteDecode st r s)
    let s := if r.decoded.isNone then noteUncorr st 1 s else s
    bufAnswer .written (strikeLines r (putData st (patch r.dataOrZero off data) s))

/-- Stripes among `n` from `st` on with lines that do not read as written. -/
def damagedIn (s : State) (st n : Nat) : List Nat :=
  (s.buf.damage.map (fun x => logicalOf s x.1)).filter (fun x => decide (st ≤ x) && decide (x < st + n))

/-- The stripes among `n` from `st` on that do not decode. -/
def poisonIn (s : State) (st n : Nat) : List Nat := (damagedIn s st n).filter (fun x => (readStripe s x []).decoded.isNone)

/-- A hand-over's engine reads `n` stripes from `st` on: whether every one decodes (R209). A stripe that reads as written answers with
nothing else. -/
def engineRead (st n : Nat) (s : State) : Bool × State :=
  ((poisonIn s st n).isEmpty, (damagedIn s st n).foldl (fun s x => (visitStripe x [] 0 s).2) s)

/-- `n` bytes of buffer memory from `ba` on, none when any of them is poisoned (R209); `fuel` bounds the stripes. -/
def readBuffer : Nat → Nat → Nat → State → Option Bytes × State
  | 0, _, _, s => (some [], s)
  | fuel + 1, ba, n, s =>
    if n = 0 then (some [], s)
    else
      let k := min n (1024 - ba % 1024)
      let s := bufRead (ba / 1024) [] 0 s
      match s.buf.result with
      | .data b =>
        let r := readBuffer fuel (ba + k) (n - k) s
        (r.1.map (fun t => slice b (ba % 1024) k ++ t), r.2)
      | _ => (none, s)

/-- A write of buffer memory from `ba` on, and whether a part of it came back with an error (R207). -/
def writeBuffer : Nat → Nat → Bytes → State → Bool × State
  | 0, _, _, s => (false, s)
  | fuel + 1, ba, bs, s =>
    if bs.isEmpty then (false, s)
    else
      let k := 1024 - ba % 1024
      let s := bufWrite (ba / 1024) (ba % 1024) (bs.take k) [] 0 s
      let bad := s.buf.result == .failed
      let r := writeBuffer fuel (ba + k) (bs.drop k) s
      (bad || r.1, r.2)

/-- The buffer controller reads the stripe of buffer address `ba` and answers with its data (R205, R209). -/
def execBufferRead (ba : Nat) (errs : List LineError) (spares : Nat) (s : State) : Out := next (bufRead (ba / 1024) errs spares s)

/-- The buffer controller writes `data` from buffer address `ba` on, up to the end of its stripe (R208). -/
def execBufferWrite (ba : Nat) (data : Bytes) (errs : List LineError) (spares : Nat) (s : State) : Out :=
  next (bufWrite (ba / 1024) (ba % 1024) (data.take (1024 - ba % 1024)) errs spares s)

/-! ### The rake (R220) -/

/-- Stripes that the rake visits from `p` on: those below the mark, then every spare in use. -/
def rakeNext (s : State) (p : Nat) : Option Nat :=
  if p < s.buf.mark then some p
  else ((List.finRange 32).find? (fun i => s.buf.remap[i].valid && !s.buf.remap[i].bad && decide (p ≤ spareStripe s i.val))).map
    (fun i => spareStripe s i.val)

/-- One visit of the rake to stripe `p`. -/
def rakeAt (p : Nat) (errs : List LineError) (spares : Nat) (s : State) : State :=
  let v := visitStripe (logicalOf s p) errs spares s
  if v.1.writeBack.isEmpty then v.2 else { v.2 with buf.rakeCorrected := satInc 65535 v.2.buf.rakeCorrected }

/-- A visit falls due: one out of turn first, otherwise the stripe at the rake's position, which then moves on (R220). -/
def rakeVisit (errs : List LineError) (spares : Nat) (s : State) : State :=
  if !rbit s.buf.rakeCfg 0 || !(s.buf.state == 2 || s.buf.state == 3 || s.buf.state == 4) then s
  else match s.buf.rakeQueue with
  | p :: rest => rakeAt p errs spares { s with buf.rakeQueue := rest }
  | [] =>
    match rakeNext s s.buf.rakePos with
    | none => s
    | some p =>
      let s := rakeAt p errs spares s
      match rakeNext s (p + 1) with
      | some q => { s with buf.rakePos := q }
      | none => { s with buf.rakePos := 0, buf.rakePasses := s.buf.rakePasses + 1 }

def execRakeVisit (errs : List LineError) (spares : Nat) (s : State) : Out := next (rakeVisit errs spares s)

/-- Whether stripe `p` of the devices is one that the rake visits. -/
def raked (s : State) (p : Nat) : Bool := rakeNext s p == some p

/-- The event records of device `d` name media errors at these device lines: their stripes are visited out of turn
(R220). The records are read and cleared (R210). -/
def eventPoll (d : Fin 8) (lines : List Nat) (s : State) : State :=
  if s.buf.nDev ≤ d.val || s.buf.dev[d].lost then s
  else
    let sts := (lines.map (fun x => (x * s.buf.nDev + d.val) / 20)).filter (raked s)
    { s with buf := { s.buf with
        rakeQueue := sts.foldl (fun q p => if q.contains p then q else q ++ [p]) s.buf.rakeQueue
        dev := vmod s.buf.dev d (fun x => { x with mail := [.getEvents, .clearEvents] }) } }

def execMemdevEventPoll (d : Fin 8) (lines : List Nat) (s : State) : Out := next (eventPoll d lines s)

/-! ### The fill (R216 to R219) -/

/-- The link that carries device `d`: devices are numbered in ascending link order (BUF_CFG.dev_links). -/
def linkOf (s : State) (d : Nat) : Nat := ((List.range 8).filter (fun k => s.buf.devLinks.getLsbD k)).getD d 8

/-- Ready, with a lost device or without one. -/
def readyState (s : State) : Nat := if s.buf.dev.toList.any (fun x => x.lost) then 4 else 3

/-- A chunk of 1,024 stripes has been filled with zeros, then the 32 spares; the mark rises and the pans follow (R216, R217,
R227). -/
def fillChunk (s : State) : State :=
  if s.buf.state ≠ 2 then s
  else if s.buf.mark < s.usable then
    let mark := min s.usable (s.buf.mark + 1024)
    let out (x : Nat) : Bool := x < s.buf.mark || mark ≤ x
    settleGrants (fillPans { s with
      buf.mark := mark, buf.stripes := s.buf.stripes.filter (fun x => out x.1), buf.damage := s.buf.damage.filter (fun x => out x.1) })
  else { s with buf.sparesDone := true, buf.state := readyState s }

def execFillChunkDone (s : State) : Out := next (fillChunk s)

/-- The tag line of device `d` (R218): fill tag, device number, zeros, and the CRC-32C of R16. -/
def tagLine (tag : Bytes) (d : Nat) : Bytes := let b := padTo 8 tag ++ leBytes 1 d ++ zeros 51; b ++ crcBytes b

/-- The fill begins from zero with a new fill tag, which every device's tag line takes (R218, R219). Links in L0 count as
intact from here on. -/
def fillFromZero (s : State) : State :=
  let tag := draw s 8
  let s := drawn 8 s
  let up := (List.range 8).filter (fun k => (List.finRange 8).any (fun d => s.buf.dev[d].linkUp && linkOf s d.val == k))
  let buf : Buf := { s.buf with
    mark := 0, sparesDone := false, remap := Vector.replicate 32 {}, remapFull := false, stripes := [], damage := [], fillTag := tag
    rakePos := 0, rakeQueue := [], links := BitVec.ofNat 8 (up.foldl (fun a k => a + 2 ^ k) 0), state := 2
    dev := s.buf.dev.mapFinIdx (fun i x _ => if x.present then { x with tag := some (tagLine tag i) } else x) }
  let s := rebuildTable { s with buf := buf, pans.written := [], pans.overlaid := [] }
  raiseEv .bufFillRestart 0x4 noRes noInst [] s

/-- The conditions under which the fill resumes (R219), beside the kind of reset: a cold reset clears every intact bit. -/
def fillResumes (s : State) : Bool :=
  (List.range 8).all (fun k => !s.buf.devLinks.getLsbD k || s.buf.links.getLsbD k)
    && (List.finRange 8).all (fun d => decide (s.buf.nDev ≤ d.val)
      || (s.buf.dev[d].present && !s.buf.dev[d].lost && s.buf.dev[d].tagOk && s.buf.dev[d].media))

/-- Event 7 of R212, once every device is accepted or absent: the fill resumes or restarts (R219). -/
def bringupSettle (s : State) : State :=
  if s.buf.state ≠ 1 || !(List.finRange 8).all (fun d => decide (s.buf.nDev ≤ d.val) || s.buf.dev[d].active || s.buf.dev[d].lost) then s
  else if fillResumes s then
    settleGrants (fillPans { s with buf.state := if s.buf.mark = s.usable && s.buf.sparesDone then readyState s else 2 })
  else fillFromZero s

/-- A write of BUF_FILL_CFG.restart, in SERVICE mode (R219). -/
def fillRestart (s : State) : State := if s.glb.mode = .service && 2 ≤ s.buf.state && s.buf.state ≤ 4 then fillFromZero s else s

def execFillRestart (s : State) : Out := next (fillRestart s)

/-! ### Bring-up (R212 to R214) -/

/-- Port of link `k`. -/
def portOfLink (k : Nat) : Fin 2 := Fin.ofNat 2 (k / 4)

/-- CXL_PERST# is deasserted on each port in use (R212). -/
def perstRelease (s : State) : State :=
  if s.buf.state ≠ 1 then s
  else
    let b (lo : Nat) : Nat := bit ((List.range 4).any (fun i => s.buf.devLinks.getLsbD (lo + i)))
    { s with buf.perstOff := BitVec.ofNat 2 (b 0 + 2 * b 4) }

def execCxlPerstRelease (s : State) : Out := next (perstRelease s)

/-- Lanes of a link under the port's bifurcation (BUF_CFG.bif). -/
def linkLanes (s : State) (k : Nat) : Nat := [8, 4, 2].getD (if k < 4 then s.buf.bif0 else s.buf.bif1) 0

/-- BUF_DEV_STAT.width of a number of lanes. -/
def widthCode (lanes : Nat) : Nat := if lanes = 2 then 1 else if lanes = 4 then 2 else if lanes = 8 then 3 else 0

/-- Device `d` counts as absent: lost from the start (R213). -/
def absentDev (d : Fin 8) (s : State) : State := bringupSettle (loseDevice d 0 s)

/-- The link of device `d` reaches L0, or trains so that the device counts as absent (R212, R213). -/
def cxlLinkUp (d : Fin 8) (gts width : Nat) (mem singleLd : Bool) (s : State) : State :=
  let k := linkOf s d.val
  if s.buf.state ≠ 1 || s.buf.nDev ≤ d.val || s.buf.dev[d].lost || s.buf.dev[d].linkUp || !s.buf.perstOff.getLsbD (k / 4) then s
  else if gts < 16 || !mem || !singleLd then absentDev d s
  else
    let slow := gts < 32
    let s := { s with buf.dev := vmod s.buf.dev d (fun x => { x with linkUp := true, rate16 := slow, width := widthCode width }) }
    if slow || width < linkLanes s k then
      raiseEv .cxlDegraded 0x4 d.val noInst (leBytes 1 d.val ++ leBytes 1 (bit slow) ++ leBytes 1 (widthCode width)) s
    else s

def execCxlLinkUp (d : Fin 8) (gts : Nat) (width : Nat) (mem : Bool) (singleLd : Bool) (s : State) : Out :=
  next (cxlLinkUp d gts width mem singleLd s)

/-- The mailbox commands of event 6 of R212, in order. -/
def bringupMail : List MailCmd := [.identify, .partitionInfo, .healthInfo, .poisonList, .getEvents, .clearEvents]

/-- Device `d` reports Memory_Active and is identified; its decoder is programmed, committed and locked (R203), its poison list and
event records are read and cleared, and its tag line is checked (R212, R213, R218). `tagOk` says that the line reads as it was written, without
poison; it must hold the fill tag kept, the device number and the CRC. -/
def memoryActive (d : Fin 8) (gib : Nat) (tagOk mediaReady : Bool) (s : State) : State :=
  if s.buf.state ≠ 1 || s.buf.nDev ≤ d.val || !s.buf.dev[d].linkUp || s.buf.dev[d].active then s
  else if gib < 2 ^ s.buf.cap * 16 then absentDev d s
  else
    bringupSettle { s with buf.dev := vmod s.buf.dev d (fun x =>
      { x with active := true, present := true, media := mediaReady, hdm := some (hdmOf s d), mail := bringupMail
               tagOk := tagOk && x.tag == some (tagLine s.buf.fillTag d.val) }) }

def execMemoryActive (d : Fin 8) (gib : Nat) (tagOk : Bool) (mediaReady : Bool) (s : State) : Out :=
  next (memoryActive d gib tagOk mediaReady s)

/-- Device `d` misses the bound of event 4 or 5 (R213). -/
def bringupTimeout (d : Fin 8) (s : State) : State :=
  if s.buf.state ≠ 1 || s.buf.nDev ≤ d.val || s.buf.dev[d].active || s.buf.dev[d].lost then s else absentDev d s

def execBringupTimeout (d : Fin 8) (s : State) : Out := next (bringupTimeout d s)

/-- Device `d` is lost (R214): cause 0 is DL_Down, which clears the link's intact bit; 1 a timeout; 2 its health. -/
def memdevLost (d : Fin 8) (cause : Fin 3) (s : State) : State :=
  if s.buf.nDev ≤ d.val || s.buf.dev[d].lost || !s.buf.dev[d].linkUp then s
  else
    let s := if cause.val = 0 then { s with buf.links := s.buf.links &&& ~~~(BitVec.ofNat 8 (2 ^ linkOf s d.val)) } else s
    bringupSettle (loseDevice d cause.val s)

def execMemdevLost (d : Fin 8) (cause : Fin 3) (s : State) : Out := next (memdevLost d cause s)

/-- CXL bring-up begins (event 1 of R212). A device whose link stayed in L0 goes straight to event 6 (R331); any other
starts anew. -/
def cxlBringup (s : State) : State :=
  if s.buf.nDev = 0 then s
  else
    let kept (d : Fin 8) : Bool := s.buf.links.getLsbD (linkOf s d.val) && s.buf.dev[d].linkUp
    let dev := Vector.ofFn (fun d : Fin 8 =>
      let x := s.buf.dev[d]
      { x with active := false, present := false, tagOk := false, media := false, hdm := none, mail := [], linkUp := kept d
               width := if kept d then x.width else 0, rate16 := kept d && x.rate16 })
    let lost := (List.finRange 8).countP (fun d => decide (d.val < s.buf.nDev) && s.buf.dev[d].lost)
    -- devices stay lost until the next cold reset, and service stays ended (R214, R215)
    if 2 ≤ lost || (s.buf.nDev ≤ 4 && 1 ≤ lost) then judgePewter 5 0xFF { s with buf.state := 5, buf.dev := dev }
    else bringupSettle { s with buf.state := 1, buf.dev := dev }

/-! ### BUFFER_FILL_STATUS (R276) -/

/-- BUF_STAT.lost. -/
def lostMask (s : State) : Nat := (List.finRange 8).foldl (fun a d => a + bit s.buf.dev[d].lost * 2 ^ d.val) 0

/-- BUFFER_FILL_STATUS (R276). -/
def bufferFillStatus (c : Cmd) (s : State) : State :=
  if !noTarget c || !reservedZero c.desc [] then mEnd c .badParam s
  else mOk c s.buf.mark s.usable (s.buf.state + 8 * lostMask s) s

def execBufferFillStatus (cid : Cid) (s : State) : Out := next (mgmtCmd cid 0xD2 bufferFillStatus s)

end Sys2Proof.Machine
end

