-- ==== Sys2Proof/Machine/Loops.lean ====
section
/-! DEFINITION. Sys2Proof/Machine/Loops.lean: the four loops of the control engine, their coefficients, and the frames of the
motion link (R184 to R191, R194 to R199). -/

namespace Sys2Proof.Machine

/-! ### Q1.15 arithmetic (R184, R185) -/

/-- Saturation to Q1.15. -/
def sat16 (x : Int) : Int := clampI (-32768) 32767 x
/-- Saturation to the 40-bit accumulator. -/
def sat40 (x : Int) : Int := clampI (-(2 ^ 39)) (2 ^ 39 - 1) x

/-- The six values of a section: b0, b1, b2, a1h, a2 and the shift. -/
structure Coefs where
  b0 : Int
  b1 : Int
  b2 : Int
  a1h : Int
  a2 : Int
  shift : Nat
  deriving DecidableEq, Repr

/-- Section `sec` of the active bank of a loop. -/
def Loop.coefs (l : Loop) (sec : Nat) : Coefs :=
  let base := 12 * bit l.bankB + 6 * sec
  let c (k : Nat) : Int := (l.coef[Fin.ofNat 24 (base + k)]).toInt
  { b0 := c 0, b1 := c 1, b2 := c 2, a1h := c 3, a2 := c 4, shift := (l.coef[Fin.ofNat 24 (base + 5)]).toNat % 8 }

/-- A section whose five coefficients are all zero. -/
def Coefs.off (c : Coefs) : Bool := c.b0 == 0 && c.b1 == 0 && c.b2 == 0 && c.a1h == 0 && c.a2 == 0

/-- One sample of a section (R185): output, next state, and whether anything saturated. Each product is aligned to Q9.31. -/
def sectionSample (c : Coefs) (q : Section) (x : Int) : Int × Section × Bool :=
  if c.off then (x, {}, false)
  else
    let sum := 2 * (c.b0 * x + c.b1 * q.x1 + c.b2 * q.x2 - 2 * c.a1h * q.w1 - c.a2 * q.w2)
    let acc := sat40 sum
    let w := (acc + 2 ^ 15) / 2 ^ 16
    let w' := sat16 w
    let o := w' * 2 ^ c.shift
    (sat16 o, { x1 := x, x2 := q.x1, w1 := w', w2 := q.w1 }, acc != sum || w != w' || sat16 o != o)

/-- The output limit now: it rises linearly over the ramp (R189). -/
def Loop.limitNow (l : Loop) : Int :=
  let limit := fld l.lim 0 15
  let ramp := fld l.lim 16 16
  if ramp ≤ l.ramp then limit else rounded 5 (limit * l.ramp : Nat) ramp

/-- One sample of a loop on input `x` (R185): both sections, then the output limit. -/
def Loop.sample (l : Loop) (x : Int) : Loop :=
  let l := { l with ramp := satInc 0xFFFF l.ramp }
  let a := sectionSample (l.coefs 0) l.sec0 x
  let b := sectionSample (l.coefs 1) l.sec1 a.1
  let o := clampI (-l.limitNow) l.limitNow b.1
  { l with sec0 := a.2.1, sec1 := b.2.1, input := x, output := o
           accSat := l.accSat || a.2.2 || b.2.2, outSat := l.outSat || o != b.1 }

/-! ### Coefficient writes and bank swaps (R191) -/

/-- Loop `l` changed by `f`. -/
def State.modLoop (s : State) (l : Fin 4) (f : Loop → Loop) : State := { s with mot.loop := vmod s.mot.loop l f }

/-- Whether loop `l` is enabled. -/
def State.loopOn (s : State) (l : Fin 4) : Bool := s.mot.loopEn.getLsbD l.val

/-- Writes that wait for loop `l`. -/
def queuedFor (s : State) (l : Fin 4) : List (Nat × Nat × BitVec 16) := s.mot.queue.filter (fun q => q.1 == l.val)

/-- What a sample boundary of loop `l` does first: one queued write is applied, or else a requested swap. -/
def loopBoundary (l : Fin 4) (s : State) : State :=
  match queuedFor s l with
  | q :: _ =>
    ({ s with mot.queue := s.mot.queue.erase q }).modLoop l (fun x => { x with coef := vset x.coef (Fin.ofNat 24 q.2.1) q.2.2 })
  | [] => if s.mot.loop[l].swap then s.modLoop l (fun x => { x with bankB := !x.bankB, swap := false }) else s

/-- A sample of loop `l` on input `x`; a disabled loop computes nothing. -/
def runLoop (l : Fin 4) (x : Int) (s : State) : State :=
  if s.loopOn l then (loopBoundary l s).modLoop l (fun q => q.sample x) else s

/-- The bits that coefficient `c` of a section holds: three of the shift, c = 5; the rest is Reserved (R6). -/
def coefBits (c : Nat) (v : BitVec 16) : BitVec 16 := if c = 5 then v &&& 7 else v

/-- A write of coefficient `c` of section `sec` of bank `k` of loop `l` (R191). -/
def coefWrite (l : Fin 4) (k sec : Fin 2) (c : Fin 6) (value : BitVec 16) (s : State) : State :=
  let i : Fin 24 := Fin.ofNat 24 (12 * k.val + 6 * sec.val + c.val)
  let v : BitVec 16 := coefBits c.val value
  let put (s : State) : State := s.modLoop l (fun x => { x with coef := vset x.coef i v })
  let standby := (k.val == 1) != s.mot.loop[l].bankB
  if !s.loopOn l then put s
  else if standby then if s.mot.loop[l].swap then { s with mot.coefLocked := true } else put s
  else if 16 ≤ s.mot.queue.length then { s with mot.coefDrop := true }
  else { s with mot.queue := s.mot.queue ++ [(l.val, i.val, v)] }

def execCoefWrite (by_ : Source) (l : Fin 4) (k sec : Fin 2) (c : Fin 6) (value : BitVec 16) (s : State) : Out :=
  next (if s.mayDrive by_ then coefWrite l k sec c value s else s)

/-- A swap is requested; a disabled loop, which has no sample boundary, swaps at once. DESIGN CHOICE (log entry 13). -/
def bankSwap (l : Fin 4) (s : State) : State :=
  if s.loopOn l then s.modLoop l (fun x => { x with swap := true })
  else s.modLoop l (fun x => { x with bankB := !x.bankB, swap := false })

def execCoefBankSwap (by_ : Source) (l : Fin 4) (s : State) : Out := next (if s.mayDrive by_ then bankSwap l s else s)

/-! ### Starting and stopping loops (R189, R191) -/

/-- Every queued write to loop `l` is applied, and a requested swap. -/
def flushLoop (l : Fin 4) (s : State) : State :=
  let qs := queuedFor s l
  let s := qs.foldl (fun s q => s.modLoop l (fun x => { x with coef := vset x.coef (Fin.ofNat 24 q.2.1) q.2.2 })) s
  let s := { s with mot.queue := s.mot.queue.filter (fun q => q.1 != l.val) }
  if s.mot.loop[l].swap then s.modLoop l (fun x => { x with bankB := !x.bankB, swap := false }) else s

/-- A loop starts from cleared section states and a limit of 0; L0 starts the tension ramp from the measured tension. -/
def startLoop (l : Fin 4) (s : State) : State :=
  let s := s.modLoop l (fun x => { x with sec0 := {}, sec1 := {}, ramp := 0, output := 0 })
  if l.val = 0 then { s with mot := { s.mot with tStart := s.mot.tMeas, tSamples := 0, delta := 0, state := .softStart } } else s

/-- The servo searches (R181): EV_SRV_LOCK is raised, and LX is assembled anew. -/
def startSearch (s : State) : State :=
  raiseEv .srvLock 0xC noRes noInst (leBytes 4 s.srv.lx) { s with srv.state := .search, srv.good := 0, srv.lxValid := false, srv.group := [] }

/-- Loops that were all off start: the brake is released (R198), counts of faults begin anew, and the servo searches (R181). -/
def wakeLoops (s : State) : State :=
  startSearch { s with
    mot.brake := 0, mot.brakeSent := false, mot.overPos := 0, mot.overT := 0, mot.badFrames := 0, srv.missed := 0, srv.gateOk := false
    mot.state := if s.mot.state = .braked then .off else s.mot.state }

/-- The loop-enable field takes a value: a bit that rises starts its loop, a bit that falls stops it. -/
def setLoops (mask : BitVec 4) (s : State) : State :=
  let s := if s.mot.loopEn = 0 && mask != 0 then wakeLoops s else s
  let s := (List.finRange 4).foldl (fun s l =>
    if mask.getLsbD l.val && !s.loopOn l then startLoop l s
    else if !mask.getLsbD l.val && s.loopOn l then (flushLoop l s).modLoop l (fun x => { x with output := 0 })
    else s) s
  let s := { s with mot.loopEn := mask }
  if mask = 0 then { s with mot.state := if s.mot.state = .braked then .braked else .off } else s

def execLoopEnable (by_ : Source) (mask : BitVec 4) (s : State) : Out := next (if s.mayDrive by_ then setLoops mask s else s)

/-- The motion steward starts the loops for a command that needs motion, when they are off (R189, R190): brake code 0
goes out, and the servo searches. -/
def startLoops (s : State) : State := if s.mot.loopEn = 0xF then s else setLoops 0xF s

/-! ### The out-frame (R196, R199) -/

/-- Two's complement, little-endian. -/
def le16 (x : Int) : Bytes := leBytes 2 (unsigned 16 x)

/-- Bytes 1 to 10 of an out-frame: seq, flags, the four commands. -/
def outBody (seq : Nat) (brake : Nat) (loops : BitVec 4) (o : List Int) : Bytes :=
  leBytes 1 seq ++ leBytes 1 (brake % 4 + 4 * loops.toNat) ++ (o.map le16).flatten

/-- The CRC of the motion link over a frame's body, high byte first (R194). -/
def linkCrc (body : Bytes) : Bytes := beBytes 2 (crc16 body).toNat

/-- The 13 bytes of an out-frame. -/
def outFrameBytes (m : Mot) (seq : BitVec 8) : Bytes :=
  let body := outBody seq.toNat m.brake m.loopEn (m.loop.toList.map (·.output))
  [0xA5] ++ body ++ linkCrc body

/-- Sends an out-frame, in turn or out of turn: it carries the next seq (R196, R199). -/
def sendFrame (s : State) : State :=
  let q := s.mot.seq + 1
  { s with mot.seq := q, mot.outFrame := outFrameBytes s.mot q, mot.brakeSent := s.mot.brake != 0 }

/-- Brakes the reels out of turn with a code, and disables the four loops (R190, R199). -/
def brakeReels (code : Nat) (s : State) : State :=
  let s := setLoops 0 (sendFrame { s with mot.brake := code })
  { s with mot.state := .braked }

end Sys2Proof.Machine
end

