-- ==== Sys2Proof/Machine/Signal.lean ====
section
/-! DEFINITION. Sys2Proof/Machine/Signal.lean: the signal path of a read channel: automatic gain, equaliser and its adaptation, detector,
soft samples, the brine buffer, and the comparison of its bits with the marks (R144 to R148, R150, R155). -/

namespace Sys2Proof.Machine

/-! ### Sets -/

/-- The active set of a read channel. -/
def RChan.set (r : RChan) : Word := if r.activeB then r.setB else r.setA
def RChan.taps (r : RChan) : List Int := if r.activeB then r.tapsB else r.tapsA

/-- The taps of the active set replaced. -/
def RChan.putTaps (r : RChan) (t : List Int) : RChan := if r.activeB then { r with tapsB := t } else { r with tapsA := t }

/-- The active set replaced by start values: the AGC and the tap accumulators start from them (R144, R146). -/
def RChan.putSet (r : RChan) (w : Word) (t : List Int) : RChan :=
  let r := { r with agc := fld w 0 6, low := List.replicate 10 0 }
  if r.activeB then { r with setB := w, tapsB := t } else { r with setA := w, tapsA := t }

/-- Rounding of x / 2^k to nearest (R141, R147); which way a half goes is free (log entry 14). -/
def roundShift (x : Int) (k : Nat) : Int :=
  if k = 0 then x
  else if x % 2 ^ k = 2 ^ (k - 1) then rounded 4 x (2 ^ k)
  else (x + 2 ^ (k - 1)) / 2 ^ k

/-! ### The brine buffer (R155) -/

/-- Samples that a brine buffer holds: two CWO lengths. -/
def brineLen : Nat := 2 * cwoBits

/-- A soft sample is written at a bit position. A position that a phase wrap skipped holds 0 (log entry 103). -/
def RChan.put (r : RChan) (p v : Int) : RChan :=
  if r.ring.isEmpty then { r with ring := [v], ringEnd := p + 1 }
  else if r.ringEnd ≤ p then { r with ring := v :: (List.replicate (min (p - r.ringEnd).toNat brineLen) 0 ++ r.ring), ringEnd := p + 1 }
  else { r with ring := r.ring.set (r.ringEnd - 1 - p).toNat v }

/-- Samples of the oldest position leave the buffer. -/
def RChan.trim (r : RChan) : RChan := { r with ring := r.ring.take brineLen }

/-- Whether the sample at position `p` has been written, and whether it still stands in the buffer. -/
def RChan.arrived (r : RChan) (p : Int) : Bool := decide (p < r.ringEnd)
def RChan.standing (r : RChan) (p : Int) : Bool := decide (r.ringEnd - brineLen ≤ p)

/-- The `n` soft samples from position `p` on, oldest first; those that have left the buffer read as 0. -/
def RChan.softFrom (r : RChan) (p : Int) (n : Nat) : List Int :=
  let l := (r.ring.drop (r.ringEnd - p - n).toNat).take n
  List.replicate (n - l.length) 0 ++ l.reverse

/-- The hard decision of a soft sample of channel `c` at position `p` (R147). -/
def hardBit (c : Nat) (p v : Int) : Bool := if v = 0 then Config.zeroBit c p else decide (0 < v)

/-- The `n` hard decisions of channel `c` from position `p` on. -/
def RChan.bitsFrom (r : RChan) (c : Nat) (p : Int) (n : Nat) : List Bool :=
  (r.softFrom p n).zipIdx.map (fun v => hardBit c (p + v.2) v.1)

/-! ### The tone (R28, R47, R149) -/

/-- Bit `i` of the preamble pattern 0b0011. -/
def toneBit (i : Int) : Bool := decide (2 ≤ i % 4)

/-- The bit that the tape is known to carry at position `p`: in tracking in preambles and in a separator, in acquisition on a lead-in or
separator, where the pattern stands at `phase` (R144, R146). -/
def RChan.known (r : RChan) (sep : Bool) (phase p : Int) : Option Bool :=
  let i := p - (r.expected - 48)
  match r.sync with
  | .stopped => none
  | .acquisition => if r.onTone then some (toneBit (p + phase)) else none
  | .tracking | .flywheeling =>
    if i % cwoBits < 48 then some (toneBit (i % cwoBits))
    else if sep && decide (0 ≤ i) && decide (i < 11488) then some (toneBit i) else none

/-- The phase of the preamble pattern that agrees best with hard decisions at their positions; of two equally good the lower. -/
def tonePhase (bits : List (Int × Bool)) : Int :=
  let wrong (k : Int) : Nat := bits.countP (fun b => toneBit (b.1 + k) != b.2)
  ([1, 2, 3] : List Int).foldl (fun a k => if wrong k < wrong a then k else a) 0

/-! ### Equaliser and detector (R145, R147) -/

/-- +1 for channel bit 1, −1 for channel bit 0. -/
def pm (d : Bool) : Int := if d then 1 else -1

/-- The detector's target for bits d[t], d[t−1], d[t−2] under a set register. -/
def target (set : Word) (d d1 d2 : Bool) : Int := 8 * pm d + signed 5 (fld set 13 5) * pm d1 + signed 5 (fld set 18 5) * pm d2

/-- An ADC sample arrives; with it the equaliser forms the output of three bits before (R145). -/
def RChan.sample (r : RChan) (x : Int) : RChan :=
  let l := (r.count, x) :: r.adc.take 9
  let xs := l.map (·.2)
  let e : EqOut := { pos := (l.getD 3 (0, 0)).1, y := (List.zipWith (· * ·) r.taps xs).foldl (· + ·) 0, xs := xs, set := r.set }
  { r with adc := l, count := r.count + 1, eq := if l.length = 10 then r.eq ++ [e] else r.eq }

/-- A metric for each state of the trellis, by d[t−1] and d[t−2]. -/
abbrev Metric := List Int

def Metric.get (m : Metric) (d1 d2 : Bool) : Int := m.getD (2 * bit d1 + bit d2) 0
def Metric.of (f : Bool → Bool → Int) : Metric := [f false false, f false true, f true false, f true true]

/-- The metric of one branch: the squared distance of the output from the target. -/
def branch (e : EqOut) (d d1 d2 : Bool) : Int := (e.y - 256 * target e.set d d1 d2) ^ 2

def forwardStep (m : Metric) (e : EqOut) : Metric :=
  Metric.of (fun d d1 => min (m.get d1 false + branch e d d1 false) (m.get d1 true + branch e d d1 true))

def backwardStep (m : Metric) (e : EqOut) : Metric :=
  Metric.of (fun d1 d2 => min (m.get false d1 + branch e false d1 d2) (m.get true d1 + branch e true d1 d2))

/-- The best path through bit value `d`, between the metrics on both sides. -/
def through (a b : Metric) (e : EqOut) (d : Bool) : Int :=
  let p (d1 d2 : Bool) : Int := a.get d1 d2 + branch e d d1 d2 + b.get d d1
  min (min (p false false) (p false true)) (min (p true false) (p true true))

/-- The max-log-MAP detector over a run of outputs: the backward metric at its start, and for each bit by how much the best path with
d = −1 is worse than the best with d = +1. -/
def detect (a : Metric) : List EqOut → Metric × List Int
  | [] => ([0, 0, 0, 0], [])
  | e :: l =>
    let r := detect (forwardStep a e) l
    (backwardStep r.1 e, (through a r.1 e false - through a r.1 e true) :: r.2)

/-- L for a difference of metrics: signed 12 bits in units of 1/8 nat (R147). -/
def llr (d : Int) : Int := clampI (-2048) 2047 (if d < 0 then -(Config.llrMag d.natAbs : Int) else if 0 < d then Config.llrMag d.natAbs else 0)

/-- The soft sample for a difference of metrics under a set register (R147). -/
def softSample (set : Word) (d : Int) : Int := clampI (-31) 31 (roundShift (llr d * fld set 23 6) 6)

/-! ### Adaptation (R144, R146) -/

/-- A tap accumulator, in units of 2^−18, after one step for an error in units of 1/256 LSB. -/
def lmsStep (mu : Nat) (err acc x : Int) : Int :=
  let v := acc - rounded 15 (err * x * 1024) (2 ^ mu)
  if -524288 ≤ v ∧ v < 524288 then v else (Config.tapBeyond v).toInt

/-- One step of the taps of the active set at an output, the bits being known or decided. -/
def RChan.lms (r : RChan) (e : EqOut) (d d1 d2 : Bool) : RChan :=
  let err := e.y - 256 * target e.set d d1 d2
  let acc := List.zipWith (fun t l => t * 1024 + l) r.taps r.low
  let acc := List.zipWith (lmsStep r.mu err) acc e.xs
  { r.putTaps (acc.map (· / 1024)) with low := acc.map (· % 1024) }

/-- The gain after samples of the tone (R144). -/
def RChan.gainStep (r : RChan) (xs : List Int) : RChan :=
  let peak := (xs.map Int.natAbs).foldl max 0
  if xs.isEmpty || rbit r.set 30 || peak = 20 then r else { r with agc := min 63 (Config.agcGain r.agc peak) }

/-- The detector runs on a window of 64 bits, once the 16 bits on each side of it are there: soft samples go to the brine buffer, and the
equaliser adapts (R146, R147). -/
def RChan.window (c : Nat) (sep : Bool) (r : RChan) : RChan :=
  if r.eq.length < 96 then r
  else
    let ds := (detect [0, 0, 0, 0] (r.eq.take 96)).2
    let es := (r.eq.take 96).zip ds
    let hard := es.map (fun e => (e.1.pos, hardBit c e.1.pos (softSample e.1.set e.2)))
    let phase := tonePhase hard
    let bits := hard.map (fun h => (r.known sep phase h.1).getD h.2)
    let mid := (es.drop 16).take 64
    let steps := (mid.map (·.1)).zip ((bits.drop 16).zip ((bits.drop 15).zip (bits.drop 14)))
    let r := (mid.foldl (fun r e => r.put e.1.pos (softSample e.1.set e.2)) r).trim
    let r := if rbit r.set 29 then steps.foldl (fun r x => r.lms x.1 x.2.1 x.2.2.1 x.2.2.2) r else r
    { r with eq := r.eq.drop 64 }

/-- ADC samples of channel `c` arrive. -/
def RChan.take (c : Nat) (sep : Bool) (xs : List Int) (r : RChan) : RChan :=
  let tone := (xs.zipIdx.filter (fun x => (r.known sep 0 (r.count + x.2)).isSome)).map (·.1)
  RChan.window c sep ((xs.foldl RChan.sample r).gainStep tone)

/-! ### Marks (R150, R153) -/

/-- Bits in which two runs differ, over the shorter. -/
def hamming (a b : List Bool) : Nat := (List.zipWith (fun x y => if x = y then 0 else 1) a b).foldl (· + ·) 0

/-- The `n` positions from `p` on at which the bits differ from a mark in at most `limit` bits, with the distance. -/
def marksIn (mark : List Bool) (limit : Nat) : Nat → Int → List Bool → List (Int × Nat)
  | 0, _, _ => []
  | n + 1, p, l =>
    let d := hamming mark l
    let rest := marksIn mark limit n (p + 1) (l.drop 1)
    if d ≤ limit then (p, d) :: rest else rest

/-- The positions from `p − r` to `p + r` at which channel `c` holds a mark within a distance. -/
def RChan.marksNear (ch : RChan) (c : Nat) (mark : List Bool) (limit : Nat) (p : Int) (r : Nat) : List (Int × Nat) :=
  marksIn mark limit (2 * r + 1) (p - r) (ch.bitsFrom c (p - r) (2 * r + mark.length))

/-- The candidate that R150 chooses: lowest distance, then nearest the expected position, then the earlier one. -/
def bestCand (expected : Int) : List (Int × Nat) → Option (Int × Nat)
  | [] => none
  | a :: l => match bestCand expected l with
    | none => some a
    | some b =>
      let da := (a.1 - expected).natAbs
      let db := (b.1 - expected).natAbs
      if b.2 < a.2 || (b.2 = a.2 && (db < da || (db = da && b.1 < a.1))) then some b else some a

/-! ### Acquisition (R149) -/

/-- Channel `c` changed by `f`. -/
def State.modRch (s : State) (c : Chan) (f : RChan → RChan) : State := { s with rch := vmod s.rch c f }

/-- The common bit count of the sample clock: that of the channel farthest on. -/
def commonCount (s : State) : Int := (s.rch.toList.map (·.count)).foldl max 0

/-- A channel enters acquisition; one that was stopped, or whose tape has been moved, goes on at the common count. -/
def RChan.acquire (onTone moved : Bool) (n : Int) (r : RChan) : RChan :=
  let anew := moved || r.sync == .stopped
  { r with
    sync := .acquisition, flyRun := 0, onTone := onTone, hit := none, scanned := if anew then n else r.ringEnd
    count := if anew then n else r.count, adc := if anew then [] else r.adc, eq := if anew then [] else r.eq
    framing := r.framing && !moved }

/-- Every channel enters acquisition; CWOs that have been framed are decoded still (R149). -/
def enterAcquisition (onTone moved : Bool) (s : State) : State :=
  let n := commonCount s
  { s with rch := s.rch.map (RChan.acquire onTone moved n), rdc := { s.rdc with flyTiers := 0, windows := [], inSeparator := false } }

/-- Acquisition where the tape stands: after holdover, and after eight tier slots in which every channel flywheeled. -/
def reacquire (s : State) : State := enterAcquisition false false s

/-- Acquisition at a new place on the tape, on a lead-in or a separator. -/
def acquireAll (s : State) : State := enterAcquisition true true s

/-- CWOs of a position that the reading has left are forgotten. -/
def dropJobs (s : State) : State :=
  { s with
    rch := s.rch.map (fun r => { r with jobs := [], done := [], framing := false })
    rdc := { s.rdc with core := Vector.replicate 16 none, coreQueue := [], windows := [] } }

/-! ### The C1 input (R148, R153) -/

/-- The bits by which the re-cuts move bit `i` of a CWO (R153). -/
def cutShift (cuts : List (Int × Int)) (i : Int) : Int := ((cuts.filter (fun x => decide (x.1 ≤ i))).map (·.2)).foldl (· + ·) 0

/-- The framed soft samples of a CWO at an alignment, which is the position of SM32: 33 to a word, the flag first (R28, R34, R153). -/
def RChan.framedSoft (r : RChan) (align : Int) (cuts : List (Int × Int)) : List Int :=
  let a := r.ring.toArray
  (List.range 4).flatMap (fun j => (List.range 4752).map (fun (k : Nat) =>
    let i : Int := (resyncOffset j : Int) - 4752 + (k : Int)
    let p := align - 48 + i + cutShift cuts i
    if p < r.ringEnd then a.getD (r.ringEnd - 1 - p).toNat 0 else 0))

/-- The header's 16 bytes of a CWO at an alignment: hard decisions, descrambled (R148). -/
def RChan.headerAt (r : RChan) (c : Nat) (align : Int) : Bytes :=
  bytesOfBits 16 (List.zipWith xor (r.bitsFrom c (align + 32) 128) (scramblerOut 128 (scramblerSeed c)))

/-- The C1 input of a CWO from its framed soft samples (R148). -/
def c1Input (c : Nat) (samples : List Int) : List Int :=
  let scr := (scramblerOut (128 + 18432) (scramblerSeed c)).drop 128
  let data := (samples.zipIdx.filter (fun x => x.2 % 33 != 0)).map (·.1)
  let flags := (samples.zipIdx.filter (fun x => x.2 % 33 == 0)).map (·.1)
  let fa := flags.toArray
  (List.zipWith (fun x b => if b then -x else x) data scr).zipIdx.map (fun v =>
    let f := fa.getD (v.2 / 32) 0
    let mag : Int := min f.natAbs v.1.natAbs
    if (decide (f < 0)) == (decide (0 < v.1)) then mag else -mag)

/-- The detector's hard decisions of the codeword bits, descrambled and with the flags taken off (R33, R34, R122). -/
def hardInput (c : Nat) (align : Int) (samples : List Int) : List Bool :=
  let scr := (scramblerOut (128 + 18432) (scramblerSeed c)).drop 128
  let bits := samples.zipIdx.map (fun v => (v.2, hardBit c (align + v.2) v.1))
  let data := (bits.filter (fun x => x.1 % 33 != 0)).map (·.2)
  let flags := ((bits.filter (fun x => x.1 % 33 == 0)).map (·.2)).toArray
  (List.zipWith xor data scr).zipIdx.map (fun v => xor v.1 (flags.getD (v.2 / 32) false))

/-- Words that slip repair gave up take C1 input 0 (R153). -/
def eraseWords (words : List Nat) (x : List Int) : List Int := x.zipIdx.map (fun v => if words.contains (v.2 / 32) then 0 else v.1)

end Sys2Proof.Machine
end

