-- ==== Sys2Proof/Machine/Reads.lean ====
section
/-! DEFINITION. Sys2Proof/Machine/Reads.lean: reading records: extraction, opening, decoding, delivery, READ_RECORDS, LOCATE,
SPACE and FF2 decryption (R18 hand-overs 7 to 9, R78 to R84, R93, R94, R111, R267, R270, R421). -/

namespace Sys2Proof.Machine

/-! ### Dispatch to cipher engines and slices (R85, R94) -/

/-- The block being read with a serial number changed by `f`. -/
def State.modRBlk (s : State) (id : Nat) (f : RBlk → RBlk) : State :=
  { s with rtv.blks := modFirst (fun b => b.id == id) f s.rtv.blks }

/-- The block being read with a serial number. -/
def State.rblk? (s : State) (id : Nat) : Option RBlk := s.rtv.blks.find? (fun b => b.id == id)

/-- An engine or slice that a block is to avoid, while another is in service. -/
def avoidOf (s : State) (k : Nat) (n : Option Nat) : Option Nat :=
  match n with
  | some m => if othersIn s k m then some m else none
  | none => none

/-- Whether an idle engine may open a block: not one that failed it three times, nor one whose tag compare failed (R20, R94). -/
def mayOpen (s : State) (b : RBlk) (e : Fin 4) : Bool :=
  s.codec.engines[e].use == .idle && !s.retired 4 e.val && avoidOf s 4 b.tries.first != some e.val && avoidOf s 4 b.tagFailed != some e.val

/-- Whether an idle slice may decode a block: the one that makes its attempts, or any but one to avoid (R20, R82). -/
def mayDecode (s : State) (b : RBlk) (n : Fin 8) : Bool :=
  s.codec.slices[n].use == .idle && !s.retired 3 n.val
    && (match b.want with
        | some m => m == n.val
        | none => avoidOf s 3 b.decTries.first != some n.val && avoidOf s 3 b.avoid != some n.val)

/-- Mode code of a cipher engine that opens a block of a stream (R86): GCM, CBC or CFB-128. -/
def openMode (s : State) (b : RBlk) : Nat :=
  match b.ff2, (s.stream? b.sid).bind (fun x => x.slot.map (fun k => (s.slot x.v k).kind)) with
  | some _, some .ff2Cbc => 1
  | some _, _ => 2
  | none, _ => 0

/-- One block being read from its queue to the lowest-numbered cipher engine that may open it. -/
def dispatchOpen (s : State) : State :=
  match s.rtv.blks.find? (fun b => b.place == .engineQueue && (List.finRange 4).any (mayOpen s b)) with
  | none => s
  | some b =>
    match (List.finRange 4).find? (mayOpen s b) with
    | none => s
    | some e =>
      { s.modRBlk b.id (fun b => { b with place := .engine e.val }) with
        codec.engines := vmod s.codec.engines e (fun c => { c with use := .retrieve b.id, mode := openMode s b, attempt := b.tries.attempt }) }

/-- Frees slice `n`. -/
def freeSlice (n : Fin 8) (s : State) : State := { s with codec.slices := vmod s.codec.slices n (fun c => { c with use := .idle, attempt := 0 }) }
/-- Frees cipher engine `e`. -/
def freeEngine (e : Fin 4) (s : State) : State := { s with codec.engines := vmod s.codec.engines e (fun c => { c with use := .idle, attempt := 0 }) }

/-- The engine whose release buffer a slice has drained is free (R93). -/
def drainRelease (b : RBlk) (s : State) : State := match b.heldBy with | some e => freeEngine (Fin.ofNat 4 e) s | none => s

/-- One block being read from its queue to the lowest-numbered slice that may decode it (R85). Once the slice has taken it, the
engine's release buffer is empty (R93). -/
def dispatchDecode (s : State) : State :=
  match s.rtv.sliceQ.find? (fun i => match s.rblk? i with | some b => (List.finRange 8).any (mayDecode s b) | none => false) with
  | none => s
  | some i =>
    match s.rblk? i with
    | none => s
    | some b =>
      match (List.finRange 8).find? (mayDecode s b) with
      | none => s
      | some n =>
        let s := drainRelease b s
        { s.modRBlk i (fun b => { b with place := .slice n.val, lastSlice := n.val, heldBy := none, want := none }) with
          rtv.sliceQ := s.rtv.sliceQ.filter (fun j => j != i)
          codec.slices := vmod s.codec.slices n (fun c => { c with use := .retrieve i, attempt := b.decTries.attempt }) }

/-- Blocks that wait for a second engine or slice when none is in service are treated as having failed there (R20): they are
extracted, or opened, again. -/
def missSecondRead (s : State) : State :=
  let again (b : RBlk) : RBlk :=
    if b.place == .engineQueue && lacksSecond s 4 b.tries then { b with tries := { repeated := true }, place := .moverQueue, moved := 0 }
    else if b.place == .sliceQueue && lacksSecond s 3 b.decTries then { b with decTries := { repeated := true }, place := .engineQueue, heldBy := none }
    else b
  let gone := (s.rtv.blks.filter (fun b => b.place == .sliceQueue && lacksSecond s 3 b.decTries))
  let s := gone.foldl (fun s b => drainRelease b s) s
  { s with rtv.blks := s.rtv.blks.map again, rtv.sliceQ := s.rtv.sliceQ.filter (fun i => !gone.any (fun b => b.id == i)) }

/-- Blocks being read go to idle engines and slices. -/
def dispatchRead (s : State) : State :=
  let s := (List.range 4).foldl (fun s _ => dispatchOpen s) (missSecondRead s)
  let s := if rbit s.codec.cmpCtrl 4 then s else (List.range 8).foldl (fun s _ => dispatchDecode s) s
  (List.range 4).foldl (fun s _ => dispatchOpen s) s

/-- A block joins the queue for slices, at its front or its end (R85). -/
def queueSlice (front : Bool) (id : Nat) (s : State) : State :=
  let rest := s.rtv.sliceQ.filter (fun i => i != id)
  { s.modRBlk id (fun b => { b with place := .sliceQueue }) with rtv.sliceQ := if front then id :: rest else rest ++ [id] }

/-! ### Parsing framed bytes (R61, R81, R82, R84) -/

/-- The parse of one block: the parser, suffixes seen, the records complete with their ordinal among them and whether their check
value held, whether the record open at the end began in this block, and whether the framing is in error. -/
structure Parse where
  st : ParseSt
  seen : Nat := 0
  out : List (Nat × Bool × Bytes) := []
  beganHere : Bool := false
  framing : Bool := false
  deriving Repr

/-- One framed byte. At an unknown position the first prefix may be of any segment (R84). -/
def Parse.step (p : Parse) (b : Byte) : Parse :=
  if p.framing then p
  else
    let r := frameStep p.st.pos b
    match r.2 with
    | .nothing => { p with st.pos := r.1 }
    | .begins => { p with st := { p.st with pos := r.1, seeking := false, known := true, rev := [] }, beganHere := true }
    | .data b => { p with st := { p.st with pos := r.1, rev := if p.st.seeking then [] else b :: p.st.rev } }
    | .ends crc =>
      let st := { p.st with pos := r.1, rev := [] }
      if p.st.seeking then { p with st := st, seen := p.seen + 1 }
      else
        let bs := p.st.rev.reverse
        { p with st := st, seen := p.seen + 1, out := p.out ++ [(p.seen, crcBytes bs == crc, bs)] }
    | .error => if p.st.known then { p with framing := true } else { p with st := { p.st with pos := r.1, known := true } }

/-- The parse of a block's input bytes after the parser `st`. A read that begins at a block with continues = 1 begins at
first_frame, or discards the block (R84); what follows a block discarded whole agrees with its ends_open (R81). -/
def parseBlock (st : ParseSt) (m : BlockMeta) (input : Bytes) : Parse :=
  let clash := match st.blind with | some open_ => m.continues != open_ | none => false
  if st.begun then { input.foldl Parse.step { st := st, framing := m.continues != st.pos.inside } with }
  else if m.continues then
    match m.firstFrame with
    | none => { st := { st with blind := some m.endsOpen }, framing := clash }
    | some f => (input.drop f).foldl Parse.step { st := { st with begun := true, blind := none }, framing := clash }
  else input.foldl Parse.step { st := { st with begun := true, known := true, blind := none }, framing := clash }

/-- A parse whose ends_open agrees with where it ended (R81); of a block discarded whole it cannot be judged. -/
def Parse.checked (p : Parse) (m : BlockMeta) : Parse :=
  if !p.framing && p.st.begun && m.endsOpen == (p.st.pos == .atRecord) then { p with framing := true } else p

/-! ### Stops and failures of blocks being read -/

/-- Reading ends at block `id` with a status: later blocks of the stream are dropped (R83). -/
def stopAt (sid id : Nat) (st : Status) (s : State) : State :=
  let s := (dropRBlks sid (fun b => decide (id < b.id)) s).modRBlk id (fun b => { b with stop := some st, place := .done, parsed := none })
  { s with rtv.sliceQ := s.rtv.sliceQ.filter (fun i => i != id) }

/-- The unit of a block at hand-overs 7 to 9 (R20). -/
def blockUnit (dsn entry : Nat) : Nat := dsn % 2 ^ 32 + 2 ^ 32 * (entry % 2 ^ 16)

/-- The unit of a block being read. -/
def readUnit (b : RBlk) : Nat := blockUnit b.dsn b.entry

/-- The instance of a block being read, as events have it. -/
def rblkInst (s : State) (b : RBlk) : Nat := match s.stream? b.sid with | some x => x.v.val | none => noInst

/-- One failed attempt at hand-over 9 in slice `n` (R20, R78, R81, R83). `held` says that the slice still holds the block; else its
next attempt waits until that slice is idle. -/
def failDecode (n : Fin 8) (id : Nat) (held : Bool) (s : State) : State :=
  match s.rblk? id with
  | none => s
  | some b =>
    let t0 := b.decTries.here n.val
    let s := raiseResend 9 (readUnit b) t0.attempt 3 n.val (rblkInst s b) s
    let s := { s with codec.slices := vmod s.codec.slices n (fun c => { c with decodeFail := satInc 65535 c.decodeFail }) }
    let two := t0.first.isSome
    let free (s : State) : State := if held then freeSlice n s else s
    let s := match retryAfter t0 n.val (othersIn s 3 n.val) with
      | .again t =>
        let s := s.modRBlk id (fun b => { b with decTries := t, want := some n.val })
        if held then { s with codec.slices := vmod s.codec.slices n (fun c => { c with attempt := t.attempt }) }
        else queueSlice true id s
      | .other t => queueSlice true id (free (s.modRBlk id (fun b => { b with decTries := t, want := none })))
      | .before t =>
        -- a block that fails on two slices ends the job (R83)
        if two then free (stopAt b.sid id .decompCheck s)
        else free (s.modRBlk id (fun b => { b with decTries := t, want := none, place := .engineQueue }))
      | .lost => free (stopAt b.sid id .blockCheck s)
    dispatchRead (strike 3 n.val s)

/-! ### Decoded blocks in order -/

/-- The read side of a stream changed. -/
def modRd (sid : Nat) (f : ReadSt → ReadSt) (s : State) : State := s.modStream sid (fun x => { x with rd := f x.rd })

/-- An item joins what is decoded beyond the position, unless it lies before the position or has joined already. -/
def pushItem (sid : Nat) (i : ReadItem) (s : State) : State :=
  modRd sid (fun r =>
    match i with
    | .record _ _ _ no => if no < r.records || no < r.nextNo then r else { r with ready := r.ready ++ [i], nextNo := no + 1 }
    | .mark _ no => if no < r.marks then r else { r with ready := r.ready ++ [i] }
    | .stop _ _ => { r with ready := r.ready ++ [i] }) s

/-- Removes one block being read. -/
def removeRBlk (id : Nat) (s : State) : State := { s with rtv.blks := s.rtv.blks.filter (fun b => b.id != id) }

/-- Ordinal of the first suffix seen in a block: those before first_frame are counted by the index (R50, R84). -/
def firstOrdinal (b : RBlk) (begun : Bool) (p : Parse) : Nat :=
  if begun then b.recBefore else b.recBefore + (b.recEnded - p.seen)

/-- The first record check of a block that failed, among records that the read delivers: its number. -/
def badRecord (r : ReadSt) (base : Nat) (out : List (Nat × Bool × Bytes)) : Option Nat :=
  (out.find? (fun o => !o.2.1 && decide (r.records ≤ base + o.1) && decide (r.nextNo ≤ base + o.1))).map (fun o => base + o.1)

/-- The blocks of the record that is open before the block in hand, and that block: all that a failed record check concerns (R82). -/
def recordBlks (s : State) (sid id : Nat) : List RBlk := s.rtv.blks.filter (fun b => b.sid == sid && (b.parsed.isSome || b.id == id))

/-- Every block of a record goes to a slice again, another than the one that decoded it (R82). -/
def decodeAgain (bs : List RBlk) (s : State) : State :=
  bs.reverse.foldl (fun s b =>
    queueSlice true b.id (s.modRBlk b.id (fun b => { b with parsed := none, decTries := {}, avoid := some b.lastSlice, want := none }))) s

/-- A record check fails (R18, R82): once, the slice takes a strike and the record's blocks are decompressed again; a failure that
recurs is a record check failure, which ends the job (R83). -/
def recordBad (x : Stream) (b : RBlk) (no : Nat) (s : State) : State :=
  if x.rd.again = some no then dropRBlks x.sid (fun _ => true) (pushItem x.sid (.stop .decompCheck b.dsn) s)
  else
    let bs := recordBlks s x.sid b.id
    let st := match bs with | f :: _ => f.parsed.getD x.rd.parse | [] => x.rd.parse
    let s := strike 3 b.lastSlice (raiseResend 9 (readUnit b) b.decTries.attempt 3 b.lastSlice x.v.val s)
    dispatchRead (decodeAgain bs (modRd x.sid (fun r => { r with parse := st, again := some no }) s))

/-- A block that has passed its checks leaves, unless a record that it touches is still open: then it is kept for R82, with the
blocks before it that the record touches too. -/
def settleParsed (x : Stream) (b : RBlk) (p : Parse) (s : State) : State :=
  let open_ := p.st.pos.inside && !p.st.seeking && p.st.begun
  let keepOld := open_ && !p.beganHere && p.seen == 0
  let s := dropRBlks x.sid (fun c => c.parsed.isSome && !keepOld) s
  if open_ then s.modRBlk b.id (fun c => { c with parsed := some x.rd.parse }) else removeRBlk b.id s

/-- The head block of a stream, decoded, gives its records (R81 to R84). -/
def takeBlock (x : Stream) (b : RBlk) (s : State) : State :=
  let n : Fin 8 := Fin.ofNat 8 b.lastSlice
  let m := metaOfHeader b.plain
  let p := (parseBlock x.rd.parse m b.output).checked m
  if p.framing then failDecode n b.id false s
  else
    let base := firstOrdinal b x.rd.parse.begun p
    let bad := badRecord x.rd base p.out
    let s := passAfter b.decTries 3 { s with codec.slices := vmod s.codec.slices n (fun c => { c with blocks := c.blocks + 1 }) }
    let good := p.out.filter (fun o => match bad with | some k => decide (base + o.1 < k) | none => true)
    let s := good.foldl (fun s o => pushItem x.sid (.record o.2.2 b.dsn b.entry (base + o.1)) s) s
    match bad with
    | some no => recordBad x b no s
    | none => modRd x.sid (fun r => { r with parse := p.st }) (settleParsed x b p s)

/-- One block, filemark or stop from the head of a stream's order, when it is ready. -/
def drainHead (sid : Nat) (s : State) : State :=
  match s.stream? sid, s.rtv.blks.find? (fun b => b.sid == sid && b.parsed.isNone) with
  | some x, some b =>
    if b.place != .done then s
    else match b.stop with
      | some st => dropRBlks sid (fun _ => true) (pushItem sid (.stop st b.dsn) s)
      | none =>
        if b.mark then removeRBlk b.id (pushItem sid (.mark b.dsn b.marksBefore) s)
        else if b.ff2.isSome then
          removeRBlk b.id (modRd sid (fun r => { r with ready := r.ready ++ [.record b.plain 0 b.entry r.nextNo], nextNo := r.nextNo + 1 }) s)
        else takeBlock x b s
  | _, _ => s

/-- The blocks of a stream that are ready, in order. -/
def drainRead (sid : Nat) (s : State) : State := s.rtv.blks.foldl (fun s _ => drainHead sid s) s

/-! ### Destination lists (R246, R267, R277) -/

/-- What came of looking for room in a destination list. -/
inductive Room where
  | found
  /-- The list ends first. -/
  | short
  /-- An entry fails its check. -/
  | bad (index : Nat)
  deriving DecidableEq, Repr

/-- The runs of a job hold `need` bytes. -/
def Job.holds (j : Job) (need : Nat) : Bool := decide (need ≤ (j.dst.map (·.2)).foldl (· + ·) 0)

/-- Takes entries of a job's list until its runs hold `need` bytes; `fuel` bounds the entries. -/
def findRoom (s : State) (space need : Nat) : Nat → Job → Job × Room
  | 0, j => (j, if j.holds need then .found else .short)
  | fuel + 1, j =>
    if j.holds need then (j, .found)
    else match j.entries with
      | [] => (j, .short)
      | e :: rest =>
        if e.link then
          let seg := fetchSegment s space (e.len / 16) e.addr
          match firstBad seg.1 0 with
          | some i => (j, .bad (j.index + 1 + i))
          | none => findRoom s space need fuel { j with entries := seg.1, index := j.index + 1, nextAddr := seg.2 }
        else
          findRoom s space need fuel
            { j with entries := if e.eoc then [] else rest, index := j.index + 1
                     dst := if e.len = 0 then j.dst else j.dst ++ [(e.addr, e.len)] }

/-- Writes bytes over runs; the runs left. -/
def scatterTo (space : Nat) : List (Nat × Nat) → Bytes → State → List (Nat × Nat) × State
  | [], _, s => ([], s)
  | (a, n) :: rs, bs, s =>
    if bs.isEmpty then ((a, n) :: rs, s)
    else if bs.length < n then ((a + bs.length, n - bs.length) :: rs, hostWrite space a bs s)
    else scatterTo space rs (bs.drop n) (hostWrite space a (bs.take n) s)

/-- Entries that a record may take at most in the model's search for room. -/
def roomFuel (need : Nat) : Nat := need / 64 + 65536

/-- The bytes of a record as they stand in the destination: padded with 0 to a multiple of 64 (R267). -/
def paddedRecord (bs : Bytes) : Bytes := padTo (pad64 bs.length) bs

/-- The address at offset `off` of runs, and the bytes from there to the run's end. -/
def runPlace : List (Nat × Nat) → Nat → Option (Nat × Nat)
  | [], _ => none
  | (a, n) :: rs, off => if off < n then some (a + off, n - off) else runPlace rs (off - n)

/-- The runs after their first `n` bytes. -/
def dropRuns : List (Nat × Nat) → Nat → List (Nat × Nat)
  | [], _ => []
  | (a, n) :: rs, k => if k < n then (a + k, n - k) :: rs else dropRuns rs (k - n)

/-- A record has left whole (R267): its length, and the counts. -/
def recordSent (v : Inst) (uid : Nat) (len padded : Nat) (s : State) : State :=
  match s.cmd? (some v) uid with
  | none => s
  | some c =>
    let s := hostWrite (s.space (some v)) ((readParams c.desc).lens + 8 * c.job.delivered) (leBytes 8 len) s
    let s := s.modCmd (some v) uid (fun c =>
      { c with job := { c.job with dst := dropRuns c.job.dst padded, delivered := c.job.delivered + 1, written := c.job.written + padded
                                   sent := 0, tries := {} } })
    s.modInst v (fun i => { i with stats :=
      { i.stats with delivered := i.stats.delivered + 1, deliveredBytes := i.stats.deliveredBytes + len } })

/-- One burst of a record to host memory (R250, R267): the bytes it moves, and whether the record has left whole; or the status that
ends the job, decided before the record's first byte (R83). -/
def deliver (v : Inst) (uid : Nat) (bs : Bytes) (s : State) : Except (Status × Nat) ((Nat × Bool) × State) :=
  match s.cmd? (some v) uid with
  | none => .ok ((0, false), s)
  | some c =>
    let sp := s.space (some v)
    let out := paddedRecord bs
    let r := findRoom s sp out.length (roomFuel out.length) c.job
    match r.2 with
    | .bad i => .error (.align, i)
    | .short => .error (.overrun, noEntry)
    | .found =>
      let s := s.modCmd (some v) uid (fun c => { c with job := r.1 })
      match runPlace r.1.dst r.1.sent with
      | none => .ok ((0, true), recordSent v uid bs.length out.length s)
      | some (a, left) =>
        let n := min (min 4096 (4096 - a % 4096)) (min left (out.length - r.1.sent))
        let s := hostWrite sp a (slice out r.1.sent n) s
        if out.length ≤ r.1.sent + n then .ok ((n, true), recordSent v uid bs.length out.length s)
        else .ok ((n, false), s.modCmd (some v) uid (fun c => { c with job := { c.job with sent := c.job.sent + n, tries := {} } }))

/-! ### Completion of READ_RECORDS (R270) -/

/-- Ends a READ_RECORDS with its counts; OK_CORRECTED when what it read needed a re-read pass or a rebuild (R281). -/
def endRead (v : Inst) (uid : Nat) (st : Status) (mark : Bool) (s : State) : State :=
  match s.cmd? (some v) uid with
  | none => s
  | some c =>
    let corrected := match s.openStream? v c.target with | some x => x.rd.corrected | none => false
    let s := match s.openStream? v c.target with | some x => modRd x.sid (fun r => { r with corrected := false }) s | none => s
    complete (some v) uid
      { status := if st = .ok && corrected then .okCorrected else st, mark := mark, r0 := c.job.delivered, r1 := c.job.written } s

/-- A READ_RECORDS that ends at a record already in part on its way out (R83): the bytes of that record in host memory are undefined, so
free bytes stand from the record's place on, none beyond the host's buffer (log entry 31). -/
def failRecord (v : Inst) (c : Cmd) (st : Status) (entry : Nat) (s : State) : State :=
  let bs := Config.partialRecord c.uid
  let sp := s.space (some v)
  let r := findRoom s sp bs.length (roomFuel bs.length) c.job
  failRead v c st entry (scatterTo sp r.1.dst bs s).2

/-- A running READ_RECORDS meets what needs no burst: its count, a filemark, or a stop. -/
def settleRead (v : Inst) (s : State) (c : Cmd) : State :=
  if c.opcode != 0x20 || !c.running then s
  else if (readParams c.desc).maxRecords ≤ c.job.delivered then
    endRead v c.uid .ok false (match s.openStream? v c.target with | some x => if x.dir == .ff2 then rewindRead x.sid s else s | none => s)
  else match s.openStream? v c.target with
    | none => s
    | some x =>
      match x.rd.ready with
      | .mark d _ :: rest =>
        endRead v c.uid .ok true (modRd x.sid (fun r => { r with ready := rest, marks := r.marks + 1, dsn := d }) s)
      | .stop .endOfData _ :: _ => endRead v c.uid (if c.job.delivered = 0 then .endOfData else .ok) false s
      | .stop st _ :: _ =>
        if x.dir == .ff2 then endRead v c.uid st false (rewindRead x.sid s)
        else if st = .decompCheck then failRecord v c st noEntry s else failRead v c st noEntry s
      | _ => s

/-- Every running READ_RECORDS of an instance that is due. -/
def settleReads (v : Inst) (s : State) : State := if s.moving v then (s.ring (some v)).cmds.foldl (settleRead v) s else s

/-- All of them. -/
def settleAllReads (s : State) : State := allInsts.foldl (fun s v => settleReads v s) s

/-! ### Extraction (hand-over 7) -/

/-- Bytes `off` to `off + n - 1` of a recovered dataset's payload (R38, R39). -/
def RdDs.payload (d : RdDs) (off n : Nat) : Bytes :=
  let rows := (List.range (n / 2048 + 2)).flatMap (fun k =>
    let r := (off / 2048 + k) % 80
    let sub := (off / 2048 + k) / 80
    match d.rows.find? (fun x => x.1 == nominalIndex sub r) with
    | some x => padTo 2048 x.2
    | none => zeros 2048)
  slice rows (off % 2048) n

/-- Whether a dataset carries a read stream's records: those of other tags are passed over (R52). -/
def RdDs.forStream (d : RdDs) (x : Stream) : Bool := d.kind == typeData && d.tag == x.tag && d.part == x.part

/-- Whether extraction of a stream may go on: nothing has stopped it. -/
def mayExtract (s : State) (x : Stream) : Bool :=
  !x.rd.ready.any (fun i => match i with | .stop _ _ => true | _ => false) && !s.rtv.blks.any (fun b => b.sid == x.sid && b.stop.isSome)

/-- What extraction meets next. -/
inductive NextEntry where
  /-- Nothing yet: the dataset is not recovered, or not read. -/
  | wait
  /-- End of data. -/
  | eod
  /-- A dataset that is lost. -/
  | lost (dsn : Nat)
  | entry (d : RdDs) (x : DsIndex) (n : Nat) (e : IndexEntry)
  deriving Repr

/-- Whether a place in the order of datasets, dsn and then position of a group, comes at or before dataset `d`. -/
def upTo (dsn pos : Nat) (d : RdDs) : Bool := decide (dsn < d.dsn) || (dsn == d.dsn && decide (pos ≤ d.pos))

/-- The next entry of a stream (R57, R160): the lowest dataset in hand of its tag from nextDsn on. -/
def nextEntryOf (s : State) (x : Stream) : NextEntry :=
  match s.rtv.ds.find? (fun d => (d.forStream x || (d.kind == 0 && d.lost && d.part == x.part)) && upTo x.rd.nextDsn x.rd.nextPos d) with
  | none => if s.rtv.eodSeen && s.rtv.ds.all (fun d => d.complete || d.lost || (d.kind != typeData && d.kind != 0)) then .eod else .wait
  | some d =>
    if s.rtv.ds.any (fun e => upTo e.dsn e.pos d && upTo x.rd.nextDsn x.rd.nextPos e && e.kind == 0 && !e.lost) then .wait
    else if d.lost then .lost d.dsn
    else if !d.complete then .wait
    else match d.index with
      | none => .lost d.dsn
      | some ix =>
        let n := if d.dsn = x.rd.nextDsn && d.pos = x.rd.nextPos then x.rd.nextEntry else 0
        match ix.entries[n]? with
        | some e => .entry d ix n e
        | none => .wait

/-- The read side moves past entry `n` of dataset `d`; a dataset whose last entry has been taken is taken. -/
def advanceEntry (x : Stream) (d : RdDs) (ix : DsIndex) (n : Nat) (s : State) : State :=
  if n + 1 < ix.entries.length then modRd x.sid (fun r => { r with nextDsn := d.dsn, nextPos := d.pos, nextEntry := n + 1 }) s
  else
    let more := groupPart s x.part && decide (d.pos + 1 < s.chn.grp.k)
    let s := modRd x.sid (fun r =>
      { r with nextDsn := if more then d.dsn else d.dsn + 1, nextPos := if more then d.pos + 1 else 0, nextEntry := 0 }) s
    { s with rtv.ds := modAll (fun e => e.dsn == d.dsn && e.pos == d.pos) (fun e => { e with taken := true }) s.rtv.ds }

/-- A pseudo-block of a stream's order: a filemark or a stop. -/
def pseudoBlk (s : State) (x : Stream) (dsn marks : Nat) (mark : Bool) (stop : Option Status) : RBlk :=
  { id := s.nextId, sid := x.sid, dsn := dsn, entry := 0, encrypted := false, epoch := 0, salt := 0, counter := 0, session := 0
    part := x.part, tag := x.tag, serial := [], bytes := [], marksBefore := marks, mark := mark, stop := stop, place := .done }

/-- A block or pseudo-block joins a stream's order. -/
def addRBlk (b : RBlk) (s : State) : State := { s with rtv.blks := s.rtv.blks ++ [b], nextId := s.nextId + 1 }

/-- Whether the slot of a read stream holds an FF3_GCM root. -/
def hasKey (s : State) (x : Stream) : Bool := match x.slot with | some k => (s.slot x.v k).kind == .ff3Gcm | none => false

/-- Whether a pending copy holds back opening under a stream's slot (R107). -/
def keyWaits (s : State) (x : Stream) : Bool := match x.slot with | some k => (s.slot x.v k).pending.isSome | none => false

/-- Entry `n` of a dataset as a block to read. -/
def blkOfEntry (s : State) (x : Stream) (d : RdDs) (ix : DsIndex) (n : Nat) (e : IndexEntry) : RBlk :=
  let before := ix.entries.take n
  { id := s.nextId, sid := x.sid, dsn := d.dsn, entry := n, encrypted := ix.encrypted, epoch := ix.keyEpoch, salt := ix.salt
    counter := ix.firstCounter + before.countP (fun f => f.kind == 1), session := ix.session, part := ix.partition, tag := ix.streamTag
    serial := ix.cartSerial, bytes := d.payload e.offset e.length
    recBefore := ix.recordsBefore + (before.map (·.recordsEnded)).foldl (· + ·) 0, recEnded := e.recordsEnded
    marksBefore := ix.marksBefore + before.countP (fun f => f.kind == 2) }

/-- A filemark or a stop at the head of what extraction meets joins the order without a burst. -/
def extractPseudo (x : Stream) (s : State) : State :=
  if !mayExtract s x then s
  else match nextEntryOf s x with
    | .eod => addRBlk (pseudoBlk s x x.rd.nextDsn 0 false (some .endOfData)) s
    | .lost d => addRBlk (pseudoBlk s x d 0 false (some .mediumError)) s
    | .entry d ix n e =>
      if e.kind = 2 then
        advanceEntry x d ix n (addRBlk (pseudoBlk s x d.dsn (ix.marksBefore + (ix.entries.take n).countP (fun f => f.kind == 2)) true none) s)
      else if ix.encrypted && !hasKey s x then addRBlk (pseudoBlk s x d.dsn 0 false (some .noKey)) s
      else s
    | .wait => s

/-- The streams that a READ_RECORDS is running on. -/
def activeReads (s : State) : List Stream :=
  s.streams.filter (fun x => !x.ended && x.dir != .append && s.moving x.v
    && (s.ring (some x.v)).cmds.any (fun c => c.opcode == 0x20 && c.running && c.target == x.no))

/-- What can be met without a burst is met, for every stream being read; then what is due completes. -/
def pumpReads (s : State) : State :=
  let s := (activeReads s).foldl (fun s x =>
    (List.range 256).foldl (fun s _ =>
      match s.stream? x.sid with | some y => drainRead y.sid (if y.dir == .read then extractPseudo y s else s) | none => s) s) s
  settleReadBufs (settleAllReads s)

/-- The block of a stream that bursts of hand-over 7 bring next: one that is extracted again, or a new one. A new one joins the
stream's order when its first burst begins. -/
def extracting (s : State) (x : Stream) : Option (RBlk × State) :=
  match s.rtv.blks.find? (fun b => b.sid == x.sid && b.place == .moverQueue) with
  | some b => some (b, s)
  | none =>
    if !mayExtract s x || keyWaits s x then none
    else match nextEntryOf s x with
      | .entry d ix n f =>
        if f.kind != 1 || (ix.encrypted && !hasKey s x) then none
        else
          let b := blkOfEntry s x d ix n f
          some (b, modRd x.sid (fun r => { r with corrected := r.corrected || d.corrected }) (advanceEntry x d ix n (addRBlk b s)))
      | _ => none

/-- One failed attempt at hand-over 7: the block is extracted from its start again; a block lost here is unreadable data (R20, R21). -/
def failExtract (e : Fin 4) (b : RBlk) (s : State) : State :=
  let t := (moverTries s b.moveTries).here e.val
  let s := strike 7 e.val (raiseResend 7 (readUnit b) t.attempt 7 e.val (rblkInst s b) s)
  match retryAfter t e.val (othersIn s 7 e.val) with
  | .again t | .other t | .before t => s.modRBlk b.id (fun b => { b with moveTries := t, moved := 0 })
  | .lost => pumpReads (stopAt b.sid b.id .mediumError s)

/-- Rows of a dataset being read whose stripes do not decode: they become C2 erasures (R209), and its other rows stand. -/
def RdDs.without (d : RdDs) (rows : List Nat) : RdDs := { d with complete := false, rows := d.rows.filter (fun x => !rows.contains x.1) }

/-- Rows of sub-dataset `k` of a dataset, none where missing. -/
def RdDs.subRows (d : RdDs) (k : Nat) : List (Option Bytes) :=
  (List.range 96).map (fun r => (d.rows.find? (fun x => x.1 == nominalIndex k r)).map (·.2))

/-- A dataset with a row added. -/
def RdDs.addRow (d : RdDs) (i : Nat) (row : Bytes) : RdDs :=
  if d.complete || d.rows.any (fun x => x.1 == i) then d else { d with rows := d.rows ++ [(i, row)] }

/-- The dataset of a stripe at a position changed by `f`. -/
def State.modRdAt (s : State) (dsn pos : Nat) (f : RdDs → RdDs) : State :=
  { s with rtv.ds := modAll (fun d => d.dsn == dsn && d.pos == pos) f s.rtv.ds }

/-- C2 over every sub-dataset that lacks 1 to 16 rows (R160 step 2), as after four lost tiers of a full map (R42). -/
def RdDs.c2Fill (d : RdDs) : RdDs :=
  (List.range 32).foldl (fun d k =>
    let rows := d.subRows k
    let missing := rows.countP (·.isNone)
    if missing = 0 || 16 < missing then d
    else match c2Recover rows with
      | some all => all.zipIdx.foldl (fun d x => d.addRow (nominalIndex k x.2) x.1) d
      | none => d) d

/-- Whether every row is present. -/
def RdDs.full (d : RdDs) : Bool := d.rows.length == datasetRows

/-- A dataset being read loses the rows that its buffer gives with poison; C2 gives them again where it can, and they are written anew
(R160, R209). -/
def erasePoison (d : RdDs) (s : State) : State :=
  match d.handle with
  | none => s
  | some h =>
    let x := bufExtent s h
    let bad := poisonIn s x.1 x.2
    if bad.isEmpty then (engineRead x.1 x.2 s).2
    else
      let s := (engineRead x.1 x.2 s).2
      let rows := bad.map (fun st => nominalIndex ((st - x.1) / 192) ((st - x.1) / 2 % 96))
      let f := (d.without rows).c2Fill
      let s := if f.full then bad.foldl (fun s st => freshStripes st 1 s) s else s
      s.modRdAt d.dsn d.pos (fun _ => if f.full then { f with complete := d.complete } else f)

/-- The stripes of a burst of block `b` in its dataset's buffer, the dataset first (R38, R209). -/
def burstPoison (s : State) (b : RBlk) (n : Nat) : Option RdDs :=
  match s.rtv.ds.find? (fun d => d.dsn == b.dsn && d.handle.isSome && (d.index.bind (fun ix => ix.entries[b.entry]?)).isSome) with
  | none => none
  | some d =>
    let x := bufExtent s (d.handle.getD 0)
    let off := ((d.index.bind (fun ix => ix.entries[b.entry]?)).map (·.offset)).getD 0 + b.moved
    let row (k : Nat) : Nat := x.1 + rowOffset (k / 80) (k % 80) / 1024
    if (List.range ((off + n - 1) / 2048 + 1 - off / 2048)).any (fun i => !(poisonIn s (row (off / 2048 + i)) 2).isEmpty) then some d else none

/-- One burst of block `b` into a cipher engine (R250); its check is decided with its last byte. -/
def extractBurst (e : Fin 4) (b : RBlk) (check : Check) (s : State) : State :=
  let n := min 4096 (b.bytes.length - b.moved)
  let bad := burstPoison s b n
  let s := moverMoved e n s
  if bad.isSome then
    -- the rows concerned are recovered, and the block is extracted from its start again
    (match bad with | some d => pumpReads (erasePoison d (s.modRBlk b.id (fun b => { b with moved := 0 }))) | none => s)
  else if b.moved + n < b.bytes.length then s.modRBlk b.id (fun b => { b with moved := b.moved + n })
  else match check with
    | .fail _ => failExtract e b s
    | .pass =>
      let s := s.modRBlk b.id (fun b => { b with moved := 0, moveTries := {}, place := .engineQueue })
      pumpReads (dispatchRead (passAfter b.moveTries 7 s))

/-- BURST_DONE at hand-over 7: a burst of the next block of stream `no` of instance `v` (R18, R20, R250). -/
def extractBlock (e : Fin 4) (v : Inst) (no : Nat) (check : Check) (s : State) : State :=
  match s.openStream? v no with
  | none => s
  | some x =>
    if x.dir != .read || !(activeReads s).any (fun y => y.sid == x.sid) || (s.inst v).state != .active then s
    else match extracting s x with
      | none => s
      | some (b, t) => if moverFor s (moverTries s b.moveTries) = some e then extractBurst e b check (serveOldest 24 4 t) else s

/-! ### Opening (hand-over 8) -/

/-- The block that a cipher engine holds for reading and has not opened. -/
def heldByEngine (s : State) (e : Fin 4) : Option RBlk :=
  match s.codec.engines[e].use with
  | .retrieve id => s.rtv.blks.find? (fun b => b.id == id && b.place == .engine e.val)
  | _ => none

/-- One failed attempt at hand-over 8: code 0 is the hand-over's own check, others are the inverse-pipe check (R20, R90). -/
def failOpen (e : Fin 4) (b : RBlk) (code : Nat) (s : State) : State :=
  let s := if code = 0 then raiseResend 8 (readUnit b) b.tries.attempt 4 e.val (rblkInst s b) s
    else raiseEv .cphSelfcheck 0x8 e.val (rblkInst s b) (leBytes 8 (readUnit b) ++ leBytes 1 b.tries.attempt ++ leBytes 1 code) s
  let s := if code = 0 then s else { s with codec.engines := vmod s.codec.engines e (fun c => { c with selfcheckFail := satInc 65535 c.selfcheckFail }) }
  let s := match retryAfter b.tries e.val (othersIn s 4 e.val) with
    | .again t =>
      let s := s.modRBlk b.id (fun b => { b with tries := t })
      { s with codec.engines := vmod s.codec.engines e (fun c => { c with attempt := t.attempt }) }
    | .other t => freeEngine e (s.modRBlk b.id (fun b => { b with tries := t, place := .engineQueue }))
    | .before t =>
      -- an FF2 block comes from the source list again, a block of tape from its dataset buffer
      freeEngine e (s.modRBlk b.id (fun b => { b with tries := t, place := if b.ff2.isSome then .engineQueue else .moverQueue, moved := 0 }))
    | .lost => freeEngine e (stopAt b.sid b.id .blockCheck s)
  pumpReads (dispatchRead (drainRead b.sid (strike 4 e.val s)))

/-- The tag does not match (R94): once, the block is extracted again for a different engine; twice, the read ends. -/
def tagMismatch (e : Fin 4) (b : RBlk) (s : State) : State :=
  let s := freeEngine e { s with codec.engines := vmod s.codec.engines e (fun c => { c with tagFail := if b.tagFailed.isNone then satInc 65535 c.tagFail else c.tagFail }) }
  let s := match b.tagFailed with
    | none => s.modRBlk b.id (fun b => { b with tagFailed := some e.val, place := .moverQueue, moved := 0, tries := {} })
    | some _ =>
      stopAt b.sid b.id .tagFail
        (raiseEv .tagFail 0x8 e.val (rblkInst s b) (leBytes 4 b.dsn ++ leBytes 2 b.entry ++ leBytes 4 b.epoch) s)
  pumpReads (dispatchRead (drainRead b.sid s))

/-- The block is open: its plaintext waits in the engine's release buffer for a slice (R93); that of an FF2 block is a record (R111). -/
def opened (e : Fin 4) (b : RBlk) (plain : Bytes) (s : State) : State :=
  let s := s.modRBlk b.id (fun b => { b with plain := plain, tagFailed := none, heldBy := some e.val })
  let s := if b.ff2.isSome then freeEngine e (s.modRBlk b.id (fun b => { b with heldBy := none, place := .done })) else queueSlice false b.id s
  let s := match b.tagFailed with | some f => strike 4 f s | none => s
  pumpReads (dispatchRead (passAfter b.tries 4 s))

/-- Plaintext of an FF2 block under a kind of slot (R111). -/
def ff2Plain (kind : SlotKind) (root iv ct : Bytes) : Bytes :=
  match kind with
  | .ff2Cbc => Aes.cbcDecrypt (Aes.roundKeys root) iv ct
  | _ => Aes.cfbDecrypt (Aes.roundKeys root) iv ct

/-- A sealed block in a cipher engine under slot `k`: derivation, tag compare, inverse-pipe check and hand-over 8 in turn (R90, R93,
R94, R99). Code 1 is a tag compare that fails, code 4 a key derivation. -/
def openSealed (e : Fin 4) (x : Stream) (k : SlotNo) (b : RBlk) (check : Check) (s : State) : State :=
  if check = .fail 4 then failOpen e b 4 s
  else
    let key := sessionKey (s.slot x.v k).root b.serial b.part b.session b.epoch
    let s := cacheKey e x.v k b.epoch key s
    match openBlock key b.salt b.counter b.epoch b.tag b.part b.session b.bytes, check with
    | none, _ => tagMismatch e b s
    | some _, .fail 1 => tagMismatch e b s
    | some _, .fail code => failOpen e b code s
    | some plain, .pass => opened e b plain s

/-- CIPHER_OPEN_DONE. -/
def cipherOpen (e : Fin 4) (check : Check) (s : State) : State :=
  match heldByEngine s e with
  | none => s
  | some b =>
    match s.stream? b.sid with
    | none => s
    | some x =>
      match b.ff2, x.slot, b.encrypted with
      | some iv, some k, _ =>
        (match check with
        | .pass => opened e b (ff2Plain (s.slot x.v k).kind (s.slot x.v k).root iv b.bytes) s
        | .fail code => failOpen e b code s)
      | none, _, false =>
        -- a block in the clear passes through unchanged (R89)
        (match check with
        | .pass => opened e b b.bytes s
        | .fail code => failOpen e b code s)
      | none, some k, true => openSealed e x k b check s
      | _, none, _ => s

def execCipherOpenDone (e : Fin 4) (check : Check) (s : State) : Out := next (cipherOpen e check s)

/-! ### Decoding (hand-over 9) -/

/-- The block that a slice holds for reading. -/
def heldBySlice (s : State) (n : Fin 8) : Option RBlk :=
  match s.codec.slices[n].use with
  | .retrieve id => s.rblk? id
  | _ => none

/-- SLICE_DECOMPRESS_DONE: the block decodes under R78 and waits for its turn to be parsed, or one attempt has failed. -/
def decompressDone (n : Fin 8) (check : Check) (s : State) : State :=
  match heldBySlice s n with
  | none => s
  | some b =>
    match decodeBlock b.plain, check with
    | .ok out, .pass =>
      let s := freeSlice n (s.modRBlk b.id (fun b => { b with output := out, place := .done }))
      pumpReads (dispatchRead (drainRead b.sid s))
    | _, _ => pumpReads (drainRead b.sid (failDecode n b.id true s))

def execSliceDecompressDone (n : Fin 8) (check : Check) (s : State) : Out := next (decompressDone n check s)

/-! ### Delivery (hand-over 9 to host memory) -/

/-- One burst CRC that does not match at transmit: the slice sends the burst again (R20, R251). -/
def failDeliver (e : Fin 4) (v : Inst) (c : Cmd) (unit : Nat) (s : State) : State :=
  let t := (moverTries s c.job.tries).here e.val
  let s := strike 7 e.val (raiseResend 9 unit t.attempt 7 e.val v.val s)
  match retryAfter t e.val (othersIn s 7 e.val) with
  | .again t | .other t | .before t => s.modCmd (some v) c.uid (fun c => { c with job := { c.job with tries := t } })
  | .lost => failRecord v c .blockCheck noEntry s

/-- BURST_DONE to host memory: the next burst of a running READ_RECORDS (R250, R251, R267, R270). -/
def deliverNext (e : Fin 4) (v : Inst) (cid : Cid) (check : Check) (s : State) : State :=
  match (s.ring (some v)).cmds.find? (fun c => c.cid == cid.toNat && c.opcode == 0x20 && c.running) with
  | none => s
  | some c =>
    if (s.inst v).state != .active || moverFor s (moverTries s c.job.tries) != some e then s
    else match s.openStream? v c.target with
      | none => s
      | some x =>
        match x.rd.ready with
        | .record bs d n _ :: rest =>
          (match check with
          | .fail _ => failDeliver e v c (blockUnit d n) (serveOldest 28 8 s)
          | .pass =>
            (match deliver v c.uid bs (serveOldest 28 8 s) with
            | .error st => failRecord v c st.1 st.2 s
            | .ok ((k, whole), s) =>
              let s := moverMoved e k (passAfter c.job.tries 7 s)
              if whole then pumpReads (modRd x.sid (fun r => { r with ready := rest, records := r.records + 1, dsn := d }) s) else s))
        | _ => s

/-! ### Moving the tape (R326, R421) -/

/-- A move to a position begins: the tape runs at 6.5 m/s, and the mode is LOCATE unless the move stays in its mode (R326, R421). -/
def beginMove (why : MoveFor) (stay : Bool) (s : State) : State :=
  let s := startLoops (if stay then s else setMode .locate s)
  { s with
    fmt.motion := .positioning, fmt.moveFor := why, fmt.stopped := false, mot.stop := false, mot.target := 6500000
    mot.state := if s.mot.state = .softStart then .softStart else .running }

/-- Whether what is in hand serves a read stream's next dataset. -/
def readCovers (s : State) (x : Stream) : Bool :=
  s.rtv.started && s.rtv.part == x.part && decide (s.rtv.low ≤ x.rd.nextDsn)

/-- Reading of a partition starts anew at a dataset; blocks in flight go on. -/
def readAnew (part low : Nat) (s : State) : State :=
  { dropJobs (dropReadBufs s) with rtv := { part := part, low := low, blks := s.rtv.blks, sliceQ := s.rtv.sliceQ, started := true } }

/-- A read stream needs data that is not in hand: reading starts anew at its position. -/
def needTape (x : Stream) (s : State) : State :=
  if readCovers s x then s
  else
    let s := dropRBlks x.sid (fun _ => true) s
    beginMove .readStart false (readAnew x.part x.rd.nextDsn s)

/-! ### READ_RECORDS (R268, R270) -/

/-- The checks of a READ_RECORDS descriptor. -/
def readFault (c : Cmd) (p : ReadParams) : Option Status :=
  firstFault
    [ (!reservedZero c.desc [(8, 10), (20, 22)], .badParam)
    , (!(aligned64 p.sgl && aligned64 p.lens && aligned64 p.src), .align)
    , (!(decide (1 ≤ p.entries) && decide (p.entries ≤ 256)), .badParam) ]

/-- Starts the job with its first segment, checked whole (R246). -/
def startJob (v : Inst) (c : Cmd) (p : ReadParams) (s : State) : Except Nat State :=
  let seg := fetchSegment s (s.space (some v)) p.entries p.sgl
  match firstBad seg.1 0 with
  | some i => .error i
  | none => .ok (s.modCmd (some v) c.uid (fun c => { c with phase := .running, job := { c.job with entries := seg.1, nextAddr := seg.2 } }))

/-- The runs of a whole list (R245, R246), or the index of the entry that fails its check. -/
def listRuns (s : State) (space : Nat) : Nat → Job → Except Nat (List (Nat × Nat))
  | 0, j => .ok j.dst
  | fuel + 1, j =>
    match findRoom s space (2 ^ 62) fuel j with
    | (_, .bad i) => .error i
    | (j, _) => .ok j.dst

/-- `n` bytes at offset `off` of runs. -/
def runBytes (s : State) (space : Nat) : List (Nat × Nat) → Nat → Nat → Bytes
  | [], _, _ => []
  | (a, len) :: rs, off, n =>
    if len ≤ off then runBytes s space rs (off - len) n
    else
      let k := min n (len - off)
      hostRead s space (a + off) k ++ (if k < n then runBytes s space rs 0 (n - k) else [])

/-- An FF2 source block as a block to read (R111): its number stands for its entry. -/
def ff2Blk (s : State) (x : Stream) (no : Nat) (iv ct : Bytes) : RBlk :=
  { id := s.nextId, sid := x.sid, dsn := 0, entry := no, encrypted := true, epoch := 0, salt := 0, counter := 0, session := 0
    part := x.part, tag := x.tag, serial := [], bytes := ct, ff2 := some iv, place := .engineQueue }

/-- The job on an FF2 stream ends with a status after the blocks before it. -/
def ff2Stop (x : Stream) (st : Status) (s : State) : State := addRBlk (pseudoBlk s x 0 0 false (some st)) s

/-- FF2 source blocks from offset `off` of the source runs (R111): each joins the stream's order, until last, max_records or a fault. -/
def ff2Blocks (v : Inst) (x : Stream) (kind : SlotKind) (runs : List (Nat × Nat)) (total : Nat) : Nat → Nat → Nat → State → State
  | 0, _, _, s => s
  | n + 1, no, off, s =>
    let sp := s.space (some v)
    let h := runBytes s sp runs off 32
    let len := u32 h 16
    let flags := u32 h 20
    if total < off + 32 || !decide (flags < 2) || !zeroAt h 24 8 || len = 0 || 65536 < len
        || (kind == .ff2Cbc && len % 16 != 0) || total < off + 32 + len then ff2Stop x .badLength s
    else
      let s := addRBlk (ff2Blk s x no (slice h 0 16) (runBytes s sp runs (off + 32) len)) s
      if flags = 1 then ff2Stop x .ok s else ff2Blocks v x kind runs total n (no + 1) (off + pad64 (32 + len)) s

/-- READ_RECORDS on an FF2 decrypt stream (R111). -/
def readFf2 (v : Inst) (c : Cmd) (x : Stream) (p : ReadParams) (s : State) : State :=
  match x.slot with
  | none => endSt v c .badOpcode s
  | some k =>
    let q := s.slot v k
    if q.pending.isSome then s
    else if !q.kind.isFf2 then endSt v c .noKey s
    else if !(decide (1 ≤ p.srcEntries) && decide (p.srcEntries ≤ 256)) then endSt v c .badParam s
    else
      let sp := s.space (some v)
      let seg := fetchSegment s sp p.srcEntries p.src
      match firstBad seg.1 0, listRuns s sp 65536 { entries := seg.1, nextAddr := seg.2 } with
      | some i, _ => complete (some v) c.uid { status := .align, entry := i } s
      | _, .error i => complete (some v) c.uid { status := .align, entry := i } s
      | none, .ok runs =>
        match startJob v c p s with
        | .error i => complete (some v) c.uid { status := .align, entry := i } s
        | .ok s => pumpReads (dispatchRead (ff2Blocks v x q.kind runs ((runs.map (·.2)).foldl (· + ·) 0) p.maxRecords 0 0 s))

/-- READ_RECORDS. -/
def readRecords (v : Inst) (c : Cmd) (s : State) : State :=
  let p := readParams c.desc
  match readFault c p with
  | some st => endSt v c st s
  | none =>
    if pausedOut s v then endSt v c .noShare s
    else streamCmd v c [.read, .ff2] (fun x s =>
      if x.dir == .ff2 then readFf2 v c x p s
      else if p.src != 0 || p.srcEntries != 0 then endSt v c .badParam s
      else if tapeHeld s then s
      else match startJob v c p s with
        | .error i => complete (some v) c.uid { status := .align, entry := i } s
        | .ok s => pumpReads (needTape x s)) s

def execReadRecords (v : Inst) (cid : Cid) (s : State) : Out := next (instCmd v cid 0x20 (readRecords v) s)

/-! ### LOCATE and SPACE (R270, R421) -/

/-- A read stream stands at a point of the tape; what was decoded or in flight is dropped (R270). -/
def placeRead (x : Stream) (p : TapePoint) (s : State) : State :=
  rewindRead x.sid (modRd x.sid (fun r => { r with records := p.records, marks := p.marks, dsn := p.dsn }) s)

/-- The command waits until the tape stands at the new position; the channels acquire as the move begins (R149). While a management command
has the tape, it waits to start. -/
def moveThen (v : Inst) (c : Cmd) (x : Stream) (p : TapePoint) (r : Cpl) (s : State) : State :=
  if tapeHeld s then s else
  let s := placeRead x p s
  let s := acquireAll (beginMove .locate false (readAnew x.part p.dsn s))
  s.modCmd (some v) c.uid (fun c => { c with phase := .moveWait r })

/-- LOCATE to a record, a filemark or end of data: beyond end of data it ends there with END_OF_DATA. -/
def locate (v : Inst) (c : Cmd) (p : TapePoint) (s : State) : State :=
  let kind := u8 c.desc 8
  let target := u64 c.desc 16
  if !reservedZero c.desc [(8, 1), (16, 8)] || !decide (kind ≤ 2) then endSt v c .badParam s
  else if pausedOut s v then endSt v c .noShare s
  else streamCmd v c [.read] (fun x s =>
    let short := (kind == 0 && decide (p.records < target)) || (kind == 1 && decide (p.marks < target))
    moveThen v c x p { status := if short then .endOfData else .ok, r0 := p.records, r1 := p.marks, r2 := p.dsn } s) s

def execLocate (v : Inst) (cid : Cid) (point : TapePoint) (s : State) : Out :=
  next (instCmd v cid 0x21 (fun c s => locate v c point s) s)

/-- How a SPACE by `count` units that moved `moved` units ends (R270). -/
def spaceEnd (count moved : Int) (metMark : Bool) : Cpl :=
  { status := if moved < count && !metMark then .endOfData else .ok
    mark := metMark, bop := decide (count < moved) && !metMark, r0 := unsigned 64 moved }

/-- SPACE over records or filemarks. -/
def space (v : Inst) (c : Cmd) (p : TapePoint) (s : State) : State :=
  let kind := u8 c.desc 8
  let count := i64 c.desc 16
  if !reservedZero c.desc [(8, 1), (16, 8)] || !decide (kind ≤ 1) then endSt v c .badParam s
  else if pausedOut s v then endSt v c .noShare s
  else streamCmd v c [.read] (fun x s =>
    let moved : Int := if kind = 0 then (p.records : Int) - x.rd.records else (p.marks : Int) - x.rd.marks
    moveThen v c x p (spaceEnd count moved (kind == 0 && p.metMark)) s) s

def execSpace (v : Inst) (cid : Cid) (point : TapePoint) (s : State) : Out :=
  next (instCmd v cid 0x22 (fun c s => space v c point s) s)

end Sys2Proof.Machine
end

