-- ==== Sys2Proof/Machine/Cart.lean ====
section
/-! DEFINITION. Sys2Proof/Machine/Cart.lean: cartridges: load, unload, calibration, the scan for the end of data, the preset
record (R53, R54, R56, R58, R163 to R166, R274, R275, R333, R422). -/

namespace Sys2Proof.Machine

/-! ### The preset record and start values (R163 to R166) -/

/-- Offsets in cartridge memory (R54). -/
def cmDirectory : Nat := 0x400
def cmPreset : Nat := 0x800
def cmGroup : Nat := 0x900

/-- The preset record that cartridge memory holds, when it is valid. -/
def presetOf (cm : Bytes) : Option Bytes :=
  let r := slice cm cmPreset 128
  if u16 r 0 = 0xE0F3 ∧ u8 r 2 = 1 ∧ slice r 124 4 = crcBytes (patch r 124 (zeros 4)) then some r else none

/-- The set register and taps of zone `z` in a valid preset record. -/
def presetZone (r : Bytes) (z : Nat) : Option (Word × List Int) :=
  if (r.getD 3 0).getLsbD z then
    let b := slice r (16 + 32 * z) 32
    some (pack [(0, u8 b 0 % 64), (6, u8 b 1 % 16), (10, u8 b 2 % 8), (13, u8 b 3 % 32), (18, u8 b 4 % 32), (23, u8 b 5 % 64)],
      (List.range 10).map (fun k => signed 10 (u16 b (8 + 2 * k))))
  else none

/-- The start values of R164: those of the zone entry of a valid preset record, else the board profile's. -/
def recordValues (s : State) (z : Nat) : Word × List Int :=
  match (presetOf s.cart.cm).bind (fun r => presetZone r z) with
  | some v => v
  | none => s.prof.zoneSets.getD z (0x28111118, [0, 0, 0, 256, 0, 0, 0, 0, 0, 0])

/-- Start values of channel `c` in zone `z`: those that calibration left for the rest of the load (R165), else those of R164. -/
def startValues (s : State) (c : Chan) (z : Nat) : Word × List Int := (s.rch[c].startVals.getD z none).getD (recordValues s z)

/-- A set register with the start values' fields; adapt and agc_hold are kept (R164). -/
def keepFlags (old new : Word) : Word := (new &&& 0x1FFFFFFF#32) ||| (old &&& 0x60000000#32)

/-- A cold start of a channel in a zone (R164); mu goes to mu_start (R146). -/
def coldStart (c : Chan) (z : Nat) (s : State) : State :=
  let v := startValues s c z
  { s with rch := vmod s.rch c (fun r =>
      { r.putSet (keepFlags r.set v.1) v.2 with started := r.started.set z true, mu := fld s.rdc.adapt 0 4, muCwos := 0 }) }

/-- Every channel of the map cold-started in a zone. -/
def coldStartAll (z : Nat) (s : State) : State := (mapInService s).foldl (fun s c => coldStart (Fin.ofNat 128 c) z s) s

/-- Calibration (R165): each channel starts from the values of R164 and keeps, for each zone, the set it has adapted to; the CAL CWOs that it
framed count (R166). What the adaptation comes to is the outcome of the analogue path. -/
def calibrate (results : List CalResult) (s : State) : State :=
  (List.range 128).foldl (fun s c =>
    (List.range 3).foldl (fun s z =>
      match results[3 * c + z]? with
      | none => s
      | some x =>
        let ch : Chan := Fin.ofNat 128 c
        let v := recordValues s z
        s.modRch ch (fun r => { r with
          startVals := r.startVals.set z (some (setFld v.1 0 6 x.gain, x.taps))
          framed := r.framed.set z (r.framed.getD z 0 + x.framed) })) s) s

/-- The mean of values, rounded to nearest (R166); which way a half goes is open. -/
def meanRound (l : List Int) : Int :=
  let sum := l.foldl (· + ·) 0
  let n : Int := l.length
  if n = 0 then 0
  else if 2 * (sum % n) = n then rounded 14 sum l.length
  else (2 * sum + n) / (2 * n)

/-- The zone entry of a new preset record: the mean over the map of each field of the active set (R166). -/
def zoneMean (s : State) : Bytes :=
  let cs := (mapInService s).map (fun c => s.rch[Fin.ofNat 128 c])
  let field (lo w : Nat) := meanRound (cs.map (fun r => (fld r.set lo w : Int)))
  let sfield (lo w : Nat) := meanRound (cs.map (fun r => signed w (fld r.set lo w)))
  leBytes 1 (field 0 6).toNat ++ leBytes 1 (field 6 4).toNat ++ leBytes 1 (field 10 3).toNat ++ leBytes 1 (unsigned 8 (sfield 13 5))
    ++ leBytes 1 (unsigned 8 (sfield 18 5)) ++ leBytes 1 (field 23 6).toNat ++ zeros 2
    ++ (List.range 10).flatMap (fun k => leBytes 2 (unsigned 10 (meanRound (cs.map (fun r => r.taps.getD k 0))))) ++ zeros 4

/-- Whether every channel of the map has framed at least 64 CWOs in zone `z` since the load. -/
def zoneFramed (s : State) (z : Nat) : Bool :=
  (mapInService s).all (fun c => decide (64 ≤ s.rch[Fin.ofNat 128 c].framed.getD z 0))

/-- The preset record written at CART_UNLOAD (R166). -/
def newPreset (s : State) : Bytes :=
  let old := presetOf s.cart.cm
  let zone (z : Nat) : Option Bytes :=
    if zoneFramed s z then some (zoneMean s)
    else match old with
      | some r => if (r.getD 3 0).getLsbD z then some (slice r (16 + 32 * z) 32) else none
      | none => none
  let valid := (List.range 3).foldl (fun a z => a + if (zone z).isSome then 2 ^ z else 0) 0
  let r := leBytes 2 0xE0F3 ++ leBytes 1 1 ++ leBytes 1 valid ++ leBytes 8 s.glb.time ++ zeros 4
    ++ (List.range 3).flatMap (fun z => (zone z).getD (zeros 32)) ++ zeros 16
  patch r 124 (crcBytes r)

/-! ### The directory and the scan (R53, R56, R58) -/

/-- What the device sends for a READ from `addr` (R402). -/
def cmRead (addr : Nat) : Bytes := leBytes 1 0x03 ++ beBytes 3 addr

/-- What it sends to write `b` at `addr`, one transaction each: at most 256 bytes, none across a 256-byte boundary (R402); `n` bounds
the transactions. -/
def cmWrites : Nat → Nat → Bytes → List Bytes
  | 0, _, _ => []
  | n + 1, addr, b =>
    if b.isEmpty then []
    else
      let k := 256 - addr % 256
      (leBytes 1 0x02 ++ beBytes 3 addr ++ b.take k) :: cmWrites n (addr + k) (b.drop k)

/-- The status byte at which a READ or WRITE proceeds: cartridge memory present, and not busy (R402). -/
def cmReady (status : Byte) : Bool := status.getLsbD 0 && !status.getLsbD 1

/-- Cartridge memory as a WRITE leaves it; a reader that fails it leaves it as it was. -/
def writeCm (off : Nat) (b : Bytes) (s : State) : State := if s.cart.writes then { s with cart.cm := patch s.cart.cm off b } else s

/-- Writes the directory as State holds it to cartridge memory. -/
def writeDir (s : State) : State := writeCm cmDirectory (dirBytes s.cart.dir) s

/-- The entry of partition `p` changed by `f`, and the directory written. -/
def modDir (p : Nat) (f : DirEntry → DirEntry) (s : State) : State :=
  writeDir { s with cart.dir := s.cart.dir.set p (f (s.dirEntry p)) }

/-- The highest session that a scan found in a partition. -/
def scanSession (scan : List ScanDs) : Nat := (scan.map (·.session)).foldl max 0

/-- Every row of a dataset is recovered from copies that stand before the extent end of dataset `x` (R58). -/
def wholeBy (d x : ScanDs) : Bool :=
  match d.recoveredBy with
  | some (w, b) => decide (w < x.wrap) || (w == x.wrap && decide (b ≤ x.endBit))
  | none => false

/-- The dataset of the highest session, newest first, whose rows, with those of every dataset before it, are all recovered (R58). -/
def lastWhole : List ScanDs → Option ScanDs
  | [] => none
  | x :: before => if wholeBy x x && before.all (fun d => wholeBy d x) then some x else lastWhole before

/-- The end of data of a partition (R58), the datasets of the highest session newest first: the scan ends where no other is accepted within
16 pitches, and goes back from there. -/
def lastGood : List ScanDs → Option ScanDs
  | [] => none
  | x :: before => if (match x.gap with | none => true | some g => decide (16 < g)) then lastWhole (x :: before) else lastGood before

/-- The dataset that ends a partition's data, of the highest session found (R58). -/
def scanEnd (scan : List ScanDs) : Option ScanDs := lastGood ((scan.filter (fun x => x.session == scanSession scan)).reverse)

/-- Where the end of data lies behind dataset `x` (R58): at its own first tier for an EOD dataset, else after the separator that follows
its extent end. -/
def eodBitAfter (x : ScanDs) : Nat := if x.isEod then x.startBit else x.endBit + sepBits

/-- What the scan of a partition makes of its entry; with no dataset that meets R58 the entry stands. DESIGN CHOICE (log entry 102). -/
def scanEntry (e : DirEntry) (scan : List ScanDs) : DirEntry :=
  match scanEnd scan with
  | none => e
  | some x =>
    { e with eodDsn := if x.isEod then x.dsn else x.dsn + 1, eodWrap := x.wrap, eodLx := lxAt x.wrap (eodBitAfter x) }

/-- A formatted entry (R274). -/
def freshEntry (e : DirEntry) : DirEntry :=
  if e.defined then { e with eodDsn := 0, eodWrap := e.firstWrap, eodLx := lxFirst, session := 0 } else e

/-! ### CART_LOAD (R274, R333) -/

/-- The hold-up check (R333). -/
def holdCheck (view : CartView) (s : State) : State :=
  let ok := decide (1000 ≤ view.capUf) && decide (view.esrMohm ≤ 50) && decide (11400 ≤ view.vhold)
  let s := { s with pwr := { s.pwr with capUf := view.capUf, esrMohm := min view.esrMohm 255, vhold := view.vhold, holdOk := ok } }
  if ok then s else raiseEv .holdLow 0x0 noRes noInst (leBytes 2 view.capUf ++ leBytes 1 (min view.esrMohm 255) ++ leBytes 2 view.vhold) s

/-- The load as it completes: directory, end of data, hold-up check, calibration, THREADED. A directory that must be written and
cannot be ends it (R402). -/
def finishLoad (c : Cmd) (view : CartView) (cm : Bytes) (dir : List DirEntry) (blank : Bool) (s : State) : State :=
  let ofPart (p : Nat) := view.scan.filter (fun x => x.part == p)
  let dir := if blank then dir.map freshEntry
    else (dir.zipIdx).map (fun e => if e.1.defined then scanEntry e.1 (ofPart e.2) else e.1)
  let tops := if blank then [] else (List.range 16).map (fun p => (p, scanSession (ofPart p)))
  let serial := slice cm 16 16
  if !view.writes && dirBytes dir != slice cm cmDirectory (dirBytes dir).length then mEnd c .mediumError s else
  let s := writeDir { s with
    cart := { loaded := true, cm := cm, writes := view.writes, serial := serial, dir := dir, tapeSession := tops, tagCounts := if blank then [] else view.tagCounts
              extents := view.scan.map (fun d => { part := d.part, dsn := d.dsn, wrap := d.wrap, startBit := d.startBit, endBit := d.endBit })
              eodBit := if blank then [] else (List.range 16).filterMap (fun p => (scanEnd (ofPart p)).map (fun x => (p, eodBitAfter x))) }
    rtv := {}
    rch := (dropJobs s).rch.map (fun r => { r with framed := [0, 0, 0], started := [false, false, false], startVals := [none, none, none] }) }
  let s := calibrate view.results (holdCheck view s)
  let s := setMode .threaded { s with fmt.motion := .stopped }
  complete none c.uid
    { status := .ok, blank := blank, r0 := u64 serial 0, r1 := u64 serial 8, r2 := dir.countP (·.defined) } s

/-- CART_LOAD. -/
def cartLoad (view : CartView) (c : Cmd) (s : State) : State :=
  let flags := u8 c.desc 8
  if !reservedZero c.desc [(8, 1), (16, 8)] || !decide (flags ≤ 1) || !noTarget c then mEnd c .badParam s
  else if !aligned64 (u64 c.desc 16) then mEnd c .align s
  else if s.glb.mode != .idle then mEnd c .notReady s
  else match view.cm with
    | none => mEnd c .mediumError s
    | some cm =>
      if !manufactureOk cm || !view.threads then mEnd c .mediumError s
      else if directoryOk cm then finishLoad c view cm (dirOfBytes (slice cm cmDirectory 512)) false s
      else if flags = 0 then complete none c.uid { status := .mediumError, blank := true } s
      else
        let image := hostRead s 0 (u64 c.desc 16) 512
        if dirReservedZero image && dirValid (dirOfBytes image) then finishLoad c view cm (dirOfBytes image) true s
        else mEnd c .badParam s

def execCartLoad (cid : Cid) (view : CartView) (s : State) : Out := next (mgmtCmd cid 0xA0 (cartLoad view) s)

/-! ### CART_UNLOAD and CART_CALIBRATE (R275, R422) -/

/-- Whether any stream is open on the cartridge. -/
def cartInUse (s : State) : Bool := s.streams.any (fun x => x.onTape)

/-- A management command takes the tape; from THREADED it stays in THREADED. -/
def takeTape (c : Cmd) (phase : CmdPhase) (s : State) : State :=
  beginMove .mgmt (s.glb.mode == .threaded) (s.modCmd none c.uid (fun c => { c with phase := phase }))

/-- The cartridge is about to leave: preset record and directory are written, and the tape rewinds (R275); MEDIUM_ERROR when the reader
does not take them (R402). -/
def unloadNow (c : Cmd) (s : State) : State :=
  if s.cart.writes then takeTape c .unloadWait (writeDir (writeCm cmPreset (newPreset s) s)) else mEnd c .mediumError s

/-- The tape has been rewound: the cartridge leaves. -/
def unloaded (c : Cmd) (s : State) : State :=
  let s := setMode .idle (if s.glb.mode = .threaded then s else setMode .threaded s)
  mOk c 0 0 0 { dropReadBufs s with
    cart := { cm := s.cart.cm }, rtv := {}, fmt.motion := .stopped, fmt.moveFor := .none
    mot := { s.mot with state := .stopped, stop := false, target := 0, speedRef := 0, speed := 0 } }

/-- CART_UNLOAD. -/
def cartUnload (c : Cmd) (s : State) : State :=
  if !reservedZero c.desc [] || !noTarget c then mEnd c .badParam s
  else if !s.glb.mode.onTape || cartInUse s then mEnd c .notReady s
  else if tapeHeld s then s
  else if s.fmt.sess.isSome then s.modCmd none c.uid (fun c => { c with phase := .sessionWait })
  else unloadNow c s

def execCartUnload (cid : Cid) (s : State) : Out := next (mgmtCmd cid 0xA1 cartUnload s)

/-- CART_CALIBRATE: in THREADED only; it waits while a write session ends (R422), and then reads the calibration regions (R165). -/
def cartCalibrate (results : List CalResult) (c : Cmd) (s : State) : State :=
  if !reservedZero c.desc [] || !noTarget c then mEnd c .badParam s
  else if sessionEnding s then s
  else if s.glb.mode != .threaded then mEnd c .notReady s
  else if tapeHeld s then s
  else takeTape c (.calWait results) s

/-- The move of a management command has ended: the cartridge leaves, or the channels are calibrated and the tape stops. -/
def endTapeWork (s : State) : State :=
  (s.ring none).cmds.foldl (fun s c => match c.phase with
    | .unloadWait => unloaded c s
    | .calWait results => mOk c 0 0 0 (calibrate results (beginStop s))
    | _ => s) s

def execCartCalibrate (cid : Cid) (results : List CalResult) (s : State) : Out :=
  next (mgmtCmd cid 0xA2 (cartCalibrate results) s)

/-- A write session has ended: a CART_UNLOAD that waited for it acts (R422). -/
def afterSession (s : State) : State :=
  (s.ring none).cmds.foldl (fun s c => if c.phase == .sessionWait then unloadNow c s else s) s

end Sys2Proof.Machine
end

