-- ==== Sys2Proof/Machine/Append.lean ====
section
/-! DEFINITION. Sys2Proof/Machine/Append.lean: slices and cipher engines on append, the assembler's bursts and slot decisions,
datasets on their way to tape, verify, rewrite, commit and recovery (R12, R18 to R21, R40 to R47, R56, R59, R79, R80, R87
to R90, R101, R112 to R114, R116, R122 to R131, R137, R288, R366, R420, R422). -/

namespace Sys2Proof.Machine

/-! ### Blocks that are lost (R21) -/

/-- A block or row of a stream is lost at hand-overs 1 to 5 (R21): no command of the stream completes OK after it, and the stream is cut. -/
def loseStream (x : Stream) (s : State) : State := cutStream x.sid .blockCheck (failAll x .blockCheck s)

/-- A block that has failed its last attempt: no part of it reaches tape, and its stream is cut (R21). -/
def loseBlock (id : Nat) (s : State) : State :=
  match s.blks.find? (fun b => b.id == id) with
  | none => s
  | some b =>
    let handle := match b.place with | .sealed h => some h | _ => none
    let s := discardBlocks (fun c => c.id == id) s
    let s := match s.stream? b.sid with
      | some x => loseStream x s
      | none => s
    settleWaits (pump b.sid (giveBack handle s))

/-! ### Coding and sealing (R79, R80, R87 to R90) -/

/-- The append block that a slice holds. -/
def codedIn (s : State) (n : Fin 8) : Option Blk :=
  match s.codec.slices[n].use with
  | .append id => s.blks.find? (fun b => b.id == id)
  | _ => none

/-- The seed of a block: AUTO chooses it from the input (OPEN_STREAM). -/
def seedOf (b : Blk) : Seed := if b.seed = 4 then autoSeed b.input else Seed.ofCode b.seed

/-- One failed attempt at hand-over 2. Code 0 is the hand-over's own check, others the self-check's condition (R80). -/
def failCode (n : Fin 8) (b : Blk) (code : Nat) (s : State) : State :=
  let s := if code = 0 then raiseResend 2 b.seq b.tries.attempt 3 n.val b.v.val s
    else raiseEv .compSelfcheck 0x7 n.val b.v.val (leBytes 8 b.seq ++ leBytes 1 b.tries.attempt ++ leBytes 1 code) s
  let s := if code = 0 then s else { s with codec.slices := vmod s.codec.slices n (fun c => { c with selfcheckFail := satInc 65535 c.selfcheckFail }) }
  let s := match retryAfter b.tries n.val (othersIn s 3 n.val) with
    | .again t =>
      let s := s.modBlk b.id (fun b => { b with tries := t })
      { s with codec.slices := vmod s.codec.slices n (fun c => { c with attempt := t.attempt }) }
    | .other t | .before t =>
      -- a recode that moves goes to the front of the queue (R85)
      let s := freeSlice n s
      { s with blks := { b with tries := t, place := .sliceQueue } :: s.blks.filter (fun c => c.id != b.id) }
    | .lost => loseBlock b.id (freeSlice n s)
  dispatch (strike 3 n.val s)

/-- The check number of SLICE_CODE_DONE for a held copy that fails its burst CRCs when the block is repeated from it (R129). -/
def heldCopyBad : Nat := 10

/-- SLICE_CODE_DONE: the coded block passes hand-over 2, or one attempt has failed. -/
def sliceCode (n : Fin 8) (check : Check) (s : State) : State :=
  match codedIn s n with
  | none => s
  | some b =>
    match check with
    | .fail code => if code = heldCopyBad && b.tries.repeated then dispatch (loseBlock b.id (freeSlice n s)) else failCode n b code s
    | .pass =>
      let coded := codeBlock b.effort (seedOf b) b.head b.input
      let s := s.modBlk b.id (fun b => { b with coded := coded, place := .cipherQueue })
      let s := { s with codec.slices := vmod s.codec.slices n (fun c => { c with use := .idle, attempt := 0, blocks := c.blocks + 1 }) }
      let s := { s with codec.winIn := s.codec.winIn + b.input.length, codec.winCoded := s.codec.winCoded + coded.length }
      dispatch (passAfter b.tries 3 s)

def execSliceCodeDone (n : Fin 8) (check : Check) (s : State) : Out := next (sliceCode n check s)

/-- The append block that a cipher engine holds, and is not done with. -/
def sealedIn (s : State) (e : Fin 4) : Option Blk :=
  match s.codec.engines[e].use with
  | .append id => s.blks.find? (fun b => b.id == id && b.place == .engine e.val)
  | _ => none

/-- One failed attempt at hand-over 3. Code 0 is the hand-over's own check, others the inverse-pipe check's (R90).
A repeat works on the input that is held, under the key epoch and counter the block has (R19). -/
def failSeal (e : Fin 4) (b : Blk) (code : Nat) (s : State) : State :=
  let s := if code = 0 then raiseResend 3 b.seq b.sealTries.attempt 4 e.val b.v.val s
    else raiseEv .cphSelfcheck 0x8 e.val b.v.val (leBytes 8 b.seq ++ leBytes 1 b.sealTries.attempt ++ leBytes 1 code) s
  let s := if code = 0 then s else { s with codec.engines := vmod s.codec.engines e (fun c => { c with selfcheckFail := satInc 65535 c.selfcheckFail }) }
  let s := match retryAfter b.sealTries e.val (othersIn s 4 e.val) with
    | .again t =>
      let s := s.modBlk b.id (fun b => { b with sealTries := t })
      { s with codec.engines := vmod s.codec.engines e (fun c => { c with attempt := t.attempt }) }
    | .other t => freeEngine e { s with blks := { b with sealTries := t, place := .cipherQueue } :: s.blks.filter (fun c => c.id != b.id) }
    | .before t => freeEngine e { s with blks := { b with sealTries := t, place := .sliceQueue } :: s.blks.filter (fun c => c.id != b.id) }
    | .lost => loseBlock b.id (freeEngine e s)
  dispatch (strike 4 e.val s)

/-- The bytes that leave a cipher engine: the sealed block, or the coded block of a stream without a slot (R87, R89). -/
def blkOut (b : Blk) : Bytes :=
  match b.key with
  | some k => sealBlock k.key k.salt k.counter k.epoch b.tag b.part b.session b.coded
  | none => b.coded

/-- CIPHER_SEAL_DONE: the block is sealed and asks for a PAN1 buffer (R236). -/
def cipherSeal (e : Fin 4) (check : Check) (s : State) : State :=
  match sealedIn s e with
  | none => s
  | some b =>
    match check with
    | .fail code => failSeal e b code s
    | .pass =>
      let out := blkOut b
      let s := match b.key with | some k => cacheKey e b.v k.slot k.epoch k.key s | none => s
      let s := s.modBlk b.id (fun b => { b with out := out, place := .panWait e.val })
      settleWaits (settleGrants (onBehalf (panAlloc (reqEngine e.val) out.length (some b.v) true) (passAfter b.sealTries 4 s)))

def execCipherSealDone (e : Fin 4) (check : Check) (s : State) : Out := next (cipherSeal e check s)

/-! ### Hand-over 4: PAN1 to the dataset (R48, R102, R112, R113) -/

/-- One failed attempt at hand-over 4. -/
def failMove (e : Fin 4) (b : Blk) (s : State) : State :=
  let t := (moverTries s b.moveTries).here e.val
  let s := strike 7 e.val (raiseResend 4 b.seq t.attempt 7 e.val b.v.val s)
  match retryAfter t e.val (othersIn s 7 e.val) with
  | .again t | .other t => s.modBlk b.id (fun b => { b with moveTries := t, moved := 0 })
  | .before t =>
    -- repeated from the cipher engine, whose output goes to a PAN1 buffer again
    let s := giveBack (match b.place with | .sealed h => some h | _ => none) s
    dispatch (s.modBlk b.id (fun b => { b with moveTries := t, moved := 0, place := .cipherQueue }))
  | .lost => loseBlock b.id s

/-- The block at the head of a stream's order, sealed, with the PAN1 buffer it stands in and the open dataset that it goes to. -/
def nextSealed (s : State) (x : Stream) : Option (Blk × Nat × DsBuf) :=
  match x.items, s.openDs? x.sid with
  | .block p :: _, some d =>
    match s.blks.find? (fun b => b.sid == x.sid && b.pos == p) with
    | some b => (match b.place with | .sealed h => some (b, h, d) | _ => none)
    | none => none
  | _, _ => none

/-- One burst of a sealed block into its dataset (R250); its check is decided with its last byte. -/
def panBurst (e : Fin 4) (x : Stream) (b : Blk) (h : Nat) (check : Check) (s : State) : State :=
  let n := min 4096 (b.out.length - b.moved)
  let first := (bufExtent s h).1 + b.moved / 1024
  let read := engineRead first ((n + 1023) / 1024) (moverMoved e n s)
  let s := read.2
  -- poisoned data is a failed check (R209)
  if !read.1 then failMove e b s
  else if b.moved + n < b.out.length then s.modBlk b.id (fun b => { b with moved := b.moved + n })
  else match check with
    | .fail _ => failMove e b s
    | .pass =>
      let s := modDs x.sid (fun d => d.addBlock b s.glb.time) s
      let s := s.modStream x.sid (fun x => { x with recordsPlaced := x.recordsPlaced + b.recordsEnded })
      let s := popItem x.sid { s with blks := s.blks.filter (fun c => c.id != b.id) }
      settleWaits (pump x.sid (giveBack (some h) (passAfter b.moveTries 7 s)))

/-- BURST_DONE into the assembler: a burst of the block at the head of stream `no`'s order into its open dataset, which closes
first when it does not take the block. -/
def panIn (e : Fin 4) (v : Inst) (no : Nat) (check : Check) (s : State) : State :=
  match s.streams.find? (fun x => x.v == v && x.no == no && (nextSealed s x).isSome) with
  | none => s
  | some x =>
    match nextSealed s x with
    | none => s
    | some (b, h, d) =>
      if !d.takes b then noteWaits (closeDs d.id s)
      else if moverFor s (moverTries s b.moveTries) != some e then s
      else panBurst e x b h check s

/-- DATASET_IDLE_TIMEOUT (R112): 0 disables. -/
def idleTimeout (v : Inst) (no : Nat) (s : State) : State :=
  if fld s.fmt.appendCfg 8 10 = 0 then s
  else
    match s.streams.find? (fun x => x.v == v && x.no == no && (s.openDs? x.sid).isSome) with
    | none => s
    | some x => match s.openDs? x.sid with | some d => noteWaits (closeDs d.id s) | none => s

def execDatasetIdleTimeout (v : Inst) (no : Nat) (s : State) : Out := next (idleTimeout v no s)

/-! ### Slot decisions (R288, R289) -/

/-- Shares given by INSTANCE_SHARE take effect (R289). -/
def takeShares (s : State) : State :=
  allInsts.foldl (fun s v => if (s.inst v).share = (s.inst v).shareNext then s else putShare v (s.inst v).shareNext s) s

/-- The states whose instances take no part in a decision (R289, R292). -/
def InstState.still : InstState → Bool
  | .quiescing | .quiesced | .frozen | .unassigned => true
  | _ => false

/-- Streams of an instance that wait for a slot. -/
def waiting (s : State) (v : Inst) : List Stream := s.streams.filter (fun x => x.v == v && x.waitSince.isSome)

/-- Room in an instance's quota for one PAN3 buffer (R234, R288). -/
def quotaRoom (s : State) (v : Inst) : Bool :=
  s.pans.quota[v] == 0xFFFFFF || decide (s.pans.heldUnits[v] + panUnits 3 ≤ s.pans.quota[v])

/-- The instances that take part. -/
def participants (s : State) : List Inst :=
  allInsts.filter (fun v => !(waiting s v).isEmpty && (s.inst v).share != 0 && !(s.inst v).state.still && quotaRoom s v)

/-- Credits before the grant: each participant gains its share; one with no waiting stream or share 0 goes to 0. -/
def addCredits (ps : List Inst) (s : State) : State :=
  allInsts.foldl (fun s v =>
    if ps.contains v then s.modInst v (fun i => { i with credit := i.credit + (i.share : Int) })
    else if (waiting s v).isEmpty || (s.inst v).share = 0 then s.modInst v (fun i => { i with credit := 0 }) else s) s

/-- The participant with the highest credit, the lower number on a tie. -/
def winner (s : State) : List Inst → Option Inst
  | [] => none
  | v :: vs => match winner s vs with
    | none => some v
    | some w => if (s.inst v).credit < (s.inst w).credit then some w else some v

/-- The waiting stream that has waited longest. -/
def longest : List Stream → Option Stream
  | [] => none
  | x :: l => match longest l with
    | none => some x
    | some y => if y.waitSince.getD 0 < x.waitSince.getD 0 then some y else some x

/-- Ended streams of instances that can take no part any more: what they sealed is written (R293, R295, R298). -/
def draining (s : State) : List Stream :=
  s.streams.filter (fun x => x.ended && x.waitSince.isSome
    && ((s.inst x.v).state == .frozen || (s.inst x.v).state == .unassigned || ((s.inst x.v).state == .configured && (s.inst x.v).share == 0)))

/-- A stream is granted the position: it asks for a PAN3 buffer. -/
def grantSlot (x : Stream) (charge : Option Inst) (s : State) : State :=
  let s := s.modStream x.sid (fun x => { x with waitSince := none })
  settleGrants (onBehalf (panAlloc reqAssembler 6291456 charge true) { s with pans.asmFor := some x.sid })

/-- SLOT_DECISION. -/
def slotDecision (s : State) : State :=
  let s := noteWaits s
  if 8 ≤ s.fmt.asm.length || s.pans.asmFor.isSome || s.streams.all (fun x => x.waitSince.isNone) then s
  else
    let s := takeShares s
    match longest (draining s) with
    | some x => grantSlot x none s
    | none =>
      let ps := participants s
      let s := addCredits ps s
      let w : Nat := (ps.map (fun v => (s.inst v).share)).foldl (· + ·) 0
      match winner s ps with
      | none => s
      | some v =>
        match longest (waiting s v) with
        | none => s
        | some x =>
          grantSlot x (some v) (s.modInst v (fun i => { i with credit := i.credit - (w : Int), granted := i.granted + 1 }))

def execSlotDecision (s : State) : Out := next (slotDecision s)

/-! ### A dataset's payload (R38, R48, R49, R56, R59) -/

/-- Whether Vault is on for the partition of the write session. -/
def vaultOn (s : State) : Bool := match s.fmt.sess with | some w => (s.dirEntry w.part).vault | none => false

/-- The stream_tag of a dataset's CWO headers: a VAULT dataset's is its member count (R59), others of no stream have 0. -/
def WrDs.headerTag (w : WrDs) : Nat := if w.buf.kind = typeData || w.buf.kind = typeVault then w.buf.tag else 0

/-! ### Commit (R127 to R129, R422) -/

/-- Whether every row of a dataset has a copy that passed. -/
def WrDs.verified (w : WrDs) : Bool := w.unpassed.isEmpty

/-- How many of the oldest datasets are committed: as many as stand before the latest boundary behind which no
verification depends (R127). The boundary after the last dataset counts once its separator is fixed. -/
def committedCount (l : List WrDs) : Nat :=
  ((List.range (l.length + 1)).filter (fun k =>
    let before := l.take k
    let order := match l[k]? with | some y => y.order | none => (match l.getLast? with | some z => z.order + 1 | none => 0)
    before.all (fun w => w.verified && w.closed && decide (w.lastHome < order)))).foldl max 0

/-- What the commit of one dataset does: its place and counts on tape, buffer freed, recovery noted on its stream. A group's payloads
stay until their stripe is group-committed (R317). -/
def commitOne (s : State) (w : WrDs) : State :=
  let d := w.buf
  let x : Extent := { part := d.part, dsn := w.dsn, wrap := w.wrap, startBit := w.startBit, endBit := w.endBit }
  -- what a new session overwrote behind it is no longer there
  let s := { s with cart.extents := s.cart.extents.filter (fun y => y.part != d.part || decide (y.dsn < w.dsn)) ++ [x] }
  let s := if d.kind = typeData then
      setTapeCounts d.part d.tag (d.recordsBefore + (d.entries.map (·.recordsEnded)).foldl (· + ·) 0)
        (d.marksBefore + d.entries.countP (fun e => e.kind == 2)) s
    else s
  let s := match d.sid with
    | some sid => if d.recovered then s.modStream sid (fun x => { x with corrected := true }) else s
    | none => s
  if s.chn.grp.held.any (fun h => h.ds.id == d.id) then s else giveBack d.handle s

/-- The first stripe that position `p` has not committed, as the origin knows it (R317). -/
def posCommit (s : State) (p : Nat) : Nat :=
  if p = 0 then (if s.fmt.commitPart = s.chn.grp.part then s.fmt.commitDsn else 0)
  else (s.chn.grp.commits.lookup p).getD 0

/-- The group commit point moves on (R317): the payloads of stripes below it are freed. -/
def groupCommit (s : State) : State :=
  if !(s.chn.grp.state == 2 && isOrigin s) then s
  else
    let live := (List.range s.chn.grp.size).filter (fun p => !s.chn.grp.isLost p)
    let c := (live.map (posCommit s)).foldl min (posCommit s (live.headD 0))
    let done := s.chn.grp.held.filter (fun h => decide (h.stripe < c))
    let s := { s with chn.grp.commit := max s.chn.grp.commit c, chn.grp.held := s.chn.grp.held.filter (fun h => !decide (h.stripe < c)) }
    done.foldl (fun s h => giveBack h.ds.handle s) s

/-- A member reports its commit point to the origin; at the origin the group commit point is judged anew (R317). -/
def reportCommit (s : State) : State :=
  if s.chn.grp.state != 2 || s.fmt.commitPart != s.chn.grp.part then s
  else if isOrigin s then groupCommit s
  else settleXoff (tellPos 0 0x21 s.chn.grp.position (leBytes 4 s.fmt.commitDsn) s)

/-- The directory takes the end of data of a partition (R53, R56). -/
def setEod (p dsn wrap bit : Nat) (s : State) : State :=
  let s := modDir p (fun e => { e with eodDsn := dsn, eodWrap := wrap, eodLx := lxAt wrap bit }) s
  { s with cart.eodBit := (p, bit) :: s.cart.eodBit.filter (fun x => x.1 != p) }

/-- The session has ended: the directory holds the end of data (R56, R422). -/
def endSession (w : WrDs) (s : State) : State :=
  let p := w.buf.part
  let s := setEod p w.dsn w.wrap w.startBit s
  let s := { s with cart.tapeSession := (p, w.session) :: s.cart.tapeSession.filter (fun x => x.1 != p) }
  -- the next session of a group begins at this EOD dataset, with the next number. DESIGN CHOICE (log entry 18)
  let s := if groupPart s p then { s with chn.grp.s0 := w.dsn, chn.grp.session := s.chn.grp.session + 1, chn.grp.next := 0 } else s
  let s := beginStop (dropGates { s with fmt.sess := none, fmt.cur := none, fmt.lastTier := false, fmt.afterSep := .goOn })
  afterSession s

/-- The commit point moves on (R127): what is committed leaves, and commands that wait on it complete. -/
def updateCommit (s : State) : State :=
  let k := committedCount s.fmt.written
  if k = 0 then settleWaits s
  else
    let done := s.fmt.written.take k
    let rest := s.fmt.written.drop k
    let at_ : Nat × Nat × Nat := match rest with
      | y :: _ => (y.dsn, y.wrap, y.startBit)
      | [] => (s.fmt.nextDsn, s.fmt.wrap, s.fmt.bit)
    let s := { s with fmt.written := rest, fmt.commitDsn := at_.1, fmt.commitWrap := at_.2.1, fmt.commitBit := at_.2.2, fmt.recovery := 0 }
    let s := done.foldl commitOne s
    let s := match done.find? (fun w => w.buf.kind == typeEod) with
      | some w => endSession w s
      | none => s
    settleWaits (reportCommit s)

/-! ### Failing a write for good (R131, R420) -/

/-- The append streams open on the partition of the session, those whose CLOSE_STREAM waits on commit among them. -/
def streamsConcerned (s : State) : List Stream :=
  match s.fmt.sess with | some w => s.streams.filter (fun x => x.dir == .append && x.part == w.part) | none => []

/-- The streams concerned lose what is not on tape: their commands end, they are cut, their buffers are freed. -/
def failStreams (st : Status) (s : State) : State :=
  let xs := streamsConcerned s
  let ids := xs.map (·.sid)
  let s := xs.foldl (fun s x => cutStream x.sid st (failAll x st s)) s
  let gone := s.blks.filter (fun b => ids.contains b.sid)
  let s := discardBlocks (fun b => ids.contains b.sid) s
  let s := { s with streams := s.streams.map (fun x => if ids.contains x.sid then { x with items := [], waitSince := none } else x) }
  gone.foldl (fun s b => match b.place with | .sealed h => giveBack (some h) s | _ => s) s

/-- Frees the datasets that are not on tape: open, and waiting in the queue. -/
def dropUnwritten (s : State) : State :=
  let ds := s.fmt.asm ++ s.fmt.queue
  let s := { s with fmt.asm := [], fmt.queue := [] }
  ds.foldl (fun s d => giveBack d.handle s) s

/-- The group fails on this device (R319). The origin's stream ends with MEDIUM_ERROR and the payloads held are freed; a
member goes on to write the stripes that it holds whole, and ends its session. -/
def failGroup (s : State) : State :=
  if !inGroup s then s
  else if isOrigin s then
    let s := raiseEv .raitFail 0xE noRes noInst (leBytes 4 s.chn.grp.lost.toNat) s
    let keep (id : Nat) : Bool := s.fmt.written.any (fun w => w.buf.id == id)
    let gone := ((s.chn.grp.held.map (·.ds)).filter (fun d => !keep d.id && !(s.fmt.asm ++ s.fmt.queue).any (fun e => e.id == d.id)))
    let s := { s with chn.grp.state := 3, chn.grp.held := [], chn.grp.wanted := [] }
    let s := failStreams .mediumError (dropUnwritten s)
    let s := gone.foldl (fun s d => giveBack d.handle s) s
    powerFor s.glb.mode { s with fmt.sess := s.fmt.sess.map (fun w => { w with ending := true }) }
  else
    let part_ := s.chn.grp.stripes
    let s := { s with chn.grp.state := 3, chn.grp.stripes := [], chn.grp.serve := [], fmt.sess := s.fmt.sess.map (fun w => { w with ending := true }) }
    part_.foldl (fun s x => giveBack x.handle s) (powerFor s.glb.mode s)

/-- The session of a failed write ends without more on tape: its EOD dataset cannot be written either. The directory takes the
commit point as the end of data. DESIGN CHOICE (log entry 58). -/
def endFailed (w : WSession) (s : State) : State :=
  let s := setEod w.part s.fmt.commitDsn s.fmt.commitWrap s.fmt.commitBit s
  let held := s.fmt.written
  let s := beginStop (dropGates { s with
    fmt.sess := none, fmt.written := [], fmt.cur := none, fmt.rewrites := [], fmt.plans := [], fmt.recovering := false, fmt.dropDue := false
    fmt.lastTier := false, fmt.afterSep := .goOn
    cart.tapeSession := (w.part, w.session) :: s.cart.tapeSession.filter (fun x => x.1 != w.part) })
  let s := held.foldl (fun s w => giveBack w.buf.handle s) s
  afterSession (settleWaits (setMode .threaded s))

/-- The tape goes to the commit point: after the stop that is under way, or at once where it stands. -/
def toCommitPoint (s : State) : State :=
  let s := beginStop (dropGates { s with fmt.dropDue := false })
  if s.fmt.motion = .stopped then beginMove .recovery true s else { s with fmt.moveFor := .recovery }

/-- A write that fails permanently (R131): the streams concerned are cut, what is not on tape is freed, and an EOD dataset at the
commit point ends the session. -/
def failWrite (st : Status) (s : State) : State :=
  match s.fmt.sess with
  | none => s
  | some w =>
    if w.failed then endFailed w s
    else
      let held := s.fmt.written
      let s := failStreams st (dropUnwritten { s with
        fmt.written := [], fmt.cur := none, fmt.rewrites := [], fmt.plans := [], fmt.recovering := false
        fmt.lastTier := false, fmt.afterSep := .goOn, fmt.vaultCount := 0, fmt.vaultXor := [] })
      let s := held.foldl (fun s w => giveBack w.buf.handle s) s
      let s := raiseEv .writeFail 0x9 noRes noInst (leBytes 4 s.fmt.commitDsn ++ leBytes 1 st.code) s
      -- a position that fails to write is lost; the origin's failure fails the group (R318, R319)
      let s := if !groupPart s w.part then s
        else if isOrigin s then failGroup (tellAll 0x41 0 (leBytes 1 1) s)
        else tellPos 0 0x40 s.chn.grp.position (leBytes 1 1) s
      let w := { w with ending := true, eodQueued := false, failed := true }
      settleWaits (toCommitPoint { s with fmt.sess := some w, fmt.nextDsn := s.fmt.commitDsn, fmt.recovery := 0 })

/-- Append recovery begins (R130), or the write fails when it has been made recover_max times. The gate drops at the next tier-slot
boundary; a tape that does not write goes to the commit point at once. -/
def startRecovery (fence : Bool) (s : State) : State :=
  if s.fmt.sess.isNone || s.fmt.recovering then s
  else if fld s.fmt.appendCfg 0 2 ≤ s.fmt.recovery then failWrite (if fence then .writeFenced else .mediumError) s
  else
    let s := { s with fmt.recovery := s.fmt.recovery + 1, fmt.recovering := true, fmt.fenceTrigger := fence }
    let s := raiseEv .writeRecovery 0x9 noRes noInst (leBytes 4 s.fmt.commitDsn ++ leBytes 1 s.fmt.recovery) s
    if s.fmt.motion = .running && s.mot.state = .running then { s with fmt.dropDue := true } else toCommitPoint s

/-- Append recovery runs until the uncommitted datasets have been written again (R130). -/
def recoveryRuns (f : Fmt) : Bool := f.recovering || f.queue.any (fun d => d.redo.isSome) || f.written.any (fun w => w.buf.redo.isSome)

/-- The device stands at the commit point again: every uncommitted dataset is written anew, in dsn order, from attempt 0,
with the same dsn and session (R130). -/
def rewind (s : State) : State :=
  let again := s.fmt.written.map (fun w => { w.buf with redo := some (w.dsn, w.vaultPos, w.first), recovered := true, payload := some (w.payload s) })
  { s with fmt := { s.fmt with
      queue := again ++ s.fmt.queue, written := [], cur := none, rewrites := [], plans := [], recovering := false, dropDue := false
      wrap := s.fmt.commitWrap, bit := s.fmt.commitBit, lastTier := false, afterSep := .goOn, slot := 0, rewriteTiers := 0 } }

/-! ### Fixing tiers (R40, R43 to R47, R114, R124, R125) -/

/-- A dataset in hand with a serial number. -/
def State.wr? (s : State) (id : Nat) : Option WrDs := s.fmt.written.find? (fun w => w.buf.id == id)

/-- A dataset in hand changed by `f`. -/
def modWr (id : Nat) (f : WrDs → WrDs) (s : State) : State := { s with fmt.written := modFirst (fun w => w.buf.id == id) f s.fmt.written }

/-- The CWO header of row `i` of a dataset at a tier slot and channel (R30). -/
def planHeader (w : WrDs) (i attempt slot wrap chan : Nat) : CwoHeader :=
  { type := w.buf.kind, attempt := attempt, revision := 0, dsn := w.dsn, cwoIndex := i, partition := w.buf.part
    streamTag := w.headerTag, tierSlot := slot, wrap := wrap, channel := chan }

/-- The channels of a map that are in service now. -/
def chanUp (s : State) (c : Nat) : Bool := !s.retired 0 c && !s.retired 1 c

/-- One judgement counted (R123). -/
def countJudged (fail : Bool) (s : State) : State :=
  { s with fmt.judged := satInc 0xFFFFF s.fmt.judged, fmt.fails := if fail then satInc 0xFFF s.fmt.fails else s.fmt.fails }

/-- The header of a FILL CWO of a dataset's tiers (R31, R40, R44). -/
def fillHeader (w : WrDs) (slot wrap chan : Nat) : CwoHeader :=
  { type := typeFill, attempt := 0, revision := 0, dsn := w.dsn, cwoIndex := 0xFFF, partition := w.buf.part
    streamTag := 0, tierSlot := slot, wrap := wrap, channel := chan }

/-- A FILL CWO at map position `m` of the tier that is being fixed in the tiers of `w` (R40, R44). -/
def fixFill (w : WrDs) (s : State) (m : Nat) : State :=
  let c := w.map.getD m 0
  let p : CwoPlan := { chan := c, mapPos := m, ds := none, index := 0xFFF, attempt := 0, tierSlot := s.fmt.slot
                       header := fillHeader w s.fmt.slot s.fmt.wrap c, tier := s.fmt.tiersFixed, home := w.buf.id }
  if chanUp s c then { s with fmt.plans := s.fmt.plans ++ [p] } else s

/-- One position of a data tier: a CWO is fixed, or goes to the rewrite region, as one that failed,
when its channel has left the map (R43, R123); past the last row it is a FILL CWO (R40). -/
def fixPosition (w : WrDs) (slot : Nat) (s : State) (m : Nat) : State :=
  let i := slot * w.map.length + m
  let c := w.map.getD m 0
  if datasetRows ≤ i then fixFill w s m
  else if chanUp s c then
    let p : CwoPlan := { chan := c, mapPos := m, ds := some w.buf.id, index := i, attempt := 0, tierSlot := slot
                         header := planHeader w i 0 slot s.fmt.wrap c, tier := s.fmt.tiersFixed, home := w.buf.id }
    { s with fmt.plans := s.fmt.plans ++ [p] }
  else countJudged true { s with fmt.rewrites := s.fmt.rewrites ++ [{ ds := w.buf.id, index := i, attempt := 1, pos := m, chan := c }] }

/-- A tier has been fixed: the place moves on. -/
def tierDone (id n copies : Nat) (s : State) : State :=
  modWr id (fun w => { w with written := w.written + n, copies := w.copies + copies })
    { s with
      fmt.slot := s.fmt.slot + 1, fmt.bit := s.fmt.bit + cwoBits, fmt.tiersFixed := s.fmt.tiersFixed + 1 }

/-- Fixes data tier `slot` of the current dataset. -/
def fixData (w : WrDs) (s : State) : State :=
  tierDone w.buf.id w.map.length 0 ((List.range w.map.length).foldl (fixPosition w s.fmt.slot) s)

/-- m_prev of R45 in the map of the tier: the position there of the channel that carried the last attempt; the position that it had,
when the map has no such channel. DEDUCED (log entry 97). -/
def prevPosition (map : List Nat) (r : Rewrite) : Nat := if map.contains r.chan then map.idxOf r.chan else r.pos

/-- Places one queued copy in the rewrite tier; the positions taken so far are carried along, and a copy that finds no
position stays queued. -/
def placeCopy (home : WrDs) (st : List Nat × State) (r : Rewrite) : List Nat × State :=
  let s := st.2
  match s.wr? r.ds, rewritePosition home.map.length (prevPosition home.map r) st.1 with
  | some w, some m =>
    let c := home.map.getD m 0
    let p : CwoPlan := { chan := c, mapPos := m, ds := some r.ds, index := r.index, attempt := r.attempt, tierSlot := s.fmt.slot
                         header := planHeader w r.index r.attempt s.fmt.slot s.fmt.wrap c, tier := s.fmt.tiersFixed, home := home.buf.id }
    (m :: st.1, { s with fmt.plans := s.fmt.plans ++ [p] })
  | none, _ => st
  | some _, none => (st.1, { s with fmt.rewrites := s.fmt.rewrites ++ [r] })

/-- Fixes a rewrite tier of the current dataset's region (R45, R124). -/
def fixRewrite (w : WrDs) (s : State) : State :=
  let down := (List.range w.map.length).filter (fun m => !chanUp s (w.map.getD m 0))
  let q := s.fmt.rewrites
  let r := q.foldl (placeCopy w) (down, { s with fmt.rewrites := [] })
  let free := (List.range w.map.length).filter (fun m => !r.1.contains m)
  let s := { free.foldl (fixFill w) r.2 with fmt.rewriteTiers := s.fmt.rewriteTiers + 1 }
  tierDone w.buf.id w.map.length (r.1.length - down.length) s

/-- Whether a closed dataset is ready to start (R125, R137). -/
def readyToStart (s : State) : Bool := !s.fmt.queue.isEmpty && !s.fmt.recovering

/-- Nothing of the session's streams is left before the tape: the EOD dataset is due (R422). -/
def eodDue (s : State) : Bool :=
  match s.fmt.sess with
  | none => false
  | some w =>
    w.ending && !w.eodQueued && s.fmt.queue.isEmpty && s.fmt.asm.isEmpty && s.pans.asmFor.isNone
      && !s.streams.any (fun x => x.dir == .append && x.part == w.part && x.items.any (fun i => match i with | .flush _ => false | _ => true))

/-- A change of speed at a dataset boundary, during a ramp too (R134): never above the pace ceiling of the zone. -/
def boundarySpeed (s : State) : State :=
  let code := max s.fmt.spWant (publishedCeil s (zoneOf s.fmt.wrap))
  if 5 < code || s.mot.target = speedMm code * 1000 then s
  else { s with fmt.ramping := true, mot.target := speedMm code * 1000 }

/-- The separator of the current dataset is fixed: its region closes (R125, R126). -/
def fixSeparator (w : WrDs) (s : State) : State :=
  let s := modWr w.buf.id (fun w => { w with closed := true, endBit := s.fmt.bit }) s
  let s := { s with fmt := { s.fmt with
    cur := none, slot := 0, rewriteTiers := 0, lastTier := true, afterSep := .goOn, bit := s.fmt.bit + sepBits
    history := (((s.wr? w.buf.id).map (fun w => (w.copies, w.written))).getD (0, 0) :: s.fmt.history).take 64 } }
  let late := s.fmt.rewrites.any (fun r => match s.wr? r.ds with | some y => decide (y.order + 3 ≤ w.order) | none => false)
  if late then startRecovery false s else updateCommit s

/-- A CWO that has been fixed is not yet judged. -/
def unjudged (s : State) : Bool := s.fmt.plans.any (fun p => p.ds.isSome)

/-- Whether the current dataset's region takes another rewrite tier (R125). An EOD dataset that is due is not one ready to start. DEDUCED (log entry 120). -/
def wantsTier (s : State) : Bool := !s.fmt.rewrites.isEmpty || (!readyToStart s && unjudged s)

/-- A dataset begins: it takes its dsn, map and place (R43, R47, R113). -/
def beginDs (d : DsBuf) (p : Nat × Nat) (s : State) : State :=
  let map := mapInService s
  let sess := s.fmt.sess.getD { part := d.part, session := d.session }
  let fresh := d.redo.isNone
  let vault := vaultOn s && fresh
  let pos := if vault && d.kind = typeData then s.fmt.vaultCount + 1 else 0
  let num := d.redo.getD (s.fmt.nextDsn, pos, sess.fresh)
  let w : WrDs :=
    { buf := d, dsn := num.1, session := sess.session, first := num.2.2, vaultPos := num.2.1, wrap := p.1, startBit := p.2, map := map
      unpassed := List.range datasetRows, order := s.fmt.orderNext }
  -- the new number stands in the directory before the first tier of the session (R56)
  let s := if sess.recorded then s else modDir sess.part (fun e => { e with session := sess.session }) s
  let s := { s with fmt := { s.fmt with
    sess := some { sess with recorded := true, fresh := false }
    mapSeq := if map = s.fmt.map then s.fmt.mapSeq else s.fmt.mapSeq + 1
    map := map, cur := some d.id, curDsn := num.1, slot := 0, rewriteTiers := 0, wrap := p.1, bit := p.2, written := s.fmt.written ++ [w]
    lastTier := false, afterSep := .goOn
    orderNext := s.fmt.orderNext + 1, nextDsn := if fresh then s.fmt.nextDsn + 1 else s.fmt.nextDsn } }
  -- every member of a group ends with an EOD dataset at the next stripe (R315)
  let s := if d.kind = typeEod && groupPart s d.part && isOrigin s then tellAll 0x24 0 (leBytes 4 num.1) s else s
  let pay := w.payload s
  let s := if !vault then s
    else if d.kind = typeData then
      { s with fmt.vaultCount := s.fmt.vaultCount + 1, fmt.vaultXor := if s.fmt.vaultCount = 0 then pay else xorBytes s.fmt.vaultXor pay }
    else if d.kind = typeVault then { s with fmt.vaultCount := 0, fmt.vaultXor := [] }
    else s
  fixData w s

/-- The VAULT dataset that closes the group under way (R59). -/
def vaultDs (s : State) (w : WSession) : DsBuf :=
  { id := s.nextId, kind := typeVault, tag := s.fmt.vaultCount, part := w.part, session := w.session
    payload := some s.fmt.vaultXor, openedAt := s.glb.time, lastBlock := s.glb.time, closedAt := s.glb.time }

/-- The EOD dataset (R56). -/
def eodDs (s : State) (w : WSession) : DsBuf :=
  { id := s.nextId, kind := typeEod, part := w.part, session := w.session, openedAt := s.glb.time, lastBlock := s.glb.time, closedAt := s.glb.time }

/-- The partition has no room (R420): what is not on tape is lost to its streams, and the session ends in the room kept. -/
def partitionIsFull (s : State) : State :=
  let s := failStreams .endOfPartition (dropUnwritten s)
  let s := raiseEv .writeFail 0x9 noRes noInst (leBytes 4 s.fmt.commitDsn ++ leBytes 1 0x33) s
  settleWaits { s with fmt.sess := s.fmt.sess.map (fun w => { w with ending := true }) }

/-- The separator passes and the tape then stops (R137). -/
def stopAfterSep (s : State) : State := { s with fmt.lastTier := false, fmt.afterSep := .stop }

/-- A dataset begins at its place; on another wrap the tape turns after the separator (R47, R134, R326). -/
def beginAt (place : Option (Nat × Nat)) (begin_ : (Nat × Nat) → State → State) (s : State) : State :=
  match place with
  | none => stopAfterSep s
  | some p => if p.1 = s.fmt.wrap then begin_ p s else { s with fmt.lastTier := false, fmt.afterSep := .turn p.1 p.2 }

/-- The separator has passed: the gate drops, and the tape stops or turns. -/
def leaveSep (s : State) : State :=
  match s.fmt.afterSep with
  | .goOn => s
  | .stop => beginStop (dropGates { s with fmt.afterSep := .goOn, fmt.stopped := true })
  | .turn w b => beginMove .turn true (dropGates { s with fmt.afterSep := .goOn, fmt.wrap := w, fmt.bit := b })

/-- Whether dataset `d` can be begun (R420): the EOD dataset always, in the room kept for it. -/
def mayBegin (s : State) (part : Nat) (d : DsBuf) : Bool :=
  d.kind == typeEod
    || canBegin (s.dirEntry part) (mapInService s).length s.fmt.wrap s.fmt.bit (vaultOn s && d.kind != typeVault)

/-- At the start of a separator: the speed changes, and the next dataset begins, or the tape stops (R59, R113, R134, R137, R420, R422). -/
def startNext (s : State) : State :=
  let s := boundarySpeed s
  match s.fmt.sess with
  | none => stopAfterSep s
  | some w =>
    let e := s.dirEntry w.part
    let n := (mapInService s).length
    let place := placeNext e n s.fmt.wrap s.fmt.bit
    let vaultDue := vaultOn s && s.fmt.vaultCount == 15
    let closing := eodDue s
    let queueJumps := match s.fmt.queue with | d :: _ => d.redo.isSome | [] => false
    if publishedCeil s (zoneOf ((place.getD (s.fmt.wrap, 0)).1)) = 7 then stopAfterSep s
    else if !queueJumps && (vaultDue || (closing && vaultOn s && s.fmt.vaultCount != 0)) then
      beginAt place (fun p s => beginDs (vaultDs s w) p { s with nextId := s.nextId + 1 }) s
    else if closing then
      beginAt place (fun p s => beginDs (eodDs s w) p { s with nextId := s.nextId + 1, fmt.sess := some { w with eodQueued := true } }) s
    else match s.fmt.queue with
      | [] => stopAfterSep s
      | d :: rest =>
        if mayBegin s w.part d then beginAt place (fun p s => beginDs d p { s with fmt.queue := rest }) s else partitionIsFull s

/-! ### Hand-over 5 (R18, R20, R21, R114) -/

/-- The rows that the blocks of a dataset occupy: the first entry with a byte in row `i`; without one, the first of all. -/
def entryAtRow (d : DsBuf) (i : Nat) : Nat :=
  let p := rowOfIndex i
  let off := p.1 * 163840 + p.2 * 2048
  match d.entries.findIdx? (fun e => decide (p.2 < 80) && decide (e.offset < off + 2048) && decide (off < e.offset + e.length)) with
  | some k => k
  | none => 0

/-- A dataset without its entries from `k` on. -/
def DsBuf.cutAt (d : DsBuf) (k : Nat) : DsBuf :=
  { d with entries := d.entries.take k, area := d.area.take ((d.entries[k]?.map (·.offset)).getD d.area.length) }

/-- The Vault group that counts a payload takes another in its place (R59). -/
def swapVault (w : WrDs) (old new : Bytes) (s : State) : State :=
  let fix (x : Bytes) : Bytes := xorBytes (xorBytes x old) new
  if w.vaultPos = 0 then s
  else if s.fmt.written.any (fun v => v.buf.kind == typeVault && decide (w.order < v.order)) then
    let later (v : WrDs) : Bool := v.buf.kind == typeVault && decide (w.order < v.order)
    let swap (v : WrDs) : WrDs := { v with buf := { v.buf with payload := v.buf.payload.map fix } }
    { s with fmt.written := modFirst later swap s.fmt.written }
  else { s with fmt.vaultXor := fix s.fmt.vaultXor }

/-- A row has failed its last attempt (R21): its stream is cut, its blocks from the row's on leave the dataset, and append recovery writes
the dataset anew without them, so that no part of the block stays on tape (log entry 59). A row of no stream's dataset is written
anew as it is. -/
def loseRow (p : CwoPlan) (s : State) : State :=
  match p.ds.bind (fun id => s.wr? id) with
  | none => s
  | some w =>
    match w.buf.sid.bind (fun sid => s.stream? sid) with
    | none => startRecovery false s
    | some x =>
      let old := w.payload s
      let buf := w.buf.cutAt (entryAtRow w.buf p.index)
      let cut : WrDs := { w with buf := buf }
      startRecovery false (swapVault w old (cut.payload s) (modWr w.buf.id (fun w => { w with buf := buf }) (loseStream x s)))

/-- One failed read of a row at hand-over 5 (R20): the attempts of the rows of the tier so far, by map position. -/
def rowFailure (tier : Nat) (st : List (Nat × Tries) × State) (r : Nat × Fin 4) : List (Nat × Tries) × State :=
  let s := st.2
  match s.fmt.plans.find? (fun p => p.tier == tier && p.mapPos == r.1 && p.ds.isSome) with
  | none => st
  | some p =>
    let t := (moverTries s ((st.1.lookup r.1).getD {})).here r.2.val
    let rest := st.1.filter (fun x => x.1 != r.1)
    let s := strike 7 r.2.val (raiseResend 5 (rowUnit p.header.dsn p.index) t.attempt 7 r.2.val noInst s)
    match retryAfter t r.2.val (othersIn s 7 r.2.val) with
    | .again t | .other t | .before t => ((r.1, t) :: rest, s)
    | .lost => (rest, loseRow p s)

/-- The stripes of the row that a CWO carries, in its dataset's PAN3 buffer (R38). -/
def rowStripe (s : State) (p : CwoPlan) : Option Nat :=
  match (p.ds.bind (fun id => s.wr? id)).bind (fun w => w.buf.handle) with
  | some h => let r := rowOfIndex p.index; some ((bufExtent s h).1 + rowOffset r.1 r.2 / 1024)
  | none => none

/-- A row that reads as poison fails every attempt (R209), on the engines that R20 and R249 give it in turn; `fuel` bounds the attempts. -/
def rowPoison (p : CwoPlan) : Nat → Tries → State → State
  | 0, _, s => s
  | fuel + 1, t, s =>
    let t := moverTries s t
    let e := (moverFor s t).getD 0
    let t := t.here e.val
    let s := strike 7 e.val (raiseResend 5 (rowUnit p.header.dsn p.index) t.attempt 7 e.val noInst s)
    match retryAfter t e.val (othersIn s 7 e.val) with
    | .again t | .other t | .before t => rowPoison p fuel t s
    | .lost => loseRow p s

/-- The rows of a tier are read from their dataset buffers (R209). -/
def readTier (tier : Nat) (s : State) : State :=
  if s.buf.damage.isEmpty then s
  else (s.fmt.plans.filter (fun p => p.tier == tier && p.ds.isSome)).foldl (fun s p =>
    match rowStripe s p with
    | none => s
    | some st =>
      let r := engineRead st 2 s
      if r.1 then r.2 else rowPoison p 12 {} r.2) s

/-- The failed reads of rows of a tier at hand-over 5, in order, each with the mover engine that carried the burst. A row that a second engine
has passed retires the first (R20). -/
def rowFailures (tier : Nat) (errs : List (Nat × Fin 4)) (s : State) : State :=
  let r := errs.foldl (rowFailure tier) ([], s)
  r.1.foldl (fun s x => passAfter x.2 7 s) r.2

/-! ### The write gate (R116, R142, R182, R398) -/

/-- The tier under the write head, the encoder being one tier ahead (R114); none while a separator or a lead-in passes. -/
def headTier (s : State) : Option Nat :=
  if s.fmt.cur.isSome then (if s.fmt.slot ≤ 1 then none else some (s.fmt.tiersFixed - 2))
  else if s.fmt.lastTier then some (s.fmt.tiersFixed - 1) else none

/-- The gate of the channels of preamplifier `k` is shut for its PAFLT# (R398). -/
def chanShut (s : State) (c : Nat) : Bool := s.fmt.pafltShut.getLsbD (c / 16)

/-- The recordings under the head that the closed gate cuts, and those whose preamplifier is shut. -/
def markTier (s : State) : State :=
  match headTier s with
  | none => s
  | some t =>
    let mark (p : CwoPlan) : CwoPlan := { p with cutByGate := p.cutByGate || !s.fmt.gateOpen, underrun := p.underrun || chanShut s p.chan }
    { s with fmt.plans := modAll (fun p => p.tier == t) mark s.fmt.plans }

/-- A tier-slot boundary: a gate that may reopen reopens (R116, R398), and what passes under a closed one is marked. -/
def gateBoundary (s : State) : State :=
  let shut := s.fmt.pafltShut &&& ~~~(s.fmt.pafltFrame &&& ~~~s.fmt.paflt)
  let s := { s with fmt.pafltShut := shut }
  let s := if s.fmt.gateWanted && !s.fmt.gateOpen && s.srv.gateOk && !s.fmt.ctGate then { s with fmt.gateOpen := true, fmt.closedFrames := 0 } else s
  if s.fmt.gateWanted then markTier s else s

/-- The gate drops while writing goes on (R116): in a separator that starts append recovery, elsewhere it cuts the tier. -/
def gateDrop (s : State) : State :=
  if !s.fmt.gateOpen then s
  else
    let s := { s with fmt.gateOpen := false, fmt.closedFrames := 0 }
    if s.glb.mode != .append then s
    else if (headTier s).isNone then startRecovery true s
    else markTier s

/-- What the encoder fixes next: the next tier or the separator of the dataset in hand, or the first tier of the next. -/
def fixNext (s : State) : State :=
  match s.fmt.cur.bind (fun id => s.wr? id) with
  | none => startNext s
  | some w =>
    if s.fmt.slot < dataTiers w.map.length then fixData w s
    else if s.fmt.rewriteTiers < 16 && wantsTier s then fixRewrite w s
    else if !s.fmt.rewrites.isEmpty && !readyToStart s then startRecovery false s
    else fixSeparator w s

/-- TIER_FIX: the write head reaches the start of the tier slot before the next one, or of a separator (R114). A recovery that waits for the
boundary stops the tape here (R130), and so does the end of a separator after which nothing follows (R137). -/
def tierFix (errs : List (Nat × Fin 4)) (s : State) : State :=
  if s.glb.mode != .append || s.fmt.motion != .running then s
  else if s.fmt.dropDue then toCommitPoint s
  else if s.fmt.recovering then s
  else if s.fmt.afterSep != .goOn then leaveSep s
  else gateBoundary (rowFailures s.fmt.tiersFixed errs (readTier s.fmt.tiersFixed (fixNext s)))

def execTierFix (rowErrors : List (Nat × Fin 4)) (s : State) : Out := next (tierFix rowErrors s)

/-! ### Faults while a CWO is recorded (R12, R116) -/

/-- WRITE_FIFO_UNDERRUN: the CWO being recorded on a channel carries the fill pattern. -/
def underrun (c : Chan) (s : State) : State :=
  { s with fmt.plans := modFirst (fun p => p.chan == c.val && some p.tier == headTier s) (fun p => { p with underrun := true }) s.fmt.plans }

def execWriteFifoUnderrun (c : Chan) (s : State) : Out := next (underrun c s)

/-! ### Judgement (R122 to R124, R126) -/

/-- The row that a plan's dataset holds for it (hand-over 5). -/
def plannedRow (s : State) (p : CwoPlan) : Bytes :=
  match p.ds.bind (fun id => s.wr? id) with
  | some w => rowOfCwo (w.payload s) p.index
  | none => []

/-- Whether a readback passes verify (R122). -/
def passesVerify (s : State) (p : CwoPlan) (r : Readback) : Bool :=
  let cfg := s.fmt.verifyCfg
  let h := match r.header with | some b => headerAccepted p.header.wrap b | none => none
  (match h with
    | some h => h.dsn == p.header.dsn && h.cwoIndex == p.header.cwoIndex && h.partition == p.header.partition
        && h.attempt == p.header.attempt && h.tierSlot == p.header.tierSlot && h.channel == p.header.channel
    | none => false)
    && decide (r.smDist ≤ fld cfg 0 2) && !r.flywheeled && (!rbit cfg 2 || r.marksOk)
    && (match r.out with
      | some o => decide (o.iterations ≤ max 1 (fld cfg 3 5)) && decide (o.errors ≤ fld cfg 8 12)
          && crcBytes o.row == crcBytes (plannedRow s p)
      | none => false)
    && !r.overwritten && !p.underrun && !p.cutByGate && chanUp s p.chan

/-- A readback whose header decodes to the CWO of a plan. -/
def Readback.names (r : Readback) (p : CwoPlan) : Bool :=
  match r.header.bind decodeHeader with
  | some h => h.type == p.header.type && h.dsn == p.header.dsn && h.cwoIndex == p.header.cwoIndex && h.attempt == p.header.attempt
      && h.tierSlot == p.header.tierSlot
  | none => false

/-- The readback of a plan, the channel's oldest, with what is left: the channel's oldest one, unless it names a later plan; then the CWO
of this one was not found (R123). -/
def pairUp (p : CwoPlan) (later : List CwoPlan) : List Readback → Option Readback × List Readback
  | [] => (none, [])
  | r :: l => if !r.names p && later.any r.names then (none, r :: l) else (some r, l)

/-- A channel in tracking reads back every CWO that passes it. -/
def readsBack (s : State) (c : Chan) : Bool := (s.rch[c].sync == .tracking || s.rch[c].sync == .flywheeling) && !s.retired 1 c.val

/-- Order, among datasets, of the one in whose tiers a plan lies. -/
def homeOrder (s : State) (p : CwoPlan) : Nat := match s.wr? p.home with | some w => w.order | none => 0

/-- A CWO of channel `c` in the data tiers of its dataset failed: at the eighth, the write channel takes a strike (R366). -/
def noteChanFail (id c : Nat) (s : State) : State :=
  match s.wr? id with
  | none => s
  | some w =>
    let k := (w.chanFails.lookup c).getD 0 + 1
    let s := modWr id (fun w => { w with chanFails := (c, k) :: w.chanFails.filter (fun x => x.1 != c) }) s
    if k = 8 then strike 0 c s else s

/-- The judgement of a CWO that carries a row (R122 to R124, R126). -/
def judgeRow (p : CwoPlan) (id : Nat) (r : Option Readback) (s : State) : State :=
  let ok := match r with | some r => passesVerify s p r | none => false
  let home := homeOrder s p
  let s := countJudged (!ok) s
  if ok then
    updateCommit (modWr id (fun w => { w with unpassed := w.unpassed.filter (fun i => i != p.index), lastHome := max w.lastHome home }) s)
  else
    let s := if p.attempt = 0 && !p.cutByGate then noteChanFail id p.chan s else s
    if p.cutByGate then { s with fmt.rewrites := s.fmt.rewrites ++ [{ ds := id, index := p.index, attempt := p.attempt, pos := p.mapPos, chan := p.chan }] }
    else if 3 ≤ p.attempt then startRecovery false s
    else { s with fmt.rewrites := s.fmt.rewrites ++ [{ ds := id, index := p.index, attempt := p.attempt + 1, pos := p.mapPos, chan := p.chan }] }

/-- The oldest CWO of a channel that carries a row is judged; FILL CWOs before it pass unjudged. A CWO that a tracking channel has not read
back yet is left for later. -/
def judgeFrom (c : Chan) : List CwoPlan → State → State
  | [], s => s
  | p :: later, s =>
    if s.rch[c].done.isEmpty && readsBack s c then s
    else
      let x := pairUp p later s.rch[c].done
      let s := { s.modRch c (fun r => { r with done := x.2 }) with fmt.plans := s.fmt.plans.erase p }
      match p.ds with
      | none => judgeFrom c later s
      | some id => judgeRow p id x.1 s

/-- CWO_JUDGED. -/
def judge (c : Chan) (s : State) : State := judgeFrom c (s.fmt.plans.filter (fun p => p.chan == c.val)) s

def execCwoJudged (c : Chan) (s : State) : Out := next (judge c s)

/-- FENCE_TIMEOUT: the gate has stayed closed for more than fence_frames servo frames (R116). -/
def fenceTimeout (s : State) : State :=
  if s.fmt.gateWanted && !s.fmt.gateOpen && decide (max 1 (fld s.fmt.appendCfg 2 6) < s.fmt.closedFrames) then startRecovery true s else s

def execFenceTimeout (s : State) : Out := next (fenceTimeout s)

/-! ### Restarting (R137) -/

/-- The backlog b in bytes (R135): sealed blocks in PAN1 and datasets whose first tier has not started. -/
def backlog (s : State) : Nat :=
  (s.blks.map (fun b => match b.place with | .sealed _ => b.out.length | _ => 0)).foldl (· + ·) 0
    + ((s.fmt.asm ++ s.fmt.queue).map (fun d => d.area.length)).foldl (· + ·) 0

/-- fill_mark in bytes. -/
def fillMark (s : State) : Nat := fld s.fmt.speedMarks 8 8 * 2 ^ 28

/-- Whether any SYNC or CLOSE_STREAM waits. -/
def commitWaits (s : State) : Bool := allInsts.any (fun v => (s.ring (some v)).cmds.any (·.onCommit))

/-- Whether the stopped tape restarts to write (R137). -/
def restartDue (s : State) : Bool :=
  (readyToStart s && !s.fmt.stopAllowed) || (decide (0 < backlog s) && decide (fillMark s ≤ backlog s)) || commitWaits s || eodDue s

/-- Whether the tape is at rest, a session waits and writing is not under way. -/
def writeIdle (s : State) : Bool :=
  s.fmt.sess.isSome && s.fmt.motion == .stopped && (s.glb.mode == .threaded || s.glb.mode == .locate || s.glb.mode == .append)
    && publishedCeil s (zoneOf s.fmt.wrap) != 7

/-- The run-up to the splice begins: positioning to the end of data for a session's first dataset, in place otherwise (R326). -/
def runUp (s : State) : State :=
  let first := match s.fmt.sess with | some w => w.fresh | none => false
  beginMove .splice (!first) s

/-- TAPE_RESTART: a stopped tape restarts to write. -/
def tapeRestart (s : State) : State := if writeIdle s && !s.fmt.recovering && restartDue s then runUp s else s

def execTapeRestart (s : State) : Out := next (tapeRestart s)

/-- MAX_WAIT_EXPIRY: the oldest closed dataset has waited max_wait_ms. -/
def maxWait (s : State) : State :=
  if writeIdle s && !s.fmt.recovering && readyToStart s then runUp s else s

def execMaxWaitExpiry (s : State) : Out := next (maxWait s)

end Sys2Proof.Machine
end

