-- ==== Sys2Proof/Machine/Servo.lean ====
section
/-! DEFINITION. Sys2Proof/Machine/Servo.lean: servo frames, LX, the write fence, loops L2 and L3 (R170 to R188), and the
preamplifier faults (R398). -/

namespace Sys2Proof.Machine

/-! ### Position (R173 to R177) -/

/-- A ratio (x − y)/(x + y) in Q1.15 (R174); its rounding is free (log entry 14). -/
def ratioQ15 (x y : Nat) : Int :=
  if x + y = 0 then sat16 Config.ratioOfNothing else sat16 (rounded 0 (((x : Int) - y) * 32768) (x + y))

/-- The stripe index that a Gray field spells (R173). -/
def grayOf (k : Nat) : Nat := k ^^^ (k / 2)

/-- The index that a demodulator recovers from a Gray field of `n` bits: the running exclusive-or from the top (R173). -/
def ungray : Nat → Nat → Nat
  | 0, _ => 0
  | n + 1, g => let hi := ungray n (g / 2); 2 * hi + (hi % 2 + g % 2) % 2

/-- What R175 makes of one element's frame: position in 1/4,096 stripe and whether the straddle branch gave it; none when invalid. -/
def resolveY (k : Nat) (n q : Int) : Option (Int × Bool) :=
  let even := k % 2 == 0
  let f : Int := rounded 1 (if even then 32768 + q else 32768 - q) 16
  if q.natAbs ≤ 16384 then
    if 16384 ≤ n.natAbs && (decide (0 < n) != even) then none else some (4096 * k + f, false)
  else if 24576 < n.natAbs then none
  else
    let e : Int := (4096 * k + f + 2048) / 4096
    some (4096 * e + rounded 2 (if e % 2 = 0 then n else -n) 16, true)

/-- The wrap over which the head stands. -/
def headWrap (s : State) : Nat := if s.fmt.sess.isSome && s.glb.mode != .retrieve then s.fmt.wrap else s.rtv.wrap

/-- Element `b` (0 SVA, 1 SVB) reads the servo band of the head's data band plus `b` (R170). -/
def elemBand (s : State) (b : Nat) : Nat := bandOf (headWrap s) + b

/-- A frame as one element finds it (R176): its position, when it is valid. -/
def elemY (s : State) (b : Nat) (r : ElementRead) : Option (Int × Bool) :=
  let k := ungray 10 r.gray.toNat
  if !(r.inWindow || s.srv.state == .search) || r.a + r.b < s.prof.burst || r.c + r.d < s.prof.burst || k / 128 != elemBand s b
  then none
  else resolveY k (ratioQ15 r.a r.b) (ratioQ15 r.c r.d)

/-- The target of element `b`, in 1/4,096 stripe (R177). -/
def targetY (s : State) (b : Nat) : Int :=
  let w := headWrap s
  let line := s.prof.lines.getD (2 * bandOf w + bit (!wrapForward w)) (0, 0)
  4096 * (128 * (bandOf w + b) + (if b = 0 then line.1 else line.2) + 2 * trackOf w)

/-- An element's PES: half the distance from its target, Q1.15, in track pitches (R177). -/
def pesOf (y target : Int) : Int := sat16 (4 * (y - target))

/-! ### Longitudinal index (R178, R179) -/

/-- Quarter, byte, and whether the CRC-6 of an LX field passes (R178). -/
def lxParts (f : BitVec 16) : Nat × Nat × Bool :=
  let n := f.toNat
  (n % 4, n / 4 % 256, crc6 ((List.range 10).map (fun i => f.getLsbD i)) == BitVec.ofNat 6 (n / 1024))

/-- The LX of the next frame: one more forward, one less in reverse. -/
def nextLx (q : Srv) : Nat := if q.forward then (q.lx + 1) % 2 ^ 32 else (q.lx + 2 ^ 32 - 1) % 2 ^ 32

/-- Assembly of LX from four frames of one group (R179). -/
def assembleLx (q : Srv) (quarter byte : Nat) : Srv :=
  let want := if q.forward then q.group.length else 3 - q.group.length
  let start := if q.forward then 0 else 3
  let group := if quarter = want then q.group ++ [(quarter, byte)] else if quarter = start then [(quarter, byte)] else []
  if group.length = 4 then
    { q with group := [], lxValid := true, mismatches := 0
             lx := [3, 2, 1, 0].foldl (fun a i => 256 * a + (group.lookup i).getD 0) 0 + quarter }
  else { q with group := group }

/-- The LX field of a valid frame: assembly, or comparison with the prediction (R179). -/
def takeLx (f : BitVec 16) (q : Srv) : Srv :=
  let p := lxParts f
  if q.lxValid then
    let q := { q with lx := nextLx q }
    if !p.2.2 then q
    else
      let quarter := q.lx % 4
      let byte := (q.lx - quarter) / 256 ^ quarter % 256
      if p.1 = quarter && p.2.1 = byte then { q with mismatches := 0 }
      else if q.mismatches = 0 then { q with mismatches := 1 }
      else { q with lxValid := false, mismatches := 0, group := [] }
  else if p.2.2 then assembleLx q p.1 p.2.1
  else { q with group := [] }

/-! ### The fence (R181, R182) -/

/-- The fence closes: the gate drops where it was open, and the drop is counted and reported with its cause. -/
def fence (cause : Nat) (s : State) : State :=
  let s := { s with srv.gateOk := false }
  if !s.fmt.gateOpen then s
  else
    let s := raiseEv .srvFence 0xC noRes noInst (leBytes 2 (unsigned 16 s.srv.pes) ++ leBytes 4 s.srv.lx ++ leBytes 1 cause)
      { s with srv.cntFences := satInc 65535 s.srv.cntFences }
    gateDrop s

/-- Whether a servo state lets the gate stay open. -/
def SrvState.open_ : SrvState → Bool
  | .locked => true
  | .flywheel => true
  | _ => false

/-- The fence judged after a frame: its first cause that holds (R182). -/
def judgeFence (decided : Bool) (s : State) : State :=
  let past := decided && decide (fld s.srv.fence 0 15 < s.srv.pes.natAbs)
  if past then fence 0 s
  else if !s.srv.state.open_ then (if s.srv.gateOk then fence 1 s else s)
  else if !s.srv.lxValid then (if s.srv.gateOk then fence 2 s else s)
  else if decided then { s with srv.gateOk := true }
  else s

/-- Lock is lost (R181): the fence drops the gate (R182); in APPEND append recovery starts, in RETRIEVE and LOCATE the tape stops to be
positioned again. -/
def enterSearch (s : State) : State :=
  let s := judgeFence false (startSearch s)
  match s.glb.mode with
  | .append => startRecovery true s
  | .retrieve => { beginStop s with fmt.moveFor := .turn }
  | .locate => { beginStop s with fmt.moveFor := if s.fmt.moveFor = .none then .locate else s.fmt.moveFor }
  | _ => s

/-- Frames counted for the gate: closed frames (R116), and whole frames since PAFLT# returned high (R398). -/
def countFrame (s : State) : State :=
  let f := s.fmt
  { s with fmt := { f with
      closedFrames := if f.gateWanted && !f.gateOpen then f.closedFrames + 1 else 0
      pafltFrame := (f.pafltFrame ||| f.pafltOne) &&& ~~~f.paflt
      pafltOne := ~~~f.paflt } }

/-! ### Speeds (R134, R162) -/

/-- A fixed-speed field: codes 6 and 7 act as 5. -/
def fixedCode (c : Nat) : Nat := min c 5

/-- The slower of two speeds, as codes; 7 counts as none. -/
def slower (a b : Nat) : Nat := max a b

/-- The speed at which a run of writing begins: the wanted speed, never above the ceiling of the zone (R134). -/
def writeSpeed (s : State) : Nat :=
  let top := publishedCeil s (zoneOf s.fmt.wrap)
  let want := if 5 < s.fmt.spWant then top else s.fmt.spWant
  min 5 (slower want top)

/-- The speed of RETRIEVE (R161, R162): re-read passes run at 2.4 m/s. -/
def readSpeed (s : State) : Nat :=
  let top := publishedCeil s (zoneOf s.rtv.wrap)
  if s.rtv.reread.isSome || 5 < top then 5
  else if rbit s.rdc.decCfg 18 then slower top (fixedCode (fld s.rdc.decCfg 19 3))
  else top

/-! ### The run-up (R421) -/

/-- The length of a dataset without rewrite tiers and of its separator, in channel bits (R27). -/
def pitchBits (n : Nat) : Nat := dataTiers n * cwoBits + sepBits

/-- Frames of 0.4 mm in `n` channel bits of wrap `w`. -/
def framesOf (w n : Nat) : Nat := ceilDiv (n * 254) (densityOf (zoneOf w) * 4)

/-- The run-up toward a speed code in frames: v² ÷ (2 × a_acc), and one dataset pitch (R421). -/
def runUpFrames (s : State) (w code : Nat) : Nat :=
  ceilDiv (speedMm code ^ 2) (80 * max 1 (fld s.mot.accel 0 8)) + framesOf w (pitchBits (mapInService s).length)

/-- Where the gate opens, or the channels acquire, after the move under way, with the speed there: wrap, LX and code. Of a read it is known
when the place of the dataset is. -/
def moveAim (s : State) : Option (Nat × Nat × Nat) :=
  match s.fmt.moveFor with
  | .splice => some (s.fmt.wrap, lxAt s.fmt.wrap (s.fmt.bit - sepBits), writeSpeed s)
  | .recovery => some (s.fmt.commitWrap, lxAt s.fmt.commitWrap (s.fmt.commitBit - sepBits), writeSpeed s)
  | .turn => if s.glb.mode = .append then some (s.fmt.wrap, lxAt s.fmt.wrap 0, writeSpeed s) else none
  | .readStart | .reread =>
    (s.cart.extents.find? (fun x => x.part == s.rtv.part && x.dsn + 1 == s.rtv.low)).map (fun x => (x.wrap, lxAt x.wrap x.endBit, readSpeed s))
  | .locate | .mgmt | .none => none

/-- The run-up begins once the head is as near to its aim as the run-up is long (R421). -/
def runUpAt (s : State) : State :=
  if s.fmt.motion != .positioning || !s.srv.lxValid then s
  else match moveAim s with
    | none => s
    | some (w, lx, code) =>
      if (max s.srv.lx lx - min s.srv.lx lx) ≤ runUpFrames s w code then { s with mot.target := speedMm code * 1000 } else s

/-! ### Loops L2 and L3 (R183, R186, R188) -/

/-- A stopping or stopped tape below 0.3 m/s: L2 holds its last output (R192). -/
def l2Holds (s : State) : Bool := (s.mot.state == .stopping || s.mot.state == .stopped) && decide (s.mot.speed < 300)

/-- One L2 sample: a bank swap is asked for when the speed has crossed the switch speed, then the loop computes −PES. -/
def l2Sample (s : State) : State :=
  if l2Holds s then s else
  let high := decide (s.prof.l2Switch ≤ s.mot.speed)
  let s := if s.loopOn 2 && high != s.mot.l2High then { bankSwap 2 s with mot.l2High := high } else s
  runLoop 2 (sat16 (-s.srv.pes)) { s with srv.l2Count := s.srv.l2Count + 1 }

/-- L3_SAMPLE: the mean of the azimuth errors of its 16 frames, or its last input again (R183, R186). -/
def l3Sample (s : State) : State :=
  if s.srv.l2Count < 16 then s
  else
    let es := s.srv.azErrs
    let x := if es.isEmpty || !rbit s.srv.ctrl 2 then s.mot.loop[3].input else sat16 (-(rounded 9 (es.foldl (· + ·) 0) es.length))
    runLoop 3 x { s with srv.l2Count := s.srv.l2Count - 16, srv.azErrs := [] }

def execL3Sample (s : State) : Out := next (l3Sample s)

/-- The azimuth error of a frame that both elements find valid (R183). -/
def azimuth (s : State) (interval : Int) : Int := sat16 (64 * clampI (-512) 512 (interval - s.prof.azZero))

/-! ### Frames (R176, R179, R181) -/

/-- A valid frame in the state machine. -/
def lockOn (q : Srv) : Srv :=
  let good := q.good + 1
  match q.state with
  | .search => if 4 ≤ good && q.lxValid then { q with state := .locked, good := good, missed := 0 } else { q with good := good, missed := 0 }
  | .off => q
  | _ => { q with state := .locked, good := good, missed := 0 }

/-- SERVO_FRAME_DECIDED: a frame that at least one element finds valid. -/
def frameDecided (f : ServoFrame) (s : State) : State :=
  if s.srv.state = .off then s
  else
    let ya := if rbit s.srv.ctrl 0 then f.elemA.bind (elemY s 0) else none
    let yb := if rbit s.srv.ctrl 1 then f.elemB.bind (elemY s 1) else none
    if ya.isNone && yb.isNone then s
    else
      let pa := ya.map (fun y => pesOf y.1 (targetY s 0))
      let pb := yb.map (fun y => pesOf y.1 (targetY s 1))
      let pes : Int := match pa, pb with
        | some a, some b => rounded 10 (a + b) 2
        | some a, none => a
        | none, some b => b
        | none, none => s.srv.pes
      let az := if ya.isSome && yb.isSome && rbit s.srv.ctrl 2 then some (azimuth s f.interval) else none
      let q := s.srv
      let q := { q with
        validA := ya.isSome, validB := yb.isSome, straddle := ((ya.or yb).map (·.2)).getD false, pes := pes
        yA := match ya with | some y => y.1.toNat % 2 ^ 22 | none => q.yA
        yB := match yb with | some y => y.1.toNat % 2 ^ 22 | none => q.yB
        az := az.getD q.az, azErrs := match az with | some a => q.azErrs ++ [a] | none => q.azErrs }
      let s := runUpAt (countFrame { s with srv := lockOn (takeLx f.lxField q) })
      l2Sample (judgeFence true s)

def execServoFrameDecided (f : ServoFrame) (s : State) : Out := next (frameDecided f s)

/-- FRAME_MISSED: 412 µm without a valid frame (R176, R181). -/
def frameMissed (s : State) : State :=
  if s.srv.state = .off then s
  else
    let q := s.srv
    let missed := q.missed + 1
    let q := { q with
      validA := false, validB := false, good := 0, missed := missed, cntMissed := satInc 65535 q.cntMissed, group := []
      lx := if q.lxValid then nextLx q else q.lx }
    let s := runUpAt (countFrame { s with srv := q })
    let lost := max 4 (fld s.srv.fence 18 4)
    let s :=
      if s.srv.state = .search then s
      else if lost ≤ missed then enterSearch s
      else if fld s.srv.fence 16 2 < missed then judgeFence false { s with srv.state := .fenced }
      else { s with srv.state := .flywheel }
    l2Sample s

def execFrameMissed (s : State) : Out := next (frameMissed s)

/-! ### Preamplifier faults (R398) -/

/-- PAFLT_ASSERT: WGATE[k] drops. -/
def pafltAssert (k : Fin 8) (s : State) : State :=
  let b : BitVec 8 := BitVec.twoPow 8 k.val
  markTier { s with fmt.paflt := s.fmt.paflt ||| b, fmt.pafltShut := s.fmt.pafltShut ||| b
                    fmt.pafltOne := s.fmt.pafltOne &&& ~~~b, fmt.pafltFrame := s.fmt.pafltFrame &&& ~~~b }

def execPafltAssert (k : Fin 8) (s : State) : Out := next (pafltAssert k s)

/-- PAFLT_DEASSERT: a whole servo frame begins after which WGATE[k] may reopen. -/
def pafltDeassert (k : Fin 8) (s : State) : State :=
  let b : BitVec 8 := BitVec.twoPow 8 k.val
  { s with fmt.paflt := s.fmt.paflt &&& ~~~b, fmt.pafltOne := s.fmt.pafltOne &&& ~~~b, fmt.pafltFrame := s.fmt.pafltFrame &&& ~~~b }

def execPafltDeassert (k : Fin 8) (s : State) : Out := next (pafltDeassert k s)

/-- The levels of WGATE[0] to WGATE[7] (R398). -/
def wgate (s : State) : BitVec 8 := if s.fmt.gateOpen then ~~~s.fmt.pafltShut else 0

end Sys2Proof.Machine
end

