-- ==== Sys2Proof/Machine/Motion.lean ====
section
/-! DEFINITION. Sys2Proof/Machine/Motion.lean: loops L0 and L1, the motion link, motion faults, controlled stops, and the
commands of the motion registers (R186, R187, R189 to R199, R420, R421). -/

namespace Sys2Proof.Machine

/-! ### Motion faults (R190, R198) -/

/-- Whether a READ_RECORDS must read from tape: nothing in hand serves it. -/
def mustRead (s : State) (v : Inst) (c : Cmd) : Bool :=
  c.opcode == 0x20 && c.running && (match s.openStream? v c.target with
    | some x => x.rd.ready.isEmpty && !s.rtv.blks.any (fun b => b.sid == x.sid)
        && (match nextEntryOf s x with | .wait => true | _ => false)
    | none => false)

/-- Whether a command waits for the tape to move (R190). -/
def needsMotion (s : State) (v : Inst) (c : Cmd) : Bool :=
  mustRead s v c || (match c.phase with | .moveWait _ => true | _ => false)

/-- The commands in progress that need motion complete with MEDIUM_ERROR. -/
def failMoves (s : State) : State :=
  let s := allInsts.foldl (fun s v => (s.ring (some v)).cmds.foldl (fun s c =>
    if needsMotion s v c then
      (if c.opcode == 0x20 then
        complete (some v) c.uid { status := .mediumError, r0 := c.job.delivered, r1 := c.job.written, entry := noEntry } s
       else completeSt (some v) c.uid .mediumError s)
    else s) s) s
  (s.ring none).cmds.foldl (fun s c => match c.phase with
    | .sessionWait | .unloadWait | .calWait _ => completeSt none c.uid .mediumError s
    | _ => s) s

/-- A motion fault (R190): gates drop, the reels brake under code 1, the loops are off; in APPEND append recovery
follows, in every other mode the commands that need motion end and the device stays in THREADED. -/
def motionFault (e : Ev) (detail : Bytes) (s : State) : State :=
  let s := brakeReels 1 { s with fmt.gateOpen := false, mot.overPos := 0, mot.overT := 0, mot.badFrames := 0 }
  let s := raiseEv e 0xD noRes noInst detail s
  if s.glb.mode = .append then startRecovery false { s with fmt.recovering := false, fmt.dropDue := false }
  else
    let s := failMoves { s with fmt.moveFor := .none, rtv.reread := none }
    if s.glb.mode = .retrieve || s.glb.mode = .locate then setMode .threaded s else s

/-! ### L0 and L1 (R186, R187, R189) -/

/-- Reference acceleration in Q1.15 of ±20 m/s² (R187): a limit in units of 0.1 m/s². -/
def accelQ15 (a : Nat) : Int := sat16 (rounded 11 (min a 200 * 32768 : Nat) 200)

/-- The acceleration in use now, signed along the tape, and the change of the speed reference in one L1 sample. -/
def accelNow (s : State) : Int × Nat :=
  let up := fld s.mot.accel 0 8
  let down := fld s.mot.accel 8 8
  let dir : Int := if s.srv.forward then 1 else -1
  if s.mot.speedRef < s.mot.target then (dir * accelQ15 up, min up 200 * 20)
  else if s.mot.target < s.mot.speedRef then (-dir * accelQ15 down, min down 200 * 20)
  else (0, 0)

/-- The speed reference after one L1 sample: it moves toward its target and no further. -/
def stepRef (ref target step : Nat) : Nat := if ref < target then min target (ref + step) else max target (ref - step)

/-- The soft-start set-point after `n` samples (R189). -/
def rampT (s : State) : Int :=
  let n := s.mot.tSamples
  let total := fld s.mot.tension 16 16
  let nom : Int := fld s.mot.tension 0 15
  if total ≤ n then nom else s.mot.tStart + rounded 6 ((nom - s.mot.tStart) * n) total

/-- The tension feed-forward Δ (R187). -/
def feedForward (s : State) (aRef : Int) : Int := sat16 ((signed 16 (fld s.mot.ff 0 16) * aRef + 2 ^ 14) / 2 ^ 15)

/-- Whether L1's sample boundary is in the present period: the seq of its out-frame, sent or still to come, is a multiple of 8 (R186). -/
def l1Due (m : Mot) : Bool := (m.seq.toNat + bit m.awaiting) % 8 == 0

/-- L1_SAMPLE: tape position in 1/64 clock-track cycles (1.016 µm); the loop, the speed reference, and L0's set-point. -/
def l1Sample (pos : Int) (s : State) : State :=
  if !l1Due s.mot then s else
  let a := accelNow s
  let ref := stepRef s.mot.speedRef s.mot.target a.2
  let dir : Int := if s.srv.forward then 1 else -1
  let speed := (rounded 7 ((pos - s.mot.pos).natAbs * 127 : Nat) 1600).toNat
  let s := { s with mot := { s.mot with
    speedRef := ref, posRef := s.mot.posRef + dir * (ref : Int), pos := pos, speed := min speed 65535, delta := feedForward s a.1 } }
  if !s.loopOn 1 then s
  else
    let x := sat16 (rounded 8 (8 * s.mot.posRef - 635 * pos) 5000)
    let s := runLoop 1 x s
    let past := decide (8 * fld s.mot.follow 0 16 < x.natAbs)
    let s := { s with mot.overPos := if past then s.mot.overPos + 1 else 0 }
    if past && decide (max 1 (fld s.mot.follow 16 16) ≤ s.mot.overPos) then
      motionFault .motFollow (leBytes 2 (unsigned 16 x)) { s with mot.followFault := true }
    else s

def execL1Sample (pos : Int) (s : State) : Out := next (l1Sample pos s)

/-- One L0 sample (R186, R187, R190), on the last valid sensor values. -/
def l0Sample (s : State) : State :=
  if !s.loopOn 0 then s
  else
    let s := { s with mot.tSamples := satInc 65536 s.mot.tSamples }
    let x := sat16 (sat16 (rampT s + s.mot.delta) - s.mot.tMeas)
    let s := runLoop 0 x s
    let s := if s.mot.state = .softStart && fld s.mot.tension 16 16 ≤ s.mot.tSamples then
        { s with mot.state := if s.fmt.motion = .stopped then .stopped else .running } else s
    let past := decide (fld s.mot.tfollow 0 15 < x.natAbs)
    let s := { s with mot.overT := if past then s.mot.overT + 1 else 0 }
    if past && decide (max 1 (fld s.mot.tfollow 16 16) ≤ s.mot.overT) then
      motionFault .motTension (leBytes 2 (unsigned 16 x)) { s with mot.tensionFault := true }
    else s

/-! ### The motion link (R194 to R198) -/

/-- The control engine is powered. -/
def motionOn (s : State) : Bool := s.pwr.dom.getLsbD 66 || s.mot.loopEn != 0

/-- Events 4 to 6 of R195: L0 is computed and the out-frame sent. -/
def endPeriod (s : State) : State :=
  if !s.mot.awaiting then s
  else sendFrame (l0Sample { s with mot.awaiting := false })

/-- MLSYNC: a period begins, and its in-frame is awaited. A period whose in-frame neither came nor was found absent
has ended on the last valid values. -/
def mlsync (s : State) : State :=
  if !motionOn s then s
  else
    let s := endPeriod s
    { s with mot.awaiting := true }

def execMlsync (s : State) : Out := next (mlsync s)

/-- MOT_LINK_STAT as read. -/
def linkStat (m : Mot) : Word := pack [(0, m.crcErr), (8, m.missing), (16, m.status.toNat), (24, bit m.brakeSent)]

/-- A bad in-frame (R198): the third in a row is a motion fault. -/
def badInFrame (s : State) : State :=
  let s := { s with mot := { s.mot with linkOk := false, badFrames := s.mot.badFrames + 1 } }
  if 3 ≤ s.mot.badFrames && s.mot.brake = 0 then motionFault .motLink (leBytes 3 ((linkStat s.mot).toNat % 2 ^ 24)) s else s

/-- Whether 15 bytes are an in-frame whose CRC passes (R197). -/
def inFrameOk (b : Bytes) : Bool := b.length == 15 && u8 b 0 == 0x5A && slice b 13 2 == linkCrc (slice b 1 12)

/-- IN_FRAME: the companion's frame is received and checked (R197, R198). -/
def inFrame (b : Bytes) (s : State) : State :=
  if !motionOn s then s
  else if inFrameOk b then
    endPeriod { s with mot := { s.mot with
      linkOk := true, badFrames := 0, status := BitVec.ofNat 8 (u8 b 2), tMeas := signed 16 (u16 b 3)
      supplyCount := u16 b 5, takeupCount := u16 b 7, supplyCurrent := signed 16 (u16 b 9), takeupCurrent := signed 16 (u16 b 11) } }
  else endPeriod (badInFrame { s with mot.crcErr := satInc 255 s.mot.crcErr })

def execInFrame (frame : Bytes) (s : State) : Out := next (inFrame frame s)

/-- IN_FRAME_ABSENT: no in-frame by 3.40 µs (R198). -/
def inFrameAbsent (s : State) : State :=
  if !motionOn s then s
  else endPeriod (badInFrame { s with mot.missing := satInc 255 s.mot.missing })

def execInFrameAbsent (s : State) : Out := next (inFrameAbsent s)

/-! ### Stopping and speed (R134, R189, R192, R193) -/

/-- FMT_SPEED_STAT.cur takes a value: seq counts the change and EV_SPEED is raised. -/
def setSpeed (code : Nat) (s : State) : State :=
  if s.fmt.spCur = code then s
  else
    let s := { s with fmt.spCur := code, fmt.spSeq := s.fmt.spSeq + 1 }
    raiseEv .speed 0x9 noRes noInst (leBytes 1 code ++ leBytes 1 s.fmt.spWant) s

/-- The code of a speed in mm/s; none when it is not one of the six. -/
def codeOfSpeed (mm : Nat) : Option Nat := (List.range 6).find? (fun c => speedMm c == mm)

/-- RAMP_END: the speed reference reaches its target. -/
def rampEnd (s : State) : State :=
  if s.mot.state != .running && s.mot.state != .stopping && s.mot.state != .softStart then s
  else
    let s := { s with mot.speedRef := s.mot.target, fmt.ramping := false }
    if s.mot.target = 0 then s
    else match codeOfSpeed (s.mot.target / 1000) with
      | some c => setSpeed c s
      | none => s

def execRampEnd (s : State) : Out := next (rampEnd s)

/-- The coefficients of loop `l` in a profile, where it gives them. -/
def profileCoefs (p : ProfileValues) (l : Nat) (c : Vector (BitVec 16) 24) : Vector (BitVec 16) 24 :=
  Vector.ofFn (fun i : Fin 24 => coefBits (i.val % 6) (p.coefs.getD (24 * l + i.val) (c.get i)))

/-- The bits that MOT_LIM holds; the rest is Reserved (R6). -/
def limBits (v : Word) : Word := v &&& 0xFFFF7FFF

/-- The motion steward sets the motion registers from the board profile; a reset that waits for the stop takes it after.
DEDUCED (log entry 27): the profile's acceleration limit goes into both fields of MOT_ACCEL. -/
def applyMotion (s : State) : State :=
  if s.mot.islandReset then s
  else
    let p := s.prof
    let a := min p.accel 200
    let loops := s.mot.loop.mapFinIdx (fun i (q : Loop) _ => { q with coef := profileCoefs p i q.coef, lim := limBits (p.lims.getD i q.lim) })
    { s with mot := { s.mot with accel := pack [(0, a), (8, a)], loop := loops } }

/-- A loop after the island's reset: one that holds tension keeps its limit, its coefficients and its course; every other
takes its reset value, and no saturation flag stays (R193, R329). -/
def heldLoop (m : Mot) (l : Fin 4) : Loop :=
  if m.loopEn.getLsbD l.val && l.val < 2 then { m.loop[l] with accSat := false, outSat := false } else ({} : Mot).loop[l]

/-- The control-engine island takes the reset (R193): its registers take their reset values. Where L0 and L1 run they go on
holding tension, with the values that they hold it by, until the motion steward takes them over. DEDUCED (log entry 93). -/
def resetIsland (s : State) : State :=
  let m := s.mot
  let t := if m.loopEn.getLsbD 0 then m else {}
  let on := m.loopEn &&& 3
  powerFor s.glb.mode { s with mot := { ({} : Mot) with
      state := if on = 0 then .off else .stopped, loopEn := on, loop := Vector.ofFn (heldLoop m)
      tension := t.tension, ff := t.ff, tMeas := m.tMeas, tStart := t.tStart, tSamples := t.tSamples
      seq := m.seq, outFrame := m.outFrame, posRef := m.posRef, pos := m.pos, linkOk := m.linkOk, awaiting := m.awaiting } }

/-- What follows a stop in the mode: the move that waits, or THREADED when there is no work (R326). -/
def afterStop (s : State) : State :=
  if s.mot.islandReset then applyMotion (resetIsland s)
  else if s.fmt.moveFor != .none then
    match s.glb.mode with
    | .append | .retrieve | .locate => beginMove s.fmt.moveFor true s
    | _ => { s with fmt.moveFor := .none }
  -- the tape of a management command goes on
  else if tapeHeld s then beginMove .mgmt true s
  else match s.glb.mode with
    | .append => if restartDue s then s else setMode .threaded s
    | .retrieve => if s.rtv.stopped then s else setMode .threaded s
    | .locate => setMode .threaded s
    | _ => s

/-- TAPE_STOPPED: event 5 of a controlled stop, or the end of a brake (R192). -/
def tapeStopped (s : State) : State :=
  if s.mot.state = .stopping || ((s.mot.state = .braked || s.mot.state = .off) && s.fmt.motion != .stopped) then
    let state : MotState := if s.mot.state = .stopping then .stopped else s.mot.state
    let s := if s.fmt.preampDue then writePreamps s else s
    afterStop (setSpeed 7 { s with
      mot := { s.mot with state := state, stop := false, speed := 0, speedRef := 0, target := 0 }
      fmt := { s.fmt with motion := .stopped, ramping := false, stopped := true } })
  else s

def execTapeStopped (s : State) : Out := next (tapeStopped s)

/-- MOTION_STOP: a controlled stop is asked for. -/
def motionStop (s : State) : State := beginStop { s with fmt.gateOpen := false }

def execMotionStop (by_ : Source) (s : State) : Out := next (if s.mayDrive by_ then motionStop s else s)

/-- MOTION_BRAKE: brake code 2 goes out of turn, and the loops are disabled (R199). -/
def motionBrake (s : State) : State := brakeReels 2 { s with fmt.gateOpen := false }

def execMotionBrake (by_ : Source) (s : State) : Out := next (if s.mayDrive by_ then motionBrake s else s)

end Sys2Proof.Machine
end

