-- ==== Sys2Proof/Machine/Tape.lean ====
section
/-! DEFINITION. Sys2Proof/Machine/Tape.lean: positions reached, speeds, pace windows and the speed-matching rule
(R13 to R15, R130, R134 to R137, R161, R162, R421). -/

namespace Sys2Proof.Machine

/-! ### The wanted speed (R135) -/

/-- A positive fraction. -/
structure Frac where
  num : Nat
  den : Nat
  deriving DecidableEq, Repr

/-- Mean framer intake over avg_windows windows of 65,536 × 20 ns, in bytes per second. -/
def meanIntake (s : State) : Frac :=
  let k := max 1 (fld s.fmt.speedCfg 0 6)
  { num := ((s.fmt.intake.take k).foldl (· + ·) 0) * 1000000000, den := k * 1310720 }

/-- h / ρ × (1 + r) × v, in native bytes per second. -/
def nativeNeed (s : State) : Frac :=
  let h := meanIntake s
  -- on a member of a group other than the origin, payload bytes that arrive from the ring stand for h / ρ (R317)
  let rho : Frac := if s.chn.grp.state = 2 && !isOrigin s then ⟨1, 1⟩ else if s.codec.ratioValid && s.codec.ratio != 0 then ⟨s.codec.ratio, 4096⟩ else ⟨1, 1⟩
  let copies := (s.fmt.history.map (·.1)).foldl (· + ·) 0
  let written := max 1 ((s.fmt.history.map (·.2)).foldl (· + ·) 0)
  let v : Frac := if vaultOn s then ⟨16, 15⟩ else ⟨1, 1⟩
  { num := h.num * rho.den * (written + copies) * v.num, den := h.den * rho.num * written * v.den }

/-- The native rate of a speed in the zone being written, exact (R133). -/
def nativeRate (s : State) (code : Nat) : Frac :=
  { num := s.fmt.map.length * densityOf (zoneOf s.fmt.wrap) * speedMm code * 6900, den := 254 * 8000 }

/-- a < b. -/
def Frac.lt (a b : Frac) : Bool := decide (a.num * b.den < b.num * a.den)

/-- The need with the margin of margin_pct. -/
def withMargin (s : State) (f : Frac) : Frac := { num := f.num * (100 + fld s.fmt.speedCfg 6 6), den := f.den * 100 }

/-- want of R135, with whether a stop is allowed; `top` is the ceiling of the zone. -/
def wanted (s : State) : Nat × Bool :=
  let top := publishedCeil s (zoneOf s.fmt.wrap)
  let need := nativeNeed s
  let hi := match [5, 4, 3, 2, 1, 0].find? (fun c => !(nativeRate s c).lt (withMargin s need)) with
    | some c => slower top c
    | none => top
  if rbit s.fmt.speedCfg 21 then (slower top (fixedCode (fld s.fmt.speedCfg 22 3)), false)
  else if s.fmt.hard then (top, false)
  else if s.fmt.filling then
    match (List.range 6).find? (fun c => (nativeRate s c).lt need) with
    | some c => (c, false)
    | none => (5, true)
  else (hi, false)

/-- The marks of R135: hard and filling. -/
def judgeMarks (s : State) : State :=
  let b := backlog s
  let mark (lo : Nat) : Nat := fld s.fmt.speedMarks lo 8 * 2 ^ 28
  let hard := if mark 16 ≤ b then true else s.fmt.hard
  let hard := if b < mark 8 then false else hard
  let filling := if b < mark 0 then true else s.fmt.filling
  let filling := if mark 8 ≤ b then false else filling
  { s with fmt.hard := hard, fmt.filling := filling }

/-- The speed is chosen afresh with the rates and the ceiling of the zone that the tape has turned into (R134). -/
def chooseSpeed (s : State) : State := let w := wanted s; { s with fmt.spWant := w.1, fmt.stopAllowed := w.2 }

/-! ### Positions (R130, R149, R161, R421) -/

/-- Channels of a zone that have not read or written it since the load take start values (R164). -/
def firstUse (z : Nat) (s : State) : State :=
  (mapInService s).foldl (fun s c =>
    let c : Chan := Fin.ofNat 128 c
    if s.rch[c].started.getD z false then s else coldStart c z s) s

/-- The head comes to work in a zone: a cold start on a zone change and at the zone's first use (R143, R164). -/
def enterZone (z : Nat) (s : State) : State := if s.rdc.zone = z then firstUse z s else coldStartAll z s

/-- Writing begins: the gate opens, when the fence permits, at the first bit of the last separator (R137), and the read channels acquire. -/
def openGate (s : State) : State :=
  let s := enterZone (zoneOf s.fmt.wrap) (setMode .append s)
  let s := { s with fmt := { s.fmt with
    motion := .running, moveFor := .none, gateWanted := true, gateOpen := s.srv.gateOk && !s.fmt.ctGate, closedFrames := 0
    stopped := false }
                    srv.forward := wrapForward s.fmt.wrap, rdc.zone := zoneOf s.fmt.wrap }
  let s := setSpeed (writeSpeed s) (acquireAll s)
  { s with mot.target := speedMm s.fmt.spCur * 1000 }

/-- Reading begins or goes on at a wrap: the channels acquire on its lead-in or a separator. -/
def beginReading (wrap : Nat) (s : State) : State :=
  let s := setMode .retrieve s
  let z := zoneOf wrap
  let s := { s with rtv.wrap := wrap, fmt.motion := .running, fmt.moveFor := .none, rtv.stopped := false, srv.forward := wrapForward wrap }
  let again := match s.rtv.reread with | some r => decide (2 ≤ r.2) | none => false
  let s := acquireAll (if again then coldStartAll z s else enterZone z s)
  let s := setSpeed (readSpeed s) { s with rdc.zone := z }
  { s with mot.target := speedMm s.fmt.spCur * 1000 }

/-- Commands that waited for a move complete (R270, R421). -/
def endMoves (s : State) : State :=
  allInsts.foldl (fun s v => (s.ring (some v)).cmds.foldl (fun s c =>
    match c.phase with
    | .moveWait r => complete (some v) c.uid r s
    | _ => s) s) s

/-- POSITION_REACHED: `wrap` is the wrap on which the head stands. -/
def positionReached (wrap : Fin 240) (s : State) : State :=
  if s.fmt.motion = .positioning then
    match s.fmt.moveFor with
    | .splice => openGate (dropJobs s)
    | .recovery => openGate (dropJobs (rewind s))
    | .turn => if s.glb.mode = .append then openGate (chooseSpeed s) else beginReading wrap.val s
    | .readStart | .reread => beginReading wrap.val s
    | .mgmt => endTapeWork s
    | .locate | .none => beginStop (endMoves { s with rtv.wrap := wrap.val, srv.forward := wrapForward wrap.val })
  -- a wrap turn of a read in progress (R47, R143)
  else if s.fmt.motion = .running && s.glb.mode = .retrieve then beginReading wrap.val s
  else s

def execPositionReached (wrap : Fin 240) (s : State) : Out := next (positionReached wrap s)

/-! ### Read-ahead (R162) -/

/-- Datasets read ahead: complete and not yet taken at hand-over 7. -/
def aheadCount (s : State) : Nat := s.rtv.ds.countP (fun d => d.pos == 0 && d.complete && !d.taken)

/-- RCH_DEC_CFG.rd_ahead; 0 acts as 1. -/
def rdAhead (s : State) : Nat := max 1 (fld s.rdc.decCfg 14 4)

/-- READ_AHEAD_RESTART: the count has fallen to half of rd_ahead, and reading restarts. -/
def readAheadRestart (s : State) : State :=
  if s.glb.mode = .retrieve && s.rtv.stopped && s.fmt.motion = .stopped && !s.rtv.eodSeen && decide (aheadCount s ≤ rdAhead s / 2)
  then beginMove .readStart true { s with rtv.stopped := false } else s

def execReadAheadRestart (s : State) : Out := next (readAheadRestart s)

/-! ### The pace window (R13 to R15) -/

/-- The ratios of a window: counts, last ratios, and the lowest over the powered sites. Of two sites at the lowest ratio the
lower number is named; a window with no powered site leaves both fields as they were; a ratio beyond 16 bits reads 65,535.
DESIGN CHOICE (log entry 94). -/
def measurePace (counts : List Nat) (s : State) : State :=
  let on (i : Nat) : Bool := siteOn s i
  let count (i : Nat) : Nat := if on i then counts.getD i 0 % 2 ^ 24 else 0
  let ratio (i : Fin 8) : Nat := paceRatio (count i.val) s.pace.nom[i]
  let powered := (List.finRange 8).filter (fun i => on i.val)
  let low := powered.foldl (fun (m : Option (Fin 8)) i => match m with
    | none => some i
    | some j => if ratio i < ratio j then some i else some j) none
  let p := s.pace
  { s with pace := { p with
      count := Vector.ofFn (fun i => count i.val)
      last := Vector.ofFn (fun i => if on i.val then some (ratio i) else p.last[i])
      ratioMin := match low with | some i => min (ratio i) 65535 | none => p.ratioMin
      siteMin := match low with | some i => i.val | none => p.siteMin
      valid := true } }

/-- CMP_RATIO at a window's end (R135): input over coded bytes in units of 1/4,096. -/
def closeRatio (s : State) : State :=
  let c := s.codec
  { s with codec := { c with
      ratio := if c.winCoded = 0 then c.ratio else min 65535 (rounded 12 (c.winIn * 4096 : Nat) c.winCoded).toNat
      ratioValid := c.winCoded != 0, winIn := 0, winCoded := 0 } }

/-- The steward's speed decision at the end of a window. -/
def decideSpeed (s : State) : State :=
  let s := judgeMarks { s with fmt.intake := (s.fmt.winIntake :: s.fmt.intake).take 64, fmt.winIntake := 0 }
  chooseSpeed s

/-! ### Effort (R136) -/

/-- CMP_CTRL.effort_cap. -/
def effortCap (s : State) : Nat := min 2 (fld s.codec.cmpCtrl 0 2)

/-- Whether slice capacity stands above the intake with its margin. -/
def sliceMargin (s : State) : Bool :=
  let cap : Frac := { num := 950000000 * (s.inService 3).length * ceilRatio s 2, den := 1638400 }
  !cap.lt (withMargin s (meanIntake s))

/-- The effort cap under auto_effort: `waited` is the time the framer waited for a slice, in ns. -/
def decideEffort (waited : Nat) (s : State) : State :=
  if !rbit s.fmt.speedCfg 20 then { s with fmt.boundWindows := 0, fmt.marginWindows := 0 }
  else
    let bound := decide (655360 < waited) && decide (backlog s < fld s.fmt.speedMarks 16 8 * 2 ^ 28)
    let b := if bound then s.fmt.boundWindows + 1 else 0
    let m := if sliceMargin s then s.fmt.marginWindows + 1 else 0
    let hold := max 1 (fld s.fmt.speedCfg 12 8)
    if effortCap s = 2 && 4 ≤ b then
      { s with codec.cmpCtrl := setFld s.codec.cmpCtrl 0 2 1, fmt.boundWindows := 0, fmt.marginWindows := 0 }
    else if effortCap s ≠ 2 && hold ≤ m then
      { s with codec.cmpCtrl := setFld s.codec.cmpCtrl 0 2 2, fmt.boundWindows := 0, fmt.marginWindows := 0 }
    else { s with fmt.boundWindows := b, fmt.marginWindows := m }

/-! ### PACE_WINDOW_END -/

/-- In RETRIEVE the tape follows the ceiling and RCH_DEC_CFG (R162). -/
def followRead (s : State) : State :=
  if s.glb.mode = .retrieve && s.fmt.motion = .running && !s.rtv.stopped && speedMm (readSpeed s) * 1000 != s.mot.target
  then { s with fmt.ramping := true, mot.target := speedMm (readSpeed s) * 1000 } else s

/-- The end of a window: ratios, ceilings, ratio of compression, wanted speed, effort, and shares that waited (R289). -/
def paceWindowEnd (counts : List Nat) (waited : Nat) (s : State) : State :=
  match s.glb.mode with
  | .off | .reset | .quench => s
  | _ =>
    let s := if rbit s.pace.ctrl 0 then followRead (publishCeilings true (measurePace counts s)) else s
    takeShares (decideEffort waited (decideSpeed (closeRatio s)))

def execPaceWindowEnd (counts : List Nat) (waited : Nat) (s : State) : Out := next (paceWindowEnd counts waited s)

end Sys2Proof.Machine
end

