-- ==== Sys2Proof/Machine/RingServe.lean ====
section
/-! DEFINITION. Sys2Proof/Machine/RingServe.lean: striped retrieve: rows that a member returns, rows that the origin asks for,
and the rebuild of rows from parity (R313, R320, R321). -/

namespace Sys2Proof.Machine

/-! ### Datasets in hand -/

/-- A dataset of this device's tape in hand changed by `f`. -/
def State.modRdDs (s : State) (dsn : Nat) (f : RdDs → RdDs) : State := { s with rtv.ds := modAll (fun d => d.dsn == dsn && d.pos == 0) f s.rtv.ds }

/-- A dataset joins those in hand, dsn rising. -/
def insertDs (d : RdDs) : List RdDs → List RdDs
  | [] => [d]
  | x :: l =>
    if d.dsn = x.dsn && d.pos = x.pos then x :: l
    else if d.dsn < x.dsn || (d.dsn == x.dsn && decide (d.pos < x.pos)) then d :: x :: l else x :: insertDs d l

/-- A dataset not yet read. -/
def newRdDs (s : State) (dsn kind tag : Nat) : RdDs := { dsn := dsn, part := s.rtv.part, session := 0, kind := kind, tag := tag }

/-- The dataset of a stripe at a position. -/
def State.rdAt (s : State) (dsn pos : Nat) : Option RdDs := s.rtv.ds.find? (fun d => d.dsn == dsn && d.pos == pos)

/-- Nominal index of payload row `r` (R38, R300). -/
def payloadIndex (r : Nat) : Nat := nominalIndex (r / 80) (r % 80)

/-- Payload row `r` of a dataset, when it is present. -/
def RdDs.payloadRow? (d : RdDs) (r : Nat) : Option Bytes := (d.rows.find? (fun x => x.1 == payloadIndex r)).map (·.2)

/-! ### A member returns rows (R320) -/

/-- The READ_ROW frame of payload row `r`; a row that is lost carries no payload. -/
def readRowFrame (s : State) (stripe r : Nat) (row : Option Bytes) : Bytes :=
  mkFrame ftRead (if row.isNone then 2 else 0) (originAddr s) s.chn.addr (originAddr s) s.chn.grp.position r stripe (row.getD [])

/-- Sends the rows of one request from a dataset; none stands for a dataset that is not on this tape. -/
def serveReq (d : Option RdDs) (s : State) (q : RowReq) : State :=
  (List.range q.count).foldl (fun s i =>
    sendTo (originAddr s) (readRowFrame s q.stripe (q.first + i) (d.bind (fun d => d.payloadRow? (q.first + i)))) s) s

/-- Every request that can be answered is: its dataset has been recovered, or as far as it can be, or lies behind the end
of data. -/
def serveAll (s : State) : State :=
  s.chn.grp.serve.foldl (fun s q =>
    let drop (s : State) : State := { s with chn.grp.serve := s.chn.grp.serve.erase q }
    match s.rdAt q.stripe 0 with
    | some d => if d.complete || d.lost then (serveReq (some d) (drop s) q).modRdAt q.stripe 0 (fun d => { d with taken := true }) else s
    | none => if s.rtv.eodSeen then serveReq none (drop s) q else s) s

/-! ### The origin asks (R320, R321) -/

/-- Asks a position for rows of a stripe. -/
def askRows (stripe first count pos : Nat) (s : State) : State :=
  if s.chn.grp.isLost pos then s
  else
    let q : RowReq := { position := pos, stripe := stripe, first := first, count := count }
    tellPos pos 0x30 pos (leBytes 4 stripe ++ leBytes 2 first ++ leBytes 2 count) { s with chn.grp.wanted := s.chn.grp.wanted ++ [q] }

/-- The origin reads a stripe: every other data position is asked for all of its payload. A lost position has every row
lost. -/
def requestStripe (stripe : Nat) (s : State) : State :=
  if !(isOrigin s && groupPart s s.rtv.part) || s.rtv.ds.any (fun d => d.dsn == stripe && d.pos != 0) then s
  else
    (List.range s.chn.grp.k).foldl (fun s p =>
      if p = 0 then s
      else askRows stripe 0 payloadRows p { s with rtv.ds := insertDs { newRdDs s stripe 0 0 with pos := p } s.rtv.ds }) s

/-- What the origin knows of a row at a position: nothing yet, that it is missing, or its bytes. -/
def rowAt (s : State) (stripe r pos : Nat) : Option (Option Bytes) :=
  let g := s.chn.grp
  let data := if pos < g.k then (s.rdAt stripe pos).bind (fun d => d.payloadRow? r) else none
  match data with
  | some b => some (some b)
  | none =>
    match g.got.find? (fun x => x.1 == pos && x.2.1 == stripe && x.2.2.1 == r) with
    | some x => some x.2.2.2
    | none => if g.isLost pos then some none else none

/-- Solves R313 for one row: the missing data positions from the known ones and the parity rows, byte by byte. -/
def solveRow (known : List (Nat × Bytes)) (missing : List Nat) (par : List (Nat × Bytes)) : Option (List Bytes) :=
  let cols := (List.range 2048).map (fun j =>
    raitSolve (known.map (fun x => (x.1, x.2.getD j 0))) missing (par.map (fun x => (x.1, x.2.getD j 0))))
  if cols.all (·.isSome) then some ((List.range missing.length).map (fun i => cols.map (fun c => (c.getD []).getD i 0))) else none

/-- EV_RAIT_REBUILD, once per stripe (R321). -/
def noteRebuild (stripe : Nat) (s : State) : State :=
  if s.chn.grp.rebuilt.contains stripe then s
  else raiseEv .raitRebuild 0xE noRes noInst (leBytes 4 stripe) { s with chn.grp.rebuilt := stripe :: s.chn.grp.rebuilt }

/-- The missing rows cannot be rebuilt: the datasets that they belong to are lost. -/
def loseRows (stripe : Nat) (missing : List Nat) (s : State) : State :=
  missing.foldl (fun s p => s.modRdAt stripe p (fun d => if d.complete then d else { d with lost := true })) s

/-- Payload row `r` of a stripe, when a data position misses it: once every other data row is known it is solved with as many
parity rows, which are asked for, or it is lost (R321). -/
def rebuildRow (stripe r : Nat) (s : State) : State :=
  let g := s.chn.grp
  let data := List.range g.k
  let missing := data.filter (fun p => rowAt s stripe r p == some none)
  if missing.isEmpty then s
  else
    let pars := List.range g.p
    let have_ := pars.filterMap (fun j => match rowAt s stripe r (g.k + j) with | some (some b) => some (j, b) | _ => none)
    let gone := pars.countP (fun j => rowAt s stripe r (g.k + j) == some none)
    if g.p - gone < missing.length then loseRows stripe missing s
    else if data.any (fun p => (rowAt s stripe r p).isNone) || have_.length < missing.length then
      pars.foldl (fun s j =>
        let asked := s.chn.grp.wanted.any (fun q => q.position == g.k + j && q.stripe == stripe && decide (q.first ≤ r) && decide (r < q.first + q.count))
        if asked || (rowAt s stripe r (g.k + j)).isSome then s else askRows stripe r 1 (g.k + j) s) s
    else
      let known := data.filterMap (fun p => match rowAt s stripe r p with | some (some b) => some (p, b) | _ => none)
      match solveRow known missing have_ with
      | none => loseRows stripe missing s
      | some rows =>
        (missing.zip rows).foldl (fun s x => s.modRdAt stripe x.1 (fun d => { d.addRow (payloadIndex r) x.2 with corrected := true }))
          (noteRebuild stripe s)

/-- Rows of a payload that a dataset holds. -/
def payloadCount (d : RdDs) : Nat := (List.range payloadRows).countP (fun r => (d.payloadRow? r).isSome)

/-- A dataset of another position, or one that parity rebuilt, whose whole payload is present: it is complete, with its
index. -/
def finishRemote (stripe pos : Nat) (s : State) : State :=
  match s.rdAt stripe pos with
  | none => s
  | some d =>
    if d.complete || d.lost || payloadCount d < payloadRows then s
    else
      let ix := DsIndex.parse (d.payload blockArea 4096)
      s.modRdAt stripe pos (fun d => match ix with
        | some x => { d with complete := true, index := ix, kind := x.kind, tag := x.streamTag, session := x.session }
        | none => { d with lost := true })

/-- After news of a row of a stripe: rebuild where it is due, and go on reading. -/
def settleRow (stripe r : Nat) (s : State) : State :=
  let s := rebuildRow stripe r s
  let s := (List.range s.chn.grp.k).foldl (fun s p =>
    if p = 0 && !s.chn.grp.got.any (fun x => x.1 == 0 && x.2.1 == stripe) then s else finishRemote stripe p s) s
  pumpReads s

/-- A row that a position returned, or that is taken as lost (R320). -/
def takeRow (pos stripe r : Nat) (row : Option Bytes) (s : State) : State :=
  let g := s.chn.grp
  let asked := g.wanted.any (fun q => q.position == pos && q.stripe == stripe && decide (q.first ≤ r) && decide (r < q.first + q.count))
  if !asked || (rowAt s stripe r pos).isSome then s
  else
    let s := match row with
      | some b =>
        if pos < g.k then s.modRdAt stripe pos (fun d => d.addRow (payloadIndex r) b)
        else { s with chn.grp.got := (pos, stripe, r, some b) :: s.chn.grp.got }
      | none => { s with chn.grp.got := (pos, stripe, r, none) :: s.chn.grp.got }
    settleRow stripe r s

/-- The rows of a dataset of the origin's own tape that steps 1 to 4 of R160 leave missing are rebuilt (R160 step 5). -/
def rebuildOwn (stripe : Nat) (s : State) : State :=
  match s.rdAt stripe 0 with
  | none => s
  | some d =>
    let rows := (List.range payloadRows).filter (fun r => (d.payloadRow? r).isNone)
    let s := requestStripe stripe { s with chn.grp.got := rows.map (fun r => (0, stripe, r, none)) ++ s.chn.grp.got }
    finishRemote stripe 0 (rows.foldl (fun s r => rebuildRow stripe r s) s)

/-- A position is lost while the origin reads: every row not yet come is missing (R320). -/
def loseReads (s : State) : State :=
  let open_ := s.rtv.ds.filter (fun d => d.pos != 0 && !d.complete && !d.lost)
  open_.foldl (fun s d =>
    if s.chn.grp.isLost d.pos then (List.range payloadRows).foldl (fun s r => settleRow d.dsn r s) s else s) s

/-- Rows in flight when a route changed are asked for again (R320). -/
def askAgain (s : State) : State :=
  s.chn.grp.wanted.foldl (fun s q =>
    let open_ := (List.range q.count).filter (fun i => (rowAt s q.stripe (q.first + i) q.position).isNone)
    match open_.head?, open_.getLast? with
    | some a, some b => tellPos q.position 0x30 q.position (leBytes 4 q.stripe ++ leBytes 2 (q.first + a) ++ leBytes 2 (b - a + 1)) s
    | _, _ => s) s

end Sys2Proof.Machine
end

