-- ==== Sys2Proof/Machine/ReadChan.lean ====
section
/-! DEFINITION. Sys2Proof/Machine/ReadChan.lean: set hand-overs of write and read channels, timing, sync marks, slips, alignment
attempts, C1 decoding, clock tracks, and rows on their way to datasets (R57, R117 to R120, R138 to R159, R167 to R169, R180). -/

namespace Sys2Proof.Machine

/-! ### Hand-overs of parameter sets (R117 to R120, R167 to R169) -/

/-- Servo-frame boundaries that a commit waits for (R118, R167): a commit with fewer than 64 channel bits left takes the
boundary after the next; while the tape is stopped the next boundary is waited for. -/
def commitWait (s : State) (bitsLeft : Nat) : Nat := if s.fmt.motion = .stopped || 64 ≤ bitsLeft then 0 else 1

def WChan.commit (w : WChan) (n : Nat) : WChan := if w.pending.isSome then w else { w with pending := some n }
def RChan.commit (r : RChan) (n : Nat) : RChan := if r.pending.isSome then r else { r with pending := some n }

/-- WRITE_SET_COMMIT. -/
def writeCommit (c : Chan) (bitsLeft : Nat) (s : State) : State := { s with wch := vmod s.wch c (fun w => w.commit (commitWait s bitsLeft)) }

def execWriteSetCommit (c : Chan) (bitsLeft : Nat) (s : State) : Out := next (if s.glb.mode.served then writeCommit c bitsLeft s else s)

/-- READ_SET_COMMIT. -/
def readCommit (c : Chan) (bitsLeft : Nat) (s : State) : State := { s with rch := vmod s.rch c (fun r => r.commit (commitWait s bitsLeft)) }

def execReadSetCommit (c : Chan) (bitsLeft : Nat) (s : State) : Out := next (if s.glb.mode.served then readCommit c bitsLeft s else s)

/-- WRITE_COMMIT_ALL: every write channel of the map. -/
def writeCommitAll (bitsLeft : Nat) (s : State) : State :=
  s.fmt.map.foldl (fun s c => writeCommit (Fin.ofNat 128 c) bitsLeft s) { s with fmt.wswap := true }

def execWriteCommitAll (bitsLeft : Nat) (s : State) : Out := next (if s.glb.mode.served then writeCommitAll bitsLeft s else s)

/-- READ_COMMIT_ALL: every read channel of the map. -/
def readCommitAll (bitsLeft : Nat) (s : State) : State :=
  s.fmt.map.foldl (fun s c => readCommit (Fin.ofNat 128 c) bitsLeft s) { s with rdc.rswap := true }

def execReadCommitAll (bitsLeft : Nat) (s : State) : Out := next (if s.glb.mode.served then readCommitAll bitsLeft s else s)

/-- A write channel at a boundary. -/
def WChan.boundary (lx : Nat) (w : WChan) : WChan :=
  match w.pending with
  | some 0 => { w with pending := none, activeB := !w.activeB, swapLx := BitVec.ofNat 16 lx }
  | some (n + 1) => { w with pending := some n }
  | none => w

/-- A read channel at a boundary. -/
def RChan.boundary (lx : Nat) (r : RChan) : RChan :=
  match r.pending with
  | some 0 => { r with pending := none, activeB := !r.activeB, swapLx := BitVec.ofNat 16 lx, low := List.replicate 10 0 }
  | some (n + 1) => { r with pending := some n }
  | none => r

/-- SERVO_FRAME_BOUNDARY at a head line: due swaps apply; boundaries stop while the tape is stopped (R180). Holdover counts those at the
read line (R142). -/
def frameBoundary (line : HeadLine) (lx : Nat) (s : State) : State :=
  if s.fmt.motion = .stopped then s
  else match line with
    | .write =>
      let any := s.wch.toList.any (fun w => w.pending == some 0)
      let s := { s with wch := s.wch.map (WChan.boundary lx), fmt.wswapLx := if any then lx % 2 ^ 32 else s.fmt.wswapLx }
      { s with fmt.wswap := s.fmt.wswap && s.wch.toList.any (fun w => w.pending.isSome) }
    | .read =>
      let any := s.rch.toList.any (fun r => r.pending == some 0)
      let s := { s with rch := s.rch.map (RChan.boundary lx), rdc.rswapLx := if any then lx % 2 ^ 32 else s.rdc.rswapLx }
      { s with rdc.rswap := s.rdc.rswap && s.rch.toList.any (fun r => r.pending.isSome), rdc.holdLeft := s.rdc.holdLeft - 1 }

def execServoFrameBoundary (line : HeadLine) (lx : Nat) (s : State) : Out := next (frameBoundary line lx s)

/-! ### Timing and adaptation (R141, R142, R146) -/

/-- The sampling phase of a channel (R141), in steps of 1/64 bit: base phase, skew term, tracked offset. -/
def samplePhase (base skew tau : Int) (c : Nat) (interp : Bool) : Int := base + (if interp then rounded 3 (skew * (2 * c + 1)) 256 else 0) + tau

/-- Phases as measured: with one input lost the skew term is frozen and the other input serves (R142). -/
def takePhases (phiA phiB : Int) (r : Rdc) : Rdc :=
  { r with
    phiA := if r.lockA then phiA else r.phiA
    phiB := if r.lockB then phiB else r.phiB
    skew := if r.lockA && r.lockB then phiB - phiA else r.skew }

/-- The phase on which the interpolation rests: φA, or what φB and the frozen skew give for it. -/
def basePhase (r : Rdc) : Int := if r.lockA || !r.lockB then r.phiA else r.phiB - r.skew

/-- The channel's phase takes a value: at each turn passed the bit index moves by 1, and the phase wrap is logged with its bit position and
sign (R141). -/
def RChan.setPhase (r : RChan) (phi : Int) : RChan :=
  let moved := phi / 64 - r.turns
  let sign : Int := if moved < 0 then -1 else 1
  { r with phase := (phi % 64).toNat, turns := phi / 64, count := r.count + moved
           wraps := List.replicate moved.natAbs (r.count, sign) ++ r.wraps }

/-- Whether a channel samples: it is not stopped. -/
def RChan.live (r : RChan) : Bool := r.sync != .stopped

/-- TIMING_UPDATE: 32 bits of channel `c` have passed, as ADC samples; with the sum of the timing detector and the measured phases. -/
def timingUpdate (c : Chan) (samples : List Int) (sum phiA phiB : Int) (s : State) : State :=
  if !s.rch[c].live then s
  else
    let s := { s with rdc := takePhases phiA phiB s.rdc }
    let step := clampI (-2) 2 (roundShift sum (fld s.rdc.adapt 12 4))
    let tau := s.rch[c].tau + step
    let phi := samplePhase (basePhase s.rdc) s.rdc.skew tau c.val (rbit s.rdc.clkCfg 4)
    s.modRch c (fun r => let r := r.take c.val s.rdc.inSeparator samples; RChan.setPhase { r with tau := tau } phi)

def execTimingUpdate (c : Chan) (samples : List Int) (sum phiA phiB : Int) (s : State) : Out :=
  next (timingUpdate c samples sum phiA phiB s)

/-- The largest mu: a floor below mu_start acts as mu_start (RCH_ADAPT). -/
def muFloor (w : Word) : Nat := max (fld w 0 4) (fld w 4 4)

/-- MU_STEP: cwos_per_step CWOs have been framed since the last step. -/
def muStep (c : Chan) (s : State) : State :=
  let need := max 1 (fld s.rdc.adapt 8 4)
  s.modRch c (fun r => if need ≤ r.muCwos then { r with muCwos := r.muCwos - need, mu := if r.mu < muFloor s.rdc.adapt then r.mu + 1 else r.mu } else r)

def execMuStep (c : Chan) (s : State) : Out := next (muStep c s)

/-! ### Rows to datasets (R41, R57, R160) -/

/-- The dataset that a header names is in hand, unless it lies before the reading's start or behind the end of data. -/
def noteHeader (h : CwoHeader) (s : State) : State :=
  if h.partition ≠ s.rtv.part || h.dsn < s.rtv.low || s.rtv.eodSeen || !([1, 2, 3, 6].contains h.type) then s
  else
    let known := s.rtv.ds.any (fun d => d.dsn == h.dsn && d.pos == 0)
    if known then s.modRdDs h.dsn (fun d => if d.kind = 0 then { d with kind := h.type, tag := h.streamTag } else d)
    else
      let s := settleReadBufs { s with rtv.ds := insertDs (newRdDs s h.dsn h.type h.streamTag) s.rtv.ds }
      if h.type = typeData then requestStripe h.dsn s else s

/-- Missing datasets between the last accepted and a new one of the same session are in hand too, to be recovered (R57). -/
def noteGap (dsn : Nat) (s : State) : State :=
  match s.rtv.last with
  | some l => (List.range (dsn - (l.2 + 1))).foldl (fun s i =>
      requestStripe (l.2 + 1 + i) { s with rtv.ds := insertDs (newRdDs s (l.2 + 1 + i) 0 0) s.rtv.ds }) s
  | none => s

/-- A dataset's rows are all present: its index is read and its place among the accepted datasets decided (R57). One that yields no
session (a VAULT dataset, or one whose index fails) is of the session last accepted. DESIGN CHOICE (log entry 112). -/
def acceptDs (d : RdDs) (s : State) : State :=
  let ix := if d.kind = typeVault then none else DsIndex.parse (d.payload blockArea 4096)
  let session := match ix with | some x => x.session | none => (s.rtv.last.map (·.1)).getD 0
  let s := s.modRdDs d.dsn (fun d => { d with complete := true, index := ix, session := session })
  match s.rtv.last with
  | some l =>
    if session < l.1 then
      let s := match s.rtv.ds.find? (fun x => x.dsn == d.dsn && x.pos == 0) with
        | some x => (match x.handle with | some h => releaseHandle reqRetrieve h s | none => s)
        | none => s
      { s with rtv.ds := s.rtv.ds.filter (fun x => x.dsn != d.dsn || x.pos != 0), rtv.eodSeen := true }
    else
      let s := if session = l.1 then noteGap d.dsn s else s
      { s with rtv.last := some (session, if session = l.1 then max l.2 d.dsn else d.dsn), rtv.eodSeen := s.rtv.eodSeen || d.kind == typeEod }
  | none => { s with rtv.last := some (session, d.dsn), rtv.eodSeen := s.rtv.eodSeen || d.kind == typeEod }

/-- The re-read passes of a dataset are over: the tape goes on at the speed of R162. -/
def endReread (dsn : Nat) (s : State) : State :=
  match s.rtv.reread with
  | some (d, _) =>
    if d = dsn then
      let s := { s with rtv.reread := none }
      if s.fmt.motion = .running && speedMm (readSpeed s) * 1000 != s.mot.target then
        { s with fmt.ramping := true, mot.target := speedMm (readSpeed s) * 1000 }
      else s
    else s
  | none => s

/-- A dataset whose rows are all present is accepted, and extraction goes on; re-read passes of it end (R160, R161). -/
def finishDs (dsn : Nat) (s : State) : State :=
  match s.rtv.ds.find? (fun d => d.dsn == dsn && d.pos == 0 && !d.complete && !d.lost) with
  | some d =>
    if d.rows.length = datasetRows then
      pumpReads (serveAll (acceptDs d (endReread dsn (s.modRdDs dsn (fun d => { d with corrected := d.corrected || d.pass != 0 })))))
    else s
  | none => s

/-- What FMT_CUR_DSN and FMT_CUR_LOC show of the dataset passing the read head: a first copy names it and its data tiers,
a rewrite copy tells how many rewrite tiers of its region have passed. -/
def passHeader (h : CwoHeader) (s : State) : State :=
  if h.attempt = 0 then { s with rtv.tier := h.tierSlot, fmt.curDsn := h.dsn, rtv.lastData := h.tierSlot }
  else { s with rtv.tier := h.tierSlot }

/-- A row is placed by its cwo_index, the first copy of it that is accepted (R32, R41, R46); a FILL CWO is accepted and discarded (R31). -/
def placeRow (h : CwoHeader) (row : Bytes) (s : State) : State :=
  let s := noteHeader h (passHeader h s)
  if !([typeData, typeVault, typeEod, typeRait].contains h.type) then s else
  let s := s.modRdDs h.dsn (fun d => if d.complete || d.rows.any (fun r => r.1 == h.cwoIndex) then d else { d with rows := d.rows ++ [(h.cwoIndex, row)] })
  finishDs h.dsn s

/-- A CWO of channel `c` was not found after all attempts: at the eighth of a dataset the read channel takes a strike (R366). -/
def noteMissing (c : Nat) (s : State) : State :=
  let s := { s with rdc.failed := satInc 255 s.rdc.failed }
  match (s.rtv.ds.filter (fun d => d.pos == 0)).getLast? with
  | none => s
  | some d =>
    let k := (d.notFound.lookup c).getD 0 + 1
    let s := s.modRdDs d.dsn (fun d => { d with notFound := (c, k) :: d.notFound.filter (fun x => x.1 != c) })
    if k = 8 && s.glb.mode = .retrieve then strike 1 c s else s

/-! ### Finding codeword objects (R149 to R152) -/

/-- Insertion into a rising list. -/
def insertInt (x : Int) : List Int → List Int
  | [] => [x]
  | y :: l => if x ≤ y then x :: y :: l else y :: insertInt x l

/-- The median; of an even number of positions it lies between the two middle ones, and where is free (log entry 15). -/
def median (l : List Int) : Int :=
  let s := l.foldr insertInt []
  clampI (s.getD ((s.length - 1) / 2) 0) (s.getD (s.length / 2) 0) (Config.middle s)

/-- Channels whose windows count: in service. -/
def rchUp (s : State) : List Nat := (List.range 128).filter (fun c => !s.retired 1 c && (s.rch[Fin.ofNat 128 c]).live)

/-- In acquisition at least 16 matches must lie within a span of 48 bits: those of the first such span (R149). -/
def inSpan (ps : List Int) : List Int :=
  match (ps.foldr insertInt []).find? (fun p => decide (16 ≤ ps.countP (fun q => decide (p ≤ q) && decide (q ≤ p + 48)))) with
  | some p => ps.filter (fun q => decide (p ≤ q) && decide (q ≤ p + 48))
  | none => []

/-- Framing of a CWO begins; with it acquisition ends, and τ is set from the phase of the tone (R141). -/
def RChan.frame (r : RChan) (base chosen : Int) (found : Bool) (dist : Nat) : RChan :=
  { r with base := base, chosen := chosen, found := found, smDist := dist, marksOk := found, slipLog := [], erased := [], cuts := []
           slipOff := 0, wraps := r.wraps.filter (fun w => decide (chosen - 48 ≤ w.1)), framing := true
           sync := if found then .tracking else .flywheeling
           tau := if r.sync == .acquisition then r.tone else r.tau, onTone := false, hit := none
           flywheels := if found then r.flywheels else satInc 255 r.flywheels
           flyRun := if found then 0 else r.flyRun + 1 }

/-- A tier of CWOs: each channel frames at its mark, or flywheels at its expected position. A channel in acquisition, and
one that has flywheeled 8 CWOs, takes the median of the marks for its expected position (R149). -/
def frameTier (marks : List Int) (s : State) : State :=
  let med := median marks
  (rchUp s).foldl (fun s c =>
    let k : Chan := Fin.ofNat 128 c
    let r := s.rch[k]
    let mark := match s.rdc.windows.find? (fun w => w.1 == c) with | some w => w.2.1 | none => none
    let mark := mark.filter (fun m => r.sync != .acquisition || marks.contains m.2)
    let lost := r.sync == .acquisition || decide (8 ≤ r.flyRun)
    let e := if lost && 16 ≤ marks.length then med else r.expected
    s.modRch k (fun r => match mark with
      | some m => r.frame e m.2 true m.1
      | none => let r := if lost && 16 ≤ marks.length then { r with flyRun := 0 } else r
                r.frame e e false 0)) s

/-- Every window of the tier slot has closed: what it holds is decided (R151). -/
def decideTier (s : State) : State :=
  let up := rchUp s
  let ws := s.rdc.windows.filter (fun w => up.contains w.1)
  let marks := ws.filterMap (fun w => w.2.1.map (·.2))
  let acquiring := up.all (fun c => (s.rch[Fin.ofNat 128 c]).sync == .acquisition)
  let marks := if acquiring then inSpan marks else marks
  let clear (s : State) : State := { s with rdc.windows := [] }
  if 16 ≤ marks.length then clear (frameTier marks { s with rdc.flyTiers := 0 })
  else if acquiring then clear s
  else if up.length ≤ 2 * ws.countP (fun w => w.2.2) then
    let s := clear { s with rdc.inSeparator := true, rdc.flyTiers := 0 }
    -- read-ahead is full: a controlled stop at the separator (R162)
    if s.glb.mode = .retrieve && rdAhead s ≤ aheadCount s then { beginStop s with rtv.stopped := true } else s
  else
    let n := s.rdc.flyTiers + 1
    let s := clear (frameTier [] { s with rdc.flyTiers := n })
    if 8 ≤ n then reacquire s else s

/-- Every window of a separator mark has closed: the next expected position is 48 bits after the mark's end, measured on
other channels where this one found none (R149). -/
def decideSeparator (s : State) : State :=
  let up := rchUp s
  let marks := s.rdc.windows.filterMap (fun w => w.2.1.map (·.2))
  let s := up.foldl (fun s c =>
    let k : Chan := Fin.ofNat 128 c
    let mark := match s.rdc.windows.find? (fun w => w.1 == c) with | some w => w.2.1.map (·.2) | none => none
    let at_ := match mark with
      | some p => p
      | none => if marks.isEmpty then (s.rch[k]).expected + 11440 else median marks
    s.modRch k (fun r => { r with expected := at_ + 32 + 48 })) s
  { s with rdc.windows := [], rdc.inSeparator := false }

/-- A channel's window has closed; with the last one of the tier slot, what the slot holds is decided. -/
def closeWindow (c : Chan) (mark : Option (Nat × Int)) (sep : Bool) (s : State) : State :=
  let s := { s with rdc.windows := s.rdc.windows ++ [(c.val, mark, sep)] }
  if (rchUp s).all (fun k => s.rdc.windows.any (fun w => w.1 == k)) then
    if s.rdc.inSeparator then decideSeparator s else decideTier s
  else s

/-- A window in acquisition: every position that has arrived since the last one is compared with SM32 at distance 1 or less (R149). -/
def acquireWindow (c : Chan) (tone : Int) (s : State) : State :=
  let r := s.rch[c]
  let start := max r.scanned (r.ringEnd - brineLen)
  let n := (r.ringEnd - 31 - start).toNat
  if n = 0 then s
  else
    let new := (marksIn (bitsMsb 32 sm32) 1 n start (r.bitsFrom c.val start (n + 31))).getLast?.map (fun x => (x.2, x.1))
    let hit := if new.isSome then new else r.hit
    closeWindow c hit false (s.modRch c (fun r => { r with scanned := r.ringEnd - 31, hit := hit, tone := tone }))

/-- A window in tracking: SM32, or in a separator its mark, from 24 bits before to 24 bits after its expected position, and whether the
separator's tone stands at the expected position (R150, R151). It closes when the last bit of its last candidate has arrived. -/
def trackWindow (c : Chan) (s : State) : State :=
  let r := s.rch[c]
  let p := if s.rdc.inSeparator then r.expected + 11440 else r.expected
  let mark := bitsMsb 32 (if s.rdc.inSeparator then separatorMark else sm32)
  if !r.arrived (p + 55) then s
  else
    let best := (bestCand p (r.marksNear c.val mark 3 p 24)).map (fun x => (x.2, x.1))
    closeWindow c best (decide (hamming (tone 32) (r.bitsFrom c.val r.expected 32) ≤ 3)) s

/-- SYNC_WINDOW_CLOSE: a window of channel `c`, with the phase of the preamble tone as measured. On a channel that the end of holdover has
stopped the CWO counts as not found (R142). -/
def syncWindow (c : Chan) (phase : Int) (s : State) : State :=
  if s.retired 1 c.val || s.rdc.windows.any (fun w => w.1 == c.val) then s
  else match s.rch[c].sync with
    | .stopped => if s.glb.mode = .retrieve && s.fmt.motion = .running then noteMissing c.val s else s
    | .acquisition => acquireWindow c phase s
    | .tracking | .flywheeling => trackWindow c s

def execSyncWindowClose (c : Chan) (tone : Int) (s : State) : Out := next (syncWindow c tone s)

/-! ### Resync marks and slips (R153, R155) -/

/-- Offset in the CWO of the first bit of segment `j` (R28). -/
def segmentStart (j : Nat) : Int := (resyncOffset j : Int) - 4752

/-- Word of the CWO in which bit `i` of the CWO lies, in segment `j`. -/
def wordAt (j : Nat) (i : Int) : Nat := 144 * j + ((i - segmentStart j) / 33).toNat % 144

/-- A slip of `d` bits in segment `j` is repaired (R153): logged wraps that moved the bit index by d are reversed, nearest the mark first,
and what they do not explain is put at the segment's middle. -/
def RChan.repair (r : RChan) (j : Nat) (d : Int) : RChan :=
  let start := r.chosen - 48 + r.slipOff
  let sign : Int := if d < 0 then -1 else 1
  let inSeg (w : Int × Int) : Bool := decide (segmentStart j ≤ w.1 - start) && decide (w.1 - start < resyncOffset j + d) && w.2 == sign
  let back := ((r.wraps.filter inSeg).take d.natAbs).reverse.map (fun w => w.1 - start)
  let cuts := back.zipIdx.map (fun w => (w.1 - sign * w.2, sign))
  let rest := d - sign * back.length
  let middle := if rest = 0 then [] else (List.range 16).map (fun i => 144 * j + 64 + i)
  let last := if rest = 0 then [] else [(segmentStart j + 72 * 33, rest)]
  { r with erased := r.erased ++ cuts.map (fun x => wordAt j x.1) ++ middle, cuts := r.cuts ++ cuts ++ last
           slipOff := r.slipOff + d, slipLog := r.slipLog ++ [(d, j)], slips := satInc 255 r.slips, marksOk := false }

/-- The attempts of a CWO, in order (R156): other alignments in RETRIEVE only, and only with retry_en. -/
def attemptsOf (s : State) (base chosen : Int) : List Int :=
  if s.glb.mode = .retrieve && rbit s.rdc.decCfg 5 then
    chosen :: ([1, -1, 2, -2, 3, -3, 4, -4] : List Int).map (fun d => chosen + d)
      ++ (if 4 < (chosen - base).natAbs then [base] else [])
  else [chosen]

/-- The wrap against which headers are checked (R31). -/
def rchWrap (s : State) : Nat := if s.glb.mode = .append then s.fmt.wrap else s.rtv.wrap

/-- The window of RM3 has closed: the CWO is offered, and the next SM32 is expected from the marks as found (R149, R155). -/
def offer (c : Chan) (s : State) : State :=
  let r := s.rch[c]
  let j : CwoJob :=
    { id := s.nextId, wrap := rchWrap s, expected := r.base, chosen := r.chosen, found := r.found, slipOff := r.slipOff, smDist := r.smDist
      marksOk := r.marksOk, slips := r.slipLog, erased := r.erased, cuts := r.cuts, attempts := attemptsOf s r.base r.chosen }
  let z := s.rdc.zone
  { s.modRch c (fun r =>
      { r with framing := false, jobs := r.jobs ++ [j], muCwos := r.muCwos + 1
               framed := r.framed.set z (r.framed.getD z 0 + 1)
               expected := (if r.found then r.chosen + r.slipOff else r.base + r.slipOff) + 19280 }) with nextId := s.nextId + 1 }

/-- RESYNC_WINDOW_CLOSE: RM`j` is searched for from 4 bits before to 4 bits after its expected position; the window closes when those bits
have arrived. -/
def resyncWindow (c : Chan) (j : Fin 4) (s : State) : State :=
  let r := s.rch[c]
  let p := r.chosen - 48 + r.slipOff + resyncOffset j.val
  if !r.framing || !r.arrived (p + 19) then s
  else
    let s := s.modRch c (fun r => match bestCand p (r.marksNear c.val (bitsMsb 16 (resyncMark j.val)) 2 p 4) with
      | none => { r with marksOk := false }
      | some x => if x.1 = p then r else r.repair j.val (x.1 - p))
    if j.val = 3 then offer c s else s

def execResyncWindowClose (c : Chan) (j : Fin 4) (s : State) : Out := next (resyncWindow c j s)

/-! ### Attempts and C1 decoding (R148, R156 to R159) -/

/-- A CWO of channel `c` changed by `f`. -/
def State.modJob (s : State) (c : Chan) (id : Nat) (f : CwoJob → CwoJob) : State :=
  s.modRch c (fun r => { r with jobs := modFirst (fun j => j.id == id) f r.jobs })

/-- The place of an attempt in the queue of C1 cores: behind those of its order and before later ones (R159). -/
def enqueue (q : C1Req) : List C1Req → List C1Req
  | [] => [q]
  | x :: l => if x.order ≤ q.order then x :: enqueue q l else q :: x :: l

/-- Whether a core can take an attempt: its samples stand in the brine buffer, or have been copied (R155, R157). -/
def takeable (s : State) (q : C1Req) : Bool := q.input.isSome || (s.rch[Fin.ofNat 128 q.chan]).standing (q.align + 32)

/-- A core copies the framed samples of an attempt (R148, R153, R155). -/
def copyIn (s : State) (q : C1Req) : C1Req :=
  let r := s.rch[Fin.ofNat 128 q.chan]
  match q.input, r.jobs.find? (fun j => j.id == q.id) with
  | none, some j =>
    let soft := r.framedSoft q.align j.cuts
    { q with input := some (eraseWords j.erased (c1Input q.chan soft), hardInput q.chan q.align soft) }
  | _, _ => q

/-- Attempts go to cores in order, each to the lowest-numbered idle core in service (R159). -/
def assignCores (s : State) : State :=
  (List.range 16).foldl (fun s _ =>
    match s.rdc.coreQueue.find? (takeable s), (List.finRange 16).find? (fun k => s.rdc.core[k].isNone && !s.retired 2 k.val) with
    | some q, some k => { s with rdc.core := vset s.rdc.core k (some (copyIn s q)), rdc.coreQueue := s.rdc.coreQueue.erase q }
    | _, _ => s) s

/-- EV_SYNC_SLIP (R154): kind, offset, segment, and the accepted CWO's index and dsn. -/
def slipEvent (c : Chan) (kind : Nat) (d : Int) (seg : Nat) (h : Option CwoHeader) (s : State) : State :=
  raiseEv .syncSlip 0xB c.val noInst
    (leBytes 1 c.val ++ leBytes 1 kind ++ leBytes 1 (unsigned 8 d) ++ leBytes 1 seg
      ++ leBytes 2 ((h.map (·.cwoIndex)).getD 0xFFFF) ++ leBytes 4 ((h.map (·.dsn)).getD 0)) s

/-- What verify is told of a CWO in APPEND (R122). -/
def CwoJob.readback (j : CwoJob) : Readback :=
  { header := j.running.head?.map (·.2.1), smDist := j.smDist, flywheeled := !j.found, marksOk := j.marksOk
    out := j.running.head?.bind (fun r => r.2.2.getD none), overwritten := j.overwritten }

/-- Whether the header of a CWO has decoded at its chosen alignment. -/
def CwoJob.headerOk (j : CwoJob) : Bool := j.running.any (fun r => r.1 == j.chosen && (decodeHeader r.2.1).isSome)

/-- A CWO ends: its repaired slips are reported, and the next expected position is corrected when the match does not
count as a mark found (R149). `acc` is the alignment at which it was accepted, with its header. In APPEND verify has it. -/
def endCwo (c : Chan) (j : CwoJob) (acc : Option (Int × CwoHeader)) (s : State) : State :=
  let h := acc.map (·.2)
  let s := j.slips.foldl (fun s d => slipEvent c 1 d.1 d.2 h s) s
  let s := match acc with
    | some a =>
      if a.1 = j.chosen then s
      else
        let kind := if a.1 = j.expected && 4 < (j.chosen - j.expected).natAbs then 3 else 2
        slipEvent c kind (a.1 - j.chosen) 0xFF h
          { s.modRch c (fun r => { r with slips := satInc 255 r.slips }) with rdc.retriedOk := satInc 255 s.rdc.retriedOk }
    | none => s
  let append := s.glb.mode == .append
  let used := if j.found then j.chosen + j.slipOff else j.expected + j.slipOff
  let right := match acc with
    | some a => if a.1 = j.chosen then used else a.1
    | none => if j.found && !(append && j.headerOk) then j.expected else used
  s.modRch c (fun r =>
    { r with jobs := r.jobs.filter (fun x => x.id != j.id), done := if append then r.done ++ [j.readback] else r.done
             expected := if (r.jobs.getLast?.map (·.id)) == some j.id && !r.framing then r.expected + (right - used) else r.expected })

/-- What the attempts of a CWO have come to: the earliest that converged with none before it running, or nothing left. -/
inductive Verdict where
  | wait
  | missing
  | accepted (alignment : Int) (header row : Bytes)
  deriving DecidableEq, Repr

/-- The verdict over attempts in order. -/
def verdictOf : List (Int × Bytes × Option (Option C1Out)) → Bool → Verdict
  | [], more => if more then .wait else .missing
  | (a, h, some (some o)) :: _, _ => .accepted a h o.row
  | (_, _, some none) :: l, more => verdictOf l more
  | (_, _, none) :: _, _ => .wait

/-- Judges a CWO after one of its attempts has ended. -/
def settleJob (c : Chan) (id : Nat) (s : State) : State :=
  match s.rch[c].jobs.find? (fun j => j.id == id) with
  | none => s
  | some j =>
    match verdictOf j.running (!j.attempts.isEmpty) with
    | .wait => s
    | .missing => endCwo c j none (if s.glb.mode = .retrieve then noteMissing c.val s else s)
    | .accepted a hb row =>
      let s := { s with rdc.coreQueue := s.rdc.coreQueue.filter (fun w => !(w.chan == c.val && w.id == id)) }
      match decodeHeader hb with
      | none => endCwo c j none s
      | some h =>
        let s := endCwo c j (some (a, h)) s
        if s.glb.mode = .retrieve then placeRow h row s else s

/-- Whether the next attempt of a CWO may be made: the chosen alignment first, others when it has ended, and at most
retry_par running at once (R156, R157). -/
def mayAttempt (s : State) (j : CwoJob) : Bool :=
  let busy := j.running.countP (fun r => r.2.2.isNone)
  !j.attempts.isEmpty && !j.running.any (fun r => match r.2.2 with | some (some _) => true | _ => false)
    && !j.running.any (fun r => r.1 == j.chosen && r.2.2.isNone) && decide (busy < max 1 (fld s.rdc.decCfg 6 2))

/-- An attempt of a CWO is abandoned, its samples overwritten before it was taken (R12, R157). -/
def CwoJob.abandon (j : CwoJob) (a : Int) : CwoJob :=
  { j with
    attempts := j.attempts.filter (fun x => x != a), overwritten := true
    running := modAll (fun r => r.1 == a && r.2.2.isNone) (fun r => (r.1, r.2.1, some none)) j.running }

/-- HEADER_DECODE_DONE: the next attempt of the channel's oldest CWO that can make one, from the hard decisions of its header bits (R148).
A first attempt takes its place among CWOs by when they were offered, a retry by when it is issued (R159). -/
def headerDone (c : Chan) (s : State) : State :=
  match s.rch[c].jobs.find? (mayAttempt s) with
  | none => s
  | some j =>
    let a := j.attempts.headD 0
    if !s.rch[c].arrived (a + 19231) then s
    else if !s.rch[c].standing (a + 32) then settleJob c j.id (s.modJob c j.id (fun j => j.abandon a))
    else
      let header := s.rch[c].headerAt c.val a
      let s := if a = j.chosen then s else s.modRch c (fun r => { r with retries := satInc 255 r.retries })
      match headerAccepted j.wrap header with
      | some _ =>
        let s := s.modJob c j.id (fun j => { j with attempts := j.attempts.drop 1, running := j.running ++ [(a, header, none)] })
        let q : C1Req := { order := if a = j.chosen then j.id else s.nextId, chan := c.val, id := j.id, align := a }
        assignCores { s with rdc.coreQueue := enqueue q s.rdc.coreQueue }
      | none =>
        let s := s.modJob c j.id (fun j => { j with attempts := j.attempts.drop 1, running := j.running ++ [(a, header, some none)] })
        settleJob c j.id s

def execHeaderDecodeDone (c : Chan) (s : State) : Out := next (headerDone c s)

/-- The iteration cap (R158). -/
def iterCap (s : State) : Nat :=
  if s.glb.mode = .append then max 1 (fld s.fmt.verifyCfg 3 5)
  else match s.rtv.reread with
    | some (_, 3) => 31
    | _ => if fld s.rdc.decCfg 8 6 < (s.rdc.coreQueue.map (fun q => (q.chan, q.id))).eraseDups.length then 8 else max 1 (fld s.rdc.decCfg 0 5)

/-- The core is free, and the next attempt takes it. -/
def freeCore (k : Fin 16) (s : State) : State :=
  assignCores { s with rdc.core := vset s.rdc.core k none, rdc.coreFail := s.rdc.coreFail &&& ~~~(BitVec.twoPow 16 k.val) }

/-- The attempt of a core ends with an outcome. -/
def endAttempt (k : Fin 16) (q : C1Req) (out : Option C1Out) (s : State) : State :=
  let c : Chan := Fin.ofNat 128 q.chan
  let s := s.modJob c q.id (fun j => { j with running := modFirst (fun r => r.1 == q.align && r.2.2.isNone) (fun r => (r.1, r.2.1, some out)) j.running })
  settleJob c q.id (freeCore k s)

/-- What a core makes of its input (R158). -/
def c1Outcome (cap : Nat) (input : List Int × List Bool) : Option C1Out :=
  (c1Decode cap input.1).map (fun r => { row := bytesOfBits 2048 (r.2.take 16384), iterations := r.1, errors := rawErrors input.2 r.2 })

/-- C1_DECODE_DONE: core `k` has run on the samples it copied. At hand-over 6 a row whose CRC fails is read again once, and then is a C2
erasure (R18, R20). -/
def c1Done (k : Fin 16) (rowOk : Bool) (s : State) : State :=
  match s.rdc.core[k] with
  | none => s
  | some q =>
    let c : Chan := Fin.ofNat 128 q.chan
    match s.rch[c].jobs.find? (fun j => j.id == q.id) with
    | none => freeCore k s
    | some j =>
      match c1Outcome (iterCap s) (q.input.getD ([], [])) with
      | none => endAttempt k q none s
      | some o =>
        if rowOk || s.glb.mode = .append then endAttempt k q (some o) { s with rdc.converged := satInc 65535 s.rdc.converged }
        else
          let again := s.rdc.coreFail.getLsbD k.val
          let h := (j.running.find? (fun r => r.1 == q.align)).bind (fun r => decodeHeader r.2.1)
          let unit := rowUnit ((h.map (·.dsn)).getD 0) ((h.map (·.cwoIndex)).getD 0)
          let s := strike 2 k.val (raiseResend 6 unit (if again then 2 else 1) 2 k.val noInst s)
          if again then endAttempt k q none s
          else if s.rdc.core[k].isNone then s
          else { s with rdc.coreFail := s.rdc.coreFail ||| BitVec.twoPow 16 k.val }

def execC1DecodeDone (k : Fin 16) (rowOk : Bool) (s : State) : Out := next (c1Done k rowOk s)

/-- The attempts of a CWO that nothing has taken and whose first header bit has been overwritten (R155). -/
def lostAttempts (c : Chan) (j : CwoJob) (s : State) : List Int :=
  let waiting := (s.rdc.coreQueue.filter (fun q => q.chan == c.val && q.id == j.id && q.input.isNone)).map (·.align)
  (j.attempts ++ waiting).filter (fun a => !s.rch[c].standing (a + 32))

/-- SAMPLE_OVERWRITE: attempts of the channel whose samples have been overwritten before they were taken are abandoned (R12, R157). -/
def sampleOverwrite (c : Chan) (s : State) : State :=
  s.rch[c].jobs.foldl (fun s j =>
    let gone := lostAttempts c j s
    if gone.isEmpty then s
    else
      let mine (q : C1Req) : Bool := q.chan == c.val && q.id == j.id && q.input.isNone && gone.contains q.align
      let s := { s with rdc.coreQueue := s.rdc.coreQueue.filter (fun q => !mine q) }
      settleJob c j.id (s.modJob c j.id (fun j => gone.foldl CwoJob.abandon j))) s

def execSampleOverwrite (c : Chan) (s : State) : Out := next (sampleOverwrite c s)

/-! ### Clock tracks (R142, R143) -/

/-- CT_LOST: input A (false) or B (true). -/
def ctLost (b : Bool) (s : State) : State :=
  if !(if b then s.rdc.lockB else s.rdc.lockA) then s
  else
    let s := { s with rdc := { s.rdc with
      lockA := s.rdc.lockA && b, lockB := s.rdc.lockB && !b, losses := satInc 65535 s.rdc.losses } }
    let s := raiseEv .ctLost 0xB noRes noInst (leBytes 1 (bit b)) s
    if s.rdc.lockA || s.rdc.lockB then s
    else
      let s := { s with rdc.holdover := true, rdc.holdLeft := max 1 (fld s.rdc.clkCfg 0 4) }
      if s.glb.mode = .append then gateDrop { s with fmt.ctGate := true } else s

def execCtLost (b : Bool) (s : State) : Out := next (ctLost b s)

/-- CT_REGAINED: channels that holdover stopped acquire again; with both inputs the gate may reopen. -/
def ctRegained (b : Bool) (s : State) : State :=
  let s := { s with rdc := { s.rdc with lockA := s.rdc.lockA || !b, lockB := s.rdc.lockB || b, holdover := false } }
  let s := if s.rch.toList.all (fun r => r.sync == .stopped) && (s.glb.mode == .append || s.glb.mode == .retrieve) then reacquire s else s
  { s with fmt.ctGate := s.fmt.ctGate && !(s.rdc.lockA && s.rdc.lockB) }

def execCtRegained (b : Bool) (s : State) : Out := next (ctRegained b s)

/-- HOLDOVER_END, once hold_frames servo frames have passed: every channel stops, in the middle of a CWO too; CWOs that have been framed are
decoded still. -/
def holdoverEnd (s : State) : State :=
  if !s.rdc.holdover || 0 < s.rdc.holdLeft then s
  else { s with rch := s.rch.map (fun r => { r with sync := .stopped, framing := false })
                rdc := { s.rdc with holdover := false, windows := [] } }

def execHoldoverEnd (s : State) : Out := next (holdoverEnd s)

/-- SYNTH_LOCK: the synthesiser has locked at a zone's multiplier; the channels start cold and acquire on the lead-in. -/
def synthLock (z : Fin 3) (s : State) : State :=
  if s.glb.mode = .append || s.glb.mode = .retrieve then acquireAll (coldStartAll z.val { s with rdc.zone := z.val }) else s

def execSynthLock (z : Fin 3) (s : State) : Out := next (synthLock z s)

end Sys2Proof.Machine
end

