-- ==== Sys2Proof/Machine/Recovery.lean ====
section
/-! DEFINITION. Sys2Proof/Machine/Recovery.lean: recovery of a dataset being read: C2, re-read passes, Vault parity, RAIT
(R37, R59, R60, R160, R161, R321). -/

namespace Sys2Proof.Machine

/-- RCH_RECOVER.reread_max. -/
def rereadMax (s : State) : Nat := fld s.rdc.recover 0 2

/-- A re-read pass begins (R161): the tape stops under control and is repositioned. -/
def beginReread (dsn pass : Nat) (s : State) : State :=
  let s := { s.modRdDs dsn (fun d => { d with pass := pass }) with rtv.reread := some (dsn, pass) }
  if s.fmt.motion = .running then { beginStop s with fmt.moveFor := .reread } else beginMove .reread true s

/-! ### Vault (R59, R60) -/

/-- The VAULT dataset in hand whose group takes in dataset `dsn`; its headers carry the member count. -/
def vaultOf (s : State) (dsn : Nat) : Option RdDs :=
  s.rtv.ds.find? (fun v => v.pos == 0 && v.kind == typeVault && decide (v.dsn - v.tag ≤ dsn) && decide (dsn < v.dsn))

/-- Row `i` of member `dsn` from the VAULT dataset and every other member, when they all yield it. -/
def vaultRow (s : State) (v : RdDs) (dsn i : Nat) : Option Bytes :=
  let others := (List.range v.tag).map (fun k => v.dsn - v.tag + k)
  let rows := (v.dsn :: others.filter (fun n => n != dsn)).map (fun n =>
    (s.rdAt n 0).bind (fun d => (d.rows.find? (fun x => x.1 == i)).map (·.2)))
  if rows.all (·.isSome) then some (xorRows 2048 (rows.map (fun r => r.getD []))) else none

/-- Every missing row that Vault parity gives. -/
def vaultFill (s : State) (v : RdDs) (d : RdDs) : RdDs :=
  (List.range datasetRows).foldl (fun d i =>
    if d.rows.any (fun x => x.1 == i) then d
    else match vaultRow s v d.dsn i with
      | some row => { d.addRow i row with corrected := true }
      | none => d) d

/-- What Vault can still bring to a dataset. -/
inductive VaultHope where
  /-- Nothing: Vault is off, or every dataset of the group has given all it can, or the group has no VAULT dataset. -/
  | none
  /-- The tape has still to pass the rest of the group. -/
  | ahead
  /-- Members before what is being read are needed: the first of them. -/
  | behind (dsn : Nat)
  deriving DecidableEq, Repr

/-- What Vault can still bring (R60). -/
def vaultHope (s : State) (dsn : Nat) : VaultHope :=
  if !(s.dirEntry s.rtv.part).vault then .none
  else match vaultOf s dsn with
    | Option.none => if s.rtv.eodSeen || s.rtv.ds.any (fun d => d.pos == 0 && decide (dsn + 16 ≤ d.dsn)) then .none else .ahead
    | some v =>
      let members := (List.range v.tag).map (fun k => v.dsn - v.tag + k)
      let open_ (n : Nat) : Bool := match s.rdAt n 0 with | some d => !d.complete && !d.lost | Option.none => false
      match members.find? (fun n => (s.rdAt n 0).isNone && decide (n < s.rtv.low)) with
      | some n => .behind n
      | Option.none => if (v.dsn :: members).any (fun n => n != dsn && open_ n) then .ahead else .none

/-- The members before what is being read are read too: the tape is repositioned before the first of them. -/
def readBehind (dsn : Nat) (s : State) : State :=
  let s := { s with rtv.low := dsn, rtv.eodSeen := false, rtv.stopped := false }
  if s.fmt.motion = .running then { beginStop s with fmt.moveFor := .readStart } else beginMove .readStart true s

/-! ### DATASET_RECOVERY -/

/-- Rows remain lost (R160 step 6): extraction meets the loss. -/
def loseDs (dsn : Nat) (s : State) : State := pumpReads (serveAll (s.modRdDs dsn (fun d => { d with lost := true })))

/-- Steps 4 to 6 of R160. -/
def recoverLast (dsn : Nat) (s : State) : State :=
  match s.rdAt dsn 0 with
  | none => s
  | some d =>
    let d' := match vaultOf s dsn with | some v => if (s.dirEntry s.rtv.part).vault then vaultFill s v d else d | none => d
    let s := s.modRdDs dsn (fun _ => d')
    if d'.full then finishDs dsn s
    else match vaultHope s dsn with
      | .ahead => endReread dsn s
      | .behind n => readBehind n (endReread dsn s)
      | .none =>
        let s := endReread dsn s
        if isOrigin s && groupPart s s.rtv.part then pumpReads (rebuildOwn dsn s) else loseDs dsn s

/-- DATASET_RECOVERY: the rewrite region of dataset `dsn` + 3 has passed and rows are missing, in the reading or in the
re-read pass in hand; or, after the passes, another dataset of its Vault group has ended. -/
def datasetRecovery (dsn : Nat) (s : State) : State :=
  if s.glb.mode != .retrieve then s
  else match s.rdAt dsn 0 with
    | none => s
    | some d =>
      if d.complete || d.lost then s
      else
        let s := erasePoison d s
        let s := s.modRdDs dsn (fun d => { d.c2Fill with corrected := d.corrected || d.pass != 0 })
        match s.rdAt dsn 0 with
        | none => s
        | some d =>
          if d.full then finishDs dsn s
          else if d.pass < rereadMax s then beginReread dsn (d.pass + 1) s
          else recoverLast dsn s

def execDatasetRecovery (dsn : Nat) (s : State) : Out := next (datasetRecovery dsn s)

end Sys2Proof.Machine
end

