-- ==== Sys2Proof/Machine/RingRecv.lean ====
section
/-! DEFINITION. Sys2Proof/Machine/RingRecv.lean: the receiver of a link: checks, drops, acknowledgement, cut-through forwarding and
delivery (R300 to R306). -/

namespace Sys2Proof.Machine

/-! ### Checks (R300 to R303) -/

/-- Reserved ranges of a CONTROL body, as offset and size; none for a message that is not listed (R302). -/
def bodyReserved (msg : Nat) : Option (List (Nat × Nat)) :=
  if msg = 0x01 then some [(3, 1), (24, 12)]
  else if msg = 0x11 then some [(12, 4), (32, 4)]
  else if msg = 0x12 then some [(16, 20)]
  else if msg = 0x13 then some [(12, 24)]
  else if msg = 0x30 then some [(8, 28)]
  else if [0x02, 0x10, 0x20, 0x21, 0x24].contains msg then some [(4, 32)]
  else if [0x22, 0x23, 0x40, 0x41].contains msg then some [(1, 35)]
  else none

/-- Message, group and body of a CONTROL frame. -/
def fMsg (f : Bytes) : Nat := u8 (fPayload f) 0
def fGroup (f : Bytes) : Bytes := slice (fPayload f) 4 8
def fBody (f : Bytes) : Bytes := slice (fPayload f) 12 36

/-- Whether every reserved bit of a frame is 0 (R300, R301). -/
def frameClean (f : Bytes) : Bool :=
  let p := fPayload f
  decide (fFlags f < 4) && u8 f 9 == 0 && decide (u16 f 2 < 4096) && decide (u32 f 4 < 2 ^ 30)
    && (if fType f = ftAck || fType f = ftNak then decide (u8 p 4 < 16) && zeroAt p 5 43
        else if fType f = ftBeacon then decide (u8 p 35 < 2) && zeroAt p 36 12
        else if fType f = ftToken then decide (u8 p 3 < 2) && zeroAt p 36 12
        else if fType f = ftControl then
          zeroAt p 1 3 && (match bodyReserved (fMsg f) with | some l => l.all (fun r => zeroAt (fBody f) r.1 r.2) | none => true)
        else true)

/-- Whether a frame has the length of its type and its CRC passes. -/
def frameSound (f : Bytes) : Bool :=
  decide (20 ≤ f.length) && f.length == 20 + payloadLen (fType f) (fFlags f)
    && slice f (f.length - 4) 4 == crcBytes (f.take (f.length - 4))

/-- Whether a frame is what a row names: its type, and its message when it is a CONTROL frame. -/
def frameIs (type : Nat) (msg : Option Nat) (f : Bytes) : Bool :=
  fType f == type && (match msg with | some m => fMsg f == m | none => true)

/-! ### Acknowledgement (R303) -/

/-- Mask of the lanes active at a port. -/
def laneMask (s : State) (q : Fin 2) : Nat := (activeLanes s q).foldl (fun a i => a + 2 ^ i) 0

/-- An ACK or NAK of this end of a link. -/
def ackFrame (s : State) (q : Fin 2) (type : Nat) : Bytes :=
  mkFrame type 0 (neighbour s q) s.chn.addr 0 0 0 0
    (leBytes 2 (s.rport q).rxSeq.toNat ++ leBytes 2 512 ++ leBytes 1 (laneMask s q) ++ zeros 43)

/-- Acknowledges every frame accepted. -/
def sendAck (q : Fin 2) (s : State) : State := (emitFrame q (ackFrame s q ftAck) s).modPort q (fun p => { p with toAck := 0 })

/-- One NAK, and no further one until a frame is accepted or 4 µs have passed. -/
def sendNak (q : Fin 2) (s : State) : State :=
  let p := s.rport q
  if !portUp s q || (p.nakOut && decide (s.glb.time < p.nakAt + 4000)) then s
  else (emitFrame q (ackFrame s q ftNak) s).modPort q (fun p => { p with nakOut := true, nakAt := s.glb.time, nakSent := satInc 65535 p.nakSent })

/-- A frame is accepted: the next seq is expected, and 16 accepted frames are acknowledged. -/
def acceptFrame (q : Fin 2) (s : State) : State :=
  let s := s.modPort q (fun p => { p with rxSeq := p.rxSeq + 1, toAck := p.toAck + 1, nakOut := false })
  if 16 ≤ (s.rport q).toAck then sendAck q s else s

/-! ### Forwarding (R305) -/

/-- A frame as it is sent on: without seq and CRC, and not marked as resent. -/
def bareFrame (f : Bytes) : Bytes :=
  let f := f.take (f.length - 4)
  patch (patch f 2 (leBytes 2 0)) 1 (leBytes 1 (fFlags f - fFlags f % 2))

/-- Sends a frame on. A broadcast has come all the way round a ring when its source is next. -/
def forwardFrame (q : Fin 2) (f : Bytes) (s : State) : State :=
  let o := otherPort q
  if onRing s && fDst f = noAddr && neighbour s o = fSrc f then s else enqueueFrame o (bareFrame f) s

/-- A frame whose CRC has failed passes on cut-through, with its damage: its new CRC differs from the right one as the
received CRC did. It takes no seq of its own. DEDUCED (log entry 19). -/
def damagedImage (seq : BitVec 12) (f : Bytes) : Bytes :=
  let old := f.take (f.length - 4)
  let new := patch old 2 (leBytes 2 seq.toNat)
  new ++ xorBytes (crcBytes new) (xorBytes (crcBytes old) (f.drop (f.length - 4)))

/-- Cut-through of a frame that this member drops and that is not addressed to it. -/
def passDamaged (q : Fin 2) (f : Bytes) (s : State) : State :=
  let o := otherPort q
  if decide (f.length < 20) || !(isRowFrame f || fType f == ftControl) || fDst f = s.chn.addr || !portUp s o || !(s.rport o).queue.isEmpty
      || 512 ≤ (s.rport o).unacked.length then s
  else s.modPort o (fun p => { p with out := damagedImage p.txSeq f :: p.out })

/-- A frame is dropped. -/
def dropFrame (q : Fin 2) (f : Bytes) (s : State) : State := sendNak q (passDamaged q f s)

/-- A frame fails its CRC (R304): it is counted, and the lanes whose checker reported an error, or else every active one,
take a strike. -/
def failFrame (q : Fin 2) (f : Bytes) (lanes : BitVec 4) (s : State) : State :=
  let active := activeLanes s q
  let hit := active.filter (fun i => lanes.getLsbD i)
  let s := dropFrame q f (s.modPort q (fun p => { p with crcErr := satInc 65535 p.crcErr }))
  (if hit.isEmpty then active else hit).foldl (fun s i => strike 6 (4 * q.val + i) s) s

/-! ### Receiving -/

/-- A frame with a seq comes in on a port: dropped, or accepted and then acted on. A row whose frame is of another kind
than the row names changes nothing. -/
def receive (q : Fin 2) (f : Bytes) (lanes : BitVec 4) (type : Nat) (msg : Option Nat) (act : State → State) (s : State) : State :=
  if !portUp s q then s
  else if !frameSound f then failFrame q f lanes s
  else if !frameIs type msg f then s
  else if !frameClean f then dropFrame q f s
  else if fSeq f != (s.rport q).rxSeq then sendNak q s
  else act (acceptFrame q s)

/-- An ACK or NAK comes in: it has no seq. -/
def receiveAck (q : Fin 2) (f : Bytes) (lanes : BitVec 4) (type : Nat) (act : State → State) (s : State) : State :=
  if !portUp s q then s
  else if !frameSound f then failFrame q f lanes s
  else if !frameIs type none f then s
  else if !frameClean f then dropFrame q f s
  else act s

/-- A frame accepted is delivered here, sent on, or both (R305, R306). -/
def routed (q : Fin 2) (f : Bytes) (deliver : State → State) (s : State) : State :=
  if fDst f = noAddr then (if fSrc f = s.chn.addr then s else deliver (forwardFrame q f s))
  else if fDst f = s.chn.addr then deliver s
  else if fSrc f = s.chn.addr then s
  else forwardFrame q f s

/-- Whether a CONTROL frame's group_id is neither 0 nor this device's group's: such a frame is dropped (R302). -/
def strangeGroup (s : State) (f : Bytes) : Bool := fGroup f != zeros 8 && !(s.chn.grp.state != 0 && fGroup f == s.chn.grp.id)

/-- A CONTROL frame accepted: it acts unless it is of a strange group. -/
def unlessStrange (f : Bytes) (act : State → State) (s : State) : State := if strangeGroup s f then s else act s

/-- A group message accepted: it acts on a device that is in a group, unless it is of a strange one. -/
def ofGroup (f : Bytes) (act : State → State) (s : State) : State := if s.chn.grp.state = 0 then s else unlessStrange f act s

/-! ### The sender's side of the protocol (R303, R304) -/

/-- Frames before `seq` are acknowledged. -/
def releaseTo (seq : BitVec 12) (p : RingPort) : RingPort :=
  let left := if seq = p.txSeq then [] else p.unacked.dropWhile (fun x => x.1 != seq)
  if left.isEmpty && seq != p.txSeq then p
  else if left.length = p.unacked.length then p
  else { p with unacked := left }

/-- CHN_LINK_CFG.resend_max; 0 acts as 1. -/
def resendMax (s : State) : Nat := max 1 (fld s.chn.linkCfg 8 4)

/-- The seq and window that an ACK or NAK carries. -/
def fAckSeq (f : Bytes) : BitVec 12 := BitVec.ofNat 12 (u16 (fPayload f) 0)
def fWindow (f : Bytes) : Nat := min 512 (u16 (fPayload f) 2)

end Sys2Proof.Machine
end

