-- ==== Sys2Proof/Machine/RingGroup.lean ====
section
/-! DEFINITION. Sys2Proof/Machine/RingGroup.lean: RAIT groups: setting, forming, rows of append and retrieve, commit, loss and
failure (R302, R311 to R321). -/

namespace Sys2Proof.Machine

/-! ### Definition and forming (R311, R312, R314) -/

/-- CRC-32C of this member's definition: k, p, partition, flags, group_id and the list. DESIGN CHOICE (log entry 20): the
bytes that the CRC covers are not stated. -/
def Group.crc (g : Group) : Bytes :=
  crcBytes (leBytes 1 g.k ++ leBytes 1 g.p ++ leBytes 1 g.part ++ leBytes 1 (bit g.west) ++ padTo 8 g.id ++ g.members.flatMap (padTo 16))

/-- Positions other than the origin. -/
def otherPositions (g : Group) : List Nat := (List.range g.size).filter (fun p => p != 0)

/-- The origin asks every other position to join. -/
def sendJoins (s : State) : State :=
  if s.chn.grp.state = 1 && isOrigin s then
    (otherPositions s.chn.grp).foldl (fun s p => tellPos p 0x10 p s.chn.grp.crc s) { s with chn.grp.answers := [], chn.grp.serials := [(0, s.cart.serial)] }
  else s

/-- A member's answer: CRC of its definition, its partition's eod_dsn and session, its cartridge's serial. -/
def sendAnswer (s : State) : State :=
  let g := s.chn.grp
  if g.state = 0 || g.state = 3 || g.position = 0 then s
  else tellPos 0 0x11 g.position (g.crc ++ leBytes 4 (s.dirEntry g.part).eodDsn ++ leBytes 4 (highestSession s g.part) ++ zeros 4 ++ padTo 16 s.cart.serial) s

/-- The serials of all positions in order, when every one is known. -/
def allSerials (g : Group) : Option (List Bytes) :=
  let l := (List.range g.size).map (fun p => g.serials.lookup p)
  if l.all (·.isSome) then some (l.map (fun x => x.getD [])) else none

/-- The group record of R314. -/
def groupRecord (g : Group) (serials : List Bytes) : Bytes :=
  let b := leBytes 2 0xA17F ++ leBytes 1 1 ++ leBytes 1 g.part ++ leBytes 1 g.k ++ leBytes 1 g.p ++ leBytes 1 g.position ++ zeros 1
    ++ padTo 8 g.id ++ leBytes 4 g.s0 ++ zeros 12 ++ padTo 512 (serials.flatMap (padTo 16))
  b ++ crcBytes b

/-- The group is formed on this device: its record is written, and nothing has been striped yet. -/
def formHere (s0 session : Nat) (serials : List Bytes) (s : State) : State :=
  let g := { s.chn.grp with
    state := 2, s0 := s0, session := session, next := 0, stripes := [], held := [], commits := [], commit := s0, xoff := []
    sessionEnd := none, serve := [], wanted := [], got := [], rebuilt := [] }
  let s := writeCm cmGroup (groupRecord g serials) { s with chn.grp := g }
  powerFor s.glb.mode s

/-- The origin forms the group once every position has answered and every CRC agrees (R312). -/
def tryForm (s : State) : State :=
  let g := s.chn.grp
  let l := (otherPositions g).map (fun p => g.answers.find? (fun a => a.1 == p))
  match allSerials g with
  | none => s
  | some serials =>
    if !(g.state == 1 && isOrigin s) || !l.all (fun a => match a with | some x => x.2.2.2 | none => false) then s
    else
      let as := l.filterMap id
      let s0 := (as.map (fun a => a.2.1)).foldl min (s.dirEntry g.part).eodDsn
      let session := (as.map (fun a => a.2.2.1)).foldl max (highestSession s g.part) + 1
      let s := serials.zipIdx.foldl (fun s x => tellAll 0x12 x.2 (padTo 16 x.1) s) s
      let s := tellAll 0x13 0 (leBytes 4 s0 ++ leBytes 4 session ++ crcBytes (serials.flatMap (padTo 16))) s
      formHere s0 session serials s

/-- JOIN at a position. -/
def onJoin (s : State) : State :=
  if s.chn.grp.state = 2 then sendAnswer { s with chn.grp.state := 1, chn.grp.serials := [] }
  else sendAnswer { s with chn.grp.serials := [] }

/-- JOIN_ACK at the origin. -/
def onJoinAck (f : Bytes) (s : State) : State :=
  if !(s.chn.grp.state == 1 && isOrigin s) then s
  else
    let b := fBody f
    let p := fPos f
    let a := (p, u32 b 4, u32 b 8, slice b 0 4 == s.chn.grp.crc)
    tryForm { s with
      chn.grp.answers := a :: s.chn.grp.answers.filter (fun x => x.1 != p)
      chn.grp.serials := (p, slice b 16 16) :: s.chn.grp.serials.filter (fun x => x.1 != p) }

/-- GROUP_SERIAL at a member. -/
def onSerial (f : Bytes) (s : State) : State :=
  if s.chn.grp.state != 1 then s
  else { s with chn.grp.serials := (fPos f, slice (fBody f) 0 16) :: s.chn.grp.serials.filter (fun x => x.1 != fPos f) }

/-- GROUP_START at a member: the record is written only when every serial has come and their CRC agrees (R302). -/
def onStart (f : Bytes) (s : State) : State :=
  match allSerials s.chn.grp with
  | none => s
  | some serials =>
    if s.chn.grp.state = 1 && slice (fBody f) 8 4 == crcBytes (serials.flatMap (padTo 16)) then
      formHere (u32 (fBody f) 0) (u32 (fBody f) 4) serials s
    else s

/-! ### RAIT_GROUP_SET (R311, R319) -/

/-- The definition that a RAIT_GROUP_SET descriptor gives. -/
def groupOf (s : State) (d : Bytes) : Group :=
  let k := u8 d 9
  let p := u8 d 10
  let members := (List.range (k + p)).map (fun i => hostRead s 0 (u64 d 16 + 16 * i) 16)
  { state := 1, k := k, p := p, part := u8 d 11, west := (u8 d 12).testBit 0, members := members, id := slice d 24 8
    position := (members.findIdx? (fun m => m == deviceIdent)).getD 0 }

/-- Whether cartridge memory holds a group record of another group (R311, R314). -/
def foreignGroup (cm id : Bytes) : Bool :=
  let r := slice cm cmGroup 548
  u16 r 0 == 0xA17F && u8 r 2 == 1 && slice r 544 4 == crcBytes (r.take 544) && slice r 8 8 != id

/-- The refusals of RAIT_GROUP_SET's set. -/
def groupSetFault (s : State) (d : Bytes) (g : Group) : Option Status :=
  firstFault
    [ (!(decide (2 ≤ g.k) && decide (g.k ≤ 30) && decide (1 ≤ g.p) && decide (g.p ≤ 2) && decide (u8 d 12 < 2)), .badParam)
    , (decide (32 < g.k + g.p), .badParam)
    , (!aligned64 (u64 d 16), .align)
    , (s.glb.mode != .threaded || cartInUse s, .notReady)
    , (g.members.countP (fun m => m == deviceIdent) != 1, .badParam)
    , (!(decide (g.part < 16) && (s.dirEntry g.part).defined), .badParam)
    , ((s.dirEntry g.part).vault, .badParam)
    , (!s.chn.raitOk, .badParam)
    , (foreignGroup s.cart.cm g.id && (s.dirEntry g.part).eodDsn != 0, .badParam) ]

/-- RAIT_GROUP_SET, sub-operation set: the origin asks the others to join; another position answers at once, in case
the origin has asked before. -/
def raitSet (c : Cmd) (s : State) : State :=
  if !reservedZero c.desc [(8, 5), (16, 16)] || !noTarget c then mEnd c .badParam s
  else
    let g := groupOf s c.desc
    match groupSetFault s c.desc g with
    | some st => mEnd c st s
    | none =>
      let s := powerFor s.glb.mode { s with chn.grp := g }
      let s := if g.position = 0 then sendJoins s else sendAnswer s
      mOk c 0 0 (g.position + 256 * bit (s.chn.grp.state == 2)) s

def execRaitGroupSet (cid : Cid) (s : State) : Out := next (subCmd cid 0xB1 0 1 raitSet s)

/-- RAIT_GROUP_SET, sub-operation clear: the group ends and fails, on every member (R319). -/
def raitClear (c : Cmd) (s : State) : State :=
  if !reservedZero c.desc [(8, 5), (16, 16)] || !noTarget c then mEnd c .badParam s
  else
    let p := s.chn.grp.position
    let s := if inGroup s then failGroup (tellAll 0x41 0 (leBytes 1 2) s) else s
    mOk c 0 0 p (settleWaits s)

def execRaitGroupClear (cid : Cid) (s : State) : Out := next (subCmd cid 0xB1 1 1 raitClear s)

/-! ### Loss of a position (R318, R319) -/

/-- The group fails for `cause`, and every member hears of it. -/
def tellFail (cause : Nat) (s : State) : State := settleWaits (failGroup (tellAll 0x41 0 (leBytes 1 cause) s))

/-- Both ports send what may go. -/
def pumpPorts (s : State) : State := pumpPort portWest (pumpPort portEast s)

/-- A position is lost, as the origin sees it. More than p lost, or the origin itself, fail the group. -/
def losePosition (p cause : Nat) (s : State) : State :=
  if !(isOrigin s) || s.chn.grp.isLost p || s.chn.grp.size ≤ p then s
  else
    let s := { s with chn.grp.lost := s.chn.grp.lost ||| BitVec.twoPow 32 p, chn.grp.xoff := s.chn.grp.xoff.filter (fun x => x != p) }
    let s := raiseEv .raitMemberLost 0xE noRes noInst (leBytes 1 p ++ leBytes 1 cause) s
    let s := tellAll 0x40 p (leBytes 1 cause) s
    let lost := (List.range 32).countP (fun i => s.chn.grp.lost.getLsbD i)
    if s.chn.grp.p < lost || p = 0 then tellFail (if p = 0 then 1 else 0) s
    else settleWaits (pumpPorts (groupCommit (loseReads s)))

/-- Routes have changed (R316, R318, R320): positions that no route reaches are lost; rows in flight go again. -/
def routeChanged (s : State) : State :=
  if !inGroup s then s
  else if isOrigin s then
    let gone := (otherPositions s.chn.grp).filter (fun p => match addrOfPos s p with | some a => !reaches s a | none => true)
    let s := gone.foldl (fun s p => losePosition p 0 s) s
    if s.chn.grp.state = 2 then askAgain (s.chn.grp.held.foldl (fun s h => if (h.targets s.chn.grp).isEmpty then s else sendPayload h s) s) else s
  else if (match addrOfPos s 0 with | some a => reaches s a | none => false) then s
  else settleWaits (failGroup s)

/-! ### Rows of append (R316) -/

/-- A stripe in its place, rising. -/
def insertStripe (x : Stripe) : List Stripe → List Stripe
  | [] => [x]
  | y :: l => if x.stripe = y.stripe then y :: l else if x.stripe < y.stripe then x :: y :: l else y :: insertStripe x l

/-- A row placed at a data member, or added with its weight at a parity member; a contribution that has come already is
dropped. -/
def Stripe.take (g : Group) (pos r : Nat) (row : Bytes) (x : Stripe) : Stripe :=
  if g.position < g.k then
    if x.rows.any (fun y => y.1 == r) then x else { x with rows := x.rows ++ [(r, row, [pos])] }
  else
    let w := scaleRow ((g.position - g.k) * pos) row
    if x.rows.any (fun y => y.1 == r) then
      { x with rows := modFirst (fun y => y.1 == r) (fun y => if y.2.2.contains pos then y else (r, xorBytes y.2.1 w, pos :: y.2.2)) x.rows }
    else { x with rows := x.rows ++ [(r, w, [pos])] }

/-- Whether a DATA_ROW is for this member: its data position, or any at a parity position. -/
def isTarget (s : State) (f : Bytes) : Bool :=
  let g := s.chn.grp
  g.state == 2 && !isOrigin s && fOrigin f == originAddr s && decide (fRow f < payloadRows) && decide (fPos f < g.k)
    && (g.position == fPos f || decide (g.k ≤ g.position))

/-- A PAN3 buffer for the next stripe that lacks one (R316). -/
def askStripeBuffer (s : State) : State :=
  if s.chn.grp.stripes.any (fun x => x.handle.isNone) then settleGrants (onBehalf (panAlloc reqParity 6291456 none true) s) else s

/-- A DATA_ROW at a target. A row of a stripe that has joined the queue confirms it again with its last row. -/
def placeData (f : Bytes) (s : State) : State :=
  let g := s.chn.grp
  let st := fStripe f
  if st < nextStripe s then
    if fRow f + 1 = payloadRows then tellPos 0 0x20 g.position (leBytes 4 st) s else s
  else
    let s := { s with fmt.winIntake := s.fmt.winIntake + 2048 }
    let l := insertStripe { stripe := st } g.stripes
    let s := { s with chn.grp.stripes := modFirst (fun x => x.stripe == st) (Stripe.take g (fPos f) (fRow f) (fPayload f)) l }
    settleXoff (settleStripes (askStripeBuffer s))

/-- DATA_ROW: it passes on until its last target, and each target takes a copy as it passes (log entry 17). -/
def dataRow (f : Bytes) (q : Fin 2) (s : State) : State :=
  let s := if fDst f = s.chn.addr || fSrc f = s.chn.addr then s else forwardFrame q f s
  if isTarget s f then placeData f s else s

def execDataRow (q : Fin 2) (frame : Bytes) (lanes : BitVec 4) (s : State) : Out :=
  next (receive q frame lanes ftData none (dataRow frame q) s)

/-! ### Rows of retrieve (R320, R321) -/

/-- READ_ROW at the origin. -/
def onReadRow (f : Bytes) (s : State) : State :=
  if isOrigin s && s.chn.grp.state = 2 && fOrigin f == s.chn.addr then
    takeRow (fPos f) (fStripe f) (fRow f) (if (fFlags f).testBit 1 then none else some (fPayload f)) s
  else s

def execReadRow (q : Fin 2) (frame : Bytes) (lanes : BitVec 4) (s : State) : Out :=
  next (receive q frame lanes ftRead none (routed q frame (onReadRow frame)) s)

/-- READ_REQ at a member: it reads the dataset as a read stream would, in RETRIEVE. -/
def onReadReq (f : Bytes) (s : State) : State :=
  let g := s.chn.grp
  let b := fBody f
  let r : RowReq := { position := g.position, stripe := u32 b 0, first := u16 b 4, count := min (u16 b 6) (payloadRows - u16 b 4) }
  if isOrigin s || g.state != 2 || fPos f != g.position || s.fmt.sess.isSome || r.count = 0 then s
  else
    let s := { s with chn.grp.serve := s.chn.grp.serve ++ [r] }
    let covered := s.rtv.started && s.rtv.part == g.part && decide (s.rtv.low ≤ r.stripe)
    let s := if covered then s
      else beginMove .readStart false { dropReadBufs s with rtv := { part := g.part, low := r.stripe, started := true } }
    serveAll s

def execReadReq (q : Fin 2) (frame : Bytes) (lanes : BitVec 4) (s : State) : Out :=
  next (receive q frame lanes ftControl (some 0x30) (routed q frame (ofGroup frame (onReadReq frame))) s)

/-- READ_ROW_TIMEOUT: a row has not come within 8 × budget of its request. -/
def readRowTimeout (pos stripe row : Nat) (s : State) : State :=
  if isOrigin s && s.chn.grp.state = 2 then takeRow pos stripe row none s else s

def execReadRowTimeout (position : Nat) (stripe : Nat) (row : Nat) (s : State) : Out := next (readRowTimeout position stripe row s)

/-! ### Group messages (R302) -/

/-- A group message's row: link, route, group. -/
def groupRow (q : Fin 2) (f : Bytes) (lanes : BitVec 4) (msg : Nat) (act : State → State) (s : State) : State :=
  receive q f lanes ftControl (some msg) (routed q f (ofGroup f act)) s

def execJoin (q : Fin 2) (frame : Bytes) (lanes : BitVec 4) (s : State) : Out := next (groupRow q frame lanes 0x10 onJoin s)

def execJoinAck (q : Fin 2) (frame : Bytes) (lanes : BitVec 4) (s : State) : Out := next (groupRow q frame lanes 0x11 (onJoinAck frame) s)

def execGroupSerial (q : Fin 2) (frame : Bytes) (lanes : BitVec 4) (s : State) : Out := next (groupRow q frame lanes 0x12 (onSerial frame) s)

def execGroupStart (q : Fin 2) (frame : Bytes) (lanes : BitVec 4) (s : State) : Out := next (groupRow q frame lanes 0x13 (onStart frame) s)

/-- PAYLOAD_OK at the origin: a position holds the whole payload of a stripe. -/
def onPayloadOk (f : Bytes) (s : State) : State :=
  if !(isOrigin s) then s
  else
    let st := u32 (fBody f) 0
    { s with chn.grp.held := modAll (fun h => h.stripe == st && !h.confirmed.contains (fPos f)) (fun h => { h with confirmed := fPos f :: h.confirmed }) s.chn.grp.held }

def execPayloadOk (q : Fin 2) (frame : Bytes) (lanes : BitVec 4) (s : State) : Out := next (groupRow q frame lanes 0x20 (onPayloadOk frame) s)

/-- STRIPE_COMMIT at the origin (R317). -/
def onStripeCommit (f : Bytes) (s : State) : State :=
  if !(isOrigin s) then s
  else settleWaits (groupCommit { s with
    chn.grp.commits := (fPos f, u32 (fBody f) 0) :: s.chn.grp.commits.filter (fun x => x.1 != fPos f) })

def execStripeCommit (q : Fin 2) (frame : Bytes) (lanes : BitVec 4) (s : State) : Out := next (groupRow q frame lanes 0x21 (onStripeCommit frame) s)

/-- XOFF at the origin: no rows go while any member holds it (R317). -/
def onXoff (f : Bytes) (s : State) : State :=
  if isOrigin s && !s.chn.grp.isLost (fPos f) then { s with chn.grp.xoff := fPos f :: s.chn.grp.xoff.filter (fun p => p != fPos f) } else s

def execXoff (q : Fin 2) (frame : Bytes) (lanes : BitVec 4) (s : State) : Out := next (groupRow q frame lanes 0x22 (onXoff frame) s)

/-- XON at the origin. -/
def onXon (f : Bytes) (s : State) : State :=
  if isOrigin s then pumpPorts { s with chn.grp.xoff := s.chn.grp.xoff.filter (fun p => p != fPos f) } else s

def execXon (q : Fin 2) (frame : Bytes) (lanes : BitVec 4) (s : State) : Out := next (groupRow q frame lanes 0x23 (onXon frame) s)

/-- SESSION_END at a member (R315). -/
def onSessionEnd (f : Bytes) (s : State) : State :=
  if isOrigin s || s.chn.grp.state != 2 then s else settleStripes { s with chn.grp.sessionEnd := some (u32 (fBody f) 0) }

def execSessionEnd (q : Fin 2) (frame : Bytes) (lanes : BitVec 4) (s : State) : Out := next (groupRow q frame lanes 0x24 (onSessionEnd frame) s)

/-- POSITION_LOST: at a member the origin's news; at the origin, a member's report of its own loss. -/
def onPositionLost (f : Bytes) (s : State) : State :=
  if isOrigin s then losePosition (fPos f) (u8 (fBody f) 0) s
  else { s with chn.grp.lost := s.chn.grp.lost ||| BitVec.twoPow 32 (fPos f) }

def execPositionLost (q : Fin 2) (frame : Bytes) (lanes : BitVec 4) (s : State) : Out := next (groupRow q frame lanes 0x40 (onPositionLost frame) s)

/-- GROUP_FAIL (R319). -/
def onGroupFail (s : State) : State := settleWaits (failGroup s)

def execGroupFail (q : Fin 2) (frame : Bytes) (lanes : BitVec 4) (s : State) : Out := next (groupRow q frame lanes 0x41 onGroupFail s)

/-- PAYLOAD_CONFIRM_TIMEOUT: a target has not confirmed a payload within 64 × budget of its last row (R318). -/
def confirmTimeout (pos stripe : Nat) (s : State) : State :=
  if isOrigin s && s.chn.grp.held.any (fun h => h.stripe == stripe && (h.targets s.chn.grp).contains pos) then losePosition pos 3 s else s

def execPayloadConfirmTimeout (position : Nat) (stripe : Nat) (s : State) : Out := next (confirmTimeout position stripe s)

end Sys2Proof.Machine
end

