-- ==== Sys2Proof/Machine/RingAssembly.lean ====
section
/-! DEFINITION. Sys2Proof/Machine/RingAssembly.lean: training, beacon flood, enumeration, attestation, links that go down, retry
timers, the end of assembly and reassembly, CHAIN_STATUS (R299, R301 to R310). -/

namespace Sys2Proof.Machine

/-! ### Roster (R302, R307) -/

/-- A member in address order; one without an address comes last. -/
def insertMember (m : Member) : List Member → List Member
  | [] => [m]
  | x :: l => if m.addr < x.addr then m :: x :: l else x :: insertMember m l

/-- The roster takes what a member says of itself. -/
def noteMember (m : Member) (s : State) : State :=
  { s with chn.roster := insertMember m (s.chn.roster.filter (fun x => x.ident != m.ident)) }

/-- This member is a chain end: a port carries no link. -/
def isEnd (s : State) : Bool := !(portUp s portEast && portUp s portWest)

/-- Flags of CHAIN_STATUS byte 2. -/
def memberFlags (s : State) : Nat := bit s.chn.anchor + 2 * bit s.chn.raitOk + 4 * bit (isEnd s)

/-- ROSTER of a member. -/
def rosterFrame (s : State) (m : Member) : Bytes :=
  mkFrame ftControl 0 noAddr s.chn.addr 0 0 0 0
    (control 1 (zeros 8) (leBytes 2 m.addr ++ leBytes 1 m.flags ++ zeros 1 ++ leBytes 4 m.latency ++ padTo 16 m.ident))

/-- This member tells of itself, with the latency that it measured. -/
def announce (latency : Nat) (s : State) : State :=
  let m : Member := { addr := s.chn.addr, flags := memberFlags s, latency := latency, ident := deviceIdent }
  let s := noteMember m s
  enqueueFrame portWest (rosterFrame s m) (enqueueFrame portEast (rosterFrame s m) s)

/-! ### Beacon flood (R309) -/

/-- A port as a flood begins: nothing of an attestation. -/
def RingPort.unattested (p : RingPort) : RingPort :=
  { p with attested := false, nonce := [], peerNonce := [], issuing := [], device := [], step := 0, sent := 0 }

/-- A BEACON. -/
def beaconFrame (s : State) (lowest sender : Bytes) (hops flags : Nat) : Bytes :=
  mkFrame ftBeacon 0 noAddr s.chn.addr 0 0 0 0
    (padTo 16 lowest ++ padTo 16 sender ++ leBytes 1 1 ++ leBytes 1 1 ++ leBytes 1 hops ++ leBytes 1 flags ++ zeros 12)

/-- A member that no link joins to another: alone, at address 0. -/
def standAlone (s : State) : State :=
  noteMember { addr := 0, flags := 3, latency := 0, ident := deviceIdent }
    { s with chn.state := 7, chn.addr := 0, chn.anchor := true, chn.raitOk := true, chn.members := 1, chn.rt := 0, chn.line := [0], chn.roster := [] }

/-- Every wired link has trained, or failed to: the flood begins. -/
def beginFlood (s : State) : State :=
  let s := { s with chn.state := 2 }
  let b := beaconFrame s s.chn.lowest deviceIdent 0 0
  if portUp s portEast || portUp s portWest then enqueueFrame portWest b (enqueueFrame portEast b s)
  else raiseEv .chnAssembled 0xE noRes noInst (leBytes 1 7 ++ leBytes 2 1 ++ leBytes 2 0) (standAlone s)

/-- What an assembly found is forgotten. -/
def clearAssembly (s : State) : State :=
  { s with chn := { s.chn with
    addr := noAddr, anchor := false, raitOk := false, members := 0, rt := 0, lowest := deviceIdent, lowestRait := 1, echoes := 0
    chain := false, east := false, line := [], roster := [], port := s.chn.port.map RingPort.unattested } }

/-- Steps 2 and 3 run again over what remains (R309). -/
def restartFlood (s : State) : State := beginFlood (clearAssembly s)

/-- The hop latency that this member measures, a free value (R305). -/
def measureHop (s : State) : Nat × State := (Config.hopNs s.nextId, { s with nextId := s.nextId + 1 })

/-- What a TOKEN carries (R301). -/
structure Token where
  next : Nat
  phase : Nat
  chain : Bool
  lat : Nat
  sentAt : Nat
  anchor : Bytes
  admitted : Nat
  noRait : Nat
  deriving DecidableEq, Repr

/-- A token read from a frame, and written. -/
def tokenOf (f : Bytes) : Token :=
  let p := fPayload f
  { next := u16 p 0, phase := u8 p 2, chain := (u8 p 3).testBit 0, lat := u32 p 4, sentAt := u64 p 8, anchor := slice p 16 16
    admitted := u16 p 32, noRait := u16 p 34 }
def tokenFrame (s : State) (t : Token) : Bytes :=
  mkFrame ftToken 0 noAddr s.chn.addr 0 0 0 0
    (leBytes 2 t.next ++ leBytes 1 t.phase ++ leBytes 1 (bit t.chain) ++ leBytes 4 t.lat ++ leBytes 8 t.sentAt ++ padTo 16 t.anchor
      ++ leBytes 2 t.admitted ++ leBytes 2 t.noRait ++ zeros 12)

/-! ### Attestation (R301, R309) -/

/-- The device key (R342); RETURNED has none (R360). -/
def deviceKey (s : State) : Option Nat :=
  if s.sec.lifecycle = 4 then none
  else some (Ecc.privOf (Sha.hmac ((List.finRange 32).map Config.uds) (ascii "FX3-DEVICE")))

/-- An ATTEST frame: step, port, certificate, nonces, signature. -/
def attestFrame (s : State) (q : Fin 2) (step : Nat) (cert nonce peer sig : Bytes) : Bytes :=
  mkFrame ftAttest 0 noAddr s.chn.addr 0 0 0 0
    (leBytes 1 step ++ leBytes 1 q.val ++ leBytes 2 (min 1884 cert.length) ++ padTo 32 nonce ++ padTo 32 peer ++ padTo 96 sig ++ padTo 1884 cert)

/-- Step 3, once the neighbour's step 2 has come: a signature over bytes 0 to 67. Without a device key none is made. -/
def sendStep3 (q : Fin 2) (s : State) : State :=
  let p := s.rport q
  if p.sent = 2 && p.step = 2 then
    let head := leBytes 1 3 ++ leBytes 1 q.val ++ leBytes 2 0 ++ padTo 32 p.nonce ++ padTo 32 p.peerNonce
    let sig := match deviceKey s with | some d => Ecc.sign d head | none => zeros 96
    enqueueFrame q (attestFrame s q 3 [] p.nonce p.peerNonce sig) (s.modPort q (fun p => { p with sent := 3 }))
  else s

/-- Steps 1 and 2 on a port. -/
def startAttest (q : Fin 2) (s : State) : State :=
  if !portUp s q || (s.rport q).sent != 0 then s
  else
    let n := draw s 32
    let s := (drawn 32 s).modPort q (fun p => { p with nonce := n, sent := 2 })
    let s := enqueueFrame q (attestFrame s q 1 Config.issuingCert [] [] []) s
    sendStep3 q (enqueueFrame q (attestFrame s q 2 Config.deviceCert n [] []) s)

/-- A member that has its address attests its neighbours. -/
def attestAll (s : State) : State := startAttest portWest (startAttest portEast { s with chn.state := 4 })

/-- Whether a neighbour's step 3 and certificates hold (R301). -/
def attestHolds (p : RingPort) (pay : Bytes) : Bool :=
  Config.certChains p.issuing Config.rootCert && Config.certChains p.device p.issuing
    && Ecc.verify (Config.certKey p.device) (slice pay 0 68) (slice pay 68 96)
    && slice pay 36 32 == p.nonce && slice pay 4 32 == p.peerNonce

/-- A link fails attestation: it goes down, and the flood begins again over what remains. -/
def failAttest (q : Fin 2) (s : State) : State :=
  restartFlood (raiseEv .chnAttestFail 0xE q.val noInst (leBytes 1 q.val) (s.modPort q RingPort.off))

/-- One ATTEST frame from the neighbour. -/
def onAttest (q : Fin 2) (f : Bytes) (s : State) : State :=
  let pay := fPayload f
  let p := s.rport q
  let step := u8 pay 0
  let cert := slice pay 164 (min 1884 (u16 pay 2))
  if step != p.step + 1 then failAttest q s
  else if step = 1 then s.modPort q (fun p => { p with issuing := cert, step := 1 })
  else if step = 2 then sendStep3 q (s.modPort q (fun p => { p with device := cert, peerNonce := slice pay 4 32, step := 2 }))
  else if step = 3 && attestHolds p pay then s.modPort q (fun p => { p with attested := true, step := 3 })
  else failAttest q s

def execAttest (q : Fin 2) (frame : Bytes) (lanes : BitVec 4) (s : State) : Out :=
  next (receive q frame lanes ftAttest none (onAttest q frame) s)

/-! ### Enumeration (R309) -/

/-- The anchor begins: address 0, and the token east; or west when it is a chain's east end. -/
def beginTokens (s : State) : State :=
  let s := { s with chn.state := 3, chn.addr := 0, chn.anchor := true, chn.raitOk := true, chn.east := portUp s portEast }
  let t : Token := { next := 1, phase := 0, chain := false, lat := 0, sentAt := s.glb.time, anchor := deviceIdent, admitted := 1, noRait := 0 }
  if portUp s portEast then
    let h := measureHop s
    let s := announce h.1 h.2
    enqueueFrame portEast (tokenFrame s { t with lat := h.1 }) s
  else
    let s := announce 0 { s with chn.chain := true }
    enqueueFrame portWest (tokenFrame s { t with phase := 1, chain := true }) s

/-- This member takes the token's address (R309). Its RAIT version is 1. -/
def takeAddress (t : Token) (east : Bool) (s : State) : Token × State :=
  let ok := s.chn.lowestRait == 1
  ({ t with next := t.next + 1, admitted := t.admitted + 1, noRait := t.noRait + bit (!ok) },
    { s with chn.addr := t.next, chn.raitOk := ok, chn.east := east, chn.chain := s.chn.chain || t.chain })

/-- Addresses in a chain from west to east: those west of the anchor, descending, then the anchor and those east of it. -/
def chainLine (n east : Nat) : List Nat := ((List.range n).filter (fun a => decide (east < a))).reverse ++ (List.range n).filter (fun a => decide (a ≤ east))

/-- The highest address east of the anchor, from the chain ends that the roster names: the lower of them, or, when the
anchor is one, whichever side this member saw. -/
def eastmost (s : State) : Nat :=
  let n := s.chn.roster.countP (fun m => m.addr != noAddr)
  let ends := (s.chn.roster.filter (fun m => m.addr != noAddr && m.flags.testBit 2)).map (·.addr)
  if ends.isEmpty then n - 1
  else if ends.contains 0 then (if s.chn.east then n - 1 else 0)
  else ends.foldl min (n - 1)

/-- The latency that the roster gives for an address. -/
def latencyOf (s : State) (a : Nat) : Nat := match s.chn.roster.find? (fun m => m.addr == a) with | some m => m.latency | none => 0

/-- t_rt: all hops round a ring; twice the hops from end to end of a chain (R308). -/
def roundTrip (s : State) (ring : Bool) (line : List Nat) : Nat :=
  if ring then (s.chn.roster.filter (fun m => m.addr != noAddr)).foldl (fun a m => a + m.latency) 0
  else 2 * (line.dropLast.map (latencyOf s)).foldl (· + ·) 0

/-- Excludes the highest address: it holds none, and every member hears of it. -/
def excludeHighest (s : State) : State :=
  match (s.chn.roster.filter (fun m => m.addr != noAddr)).getLast? with
  | none => s
  | some m =>
    let x : Member := { m with addr := noAddr, flags := (m.flags ||| 8) }
    let s := noteMember x s
    let s := enqueueFrame portWest (rosterFrame s x) (enqueueFrame portEast (rosterFrame s x) s)
    { s with chn.members := s.chn.members - 1 }

/-- Exclusions until t_rt is within the budget; `n` bounds them. -/
def fitBudget : Nat → State → State
  | 0, s => s
  | n + 1, s =>
    let line := (chainLine (s.chn.roster.countP (fun m => m.addr != noAddr)) (eastmost s))
    let rt := roundTrip s false line
    if rt ≤ s.chn.budget * 1000 || s.chn.members ≤ 1 then { s with chn.rt := rt } else fitBudget n (excludeHighest s)

/-- TOPOLOGY of this member: new state, port, and the member on the other side. -/
def topologyFrame (s : State) (state : Nat) (q : Fin 2) (other : Nat) : Bytes :=
  mkFrame ftControl 0 noAddr s.chn.addr 0 0 0 0 (control 2 (zeros 8) (leBytes 1 state ++ leBytes 1 q.val ++ leBytes 2 other))

/-- The token is back at the anchor: t_rt is known, and held against the budget (R309). -/
def tokenHome (t : Token) (s : State) : State :=
  let rt := if t.chain then 2 * t.lat else t.lat
  let s := { s with chn.members := t.admitted, chn.rt := rt, chn.chain := t.chain }
  if rt ≤ s.chn.budget * 1000 then attestAll s
  else
    let s := if t.chain then s
      else
        let s := enqueueFrame portEast (topologyFrame s 6 portWest (t.next - 1)) s
        (s.modPort portWest (fun p => { p with state := 3 })) |> fun s => { s with chn.chain := true }
    attestAll (fitBudget t.admitted s)

/-- A token from a port. -/
def onToken (q : Fin 2) (f : Bytes) (s : State) : State :=
  let t := tokenOf f
  if t.anchor != s.chn.lowest || s.chn.state < 2 || 4 < s.chn.state then s
  else if s.chn.anchor then
    if t.phase = 1 && q = portEast && portUp s portWest then
      enqueueFrame portWest (tokenFrame s t) { s with chn.chain := true }
    else tokenHome t s
  else if s.chn.addr = noAddr then
    if t.phase = 0 then
      -- outbound east; at a chain's east end the token turns
      let a := takeAddress t true s
      if portUp a.2 (otherPort q) then
        let h := measureHop a.2
        let s := attestAll (announce h.1 h.2)
        enqueueFrame (otherPort q) (tokenFrame s { a.1 with lat := a.1.lat + h.1 }) s
      else
        let s := attestAll (announce 0 { a.2 with chn.chain := true })
        enqueueFrame q (tokenFrame s { a.1 with phase := 1, chain := true }) s
    else
      -- westward, beyond the anchor
      let a := takeAddress t false s
      let h := measureHop a.2
      let s := attestAll (announce h.1 { h.2 with chn.chain := true })
      let t := { a.1 with lat := a.1.lat + h.1 }
      if portUp s (otherPort q) then enqueueFrame (otherPort q) (tokenFrame s t) s
      else enqueueFrame q (tokenFrame s { t with phase := 2 }) s
  else enqueueFrame (otherPort q) (tokenFrame s t) { s with chn.chain := s.chn.chain || t.chain }

def execToken (q : Fin 2) (frame : Bytes) (lanes : BitVec 4) (s : State) : Out :=
  next (receive q frame lanes ftToken none (onToken q frame) s)

/-- Own beacons that have come back mark their port; with every link marked and none lower, this member is the anchor. -/
def noteBack (q : Fin 2) (s : State) : State :=
  let s := { s with chn.echoes := s.chn.echoes ||| BitVec.twoPow 2 q.val }
  let all := [portEast, portWest].all (fun p => !portUp s p || s.chn.echoes.getLsbD p.val)
  if s.chn.state = 2 && all && s.chn.lowest == deviceIdent then beginTokens s else s

/-- A beacon of this ring version. -/
def flood (q : Fin 2) (p : Bytes) (s : State) : State :=
  let lowest := slice p 0 16
  let sender := slice p 16 16
  let echo := (u8 p 35).testBit 0
  let o := otherPort q
  if sender == deviceIdent then noteBack q s
  else if echo then enqueueFrame o (beaconFrame s lowest sender (u8 p 34) 1) s
  else if beNat s.chn.lowest < beNat lowest then s
  else
    -- not higher than the lowest seen: it goes on, or comes back from a chain's end (log entry 21)
    let s := { s with chn.lowest := lowest, chn.lowestRait := if sender == lowest then u8 p 33 else s.chn.lowestRait }
    if (s.rport o).state = 1 || (s.rport o).state = 2 then enqueueFrame o (beaconFrame s lowest sender (u8 p 34 + 1) 0) s
    else enqueueFrame q (beaconFrame s lowest sender (u8 p 34) 1) s

/-- BEACON: another ring version counts as a link that fails attestation; one that comes after the flood begins it anew. -/
def onBeacon (q : Fin 2) (f : Bytes) (s : State) : State :=
  let p := fPayload f
  if u8 p 32 != 1 then failAttest q s
  else flood q p (if 3 ≤ s.chn.state then restartFlood s else s)

def execBeacon (q : Fin 2) (frame : Bytes) (lanes : BitVec 4) (s : State) : Out :=
  next (receive q frame lanes ftBeacon none (onBeacon q frame) s)

/-- ROSTER: what a member says of itself, or the anchor of one that it excludes. -/
def onRoster (f : Bytes) (s : State) : State :=
  let b := fBody f
  let m : Member := { addr := u16 b 0 % 1024, flags := u8 b 2, latency := u32 b 4, ident := slice b 8 16 }
  let s := noteMember m s
  if m.ident == deviceIdent && m.flags.testBit 3 then { s with chn.addr := noAddr, chn.raitOk := false } else s

def execRoster (q : Fin 2) (frame : Bytes) (lanes : BitVec 4) (s : State) : Out :=
  next (receive q frame lanes ftControl (some 0x01) (routed q frame (unlessStrange frame (onRoster frame))) s)

/-! ### Links that go down (R304, R306) -/

/-- The part of a chain that holds this member, when the link between two neighbours is gone. -/
def cutLine (own a b : Nat) (l : List Nat) : List Nat :=
  match l.findIdx? (fun x => x == a), l.findIdx? (fun x => x == b), l.findIdx? (fun x => x == own) with
  | some i, some j, some o => if o ≤ min i j then l.take (min i j + 1) else l.drop (max i j)
  | _, _, _ => l

/-- The topology after the link between a member and its neighbour at a port has gone: a ring becomes a chain that begins
east of the gap. -/
def cutBetween (a : Nat) (port other : Nat) (s : State) : State :=
  if onRing s then
    let n := max 1 s.chn.members
    let start := if port = 0 then other else a
    { s with chn.state := 6, chn.line := (List.range n).map (fun i => (start + i) % n) }
  else
    let l := cutLine s.chn.addr a other s.chn.line
    { s with chn.line := l, chn.state := if l.length ≤ 1 then 7 else 6 }

/-- TOPOLOGY: a link elsewhere has gone. A port that leads to it carries no frames any more. -/
def onTopology (f : Bytes) (s : State) : State :=
  let b := fBody f
  let port := u8 b 1
  let other := u16 b 2 % 1024
  let mine : Fin 2 := if port = 0 then portWest else portEast
  let s := if other = s.chn.addr && portUp s mine then s.modPort mine (fun p => { p with state := 3 }) else s
  if s.chn.state = 5 || s.chn.state = 6 then routeChanged (cutBetween (fSrc f) port other s) else { s with chn.chain := true }

def execTopology (q : Fin 2) (frame : Bytes) (lanes : BitVec 4) (s : State) : Out :=
  next (receive q frame lanes ftControl (some 0x02) (routed q frame (unlessStrange frame (onTopology frame))) s)

/-- Whether a wired port is still training. -/
def training (s : State) : Bool := (s.rport portEast).state == 1 || (s.rport portWest).state == 1

/-- A link goes down: in assembly the steps run over what remains; afterwards the topology changes and every member hears. -/
def linkGone (q : Fin 2) (s : State) : State :=
  if (s.rport q).state = 0 && !(s.rport q).untold then s
  else
    let other := neighbour s q
    let was := (s.rport q).state
    let s := s.modPort q RingPort.off
    if s.chn.state = 0 || s.chn.state = 7 || was = 3 then s
    else if s.chn.state = 1 then (if training s then s else beginFlood s)
    else if s.chn.state ≤ 4 then restartFlood s
    else if other = noAddr then s
    else
      let s := cutBetween s.chn.addr q.val other s
      let s := sendAll (topologyFrame s s.chn.state q other) s
      routeChanged s

def execLinkDown (q : Fin 2) (s : State) : Out := next (linkGone q s)

/-! ### Retry (R303, R304) -/

/-- Frames go again from `seq`; a frame that has been sent resend_max times in a row takes the link down. -/
def goBack (q : Fin 2) (seq : BitVec 12) (s : State) : State :=
  match (s.rport q).unacked with
  | [] => s
  | x :: _ => if resendMax s ≤ x.2.2 then linkGone q s else resendFrom q seq s

/-- ACK. -/
def onAck (q : Fin 2) (f : Bytes) (s : State) : State :=
  pumpPort q (s.modPort q (fun p => { releaseTo (fAckSeq f) p with peerWindow := fWindow f }))

def execAck (q : Fin 2) (frame : Bytes) (lanes : BitVec 4) (s : State) : Out := next (receiveAck q frame lanes ftAck (onAck q frame) s)

/-- NAK: the frames before its seq have been accepted; those from it on go again. -/
def onNak (q : Fin 2) (f : Bytes) (s : State) : State :=
  pumpPort q (goBack q (fAckSeq f) (s.modPort q (fun p => { releaseTo (fAckSeq f) p with peerWindow := fWindow f })))

def execNak (q : Fin 2) (frame : Bytes) (lanes : BitVec 4) (s : State) : Out := next (receiveAck q frame lanes ftNak (onNak q frame) s)

/-- ACK_TIMEOUT: frames are unacknowledged; they go again from the oldest. -/
def ackTimeout (q : Fin 2) (s : State) : State :=
  match (s.rport q).unacked with
  | [] => s
  | x :: _ => if portUp s q then goBack q x.1 s else s

def execAckTimeout (q : Fin 2) (s : State) : Out := next (ackTimeout q s)

/-- ACK_TIMER: frames accepted are not acknowledged yet. -/
def ackTimer (q : Fin 2) (s : State) : State := if portUp s q && (s.rport q).toAck != 0 then sendAck q s else s

def execAckTimer (q : Fin 2) (s : State) : Out := next (ackTimer q s)

/-! ### Training (R299, R304, R308, R310) -/

/-- Lanes that the board profile wires at a port (R299). -/
def wiredLanes (s : State) (q : Fin 2) : Nat := if q = 0 then s.prof.eastLanes else s.prof.westLanes

/-- Whether a port can train at a width. -/
def widthOk (s : State) (q : Fin 2) (lanes : Nat) : Bool := [1, 2, 4].contains lanes && decide (lanes ≤ widestLanes s q (wiredLanes s q))

/-- A port whose link has trained: both ends begin at seq 0. -/
def RingPort.trained (lanes : Nat) (p : RingPort) : RingPort :=
  { p with state := 2, lanes := lanes, txSeq := 0, unacked := [], rxSeq := 0, toAck := 0, nakOut := false, peerWindow := 512 }

/-- LANE_RETRAIN_DONE: the port is up at its new width, and what is unacknowledged goes again. -/
def retrainDone (q : Fin 2) (lanes : Nat) (s : State) : State :=
  if (s.rport q).state != 1 || !widthOk s q lanes then s
  else
    let s := s.modPort q (fun p => { p with state := 2, lanes := lanes })
    pumpPort q (match (s.rport q).unacked with | [] => s | x :: _ => sendAgain q x.1 s)

def execLaneRetrainDone (q : Fin 2) (lanes : Nat) (s : State) : Out := next (retrainDone q lanes s)

/-- Whether this device's group is forming, appending or reading (R310). -/
def groupActive (s : State) : Bool :=
  s.chn.grp.state == 1
    || (s.chn.grp.state == 2
        && ((match s.fmt.sess with | some w => w.part == s.chn.grp.part | none => false)
            || s.streams.any (fun x => x.onTape && x.part == s.chn.grp.part) || !s.chn.grp.stripes.isEmpty || !s.chn.grp.serve.isEmpty))

/-- Reassembly begins at the first moment at which it may (R310): links that have trained since join, and groups are to be
formed again. -/
def tryReassemble (s : State) : State :=
  if (s.chn.reassemble || s.chn.pendingJoin) && decide (5 ≤ s.chn.state) && !groupActive s then
    let up (p : RingPort) : RingPort := if (p.state = 1 && p.lanes != 0) || p.state = 3 then { p with state := 2 } else p
    let s := { s with chn.reassemble := false, chn.pendingJoin := false, chn.port := s.chn.port.map up }
    restartFlood { s with chn.grp.state := if s.chn.grp.state = 2 then 1 else s.chn.grp.state }
  else s

/-- RING_LINK_TRAINED: in assembly the flood begins once every wired link has trained; later the link waits (R310). -/
def linkTrained (q : Fin 2) (lanes : Nat) (s : State) : State :=
  if !s.chn.enable || !widthOk s q lanes then s
  else if s.chn.state = 1 then
    if (s.rport q).state != 1 then s
    else
      let s := pumpPort q (s.modPort q (RingPort.trained lanes))
      if training s then s else beginFlood s
  else if 5 ≤ s.chn.state && (s.rport q).state = 0 then
    tryReassemble { s.modPort q (fun p => { RingPort.trained lanes p with state := 1 }) with chn.pendingJoin := true }
  else s

def execRingLinkTrained (q : Fin 2) (lanes : Nat) (s : State) : Out := next (linkTrained q lanes s)

/-- REASSEMBLE: a write of CHN_CTRL.reassemble. -/
def reassemble (s : State) : State := tryReassemble { s with chn.reassemble := true }

def execReassemble (s : State) : Out := next (if s.glb.mode.served then reassemble s else s)

/-! ### The end of assembly (R308, R331) -/

/-- Every link of this member is attested. -/
def allAttested (s : State) : Bool := [portEast, portWest].all (fun q => !portUp s q || (s.rport q).attested)

/-- The ring's side of the end: topology, members, t_rt, EV_CHN_ASSEMBLED; then groups form again (R310). -/
def endRing (s : State) : State :=
  if s.chn.state != 4 then s
  else
    let ring := !s.chn.chain && portUp s portEast && portUp s portWest
    let n := s.chn.roster.countP (fun m => m.addr != noAddr)
    let line := chainLine n (eastmost s)
    let rt := if s.chn.anchor then s.chn.rt else roundTrip s ring line
    let st := if ring then 5 else 6
    let s := { s with chn.state := st, chn.members := n, chn.rt := rt, chn.line := if ring then [] else line }
    sendJoins (raiseEv .chnAssembled 0xE noRes noInst (leBytes 1 st ++ leBytes 2 n ++ leBytes 2 (min 65535 (rt / 1000))) s)

/-- Whether assembly may end: alone, or every link attested. -/
def assemblyDone (s : State) : Bool := s.chn.state == 7 || (s.chn.state == 4 && allAttested s)

/-- Doorbells written before event 6 of R331 are acted on. -/
def replayDoorbells (s : State) : State :=
  s.hif.early.foldl (fun s d => if d.2.1 then cqDoorbell d.1 d.2.2 s else sqDoorbell d.1 d.2.2 s) { s with hif.early := [] }

/-! ### CHAIN_STATUS (R307) -/

/-- One entry per member. -/
def chainEntry (m : Member) : Bytes :=
  leBytes 2 m.addr ++ leBytes 1 m.flags ++ zeros 1 ++ leBytes 4 m.latency ++ padTo 16 m.ident ++ zeros 8

/-- CHAIN_STATUS: a buffer too short still reports the number of members. -/
def chainStatus (c : Cmd) (s : State) : State :=
  let n := s.chn.roster.length
  if !reservedZero c.desc [(16, 12)] || !noTarget c then mEnd c .badParam s
  else if !aligned64 (u64 c.desc 16) then mEnd c .align s
  else if u32 c.desc 24 < 32 * n then complete none c.uid { status := .badLength, r0 := n } s
  else mOk c n s.chn.rt s.chn.state (hostWrite 0 (u64 c.desc 16) (s.chn.roster.flatMap chainEntry) s)

def execChainStatus (cid : Cid) (s : State) : Out := next (mgmtCmd cid 0xB0 chainStatus s)

end Sys2Proof.Machine
end

