-- ==== Sys2Proof/Machine/Ingot.lean ====
section
/-! DEFINITION. Sys2Proof/Machine/Ingot.lean: the Ingot log (R351 to R354), and the service gate (R361 to R363). -/

namespace Sys2Proof.Machine

/-! ### The log (R351 to R353) -/

/-- The index of the newest entry; an empty log reads 0 (SEC_INGOT_HEAD). -/
def ingotHead (s : State) : Nat := match s.sec.ingot.getLast? with | some e => e.1 | none => 0

/-- The index that the next entry takes. -/
def ingotNext (s : State) : Nat := match s.sec.ingot.getLast? with | some e => e.1 + 1 | none => 0

/-- The oldest index retained. -/
def ingotOldest (s : State) : Nat := ingotHead s - 511

/-- The 384 bytes of a retained entry. -/
def ingotEntry (s : State) (i : Nat) : Bytes := ((s.sec.ingot.find? (fun e => e.1 == i)).map (·.2)).getD (zeros 384)

/-- The alias public key of this boot (R342). -/
def aliasPub (s : State) : Bytes := match s.sec.aliasPriv with | some d => Ecc.pub d | none => zeros 97

/-- Flags of an entry (R353, offset 16). -/
def entryFlags (s : State) : Nat :=
  bit s.sec.bankB + 2 * bit s.sec.fallback + 4 * bit s.sec.activation + 8 * bit s.sec.romPewter + 16 * bit (!s.sec.profileValid)

/-- Bytes 0 to 287 of the next entry. -/
def entryHead (s : State) (kind scope : Nat) (nonce : Bytes) : Bytes :=
  let prev := if s.sec.ingot.isEmpty then zeros 48 else Sha.sha384 (ingotEntry s (ingotHead s))
  leBytes 2 0x49F3 ++ leBytes 1 1 ++ leBytes 1 kind ++ leBytes 4 (ingotNext s) ++ leBytes 8 s.glb.time ++ leBytes 1 (entryFlags s)
    ++ leBytes 1 (s.glb.rstKind + 4 * s.glb.rstCause) ++ zeros 2 ++ leBytes 4 scope ++ padTo 8 nonce
    ++ padTo 160 s.sec.measured ++ Sha.sha384 (aliasPub s) ++ prev

/-- Writes an entry, BOOT in ATTEST or SERVICE_OPEN at the gate (R352); 512 are retained (R351). Nothing is written without a device key (R360). -/
def writeEntry (kind scope : Nat) (nonce : Bytes) (s : State) : State :=
  match deviceKey s with
  | none => s
  | some d =>
    let head := entryHead s kind scope nonce
    let all := s.sec.ingot ++ [(ingotNext s, head ++ Ecc.sign d head)]
    { s with sec.ingot := all.drop (all.length - 512) }

/-! ### LOG_READ (R354) -/

/-- The fields of LOG_READ. -/
def logUsed : List (Nat × Nat) := [(8, 1), (12, 4), (16, 2), (24, 8), (32, 4)]

/-- LOG_READ of kind 0. -/
def logReadEntries (c : Cmd) (s : State) : State :=
  let count := u16 c.desc 16
  let first := max (u32 c.desc 12) (ingotOldest s)
  let found := (s.sec.ingot.filter (fun e => decide (first ≤ e.1))).take count
  if !reservedZero c.desc logUsed || !noTarget c || !(decide (1 ≤ count) && decide (count ≤ 512)) then mEnd c .badParam s
  else if !aligned64 (u64 c.desc 24) then mEnd c .align s
  else if u32 c.desc 32 < 384 * found.length then complete none c.uid { status := .badLength, r0 := first } s
  else mOk c first found.length (ingotHead s) (hostWrite 0 (u64 c.desc 24) (found.flatMap (·.2)) s)

def execLogReadEntries (cid : Cid) (s : State) : Out := next (subCmd cid 0xC0 0 1 logReadEntries s)

/-- The alias certificate of this boot (R344): serial from the alias public key, the three digests and the image svn. -/
def aliasCertificate (s : State) : Bytes :=
  match s.sec.aliasPriv with
  | none => []
  | some _ =>
    let k := aliasPub s
    let serial := patch ((Sha.sha384 k).take 16) 0 [((Sha.sha384 k).getD 0 0) &&& 0x7F]
    Config.aliasCert k serial (slice s.sec.measured 16 144) s.sec.image.svn

/-- The certificate chain, root first (R344). -/
def certChain (s : State) : List Bytes := [Config.rootCert, Config.issuingCert, Config.deviceCert, aliasCertificate s]

/-- LOG_READ of kind 1. -/
def logReadCertificates (c : Cmd) (s : State) : State :=
  let b := (certChain s).flatMap (fun d => leBytes 4 d.length ++ d)
  if !reservedZero c.desc logUsed || !noTarget c then mEnd c .badParam s
  else if !aligned64 (u64 c.desc 24) then mEnd c .align s
  else if u32 c.desc 32 < b.length then complete none c.uid { status := .badLength, r0 := b.length } s
  else mOk c b.length 0 0 (hostWrite 0 (u64 c.desc 24) b s)

def execLogReadCertificates (cid : Cid) (s : State) : Out := next (subCmd cid 0xC0 1 1 logReadCertificates s)

/-! ### The service gate (R361 to R363) -/

/-- The gate is locked: three failures since the last reset. -/
def gateLocked (s : State) : Bool := decide (3 ≤ s.sec.fails)

/-- The 64 bytes of a challenge. -/
def challengeBytes (s : State) (scope : Nat) (nonce : Bytes) : Bytes :=
  leBytes 4 0x5E47A7E0 ++ leBytes 4 scope ++ deviceIdent ++ leBytes 4 (ingotHead s) ++ zeros 4 ++ nonce

/-- SERVICE_CHALLENGE. A scope with no bit of R361, or with another, is BAD_PARAM. -/
def serviceChallenge (c : Cmd) (s : State) : State :=
  let scope := u32 c.desc 8
  if !reservedZero c.desc [(8, 4), (16, 8), (24, 4)] || !noTarget c || scope = 0 || 8 ≤ scope then mEnd c .badParam s
  else if !aligned64 (u64 c.desc 16) then mEnd c .align s
  else if s.glb.mode = .service || gateLocked s then mEnd c .notReady s
  else if u32 c.desc 24 < 64 then mEnd c .badLength s
  else
    let b := challengeBytes s scope (draw s 32)
    let s := { drawn 32 s with sec.challenge := some { scope := scope, bytes := b, issued := s.glb.time } }
    mOk c 0 0 0 (hostWrite 0 (u64 c.desc 16) b s)

def execServiceChallenge (cid : Cid) (s : State) : Out := next (mgmtCmd cid 0xC1 serviceChallenge s)

/-- The hash that stands for the maker authority: the fused one, or in TEST and PROVISIONED that of the valid profile's
maker key (R361). -/
def makerAuthority (s : State) : Option Bytes :=
  match s.sec.makerHash with
  | some h => some h
  | none => if (s.sec.lifecycle = 1 || s.sec.lifecycle = 2) && s.sec.profileValid then some (Sha.sha384 s.sec.makerKey) else none

/-- Whether a key may grant every bit of a scope (R361). -/
def mayGrant (s : State) (scope : Nat) (key : Bytes) : Bool :=
  let h := Sha.sha384 key
  let service := h == Config.serviceHash 0 || h == Config.serviceHash 1
  service || (makerAuthority s == some h && scope % 8 == 1)

/-- The mode and the instances allow a session. -/
def gateReady (s : State) : Bool :=
  (s.glb.mode == .idle || (s.glb.mode == .threaded && !s.streams.any (fun x => !x.ended)))
    && allInsts.all (fun v => (s.inst v).state == .unassigned)

/-- A response that opens nothing: the challenge is void and the failure counts. -/
def serviceFail (c : Cmd) (s : State) : State :=
  let n := satInc 3 s.sec.fails
  mEnd c .badParam (raiseEv .serviceFail 0x1 noRes noInst (leBytes 1 n) { s with sec := { s.sec with challenge := none, fails := n } })

/-- The gate opens without RMA: SERVICE_OPEN entry, SERVICE mode, domains, EV_SERVICE_OPEN. -/
def openService (scope : Nat) (s : State) : State :=
  raiseEv .serviceOpen 0x1 noRes noInst (leBytes 4 scope)
    (setMode .service { s with sec := { s.sec with gateOpen := true, scope := scope, challenge := none } })

/-- CHALLENGE_LAPSE: 600 s have passed since the challenge. -/
def challengeLapse (s : State) : State := { s with sec.challenge := none }

def execChallengeLapse (s : State) : Out := next (challengeLapse s)

end Sys2Proof.Machine
end

