-- ==== Sys2Proof/Machine/Firmware.lean ====
section
/-! DEFINITION. Sys2Proof/Machine/Firmware.lean: boot directory, image banks, board profile, staging, and attested boot (R342,
R346 to R350, R356 to R359). -/

namespace Sys2Proof.Machine

/-! ### The boot directory (R346) -/

/-- The record in force: the valid copy with the higher seq. With no valid copy the ROM takes bank A and no trial. DESIGN
CHOICE (log entry 22). -/
def dirNow (s : State) : DirRec :=
  match s.sec.dir0, s.sec.dir1 with
  | some a, some b => if a.seq < b.seq then b else a
  | some a, none => a
  | none, some b => b
  | none, none => {}

/-- An update: the copy that is invalid, or the one with the lower seq, takes the record with seq + 1. -/
def writeDirRec (activeB : Bool) (trial : Nat) (s : State) : State :=
  let r : DirRec := { activeB := activeB, trial := trial, seq := ((dirNow s).seq + 1) % 2 ^ 32 }
  match s.sec.dir0, s.sec.dir1 with
  | none, _ => { s with sec.dir0 := some r }
  | some _, none => { s with sec.dir1 := some r }
  | some a, some b => if a.seq < b.seq then { s with sec.dir0 := some r } else { s with sec.dir1 := some r }

/-- The directory's trial field takes a value. -/
def setTrial (t : Nat) (s : State) : State := writeDirRec (dirNow s).activeB t s

/-! ### Image banks (R347) -/

/-- Where the datapath image begins in a bank: the next 4 KiB boundary after the motion image. -/
def datapathAt (motionLen : Nat) : Nat := (0x1000 + motionLen + 4095) / 4096 * 4096

/-- What a manifest says of its image. -/
def manifestInfo (m : Bytes) : ImageInfo :=
  { svn := u8 m 6, signer := u8 m 7, fwVersion := u32 m 8, motionDigest := slice m 32 48, datapathDigest := slice m 80 48 }

/-- The number of the first condition of R347 that a bank fails, counted from 1 in its order; none when it is accepted.
DESIGN CHOICE (log entry 23): the count begins at 1. -/
def bankFault (s : State) (b : BankView) : Option Nat :=
  let m := padTo 4096 b.manifest
  let key := slice m 128 97
  let signer := u8 m 7
  let checks : List (Bool × Nat) :=
    [ (u32 m 0 == 0xF31A0E5B && u16 m 4 == 1 && zeroAt m 20 12 && zeroAt m 225 31 && zeroAt m 352 3744, 1)
    , (decide (signer < 4) && Sha.sha384 key == Config.signerHash (Fin.ofNat 4 signer) && !s.sec.revoked.getLsbD signer, 2)
    , (Ecc.verify key (slice m 0 256) (slice m 256 96), 3)
    , (decide (s.sec.floor ≤ u8 m 6) && decide (u8 m 6 ≤ 64), 4)
    , (decide (datapathAt (u32 m 12) + u32 m 16 ≤ 2 ^ 24), 5)
    , (b.motion.length == u32 m 12 && b.datapath.length == u32 m 16
        && Sha.sha384 b.motion == slice m 32 48 && Sha.sha384 b.datapath == slice m 80 48, 6) ]
  (checks.find? (fun x => !x.1)).map (·.2)

/-- Byte `i` of the bank that did not boot, as far as the device has read or written it. -/
def bankByte (s : State) (i : Nat) : Byte :=
  match s.sec.otherBank.find? (fun r => decide (r.1 ≤ i) && decide (i < r.1 + r.2.length)) with
  | some r => r.2.getD (i - r.1) 0
  | none => Config.flashByte i

/-- `n` bytes of that bank. -/
def bankBytes (s : State) (off n : Nat) : Bytes := (List.range n).map (fun i => bankByte s (off + i))

/-- That bank as a check under R347 reads it; images that do not fit are not read. -/
def otherView (s : State) : BankView :=
  let m := bankBytes s 0 4096
  let fits := decide (datapathAt (u32 m 12) + u32 m 16 ≤ 2 ^ 24)
  { manifest := m, motion := if fits then bankBytes s 0x1000 (u32 m 12) else []
    datapath := if fits then bankBytes s (datapathAt (u32 m 12)) (u32 m 16) else [] }

/-- A bank as runs of bytes. -/
def bankRuns (b : BankView) : List (Nat × Bytes) :=
  [(0, padTo 4096 b.manifest), (0x1000, b.motion), (datapathAt b.motion.length, b.datapath)]

/-! ### The board profile (R348, R349) -/

/-- Magic, version, length and section table agree. DESIGN CHOICE (log entry 24): a table agrees when it has 1 to 16 sections
and every body lies, at a 4-byte boundary, between the table and the signature block. -/
def profileShape (p : Bytes) : Bool :=
  let n := u16 p 6
  let table := 32 + 12 * n
  u32 p 0 == 0xC1E0F3B0 && u16 p 4 == 1 && decide (1 ≤ n) && decide (n ≤ 16) && u32 p 12 == p.length
    && decide (table + 193 ≤ p.length) && decide (p.length ≤ 2 ^ 20)
    && (List.range n).all (fun i =>
        let off := u32 p (36 + 12 * i)
        decide (table ≤ off) && off % 4 == 0 && decide (off + u32 p (40 + 12 * i) + 193 ≤ p.length))

/-- The maker public key of a profile. -/
def profileKey (p : Bytes) : Bytes := slice p (p.length - 193) 97

/-- The number of the first condition of R349 that a profile fails, counted from 1; none when it is valid. -/
def profileFault (s : State) (p : Bytes) (itemsOk : Bool) : Option Nat :=
  let key := profileKey p
  let fused := s.sec.lifecycle = 3 || s.sec.lifecycle = 4
  let checks : List (Bool × Nat) :=
    [ (profileShape p, 1)
    , (!fused || s.sec.makerHash == some (Sha.sha384 key), 2)
    , (Ecc.verify key (p.take (p.length - 96)) (p.drop (p.length - 96)), 3)
    , (itemsOk, 4) ]
  (checks.find? (fun x => !x.1)).map (·.2)

/-! ### The choice of the bank (R358) -/

/-- What the ROM decides: the bank to boot (none: the Pewter image), flags, and the directory's trial when it is
rewritten. -/
structure BootChoice where
  bankB : Option Bool
  fallback : Bool := false
  activation : Bool := false
  trial : Option Nat := none
  /-- EV_FW_FALLBACK is raised. -/
  event : Bool := false
  deriving DecidableEq, Repr

/-- The active bank, or else the other one with flag fallback. -/
def bootActive (active : Bool) (ok : Bool → Bool) (flag : Bool) : Option Bool × Bool :=
  if ok active then (some active, flag) else if ok (!active) then (some (!active), true) else (none, false)

/-- The choice under a directory record. A trial boot that ended before it was confirmed, and an active bank that is
not accepted then, leaves the other bank. DEDUCED (log entry 25). -/
def bootChoice (r : DirRec) (ok : Bool → Bool) : BootChoice :=
  if r.trial = 1 then
    if ok (!r.activeB) then { bankB := some (!r.activeB), activation := true, trial := some 2 }
    else
      let b := bootActive r.activeB ok true
      { bankB := b.1, fallback := b.2, trial := some 0 }
  else if r.trial = 2 then
    let b := bootActive r.activeB ok true
    { bankB := b.1, fallback := b.2, trial := some 0, event := true }
  else
    let b := bootActive r.activeB ok false
    { bankB := b.1, fallback := b.2 }

/-! ### Attested boot (R342, R350) -/

/-- The measured block (R353, bytes 32 to 191). -/
def measuredBlock (s : State) : Bytes :=
  leBytes 1 s.sec.lifecycle ++ leBytes 1 s.sec.floor ++ leBytes 1 s.sec.image.svn ++ zeros 1 ++ leBytes 4 Config.romVersion.toNat
    ++ leBytes 4 s.sec.image.fwVersion ++ leBytes 4 s.sec.profileVersion ++ padTo 48 s.sec.image.motionDigest
    ++ padTo 48 s.sec.image.datapathDigest ++ padTo 48 s.sec.profileDigest

/-- The bank is chosen, its images and the profile are loaded and checked, and the bank that did not boot is checked
(R349, R350, R356, R358). The profile's digest and version are of its bytes even when it is not valid. DEDUCED (log entry 26). -/
def bootLoad (f : FlashView) (s : State) : State :=
  let r := dirNow s
  let bank (b : Bool) : BankView := if b then f.bankB else f.bankA
  let ch := bootChoice r (fun b => (bankFault s (bank b)).isNone)
  let s := match ch.trial with
    | some t => if r.trial = 1 && t = 0 then setTrial 0 (setTrial 2 s) else setTrial t s
    | none => s
  let booted := ch.bankB.getD r.activeB
  let other := !booted
  let s := if ch.event then raiseEv .fwFallback 0x1 noRes noInst (leBytes 1 (bit booted)) s else s
  let otherOk := (bankFault s (bank other)).isNone
  let s := { s with
    prof := f.values
    sec := { s.sec with
      bankB := booted, fallback := ch.fallback, activation := ch.activation, romPewter := ch.bankB.isNone, confirmed := false
      image := if ch.bankB.isSome then manifestInfo (padTo 4096 (bank booted).manifest) else {}
      otherOk := otherOk, staged := otherOk && (dirNow s).trial = 0 && ch.bankB.isSome
      stagedInfo := manifestInfo (padTo 4096 (bank other).manifest), otherBank := bankRuns (bank other)
      profileVersion := u32 f.profile 8, profileDigest := Sha.sha384 f.profile, makerKey := profileKey f.profile } }
  let fault := profileFault s f.profile f.itemsOk
  let s := { s with sec.profileValid := fault.isNone, prof := if fault.isNone then s.prof else {} }
  let s := match fault with
    | some n => raiseEv .profileFail 0x1 noRes noInst (leBytes 1 n) s
    | none => s
  { s with sec.measured := measuredBlock s, glb.boot := .loaded }

/-- BOOT_IMAGES_LOADED: events 1 to 4 of R350. -/
def bootImagesLoaded (f : FlashView) (s : State) : State := if s.glb.mode = .attest && s.glb.boot = .testing then bootLoad f s else s

def execBootImagesLoaded (f : FlashView) (s : State) : Out := next (bootImagesLoaded f s)

/-- CDI and alias key (R342); RETURNED derives none (R360). -/
def deriveAlias (s : State) : State :=
  if s.sec.lifecycle = 4 then s
  else
    let cdi := Sha.hmac ((List.finRange 32).map Config.uds) (Sha.sha384 s.sec.measured)
    { s with sec := { s.sec with cdi := cdi, aliasPriv := some (Ecc.privOf (Sha.hmac cdi (ascii "FX3-ALIAS"))) } }

/-- The stewards apply the profile: memory, pan partition, ramp rates, loops, preamplifiers; then PAN_CTRL.lock (R210, R225, R385, R399). -/
def applyProfile (s : State) : State :=
  let p := s.prof
  let pans := s.pans.pan.mapFinIdx (fun i q _ =>
    match p.pans[i]? with
    | some x => { q with count := x.1, baseKib := x.2.1, bitmap := x.2.2.1, enable := x.2.2.2 }
    | none => q)
  writePreamps <| applyMotion { s with
    buf := { s.buf with nDev := p.nDev, cap := p.cap, bif0 := p.bif0, bif1 := p.bif1, devLinks := p.devLinks }
    pans := { s.pans with pan := pans, lock := true } }

/-- The ring's links start to train (R299, R308); without a wired port, or with the ring off, the device is alone. -/
def startRing (s : State) : State :=
  let s := clearAssembly s
  if !s.chn.enable || (s.prof.eastLanes = 0 && s.prof.westLanes = 0) then standAlone s
  else
    { s with chn.state := 1, chn.port := s.chn.port.mapFinIdx (fun i p _ =>
        { p with state := if (if i = 0 then s.prof.eastLanes else s.prof.westLanes) = 0 then 0 else 1 }) }

/-- BOOT_ENTRY_SIGNED: events 5 and 6 of R350. With a bank and a valid profile the device assembles and CXL bring-up
starts; otherwise it enters PEWTER (R326, R349, R378). -/
def bootEntrySigned (s : State) : State :=
  if s.glb.mode != .attest || s.glb.boot != .loaded then s
  else
    let s := writeEntry 1 0 (zeros 8) (deriveAlias s)
    if s.sec.romPewter || !s.sec.profileValid then enterPewter 9 (Config.pewterKind 9).toNat 0xFF s
    else
      let s := setMode .assemble { s with glb.boot := .assembling }
      let s := enablePans (cxlBringup (applyProfile s))
      -- service of the buffer may have ended before (R215)
      if s.glb.mode = .assemble then startRing s else s

def execBootEntrySigned (s : State) : Out := next (bootEntrySigned s)

/-! ### The end of assembly (R308, R331, R358) -/

/-- A trial is confirmed: the booted bank is active. -/
def confirmTrial (s : State) : State :=
  if (dirNow s).trial = 2 then { writeDirRec s.sec.bankB 0 s with sec.confirmed := true } else s

/-- The device reaches IDLE: the trial is confirmed, doorbells written before are acted on, and the conditions of PEWTER
are judged afresh (R327). -/
def reachIdle (s : State) : State :=
  let s := replayDoorbells (confirmTrial (setMode .idle { s with glb.boot := .running }))
  match pewterCauseOf s with
  | some c => enterPewter c (Config.pewterKind c).toNat 0xFF s
  | none => s

/-- ASSEMBLY_END. -/
def assemblyEnd (s : State) : State :=
  if !assemblyDone s then s
  else
    let s := endRing s
    if s.glb.mode = .assemble then reachIdle s else s

def execAssemblyEnd (s : State) : Out := next (assemblyEnd s)

/-! ### Staging (R356) -/

/-- The modes in which FW_STAGE is accepted. -/
def stageOpen (s : State) : Bool :=
  (s.glb.mode == .idle || s.glb.mode == .threaded || s.glb.mode == .locate || s.glb.mode == .append || s.glb.mode == .retrieve)
    && (dirNow s).trial == 0

/-- FW_STAGE write: a multiple of 4,096 bytes, at most 1 MiB, inside the bank. A write at offset 0 starts a session and
erases the manifest; another write needs a session. -/
def fwStageWrite (c : Cmd) (s : State) : State :=
  let off := u32 c.desc 12
  let len := u32 c.desc 24
  if !reservedZero c.desc [(8, 1), (12, 4), (16, 8), (24, 4)] || !noTarget c || off % 4096 != 0 || len % 4096 != 0
      || 2 ^ 20 < len || 2 ^ 24 ≤ off || 2 ^ 24 < off + len then mEnd c .badParam s
  else if !aligned64 (u64 c.desc 16) then mEnd c .align s
  else if !stageOpen s || (!s.sec.staging && off != 0) then mEnd c .notReady s
  else
    let erased := List.replicate 4096 0xFF#8
    let old := if off = 0 then (0, erased) :: s.sec.otherBank else s.sec.otherBank
    mOk c 0 0 0 { s with sec := { s.sec with
      staging := true, staged := s.sec.staged && off != 0, otherOk := s.sec.otherOk && off != 0
      otherBank := (off, hostRead s 0 (u64 c.desc 16) len) :: old } }

def execFwStageWrite (cid : Cid) (s : State) : Out := next (subCmd cid 0xD0 0 2 fwStageWrite s)

/-- FW_STAGE finish: the bank is checked under R347. -/
def fwStageFinish (c : Cmd) (s : State) : State :=
  if !reservedZero c.desc [(8, 1), (12, 4), (16, 8), (24, 4)] || !noTarget c then mEnd c .badParam s
  else if !stageOpen s || !s.sec.staging then mEnd c .notReady s
  else
    let b := otherView s
    match bankFault s b with
    | some n =>
      mEnd c .badParam (raiseEv .fwReject 0x1 noRes noInst (leBytes 1 n)
        { s with sec := { s.sec with staging := false, staged := false, otherOk := false } })
    | none =>
      let m := manifestInfo b.manifest
      mOk c m.fwVersion 0 m.svn { s with sec := { s.sec with staging := false, staged := true, otherOk := true, stagedInfo := m } }

def execFwStageFinish (cid : Cid) (s : State) : Out := next (subCmd cid 0xD0 1 2 fwStageFinish s)

/-- FW_STAGE abandon: the session ends and the bank is not staged; without a session nothing changes. -/
def fwStageAbandon (c : Cmd) (s : State) : State :=
  if !reservedZero c.desc [(8, 1), (12, 4), (16, 8), (24, 4)] || !noTarget c then mEnd c .badParam s
  else if !stageOpen s then mEnd c .notReady s
  else mOk c 0 0 0 { s with sec := { s.sec with staging := false, staged := s.sec.staged && !s.sec.staging } }

def execFwStageAbandon (cid : Cid) (s : State) : Out := next (subCmd cid 0xD0 2 2 fwStageAbandon s)

/-! ### Activation (R357, R359) -/

/-- A sub-operation of FW_ACTIVATE: NOT_READY when its condition does not hold. -/
def activateWhen (c : Cmd) (ok : Bool) (f : State → State) (s : State) : State :=
  if !reservedZero c.desc [(8, 1)] || !noTarget c then mEnd c .badParam s
  else if !ok then mEnd c .notReady s
  else f s

/-- NEXT. -/
def fwActivateNext (c : Cmd) (s : State) : State := activateWhen c s.sec.staged (fun s => mOk c 0 0 0 (setTrial 1 s)) s

def execFwActivateNext (cid : Cid) (s : State) : Out := next (subCmd cid 0xD1 0 3 fwActivateNext s)

/-- COMMIT_SVN: fuses are blown until the floor equals the running svn. -/
def fwActivateCommitSvn (c : Cmd) (s : State) : State :=
  activateWhen c ((dirNow s).trial == 0 && !s.sec.romPewter && s.sec.bankB == (dirNow s).activeB)
    (fun s =>
      let floor := max s.sec.floor s.sec.image.svn
      mOk c 0 0 floor { s with sec.floor := floor }) s

def execFwActivateCommitSvn (cid : Cid) (s : State) : Out := next (subCmd cid 0xD1 2 3 fwActivateCommitSvn s)

/-- CANCEL. -/
def fwActivateCancel (c : Cmd) (s : State) : State := activateWhen c ((dirNow s).trial == 1) (fun s => mOk c 0 0 0 (setTrial 0 s)) s

def execFwActivateCancel (cid : Cid) (s : State) : Out := next (subCmd cid 0xD1 3 3 fwActivateCancel s)

end Sys2Proof.Machine
end

