-- ==== Sys2Proof/Machine/Mover.lean ====
section
/-! DEFINITION. Sys2Proof/Machine/Mover.lean: the block mover (R239 to R254), and faults of accesses to host memory (R253,
R258, R375). -/

namespace Sys2Proof.Machine

/-! ### Descriptors (R240 to R242) -/

/-- Fields of a descriptor (R241). -/
def MovDesc.op (d : MovDesc) : Nat := u8 d.bytes 0
def MovDesc.flag (d : MovDesc) (i : Nat) : Bool := (u8 d.bytes 1).testBit i
def MovDesc.requester (d : MovDesc) : Nat := u8 d.bytes 2
def MovDesc.line (d : MovDesc) : Nat := u8 d.bytes 3
def MovDesc.length (d : MovDesc) : Nat := u32 d.bytes 4
def MovDesc.src (d : MovDesc) : Nat := u64 d.bytes 8
def MovDesc.dst (d : MovDesc) : Nat := u64 d.bytes 16
def MovDesc.srcSpace (d : MovDesc) : Nat := u8 d.bytes 24
def MovDesc.dstSpace (d : MovDesc) : Nat := u8 d.bytes 25
def MovDesc.srcPort (d : MovDesc) : Nat := u8 d.bytes 26
def MovDesc.dstPort (d : MovDesc) : Nat := u8 d.bytes 27
def MovDesc.pasid (d : MovDesc) : Nat := u32 d.bytes 28

/-- The address space of its host accesses: none for manager traffic (R240, R241). -/
def MovDesc.hostSpace (d : MovDesc) : Nat := if d.pasid.testBit 31 then 0 else d.pasid % 2 ^ 20 + 1

def opCopy : Nat := 1
def opFill : Nat := 2
def opCompare : Nat := 3
def opGather : Nat := 4
def opScatter : Nat := 5

/-- The spaces of R240. -/
def spBuffer : Nat := 0
def spHost : Nat := 1
def spPort : Nat := 2
def spHostList : Nat := 3
def spBufList : Nat := 4

/-- Ports that take bytes and ports that give them (R240). -/
def portIn (p : Nat) : Bool := p < 8 || (decide (16 ≤ p) && decide (p < 20)) || p == 24 || p == 26
def portOut (p : Nat) : Bool := (decide (8 ≤ p) && decide (p < 16)) || (decide (20 ≤ p) && decide (p < 24)) || p == 25 || p == 27

/-- Whether an operation allows a space as its source, with the port when it is one (R242, R243). -/
def srcAllowed (d : MovDesc) : Bool :=
  let sp := d.srcSpace
  if d.op = opFill then true
  else if d.op = opCompare then sp == spBuffer || sp == spHost
  else if d.op = opGather then sp == spHostList || sp == spBufList
  else
    sp == spBuffer || (sp == spPort && portOut d.srcPort) || (d.op == opCopy && sp == spHost)

/-- The same for the destination. -/
def dstAllowed (d : MovDesc) : Bool :=
  let sp := d.dstSpace
  if d.op = opFill then sp == spBuffer
  else if d.op = opCompare then d.flag 3 || sp == spBuffer || sp == spHost
  else if d.op = opScatter then sp == spHostList || sp == spBufList
  else
    sp == spBuffer || (sp == spPort && portIn d.dstPort) || (d.op == opCopy && sp == spHost)

/-- Requester number of the datapath steward (R230). -/
def reqSteward : Nat := 3

/-- The conditions of status DESC (R242). -/
def badDesc (d : MovDesc) : Bool :=
  slice d.bytes 60 4 != crcBytes (slice d.bytes 0 60) || !(decide (1 ≤ d.op) && decide (d.op ≤ 5))
    || !srcAllowed d || !dstAllowed d || (d.flag 2 && d.requester != reqSteward) || !zeroAt d.bytes 48 12

/-- Whether an operation has a list. -/
def MovDesc.listed (d : MovDesc) : Bool := d.op == opGather || d.op == opScatter

/-- The list's space and address. -/
def MovDesc.list (d : MovDesc) : Nat × Nat := if d.op = opGather then (d.srcSpace, d.src) else (d.dstSpace, d.dst)

/-- Addresses and lengths that break R246 or, for a fill, R244. -/
def misaligned (d : MovDesc) : Bool :=
  d.src % 64 != 0 || d.dst % 64 != 0 || d.length % 64 != 0
    || (d.op == opFill && d.flag 2 && (d.dst % 1024 != 0 || d.length % 1024 != 0))

/-! ### Bytes of a space -/


/-- A fill write of whole stripes (R207, R216, R244), which UNFILLED stripes take too; nothing beyond stripe T. -/
def fillBuffer : Nat → Nat → Bytes → State → State
  | 0, _, _, s => s
  | fuel + 1, ba, bs, s =>
    if bs.isEmpty then s
    else
      let st := ba / 1024
      let s := if st < totalStripes s.buf.nDev s.buf.cap then putData st (padTo 1024 (bs.take 1024)) s
        else s
      fillBuffer fuel (ba + 1024) (bs.drop 1024) s

/-- Bytes standing in the FIFO at a port. -/
def portBytes (s : State) (p : Nat) : Bytes := ((s.mov.ports.find? (fun x => x.1 == p)).map (·.2)).getD []

/-- The FIFO at a port as given. -/
def setPort (p : Nat) (b : Bytes) (s : State) : State :=
  let rest := s.mov.ports.filter (fun x => x.1 != p)
  { s with mov.ports := if b.isEmpty then rest else (p, b) :: rest }

/-- What a read of a space gives. -/
inductive MovRead where
  | bytes (b : Bytes)
  | poison
  /-- The port's FIFO does not hold a burst yet. -/
  | waits

/-- Reads `n` bytes at `addr` of a space. -/
def readSpace (sp addr port n hostSpace : Nat) (s : State) : MovRead × State :=
  if sp = spBuffer then
    let r := readBuffer (n / 1024 + 2) addr n s
    (match r.1 with | some b => .bytes b | none => .poison, r.2)
  else if sp = spPort then
    let b := portBytes s port
    if b.length < n then (.waits, s) else (.bytes (b.take n), setPort port (b.drop n) s)
  else (.bytes (hostRead s hostSpace addr n), s)

/-- Writes bytes at `addr` of a space, and whether buffer memory answered with an error (R207). -/
def writeSpace (sp addr port : Nat) (b : Bytes) (hostSpace : Nat) (s : State) : Bool × State :=
  if sp = spBuffer then writeBuffer (b.length / 1024 + 2) addr b s
  else if sp = spPort then (false, setPort port (portBytes s port ++ b) s)
  else (false, hostWrite hostSpace addr b s)

/-! ### Ends of descriptors (R242, R247, R252, R253) -/

/-- The codes of R252. -/
def movOk : Nat := 0
def movAlign : Nat := 1
def movMiscompare : Nat := 2
def movPoison : Nat := 3
def movHostFault : Nat := 4
def movBadDesc : Nat := 5

/-- The descriptor changed by `f`. -/
def modDesc (id : Nat) (f : MovDesc → MovDesc) (s : State) : State := { s with mov.queue := modFirst (fun d => d.id == id) f s.mov.queue }

/-- The instance of a descriptor, as events have it (R241): none for manager traffic. -/
def MovDesc.inst (d : MovDesc) : Nat := if d.pasid.testBit 31 then noInst else d.pasid / 2 ^ 20 % 64

/-- A descriptor ends with an error that raises EV_MOV_DESC (R242, R247). -/
def endBad (d : MovDesc) (status engine entry : Nat) (s : State) : State :=
  raiseEv .movDesc 0x6 noRes d.inst (slice d.bytes 0 12) (endDesc d status engine entry d.moved s)

/-- The entries of a segment up to its end (R245). -/
def segmentOf : List SgEntry → List SgEntry
  | [] => []
  | e :: l => if e.link || e.eoc then [e] else e :: segmentOf l

/-- The entries of a segment in buffer memory, none when one of them is poisoned; nothing beyond its end is read. `fuel` bounds the stripes. -/
def bufSegment : Nat → Nat → Nat → State → Option (List SgEntry) × State
  | 0, _, _, s => (some [], s)
  | fuel + 1, n, addr, s =>
    if n = 0 then (some [], s)
    else
      let k := min n ((1024 - addr % 1024) / 16)
      match readBuffer 2 addr (16 * k) s with
      | (none, s) => (none, s)
      | (some b, s) =>
        let es := (List.range k).map (fun i => SgEntry.ofBytes (slice b (16 * i) 16))
        if es.any (fun e => e.link || e.eoc) then (some (segmentOf es), s)
        else
          let r := bufSegment fuel (n - k) (addr + 16 * k) s
          (r.1.map (fun l => es ++ l), r.2)

/-- The entries of one segment of a descriptor's list, in host or buffer memory (R245). -/
def movSegment (d : MovDesc) (sp n addr : Nat) (s : State) : Option (List SgEntry) × State :=
  if sp = spBufList then bufSegment 6 n addr s else (some (segmentOf (readEntries s d.hostSpace n addr)), s)

/-- Fetches a segment whole and checks every entry before any byte it describes moves (R246). -/
def loadMovSegment (d : MovDesc) (n addr engine : Nat) (s : State) : State :=
  let r := movSegment d d.list.1 n addr s
  match r.1 with
  | none => endDesc d movPoison engine d.job.index d.moved r.2
  | some es =>
    match firstBad es 0 with
    | some i => endBad d movAlign engine (d.job.index + i) r.2
    | none => modDesc d.id (fun d => { d with job := { d.job with entries := es }, inEntry := 0 }) r.2

/-! ### Work for the engines (R248, R249) -/

/-- A retired engine's burst waits for another engine, which carries it again from its start (R254). -/
def dropRetired (s : State) : State :=
  { s with mov.eng := Vector.ofFn (fun e : Fin 4 =>
      if s.retired 7 e.val then { s.mov.eng[e] with use := none, line := 0x3F, op := 0 } else s.mov.eng[e]) }

/-- The oldest paced descriptor of each line is attached to it. -/
def bindLines (s : State) : State :=
  { s with mov.line := Vector.ofFn (fun l : Fin 38 =>
      { s.mov.line[l] with bound := (s.mov.queue.find? (fun d => d.flag 1 && d.line == l.val)).map (·.id) }) }

/-- Where a descriptor stands in the order of R249: class, then arrival, then line; none while it waits for a request. -/
def workOrder (s : State) (d : MovDesc) : Option (Nat × Nat × Nat) :=
  if d.flag 1 then
    if h : d.line < 38 then
      let l := s.mov.line[(⟨d.line, h⟩ : Fin 38)]
      match l.pending with
      | [] => none
      | p :: _ =>
        if l.bound != some d.id then none
        else if d.line < 16 then some (0, d.line, 0)
        else if d.line = 36 || d.line = 37 then some (1, d.line, 0)
        else some (2, p.1, d.line)
    else none
  else some (2, d.id, 0xFF)

/-- Whether one place of the order comes before another. -/
def orderBefore (a b : Nat × Nat × Nat) : Bool :=
  a.1 < b.1 || (a.1 == b.1 && (a.2.1 < b.2.1 || (a.2.1 == b.2.1 && a.2.2 < b.2.2)))

/-- The next piece of work: a descriptor that no engine carries, and that an idle one may (R20). -/
def nextWork (s : State) : Option MovDesc :=
  (s.mov.queue.foldl (fun (best : Option (MovDesc × (Nat × Nat × Nat))) d =>
    if s.mov.eng.toList.any (fun e => e.use == some d.id) || (moverFor s (moverTries s d.tries)).isNone then best
    else match workOrder s d, best with
      | none, _ => best
      | some o, none => some (d, o)
      | some o, some b => if orderBefore o b.2 then some (d, o) else best) none).map (·.1)

/-- Idle engines take the next pieces of work in order (R249). -/
def assignWork (s : State) : State :=
  (List.range 4).foldl (fun s _ =>
    match nextWork s with
    | none => s
    | some d =>
      match moverFor s (moverTries s d.tries) with
      | none => s
      | some e =>
        { s with mov.eng := vmod s.mov.eng e (fun x =>
            { x with use := some d.id, op := d.op, line := if d.flag 1 then d.line else 0x3F }) }) (bindLines (dropRetired s))

/-! ### One burst (R243, R248, R250) -/

/-- Bytes from `addr` to the next host page. -/
def toPage (sp addr n : Nat) : Nat := if sp = spHost then min n (4096 - addr % 4096) else n

/-- The longest burst of a descriptor (R248, R250). -/
def burstMax (d : MovDesc) : Nat := if d.flag 1 && (d.line < 16 || d.line == 36 || d.line == 37) then 2048 else 4096

/-- `n` bytes have moved: totals, CRC and the engine's count. -/
def movedBytes (id : Nat) (e : Fin 4) (b : Bytes) (s : State) : State :=
  let s := modDesc id (fun d => { d with moved := d.moved + b.length, inEntry := d.inEntry + b.length, crc := crc32cRun d.crc b, tries := {}, engine := e.val }) s
  moverMoved e b.length s

/-- The pattern of a descriptor over `n` bytes, least significant byte first (R243). -/
def patternBytes (d : MovDesc) (n : Nat) : Bytes := (List.range n).map (fun i => d.bytes.getD (32 + i % 8) 0)

/-- The offset of the first 64-byte line that differs. -/
def firstDiff (a b : Bytes) : Option Nat := (List.range (ceilDiv a.length 64)).find? (fun i => slice a (64 * i) 64 != slice b (64 * i) 64)

/-- Ends the descriptor OK once all its bytes have moved. -/
def endIfDone (id : Nat) (e : Fin 4) (s : State) : State :=
  match s.mov.queue.find? (fun d => d.id == id) with
  | none => s
  | some d => if !d.listed && d.length ≤ d.moved then endDesc d movOk e.val noMovEntry 0 s else s

/-- A descriptor whose write came back with an error, at the list entry in hand (R207). DESIGN CHOICE (log entry 98): POISON. -/
def endWrite (id : Nat) (e : Fin 4) (entry : Nat) (bad : Bool) (s : State) : State :=
  match s.mov.queue.find? (fun d => d.id == id) with
  | none => s
  | some d => if bad then endDesc d movPoison e.val entry d.moved s else s

/-- The bytes of the next burst of COPY (R250). -/
def copyLen (d : MovDesc) : Nat :=
  toPage d.dstSpace (d.dst + d.moved) (toPage d.srcSpace (d.src + d.moved) (min (burstMax d) (d.length - d.moved)))

/-- A burst of COPY. -/
def copyBurst (d : MovDesc) (e : Fin 4) (s : State) : State :=
  let sa := d.src + d.moved
  let da := d.dst + d.moved
  let n := copyLen d
  let r := readSpace d.srcSpace sa d.srcPort n d.hostSpace s
  match r.1 with
  | .waits => s
  | .poison => endDesc d movPoison e.val noMovEntry d.moved r.2
  | .bytes b =>
    let w := writeSpace d.dstSpace da d.dstPort b d.hostSpace r.2
    if w.1 then endWrite d.id e noMovEntry true w.2 else endIfDone d.id e (movedBytes d.id e b w.2)

/-- A burst of FILL. -/
def fillBurst (d : MovDesc) (e : Fin 4) (s : State) : State :=
  let b := patternBytes d (min (burstMax d) (d.length - d.moved))
  let da := d.dst + d.moved
  let w := if d.flag 2 then (false, fillBuffer (b.length / 1024 + 2) da b s) else writeBuffer (b.length / 1024 + 2) da b s
  if w.1 then endWrite d.id e noMovEntry true w.2 else endIfDone d.id e (movedBytes d.id e b w.2)

/-- A burst of COMPARE: it stops at the first 64-byte line that differs. -/
def compareBurst (d : MovDesc) (e : Fin 4) (s : State) : State :=
  let sa := d.src + d.moved
  let da := d.dst + d.moved
  let n0 := toPage d.srcSpace sa (min (burstMax d) (d.length - d.moved))
  let n := if d.flag 3 then n0 else toPage d.dstSpace da n0
  let r := readSpace d.srcSpace sa d.srcPort n d.hostSpace s
  let q := if d.flag 3 then (MovRead.bytes (patternBytes d n), r.2) else readSpace d.dstSpace da d.dstPort n d.hostSpace r.2
  match r.1, q.1 with
  | .bytes a, .bytes b =>
    let s := movedBytes d.id e a q.2
    (match firstDiff a b with
    | some i =>
      (match s.mov.queue.find? (fun x => x.id == d.id) with
      | some x => endDesc x movMiscompare e.val noMovEntry (d.moved + 64 * i) s
      | none => s)
    | none => endIfDone d.id e s)
  | .poison, _ | _, .poison => endDesc d movPoison e.val noMovEntry d.moved q.2
  | _, _ => s

/-- The bytes of the next burst of an entry of GATHER or SCATTER (R250). -/
def entryLen (d : MovDesc) (en : SgEntry) : Nat :=
  toPage (if d.list.1 = spBufList then spBuffer else spHost) (en.addr + d.inEntry) (min (burstMax d) (en.len - d.inEntry))

/-- A burst of GATHER or SCATTER: the entry in hand, whose bytes stand in the list's kind of memory, and the contiguous
side. -/
def entryBurst (d : MovDesc) (en : SgEntry) (e : Fin 4) (s : State) : State :=
  let gathers := d.op == opGather
  let esp := if d.list.1 = spBufList then spBuffer else spHost
  let csp := if gathers then d.dstSpace else d.srcSpace
  let ca := (if gathers then d.dst else d.src) + d.moved
  let ea := en.addr + d.inEntry
  let n := entryLen d en
  let r := if gathers then readSpace esp ea 0 n d.hostSpace s else readSpace csp ca d.srcPort n d.hostSpace s
  match r.1 with
  | .waits => s
  | .poison => endDesc d movPoison e.val d.job.index d.moved r.2
  | .bytes b =>
    let w := if gathers then writeSpace csp ca d.dstPort b d.hostSpace r.2 else writeSpace esp ea 0 b d.hostSpace r.2
    if w.1 then endWrite d.id e d.job.index true w.2 else movedBytes d.id e b w.2

/-- The entry in hand has moved whole, or moves nothing: the next one, or the end of the list. -/
def nextEntry (id : Nat) (e : Fin 4) (s : State) : State :=
  match s.mov.queue.find? (fun d => d.id == id) with
  | none => s
  | some d =>
    match d.job.entries with
    | [] => endDesc d movOk e.val noMovEntry 0 s
    | en :: rest =>
      if en.link then
        let s := modDesc id (fun d => { d with job := { d.job with index := d.job.index + 1, entries := [] } }) s
        (match s.mov.queue.find? (fun d => d.id == id) with
        | some d => loadMovSegment d (en.len / 16) en.addr e.val s
        | none => s)
      else if en.len ≤ d.inEntry then
        if en.eoc || rest.isEmpty then endDesc d movOk e.val noMovEntry 0 s
        else modDesc id (fun d => { d with job := { d.job with index := d.job.index + 1, entries := rest }, inEntry := 0 }) s
      else s

/-- Links, entries of length 0 and finished entries are passed over; at most `fuel` of them. -/
def settleEntries (id : Nat) (e : Fin 4) : Nat → State → State
  | 0, s => s
  | n + 1, s => settleEntries id e n (nextEntry id e s)

/-- Entries of a segment at most, and one link to the next (R245). -/
def entryFuel : Nat := 513

/-- The burst of a descriptor that engine `e` carries. -/
def descBurst (d : MovDesc) (e : Fin 4) (s : State) : State :=
  if d.op = opCopy then copyBurst d e s
  else if d.op = opFill then fillBurst d e s
  else if d.op = opCompare then compareBurst d e s
  else
    match d.job.entries with
    | [] => s
    | en :: _ => settleEntries d.id e entryFuel (if en.link || en.len ≤ d.inEntry then s else entryBurst d en e s)

/-- Whether the next burst of a descriptor waits for bytes of a port's FIFO. -/
def portWaits (d : MovDesc) (s : State) : Bool :=
  d.srcSpace == spPort && (
    if d.op = opCopy then decide ((portBytes s d.srcPort).length < copyLen d)
    else d.op == opScatter && (match d.job.entries with
      | en :: _ => !en.link && decide ((portBytes s d.srcPort).length < entryLen d en)
      | [] => false))

/-- One request of a paced descriptor's line is served; a burst of lines 0 to 15 after 8 µs is late (R248, R249). -/
def serveLine (d : MovDesc) (s : State) : State :=
  if h : d.line < 38 then
    if !d.flag 1 then s
    else
      { s with mov.line := vmod s.mov.line (⟨d.line, h⟩ : Fin 38) (fun l =>
          match l.pending with
          | [] => l
          | p :: rest =>
            { l with pending := rest
                     late := if d.line < 16 && p.2 + 8000 < s.glb.time then satInc 65535 l.late else l.late }) }
  else s

/-- Whether a descriptor reads or writes host memory. -/
def MovDesc.onHost (d : MovDesc) : Bool :=
  d.srcSpace == spHost || d.srcSpace == spHostList || d.dstSpace == spHost || d.dstSpace == spHostList

/-- A burst CRC that does not match (R251, R253): a strike, and another attempt. A burst that has failed its last ends the descriptor with
HOST_FAULT. DESIGN CHOICE (log entry 98). -/
def failDesc (d : MovDesc) (e : Fin 4) (s : State) : State :=
  let reads := d.srcSpace == spHost || d.srcSpace == spHostList
  let t := (moverTries s d.tries).here e.val
  let s := strike 7 e.val (raiseResend (if reads then 1 else 9) 0 t.attempt 7 e.val d.inst s)
  match retryAfter t e.val (othersIn s 7 e.val) with
  | .again t | .other t | .before t => modDesc d.id (fun d => { d with tries := t }) s
  | .lost => endDesc d movHostFault e.val (if d.listed then d.job.index else noMovEntry) d.moved s

/-- The engine is free again. -/
def freeMover (e : Fin 4) (s : State) : State :=
  { s with mov.eng := vmod s.mov.eng e (fun x => { x with use := none, line := 0x3F, op := 0 }) }

/-- Engine `e` completes the burst of descriptor `id` that it carries. -/
def runBurst (e : Fin 4) (id : Nat) (check : Check) (s : State) : State :=
  match s.mov.queue.find? (fun d => d.id == id) with
  | none => s
  | some d =>
    if s.mov.eng[e].use != some id then s
    else match check with
      | .fail _ => if d.onHost then assignWork (freeMover e (failDesc d e s)) else s
      | .pass => if portWaits d s then s else assignWork (freeMover e (descBurst d e (serveLine d (passAfter d.tries 7 s))))

/-- Up to `n` bursts of a descriptor, each by the engine that carries it. -/
def runBursts (id : Nat) : Nat → State → State
  | 0, s => s
  | n + 1, s =>
    match (List.finRange 4).find? (fun e => s.mov.eng[e].use == some id) with
    | none => s
    | some e => runBursts id n (runBurst e id .pass s)

/-- A descriptor reaches the mover: DESC, ALIGN, or it joins the queue (R242, R246). Nothing is taken without domain power in
OFF, QUENCH and RESET. -/
def postDesc (bytes : Bytes) (service : Bool) (bursts : Nat) (s : State) : State :=
  let d : MovDesc := { id := s.nextId, bytes := padTo 64 bytes, service := service }
  let s := { s with nextId := s.nextId + 1 }
  if badDesc d then endBad d movBadDesc 0 noMovEntry s
  else if misaligned d then endBad d movAlign 0 noMovEntry s
  else
    let s := { s with mov.queue := s.mov.queue ++ [d] }
    let s := if d.listed then settleEntries d.id 0 entryFuel (loadMovSegment d 256 d.list.2 0 s) else endIfDone d.id 0 s
    runBursts d.id bursts (assignWork s)

/-- The device carries out descriptors while a mover domain is powered (R325). -/
def moverRuns (s : State) : Bool := (List.finRange 4).any (fun e => s.pwr.dom.getLsbD (62 + e.val))

/-- The row of an operation: a descriptor whose op is that operation's. The row of COPY also stands for an op that is none. -/
def execOp (op : Nat) (desc : Bytes) (bursts : Nat) (s : State) : State :=
  let o := u8 desc 0
  if moverRuns s && (o == op || (op == opCopy && !(decide (1 ≤ o) && decide (o ≤ 5)))) then postDesc desc false bursts s else s

def execCopy (desc : Bytes) (bursts : Nat) (s : State) : Out := next (execOp opCopy desc bursts s)
def execFill (desc : Bytes) (bursts : Nat) (s : State) : Out := next (execOp opFill desc bursts s)
def execCompare (desc : Bytes) (bursts : Nat) (s : State) : Out := next (execOp opCompare desc bursts s)
def execGather (desc : Bytes) (bursts : Nat) (s : State) : Out := next (execOp opGather desc bursts s)
def execScatter (desc : Bytes) (bursts : Nat) (s : State) : Out := next (execOp opScatter desc bursts s)

/-- A request on line `l` (R248): a line holds up to four that have not been served. -/
def requestLine (l : Fin 38) (s : State) : State :=
  if 4 ≤ s.mov.line[l].pending.length then s
  else
    assignWork { s with
      mov.line := vmod s.mov.line l (fun x => { x with pending := x.pending ++ [(s.nextId, s.glb.time)] }), nextId := s.nextId + 1 }

def execRequestLine (l : Fin 38) (s : State) : Out := next (requestLine l s)

/-- A write of MOV_SVC_CTRL.post, in SERVICE mode: the descriptor in MOV_SVC_DESC is posted. -/
def postService (s : State) : State :=
  if s.glb.mode ≠ .service || s.mov.svcPosted then s
  else
    postDesc (s.mov.svcDesc.toList.flatMap (fun w => leBytes 4 w.toNat)) true 0 { s with mov.svcPosted := true, mov.svcDone := false }

def execServiceDescriptorPost (s : State) : Out := next (postService s)

/-! ### Hand-over 1 (R18, R20, R21, R251) -/

/-- One failed attempt of a burst from host memory. -/
def failHostBurst (e : Fin 4) (v : Inst) (c : Cmd) (x : Stream) (s : State) : State :=
  let t := (moverTries s c.job.tries).here e.val
  let s := strike 7 e.val (raiseResend 1 x.blockSeq t.attempt 7 e.val v.val s)
  match retryAfter t e.val (othersIn s 7 e.val) with
  | .again t | .other t | .before t => s.modCmd (some v) c.uid (fun c => { c with job := { c.job with tries := t } })
  | .lost => settleWaits (loseStream x s)

/-- The bytes of the next burst of a write command. -/
def hostLen (c : Cmd) : Nat := match c.job.entries with | e :: _ => if e.link then 0 else burstLen e c.job.staged.length | [] => 0

/-- BURST_DONE from host memory: the next burst of a running write command, checked (R250, R251). -/
def hostIn (e : Fin 4) (v : Inst) (cid : Cid) (check : Check) (s : State) : State :=
  match (s.ring (some v)).cmds.find? (fun c => c.cid == cid.toNat && c.isWrite && c.running) with
  | none => s
  | some c =>
    match s.openStream? v c.target with
    | none => s
    | some x =>
      if !intakeOpen s v || x.cut.isSome || moverFor s (moverTries s c.job.tries) != some e then s
      else
        let s := serveOldest 16 8 s
        match check with
        | .fail _ => failHostBurst e v c x s
        | .pass =>
          let n := hostLen c
          let s := moverMoved e n (s.modCmd (some v) c.uid (fun c => { c with job := { c.job with tries := {} } }))
          hostBurst v c.uid x.sid (passAfter c.job.tries 7 s)

/-- BURST_DONE. -/
def burstDone (e : Fin 4) (work : Burst) (check : Check) (s : State) : State :=
  match work with
  | .descriptor id =>
    let left := (List.finRange 4).any (fun e => s.retired 7 e.val && s.mov.eng[e].use.isSome)
    runBurst e id check (if left then assignWork s else s)
  | .hostIn v cid => hostIn e v cid check s
  | .panIn v no => panIn e v no check s
  | .extract v no => extractBlock e v no check s
  | .hostOut v cid => deliverNext e v cid check s

def execBurstDone (e : Fin 4) (work : Burst) (check : Check) (s : State) : Out := next (burstDone e work check s)

/-! ### Faults of host memory (R253, R258, R375) -/

/-- Opcodes of an instance ring, and of the management ring, whose commands access data in host memory (R268, R272). -/
def dataOpcodes : List Nat := [0x10, 0x11, 0x20, 0x40]
def mgmtDataOpcodes : List Nat := [0x80, 0x85, 0x86, 0x90, 0xB0, 0xB1, 0xC0, 0xC1, 0xC2, 0xD0]

/-- A data access of a command fails: it ends with HOST_FAULT (R253). -/
def dataFault (r : RingId) (cid : Cid) (s : State) : State :=
  match (s.ring r).cmds.find? (fun c => c.cid == cid.toNat) with
  | none => s
  | some c =>
    match r with
    | none => if mgmtDataOpcodes.contains c.opcode && c.phase == .waiting then mEnd c .hostFault s else s
    | some v =>
      if !dataOpcodes.contains c.opcode then s
      else match c.phase with
        | .waiting => if (findStartable cid.toNat [] (s.ring r).cmds).isSome then endSt v c .hostFault s else s
        | .running | .parked =>
          if c.isWrite then completeWrite v c .hostFault c.job.index s else failRead v c .hostFault c.job.index s
        | _ => s

/-- HOST_FAULT. -/
def hostFault (f : HostFaultAt) (s : State) : State :=
  match f with
  | .descriptor r => if fetches s r then stopRing r 2 s else s
  | .completion r => if (s.ring r).stopped || (match r with | some v => (s.inst v).state == .unassigned | none => !s.hif.mqEn) then s else stopRing r 3 s
  | .data r cid => dataFault r cid s
  | .eventRing => evtFault s
  | .mover e =>
    match s.mov.eng[e].use with
    | none => s
    | some id =>
      match s.mov.queue.find? (fun d => d.id == id) with
      | none => s
      | some d =>
        if d.onHost then assignWork (endDesc d movHostFault e.val (if d.listed then d.job.index else noMovEntry) d.moved s) else s

def execHostFault (fault : HostFaultAt) (s : State) : Out := next (hostFault fault s)

end Sys2Proof.Machine
end

