-- ==== Sys2Proof/Machine/PanRows.lean ====
section
/-! DEFINITION. Sys2Proof/Machine/PanRows.lean: the requests to the pan manager as commands (R229 to R237). -/

namespace Sys2Proof.Machine

/-- The modes in which domain 61 is on and the pan manager serves requests (R237, R325). -/
def panServes (s : State) : Bool :=
  match s.glb.mode with
  | .off | .quench | .reset | .attest | .pewter => false
  | _ => true

/-- Carries out a request of a 6-bit requester number, and what its grants let go on. -/
def panRequest (requester : Nat) (f : State → State) (s : State) : State :=
  if panServes s && requester < 64 then settleWaits (settleGrants (f s)) else s

/-- ALLOC, with whether the link that a list store reads for it comes back bad: then the pan rebuilds its list, and the request
waits (R229). -/
def allocRow (requester size : Nat) (charge : Option Inst) (wait badLink : Bool) (s : State) : State :=
  match servingPan s requester size charge with
  | some p =>
    let s := if badLink && !(s.pan p).bitmap && !waitsPan s requester then startRebuild p s else s
    panAlloc requester size charge wait s
  | none => panAlloc requester size charge wait s

def execAlloc (requester : Nat) (size : Nat) (charge : Option Inst) (wait : Bool) (badLink : Bool) (s : State) : Out :=
  next (panRequest requester (allocRow requester size charge wait badLink) s)
def execFree (requester : Nat) (handle : Nat) (s : State) : Out := next (panRequest requester (panFree requester handle) s)
def execHandoff (requester : Nat) (handle : Nat) (dest : Nat) (s : State) : Out :=
  next (panRequest requester (panHandoff requester handle (dest % 64)) s)
def execAcquire (requester : Nat) (handle : Nat) (s : State) : Out := next (panRequest requester (panAcquire requester handle) s)
def execRelease (requester : Nat) (handle : Nat) (s : State) : Out := next (panRequest requester (panRelease requester handle) s)
def execCancel (requester : Nat) (s : State) : Out := next (panRequest requester (panCancel requester) s)

/-- Requests that waited, in the order of a decision (R233): by requester number, ACQUIRE last. -/
def decisionOrder (l : List (PanReq × Nat × Nat)) : List (PanReq × Nat × Nat) :=
  let first := l.filter (fun x => x.1 != .acquire)
  (List.range 64).flatMap (fun r => first.filter (fun x => x.2.1 == r)) ++ l.filter (fun x => x.1 == .acquire)

/-- An ALLOC that came with wait 0 and has no rebuild before it any more is EMPTY. -/
def dropNoWaits (s : State) : State :=
  (allWaiters s).foldl (fun s w =>
    match homePan w.size with
    | some home => if w.noWait && !meetsRebuild s home then panAnswer .empty (dropWaiter w.requester s) else s
    | none => s) s

/-- The rebuild of a pan's list ends (R229): its waiting requests proceed. -/
def listRebuilt (p : Fin 4) (s : State) : State :=
  if (s.pan p).rebuilding then
    let s := relink p (s.modPan p (fun q => { q with rebuilding := false, list := rebuildList s p }))
    let l := s.pans.deferred
    dropNoWaits (serveWaiting ((decisionOrder l).foldl panCarry { s with pans.deferred := [] }))
  else s

def execPanListRebuild (p : Fin 4) (s : State) : Out := next (panRequest reqSteward (listRebuilt p) s)

/-- A write of PAN_CFG.count_mode (R237). -/
def countMode (p : Fin 4) (on : Bool) (s : State) : State :=
  if (s.pan p).countMode = on then s
  else if panHolds s p || !(s.glb.mode == .assemble || s.glb.mode == .service) then panReject errMode 0 0 s
  else s.modPan p (fun q => { q with countMode := on })

def execCountModeWrite (by_ : Source) (p : Fin 4) (on : Bool) (s : State) : Out := next (if s.mayDrive by_ then countMode p on s else s)

/-- PAN_CTRL.lock (R385). -/
def execPanLock (by_ : Source) (s : State) : Out := next (if s.mayDrive by_ then { s with pans.lock := true } else s)

end Sys2Proof.Machine
end

