-- ==== Sys2Proof/Machine/Resets.lean ====
section
/-! DEFINITION. Sys2Proof/Machine/Resets.lean: supplies, resets, start-up, the quench and its store (R322, R326 to R341, R371,
R377, R379, R405). -/

namespace Sys2Proof.Machine

/-! ### What a reset leaves (R328 to R330) -/

/-- The enclave's fuses, non-volatile memory and flash. -/
def keptSec (s : State) : Sec :=
  { lifecycle := s.sec.lifecycle, makerHash := s.sec.makerHash, floor := s.sec.floor, revoked := s.sec.revoked
    dir0 := s.sec.dir0, dir1 := s.sec.dir1, otherBank := s.sec.otherBank, ingot := s.sec.ingot }

/-- Always-on fields and contents of the buffer; through a warm reset the links stay in L0, a quench takes the ports down. -/
def keptBuf (links : Bool) (b : Buf) : Buf :=
  { mark := b.mark, sparesDone := b.sparesDone, remap := b.remap, remapFull := b.remapFull, fillTag := b.fillTag, stripes := b.stripes, damage := b.damage
    links := if links then b.links else 0, perstOff := if links then b.perstOff else 0
    dev := b.dev.map (fun d =>
      { lost := d.lost, cause := d.cause, tag := d.tag, linkUp := links && d.linkUp, width := if links then d.width else 0
        rate16 := links && d.rate16 }) }

/-- The control-engine island (R193): while the tape moves it makes a controlled stop first; at rest it takes the reset. -/
def islandAfter (s : State) : Mot :=
  if 10 ≤ s.mot.speed then
    let m := (beginStop s).mot
    { m with islandReset := true, state := if m.state = .braked then .braked else .stopping }
  else (resetIsland s).mot

/-- The retirement map in the quench store, cleared when EVT_RETIRE_CLR.clear asked for it (R371). -/
def storeAfter (s : State) : QStore :=
  if s.evt.retireClr then { s.qs with map := Vector.replicate 304 {}, pewterCause := 0, mapOk := true } else s.qs

/-- The kinds of reset in this model: 0 cold, 1 warm, 3 quench (GLB_RST_CAUSE); `power` says that MREFCLK and the core supply
were lost, or the island was off. -/
def takeReset (kind cause : Nat) (power : Bool) (s : State) : State :=
  let s := abortMover s
  let cold := kind = 0
  let m := if power then {} else islandAfter s
  let cxl := if kind = 1 then s.pwr.dom &&& domRange 57 58 else 0
  { State.reset with
    pending := s.pending
    glb := { mode := .reset, rstKind := kind, rstCause := cause, quenches := if cold then 0 else s.glb.quenches
             time := if cold then 0 else s.glb.time, thermtrip := s.glb.thermtrip, perst := s.glb.perst, rdData := s.glb.rdData }
    pwr := { dom := cxl ||| (if m.islandReset then domRange 66 67 else 0), qDone := kind = 3 && s.pwr.qDone
             qWindowFull := kind = 3 && s.pwr.qWindowFull, vholdEnd := if kind = 3 then s.pwr.vholdEnd else 0 }
    sec := keptSec s
    qs := storeAfter s
    seqs := s.seqs
    buf := if cold then {} else keptBuf (kind = 1) s.buf
    pans := if cold then {} else { written := s.pans.written, overlaid := s.pans.overlaid }
    mot := m
    srv := { forward := if m.islandReset then s.srv.forward else true }
    fmt := { ({} : Fmt) with motion := if m.islandReset then .stopping else .stopped }
    mov := { cpls := s.mov.cpls }
    hostMem := s.hostMem
    freeCtr := s.freeCtr
    nextId := s.nextId }

/-- The commands whose bytes the mover moves end with ABORTED_RESET (R254), while the host can be reached. -/
def abortJobs (s : State) : State :=
  if !s.hif.linkL0 then s
  else allInsts.foldl (fun s v => (s.ring (some v)).cmds.foldl (fun s c =>
    if !c.running then s
    else if c.isWrite then completeWrite v c .abortedReset noEntry s
    else if c.opcode == 0x20 then
      complete (some v) c.uid { status := .abortedReset, r0 := c.job.delivered, r1 := c.job.written, entry := noEntry } s
    else s) s) s

/-- Reset preparation (R328, R338): gates drop, mover descriptors end, events, losses and map go to the quench store. -/
def prepareReset (s : State) : State :=
  let s := abortMover (abortJobs (dropGates s))
  { s with qs := { s.qs with
    state := 2, cause := 3, number := s.qs.recorded, time := s.glb.time, map := s.evt.buckets, pewterCause := s.evt.pewterCause
    mapOk := true, loss := s.evt.loss, events := s.evt.fifo } }

/-- Whether a reset acts: not in OFF, not during a quench, and not while a reset runs already (R326, R327). -/
def Mode.resets : Mode → Bool
  | .off | .quench | .reset => false
  | _ => true

/-- A warm reset. -/
def warmReset (cause : Nat) (s : State) : State := if s.glb.mode.resets then takeReset 1 cause false (prepareReset s) else s

def execWarmReset (s : State) : Out := next (if s.glb.mode.served then warmReset 3 s else s)

/-- GLB_RST.cold, in SERVICE only. -/
def execColdResetRequest (s : State) : Out := next (if s.glb.mode = .service then takeReset 0 3 false s else s)

/-- The host port's link is down. -/
def linkLost (s : State) : State := { s with hif.linkL0 := false, hif.linkSpeed := 0, hif.linkWidth := 0 }

/-- PERST# is asserted. -/
def perstAssert (s : State) : State := warmReset 1 (linkLost { s with glb.perst := true, glb.training := false })

def execPerstAssert (s : State) : Out := next (perstAssert s)

/-- PERST# is released: the host port trains once event 3 of R331 has passed. -/
def perstDeassert (s : State) : State := { s with glb.perst := false, glb.training := s.glb.mode.resets && !s.hif.linkL0 }

def execPerstDeassert (s : State) : Out := next (perstDeassert s)

/-- The modes in which a steward runs. -/
def Mode.stewarded (m : Mode) : Bool := m.resets && m != .attest

/-- The enclave's watchdog on the stewards. -/
def execStewardWatchdog (s : State) : Out := next (if s.glb.mode.stewarded then warmReset 4 s else s)

/-- SEC_SVC.close, in SERVICE (R364). -/
def execServiceClose (s : State) : Out := next (if s.glb.mode = .service then warmReset 5 s else s)

/-- The PCIe link leaves L0; a reset of the function that goes with it clears the PBA (R257). -/
def pcieLinkDown (resets : Bool) (s : State) : State :=
  let s := linkLost s
  if resets then { s with msix.pba := 0 } else s

def execPcieLinkDown (resets : Bool) (s : State) : Out := next (pcieLinkDown resets s)

/-! ### The function reset (R227, R328, R329) -/

/-- Every fetched command is gone, without a completion. -/
def dropCommands (s : State) : State :=
  { s with hif.mq.cmds := [], insts := s.insts.map (fun i => { i with ring := { i.ring with cmds := [] } }) }

/-- The function reset: cause 2 FLR, 3 GLB_RST. -/
def functionReset (cause : Nat) (s : State) : State :=
  let s := dropWaiter 33 (discardBlocks (fun b => b.place.unsealed) (dropCommands (abortMover s)))
  let s := wipeKeys (fun _ => true) (allInsts.foldl (fun s v => endAll v s) s)
  resumeSeqs (settleWaits (dispatch { s with
    glb := { s.glb with rstKind := 2, rstCause := cause }
    hif := { ({} : Hif) with linkSpeed := s.hif.linkSpeed, linkWidth := s.hif.linkWidth, linkL0 := s.hif.linkL0 }
    msix := {}
    insts := Vector.replicate 64 {}
    sec := { s.sec with challenge := none, staging := false, staged := s.sec.staged && !s.sec.staging } }))

def execFunctionReset (flr : Bool) (s : State) : Out := next (if s.glb.mode.served then functionReset (if flr then 2 else 3) s else s)

/-! ### Power (R322, R326, R341, R405) -/

/-- The device goes OFF: only what is not volatile, and the world outside, remains. -/
def powerOff (s : State) : State :=
  let s := takeReset 0 0 true s
  { s with glb := { s.glb with mode := .off, thermtrip := false } }

/-- VDD_AON falls below its range. -/
def execVddAonFail (s : State) : Out := next (if s.glb.mode = .off then s else powerOff s)

/-- VDD_AON reaches its range: a cold reset. -/
def execVddAonRise (s : State) : Out := next (if s.glb.mode = .off then takeReset 0 0 true s else s)

/-- After the quench VHOLD falls below 6.0 V, or VDD_AON fails. -/
def execQuenchPowerOff (s : State) : Out := next (if s.glb.mode = .quench then powerOff s else s)

/-- The level in mV above which VSENSE ends a quench (PWR_QUENCH_CFG). -/
def restoreMv (cfg : Word) : Nat :=
  let trip := fld cfg 0 8
  100 * (if fld cfg 8 8 < trip then trip + 4 else fld cfg 8 8)

/-- The supply has been back for 10 ms and PWRFAIL# is high: a quench reset. -/
def quenchReset (vsense : Nat) (high : Bool) (s : State) : State :=
  if s.glb.mode = .quench && restoreMv s.pwr.quenchCfg < vsense && high then
    let t := takeReset 3 6 true s
    { t with pwr.vsense := vsense % 65536 }
  else s

def execQuenchReset (vsense : Nat) (pwrfailHigh : Bool) (s : State) : Out := next (quenchReset vsense pwrfailHigh s)

/-- THERMTRIP# latches low; the device does nothing else (R405). -/
def execThermtrip (s : State) : Out := next (if s.glb.mode = .off then s else { s with glb.thermtrip := true })

/-! ### Start-up, events 1 to 3 (R331, R340, R371, R377) -/

/-- The latest device time not after `t` whose bits [39:16] are `first` (R377). -/
def lossTimeUp (t first : Nat) : Nat :=
  let mid := lossTime t
  let base := t / 2 ^ 40 * 2 ^ 40
  if first = mid then t
  else if first < mid then base + first * 2 ^ 16 + 65535
  else base - 2 ^ 40 + first * 2 ^ 16 + 65535

/-- The event unit takes stored events and losses back, with one EV_EVENT_LOSS ahead when a counter is not zero (R377). -/
def takeEvents (s : State) : State :=
  let hit := s.qs.loss.toList.filter (fun c => c.count != 0)
  let ahead := match (hit.map (fun c => lossTimeUp s.qs.time c.first)).min? with
    | some t => [lossRecord s.glb.time t (lossTotal s.qs.loss)]
    | none => []
  let all := ahead ++ s.qs.events
  let u := { s.evt with fifo := all.take 256, snapshot := if hit.isEmpty then s.evt.snapshot else s.qs.loss }
  { s with evt := (all.drop 256).foldl loseEvent u }

/-- The retirement map as start-up restores it (R371). -/
def restoredMap (s : State) : Vector Bucket 304 :=
  let cold := s.glb.rstKind = 0
  Vector.ofFn (fun i : Fin 304 =>
    let b := if s.qs.mapOk then s.qs.map[i] else {}
    let dev := 284 ≤ i.val && i.val < 292
    let kind := ((List.range 8).filter (fun k => decide (kindBase k ≤ i.val))).length - 1
    let level := if cold then 0 else b.level
    { level := level
      retired := (b.retired && !(cold && dev)) || (dev && s.buf.dev[Fin.ofNat 8 (i.val - 284)].lost)
      leakAt := if level = 0 then none
        else some (s.glb.time + max 1 (fld s.evt.strikeCfg[Fin.ofNat 8 kind] 16 16) * 1000000000) })

/-- POWER_ON_RESET_RELEASE: the enclave takes the record of the quench store and marks it consumed, resumes the slots (R105,
R340), and restores the retirement map. -/
def powerOnRelease (s : State) : State :=
  if s.glb.mode != .reset || s.glb.boot != .held then s
  else
    let complete := s.qs.state = 2 && s.qs.number = s.qs.recorded
    let quench := complete && s.qs.cause != 3
    let s := if quench then resumeSaved s else resumeSeqs s
    let s := { s with evt := { s.evt with buckets := restoredMap s, pewterCause := if s.qs.mapOk then s.qs.pewterCause else 0 } }
    let s := if complete then
        let t := takeEvents s
        { t with qs.state := 3, pwr.qConsumed := quench }
      else s
    { s with
      buf.dev := Vector.ofFn (fun d : Fin 8 => let x := s.buf.dev[d]; { x with lost := x.lost || s.retired 5 d.val })
      fmt.map := mapInService s
      glb.boot := .released }

def execPowerOnResetRelease (s : State) : Out := next (powerOnRelease s)

/-- RNG_STARTUP_PASS: events 2 and 3 of R331; the value of R296 is drawn, and the host port trains. -/
def rngPass (s : State) : State :=
  if s.glb.mode != .reset || s.glb.boot != .released then s
  else
    let s := { s with sec.rngOk := true }
    let id := draw s 8
    setMode .attest (drawn 8 { s with glb := { s.glb with boot := .testing, bootId := id, training := !s.glb.perst } })

def execRngStartupPass (s : State) : Out := next (rngPass s)

/-- RNG_CONTINUOUS_FAIL: the tests that failed, as a mask; draws stop and the device enters PEWTER (R92, R378). -/
def rngFail (tests : Fin 4) (s : State) : State :=
  if tests = 0 || !s.sec.rngOk || s.glb.mode = .quench || s.glb.mode = .off then s
  else enterPewter 8 (Config.pewterKind 8).toNat 0xFF (raiseEv .rngFail 0x1 noRes noInst (leBytes 1 tests.val) { s with sec.rngOk := false })

def execRngContinuousFail (tests : Fin 4) (s : State) : Out := next (rngFail tests s)

/-! ### The quench (R334 to R339) -/

/-- Whether a supply failure is a detection: VSENSE below trip, PWRFAIL# low while it is enabled, or a supply gone (R323, R334). -/
def detects (s : State) (cause : Fin 3) (vsense : Nat) : Bool :=
  if cause = 0 then decide (vsense < 100 * fld s.pwr.quenchCfg 0 8)
  else if cause = 1 then rbit s.pwr.quenchCfg 20
  else true

/-- One ring in the completion window: at most `left` completions, then its vector (R337). -/
def quenchRing (st : State × Nat × Bool) (r : RingId) : State × Nat × Bool :=
  let s := st.1
  let ids := (s.ring r).cmds.map (fun c => c.uid)
  let s := (ids.take st.2.1).foldl (fun s u => completeSt r u .abortedQuench s) s
  let s := if (s.ring r).unsignalled = 0 then s else signalRing r s
  (s, st.2.1 - ids.length, st.2.2 || decide (st.2.1 < ids.length))

/-- The completion window; nothing is written unless the link is in L0. The window reaches at least 11,840 completions (R413). -/
def quenchWindow (window : Nat) (s : State) : State :=
  let n := if s.hif.linkL0 then max 11840 window else 0
  let r := allRings.foldl quenchRing (s, n, false)
  dropCommands { r.1 with pwr.qWindowFull := r.2.2 }

/-- The quench-store write (R338). -/
def quenchStore (cause : Nat) (detected : Nat) (speed : Nat) (braking : Bool) (s : State) : State :=
  let slots := Vector.ofFn (fun i : Fin 512 => ({ frontier := s.seqs[i].frontier, epoch := s.seqs[i].epoch, ok := true } : SlotRec))
  let n := (s.qs.recorded + 1) % 2 ^ 32
  { s with qs :=
    { state := 2, cause := cause, number := n, recorded := n, time := detected
      cartSerial := s.cart.serial, partition := s.partInUse, wrap := s.fmt.wrap, commitDsn := s.fmt.commitDsn, session := s.sessionNo
      lx := s.srv.lx, curDsn := s.fmt.curDsn, speed := speed, brakeSent := s.mot.brakeSent, braking := braking
      map := s.evt.buckets, pewterCause := s.evt.pewterCause, mapOk := true, loss := s.evt.loss, events := s.evt.fifo
      slotA := slots, slotB := slots } }

/-- QUENCH_DETECT: the quench to its event 9 (R335). The position region is what stood at detection. -/
def quench (cause : Fin 3) (vsense window vholdEnd : Nat) (braking : Bool) (s : State) : State :=
  if s.glb.mode = .off || s.glb.mode = .quench || !detects s cause vsense then s
  else
    let speed := s.mot.speed
    let on := motionOn s
    let s := raiseEv .quench 0x0 noRes noInst (leBytes 1 cause.val) { s with pwr.vsense := vsense % 65536 }
    let s := dropGates s
    let s := setMode .quench { s with mot.islandReset := false, glb.boot := .held }
    let s := abortMover (if on then brakeReels 2 s else s)
    let s := quenchWindow window s
    let s := quenchStore cause.val s.glb.time speed braking s
    let s := abandonData (unassignAll s)
    let s := rebuildTable { s with chn.port := s.chn.port.map RingPort.off }
    { linkLost s with
      pwr := { s.pwr with dom := 0, qDone := true, vholdEnd := vholdEnd % 65536 }
      glb := { s.glb with quenches := satInc 65535 s.glb.quenches, training := false }
      sec := { s.sec with challenge := none, staging := false, staged := s.sec.staged && !s.sec.staging }
      buf := { s.buf with links := 0, perstOff := 0 } }

def execQuenchDetect (cause : Fin 3) (vsense : Nat) (window : Nat) (vholdEnd : Nat) (braking : Bool) (s : State) : Out :=
  next (quench cause vsense window vholdEnd braking s)

/-! ### Pewter (R371, R379) -/

/-- PEWTER_UNLOAD: the tape has stopped; it is rewound and unloaded, and nothing is written to cartridge memory. Without a
valid profile the reels stay braked (R349). -/
def pewterUnload (s : State) : State :=
  if s.glb.mode != .pewter || !s.sec.profileValid || s.fmt.motion != .stopped then s
  else { s with cart := {}, mot.loopEn := 0, mot.state := .off, srv.state := .off }

def execPewterUnload (s : State) : Out := next (pewterUnload s)

/-- EVT_RETIRE_CLR.clear, in SERVICE and PEWTER. -/
def execRetireClear (s : State) : Out :=
  next (if s.glb.mode = .service || s.glb.mode = .pewter then { s with evt.retireClr := true } else s)

end Sys2Proof.Machine
end

