-- ==== Sys2Proof/Machine/Service.lean ====
section
/-! DEFINITION. Sys2Proof/Machine/Service.lean: commands of the enclave that lead into SERVICE or a reset, the move to FIELD, and
the known-answer tests (R86, R357, R360, R363). -/

namespace Sys2Proof.Machine

/-- SERVICE_RESPONSE: 97 bytes of key and 96 of signature over the challenge. A wrong mode, or an instance that is not
UNASSIGNED, keeps the challenge. -/
def serviceResponse (c : Cmd) (s : State) : State :=
  let b := hostRead s 0 (u64 c.desc 16) 193
  let key := b.take 97
  if !reservedZero c.desc [(16, 8), (24, 4)] || !noTarget c then mEnd c .badParam s
  else if !aligned64 (u64 c.desc 16) then mEnd c .align s
  else if u32 c.desc 24 < 193 then mEnd c .badLength s
  else if !gateReady s then mEnd c .notReady s
  else match s.sec.challenge with
    | none => serviceFail c s
    | some ch =>
      if !mayGrant s ch.scope key || !Ecc.verify key ch.bytes (b.drop 97) then serviceFail c s
      else
        let s := mOk c 0 0 0 (writeEntry 2 ch.scope (slice ch.bytes 32 8) s)
        if ch.scope.testBit 2 then warmReset Config.rmaResetCause.val { s with sec := { s.sec with lifecycle := 4, challenge := none } }
        else openService ch.scope s

def execServiceResponse (cid : Cid) (s : State) : Out := next (mgmtCmd cid 0xC2 serviceResponse s)

/-- FW_ACTIVATE NOW: as NEXT, and a warm reset after the completion. -/
def fwActivateNow (c : Cmd) (s : State) : State :=
  activateWhen c (s.sec.staged && (s.glb.mode == .idle || (s.glb.mode == .threaded && !s.streams.any (fun x => !x.ended))))
    (fun s => warmReset 3 (mOk c 0 0 0 (setTrial 1 s))) s

def execFwActivateNow (cid : Cid) (s : State) : Out := next (subCmd cid 0xD1 1 3 fwActivateNow s)

/-- SEC_LC.to_field: in PROVISIONED, with a valid profile, the maker key hash is fused and the part is in FIELD (R360). -/
def toField (s : State) : State :=
  if s.glb.mode.served && s.sec.lifecycle = 2 && s.sec.profileValid then
    { s with sec := { s.sec with makerHash := some (Sha.sha384 s.sec.makerKey), lifecycle := 3 } }
  else s

def execToField (s : State) : Out := next (toField s)

/-- CPH_CTRL.kat_start, in SERVICE: known-answer tests on every engine in service, to their end. -/
def katStart (pass : Bool) (s : State) : State :=
  if s.glb.mode = .service then { s with codec := { s.codec with katDone := true, katPass := pass } } else s

def execKatStart (pass : Bool) (s : State) : Out := next (katStart pass s)

end Sys2Proof.Machine
end

