-- ==== Sys2Proof/Machine/RegRead.lean ====
section
/-! DEFINITION. Sys2Proof/Machine/RegRead.lean: what a read of each register of BAR0 returns, from the field tables of the
owning chapters (R3 to R6, R381 to R383). -/

namespace Sys2Proof.Machine

/-! ### Units at a stride -/

/-- The unit that offset `o` names among `n` units from `base` at a stride. -/
def unitAt (n : Nat) (base stride o : Nat) : Option (Fin n) :=
  if h : (o - base) / stride < n then if base ≤ o && (o - base) % stride == 0 then some ⟨(o - base) / stride, h⟩ else none else none

/-- The first unit that one of several registers gives, or 0: offsets of no register read 0 (R6). -/
def firstReg : List (Option Word) → Word
  | [] => 0
  | some w :: _ => w
  | none :: l => firstReg l

/-- A value held to the width of a field that saturates. -/
def sat (w n : Nat) : Nat := min n (2 ^ w - 1)

/-- A whole 32-bit field. -/
def wd (n : Nat) : Word := BitVec.ofNat 32 n

/-- Bits of `n` units, unit 0 lowest. -/
def unitBits (n : Nat) (f : Nat → Bool) : Nat := (List.range n).foldl (fun a i => a + bit (f i) * 2 ^ i) 0

/-- Little-endian word `k` of a byte string. -/
def wordOf (b : Bytes) (k : Nat) : Word := wd (u32 b (4 * k))

/-! ### Global, power, security, events -/

def glbReg (s : State) : Nat → Word
  | 0x000 => pack [(0, s.glb.mode.code), (4, s.glb.prev.code), (16, s.glb.seq.toNat)]
  | 0x008 => pack [(0, s.glb.rstKind), (2, s.glb.rstCause), (16, sat 16 s.glb.quenches)]
  | 0x010 => wd s.glb.time
  | 0x014 => s.glb.timeHi
  | _ => 0

def pwrReg (s : State) : Nat → Word
  | 0x000 => wd (s.pwr.dom.toNat % 2 ^ 32)
  | 0x004 => wd (s.pwr.dom.toNat / 2 ^ 32 % 2 ^ 32)
  | 0x008 => wd (s.pwr.dom.toNat / 2 ^ 64)
  | 0x020 => s.pwr.quenchCfg
  | 0x024 => pack [(0, bit s.pwr.qDone), (1, bit s.pwr.qConsumed), (2, bit s.pwr.qWindowFull), (16, sat 16 s.pwr.vholdEnd)]
  | 0x028 => pack [(0, sat 16 s.pwr.capUf), (16, sat 8 s.pwr.esrMohm), (24, bit s.pwr.holdOk)]
  | 0x02C => pack [(0, sat 16 s.pwr.vsense), (16, sat 16 s.pwr.vhold)]
  | _ => 0

def secReg (s : State) (o : Nat) : Word :=
  match o with
  | 0x000 => pack [(0, s.sec.lifecycle), (3, bit s.sec.makerHash.isSome)]
  | 0x004 => pack [(0, s.sec.floor % 128), (8, s.sec.image.svn % 128), (16, s.sec.image.signer % 4), (18, s.sec.revoked.toNat)]
  | 0x008 => pack [(0, bit s.sec.bankB), (1, bit s.sec.fallback), (2, bit s.sec.activation), (3, bit s.sec.romPewter)
                   , (4, bit s.sec.confirmed), (5, (dirNow s).trial % 4), (7, bit s.sec.staged)]
  | 0x00C => wd (ingotHead s)
  | 0x010 => wd (ingotOldest s)
  | 0x014 => pack [(1, bit s.sec.gateOpen), (2, if s.sec.gateOpen then s.sec.scope % 8 else 0), (5, sat 2 s.sec.fails), (7, bit (gateLocked s))
                   , (8, bit s.sec.challenge.isSome)]
  | _ => match unitAt 4 0x020 4 o with
    | some k => wordOf deviceIdent k.val
    | none => 0

/-- Counter bytes as EVT_LOSS_DATA shows them (R376). -/
def LossCtr.bytes (c : LossCtr) : Bytes := leBytes 2 c.count ++ leBytes 3 c.first ++ leBytes 3 c.last

/-- Retired resources of kind `k` from number `a` on, `n` of them, unit `a` lowest. -/
def retiredBits (s : State) (k a n : Nat) : Nat := unitBits n (fun i => s.retired k (a + i))

def evtReg (s : State) (o : Nat) : Word :=
  match o with
  | 0x000 => pack [(0, bit s.evt.ringEn), (1, bit s.evt.lock)]
  | 0x010 => wd (s.evt.ringBase % 2 ^ 32)
  | 0x014 => wd (s.evt.ringBase / 2 ^ 32)
  | 0x018 => s.evt.ringCfg
  | 0x01C => wd s.evt.head
  | 0x020 => pack [(0, s.evt.tail), (14, bit s.evt.phase), (15, bit s.evt.stopped), (16, sat 9 s.evt.fifo.length)]
  | 0x028 => wd s.evt.lossSel
  | 0x02C => wordOf (s.evt.snapshot[Fin.ofNat 64 s.evt.lossSel]).bytes 0
  | 0x030 => wordOf (s.evt.snapshot[Fin.ofNat 64 s.evt.lossSel]).bytes 1
  | 0x034 => wd s.evt.pewterCause
  | 0x038 => wd (bit s.evt.retireClr)
  | 0x080 => pack [(0, retiredBits s 2 0 16), (16, retiredBits s 3 0 8), (24, retiredBits s 4 0 4), (28, retiredBits s 7 0 4)]
  | 0x084 => pack [(0, retiredBits s 5 0 8), (8, retiredBits s 6 0 8)]
  | _ => firstReg
    [ (unitAt 8 0x040 4 o).map (fun k => s.evt.strikeCfg[k])
    , (unitAt 4 0x060 4 o).map (fun q => wd (retiredBits s 0 (32 * q.val) 32))
    , (unitAt 4 0x070 4 o).map (fun q => wd (retiredBits s 1 (32 * q.val) 32)) ]

/-! ### Host interface and instance pages -/

def hifReg (s : State) : Nat → Word
  | 0x000 => wd (bit s.hif.mqEn)
  | 0x010 => wd (s.hif.mqSq % 2 ^ 32)
  | 0x014 => wd (s.hif.mqSq / 2 ^ 32)
  | 0x018 => wd (s.hif.mqCq % 2 ^ 32)
  | 0x01C => wd (s.hif.mqCq / 2 ^ 32)
  | 0x020 => s.hif.mqCfg
  | 0x024 => pack [(0, s.hif.mq.sqHead), (16, s.hif.mq.cqTail), (28, bit s.hif.mq.phase), (29, bit s.hif.mq.stopped)]
  | 0x028 => wd (hifErrBits s)
  | 0x02C => pack [(0, s.hif.linkSpeed), (4, s.hif.linkWidth)]
  | _ => 0

/-- VI_KS_STAT (R106, R107). -/
def ksStat (s : State) (v : Inst) (k : SlotNo) : Word :=
  let q := s.slot v k
  pack [(0, q.kind.code), (3, bit q.pending.isSome), (4, bit q.autoRekey), (8, q.generation % 256), (16, q.limitLog2 % 64)
        , (22, sat 10 (inUse s v k))]

def viReg (s : State) (v : Inst) (o : Nat) : Word :=
  let i := s.inst v
  match o with
  | 0x000 => pack [(0, i.ring.sqLog), (4, i.ring.cqLog), (8, i.ring.irqCount % 256), (16, i.ring.irqUsec % 65536)]
  | 0x004 => pack [(0, i.ring.sqHead), (12, i.ring.cqTail), (24, bit i.ring.phase), (25, bit (i.ring.cmds.any (fun c => c.phase == .parked)))
                   , (26, bit i.ring.stopped)]
  | 0x008 => wd i.ring.err
  | 0x010 => pack [(0, i.state.code), (3, bit i.cfg.plaintextOk), (4, bit i.cfg.ats), (5, bit i.saved), (8, sat 5 (openCount s v)), (16, i.seq.toNat)]
  | 0x014 => pack [(0, i.share % 256), (8, i.shareNext % 256), (16, bit (i.share != i.shareNext))]
  | 0x018 => pack [(0, i.cfg.tagLo % 65536), (16, i.cfg.tagHi % 65536)]
  | 0x01C => pack [(0, i.cfg.rtagLo % 65536), (16, i.cfg.rtagHi % 65536)]
  | 0x020 => wd (i.cfg.pasid % 2 ^ 20)
  | 0x024 => pack [(0, i.cfg.partMask % 65536), (16, i.cfg.maxStreams % 32)]
  | 0x028 => pack [(0, sat 16 i.qscFinished), (16, sat 8 i.qscDiscarded), (24, sat 8 i.qscHeld)]
  | 0x02C => pack [(0, unsigned 16 i.credit), (16, i.granted.toNat)]
  | _ => firstReg
    [ (unitAt 8 0x080 8 o).map (fun k => ksStat s v k)
    , (unitAt 8 0x084 8 o).map (fun k => wd (s.seqOf v k).epoch) ]

/-! ### Buffer memory, pans, mover -/

/-- A memory device's status word. -/
def devStat (d : MemDev) : Word :=
  pack [(0, bit d.present), (1, bit d.lost), (2, bit d.tagOk), (3, bit d.rate16), (4, d.width % 4), (6, d.cause % 4), (16, sat 16 d.lines)]

def bufReg (s : State) (o : Nat) : Word :=
  let b := s.buf
  match o with
  | 0x000 => pack [(0, b.nDev % 16), (4, b.cap % 4), (6, b.bif0 % 4), (8, b.bif1 % 4), (10, b.devLinks.toNat)]
  | 0x004 => pack [(0, b.state), (3, lostMask s), (11, bit b.remapFull)]
  | 0x008 => wd s.usable
  | 0x00C => wd b.mark
  | 0x010 => b.fillCfg
  | 0x014 => b.cxlCfg
  | 0x018 => wd b.links.toNat
  | 0x01C => b.rakeCfg
  | 0x020 => wd b.rakePos
  | 0x024 => pack [(0, b.rakePasses.toNat), (16, sat 16 b.rakeCorrected)]
  | 0x028 => pack [(0, sat 16 b.eccCorrected), (16, sat 8 b.eccUncorr), (24, sat 8 b.eccUnfilled)]
  | 0x02C => wd b.uncorrLoc
  | 0x060 => wd (b.remap.toList.countP (fun r => r.valid || r.bad))
  | _ => firstReg
    [ (unitAt 8 0x040 4 o).map (fun d => devStat b.dev[d])
    , (unitAt 32 0x080 4 o).map (fun i => pack [(0, b.remap[i].stripe % 2 ^ 30), (30, bit b.remap[i].bad), (31, bit b.remap[i].valid)]) ]

/-- The five registers of a pan. -/
def panReg (q : Pan) : Nat → Word
  | 0x0 => pack [(0, bit q.enable), (1, bit q.bitmap), (2, bit q.spill), (3, bit q.countMode)]
  | 0x4 => wd (q.count % 2 ^ 19)
  | 0x8 => wd (q.baseKib % 2 ^ 30)
  | 0xC => q.thresh
  | 0x10 => pack [(0, q.free % 2 ^ 19), (19, bit q.low), (20, bit q.critical), (21, sat 6 q.waiting.length), (27, bit q.rebuilding)
                  , (28, bit q.countMode)]
  | _ => 0

def pansReg (s : State) (o : Nat) : Word :=
  match o with
  | 0x000 => wd (bit s.pans.lock)
  | 0x004 => pack [(0, s.pans.errKind), (3, s.pans.errReq % 64), (9, s.pans.errHandle % 2 ^ 18)]
  | _ =>
    if 0x020 ≤ o && o < 0x0A0 then panReg (s.pan (Fin.ofNat 4 ((o - 0x020) / 0x20))) ((o - 0x020) % 0x20)
    else firstReg
      [ (unitAt 64 0x100 4 o).map (fun v => wd s.pans.quota[v])
      , (unitAt 64 0x200 4 o).map (fun v => wd (s.pans.heldUnits[v] % 2 ^ 24)) ]

/-- MOV_ENG_STAT. -/
def engStat (s : State) (e : Fin 4) : Word :=
  let x := s.mov.eng[e]
  if s.retired 7 e.val then pack [(0, 3), (5, 0x3F)]
  else if x.use.isSome then pack [(0, 1), (2, x.op % 8), (5, x.line % 64)]
  else pack [(5, 0x3F)]

def movReg (s : State) (o : Nat) : Word :=
  let m := s.mov
  match o with
  | 0x000 => m.ctrl
  | 0x004 => pack [(0, unitBits 4 (fun e => !s.retired 7 e)), (4, unitBits 4 (fun e => !s.retired 7 e && (m.eng[Fin.ofNat 4 e]).use.isSome))
                   , (8, sat 8 (m.queue.countP (fun d => !(List.finRange 4).any (fun e => !s.retired 7 e.val && m.eng[e].use == some d.id))))]
  | 0x008 => pack [(0, m.errStatus % 16), (4, m.errReq % 64), (10, m.errEntry % 2 ^ 16)]
  | 0x010 => pack [(0, bit m.svcPosted), (1, bit m.svcDone)]
  | _ => firstReg
    [ (unitAt 4 0x040 4 o).map (engStat s)
    , (unitAt 4 0x060 4 o).map (fun e => wd (m.eng[e].bytes / 1024))
    , (unitAt 16 0x080 4 o).map (fun k => m.svcDesc[k])
    , (unitAt 8 0x0C0 4 o).map (fun k => m.svcCpl[k])
    , (unitAt 38 0x100 4 o).map (fun l => pack [(0, sat 3 (m.line[l]).pending.length), (3, bit (m.line[l]).bound.isSome), (16, sat 16 (m.line[l]).late)]) ]

/-! ### Compression and cipher -/

/-- CMP_SLICE_STAT. -/
def sliceStat (s : State) (n : Fin 8) : Word :=
  let x := s.codec.slices[n]
  if s.retired 3 n.val then 3
  else match x.use with
    | .append _ => pack [(0, 1), (2, x.effort % 4), (4, x.attempt % 4)]
    | .retrieve _ => pack [(0, 2), (2, x.effort % 4), (4, x.attempt % 4)]
    | _ => 0

def cmpReg (s : State) (o : Nat) : Word :=
  let c := s.codec
  match o with
  | 0x000 => c.cmpCtrl
  | 0x004 => pack [(0, unitBits 8 (fun n => !s.retired 3 n)), (8, unitBits 8 (fun n => (c.slices[Fin.ofNat 8 n]).use != .idle))
                   , (16, sat 8 (s.blks.countP (fun b => b.place == .sliceQueue) + s.rtv.blks.countP (fun b => b.place == .sliceQueue)))]
  | 0x008 => pack [(0, sat 16 c.ratio), (31, bit c.ratioValid)]
  | _ => firstReg
    [ (unitAt 8 0x040 4 o).map (sliceStat s)
    , (unitAt 8 0x060 4 o).map (fun n => c.slices[n].blocks)
    , (unitAt 8 0x080 4 o).map (fun n => pack [(0, sat 16 c.slices[n].selfcheckFail), (16, sat 16 c.slices[n].decodeFail)]) ]

/-- CPH_ENG_STAT. -/
def cipherStat (s : State) (e : Fin 4) : Word :=
  let x := s.codec.engines[e]
  let rest := [(2, x.mode % 4), (4, sat 4 x.cached.length)]
  if s.retired 4 e.val then pack ((0, 3) :: rest)
  else match x.use with
    | .append _ => pack ([(0, 1), (8, x.attempt % 4)] ++ rest)
    | .retrieve _ => pack ([(0, 2), (8, x.attempt % 4)] ++ rest)
    | _ => pack rest

def cphReg (s : State) (o : Nat) : Word :=
  let c := s.codec
  match o with
  | 0x000 => c.cphCtrl
  | 0x004 => pack [(0, unitBits 4 (fun e => !s.retired 4 e)), (4, unitBits 4 (fun e => (c.engines[Fin.ofNat 4 e]).use != .idle)), (8, bit c.katDone)
                   , (9, bit c.katPass), (10, bit s.sec.rngOk)]
  | _ => firstReg
    [ (unitAt 4 0x040 4 o).map (cipherStat s)
    , (unitAt 4 0x060 4 o).map (fun e => pack [(0, sat 16 c.engines[e].selfcheckFail), (16, sat 16 c.engines[e].tagFail)]) ]

/-! ### Format, write and read channels -/

/-- FMT_CUR_LOC: on append from the dataset being written; on retrieve from the header accepted last, with the group position
of a dataset whose index has been read. -/
def curLoc (s : State) : Word :=
  match s.glb.mode with
  | .append =>
    match s.fmt.cur.bind (fun d => s.wr? d) with
    | some w => pack [(0, s.fmt.wrap % 256), (8, s.fmt.slot % 64), (14, w.buf.part % 16)
                      , (18, if w.buf.kind = typeVault then 0 else w.vaultPos % 16), (22, sat 5 s.fmt.rewriteTiers), (31, 1)]
    | none => pack [(0, s.fmt.wrap % 256), (14, s.partInUse % 16)]
  | .retrieve =>
    let pos := ((s.rtv.ds.find? (fun d => d.dsn == s.fmt.curDsn && d.pos == 0)).bind (·.index)).map (·.vaultPos)
    pack [(0, s.rtv.wrap % 256), (8, s.rtv.tier % 64), (14, s.rtv.part % 16), (18, pos.getD 0 % 16), (22, sat 5 (s.rtv.tier - s.rtv.lastData))
          , (31, bit (s.fmt.motion == .running && !s.rtv.ds.isEmpty))]
  | _ => 0

/-- FMT_REWRITE_STAT. -/
def rewriteStat (s : State) : Word :=
  let copies := (s.fmt.history.map (·.1)).foldl (· + ·) 0
  let written := max 1 ((s.fmt.history.map (·.2)).foldl (· + ·) 0)
  pack [(0, sat 13 s.fmt.rewrites.length), (16, sat 4 (s.fmt.written.countP (fun w => w.closed && !w.verified))), (20, sat 12 (copies * 10000 / written))]

def fmtReg (s : State) (o : Nat) : Word :=
  let f := s.fmt
  match o with
  | 0x050 => pack [(0, f.map.length), (8, dataTiers f.map.length % 64), (16, f.mapSeq.toNat)]
  | 0x060 => wd f.curDsn
  | 0x064 => curLoc s
  | 0x080 => f.verifyCfg
  | 0x084 => pack [(0, sat 20 f.judged), (20, sat 12 f.fails)]
  | 0x088 => rewriteStat s
  | 0x090 => wd f.commitDsn
  | 0x094 => pack [(0, f.commitWrap % 256), (8, f.commitPart % 16), (12, sat 2 f.recovery), (14, bit (recoveryRuns f))]
  | 0x098 => f.appendCfg
  | 0x0A0 => f.speedCfg
  | 0x0A4 => f.speedMarks
  | 0x0A8 => pack [(0, f.spCur), (3, f.spWant), (6, bit f.ramping), (7, bit f.stopped), (8, bit f.hard), (9, bit f.filling), (16, f.spSeq.toNat)]
  | 0x0AC => wd (backlog s / 2 ^ 20 % 2 ^ 24)
  | 0x0B0 => wd (bit f.wswap)
  | 0x0B4 => wd f.wswapLx
  | _ => match unitAt 4 0x040 4 o with
    | some k => wd (unitBits 32 (fun b => f.map.contains (32 * k.val + b)))
    | none => 0

/-- WCH_CS and RCH_CS. -/
def setCs (pending active locked : Bool) (lx : BitVec 16) : Word := pack [(0, bit pending), (1, bit active), (2, bit locked), (16, lx.toNat)]

def wchReg (s : State) (o : Nat) : Word :=
  if o < 0x800 then
    let c := s.wch[Fin.ofNat 128 (o / 16)]
    match o % 16 with
    | 0x0 => c.setA
    | 0x4 => c.setB
    | 0x8 => setCs c.pending.isSome c.activeB c.shadowLocked c.swapLx
    | _ => 0
  else 0

/-- RCH_STAT.sync_state. -/
def SyncState.code : SyncState → Nat
  | .acquisition => 0 | .tracking => 1 | .flywheeling => 2 | .stopped => 3

/-- RCH_STAT. -/
def rchStat (c : RChan) : Word :=
  pack [(0, c.phase % 64), (6, c.sync.code), (8, sat 8 c.slips), (16, sat 8 c.flywheels), (24, sat 8 c.retries)]

/-- RCH_EQ_TAP: a tap of the selected channel and set. -/
def eqTap (s : State) (k : Nat) : Word :=
  let c := s.rch[Fin.ofNat 128 s.rdc.eqChan]
  wd (unsigned 10 ((if s.rdc.eqSet = 1 then c.tapsB else c.tapsA).getD k 0))

def rchReg (s : State) (o : Nat) : Word :=
  let r := s.rdc
  if o < 0x800 then
    let c := s.rch[Fin.ofNat 128 (o / 16)]
    match o % 16 with
    | 0x0 => c.setA
    | 0x4 => c.setB
    | 0x8 => setCs c.pending.isSome c.activeB c.shadowLocked c.swapLx
    | 0xC => rchStat c
    | _ => 0
  else match o with
    | 0x800 => r.clkCfg
    | 0x804 => pack [(0, bit r.lockA), (1, bit r.lockB), (2, bit r.holdover), (3, r.zone % 4), (16, sat 16 r.losses)]
    | 0x810 => r.adapt
    | 0x820 => r.decCfg
    | 0x824 => pack [(0, sat 16 r.converged), (16, sat 8 r.failed), (24, sat 8 r.retriedOk)]
    | 0x828 => r.recover
    | 0x830 => pack [(0, r.eqChan % 128), (7, r.eqSet % 2)]
    | 0x870 => wd (bit r.rswap)
    | 0x874 => wd r.rswapLx
    | _ => match unitAt 10 0x840 4 o with
      | some k => eqTap s k.val
      | none => 0

/-! ### Servo and motion -/

/-- SRV_STAT.state. -/
def SrvState.code : SrvState → Nat
  | .off => 0 | .search => 1 | .locked => 2 | .flywheel => 3 | .fenced => 4

def srvReg (s : State) : Nat → Word
  | 0x000 => s.srv.ctrl
  | 0x004 => s.srv.fence
  | 0x008 => pack [(0, s.srv.state.code), (3, bit s.srv.lxValid), (4, sat 4 s.srv.missed), (8, bit s.srv.gateOk), (9, bit s.srv.validA)
                   , (10, bit s.srv.validB), (11, bit s.srv.straddle)]
  | 0x00C => wd s.srv.lx
  | 0x010 => wd (unsigned 16 s.srv.pes)
  | 0x014 => pack [(0, s.srv.yA % 2 ^ 22), (31, bit s.srv.validA)]
  | 0x018 => pack [(0, s.srv.yB % 2 ^ 22), (31, bit s.srv.validB)]
  | 0x01C => wd (unsigned 16 s.srv.az)
  | 0x020 => pack [(0, sat 16 s.srv.cntMissed), (16, sat 16 s.srv.cntFences)]
  | _ => 0

/-- MOT_STAT.state. -/
def MotState.code : MotState → Nat
  | .off => 0 | .softStart => 1 | .running => 2 | .stopping => 3 | .stopped => 4 | .braked => 5

/-- Loop, bank, section and coefficient that an offset of the coefficient area names. -/
def coefAt (o : Nat) : Option (Fin 4 × Fin 2 × Fin 2 × Fin 6) :=
  let r := (o - 0x100) % 0x40
  if 0x100 ≤ o && o < 0x300 && r < 0x30 && o % 4 == 0 then
    some (Fin.ofNat 4 ((o - 0x100) / 0x80), Fin.ofNat 2 ((o - 0x100) / 0x40), Fin.ofNat 2 (r / 0x18), Fin.ofNat 6 (r % 0x18 / 4))
  else none

def motReg (s : State) (o : Nat) : Word :=
  let m := s.mot
  match o with
  | 0x000 => pack [(0, m.loopEn.toNat), (4, bit m.stop)]
  | 0x004 => pack [(0, m.state.code), (3, bit m.linkOk), (4, unitBits 4 (fun l => (m.loop[Fin.ofNat 4 l]).accSat))
                   , (8, unitBits 4 (fun l => (m.loop[Fin.ofNat 4 l]).outSat)), (12, bit m.coefDrop), (13, bit m.coefLocked)
                   , (14, bit m.followFault), (15, bit m.tensionFault), (16, sat 16 m.speed)]
  | 0x030 => m.tension
  | 0x034 => m.ff
  | 0x038 => m.follow
  | 0x03C => m.tfollow
  | 0x040 => m.accel
  | 0x044 => pack [(0, sat 8 m.crcErr), (8, sat 8 m.missing), (16, m.status.toNat), (24, bit m.brakeSent)]
  | _ =>
    match coefAt o with
    | some (l, k, sec, c) => wd ((m.loop[l]).coef[Fin.ofNat 24 (12 * k.val + 6 * sec.val + c.val)]).toNat
    | none => firstReg
      [ (unitAt 4 0x010 4 o).map (fun l => pack [(0, bit m.loop[l].bankB), (1, bit m.loop[l].swap), (8, sat 5 (queuedFor s l).length)])
      , (unitAt 4 0x020 4 o).map (fun l => m.loop[l].lim) ]

/-! ### Ring and pace -/

def chnReg (s : State) (o : Nat) : Word :=
  let c := s.chn
  match o with
  | 0x000 => pack [(0, bit c.enable), (1, bit c.reassemble)]
  | 0x004 => pack [(0, c.state % 8), (3, c.addr % 1024), (13, bit c.anchor), (14, bit c.raitOk), (15, bit c.pendingJoin), (16, sat 10 c.members)]
  | 0x008 => pack [(0, c.budget % 65536), (16, sat 16 (c.rt / 1000))]
  | 0x00C => c.linkCfg
  | 0x040 => pack [(0, c.grp.state % 4), (2, c.grp.k % 32), (7, c.grp.p % 4), (9, c.grp.position % 32)
                   , (14, bit (c.grp.state != 0 && c.grp.position == 0))]
  | 0x044 => wd c.grp.lost.toNat
  | 0x048 => wd c.grp.commit
  | _ => firstReg
    [ (unitAt 2 0x010 4 o).map (fun q => pack [(0, c.port[q].state % 4), (2, c.port[q].lanes % 8), (5, retiredBits s 6 (4 * q.val) 4)
        , (9, bit c.port[q].attested), (16, sat 16 c.port[q].resends)])
    , (unitAt 2 0x018 4 o).map (fun q => pack [(0, sat 16 c.port[q].crcErr), (16, sat 16 c.port[q].nakSent)]) ]

def paceReg (s : State) (o : Nat) : Word :=
  match o with
  | 0x000 => s.pace.ctrl
  | 0x004 => pack [(0, sat 16 s.pace.ratioMin), (16, s.pace.siteMin % 8), (31, bit s.pace.valid)]
  | 0x008 => paceCeilWord s.pace
  | _ => firstReg
    [ (unitAt 8 0x020 4 o).map (fun i => if siteOn s i.val then wd (s.pace.count[i] % 2 ^ 24) else 0)
    , (unitAt 8 0x040 4 o).map (fun i => wd (s.pace.nom[i] % 2 ^ 24)) ]

/-! ### BAR0 (R381) -/

/-- Whether an offset of BAR0 is that of a steward register (R381, R382). -/
def stewardAt (off : Nat) : Bool :=
  let ranges : List (Nat × Nat) :=
    [ (0x100, 0x19C), (0x500, 0x5EC), (0x900, 0xA3C), (0xD00, 0xE10), (0x1000, 0x11DC), (0x2100, 0x21A0), (0x4200, 0x4470), (0x5200, 0x5314)
    , (0x6100, 0x6450), (0x7100, 0x7354), (0x8100, 0x8420), (0xA900, 0xAAB0), (0xB100, 0xB2B8), (0xC400, 0xC5FC), (0xD100, 0xD350)
    , (0xE100, 0xE5A0) ]
  off % 4 == 0
    && (ranges.any (fun r => decide (r.1 ≤ off) && decide (off ≤ r.2))
        || (decide (0x40000 ≤ off) && decide (off < 0x80000) && decide (0x100 ≤ off % 0x1000) && decide (off % 0x1000 ≤ 0x130)))

/-- What a read of BAR0 returns; offsets of no described register read 0, steward registers among them for a host (R6, R382). -/
def readReg (s : State) (off : Nat) : Word :=
  if off % 4 ≠ 0 || stewardAt off then 0
  else if 0x40000 ≤ off then
    if off < 0x80000 then viReg s (Fin.ofNat 64 (off / 0x1000)) (off % 0x1000) else 0
  else if 0x10000 ≤ off then 0
  else
    let o := off % 0x1000
    match off / 0x1000 with
    | 0x0 =>
      if o < 0x400 then glbReg s o else if o < 0x800 then pwrReg s (o - 0x400)
      else if o < 0xC00 then secReg s (o - 0x800) else evtReg s (o - 0xC00)
    | 0x2 => hifReg s o
    | 0x4 => if o < 0x800 then bufReg s o else if o < 0xC00 then pansReg s (o - 0x800) else 0
    | 0x5 => movReg s o
    | 0x6 => cmpReg s o
    | 0x7 => cphReg s o
    | 0x8 => fmtReg s o
    | 0x9 => wchReg s o
    | 0xA => rchReg s o
    | 0xB => srvReg s o
    | 0xC => motReg s o
    | 0xD => chnReg s o
    | 0xE => paceReg s o
    | _ => 0

end Sys2Proof.Machine
end

