-- ==== Sys2Proof/Machine/Registers.lean ====
section
/-! DEFINITION. Sys2Proof/Machine/Registers.lean: register accesses of the host and of the JTAG TAP (R3 to R7, R381 to R388). -/

namespace Sys2Proof.Machine

/-- A register whose bits `mask` take a written value; the others keep theirs. -/
def putMask (mask old new : Word) : Word := (old &&& ~~~mask) ||| (new &&& mask)

/-- A 64-bit base of which one half is written; its bits [11:0] stay 0. -/
def putHalf (high : Bool) (old : Nat) (v : Word) : Nat :=
  if high then old % 2 ^ 32 + v.toNat * 2 ^ 32 else old / 2 ^ 32 * 2 ^ 32 + v.toNat / 4096 * 4096

/-- A set bit of a written value carries out `f`. -/
def onBit (v : Word) (i : Nat) (f : State → State) (s : State) : State := if rbit v i then f s else s

/-- A free value's number is passed to `f` and used up. -/
def withFree (f : Nat → State → State) (s : State) : State := f s.nextId { s with nextId := s.nextId + 1 }

/-! ### Writes, block by block -/

/-- GLB_RST: the strongest reset that is asked for and may be taken. -/
def writeGlb (o : Nat) (v : Word) (s : State) : State :=
  match o with
  | 0x004 =>
    if rbit v 2 && s.glb.mode == .service then takeReset 0 3 false s
    else if rbit v 1 then warmReset 3 s
    else if rbit v 0 then functionReset 3 s
    else s
  | _ => s

/-- PWR_QUENCH_CFG: fields and lock together while the lock bit stands clear (R385). -/
def quenchCfg (v : Word) (s : State) : State :=
  if rbit s.pwr.quenchCfg 31 then s else { s with pwr.quenchCfg := v &&& 0x803FFFFF }

def writePwr (o : Nat) (v : Word) (s : State) : State :=
  match o with
  | 0x020 => quenchCfg v s
  | _ => s

def writeSec (o : Nat) (v : Word) (s : State) : State :=
  match o with
  | 0x000 => onBit v 4 toField s
  | 0x014 => onBit v 0 (fun s => if s.glb.mode = .service then warmReset 5 s else s) s
  | _ => s

/-- EVT_STRIKE_CFG[k], unless locked (R385). -/
def strikeCfg (k : Fin 8) (v : Word) (s : State) : State :=
  if s.evt.lock then s else { s with evt.strikeCfg := vset s.evt.strikeCfg k (v &&& 0xFFFF000F) }

def writeEvt (o : Nat) (v : Word) (s : State) : State :=
  let stopped (f : State → State) : State := if s.evt.ringEn then s else f s
  match o with
  | 0x000 => onBit v 1 evtSetLock (if rbit v 0 then evtStart s else evtStop s)
  | 0x010 => stopped (fun s => { s with evt.ringBase := putHalf false s.evt.ringBase v })
  | 0x014 => stopped (fun s => { s with evt.ringBase := putHalf true s.evt.ringBase v })
  | 0x018 => stopped (fun s => { s with evt.ringCfg := v &&& 0xFFFF000F })
  | 0x01C => evtHead v s
  | 0x028 => { s with evt.lossSel := fld v 0 6 }
  | 0x038 => onBit v 0 (fun s => if s.glb.mode = .service || s.glb.mode = .pewter then { s with evt.retireClr := true } else s) s
  | _ => match unitAt 8 0x040 4 o with
    | some k => strikeCfg k v s
    | none => s

def writeHif (o : Nat) (v : Word) (s : State) : State :=
  let off (f : State → State) : State := if s.hif.mqEn then s else f s
  match o with
  | 0x000 => if rbit v 0 then mqStart s else mqStop s
  | 0x010 => off (fun s => { s with hif.mqSq := putHalf false s.hif.mqSq v })
  | 0x014 => off (fun s => { s with hif.mqSq := putHalf true s.hif.mqSq v })
  | 0x018 => off (fun s => { s with hif.mqCq := putHalf false s.hif.mqCq v })
  | 0x01C => off (fun s => { s with hif.mqCq := putHalf true s.hif.mqCq v })
  | 0x020 => off (fun s => { s with hif.mqCfg := v })
  | _ => s

def writeBuf (o : Nat) (v : Word) (s : State) : State :=
  match o with
  | 0x010 => onBit v 8 fillRestart { s with buf.fillCfg := v &&& 0xFF }
  | 0x014 => { s with buf.cxlCfg := v &&& 0xFF }
  | 0x01C => { s with buf.rakeCfg := v &&& 0xFF01 }
  | _ => s

/-- PAN_CFG.enable: the pans go in or out of service as R225 has it. -/
def panEnable (p : Fin 4) (on : Bool) (s : State) : State :=
  if (s.pan p).enable = on then s else enablePans (s.modPan p (fun q => { q with enable := on }))

/-- PAN_CFG.free_mode: dropped while buffers are HELD; a new linked store takes the FREE entries in ascending order (R228). -/
def panStore (p : Fin 4) (bitmap : Bool) (s : State) : State :=
  if (s.pan p).bitmap = bitmap || panHolds s p then s
  else relink p (s.modPan p (fun q => { q with bitmap := bitmap, list := if bitmap then [] else rebuildList s p }))

/-- PAN_EXTENT and PAN_BASE: the table is rebuilt over the new extents, and R225 decides again. DESIGN CHOICE (log entry 29). -/
def panExtent (p : Fin 4) (f : Pan → Pan) (s : State) : State := enablePans (rebuildTable (s.modPan p f))

/-- The registers of a pan. -/
def writePan (p : Fin 4) (o : Nat) (v : Word) (s : State) : State :=
  match o with
  | 0x0 =>
    let s := if s.pans.lock then s else panStore p (rbit v 1) (panEnable p (rbit v 0) s)
    settleGrants (serveWaiting (countMode p (rbit v 3) (s.modPan p (fun q => { q with spill := rbit v 2 }))))
  | 0x4 => if s.pans.lock then s else panExtent p (fun q => { q with count := fld v 0 19 }) s
  | 0x8 => if s.pans.lock then s else panExtent p (fun q => { q with baseKib := fld v 0 30 }) s
  | 0xC =>
    let s := s.modPan p (fun q => { q with thresh := v })
    if panOn s p then settleGrants (serveWaiting (settlePan p s)) else s
  | _ => s

def writePans (o : Nat) (v : Word) (s : State) : State :=
  if o = 0 then onBit v 0 (fun s => { s with pans.lock := true }) s
  else if 0x020 ≤ o && o < 0x0A0 then writePan (Fin.ofNat 4 ((o - 0x020) / 0x20)) ((o - 0x020) % 0x20) v s
  else s

def writeMov (o : Nat) (v : Word) (s : State) : State :=
  match o with
  | 0x000 => assignWork { s with mov.ctrl := v &&& 0xF }
  | 0x010 => onBit v 0 postService s
  | _ => match unitAt 16 0x080 4 o with
    | some k => { s with mov.svcDesc := vset s.mov.svcDesc k v }
    | none => s

/-- CMP_CTRL: hold_dispatch takes a host's write in SERVICE only. -/
def writeCmp (by_ : Source) (o : Nat) (v : Word) (s : State) : State :=
  match o with
  | 0x000 =>
    let mask : Word := if by_ = .host && s.glb.mode ≠ .service then 0x3 else 0x13
    dispatchRead (dispatch { s with codec.cmpCtrl := putMask mask s.codec.cmpCtrl v })
  | _ => s

def writeCph (o : Nat) (v : Word) (s : State) : State :=
  match o with
  | 0x000 => onBit v 2 (withFree (fun n => katStart (Config.katPass n))) { s with codec.cphCtrl := v &&& 3 }
  | _ => s

def writeFmt (o : Nat) (v : Word) (s : State) : State :=
  match o with
  | 0x080 => { s with fmt.verifyCfg := v &&& 0x000FFFFF }
  | 0x098 => { s with fmt.appendCfg := v &&& 0x0003FFFF }
  | 0x0A0 => { s with fmt.speedCfg := v &&& 0x01FFFFFF }
  | 0x0A4 => { s with fmt.speedMarks := v }
  | 0x0B0 => onBit v 0 (withFree (fun n => writeCommitAll (Config.bitsLeft n))) s
  | _ => s

/-- A write to set A or B of a write channel: a write to the active set is dropped, and one to the shadow set while a commit
waits is dropped too and leaves its sticky bit (R119). -/
def WChan.put (b : Bool) (v : Word) (w : WChan) : WChan :=
  if w.activeB = b then w
  else if w.pending.isSome then { w with shadowLocked := true }
  else if b then { w with setB := v &&& 0x1FFFF } else { w with setA := v &&& 0x1FFFF }

def writeWch (o : Nat) (v : Word) (s : State) : State :=
  if o < 0x800 then
    let c : Chan := Fin.ofNat 128 (o / 16)
    match o % 16 with
    | 0x0 => { s with wch := vmod s.wch c (WChan.put false v) }
    | 0x4 => { s with wch := vmod s.wch c (WChan.put true v) }
    | 0x8 => onBit v 0 (withFree (fun n => writeCommit c (Config.bitsLeft n)))
        { s with wch := vmod s.wch c (fun w => { w with shadowLocked := w.shadowLocked && !rbit v 2 }) }
    | _ => s
  else s

/-- A write to a set of a read channel through either register path (R167): `f` changes the set. -/
def RChan.putTo (b : Bool) (f : RChan → RChan) (r : RChan) : RChan :=
  if r.activeB = b then r else if r.pending.isSome then { r with shadowLocked := true } else f r

/-- A tap of the selected channel and set. -/
def putTap (k : Nat) (v : Word) (s : State) : State :=
  let w := signed 10 (fld v 0 10)
  let b := s.rdc.eqSet == 1
  s.modRch (Fin.ofNat 128 s.rdc.eqChan) (RChan.putTo b (fun r =>
    if b then { r with tapsB := r.tapsB.set k w } else { r with tapsA := r.tapsA.set k w }))

def writeRch (o : Nat) (v : Word) (s : State) : State :=
  if o < 0x800 then
    let c : Chan := Fin.ofNat 128 (o / 16)
    match o % 16 with
    | 0x0 => s.modRch c (RChan.putTo false (fun r => { r with setA := v &&& 0x7FFFFFFF }))
    | 0x4 => s.modRch c (RChan.putTo true (fun r => { r with setB := v &&& 0x7FFFFFFF }))
    | 0x8 => onBit v 0 (withFree (fun n => readCommit c (Config.bitsLeft n))) (s.modRch c (fun r => { r with shadowLocked := r.shadowLocked && !rbit v 2 }))
    | _ => s
  else match o with
    | 0x800 => { s with rdc.clkCfg := v &&& 0x1F }
    | 0x810 => { s with rdc.adapt := v &&& 0xFFFF }
    | 0x820 => followRead { s with rdc.decCfg := v &&& 0x003FFFFF }
    | 0x828 => { s with rdc.recover := v &&& 3 }
    | 0x830 => { s with rdc.eqChan := fld v 0 7, rdc.eqSet := fld v 7 1 }
    | 0x870 => onBit v 0 (withFree (fun n => readCommitAll (Config.bitsLeft n))) s
    | _ => match unitAt 10 0x840 4 o with
      | some k => putTap k.val v s
      | none => s

def writeSrv (o : Nat) (v : Word) (s : State) : State :=
  match o with
  | 0x000 => { s with srv.ctrl := v &&& 7 }
  | 0x004 => { s with srv.fence := v &&& 0x003F7FFF }
  | _ => s

/-- MOT_STAT: sticky flags clear where a 1 is written. -/
def clearSticky (v : Word) (s : State) : State :=
  let loops := s.mot.loop.mapFinIdx (fun l x _ => { x with accSat := x.accSat && !rbit v (4 + l), outSat := x.outSat && !rbit v (8 + l) })
  { s with mot := { s.mot with loop := loops, coefDrop := s.mot.coefDrop && !rbit v 12, coefLocked := s.mot.coefLocked && !rbit v 13
                               followFault := s.mot.followFault && !rbit v 14, tensionFault := s.mot.tensionFault && !rbit v 15 } }

def writeMot (o : Nat) (v : Word) (s : State) : State :=
  match o with
  | 0x000 => onBit v 5 motionBrake (onBit v 4 motionStop (setLoops (BitVec.ofNat 4 v.toNat) s))
  | 0x004 => clearSticky v s
  | 0x030 => { s with mot.tension := v &&& 0xFFFF7FFF }
  | 0x034 => { s with mot.ff := v &&& 0xFFFF }
  | 0x038 => { s with mot.follow := v }
  | 0x03C => { s with mot.tfollow := v &&& 0xFFFF7FFF }
  | 0x040 => { s with mot.accel := v &&& 0xFFFF }
  | _ =>
    match coefAt o, unitAt 4 0x010 4 o, unitAt 4 0x020 4 o with
    | some (l, k, sec, c), _, _ => coefWrite l k sec c (BitVec.ofNat 16 v.toNat) s
    | none, some l, _ => onBit v 1 (bankSwap l) s
    | none, none, some l => s.modLoop l (fun x => { x with lim := limBits v })
    | none, none, none => s

/-- CHN_CTRL.enable: at 0 both ports are held down. -/
def ringEnable (on : Bool) (s : State) : State :=
  if s.chn.enable = on then s
  else if on then { s with chn.enable := true }
  else linkGone portWest (linkGone portEast { s with chn.enable := false })

def writeChn (o : Nat) (v : Word) (s : State) : State :=
  match o with
  | 0x000 => onBit v 1 reassemble (ringEnable (rbit v 0) s)
  | 0x008 => { s with chn.budget := fld v 0 16 }
  | 0x00C => { s with chn.linkCfg := v &&& 0xFFF }
  | _ => s

def writePace (o : Nat) (v : Word) (s : State) : State :=
  match o with
  | 0x000 => { s with pace.ctrl := v &&& 0xF3 }
  | _ => s

/-- A write to BAR0 (R381, R384): to the block that owns the offset; BUF_, PAN_, MOV_ and MOT_ take a host's in SERVICE
only; VI_ and DBG_ take none. -/
def writeReg (by_ : Source) (off : Nat) (v : Word) (s : State) : State :=
  if off % 4 ≠ 0 || stewardAt off || 0x10000 ≤ off then s
  else
    let o := off % 0x1000
    let drive (f : State → State) : State := if s.mayDrive by_ then f s else s
    match off / 0x1000 with
    | 0x0 =>
      if o < 0x400 then writeGlb o v s else if o < 0x800 then writePwr (o - 0x400) v s
      else if o < 0xC00 then writeSec (o - 0x800) v s else writeEvt (o - 0xC00) v s
    | 0x2 => writeHif o v s
    | 0x4 => drive (if o < 0x800 then writeBuf o v else if o < 0xC00 then writePans (o - 0x800) v else id)
    | 0x5 => drive (writeMov o v)
    | 0x6 => writeCmp by_ o v s
    | 0x7 => writeCph o v s
    | 0x8 => writeFmt o v s
    | 0x9 => writeWch o v s
    | 0xA => writeRch o v s
    | 0xB => writeSrv o v s
    | 0xC => drive (writeMot o v)
    | 0xD => writeChn o v s
    | 0xE => writePace o v s
    | _ => s

/-! ### BAR2 (R256, R383) -/

/-- The doorbell that an offset of BAR2 is: its ring, and whether it is HIF_DB_CQ_HEAD. -/
def doorbellAt (off : Nat) : Option (RingId × Bool) :=
  let page := off / 0x1000
  if 65 ≤ page || !(off % 0x1000 == 0 || off % 0x1000 == 4) then none
  else some (if page = 0 then none else some (Fin.ofNat 64 (page - 1)), off % 0x1000 == 4)

/-- A doorbell write: kept until event 6 of R331, or acted on. -/
def ringDoorbell (r : RingId) (head : Bool) (v : Word) (s : State) : State :=
  if s.glb.mode.starting then keepDoorbell r head v s
  else if head then cqDoorbell r v s else sqDoorbell r v s

/-- The word of the MSI-X table, or of the PBA, at an offset of BAR2 (R383). -/
def msixWord (off : Nat) : Option (Fin 520) := if off / 0x1000 = 0x41 then unitAt 520 0 4 (off % 0x1000) else none

def pbaWord (off : Nat) : Option (Fin 6) := if off / 0x1000 = 0x42 then unitAt 6 0 4 (off % 0x1000) else none

/-- A write of a word of an MSI-X table entry; a message that waited goes out once its entry is unmasked (R257). -/
def writeMsix (x : Fin 130) (k : Nat) (v : Word) (s : State) : State :=
  let put (f : MsixEntry → MsixEntry) : State := { s with msix.table := vmod s.msix.table x f }
  match k with
  | 0 => put (fun e => { e with addr := e.addr / 2 ^ 32 * 2 ^ 32 + v.toNat })
  | 1 => put (fun e => { e with addr := e.addr % 2 ^ 32 + v.toNat * 2 ^ 32 })
  | 2 => put (fun e => { e with data := v })
  | _ => flushMsix (put (fun e => { e with masked := rbit v 0 }))

/-- A write to BAR2. -/
def writeBar2 (off : Nat) (v : Word) (s : State) : State :=
  match doorbellAt off, msixWord off with
  | some (r, head), _ => ringDoorbell r head v s
  | none, some w => if s.glb.mode.served then writeMsix (Fin.ofNat 130 (w.val / 4)) (w.val % 4) v s else s
  | none, none => s

/-! ### The rows -/

/-- A naturally aligned 32-bit or 64-bit access (R3). -/
def wellFormedAccess (off size : Nat) : Bool := (size == 4 && off % 4 == 0) || (size == 8 && off % 8 == 0)

/-- A host's 32-bit write to BAR0 or BAR2. None to BAR0 reaches the part before event 6 of R331 (R389). -/
def hostWriteReg (bar2 : Bool) (off : Nat) (value : Word) (s : State) : State :=
  if bar2 then writeBar2 off value s else if s.glb.mode.served then writeReg .host off value s else s

/-- REGISTER_WRITE: a 64-bit write is two 32-bit writes, the lower address first (R3). -/
def execRegisterWrite (bar2 : Bool) (off : Nat) (value : Word) (high : Option Word) (s : State) : Out :=
  next (match high with
    | none => if wellFormedAccess off 4 then hostWriteReg bar2 off value s else s
    | some h => if wellFormedAccess off 8 then hostWriteReg bar2 (off + 4) h (hostWriteReg bar2 off value s) else s)

def execQuenchCfgLock (value : Word) (s : State) : Out :=
  next (if s.glb.mode.served then quenchCfg (value ||| 0x80000000) s else s)

/-- MALFORMED_ACCESS: a write is discarded, a read returns all bits zero, and nothing else happens (R3). -/
def execMalformedAccess (_bar2 : Bool) (off : Nat) (size : Nat) (write : Bool) (s : State) : Out :=
  next (if wellFormedAccess off size || write || !s.glb.mode.served then s else { s with glb.rdData := 0 })

/-- The RC fields of a register are clear after a host's read (R4, R387). -/
def clearRc (off : Nat) (s : State) : State :=
  let o := off % 0x1000
  match off / 0x1000 with
  | 0x4 =>
    if o = 0x024 then { s with buf.rakeCorrected := 0 }
    else if o = 0x028 then { s with buf.eccCorrected := 0, buf.eccUncorr := 0, buf.eccUnfilled := 0 }
    else match unitAt 8 0x040 4 o with
      | some d => { s with buf.dev := vmod s.buf.dev d (fun x => { x with lines := 0 }) }
      | none => s
  | 0x5 => match unitAt 38 0x100 4 o with
    | some l => { s with mov.line := vmod s.mov.line l (fun x => { x with late := 0 }) }
    | none => s
  | 0x6 => match unitAt 8 0x080 4 o with
    | some n => { s with codec.slices := vmod s.codec.slices n (fun x => { x with selfcheckFail := 0, decodeFail := 0 }) }
    | none => s
  | 0x7 => match unitAt 4 0x060 4 o with
    | some e => { s with codec.engines := vmod s.codec.engines e (fun x => { x with selfcheckFail := 0, tagFail := 0 }) }
    | none => s
  | 0x8 => if o = 0x084 then { s with fmt.judged := 0, fmt.fails := 0 } else s
  | 0xA =>
    if o < 0x800 && o % 16 = 0xC then s.modRch (Fin.ofNat 128 (o / 16)) (fun r => { r with slips := 0, flywheels := 0, retries := 0 })
    else if o = 0x804 then { s with rdc.losses := 0 }
    else if o = 0x824 then { s with rdc.converged := 0, rdc.failed := 0, rdc.retriedOk := 0 }
    else s
  | 0xB => if o = 0x020 then { s with srv.cntMissed := 0, srv.cntFences := 0 } else s
  | 0xC => if o = 0x044 then { s with mot.crcErr := 0, mot.missing := 0 } else s
  | 0xD => match unitAt 2 0x010 4 o, unitAt 2 0x018 4 o with
    | some q, _ => s.modPort q (fun p => { p with resends := 0 })
    | none, some q => s.modPort q (fun p => { p with crcErr := 0, nakSent := 0 })
    | none, none => s
  | _ => s

/-- Reading GLB_TIME_LO latches the high half (R388). -/
def latchTime (off : Nat) (s : State) : State :=
  if off = 0x010 then { s with glb.timeHi := wd (s.glb.time / 2 ^ 32) } else s

/-- What a read of BAR2 returns: words of the MSI-X table and of the PBA; the doorbells, which are WO, and unassigned offsets
read 0 (R4, R6, R383). -/
def readBar2 (s : State) (off : Nat) : Word :=
  match msixWord off, pbaWord off with
  | some w, _ =>
    let e := s.msix.table[Fin.ofNat 130 (w.val / 4)]
    match w.val % 4 with
    | 0 => wd e.addr
    | 1 => wd (e.addr / 2 ^ 32)
    | 2 => e.data
    | _ => wd (bit e.masked)
  | none, some w => wd (s.msix.pba.toNat / 2 ^ (32 * w.val))
  | none, none => 0

/-- A host's 32-bit read: what it returns, and what it changes (R387, R388). Steps are whole: what the device sets and what
software clears never fall together (R5). -/
def hostReadReg (bar2 : Bool) (off : Nat) (s : State) : Nat × State :=
  if bar2 then ((readBar2 s off).toNat, s) else ((readReg s off).toNat, latchTime off (clearRc off s))

/-- A host's read, of 64 bits as two of 32, the lower address first (R3). -/
def hostRead64 (bar2 : Bool) (off : Nat) (wide : Bool) (s : State) : State :=
  if !s.glb.mode.served || !wellFormedAccess off (if wide then 8 else 4) then s
  else
    let lo := hostReadReg bar2 off s
    let hi := if wide then hostReadReg bar2 (off + 4) lo.2 else (0, lo.2)
    { hi.2 with glb.rdData := lo.1 + 2 ^ 32 * hi.1 }

/-- RC_FIELD_READ: a host's read of any register of BAR0 or BAR2. -/
def execRcFieldRead (bar2 : Bool) (off : Nat) (wide : Bool) (s : State) : Out := next (hostRead64 bar2 off wide s)

def execTimeLoRead (s : State) : Out := next (hostRead64 false 0x010 false s)

/-- JTAG_ACCESS through an open TAP (R382, R385, R387): a read clears no RC field and finds steward registers' contents; a
write to a steward register leaves the part's behaviour undefined. -/
def execJtagAccess (bar2 : Bool) (off : Nat) (value : Option Word) (s : State) : Out :=
  if !s.tapOpen || s.glb.mode == .off then next s
  else match value, bar2 with
    | none, true => next { s with glb.rdData := 0 }
    | none, false =>
      if stewardAt off then next (withFree (fun n s => { s with glb.rdData := (Config.stewardReg off n).toNat }) s)
      else next (latchTime off { s with glb.rdData := (readReg s off).toNat })
    | some v, true => next (match doorbellAt off with | some (r, head) => ringDoorbell r head v s | none => s)
    | some v, false => if stewardAt off then .fault .stewardWrite else next (writeReg .jtag off v s)

end Sys2Proof.Machine
end

