-- ==== Sys2Proof/Machine/Shares.lean ====
section
/-! DEFINITION. Sys2Proof/Machine/Shares.lean: INSTANCE_SHARE and the resume of a quiesced or frozen instance (R286, R289, R292). -/

namespace Sys2Proof.Machine

/-- Whether INSTANCE_SHARE with resume is accepted (R286). -/
def resumable (i : InstSt) : Bool :=
  match i.state with
  | .quiesced => !i.ring.stopped
  | .frozen => !i.saved
  | _ => false

/-- Writes the completions that a quiesce held, in ring order (R292). -/
def releaseHeld (v : Inst) (s : State) : State :=
  (s.ring (some v)).cmds.foldl (fun s c => match c.phase with | .held r => complete (some v) c.uid r s | _ => s) s

/-- The instance runs again, and its held commands go on from the point where they stopped (R286, R292). -/
def resumeInst (v : Inst) (s : State) : State := pumpReads (retryStaged v (releaseHeld v (runInst v s)))

/-- INSTANCE_SHARE. -/
def instanceShare (c : Cmd) (s : State) : State :=
  withTarget c (fun v s =>
    let flags := u8 c.desc 9
    if !reservedZero c.desc [(8, 2), (12, 4)] || !decide (flags < 8) || !decide (u32 c.desc 12 < 2 ^ 24) then mEnd c .badParam s
    else if (s.inst v).state = .unassigned then mEnd c .notReady s
    else if flags.testBit 2 && !resumable (s.inst v) then mEnd c .notReady s
    else
      let s := if flags.testBit 1 then setQuota v (u32 c.desc 12) s else s
      let n := u8 c.desc 8
      let s := if flags.testBit 0 then s.modInst v (fun i => { i with shareNext := n }) else s
      let s := if flags.testBit 2 then
          resumeInst v (if flags.testBit 0 then s.modInst v (fun i => { i with share := n }) else s)
        else s
      mOk c 0 0 0 s) s

def execInstanceShare (cid : Cid) (s : State) : Out := next (mgmtCmd cid 0x81 instanceShare s)

end Sys2Proof.Machine
end

