-- ==== Sys2Proof/Machine/Spdm.lean ====
section
/-! DEFINITION. Sys2Proof/Machine/Spdm.lean: the SPDM 1.2 responder (R345, R355, R360). The message formats are those of DMTF
DSP0274 1.2, which R355 names and does not repeat. PRESUMED (log entry 28). -/

namespace Sys2Proof.Machine

/-! ### Messages -/

/-- A response with its code and two parameters. -/
def spdmMsg (code p1 p2 : Nat) (body : Bytes) : Bytes := leBytes 1 0x12 ++ leBytes 1 code ++ leBytes 1 p1 ++ leBytes 1 p2 ++ body

/-- ERROR with a code. -/
def spdmError (code : Nat) : Bytes := spdmMsg 0x7F code 0 []

/-- Error codes. -/
def errInvalid : Nat := 0x01
def errBusy : Nat := 0x03
def errUnexpected : Nat := 0x04
def errUnsupported : Nat := 0x07
def errVersion : Nat := 0x41

/-- What the responder sends. -/
def respond (b : Bytes) (s : State) : State := { s with sec.response := b }

/-- Whether the always-on domain can answer at all. -/
def spdmPowered (s : State) : Bool := s.glb.mode != .off && s.glb.mode != .quench

/-- Event 5 of R331 has passed. -/
def spdmOpen (s : State) : Bool := s.glb.boot == .assembling || s.glb.boot == .running

/-- A request of the row's own code, in the stage that it needs: 0 none, 1 after GET_VERSION, 2 after GET_CAPABILITIES, 3 after
NEGOTIATE_ALGORITHMS. Before event 5 of R331 every request is answered Busy; in RETURNED only the first three are served. A
request other than GET_MEASUREMENTS ends the measurement transcript. -/
def serveSpdm (code stage : Nat) (req : Bytes) (f : State → State) (s : State) : State :=
  if !spdmPowered s || u8 req 1 != code then s
  else if !spdmOpen s then respond (spdmError errBusy) s
  else if s.sec.lifecycle = 4 && 3 ≤ stage then respond (spdmError errUnsupported) s
  else if code != 0x84 && u8 req 0 != 0x12 then respond (spdmError errVersion) s
  else if s.sec.spdmStage < stage then respond (spdmError errUnexpected) s
  else f (if code = 0xE0 then s else { s with sec.measLog := [] })

/-- Answers, and keeps request and response among those that agree version, capabilities and algorithms. -/
def answerVca (req rsp : Bytes) (s : State) : State := respond rsp { s with sec.vca := s.sec.vca ++ req ++ rsp }

/-- Answers, and keeps request and response in the transcript of CHALLENGE_AUTH. -/
def answerLogged (req rsp : Bytes) (s : State) : State := respond rsp { s with sec.transcript := s.sec.transcript ++ req ++ rsp }

/-! ### Version, capabilities, algorithms -/

/-- GET_VERSION: 1.2 only; everything agreed before is forgotten. -/
def getVersion (req : Bytes) (s : State) : State :=
  serveSpdm 0x84 0 req (fun s =>
    if u8 req 0 != 0x10 then respond (spdmError errVersion) s
    else
      let rsp := leBytes 1 0x10 ++ leBytes 1 0x04 ++ zeros 2 ++ [0, 1] ++ leBytes 2 0x1200
      answerVca (req.take 4) rsp { s with sec.spdmStage := 1, sec.vca := [], sec.transcript := [] }) s

def execGetVersion (request : Bytes) (s : State) : Out := next (getVersion request s)

/-- CERT_CAP, CHAL_CAP, and MEAS_CAP with signature. -/
def spdmCaps : Nat := 0x16

/-- The size of a transfer. -/
def spdmSize : Nat := 1024

/-- GET_CAPABILITIES. -/
def getCapabilities (req : Bytes) (s : State) : State :=
  serveSpdm 0xE1 1 req (fun s =>
    if req.length < 20 then respond (spdmError errInvalid) s
    else if s.sec.spdmStage != 1 then respond (spdmError errUnexpected) s
    else answerVca req (spdmMsg 0x61 0 0 ([0, Config.spdmCtExponent, 0, 0] ++ leBytes 4 spdmCaps ++ leBytes 4 spdmSize ++ leBytes 4 spdmSize))
      { s with sec.spdmStage := 2 }) s

def execGetCapabilities (request : Bytes) (s : State) : Out := next (getCapabilities request s)

/-- NEGOTIATE_ALGORITHMS: DMTF measurements, ECDSA P-384 and SHA-384, as far as the requester offers them. -/
def negotiateAlgorithms (req : Bytes) (s : State) : State :=
  serveSpdm 0xE3 2 req (fun s =>
    if req.length < 32 || u16 req 4 != req.length then respond (spdmError errInvalid) s
    else if s.sec.spdmStage != 2 then respond (spdmError errUnexpected) s
    else
      let meas := u8 req 6 % 2
      let asym := if (u32 req 8).testBit 7 then 0x80 else 0
      let hash := if (u32 req 12).testBit 1 then 0x02 else 0
      let rsp := spdmMsg 0x63 0 0 (leBytes 2 36 ++ leBytes 1 meas ++ [0] ++ leBytes 4 (if meas = 1 then 4 else 0) ++ leBytes 4 asym
        ++ leBytes 4 hash ++ zeros 16)
      answerVca req rsp { s with sec.spdmStage := 3 }) s

def execNegotiateAlgorithms (request : Bytes) (s : State) : Out := next (negotiateAlgorithms request s)

/-! ### Certificates -/

/-- The certificate chain of slot 0: length, root hash, certificates. -/
def spdmChain (s : State) : Bytes :=
  let certs := (certChain s).flatten
  leBytes 2 (52 + certs.length) ++ zeros 2 ++ Sha.sha384 Config.rootCert ++ certs

/-- GET_DIGESTS. -/
def getDigests (req : Bytes) (s : State) : State :=
  serveSpdm 0x81 3 req (fun s => answerLogged (req.take 4) (spdmMsg 0x01 0 1 (Sha.sha384 (spdmChain s))) s) s

def execGetDigests (request : Bytes) (s : State) : Out := next (getDigests request s)

/-- GET_CERTIFICATE of slot 0: a portion that fits one transfer. -/
def getCertificate (req : Bytes) (s : State) : State :=
  serveSpdm 0x82 3 req (fun s =>
    let chain := spdmChain s
    let off := u16 req 4
    if req.length < 8 || u8 req 2 % 16 != 0 || chain.length ≤ off then respond (spdmError errInvalid) s
    else
      let n := min (min (u16 req 6) (chain.length - off)) (spdmSize - 8)
      answerLogged (req.take 8) (spdmMsg 0x02 0 0 (leBytes 2 n ++ leBytes 2 (chain.length - off - n) ++ slice chain off n)) s) s

def execGetCertificate (request : Bytes) (s : State) : Out := next (getCertificate request s)

/-! ### Measurements -/

/-- The value of measurement `i` (R355). -/
def measurementValue (s : State) (i : Nat) : Bytes :=
  match i with
  | 1 => leBytes 4 Config.romVersion.toNat ++ leBytes 1 s.sec.lifecycle ++ leBytes 1 s.sec.floor
  | 2 => padTo 48 s.sec.image.motionDigest
  | 3 => padTo 48 s.sec.image.datapathDigest
  | 4 => padTo 48 s.sec.profileDigest
  | 5 => leBytes 1 s.sec.image.svn ++ leBytes 4 s.sec.image.fwVersion
  | _ => Sha.sha384 (ingotEntry s (ingotHead s))

/-- A measurement block in the DMTF form. -/
def measurementBlock (s : State) (i : Nat) : Bytes :=
  let v := measurementValue s i
  leBytes 1 i ++ [1] ++ leBytes 2 (v.length + 3) ++ [Config.measurementType i] ++ leBytes 2 v.length ++ v

/-- Measurement indexes. -/
def measurementIds : List Nat := [1, 2, 3, 4, 5, 6]

/-- A signature of SPDM 1.2 under the alias key over a transcript. -/
def spdmSign (s : State) (context : String) (transcript : Bytes) : Bytes :=
  let prefix_ := (List.replicate 4 (ascii "dmtf-spdm-v1.2.*")).flatten ++ zeros (36 - context.length) ++ ascii context
  match s.sec.aliasPriv with
  | some d => Ecc.sign d (prefix_ ++ Sha.sha384 transcript)
  | none => zeros 96

/-- CHALLENGE: CHALLENGE_AUTH, signed over the agreement, the digest and certificate messages since the last one, and the
challenge itself. -/
def challengeAuth (req : Bytes) (s : State) : State :=
  serveSpdm 0x83 3 req (fun s =>
    let kind := u8 req 3
    if req.length < 36 || u8 req 2 % 16 != 0 || !(kind = 0 || kind = 1 || kind = 0xFF) then respond (spdmError errInvalid) s
    else
      let sum := if kind = 0 then [] else Sha.sha384 (measurementIds.flatMap (measurementBlock s))
      let nonce := draw s 32
      let s := drawn 32 s
      let body := spdmMsg 0x03 0 1 (Sha.sha384 (spdmChain s) ++ nonce ++ sum ++ zeros 2)
      let sig := spdmSign s "responder-challenge_auth signing" (s.sec.vca ++ s.sec.transcript ++ req.take 36 ++ body)
      respond (body ++ sig) { s with sec.transcript := [] }) s

def execChallenge (request : Bytes) (s : State) : Out := next (challengeAuth request s)

/-- GET_MEASUREMENTS: the number of measurements, one, or all; signed when asked, over the measurement transcript. -/
def getMeasurements (req : Bytes) (s : State) : State :=
  serveSpdm 0xE0 3 req (fun s =>
    let signed_ := (u8 req 2).testBit 0
    let op := u8 req 3
    let need := if signed_ then 37 else 4
    if req.length < need || !(op ≤ 6 || op = 0xFF) || (signed_ && u8 req 36 % 16 != 0) then respond (spdmError errInvalid) { s with sec.measLog := [] }
    else
      let ids := if op = 0 then [] else if op = 0xFF then measurementIds else [op]
      let record := ids.flatMap (measurementBlock s)
      let nonce := draw s 32
      let s := drawn 32 s
      let body := spdmMsg 0x60 (if op = 0 then 6 else 0) 0
        (leBytes 1 ids.length ++ leBytes 3 record.length ++ record ++ nonce ++ zeros 2)
      let log := s.sec.measLog ++ req.take need ++ body
      if signed_ then respond (body ++ spdmSign s "responder-measurements signing" (s.sec.vca ++ log)) { s with sec.measLog := [] }
      else respond body { s with sec.measLog := log }) s

def execGetMeasurements (request : Bytes) (s : State) : Out := next (getMeasurements request s)

/-! ### The vendor's request -/

/-- VENDOR_DEFINED_REQUEST of the Bibemus vendor ID, opcode 0x01 and an index: head, oldest index, and the entry at
max(index, oldest). An index beyond the head is invalid. -/
def vendorRequest (req : Bytes) (s : State) : State :=
  serveSpdm 0xFE 3 req (fun s =>
    let id := Config.vendorId.toNat
    let i := max (u32 req 12) (ingotOldest s)
    if req.length < 16 || u16 req 4 != 3 || u8 req 6 != 2 || u16 req 7 != id || u16 req 9 != 5 || u8 req 11 != 1
        || s.sec.ingot.isEmpty || ingotHead s < i then respond (spdmError errInvalid) s
    else
      respond (spdmMsg 0x7E 0 0 (leBytes 2 3 ++ leBytes 1 2 ++ leBytes 2 id ++ leBytes 2 392
        ++ leBytes 4 (ingotHead s) ++ leBytes 4 (ingotOldest s) ++ ingotEntry s i)) s) s

def execVendorDefinedRequest (request : Bytes) (s : State) : Out := next (vendorRequest request s)

/-- SET_ENDPOINT_ID: the bus owner assigns the endpoint ID; 0x00 and 0xFF name no endpoint. -/
def setEndpointId (eid : BitVec 8) (s : State) : State :=
  if !spdmPowered s || eid = 0 || eid = 0xFF then s else { s with sec.eid := eid.toNat }

def execSetEndpointId (eid : BitVec 8) (s : State) : Out := next (setEndpointId eid s)

end Sys2Proof.Machine
end

