-- ==== Sys2Proof/Machine/Dispatch.lean ====
section
/-! DEFINITION. Sys2Proof/Machine/Dispatch.lean: the meaning of each command, arm by arm. -/

namespace Sys2Proof.Machine

/-- The command's effect on everything but the queue. -/
def exec (i : Instr) (s : State) : Host.Outcome State Fault Refusal :=
  match i with
  | .openStream v cid => Sys2Proof.Machine.execOpenStream v cid s
  | .closeStream v cid => Sys2Proof.Machine.execCloseStream v cid s
  | .writeRecords v cid bursts => Sys2Proof.Machine.execWriteRecords v cid bursts s
  | .streamAppend v cid bursts => Sys2Proof.Machine.execStreamAppend v cid bursts s
  | .writeMark v cid => Sys2Proof.Machine.execWriteMark v cid s
  | .sync v cid => Sys2Proof.Machine.execSync v cid s
  | .readRecords v cid => Sys2Proof.Machine.execReadRecords v cid s
  | .locate v cid point => Sys2Proof.Machine.execLocate v cid point s
  | .space v cid point => Sys2Proof.Machine.execSpace v cid point s
  | .readPosition v cid => Sys2Proof.Machine.execReadPosition v cid s
  | .slotBind v cid => Sys2Proof.Machine.execSlotBind v cid s
  | .slotRekey v cid => Sys2Proof.Machine.execSlotRekey v cid s
  | .getStats v cid => Sys2Proof.Machine.execGetStats v cid s
  | .nop v cid => Sys2Proof.Machine.execNop v cid s
  | .invalidOpcode ring cid => Sys2Proof.Machine.execInvalidOpcode ring cid s
  | .instanceCreate cid => Sys2Proof.Machine.execInstanceCreate cid s
  | .instanceShare cid => Sys2Proof.Machine.execInstanceShare cid s
  | .instanceQuiesce cid => Sys2Proof.Machine.execInstanceQuiesce cid s
  | .instanceReset cid => Sys2Proof.Machine.execInstanceReset cid s
  | .instanceFreeze cid => Sys2Proof.Machine.execInstanceFreeze cid s
  | .instanceSave cid => Sys2Proof.Machine.execInstanceSave cid s
  | .instanceRestore cid => Sys2Proof.Machine.execInstanceRestore cid s
  | .instanceDestroy cid => Sys2Proof.Machine.execInstanceDestroy cid s
  | .rootImportGetPub cid => Sys2Proof.Machine.execRootImportGetPub cid s
  | .rootImportImport cid => Sys2Proof.Machine.execRootImportImport cid s
  | .rootErase cid => Sys2Proof.Machine.execRootErase cid s
  | .cartLoad cid view => Sys2Proof.Machine.execCartLoad cid view s
  | .cartUnload cid => Sys2Proof.Machine.execCartUnload cid s
  | .cartCalibrate cid results => Sys2Proof.Machine.execCartCalibrate cid results s
  | .chainStatus cid => Sys2Proof.Machine.execChainStatus cid s
  | .raitGroupSet cid => Sys2Proof.Machine.execRaitGroupSet cid s
  | .raitGroupClear cid => Sys2Proof.Machine.execRaitGroupClear cid s
  | .logReadEntries cid => Sys2Proof.Machine.execLogReadEntries cid s
  | .logReadCertificates cid => Sys2Proof.Machine.execLogReadCertificates cid s
  | .serviceChallenge cid => Sys2Proof.Machine.execServiceChallenge cid s
  | .serviceResponse cid => Sys2Proof.Machine.execServiceResponse cid s
  | .fwStageWrite cid => Sys2Proof.Machine.execFwStageWrite cid s
  | .fwStageFinish cid => Sys2Proof.Machine.execFwStageFinish cid s
  | .fwStageAbandon cid => Sys2Proof.Machine.execFwStageAbandon cid s
  | .fwActivateNext cid => Sys2Proof.Machine.execFwActivateNext cid s
  | .fwActivateNow cid => Sys2Proof.Machine.execFwActivateNow cid s
  | .fwActivateCommitSvn cid => Sys2Proof.Machine.execFwActivateCommitSvn cid s
  | .fwActivateCancel cid => Sys2Proof.Machine.execFwActivateCancel cid s
  | .bufferFillStatus cid => Sys2Proof.Machine.execBufferFillStatus cid s
  | .hifDbSqTail page value stores => Sys2Proof.Machine.execHifDbSqTail page value stores s
  | .hifDbCqHead page value => Sys2Proof.Machine.execHifDbCqHead page value s
  | .descriptorFetch ring => Sys2Proof.Machine.execDescriptorFetch ring s
  | .irqTimerExpiry ring => Sys2Proof.Machine.execIrqTimerExpiry ring s
  | .pcieLinkUp speed width => Sys2Proof.Machine.execPcieLinkUp speed width s
  | .hostFault fault => Sys2Proof.Machine.execHostFault fault s
  | .mqEnable => Sys2Proof.Machine.execMqEnable s
  | .mqDisable => Sys2Proof.Machine.execMqDisable s
  | .eventRingEnable => Sys2Proof.Machine.execEventRingEnable s
  | .eventRingDisable => Sys2Proof.Machine.execEventRingDisable s
  | .evtRingHeadWrite value => Sys2Proof.Machine.execEvtRingHeadWrite value s
  | .evtLock => Sys2Proof.Machine.execEvtLock s
  | .panLock by_ => Sys2Proof.Machine.execPanLock by_ s
  | .quenchCfgLock value => Sys2Proof.Machine.execQuenchCfgLock value s
  | .writeSetCommit c bitsLeft => Sys2Proof.Machine.execWriteSetCommit c bitsLeft s
  | .writeCommitAll bitsLeft => Sys2Proof.Machine.execWriteCommitAll bitsLeft s
  | .readSetCommit c bitsLeft => Sys2Proof.Machine.execReadSetCommit c bitsLeft s
  | .readCommitAll bitsLeft => Sys2Proof.Machine.execReadCommitAll bitsLeft s
  | .coefWrite by_ l k sec c value => Sys2Proof.Machine.execCoefWrite by_ l k sec c value s
  | .coefBankSwap by_ l => Sys2Proof.Machine.execCoefBankSwap by_ l s
  | .loopEnable by_ mask => Sys2Proof.Machine.execLoopEnable by_ mask s
  | .motionStop by_ => Sys2Proof.Machine.execMotionStop by_ s
  | .motionBrake by_ => Sys2Proof.Machine.execMotionBrake by_ s
  | .functionReset flr => Sys2Proof.Machine.execFunctionReset flr s
  | .warmReset => Sys2Proof.Machine.execWarmReset s
  | .coldResetRequest => Sys2Proof.Machine.execColdResetRequest s
  | .perstAssert => Sys2Proof.Machine.execPerstAssert s
  | .stewardWatchdog => Sys2Proof.Machine.execStewardWatchdog s
  | .toField => Sys2Proof.Machine.execToField s
  | .serviceClose => Sys2Proof.Machine.execServiceClose s
  | .katStart pass => Sys2Proof.Machine.execKatStart pass s
  | .fillRestart => Sys2Proof.Machine.execFillRestart s
  | .serviceDescriptorPost => Sys2Proof.Machine.execServiceDescriptorPost s
  | .retireClear => Sys2Proof.Machine.execRetireClear s
  | .reassemble => Sys2Proof.Machine.execReassemble s
  | .countModeWrite by_ p on => Sys2Proof.Machine.execCountModeWrite by_ p on s
  | .registerWrite bar2 off value high => Sys2Proof.Machine.execRegisterWrite bar2 off value high s
  | .malformedAccess bar2 off size write => Sys2Proof.Machine.execMalformedAccess bar2 off size write s
  | .rcFieldRead bar2 off wide => Sys2Proof.Machine.execRcFieldRead bar2 off wide s
  | .timeLoRead => Sys2Proof.Machine.execTimeLoRead s
  | .copy desc bursts => Sys2Proof.Machine.execCopy desc bursts s
  | .fill desc bursts => Sys2Proof.Machine.execFill desc bursts s
  | .compare desc bursts => Sys2Proof.Machine.execCompare desc bursts s
  | .gather desc bursts => Sys2Proof.Machine.execGather desc bursts s
  | .scatter desc bursts => Sys2Proof.Machine.execScatter desc bursts s
  | .requestLine l => Sys2Proof.Machine.execRequestLine l s
  | .burstDone e work check => Sys2Proof.Machine.execBurstDone e work check s
  | .alloc requester size charge wait badLink => Sys2Proof.Machine.execAlloc requester size charge wait badLink s
  | .free requester handle => Sys2Proof.Machine.execFree requester handle s
  | .handoff requester handle dest => Sys2Proof.Machine.execHandoff requester handle dest s
  | .acquire requester handle => Sys2Proof.Machine.execAcquire requester handle s
  | .release requester handle => Sys2Proof.Machine.execRelease requester handle s
  | .cancel requester => Sys2Proof.Machine.execCancel requester s
  | .panListRebuild p => Sys2Proof.Machine.execPanListRebuild p s
  | .bufferRead ba errs spares => Sys2Proof.Machine.execBufferRead ba errs spares s
  | .bufferWrite ba data errs spares => Sys2Proof.Machine.execBufferWrite ba data errs spares s
  | .rakeVisit errs spares => Sys2Proof.Machine.execRakeVisit errs spares s
  | .memdevEventPoll d lines => Sys2Proof.Machine.execMemdevEventPoll d lines s
  | .fillChunkDone => Sys2Proof.Machine.execFillChunkDone s
  | .cxlPerstRelease => Sys2Proof.Machine.execCxlPerstRelease s
  | .cxlLinkUp d gts width mem singleLd => Sys2Proof.Machine.execCxlLinkUp d gts width mem singleLd s
  | .memoryActive d gib tagOk mediaReady => Sys2Proof.Machine.execMemoryActive d gib tagOk mediaReady s
  | .bringupTimeout d => Sys2Proof.Machine.execBringupTimeout d s
  | .memdevLost d cause => Sys2Proof.Machine.execMemdevLost d cause s
  | .sliceCodeDone n check => Sys2Proof.Machine.execSliceCodeDone n check s
  | .cipherSealDone e check => Sys2Proof.Machine.execCipherSealDone e check s
  | .cipherOpenDone e check => Sys2Proof.Machine.execCipherOpenDone e check s
  | .sliceDecompressDone n check => Sys2Proof.Machine.execSliceDecompressDone n check s
  | .datasetIdleTimeout v no => Sys2Proof.Machine.execDatasetIdleTimeout v no s
  | .slotDecision => Sys2Proof.Machine.execSlotDecision s
  | .tierFix rowErrors => Sys2Proof.Machine.execTierFix rowErrors s
  | .writeFifoUnderrun c => Sys2Proof.Machine.execWriteFifoUnderrun c s
  | .cwoJudged c => Sys2Proof.Machine.execCwoJudged c s
  | .fenceTimeout => Sys2Proof.Machine.execFenceTimeout s
  | .maxWaitExpiry => Sys2Proof.Machine.execMaxWaitExpiry s
  | .tapeRestart => Sys2Proof.Machine.execTapeRestart s
  | .positionReached wrap => Sys2Proof.Machine.execPositionReached wrap s
  | .rampEnd => Sys2Proof.Machine.execRampEnd s
  | .paceWindowEnd counts waited => Sys2Proof.Machine.execPaceWindowEnd counts waited s
  | .servoFrameBoundary line lx => Sys2Proof.Machine.execServoFrameBoundary line lx s
  | .timingUpdate c samples sum phiA phiB => Sys2Proof.Machine.execTimingUpdate c samples sum phiA phiB s
  | .muStep c => Sys2Proof.Machine.execMuStep c s
  | .syncWindowClose c tone => Sys2Proof.Machine.execSyncWindowClose c tone s
  | .resyncWindowClose c j => Sys2Proof.Machine.execResyncWindowClose c j s
  | .headerDecodeDone c => Sys2Proof.Machine.execHeaderDecodeDone c s
  | .c1DecodeDone k rowOk => Sys2Proof.Machine.execC1DecodeDone k rowOk s
  | .sampleOverwrite c => Sys2Proof.Machine.execSampleOverwrite c s
  | .ctLost b => Sys2Proof.Machine.execCtLost b s
  | .ctRegained b => Sys2Proof.Machine.execCtRegained b s
  | .holdoverEnd => Sys2Proof.Machine.execHoldoverEnd s
  | .synthLock z => Sys2Proof.Machine.execSynthLock z s
  | .datasetRecovery dsn => Sys2Proof.Machine.execDatasetRecovery dsn s
  | .readAheadRestart => Sys2Proof.Machine.execReadAheadRestart s
  | .servoFrameDecided f => Sys2Proof.Machine.execServoFrameDecided f s
  | .frameMissed => Sys2Proof.Machine.execFrameMissed s
  | .l3Sample => Sys2Proof.Machine.execL3Sample s
  | .mlsync => Sys2Proof.Machine.execMlsync s
  | .inFrame frame => Sys2Proof.Machine.execInFrame frame s
  | .inFrameAbsent => Sys2Proof.Machine.execInFrameAbsent s
  | .l1Sample pos => Sys2Proof.Machine.execL1Sample pos s
  | .tapeStopped => Sys2Proof.Machine.execTapeStopped s
  | .pafltAssert k => Sys2Proof.Machine.execPafltAssert k s
  | .vddAonRise => Sys2Proof.Machine.execVddAonRise s
  | .powerOnResetRelease => Sys2Proof.Machine.execPowerOnResetRelease s
  | .rngStartupPass => Sys2Proof.Machine.execRngStartupPass s
  | .rngContinuousFail tests => Sys2Proof.Machine.execRngContinuousFail tests s
  | .bootImagesLoaded f => Sys2Proof.Machine.execBootImagesLoaded f s
  | .bootEntrySigned => Sys2Proof.Machine.execBootEntrySigned s
  | .ringLinkTrained q lanes => Sys2Proof.Machine.execRingLinkTrained q lanes s
  | .assemblyEnd => Sys2Proof.Machine.execAssemblyEnd s
  | .quenchDetect cause vsense window vholdEnd braking => Sys2Proof.Machine.execQuenchDetect cause vsense window vholdEnd braking s
  | .quenchPowerOff => Sys2Proof.Machine.execQuenchPowerOff s
  | .quenchReset vsense pwrfailHigh => Sys2Proof.Machine.execQuenchReset vsense pwrfailHigh s
  | .thermtrip => Sys2Proof.Machine.execThermtrip s
  | .leakPeriod site => Sys2Proof.Machine.execLeakPeriod site s
  | .pewterUnload => Sys2Proof.Machine.execPewterUnload s
  | .eventRecordWrite => Sys2Proof.Machine.execEventRecordWrite s
  | .eventIrqTimer => Sys2Proof.Machine.execEventIrqTimer s
  | .pendingCopyApply v k => Sys2Proof.Machine.execPendingCopyApply v k s
  | .quiesceComplete v => Sys2Proof.Machine.execQuiesceComplete v s
  | .challengeLapse => Sys2Proof.Machine.execChallengeLapse s
  | .dataRow q frame lanes => Sys2Proof.Machine.execDataRow q frame lanes s
  | .readRow q frame lanes => Sys2Proof.Machine.execReadRow q frame lanes s
  | .ack q frame lanes => Sys2Proof.Machine.execAck q frame lanes s
  | .nak q frame lanes => Sys2Proof.Machine.execNak q frame lanes s
  | .beacon q frame lanes => Sys2Proof.Machine.execBeacon q frame lanes s
  | .token q frame lanes => Sys2Proof.Machine.execToken q frame lanes s
  | .attest q frame lanes => Sys2Proof.Machine.execAttest q frame lanes s
  | .roster q frame lanes => Sys2Proof.Machine.execRoster q frame lanes s
  | .topology q frame lanes => Sys2Proof.Machine.execTopology q frame lanes s
  | .join q frame lanes => Sys2Proof.Machine.execJoin q frame lanes s
  | .joinAck q frame lanes => Sys2Proof.Machine.execJoinAck q frame lanes s
  | .groupSerial q frame lanes => Sys2Proof.Machine.execGroupSerial q frame lanes s
  | .groupStart q frame lanes => Sys2Proof.Machine.execGroupStart q frame lanes s
  | .payloadOk q frame lanes => Sys2Proof.Machine.execPayloadOk q frame lanes s
  | .stripeCommit q frame lanes => Sys2Proof.Machine.execStripeCommit q frame lanes s
  | .xoff q frame lanes => Sys2Proof.Machine.execXoff q frame lanes s
  | .xon q frame lanes => Sys2Proof.Machine.execXon q frame lanes s
  | .sessionEnd q frame lanes => Sys2Proof.Machine.execSessionEnd q frame lanes s
  | .readReq q frame lanes => Sys2Proof.Machine.execReadReq q frame lanes s
  | .positionLost q frame lanes => Sys2Proof.Machine.execPositionLost q frame lanes s
  | .groupFail q frame lanes => Sys2Proof.Machine.execGroupFail q frame lanes s
  | .ackTimeout q => Sys2Proof.Machine.execAckTimeout q s
  | .ackTimer q => Sys2Proof.Machine.execAckTimer q s
  | .linkDown q => Sys2Proof.Machine.execLinkDown q s
  | .laneRetrainDone q lanes => Sys2Proof.Machine.execLaneRetrainDone q lanes s
  | .payloadConfirmTimeout position stripe => Sys2Proof.Machine.execPayloadConfirmTimeout position stripe s
  | .readRowTimeout position stripe row => Sys2Proof.Machine.execReadRowTimeout position stripe row s
  | .getVersion request => Sys2Proof.Machine.execGetVersion request s
  | .getCapabilities request => Sys2Proof.Machine.execGetCapabilities request s
  | .negotiateAlgorithms request => Sys2Proof.Machine.execNegotiateAlgorithms request s
  | .getDigests request => Sys2Proof.Machine.execGetDigests request s
  | .getCertificate request => Sys2Proof.Machine.execGetCertificate request s
  | .challenge request => Sys2Proof.Machine.execChallenge request s
  | .getMeasurements request => Sys2Proof.Machine.execGetMeasurements request s
  | .vendorDefinedRequest request => Sys2Proof.Machine.execVendorDefinedRequest request s
  | .perstDeassert => Sys2Proof.Machine.execPerstDeassert s
  | .pcieLinkDown resets => Sys2Proof.Machine.execPcieLinkDown resets s
  | .vddAonFail => Sys2Proof.Machine.execVddAonFail s
  | .msixUnmask x => Sys2Proof.Machine.execMsixUnmask x s
  | .atsInvalidation pasid page => Sys2Proof.Machine.execAtsInvalidation pasid page s
  | .jtagAccess bar2 off value => Sys2Proof.Machine.execJtagAccess bar2 off value s
  | .pafltDeassert k => Sys2Proof.Machine.execPafltDeassert k s
  | .setEndpointId eid => Sys2Proof.Machine.execSetEndpointId eid s

end Sys2Proof.Machine
end

