-- ==== Sys2Proof/Machine/Idle.lean ====
section
/-! DEFINITION. Sys2Proof/Machine/Idle.lean: what passes when no command waits. -/

namespace Sys2Proof.Machine

/-- Device time in ns, 64 bits (GLB_TIME_LO and GLB_TIME_HI). -/
def tickTime (t : Nat) : Nat := (t + 20) % 2 ^ 64

/-- One period of MREFCLK, 20 ns, passes; a reassembly that waited begins when it may (R310), and doorbells written during
a start-up that ended in PEWTER are acted on. In OFF nothing runs. DESIGN CHOICE (log entry 2): the table has no row for a tick; the events
that time brings on are rows. -/
def idle (s : State) : State :=
  if s.glb.mode = .off then s else
  let s := tryReassemble { s with glb := { s.glb with time := tickTime s.glb.time } }
  if s.glb.mode.served && !s.hif.early.isEmpty then replayDoorbells s else s

end Sys2Proof.Machine
end

