-- ==== Sys2Proof/Safety.lean ====
section
/-! DEFINITION. Sys2Proof/Safety.lean: what counts as a safe step and a safe run. -/

namespace Sys2Proof.Safety

open Sys2Proof.Machine

/-- A step that answers a next state. -/
def StepSafe (s : State) : Prop := ∃ t, step s = .next t

/-- `k` steps that all answer a next state. -/
def RunSafe : Nat → State → Prop
  | 0, _ => True
  | k + 1, s => ∃ t, step s = .next t ∧ RunSafe k t

/-- What never goes back in the enclave, between a moment `a` and a later one `b`: the anti-rollback floor is in fuses (R359),
the lifecycle only advances, to RETURNED at the last (R360), and the Ingot log only gains entries at its end and loses its oldest
(R351). -/
def OneWay (a b : Sec) : Prop :=
  a.floor ≤ b.floor ∧ a.lifecycle ≤ b.lifecycle ∧ b.lifecycle ≤ 4
    ∧ ∃ new k, k ≤ (a.ingot ++ new).length ∧ b.ingot = (a.ingot ++ new).drop k

end Sys2Proof.Safety
end

