-- ==== Sys2Proof/Certificates/Slice0/Obligations.lean ====
section
/-! DEFINITION. Sys2Proof/Certificates/Slice0/Obligations.lean: the statements for the provers. `Gives o P` says that an outcome is a
next state of which `P` holds. A statement that says what a command does gives the conditions under which the command has its own
effect, and the state after it: as `s` with the fields it writes where that is short, which is its frame too. -/

open Sys2Proof Sys2Proof.Machine Sys2Proof.Safety

namespace Sys2Proof.Claims

/-- The outcome is a next state of which `P` holds. -/
def Gives (o : Out) (P : State → Prop) : Prop := ∃ t, o = .next t ∧ P t

/-- The management command `c` is taken up by a row of opcode `op` (R261, R280), in a mode other than PEWTER. -/
def Served (s : State) (cid : Cid) (op : Nat) (c : Cmd) : Prop := startableMgmt s cid op = some c ∧ s.glb.mode ≠ .pewter

/-- Completion OK of an instance's command, with results. -/
def okFor (v : Inst) (c : Cmd) (r0 r1 r2 : Nat) (s : State) : State := complete (some v) c.uid { status := .ok, r0 := r0, r1 := r1, r2 := r2 } s

/-- What a device reset of a kind and cause leaves (R326 to R330): RESET, no commands, streams, blocks, cartridge or sessions, every
instance as at a cold reset, the pan table cleared (but not what stands in the buffers), the gate shut; and what it keeps: sequence state,
log, floor, lifecycle, image directory. -/
def ResetTaken (kind cause : Nat) (s t : State) : Prop :=
  t.glb.mode = .reset ∧ t.glb.rstKind = kind ∧ t.glb.rstCause = cause ∧ t.insts = State.reset.insts ∧ t.hif = State.reset.hif ∧ t.msix = State.reset.msix
    ∧ t.streams = [] ∧ t.blks = [] ∧ t.cart = State.reset.cart ∧ t.pans = { State.reset.pans with written := t.pans.written, overlaid := t.pans.overlaid } ∧ t.evt = State.reset.evt ∧ t.codec = State.reset.codec
    ∧ t.sec.gateOpen = false ∧ t.sec.challenge = none ∧ t.sec.rngOk = false ∧ t.sec.aliasPriv = none ∧ t.sec.lifecycle = s.sec.lifecycle
    ∧ t.sec.floor = s.sec.floor ∧ t.sec.ingot = s.sec.ingot ∧ t.sec.dir0 = s.sec.dir0 ∧ t.sec.dir1 = s.sec.dir1 ∧ t.seqs = s.seqs
    ∧ t.freeCtr = s.freeCtr ∧ t.pending = s.pending

/-- Events that a unit holds or counts: the records of its FIFO with their repeats, and the losses. -/
def eventsKnown (u : Evt) : Nat := (u.fifo.map (fun r => r.rep + 1)).sum + (u.loss.toList.map (·.count)).sum

end Sys2Proof.Claims

open Sys2Proof.Claims

/-! ### The machine as a whole -/

/-- The command at the front of the queue acts, on the state with the rest of the queue. -/
def Obligations.StepRunsFrontCommand : Prop :=
  ∀ (c : Instr) (rest : List Instr) (s : State), step { s with pending := c :: rest } = exec c { s with pending := rest }

/-- DESIGN CHOICE (log entry 2): with no command waiting, one period of MREFCLK passes (GLB_TIME counts in ns, R9), and nothing
else happens while no reassembly and no early doorbell waits; in OFF nothing runs. -/
def Obligations.IdleStepCountsTime : Prop :=
  ∀ s : State, s.pending = [] →
    (s.glb.mode = .off → step s = .next s)
    ∧ (s.glb.mode ≠ .off → s.chn.reassemble = false → s.chn.pendingJoin = false → s.hif.early = [] →
        step s = .next { s with glb.time := (s.glb.time + 20) % 2 ^ 64 })

/-- Every step takes at most the command at the front: the commands behind it wait as before, in their order, and no effect of a
command puts another into the queue. Host memory stays canonical. -/
def Obligations.StepKeepsQueueAndMemory : Prop :=
  ∀ s t : State, Memory.wf s.hostMem = true → step s = .next t → t.pending = s.pending.tail ∧ Memory.wf t.hostMem = true

/-- No step lowers the anti-rollback floor (R359), moves the lifecycle back or past RETURNED (R360), or changes the Ingot log other
than by entries at its end and the loss of its oldest (R351). -/
def Obligations.EnclaveNeverGoesBack : Prop :=
  ∀ s t : State, s.sec.lifecycle ≤ 4 → step s = .next t → OneWay s.sec t.sec

/-- Every command answers a next state in every state, but for a JTAG write of a steward register, which R382 leaves undefined. -/
def Obligations.OnlyStewardWritesStop : Prop :=
  ∀ (c : Instr) (s : State),
    (∃ t, exec c s = .next t) ∨ ∃ off value, c = .jtagAccess false off (some value) ∧ stewardAt off = true ∧ exec c s = .fault .stewardWrite

/-! ### Commands of an instance ring (R264 to R271, R277 to R280) -/

/-- A command that starts (R280), well formed: NOP completes OK (R268); GET_STATS writes the 64-byte statistics block (R271);
READ_POSITION answers the logical position of a read stream (R270); an unknown opcode ends with BAD_OPCODE (R268). Nothing else changes. -/
def Obligations.InstanceQueriesComplete : Prop :=
  ∀ (v : Inst) (cid : Cid) (c : Cmd) (s : State),
    (startable s v cid 0x41 = some c → reservedZero c.desc [] = true → c.target = 0xFFFF →
      exec (.nop v cid) s = .next (okFor v c 0 0 0 s))
    ∧ (startable s v cid 0x40 = some c → reservedZero c.desc [(8, 8)] = true → c.target = 0xFFFF → u64 c.desc 8 % 64 = 0 →
        exec (.getStats v cid) s = .next (okFor v c 0 0 0 (hostWrite ((s.inst v).cfg.pasid + 1) (u64 c.desc 8) (s.inst v).stats.bytes s)))
    ∧ (∀ x, startable s v cid 0x23 = some c → reservedZero c.desc [] = true → s.openStream? v c.target = some x → x.cut = none →
        x.dir = .read → exec (.readPosition v cid) s = .next (okFor v c x.rd.records x.rd.marks x.rd.dsn s))
    ∧ (findStartable cid.toNat [] (s.ring (some v)).cmds = some c → (s.inst v).state = .active → s.glb.mode.served = true →
        c.opcode ∉ [0x01, 0x02, 0x10, 0x11, 0x12, 0x13, 0x20, 0x21, 0x22, 0x23, 0x30, 0x31, 0x40, 0x41] →
        exec (.invalidOpcode (some v) cid) s = .next (completeSt (some v) c.uid .badOpcode s))

/-- OPEN_STREAM of a read or an FF2 stream under the checks of R269 (an FF2 stream needs no cartridge): a new stream context, of the
number, direction, tag, partition and slot that the descriptor names, joins the others, the command completes OK with zeros (R270), and
nothing else changes; on a cartridge whose session ends, or that a CART_UNLOAD or CART_CALIBRATE holds, it waits (R422). -/
def Sys2Proof.Claims.OpenStreamAddsStream : Prop :=
  ∀ (v : Inst) (cid : Cid) (c : Cmd) (s : State),
    startable s v cid 0x01 = some c → openFormFault s v c (openParams c.desc) = none →
    ((u8 c.desc 14 = 2 ∧ openFf2Fault s v (openParams c.desc) = none
      ∨ u8 c.desc 14 = 1 ∧ sessionEnding s = false ∧ cartBusy s = false ∧ openTapeFault s v (openParams c.desc) = none) →
      ∃ x : Machine.Stream, x.sid = s.nextId ∧ x.v = v ∧ x.no = c.target ∧ x.tag = u16 c.desc 8 ∧ x.part = u8 c.desc 10
        ∧ x.slot = slotOf (u8 c.desc 11) ∧ x.dir = (if u8 c.desc 14 = 2 then .ff2 else .read) ∧ x.ended = false ∧ x.cut = none
        ∧ exec (.openStream v cid) s = .next (okFor v c 0 0 0 { s with streams := s.streams ++ [x], nextId := s.nextId + 1 }))
    ∧ (u8 c.desc 14 ≠ 2 → s.glb.mode.onTape = true → (sessionEnding s || cartBusy s) = true → exec (.openStream v cid) s = .next s)

/-- OPEN_STREAM for append, under the checks of R269, adds the stream and answers the records and filemarks of its tag on tape (R270).
The first append stream starts a write session (R56), whose number is one above the highest held, or, in the partition of an active RAIT
group, the group's (R311); it is placed at the end of data. Where a session stands, the stream joins it. Nothing else changes. -/
def Sys2Proof.Claims.OpenAppendStartsSession : Prop :=
  ∀ (v : Inst) (cid : Cid) (c : Cmd) (s : State),
    startable s v cid 0x01 = some c → openFormFault s v c (openParams c.desc) = none → u8 c.desc 14 = 0 →
    sessionEnding s = false → cartBusy s = false → openTapeFault s v (openParams c.desc) = none →
    ∃ (x : Machine.Stream) (f : Fmt), x.sid = s.nextId ∧ x.v = v ∧ x.no = c.target ∧ x.dir = .append ∧ x.tag = u16 c.desc 8
      ∧ x.part = u8 c.desc 10 ∧ x.slot = slotOf (u8 c.desc 11) ∧ (x.recordsTotal, x.marksTotal) = tapeCounts { s with fmt := f } x.part x.tag
      ∧ exec (.openStream v cid) s
          = .next (okFor v c x.recordsTotal x.marksTotal 0 { s with fmt := f, streams := s.streams ++ [x], nextId := s.nextId + 1 })
      ∧ (s.fmt.sess.isSome = true → f = s.fmt)
      ∧ (s.fmt.sess = none → groupPart s x.part = false →
          f.sess = some { part := x.part, session := highestSession s x.part + 1 } ∧ f.nextDsn = (s.dirEntry x.part).eodDsn
            ∧ (f.wrap, f.bit) = s.eodPlace x.part)
      ∧ (s.fmt.sess = none → groupPart s x.part = true →
          f.sess = some { part := x.part, session := s.chn.grp.session } ∧ f.nextDsn = s.chn.grp.s0)

/-- Write commands that start (R280) on a well-formed descriptor and an open append stream that is not cut: WRITE_RECORDS and
STREAM_APPEND run, with the first segment of the list fetched and checked (R246, R266, R277) and as many bursts moved as the row says; a
CLOSE_STREAM or SYNC whose open block can close waits for commit of every item of the stream so far, the SYNC with a flush behind them,
the CLOSE_STREAM with its stream ended (R129). -/
def Sys2Proof.Claims.WriteCommandsStart : Prop :=
  ∀ (v : Inst) (cid : Cid) (c : Cmd) (x : Machine.Stream) (s : State),
    (s.inst v).state = .active → s.openStream? v c.target = some x → x.cut = none → x.dir = .append →
    (∀ n, reservedZero c.desc [(8, 10), (24, 12)] = true → u64 c.desc 8 % 64 = 0 → u64 c.desc 24 % 64 = 0 →
        1 ≤ u16 c.desc 16 → u16 c.desc 16 ≤ 256 →
        let begun := hostBursts v c.uid x.sid n (loadSegment v c.uid (u16 c.desc 16) (u64 c.desc 8)
          (s.modCmd (some v) c.uid (fun c => { c with phase := .running })))
        (startable s v cid 0x10 = some c → exec (.writeRecords v cid n) s = .next begun)
          ∧ (startable s v cid 0x11 = some c → exec (.streamAppend v cid n) s = .next begun))
    ∧ (∀ s1 y, closeEarly x.sid c.uid s = (none, s1) → s1.stream? x.sid = some y → reservedZero c.desc [] = true →
        (startable s v cid 0x02 = some c →
          exec (.closeStream v cid) s = .next (settleWaits (dispatch (pump x.sid (endStream
            (s1.modCmd (some v) c.uid (fun c => { c with phase := .commitWait x.sid y.itemPos })) y)))))
        ∧ (startable s v cid 0x13 = some c →
          exec (.sync v cid) s = .next (settleWaits (pump x.sid (dispatch
            ((addItem x.sid .flush s1).modCmd (some v) c.uid (fun c => { c with phase := .commitWait x.sid y.itemPos })))))))

/-- WRITE_MARK of `count` filemarks (R55, R129): once the open block has closed, `count` filemarks join the stream's order, the stream
and the instance count them, and the command waits for hand-over 3 of the block that it closed, if it closed one. -/
def Sys2Proof.Claims.WriteMarkAddsMarks : Prop :=
  ∀ (v : Inst) (cid : Cid) (c : Cmd) (x y : Machine.Stream) (s s1 : State),
    startable s v cid 0x12 = some c → reservedZero c.desc [(8, 2)] = true → u16 c.desc 8 ≠ 0 → (s.inst v).state = .active →
    s.openStream? v c.target = some x → x.cut = none → x.dir = .append → closeEarly x.sid c.uid s = (none, s1) → s1.stream? x.sid = some y →
    Gives (exec (.writeMark v cid) s) fun t => ∃ s2 : State,
      t = settleWaits (pump x.sid (dispatch (s2.modCmd (some v) c.uid (fun c' =>
            { c' with phase := .markWait x.sid (if y.itemPos = x.itemPos then none else some (y.itemPos - 1)) (y.marksTotal + u16 c.desc 8) }))))
        ∧ (∃ z : Machine.Stream, s2.stream? x.sid = some z ∧ z.items = y.items ++ (List.range (u16 c.desc 8)).map (fun i => .mark (y.itemPos + i))
            ∧ z.itemPos = y.itemPos + u16 c.desc 8 ∧ z.marksTotal = y.marksTotal + u16 c.desc 8)
        ∧ (s2.inst v).stats.marks = (s1.inst v).stats.marks + u16 c.desc 8

/-- Read commands that start (R280) on a well-formed descriptor and an open stream that is not cut: closing a read or FF2 stream ends
it at once (R129); READ_RECORDS runs with its first segment checked, and the tape is moved when what is in hand does not serve it (R246,
R270); LOCATE and SPACE place the stream at the point and wait for the tape, with the result that R270 gives them. -/
def Sys2Proof.Claims.ReadCommandsStart : Prop :=
  ∀ (v : Inst) (cid : Cid) (c : Cmd) (x : Machine.Stream) (p : TapePoint) (s : State),
    (s.inst v).state = .active → s.openStream? v c.target = some x → x.cut = none →
    (startable s v cid 0x02 = some c → reservedZero c.desc [] = true → x.dir ≠ .append →
        exec (.closeStream v cid) s = .next (completeSt (some v) c.uid .ok (sweepStreams (endStream s x))))
    ∧ (∀ s1, startable s v cid 0x20 = some c → readFault c (readParams c.desc) = none → x.dir = .read → u64 c.desc 32 = 0 → u16 c.desc 40 = 0 →
        tapeHeld s = false → startJob v c (readParams c.desc) s = .ok s1 → exec (.readRecords v cid) s = .next (pumpReads (needTape x s1)))
    ∧ (startable s v cid 0x21 = some c → reservedZero c.desc [(8, 1), (16, 8)] = true → u8 c.desc 8 ≤ 2 → x.dir = .read →
        exec (.locate v cid p) s = .next (moveThen v c x p
          { status := if (u8 c.desc 8 = 0 ∧ p.records < u64 c.desc 16) ∨ (u8 c.desc 8 = 1 ∧ p.marks < u64 c.desc 16) then .endOfData else .ok
            r0 := p.records, r1 := p.marks, r2 := p.dsn } s))
    ∧ (startable s v cid 0x22 = some c → reservedZero c.desc [(8, 1), (16, 8)] = true → u8 c.desc 8 ≤ 1 → x.dir = .read →
        exec (.space v cid p) s = .next (moveThen v c x p
          (spaceEnd (signed 64 (u64 c.desc 16))
            (if u8 c.desc 8 = 0 then (p.records : Int) - x.rd.records else (p.marks : Int) - x.rd.marks) (u8 c.desc 8 == 0 && p.metMark)) s))

/-- A LOCATE or SPACE that has been taken up, while no CART_UNLOAD or CART_CALIBRATE has the tape, moves it: the device is in LOCATE,
positioning at 6.5 m/s, the command waits for its position with its result, and the stream stands at the point, with what was decoded
and in flight of it dropped (R270, R326, R421). -/
def Sys2Proof.Claims.MoveTakesTape : Prop :=
  ∀ (v : Inst) (c : Cmd) (x : Machine.Stream) (p : TapePoint) (r : Cpl) (s : State), tapeHeld s = false →
    let t := moveThen v c x p r s
    t.glb.mode = .locate ∧ t.fmt.motion = .positioning ∧ t.mot.target = 6500000 ∧ t.rtv.part = x.part ∧ t.rtv.low = p.dsn
      ∧ (∀ b ∈ t.rtv.blks, b.sid ≠ x.sid) ∧ t.hostMem = s.hostMem ∧ t.sec = s.sec ∧ t.seqs = s.seqs
      ∧ (∃ s1 : State, t = s1.modCmd (some v) c.uid (fun c => { c with phase := .moveWait r }))
      ∧ (∀ y, s.stream? x.sid = some y → ∃ z, t.stream? x.sid = some z ∧ z.rd.records = p.records ∧ z.rd.marks = p.marks ∧ z.rd.dsn = p.dsn
            ∧ z.rd.ready = [])

/-- Slot commands that start (R280), well formed: SLOT_BIND to EMPTY erases the slot and answers its generation (R108); a binding that
changes nothing answers the generation (R107); a rewrite goes into the slot's pending copy, waits there, and is applied at once when the
slot is not in use (R107). -/
def Sys2Proof.Claims.SlotBindCompletes : Prop :=
  ∀ (v : Inst) (cid : Cid) (c : Cmd) (s : State), startable s v cid 0x30 = some c → bindFault s v c = none →
    let k : SlotNo := Fin.ofNat 8 (u8 c.desc 8)
    let q := s.slot v k
    (u8 c.desc 9 = 0 → exec (.slotBind v cid) s = .next (okFor v c 0 0 ((eraseSlot v k s).slot v k).generation (eraseSlot v k s)))
    ∧ (∀ kind, u8 c.desc 9 ≠ 0 → SlotKind.ofCode (u8 c.desc 9) = some kind →
        q.pending = none → q.kind = kind → q.limitLog2 = u8 c.desc 10 → q.autoRekey = (u8 c.desc 11 == 1) →
        exec (.slotBind v cid) s = .next (okFor v c 0 0 q.generation s))
    ∧ (∀ kind, u8 c.desc 9 ≠ 0 → SlotKind.ofCode (u8 c.desc 9) = some kind →
        (q.pending ≠ none ∨ q.kind ≠ kind ∨ q.limitLog2 ≠ u8 c.desc 10 ∨ q.autoRekey ≠ (u8 c.desc 11 == 1)) →
        Gives (exec (.slotBind v cid) s) fun t => ∃ s1 : State,
          (∃ p, (s1.slot v k).pending = some p ∧ p.kind = some kind ∧ p.limit = some (u8 c.desc 10)
              ∧ p.autoRekey = some (u8 c.desc 11 == 1) ∧ (some v, c.uid) ∈ p.waiters)
            ∧ (s1.slot v k).kind = q.kind ∧ (s1.slot v k).root = q.root
            ∧ t = (if inUse s1 v k = 0 then applyPending v k s1 else s1))

/-- "SLOT_REKEY allots the new epoch to the slot and completes with it": on a slot of kind FF3_GCM the epoch rises by one and is
answered, and no other slot's sequence state, and no block, changes (R104). -/
def Sys2Proof.Claims.SlotRekeyAllotsEpoch : Prop :=
  ∀ (v : Inst) (cid : Cid) (c : Cmd) (s : State), startable s v cid 0x31 = some c → reservedZero c.desc [(8, 1)] = true →
    c.target = 0xFFFF → u8 c.desc 8 < 8 →
    let k : SlotNo := Fin.ofNat 8 (u8 c.desc 8)
    (s.slot v k).kind = .ff3Gcm → (s.seqOf v k).epoch ≠ 0xFFFFFFFF →
    Gives (exec (.slotRekey v cid) s) fun t =>
      (t.seqOf v k).epoch = (s.seqOf v k).epoch + 1 ∧ (t.seqOf v k).frontier = (s.seqOf v k).frontier
        ∧ (∀ i, i ≠ seqIx v k → t.seqs[i] = s.seqs[i]) ∧ t.blks = s.blks ∧ t.fmt = s.fmt ∧ t.sec = s.sec ∧ t.glb = s.glb
        ∧ ∃ s1, t = okFor v c 0 0 ((s.seqOf v k).epoch + 1) s1 ∧ s1.hostMem = s.hostMem

/-! ### Commands of the management ring: instances and roots (R282 to R298, R95, R96, R107, R108) -/

/-- INSTANCE_CREATE of an UNASSIGNED instance under R283, outside SERVICE (R363): it is CONFIGURED with the configuration of its 48
bytes, its rings at head 0, tail 0 and phase 1, its slots EMPTY with their generations kept, its statistics zero and its quota set, a new
ECDH key is drawn (R95, R284), and the command completes OK with result2 1 (R273); no other instance changes. -/
def Obligations.CreateConfiguresInstance : Prop :=
  ∀ (cid : Cid) (c : Cmd) (v : Inst) (s : State), Served s cid 0x80 c → c.target = v.val →
    let b := slice c.desc 8 48
    let p := createParams b
    reservedZero c.desc [(8, 42)] = true → u32 b 0 < 2 ^ 20 → p.flags < 4 → u32 b 28 < 2 ^ 24 → p.sqBase % 64 = 0 → p.cqBase % 64 = 0 →
    s.glb.mode ≠ .service → (s.inst v).state = .unassigned → cfgBroken s v p = false →
    Gives (exec (.instanceCreate cid) s) fun t =>
      (∃ s1, t = mOk c 0 0 1 s1)
        ∧ (t.inst v).state = .configured ∧ (t.inst v).seq = (s.inst v).seq + 1
        ∧ (t.inst v).cfg = { pasid := p.pasid, plaintextOk := p.flags.testBit 0, ats := p.flags.testBit 1, maxStreams := p.maxStreams
                             partMask := p.partMask, tagLo := p.tagLo, tagHi := p.tagHi, rtagLo := p.rtagLo, rtagHi := p.rtagHi }
        ∧ (t.inst v).ring = { sqBase := p.sqBase, cqBase := p.cqBase, sqLog := p.sqLog, cqLog := p.cqLog, irqCount := p.irqCount, irqUsec := p.irqUsec }
        ∧ (t.inst v).share = p.share ∧ (t.inst v).stats = {}
        ∧ (∀ k, t.slot v k = { ({} : KeySlot) with generation := (s.slot v k).generation })
        ∧ (t.inst v).ecdh = some (Ecc.privOf (draw s 48)) ∧ t.freeCtr = (drawn 48 s).freeCtr ∧ t.pans = { s.pans with quota := vset s.pans.quota v p.quota }
        ∧ (∀ w, w ≠ v → t.inst w = s.inst w) ∧ t.seqs = s.seqs ∧ t.sec = s.sec ∧ t.streams = s.streams ∧ t.blks = s.blks ∧ t.glb = s.glb

/-- Commands that an instance's state allows, each completing OK with zeros unless said otherwise. SHARE sets the quota at once, the
share from the next allocation on, and with the resume flag the share now, and resumes (R286, R289). QUIESCE of a QUIESCED or FROZEN
instance answers zeros; of an ACTIVE or PAUSED one it begins the quiesce, and of a QUIESCING one it waits with the others (R292). -/
def Sys2Proof.Claims.InstanceShareAndQuiesce : Prop :=
  ∀ (cid : Cid) (c : Cmd) (v : Inst) (s : State), c.target = v.val →
    (Served s cid 0x81 c → reservedZero c.desc [(8, 2), (12, 4)] = true → u8 c.desc 9 < 8 → u32 c.desc 12 < 2 ^ 24 →
        (s.inst v).state ≠ .unassigned →
        let a := if (u8 c.desc 9).testBit 1 then setQuota v (u32 c.desc 12) s else s
        let b := if (u8 c.desc 9).testBit 0 then a.modInst v (fun i => { i with shareNext := u8 c.desc 8 }) else a
        ((u8 c.desc 9).testBit 2 = false → exec (.instanceShare cid) s = .next (mOk c 0 0 0 b))
          ∧ ((u8 c.desc 9).testBit 2 = true → resumable (s.inst v) = true → exec (.instanceShare cid) s = .next (mOk c 0 0 0 (resumeInst v
              (if (u8 c.desc 9).testBit 0 then b.modInst v (fun i => { i with share := u8 c.desc 8 }) else b)))))
    ∧ (Served s cid 0x82 c → reservedZero c.desc [] = true →
        let held := s.modCmd none c.uid (fun c => { c with phase := .quiesceWait })
        ((s.inst v).state = .quiesced ∨ (s.inst v).state = .frozen → exec (.instanceQuiesce cid) s = .next (mOk c 0 0 0 s))
          ∧ ((s.inst v).state = .active ∨ (s.inst v).state = .paused → exec (.instanceQuiesce cid) s = .next (beginQuiesce v held))
          ∧ ((s.inst v).state = .quiescing → exec (.instanceQuiesce cid) s = .next held))
    ∧ ((s.inst v).state = .quiescing → drainedInst s v = true →
        Gives (exec (.quiesceComplete v) s) fun t =>
          t = setInstState v .quiesced (endQuiesce v s) ∧ (t.inst v).state = .quiesced ∧ (t.inst v).seq = (s.inst v).seq + 1
            ∧ (t.inst v).qscHeld = heldCount s v ∧ (∀ w, w ≠ v → t.inst w = s.inst w))

/-- INSTANCE_RESET and INSTANCE_DESTROY of a CONFIGURED, QUIESCED or FROZEN instance end what is held with ABORTED_RESET, end its streams,
erase its slots, and complete OK: the one leaves CONFIGURED with its rings at head 0, tail 0 and phase 1, the other UNASSIGNED with
reset contents, but for the generations, and no quota (R293, R294). INSTANCE_FREEZE of an instance at work freezes it and answers OK
(R295). -/
def Sys2Proof.Claims.InstanceEnds : Prop :=
  ∀ (cid : Cid) (c : Cmd) (v : Inst) (s : State), c.target = v.val → reservedZero c.desc [] = true →
    ((s.inst v).state = .configured ∨ (s.inst v).state = .quiesced ∨ (s.inst v).state = .frozen →
        let u := eraseSlots v (endAll v (abortHeld v .abortedReset s))
        (Served s cid 0x83 c → exec (.instanceReset cid) s = .next (mOk c 0 0 0 (setInstState v .configured
            (u.modInst v (fun i => { i with ring := i.ring.rewound, saved := false })))))
          ∧ (Served s cid 0x87 c → exec (.instanceDestroy cid) s = .next (mOk c 0 0 0 (setInstState v .unassigned
              (setQuota v 0xFFFFFF (u.modInst v (fun i => { state := i.state, seq := i.seq, slots := i.slots })))))))
    ∧ (Served s cid 0x84 c → (s.inst v).state = .active ∨ (s.inst v).state = .paused ∨ (s.inst v).state = .quiescing ∨ (s.inst v).state = .quiesced →
        exec (.instanceFreeze cid) s = .next (mOk c 0 0 0 (freezeInst v s)))

/-- INSTANCE_SAVE of a FROZEN instance (R296): sixteen random bytes are drawn as the nonce, the blob of 1,024 bytes is written to the
host, the nonce is recorded unused among the latest 64, and the instance counts as saved. -/
def Sys2Proof.Claims.SaveWritesBlob : Prop :=
  ∀ (cid : Cid) (c : Cmd) (v : Inst) (s : State), Served s cid 0x85 c → c.target = v.val → reservedZero c.desc [(16, 12)] = true →
    u64 c.desc 16 % 64 = 0 → (s.inst v).state = .frozen → 1024 ≤ u32 c.desc 24 →
    Gives (exec (.instanceSave cid) s) fun t =>
      (∃ s1, t = mOk c 0 0 0 s1 ∧ s1.hostMem = (hostWrite 0 (u64 c.desc 16) (saveBlob s v (draw s 16)) s).hostMem)
        ∧ t.sec = { s.sec with nonces := (s.sec.nonces ++ [(draw s 16, false)]).drop (s.sec.nonces.length + 1 - 64) }
        ∧ t.freeCtr = (drawn 16 s).freeCtr ∧ (t.inst v).saved = true ∧ (t.inst v).state = .frozen ∧ (t.inst v).slots = (s.inst v).slots
        ∧ t.seqs = s.seqs ∧ (∀ w, w ≠ v → t.inst w = s.inst w)

/-- INSTANCE_RESTORE into an UNASSIGNED instance (R297): the roots come back only while the blob's nonce is recorded and unused, which
uses it; the sequence state of every slot lies beyond what the slot or the blob had used; the instance is FROZEN under its new PASID and
rings, and the command completes OK with result2 saying whether the roots came back. -/
def Sys2Proof.Claims.RestoreNeverReuses : Prop :=
  ∀ (cid : Cid) (c : Cmd) (v : Inst) (s : State), Served s cid 0x86 c → c.target = v.val → reservedZero c.desc [(8, 4), (16, 24)] = true →
    u32 c.desc 8 < 2 ^ 20 → u64 c.desc 16 % 64 = 0 → u64 c.desc 24 % 64 = 0 → u64 c.desc 32 % 64 = 0 → (s.inst v).state = .unassigned → s.glb.mode ≠ .service →
    let b := hostRead s 0 (u64 c.desc 16) 1024
    let p := { createParams (slice b 64 48) with pasid := u32 c.desc 8, sqBase := u64 c.desc 24, cqBase := u64 c.desc 32 }
    let nonce := slice b 32 16
    u32 b 0 = 0xF3B10B5A → u16 b 4 = 1 → u16 b 6 = 1024 → cfgBroken s v p = false →
    (nonceOpen s nonce = true → Aes.cmac (blobKey "FF3-BLBM" nonce (slice b 24 8)) (b.take 1008) = slice b 1008 16) →
    Gives (exec (.instanceRestore cid) s) fun t =>
      (∃ s1, t = mOk c 0 0 (bit (nonceOpen s nonce)) s1) ∧ (t.inst v).state = .frozen ∧ (t.inst v).ring.sqBase = u64 c.desc 24
        ∧ (t.inst v).ring.cqBase = u64 c.desc 32 ∧ (t.inst v).cfg.pasid = u32 c.desc 8 ∧ (t.inst v).ecdh = some (Ecc.privOf (draw s 48))
        ∧ (∀ k, (t.seqOf v k).frontier = max (s.seqOf v k).frontier (u64 b (136 + 16 * k.val)) + 2 ^ 20)
        ∧ (∀ k, (t.seqOf v k).epoch = min (max (s.seqOf v k).epoch (u32 b (132 + 16 * k.val)) + 1) 0xFFFFFFFF)
        ∧ (∀ i : Fin 512, (∀ k, i ≠ seqIx v k) → t.seqs[i] = s.seqs[i])
        ∧ (nonceOpen s nonce = false → (∀ k, (t.slot v k).kind = .empty) ∧ t.sec = s.sec)
        ∧ nonceOpen t nonce = false

/-- Roots: GET_PUB answers the instance's public key signed by the alias key (R95); an import that unwraps enters an EMPTY slot at once
as FF3_GCM with the root and the next generation, which it answers, and another slot by its pending copy (R96, R107); ROOT_ERASE erases the slot and
answers its generation (R108); a pending copy of a slot that no block uses is applied (R107). -/
def Obligations.RootCommands : Prop :=
  ∀ (cid : Cid) (c : Cmd) (v : Inst) (s : State), c.target = v.val →
    (∀ d a, Served s cid 0x90 c → u8 c.desc 8 = 0 → reservedZero c.desc [(8, 2), (16, 12)] = true → u64 c.desc 16 % 64 = 0 →
        (s.inst v).ecdh = some d → s.sec.aliasPriv = some a → 193 ≤ u32 c.desc 24 →
        exec (.rootImportGetPub cid) s
          = .next (mOk c 0 0 0 (hostWrite 0 (u64 c.desc 16) (Ecc.pub d ++ Ecc.sign a (Ecc.pub d ++ leBytes 1 v.val)) s)))
    ∧ (∀ d r, Served s cid 0x90 c → u8 c.desc 8 = 1 → reservedZero c.desc [(8, 2), (16, 12)] = true → u8 c.desc 9 < 8 → u64 c.desc 16 % 64 = 0 →
        (s.inst v).ecdh = some d → 137 ≤ u32 c.desc 24 → importedRoot d (hostRead s 0 (u64 c.desc 16) 137) = some r →
        let k : SlotNo := Fin.ofNat 8 (u8 c.desc 9)
        ((s.slot v k).kind = .empty →
          Gives (exec (.rootImportImport cid) s) fun t =>
            (∃ s1, t = mOk c 0 0 (((s.slot v k).generation + 1) % 256) s1)
              ∧ t.slot v k = { s.slot v k with kind := .ff3Gcm, root := r, generation := ((s.slot v k).generation + 1) % 256 }
              ∧ (∀ w j, w ≠ v ∨ j ≠ k → t.slot w j = s.slot w j))
          ∧ ((s.slot v k).kind ≠ .empty →
              exec (.rootImportImport cid) s = .next (applyIfIdle v k ((mergeRewrite v k (fun p =>
                { p with root := some r, waiters := p.waiters ++ [(none, c.uid)] }) (keyWork s)).modCmd none c.uid
                  (fun c => { c with phase := .rewriteWait k })))))
    ∧ (Served s cid 0x91 c → reservedZero c.desc [(8, 1)] = true → u8 c.desc 8 < 8 → (s.inst v).state ≠ .unassigned →
        let k : SlotNo := Fin.ofNat 8 (u8 c.desc 8)
        exec (.rootErase cid) s = .next (mOk c 0 0 ((eraseSlot v k s).slot v k).generation (eraseSlot v k s)))
    ∧ (∀ k, inUse s v k = 0 → exec (.pendingCopyApply v k) s = .next (applyPending v k s))

/-! ### Commands of the management ring: cartridge, chain, group, log, service gate, firmware -/

/-- CART_LOAD in IDLE, of a cartridge whose memory reads and takes writes, that threads and whose directory is valid, or whose directory
is not and the command offers a valid one for a blank cartridge: the device is THREADED with the tape stopped; the serial number, the number
of partitions defined and whether it was blank are answered; nothing of the instances' work changes (R53, R54, R274, R402). -/
def Sys2Proof.Claims.CartLoadThreads : Prop :=
  ∀ (cid : Cid) (c : Cmd) (view : CartView) (cm : Bytes) (s : State), Served s cid 0xA0 c → reservedZero c.desc [(8, 1), (16, 8)] = true →
    u8 c.desc 8 ≤ 1 → c.target = 0xFFFF → u64 c.desc 16 % 64 = 0 → s.glb.mode = .idle → view.cm = some cm → manufactureOk cm = true →
    view.threads = true → view.writes = true →
    let image := hostRead s 0 (u64 c.desc 16) 512
    (directoryOk cm = true ∨ u8 c.desc 8 = 1 ∧ dirReservedZero image = true ∧ dirValid (dirOfBytes image) = true) →
    Gives (exec (.cartLoad cid view) s) fun t =>
      (∃ s1, t = complete none c.uid { status := .ok, blank := !directoryOk cm, r0 := u64 (slice cm 16 16) 0, r1 := u64 (slice cm 16 16) 8
                                       r2 := t.cart.dir.countP (·.defined) } s1)
        ∧ t.glb.mode = .threaded ∧ t.glb.seq = s.glb.seq + 1 ∧ t.cart.loaded = true ∧ t.cart.serial = slice cm 16 16
        ∧ (directoryOk cm = false → t.cart.dir = (dirOfBytes image).map freshEntry) ∧ t.rtv = {}
        ∧ t.fmt = { s.fmt with motion := .stopped } ∧ t.insts = s.insts ∧ t.streams = s.streams ∧ t.blks = s.blks
        ∧ t.seqs = s.seqs ∧ t.sec = s.sec ∧ t.pans = s.pans

/-- CART_UNLOAD with no stream open and no write session, of a cartridge that takes writes: the preset record and the directory are
written to cartridge memory and the tape is rewound, for which the command waits; with a write session it waits for its end (R275, R422).
CART_CALIBRATE in THREADED takes the tape to the calibration regions and waits (R165). When the tape is there, the one leaves the device
IDLE without a cartridge, the other stops it with the start values that calibration found, and each completes OK. -/
def Sys2Proof.Claims.CartUnloadAndCalibrate : Prop :=
  ∀ (cid : Cid) (c : Cmd) (s : State), reservedZero c.desc [] = true → c.target = 0xFFFF → tapeHeld s = false →
    (Served s cid 0xA1 c → s.glb.mode.onTape = true → cartInUse s = false → s.fmt.sess = none → s.cart.writes = true →
        Gives (exec (.cartUnload cid) s) fun t =>
          t = beginMove .mgmt (s.glb.mode == .threaded)
              ({ s with cart := t.cart, hif := t.hif })
            ∧ t.cart = { s.cart with cm := patch (patch s.cart.cm cmPreset (newPreset s)) cmDirectory (dirBytes s.cart.dir) }
            ∧ t.hif = (s.modCmd none c.uid (fun c => { c with phase := .unloadWait })).hif)
    ∧ (Served s cid 0xA1 c → s.glb.mode.onTape = true → cartInUse s = false → s.fmt.sess.isSome = true →
        exec (.cartUnload cid) s = .next (s.modCmd none c.uid (fun c => { c with phase := .sessionWait })))
    ∧ (∀ results, Served s cid 0xA2 c → sessionEnding s = false → s.glb.mode = .threaded →
        exec (.cartCalibrate cid results) s
          = .next (beginMove .mgmt true (s.modCmd none c.uid (fun c => { c with phase := .calWait results }))))
    ∧ (∀ wrap, s.fmt.motion = .positioning → s.fmt.moveFor = .mgmt →
        (s.hif.mq.cmds = [{ c with phase := .unloadWait }] →
          Gives (exec (.positionReached wrap) s) fun t => (∃ s1, t = mOk c 0 0 0 s1) ∧ t.glb.mode = .idle ∧ t.rtv = {}
            ∧ t.fmt.motion = .stopped ∧ t.cart = { cm := s.cart.cm } ∧ t.sec = s.sec ∧ t.seqs = s.seqs)
        ∧ (∀ results, s.hif.mq.cmds = [{ c with phase := .calWait results }] →
          exec (.positionReached wrap) s = .next (mOk c 0 0 0 (calibrate results (beginStop s)))))

/-- CHAIN_STATUS writes one entry of 32 bytes for each member and answers their number, the round trip and the state (R307);
RAIT_GROUP_SET forms the group and asks, or answers, for it (R319), and clear ends it; BUFFER_FILL_STATUS answers the mark, the usable
capacity and the state with the lost devices (R276). -/
def Obligations.ChainAndBufferQueries : Prop :=
  ∀ (cid : Cid) (c : Cmd) (s : State), c.target = 0xFFFF →
    (Served s cid 0xB0 c → reservedZero c.desc [(16, 12)] = true → u64 c.desc 16 % 64 = 0 → 32 * s.chn.roster.length ≤ u32 c.desc 24 →
        exec (.chainStatus cid) s = .next (mOk c s.chn.roster.length s.chn.rt s.chn.state
          (hostWrite 0 (u64 c.desc 16) (s.chn.roster.flatMap chainEntry) s)))
    ∧ (Served s cid 0xB1 c → u8 c.desc 8 = 0 → reservedZero c.desc [(8, 5), (16, 16)] = true →
        let g := groupOf s c.desc
        groupSetFault s c.desc g = none →
        let u := powerFor s.glb.mode { s with chn.grp := g }
        let t := if g.position = 0 then sendJoins u else sendAnswer u
        exec (.raitGroupSet cid) s = .next (mOk c 0 0 (g.position + 256 * bit (t.chn.grp.state == 2)) t))
    ∧ (Served s cid 0xB1 c → u8 c.desc 8 = 1 → reservedZero c.desc [(8, 5), (16, 16)] = true →
        exec (.raitGroupClear cid) s = .next (mOk c 0 0 s.chn.grp.position
          (settleWaits (if inGroup s then failGroup (tellAll 0x41 0 (leBytes 1 2) s) else s))))
    ∧ (startableMgmt s cid 0xD2 = some c → reservedZero c.desc [] = true →
        exec (.bufferFillStatus cid) s = .next (mOk c s.buf.mark s.usable (s.buf.state + 8 * lostMask s) s))

/-- LOG_READ, in PEWTER too (R354, R380): the entries from the first asked for, or the oldest retained, with the head's index; or the
certificate chain, each certificate after its length. -/
def Sys2Proof.Claims.LogReadAnswers : Prop :=
  ∀ (cid : Cid) (c : Cmd) (s : State), startableMgmt s cid 0xC0 = some c → reservedZero c.desc logUsed = true → c.target = 0xFFFF →
    u64 c.desc 24 % 64 = 0 →
    (∀ count, u8 c.desc 8 = 0 → count = u16 c.desc 16 → 1 ≤ count → count ≤ 512 →
        let first := max (u32 c.desc 12) (ingotOldest s)
        let found := (s.sec.ingot.filter (fun e => decide (first ≤ e.1))).take count
        384 * found.length ≤ u32 c.desc 32 →
        exec (.logReadEntries cid) s = .next (mOk c first found.length (ingotHead s) (hostWrite 0 (u64 c.desc 24) (found.flatMap (·.2)) s)))
    ∧ (u8 c.desc 8 = 1 →
        let chain := (certChain s).flatMap (fun d => leBytes 4 d.length ++ d)
        chain.length ≤ u32 c.desc 32 →
        exec (.logReadCertificates cid) s = .next (mOk c chain.length 0 0 (hostWrite 0 (u64 c.desc 24) chain s)))

/-- A written log entry takes the index after the newest's, its bytes 240 to 287 are the digest of the entry before it, and nothing
else of the machine changes; 512 entries are retained (R351 to R353). -/
def Sys2Proof.Claims.LogEntriesChain : Prop :=
  ∀ (kind scope : Nat) (nonce : Bytes) (s : State) (k i : Nat) (b : Bytes), deviceKey s = some k → s.sec.ingot.getLast? = some (i, b) →
    (∀ e ∈ s.sec.ingot, e.1 ≤ i) → s.sec.ingot.length ≤ 512 →
    let t := writeEntry kind scope nonce s
    ingotHead t = i + 1 ∧ slice (ingotEntry t (i + 1)) 240 48 = Sha.sha384 (ingotEntry s i) ∧ t.sec.ingot.length ≤ 512
      ∧ (∀ e ∈ t.sec.ingot, e.1 ≤ i + 1) ∧ t = { s with sec := { s.sec with ingot := t.sec.ingot } }

/-- SERVICE_CHALLENGE issues a fresh nonce of 32 random bytes, and the challenge replaces the one before; its lapse voids it (R362).
SERVICE_RESPONSE that grants the scope without RMA writes a log entry, opens the gate and leads to SERVICE; with RMA it writes the entry,
the part is RETURNED and takes a warm reset (R361, R363); any other voids the challenge, counts, and raises EV_SERVICE_FAIL. -/
def Obligations.ServiceGate : Prop :=
  ∀ (cid : Cid) (c : Cmd) (s : State), c.target = 0xFFFF → u64 c.desc 16 % 64 = 0 →
    (Served s cid 0xC1 c → reservedZero c.desc [(8, 4), (16, 8), (24, 4)] = true → 0 < u32 c.desc 8 → u32 c.desc 8 < 8 → s.glb.mode ≠ .service →
        gateLocked s = false → 64 ≤ u32 c.desc 24 →
        let bytes := challengeBytes s (u32 c.desc 8) (draw s 32)
        exec (.serviceChallenge cid) s = .next (mOk c 0 0 0 (hostWrite 0 (u64 c.desc 16) bytes
          { drawn 32 s with sec := { s.sec with challenge := some { scope := u32 c.desc 8, bytes := bytes, issued := s.glb.time } } })))
    ∧ (∀ ch, Served s cid 0xC2 c → reservedZero c.desc [(16, 8), (24, 4)] = true → 193 ≤ u32 c.desc 24 → gateReady s = true → s.sec.challenge = some ch →
        let key := (hostRead s 0 (u64 c.desc 16) 193).take 97
        let good := mayGrant s ch.scope key && Ecc.verify key ch.bytes ((hostRead s 0 (u64 c.desc 16) 193).drop 97)
        let entered := mOk c 0 0 0 (writeEntry 2 ch.scope (slice ch.bytes 32 8) s)
        (good = true → ch.scope.testBit 2 = false →
          Gives (exec (.serviceResponse cid) s) fun t =>
            t = openService ch.scope entered ∧ t.glb.mode = .service ∧ t.sec.gateOpen = true ∧ t.sec.scope = ch.scope ∧ t.sec.challenge = none
              ∧ t.sec.lifecycle = s.sec.lifecycle ∧ t.sec.ingot = (writeEntry 2 ch.scope (slice ch.bytes 32 8) s).sec.ingot)
        ∧ (good = true → ch.scope.testBit 2 = true →
            Gives (exec (.serviceResponse cid) s) fun t => t.glb.mode = .reset ∧ t.glb.rstKind = 1 ∧ t.sec.lifecycle = 4 ∧ t.sec.gateOpen = false
              ∧ t.sec.challenge = none ∧ t.sec.ingot = (writeEntry 2 ch.scope (slice ch.bytes 32 8) s).sec.ingot)
        ∧ (good = false →
            let n := satInc 3 s.sec.fails
            exec (.serviceResponse cid) s = .next (mEnd c .badParam (raiseEv .serviceFail 0x1 noRes noInst (leBytes 1 n)
              { s with sec := { s.sec with challenge := none, fails := n } }))))
    ∧ exec .challengeLapse s = .next { s with sec := { s.sec with challenge := none } }

/-- FW_STAGE: a write puts the host's bytes into the other bank, and one at offset 0 starts a session with its manifest erased; finish
accepts the bank under R347 and answers its version and svn, or reports the condition; abandon ends the session (R357). -/
def Sys2Proof.Claims.FirmwareStaging : Prop :=
  ∀ (cid : Cid) (c : Cmd) (s : State), Served s cid 0xD0 c → reservedZero c.desc [(8, 1), (12, 4), (16, 8), (24, 4)] = true →
    c.target = 0xFFFF → stageOpen s = true →
    (u8 c.desc 8 = 0 → u32 c.desc 12 < 2 ^ 24 → u32 c.desc 12 % 4096 = 0 → u32 c.desc 24 % 4096 = 0 → u32 c.desc 24 ≤ 2 ^ 20 → u32 c.desc 12 + u32 c.desc 24 ≤ 2 ^ 24 →
        u64 c.desc 16 % 64 = 0 → (s.sec.staging = true ∨ u32 c.desc 12 = 0) →
        Gives (exec (.fwStageWrite cid) s) fun t =>
          (∃ s1, t = mOk c 0 0 0 s1) ∧ t.sec.staging = true ∧ t.sec.otherBank.head? = some (u32 c.desc 12, hostRead s 0 (u64 c.desc 16) (u32 c.desc 24))
            ∧ (u32 c.desc 12 = 0 → t.sec.staged = false ∧ t.sec.otherBank.tail = (0, List.replicate 4096 0xFF#8) :: s.sec.otherBank)
            ∧ (u32 c.desc 12 ≠ 0 → t.sec.staged = s.sec.staged ∧ t.sec.otherBank.tail = s.sec.otherBank)
            ∧ t.sec.dir0 = s.sec.dir0 ∧ t.sec.dir1 = s.sec.dir1 ∧ t.sec.floor = s.sec.floor ∧ t.glb = s.glb ∧ t.insts = s.insts)
    ∧ (u8 c.desc 8 = 1 → s.sec.staging = true →
        (bankFault s (otherView s) = none →
          let m := manifestInfo (otherView s).manifest
          exec (.fwStageFinish cid) s = .next (mOk c m.fwVersion 0 m.svn
            { s with sec := { s.sec with staging := false, staged := true, otherOk := true, stagedInfo := m } }))
        ∧ (∀ n, bankFault s (otherView s) = some n →
          exec (.fwStageFinish cid) s = .next (mEnd c .badParam (raiseEv .fwReject 0x1 noRes noInst (leBytes 1 n)
            { s with sec := { s.sec with staging := false, staged := false, otherOk := false } }))))
    ∧ (u8 c.desc 8 = 2 → exec (.fwStageAbandon cid) s = .next (mOk c 0 0 0
        { s with sec := { s.sec with staging := false, staged := s.sec.staged && !s.sec.staging } }))

/-- FW_ACTIVATE (R357, R359): NEXT marks the staged bank for trial; NOW does so and takes a warm reset; COMMIT_SVN, while the accepted
bank runs, raises the floor to the running svn and answers it; CANCEL takes the mark away. -/
def Sys2Proof.Claims.FirmwareActivation : Prop :=
  ∀ (cid : Cid) (c : Cmd) (s : State), Served s cid 0xD1 c → reservedZero c.desc [(8, 1)] = true → c.target = 0xFFFF →
    (u8 c.desc 8 = 0 → s.sec.staged = true → exec (.fwActivateNext cid) s = .next (mOk c 0 0 0 (setTrial 1 s)))
    ∧ (u8 c.desc 8 = 1 → s.sec.staged = true →
        s.glb.mode = .idle ∨ s.glb.mode = .threaded ∧ s.streams.any (fun x => !x.ended) = false →
        Gives (exec (.fwActivateNow cid) s) fun t =>
          t = warmReset 3 (mOk c 0 0 0 (setTrial 1 s)) ∧ t.glb.mode = .reset ∧ t.glb.rstKind = 1 ∧ t.sec.dir0 = (setTrial 1 s).sec.dir0 ∧ t.sec.dir1 = (setTrial 1 s).sec.dir1 ∧ t.sec.ingot = s.sec.ingot)
    ∧ (u8 c.desc 8 = 2 → (dirNow s).trial = 0 → s.sec.romPewter = false → s.sec.bankB = (dirNow s).activeB →
        exec (.fwActivateCommitSvn cid) s = .next (mOk c 0 0 (max s.sec.floor s.sec.image.svn)
          { s with sec := { s.sec with floor := max s.sec.floor s.sec.image.svn } }))
    ∧ (u8 c.desc 8 = 3 → (dirNow s).trial = 1 → exec (.fwActivateCancel cid) s = .next (mOk c 0 0 0 (setTrial 0 s)))

/-- An update of the image directory (R346) leaves a valid record that says the new trial and the same active bank, with the next
sequence number, and the record before it stays as the other copy or was the only one. -/
def Sys2Proof.Claims.DirectoryUpdateTakes : Prop :=
  ∀ (t : Nat) (s : State), (dirNow s).seq < 2 ^ 32 - 1 →
    dirNow (setTrial t s) = { activeB := (dirNow s).activeB, trial := t, seq := (dirNow s).seq + 1 }
      ∧ ((s.sec.dir0.isSome = true ∨ s.sec.dir1.isSome = true) →
          (setTrial t s).sec.dir0 = some (dirNow s) ∨ (setTrial t s).sec.dir1 = some (dirNow s))

/-! ### Doorbells, descriptor fetch, interrupts, the host link (R255 to R263, R278, R285, R287, R290) -/

/-- A doorbell, with what the host stored before it, on a ring that doorbells reach: in range it moves the ring's pointer, takes a
CONFIGURED instance to ACTIVE or PAUSED, and has parked entries fetched again; out of range it leaves the pointer and reports the error;
before event 6 of start-up it is kept (R256, R260, R262, R278, R331). -/
def Sys2Proof.Claims.DoorbellsMovePointers : Prop :=
  ∀ (r : RingId) (value : Word) (stores : List HostStore) (s : State),
    let u := hostStores stores s
    (s.glb.mode.starting = true →
        exec (.hifDbSqTail r value stores) s = .next { u with hif := { u.hif with early := u.hif.early ++ [(r, false, value)] } }
          ∧ exec (.hifDbCqHead r value) s = .next { s with hif := { s.hif with early := s.hif.early ++ [(r, true, value)] } })
    ∧ (s.glb.mode.served = true → (∀ v, r = some v → (s.inst v).state ≠ .unassigned) →
        (2 ^ (s.ring r).sqLog ≤ fld value 0 12 → exec (.hifDbSqTail r value stores) s = .next (badDoorbell r value u))
        ∧ (fld value 0 12 < 2 ^ (s.ring r).cqLog →
            exec (.hifDbCqHead r value) s = .next (s.modRing r (fun q => { q with cqHead := fld value 0 12 })))
        ∧ (2 ^ (s.ring r).cqLog ≤ fld value 0 12 → exec (.hifDbCqHead r value) s = .next (badDoorbell r value s))
        ∧ (fld value 0 12 < 2 ^ (s.ring r).sqLog →
            let w := u.modRing r (fun q => { q with sqTail := fld value 0 12 })
            (r = none → exec (.hifDbSqTail r value stores) s = .next w)
            ∧ (∀ v, r = some v →
                let x := if (s.inst v).state = .configured then runInst v w else w
                exec (.hifDbSqTail r value stores) s = .next (if (s.ring r).stopped then x else (x.ring r).cmds.foldl (refetchParked v) x)
                  ∧ (x.ring r).sqTail = fld value 0 12
                  ∧ ((s.inst v).state = .configured → (x.inst v).state = if (s.inst v).share = 0 then .paused else .active))))

/-- DESCRIPTOR_FETCH from a ring that the device fetches from: the 64 bytes at the submission head become the ring's newest command,
waiting; the head moves on by one, modulo the ring (R261); nothing but completions of parked commands, their
interrupts, that ring and its instance's translations changes. -/
def Sys2Proof.Claims.FetchTakesDescriptor : Prop :=
  ∀ (r : RingId) (s : State), fetches s r = true →
    Gives (exec (.descriptorFetch r) s) fun t =>
      (t.ring r).sqHead = ((s.ring r).sqHead + 1) % 2 ^ (s.ring r).sqLog
        ∧ (∃ c, (t.ring r).cmds.getLast? = some c ∧ c.desc = hostRead s (s.space r) ((s.ring r).sqBase + 64 * (s.ring r).sqHead) 64
              ∧ c.phase = .waiting ∧ c.uid = s.nextId)
        ∧ t.nextId = s.nextId + 1 ∧ t.sec = s.sec ∧ t.seqs = s.seqs ∧ t.streams = s.streams ∧ t.blks = s.blks ∧ t.fmt = s.fmt ∧ t.pans = s.pans
        ∧ t.glb = s.glb ∧ t.evt = s.evt ∧ t.mot = s.mot

/-- A ring whose completions wait for irq_usec signals them when it has passed (R263). Unmasking a vector, or the link coming to L0,
sends every pending message that is unmasked, and keeps the others pending (R257). An ATS invalidation drops the page from the caches
it names (R255). -/
def Obligations.InterruptsAndLink : Prop :=
  ∀ s : State,
    (∀ r, (s.ring r).unsignalled ≠ 0 → (s.ring r).irqUsec ≠ 0 →
        exec (.irqTimerExpiry r) s = .next (fireMsix (ringVector r) (s.modRing r (fun q => { q with unsignalled := 0 }))))
    ∧ (∀ x, s.hif.linkL0 = true → Gives (exec (.msixUnmask x) s) fun t =>
        t.msix.pba.getLsbD x.val = false ∧ t.msix.table[x].masked = false
          ∧ (∀ y, y ≠ x → s.msix.table[y].masked = true → t.msix.pba.getLsbD y.val = s.msix.pba.getLsbD y.val ∧ t.msix.table[y] = s.msix.table[y])
          ∧ t.insts = s.insts ∧ t.evt = s.evt ∧ t.hif = s.hif)
    ∧ (∀ x, s.hif.linkL0 = false → exec (.msixUnmask x) s
        = .next { s with msix := { s.msix with table := vmod s.msix.table x (fun e => { e with masked := false }) } })
    ∧ (∀ speed width, s.glb.perst = false → s.glb.mode ≠ .off → s.glb.mode ≠ .quench →
        Gives (exec (.pcieLinkUp speed width) s) fun t =>
          t.hif = { s.hif with linkSpeed := speed % 16, linkWidth := width % 64, linkL0 := true } ∧ t.glb.mode = s.glb.mode ∧ t.glb.training = false
            ∧ (∀ y : Fin 130, s.msix.table[y].masked = false → t.msix.pba.getLsbD y.val = false)
            ∧ (∀ y : Fin 130, s.msix.table[y].masked = true → t.msix.pba.getLsbD y.val = s.msix.pba.getLsbD y.val))
    ∧ (∀ pasid page, Gives (exec (.atsInvalidation pasid page) s) fun t =>
        (∀ v, (t.inst v).atc = if pasid = none ∨ pasid = some (s.inst v).cfg.pasid then (s.inst v).atc.filter (fun q => q != page) else (s.inst v).atc)
          ∧ (∀ v, (t.inst v).ring = (s.inst v).ring ∧ (t.inst v).state = (s.inst v).state) ∧ t.hostMem = s.hostMem ∧ t.hif = s.hif)

/-- The management pair starts at head 0, tail 0, phase 1 with its configuration, and stops without completions of what it had
fetched; the event ring starts likewise and stops; EVT_RING_HEAD takes values in range; locks set (R258, R259, R375, R385). -/
def Obligations.PairsStartAndStop : Prop :=
  ∀ s : State, s.glb.mode.served = true →
    (s.hif.mqEn = false → exec .mqEnable s = .next { s with hif := { s.hif with
        mqEn := true
        mq := { sqBase := s.hif.mqSq, cqBase := s.hif.mqCq, sqLog := ringLog (fld s.hif.mqCfg 0 4), cqLog := ringLog (fld s.hif.mqCfg 4 4)
                irqCount := fld s.hif.mqCfg 8 8, irqUsec := fld s.hif.mqCfg 16 16, cmds := s.hif.mq.cmds } } })
    ∧ (s.hif.mqEn = true → exec .mqEnable s = .next s)
    ∧ (s.hif.mqEn = true → exec .mqDisable s = .next { s with hif := { s.hif with
        mqEn := false
        mq := { s.hif.mq with sqTail := s.hif.mq.sqHead, cmds := s.hif.mq.cmds.map (fun c => { c with mute := true }) } } })
    ∧ (s.evt.ringEn = false →
        exec .eventRingEnable s = .next { s with evt := { s.evt with ringEn := true, head := 0, tail := 0, phase := true, stopped := false } })
    ∧ exec .eventRingDisable s = .next { s with evt := { s.evt with ringEn := false } }
    ∧ (∀ value, exec (.evtRingHeadWrite value) s
        = .next (if fld value 0 14 < 2 ^ evtLog s.evt then { s with evt := { s.evt with head := fld value 0 14 } } else s))
    ∧ exec .evtLock s = .next { s with evt := { s.evt with lock := true } }
    ∧ (∀ by_, s.mayDrive by_ = true → exec (.panLock by_) s = .next { s with pans := { s.pans with lock := true } })
    ∧ (∀ value, s.pwr.quenchCfg.getLsbD 31 = false →
        exec (.quenchCfgLock value) s = .next { s with pwr := { s.pwr with quenchCfg := (value ||| 0x80000000) &&& 0x803FFFFF } })

/-! ### Events and strikes (R365 to R376) -/

/-- EVENT_RECORD_WRITE, with the ring enabled, running and not full, writes the oldest record at the tail in the layout of R372, moves
the tail on, turns the phase at the ring's end, and signals vector 1 (R375); the timer signals what is due; LEAK_PERIOD takes one from
a bucket that leaks, and the next period runs while it is not empty (R367). -/
def Sys2Proof.Claims.EventRecordsReachHost : Prop :=
  ∀ s : State,
    (∀ r rest, evtWrites s = true → s.evt.fifo = r :: rest →
        Gives (exec .eventRecordWrite s) fun t =>
          t.evt.tail = (if s.evt.tail + 1 = 2 ^ evtLog s.evt then 0 else s.evt.tail + 1) ∧ t.evt.phase = (if s.evt.tail + 1 = 2 ^ evtLog s.evt then !s.evt.phase else s.evt.phase)
            ∧ (∃ extra, t.evt.fifo = rest ++ extra) ∧ t.evt.buckets = s.evt.buckets ∧ t.insts = s.insts ∧ t.sec = s.sec
            ∧ ∃ s1, t = evtSignal s1 ∧ s1.hostMem = (hostWrite 0 (s.evt.ringBase + 32 * s.evt.tail) (r.bytes s.evt.phase) s).hostMem) 
    ∧ (s.evt.irqDue = true →
        exec .eventIrqTimer s = .next (fireMsix 1 { s with evt := { s.evt with irqDue := false, lastIrq := some s.glb.time } }))
    ∧ (∀ i : Fin 304, s.evt.buckets[i].level ≠ 0 → s.evt.buckets[i].leakAt.isSome = true →
        Gives (exec (.leakPeriod i) s) fun t =>
          t.evt.buckets[i].level = s.evt.buckets[i].level - 1 ∧ t.evt.buckets[i].retired = s.evt.buckets[i].retired
            ∧ (t.evt.buckets[i].leakAt.isSome = true ↔ s.evt.buckets[i].level ≠ 1)
            ∧ (∀ j, j ≠ i → t.evt.buckets[j] = s.evt.buckets[j]) ∧ t.evt.fifo = s.evt.fifo ∧ t.glb = s.glb)

/-- An event that is raised joins the FIFO, merges into its newest record, or is counted as lost: records with their repeats and the
losses go up by exactly one, while no counter is at its limit (R374, R376). -/
def Sys2Proof.Claims.NoEventVanishes : Prop :=
  ∀ (u : Evt) (r : EvRec), r.rep = 0 → (∀ e ∈ u.fifo, e.rep < 65535) → (∀ i : Fin 64, u.loss[i].count < 65535) →
    eventsKnown (enqueueEvent u r) = eventsKnown u + 1 ∧ (u.fifo.length ≤ 256 → (enqueueEvent u r).fifo.length ≤ 256)
      ∧ (enqueueEvent u r).buckets = u.buckets ∧ (enqueueEvent u r).tail = u.tail

/-! ### Resets and power (R322, R326 to R341, R371, R377, R405) -/

/-- Every way into a device reset that the device's mode allows takes it, with the kind and cause of R328 and R329. A warm reset keeps
device time, puts the events not yet on the ring, with the losses, into the quench store, and changes host memory only by the completions
of its preparation; a cold one and one after a quench change none. -/
def Obligations.ResetsTaken : Prop :=
  ∀ s : State,
    (s.glb.mode.served = true → Gives (exec .warmReset s) fun t => ResetTaken 1 3 s t ∧ t.glb.time = s.glb.time
        ∧ t.qs.events = s.evt.fifo ∧ t.qs.loss = s.evt.loss ∧ t.qs.state = 2 ∧ t.hostMem = (prepareReset s).hostMem)
    ∧ (s.glb.mode = .service → Gives (exec .coldResetRequest s) fun t => ResetTaken 0 3 s t ∧ t.glb.time = 0 ∧ t.buf = State.reset.buf
        ∧ t.hostMem = s.hostMem)
    ∧ (s.glb.mode.resets = true → Gives (exec .perstAssert s) fun t => ResetTaken 1 1 s t ∧ t.glb.perst = true)
    ∧ (s.glb.mode.stewarded = true → Gives (exec .stewardWatchdog s) (ResetTaken 1 4 s))
    ∧ (s.glb.mode = .service → Gives (exec .serviceClose s) (ResetTaken 1 5 s))
    ∧ (s.glb.mode = .off → Gives (exec .vddAonRise s) fun t => ResetTaken 0 0 s t ∧ t.glb.time = 0 ∧ t.mot = {} ∧ t.hostMem = s.hostMem)
    ∧ (∀ vsense, s.glb.mode = .quench → restoreMv s.pwr.quenchCfg < vsense →
        Gives (exec (.quenchReset vsense true) s) fun t => ResetTaken 3 6 s t ∧ t.glb.time = s.glb.time ∧ t.qs.slotA = s.qs.slotA
          ∧ t.hostMem = s.hostMem)

/-- Power: VDD_AON failing, or the end of a quench, leaves OFF with no domain powered; THERMTRIP# latches and does nothing else;
PERST# released lets the port train; a lost host link reads down, and clears the pending bits only with a reset of the function. -/
def Sys2Proof.Claims.PowerPins : Prop :=
  ∀ s : State,
    (s.glb.mode ≠ .off → Gives (exec .vddAonFail s) fun t =>
        t.glb.mode = .off ∧ t.pwr.dom = 0 ∧ t.insts = State.reset.insts ∧ t.sec.floor = s.sec.floor ∧ t.sec.ingot = s.sec.ingot ∧ t.qs.slotA = s.qs.slotA)
    ∧ (s.glb.mode = .quench → Gives (exec .quenchPowerOff s) fun t =>
        t.glb.mode = .off ∧ t.pwr.dom = 0 ∧ t.insts = State.reset.insts ∧ t.sec.floor = s.sec.floor ∧ t.sec.ingot = s.sec.ingot ∧ t.qs.slotA = s.qs.slotA)
    ∧ (s.glb.mode ≠ .off → exec .thermtrip s = .next { s with glb := { s.glb with thermtrip := true } })
    ∧ exec .perstDeassert s = .next { s with glb := { s.glb with perst := false, training := s.glb.mode.resets && !s.hif.linkL0 } }
    ∧ (∀ resets, exec (.pcieLinkDown resets) s = .next { s with
        hif := { s.hif with linkL0 := false, linkSpeed := 0, linkWidth := 0 }
        msix := if resets then { s.msix with pba := 0 } else s.msix })

/-- A function reset (R328, R329) stays in the mode with the tape and the buffer as they are, voids challenge and staging, and resumes
every slot beyond what is stored (R105). -/
def Sys2Proof.Claims.FunctionResetStaysInMode : Prop :=
  ∀ (flr : Bool) (s : State), s.glb.mode.served = true →
    Gives (exec (.functionReset flr) s) fun t =>
      t.glb = { s.glb with rstKind := 2, rstCause := if flr then 2 else 3 }
        ∧ t.sec = { s.sec with challenge := none, staging := false, staged := s.sec.staged && !s.sec.staging }
        ∧ t.hif.linkL0 = s.hif.linkL0 ∧ t.hif.mqEn = false
        ∧ (∀ i : Fin 512, t.seqs[i] = { frontier := (storedSlot s i).frontier + 2 ^ 20, epoch := min ((storedSlot s i).epoch + 1) lastEpoch })
        ∧ t.evt = s.evt ∧ t.cart = s.cart ∧ t.buf = s.buf ∧ t.mot = s.mot ∧ t.qs = s.qs ∧ t.pwr = s.pwr

/-- Start-up, events 1 to 3 (R331): the reset released, slots resume exactly as a completed quench record left them, and otherwise
beyond what is stored (R105, R340); a passed RNG test leads to ATTEST with a fresh boot_id; a continuous failure, later, to PEWTER. -/
def Sys2Proof.Claims.StartUpBegins : Prop :=
  ∀ s : State,
    (s.glb.mode = .reset → s.glb.boot = .held →
        Gives (exec .powerOnResetRelease s) fun t =>
          t.glb.boot = .released
            ∧ (s.qs.state = 2 ∧ s.qs.number = s.qs.recorded ∧ s.qs.cause ≠ 3 →
                ∀ i : Fin 512, t.seqs[i] = { frontier := (storedSlot s i).frontier, epoch := (storedSlot s i).epoch })
            ∧ (¬(s.qs.state = 2 ∧ s.qs.number = s.qs.recorded ∧ s.qs.cause ≠ 3) →
                ∀ i : Fin 512, t.seqs[i] = { frontier := (storedSlot s i).frontier + 2 ^ 20, epoch := min ((storedSlot s i).epoch + 1) lastEpoch })
            ∧ t.qs.slotA = s.qs.slotA ∧ t.qs.slotB = s.qs.slotB ∧ t.sec = s.sec ∧ t.insts = s.insts ∧ t.hostMem = s.hostMem)
    ∧ (s.glb.mode = .reset → s.glb.boot = .released →
        Gives (exec .rngStartupPass s) fun t =>
          t.glb.mode = .attest ∧ t.glb.boot = .testing ∧ t.glb.bootId = (List.range 8).map (fun i => Config.rng (s.freeCtr + i)) ∧ t.sec.rngOk = true
            ∧ t.freeCtr = s.freeCtr + 8
            ∧ t.seqs = s.seqs ∧ t.insts = s.insts)
    ∧ (∀ tests, tests ≠ 0 → s.sec.rngOk = true → s.glb.mode.pewterFrom = true →
        Gives (exec (.rngContinuousFail tests) s) fun t =>
          t.glb.mode = .pewter ∧ t.sec.rngOk = false ∧ t.evt.pewterCause = 8 ∧ t.blks = [] ∧ t.streams = [] ∧ t.fmt.gateOpen = false)

/-- Start-up, events 4 to 6 (R331, R350): the images loaded, the running bank and the profile are as R358 and R349 choose, and the
measured block is taken; the boot entry signed, the alias key is derived from it, and a part with a bank and a valid profile assembles;
at the end of assembly it reaches IDLE and serves commands. -/
def Sys2Proof.Claims.StartUpCompletes : Prop :=
  ∀ s : State,
    (∀ f : FlashView, s.glb.mode = .attest → s.glb.boot = .testing →
        Gives (exec (.bootImagesLoaded f) s) fun t =>
          t.glb.mode = .attest ∧ t.glb.boot = .loaded ∧ t.sec.profileValid = (profileFault s f.profile f.itemsOk).isNone
            ∧ t.sec.measured = measuredBlock t ∧ t.sec.profileDigest = Sha.sha384 f.profile ∧ t.sec.floor = s.sec.floor ∧ t.insts = s.insts)
    ∧ (s.glb.mode = .attest → s.glb.boot = .loaded → s.sec.romPewter = false → s.sec.profileValid = true → s.sec.lifecycle ≠ 4 →
        Gives (exec .bootEntrySigned s) fun t =>
          t.glb.mode = .assemble ∧ t.pans.lock = true
            ∧ t.sec.aliasPriv = some (Ecc.privOf (Sha.hmac (Sha.hmac ((List.finRange 32).map Config.uds) (Sha.sha384 s.sec.measured)) (ascii "FX3-ALIAS"))))
    ∧ (s.glb.mode = .attest → s.glb.boot = .loaded → (s.sec.romPewter = true ∨ s.sec.profileValid = false) →
        Gives (exec .bootEntrySigned s) fun t => t.glb.mode = .pewter ∧ t.evt.pewterCause = 9)
    ∧ (assemblyDone s = true →
        exec .assemblyEnd s = .next (if s.glb.mode = .assemble then reachIdle (endRing s) else endRing s))
    ∧ (assemblyDone s = true → s.glb.mode = .assemble → Gives (exec .assemblyEnd s) fun t => t.glb.mode = .idle ∨ t.glb.mode = .pewter)

/-- A supply failure that is a detection (R334) takes the device into a quench (R335 to R339): every domain off, the write gates shut,
every block and stream gone, the link down; both copies of every slot's record in the quench store hold the slot's sequence state as it
stood, under the next number, so that a resumption uses no position twice. -/
def Obligations.QuenchSavesState : Prop :=
  ∀ (cause : Fin 3) (vsense window vholdEnd : Nat) (braking : Bool) (s : State), s.glb.mode ≠ .off → s.glb.mode ≠ .quench → detects s cause vsense = true →
    Gives (exec (.quenchDetect cause vsense window vholdEnd braking) s) fun t =>
      t.glb.mode = .quench ∧ t.pwr.dom = 0 ∧ t.pwr.qDone = true ∧ t.fmt.gateOpen = false ∧ t.blks = [] ∧ t.streams = [] ∧ t.hif.linkL0 = false
        ∧ t.qs.state = 2 ∧ t.qs.cause = cause.val ∧ t.qs.number = (s.qs.recorded + 1) % 2 ^ 32 ∧ t.qs.recorded = t.qs.number ∧ t.qs.time = s.glb.time
        ∧ t.qs.cartSerial = s.cart.serial ∧ t.qs.commitDsn = s.fmt.commitDsn ∧ t.qs.lx = s.srv.lx ∧ t.qs.speed = s.mot.speed
        ∧ (∀ i : Fin 512, t.qs.slotA[i] = { frontier := s.seqs[i].frontier, epoch := s.seqs[i].epoch, ok := true } ∧ t.qs.slotB[i] = t.qs.slotA[i])
        ∧ t.seqs = s.seqs ∧ t.sec.challenge = none ∧ t.sec.ingot = s.sec.ingot

/-- Once the tape has stopped in PEWTER with a valid profile, it is unloaded: the loops are off and cartridge memory was not written
(R379). A clear of the retirement map is noted in SERVICE and PEWTER (R371). TO_FIELD fuses the maker key's hash (R360); the known-answer
tests of SERVICE take their result; REASSEMBLE asks for a new assembly. -/
def Obligations.PewterAndServiceRows : Prop :=
  ∀ s : State,
    (s.glb.mode = .pewter → s.sec.profileValid = true → s.fmt.motion = .stopped →
        exec .pewterUnload s = .next { s with cart := {}, mot := { s.mot with loopEn := 0, state := .off }, srv := { s.srv with state := .off } })
    ∧ (s.glb.mode = .service ∨ s.glb.mode = .pewter → exec .retireClear s = .next { s with evt := { s.evt with retireClr := true } })
    ∧ (s.glb.mode.served = true → s.sec.lifecycle = 2 → s.sec.profileValid = true →
        exec .toField s = .next { s with sec := { s.sec with makerHash := some (Sha.sha384 s.sec.makerKey), lifecycle := 3 } })
    ∧ (∀ pass, s.glb.mode = .service → exec (.katStart pass) s = .next { s with codec := { s.codec with katDone := true, katPass := pass } })
    ∧ (s.glb.mode.served = true → exec .reassemble s = .next (tryReassemble { s with chn := { s.chn with reassemble := true } }))
    ∧ (s.glb.mode = .service → s.mov.svcPosted = false →
        exec .serviceDescriptorPost s = .next (postDesc (s.mov.svcDesc.toList.flatMap (fun w => leBytes 4 w.toNat)) true 0
          { s with mov := { s.mov with svcPosted := true, svcDone := false } }))
    ∧ (∀ by_ p on, s.mayDrive by_ = true → (s.pan p).countMode ≠ on → panHolds s p = false → s.glb.mode = .service →
        exec (.countModeWrite by_ p on) s = .next (s.modPan p (fun q => { q with countMode := on })))
    ∧ (s.glb.mode = .service → 2 ≤ s.buf.state → s.buf.state ≤ 4 → exec .fillRestart s = .next (fillFromZero s))

/-! ### Registers (R3 to R7, R381 to R388) -/

/-- A host's write of a plain read-write register, in the modes that take it (R384), reads back in its implemented bits and changes
neither the enclave, the sequence state, the instances nor host memory. -/
def Sys2Proof.Claims.RegisterWritesReadBack : Prop :=
  ∀ (r : Nat × Word) (v : Word) (s : State),
    (r ∈ [(0x8080, 0x000FFFFF), (0x8098, 0x0003FFFF), (0x80A0, 0x01FFFFFF), (0x80A4, 0xFFFFFFFF), (0xA800, 0x1F), (0xA810, 0xFFFF)
          , (0xA820, 0x003FFFFF), (0xA828, 3), (0xB000, 7), (0xB004, 0x003F7FFF), (0xD008, 0xFFFF), (0xD00C, 0xFFF), (0xE000, 0xF3)]
        ∧ s.glb.mode.served = true
      ∨ r ∈ [(0x4014, 0xFF), (0x401C, 0xFF01), (0xC030, 0xFFFF7FFF), (0xC034, 0xFFFF), (0xC038, 0xFFFFFFFF), (0xC03C, 0xFFFF7FFF), (0xC040, 0xFFFF)]
        ∧ s.glb.mode = .service) →
    Gives (exec (.registerWrite false r.1 v none) s) fun t =>
      readReg t r.1 &&& r.2 = v &&& r.2 ∧ t.sec = s.sec ∧ t.seqs = s.seqs ∧ t.insts = s.insts ∧ t.hostMem = s.hostMem ∧ t.glb = s.glb

/-- Offsets beyond BAR0's writable blocks and a steward's registers discard a host's write (R6, R382), blocks that a host may drive in
SERVICE only discard it in other modes (R384), and before event 6 of start-up BAR0 takes nothing (R389). -/
def Sys2Proof.Claims.RegisterWritesDiscarded : Prop :=
  ∀ (off : Nat) (v : Word) (s : State),
    (0x10000 ≤ off ∨ stewardAt off = true ∨ (s.glb.mode ≠ .service ∧ off / 0x1000 = 5) ∨ (s.glb.mode ≠ .service ∧ off / 0x1000 = 0xC)
        ∨ (s.glb.mode ≠ .service ∧ off / 0x1000 = 4) ∨ s.glb.mode.served = false) →
    exec (.registerWrite false off v none) s = .next s

/-- A 64-bit access is two of 32 bits, the lower address first (R3): a write of the lower word and then of the higher; a read that
returns both words, with what the first read changes in force for the second. -/
def Sys2Proof.Claims.WideAccesses : Prop :=
  ∀ (bar2 : Bool) (off : Nat) (v h : Word) (s : State), wellFormedAccess off 8 = true →
    (∃ t, exec (.registerWrite bar2 off v none) s = .next t
      ∧ exec (.registerWrite bar2 off v (some h)) s = exec (.registerWrite bar2 (off + 4) h none) t)
    ∧ (s.glb.mode.served = true → ∃ t u, exec (.rcFieldRead bar2 off false) s = .next t ∧ exec (.rcFieldRead bar2 (off + 4) false) t = .next u
        ∧ exec (.rcFieldRead bar2 off true) s = .next { u with glb := { u.glb with rdData := t.glb.rdData + 2 ^ 32 * u.glb.rdData } })

/-- A host's read returns what the register holds and then clears its RC fields (R4): read again, a register of RC fields alone is 0.
GLB_TIME_LO latches the high half of the same moment (R388). A malformed read returns zeros, a malformed write is discarded (R3). -/
def Sys2Proof.Claims.HostReads : Prop :=
  ∀ s : State, s.glb.mode.served = true →
    (∀ off ∈ [0x4028, 0x8084, 0xA824, 0xB020],
        Gives (exec (.rcFieldRead false off false) s) fun t => t.glb.rdData = (readReg s off).toNat ∧ readReg t off = 0 ∧ t.insts = s.insts ∧ t.sec = s.sec)
    ∧ (s.glb.time < 2 ^ 64 → Gives (exec .timeLoRead s) fun t =>
        t.glb.rdData + 2 ^ 32 * (readReg t 0x014).toNat = s.glb.time ∧ t.insts = s.insts ∧ t.sec = s.sec ∧ t.hostMem = s.hostMem)
    ∧ (∀ bar2 off size write, wellFormedAccess off size = false →
        exec (.malformedAccess bar2 off size write) s = .next (if write then s else { s with glb := { s.glb with rdData := 0 } }))

/-- The JTAG TAP: closed, an access has no effect (R360, R361); open, a read of a block's register returns it and clears nothing (R387),
one of a steward's register returns a value that the spec leaves open, a write acts as the block takes it, and one to a steward's register, after which the part is undefined, stops (R382). -/
def Sys2Proof.Claims.JtagAccesses : Prop :=
  ∀ (off : Nat) (s : State), s.glb.mode ≠ .off →
    (∀ bar2 value, s.tapOpen = false → exec (.jtagAccess bar2 off value) s = .next s)
    ∧ (s.tapOpen = true → stewardAt off = false → off ≠ 0x010 →
        exec (.jtagAccess false off none) s = .next { s with glb := { s.glb with rdData := (readReg s off).toNat } })
    ∧ (s.tapOpen = true → stewardAt off = true → ∃ w : Word,
        exec (.jtagAccess false off none) s = .next { s with glb := { s.glb with rdData := w.toNat }, nextId := s.nextId + 1 })
    ∧ (∀ v, s.tapOpen = true → stewardAt off = false → exec (.jtagAccess false off (some v)) s = .next (writeReg .jtag off v s))
    ∧ (∀ v, s.tapOpen = true → stewardAt off = true → exec (.jtagAccess false off (some v)) s = .fault .stewardWrite)

/-! ### Parameter sets, loops, motion, servo (R117 to R120, R167, R170 to R199, R398) -/

/-- A commit makes a channel's shadow set due at the next servo-frame boundary, or the one after when fewer than 64 channel bits are
left while the tape moves, unless one is due already; a commit of all does so on every channel of the map; at a boundary of a moving tape
a due set becomes the active one, and one that is due a boundary later waits; a tape that stands still has none (R117 to R119, R167). -/
def Sys2Proof.Claims.ParameterSetsSwap : Prop :=
  ∀ (c : Chan) (bitsLeft : Nat) (s : State),
    let n := if s.fmt.motion = .stopped ∨ 64 ≤ bitsLeft then 0 else 1
    (s.glb.mode.served = true →
      exec (.writeSetCommit c bitsLeft) s = .next { s with wch := vset s.wch c { s.wch[c] with pending := some (s.wch[c].pending.getD n) } }
      ∧ exec (.readSetCommit c bitsLeft) s = .next { s with rch := vset s.rch c { s.rch[c] with pending := some (s.rch[c].pending.getD n) } }
      ∧ (Gives (exec (.writeCommitAll bitsLeft) s) fun t =>
          t.fmt = { s.fmt with wswap := true } ∧ t.rch = s.rch ∧ t.rdc = s.rdc
            ∧ (c.val ∈ s.fmt.map.map (· % 128) → t.wch[c] = { s.wch[c] with pending := some (s.wch[c].pending.getD n) })
            ∧ (c.val ∉ s.fmt.map.map (· % 128) → t.wch[c] = s.wch[c]))
      ∧ (Gives (exec (.readCommitAll bitsLeft) s) fun t =>
          t.rdc = { s.rdc with rswap := true } ∧ t.wch = s.wch ∧ t.fmt = s.fmt
            ∧ (c.val ∈ s.fmt.map.map (· % 128) → t.rch[c] = { s.rch[c] with pending := some (s.rch[c].pending.getD n) })
            ∧ (c.val ∉ s.fmt.map.map (· % 128) → t.rch[c] = s.rch[c])))
    ∧ (∀ lx, s.fmt.motion ≠ .stopped →
      (Gives (exec (.servoFrameBoundary .write lx) s) fun t =>
          (s.wch[c].pending = some 0 → t.wch[c] = { s.wch[c] with pending := none, activeB := !s.wch[c].activeB, swapLx := BitVec.ofNat 16 lx })
            ∧ (s.wch[c].pending = none → t.wch[c] = s.wch[c])
            ∧ (∀ k, s.wch[c].pending = some (k + 1) → t.wch[c] = { s.wch[c] with pending := some k }) ∧ t.rch = s.rch ∧ t.rdc = s.rdc)
      ∧ (Gives (exec (.servoFrameBoundary .read lx) s) fun t =>
          (s.rch[c].pending = some 0 → t.rch[c] =
              { s.rch[c] with pending := none, activeB := !s.rch[c].activeB, swapLx := BitVec.ofNat 16 lx, low := List.replicate 10 0 })
            ∧ (s.rch[c].pending = none → t.rch[c] = s.rch[c])
            ∧ (∀ k, s.rch[c].pending = some (k + 1) → t.rch[c] = { s.rch[c] with pending := some k }) ∧ t.wch = s.wch ∧ t.fmt = s.fmt))
    ∧ (∀ line lx, s.fmt.motion = .stopped → exec (.servoFrameBoundary line lx) s = .next s)

/-- Coefficients and banks (R191): a write to a disabled loop or to the standby bank is in force at once; one to the active bank of a
running loop is queued, dropped when sixteen are queued; one to the standby bank while a swap is asked for is locked out. A swap of a
running loop waits for its sample. DESIGN CHOICE (log entry 13): a loop that is off swaps at once. -/
def Sys2Proof.Claims.CoefficientWrites : Prop :=
  ∀ (by_ : Source) (l : Fin 4) (k sec : Fin 2) (c : Fin 6) (value : BitVec 16) (s : State), s.mayDrive by_ = true →
    let i : Fin 24 := Fin.ofNat 24 (12 * k.val + 6 * sec.val + c.val)
    let v : BitVec 16 := if c.val = 5 then value &&& 7 else value
    let put := s.modLoop l (fun x => { x with coef := vset x.coef i v })
    let standby := (k.val == 1) != s.mot.loop[l].bankB
    (exec (.coefWrite by_ l k sec c value) s = .next
      (if s.loopOn l = false ∨ (standby = true ∧ s.mot.loop[l].swap = false) then put
       else if standby then { s with mot := { s.mot with coefLocked := true } }
       else if 16 ≤ s.mot.queue.length then { s with mot := { s.mot with coefDrop := true } }
       else { s with mot := { s.mot with queue := s.mot.queue ++ [(l.val, i.val, v)] } }))
    ∧ (s.loopOn l = true → exec (.coefBankSwap by_ l) s = .next (s.modLoop l (fun x => { x with swap := true })))
    ∧ (s.loopOn l = false → exec (.coefBankSwap by_ l) s = .next (s.modLoop l (fun x => { x with bankB := !x.bankB, swap := false })))

/-- The loop-enable field takes the value written (R189, R191, R198): a loop that starts has cleared section states and its limit's ramp
before it, one that stops has the output 0, every other stands. The first to start releases the brake, and the servo searches (R181). -/
def Sys2Proof.Claims.LoopEnables : Prop :=
  ∀ (by_ : Source) (mask : BitVec 4) (s : State), s.mayDrive by_ = true →
    Gives (exec (.loopEnable by_ mask) s) fun t =>
      t.mot.loopEn = mask ∧ t.fmt = s.fmt ∧ t.glb = s.glb ∧ t.sec = s.sec ∧ t.seqs = s.seqs
      ∧ (∀ l : Fin 4, (mask.getLsbD l.val = true → s.loopOn l = false →
            t.mot.loop[l] = { s.mot.loop[l] with sec0 := {}, sec1 := {}, ramp := 0, output := 0 })
          ∧ (mask.getLsbD l.val = false → s.loopOn l = true → t.mot.loop[l].output = 0)
          ∧ (mask.getLsbD l.val = s.loopOn l → t.mot.loop[l] = s.mot.loop[l]))
      ∧ (s.mot.loopEn = 0 → mask ≠ 0 → t.srv.state = .search ∧ t.srv.lxValid = false ∧ t.mot.brake = 0 ∧ t.mot.brakeSent = false)
      ∧ (s.mot.loopEn ≠ 0 ∨ mask = 0 → t.srv = s.srv ∧ t.mot.brake = s.mot.brake)

/-- A loop's output stays within its limit at every sample, and its section states within Q1.15, whatever the coefficients and the
input (R184, R185, R189). -/
def Obligations.LoopOutputBounded : Prop :=
  ∀ (l : Loop) (x : Int),
    (l.sample x).output ≤ fld l.lim 0 15 ∧ -(fld l.lim 0 15 : Int) ≤ (l.sample x).output
      ∧ -32768 ≤ (l.sample x).sec0.w1 ∧ (l.sample x).sec0.w1 ≤ 32767 ∧ -32768 ≤ (l.sample x).sec1.w1 ∧ (l.sample x).sec1.w1 ≤ 32767
      ∧ (l.sample x).coef = l.coef ∧ (l.sample x).bankB = l.bankB

/-- L1 and L3 samples (R183, R186, R187, R190). L1 has one in the periods whose out-frame's seq is a multiple of 8: the position is taken,
the speed reference moves toward its target and never past it; the loop, where it is on, computes on the position error, and while that is
within the limit of MOT_FOLLOW no fault is counted. L3 takes one sample for 16 of L2; a loop that is off computes nothing. -/
def Sys2Proof.Claims.SamplesAdvance : Prop :=
  ∀ (pos : Int) (s : State),
    let a := accelNow s
    let ref := stepRef s.mot.speedRef s.mot.target a.2
    let u := { s with mot := { s.mot with
      speedRef := ref, posRef := s.mot.posRef + (if s.srv.forward then (ref : Int) else -(ref : Int)), pos := pos
      speed := min (rounded 7 ((pos - s.mot.pos).natAbs * 127 : Nat) 1600).toNat 65535, delta := feedForward s a.1 } }
    let x := sat16 (rounded 8 (8 * u.mot.posRef - 635 * pos) 5000)
    (min s.mot.speedRef s.mot.target ≤ ref ∧ ref ≤ max s.mot.speedRef s.mot.target)
    ∧ (l1Due s.mot = false → exec (.l1Sample pos) s = .next s)
    ∧ (l1Due s.mot = true → s.loopOn 1 = false → exec (.l1Sample pos) s = .next u)
    ∧ (l1Due s.mot = true → s.loopOn 1 = true → x.natAbs ≤ 8 * fld s.mot.follow 0 16 →
        exec (.l1Sample pos) s = .next { runLoop 1 x u with mot := { (runLoop 1 x u).mot with overPos := 0 } })
    ∧ (16 ≤ s.srv.l2Count → s.loopOn 3 = false →
        exec .l3Sample s = .next { s with srv := { s.srv with l2Count := s.srv.l2Count - 16, azErrs := [] } })
    ∧ (16 ≤ s.srv.l2Count → s.loopOn 3 = true → Gives (exec .l3Sample s) fun t =>
        t.srv = { s.srv with l2Count := s.srv.l2Count - 16, azErrs := [] } ∧ t.glb = s.glb ∧ t.fmt = s.fmt ∧ t.mot.queue.length ≤ s.mot.queue.length
          ∧ t.mot.loop[(3 : Fin 4)].output ≤ fld s.mot.loop[(3 : Fin 4)].lim 0 15 ∧ -(fld s.mot.loop[(3 : Fin 4)].lim 0 15 : Int) ≤ t.mot.loop[(3 : Fin 4)].output)
    ∧ (s.srv.l2Count < 16 → exec .l3Sample s = .next s)

/-- The motion link (R194 to R198): MLSYNC ends the period before it and awaits an in-frame; a good in-frame gives the measured values
and ends the period; one that is wrong or absent is counted, and the period ends on the last values; the third in a row, and each after
it until the brake is on, is a motion fault. While the control engine is off, the link is too. -/
def Sys2Proof.Claims.MotionLinkPeriod : Prop :=
  ∀ s : State,
    (motionOn s = false → exec .mlsync s = .next s ∧ exec .inFrameAbsent s = .next s ∧ ∀ b, exec (.inFrame b) s = .next s)
    ∧ (motionOn s = true →
      exec .mlsync s = .next { endPeriod s with mot := { (endPeriod s).mot with awaiting := true } }
      ∧ (∀ b, inFrameOk b = true → exec (.inFrame b) s = .next (endPeriod { s with mot := { s.mot with
          linkOk := true, badFrames := 0, status := BitVec.ofNat 8 (u8 b 2), tMeas := signed 16 (u16 b 3), supplyCount := u16 b 5
          takeupCount := u16 b 7, supplyCurrent := signed 16 (u16 b 9), takeupCurrent := signed 16 (u16 b 11) } }))
      ∧ (∀ b, inFrameOk b = false →
          let u := { s with mot := { s.mot with crcErr := satInc 255 s.mot.crcErr, linkOk := false, badFrames := s.mot.badFrames + 1 } };
          (s.mot.badFrames < 2 ∨ s.mot.brake ≠ 0 → exec (.inFrame b) s = .next (endPeriod u))
          ∧ (2 ≤ s.mot.badFrames → s.mot.brake = 0 →
              exec (.inFrame b) s = .next (endPeriod (motionFault .motLink (leBytes 3 ((linkStat u.mot).toNat % 2 ^ 24)) u))))
      ∧ (let u := { s with mot := { s.mot with missing := satInc 255 s.mot.missing, linkOk := false, badFrames := s.mot.badFrames + 1 } };
          (s.mot.badFrames < 2 ∨ s.mot.brake ≠ 0 → exec .inFrameAbsent s = .next (endPeriod u))
          ∧ (2 ≤ s.mot.badFrames → s.mot.brake = 0 →
              exec .inFrameAbsent s = .next (endPeriod (motionFault .motLink (leBytes 3 ((linkStat u.mot).toNat % 2 ^ 24)) u)))))

/-- Stops and ramps (R134, R189, R192, R199): a stop shuts the gate and takes a moving tape's speed target to 0; a brake does so at once
with code 2 sent and every loop off; a finished ramp stands at its target, and a speed of R134 is reported; a tape that stops outside the
moving modes, with no move and no management command that holds it, reads speed 0, code 7. -/
def Obligations.StopsAndRamps : Prop :=
  ∀ (by_ : Source) (s : State),
    (s.mayDrive by_ = true →
      (s.mot.state = .running ∨ s.mot.state = .softStart → exec (.motionStop by_) s = .next { s with
        mot := { s.mot with stop := true, state := .stopping, target := 0 }, fmt := { s.fmt with gateOpen := false, motion := .stopping, moveFor := .none } })
      ∧ (s.mot.state ≠ .running → s.mot.state ≠ .softStart → exec (.motionStop by_) s = .next { s with fmt := { s.fmt with gateOpen := false } })
      ∧ (Gives (exec (.motionBrake by_) s) fun t =>
          t.fmt = { s.fmt with gateOpen := false } ∧ t.mot.state = .braked ∧ t.mot.brake = 2 ∧ t.mot.brakeSent = true ∧ t.mot.loopEn = 0
            ∧ t.glb = s.glb ∧ t.srv = s.srv))
    ∧ (s.mot.state = .running ∨ s.mot.state = .stopping ∨ s.mot.state = .softStart → Gives (exec .rampEnd s) fun t =>
        t.mot = { s.mot with speedRef := s.mot.target } ∧ t.fmt.ramping = false
          ∧ (∀ c, s.mot.target ≠ 0 → codeOfSpeed (s.mot.target / 1000) = some c → t.fmt.spCur = c) ∧ t.glb = s.glb)
    ∧ (s.mot.state = .stopping → s.mot.islandReset = false → s.glb.mode = .threaded → s.fmt.moveFor = .none → tapeHeld s = false →
        Gives (exec .tapeStopped s) fun t =>
          t.mot.state = .stopped ∧ t.mot.speed = 0 ∧ t.mot.speedRef = 0 ∧ t.mot.target = 0 ∧ t.fmt.motion = .stopped ∧ t.fmt.spCur = 7
            ∧ t.glb = s.glb ∧ t.srv = s.srv)

/-- Servo frames (R176, R179, R181): a frame that an element finds valid gives its position error. A missed frame counts and makes both
elements' positions invalid. Where no loop has to be started for a write that fails, the fourth valid frame in a row of Search with a
valid LX locks; a missed frame moves LX on by prediction; up to fly_max the servo flies on, then it is fenced, and after the limit of R181
it searches. -/
def Sys2Proof.Claims.ServoFrames : Prop :=
  ∀ s : State,
    (∀ (f : ServoFrame) y, s.srv.state ≠ .off → rbit s.srv.ctrl 0 = true → f.elemA.bind (elemY s 0) = some y → rbit s.srv.ctrl 1 = false →
        Gives (exec (.servoFrameDecided f) s) fun t => t.srv.validA = true ∧ t.srv.validB = false ∧ t.srv.pes = pesOf y.1 (targetY s 0)
          ∧ (s.mot.loopEn ≠ 0 ∨ s.glb.mode ≠ .append →
              (s.srv.state = .search → 3 ≤ s.srv.good → (takeLx f.lxField s.srv).lxValid = true → t.srv.state = .locked)
              ∧ (s.srv.state = .search → s.srv.good < 3 → t.srv.state = .search)))
    ∧ (s.srv.state ≠ .off → Gives (exec .frameMissed s) fun t =>
        t.srv.cntMissed = satInc 65535 s.srv.cntMissed ∧ t.srv.validA = false ∧ t.srv.validB = false
          ∧ (s.mot.loopEn ≠ 0 ∨ s.glb.mode ≠ .append →
              t.srv.missed = s.srv.missed + 1
              ∧ (s.srv.state ≠ .search → s.srv.missed + 1 ≤ fld s.srv.fence 16 2 → s.srv.missed + 1 < max 4 (fld s.srv.fence 18 4) →
                  t.srv.state = .flywheel ∧ (s.srv.lxValid = true → t.srv.lx = nextLx s.srv))
              ∧ (s.srv.state ≠ .search → fld s.srv.fence 16 2 < s.srv.missed + 1 → s.srv.missed + 1 < max 4 (fld s.srv.fence 18 4) →
                  t.srv.state = .fenced ∧ t.srv.gateOk = false)
              ∧ (max 4 (fld s.srv.fence 18 4) ≤ s.srv.missed + 1 ∨ s.srv.state = .search → t.srv.state = .search)))

/-- PAFLT# drops its write gate, and keeps it shut after it returns high until a whole frame has passed (R398); no other gate moves. -/
def Sys2Proof.Claims.PreampFaults : Prop :=
  ∀ (k : Fin 8) (s : State),
    (Gives (exec (.pafltAssert k) s) fun t =>
        t.fmt.paflt = s.fmt.paflt ||| BitVec.twoPow 8 k.val ∧ t.fmt.pafltShut = s.fmt.pafltShut ||| BitVec.twoPow 8 k.val
          ∧ wgate t = wgate s &&& ~~~BitVec.twoPow 8 k.val ∧ t.fmt.gateOpen = s.fmt.gateOpen ∧ t.mot = s.mot)
    ∧ (Gives (exec (.pafltDeassert k) s) fun t =>
        t.fmt.paflt = s.fmt.paflt &&& ~~~BitVec.twoPow 8 k.val ∧ t.fmt.pafltFrame.getLsbD k.val = false ∧ wgate t = wgate s ∧ t.mot = s.mot)

/-- The Gray field of every stripe index reads back as that index (R173), and four frames of one group, each with its own quarter,
byte and a good CRC, give the LX that the bytes spell (R178, R179). -/
def Sys2Proof.Claims.ServoFieldsDecode : Prop :=
  (∀ k, k < 1024 → ungray 10 (grayOf k) = k)
    ∧ ∀ (f : Fin 4 → BitVec 16) (b : Fin 4 → Nat) (q : Srv), q.lxValid = false → q.forward = true → q.group = [] →
        (∀ i, lxParts (f i) = (i.val, b i, true)) →
        let t := takeLx (f 3) (takeLx (f 2) (takeLx (f 1) (takeLx (f 0) q)))
        t.lxValid = true ∧ t.lx = b 0 + 256 * (b 1 + 256 * (b 2 + 256 * b 3)) + 3


/-- Parameter sets of the write channels (R119): from an accepted commit until its swap the shadow set is locked: a write to it is dropped
and sets the sticky bit, and nothing else; a write to the active set is dropped at any time and sets nothing. -/
def Sys2Proof.Claims.ShadowLocks : Prop :=
  ∀ (c : Chan) (b : Bool) (v : Word) (s : State), s.glb.mode.served = true →
    let off := 0x9000 + 16 * c.val + if b then 4 else 0
    (s.wch[c].activeB = b → exec (.registerWrite false off v none) s = .next s)
    ∧ (s.wch[c].activeB ≠ b → s.wch[c].pending.isSome = true →
        exec (.registerWrite false off v none) s = .next { s with wch := vset s.wch c { s.wch[c] with shadowLocked := true } })
    ∧ (s.wch[c].activeB ≠ b → s.wch[c].pending = none →
        exec (.registerWrite false off v none) s = .next { s with wch := vset s.wch c (if b then { s.wch[c] with setB := v &&& 0x1FFFF }
          else { s.wch[c] with setA := v &&& 0x1FFFF }) })

/-! ### Read channels, clock tracks, positions, the pace window (R13 to R15, R130, R135, R141 to R162, R421) -/

/-- Timing and adaptation (R141, R142, R146): 32 bits move a running channel's offset by the detector's sum, scaled, by at most two
steps; phase and turns hold the base phase, the skew term of its place and the offset; at each turn that the phase passes the bit index
moves by 1 and a wrap is logged; a lost input freezes the skew; a stopped channel samples nothing. A step of mu takes its CWOs and adds
one below the floor. The spec does not state the rounding of the quotient; it is free (log entry 14). -/
def Sys2Proof.Claims.TimingTracks : Prop :=
  ∀ (c : Chan) (samples : List Int) (sum phiA phiB : Int) (s : State),
    (s.rch[c].sync = .stopped → exec (.timingUpdate c samples sum phiA phiB) s = .next s)
    ∧ (s.rch[c].sync ≠ .stopped → Gives (exec (.timingUpdate c samples sum phiA phiB) s) fun t =>
        t.rch[c].tau = s.rch[c].tau + clampI (-2) 2 (roundShift sum (fld s.rdc.adapt 12 4)) ∧ t.rch[c].phase < 64
          ∧ 64 * t.rch[c].turns + t.rch[c].phase
              = basePhase t.rdc + (if rbit s.rdc.clkCfg 4 then rounded 3 (t.rdc.skew * (2 * c.val + 1)) 256 else 0) + t.rch[c].tau
          ∧ (s.rdc.lockA = true → t.rdc.phiA = phiA) ∧ (s.rdc.lockB = true → t.rdc.phiB = phiB)
          ∧ (s.rdc.lockA = true → s.rdc.lockB = true → t.rdc.skew = phiB - phiA)
          ∧ (s.rdc.lockA = false ∨ s.rdc.lockB = false → t.rdc.skew = s.rdc.skew)
          ∧ t.rch[c].count = s.rch[c].count + samples.length + (t.rch[c].turns - s.rch[c].turns)
          ∧ t.rch[c].wraps = List.replicate (t.rch[c].turns - s.rch[c].turns).natAbs
              (s.rch[c].count + samples.length, if t.rch[c].turns < s.rch[c].turns then -1 else 1) ++ s.rch[c].wraps
          ∧ (∀ d : Chan, d ≠ c → t.rch[d] = s.rch[d]) ∧ t.fmt = s.fmt ∧ t.wch = s.wch ∧ t.rtv = s.rtv)
    ∧ (max 1 (fld s.rdc.adapt 8 4) ≤ s.rch[c].muCwos → exec (.muStep c) s = .next (s.modRch c (fun r =>
        { r with muCwos := r.muCwos - max 1 (fld s.rdc.adapt 8 4), mu := if r.mu < muFloor s.rdc.adapt then r.mu + 1 else r.mu })))
    ∧ (s.rch[c].muCwos < max 1 (fld s.rdc.adapt 8 4) → exec (.muStep c) s = .next s)

/-- Of the candidates of a search window the one chosen is at the lowest distance, and of those the nearest to the expected position
(R150, R153); none is chosen only when there is none. -/
def Sys2Proof.Claims.BestMarkWins : Prop :=
  ∀ (e : Int) (cands : List (Int × Nat)),
    (bestCand e cands = none ↔ cands = [])
      ∧ ∀ b, bestCand e cands = some b → b ∈ cands ∧ ∀ a ∈ cands, b.2 ≤ a.2
          ∧ (b.2 = a.2 → (b.1 - e).natAbs ≤ (a.1 - e).natAbs ∧ ((b.1 - e).natAbs = (a.1 - e).natAbs → b.1 ≤ a.1))

/-- Search windows (R149 to R152): in tracking a window closes once the last bit of its last candidate has arrived; a channel that is not the
last of its tier notes the best SM32 within 24 bits at distance 3 or less, and whether the separator's tone stands there; with the last one the
tier is decided. A channel out of service, and one whose window has closed, take no part; a channel that holdover stopped counts the CWO as
not found while RETRIEVE reads. -/
def Sys2Proof.Claims.MarkWindows : Prop :=
  ∀ (c : Chan) (tone : Int) (s : State),
    let r := s.rch[c]
    let u := { s with rdc := { s.rdc with windows := s.rdc.windows ++ [(c.val,
      (bestCand r.expected (r.marksNear c.val (bitsMsb 32 sm32) 3 r.expected 24)).map (fun x => (x.2, x.1)),
      decide (hamming (Machine.tone 32) (r.bitsFrom c.val r.expected 32) ≤ 3))] } }
    (s.retired 1 c.val = true ∨ s.rdc.windows.any (fun w => w.1 == c.val) = true → exec (.syncWindowClose c tone) s = .next s)
    ∧ (s.retired 1 c.val = false → s.rdc.windows.any (fun w => w.1 == c.val) = false →
      (r.sync = .stopped → exec (.syncWindowClose c tone) s =
          .next (if s.glb.mode = .retrieve ∧ s.fmt.motion = .running then noteMissing c.val s else s))
      ∧ (r.sync = .tracking ∨ r.sync = .flywheeling → s.rdc.inSeparator = false →
          (r.arrived (r.expected + 55) = false → exec (.syncWindowClose c tone) s = .next s)
          ∧ (r.arrived (r.expected + 55) = true → (∃ k ∈ rchUp s, k ≠ c.val ∧ s.rdc.windows.any (fun w => w.1 == k) = false) →
              exec (.syncWindowClose c tone) s = .next u)
          ∧ (r.arrived (r.expected + 55) = true → (∀ k ∈ rchUp s, k = c.val ∨ s.rdc.windows.any (fun w => w.1 == k) = true) →
              exec (.syncWindowClose c tone) s = .next (decideTier u))))

/-- Resync marks (R153, R155): a window closes once its bits have arrived; a mark found in its place changes nothing, one that is not found
leaves the alignment, one at offset d is a slip that moves it by d; the window of RM3 offers the CWO, which gets a serial number, and the
next SM32 is expected 19,280 bits on. -/
def Sys2Proof.Claims.ResyncWindows : Prop :=
  ∀ (c : Chan) (j : Fin 4) (s : State),
    let r := s.rch[c]
    let p := r.chosen - 48 + r.slipOff + resyncOffset j.val
    let best := bestCand p (r.marksNear c.val (bitsMsb 16 (resyncMark j.val)) 2 p 4)
    (r.framing = false ∨ r.arrived (p + 19) = false → exec (.resyncWindowClose c j) s = .next s)
    ∧ (r.framing = true → r.arrived (p + 19) = true →
      (j ≠ 3 → best = none → exec (.resyncWindowClose c j) s = .next (s.modRch c (fun r => { r with marksOk := false })))
      ∧ (∀ k, j ≠ 3 → best = some (p, k) → exec (.resyncWindowClose c j) s = .next s)
      ∧ (∀ d k, j ≠ 3 → best = some (p + d, k) → d ≠ 0 → Gives (exec (.resyncWindowClose c j) s) fun t =>
          t.rch[c].slipOff = r.slipOff + d ∧ t.rch[c].slipLog = r.slipLog ++ [(d, j.val)] ∧ t.rch[c].marksOk = false
            ∧ t.rch[c].slips = satInc 255 r.slips ∧ t.rch[c].chosen = r.chosen ∧ (∀ e : Chan, e ≠ c → t.rch[e] = s.rch[e]) ∧ t.rdc = s.rdc)
      ∧ (j = 3 → Gives (exec (.resyncWindowClose c j) s) fun t =>
          t.nextId = s.nextId + 1 ∧ t.rch[c].framing = false
            ∧ (∃ x, t.rch[c].jobs = r.jobs ++ [x] ∧ x.id = s.nextId ∧ x.chosen = r.chosen ∧ x.attempts.head? = some r.chosen
                ∧ x.slipOff = r.slipOff + (match best with | some y => y.1 - p | none => 0) ∧ x.marksOk = (r.marksOk && best.map (·.1) == some p)
                ∧ t.rch[c].expected = (if r.found then r.chosen else r.base) + x.slipOff + 19280)
            ∧ (∀ e : Chan, e ≠ c → t.rch[e] = s.rch[e]) ∧ t.rdc = s.rdc))

/-- Attempts (R31, R148, R155 to R159): the oldest CWO that may makes its next attempt once the header has arrived; one whose samples are
overwritten is abandoned. With an accepted header it waits for a core behind those before it; while none waits it takes the lowest free
core in service, which copies its samples; a first attempt whose header is not accepted ends alone while others are left. Every attempt but
the first counts as a retry. -/
def Sys2Proof.Claims.AttemptsTakeCores : Prop :=
  ∀ (c : Chan) (j : CwoJob) (a : Int) (s : State), s.rch[c].jobs.find? (mayAttempt s) = some j → j.attempts.head? = some a →
    let header := s.rch[c].headerAt c.val a
    let u := if a = j.chosen then s else s.modRch c (fun r => { r with retries := satInc 255 r.retries })
    let put (o : Option (Option C1Out)) : State :=
      u.modJob c j.id (fun x => { x with attempts := x.attempts.drop 1, running := x.running ++ [(a, header, o)] })
    let q : C1Req := { order := if a = j.chosen then j.id else s.nextId, chan := c.val, id := j.id, align := a }
    (s.rch[c].arrived (a + 19231) = false → exec (.headerDecodeDone c) s = .next s)
    ∧ (s.rch[c].arrived (a + 19231) = true → s.rch[c].standing (a + 32) = false →
        exec (.headerDecodeDone c) s = .next (settleJob c j.id (s.modJob c j.id (fun x => x.abandon a))))
    ∧ (s.rch[c].arrived (a + 19231) = true → s.rch[c].standing (a + 32) = true →
      ((headerAccepted j.wrap header).isSome = true →
        ((∀ k : Fin 16, s.rdc.core[k].isSome = true ∨ s.retired 2 k.val = true) → exec (.headerDecodeDone c) s = .next
            { put none with rdc := { s.rdc with coreQueue := enqueue q s.rdc.coreQueue } })
        ∧ (∀ k : Fin 16, s.rdc.coreQueue = [] → s.rdc.core[k] = none → s.retired 2 k.val = false →
            (∀ i : Fin 16, i < k → s.rdc.core[i].isSome = true ∨ s.retired 2 i.val = true) → exec (.headerDecodeDone c) s = .next
              { put none with rdc := { s.rdc with core := vset s.rdc.core k (some (copyIn (put none) q)) } }))
      ∧ (headerAccepted j.wrap header = none → j.running = [] → 2 ≤ j.attempts.length →
          exec (.headerDecodeDone c) s = .next (put (some none))))

/-- The end of a C1 run (R122, R156, R158, R159): a core whose decoding does not converge is free again, and the CWO goes on with its other
attempts; in APPEND the CWO that converged at its chosen alignment is done, and verify has its header, its marks and its row. A CWO
overwritten before any attempt was made is done too, and counts as overwritten (R12); one that stands stays. -/
def Sys2Proof.Claims.C1RunsEnd : Prop :=
  ∀ (s : State),
    (∀ (k : Fin 16) ok, s.rdc.core[k] = none → exec (.c1DecodeDone k ok) s = .next s)
    ∧ (∀ (k : Fin 16) (ok : Bool) (c : Chan) (j : CwoJob) (q : C1Req) (h : Bytes), s.rdc.core[k] = some q → q.chan = c.val → q.id = j.id →
        q.align = j.chosen → s.rch[c].jobs = [j] → s.rdc.coreQueue = [] → j.running = [(j.chosen, h, none)] →
        let res := c1Outcome (iterCap s) (q.input.getD ([], []))
        (res = none → j.attempts ≠ [] → Gives (exec (.c1DecodeDone k ok) s) fun t =>
            t.rdc.core[k] = none ∧ t.rch[c].jobs = [{ j with running := [(j.chosen, h, some none)] }]
              ∧ t.rdc.converged = s.rdc.converged ∧ t.evt = s.evt ∧ t.rtv = s.rtv ∧ t.fmt = s.fmt)
        ∧ (∀ o, res = some o → s.glb.mode = .append → j.slips = [] → Gives (exec (.c1DecodeDone k ok) s) fun t =>
            t.rdc.core[k] = none ∧ t.rch[c].jobs = [] ∧ t.rdc.converged = satInc 65535 s.rdc.converged ∧ t.rtv = s.rtv ∧ t.fmt = s.fmt
              ∧ t.rch[c].done = s.rch[c].done ++ [{ header := some h, smDist := j.smDist, flywheeled := !j.found, marksOk := j.marksOk
                                                    out := some o, overwritten := j.overwritten }]))
    ∧ (∀ (c : Chan), (∀ j ∈ s.rch[c].jobs, lostAttempts c j s = []) → exec (.sampleOverwrite c) s = .next s)
    ∧ (∀ (c : Chan) (j : CwoJob), s.rch[c].jobs = [j] → j.running = [] → j.slips = [] → j.attempts ≠ [] →
        (∀ a ∈ j.attempts, s.rch[c].standing (a + 32) = false) → s.glb.mode = .append → Gives (exec (.sampleOverwrite c) s) fun t =>
          t.rch[c].jobs = [] ∧ (∃ b, t.rch[c].done = s.rch[c].done ++ [b] ∧ b.overwritten = true ∧ b.out = none)
            ∧ t.rdc.core = s.rdc.core ∧ t.fmt = s.fmt ∧ t.rtv = s.rtv)

/-- Clock tracks (R142, R143): the loss of an input counts and is an event; both lost is holdover for hold_frames, and in APPEND the gate
drops; an input back ends it, and the gate may reopen only with both; channels that holdover stopped acquire again. A holdover that ends
stops every channel, in the middle of a CWO too. A lock of the synthesiser in a zone puts every channel into acquisition. -/
def Sys2Proof.Claims.ClockTracks : Prop :=
  ∀ (b : Bool) (s : State),
    let one := if b then s.rdc.lockB else s.rdc.lockA
    let other := if b then s.rdc.lockA else s.rdc.lockB
    let held := { s.rdc with lockA := false, lockB := false, losses := satInc 65535 s.rdc.losses, holdover := true
                             holdLeft := max 1 (fld s.rdc.clkCfg 0 4) }
    (one = false → exec (.ctLost b) s = .next s)
    ∧ (one = true → other = true → Gives (exec (.ctLost b) s) fun t =>
        t.rdc = { s.rdc with lockA := b, lockB := !b, losses := satInc 65535 s.rdc.losses } ∧ t.fmt = s.fmt ∧ t.rch = s.rch
          ∧ t.evt = (raiseEv .ctLost 0xB noRes noInst (leBytes 1 (bit b)) s).evt)
    ∧ (one = true → other = false → s.glb.mode ≠ .append → Gives (exec (.ctLost b) s) fun t => t.rdc = held ∧ t.fmt = s.fmt ∧ t.rch = s.rch)
    ∧ (one = true → other = false → s.glb.mode = .append → Gives (exec (.ctLost b) s) fun t => t.rdc = held ∧ t.fmt.gateOpen = false ∧ t.rch = s.rch)
    ∧ (s.glb.mode = .append ∨ s.glb.mode = .retrieve → Gives (exec (.ctRegained b) s) fun t =>
        t.rdc.lockA = (s.rdc.lockA || !b) ∧ t.rdc.lockB = (s.rdc.lockB || b) ∧ t.rdc.holdover = false
          ∧ t.fmt = { s.fmt with ctGate := s.fmt.ctGate && !other }
          ∧ ((∃ k : Chan, s.rch[k].sync ≠ .stopped) → t.rch = s.rch)
          ∧ ((∀ k : Chan, s.rch[k].sync = .stopped) → ∀ k : Chan, t.rch[k].sync = .acquisition))
    ∧ (s.glb.mode ≠ .append → s.glb.mode ≠ .retrieve → exec (.ctRegained b) s = .next { s with
        rdc := { s.rdc with lockA := s.rdc.lockA || !b, lockB := s.rdc.lockB || b, holdover := false }
        fmt := { s.fmt with ctGate := s.fmt.ctGate && !other } })
    ∧ (s.rdc.holdover = true → s.rdc.holdLeft = 0 → exec .holdoverEnd s = .next
        { s with rch := s.rch.map (fun r => { r with sync := .stopped, framing := false })
                 rdc := { s.rdc with holdover := false, windows := [] } })
    ∧ (s.rdc.holdover = false ∨ 0 < s.rdc.holdLeft → exec .holdoverEnd s = .next s)
    ∧ (∀ z, s.glb.mode = .append ∨ s.glb.mode = .retrieve → Gives (exec (.synthLock z) s) fun t =>
        t.rdc.zone = z.val ∧ (∀ k : Chan, t.rch[k].sync = .acquisition ∧ t.rch[k].framing = false) ∧ t.fmt = s.fmt ∧ t.rtv = s.rtv)
    ∧ (∀ z, s.glb.mode ≠ .append → s.glb.mode ≠ .retrieve → exec (.synthLock z) s = .next s)

/-- Reading goes on (R57, R160 to R162, R130, R421): a dataset whose rows C2 does not complete is read again while passes are left; a
reader that stopped for its read-ahead starts when half is taken; a position reached opens the gate of APPEND for a splice, a recovery or a
wrap turn, begins or goes on with RETRIEVE at the wrap for a read, lets the work of a management command end, and for LOCATE or no other
purpose stops the tape. -/
def Sys2Proof.Claims.ReadingGoesOn : Prop :=
  ∀ s : State,
    (∀ dsn d e, s.glb.mode = .retrieve → s.rdAt dsn 0 = some d → d.complete = false → d.lost = false → (erasePoison d s).rdAt dsn 0 = some e →
        e.c2Fill.full = false → e.pass < rereadMax (erasePoison d s) → Gives (exec (.datasetRecovery dsn) s) fun t =>
          t.rtv.reread = some (dsn, e.pass + 1) ∧ t.fmt.moveFor = .reread ∧ t.glb = (erasePoison d s).glb)
    ∧ (s.glb.mode = .retrieve → s.rtv.stopped = true → s.fmt.motion = .stopped → s.rtv.eodSeen = false → aheadCount s ≤ rdAhead s / 2 →
        Gives (exec .readAheadRestart s) fun t =>
          t.rtv = { s.rtv with stopped := false } ∧ t.fmt.motion = .positioning ∧ t.fmt.moveFor = .readStart ∧ t.mot.target = 6500000 ∧ t.glb.mode = .retrieve)
    ∧ (∀ wrap,
        (s.fmt.motion = .positioning → s.fmt.moveFor = .splice ∨ s.fmt.moveFor = .recovery ∨ (s.fmt.moveFor = .turn ∧ s.glb.mode = .append) →
          Gives (exec (.positionReached wrap) s) fun t =>
            t.glb.mode = .append ∧ t.fmt.motion = .running ∧ t.fmt.gateWanted = true ∧ t.fmt.gateOpen = (s.srv.gateOk && !s.fmt.ctGate)
              ∧ t.srv.forward = wrapForward t.fmt.wrap ∧ t.mot.target = speedMm t.fmt.spCur * 1000 ∧ (∀ k : Chan, t.rch[k].sync = .acquisition))
        ∧ ((s.fmt.motion = .positioning ∧ (s.fmt.moveFor = .readStart ∨ s.fmt.moveFor = .reread ∨ (s.fmt.moveFor = .turn ∧ s.glb.mode ≠ .append)))
              ∨ (s.fmt.motion = .running ∧ s.glb.mode = .retrieve) →
          Gives (exec (.positionReached wrap) s) fun t =>
            t.glb.mode = .retrieve ∧ t.rtv.wrap = wrap.val ∧ t.fmt.motion = .running ∧ t.rtv.stopped = false ∧ t.srv.forward = wrapForward wrap.val
              ∧ t.rdc.zone = zoneOf wrap.val ∧ t.mot.target = speedMm t.fmt.spCur * 1000 ∧ (∀ k : Chan, t.rch[k].sync = .acquisition))
        ∧ (s.fmt.motion = .positioning → s.fmt.moveFor = .mgmt → exec (.positionReached wrap) s = .next (endTapeWork s))
        ∧ (s.fmt.motion = .positioning → s.fmt.moveFor = .locate ∨ s.fmt.moveFor = .none → s.mot.state = .running → Gives (exec (.positionReached wrap) s) fun t =>
            t.glb.mode = s.glb.mode ∧ t.rtv.wrap = wrap.val ∧ t.fmt.motion = .stopping ∧ t.mot.target = 0 ∧ t.srv.forward = wrapForward wrap.val)
        ∧ (s.fmt.motion ≠ .positioning → (s.fmt.motion = .running → s.glb.mode ≠ .retrieve) → exec (.positionReached wrap) s = .next s))

/-- The end of a pace window in a mode with power (R13 to R15, R135): the window's counts start again at 0, CMP_RATIO is the ratio of
what was coded, the intake of the window joins the history of 64, and with the monitor on every powered site's last ratio is that of its
count. -/
def Sys2Proof.Claims.PaceWindow : Prop :=
  ∀ (counts : List Nat) (waited : Nat) (s : State), s.glb.mode ≠ .off → s.glb.mode ≠ .reset → s.glb.mode ≠ .quench →
    Gives (exec (.paceWindowEnd counts waited) s) fun t =>
      t.codec.winIn = 0 ∧ t.codec.winCoded = 0 ∧ (s.codec.winCoded ≠ 0 → t.codec.ratio = min 65535 (rounded 12 (s.codec.winIn * 4096 : Nat) s.codec.winCoded).toNat)
        ∧ t.codec.ratioValid = (s.codec.winCoded != 0) ∧ t.fmt.winIntake = 0 ∧ t.fmt.intake = (s.fmt.winIntake :: s.fmt.intake).take 64
        ∧ (rbit s.pace.ctrl 0 = true → t.pace.valid = true ∧ ∀ i : Fin 8, siteOn s i.val = true →
            t.pace.last[i] = some (counts.getD i.val 0 % 2 ^ 24 * 16384 / s.pace.nom[i]))
        ∧ (rbit s.pace.ctrl 0 = false → t.pace = s.pace) ∧ (∀ v, (t.inst v).share = (t.inst v).shareNext) ∧ t.rch = s.rch
        ∧ (s.glb.mode ≠ .retrieve → t.mot = s.mot)

/-! ### Coding, sealing, datasets, judgement, commit (R18 to R21, R43 to R47, R87 to R94, R112 to R116, R122 to R131, R137, R288) -/

/-- What a cipher engine seals it opens again (R87, R93): with the same key, salt, counter, epoch, tag, partition and session a sealed
block gives back the coded block, header, block CRC and body; whatever the tag compare accepts carries the block CRC of its text. -/
def Obligations.SealedBlocksOpen : Prop :=
  ∀ (key coded : Bytes) (salt counter epoch tag part session : Nat), key.length = 32 → 16 ≤ coded.length →
    coded = withBlockCrc (slice coded 0 12) (coded.drop 16) →
    openBlock key salt counter epoch tag part session (sealBlock key salt counter epoch tag part session coded) = some coded
      ∧ ∀ blk plain, openBlock key salt counter epoch tag part session blk = some plain →
          plain = withBlockCrc (slice blk 0 12) (plain.drop 16) ∧ blk.length = plain.length + 16

/-- Attempts (R20, R21): three on an engine, three on another where there is one, three after the stage before is repeated, and then the
block is lost: whatever engines are in service meanwhile, nine failures lose it and fewer than six never do. -/
def Sys2Proof.Claims.AttemptsEnd : Prop :=
  let fail (n : Nat) (t : Option Tries) (others : Bool) : Option Tries := t.bind (fun t => match retryAfter t n others with
    | .again u | .other u | .before u => some u
    | .lost => none)
  ∀ (n : Nat) (l : List Bool), (9 ≤ l.length → l.foldl (fail n) (some {}) = none) ∧ (l.length < 6 → (l.foldl (fail n) (some {})).isSome = true)

/-- A slice or an engine is done with a block that has had no trouble (R79, R87, R89, R93, R111): the coded, sealed, opened or decoded bytes
are those of the codec, and the block goes to the next stage. One that holds no block has nothing to do. -/
def Sys2Proof.Claims.EnginesFinish : Prop :=
  ∀ s : State,
    (∀ (n : Fin 8) check, codedIn s n = none → exec (.sliceCodeDone n check) s = .next s)
    ∧ (∀ (n : Fin 8) b, codedIn s n = some b → b.tries.first = none → Gives (exec (.sliceCodeDone n .pass) s) fun t =>
        let coded := codeBlock b.effort (seedOf b) b.head b.input
        (∃ x ∈ t.blks, x.id = b.id ∧ x.coded = coded) ∧ t.codec.winIn = s.codec.winIn + b.input.length
          ∧ t.codec.winCoded = s.codec.winCoded + coded.length ∧ t.codec.slices[n].blocks = s.codec.slices[n].blocks + 1
          ∧ t.streams = s.streams ∧ t.fmt = s.fmt ∧ t.insts = s.insts ∧ t.evt = s.evt)
    ∧ (∀ (e : Fin 4) check, sealedIn s e = none → exec (.cipherSealDone e check) s = .next s)
    ∧ (∀ (e : Fin 4) b, sealedIn s e = some b → b.sealTries.first = none →
        let u := (match b.key with | some k => cacheKey e b.v k.slot k.epoch k.key s | none => s).modBlk b.id
          (fun b' => { b' with out := blkOut b, place := .panWait e.val })
        exec (.cipherSealDone e .pass) s = .next (settleWaits (settleGrants (onBehalf (panAlloc (reqEngine e.val) (blkOut b).length (some b.v) true) u))))
    ∧ (∀ (e : Fin 4) check, heldByEngine s e = none → exec (.cipherOpenDone e check) s = .next s)
    ∧ (∀ (e : Fin 4) b x, heldByEngine s e = some b → s.stream? b.sid = some x → b.tries.first = none → b.tagFailed = none →
        let out (plain : Bytes) (u : State) : State := u.modRBlk b.id (fun b => { b with plain := plain, tagFailed := none, heldBy := some e.val })
        let onward (u : State) : State := pumpReads (dispatchRead (queueSlice false b.id u))
        (∀ k plain, x.slot = some k → b.encrypted = true → b.ff2 = none →
          let key := sessionKey (s.slot x.v k).root b.serial b.part b.session b.epoch
          openBlock key b.salt b.counter b.epoch b.tag b.part b.session b.bytes = some plain →
          exec (.cipherOpenDone e .pass) s = .next (onward (out plain (cacheKey e x.v k b.epoch key s))))
        ∧ (b.encrypted = false → b.ff2 = none → exec (.cipherOpenDone e .pass) s = .next (onward (out b.bytes s)))
        ∧ (∀ k iv, x.slot = some k → b.ff2 = some iv → exec (.cipherOpenDone e .pass) s = .next (pumpReads (dispatchRead (freeEngine e
            ((out (ff2Plain (s.slot x.v k).kind (s.slot x.v k).root iv b.bytes) s).modRBlk b.id (fun b => { b with heldBy := none, place := .done })))))))
    ∧ (∀ (n : Fin 8) check, heldBySlice s n = none → exec (.sliceDecompressDone n check) s = .next s)
    ∧ (∀ (n : Fin 8) b out, heldBySlice s n = some b → decodeBlock b.plain = .ok out →
        exec (.sliceDecompressDone n .pass) s = .next (pumpReads (dispatchRead (drainRead b.sid
          (freeSlice n (s.modRBlk b.id (fun b => { b with output := out, place := .done })))))))

/-- A slot decision (R288, R289): with no position free, or with one already on its way, it decides nothing; an ended stream whose instance
takes part no more comes first. Otherwise each instance that takes part gains its share, the one with the highest credit wins, the lower number
on a tie, and pays the sum of the shares, so the credits of those that take part keep their sum; one with no waiting stream or share 0 has
credit 0, one held back keeps its credit. The winner's stream that has waited longest gets the position. -/
def Sys2Proof.Claims.SlotDecisionsShare : Prop :=
  ∀ s : State,
    let n := noteWaits s
    let u := takeShares n
    let ps := participants u
    let w : Nat := (ps.map (fun v => (u.inst v).share)).foldl (· + ·) 0
    let raised (v : Inst) : Int := (u.inst v).credit + (u.inst v).share
    (8 ≤ n.fmt.asm.length ∨ n.pans.asmFor.isSome = true ∨ (∀ x ∈ n.streams, x.waitSince = none) → exec .slotDecision s = .next n)
    ∧ (n.fmt.asm.length < 8 → n.pans.asmFor = none → (∃ x ∈ n.streams, x.waitSince.isSome = true) →
      (∀ x, longest (draining u) = some x → exec .slotDecision s = .next (grantSlot x none u))
      ∧ (draining u = [] → ps ≠ [] → ∃ v x y, v ∈ ps ∧ (∀ z ∈ ps, raised z ≤ raised v ∧ (raised z = raised v → v ≤ z))
          ∧ longest (waiting u v) = some x ∧ exec .slotDecision s = .next (grantSlot x (some v) y)
          ∧ (y.inst v).credit = raised v - w ∧ (y.inst v).granted = (u.inst v).granted + 1
          ∧ (∀ z ∈ ps, z ≠ v → (y.inst z).credit = raised z ∧ (y.inst z).granted = (u.inst z).granted)
          ∧ (ps.map (fun v => (y.inst v).credit)).sum = (ps.map (fun v => (u.inst v).credit)).sum
          ∧ (∀ z, waiting u z = [] ∨ (u.inst z).share = 0 → (y.inst z).credit = 0)
          ∧ (∀ z, z ∉ ps → waiting u z ≠ [] → (u.inst z).share ≠ 0 → (y.inst z).credit = (u.inst z).credit)
          ∧ y.streams = u.streams ∧ y.fmt = u.fmt ∧ y.pans = u.pans))

/-- Tiers (R43, R44, R114): in APPEND at speed, with no error of the buffer memory, a data tier of the current dataset is fixed whole: every
row that falls to a channel in service is put in its place, attempt 0; the place moves on by one tier of 19,280 bits. An underrun marks the
recording under the head on its channel, that alone (R12). -/
def Sys2Proof.Claims.TiersAreFixed : Prop :=
  ∀ s : State,
    (∀ id w, s.glb.mode = .append → s.fmt.motion = .running → s.fmt.recovering = false → s.fmt.dropDue = false → s.fmt.afterSep = .goOn →
        s.buf.damage = [] → s.fmt.cur = some id → s.wr? id = some w →
        s.fmt.slot < dataTiers w.map.length → Gives (exec (.tierFix []) s) fun t =>
          t.fmt.slot = s.fmt.slot + 1 ∧ t.fmt.bit = s.fmt.bit + 19280 ∧ t.fmt.tiersFixed = s.fmt.tiersFixed + 1
            ∧ (∀ m, m < w.map.length → s.fmt.slot * w.map.length + m < 3072 → chanUp s (w.map.getD m 0) = true →
                ∃ p ∈ t.fmt.plans, p.chan = w.map.getD m 0 ∧ p.ds = some w.buf.id ∧ p.index = s.fmt.slot * w.map.length + m ∧ p.attempt = 0
                  ∧ p.tierSlot = s.fmt.slot ∧ p.header.cwoIndex = p.index ∧ p.header.dsn = w.dsn)
            ∧ t.rdc = s.rdc ∧ t.srv = s.srv ∧ t.glb = s.glb)
    ∧ (∀ (c : Chan) p a b, s.fmt.plans = a ++ p :: b → p.chan = c.val → headTier s = some p.tier →
        (∀ q ∈ a, q.chan ≠ c.val ∨ headTier s ≠ some q.tier) →
        exec (.writeFifoUnderrun c) s = .next { s with fmt := { s.fmt with plans := a ++ { p with underrun := true } :: b } })
    ∧ (∀ c : Chan, (∀ q ∈ s.fmt.plans, q.chan ≠ c.val ∨ headTier s ≠ some q.tier) → exec (.writeFifoUnderrun c) s = .next s)

/-- Judgement (R122 to R126) of a channel's oldest CWO with a row, on the readback that belongs to it: each is counted; a copy that passes takes
its row off the rows not passed; one that fails joins the rewrite queue with the next attempt number, or with its own when the gate cut
it; the failure of attempt 3 starts append recovery. What has not been read back yet on a tracking channel waits. -/
def Sys2Proof.Claims.JudgementsCount : Prop :=
  ∀ (c : Chan) (s : State) p later id, s.fmt.plans.filter (fun p => p.chan == c.val) = p :: later → p.ds = some id →
    (s.rch[c].done = [] → readsBack s c = true → exec (.cwoJudged c) s = .next s)
    ∧ (∀ r rest, s.rch[c].done = r :: rest → r.names p = true ∨ later.any r.names = false →
      let u := s.modRch c (fun x => { x with done := rest })
      let pass := passesVerify s p r
      let seen := if s.fmt.judged < 0xFFFFF then s.fmt.judged + 1 else 0xFFFFF
      let again (attempt : Nat) : Rewrite := { ds := id, index := p.index, attempt := attempt, pos := p.mapPos, chan := p.chan }
      (pass = true →
        let l := modFirst (fun w => w.buf.id == id)
          (fun w => { w with unpassed := w.unpassed.filter (fun i => i != p.index), lastHome := max w.lastHome (homeOrder s p) }) s.fmt.written
        committedCount l = 0 → Gives (exec (.cwoJudged c) s) fun t =>
          t.fmt = { s.fmt with plans := s.fmt.plans.erase p, judged := seen, written := l } ∧ t.rch = u.rch ∧ t.rdc = s.rdc ∧ t.mot = s.mot)
      ∧ (pass = false → p.cutByGate = true → exec (.cwoJudged c) s = .next { u with fmt := { s.fmt with
          plans := s.fmt.plans.erase p, judged := seen, fails := satInc 0xFFF s.fmt.fails, rewrites := s.fmt.rewrites ++ [again p.attempt] } })
      ∧ (pass = false → p.cutByGate = false → (p.attempt = 1 ∨ p.attempt = 2) → exec (.cwoJudged c) s = .next { u with fmt := { s.fmt with
          plans := s.fmt.plans.erase p, judged := seen, fails := satInc 0xFFF s.fmt.fails, rewrites := s.fmt.rewrites ++ [again (p.attempt + 1)] } })
      ∧ (∀ w, pass = false → p.cutByGate = false → p.attempt = 0 → s.wr? id = some w → (w.chanFails.lookup p.chan).getD 0 ≠ 7 →
          Gives (exec (.cwoJudged c) s) fun t => t.fmt.rewrites = s.fmt.rewrites ++ [again 1] ∧ t.fmt.plans = s.fmt.plans.erase p
            ∧ t.fmt.judged = seen ∧ t.fmt.fails = satInc 0xFFF s.fmt.fails ∧ t.rch = u.rch ∧ t.mot = s.mot)
      ∧ (pass = false → p.cutByGate = false → 3 ≤ p.attempt → s.fmt.sess.isSome = true → s.fmt.recovering = false →
          s.fmt.recovery < fld s.fmt.appendCfg 0 2 → Gives (exec (.cwoJudged c) s) fun t =>
            t.fmt.recovering = true ∧ t.fmt.recovery = s.fmt.recovery + 1 ∧ t.fmt.written = s.fmt.written ∧ t.fmt.fenceTrigger = false
              ∧ (if s.fmt.motion = .running ∧ s.mot.state = .running then t.fmt.dropDue = true
                 else t.fmt.moveFor = .recovery ∧ t.fmt.gateOpen = false ∧ t.fmt.gateWanted = false)))

/-- Only what is verified is committed (R127): of the datasets in hand those before the commit point are closed and have a passing copy
of every row, each in a region before the first dataset that stays; the commit point never passes one that is not. -/
def Obligations.OnlyVerifiedCommits : Prop :=
  ∀ l : List WrDs,
    committedCount l ≤ l.length
      ∧ (∀ w ∈ l.take (committedCount l), w.unpassed = [] ∧ w.closed = true)
      ∧ (∀ w ∈ l.take (committedCount l), ∀ y ∈ l[committedCount l]?, w.lastHome < y.order)
      ∧ (∀ k, k ≤ l.length → (∀ w ∈ l.take k, w.unpassed = [] ∧ w.closed = true ∧ ∀ y ∈ l[k]?, w.lastHome < y.order) →
          (k = l.length → ∀ w ∈ l, ∀ y ∈ l.getLast?, w.lastHome ≤ y.order) → k ≤ committedCount l)

/-- Restarts and waits (R112, R116, R130, R131, R137): a gate shut longer than fence_frames starts append recovery, which stops a tape that writes at
the next boundary and sends any other to the commit point; at the limit of recoveries the write fails: what is uncommitted is dropped, the
streams of the partition are cut, and the session goes on from the commit point to its end; that of a session that has failed already ends
at once. A stopped tape starts again when R137 has it, or when the oldest closed dataset has waited long enough; an idle open dataset
closes. -/
def Sys2Proof.Claims.RestartsAndWaits : Prop :=
  ∀ s : State,
    let shutLong := s.fmt.gateWanted = true ∧ s.fmt.gateOpen = false ∧ max 1 (fld s.fmt.appendCfg 2 6) < s.fmt.closedFrames
    (¬ shutLong → exec .fenceTimeout s = .next s)
    ∧ (shutLong → s.fmt.recovering = false → s.fmt.sess.isSome = true → s.fmt.recovery < fld s.fmt.appendCfg 0 2 → Gives (exec .fenceTimeout s) fun t =>
        t.fmt.recovering = true ∧ t.fmt.fenceTrigger = true ∧ t.fmt.recovery = s.fmt.recovery + 1
          ∧ (if s.fmt.motion = .running ∧ s.mot.state = .running then t.fmt.dropDue = true else t.fmt.moveFor = .recovery ∧ t.fmt.gateWanted = false))
    ∧ (∀ w, shutLong → s.fmt.recovering = false → s.fmt.sess = some w → fld s.fmt.appendCfg 0 2 ≤ s.fmt.recovery → s.chn.grp.state = 0 → w.failed = false →
        Gives (exec .fenceTimeout s) fun t =>
          t.fmt.sess = some { w with ending := true, eodQueued := false, failed := true } ∧ t.fmt.written = [] ∧ t.fmt.nextDsn = s.fmt.commitDsn
            ∧ t.fmt.gateOpen = false ∧ (∀ x ∈ t.streams, x.dir = .append → x.part = w.part → x.cut.isSome = true))
    ∧ (∀ w, shutLong → s.fmt.recovering = false → s.fmt.sess = some w → fld s.fmt.appendCfg 0 2 ≤ s.fmt.recovery → w.failed = true →
        Gives (exec .fenceTimeout s) fun t => t.fmt.sess = none ∧ t.fmt.written = [] ∧ t.fmt.gateOpen = false)
    ∧ (let moved (t : State) : Prop := t.fmt.motion = .positioning ∧ t.fmt.moveFor = .splice ∧ t.fmt.stopped = false ∧ t.mot.target = 6500000
          ∧ t.streams = s.streams ∧ t.cart = s.cart ∧ (∀ w, s.fmt.sess = some w → t.glb.mode = if w.fresh then .locate else s.glb.mode);
        (writeIdle s = true → s.fmt.recovering = false → restartDue s = true → Gives (exec .tapeRestart s) moved)
        ∧ (writeIdle s = true → s.fmt.recovering = false → readyToStart s = true → Gives (exec .maxWaitExpiry s) moved))
    ∧ (writeIdle s = false ∨ s.fmt.recovering = true → exec .tapeRestart s = .next s ∧ exec .maxWaitExpiry s = .next s)
    ∧ (∀ (v : Inst) no x d, fld s.fmt.appendCfg 8 10 ≠ 0 → s.chn.grp.state = 0 →
        s.streams.find? (fun x => x.v == v && x.no == no && (s.openDs? x.sid).isSome) = some x → s.openDs? x.sid = some d →
        s.fmt.asm.find? (fun y => y.id == d.id) = some d → Gives (exec (.datasetIdleTimeout v no) s) fun t =>
          t.fmt = { s.fmt with asm := s.fmt.asm.filter (fun y => y.id != d.id), queue := s.fmt.queue ++ [{ d with closedAt := s.glb.time }] }
            ∧ t.blks.map (·.id) = s.blks.map (·.id) ∧ t.insts = s.insts)
    ∧ (∀ v no, fld s.fmt.appendCfg 8 10 = 0 → exec (.datasetIdleTimeout v no) s = .next s)

/-! ### Buffer memory, pans, block mover (R201 to R254) -/

/-- Every word that an encoder of the buffer code, the C2 code or the header code makes is a codeword, and decodes as itself with nothing
changed, whatever errors the decoder would take (R30, R37, R202, R205). -/
def Obligations.EncodedWordsDecode : Prop :=
  ∀ (m : Nat) (data : List Byte), m ≤ 32 →
    (∀ x ∈ rsSyndromes m (data ++ rsCheck m data), x = 0)
      ∧ (rsCheck m data).length = m
      ∧ ∀ e, rsDecode m (data ++ rsCheck m data) [] e = some (data ++ rsCheck m data, [])

/-- A stripe written whole below the mark reads back (R203 to R208): it is written, whatever its lines read as before; every other stripe
of the devices holds what it held, and the list of stripes keeps its form. With no device lost the next read of it, its lines returned as
they stand, answers the 1,024 bytes written and changes nothing else. -/
def Sys2Proof.Claims.WholeStripes : Prop :=
  ∀ (st : Nat) (data : Bytes) (errs : List LineError) (spares : Nat) (s : State), data.length = 1024 → st < s.buf.mark → s.buf.state ≠ 5 →
    s.buf.stripes.Pairwise (fun a b => a.1 < b.1) →
    let t := bufAnswer .written (putData st data s)
    exec (.bufferWrite (1024 * st) data errs spares) s = .next t
      ∧ standing t st = data ∧ t.buf.stripes.Pairwise (fun a b => a.1 < b.1) ∧ t.buf.mark = s.buf.mark ∧ t.evt = s.evt
      ∧ (∀ q, q ≠ physStripe s st → storedData t q = storedData s q)
      ∧ ((∀ d : Fin 8, s.buf.dev[d].lost = false) → ∀ n, exec (.bufferRead (1024 * st) [] n) t = .next (bufAnswer (.data data) t))

/-- A write of a part of a stripe below the mark (R208), where the stripe decodes with nothing to correct: the rest of it stays, and no
other stripe changes. -/
def Sys2Proof.Claims.PartialWrites : Prop :=
  ∀ (ba : Nat) (part : Bytes) (spares : Nat) (s : State) (x : List Bytes × List Nat), ba / 1024 < s.buf.mark → s.buf.state ≠ 5 →
    s.buf.stripes.Pairwise (fun a b => a.1 < b.1) → ba % 1024 + part.length ≤ 1024 → part.length < 1024 →
    (readStripe s (ba / 1024) []).decoded = some x → x.2 = [] → (readStripe s (ba / 1024) []).poisoned = [] →
    Gives (exec (.bufferWrite ba part [] spares) s) fun t =>
      t.buf.result = .written ∧ standing t (ba / 1024) = patch (x.1.take 16).flatten (ba % 1024) part ∧ t.evt = s.evt
        ∧ ∀ q, q ≠ physStripe s (ba / 1024) → storedData t q = storedData s q

/-- A stripe that the code corrects (R205, R221): the read answers its data, counts, and mends it, so that no line of it stands wrong; where
a line is hard, the stripe moves to the lowest free remap entry's spare, which holds its data. -/
def Sys2Proof.Claims.CorrectedStripes : Prop :=
  ∀ (st : Nat) (errs : List LineError) (spares : Nat) (s : State) (x : List Bytes × List Nat), st < s.buf.mark → s.buf.state ≠ 5 →
    (readStripe s st errs).decoded = some x →
    ((∀ e ∈ errorsAt s st errs, e.hard = false) → Gives (exec (.bufferRead (1024 * st) errs spares) s) fun t =>
      t.buf.result = .data (x.1.take 16).flatten ∧ damageOf t (physStripe s st) = [] ∧ t.buf.remap = s.buf.remap
        ∧ (∀ q, q ≠ physStripe s st → damageOf t q = damageOf s q ∧ storedData t q = storedData s q))
    ∧ (∀ i : Fin 32, (∃ e ∈ errorsAt s st errs, e.hard = true ∧ e.line.val ∈ (readStripe s st errs).writeBack) → s.buf.remap[i].valid = false →
        (∀ j : Fin 32, j.val < i.val → s.buf.remap[j].valid = true) → s.buf.stripes.Pairwise (fun a b => a.1 < b.1) →
        Gives (exec (.bufferRead (1024 * st) errs 0) s) fun t =>
          t.buf.result = .data (x.1.take 16).flatten ∧ t.buf.remap[i] = { stripe := st, bad := false, valid := true }
            ∧ storedData t (spareStripe s i.val) = (x.1.take 16).flatten ∧ damageOf t (spareStripe s i.val) = [])

/-- A stripe of the devices that does not decode is answered with poison, counted and named in BUF_UNCORR_LOC, with its event (R209). -/
def Sys2Proof.Claims.PoisonedStripes : Prop :=
  ∀ (st : Nat) (errs : List LineError) (spares : Nat) (s : State), st < s.buf.mark → s.buf.state ≠ 5 → (readStripe s st errs).decoded = none →
    Gives (exec (.bufferRead (1024 * st) errs spares) s) fun t =>
      t.buf.result = .poison ∧ t.buf.uncorrLoc = st ∧ t.buf.eccUncorr = satInc 255 s.buf.eccUncorr ∧ t.buf.stripes = s.buf.stripes ∧ t.buf.remap = s.buf.remap

/-- An UNFILLED stripe (R207): a read answers poison; a write of a whole stripe is dropped, and one of a part comes back with an error. The
counter goes up, and all but the whole write raise EV_BUF_UNFILLED. Nothing stored changes. Once buffer service has ended neither is
served (R215). -/
def Sys2Proof.Claims.UnfilledStripes : Prop :=
  ∀ (ba : Nat) (data : Bytes) (errs : List LineError) (spares : Nat) (s : State), s.buf.mark ≤ ba / 1024 →
    let counted : State := { s with buf := { s.buf with eccUnfilled := satInc 255 s.buf.eccUnfilled } }
    let told := raiseEv .bufUnfilled 0x4 noRes noInst (leBytes 4 (ba / 1024)) counted
    (s.buf.state ≠ 5 → exec (.bufferRead ba errs spares) s = .next (bufAnswer .poison told)
      ∧ (ba % 1024 = 0 → 1024 ≤ data.length → exec (.bufferWrite ba data errs spares) s = .next (bufAnswer .dropped counted))
      ∧ (ba % 1024 ≠ 0 ∨ data.length < 1024 → exec (.bufferWrite ba data errs spares) s = .next (bufAnswer .failed told)))
    ∧ (s.buf.state = 5 → exec (.bufferRead ba errs spares) s = .next (bufAnswer .none s) ∧ exec (.bufferWrite ba data errs spares) s = .next (bufAnswer .none s))

/-- The rake (R220): off, or before the fill begins, it visits nothing. A visit out of turn takes the front of the queue; one in turn the
stripe at its position, which then moves on to the next stripe, or begins again and counts a pass. A visit that writes lines back counts a
correction, and one to a stripe as it was written changes nothing. The lines that a device's event records name join the queue, each stripe
once, and its records are read and cleared (R210). -/
def Sys2Proof.Claims.RakeVisits : Prop :=
  ∀ (errs : List LineError) (spares : Nat) (s : State),
    let visited (p : Nat) (s : State) : State :=
      let v := visitStripe (logicalOf s p) errs spares s
      if v.1.writeBack = [] then v.2 else { v.2 with buf := { v.2.buf with rakeCorrected := satInc 65535 v.2.buf.rakeCorrected } }
    (rbit s.buf.rakeCfg 0 = false ∨ s.buf.state < 2 ∨ 4 < s.buf.state → exec (.rakeVisit errs spares) s = .next s)
    ∧ (rbit s.buf.rakeCfg 0 = true → 2 ≤ s.buf.state → s.buf.state ≤ 4 →
      (∀ p rest, s.buf.rakeQueue = p :: rest → exec (.rakeVisit errs spares) s = .next (visited p { s with buf := { s.buf with rakeQueue := rest } }))
      ∧ (s.buf.rakeQueue = [] → rakeNext s s.buf.rakePos = none → exec (.rakeVisit errs spares) s = .next s)
      ∧ (∀ p, s.buf.rakeQueue = [] → rakeNext s s.buf.rakePos = some p →
          let u := visited p s
          (∀ q, rakeNext u (p + 1) = some q → exec (.rakeVisit errs spares) s = .next { u with buf := { u.buf with rakePos := q } })
          ∧ (rakeNext u (p + 1) = none →
              exec (.rakeVisit errs spares) s = .next { u with buf := { u.buf with rakePos := 0, rakePasses := u.buf.rakePasses + 1 } })))
    ∧ (∀ p, (∀ x ∈ s.buf.damage, x.1 ≠ physStripe s (logicalOf s p)) → (∀ d : Fin 8, s.buf.dev[d].lost = false) →
        (standing s (logicalOf s p)).length = 1024 → visitStripe (logicalOf s p) [] spares s = (readStripe s (logicalOf s p) [], s))
    ∧ (∀ (d : Fin 8) lines, (d.val < s.buf.nDev → s.buf.dev[d].lost = false → Gives (exec (.memdevEventPoll d lines) s) fun t =>
        t = { s with buf := { s.buf with rakeQueue := t.buf.rakeQueue, dev := vmod s.buf.dev d (fun x => { x with mail := [.getEvents, .clearEvents] }) } }
          ∧ s.buf.rakeQueue <+: t.buf.rakeQueue
          ∧ (∀ x ∈ lines, raked s ((x * s.buf.nDev + d.val) / 20) = true → (x * s.buf.nDev + d.val) / 20 ∈ t.buf.rakeQueue)
          ∧ (s.buf.rakeQueue.Nodup → t.buf.rakeQueue.Nodup))
      ∧ (s.buf.nDev ≤ d.val ∨ s.buf.dev[d].lost = true → exec (.memdevEventPoll d lines) s = .next s))

/-- Bring-up of the memory devices (R203, R212 to R218): CXL_PERST# goes up on the ports in use; a link at full rate and width is noted, a
slower or narrower one is an event; a device that is accepted has its decoder committed and locked and its tag line checked, and while
others are awaited waits for them; with the last the fill begins anew with a new tag, unless it resumes; a device that trains below 16 GT/s
or without CXL.mem, offers too little or misses its bound counts as lost. -/
def Sys2Proof.Claims.BringUp : Prop :=
  ∀ (s : State) (d : Fin 8), s.buf.state = 1 → d.val < s.buf.nDev →
    (exec .cxlPerstRelease s = .next { s with buf := { s.buf with
        perstOff := BitVec.ofNat 2 (bit ((List.range 4).any (fun i => s.buf.devLinks.getLsbD i)) + 2 * bit ((List.range 4).any (fun i => s.buf.devLinks.getLsbD (4 + i)))) } })
    ∧ (s.buf.dev[d].lost = false → s.buf.dev[d].linkUp = false → s.buf.perstOff.getLsbD (linkOf s d.val / 4) = true →
        (∀ gts width, 16 ≤ gts →
          let slow := decide (gts < 32)
          let u := { s with buf := { s.buf with dev := vmod s.buf.dev d (fun x => { x with linkUp := true, rate16 := slow, width := widthCode width }) } }
          exec (.cxlLinkUp d gts width true true) s = .next (if gts < 32 ∨ width < linkLanes s (linkOf s d.val) then
            raiseEv .cxlDegraded 0x4 d.val noInst (leBytes 1 d.val ++ leBytes 1 (bit slow) ++ leBytes 1 (widthCode width)) u else u))
        ∧ (∀ gts width mem single, gts < 16 ∨ mem = false ∨ single = false → Gives (exec (.cxlLinkUp d gts width mem single) s) fun t =>
            t.buf.dev[d].lost = true ∧ t.retired 5 d.val = true ∧ t.buf.dev[d].active = false))
    ∧ (∀ gib tagOk media, s.buf.dev[d].linkUp = true → s.buf.dev[d].active = false → 2 ^ s.buf.cap * 16 ≤ gib →
        let u := { s with buf := { s.buf with dev := vmod s.buf.dev d (fun x =>
          { x with active := true, present := true, media := media, hdm := some (hdmOf s d), mail := bringupMail
                   tagOk := tagOk && x.tag == some (tagLine s.buf.fillTag d.val) }) } }
        ((∃ e : Fin 8, e ≠ d ∧ e.val < s.buf.nDev ∧ s.buf.dev[e].active = false ∧ s.buf.dev[e].lost = false) →
          exec (.memoryActive d gib tagOk media) s = .next u)
        ∧ ((∀ e : Fin 8, e ≠ d → e.val < s.buf.nDev → s.buf.dev[e].active = true ∨ s.buf.dev[e].lost = true) →
          (fillResumes u = false → Gives (exec (.memoryActive d gib tagOk media) s) fun t =>
            t.buf.state = 2 ∧ t.buf.mark = 0 ∧ t.buf.stripes = [] ∧ t.buf.damage = [] ∧ t.buf.fillTag = draw s 8 ∧ t.freeCtr = (drawn 8 s).freeCtr
              ∧ t.pans.held = [] ∧ (∀ i : Fin 32, t.buf.remap[i].valid = false)
              ∧ (∀ e : Fin 8, u.buf.dev[e].present = true → t.buf.dev[e].tag = some (tagLine (draw s 8) e.val)))
          ∧ (fillResumes u = true → exec (.memoryActive d gib tagOk media) s = .next (settleGrants (fillPans { u with buf := { u.buf with
              state := if s.buf.mark = s.usable ∧ s.buf.sparesDone = true then readyState u else 2 } })))))
    ∧ (∀ gib tagOk media, s.buf.dev[d].linkUp = true → s.buf.dev[d].active = false → s.buf.dev[d].lost = false → gib < 2 ^ s.buf.cap * 16 →
        Gives (exec (.memoryActive d gib tagOk media) s) fun t => t.buf.dev[d].lost = true ∧ t.retired 5 d.val = true ∧ t.buf.dev[d].active = false)
    ∧ (s.buf.dev[d].active = false → s.buf.dev[d].lost = false →
        Gives (exec (.bringupTimeout d) s) fun t => t.buf.dev[d].lost = true ∧ t.retired 5 d.val = true ∧ t.buf.dev[d].active = false)

/-- A memory device lost in service (R214): DL_Down clears its link's intact bit; nothing stored is forgotten. A chunk of the fill (R216,
R217): the mark rises by 1,024 stripes, up to U, and they read as zero; then the spares, and the buffer is ready. -/
def Sys2Proof.Claims.LossAndFill : Prop :=
  ∀ (s : State) (d : Fin 8),
    (∀ cause : Fin 3, d.val < s.buf.nDev → s.buf.dev[d].linkUp = true → s.buf.dev[d].lost = false → s.buf.state ≠ 1 →
        Gives (exec (.memdevLost d cause) s) fun t => t.buf.dev[d].lost = true ∧ t.retired 5 d.val = true
          ∧ t.buf.stripes = s.buf.stripes ∧ t.buf.damage = s.buf.damage ∧ t.buf.mark = s.buf.mark
          ∧ (4 < s.buf.nDev → (∀ e : Fin 8, s.buf.dev[e].lost = false) → s.buf.state ≠ 5 →
              t.buf.links = (if cause.val = 0 then s.buf.links &&& ~~~(BitVec.ofNat 8 (2 ^ linkOf s d.val)) else s.buf.links)
                ∧ t.buf.state = (if s.buf.state = 3 then 4 else s.buf.state) ∧ t.glb.mode = s.glb.mode)
          ∧ (s.buf.nDev ≤ 4 ∨ (∃ e : Fin 8, s.buf.dev[e].lost = true) → t.buf.state = 5))
    ∧ (s.buf.state = 2 → s.buf.mark < s.usable →
        let u := { s with buf := { s.buf with
          mark := min s.usable (s.buf.mark + 1024)
          stripes := s.buf.stripes.filter (fun x => x.1 < s.buf.mark || min s.usable (s.buf.mark + 1024) ≤ x.1)
          damage := s.buf.damage.filter (fun x => x.1 < s.buf.mark || min s.usable (s.buf.mark + 1024) ≤ x.1) } }
        exec .fillChunkDone s = .next (settleGrants (fillPans u))
          ∧ (∀ p, s.buf.mark ≤ p → p < u.buf.mark → storedData u p = zeros 1024 ∧ damageOf u p = [])
          ∧ (∀ p, p < s.buf.mark → storedData u p = storedData s p ∧ damageOf u p = damageOf s p))
    ∧ (s.buf.state = 2 → s.usable ≤ s.buf.mark → exec .fillChunkDone s = .next { s with buf := { s.buf with sparesDone := true, state := readyState s } })
    ∧ (s.buf.state ≠ 2 → exec .fillChunkDone s = .next s)

/-- The buffer state table (R225 to R228): HELD handles rise strictly and stand in filled entries; each pan's free count and HELD entries
make up its filled ones; a linked pan's store holds each FREE handle once. -/
def Sys2Proof.Claims.PanTable (s : State) : Prop :=
  let run (r : FreeRun) : List Nat := (List.range r.count).map (fun i => if r.down then r.first - i else r.first + i)
  let heldIn (p : Fin 4) : List HeldBuf := s.pans.held.filter (fun b => decide (panFirst s p ≤ b.handle) && decide (b.handle < panFirst s p + (s.pan p).count))
  s.pans.held.Pairwise (fun a b => a.handle < b.handle)
    ∧ (∀ b ∈ s.pans.held, ∃ p, panFirst s p ≤ b.handle ∧ b.handle < panFirst s p + (s.pan p).filled)
    ∧ ∀ p, (s.pan p).filled ≤ (s.pan p).count ∧ (s.pan p).free + (heldIn p).length = (s.pan p).filled
        ∧ ((s.pan p).bitmap = false → ((s.pan p).list.flatMap run).Nodup ∧ (∀ r ∈ (s.pan p).list, 0 < r.count ∧ (r.down = true → r.count ≤ r.first + 1))
            ∧ ∀ h, h ∈ (s.pan p).list.flatMap run ↔ panFirst s p ≤ h ∧ h < panFirst s p + (s.pan p).filled ∧ ∀ b ∈ s.pans.held, b.handle ≠ h)

/-- No buffer is held twice and none is lost (R228, R231, R233): every request of the pan manager keeps the table. -/
def Obligations.PanRequestsKeepTable : Prop :=
  ∀ (s : State), Claims.PanTable s → ∀ (r h size dest : Nat) (charge : Option Inst) (wait : Bool),
    Claims.PanTable (panAlloc r size charge wait s) ∧ Claims.PanTable (panFree r h s) ∧ Claims.PanTable (panHandoff r h dest s)
      ∧ Claims.PanTable (panAcquire r h s) ∧ Claims.PanTable (panRelease r h s) ∧ Claims.PanTable (panCancel r s) ∧ Claims.PanTable (serveWaiting s)

/-- ALLOC (R228, R229, R232 to R234), while nothing waits for a buffer: a request that some pan can serve is granted the next free buffer of
it, which is HELD by the requester and charged; with none it waits in its home pan, or is answered EMPTY. A bitmap pan gives the lowest free
handle. A list pan whose next link is bad rebuilds its list instead, and the request waits. A size beyond PAN3 is rejected, as is a pan in
count mode outside the modes of R237. -/
def Sys2Proof.Claims.AllocAnswers : Prop :=
  ∀ (r size : Nat) (charge : Option Inst) (wait : Bool) (s : State), panServes s = true → r < 64 → r ≠ reqAssembler → r ≠ reqParity → r ≠ reqRetrieve →
    (∀ b ∈ s.blks, ∀ e, b.place = .panWait e → reqEngine e ≠ r) → s.pans.grants = [] → allWaiters s = [] →
    (homePan size = none → Gives (exec (.alloc r size charge wait false) s) fun t =>
        t.pans = { s.pans with result := .rejected errSize, errKind := errSize, errReq := r, errHandle := 0 } ∧ t.buf = s.buf ∧ t.evt = s.evt)
    ∧ ∀ home : Fin 4, homePan size = some home →
      (∀ p, servingPan s r size charge = some p → linkBad s p = false → Gives (exec (.alloc r size charge wait false) s) fun t =>
          t.pans.result = .granted (nextFree s p) ∧ t.pans.grants = [(r, nextFree s p)]
            ∧ t.pans.held = insertHeld { handle := nextFree s p, owner := r, charge := charge, refs := bit (s.pan p).countMode } s.pans.held
            ∧ (t.pan p).free = (s.pan p).free - 1 ∧ (t.pan p).list = popRun (s.pan p).list ∧ (∀ q, q ≠ p → t.pan q = s.pan q)
            ∧ (∀ v, charge = some v → t.pans.heldUnits[v] = s.pans.heldUnits[v] + panUnits p) ∧ t.buf = s.buf
            ∧ ((s.pan p).bitmap = true → s.pans.held.Pairwise (fun a b => a.handle < b.handle) → ∀ h, panFirst s p ≤ h → h < nextFree s p → ∃ b ∈ s.pans.held, b.handle = h))
      ∧ (∀ p bad, servingPan s r size charge = some p → (s.pan p).bitmap = false → (bad = true ∨ linkBad s p = true) → (s.pan home).countMode = false →
          Gives (exec (.alloc r size charge wait bad) s) fun t =>
            t.pans.result = .waits ∧ (t.pan p).rebuilding = true ∧ t.pans.held = s.pans.held ∧ t.pans.grants = [] ∧ t.buf = s.buf
              ∧ t.evt = (raiseEv .panListRebuild 0x5 p.val noInst (leBytes 1 p.val) s).evt
              ∧ (t.pan home).waiting = [{ requester := r, size := size, charge := charge, age := s.pans.ages, noWait := !wait }])
      ∧ (servingPan s r size charge = none → meetsRebuild s home = false →
          ((s.pan home).countMode = false ∨ s.glb.mode = .assemble ∨ s.glb.mode = .service →
            (Gives (exec (.alloc r size charge false false) s) fun t => t.pans = { s.pans with result := .empty, ages := s.pans.ages + 1 } ∧ t.buf = s.buf ∧ t.evt = s.evt)
            ∧ Gives (exec (.alloc r size charge true false) s) fun t =>
              t.pans.result = .waits ∧ (t.pan home).waiting = [{ requester := r, size := size, charge := charge, age := s.pans.ages, noWait := false }]
                ∧ t.pans.held = s.pans.held ∧ t.pans.ages = s.pans.ages + 1 ∧ t.buf = s.buf ∧ t.evt = s.evt)
          ∧ ((s.pan home).countMode = true → s.glb.mode ≠ .assemble → s.glb.mode ≠ .service → Gives (exec (.alloc r size charge wait false) s) fun t =>
              t.pans = { s.pans with result := .rejected errMode, errKind := errMode, errReq := r, errHandle := 0 }))

/-- FREE, HANDOFF, ACQUIRE, RELEASE and CANCEL (R231, R235), with no request waiting and no grant to be taken up: each entry of the table
of R231 has its result. While the pan rebuilds its list a request waits, with what it names; at the rebuild's end its list gives the FREE
buffers in ascending order (R229). -/
def Sys2Proof.Claims.PanRequestsAnswer : Prop :=
  ∀ (r h dest : Nat) (s : State) (p : Fin 4), panServes s = true → r < 64 → s.pans.grants = [] → allWaiters s = [] →
    (panOfHandle s h = some p → (s.pan p).rebuilding = false →
      (∀ b, bufState s p h = .held b → s.pans.held.Pairwise (fun x y => x.handle < y.handle) →
        ((s.pan p).countMode = false → b.owner = r → (Gives (exec (.free r h) s) fun t =>
            t.pans.result = .done ∧ t.pans.held = s.pans.held.filter (fun c => c.handle != h) ∧ (t.pan p).free = (s.pan p).free + 1
              ∧ (∀ v, b.charge = some v → t.pans.heldUnits[v] = s.pans.heldUnits[v] - panUnits p))
          ∧ (Gives (exec (.handoff r h dest) s) fun t =>
            t.pans.result = .done ∧ { b with owner := dest % 64 } ∈ t.pans.held ∧ (t.pans.held.map (·.handle)) = s.pans.held.map (·.handle)
              ∧ t.pans.pan = s.pans.pan ∧ t.pans.heldUnits = s.pans.heldUnits))
        ∧ ((s.pan p).countMode = false → b.owner ≠ r → ∀ c, c = .free r h ∨ c = .handoff r h dest → Gives (exec c s) fun t =>
            t.pans = { s.pans with result := .rejected errForeign, errKind := errForeign, errReq := r, errHandle := h % 2 ^ 18 }
              ∧ t.evt = (raiseEv .panForeignFree 0x5 p.val noInst (leBytes 4 h ++ leBytes 1 r ++ leBytes 1 b.owner) s).evt)
        ∧ ((s.pan p).countMode = true →
            (b.refs < 255 → Gives (exec (.acquire r h) s) fun t => t.pans.result = .done ∧ { b with refs := b.refs + 1 } ∈ t.pans.held ∧ t.pans.pan = s.pans.pan)
            ∧ (255 ≤ b.refs → Gives (exec (.acquire r h) s) fun t => t.pans = { s.pans with result := .rejected errRefs, errKind := errRefs, errReq := r, errHandle := h % 2 ^ 18 })
            ∧ (1 < b.refs → Gives (exec (.release r h) s) fun t => t.pans.result = .done ∧ { b with refs := b.refs - 1 } ∈ t.pans.held ∧ t.pans.pan = s.pans.pan)
            ∧ (b.refs ≤ 1 → Gives (exec (.release r h) s) fun t => t.pans.result = .done ∧ t.pans.held = s.pans.held.filter (fun c => c.handle != h))
            ∧ ∀ c, c = .free r h ∨ c = .handoff r h dest → Gives (exec c s) fun t =>
                t.pans = { s.pans with result := .rejected errMode, errKind := errMode, errReq := r, errHandle := h % 2 ^ 18 }))
      ∧ (bufState s p h = .free → (s.pan p).countMode = false → ∀ c, c = .free r h ∨ c = .handoff r h dest → Gives (exec c s) fun t =>
          t.pans = { s.pans with result := .rejected errDouble, errKind := errDouble, errReq := r, errHandle := h % 2 ^ 18 }))
    ∧ (panOfHandle s h = some p → (s.pan p).rebuilding = true →
        (Gives (exec (.free r h) s) fun t => t.pans = { s.pans with result := .waits, deferred := s.pans.deferred ++ [(.free, r, h)] })
        ∧ (Gives (exec (.handoff r h dest) s) fun t => t.pans = { s.pans with result := .waits, deferred := s.pans.deferred ++ [(.handoff (dest % 64), r, h)] })
        ∧ (Gives (exec (.acquire r h) s) fun t => t.pans = { s.pans with result := .waits, deferred := s.pans.deferred ++ [(.acquire, r, h)] })
        ∧ (Gives (exec (.release r h) s) fun t => t.pans = { s.pans with result := .waits, deferred := s.pans.deferred ++ [(.release, r, h)] }))
    ∧ (panOfHandle s h = none → ∀ c, c = .free r h ∨ c = .handoff r h dest ∨ c = .acquire r h ∨ c = .release r h → Gives (exec c s) fun t =>
        t.pans = { s.pans with result := .rejected errHandle, errKind := errHandle, errReq := r, errHandle := h % 2 ^ 18 }
          ∧ t.evt = (raiseEv .panBadHandle 0x5 noRes noInst (leBytes 4 h ++ leBytes 1 r) s).evt)
    ∧ (Gives (exec (.cancel r) s) fun t => t.pans.result = .done ∧ (∀ q, ∀ w ∈ (t.pan q).waiting, w.requester ≠ r) ∧ t.pans.held = s.pans.held)
    ∧ ((s.pan p).rebuilding = false → Gives (exec (.panListRebuild p) s) fun t => t.pans = s.pans)
    ∧ ((s.pan p).rebuilding = true → s.pans.deferred = [] → Gives (exec (.panListRebuild p) s) fun t => (t.pan p).rebuilding = false ∧ t.pans.held = s.pans.held
        ∧ ((t.pan p).list.map (·.first)).Pairwise (· < ·) ∧ (∀ f, f ∈ (t.pan p).list → ∀ b ∈ s.pans.held, b.handle ≠ f.first))

/-- A descriptor comes to the mover (R241, R242, R246): one that breaks R242 ends with status DESC and one that is misaligned with ALIGN,
each with its event, and moves nothing; a good COPY, FILL or COMPARE with bytes to move joins the queue, and one of length 0 ends OK; a
GATHER or SCATTER joins with the entries of its list's first segment, which are all checked before any byte moves, and with a bad entry ends
ALIGN. An op that is none of the five is a COPY's row. Bursts that the row carries out at once are those of runBursts. -/
def Sys2Proof.Claims.DescriptorsAreTaken : Prop :=
  ∀ (desc : Bytes) (n : Nat) (s : State), moverRuns s = true →
    let d : MovDesc := { id := s.nextId, bytes := padTo 64 desc }
    let refused (status : Nat) (t : State) : Prop :=
      t.mov.queue = s.mov.queue.filter (fun x => x.id != d.id) ∧ t.mov.errStatus = status ∧ t.mov.errReq = u8 d.bytes 2 % 64 ∧ t.nextId = s.nextId + 1
        ∧ t.hostMem = s.hostMem ∧ t.buf = s.buf ∧ t.evt = (raiseEv .movDesc 0x6 noRes d.inst (slice d.bytes 0 12) s).evt
    let stopped (t : State) : Prop := (badDesc d = true → refused movBadDesc t) ∧ (badDesc d = false → misaligned d = true → refused movAlign t)
    let row (t : State) : Prop := stopped t
      ∧ (badDesc d = false → misaligned d = false → (∀ x ∈ s.mov.queue, x.id < s.nextId) → ∃ u, t = runBursts d.id n u
          ∧ u.nextId = s.nextId + 1 ∧ u.hostMem = s.hostMem ∧ u.buf = s.buf ∧ u.evt = s.evt
          ∧ (0 < d.length → u.mov.queue = s.mov.queue ++ [d] ∧ u.mov.cpls = s.mov.cpls)
          ∧ (d.length = 0 → u.mov.queue = s.mov.queue ∧ u.mov.cpls = movCplBytes d movOk 0 noMovEntry 0 :: s.mov.cpls))
    let listed (t : State) : Prop := stopped t
      ∧ (badDesc d = false → misaligned d = false → d.list.1 = spHostList → (∀ x ∈ s.mov.queue, x.id < s.nextId) →
          ∀ es, segmentOf (readEntries s d.hostSpace 256 d.list.2) = es → ∃ u, t = runBursts d.id n u ∧ u.nextId = s.nextId + 1 ∧ u.hostMem = s.hostMem ∧ u.buf = s.buf
            ∧ (∀ e rest, es = e :: rest → firstBad es 0 = none → e.link = false → 0 < e.len →
                u.mov.queue = s.mov.queue ++ [{ d with job := { d.job with entries := es } }] ∧ u.evt = s.evt)
            ∧ (∀ i, firstBad es 0 = some i → u.mov.queue = s.mov.queue ∧ u.mov.errStatus = movAlign ∧ u.mov.errEntry = i % 65536
                ∧ u.evt = (raiseEv .movDesc 0x6 noRes d.inst (slice d.bytes 0 12) s).evt))
    (u8 desc 0 ≤ 1 ∨ 5 < u8 desc 0 → Gives (exec (.copy desc n) s) row)
      ∧ (u8 desc 0 = 2 → Gives (exec (.fill desc n) s) row)
      ∧ (u8 desc 0 = 3 → Gives (exec (.compare desc n) s) row)
      ∧ (u8 desc 0 = 4 → Gives (exec (.gather desc n) s) listed)
      ∧ (u8 desc 0 = 5 → Gives (exec (.scatter desc n) s) listed)

/-- A burst (R243, R248 to R253): a COPY within host memory of at most a burst and a page puts the source's bytes at the destination and
ends OK, freeing its engine; a FILL puts its pattern into buffer memory, and ends with an error where a part of it does (R207; POISON is the
model's choice, log entry 98); a host fault ends a descriptor with HOST_FAULT. A request on a line that holds fewer than four joins it. -/
def Sys2Proof.Claims.BurstsMoveBytes : Prop :=
  ∀ (e : Fin 4) (s : State) (d : MovDesc) (id : Nat), s.mov.queue.find? (fun x => x.id == id) = some d → s.mov.eng[e].use = some id →
    s.retired 7 e.val = false → (∀ f : Fin 4, s.retired 7 f.val = true → s.mov.eng[f].use = none) →
    (d.op = opCopy → d.srcSpace = spHost → d.dstSpace = spHost → d.flag 1 = false → d.tries.first = none → d.moved = 0 → 0 < d.length → d.length ≤ 4096 →
        d.src % 4096 + d.length ≤ 4096 → d.dst % 4096 + d.length ≤ 4096 → Gives (exec (.burstDone e (.descriptor id) .pass) s) fun t =>
          t.hostMem = (hostWrite d.hostSpace d.dst (hostRead s d.hostSpace d.src d.length) s).hostMem ∧ (∀ x ∈ t.mov.queue, x.id ≠ id)
            ∧ t.mov.eng[e].bytes = s.mov.eng[e].bytes + d.length ∧ t.buf = s.buf ∧ t.evt = s.evt)
    ∧ (d.op = opFill → d.flag 2 = false → d.flag 1 = false → d.tries.first = none → d.moved = 0 → 0 < d.length → d.length ≤ 4096 →
        let w := writeBuffer (d.length / 1024 + 2) d.dst (patternBytes d d.length) s
        Gives (exec (.burstDone e (.descriptor id) .pass) s) fun t => t.buf = w.2.buf ∧ t.hostMem = w.2.hostMem ∧ (∀ x ∈ t.mov.queue, x.id ≠ id)
          ∧ (w.1 = true → w.2.mov.queue = s.mov.queue → t.mov.errStatus = movPoison))
    ∧ (d.onHost = true → Gives (exec (.hostFault (.mover e)) s) fun t =>
        (∀ x ∈ t.mov.queue, x.id ≠ id) ∧ t.mov.errStatus = movHostFault ∧ t.hostMem = s.hostMem ∧ t.buf = s.buf)
    ∧ (∀ l, (s.mov.line[l].pending.length < 4 → Gives (exec (.requestLine l) s) fun t =>
          t.mov.line[l].pending = s.mov.line[l].pending ++ [(s.nextId, s.glb.time)] ∧ t.nextId = s.nextId + 1 ∧ t.mov.queue = s.mov.queue
            ∧ (∀ k, k ≠ l → t.mov.line[k].pending = s.mov.line[k].pending))
        ∧ (4 ≤ s.mov.line[l].pending.length → exec (.requestLine l) s = .next s))

/-- A fault of host memory at a ring's fetch or completion stops the ring, with its error and event; an instance that was served is
FAULTED (R253, R258, R285). -/
def Sys2Proof.Claims.HostFaultsStopRings : Prop :=
  ∀ (v : Inst) (s : State),
    let stopped (kind : Nat) (t : State) : Prop := (t.ring (some v)).stopped = true ∧ (t.ring (some v)).err = kind ∧ (t.ring (some v)).cmds = (s.ring (some v)).cmds
      ∧ ((s.inst v).state = .active ∨ (s.inst v).state = .paused ∨ (s.inst v).state = .quiescing → (t.inst v).state = .faulted) ∧ (∀ u, u ≠ v → t.inst u = s.inst u) ∧ t.streams = s.streams
    (fetches s (some v) = true → Gives (exec (.hostFault (.descriptor (some v))) s) (stopped 2))
    ∧ ((s.ring (some v)).stopped = false → (s.inst v).state ≠ .unassigned → Gives (exec (.hostFault (.completion (some v))) s) (stopped 3))
    ∧ (∀ c, findStartable c.cid [] (s.ring (some v)).cmds = some c → c.phase = .waiting → c.cid < 65536 →
        (s.ring (some v)).cmds.find? (fun x => x.cid == c.cid) = some c → c.opcode = 0x10 ∨ c.opcode = 0x20 →
        exec (.hostFault (.data (some v) (BitVec.ofNat 16 c.cid))) s = .next (completeSt (some v) c.uid .hostFault s))

/-! ### Ring and RAIT (R299 to R321) -/

/-- The rows of frames that carry a seq, with the type and message that each names. -/
def Sys2Proof.Claims.frameRows (q : Fin 2) (f : Bytes) (l : BitVec 4) : List (Instr × Nat × Option Nat) :=
  [(.dataRow q f l, ftData, none), (.readRow q f l, ftRead, none), (.beacon q f l, ftBeacon, none), (.token q f l, ftToken, none),
   (.attest q f l, ftAttest, none), (.roster q f l, ftControl, some 0x01), (.topology q f l, ftControl, some 0x02),
   (.join q f l, ftControl, some 0x10), (.joinAck q f l, ftControl, some 0x11), (.groupSerial q f l, ftControl, some 0x12),
   (.groupStart q f l, ftControl, some 0x13), (.payloadOk q f l, ftControl, some 0x20), (.stripeCommit q f l, ftControl, some 0x21),
   (.xoff q f l, ftControl, some 0x22), (.xon q f l, ftControl, some 0x23), (.sessionEnd q f l, ftControl, some 0x24),
   (.readReq q f l, ftControl, some 0x30), (.positionLost q f l, ftControl, some 0x40), (.groupFail q f l, ftControl, some 0x41)]

/-- A frame that the receiver at port `q` accepts as a row of type `type` and message `msg` (R300 to R303). -/
def Sys2Proof.Claims.Accepted (q : Fin 2) (f : Bytes) (type : Nat) (msg : Option Nat) (s : State) : Prop :=
  portUp s q = true ∧ frameSound f = true ∧ frameIs type msg f = true ∧ frameClean f = true ∧ fSeq f = (s.rport q).rxSeq

/-- A group message accepted for this device: of its group, or with group_id 0 (R302). -/
def Sys2Proof.Claims.ForGroup (q : Fin 2) (f : Bytes) (msg : Nat) (s : State) : Prop :=
  Claims.Accepted q f ftControl (some msg) s ∧ fDst f = s.chn.addr ∧ s.chn.addr ≠ noAddr ∧ s.chn.grp.state ≠ 0 ∧ (fGroup f = s.chn.grp.id ∨ fGroup f = zeros 8)

/-- Every frame is checked before it acts (R300 to R303): a frame at a port that is not up does nothing; one whose length or CRC is wrong
fails; one with a reserved bit set is dropped; one of another kind than its row names changes nothing; one out of sequence is only answered by a NAK, of which there is one in 4 µs until a frame
is accepted, and which leaves everything but that port as it was. -/
def Sys2Proof.Claims.FramesAreChecked : Prop :=
  ∀ (q : Fin 2) (f : Bytes) (l : BitVec 4) (s : State), ∀ x ∈ Claims.frameRows q f l,
    (portUp s q = false → exec x.1 s = .next s)
    ∧ (portUp s q = true → frameSound f = false → exec x.1 s = .next (failFrame q f l s))
    ∧ (portUp s q = true → frameSound f = true → frameIs x.2.1 x.2.2 f = false → exec x.1 s = .next s)
    ∧ (portUp s q = true → frameSound f = true → frameIs x.2.1 x.2.2 f = true → frameClean f = false → exec x.1 s = .next (dropFrame q f s))
    ∧ (portUp s q = true → frameSound f = true → frameIs x.2.1 x.2.2 f = true → frameClean f = true → fSeq f ≠ (s.rport q).rxSeq →
        Gives (exec x.1 s) fun t =>
          (∃ p, t = s.modPort q (fun _ => p) ∧ p.rxSeq = (s.rport q).rxSeq ∧ p.unacked = (s.rport q).unacked ∧ p.queue = (s.rport q).queue ∧ p.nakOut = true)
            ∧ ((s.rport q).nakOut = true → s.glb.time < (s.rport q).nakAt + 4000 → t = s)
            ∧ ((s.rport q).nakOut = false → (t.rport q).nakSent = satInc 65535 (s.rport q).nakSent ∧ (t.rport q).out.length = (s.rport q).out.length + 1))

/-- Acknowledgement and retry (R303, R304): an accepted frame moves rxSeq on by one, and the sixteenth is acknowledged; ACK_TIMER
acknowledges what is not; an ACK frees what it covers; a NAK or a timeout sends everything from its seq again, marked resent, in order, with
one more sending counted for each; a frame that has been sent resend_max times and needs another sending takes its link down. An ACK or NAK
that is not sound fails like any frame. -/
def Sys2Proof.Claims.LinksRetry : Prop :=
  ∀ (q : Fin 2) (f : Bytes) (l : BitVec 4) (s : State),
    (portUp s q = false → exec (.ack q f l) s = .next s ∧ exec (.nak q f l) s = .next s ∧ exec (.ackTimer q) s = .next s ∧ exec (.ackTimeout q) s = .next s)
    ∧ (portUp s q = true → frameSound f = false → exec (.ack q f l) s = .next (failFrame q f l s) ∧ exec (.nak q f l) s = .next (failFrame q f l s))
    ∧ (portUp s q = true →
      let again (l : List (BitVec 12 × Bytes × Nat)) : List (BitVec 12 × Bytes × Nat) := l.map (fun y => (y.1, y.2.1, y.2.2 + 1))
      let wire (l : List (BitVec 12 × Bytes × Nat)) : List Bytes := (l.map (fun y => sealFrame y.1 true y.2.1)).reverse
      (let t := acceptFrame q s; (t.rport q).rxSeq = (s.rport q).rxSeq + 1 ∧ (t.rport q).nakOut = false
          ∧ (t.rport q).toAck = (if 16 ≤ (s.rport q).toAck + 1 then 0 else (s.rport q).toAck + 1) ∧ t.chn.grp = s.chn.grp
          ∧ t.rport (otherPort q) = s.rport (otherPort q))
      ∧ ((s.rport q).toAck ≠ 0 → Gives (exec (.ackTimer q) s) fun t => (t.rport q).toAck = 0 ∧ (t.rport q).out.length = (s.rport q).out.length + 1
          ∧ (t.rport q).rxSeq = (s.rport q).rxSeq ∧ t.chn.grp = s.chn.grp)
      ∧ ((s.rport q).toAck = 0 → exec (.ackTimer q) s = .next s)
      ∧ (∀ a x b, (s.rport q).unacked = a ++ x :: b → (∀ y ∈ a, y.1 ≠ x.1) → (s.rport q).queue = [] → x.1 ≠ (s.rport q).txSeq →
          frameSound f = true → frameClean f = true → fAckSeq f = x.1 →
          (frameIs ftAck none f = true → Gives (exec (.ack q f l) s) fun t =>
            (t.rport q).unacked = x :: b ∧ (t.rport q).peerWindow = fWindow f ∧ (t.rport q).out = (s.rport q).out ∧ t.chn.grp = s.chn.grp)
          ∧ (frameIs ftNak none f = true →
            (x.2.2 < resendMax s → Gives (exec (.nak q f l) s) fun t =>
              (t.rport q).unacked = again (x :: b) ∧ (t.rport q).resends = satInc 65535 (s.rport q).resends
                ∧ (t.rport q).out = wire (x :: b) ++ (s.rport q).out ∧ t.chn.grp = s.chn.grp)
            ∧ (resendMax s ≤ x.2.2 → inGroup s = false → Gives (exec (.nak q f l) s) fun t => (t.rport q).state = 0)))
      ∧ ((s.rport q).unacked = [] → exec (.ackTimeout q) s = .next s)
      ∧ (∀ x b, (s.rport q).unacked = x :: b →
          (x.2.2 < resendMax s → Gives (exec (.ackTimeout q) s) fun t =>
            (t.rport q).unacked = again (x :: b) ∧ (t.rport q).resends = satInc 65535 (s.rport q).resends
              ∧ (t.rport q).out = wire (x :: b) ++ (s.rport q).out ∧ t.chn.grp = s.chn.grp)
          ∧ (resendMax s ≤ x.2.2 → inGroup s = false → Gives (exec (.ackTimeout q) s) fun t => (t.rport q).state = 0)))

/-- Links (R299, R304, R306, R308 to R310): one that trains in assembly starts at seq 0, and the flood begins when no other is training;
a retrained one goes on with what is not acknowledged; one that goes down in a ring of this member's makes it a chain that begins east of
the gap. -/
def Sys2Proof.Claims.LinksComeAndGo : Prop :=
  ∀ (q : Fin 2) (lanes : Nat) (s : State),
    (s.chn.enable = true → widthOk s q lanes = true → s.chn.state = 1 → (s.rport q).state = 1 → (s.rport (otherPort q)).state = 1 → (s.rport q).queue = [] →
        exec (.ringLinkTrained q lanes) s = .next (s.modPort q (RingPort.trained lanes)))
    ∧ (s.chn.enable = true → widthOk s q lanes = true → s.chn.state = 1 → (s.rport q).state = 1 → (s.rport (otherPort q)).state ≠ 1 →
        Gives (exec (.ringLinkTrained q lanes) s) fun t => t.chn.state = 2 ∧ (t.rport q).state = 2 ∧ (t.rport q).lanes = lanes ∧ (t.rport q).rxSeq = 0)
    ∧ ((s.rport q).state = 1 → widthOk s q lanes = true → Gives (exec (.laneRetrainDone q lanes) s) fun t =>
        (t.rport q).state = 2 ∧ (t.rport q).lanes = lanes ∧ (t.rport q).rxSeq = (s.rport q).rxSeq ∧ t.rport (otherPort q) = s.rport (otherPort q) ∧ t.chn.grp = s.chn.grp)
    ∧ ((s.rport q).state = 0 → (s.rport q).untold = false → exec (.linkDown q) s = .next s)
    ∧ (s.chn.state = 5 → (s.rport q).state = 2 → s.chn.grp.state = 0 → s.chn.addr < s.chn.members → s.chn.members < 1023 → Gives (exec (.linkDown q) s) fun t =>
        t.chn.state = 6 ∧ (t.rport q).state = 0 ∧ t.chn.line.length = s.chn.members ∧ t.chn.addr = s.chn.addr
          ∧ t.chn.line.head? = some (if q = 0 then (s.chn.addr + 1) % s.chn.members else s.chn.addr))

/-- Assembly (R301, R302, R309): a lower beacon becomes the lowest seen; a token gives a member without an address the next one, and it
begins to attest; the first step of an attestation keeps the neighbour's certificate; a ROSTER is noted, one entry per member; a TOPOLOGY
of a ring makes it a chain. One whose group_id is neither 0 nor this device's group's is dropped (R302). -/
def Sys2Proof.Claims.AssemblySteps : Prop :=
  ∀ (q : Fin 2) (f : Bytes) (l : BitVec 4) (s : State),
    (Claims.Accepted q f ftBeacon none s → s.chn.state = 2 → u8 (fPayload f) 32 = 1 → slice (fPayload f) 16 16 ≠ deviceIdent →
        (u8 (fPayload f) 35).testBit 0 = false → beNat (slice (fPayload f) 0 16) < beNat s.chn.lowest → Gives (exec (.beacon q f l) s) fun t =>
          t.chn.lowest = slice (fPayload f) 0 16 ∧ t.chn.state = 2 ∧ t.chn.addr = s.chn.addr ∧ t.chn.grp = s.chn.grp)
    ∧ (Claims.Accepted q f ftToken none s → s.chn.state = 2 → s.chn.anchor = false → s.chn.addr = noAddr → (tokenOf f).anchor = s.chn.lowest →
        Gives (exec (.token q f l) s) fun t => t.chn.addr = (tokenOf f).next ∧ t.chn.state = 4 ∧ t.chn.raitOk = (s.chn.lowestRait == 1)
          ∧ t.chn.anchor = false ∧ t.chn.grp = s.chn.grp ∧ t.fmt = s.fmt)
    ∧ (Claims.Accepted q f ftAttest none s → u8 (fPayload f) 0 = 1 → (s.rport q).step = 0 → Gives (exec (.attest q f l) s) fun t =>
        (t.rport q).step = 1 ∧ (t.rport q).issuing = slice (fPayload f) 164 (min 1884 (u16 (fPayload f) 2)) ∧ (t.rport q).attested = (s.rport q).attested
          ∧ t.chn.state = s.chn.state)
    ∧ (Claims.Accepted q f ftControl (some 0x01) s → fDst f = noAddr → fSrc f ≠ s.chn.addr → strangeGroup s f = true →
        Gives (exec (.roster q f l) s) fun t => t.chn.roster = s.chn.roster ∧ t.chn.addr = s.chn.addr ∧ t.chn.state = s.chn.state)
    ∧ (Claims.Accepted q f ftControl (some 0x01) s → fDst f = noAddr → fSrc f ≠ s.chn.addr → strangeGroup s f = false → slice (fBody f) 8 16 ≠ deviceIdent →
        Gives (exec (.roster q f l) s) fun t =>
          ({ addr := u16 (fBody f) 0 % 1024, flags := u8 (fBody f) 2, latency := u32 (fBody f) 4, ident := slice (fBody f) 8 16 } : Member) ∈ t.chn.roster
            ∧ (t.chn.roster.countP (fun m => m.ident == slice (fBody f) 8 16) = 1) ∧ t.chn.addr = s.chn.addr
            ∧ (∀ m, m.ident ≠ slice (fBody f) 8 16 → (m ∈ t.chn.roster ↔ m ∈ s.chn.roster)))
    ∧ (Claims.Accepted q f ftControl (some 0x02) s → fDst f = noAddr → fSrc f ≠ s.chn.addr → s.chn.state = 5 → s.chn.grp.state = 0 → fGroup f = zeros 8 →
        Gives (exec (.topology q f l) s) fun t => t.chn.state = 6 ∧ t.chn.line.length = max 1 s.chn.members
          ∧ t.chn.line.head? = some ((if u8 (fBody f) 1 = 0 then u16 (fBody f) 2 % 1024 else fSrc f) % max 1 s.chn.members) ∧ t.chn.grp.state = 0)

/-- Forming (R302, R312, R314): a member that is asked to join answers anew; the origin notes an answer and forms nothing while one is
missing; a serial is kept by position; a GROUP_START whose CRC holds forms the group at its first stripe and writes the group record, where cartridge memory takes
writes (log entry 118). -/
def Sys2Proof.Claims.GroupsForm : Prop :=
  ∀ (q : Fin 2) (f : Bytes) (l : BitVec 4) (s : State),
    (Claims.ForGroup q f 0x10 s → Gives (exec (.join q f l) s) fun t =>
        t.chn.grp.state = (if s.chn.grp.state = 2 then 1 else s.chn.grp.state) ∧ t.chn.grp.serials = [] ∧ t.cart = s.cart ∧ t.fmt = s.fmt)
    ∧ (Claims.ForGroup q f 0x11 s → s.chn.grp.state = 1 → isOrigin s = true → (∃ p, p < s.chn.grp.size ∧ p ≠ fPos f ∧ s.chn.grp.serials.lookup p = none) →
        Gives (exec (.joinAck q f l) s) fun t =>
          t.chn.grp.answers = (fPos f, u32 (fBody f) 4, u32 (fBody f) 8, slice (fBody f) 0 4 == s.chn.grp.crc) :: s.chn.grp.answers.filter (fun x => x.1 != fPos f)
            ∧ t.chn.grp.serials.lookup (fPos f) = some (slice (fBody f) 16 16) ∧ t.chn.grp.state = 1)
    ∧ (Claims.ForGroup q f 0x12 s → s.chn.grp.state = 1 → Gives (exec (.groupSerial q f l) s) fun t =>
        t.chn.grp.serials.lookup (fPos f) = some (slice (fBody f) 0 16) ∧ (∀ p, p ≠ fPos f → t.chn.grp.serials.lookup p = s.chn.grp.serials.lookup p)
          ∧ t.chn.grp.state = 1)
    ∧ (∀ serials, Claims.ForGroup q f 0x13 s → s.chn.grp.state = 1 → allSerials s.chn.grp = some serials →
        slice (fBody f) 8 4 = crcBytes (serials.flatMap (padTo 16)) → Gives (exec (.groupStart q f l) s) fun t =>
          t.chn.grp.state = 2 ∧ t.chn.grp.s0 = u32 (fBody f) 0 ∧ t.chn.grp.session = u32 (fBody f) 4 ∧ t.chn.grp.next = 0 ∧ t.chn.grp.stripes = []
            ∧ (s.cart.writes = true → ∃ g, t.cart = { s.cart with cm := patch s.cart.cm cmGroup (groupRecord g serials) } ∧ g.s0 = u32 (fBody f) 0 ∧ g.position = s.chn.grp.position)
            ∧ (s.cart.writes = false → t.cart = s.cart) ∧ t.fmt = s.fmt)
    ∧ (∀ serials, Claims.ForGroup q f 0x13 s → s.chn.grp.state = 1 → allSerials s.chn.grp = some serials →
        slice (fBody f) 8 4 ≠ crcBytes (serials.flatMap (padTo 16)) → exec (.groupStart q f l) s = .next (acceptFrame q s))

/-- A group at work (R313 to R320): rows are placed, or added with their weight at a parity member; confirmations, commits, XOFF and XON
are kept by position; a session ends at the stripe named; rows that are asked for are owed, a row that is lost or late is missing; a
position lost is told and marked; a failed group ends. -/
def Sys2Proof.Claims.GroupsWork : Prop :=
  ∀ (q : Fin 2) (f : Bytes) (l : BitVec 4) (s : State),
    (∀ x, Claims.Accepted q f ftData none s → fDst f = s.chn.addr → isTarget s f = true → nextStripe s ≤ fStripe f →
        s.chn.grp.stripes = [x] → x.stripe = fStripe f → x.handle.isSome = true → x.whole = false → x.rows.length + 1 < payloadRows →
        s.chn.grp.sessionEnd = none → (s.pan 3).low = s.chn.grp.xoffSent → Gives (exec (.dataRow q f l) s) fun t =>
          t.chn.grp.stripes = [Stripe.take s.chn.grp (fPos f) (fRow f) (fPayload f) x] ∧ t.fmt = { s.fmt with winIntake := s.fmt.winIntake + 2048 }
            ∧ t.pans = s.pans ∧ t.streams = s.streams)
    ∧ (Claims.ForGroup q f 0x20 s → isOrigin s = true → Gives (exec (.payloadOk q f l) s) fun t =>
        (∀ h ∈ t.chn.grp.held, h.stripe = u32 (fBody f) 0 → fPos f ∈ h.confirmed) ∧ (t.chn.grp.held.map (·.ds)) = s.chn.grp.held.map (·.ds)
          ∧ (∀ h ∈ t.chn.grp.held, h.stripe ≠ u32 (fBody f) 0 → h ∈ s.chn.grp.held) ∧ t.fmt = s.fmt)
    ∧ (Claims.ForGroup q f 0x21 s → isOrigin s = true → s.chn.grp.held = [] → Gives (exec (.stripeCommit q f l) s) fun t =>
        t.chn.grp.commits.lookup (fPos f) = some (u32 (fBody f) 0) ∧ (∀ p, p ≠ fPos f → t.chn.grp.commits.lookup p = s.chn.grp.commits.lookup p)
          ∧ s.chn.grp.commit ≤ t.chn.grp.commit)
    ∧ (Claims.ForGroup q f 0x22 s → isOrigin s = true → s.chn.grp.isLost (fPos f) = false → Gives (exec (.xoff q f l) s) fun t =>
        fPos f ∈ t.chn.grp.xoff ∧ (∀ p ∈ s.chn.grp.xoff, p ∈ t.chn.grp.xoff) ∧ t.fmt = s.fmt)
    ∧ (Claims.ForGroup q f 0x23 s → isOrigin s = true → Gives (exec (.xon q f l) s) fun t =>
        t.chn.grp.xoff = s.chn.grp.xoff.filter (fun p => p != fPos f) ∧ t.fmt = s.fmt)
    ∧ (Claims.ForGroup q f 0x24 s → isOrigin s = false → s.chn.grp.state = 2 → s.chn.grp.stripes = [] →
        (nextStripe s < u32 (fBody f) 0 → Gives (exec (.sessionEnd q f l) s) fun t => t.chn.grp.sessionEnd = some (u32 (fBody f) 0) ∧ t.fmt = s.fmt)
        ∧ (∀ w, u32 (fBody f) 0 ≤ nextStripe s → s.fmt.sess = some w → Gives (exec (.sessionEnd q f l) s) fun t =>
            t.chn.grp.sessionEnd = none ∧ t.fmt = { s.fmt with sess := some { w with ending := true } }))
    ∧ (Claims.ForGroup q f 0x30 s → isOrigin s = false → s.chn.grp.state = 2 → fPos f = s.chn.grp.position → s.fmt.sess = none → s.chn.grp.serve = [] →
        s.rtv.started = true → s.rtv.part = s.chn.grp.part → s.rtv.low ≤ u32 (fBody f) 0 → s.rdAt (u32 (fBody f) 0) 0 = none → s.rtv.eodSeen = false →
        u16 (fBody f) 6 ≠ 0 → u16 (fBody f) 4 < payloadRows → Gives (exec (.readReq q f l) s) fun t =>
          t.chn.grp.serve = [{ position := s.chn.grp.position, stripe := u32 (fBody f) 0, first := u16 (fBody f) 4
                               count := min (u16 (fBody f) 6) (payloadRows - u16 (fBody f) 4) }] ∧ t.rtv = s.rtv)
    ∧ (Claims.ForGroup q f 0x40 s → isOrigin s = false → Gives (exec (.positionLost q f l) s) fun t =>
        t.chn.grp.lost = s.chn.grp.lost ||| BitVec.twoPow 32 (fPos f) ∧ t.fmt = s.fmt)
    ∧ (Claims.ForGroup q f 0x41 s → isOrigin s = false → inGroup s = true → Gives (exec (.groupFail q f l) s) fun t =>
        t.chn.grp.state = 3 ∧ t.chn.grp.stripes = [] ∧ t.chn.grp.serve = [] ∧ (∀ w, t.fmt.sess = some w → w.ending = true))
    ∧ (∀ r, Claims.Accepted q f ftRead none s → fDst f = s.chn.addr → s.chn.addr ≠ noAddr → isOrigin s = true → s.chn.grp.state = 2 → fOrigin f = s.chn.addr →
        r ∈ s.chn.grp.wanted → r.position = fPos f → r.stripe = fStripe f → r.first ≤ fRow f → fRow f < r.first + r.count →
        rowAt s (fStripe f) (fRow f) (fPos f) = none → (fFlags f).testBit 1 = true →
        let u := acceptFrame q s
        exec (.readRow q f l) s = .next (settleRow (fStripe f) (fRow f) { u with chn := { u.chn with grp := { u.chn.grp with
          got := (fPos f, fStripe f, fRow f, none) :: u.chn.grp.got } } }))
    ∧ (∀ r pos stripe row, isOrigin s = true → s.chn.grp.state = 2 → r ∈ s.chn.grp.wanted → r.position = pos → r.stripe = stripe → r.first ≤ row →
        row < r.first + r.count → rowAt s stripe row pos = none → exec (.readRowTimeout pos stripe row) s = .next (settleRow stripe row
          { s with chn := { s.chn with grp := { s.chn.grp with got := (pos, stripe, row, none) :: s.chn.grp.got } } }))
    ∧ (∀ h pos, isOrigin s = true → h ∈ s.chn.grp.held → pos ∈ h.targets s.chn.grp → pos < s.chn.grp.size → pos < 32 → Gives (exec (.payloadConfirmTimeout pos h.stripe) s) fun t =>
        t.chn.grp.isLost pos = true)

/-! ### SPDM (R345, R355, R360) -/

/-- The SPDM responder (R355): before event 5 of start-up every request is answered Busy; GET_VERSION, GET_CAPABILITIES and
NEGOTIATE_ALGORITHMS in turn reach the stage that the others need; in RETURNED the others are unsupported. The endpoint ID is what the bus owner assigns. PRESUMED (log entry 28): the
message formats are those of DSP0274 1.2. -/
def Sys2Proof.Claims.SpdmStages : Prop :=
  ∀ (r : Bytes) (s : State), s.glb.mode ≠ .off → s.glb.mode ≠ .quench →
    let rows : List (Nat × Instr) := [(0x84, .getVersion r), (0xE1, .getCapabilities r), (0xE3, .negotiateAlgorithms r), (0x81, .getDigests r),
      (0x82, .getCertificate r), (0x83, .challenge r), (0xE0, .getMeasurements r), (0xFE, .vendorDefinedRequest r)]
    let sent (b : Bytes) (t : State) : Prop := t.sec.response = b ∧ t.insts = s.insts ∧ t.glb = s.glb ∧ t.sec.lifecycle = s.sec.lifecycle ∧ t.sec.ingot = s.sec.ingot
    (∀ x ∈ rows, u8 r 1 ≠ x.1 → exec x.2 s = .next s)
    ∧ (∀ e : BitVec 8, e ≠ 0 → e ≠ 0xFF → exec (.setEndpointId e) s = .next { s with sec := { s.sec with eid := e.toNat } })
    ∧ exec (.setEndpointId 0) s = .next s ∧ exec (.setEndpointId 0xFF) s = .next s
    ∧ (spdmOpen s = false → ∀ x ∈ rows, u8 r 1 = x.1 → Gives (exec x.2 s) (sent (spdmError errBusy)))
    ∧ (spdmOpen s = true → s.sec.lifecycle = 4 → ∀ x ∈ rows.drop 3, u8 r 1 = x.1 → Gives (exec x.2 s) (sent (spdmError errUnsupported)))
    ∧ (spdmOpen s = true → u8 r 1 = 0x84 → u8 r 0 = 0x10 → Gives (exec (.getVersion r) s) fun t =>
        sent [0x10, 0x04, 0, 0, 0, 1, 0x00, 0x12] t ∧ t.sec.spdmStage = 1 ∧ t.sec.vca = r.take 4 ++ t.sec.response)
    ∧ (spdmOpen s = true → u8 r 0 = 0x12 → s.sec.spdmStage = 1 → u8 r 1 = 0xE1 → 20 ≤ r.length → Gives (exec (.getCapabilities r) s) fun t =>
        t.sec.spdmStage = 2 ∧ t.sec.response.take 2 = [0x12, 0x61] ∧ t.sec.response.length = 20 ∧ t.sec.vca = s.sec.vca ++ r ++ t.sec.response)
    ∧ (spdmOpen s = true → u8 r 0 = 0x12 → s.sec.spdmStage = 2 → u8 r 1 = 0xE3 → 32 ≤ r.length → u16 r 4 = r.length →
        Gives (exec (.negotiateAlgorithms r) s) fun t =>
          t.sec.spdmStage = 3 ∧ t.sec.response.take 2 = [0x12, 0x63] ∧ t.sec.response.length = 36
            ∧ (u32 t.sec.response 16 = if (u32 r 12).testBit 1 then 2 else 0) ∧ (u32 t.sec.response 12 = if (u32 r 8).testBit 7 then 0x80 else 0))

/-- What the responder signs and shows (R345, R355): digests and certificates of slot 0 are those of the chain in force; a challenge and a
signed measurement take 32 random bytes each and answer under the alias key; measurement 4 is the profile's digest; the vendor's request
answers the log's head, its oldest index and the entry. PRESUMED (log entry 28). -/
def Sys2Proof.Claims.SpdmAnswers : Prop :=
  ∀ (r : Bytes) (s : State), s.glb.mode ≠ .off → s.glb.mode ≠ .quench → spdmOpen s = true → s.sec.lifecycle ≠ 4 → u8 r 0 = 0x12 → s.sec.spdmStage = 3 →
    (u8 r 1 = 0x81 → Gives (exec (.getDigests r) s) fun t => t.sec.response = [0x12, 0x01, 0, 1] ++ Sha.sha384 (spdmChain s) ∧ t.freeCtr = s.freeCtr)
    ∧ (u8 r 1 = 0x82 → 8 ≤ r.length → u8 r 2 % 16 = 0 → u16 r 4 < (spdmChain s).length →
        let n := min (min (u16 r 6) ((spdmChain s).length - u16 r 4)) 1016
        Gives (exec (.getCertificate r) s) fun t =>
          t.sec.response = [0x12, 0x02, 0, 0] ++ leBytes 2 n ++ leBytes 2 ((spdmChain s).length - u16 r 4 - n) ++ slice (spdmChain s) (u16 r 4) n)
    ∧ (u8 r 1 = 0x83 → 36 ≤ r.length → u8 r 2 % 16 = 0 → u8 r 3 = 0 → Gives (exec (.challenge r) s) fun t =>
        let body := [0x12, 0x03, 0, 1] ++ Sha.sha384 (spdmChain s) ++ draw s 32 ++ zeros 2
        t.freeCtr = (drawn 32 s).freeCtr ∧ t.sec.transcript = []
          ∧ t.sec.response = body ++ spdmSign s "responder-challenge_auth signing" (s.sec.vca ++ s.sec.transcript ++ r.take 36 ++ body))
    ∧ (u8 r 1 = 0xE0 → 4 ≤ r.length → u8 r 2 = 0 → u8 r 3 = 4 → Gives (exec (.getMeasurements r) s) fun t =>
        t.sec.response = [0x12, 0x60, 0, 0, 1] ++ leBytes 3 55 ++ [4, 1, 51, 0, Config.measurementType 4, 48, 0] ++ padTo 48 s.sec.profileDigest ++ draw s 32 ++ zeros 2
          ∧ t.freeCtr = (drawn 32 s).freeCtr)
    ∧ (u8 r 1 = 0xFE → 16 ≤ r.length → u16 r 4 = 3 → u8 r 6 = 2 → u16 r 7 = Config.vendorId.toNat → u16 r 9 = 5 → u8 r 11 = 1 → s.sec.ingot ≠ [] →
        max (u32 r 12) (ingotOldest s) ≤ ingotHead s → Gives (exec (.vendorDefinedRequest r) s) fun t =>
          t.sec.response = [0x12, 0x7E, 0, 0] ++ leBytes 2 3 ++ [2] ++ leBytes 2 Config.vendorId.toNat ++ leBytes 2 392
            ++ leBytes 4 (ingotHead s) ++ leBytes 4 (ingotOldest s) ++ ingotEntry s (max (u32 r 12) (ingotOldest s)) ∧ t.sec.ingot = s.sec.ingot)

/-! ### The whole machine -/

/-- Whether a start-up finds a completed quench record (R340, R105): complete, the number of the last quench, and not one that reset
preparation wrote. -/
def Sys2Proof.Claims.quenchRecord (s : State) : Bool := s.qs.state == 2 && s.qs.number == s.qs.recorded && s.qs.cause != 3

/-- The quench store covers the sequence state in use (R105): no frontier beyond the value a start-up takes plus 2^20, no epoch above it
plus 1, and no epoch above the last of all. -/
def Sys2Proof.Claims.SeqCovered (s : State) : Prop :=
  ∀ i : Fin 512, s.seqs[i].frontier ≤ (storedSlot s i).frontier + 2 ^ 20 ∧ s.seqs[i].epoch ≤ (storedSlot s i).epoch + 1
    ∧ s.seqs[i].epoch ≤ lastEpoch ∧ (storedSlot s i).epoch ≤ lastEpoch

/-- Neither value of a slot's sequence state ever decreases in the life of the device (R101, R105): the cover of the quench store holds at
reset and is kept by every command, and under it no command lowers a frontier or an epoch, a reset, a restore and a start-up after power
loss included. A start-up that finds a completed quench record takes each slot as the record has it. -/
def Obligations.SequenceNeverFalls : Prop :=
  Claims.SeqCovered State.reset
  ∧ ∀ (c : Instr) (s t : State), Claims.SeqCovered s → exec c s = .next t →
      Claims.SeqCovered t
      ∧ ((c = .powerOnResetRelease ∧ Claims.quenchRecord s = true ∧ ∀ i : Fin 512, t.seqs[i].frontier = (storedSlot s i).frontier ∧ t.seqs[i].epoch = (storedSlot s i).epoch)
          ∨ ∀ i : Fin 512, s.seqs[i].frontier ≤ t.seqs[i].frontier ∧ s.seqs[i].epoch ≤ t.seqs[i].epoch)

/-- Host memory keeps its canonical form and reads back what is written (R8): the bytes of a run at its addresses, which wrap at the top
of the space, and every other byte as before. -/
def Obligations.HostMemoryReadsBack : Prop :=
  ∀ (space addr : Nat) (bs : Bytes) (s : State), bs.length ≤ 2 ^ 64 →
    hostRead (hostWrite space addr bs s) space addr bs.length = bs
      ∧ (∀ k, (∀ i, i < bs.length → k ≠ hostKey space (addr + i)) → memByte (hostWrite space addr bs s).hostMem k = memByte s.hostMem k)
      ∧ (Memory.wf s.hostMem = true → Memory.wf (hostWrite space addr bs s).hostMem = true)

/-- The machine right after reset meets the invariants: host memory lists nothing, the lifecycle is one of R360, the buffer state table
holds nothing; no command waits. -/
def Obligations.ResetMeetsInvariants : Prop :=
  Memory.wf State.reset.hostMem = true ∧ State.reset.sec.lifecycle ≤ 4 ∧ State.reset.pending = [] ∧ Claims.PanTable State.reset

/-! ### Frames: what a command cannot touch -/

/-- The parts of the machine, one for each field of State but the queue. -/
inductive Sys2Proof.Claims.Part where
  | glb | pwr | sec | evt | qs | msix | hif | insts | seqs | streams | blks | codec | fmt | wch | pace | cart | pans | buf | mov | rch | rdc | rtv | srv | mot | chn | prof | hostMem | freeCtr | nextId
deriving DecidableEq, Repr

/-- The part of `t` is that of `s`. -/
def Sys2Proof.Claims.Part.kept (s t : State) : Claims.Part → Prop
  | .glb => t.glb = s.glb
  | .pwr => t.pwr = s.pwr
  | .sec => t.sec = s.sec
  | .evt => t.evt = s.evt
  | .qs => t.qs = s.qs
  | .msix => t.msix = s.msix
  | .hif => t.hif = s.hif
  | .insts => t.insts = s.insts
  | .seqs => t.seqs = s.seqs
  | .streams => t.streams = s.streams
  | .blks => t.blks = s.blks
  | .codec => t.codec = s.codec
  | .fmt => t.fmt = s.fmt
  | .wch => t.wch = s.wch
  | .pace => t.pace = s.pace
  | .cart => t.cart = s.cart
  | .pans => t.pans = s.pans
  | .buf => t.buf = s.buf
  | .mov => t.mov = s.mov
  | .rch => t.rch = s.rch
  | .rdc => t.rdc = s.rdc
  | .rtv => t.rtv = s.rtv
  | .srv => t.srv = s.srv
  | .mot => t.mot = s.mot
  | .chn => t.chn = s.chn
  | .prof => t.prof = s.prof
  | .hostMem => t.hostMem = s.hostMem
  | .freeCtr => t.freeCtr = s.freeCtr
  | .nextId => t.nextId = s.nextId

/-- The parts that a command leaves as they are, whatever the state and its operands. -/
def Sys2Proof.Claims.spared : Instr → List Claims.Part
  | .openStream .. =>
      [.glb, .pwr, .sec, .evt, .qs, .seqs, .blks, .codec, .wch, .pace, .cart, .pans, .buf, .mov, .rch, .rdc, .rtv, .srv, .mot, .chn,
      .prof, .freeCtr]
  | .closeStream .. | .instanceQuiesce .. | .instanceFreeze .. =>
      [.glb, .pwr, .sec, .evt, .wch, .pace, .cart, .pans, .buf, .mov, .rch, .rdc, .srv, .mot, .prof]
  | .writeRecords .. | .streamAppend .. | .pendingCopyApply .. =>
      [.glb, .pwr, .sec, .evt, .wch, .pace, .cart, .pans, .buf, .mov, .rch, .rdc, .rtv, .srv, .mot, .chn, .prof]
  | .writeMark .. | .sync .. =>
      [.glb, .pwr, .sec, .evt, .wch, .pace, .cart, .pans, .buf, .mov, .rch, .rdc, .rtv, .srv, .mot, .prof]
  | .readRecords .. | .datasetRecovery .. =>
      [.sec, .seqs, .wch, .cart, .prof, .freeCtr]
  | .locate .. | .space .. =>
      [.sec, .qs, .seqs, .blks, .wch, .pace, .cart, .mov, .chn, .prof, .freeCtr, .nextId]
  | .readPosition .. | .getStats .. | .nop .. | .invalidOpcode .. | .rootImportGetPub .. | .chainStatus .. | .logReadEntries ..
  | .logReadCertificates .. | .bufferFillStatus .. | .irqTimerExpiry .. | .quiesceComplete .. =>
      [.glb, .pwr, .sec, .evt, .qs, .seqs, .streams, .blks, .codec, .fmt, .wch, .pace, .cart, .pans, .buf, .mov, .rch, .rdc, .rtv,
      .srv, .mot, .chn, .prof, .freeCtr, .nextId]
  | .slotBind .. =>
      [.glb, .pwr, .sec, .evt, .wch, .pace, .cart, .pans, .buf, .mov, .rch, .rdc, .srv, .mot, .chn, .prof]
  | .slotRekey .. =>
      [.glb, .pwr, .sec, .evt, .blks, .codec, .fmt, .wch, .pace, .cart, .pans, .buf, .mov, .rch, .rdc, .rtv, .srv, .mot, .chn, .prof,
      .freeCtr, .nextId]
  | .instanceCreate .. =>
      [.glb, .pwr, .sec, .evt, .qs, .seqs, .streams, .blks, .codec, .fmt, .wch, .pace, .cart, .buf, .mov, .rch, .rdc, .rtv, .srv,
      .mot, .chn, .prof, .nextId]
  | .instanceShare .. | .burstDone .. =>
      [.sec, .wch, .cart, .srv, .prof]
  | .instanceReset .. =>
      [.glb, .pwr, .sec, .evt, .qs, .seqs, .wch, .pace, .cart, .pans, .buf, .mov, .rch, .rdc, .srv, .mot, .prof, .freeCtr]
  | .instanceSave .. =>
      [.glb, .pwr, .evt, .qs, .seqs, .streams, .blks, .fmt, .wch, .pace, .cart, .pans, .buf, .mov, .rch, .rdc, .rtv, .srv, .mot,
      .chn, .prof, .nextId]
  | .instanceRestore .. =>
      [.glb, .pwr, .evt, .streams, .blks, .fmt, .wch, .pace, .cart, .buf, .mov, .rch, .rdc, .rtv, .srv, .mot, .chn, .prof, .nextId]
  | .instanceDestroy .. | .alloc .. | .free .. | .handoff .. | .acquire .. | .release .. | .cancel .. | .panListRebuild ..
  | .slotDecision .. =>
      [.glb, .pwr, .sec, .qs, .seqs, .wch, .pace, .cart, .mov, .rch, .rdc, .srv, .mot, .prof, .freeCtr]
  | .rootImportImport .. =>
      [.glb, .pwr, .sec, .wch, .pace, .cart, .pans, .buf, .mov, .rch, .rdc, .rtv, .srv, .mot, .chn, .prof]
  | .rootErase .. =>
      [.glb, .pwr, .sec, .evt, .qs, .seqs, .fmt, .wch, .pace, .cart, .pans, .buf, .mov, .rch, .rdc, .srv, .mot, .chn, .prof,
      .freeCtr, .nextId]
  | .cartLoad .. =>
      [.sec, .qs, .seqs, .streams, .blks, .codec, .wch, .pace, .pans, .buf, .mov, .srv, .mot, .chn, .prof, .freeCtr, .nextId]
  | .cartUnload .. =>
      [.sec, .qs, .seqs, .streams, .blks, .codec, .wch, .pace, .pans, .buf, .mov, .rch, .rdc, .rtv, .chn, .prof, .freeCtr, .nextId]
  | .cartCalibrate .. =>
      [.sec, .qs, .seqs, .streams, .blks, .codec, .wch, .pace, .cart, .pans, .buf, .mov, .rch, .rdc, .rtv, .chn, .prof, .freeCtr,
      .nextId]
  | .raitGroupSet .. =>
      [.glb, .sec, .evt, .qs, .seqs, .streams, .blks, .codec, .fmt, .wch, .pace, .cart, .pans, .buf, .mov, .rch, .rdc, .rtv, .srv,
      .mot, .prof, .freeCtr, .nextId]
  | .raitGroupClear .. =>
      [.glb, .sec, .qs, .seqs, .wch, .pace, .cart, .mov, .rch, .rdc, .srv, .mot, .prof, .freeCtr]
  | .serviceChallenge .. =>
      [.glb, .pwr, .evt, .qs, .seqs, .streams, .blks, .codec, .fmt, .wch, .pace, .cart, .pans, .buf, .mov, .rch, .rdc, .rtv, .srv,
      .mot, .chn, .prof, .nextId]
  | .serviceResponse .. | .fwActivateNow .. | .warmReset .. | .perstAssert .. | .stewardWatchdog .. | .serviceClose .. =>
      [.seqs, .freeCtr, .nextId]
  | .fwStageWrite .. | .fwStageAbandon .. | .fwActivateNext .. | .fwActivateCommitSvn .. | .fwActivateCancel .. =>
      [.glb, .pwr, .evt, .qs, .seqs, .streams, .blks, .codec, .fmt, .wch, .pace, .cart, .pans, .buf, .mov, .rch, .rdc, .rtv, .srv,
      .mot, .chn, .prof, .freeCtr, .nextId]
  | .fwStageFinish .. =>
      [.glb, .pwr, .qs, .seqs, .streams, .blks, .codec, .fmt, .wch, .pace, .cart, .pans, .buf, .mov, .rch, .rdc, .rtv, .srv, .mot,
      .chn, .prof, .freeCtr, .nextId]
  | .hifDbSqTail .. =>
      [.glb, .pwr, .sec, .qs, .seqs, .streams, .blks, .codec, .fmt, .wch, .pace, .cart, .pans, .buf, .mov, .rch, .rdc, .rtv, .srv,
      .mot, .chn, .prof, .freeCtr, .nextId]
  | .hifDbCqHead .. =>
      [.glb, .pwr, .sec, .qs, .msix, .seqs, .streams, .blks, .codec, .fmt, .wch, .pace, .cart, .pans, .buf, .mov, .rch, .rdc, .rtv,
      .srv, .mot, .chn, .prof, .hostMem, .freeCtr, .nextId]
  | .descriptorFetch .. =>
      [.glb, .pwr, .sec, .evt, .qs, .seqs, .streams, .blks, .codec, .fmt, .wch, .pace, .cart, .pans, .buf, .mov, .rch, .rdc, .rtv,
      .srv, .mot, .chn, .prof, .freeCtr]
  | .pcieLinkUp .. =>
      [.pwr, .sec, .evt, .qs, .insts, .seqs, .streams, .blks, .codec, .fmt, .wch, .pace, .cart, .pans, .buf, .mov, .rch, .rdc, .rtv,
      .srv, .mot, .chn, .prof, .freeCtr, .nextId]
  | .hostFault .. =>
      [.glb, .pwr, .sec, .qs, .seqs, .blks, .fmt, .wch, .pace, .cart, .pans, .buf, .rch, .rdc, .srv, .mot, .chn, .prof, .freeCtr,
      .nextId]
  | .mqEnable .. | .mqDisable .. =>
      [.glb, .pwr, .sec, .evt, .qs, .msix, .insts, .seqs, .streams, .blks, .codec, .fmt, .wch, .pace, .cart, .pans, .buf, .mov, .rch,
      .rdc, .rtv, .srv, .mot, .chn, .prof, .hostMem, .freeCtr, .nextId]
  | .eventRingEnable .. | .eventRingDisable .. | .evtRingHeadWrite .. | .evtLock .. | .retireClear .. | .leakPeriod .. =>
      [.glb, .pwr, .sec, .qs, .msix, .hif, .insts, .seqs, .streams, .blks, .codec, .fmt, .wch, .pace, .cart, .pans, .buf, .mov, .rch,
      .rdc, .rtv, .srv, .mot, .chn, .prof, .hostMem, .freeCtr, .nextId]
  | .panLock .. | .countModeWrite .. =>
      [.glb, .pwr, .sec, .evt, .qs, .msix, .hif, .insts, .seqs, .streams, .blks, .codec, .fmt, .wch, .pace, .cart, .buf, .mov, .rch,
      .rdc, .rtv, .srv, .mot, .chn, .prof, .hostMem, .freeCtr, .nextId]
  | .quenchCfgLock .. =>
      [.glb, .sec, .evt, .qs, .msix, .hif, .insts, .seqs, .streams, .blks, .codec, .fmt, .wch, .pace, .cart, .pans, .buf, .mov, .rch,
      .rdc, .rtv, .srv, .mot, .chn, .prof, .hostMem, .freeCtr, .nextId]
  | .writeSetCommit .. =>
      [.glb, .pwr, .sec, .evt, .qs, .msix, .hif, .insts, .seqs, .streams, .blks, .codec, .fmt, .pace, .cart, .pans, .buf, .mov, .rch,
      .rdc, .rtv, .srv, .mot, .chn, .prof, .hostMem, .freeCtr, .nextId]
  | .writeCommitAll .. =>
      [.glb, .pwr, .sec, .evt, .qs, .msix, .hif, .insts, .seqs, .streams, .blks, .codec, .pace, .cart, .pans, .buf, .mov, .rch, .rdc,
      .rtv, .srv, .mot, .chn, .prof, .hostMem, .freeCtr, .nextId]
  | .readSetCommit .. | .muStep .. =>
      [.glb, .pwr, .sec, .evt, .qs, .msix, .hif, .insts, .seqs, .streams, .blks, .codec, .fmt, .wch, .pace, .cart, .pans, .buf, .mov,
      .rdc, .rtv, .srv, .mot, .chn, .prof, .hostMem, .freeCtr, .nextId]
  | .readCommitAll .. | .timingUpdate .. | .holdoverEnd .. | .synthLock .. =>
      [.glb, .pwr, .sec, .evt, .qs, .msix, .hif, .insts, .seqs, .streams, .blks, .codec, .fmt, .wch, .pace, .cart, .pans, .buf, .mov,
      .rtv, .srv, .mot, .chn, .prof, .hostMem, .freeCtr, .nextId]
  | .coefWrite .. | .coefBankSwap .. =>
      [.glb, .pwr, .sec, .evt, .qs, .msix, .hif, .insts, .seqs, .streams, .blks, .codec, .fmt, .wch, .pace, .cart, .pans, .buf, .mov,
      .rch, .rdc, .rtv, .srv, .chn, .prof, .hostMem, .freeCtr, .nextId]
  | .loopEnable .. =>
      [.glb, .pwr, .sec, .qs, .msix, .hif, .insts, .seqs, .streams, .blks, .codec, .fmt, .wch, .pace, .cart, .pans, .buf, .mov, .rch,
      .rdc, .rtv, .chn, .prof, .hostMem, .freeCtr, .nextId]
  | .motionStop .. =>
      [.glb, .pwr, .sec, .evt, .qs, .msix, .hif, .insts, .seqs, .streams, .blks, .codec, .wch, .pace, .cart, .pans, .buf, .mov, .rch,
      .rdc, .rtv, .srv, .chn, .prof, .hostMem, .freeCtr, .nextId]
  | .motionBrake .. =>
      [.glb, .pwr, .sec, .qs, .msix, .hif, .insts, .seqs, .streams, .blks, .codec, .wch, .pace, .cart, .pans, .buf, .mov, .rch, .rdc,
      .rtv, .chn, .prof, .hostMem, .freeCtr, .nextId]
  | .functionReset .. =>
      [.pwr, .evt, .qs, .wch, .pace, .cart, .buf, .rch, .rdc, .srv, .mot, .prof, .freeCtr]
  | .coldResetRequest .. | .vddAonRise .. | .quenchPowerOff .. | .quenchReset .. | .vddAonFail .. =>
      [.seqs, .hostMem, .freeCtr, .nextId]
  | .toField .. | .challengeLapse .. | .getVersion .. | .getCapabilities .. | .negotiateAlgorithms .. | .getDigests ..
  | .getCertificate .. | .vendorDefinedRequest .. | .setEndpointId .. =>
      [.glb, .pwr, .evt, .qs, .msix, .hif, .insts, .seqs, .streams, .blks, .codec, .fmt, .wch, .pace, .cart, .pans, .buf, .mov, .rch,
      .rdc, .rtv, .srv, .mot, .chn, .prof, .hostMem, .freeCtr, .nextId]
  | .katStart .. =>
      [.glb, .pwr, .sec, .evt, .qs, .msix, .hif, .insts, .seqs, .streams, .blks, .fmt, .wch, .pace, .cart, .pans, .buf, .mov, .rch,
      .rdc, .rtv, .srv, .mot, .chn, .prof, .hostMem, .freeCtr, .nextId]
  | .fillRestart .. =>
      [.glb, .pwr, .sec, .qs, .msix, .hif, .insts, .seqs, .streams, .blks, .codec, .fmt, .wch, .pace, .cart, .mov, .rch, .rdc, .rtv,
      .srv, .mot, .chn, .prof, .hostMem, .nextId]
  | .serviceDescriptorPost .. | .copy .. | .fill .. | .compare .. | .gather .. | .scatter .. | .sliceCodeDone ..
  | .cipherSealDone .. | .cipherOpenDone .. | .sliceDecompressDone .. | .headerDecodeDone .. | .c1DecodeDone ..
  | .sampleOverwrite .. | .dataRow .. | .readRow .. | .nak .. | .beacon .. | .topology .. | .stripeCommit .. | .sessionEnd ..
  | .positionLost .. | .groupFail .. | .ackTimeout .. | .linkDown .. | .payloadConfirmTimeout .. | .readRowTimeout .. =>
      [.sec, .seqs, .wch, .cart, .srv, .prof, .freeCtr]
  | .reassemble .. | .ringLinkTrained .. =>
      [.glb, .pwr, .sec, .qs, .msix, .hif, .insts, .seqs, .streams, .blks, .codec, .fmt, .wch, .pace, .cart, .pans, .buf, .mov, .rch,
      .rdc, .rtv, .srv, .mot, .prof, .hostMem, .freeCtr, .nextId]
  | .registerWrite .. | .jtagAccess .. =>
      []
  | .malformedAccess .. | .thermtrip .. | .perstDeassert .. =>
      [.pwr, .sec, .evt, .qs, .msix, .hif, .insts, .seqs, .streams, .blks, .codec, .fmt, .wch, .pace, .cart, .pans, .buf, .mov, .rch,
      .rdc, .rtv, .srv, .mot, .chn, .prof, .hostMem, .freeCtr, .nextId]
  | .rcFieldRead .. | .timeLoRead .. =>
      [.pwr, .sec, .evt, .qs, .msix, .hif, .insts, .seqs, .streams, .blks, .wch, .pace, .cart, .pans, .rtv, .prof, .hostMem,
      .freeCtr, .nextId]
  | .requestLine .. =>
      [.glb, .pwr, .sec, .evt, .qs, .msix, .hif, .insts, .seqs, .streams, .blks, .codec, .fmt, .wch, .pace, .cart, .pans, .buf, .rch,
      .rdc, .rtv, .srv, .mot, .chn, .prof, .hostMem, .freeCtr]
  | .bufferRead .. | .bufferWrite .. | .rakeVisit .. | .syncWindowClose .. | .ack .. | .attest .. | .roster .. | .join ..
  | .groupSerial .. | .payloadOk .. | .xoff .. | .xon .. =>
      [.sec, .seqs, .wch, .cart, .srv, .prof, .freeCtr, .nextId]
  | .memdevEventPoll .. | .cxlPerstRelease .. =>
      [.glb, .pwr, .sec, .evt, .qs, .msix, .hif, .insts, .seqs, .streams, .blks, .codec, .fmt, .wch, .pace, .cart, .pans, .mov, .rch,
      .rdc, .rtv, .srv, .mot, .chn, .prof, .hostMem, .freeCtr, .nextId]
  | .fillChunkDone .. =>
      [.glb, .pwr, .sec, .qs, .msix, .seqs, .wch, .pace, .cart, .mov, .rch, .rdc, .srv, .mot, .prof, .hostMem, .freeCtr]
  | .cxlLinkUp .. | .memoryActive .. | .bringupTimeout .. | .memdevLost .. =>
      [.sec, .seqs, .wch, .pace, .cart, .srv, .prof]
  | .datasetIdleTimeout .. =>
      [.glb, .pwr, .sec, .evt, .qs, .msix, .hif, .insts, .seqs, .codec, .wch, .pace, .cart, .pans, .buf, .mov, .rch, .rdc, .rtv,
      .srv, .mot, .prof, .hostMem, .freeCtr]
  | .tierFix .. | .cwoJudged .. =>
      [.sec, .seqs, .wch, .prof, .freeCtr]
  | .writeFifoUnderrun .. | .pafltAssert .. | .pafltDeassert .. =>
      [.glb, .pwr, .sec, .evt, .qs, .msix, .hif, .insts, .seqs, .streams, .blks, .codec, .wch, .pace, .cart, .pans, .buf, .mov, .rch,
      .rdc, .rtv, .srv, .mot, .chn, .prof, .hostMem, .freeCtr, .nextId]
  | .fenceTimeout .. | .servoFrameDecided .. | .frameMissed .. | .mlsync .. | .inFrame .. | .inFrameAbsent .. | .l1Sample .. =>
      [.sec, .qs, .seqs, .wch, .pace, .mov, .rch, .rdc, .prof, .freeCtr]
  | .maxWaitExpiry .. | .tapeRestart .. | .tapeStopped .. =>
      [.sec, .qs, .msix, .hif, .insts, .seqs, .streams, .blks, .codec, .wch, .pace, .cart, .pans, .buf, .mov, .rch, .rdc, .rtv, .chn,
      .prof, .hostMem, .freeCtr, .nextId]
  | .positionReached .. =>
      [.sec, .qs, .seqs, .streams, .blks, .codec, .wch, .pace, .mov, .chn, .prof, .freeCtr, .nextId]
  | .rampEnd .. =>
      [.glb, .pwr, .sec, .qs, .msix, .hif, .insts, .seqs, .streams, .blks, .codec, .wch, .pace, .cart, .pans, .buf, .mov, .rch, .rdc,
      .rtv, .srv, .chn, .prof, .hostMem, .freeCtr, .nextId]
  | .paceWindowEnd .. =>
      [.glb, .pwr, .sec, .qs, .seqs, .streams, .blks, .wch, .cart, .pans, .buf, .mov, .rch, .rdc, .rtv, .srv, .chn, .prof, .freeCtr,
      .nextId]
  | .servoFrameBoundary .. =>
      [.glb, .pwr, .sec, .evt, .qs, .msix, .hif, .insts, .seqs, .streams, .blks, .codec, .pace, .cart, .pans, .buf, .mov, .rtv, .srv,
      .mot, .chn, .prof, .hostMem, .freeCtr, .nextId]
  | .resyncWindowClose .. =>
      [.glb, .pwr, .sec, .evt, .qs, .msix, .hif, .insts, .seqs, .streams, .blks, .codec, .fmt, .wch, .pace, .cart, .pans, .buf, .mov,
      .rdc, .rtv, .srv, .mot, .chn, .prof, .hostMem, .freeCtr]
  | .ctLost .. =>
      [.sec, .qs, .seqs, .wch, .pace, .mov, .rch, .prof, .freeCtr]
  | .ctRegained .. =>
      [.glb, .pwr, .sec, .evt, .qs, .msix, .hif, .insts, .seqs, .streams, .blks, .codec, .wch, .pace, .cart, .pans, .buf, .mov, .rtv,
      .srv, .mot, .chn, .prof, .hostMem, .freeCtr, .nextId]
  | .readAheadRestart .. =>
      [.sec, .qs, .msix, .hif, .insts, .seqs, .streams, .blks, .codec, .wch, .pace, .cart, .pans, .buf, .mov, .rch, .rdc, .chn,
      .prof, .hostMem, .freeCtr, .nextId]
  | .l3Sample .. =>
      [.glb, .pwr, .sec, .evt, .qs, .msix, .hif, .insts, .seqs, .streams, .blks, .codec, .fmt, .wch, .pace, .cart, .pans, .buf, .mov,
      .rch, .rdc, .rtv, .chn, .prof, .hostMem, .freeCtr, .nextId]
  | .powerOnResetRelease .. =>
      [.sec, .msix, .hif, .insts, .streams, .blks, .codec, .wch, .pace, .cart, .pans, .mov, .rch, .rdc, .rtv, .srv, .mot, .chn,
      .prof, .hostMem, .freeCtr, .nextId]
  | .rngStartupPass .. =>
      [.evt, .qs, .msix, .hif, .insts, .seqs, .streams, .blks, .codec, .fmt, .wch, .pace, .cart, .pans, .buf, .mov, .rch, .rdc, .rtv,
      .srv, .mot, .chn, .prof, .hostMem, .nextId]
  | .rngContinuousFail .. | .assemblyEnd .. =>
      [.seqs, .wch, .pace, .cart, .srv, .prof, .freeCtr, .nextId]
  | .bootImagesLoaded .. =>
      [.pwr, .qs, .msix, .hif, .insts, .seqs, .streams, .blks, .codec, .fmt, .wch, .pace, .cart, .pans, .buf, .mov, .rch, .rdc, .rtv,
      .srv, .mot, .chn, .hostMem, .freeCtr, .nextId]
  | .bootEntrySigned .. =>
      [.seqs, .wch, .pace, .cart, .srv, .prof]
  | .quenchDetect .. =>
      [.seqs, .wch, .pace, .cart, .prof, .freeCtr, .nextId]
  | .pewterUnload .. =>
      [.glb, .pwr, .sec, .evt, .qs, .msix, .hif, .insts, .seqs, .streams, .blks, .codec, .fmt, .wch, .pace, .pans, .buf, .mov, .rch,
      .rdc, .rtv, .chn, .prof, .hostMem, .freeCtr, .nextId]
  | .eventRecordWrite .. | .eventIrqTimer .. =>
      [.glb, .pwr, .sec, .qs, .hif, .insts, .seqs, .streams, .blks, .codec, .fmt, .wch, .pace, .cart, .pans, .buf, .mov, .rch, .rdc,
      .rtv, .srv, .mot, .chn, .prof, .freeCtr, .nextId]
  | .token .. =>
      [.sec, .seqs, .wch, .cart, .srv, .prof]
  | .joinAck .. | .groupStart .. =>
      [.sec, .seqs, .wch, .srv, .prof, .freeCtr, .nextId]
  | .readReq .. =>
      [.sec, .seqs, .wch, .cart, .prof, .freeCtr, .nextId]
  | .ackTimer .. | .laneRetrainDone .. =>
      [.glb, .pwr, .sec, .evt, .qs, .msix, .hif, .insts, .seqs, .streams, .blks, .codec, .fmt, .wch, .pace, .cart, .pans, .buf, .mov,
      .rch, .rdc, .rtv, .srv, .mot, .prof, .hostMem, .freeCtr, .nextId]
  | .challenge .. | .getMeasurements .. =>
      [.glb, .pwr, .evt, .qs, .msix, .hif, .insts, .seqs, .streams, .blks, .codec, .fmt, .wch, .pace, .cart, .pans, .buf, .mov, .rch,
      .rdc, .rtv, .srv, .mot, .chn, .prof, .hostMem, .nextId]
  | .pcieLinkDown .. =>
      [.glb, .pwr, .sec, .evt, .qs, .insts, .seqs, .streams, .blks, .codec, .fmt, .wch, .pace, .cart, .pans, .buf, .mov, .rch, .rdc,
      .rtv, .srv, .mot, .chn, .prof, .hostMem, .freeCtr, .nextId]
  | .msixUnmask .. =>
      [.glb, .pwr, .sec, .evt, .qs, .hif, .insts, .seqs, .streams, .blks, .codec, .fmt, .wch, .pace, .cart, .pans, .buf, .mov, .rch,
      .rdc, .rtv, .srv, .mot, .chn, .prof, .freeCtr, .nextId]
  | .atsInvalidation .. =>
      [.glb, .pwr, .sec, .evt, .qs, .msix, .hif, .seqs, .streams, .blks, .codec, .fmt, .wch, .pace, .cart, .pans, .buf, .mov, .rch,
      .rdc, .rtv, .srv, .mot, .chn, .prof, .hostMem, .freeCtr, .nextId]

/-- Each command leaves the parts that the spec gives it no effect on as they are, whatever its operands and the state: no register, buffer,
queue, counter or key of them changes. What it may change of the others the statements of each family say. -/
def Obligations.CommandsSpareUnits : Prop :=
  ∀ (c : Instr) (s t : State), exec c s = .next t → ∀ p ∈ Claims.spared c, p.kept s t


/-! ### The statements that gather several parts -/

/-- OPEN_STREAM adds the stream it describes, and the first append stream starts a write session. `OpenStreamAddsStream` `OpenAppendStartsSession` stand above with their rules. -/
def Obligations.OpenStreams : Prop := Claims.OpenStreamAddsStream ∧ Claims.OpenAppendStartsSession

/-- Write commands start: records run, SYNC, CLOSE_STREAM and WRITE_MARK wait for what lies before them. `WriteCommandsStart` `WriteMarkAddsMarks` stand above with their rules. -/
def Obligations.WriteCommands : Prop := Claims.WriteCommandsStart ∧ Claims.WriteMarkAddsMarks

/-- Read commands start; LOCATE and SPACE place the stream and move the tape. `ReadCommandsStart` `MoveTakesTape` stand above with their rules. -/
def Obligations.ReadCommands : Prop := Claims.ReadCommandsStart ∧ Claims.MoveTakesTape

/-- SLOT_BIND erases, keeps or rewrites a slot; SLOT_REKEY allots the next epoch and answers it. `SlotBindCompletes` `SlotRekeyAllotsEpoch` stand above with their rules. -/
def Obligations.SlotCommands : Prop := Claims.SlotBindCompletes ∧ Claims.SlotRekeyAllotsEpoch

/-- SHARE, QUIESCE, RESET, DESTROY and FREEZE act as the state of the instance allows. `InstanceShareAndQuiesce` `InstanceEnds` stand above with their rules. -/
def Obligations.InstanceStateCommands : Prop := Claims.InstanceShareAndQuiesce ∧ Claims.InstanceEnds

/-- INSTANCE_SAVE writes one blob under a fresh nonce; INSTANCE_RESTORE uses it once, beyond all used sequence state. `SaveWritesBlob` `RestoreNeverReuses` stand above with their rules. -/
def Obligations.SaveAndRestore : Prop := Claims.SaveWritesBlob ∧ Claims.RestoreNeverReuses

/-- CART_LOAD threads a good cartridge, CART_UNLOAD writes its records back, CART_CALIBRATE sets start values. `CartLoadThreads` `CartUnloadAndCalibrate` stand above with their rules. -/
def Obligations.CartridgeCommands : Prop := Claims.CartLoadThreads ∧ Claims.CartUnloadAndCalibrate

/-- LOG_READ answers entries or the chain; each entry holds the digest of the one before. `LogReadAnswers` `LogEntriesChain` stand above with their rules. -/
def Obligations.IngotLog : Prop := Claims.LogReadAnswers ∧ Claims.LogEntriesChain

/-- FW_STAGE and FW_ACTIVATE act, and an update of the image directory takes whole. `FirmwareStaging` `FirmwareActivation` `DirectoryUpdateTakes` stand above with their rules. -/
def Obligations.FirmwareUpdates : Prop := Claims.FirmwareStaging ∧ Claims.FirmwareActivation ∧ Claims.DirectoryUpdateTakes

/-- Doorbells move ring pointers in range; a fetch takes the descriptor at the head. `DoorbellsMovePointers` `FetchTakesDescriptor` stand above with their rules. -/
def Obligations.DoorbellsAndFetch : Prop := Claims.DoorbellsMovePointers ∧ Claims.FetchTakesDescriptor

/-- Events reach the host in order or are counted as lost; strikes leak. `EventRecordsReachHost` `NoEventVanishes` stand above with their rules. -/
def Obligations.EventsReachHost : Prop := Claims.EventRecordsReachHost ∧ Claims.NoEventVanishes

/-- Power and link pins act; a function reset stays in the mode and resumes the slots. `PowerPins` `FunctionResetStaysInMode` stand above with their rules. -/
def Obligations.PowerAndFunctionReset : Prop := Claims.PowerPins ∧ Claims.FunctionResetStaysInMode

/-- Start-up resumes the slots, tests, attests, signs and assembles in order. `StartUpBegins` `StartUpCompletes` stand above with their rules. -/
def Obligations.StartUp : Prop := Claims.StartUpBegins ∧ Claims.StartUpCompletes

/-- A host register write reads back in its bits where the block takes it, and changes nothing where not. `RegisterWritesReadBack` `RegisterWritesDiscarded` stand above with their rules. -/
def Obligations.RegisterWrites : Prop := Claims.RegisterWritesReadBack ∧ Claims.RegisterWritesDiscarded

/-- Host reads return and then clear; the TAP reads and clears nothing; malformed accesses do nothing. `HostReads` `WideAccesses` `JtagAccesses` stand above with their rules. -/
def Obligations.HostAndJtagReads : Prop := Claims.HostReads ∧ Claims.WideAccesses ∧ Claims.JtagAccesses

/-- A commit targets the next servo-frame boundary or the one after, and locks the shadow set until the swap. `ParameterSetsSwap` `ShadowLocks` stand above with their rules. -/
def Obligations.ParameterSets : Prop := Claims.ParameterSetsSwap ∧ Claims.ShadowLocks

/-- Loop coefficients, banks and enables (swap of an idle loop: log entry 13). `CoefficientWrites` `LoopEnables` stand above with their rules. -/
def Obligations.LoopRegisters : Prop := Claims.CoefficientWrites ∧ Claims.LoopEnables

/-- L1 and L3 samples and the motion link move on as the control engine has it. `SamplesAdvance` `MotionLinkPeriod` stand above with their rules. -/
def Obligations.SamplesAndMotionLink : Prop := Claims.SamplesAdvance ∧ Claims.MotionLinkPeriod

/-- Servo frames give position, LX and the fence; Gray and LX fields read back. `ServoFrames` `PreampFaults` `ServoFieldsDecode` stand above with their rules. -/
def Obligations.ServoFramesDecode : Prop := Claims.ServoFrames ∧ Claims.PreampFaults ∧ Claims.ServoFieldsDecode

/-- Read timing, adaptation and the windows of the marks (rounding: log entry 14). `TimingTracks` `MarkWindows` `ResyncWindows` stand above with their rules. -/
def Obligations.ReadTimingAndMarks : Prop := Claims.TimingTracks ∧ Claims.MarkWindows ∧ Claims.ResyncWindows

/-- The best candidate of a search window is the one chosen. -/
def Obligations.BestMarkIsChosen : Prop := Claims.BestMarkWins

/-- Decoding attempts take cores, and runs of C1 end. `AttemptsTakeCores` `C1RunsEnd` stand above with their rules. -/
def Obligations.AttemptsAndRuns : Prop := Claims.AttemptsTakeCores ∧ Claims.C1RunsEnd

/-- Clock tracks lost and regained, and reading that goes on. `ClockTracks` `ReadingGoesOn` stand above with their rules. -/
def Obligations.ClocksAndReading : Prop := Claims.ClockTracks ∧ Claims.ReadingGoesOn

/-- The end of a pace window. -/
def Obligations.PaceWindows : Prop := Claims.PaceWindow

/-- A block is lost after nine failed attempts and never before six. -/
def Obligations.AttemptsEndInNine : Prop := Claims.AttemptsEnd

/-- Slices and cipher engines hand on the bytes that the codec and the cipher make. -/
def Obligations.EnginesFinishBlocks : Prop := Claims.EnginesFinish

/-- Slot decisions share the positions, and tiers are fixed whole. `SlotDecisionsShare` `TiersAreFixed` stand above with their rules. -/
def Obligations.SlotsAndTiers : Prop := Claims.SlotDecisionsShare ∧ Claims.TiersAreFixed

/-- Judgements, rewrites, append recovery and restarts. `JudgementsCount` `RestartsAndWaits` stand above with their rules. -/
def Obligations.JudgementAndRestarts : Prop := Claims.JudgementsCount ∧ Claims.RestartsAndWaits

/-- Stripes written whole or in part read back, and corrected, hard and poisoned ones are answered as the tables say. `WholeStripes` `PartialWrites` `CorrectedStripes` `PoisonedStripes` stand above with their rules. -/
def Obligations.StripesReadBack : Prop := Claims.WholeStripes ∧ Claims.PartialWrites ∧ Claims.CorrectedStripes ∧ Claims.PoisonedStripes

/-- UNFILLED stripes, the rake, bring-up, loss and fill of the memory devices. `UnfilledStripes` `RakeVisits` `BringUp` `LossAndFill` stand above with their rules. -/
def Obligations.BufferUpkeep : Prop := Claims.UnfilledStripes ∧ Claims.RakeVisits ∧ Claims.BringUp ∧ Claims.LossAndFill

/-- ALLOC, FREE, HANDOFF, ACQUIRE, RELEASE and CANCEL have the result of the table. `AllocAnswers` `PanRequestsAnswer` stand above with their rules. -/
def Obligations.PanRequests : Prop := Claims.AllocAnswers ∧ Claims.PanRequestsAnswer

/-- Descriptors are taken or refused, bursts move bytes, and host faults stop rings. `DescriptorsAreTaken` `BurstsMoveBytes` `HostFaultsStopRings` stand above with their rules. -/
def Obligations.MoverAndHostFaults : Prop := Claims.DescriptorsAreTaken ∧ Claims.BurstsMoveBytes ∧ Claims.HostFaultsStopRings

/-- Ring frames are checked, acknowledged and retried; links and assembly step on. `FramesAreChecked` `LinksRetry` `LinksComeAndGo` `AssemblySteps` stand above with their rules. -/
def Obligations.RingLinks : Prop := Claims.FramesAreChecked ∧ Claims.LinksRetry ∧ Claims.LinksComeAndGo ∧ Claims.AssemblySteps

/-- RAIT groups form, work and fail. `GroupsForm` `GroupsWork` stand above with their rules. -/
def Obligations.GroupsFormAndWork : Prop := Claims.GroupsForm ∧ Claims.GroupsWork

/-- PRESUMED formats (log entry 28): the SPDM responder. `SpdmStages` `SpdmAnswers` stand above with their rules. -/
def Obligations.SpdmResponder : Prop := Claims.SpdmStages ∧ Claims.SpdmAnswers
end

