-- ==== Sys2Proof/Laws/Same.lean ====
section
/-! SUPPORT. Sys2Proof/Laws/Same.lean: frames. `Same w r t` says that the state `t` differs from `r` only in the fields whose bit
stands in the mask `w` (bit 0 the first field of State, bit 29 the last). Here is the kit for proofs of it; Sys2Proof/Laws/Frames.lean
has one lemma for each operation, with the mask of the fields it may write. -/

namespace Sys2Proof.Frames

open Sys2Proof.Machine

/-- Every field of `t` but those whose bit stands in `w` is that of `r`. -/
structure Same (w : BitVec 30) (r t : State) : Prop where
  pending : w.getLsbD 0 = false → t.pending = r.pending
  glb : w.getLsbD 1 = false → t.glb = r.glb
  pwr : w.getLsbD 2 = false → t.pwr = r.pwr
  sec : w.getLsbD 3 = false → t.sec = r.sec
  evt : w.getLsbD 4 = false → t.evt = r.evt
  qs : w.getLsbD 5 = false → t.qs = r.qs
  msix : w.getLsbD 6 = false → t.msix = r.msix
  hif : w.getLsbD 7 = false → t.hif = r.hif
  insts : w.getLsbD 8 = false → t.insts = r.insts
  seqs : w.getLsbD 9 = false → t.seqs = r.seqs
  streams : w.getLsbD 10 = false → t.streams = r.streams
  blks : w.getLsbD 11 = false → t.blks = r.blks
  codec : w.getLsbD 12 = false → t.codec = r.codec
  fmt : w.getLsbD 13 = false → t.fmt = r.fmt
  wch : w.getLsbD 14 = false → t.wch = r.wch
  pace : w.getLsbD 15 = false → t.pace = r.pace
  cart : w.getLsbD 16 = false → t.cart = r.cart
  pans : w.getLsbD 17 = false → t.pans = r.pans
  buf : w.getLsbD 18 = false → t.buf = r.buf
  mov : w.getLsbD 19 = false → t.mov = r.mov
  rch : w.getLsbD 20 = false → t.rch = r.rch
  rdc : w.getLsbD 21 = false → t.rdc = r.rdc
  rtv : w.getLsbD 22 = false → t.rtv = r.rtv
  srv : w.getLsbD 23 = false → t.srv = r.srv
  mot : w.getLsbD 24 = false → t.mot = r.mot
  chn : w.getLsbD 25 = false → t.chn = r.chn
  prof : w.getLsbD 26 = false → t.prof = r.prof
  hostMem : w.getLsbD 27 = false → t.hostMem = r.hostMem
  freeCtr : w.getLsbD 28 = false → t.freeCtr = r.freeCtr
  nextId : w.getLsbD 29 = false → t.nextId = r.nextId

/-- The fields of `a` are among those of `w`. -/
def Sub (a w : BitVec 30) : Prop := a ||| w = w

def OutSame (w : BitVec 30) (r : State) : Out → Prop
  | .next t => Same w r t
  | _ => True
def ExcSame {ε : Type} (w : BitVec 30) (r : State) : Except ε State → Prop
  | .ok t => Same w r t
  | .error _ => True
def ExcPSame {ε α : Type} (w : BitVec 30) (r : State) : Except ε (α × State) → Prop
  | .ok t => Same w r t.2
  | .error _ => True
def OptPSame {α : Type} (w : BitVec 30) (r : State) : Option (α × State) → Prop
  | some t => Same w r t.2
  | none => True
def SndSame {α : Type} (w : BitVec 30) (r : State) (p : α × State) : Prop := Same w r p.2
def FstSame {α : Type} (w : BitVec 30) (r : State) (p : State × α) : Prop := Same w r p.1

variable {w : BitVec 30} {r : State}

theorem same_refl : Same w r r := by constructor <;> intro _ <;> rfl
theorem sub_refl : Sub w w := BitVec.or_self
theorem sub {a b : BitVec 30} (h : a ||| b = b) (hw : Sub b w) : Sub a w := by
  unfold Sub at *
  rw [← hw, ← BitVec.or_assoc, h]
theorem got {a : BitVec 30} {i : Nat} (h : a.getLsbD i = true) (hw : Sub a w) : w.getLsbD i = true := by
  rw [← hw, BitVec.getLsbD_or, h, Bool.true_or]

theorem off {a : BitVec 30} {i : Nat} {p : Prop} (h : a.getLsbD i = true) (hw : Sub a w) (e : w.getLsbD i = false) : p :=
  Bool.noConfusion ((got h hw).symm.trans e)

theorem set_2 {s : State} {x0} (hw : Sub 0x2 w) (hs : Same w r s) : Same w r { s with glb := x0 } :=
  { hs with glb := fun e => off rfl hw e }
theorem set_4 {s : State} {x0} (hw : Sub 0x4 w) (hs : Same w r s) : Same w r { s with pwr := x0 } :=
  { hs with pwr := fun e => off rfl hw e }
theorem set_8 {s : State} {x0} (hw : Sub 0x8 w) (hs : Same w r s) : Same w r { s with sec := x0 } :=
  { hs with sec := fun e => off rfl hw e }
theorem set_a {s : State} {x0 x1} (hw : Sub 0xa w) (hs : Same w r s) : Same w r { s with glb := x0, sec := x1 } :=
  { hs with glb := fun e => off rfl hw e, sec := fun e => off rfl hw e }
theorem set_10 {s : State} {x0} (hw : Sub 0x10 w) (hs : Same w r s) : Same w r { s with evt := x0 } :=
  { hs with evt := fun e => off rfl hw e }
theorem set_20 {s : State} {x0} (hw : Sub 0x20 w) (hs : Same w r s) : Same w r { s with qs := x0 } :=
  { hs with qs := fun e => off rfl hw e }
theorem set_24 {s : State} {x0 x1} (hw : Sub 0x24 w) (hs : Same w r s) : Same w r { s with pwr := x0, qs := x1 } :=
  { hs with pwr := fun e => off rfl hw e, qs := fun e => off rfl hw e }
theorem set_40 {s : State} {x0} (hw : Sub 0x40 w) (hs : Same w r s) : Same w r { s with msix := x0 } :=
  { hs with msix := fun e => off rfl hw e }
theorem set_80 {s : State} {x0} (hw : Sub 0x80 w) (hs : Same w r s) : Same w r { s with hif := x0 } :=
  { hs with hif := fun e => off rfl hw e }
theorem set_82 {s : State} {x0 x1} (hw : Sub 0x82 w) (hs : Same w r s) : Same w r { s with glb := x0, hif := x1 } :=
  { hs with glb := fun e => off rfl hw e, hif := fun e => off rfl hw e }
theorem set_100 {s : State} {x0} (hw : Sub 0x100 w) (hs : Same w r s) : Same w r { s with insts := x0 } :=
  { hs with insts := fun e => off rfl hw e }
theorem set_180 {s : State} {x0 x1} (hw : Sub 0x180 w) (hs : Same w r s) : Same w r { s with hif := x0, insts := x1 } :=
  { hs with hif := fun e => off rfl hw e, insts := fun e => off rfl hw e }
theorem set_1ca {s : State} {x0 x1 x2 x3 x4} (hw : Sub 0x1ca w) (hs : Same w r s) : Same w r { s with glb := x0, sec := x1, msix := x2, hif := x3, insts := x4 } :=
  { hs with glb := fun e => off rfl hw e, sec := fun e => off rfl hw e, msix := fun e => off rfl hw e, hif := fun e => off rfl hw e, insts := fun e => off rfl hw e }
theorem set_200 {s : State} {x0} (hw : Sub 0x200 w) (hs : Same w r s) : Same w r { s with seqs := x0 } :=
  { hs with seqs := fun e => off rfl hw e }
theorem set_400 {s : State} {x0} (hw : Sub 0x400 w) (hs : Same w r s) : Same w r { s with streams := x0 } :=
  { hs with streams := fun e => off rfl hw e }
theorem set_800 {s : State} {x0} (hw : Sub 0x800 w) (hs : Same w r s) : Same w r { s with blks := x0 } :=
  { hs with blks := fun e => off rfl hw e }
theorem set_1000 {s : State} {x0} (hw : Sub 0x1000 w) (hs : Same w r s) : Same w r { s with codec := x0 } :=
  { hs with codec := fun e => off rfl hw e }
theorem set_1c00 {s : State} {x0 x1 x2} (hw : Sub 0x1c00 w) (hs : Same w r s) : Same w r { s with streams := x0, blks := x1, codec := x2 } :=
  { hs with streams := fun e => off rfl hw e, blks := fun e => off rfl hw e, codec := fun e => off rfl hw e }
theorem set_2000 {s : State} {x0} (hw : Sub 0x2000 w) (hs : Same w r s) : Same w r { s with fmt := x0 } :=
  { hs with fmt := fun e => off rfl hw e }
theorem set_2800 {s : State} {x0 x1} (hw : Sub 0x2800 w) (hs : Same w r s) : Same w r { s with blks := x0, fmt := x1 } :=
  { hs with blks := fun e => off rfl hw e, fmt := fun e => off rfl hw e }
theorem set_3000 {s : State} {x0 x1} (hw : Sub 0x3000 w) (hs : Same w r s) : Same w r { s with codec := x0, fmt := x1 } :=
  { hs with codec := fun e => off rfl hw e, fmt := fun e => off rfl hw e }
theorem set_4000 {s : State} {x0} (hw : Sub 0x4000 w) (hs : Same w r s) : Same w r { s with wch := x0 } :=
  { hs with wch := fun e => off rfl hw e }
theorem set_6000 {s : State} {x0 x1} (hw : Sub 0x6000 w) (hs : Same w r s) : Same w r { s with fmt := x0, wch := x1 } :=
  { hs with fmt := fun e => off rfl hw e, wch := fun e => off rfl hw e }
theorem set_8000 {s : State} {x0} (hw : Sub 0x8000 w) (hs : Same w r s) : Same w r { s with pace := x0 } :=
  { hs with pace := fun e => off rfl hw e }
theorem set_10000 {s : State} {x0} (hw : Sub 0x10000 w) (hs : Same w r s) : Same w r { s with cart := x0 } :=
  { hs with cart := fun e => off rfl hw e }
theorem set_12000 {s : State} {x0 x1} (hw : Sub 0x12000 w) (hs : Same w r s) : Same w r { s with fmt := x0, cart := x1 } :=
  { hs with fmt := fun e => off rfl hw e, cart := fun e => off rfl hw e }
theorem set_20000 {s : State} {x0} (hw : Sub 0x20000 w) (hs : Same w r s) : Same w r { s with pans := x0 } :=
  { hs with pans := fun e => off rfl hw e }
theorem set_40000 {s : State} {x0} (hw : Sub 0x40000 w) (hs : Same w r s) : Same w r { s with buf := x0 } :=
  { hs with buf := fun e => off rfl hw e }
theorem set_4000e {s : State} {x0 x1 x2 x3} (hw : Sub 0x4000e w) (hs : Same w r s) : Same w r { s with glb := x0, pwr := x1, sec := x2, buf := x3 } :=
  { hs with glb := fun e => off rfl hw e, pwr := fun e => off rfl hw e, sec := fun e => off rfl hw e, buf := fun e => off rfl hw e }
theorem set_42002 {s : State} {x0 x1 x2} (hw : Sub 0x42002 w) (hs : Same w r s) : Same w r { s with glb := x0, fmt := x1, buf := x2 } :=
  { hs with glb := fun e => off rfl hw e, fmt := fun e => off rfl hw e, buf := fun e => off rfl hw e }
theorem set_60000 {s : State} {x0 x1} (hw : Sub 0x60000 w) (hs : Same w r s) : Same w r { s with pans := x0, buf := x1 } :=
  { hs with pans := fun e => off rfl hw e, buf := fun e => off rfl hw e }
theorem set_80000 {s : State} {x0} (hw : Sub 0x80000 w) (hs : Same w r s) : Same w r { s with mov := x0 } :=
  { hs with mov := fun e => off rfl hw e }
theorem set_100000 {s : State} {x0} (hw : Sub 0x100000 w) (hs : Same w r s) : Same w r { s with rch := x0 } :=
  { hs with rch := fun e => off rfl hw e }
theorem set_200000 {s : State} {x0} (hw : Sub 0x200000 w) (hs : Same w r s) : Same w r { s with rdc := x0 } :=
  { hs with rdc := fun e => off rfl hw e }
theorem set_300000 {s : State} {x0 x1} (hw : Sub 0x300000 w) (hs : Same w r s) : Same w r { s with rch := x0, rdc := x1 } :=
  { hs with rch := fun e => off rfl hw e, rdc := fun e => off rfl hw e }
theorem set_400000 {s : State} {x0} (hw : Sub 0x400000 w) (hs : Same w r s) : Same w r { s with rtv := x0 } :=
  { hs with rtv := fun e => off rfl hw e }
theorem set_401000 {s : State} {x0 x1} (hw : Sub 0x401000 w) (hs : Same w r s) : Same w r { s with codec := x0, rtv := x1 } :=
  { hs with codec := fun e => off rfl hw e, rtv := fun e => off rfl hw e }
theorem set_401800 {s : State} {x0 x1 x2} (hw : Sub 0x401800 w) (hs : Same w r s) : Same w r { s with blks := x0, codec := x1, rtv := x2 } :=
  { hs with blks := fun e => off rfl hw e, codec := fun e => off rfl hw e, rtv := fun e => off rfl hw e }
theorem set_402000 {s : State} {x0 x1} (hw : Sub 0x402000 w) (hs : Same w r s) : Same w r { s with fmt := x0, rtv := x1 } :=
  { hs with fmt := fun e => off rfl hw e, rtv := fun e => off rfl hw e }
theorem set_510000 {s : State} {x0 x1 x2} (hw : Sub 0x510000 w) (hs : Same w r s) : Same w r { s with cart := x0, rch := x1, rtv := x2 } :=
  { hs with cart := fun e => off rfl hw e, rch := fun e => off rfl hw e, rtv := fun e => off rfl hw e }
theorem set_703c00 {s : State} {x0 x1 x2 x3 x4 x5 x6} (hw : Sub 0x703c00 w) (hs : Same w r s) : Same w r { s with streams := x0, blks := x1, codec := x2, fmt := x3, rch := x4, rdc := x5, rtv := x6 } :=
  { hs with streams := fun e => off rfl hw e, blks := fun e => off rfl hw e, codec := fun e => off rfl hw e, fmt := fun e => off rfl hw e, rch := fun e => off rfl hw e, rdc := fun e => off rfl hw e, rtv := fun e => off rfl hw e }
theorem set_800000 {s : State} {x0} (hw : Sub 0x800000 w) (hs : Same w r s) : Same w r { s with srv := x0 } :=
  { hs with srv := fun e => off rfl hw e }
theorem set_a02000 {s : State} {x0 x1 x2} (hw : Sub 0xa02000 w) (hs : Same w r s) : Same w r { s with fmt := x0, rdc := x1, srv := x2 } :=
  { hs with fmt := fun e => off rfl hw e, rdc := fun e => off rfl hw e, srv := fun e => off rfl hw e }
theorem set_c00000 {s : State} {x0 x1} (hw : Sub 0xc00000 w) (hs : Same w r s) : Same w r { s with rtv := x0, srv := x1 } :=
  { hs with rtv := fun e => off rfl hw e, srv := fun e => off rfl hw e }
theorem set_c02000 {s : State} {x0 x1 x2} (hw : Sub 0xc02000 w) (hs : Same w r s) : Same w r { s with fmt := x0, rtv := x1, srv := x2 } :=
  { hs with fmt := fun e => off rfl hw e, rtv := fun e => off rfl hw e, srv := fun e => off rfl hw e }
theorem set_1000000 {s : State} {x0} (hw : Sub 0x1000000 w) (hs : Same w r s) : Same w r { s with mot := x0 } :=
  { hs with mot := fun e => off rfl hw e }
theorem set_1000002 {s : State} {x0 x1} (hw : Sub 0x1000002 w) (hs : Same w r s) : Same w r { s with glb := x0, mot := x1 } :=
  { hs with glb := fun e => off rfl hw e, mot := fun e => off rfl hw e }
theorem set_1002000 {s : State} {x0 x1} (hw : Sub 0x1002000 w) (hs : Same w r s) : Same w r { s with fmt := x0, mot := x1 } :=
  { hs with fmt := fun e => off rfl hw e, mot := fun e => off rfl hw e }
theorem set_1412000 {s : State} {x0 x1 x2 x3} (hw : Sub 0x1412000 w) (hs : Same w r s) : Same w r { s with fmt := x0, cart := x1, rtv := x2, mot := x3 } :=
  { hs with fmt := fun e => off rfl hw e, cart := fun e => off rfl hw e, rtv := fun e => off rfl hw e, mot := fun e => off rfl hw e }
theorem set_1800000 {s : State} {x0 x1} (hw : Sub 0x1800000 w) (hs : Same w r s) : Same w r { s with srv := x0, mot := x1 } :=
  { hs with srv := fun e => off rfl hw e, mot := fun e => off rfl hw e }
theorem set_1810000 {s : State} {x0 x1 x2} (hw : Sub 0x1810000 w) (hs : Same w r s) : Same w r { s with cart := x0, srv := x1, mot := x2 } :=
  { hs with cart := fun e => off rfl hw e, srv := fun e => off rfl hw e, mot := fun e => off rfl hw e }
theorem set_2000000 {s : State} {x0} (hw : Sub 0x2000000 w) (hs : Same w r s) : Same w r { s with chn := x0 } :=
  { hs with chn := fun e => off rfl hw e }
theorem set_2002000 {s : State} {x0 x1} (hw : Sub 0x2002000 w) (hs : Same w r s) : Same w r { s with fmt := x0, chn := x1 } :=
  { hs with fmt := fun e => off rfl hw e, chn := fun e => off rfl hw e }
theorem set_2060000 {s : State} {x0 x1 x2} (hw : Sub 0x2060000 w) (hs : Same w r s) : Same w r { s with pans := x0, buf := x1, chn := x2 } :=
  { hs with pans := fun e => off rfl hw e, buf := fun e => off rfl hw e, chn := fun e => off rfl hw e }
theorem set_4000008 {s : State} {x0 x1} (hw : Sub 0x4000008 w) (hs : Same w r s) : Same w r { s with sec := x0, prof := x1 } :=
  { hs with sec := fun e => off rfl hw e, prof := fun e => off rfl hw e }
theorem set_7fffdfe {s : State} {x0 x1 x2 x3 x4 x5 x6 x7 x8 x9 x10 x11 x12 x13 x14 x15 x16 x17 x18 x19 x20 x21 x22 x23 x24} (hw : Sub 0x7fffdfe w) (hs : Same w r s) : Same w r { s with glb := x0, pwr := x1, sec := x2, evt := x3, qs := x4, msix := x5, hif := x6, insts := x7, streams := x8, blks := x9, codec := x10, fmt := x11, wch := x12, pace := x13, cart := x14, pans := x15, buf := x16, mov := x17, rch := x18, rdc := x19, rtv := x20, srv := x21, mot := x22, chn := x23, prof := x24 } :=
  { hs with glb := fun e => off rfl hw e, pwr := fun e => off rfl hw e, sec := fun e => off rfl hw e, evt := fun e => off rfl hw e, qs := fun e => off rfl hw e, msix := fun e => off rfl hw e, hif := fun e => off rfl hw e, insts := fun e => off rfl hw e, streams := fun e => off rfl hw e, blks := fun e => off rfl hw e, codec := fun e => off rfl hw e, fmt := fun e => off rfl hw e, wch := fun e => off rfl hw e, pace := fun e => off rfl hw e, cart := fun e => off rfl hw e, pans := fun e => off rfl hw e, buf := fun e => off rfl hw e, mov := fun e => off rfl hw e, rch := fun e => off rfl hw e, rdc := fun e => off rfl hw e, rtv := fun e => off rfl hw e, srv := fun e => off rfl hw e, mot := fun e => off rfl hw e, chn := fun e => off rfl hw e, prof := fun e => off rfl hw e }
theorem set_8000000 {s : State} {x0} (hw : Sub 0x8000000 w) (hs : Same w r s) : Same w r { s with hostMem := x0 } :=
  { hs with hostMem := fun e => off rfl hw e }
theorem set_10000000 {s : State} {x0} (hw : Sub 0x10000000 w) (hs : Same w r s) : Same w r { s with freeCtr := x0 } :=
  { hs with freeCtr := fun e => off rfl hw e }
theorem set_20000000 {s : State} {x0} (hw : Sub 0x20000000 w) (hs : Same w r s) : Same w r { s with nextId := x0 } :=
  { hs with nextId := fun e => off rfl hw e }
theorem set_20000400 {s : State} {x0 x1} (hw : Sub 0x20000400 w) (hs : Same w r s) : Same w r { s with streams := x0, nextId := x1 } :=
  { hs with streams := fun e => off rfl hw e, nextId := fun e => off rfl hw e }
theorem set_20000800 {s : State} {x0 x1} (hw : Sub 0x20000800 w) (hs : Same w r s) : Same w r { s with blks := x0, nextId := x1 } :=
  { hs with blks := fun e => off rfl hw e, nextId := fun e => off rfl hw e }
theorem set_20002000 {s : State} {x0 x1} (hw : Sub 0x20002000 w) (hs : Same w r s) : Same w r { s with fmt := x0, nextId := x1 } :=
  { hs with fmt := fun e => off rfl hw e, nextId := fun e => off rfl hw e }
theorem set_20022000 {s : State} {x0 x1 x2} (hw : Sub 0x20022000 w) (hs : Same w r s) : Same w r { s with fmt := x0, pans := x1, nextId := x2 } :=
  { hs with fmt := fun e => off rfl hw e, pans := fun e => off rfl hw e, nextId := fun e => off rfl hw e }
theorem set_20080000 {s : State} {x0 x1} (hw : Sub 0x20080000 w) (hs : Same w r s) : Same w r { s with mov := x0, nextId := x1 } :=
  { hs with mov := fun e => off rfl hw e, nextId := fun e => off rfl hw e }
theorem set_20400000 {s : State} {x0 x1} (hw : Sub 0x20400000 w) (hs : Same w r s) : Same w r { s with rtv := x0, nextId := x1 } :=
  { hs with rtv := fun e => off rfl hw e, nextId := fun e => off rfl hw e }
theorem set_22002000 {s : State} {x0 x1 x2} (hw : Sub 0x22002000 w) (hs : Same w r s) : Same w r { s with fmt := x0, chn := x1, nextId := x2 } :=
  { hs with fmt := fun e => off rfl hw e, chn := fun e => off rfl hw e, nextId := fun e => off rfl hw e }

theorem same_if {c : Prop} [Decidable c] {a b : State} (h1 : Same w r a) (h2 : Same w r b) : Same w r (if c then a else b) := by
  split <;> assumption
theorem same_dite {c : Prop} [Decidable c] {a : c → State} {b : ¬ c → State} (h1 : ∀ h, Same w r (a h)) (h2 : ∀ h, Same w r (b h)) : Same w r (if h : c then a h else b h) := by
  split <;> simp_all
theorem out_if {c : Prop} [Decidable c] {a b : Out} (h1 : OutSame w r a) (h2 : OutSame w r b) : OutSame w r (if c then a else b) := by
  split <;> assumption
theorem exc_if {ε} {c : Prop} [Decidable c] {a b : Except ε State} (h1 : ExcSame w r a) (h2 : ExcSame w r b) : ExcSame w r (if c then a else b) := by
  split <;> assumption
theorem excP_if {ε α} {c : Prop} [Decidable c] {a b : Except ε (α × State)} (h1 : ExcPSame w r a) (h2 : ExcPSame w r b) : ExcPSame w r (if c then a else b) := by
  split <;> assumption
theorem optP_if {α} {c : Prop} [Decidable c] {a b : Option (α × State)} (h1 : OptPSame w r a) (h2 : OptPSame w r b) : OptPSame w r (if c then a else b) := by
  split <;> assumption
theorem snd_if {α} {c : Prop} [Decidable c] {a b : α × State} (h1 : SndSame w r a) (h2 : SndSame w r b) : SndSame w r (if c then a else b) := by
  split <;> assumption
theorem fst_if {α} {c : Prop} [Decidable c] {a b : State × α} (h1 : FstSame w r a) (h2 : FstSame w r b) : FstSame w r (if c then a else b) := by
  split <;> assumption
theorem snd_snd {α} {p : α × State} (h : SndSame w r p) : Same w r p.2 := h
theorem fst_fst {α} {p : State × α} (h : FstSame w r p) : Same w r p.1 := h
theorem snd_mk {α} {a : α} {s} (h : Same w r s) : SndSame w r (a, s) := h
theorem fst_mk {α} {a : α} {s} (h : Same w r s) : FstSame w r (s, a) := h
theorem exc_ok {ε} {s} (h : Same w r s) : ExcSame w r (.ok s : Except ε State) := h
theorem exc_error {ε} {e : ε} : ExcSame w r (.error e) := trivial
theorem excP_ok {ε α} {p : α × State} (h : SndSame w r p) : ExcPSame w r (.ok p : Except ε (α × State)) := h
theorem excP_error {ε α} {e : ε} : ExcPSame w r (.error e : Except ε (α × State)) := trivial
theorem optP_some {α} {p : α × State} (h : SndSame w r p) : OptPSame w r (some p) := h
theorem optP_none {α} : OptPSame w r (none : Option (α × State)) := trivial
theorem out_next {s} (h : Same w r s) : OutSame w r (.next s) := h
theorem snd_elim {α} {p : α × State} {a t} (e : p = (a, t)) (h : SndSame w r p) : Same w r t := by subst e; exact h
theorem fst_elim {α} {p : State × α} {a t} (e : p = (t, a)) (h : FstSame w r p) : Same w r t := by subst e; exact h
theorem exc_elim {ε} {p : Except ε State} {t} (e : p = .ok t) (h : ExcSame w r p) : Same w r t := by subst e; exact h
theorem excP_elim {ε α} {p : Except ε (α × State)} {a t} (e : p = .ok (a, t)) (h : ExcPSame w r p) : Same w r t := by subst e; exact h
theorem optP_elim {α} {p : Option (α × State)} {a t} (e : p = some (a, t)) (h : OptPSame w r p) : Same w r t := by subst e; exact h
theorem same_foldl {α : Type} {f : State → α → State} {l : List α} {s : State} (hf : ∀ s a, Same w r s → Same w r (f s a)) (h : Same w r s) : Same w r (l.foldl f s) := by
  induction l generalizing s with
  | nil => exact h
  | cons a l ih => exact ih (hf _ _ h)
theorem snd_foldl {α β : Type} {f : β × State → α → β × State} {l : List α} {s : β × State} (hf : ∀ s a, SndSame w r s → SndSame w r (f s a)) (h : SndSame w r s) : SndSame w r (l.foldl f s) := by
  induction l generalizing s with
  | nil => exact h
  | cons a l ih => exact ih (hf _ _ h)
theorem fst_foldl {α β : Type} {f : State × β → α → State × β} {l : List α} {s : State × β} (hf : ∀ s a, FstSame w r s → FstSame w r (f s a)) (h : FstSame w r s) : FstSame w r (l.foldl f s) := by
  induction l generalizing s with
  | nil => exact h
  | cons a l ih => exact ih (hf _ _ h)

end Sys2Proof.Frames
end

