-- ==== Sys2Proof/Laws/Frames.lean ====
section
/-! SUPPORT. Sys2Proof/Laws/Frames.lean: one lemma for each operation that answers a state: which fields of State it may write. -/

namespace Sys2Proof.Frames

open Sys2Proof.Machine

variable {w : BitVec 30} {r : State}

/-! ### Ops -/

theorem next_same {s : State} (hw : Sub 0x0 w) (hk : Same w r s) : OutSame w r (next s) := hk
theorem State_modInst_same {S0 : State} {x1 x2} (hw : Sub 0x100 w) (hk : Same w r S0) : Same w r (State.modInst S0 x1 x2) :=
  set_100 (sub rfl hw) hk
theorem State_modRing_same {S0 : State} {x1 x2} (hw : Sub 0x180 w) (hk : Same w r S0) : Same w r (State.modRing S0 x1 x2) := by
  unfold State.modRing
  split
  · exact set_80 (sub rfl hw) hk
  · exact State_modInst_same (sub rfl hw) hk
theorem hostWrite_same {x0 x1 x2} {S3 : State} (hw : Sub 0x8000000 w) (hk : Same w r S3) : Same w r (hostWrite x0 x1 x2 S3) :=
  set_8000000 (sub rfl hw) hk
theorem drawn_same {x0} {S1 : State} (hw : Sub 0x10000000 w) (hk : Same w r S1) : Same w r (drawn x0 S1) :=
  set_10000000 (sub rfl hw) hk
theorem fireMsix_same {x0} {S1 : State} (hw : Sub 0x8000040 w) (hk : Same w r S1) : Same w r (fireMsix x0 S1) :=
  same_if (set_40 (sub rfl hw) hk) (hostWrite_same (sub rfl hw) (set_40 (sub rfl hw) hk))
theorem flushMsix_same {S0 : State} (hw : Sub 0x8000040 w) (hk : Same w r S0) : Same w r (flushMsix S0) :=
  same_foldl (fun _ _ h0 => same_if (fireMsix_same (sub rfl hw) (set_40 (sub rfl hw) h0)) h0) hk
theorem raiseEv_same {x0 x1 x2 x3 x4} {S5 : State} (hw : Sub 0x10 w) (hk : Same w r S5) : Same w r (raiseEv x0 x1 x2 x3 x4 S5) :=
  same_if hk (set_10 (sub rfl hw) hk)
theorem signalRing_same {x0} {S1 : State} (hw : Sub 0x80001c0 w) (hk : Same w r S1) : Same w r (signalRing x0 S1) :=
  fireMsix_same (sub rfl hw) (State_modRing_same (sub rfl hw) hk)
theorem moderate_same {x0} {S1 : State} (hw : Sub 0x80001c0 w) (hk : Same w r S1) : Same w r (moderate x0 S1) :=
  same_if (signalRing_same (sub rfl hw) hk) hk
theorem useAts_same {x0 x1} {S2 : State} (hw : Sub 0x100 w) (hk : Same w r S2) : Same w r (useAts x0 x1 S2) := by
  unfold useAts
  split
  · exact hk
  · exact State_modInst_same (sub rfl hw) hk
theorem putCpl_same {x0 x1 x2 x3} {s : State} (hw : Sub 0x8000180 w) (hk : Same w r s) : Same w r (putCpl x0 x1 x2 x3 s) := by
  unfold putCpl
  extract_lets _ z
  have h : Same w r z := useAts_same (sub rfl hw) (hostWrite_same (sub rfl hw) hk)
  clear_value z
  exact State_modRing_same (sub rfl hw) h
theorem countCpl_same {x0 x1} {S2 : State} (hw : Sub 0x100 w) (hk : Same w r S2) : Same w r (countCpl x0 x1 S2) := by
  unfold countCpl
  split
  · exact hk
  · exact State_modInst_same (sub rfl hw) hk
theorem State_modCmd_same {S0 : State} {x1 x2 x3} (hw : Sub 0x180 w) (hk : Same w r S0) : Same w r (State.modCmd S0 x1 x2 x3) :=
  State_modRing_same (sub rfl hw) hk
theorem dropCmd_same {x0 x1} {S2 : State} (hw : Sub 0x180 w) (hk : Same w r S2) : Same w r (dropCmd x0 x1 S2) :=
  State_modRing_same (sub rfl hw) hk
theorem complete_same {x0 x1 x2} {S3 : State} (hw : Sub 0x80001c0 w) (hk : Same w r S3) : Same w r (complete x0 x1 x2 S3) := by
  unfold complete
  split
  · exact hk
  · refine same_if (State_modRing_same (sub rfl hw) hk) ?_
    extract_lets -merge -underBinder +onlyGivenNames z0
    have h1 : Same w r z0 := dropCmd_same (sub rfl hw) hk
    try clear_value z0
    exact same_if h1 (moderate_same (sub rfl hw) (countCpl_same (sub rfl hw) (putCpl_same (sub rfl hw) h1)))
theorem completeSt_same {x0 x1 x2} {S3 : State} (hw : Sub 0x80001c0 w) (hk : Same w r S3) : Same w r (completeSt x0 x1 x2 S3) :=
  complete_same (sub rfl hw) hk
theorem setInstState_same {x0 x1} {S2 : State} (hw : Sub 0x8000140 w) (hk : Same w r S2) : Same w r (setInstState x0 x1 S2) :=
  same_if hk (fireMsix_same (sub rfl hw) (State_modInst_same (sub rfl hw) hk))
theorem powerFor_same {x0} {S1 : State} (hw : Sub 0x4 w) (hk : Same w r S1) : Same w r (powerFor x0 S1) :=
  set_4 (sub rfl hw) hk
theorem setMode_same {x0} {S1 : State} (hw : Sub 0x6 w) (hk : Same w r S1) : Same w r (setMode x0 S1) :=
  same_if hk (powerFor_same (sub rfl hw) (set_2 (sub rfl hw) hk))
theorem storeMap_same {S0 : State} (hw : Sub 0x20 w) (hk : Same w r S0) : Same w r (storeMap S0) :=
  set_20 (sub rfl hw) hk
theorem storeSlot_same {x0} {S1 : State} (hw : Sub 0x20 w) (hk : Same w r S1) : Same w r (storeSlot x0 S1) :=
  set_20 (sub rfl hw) hk

/-! ### Stripes -/

theorem setDamage_same {x0 x1} {S2 : State} (hw : Sub 0x40000 w) (hk : Same w r S2) : Same w r (setDamage x0 x1 S2) :=
  set_40000 (sub rfl hw) hk

/-! ### Pans -/

theorem State_modPan_same {S0 : State} {x1 x2} (hw : Sub 0x20000 w) (hk : Same w r S0) : Same w r (State.modPan S0 x1 x2) :=
  set_20000 (sub rfl hw) hk
theorem settlePan_same {x0} {S1 : State} (hw : Sub 0x20010 w) (hk : Same w r S1) : Same w r (settlePan x0 S1) := by
  unfold settlePan
  try extract_lets -merge -underBinder +onlyGivenNames z0
  try clear_value z0
  try extract_lets -merge -underBinder +onlyGivenNames z1
  try clear_value z1
  try extract_lets -merge -underBinder +onlyGivenNames z2
  try clear_value z2
  extract_lets -merge -underBinder +onlyGivenNames z3
  have h4 : Same w r z3 := State_modPan_same (sub rfl hw) hk
  try clear_value z3
  try extract_lets -merge -underBinder +onlyGivenNames z8
  try clear_value z8
  extract_lets -merge -underBinder +onlyGivenNames z9
  have h10 : Same w r z9 := same_if (raiseEv_same (sub rfl hw) h4) h4
  try clear_value z9
  exact same_if (raiseEv_same (sub rfl hw) h10) h10
theorem noteUncorr_same {x0 x1} {S2 : State} (hw : Sub 0x40010 w) (hk : Same w r S2) : Same w r (noteUncorr x0 x1 S2) :=
  raiseEv_same (sub rfl hw) (set_40000 (sub rfl hw) hk)
theorem writeLink_same {x0 x1} {S2 : State} (hw : Sub 0x60010 w) (hk : Same w r S2) : Same w r (writeLink x0 x1 S2) := by
  unfold writeLink
  try extract_lets -merge -underBinder +onlyGivenNames z0
  try clear_value z0
  try extract_lets -merge -underBinder +onlyGivenNames z1
  try clear_value z1
  refine same_if hk ?_
  try extract_lets -merge -underBinder +onlyGivenNames z2
  try clear_value z2
  extract_lets -merge -underBinder +onlyGivenNames z3
  have h4 : Same w r z3 := setDamage_same (sub rfl hw) hk
  try clear_value z3
  exact same_if (set_60000 (sub rfl hw) (same_if (noteUncorr_same (sub rfl hw) h4) h4)) h4
theorem relink_same {x0} {S1 : State} (hw : Sub 0x60010 w) (hk : Same w r S1) : Same w r (relink x0 S1) := by
  refine same_foldl (fun _ _ h0 => ?_) hk
  try extract_lets -merge -underBinder +onlyGivenNames z1
  try clear_value z1
  try extract_lets -merge -underBinder +onlyGivenNames z2
  try clear_value z2
  refine same_if ?_ h0
  split
  · exact writeLink_same (sub rfl hw) h0
  · exact h0
theorem chargeUnits_same {x0 x1} {S2 : State} (hw : Sub 0x20000 w) (hk : Same w r S2) : Same w r (chargeUnits x0 x1 S2) := by
  unfold chargeUnits
  split
  · exact hk
  · exact set_20000 (sub rfl hw) hk
theorem grantBuf_same {x0 x1 x2} {S3 : State} (hw : Sub 0x20010 w) (hk : Same w r S3) : SndSame w r (grantBuf x0 x1 x2 S3) :=
  snd_mk (settlePan_same (sub rfl hw) (chargeUnits_same (sub rfl hw) (set_20000 (sub rfl hw) (State_modPan_same (sub rfl hw) hk))))
theorem freeBuf_same {x0 x1} {S2 : State} (hw : Sub 0x60010 w) (hk : Same w r S2) : Same w r (freeBuf x0 x1 S2) := by
  unfold freeBuf
  extract_lets -merge -underBinder +onlyGivenNames _ z0
  have h1 : Same w r z0 := set_20000 (sub rfl hw) hk
  try clear_value z0
  extract_lets -merge -underBinder +onlyGivenNames z40
  have h41 : Same w r z40 := State_modPan_same (sub rfl hw) h1
  try clear_value z40
  extract_lets -merge -underBinder +onlyGivenNames z60
  have h61 : Same w r z60 := chargeUnits_same (sub rfl hw) h41
  try clear_value z60
  extract_lets -merge -underBinder +onlyGivenNames z70
  have h71 : Same w r z70 := same_if h61 (writeLink_same (sub rfl hw) h61)
  try clear_value z70
  exact settlePan_same (sub rfl hw) (same_if (State_modPan_same (sub rfl hw) h71) h71)
theorem dropWaiter_same {x0} {S1 : State} (hw : Sub 0x20000 w) (hk : Same w r S1) : Same w r (dropWaiter x0 S1) :=
  same_foldl (fun _ _ h0 => State_modPan_same (sub rfl hw) h0) hk
theorem startRebuild_same {x0} {S1 : State} (hw : Sub 0x20010 w) (hk : Same w r S1) : Same w r (startRebuild x0 S1) :=
  raiseEv_same (sub rfl hw) (State_modPan_same (sub rfl hw) hk)
theorem serveOne_same {S0 : State} {x1} (hw : Sub 0x20010 w) (hk : Same w r S0) : Same w r (serveOne S0 x1) := by
  unfold serveOne
  split
  · exact hk
  · exact same_if (startRebuild_same (sub rfl hw) hk) (set_20000 (sub rfl hw) (snd_snd (grantBuf_same (sub rfl hw) (dropWaiter_same (sub rfl hw) hk))))
theorem serveWaiting_same {S0 : State} (hw : Sub 0x20010 w) (hk : Same w r S0) : Same w r (serveWaiting S0) :=
  same_foldl (fun _ _ h0 => serveOne_same (sub rfl hw) h0) hk
theorem panAnswer_same {x0} {S1 : State} (hw : Sub 0x20000 w) (hk : Same w r S1) : Same w r (panAnswer x0 S1) :=
  set_20000 (sub rfl hw) hk
theorem panReject_same {x0 x1 x2} {S3 : State} (hw : Sub 0x20000 w) (hk : Same w r S3) : Same w r (panReject x0 x1 x2 S3) :=
  panAnswer_same (sub rfl hw) (set_20000 (sub rfl hw) hk)
theorem panMisuse_same {x0 x1 x2 x3 x4} {S5 : State} (hw : Sub 0x20010 w) (hk : Same w r S5) : Same w r (panMisuse x0 x1 x2 x3 x4 S5) :=
  raiseEv_same (sub rfl hw) (panReject_same (sub rfl hw) hk)
theorem panBadHandle_same {x0 x1} {S2 : State} (hw : Sub 0x20010 w) (hk : Same w r S2) : Same w r (panBadHandle x0 x1 S2) :=
  raiseEv_same (sub rfl hw) (panReject_same (sub rfl hw) hk)
theorem panAlloc_same {x0 x1 x2 x3} {S4 : State} (hw : Sub 0x20010 w) (hk : Same w r S4) : Same w r (panAlloc x0 x1 x2 x3 S4) := by
  refine same_if hk ?_
  split
  · exact panReject_same (sub rfl hw) hk
  · try extract_lets -merge -underBinder +onlyGivenNames z0
    try clear_value z0
    refine same_if (panReject_same (sub rfl hw) hk) ?_
    try extract_lets -merge -underBinder +onlyGivenNames z1
    try clear_value z1
    extract_lets -merge -underBinder +onlyGivenNames z2
    have h3 : Same w r z2 := State_modPan_same (sub rfl hw) hk
    try clear_value z2
    extract_lets -merge -underBinder +onlyGivenNames _ z6
    have h7 : Same w r z6 := serveWaiting_same (sub rfl hw) (set_20000 (sub rfl hw) h3)
    try clear_value z6
    exact same_if (panAnswer_same (sub rfl hw) h7) (same_if (panAnswer_same (sub rfl hw) h7) (panAnswer_same (sub rfl hw) (dropWaiter_same (sub rfl hw) h7)))
theorem panDefer_same {x0 x1 x2} {S3 : State} (hw : Sub 0x20000 w) (hk : Same w r S3) : Same w r (panDefer x0 x1 x2 S3) :=
  panAnswer_same (sub rfl hw) (set_20000 (sub rfl hw) hk)
theorem panFree_same {x0 x1} {S2 : State} (hw : Sub 0x60010 w) (hk : Same w r S2) : Same w r (panFree x0 x1 S2) := by
  unfold panFree
  split
  · exact panBadHandle_same (sub rfl hw) hk
  · refine same_if (panDefer_same (sub rfl hw) hk) ?_
    split
    · exact panBadHandle_same (sub rfl hw) hk
    · refine same_if (panReject_same (sub rfl hw) hk) ?_
      split
      · exact same_if (serveWaiting_same (sub rfl hw) (panAnswer_same (sub rfl hw) (freeBuf_same (sub rfl hw) hk))) (panMisuse_same (sub rfl hw) hk)
      · exact panMisuse_same (sub rfl hw) hk
theorem panHandoff_same {x0 x1 x2} {S3 : State} (hw : Sub 0x20010 w) (hk : Same w r S3) : Same w r (panHandoff x0 x1 x2 S3) := by
  unfold panHandoff
  split
  · exact panBadHandle_same (sub rfl hw) hk
  · refine same_if (panDefer_same (sub rfl hw) hk) ?_
    split
    · exact panBadHandle_same (sub rfl hw) hk
    · refine same_if (panReject_same (sub rfl hw) hk) ?_
      split
      · exact same_if (panAnswer_same (sub rfl hw) (set_20000 (sub rfl hw) hk)) (panMisuse_same (sub rfl hw) hk)
      · exact panMisuse_same (sub rfl hw) hk
theorem panAcquire_same {x0 x1} {S2 : State} (hw : Sub 0x20010 w) (hk : Same w r S2) : Same w r (panAcquire x0 x1 S2) := by
  unfold panAcquire
  split
  · exact panBadHandle_same (sub rfl hw) hk
  · refine same_if (panDefer_same (sub rfl hw) hk) ?_
    split
    · exact panBadHandle_same (sub rfl hw) hk
    · refine same_if (panReject_same (sub rfl hw) hk) ?_
      split
      · exact same_if (panAnswer_same (sub rfl hw) (set_20000 (sub rfl hw) hk)) (panReject_same (sub rfl hw) hk)
      · exact panMisuse_same (sub rfl hw) hk
theorem panRelease_same {x0 x1} {S2 : State} (hw : Sub 0x60010 w) (hk : Same w r S2) : Same w r (panRelease x0 x1 S2) := by
  unfold panRelease
  split
  · exact panBadHandle_same (sub rfl hw) hk
  · refine same_if (panDefer_same (sub rfl hw) hk) ?_
    split
    · exact panBadHandle_same (sub rfl hw) hk
    · refine same_if (panReject_same (sub rfl hw) hk) ?_
      split
      · exact same_if (serveWaiting_same (sub rfl hw) (panAnswer_same (sub rfl hw) (freeBuf_same (sub rfl hw) hk))) (panAnswer_same (sub rfl hw) (set_20000 (sub rfl hw) hk))
      · exact panMisuse_same (sub rfl hw) hk
theorem panCancel_same {x0} {S1 : State} (hw : Sub 0x20000 w) (hk : Same w r S1) : Same w r (panCancel x0 S1) :=
  panAnswer_same (sub rfl hw) (dropWaiter_same (sub rfl hw) hk)
theorem onBehalf_same {x0} {S1 : State} (hw : Sub 0x20000 w) (hx0 : ∀ s, Same w r s → Same w r (x0 s)) (hk : Same w r S1) : Same w r (onBehalf x0 S1) :=
  set_20000 (sub rfl hw) (hx0 _ hk)
theorem releaseHandle_same {x0 x1} {S2 : State} (hw : Sub 0x60010 w) (hk : Same w r S2) : Same w r (releaseHandle x0 x1 S2) :=
  onBehalf_same (sub rfl hw) (fun _ h0 => panFree_same (sub rfl hw) h0) hk
theorem panCarry_same {S0 : State} {x1} (hw : Sub 0x60010 w) (hk : Same w r S0) : Same w r (panCarry S0 x1) := by
  unfold panCarry
  split
  · exact panFree_same (sub rfl hw) hk
  · exact panHandoff_same (sub rfl hw) hk
  · exact panAcquire_same (sub rfl hw) hk
  · exact panRelease_same (sub rfl hw) hk
theorem takeGrant_same {x0} {S1 : State} (hw : Sub 0x20000 w) (hk : Same w r S1) : OptPSame w r (takeGrant x0 S1) := by
  unfold takeGrant
  split
  · exact optP_none
  · exact optP_some (snd_mk (set_20000 (sub rfl hw) hk))
theorem fillPan_same {x0} {S1 : State} {x2} (hw : Sub 0x60010 w) (hk : Same w r S1) : Same w r (fillPan x0 S1 x2) :=
  same_if (relink_same (sub rfl hw) (settlePan_same (sub rfl hw) (State_modPan_same (sub rfl hw) hk))) hk
theorem fillPans_same {S0 : State} (hw : Sub 0x60010 w) (hk : Same w r S0) : Same w r (fillPans S0) :=
  serveWaiting_same (sub rfl hw) (same_foldl (fun _ _ h0 => fillPan_same (sub rfl hw) h0) hk)
theorem rebuildPan_same {x0} {S1 : State} {x2} (hw : Sub 0x60010 w) (hk : Same w r S1) : Same w r (rebuildPan x0 S1 x2) := by
  unfold rebuildPan
  extract_lets -merge -underBinder +onlyGivenNames z0
  have h1 : Same w r z0 := State_modPan_same (sub rfl hw) hk
  try clear_value z0
  exact same_if (relink_same (sub rfl hw) (settlePan_same (sub rfl hw) (State_modPan_same (sub rfl hw) h1))) (State_modPan_same (sub rfl hw) h1)
theorem rebuildTable_same {S0 : State} (hw : Sub 0x60010 w) (hk : Same w r S0) : Same w r (rebuildTable S0) :=
  same_foldl (fun _ _ h2 => rebuildPan_same (sub rfl hw) h2) (set_20000 (sub rfl hw) hk)
theorem enablePans_same {S0 : State} (hw : Sub 0x60010 w) (hk : Same w r S0) : Same w r (enablePans S0) :=
  same_if (fillPans_same (sub rfl hw) (same_foldl (fun _ _ h2 => same_if (settlePan_same (sub rfl hw) h2) h2) (set_20000 (sub rfl hw) hk))) (set_20000 (sub rfl hw) hk)

/-! ### Pace -/

theorem publishCeilings_same {x0} {S1 : State} (hw : Sub 0x8010 w) (hk : Same w r S1) : Same w r (publishCeilings x0 S1) :=
  same_if hk (same_if (raiseEv_same (sub rfl hw) (set_8000 (sub rfl hw) hk)) (set_8000 (sub rfl hw) hk))

/-! ### Faults -/

theorem abortRing_same {x0} {S1 : State} {x2} (hw : Sub 0x80001c0 w) (hk : Same w r S1) : Same w r (abortRing x0 S1 x2) := by
  unfold abortRing
  extract_lets -merge -underBinder +onlyGivenNames z0
  have h1 : Same w r z0 := same_foldl (fun _ _ h3 => completeSt_same (sub rfl hw) h3) hk
  try clear_value z0
  exact same_if h1 (signalRing_same (sub rfl hw) h1)
theorem abortAll_same {x0} {S1 : State} (hw : Sub 0x80001c0 w) (hk : Same w r S1) : Same w r (abortAll x0 S1) :=
  same_foldl (fun _ _ h0 => abortRing_same (sub rfl hw) h0) hk
theorem wipeKeys_same {x0} {S1 : State} (hw : Sub 0x1000 w) (hk : Same w r S1) : Same w r (wipeKeys x0 S1) :=
  set_1000 (sub rfl hw) hk
theorem unassign_same {S0 : State} {x1} (hw : Sub 0x8000140 w) (hk : Same w r S0) : Same w r (unassign S0 x1) :=
  setInstState_same (sub rfl hw) (State_modInst_same (sub rfl hw) hk)
theorem unassignAll_same {S0 : State} (hw : Sub 0x8001140 w) (hk : Same w r S0) : Same w r (unassignAll S0) :=
  wipeKeys_same (sub rfl hw) (same_foldl (fun _ _ h0 => unassign_same (sub rfl hw) h0) hk)
theorem dropGates_same {S0 : State} (hw : Sub 0x2000 w) (hk : Same w r S0) : Same w r (dropGates S0) :=
  set_2000 (sub rfl hw) hk
theorem writePreamps_same {S0 : State} (hw : Sub 0x2000 w) (hk : Same w r S0) : Same w r (writePreamps S0) :=
  same_if (set_2000 (sub rfl hw) hk) (set_2000 (sub rfl hw) hk)
theorem abandonData_same {S0 : State} (hw : Sub 0x703c00 w) (hk : Same w r S0) : Same w r (abandonData S0) :=
  set_703c00 (sub rfl hw) hk
theorem endDesc_same {x0 x1 x2 x3 x4} {S5 : State} (hw : Sub 0x80000 w) (hk : Same w r S5) : Same w r (endDesc x0 x1 x2 x3 x4 S5) :=
  set_80000 (sub rfl hw) hk
theorem abortMover_same {S0 : State} (hw : Sub 0x80000 w) (hk : Same w r S0) : Same w r (abortMover S0) :=
  set_80000 (sub rfl hw) (same_foldl (fun _ _ h2 => endDesc_same (sub rfl hw) h2) hk)
theorem beginStop_same {S0 : State} (hw : Sub 0x1002000 w) (hk : Same w r S0) : Same w r (beginStop S0) :=
  same_if (set_1002000 (sub rfl hw) hk) hk
theorem enterPewter_same {x0 x1 x2} {S3 : State} (hw : Sub 0xb7e3df6 w) (hk : Same w r S3) : Same w r (enterPewter x0 x1 x2 S3) := by
  refine same_if hk ?_
  extract_lets -merge -underBinder +onlyGivenNames _ z0
  have h1 : Same w r z0 := storeMap_same (sub rfl hw) (set_10 (sub rfl hw) hk)
  try clear_value z0
  extract_lets -merge -underBinder +onlyGivenNames _ z58
  have h59 : Same w r z58 := raiseEv_same (sub rfl hw) (set_2 (sub rfl hw) h1)
  try clear_value z58
  extract_lets -merge -underBinder +onlyGivenNames z90
  have h91 : Same w r z90 := dropGates_same (sub rfl hw) h59
  try clear_value z90
  extract_lets -merge -underBinder +onlyGivenNames _ z106
  have h107 : Same w r z106 := same_if (beginStop_same (sub rfl hw) h91) (set_1000000 (sub rfl hw) h91)
  try clear_value z106
  exact powerFor_same (sub rfl hw) (abandonData_same (sub rfl hw) (set_2060000 (sub rfl hw) (unassignAll_same (sub rfl hw) (abortAll_same (sub rfl hw) (abortMover_same (sub rfl hw) h107)))))
theorem judgePewter_same {x0 x1} {S2 : State} (hw : Sub 0xb7e3df6 w) (hk : Same w r S2) : Same w r (judgePewter x0 x1 S2) := by
  unfold judgePewter
  split
  · exact enterPewter_same (sub rfl hw) hk
  · exact hk
theorem setRetired_same {x0 x1 x2} {S3 : State} (hw : Sub 0x10 w) (hk : Same w r S3) : Same w r (setRetired x0 x1 x2 S3) :=
  set_10 (sub rfl hw) hk
theorem requeueHeld_same {x0 x1} {S2 : State} (hw : Sub 0x601800 w) (hk : Same w r S2) : Same w r (requeueHeld x0 x1 S2) := by
  refine same_if (set_401800 (sub rfl hw) hk) ?_
  refine same_if (set_401800 (sub rfl hw) hk) ?_
  refine same_if ?_ hk
  split
  · exact hk
  · exact set_200000 (sub rfl hw) hk
theorem loseDevice_same {x0 x1} {S2 : State} (hw : Sub 0xb7e3df6 w) (hk : Same w r S2) : Same w r (loseDevice x0 x1 S2) := by
  refine same_if hk ?_
  extract_lets -merge -underBinder +onlyGivenNames _ z0
  have h1 : Same w r z0 := set_40000 (sub rfl hw) hk
  try clear_value z0
  extract_lets -merge -underBinder +onlyGivenNames z12
  have h13 : Same w r z12 := storeMap_same (sub rfl hw) (setRetired_same (sub rfl hw) h1)
  try clear_value z12
  extract_lets -merge -underBinder +onlyGivenNames z18
  have h19 : Same w r z18 := raiseEv_same (sub rfl hw) h13
  try clear_value z18
  exact same_if (judgePewter_same (sub rfl hw) (set_40000 (sub rfl hw) h19)) (same_if (set_40000 (sub rfl hw) h19) h19)
theorem retrainPort_same {x0} {S1 : State} (hw : Sub 0x2000000 w) (hk : Same w r S1) : Same w r (retrainPort x0 S1) :=
  set_2000000 (sub rfl hw) hk
theorem retire_same {x0 x1 x2} {S3 : State} (hw : Sub 0xb7ebdf6 w) (hk : Same w r S3) : Same w r (retire x0 x1 x2 S3) := by
  refine same_if hk ?_
  extract_lets -merge -underBinder +onlyGivenNames z0
  have h1 : Same w r z0 := requeueHeld_same (sub rfl hw) (setRetired_same (sub rfl hw) hk)
  try clear_value z0
  extract_lets -merge -underBinder +onlyGivenNames z64
  have h65 : Same w r z64 := same_if (raiseEv_same (sub rfl hw) h1) (raiseEv_same (sub rfl hw) h1)
  try clear_value z64
  extract_lets -merge -underBinder +onlyGivenNames _ z96
  have h97 : Same w r z96 := storeMap_same (sub rfl hw) (set_4 (sub rfl hw) h65)
  try clear_value z96
  extract_lets -merge -underBinder +onlyGivenNames z112
  have h113 : Same w r z112 := same_if (publishCeilings_same (sub rfl hw) h97) h97
  try clear_value z112
  extract_lets -merge -underBinder +onlyGivenNames z120
  have h121 : Same w r z120 := same_if (loseDevice_same (sub rfl hw) h113) h113
  try clear_value z120
  exact judgePewter_same (sub rfl hw) (same_if (retrainPort_same (sub rfl hw) h121) h121)
theorem strike_same {x0 x1} {S2 : State} (hw : Sub 0xb7ebdf6 w) (hk : Same w r S2) : Same w r (strike x0 x1 S2) :=
  same_if hk (same_if (retire_same (sub rfl hw) (set_10 (sub rfl hw) hk)) (set_10 (sub rfl hw) hk))
theorem passAfter_same {x0 x1} {S2 : State} (hw : Sub 0xb7ebdf6 w) (hk : Same w r S2) : Same w r (passAfter x0 x1 S2) := by
  unfold passAfter
  split
  · exact same_if hk (retire_same (sub rfl hw) hk)
  · exact hk
theorem serveOldest_same {x0 x1} {S2 : State} (hw : Sub 0x80000 w) (hk : Same w r S2) : Same w r (serveOldest x0 x1 S2) := by
  unfold serveOldest
  split
  · exact hk
  · exact set_80000 (sub rfl hw) hk
theorem moverMoved_same {x0 x1} {S2 : State} (hw : Sub 0x80000 w) (hk : Same w r S2) : Same w r (moverMoved x0 x1 S2) :=
  set_80000 (sub rfl hw) hk
theorem raiseResend_same {x0 x1 x2 x3 x4 x5} {S6 : State} (hw : Sub 0x10 w) (hk : Same w r S6) : Same w r (raiseResend x0 x1 x2 x3 x4 x5 S6) :=
  raiseEv_same (sub rfl hw) hk

/-! ### Keys -/

theorem State_modSlot_same {S0 : State} {x1 x2 x3} (hw : Sub 0x100 w) (hk : Same w r S0) : Same w r (State.modSlot S0 x1 x2 x3) :=
  State_modInst_same (sub rfl hw) hk
theorem bumpGeneration_same {x0 x1} {S2 : State} (hw : Sub 0x8000140 w) (hk : Same w r S2) : Same w r (bumpGeneration x0 x1 S2) :=
  fireMsix_same (sub rfl hw) (State_modSlot_same (sub rfl hw) hk)
theorem State_modStream_same {S0 : State} {x1 x2} (hw : Sub 0x400 w) (hk : Same w r S0) : Same w r (State.modStream S0 x1 x2) :=
  set_400 (sub rfl hw) hk
theorem takeLease_same {x0 x1} {S2 : State} (hw : Sub 0x220 w) (hk : Same w r S2) : SndSame w r (takeLease x0 x1 S2) :=
  snd_mk (set_200 (sub rfl hw) (same_if (storeSlot_same (sub rfl hw) hk) hk))
theorem setEpoch_same {x0 x1 x2} {S3 : State} (hw : Sub 0x220 w) (hk : Same w r S3) : Same w r (setEpoch x0 x1 x2 S3) :=
  same_if (storeSlot_same (sub rfl hw) (set_200 (sub rfl hw) hk)) (set_200 (sub rfl hw) hk)
theorem resumeSeqs_same {S0 : State} (hw : Sub 0x200 w) (hk : Same w r S0) : Same w r (resumeSeqs S0) :=
  set_200 (sub rfl hw) hk
theorem resumeSaved_same {S0 : State} (hw : Sub 0x200 w) (hk : Same w r S0) : Same w r (resumeSaved S0) :=
  set_200 (sub rfl hw) hk
theorem cacheKey_same {x0 x1 x2 x3 x4} {S5 : State} (hw : Sub 0x1000 w) (hk : Same w r S5) : Same w r (cacheKey x0 x1 x2 x3 x4 S5) :=
  set_1000 (sub rfl hw) hk
theorem startKey_same {x0 x1 x2} {S3 : State} (hw : Sub 0x10000320 w) (hk : Same w r S3) : SndSame w r (startKey x0 x1 x2 S3) :=
  snd_mk (State_modSlot_same (sub rfl hw) (drawn_same (sub rfl hw) (setEpoch_same (sub rfl hw) hk)))
theorem keyFor_same {x0 x1} {S2 : State} (hw : Sub 0x10000320 w) (hk : Same w r S2) : ExcPSame w r (keyFor x0 x1 S2) := by
  unfold keyFor
  try extract_lets -merge -underBinder +onlyGivenNames z0
  try clear_value z0
  refine excP_if excP_error ?_
  refine excP_if ?_ ?_
  · refine excP_if excP_error ?_
    split
    · exact excP_error
    · exact excP_ok (startKey_same (sub rfl hw) hk)
  · split
    · exact excP_error
    · exact excP_if excP_error (excP_ok (snd_mk hk))
theorem takeCounter_same {x0} {S1 : State} (hw : Sub 0x10000720 w) (hk : Same w r S1) : ExcPSame w r (takeCounter x0 S1) := by
  unfold takeCounter
  split
  · exact hk
  · split
    · trivial
    · rename_i he
      have h := excP_elim he (keyFor_same (sub rfl hw) hk)
      by_cases h2 : x0.leaseNext < x0.leaseEnd
      · simp only [if_pos h2]
        exact excP_ok (snd_mk (State_modSlot_same (sub rfl hw) (State_modStream_same (sub rfl hw) h)))
      · simp only [if_neg h2]
        exact excP_ok (snd_mk (State_modSlot_same (sub rfl hw) (State_modStream_same (sub rfl hw) (takeLease_same (sub rfl hw) h))))

/-! ### Streams -/

theorem completeWrite_same {x0 x1 x2 x3} {S4 : State} (hw : Sub 0x80001c0 w) (hk : Same w r S4) : Same w r (completeWrite x0 x1 x2 x3 S4) :=
  complete_same (sub rfl hw) hk
theorem sweepStreams_same {S0 : State} (hw : Sub 0x400 w) (hk : Same w r S0) : Same w r (sweepStreams S0) :=
  set_400 (sub rfl hw) hk
theorem settleCmd_same {x0} {S1 : State} {x2} (hw : Sub 0x80005c0 w) (hk : Same w r S1) : Same w r (settleCmd x0 S1 x2) := by
  unfold settleCmd
  split
  · exact hk
  · extract_lets -merge -underBinder +onlyGivenNames z0
    have h1 : Same w r z0 := by
      unfold z0
      split
      · exact State_modStream_same (sub rfl hw) hk
      · exact hk
    try clear_value z0
    exact complete_same (sub rfl hw) h1
theorem settleWaits_same {S0 : State} (hw : Sub 0x80005c0 w) (hk : Same w r S0) : Same w r (settleWaits S0) :=
  sweepStreams_same (sub rfl hw) (same_foldl (fun _ _ h0 => same_foldl (fun _ _ h1 => settleCmd_same (sub rfl hw) h1) h0) hk)
theorem failBegun_same {x0 x1 x2} {S3 : State} (hw : Sub 0x80001c0 w) (hk : Same w r S3) : Same w r (failBegun x0 x1 x2 S3) :=
  same_foldl (fun _ _ h0 => same_if (completeWrite_same (sub rfl hw) h0) h0) hk
theorem failAll_same {x0 x1} {S2 : State} (hw : Sub 0x80001c0 w) (hk : Same w r S2) : Same w r (failAll x0 x1 S2) :=
  same_foldl (fun _ _ h0 => same_if (completeWrite_same (sub rfl hw) h0) h0) hk
theorem cutStream_same {x0 x1} {S2 : State} (hw : Sub 0x400 w) (hk : Same w r S2) : Same w r (cutStream x0 x1 S2) :=
  State_modStream_same (sub rfl hw) hk
theorem closeBlock_same {x0 x1} {S2 : State} (hw : Sub 0x30000f20 w) (hk : Same w r S2) : ExcSame w r (closeBlock x0 x1 S2) := by
  unfold closeBlock
  split
  · exact exc_error
  · have h0 := excP_elim ‹_ = _› (takeCounter_same (sub rfl hw) hk)
    exact exc_ok (set_20000800 (sub rfl hw) (State_modStream_same (sub rfl hw) h0))
theorem drainPieces_same {x0 x1 x2} {s : State} (hw : Sub 0x30000f20 w) (hk : Same w r s) : SndSame w r (drainPieces x0 x1 x2 s) := by
  induction x2 generalizing s with
  | zero => exact hk
  | succ n ih =>
    unfold drainPieces
    split
    · exact hk
    · split
      · split
        · exact hk
        · rename_i he
          exact ih (exc_elim he (closeBlock_same (sub rfl hw) hk))
      · split
        · exact hk
        · exact ih (State_modStream_same (sub rfl hw) hk)
theorem drainStream_same {x0 x1} {S2 : State} (hw : Sub 0x30000f20 w) (hk : Same w r S2) : SndSame w r (drainStream x0 x1 S2) := by
  unfold drainStream
  split
  · exact snd_mk hk
  · exact drainPieces_same (sub rfl hw) hk
theorem frameEntry_same {x0 x1 x2} {S3 : State} (hw : Sub 0x2400 w) (hk : Same w r S3) : Same w r (frameEntry x0 x1 x2 S3) := by
  unfold frameEntry
  split
  · exact hk
  · exact set_2000 (sub rfl hw) (State_modStream_same (sub rfl hw) hk)
theorem closeEarly_same {x0 x1} {S2 : State} (hw : Sub 0x30000f20 w) (hk : Same w r S2) : SndSame w r (closeEarly x0 x1 S2) := by
  unfold closeEarly
  extract_lets -merge -underBinder +onlyGivenNames z0
  have h1 : SndSame w r z0 := drainStream_same (sub rfl hw) hk
  try clear_value z0
  split
  · exact snd_mk (snd_snd h1)
  · exact h1
  · refine snd_if h1 ?_
    split
    · exact snd_mk (snd_snd h1)
    · have h3 := exc_elim ‹_ = _› (closeBlock_same (sub rfl hw) (snd_snd h1))
      exact snd_mk h3
theorem keyWork_same {S0 : State} (hw : Sub 0x1000 w) (hk : Same w r S0) : Same w r (keyWork S0) := by
  unfold keyWork
  split
  · exact set_1000 (sub rfl hw) hk
  · exact hk
theorem State_modBlk_same {S0 : State} {x1 x2} (hw : Sub 0x800 w) (hk : Same w r S0) : Same w r (State.modBlk S0 x1 x2) :=
  set_800 (sub rfl hw) hk
theorem missSecond_same {S0 : State} (hw : Sub 0x800 w) (hk : Same w r S0) : Same w r (missSecond S0) :=
  set_800 (sub rfl hw) hk
theorem dispatchSlice_same {S0 : State} (hw : Sub 0x1800 w) (hk : Same w r S0) : Same w r (dispatchSlice S0) := by
  unfold dispatchSlice
  split
  · exact hk
  · split
    · exact hk
    · exact set_1000 (sub rfl hw) (State_modBlk_same (sub rfl hw) hk)
theorem dispatchEngine_same {S0 : State} (hw : Sub 0x1800 w) (hk : Same w r S0) : Same w r (dispatchEngine S0) := by
  unfold dispatchEngine
  split
  · exact hk
  · split
    · exact hk
    · exact set_1000 (sub rfl hw) (State_modBlk_same (sub rfl hw) hk)
theorem dispatch_same {S0 : State} (hw : Sub 0x1800 w) (hk : Same w r S0) : Same w r (dispatch S0) := by
  unfold dispatch
  extract_lets -merge -underBinder +onlyGivenNames z0
  have h1 : Same w r z0 := missSecond_same (sub rfl hw) hk
  try clear_value z0
  extract_lets -merge -underBinder +onlyGivenNames z8
  have h9 : Same w r z8 := same_if h1 (same_foldl (fun _ _ h12 => dispatchSlice_same (sub rfl hw) h12) h1)
  try clear_value z8
  exact same_foldl (fun _ _ h13 => dispatchEngine_same (sub rfl hw) h13) h9
theorem endOfChain_same {x0 x1} {S2 : State} (hw : Sub 0x80001c0 w) (hk : Same w r S2) : Same w r (endOfChain x0 x1 S2) := by
  unfold endOfChain
  split
  · exact hk
  · exact same_if (completeWrite_same (sub rfl hw) hk) (same_if (completeWrite_same (sub rfl hw) hk) (State_modCmd_same (sub rfl hw) hk))
theorem loadSegment_same {x0 x1 x2 x3} {S4 : State} (hw : Sub 0x80001c0 w) (hk : Same w r S4) : Same w r (loadSegment x0 x1 x2 x3 S4) := by
  unfold loadSegment
  split
  · exact hk
  · try extract_lets -merge -underBinder +onlyGivenNames z0
    try clear_value z0
    split
    · exact completeWrite_same (sub rfl hw) hk
    · exact State_modCmd_same (sub rfl hw) hk
theorem entryDone_same {x0 x1 x2} {S3 : State} (hw : Sub 0x80019c0 w) (hk : Same w r S3) : Same w r (entryDone x0 x1 x2 S3) := by
  unfold entryDone
  split
  · exact hk
  · extract_lets -merge -underBinder +onlyGivenNames z0
    have h1 : Same w r z0 := State_modCmd_same (sub rfl hw) hk
    try clear_value z0
    extract_lets -merge -underBinder +onlyGivenNames z8
    have h9 : Same w r z8 := State_modInst_same (sub rfl hw) h1
    try clear_value z8
    extract_lets -merge -underBinder +onlyGivenNames z12
    have h13 : Same w r z12 := dispatch_same (sub rfl hw) h9
    try clear_value z12
    exact same_if (endOfChain_same (sub rfl hw) h13) h13
theorem exhaust_same {x0 x1 x2 x3} {S4 : State} (hw : Sub 0x8001dc0 w) (hk : Same w r S4) : Same w r (exhaust x0 x1 x2 x3 S4) := by
  unfold exhaust
  split
  · exact dispatch_same (sub rfl hw) (completeWrite_same (sub rfl hw) (State_modInst_same (sub rfl hw) (State_modStream_same (sub rfl hw) hk)))
  · exact hk
theorem drainEntry_same {x0 x1 x2 x3} {S4 : State} (hw : Sub 0x38001fe0 w) (hk : Same w r S4) : Same w r (drainEntry x0 x1 x2 x3 S4) := by
  unfold drainEntry
  split
  · have h0 := snd_elim ‹_ = _› (drainStream_same (sub rfl hw) hk)
    exact entryDone_same (sub rfl hw) h0
  · have h1 := snd_elim ‹_ = _› (drainStream_same (sub rfl hw) hk)
    exact dispatch_same (sub rfl hw) h1
  · have h2 := snd_elim ‹_ = _› (drainStream_same (sub rfl hw) hk)
    exact exhaust_same (sub rfl hw) h2
theorem takeEntry_same {x0 x1 x2 x3} {S4 : State} (hw : Sub 0x38003fe0 w) (hk : Same w r S4) : Same w r (takeEntry x0 x1 x2 x3 S4) := by
  unfold takeEntry
  split
  · refine same_if (drainEntry_same (sub rfl hw) hk) ?_
    split
    · exact completeWrite_same (sub rfl hw) hk
    · exact drainEntry_same (sub rfl hw) (frameEntry_same (sub rfl hw) (State_modCmd_same (sub rfl hw) hk))
  · exact hk
theorem hostBurst_same {x0 x1 x2} {S3 : State} (hw : Sub 0x38003fe0 w) (hk : Same w r S3) : Same w r (hostBurst x0 x1 x2 S3) := by
  unfold hostBurst
  split
  · exact hk
  · split
    · exact endOfChain_same (sub rfl hw) hk
    · refine same_if (loadSegment_same (sub rfl hw) (State_modCmd_same (sub rfl hw) hk)) ?_
      refine same_if ?_ ?_
      · extract_lets -merge -underBinder +onlyGivenNames z0
        have h1 : Same w r z0 := State_modCmd_same (sub rfl hw) hk
        try clear_value z0
        exact same_if (endOfChain_same (sub rfl hw) h1) h1
      · try extract_lets -merge -underBinder +onlyGivenNames z2
        try clear_value z2
        try extract_lets -merge -underBinder +onlyGivenNames z3
        try clear_value z3
        extract_lets -merge -underBinder +onlyGivenNames z4
        have h5 : Same w r z4 := State_modCmd_same (sub rfl hw) hk
        try clear_value z4
        exact same_if h5 (takeEntry_same (sub rfl hw) h5)
theorem hostBursts_same {x0 x1 x2 x3} {s : State} (hw : Sub 0x38003fe0 w) (hk : Same w r s) : Same w r (hostBursts x0 x1 x2 x3 s) := by
  induction x3 generalizing s with
  | zero => exact hk
  | succ n ih =>
    unfold hostBursts
    split
    · exact same_if (ih (hostBurst_same (sub rfl hw) hk)) (hk)
    · exact hk
theorem retryStaged_same {x0} {S1 : State} (hw : Sub 0x38003fe0 w) (hk : Same w r S1) : Same w r (retryStaged x0 S1) := by
  refine same_if hk ?_
  refine same_foldl (fun _ _ h0 => ?_) hk
  split
  · exact same_if (takeEntry_same (sub rfl hw) h0) h0
  · exact h0
theorem checkSessionEnd_same {S0 : State} (hw : Sub 0x2000 w) (hk : Same w r S0) : Same w r (checkSessionEnd S0) := by
  unfold checkSessionEnd
  split
  · exact hk
  · exact same_if hk (set_2000 (sub rfl hw) hk)
theorem addItem_same {x0 x1} {S2 : State} (hw : Sub 0x400 w) (hk : Same w r S2) : Same w r (addItem x0 x1 S2) :=
  State_modStream_same (sub rfl hw) hk
theorem discardBlocks_same {x0} {S1 : State} (hw : Sub 0x1c00 w) (hk : Same w r S1) : Same w r (discardBlocks x0 S1) :=
  set_1c00 (sub rfl hw) hk
theorem dropRBlks_same {x0 x1} {S2 : State} (hw : Sub 0x401000 w) (hk : Same w r S2) : Same w r (dropRBlks x0 x1 S2) :=
  set_401000 (sub rfl hw) hk
theorem endStream_same {S0 : State} {x1} (hw : Sub 0x403400 w) (hk : Same w r S0) : Same w r (endStream S0 x1) := by
  unfold endStream
  extract_lets -merge -underBinder +onlyGivenNames z0
  have h1 : Same w r z0 := State_modStream_same (sub rfl hw) hk
  try clear_value z0
  exact checkSessionEnd_same (sub rfl hw) (same_if h1 (dropRBlks_same (sub rfl hw) h1))
theorem endStreams_same {x0} {S1 : State} (hw : Sub 0x403400 w) (hk : Same w r S1) : Same w r (endStreams x0 S1) :=
  sweepStreams_same (sub rfl hw) (same_foldl (fun _ _ h0 => endStream_same (sub rfl hw) h0) hk)

/-! ### Layout -/

theorem startSession_same {x0} {S1 : State} (hw : Sub 0x2000 w) (hk : Same w r S1) : Same w r (startSession x0 S1) :=
  set_2000 (sub rfl hw) hk
theorem setTapeCounts_same {x0 x1 x2 x3} {S4 : State} (hw : Sub 0x10000 w) (hk : Same w r S4) : Same w r (setTapeCounts x0 x1 x2 x3 S4) :=
  set_10000 (sub rfl hw) hk

/-! ### RingLink -/

theorem State_modPort_same {S0 : State} {x1 x2} (hw : Sub 0x2000000 w) (hk : Same w r S0) : Same w r (State.modPort S0 x1 x2) :=
  set_2000000 (sub rfl hw) hk
theorem pumpFrame_same {x0} {S1 : State} (hw : Sub 0x2000000 w) (hk : Same w r S1) : Same w r (pumpFrame x0 S1) := by
  unfold pumpFrame
  try extract_lets -merge -underBinder +onlyGivenNames z0
  try clear_value z0
  refine same_if hk ?_
  split
  · exact hk
  · exact State_modPort_same (sub rfl hw) hk
theorem pumpPort_same {x0} {S1 : State} (hw : Sub 0x2000000 w) (hk : Same w r S1) : Same w r (pumpPort x0 S1) :=
  same_foldl (fun _ _ h0 => pumpFrame_same (sub rfl hw) h0) hk
theorem enqueueFrame_same {x0 x1} {S2 : State} (hw : Sub 0x2000000 w) (hk : Same w r S2) : Same w r (enqueueFrame x0 x1 S2) :=
  same_if (pumpPort_same (sub rfl hw) (State_modPort_same (sub rfl hw) hk)) hk
theorem emitFrame_same {x0 x1} {S2 : State} (hw : Sub 0x2000000 w) (hk : Same w r S2) : Same w r (emitFrame x0 x1 S2) :=
  same_if (State_modPort_same (sub rfl hw) hk) hk
theorem sendAgain_same {x0 x1} {S2 : State} (hw : Sub 0x2000000 w) (hk : Same w r S2) : Same w r (sendAgain x0 x1 S2) :=
  same_if hk (State_modPort_same (sub rfl hw) hk)
theorem resendFrom_same {x0 x1} {S2 : State} (hw : Sub 0x2000000 w) (hk : Same w r S2) : Same w r (resendFrom x0 x1 S2) :=
  same_if (sendAgain_same (sub rfl hw) (State_modPort_same (sub rfl hw) hk)) hk
theorem sendTo_same {x0 x1} {S2 : State} (hw : Sub 0x2000000 w) (hk : Same w r S2) : Same w r (sendTo x0 x1 S2) := by
  unfold sendTo
  split
  · exact enqueueFrame_same (sub rfl hw) hk
  · exact hk
theorem sendAll_same {x0} {S1 : State} (hw : Sub 0x2000000 w) (hk : Same w r S1) : Same w r (sendAll x0 S1) :=
  same_if (enqueueFrame_same (sub rfl hw) hk) (enqueueFrame_same (sub rfl hw) (enqueueFrame_same (sub rfl hw) hk))
theorem tellPos_same {x0 x1 x2 x3} {S4 : State} (hw : Sub 0x2000000 w) (hk : Same w r S4) : Same w r (tellPos x0 x1 x2 x3 S4) := by
  unfold tellPos
  split
  · exact sendTo_same (sub rfl hw) hk
  · exact hk
theorem tellAll_same {x0 x1 x2} {S3 : State} (hw : Sub 0x2000000 w) (hk : Same w r S3) : Same w r (tellAll x0 x1 x2 S3) :=
  sendAll_same (sub rfl hw) hk
theorem sendPayload_same {x0} {S1 : State} (hw : Sub 0x2000000 w) (hk : Same w r S1) : Same w r (sendPayload x0 S1) :=
  same_foldl (fun _ _ h2 => same_foldl (fun _ _ h3 => enqueueFrame_same (sub rfl hw) h3) h2) hk
theorem stripeDs_same {x0} {S1 : State} (hw : Sub 0x2002000 w) (hk : Same w r S1) : Same w r (stripeDs x0 S1) := by
  unfold stripeDs
  extract_lets -merge g k st p x d h _ _ a _ b
  have ha : Same w r a := set_2000000 (sub rfl hw) hk
  clear_value a
  have hb : Same w r b := same_if (set_2000 (sub rfl hw) ha) ha
  clear_value b
  exact sendPayload_same (sub rfl hw) hb
theorem padStripe_same {x0 x1} {S2 : State} (hw : Sub 0x22002000 w) (hk : Same w r S2) : Same w r (padStripe x0 x1 S2) :=
  same_if hk (same_foldl (fun _ _ h0 => same_if h0 (stripeDs_same (sub rfl hw) (set_20000000 (sub rfl hw) h0))) hk)
theorem joinQueue_same {x0} {S1 : State} (hw : Sub 0x2002000 w) (hk : Same w r S1) : Same w r (joinQueue x0 S1) :=
  same_if (stripeDs_same (sub rfl hw) hk) (set_2000 (sub rfl hw) hk)
theorem joinStripe_same {S0 : State} (hw : Sub 0x22002000 w) (hk : Same w r S0) : Same w r (joinStripe S0) := by
  unfold joinStripe
  split
  · exact hk
  · exact set_22002000 (sub rfl hw) (same_if hk (startSession_same (sub rfl hw) hk))
theorem endStripes_same {S0 : State} (hw : Sub 0x2002000 w) (hk : Same w r S0) : Same w r (endStripes S0) := by
  unfold endStripes
  split
  · exact hk
  · exact same_if hk (set_2002000 (sub rfl hw) (same_if hk (startSession_same (sub rfl hw) hk)))
theorem settleStripes_same {S0 : State} (hw : Sub 0x22002000 w) (hk : Same w r S0) : Same w r (settleStripes S0) := by
  refine same_if hk ?_
  try extract_lets -merge -underBinder +onlyGivenNames z0
  try clear_value z0
  extract_lets -merge -underBinder +onlyGivenNames z1
  have h2 : Same w r z1 := same_foldl (fun _ _ h5 => tellPos_same (sub rfl hw) (set_2000000 (sub rfl hw) h5)) hk
  try clear_value z1
  exact endStripes_same (sub rfl hw) (same_foldl (fun _ _ h6 => joinStripe_same (sub rfl hw) h6) h2)
theorem settleXoff_same {S0 : State} (hw : Sub 0x2000000 w) (hk : Same w r S0) : Same w r (settleXoff S0) :=
  same_if hk (tellPos_same (sub rfl hw) (set_2000000 (sub rfl hw) hk))

/-! ### Assemble -/

theorem closeDs_same {x0} {S1 : State} (hw : Sub 0x2002800 w) (hk : Same w r S1) : Same w r (closeDs x0 S1) := by
  unfold closeDs
  split
  · exact hk
  · exact joinQueue_same (sub rfl hw) (set_2800 (sub rfl hw) hk)
theorem modDs_same {x0 x1} {S2 : State} (hw : Sub 0x2000 w) (hk : Same w r S2) : Same w r (modDs x0 x1 S2) :=
  set_2000 (sub rfl hw) hk
theorem noteWaits_same {S0 : State} (hw : Sub 0x20000400 w) (hk : Same w r S0) : Same w r (noteWaits S0) :=
  same_foldl (fun _ _ h0 => same_if (same_if h0 (set_20000000 (sub rfl hw) (State_modStream_same (sub rfl hw) h0))) (State_modStream_same (sub rfl hw) h0)) hk
theorem popItem_same {x0} {S1 : State} (hw : Sub 0x400 w) (hk : Same w r S1) : Same w r (popItem x0 S1) :=
  State_modStream_same (sub rfl hw) hk
theorem pumpOne_same {x0} {S1 : State} (hw : Sub 0x22002c00 w) (hk : Same w r S1) : Same w r (pumpOne x0 S1) := by
  unfold pumpOne
  split
  · exact hk
  · split
    · exact same_if (popItem_same (sub rfl hw) (State_modStream_same (sub rfl hw) (modDs_same (sub rfl hw) hk))) (closeDs_same (sub rfl hw) hk)
    · exact popItem_same (sub rfl hw) (padStripe_same (sub rfl hw) (closeDs_same (sub rfl hw) hk))
    · exact popItem_same (sub rfl hw) (padStripe_same (sub rfl hw) hk)
    · exact hk
theorem pump_same {x0} {S1 : State} (hw : Sub 0x22002c00 w) (hk : Same w r S1) : Same w r (pump x0 S1) := by
  unfold pump
  split
  · exact hk
  · exact noteWaits_same (sub rfl hw) (same_foldl (fun _ _ h0 => pumpOne_same (sub rfl hw) h0) hk)
theorem freshStripes_same {x0 x1} {S2 : State} (hw : Sub 0x60000 w) (hk : Same w r S2) : Same w r (freshStripes x0 x1 S2) :=
  set_60000 (sub rfl hw) hk
theorem openDs_same {x0 x1} {S2 : State} (hw : Sub 0x22062c10 w) (hk : Same w r S2) : Same w r (openDs x0 x1 S2) := by
  unfold openDs
  split
  · exact releaseHandle_same (sub rfl hw) hk
  · exact pump_same (sub rfl hw) (set_20022000 (sub rfl hw) (freshStripes_same (sub rfl hw) hk))
theorem blkSealed_same {x0 x1 x2} {S3 : State} (hw : Sub 0x22062d90 w) (hk : Same w r S3) : Same w r (blkSealed x0 x1 x2 S3) := by
  unfold blkSealed
  split
  · exact releaseHandle_same (sub rfl hw) hk
  · try extract_lets -merge -underBinder +onlyGivenNames z0
    try clear_value z0
    extract_lets -merge -underBinder +onlyGivenNames z1
    have h2 : Same w r z1 := freshStripes_same (sub rfl hw) hk
    try clear_value z1
    extract_lets -merge -underBinder +onlyGivenNames _ z37
    have h38 : Same w r z37 := set_20000 (sub rfl hw) h2
    try clear_value z37
    extract_lets -merge -underBinder +onlyGivenNames z55
    have h56 : Same w r z55 := onBehalf_same (sub rfl hw) (fun _ h64 => panHandoff_same (sub rfl hw) h64) h38
    try clear_value z55
    exact pump_same (sub rfl hw) (State_modInst_same (sub rfl hw) (State_modCmd_same (sub rfl hw) (State_modBlk_same (sub rfl hw) h56)))
theorem takeUp_same {S0 : State} {x1} (hw : Sub 0x22463d90 w) (hk : Same w r S0) : Same w r (takeUp S0 x1) := by
  unfold takeUp
  extract_lets -merge -underBinder +onlyGivenNames _ z0
  have h1 : Same w r z0 := set_20000 (sub rfl hw) hk
  try clear_value z0
  refine same_if ?_ ?_
  · split
    · exact openDs_same (sub rfl hw) h1
    · exact hk
  · refine same_if ?_ ?_
    · refine same_if ?_ hk
      try extract_lets -merge -underBinder +onlyGivenNames z11
      try clear_value z11
      extract_lets -merge -underBinder +onlyGivenNames z12
      have h13 : Same w r z12 := onBehalf_same (sub rfl hw) (fun _ h15 => panHandoff_same (sub rfl hw) h15) (freshStripes_same (sub rfl hw) h1)
      try clear_value z12
      exact settleStripes_same (sub rfl hw) (set_2000000 (sub rfl hw) h13)
    · refine same_if (same_if (set_400000 (sub rfl hw) (freshStripes_same (sub rfl hw) h1)) (releaseHandle_same (sub rfl hw) h1)) ?_
      split
      · exact blkSealed_same (sub rfl hw) (set_1000 (sub rfl hw) h1)
      · exact hk
theorem settleGrants_same {S0 : State} (hw : Sub 0x22463d90 w) (hk : Same w r S0) : Same w r (settleGrants S0) :=
  dispatch_same (sub rfl hw) (same_foldl (fun _ _ h0 => takeUp_same (sub rfl hw) h0) hk)
theorem giveBack_same {x0} {S1 : State} (hw : Sub 0x22463d90 w) (hk : Same w r S1) : Same w r (giveBack x0 S1) := by
  unfold giveBack
  split
  · exact settleGrants_same (sub rfl hw) (releaseHandle_same (sub rfl hw) hk)
  · exact hk
theorem settleReadBufs_same {S0 : State} (hw : Sub 0x22463d90 w) (hk : Same w r S0) : Same w r (settleReadBufs S0) := by
  unfold settleReadBufs
  try extract_lets -merge -underBinder +onlyGivenNames z0
  try clear_value z0
  extract_lets -merge -underBinder +onlyGivenNames _ z1
  have h2 : Same w r z1 := set_400000 (sub rfl hw) hk
  try clear_value z1
  extract_lets -merge -underBinder +onlyGivenNames z11
  have h12 : Same w r z11 := by
    unfold z11
    refine same_foldl (fun _ _ h14 => ?_) h2
    split
    · exact releaseHandle_same (sub rfl hw) h14
    · exact h14
  try clear_value z11
  extract_lets -merge -underBinder +onlyGivenNames z15
  have h16 : Same w r z15 := same_if (onBehalf_same (sub rfl hw) (fun _ h18 => panAlloc_same (sub rfl hw) h18) h12) h12
  try clear_value z15
  exact settleGrants_same (sub rfl hw) h16
theorem dropReadBufs_same {S0 : State} (hw : Sub 0x460010 w) (hk : Same w r S0) : Same w r (dropReadBufs S0) :=
  same_foldl (fun _ _ h3 => releaseHandle_same (sub rfl hw) h3) (dropWaiter_same (sub rfl hw) (set_400000 (sub rfl hw) hk))
theorem endAll_same {x0} {S1 : State} (hw : Sub 0x22403c00 w) (hk : Same w r S1) : Same w r (endAll x0 S1) :=
  sweepStreams_same (sub rfl hw) (same_foldl (fun _ _ h1 => pump_same (sub rfl hw) h1) (endStreams_same (sub rfl hw) hk))

/-! ### HostCmds -/

theorem instCmd_same {x0 x1 x2 x3} {S4 : State} (hw : Sub 0x0 w) (hx3 : ∀ y0 s, Same w r s → Same w r (x3 y0 s)) (hk : Same w r S4) : Same w r (instCmd x0 x1 x2 x3 S4) := by
  unfold instCmd
  split
  · exact hk
  · exact hx3 _ _ hk
theorem endSt_same {x0 x1 x2} {S3 : State} (hw : Sub 0x80001c0 w) (hk : Same w r S3) : Same w r (endSt x0 x1 x2 S3) :=
  completeSt_same (sub rfl hw) hk
theorem endOk_same {x0 x1 x2 x3 x4} {S5 : State} (hw : Sub 0x80001c0 w) (hk : Same w r S5) : Same w r (endOk x0 x1 x2 x3 x4 S5) :=
  complete_same (sub rfl hw) hk
theorem streamCmd_same {x0 x1 x2 x3} {S4 : State} (hw : Sub 0x80001c0 w) (hx3 : ∀ y0 s, Same w r s → Same w r (x3 y0 s)) (hk : Same w r S4) : Same w r (streamCmd x0 x1 x2 x3 S4) := by
  unfold streamCmd
  split
  · exact endSt_same (sub rfl hw) hk
  · split
    · exact endSt_same (sub rfl hw) hk
    · exact same_if (hx3 _ _ hk) (endSt_same (sub rfl hw) hk)
theorem addStream_same {x0} {S1 : State} (hw : Sub 0x20000400 w) (hk : Same w r S1) : Same w r (addStream x0 S1) :=
  set_20000400 (sub rfl hw) hk
theorem openStream_same {x0 x1} {S2 : State} (hw : Sub 0x280025c0 w) (hk : Same w r S2) : Same w r (openStream x0 x1 S2) := by
  unfold openStream
  try extract_lets -merge -underBinder +onlyGivenNames z0
  try clear_value z0
  split
  · exact endSt_same (sub rfl hw) hk
  · refine same_if ?_ ?_
    · split
      · exact endSt_same (sub rfl hw) hk
      · exact endOk_same (sub rfl hw) (addStream_same (sub rfl hw) hk)
    · refine same_if hk ?_
      split
      · exact endSt_same (sub rfl hw) hk
      · exact same_if (endOk_same (sub rfl hw) (addStream_same (sub rfl hw) hk)) (endOk_same (sub rfl hw) (addStream_same (sub rfl hw) (same_if (startSession_same (sub rfl hw) hk) hk)))
theorem execOpenStream_same {x0 x1} {S2 : State} (hw : Sub 0x280025c0 w) (hk : Same w r S2) : OutSame w r (execOpenStream x0 x1 S2) :=
  next_same (sub rfl hw) (instCmd_same (sub rfl hw) (fun _ _ h0 => openStream_same (sub rfl hw) h0) hk)
theorem closeNow_same {x0 x1 x2 x3} {S4 : State} (hw : Sub 0x84035c0 w) (hk : Same w r S4) : Same w r (closeNow x0 x1 x2 x3 S4) :=
  endSt_same (sub rfl hw) (sweepStreams_same (sub rfl hw) (endStream_same (sub rfl hw) hk))
theorem closeStream_same {x0 x1} {S2 : State} (hw : Sub 0x3a403fe0 w) (hk : Same w r S2) : Same w r (closeStream x0 x1 S2) := by
  refine same_if (endSt_same (sub rfl hw) hk) ?_
  split
  · exact endSt_same (sub rfl hw) hk
  · refine same_if (closeNow_same (sub rfl hw) hk) ?_
    refine same_if (endSt_same (sub rfl hw) hk) ?_
    refine same_if (closeNow_same (sub rfl hw) hk) ?_
    split
    · have h0 := snd_elim ‹_ = _› (closeEarly_same (sub rfl hw) hk)
      exact hk
    · have h1 := snd_elim ‹_ = _› (closeEarly_same (sub rfl hw) hk)
      exact endSt_same (sub rfl hw) hk
    · have h2 := snd_elim ‹_ = _› (closeEarly_same (sub rfl hw) hk)
      split
      · exact h2
      · exact settleWaits_same (sub rfl hw) (dispatch_same (sub rfl hw) (pump_same (sub rfl hw) (endStream_same (sub rfl hw) (State_modCmd_same (sub rfl hw) h2))))
theorem execCloseStream_same {x0 x1} {S2 : State} (hw : Sub 0x3a403fe0 w) (hk : Same w r S2) : OutSame w r (execCloseStream x0 x1 S2) :=
  next_same (sub rfl hw) (instCmd_same (sub rfl hw) (fun _ _ h0 => closeStream_same (sub rfl hw) h0) hk)
theorem sync_same {x0 x1} {S2 : State} (hw : Sub 0x3a003fe0 w) (hk : Same w r S2) : Same w r (sync x0 x1 S2) := by
  refine same_if (endSt_same (sub rfl hw) hk) ?_
  refine same_if (endSt_same (sub rfl hw) hk) ?_
  refine streamCmd_same (sub rfl hw) (fun _ _ h0 => ?_) hk
  split
  · have h1 := snd_elim ‹_ = _› (closeEarly_same (sub rfl hw) h0)
    exact h0
  · have h2 := snd_elim ‹_ = _› (closeEarly_same (sub rfl hw) h0)
    exact endSt_same (sub rfl hw) h0
  · have h3 := snd_elim ‹_ = _› (closeEarly_same (sub rfl hw) h0)
    split
    · exact h3
    · exact settleWaits_same (sub rfl hw) (pump_same (sub rfl hw) (dispatch_same (sub rfl hw) (State_modCmd_same (sub rfl hw) (addItem_same (sub rfl hw) h3))))
theorem execSync_same {x0 x1} {S2 : State} (hw : Sub 0x3a003fe0 w) (hk : Same w r S2) : OutSame w r (execSync x0 x1 S2) :=
  next_same (sub rfl hw) (instCmd_same (sub rfl hw) (fun _ _ h0 => sync_same (sub rfl hw) h0) hk)
theorem writeMark_same {x0 x1} {S2 : State} (hw : Sub 0x3a003fe0 w) (hk : Same w r S2) : Same w r (writeMark x0 x1 S2) := by
  unfold writeMark
  try extract_lets -merge -underBinder +onlyGivenNames z0
  try clear_value z0
  refine same_if (endSt_same (sub rfl hw) hk) ?_
  refine same_if (endSt_same (sub rfl hw) hk) ?_
  refine streamCmd_same (sub rfl hw) (fun _ _ h1 => ?_) hk
  split
  · have h2 := snd_elim ‹_ = _› (closeEarly_same (sub rfl hw) h1)
    exact h1
  · have h3 := snd_elim ‹_ = _› (closeEarly_same (sub rfl hw) h1)
    exact endSt_same (sub rfl hw) h1
  · have h4 := snd_elim ‹_ = _› (closeEarly_same (sub rfl hw) h1)
    split
    · exact h4
    · exact settleWaits_same (sub rfl hw) (pump_same (sub rfl hw) (dispatch_same (sub rfl hw) (State_modCmd_same (sub rfl hw) (State_modInst_same (sub rfl hw) (State_modStream_same (sub rfl hw) (same_foldl (fun _ _ h7 => addItem_same (sub rfl hw) h7) h4))))))
theorem execWriteMark_same {x0 x1} {S2 : State} (hw : Sub 0x3a003fe0 w) (hk : Same w r S2) : OutSame w r (execWriteMark x0 x1 S2) :=
  next_same (sub rfl hw) (instCmd_same (sub rfl hw) (fun _ _ h0 => writeMark_same (sub rfl hw) h0) hk)
theorem startWrite_same {x0 x1 x2} {S3 : State} (hw : Sub 0x38003fe0 w) (hk : Same w r S3) : Same w r (startWrite x0 x1 x2 S3) := by
  unfold startWrite
  try extract_lets -merge -underBinder +onlyGivenNames z0
  try clear_value z0
  split
  · exact endSt_same (sub rfl hw) hk
  · exact same_if (endSt_same (sub rfl hw) hk) (streamCmd_same (sub rfl hw) (fun _ _ h1 => hostBursts_same (sub rfl hw) (loadSegment_same (sub rfl hw) (State_modCmd_same (sub rfl hw) h1))) hk)
theorem execWriteRecords_same {x0 x1 x2} {S3 : State} (hw : Sub 0x38003fe0 w) (hk : Same w r S3) : OutSame w r (execWriteRecords x0 x1 x2 S3) :=
  next_same (sub rfl hw) (instCmd_same (sub rfl hw) (fun _ _ h0 => startWrite_same (sub rfl hw) h0) hk)
theorem execStreamAppend_same {x0 x1 x2} {S3 : State} (hw : Sub 0x38003fe0 w) (hk : Same w r S3) : OutSame w r (execStreamAppend x0 x1 x2 S3) :=
  next_same (sub rfl hw) (instCmd_same (sub rfl hw) (fun _ _ h0 => startWrite_same (sub rfl hw) h0) hk)
theorem readPosition_same {x0 x1} {S2 : State} (hw : Sub 0x80001c0 w) (hk : Same w r S2) : Same w r (readPosition x0 x1 S2) :=
  same_if (endSt_same (sub rfl hw) hk) (streamCmd_same (sub rfl hw) (fun _ _ h0 => same_if (endOk_same (sub rfl hw) h0) (endOk_same (sub rfl hw) h0)) hk)
theorem execReadPosition_same {x0 x1} {S2 : State} (hw : Sub 0x80001c0 w) (hk : Same w r S2) : OutSame w r (execReadPosition x0 x1 S2) :=
  next_same (sub rfl hw) (instCmd_same (sub rfl hw) (fun _ _ h0 => readPosition_same (sub rfl hw) h0) hk)
theorem rewindRead_same {x0} {S1 : State} (hw : Sub 0x401580 w) (hk : Same w r S1) : Same w r (rewindRead x0 S1) := by
  unfold rewindRead
  extract_lets -merge -underBinder +onlyGivenNames z0
  have h1 : Same w r z0 := State_modStream_same (sub rfl hw) hk
  try clear_value z0
  extract_lets -merge -underBinder +onlyGivenNames z6
  have h7 : Same w r z6 := dropRBlks_same (sub rfl hw) h1
  try clear_value z6
  split
  · exact h7
  · exact same_foldl (fun _ _ h9 => same_if (State_modCmd_same (sub rfl hw) h9) h9) h7
theorem discardUnopened_same {x0 x1} {S2 : State} (hw : Sub 0x401580 w) (hk : Same w r S2) : Same w r (discardUnopened x0 x1 S2) :=
  same_foldl (fun _ _ h1 => rewindRead_same (sub rfl hw) h1) hk
theorem failRead_same {x0 x1 x2 x3} {S4 : State} (hw : Sub 0x84015c0 w) (hk : Same w r S4) : Same w r (failRead x0 x1 x2 x3 S4) := by
  unfold failRead
  extract_lets -merge -underBinder +onlyGivenNames z0
  have h1 : Same w r z0 := by
    unfold z0
    split
    · exact rewindRead_same (sub rfl hw) hk
    · exact hk
  try clear_value z0
  exact complete_same (sub rfl hw) h1
theorem revokeAppend_same {x0 x1} {S2 : State} (hw : Sub 0x80005c0 w) (hk : Same w r S2) : Same w r (revokeAppend x0 x1 S2) :=
  same_foldl (fun _ _ h0 => cutStream_same (sub rfl hw) (failBegun_same (sub rfl hw) h0)) hk
theorem revokeReads_same {x0 x1} {S2 : State} (hw : Sub 0x84015c0 w) (hk : Same w r S2) : Same w r (revokeReads x0 x1 S2) := by
  refine same_foldl (fun _ _ h0 => ?_) hk
  split
  · exact same_if (failRead_same (sub rfl hw) h0) h0
  · exact h0
theorem revokeWaiters_same {x0 x1} {S2 : State} (hw : Sub 0x80001c0 w) (hk : Same w r S2) : Same w r (revokeWaiters x0 x1 S2) :=
  same_foldl (fun _ _ h0 => complete_same (sub rfl hw) h0) hk
theorem eraseSlot_same {x0 x1} {S2 : State} (hw : Sub 0x8401dc0 w) (hk : Same w r S2) : Same w r (eraseSlot x0 x1 S2) := by
  unfold eraseSlot
  try extract_lets -merge -underBinder +onlyGivenNames z0
  try clear_value z0
  extract_lets -merge -underBinder +onlyGivenNames z1
  have h2 : Same w r z1 := revokeReads_same (sub rfl hw) (revokeAppend_same (sub rfl hw) hk)
  try clear_value z1
  exact settleWaits_same (sub rfl hw) (dispatch_same (sub rfl hw) (revokeWaiters_same (sub rfl hw) (bumpGeneration_same (sub rfl hw) (State_modSlot_same (sub rfl hw) (wipeKeys_same (sub rfl hw) (discardUnopened_same (sub rfl hw) (discardBlocks_same (sub rfl hw) h2)))))))
theorem mergeRewrite_same {x0 x1 x2} {S3 : State} (hw : Sub 0x100 w) (hk : Same w r S3) : Same w r (mergeRewrite x0 x1 x2 S3) :=
  State_modSlot_same (sub rfl hw) hk
theorem applyPending_same {x0 x1} {S2 : State} (hw : Sub 0x38003fe0 w) (hk : Same w r S2) : Same w r (applyPending x0 x1 S2) := by
  unfold applyPending
  split
  · exact hk
  · extract_lets -merge -underBinder +onlyGivenNames z0
    have h1 : Same w r z0 := State_modSlot_same (sub rfl hw) hk
    try clear_value z0
    exact dispatch_same (sub rfl hw) (retryStaged_same (sub rfl hw) (same_foldl (fun _ _ h15 => complete_same (sub rfl hw) h15) (bumpGeneration_same (sub rfl hw) (same_if (wipeKeys_same (sub rfl hw) h1) h1))))
theorem applyIfIdle_same {x0 x1} {S2 : State} (hw : Sub 0x38003fe0 w) (hk : Same w r S2) : Same w r (applyIfIdle x0 x1 S2) :=
  same_if (applyPending_same (sub rfl hw) hk) hk
theorem slotBind_same {x0 x1} {S2 : State} (hw : Sub 0x38403fe0 w) (hk : Same w r S2) : Same w r (slotBind x0 x1 S2) := by
  unfold slotBind
  split
  · exact endSt_same (sub rfl hw) hk
  · try extract_lets -merge -underBinder +onlyGivenNames z0
    try clear_value z0
    try extract_lets -merge -underBinder +onlyGivenNames z1
    try clear_value z1
    split
    · exact endSt_same (sub rfl hw) hk
    · exact endOk_same (sub rfl hw) (eraseSlot_same (sub rfl hw) hk)
    · exact same_if (endOk_same (sub rfl hw) hk) (applyIfIdle_same (sub rfl hw) (State_modCmd_same (sub rfl hw) (mergeRewrite_same (sub rfl hw) hk)))
theorem execSlotBind_same {x0 x1} {S2 : State} (hw : Sub 0x38403fe0 w) (hk : Same w r S2) : OutSame w r (execSlotBind x0 x1 S2) :=
  next_same (sub rfl hw) (instCmd_same (sub rfl hw) (fun _ _ h0 => slotBind_same (sub rfl hw) h0) hk)
theorem slotRekey_same {x0 x1} {S2 : State} (hw : Sub 0x80007e0 w) (hk : Same w r S2) : Same w r (slotRekey x0 x1 S2) := by
  refine same_if (endSt_same (sub rfl hw) hk) ?_
  try extract_lets -merge -underBinder +onlyGivenNames z0
  try clear_value z0
  refine same_if (endSt_same (sub rfl hw) hk) ?_
  refine same_if (endSt_same (sub rfl hw) hk) ?_
  try extract_lets -merge -underBinder +onlyGivenNames z1
  try clear_value z1
  extract_lets -merge -underBinder +onlyGivenNames z2
  have h3 : Same w r z2 := setEpoch_same (sub rfl hw) hk
  try clear_value z2
  try extract_lets -merge -underBinder +onlyGivenNames z13
  try clear_value z13
  extract_lets -merge -underBinder +onlyGivenNames z14
  have h15 : Same w r z14 := same_foldl (fun _ _ h19 => State_modStream_same (sub rfl hw) h19) h3
  try clear_value z14
  exact endOk_same (sub rfl hw) (same_if (State_modSlot_same (sub rfl hw) h15) h15)
theorem execSlotRekey_same {x0 x1} {S2 : State} (hw : Sub 0x80007e0 w) (hk : Same w r S2) : OutSame w r (execSlotRekey x0 x1 S2) :=
  next_same (sub rfl hw) (instCmd_same (sub rfl hw) (fun _ _ h0 => slotRekey_same (sub rfl hw) h0) hk)
theorem getStats_same {x0 x1} {S2 : State} (hw : Sub 0x80001c0 w) (hk : Same w r S2) : Same w r (getStats x0 x1 S2) :=
  same_if (endSt_same (sub rfl hw) hk) (same_if (endSt_same (sub rfl hw) hk) (endOk_same (sub rfl hw) (hostWrite_same (sub rfl hw) hk)))
theorem execGetStats_same {x0 x1} {S2 : State} (hw : Sub 0x80001c0 w) (hk : Same w r S2) : OutSame w r (execGetStats x0 x1 S2) :=
  next_same (sub rfl hw) (instCmd_same (sub rfl hw) (fun _ _ h0 => getStats_same (sub rfl hw) h0) hk)
theorem nop_same {x0 x1} {S2 : State} (hw : Sub 0x80001c0 w) (hk : Same w r S2) : Same w r (nop x0 x1 S2) :=
  same_if (endSt_same (sub rfl hw) hk) (endOk_same (sub rfl hw) hk)
theorem execNop_same {x0 x1} {S2 : State} (hw : Sub 0x80001c0 w) (hk : Same w r S2) : OutSame w r (execNop x0 x1 S2) :=
  next_same (sub rfl hw) (instCmd_same (sub rfl hw) (fun _ _ h0 => nop_same (sub rfl hw) h0) hk)
theorem invalidOpcode_same {x0 x1} {S2 : State} (hw : Sub 0x80001c0 w) (hk : Same w r S2) : Same w r (invalidOpcode x0 x1 S2) := by
  unfold invalidOpcode
  split
  · split
    · exact same_if (completeSt_same (sub rfl hw) hk) hk
    · exact hk
  · split
    · exact same_if (endSt_same (sub rfl hw) hk) hk
    · exact hk
theorem execInvalidOpcode_same {x0 x1} {S2 : State} (hw : Sub 0x80001c0 w) (hk : Same w r S2) : OutSame w r (execInvalidOpcode x0 x1 S2) :=
  next_same (sub rfl hw) (invalidOpcode_same (sub rfl hw) hk)
theorem execPendingCopyApply_same {x0 x1} {S2 : State} (hw : Sub 0x38003fe0 w) (hk : Same w r S2) : OutSame w r (execPendingCopyApply x0 x1 S2) :=
  next_same (sub rfl hw) (applyIfIdle_same (sub rfl hw) hk)

/-! ### Rings -/

theorem setHifErr_same {x0 x1} {S2 : State} (hw : Sub 0x80 w) (hk : Same w r S2) : Same w r (setHifErr x0 x1 S2) :=
  set_80 (sub rfl hw) hk
theorem stopRing_same {x0 x1} {S2 : State} (hw : Sub 0x80001d0 w) (hk : Same w r S2) : Same w r (stopRing x0 x1 S2) := by
  unfold stopRing
  extract_lets -merge -underBinder +onlyGivenNames z0
  have h1 : Same w r z0 := setHifErr_same (sub rfl hw) (State_modRing_same (sub rfl hw) hk)
  try clear_value z0
  extract_lets -merge -underBinder +onlyGivenNames z4
  have h5 : Same w r z4 := raiseEv_same (sub rfl hw) h1
  try clear_value z4
  split
  · exact h5
  · split
    · exact setInstState_same (sub rfl hw) h5
    · exact setInstState_same (sub rfl hw) h5
    · exact setInstState_same (sub rfl hw) h5
    · exact h5
theorem badDoorbell_same {x0 x1} {S2 : State} (hw : Sub 0x190 w) (hk : Same w r S2) : Same w r (badDoorbell x0 x1 S2) :=
  raiseEv_same (sub rfl hw) (setHifErr_same (sub rfl hw) (State_modRing_same (sub rfl hw) hk))
theorem pauseInst_same {x0} {S1 : State} (hw : Sub 0x80001c0 w) (hk : Same w r S1) : Same w r (pauseInst x0 S1) :=
  setInstState_same (sub rfl hw) (State_modRing_same (sub rfl hw) hk)
theorem runInst_same {x0} {S1 : State} (hw : Sub 0x80001c0 w) (hk : Same w r S1) : Same w r (runInst x0 S1) :=
  same_if (pauseInst_same (sub rfl hw) hk) (setInstState_same (sub rfl hw) hk)
theorem refetchParked_same {x0} {S1 : State} {x2} (hw : Sub 0x80001c0 w) (hk : Same w r S1) : Same w r (refetchParked x0 S1 x2) :=
  same_if hk (same_if hk (loadSegment_same (sub rfl hw) (State_modCmd_same (sub rfl hw) hk)))
theorem hostStores_same {x0} {S1 : State} (hw : Sub 0x8000000 w) (hk : Same w r S1) : Same w r (hostStores x0 S1) :=
  same_foldl (fun _ _ h0 => hostWrite_same (sub rfl hw) h0) hk
theorem keepDoorbell_same {x0 x1 x2} {S3 : State} (hw : Sub 0x80 w) (hk : Same w r S3) : Same w r (keepDoorbell x0 x1 x2 S3) :=
  set_80 (sub rfl hw) hk
theorem sqDoorbell_same {x0 x1} {S2 : State} (hw : Sub 0x80001d0 w) (hk : Same w r S2) : Same w r (sqDoorbell x0 x1 S2) := by
  refine same_if hk ?_
  try extract_lets -merge -underBinder +onlyGivenNames z0
  try clear_value z0
  refine same_if (badDoorbell_same (sub rfl hw) hk) ?_
  extract_lets -merge -underBinder +onlyGivenNames z1
  have h2 : Same w r z1 := State_modRing_same (sub rfl hw) hk
  try clear_value z1
  split
  · exact h2
  · extract_lets -merge -underBinder +onlyGivenNames z7
    have h8 : Same w r z7 := same_if (runInst_same (sub rfl hw) h2) h2
    try clear_value z7
    exact same_if h8 (same_foldl (fun _ _ h10 => refetchParked_same (sub rfl hw) h10) h8)
theorem execHifDbSqTail_same {x0 x1 x2} {S3 : State} (hw : Sub 0x80001d0 w) (hk : Same w r S3) : OutSame w r (execHifDbSqTail x0 x1 x2 S3) :=
  next_same (sub rfl hw) (same_if (keepDoorbell_same (sub rfl hw) (hostStores_same (sub rfl hw) hk)) (sqDoorbell_same (sub rfl hw) (hostStores_same (sub rfl hw) hk)))
theorem cqDoorbell_same {x0 x1} {S2 : State} (hw : Sub 0x190 w) (hk : Same w r S2) : Same w r (cqDoorbell x0 x1 S2) :=
  same_if hk (same_if (badDoorbell_same (sub rfl hw) hk) (State_modRing_same (sub rfl hw) hk))
theorem execHifDbCqHead_same {x0 x1} {S2 : State} (hw : Sub 0x190 w) (hk : Same w r S2) : OutSame w r (execHifDbCqHead x0 x1 S2) :=
  next_same (sub rfl hw) (same_if (keepDoorbell_same (sub rfl hw) hk) (cqDoorbell_same (sub rfl hw) hk))
theorem endParked_same {x0 x1} {S2 : State} (hw : Sub 0x80001c0 w) (hk : Same w r S2) : Same w r (endParked x0 x1 S2) := by
  unfold endParked
  split
  · exact hk
  · exact same_foldl (fun _ _ h0 => same_if (completeWrite_same (sub rfl hw) h0) h0) hk
theorem fetchDescriptor_same {x0} {S1 : State} (hw : Sub 0x280001c0 w) (hk : Same w r S1) : Same w r (fetchDescriptor x0 S1) :=
  same_if hk (State_modRing_same (sub rfl hw) (endParked_same (sub rfl hw) (useAts_same (sub rfl hw) (set_20000000 (sub rfl hw) (State_modRing_same (sub rfl hw) hk)))))
theorem execDescriptorFetch_same {x0} {S1 : State} (hw : Sub 0x280001c0 w) (hk : Same w r S1) : OutSame w r (execDescriptorFetch x0 S1) :=
  next_same (sub rfl hw) (fetchDescriptor_same (sub rfl hw) hk)
theorem irqTimer_same {x0} {S1 : State} (hw : Sub 0x80001c0 w) (hk : Same w r S1) : Same w r (irqTimer x0 S1) :=
  same_if hk (signalRing_same (sub rfl hw) hk)
theorem execIrqTimerExpiry_same {x0} {S1 : State} (hw : Sub 0x80001c0 w) (hk : Same w r S1) : OutSame w r (execIrqTimerExpiry x0 S1) :=
  next_same (sub rfl hw) (irqTimer_same (sub rfl hw) hk)
theorem linkUp_same {x0 x1} {S2 : State} (hw : Sub 0x80000c2 w) (hk : Same w r S2) : Same w r (linkUp x0 x1 S2) :=
  flushMsix_same (sub rfl hw) (set_82 (sub rfl hw) hk)
theorem execPcieLinkUp_same {x0 x1} {S2 : State} (hw : Sub 0x80000c2 w) (hk : Same w r S2) : OutSame w r (execPcieLinkUp x0 x1 S2) :=
  next_same (sub rfl hw) (same_if hk (linkUp_same (sub rfl hw) hk))
theorem unmask_same {x0} {S1 : State} (hw : Sub 0x8000040 w) (hk : Same w r S1) : Same w r (unmask x0 S1) :=
  flushMsix_same (sub rfl hw) (set_40 (sub rfl hw) hk)
theorem execMsixUnmask_same {x0} {S1 : State} (hw : Sub 0x8000040 w) (hk : Same w r S1) : OutSame w r (execMsixUnmask x0 S1) :=
  next_same (sub rfl hw) (unmask_same (sub rfl hw) hk)
theorem atsInvalidate_same {x0 x1} {S2 : State} (hw : Sub 0x100 w) (hk : Same w r S2) : Same w r (atsInvalidate x0 x1 S2) :=
  set_100 (sub rfl hw) hk
theorem execAtsInvalidation_same {x0 x1} {S2 : State} (hw : Sub 0x100 w) (hk : Same w r S2) : OutSame w r (execAtsInvalidation x0 x1 S2) :=
  next_same (sub rfl hw) (atsInvalidate_same (sub rfl hw) hk)
theorem mqStart_same {S0 : State} (hw : Sub 0x80 w) (hk : Same w r S0) : Same w r (mqStart S0) :=
  same_if hk (set_80 (sub rfl hw) hk)
theorem execMqEnable_same {S0 : State} (hw : Sub 0x80 w) (hk : Same w r S0) : OutSame w r (execMqEnable S0) :=
  next_same (sub rfl hw) (same_if (mqStart_same (sub rfl hw) hk) hk)
theorem mqStop_same {S0 : State} (hw : Sub 0x80 w) (hk : Same w r S0) : Same w r (mqStop S0) :=
  same_if hk (set_80 (sub rfl hw) hk)
theorem execMqDisable_same {S0 : State} (hw : Sub 0x80 w) (hk : Same w r S0) : OutSame w r (execMqDisable S0) :=
  next_same (sub rfl hw) (same_if (mqStop_same (sub rfl hw) hk) hk)
theorem evtStart_same {S0 : State} (hw : Sub 0x10 w) (hk : Same w r S0) : Same w r (evtStart S0) :=
  same_if hk (set_10 (sub rfl hw) hk)
theorem execEventRingEnable_same {S0 : State} (hw : Sub 0x10 w) (hk : Same w r S0) : OutSame w r (execEventRingEnable S0) :=
  next_same (sub rfl hw) (same_if (evtStart_same (sub rfl hw) hk) hk)
theorem evtStop_same {S0 : State} (hw : Sub 0x10 w) (hk : Same w r S0) : Same w r (evtStop S0) :=
  set_10 (sub rfl hw) hk
theorem execEventRingDisable_same {S0 : State} (hw : Sub 0x10 w) (hk : Same w r S0) : OutSame w r (execEventRingDisable S0) :=
  next_same (sub rfl hw) (same_if (evtStop_same (sub rfl hw) hk) hk)
theorem evtHead_same {x0} {S1 : State} (hw : Sub 0x10 w) (hk : Same w r S1) : Same w r (evtHead x0 S1) :=
  same_if hk (set_10 (sub rfl hw) hk)
theorem execEvtRingHeadWrite_same {x0} {S1 : State} (hw : Sub 0x10 w) (hk : Same w r S1) : OutSame w r (execEvtRingHeadWrite x0 S1) :=
  next_same (sub rfl hw) (same_if (evtHead_same (sub rfl hw) hk) hk)
theorem evtSetLock_same {S0 : State} (hw : Sub 0x10 w) (hk : Same w r S0) : Same w r (evtSetLock S0) :=
  set_10 (sub rfl hw) hk
theorem execEvtLock_same {S0 : State} (hw : Sub 0x10 w) (hk : Same w r S0) : OutSame w r (execEvtLock S0) :=
  next_same (sub rfl hw) (same_if (evtSetLock_same (sub rfl hw) hk) hk)
theorem evtSignal_same {S0 : State} (hw : Sub 0x8000050 w) (hk : Same w r S0) : Same w r (evtSignal S0) :=
  same_if (fireMsix_same (sub rfl hw) (set_10 (sub rfl hw) hk)) (set_10 (sub rfl hw) hk)
theorem writeRecord_same {S0 : State} (hw : Sub 0x8000050 w) (hk : Same w r S0) : Same w r (writeRecord S0) := by
  refine same_if hk ?_
  split
  · exact hk
  · exact evtSignal_same (sub rfl hw) (set_10 (sub rfl hw) (hostWrite_same (sub rfl hw) hk))
theorem execEventRecordWrite_same {S0 : State} (hw : Sub 0x8000050 w) (hk : Same w r S0) : OutSame w r (execEventRecordWrite S0) :=
  next_same (sub rfl hw) (writeRecord_same (sub rfl hw) hk)
theorem evtTimer_same {S0 : State} (hw : Sub 0x8000050 w) (hk : Same w r S0) : Same w r (evtTimer S0) :=
  same_if (fireMsix_same (sub rfl hw) (set_10 (sub rfl hw) hk)) hk
theorem execEventIrqTimer_same {S0 : State} (hw : Sub 0x8000050 w) (hk : Same w r S0) : OutSame w r (execEventIrqTimer S0) :=
  next_same (sub rfl hw) (evtTimer_same (sub rfl hw) hk)
theorem evtFault_same {S0 : State} (hw : Sub 0x90 w) (hk : Same w r S0) : Same w r (evtFault S0) :=
  same_if hk (raiseEv_same (sub rfl hw) (setHifErr_same (sub rfl hw) (set_10 (sub rfl hw) hk)))
theorem leak_same {x0} {S1 : State} (hw : Sub 0x10 w) (hk : Same w r S1) : Same w r (leak x0 S1) :=
  same_if hk (set_10 (sub rfl hw) hk)
theorem execLeakPeriod_same {x0} {S1 : State} (hw : Sub 0x10 w) (hk : Same w r S1) : OutSame w r (execLeakPeriod x0 S1) :=
  next_same (sub rfl hw) (leak_same (sub rfl hw) hk)

/-! ### Manager -/

theorem mEnd_same {x0 x1} {S2 : State} (hw : Sub 0x80001c0 w) (hk : Same w r S2) : Same w r (mEnd x0 x1 S2) :=
  completeSt_same (sub rfl hw) hk
theorem mOk_same {x0 x1 x2 x3} {S4 : State} (hw : Sub 0x80001c0 w) (hk : Same w r S4) : Same w r (mOk x0 x1 x2 x3 S4) :=
  complete_same (sub rfl hw) hk
theorem mgmtCmd_same {x0 x1 x2} {S3 : State} (hw : Sub 0x80001c0 w) (hx2 : ∀ y0 s, Same w r s → Same w r (x2 y0 s)) (hk : Same w r S3) : Same w r (mgmtCmd x0 x1 x2 S3) := by
  unfold mgmtCmd
  split
  · exact hk
  · exact same_if (mEnd_same (sub rfl hw) hk) (hx2 _ _ hk)
theorem subCmd_same {x0 x1 x2 x3 x4} {S5 : State} (hw : Sub 0x80001c0 w) (hx4 : ∀ y0 s, Same w r s → Same w r (x4 y0 s)) (hk : Same w r S5) : Same w r (subCmd x0 x1 x2 x3 x4 S5) :=
  mgmtCmd_same (sub rfl hw) (fun _ _ h0 => same_if (hx4 _ _ h0) (same_if (mEnd_same (sub rfl hw) h0) h0)) hk
theorem withTarget_same {x0 x1} {S2 : State} (hw : Sub 0x80001c0 w) (hx1 : ∀ y0 s, Same w r s → Same w r (x1 y0 s)) (hk : Same w r S2) : Same w r (withTarget x0 x1 S2) :=
  same_if (hx1 _ _ hk) (mEnd_same (sub rfl hw) hk)
theorem setQuota_same {x0 x1} {S2 : State} (hw : Sub 0x22463d90 w) (hk : Same w r S2) : Same w r (setQuota x0 x1 S2) :=
  settleGrants_same (sub rfl hw) (serveWaiting_same (sub rfl hw) (set_20000 (sub rfl hw) hk))
theorem applyCfg_same {x0 x1} {S2 : State} (hw : Sub 0x20100 w) (hk : Same w r S2) : Same w r (applyCfg x0 x1 S2) :=
  set_20000 (sub rfl hw) (State_modInst_same (sub rfl hw) hk)
theorem newEcdh_same {x0} {S1 : State} (hw : Sub 0x10000100 w) (hk : Same w r S1) : Same w r (newEcdh x0 S1) :=
  drawn_same (sub rfl hw) (State_modInst_same (sub rfl hw) hk)
theorem instanceCreate_same {x0} {S1 : State} (hw : Sub 0x180201c0 w) (hk : Same w r S1) : Same w r (instanceCreate x0 S1) := by
  refine withTarget_same (sub rfl hw) (fun _ _ h0 => ?_) hk
  try extract_lets -merge -underBinder +onlyGivenNames z1
  try clear_value z1
  try extract_lets -merge -underBinder +onlyGivenNames z2
  try clear_value z2
  split
  · exact mEnd_same (sub rfl hw) h0
  · exact mOk_same (sub rfl hw) (setInstState_same (sub rfl hw) (newEcdh_same (sub rfl hw) (applyCfg_same (sub rfl hw) h0)))
theorem execInstanceCreate_same {x0} {S1 : State} (hw : Sub 0x180201c0 w) (hk : Same w r S1) : OutSame w r (execInstanceCreate x0 S1) :=
  next_same (sub rfl hw) (mgmtCmd_same (sub rfl hw) (fun _ _ h0 => instanceCreate_same (sub rfl hw) h0) hk)
theorem putShare_same {x0 x1} {S2 : State} (hw : Sub 0x80001c0 w) (hk : Same w r S2) : Same w r (putShare x0 x1 S2) := by
  unfold putShare
  extract_lets -merge -underBinder +onlyGivenNames z0
  have h1 : Same w r z0 := State_modInst_same (sub rfl hw) hk
  try clear_value z0
  split
  · exact same_if (pauseInst_same (sub rfl hw) h1) h1
  · exact same_if h1 (setInstState_same (sub rfl hw) h1)
  · exact h1
theorem closeAll_same {x0} {S1 : State} (hw : Sub 0x2002800 w) (hk : Same w r S1) : Same w r (closeAll x0 S1) :=
  same_foldl (fun _ _ h0 => closeDs_same (sub rfl hw) h0) hk
theorem beginQuiesce_same {x0} {S1 : State} (hw : Sub 0x3a403fe0 w) (hk : Same w r S1) : Same w r (beginQuiesce x0 S1) := by
  unfold beginQuiesce
  try extract_lets -merge -underBinder +onlyGivenNames z0
  try clear_value z0
  extract_lets -merge -underBinder +onlyGivenNames z1
  have h2 : Same w r z1 := setInstState_same (sub rfl hw) (State_modInst_same (sub rfl hw) hk)
  try clear_value z1
  extract_lets -merge -underBinder +onlyGivenNames z13
  have h14 : Same w r z13 := same_foldl (fun _ _ h19 => snd_snd (closeEarly_same (sub rfl hw) h19)) h2
  try clear_value z13
  exact dispatch_same (sub rfl hw) (closeAll_same (sub rfl hw) (same_foldl (fun _ _ h22 => rewindRead_same (sub rfl hw) h22) h14))
theorem endQuiesce_same {x0} {S1 : State} (hw : Sub 0x80001c0 w) (hk : Same w r S1) : Same w r (endQuiesce x0 S1) :=
  same_foldl (fun _ _ h3 => same_if (mOk_same (sub rfl hw) h3) h3) (State_modInst_same (sub rfl hw) hk)
theorem instanceQuiesce_same {x0} {S1 : State} (hw : Sub 0x3a403fe0 w) (hk : Same w r S1) : Same w r (instanceQuiesce x0 S1) := by
  refine withTarget_same (sub rfl hw) (fun _ _ h0 => ?_) hk
  refine same_if (mEnd_same (sub rfl hw) h0) ?_
  split
  · exact mEnd_same (sub rfl hw) h0
  · exact mEnd_same (sub rfl hw) h0
  · exact mOk_same (sub rfl hw) h0
  · exact mOk_same (sub rfl hw) h0
  · exact State_modCmd_same (sub rfl hw) h0
  · exact beginQuiesce_same (sub rfl hw) (State_modCmd_same (sub rfl hw) h0)
theorem execInstanceQuiesce_same {x0} {S1 : State} (hw : Sub 0x3a403fe0 w) (hk : Same w r S1) : OutSame w r (execInstanceQuiesce x0 S1) :=
  next_same (sub rfl hw) (mgmtCmd_same (sub rfl hw) (fun _ _ h0 => instanceQuiesce_same (sub rfl hw) h0) hk)
theorem quiesceComplete_same {x0} {S1 : State} (hw : Sub 0x80001c0 w) (hk : Same w r S1) : Same w r (quiesceComplete x0 S1) :=
  same_if (setInstState_same (sub rfl hw) (endQuiesce_same (sub rfl hw) hk)) hk
theorem execQuiesceComplete_same {x0} {S1 : State} (hw : Sub 0x80001c0 w) (hk : Same w r S1) : OutSame w r (execQuiesceComplete x0 S1) :=
  next_same (sub rfl hw) (quiesceComplete_same (sub rfl hw) hk)
theorem abortHeld_same {x0 x1} {S2 : State} (hw : Sub 0x80001c0 w) (hk : Same w r S2) : Same w r (abortHeld x0 x1 S2) :=
  same_foldl (fun _ _ h0 => same_if h0 (completeSt_same (sub rfl hw) h0)) hk
theorem eraseSlots_same {x0} {S1 : State} (hw : Sub 0x8401dc0 w) (hk : Same w r S1) : Same w r (eraseSlots x0 S1) :=
  same_foldl (fun _ _ h0 => eraseSlot_same (sub rfl hw) h0) hk
theorem instanceReset_same {x0} {S1 : State} (hw : Sub 0x2a403dc0 w) (hk : Same w r S1) : Same w r (instanceReset x0 S1) := by
  refine withTarget_same (sub rfl hw) (fun _ _ h0 => ?_) hk
  refine same_if (mEnd_same (sub rfl hw) h0) ?_
  refine same_if (mEnd_same (sub rfl hw) h0) ?_
  refine same_if (mEnd_same (sub rfl hw) h0) ?_
  extract_lets -merge -underBinder +onlyGivenNames z1
  have h2 : Same w r z1 := eraseSlots_same (sub rfl hw) (endAll_same (sub rfl hw) (abortHeld_same (sub rfl hw) h0))
  try clear_value z1
  exact mOk_same (sub rfl hw) (setInstState_same (sub rfl hw) (State_modInst_same (sub rfl hw) h2))
theorem execInstanceReset_same {x0} {S1 : State} (hw : Sub 0x2a403dc0 w) (hk : Same w r S1) : OutSame w r (execInstanceReset x0 S1) :=
  next_same (sub rfl hw) (mgmtCmd_same (sub rfl hw) (fun _ _ h0 => instanceReset_same (sub rfl hw) h0) hk)
theorem instanceDestroy_same {x0} {S1 : State} (hw : Sub 0x2a463dd0 w) (hk : Same w r S1) : Same w r (instanceDestroy x0 S1) := by
  refine withTarget_same (sub rfl hw) (fun _ _ h0 => ?_) hk
  refine same_if (mEnd_same (sub rfl hw) h0) ?_
  refine same_if (mEnd_same (sub rfl hw) h0) ?_
  refine same_if (mEnd_same (sub rfl hw) h0) ?_
  extract_lets -merge -underBinder +onlyGivenNames z1
  have h2 : Same w r z1 := eraseSlots_same (sub rfl hw) (endAll_same (sub rfl hw) (abortHeld_same (sub rfl hw) h0))
  try clear_value z1
  exact mOk_same (sub rfl hw) (setInstState_same (sub rfl hw) (setQuota_same (sub rfl hw) (State_modInst_same (sub rfl hw) h2)))
theorem execInstanceDestroy_same {x0} {S1 : State} (hw : Sub 0x2a463dd0 w) (hk : Same w r S1) : OutSame w r (execInstanceDestroy x0 S1) :=
  next_same (sub rfl hw) (mgmtCmd_same (sub rfl hw) (fun _ _ h0 => instanceDestroy_same (sub rfl hw) h0) hk)
theorem freezeCmds_same {x0 x1} {S2 : State} (hw : Sub 0x80001c0 w) (hk : Same w r S2) : Same w r (freezeCmds x0 x1 S2) :=
  same_foldl (fun _ _ h0 => same_if h0 (same_if (complete_same (sub rfl hw) h0) (same_if (complete_same (sub rfl hw) h0) (completeSt_same (sub rfl hw) h0)))) hk
theorem freezeInst_same {x0} {S1 : State} (hw : Sub 0x3a403fe0 w) (hk : Same w r S1) : Same w r (freezeInst x0 S1) := by
  unfold freezeInst
  extract_lets -merge -underBinder +onlyGivenNames z0
  have h1 : Same w r z0 := same_if (endQuiesce_same (sub rfl hw) hk) hk
  try clear_value z0
  try extract_lets -merge -underBinder +onlyGivenNames z95
  try clear_value z95
  try extract_lets -merge -underBinder +onlyGivenNames z96
  try clear_value z96
  try extract_lets -merge -underBinder +onlyGivenNames z97
  try clear_value z97
  extract_lets -merge -underBinder +onlyGivenNames z98
  have h99 : Same w r z98 := discardBlocks_same (sub rfl hw) h1
  try clear_value z98
  extract_lets -merge -underBinder +onlyGivenNames z144
  have h145 : Same w r z144 := same_foldl (fun _ _ h167 => rewindRead_same (sub rfl hw) h167) h99
  try clear_value z144
  extract_lets -merge -underBinder +onlyGivenNames z168
  have h169 : Same w r z168 := endAll_same (sub rfl hw) (freezeCmds_same (sub rfl hw) h145)
  try clear_value z168
  extract_lets -merge -underBinder +onlyGivenNames z179
  have h180 : Same w r z179 := wipeKeys_same (sub rfl hw) h169
  try clear_value z179
  exact settleWaits_same (sub rfl hw) (dispatch_same (sub rfl hw) (same_foldl (fun _ _ h187 => applyPending_same (sub rfl hw) h187) (setInstState_same (sub rfl hw) (State_modInst_same (sub rfl hw) h180))))
theorem instanceFreeze_same {x0} {S1 : State} (hw : Sub 0x3a403fe0 w) (hk : Same w r S1) : Same w r (instanceFreeze x0 S1) := by
  refine withTarget_same (sub rfl hw) (fun _ _ h0 => ?_) hk
  refine same_if (mEnd_same (sub rfl hw) h0) ?_
  split
  · exact mEnd_same (sub rfl hw) h0
  · exact mEnd_same (sub rfl hw) h0
  · exact mEnd_same (sub rfl hw) h0
  · exact mOk_same (sub rfl hw) (freezeInst_same (sub rfl hw) h0)
theorem execInstanceFreeze_same {x0} {S1 : State} (hw : Sub 0x3a403fe0 w) (hk : Same w r S1) : OutSame w r (execInstanceFreeze x0 S1) :=
  next_same (sub rfl hw) (mgmtCmd_same (sub rfl hw) (fun _ _ h0 => instanceFreeze_same (sub rfl hw) h0) hk)
theorem instanceSave_same {x0} {S1 : State} (hw : Sub 0x180011c8 w) (hk : Same w r S1) : Same w r (instanceSave x0 S1) :=
  withTarget_same (sub rfl hw) (fun _ _ h0 => same_if (mEnd_same (sub rfl hw) h0) (same_if (mEnd_same (sub rfl hw) h0) (same_if (mEnd_same (sub rfl hw) h0) (same_if (mEnd_same (sub rfl hw) h0) (mOk_same (sub rfl hw) (State_modInst_same (sub rfl hw) (set_8 (sub rfl hw) (hostWrite_same (sub rfl hw) (drawn_same (sub rfl hw) (keyWork_same (sub rfl hw) h0)))))))))) hk
theorem execInstanceSave_same {x0} {S1 : State} (hw : Sub 0x180011c8 w) (hk : Same w r S1) : OutSame w r (execInstanceSave x0 S1) :=
  next_same (sub rfl hw) (mgmtCmd_same (sub rfl hw) (fun _ _ h0 => instanceSave_same (sub rfl hw) h0) hk)
theorem restoreSlots_same {x0 x1 x2} {S3 : State} (hw : Sub 0x320 w) (hk : Same w r S3) : Same w r (restoreSlots x0 x1 x2 S3) := by
  unfold restoreSlots
  extract_lets -merge -underBinder +onlyGivenNames z0
  have h1 : Same w r z0 := same_foldl (fun _ _ h6 => storeSlot_same (sub rfl hw) (set_200 (sub rfl hw) (State_modSlot_same (sub rfl hw) h6))) hk
  try clear_value z0
  exact State_modInst_same (sub rfl hw) h1
theorem instanceRestore_same {x0} {S1 : State} (hw : Sub 0x180213e8 w) (hk : Same w r S1) : Same w r (instanceRestore x0 S1) := by
  refine withTarget_same (sub rfl hw) (fun _ _ h0 => ?_) hk
  try extract_lets -merge -underBinder +onlyGivenNames z1
  try clear_value z1
  refine same_if (mEnd_same (sub rfl hw) h0) ?_
  refine same_if (mEnd_same (sub rfl hw) h0) ?_
  refine same_if (mEnd_same (sub rfl hw) h0) ?_
  try extract_lets -merge -underBinder +onlyGivenNames z2
  try clear_value z2
  try extract_lets -merge -underBinder +onlyGivenNames z3
  try clear_value z3
  try extract_lets -merge -underBinder +onlyGivenNames z4
  try clear_value z4
  refine same_if (mEnd_same (sub rfl hw) h0) ?_
  try extract_lets -merge -underBinder +onlyGivenNames z5
  try clear_value z5
  try extract_lets -merge -underBinder +onlyGivenNames z6
  try clear_value z6
  try extract_lets -merge -underBinder +onlyGivenNames z7
  try clear_value z7
  refine same_if (mEnd_same (sub rfl hw) h0) ?_
  try extract_lets -merge -underBinder +onlyGivenNames z8
  try clear_value z8
  extract_lets -merge -underBinder +onlyGivenNames z9
  have h10 : Same w r z9 := same_if (keyWork_same (sub rfl hw) h0) h0
  try clear_value z9
  extract_lets -merge -underBinder +onlyGivenNames _ z17
  have h18 : Same w r z17 := same_if (set_8 (sub rfl hw) h10) h10
  try clear_value z17
  extract_lets -merge -underBinder +onlyGivenNames z21
  have h22 : Same w r z21 := newEcdh_same (sub rfl hw) (restoreSlots_same (sub rfl hw) (applyCfg_same (sub rfl hw) h18))
  try clear_value z21
  exact mOk_same (sub rfl hw) (setInstState_same (sub rfl hw) h22)
theorem execInstanceRestore_same {x0} {S1 : State} (hw : Sub 0x180213e8 w) (hk : Same w r S1) : OutSame w r (execInstanceRestore x0 S1) :=
  next_same (sub rfl hw) (mgmtCmd_same (sub rfl hw) (fun _ _ h0 => instanceRestore_same (sub rfl hw) h0) hk)
theorem rootGetPub_same {x0} {S1 : State} (hw : Sub 0x80001c0 w) (hk : Same w r S1) : Same w r (rootGetPub x0 S1) := by
  refine withTarget_same (sub rfl hw) (fun _ _ h0 => ?_) hk
  refine same_if (mEnd_same (sub rfl hw) h0) ?_
  refine same_if (mEnd_same (sub rfl hw) h0) ?_
  split
  · exact same_if (mEnd_same (sub rfl hw) h0) (mOk_same (sub rfl hw) (hostWrite_same (sub rfl hw) h0))
  · exact mEnd_same (sub rfl hw) h0
theorem execRootImportGetPub_same {x0} {S1 : State} (hw : Sub 0x80001c0 w) (hk : Same w r S1) : OutSame w r (execRootImportGetPub x0 S1) :=
  next_same (sub rfl hw) (subCmd_same (sub rfl hw) (fun _ _ h0 => rootGetPub_same (sub rfl hw) h0) hk)
theorem putRoot_same {x0 x1 x2 x3} {S4 : State} (hw : Sub 0x38003fe0 w) (hk : Same w r S4) : Same w r (putRoot x0 x1 x2 x3 S4) :=
  same_if (mOk_same (sub rfl hw) (bumpGeneration_same (sub rfl hw) (State_modSlot_same (sub rfl hw) hk))) (applyIfIdle_same (sub rfl hw) (State_modCmd_same (sub rfl hw) (mergeRewrite_same (sub rfl hw) hk)))
theorem rootImport_same {x0} {S1 : State} (hw : Sub 0x38003ff0 w) (hk : Same w r S1) : Same w r (rootImport x0 S1) := by
  refine withTarget_same (sub rfl hw) (fun _ _ h0 => ?_) hk
  refine same_if (mEnd_same (sub rfl hw) h0) ?_
  refine same_if (mEnd_same (sub rfl hw) h0) ?_
  split
  · exact mEnd_same (sub rfl hw) h0
  · refine same_if (mEnd_same (sub rfl hw) h0) ?_
    extract_lets -merge -underBinder +onlyGivenNames z1
    have h2 : Same w r z1 := keyWork_same (sub rfl hw) h0
    try clear_value z1
    split
    · exact mEnd_same (sub rfl hw) (raiseEv_same (sub rfl hw) h2)
    · exact putRoot_same (sub rfl hw) h2
theorem execRootImportImport_same {x0} {S1 : State} (hw : Sub 0x38003ff0 w) (hk : Same w r S1) : OutSame w r (execRootImportImport x0 S1) :=
  next_same (sub rfl hw) (subCmd_same (sub rfl hw) (fun _ _ h0 => rootImport_same (sub rfl hw) h0) hk)
theorem rootErase_same {x0} {S1 : State} (hw : Sub 0x8401dc0 w) (hk : Same w r S1) : Same w r (rootErase x0 S1) :=
  withTarget_same (sub rfl hw) (fun _ _ h0 => same_if (mEnd_same (sub rfl hw) h0) (same_if (mEnd_same (sub rfl hw) h0) (mOk_same (sub rfl hw) (eraseSlot_same (sub rfl hw) h0)))) hk
theorem execRootErase_same {x0} {S1 : State} (hw : Sub 0x8401dc0 w) (hk : Same w r S1) : OutSame w r (execRootErase x0 S1) :=
  next_same (sub rfl hw) (mgmtCmd_same (sub rfl hw) (fun _ _ h0 => rootErase_same (sub rfl hw) h0) hk)

/-! ### Buffer -/

theorem putData_same {x0 x1} {S2 : State} (hw : Sub 0x60000 w) (hk : Same w r S2) : Same w r (putData x0 x1 S2) :=
  setDamage_same (sub rfl hw) (set_60000 (sub rfl hw) hk)
theorem takeSpare_same {x0 x1 x2 x3} {s : State} (hw : Sub 0x40010 w) (hk : Same w r s) : Same w r (takeSpare x0 x1 x2 x3 s) := by
  induction x3 generalizing x2 s with
  | nil => cases x2 <;> exact same_if hk (raiseEv_same (sub rfl hw) (set_40000 (sub rfl hw) hk))
  | cons i l ih =>
    cases x2 with
    | zero => exact raiseEv_same (sub rfl hw) (setDamage_same (sub rfl hw) (set_40000 (sub rfl hw) hk))
    | succ n => exact ih (set_40000 (sub rfl hw) hk)
theorem remapStripe_same {x0 x1 x2} {S3 : State} (hw : Sub 0x40010 w) (hk : Same w r S3) : Same w r (remapStripe x0 x1 x2 S3) := by
  unfold remapStripe
  try extract_lets -merge -underBinder +onlyGivenNames z0
  try clear_value z0
  extract_lets -merge -underBinder +onlyGivenNames z1
  have h2 : Same w r z1 := by
    unfold z1
    split
    · exact set_40000 (sub rfl hw) hk
    · exact hk
  try clear_value z1
  exact takeSpare_same (sub rfl hw) h2
theorem noteDecode_same {x0 x1} {S2 : State} (hw : Sub 0x40010 w) (hk : Same w r S2) : Same w r (noteDecode x0 x1 S2) := by
  unfold noteDecode
  split
  · exact hk
  · exact same_if (raiseEv_same (sub rfl hw) hk) (same_if hk (set_40000 (sub rfl hw) hk))
theorem writeBackLines_same {x0 x1 x2 x3} {S4 : State} (hw : Sub 0x60010 w) (hk : Same w r S4) : Same w r (writeBackLines x0 x1 x2 x3 S4) := by
  unfold writeBackLines
  split
  · exact setDamage_same (sub rfl hw) hk
  · try extract_lets -merge -underBinder +onlyGivenNames z0
    try clear_value z0
    try extract_lets -merge -underBinder +onlyGivenNames z1
    try clear_value z1
    extract_lets -merge -underBinder +onlyGivenNames z2
    have h3 : Same w r z2 := setDamage_same (sub rfl hw) (same_if hk (putData_same (sub rfl hw) hk))
    try clear_value z2
    exact same_if h3 (remapStripe_same (sub rfl hw) h3)
theorem strikeLines_same {x0} {S1 : State} (hw : Sub 0xb7ebdf6 w) (hk : Same w r S1) : Same w r (strikeLines x0 S1) :=
  same_foldl (fun _ _ h5 => strike_same (sub rfl hw) h5) (same_foldl (fun _ _ h4 => set_40000 (sub rfl hw) h4) hk)
theorem noteUnfilled_same {x0 x1} {S2 : State} (hw : Sub 0x40010 w) (hk : Same w r S2) : Same w r (noteUnfilled x0 x1 S2) := by
  unfold noteUnfilled
  extract_lets -merge -underBinder +onlyGivenNames _ z0
  have h1 : Same w r z0 := set_40000 (sub rfl hw) hk
  try clear_value z0
  exact same_if (raiseEv_same (sub rfl hw) h1) h1
theorem bufAnswer_same {x0} {S1 : State} (hw : Sub 0x40000 w) (hk : Same w r S1) : Same w r (bufAnswer x0 S1) :=
  set_40000 (sub rfl hw) hk
theorem visitStripe_same {x0 x1 x2} {S3 : State} (hw : Sub 0xb7ebdf6 w) (hk : Same w r S3) : SndSame w r (visitStripe x0 x1 x2 S3) := by
  unfold visitStripe
  try extract_lets -merge -underBinder +onlyGivenNames z0
  try clear_value z0
  try extract_lets -merge -underBinder +onlyGivenNames z1
  try clear_value z1
  extract_lets -merge -underBinder +onlyGivenNames z2
  have h3 : Same w r z2 := noteDecode_same (sub rfl hw) hk
  try clear_value z2
  exact snd_mk (strikeLines_same (sub rfl hw) (writeBackLines_same (sub rfl hw) (same_if (noteUncorr_same (sub rfl hw) h3) h3)))
theorem bufRead_same {x0 x1 x2} {S3 : State} (hw : Sub 0xb7ebdf6 w) (hk : Same w r S3) : Same w r (bufRead x0 x1 x2 S3) :=
  same_if (bufAnswer_same (sub rfl hw) hk) (same_if (bufAnswer_same (sub rfl hw) (noteUnfilled_same (sub rfl hw) hk)) (bufAnswer_same (sub rfl hw) (snd_snd (visitStripe_same (sub rfl hw) hk))))
theorem bufWrite_same {x0 x1 x2 x3 x4} {S5 : State} (hw : Sub 0xb7ebdf6 w) (hk : Same w r S5) : Same w r (bufWrite x0 x1 x2 x3 x4 S5) := by
  unfold bufWrite
  try extract_lets -merge -underBinder +onlyGivenNames z0
  try clear_value z0
  refine same_if (bufAnswer_same (sub rfl hw) hk) ?_
  refine same_if (bufAnswer_same (sub rfl hw) (noteUnfilled_same (sub rfl hw) hk)) ?_
  refine same_if (bufAnswer_same (sub rfl hw) (putData_same (sub rfl hw) hk)) ?_
  try extract_lets -merge -underBinder +onlyGivenNames z1
  try clear_value z1
  try extract_lets -merge -underBinder +onlyGivenNames z2
  try clear_value z2
  extract_lets -merge -underBinder +onlyGivenNames z3
  have h4 : Same w r z3 := writeBackLines_same (sub rfl hw) (noteDecode_same (sub rfl hw) hk)
  try clear_value z3
  exact bufAnswer_same (sub rfl hw) (strikeLines_same (sub rfl hw) (putData_same (sub rfl hw) (same_if (noteUncorr_same (sub rfl hw) h4) h4)))
theorem engineRead_same {x0 x1} {S2 : State} (hw : Sub 0xb7ebdf6 w) (hk : Same w r S2) : SndSame w r (engineRead x0 x1 S2) :=
  snd_mk (same_foldl (fun _ _ h0 => snd_snd (visitStripe_same (sub rfl hw) h0)) hk)
theorem readBuffer_same {x0 x1 x2} {s : State} (hw : Sub 0xb7ebdf6 w) (hk : Same w r s) : SndSame w r (readBuffer x0 x1 x2 s) := by
  induction x0 generalizing x1 x2 s with
  | zero => exact hk
  | succ n ih =>
    unfold readBuffer
    refine snd_if (hk) (?_)
    dsimp only
    split
    · exact ih (bufRead_same (sub rfl hw) hk)
    · exact bufRead_same (sub rfl hw) hk
theorem writeBuffer_same {x0 x1 x2} {s : State} (hw : Sub 0xb7ebdf6 w) (hk : Same w r s) : SndSame w r (writeBuffer x0 x1 x2 s) := by
  induction x0 generalizing x1 x2 s with
  | zero => exact hk
  | succ n ih => exact snd_if (snd_mk hk) (snd_mk (snd_snd (ih (bufWrite_same (sub rfl hw) hk))))
theorem execBufferRead_same {x0 x1 x2} {S3 : State} (hw : Sub 0xb7ebdf6 w) (hk : Same w r S3) : OutSame w r (execBufferRead x0 x1 x2 S3) :=
  next_same (sub rfl hw) (bufRead_same (sub rfl hw) hk)
theorem execBufferWrite_same {x0 x1 x2 x3} {S4 : State} (hw : Sub 0xb7ebdf6 w) (hk : Same w r S4) : OutSame w r (execBufferWrite x0 x1 x2 x3 S4) :=
  next_same (sub rfl hw) (bufWrite_same (sub rfl hw) hk)
theorem rakeAt_same {x0 x1 x2} {S3 : State} (hw : Sub 0xb7ebdf6 w) (hk : Same w r S3) : Same w r (rakeAt x0 x1 x2 S3) := by
  unfold rakeAt
  extract_lets -merge -underBinder +onlyGivenNames z0
  have h1 : SndSame w r z0 := visitStripe_same (sub rfl hw) hk
  try clear_value z0
  exact same_if (snd_snd h1) (set_40000 (sub rfl hw) (snd_snd h1))
theorem rakeVisit_same {x0 x1} {S2 : State} (hw : Sub 0xb7ebdf6 w) (hk : Same w r S2) : Same w r (rakeVisit x0 x1 S2) := by
  refine same_if hk ?_
  split
  · exact rakeAt_same (sub rfl hw) (set_40000 (sub rfl hw) hk)
  · split
    · exact hk
    · extract_lets -merge -underBinder +onlyGivenNames z0
      have h1 : Same w r z0 := rakeAt_same (sub rfl hw) hk
      try clear_value z0
      split <;> exact set_40000 (sub rfl hw) h1
theorem execRakeVisit_same {x0 x1} {S2 : State} (hw : Sub 0xb7ebdf6 w) (hk : Same w r S2) : OutSame w r (execRakeVisit x0 x1 S2) :=
  next_same (sub rfl hw) (rakeVisit_same (sub rfl hw) hk)
theorem eventPoll_same {x0 x1} {S2 : State} (hw : Sub 0x40000 w) (hk : Same w r S2) : Same w r (eventPoll x0 x1 S2) :=
  same_if hk (set_40000 (sub rfl hw) hk)
theorem execMemdevEventPoll_same {x0 x1} {S2 : State} (hw : Sub 0x40000 w) (hk : Same w r S2) : OutSame w r (execMemdevEventPoll x0 x1 S2) :=
  next_same (sub rfl hw) (eventPoll_same (sub rfl hw) hk)
theorem fillChunk_same {S0 : State} (hw : Sub 0x22463d90 w) (hk : Same w r S0) : Same w r (fillChunk S0) :=
  same_if hk (same_if (settleGrants_same (sub rfl hw) (fillPans_same (sub rfl hw) (set_40000 (sub rfl hw) hk))) (set_40000 (sub rfl hw) hk))
theorem execFillChunkDone_same {S0 : State} (hw : Sub 0x22463d90 w) (hk : Same w r S0) : OutSame w r (execFillChunkDone S0) :=
  next_same (sub rfl hw) (fillChunk_same (sub rfl hw) hk)
theorem fillFromZero_same {S0 : State} (hw : Sub 0x10060010 w) (hk : Same w r S0) : Same w r (fillFromZero S0) :=
  raiseEv_same (sub rfl hw) (rebuildTable_same (sub rfl hw) (set_60000 (sub rfl hw) (drawn_same (sub rfl hw) hk)))
theorem bringupSettle_same {S0 : State} (hw : Sub 0x32463d90 w) (hk : Same w r S0) : Same w r (bringupSettle S0) :=
  same_if hk (same_if (settleGrants_same (sub rfl hw) (fillPans_same (sub rfl hw) (set_40000 (sub rfl hw) hk))) (fillFromZero_same (sub rfl hw) hk))
theorem fillRestart_same {S0 : State} (hw : Sub 0x10060010 w) (hk : Same w r S0) : Same w r (fillRestart S0) :=
  same_if (fillFromZero_same (sub rfl hw) hk) hk
theorem execFillRestart_same {S0 : State} (hw : Sub 0x10060010 w) (hk : Same w r S0) : OutSame w r (execFillRestart S0) :=
  next_same (sub rfl hw) (fillRestart_same (sub rfl hw) hk)
theorem perstRelease_same {S0 : State} (hw : Sub 0x40000 w) (hk : Same w r S0) : Same w r (perstRelease S0) :=
  same_if hk (set_40000 (sub rfl hw) hk)
theorem execCxlPerstRelease_same {S0 : State} (hw : Sub 0x40000 w) (hk : Same w r S0) : OutSame w r (execCxlPerstRelease S0) :=
  next_same (sub rfl hw) (perstRelease_same (sub rfl hw) hk)
theorem absentDev_same {x0} {S1 : State} (hw : Sub 0x3b7e3df6 w) (hk : Same w r S1) : Same w r (absentDev x0 S1) :=
  bringupSettle_same (sub rfl hw) (loseDevice_same (sub rfl hw) hk)
theorem cxlLinkUp_same {x0 x1 x2 x3 x4} {S5 : State} (hw : Sub 0x3b7e3df6 w) (hk : Same w r S5) : Same w r (cxlLinkUp x0 x1 x2 x3 x4 S5) := by
  unfold cxlLinkUp
  try extract_lets -merge -underBinder +onlyGivenNames z0
  try clear_value z0
  refine same_if hk ?_
  refine same_if (absentDev_same (sub rfl hw) hk) ?_
  try extract_lets -merge -underBinder +onlyGivenNames z1
  try clear_value z1
  extract_lets -merge -underBinder +onlyGivenNames _ z2
  have h3 : Same w r z2 := set_40000 (sub rfl hw) hk
  try clear_value z2
  exact same_if (raiseEv_same (sub rfl hw) h3) h3
theorem execCxlLinkUp_same {x0 x1 x2 x3 x4} {S5 : State} (hw : Sub 0x3b7e3df6 w) (hk : Same w r S5) : OutSame w r (execCxlLinkUp x0 x1 x2 x3 x4 S5) :=
  next_same (sub rfl hw) (cxlLinkUp_same (sub rfl hw) hk)
theorem memoryActive_same {x0 x1 x2 x3} {S4 : State} (hw : Sub 0x3b7e3df6 w) (hk : Same w r S4) : Same w r (memoryActive x0 x1 x2 x3 S4) :=
  same_if hk (same_if (absentDev_same (sub rfl hw) hk) (bringupSettle_same (sub rfl hw) (set_40000 (sub rfl hw) hk)))
theorem execMemoryActive_same {x0 x1 x2 x3} {S4 : State} (hw : Sub 0x3b7e3df6 w) (hk : Same w r S4) : OutSame w r (execMemoryActive x0 x1 x2 x3 S4) :=
  next_same (sub rfl hw) (memoryActive_same (sub rfl hw) hk)
theorem bringupTimeout_same {x0} {S1 : State} (hw : Sub 0x3b7e3df6 w) (hk : Same w r S1) : Same w r (bringupTimeout x0 S1) :=
  same_if hk (absentDev_same (sub rfl hw) hk)
theorem execBringupTimeout_same {x0} {S1 : State} (hw : Sub 0x3b7e3df6 w) (hk : Same w r S1) : OutSame w r (execBringupTimeout x0 S1) :=
  next_same (sub rfl hw) (bringupTimeout_same (sub rfl hw) hk)
theorem memdevLost_same {x0 x1} {S2 : State} (hw : Sub 0x3b7e3df6 w) (hk : Same w r S2) : Same w r (memdevLost x0 x1 S2) :=
  same_if hk (bringupSettle_same (sub rfl hw) (loseDevice_same (sub rfl hw) (same_if (set_40000 (sub rfl hw) hk) hk)))
theorem execMemdevLost_same {x0 x1} {S2 : State} (hw : Sub 0x3b7e3df6 w) (hk : Same w r S2) : OutSame w r (execMemdevLost x0 x1 S2) :=
  next_same (sub rfl hw) (memdevLost_same (sub rfl hw) hk)
theorem cxlBringup_same {S0 : State} (hw : Sub 0x3b7e3df6 w) (hk : Same w r S0) : Same w r (cxlBringup S0) :=
  same_if hk (same_if (judgePewter_same (sub rfl hw) (set_40000 (sub rfl hw) hk)) (bringupSettle_same (sub rfl hw) (set_40000 (sub rfl hw) hk)))
theorem bufferFillStatus_same {x0} {S1 : State} (hw : Sub 0x80001c0 w) (hk : Same w r S1) : Same w r (bufferFillStatus x0 S1) :=
  same_if (mEnd_same (sub rfl hw) hk) (mOk_same (sub rfl hw) hk)
theorem execBufferFillStatus_same {x0} {S1 : State} (hw : Sub 0x80001c0 w) (hk : Same w r S1) : OutSame w r (execBufferFillStatus x0 S1) :=
  next_same (sub rfl hw) (mgmtCmd_same (sub rfl hw) (fun _ _ h0 => bufferFillStatus_same (sub rfl hw) h0) hk)

/-! ### Loops -/

theorem State_modLoop_same {S0 : State} {x1 x2} (hw : Sub 0x1000000 w) (hk : Same w r S0) : Same w r (State.modLoop S0 x1 x2) :=
  set_1000000 (sub rfl hw) hk
theorem loopBoundary_same {x0} {S1 : State} (hw : Sub 0x1000000 w) (hk : Same w r S1) : Same w r (loopBoundary x0 S1) := by
  unfold loopBoundary
  split
  · exact State_modLoop_same (sub rfl hw) (set_1000000 (sub rfl hw) hk)
  · exact same_if (State_modLoop_same (sub rfl hw) hk) hk
theorem runLoop_same {x0 x1} {S2 : State} (hw : Sub 0x1000000 w) (hk : Same w r S2) : Same w r (runLoop x0 x1 S2) :=
  same_if (State_modLoop_same (sub rfl hw) (loopBoundary_same (sub rfl hw) hk)) hk
theorem coefWrite_same {x0 x1 x2 x3 x4} {S5 : State} (hw : Sub 0x1000000 w) (hk : Same w r S5) : Same w r (coefWrite x0 x1 x2 x3 x4 S5) := by
  unfold coefWrite
  try extract_lets -merge -underBinder +onlyGivenNames z0
  try clear_value z0
  try extract_lets -merge -underBinder +onlyGivenNames z1
  try clear_value z1
  extract_lets -merge -underBinder +onlyGivenNames z2
  have h3 : ∀ y4, Same w r y4 → Same w r (z2 y4) := by
    intro y4 hy
    exact State_modLoop_same (sub rfl hw) hy
  clear_value z2
  exact same_if (h3 _ hk) (same_if (same_if (set_1000000 (sub rfl hw) hk) (h3 _ hk)) (same_if (set_1000000 (sub rfl hw) hk) (set_1000000 (sub rfl hw) hk)))
theorem execCoefWrite_same {x0 x1 x2 x3 x4 x5} {S6 : State} (hw : Sub 0x1000000 w) (hk : Same w r S6) : OutSame w r (execCoefWrite x0 x1 x2 x3 x4 x5 S6) :=
  next_same (sub rfl hw) (same_if (coefWrite_same (sub rfl hw) hk) hk)
theorem bankSwap_same {x0} {S1 : State} (hw : Sub 0x1000000 w) (hk : Same w r S1) : Same w r (bankSwap x0 S1) :=
  same_if (State_modLoop_same (sub rfl hw) hk) (State_modLoop_same (sub rfl hw) hk)
theorem execCoefBankSwap_same {x0 x1} {S2 : State} (hw : Sub 0x1000000 w) (hk : Same w r S2) : OutSame w r (execCoefBankSwap x0 x1 S2) :=
  next_same (sub rfl hw) (same_if (bankSwap_same (sub rfl hw) hk) hk)
theorem flushLoop_same {x0} {S1 : State} (hw : Sub 0x1000000 w) (hk : Same w r S1) : Same w r (flushLoop x0 S1) := by
  unfold flushLoop
  try extract_lets -merge -underBinder +onlyGivenNames z0
  try clear_value z0
  extract_lets -merge -underBinder +onlyGivenNames z1
  have h2 : Same w r z1 := same_foldl (fun _ _ h6 => State_modLoop_same (sub rfl hw) h6) hk
  try clear_value z1
  extract_lets -merge -underBinder +onlyGivenNames _ z7
  have h8 : Same w r z7 := set_1000000 (sub rfl hw) h2
  try clear_value z7
  exact same_if (State_modLoop_same (sub rfl hw) h8) h8
theorem startLoop_same {x0} {S1 : State} (hw : Sub 0x1000000 w) (hk : Same w r S1) : Same w r (startLoop x0 S1) := by
  unfold startLoop
  extract_lets -merge -underBinder +onlyGivenNames z0
  have h1 : Same w r z0 := State_modLoop_same (sub rfl hw) hk
  try clear_value z0
  exact same_if (set_1000000 (sub rfl hw) h1) h1
theorem startSearch_same {S0 : State} (hw : Sub 0x800010 w) (hk : Same w r S0) : Same w r (startSearch S0) :=
  raiseEv_same (sub rfl hw) (set_800000 (sub rfl hw) hk)
theorem wakeLoops_same {S0 : State} (hw : Sub 0x1800010 w) (hk : Same w r S0) : Same w r (wakeLoops S0) :=
  startSearch_same (sub rfl hw) (set_1800000 (sub rfl hw) hk)
theorem setLoops_same {x0} {S1 : State} (hw : Sub 0x1800010 w) (hk : Same w r S1) : Same w r (setLoops x0 S1) := by
  unfold setLoops
  extract_lets -merge -underBinder +onlyGivenNames z0
  have h1 : Same w r z0 := same_if (wakeLoops_same (sub rfl hw) hk) hk
  try clear_value z0
  extract_lets -merge -underBinder +onlyGivenNames z10
  have h11 : Same w r z10 := same_foldl (fun _ _ h15 => same_if (startLoop_same (sub rfl hw) h15) (same_if (State_modLoop_same (sub rfl hw) (flushLoop_same (sub rfl hw) h15)) h15)) h1
  try clear_value z10
  extract_lets -merge -underBinder +onlyGivenNames _ z16
  have h17 : Same w r z16 := set_1000000 (sub rfl hw) h11
  try clear_value z16
  exact same_if (set_1000000 (sub rfl hw) h17) h17
theorem execLoopEnable_same {x0 x1} {S2 : State} (hw : Sub 0x1800010 w) (hk : Same w r S2) : OutSame w r (execLoopEnable x0 x1 S2) :=
  next_same (sub rfl hw) (same_if (setLoops_same (sub rfl hw) hk) hk)
theorem startLoops_same {S0 : State} (hw : Sub 0x1800010 w) (hk : Same w r S0) : Same w r (startLoops S0) :=
  same_if hk (setLoops_same (sub rfl hw) hk)
theorem sendFrame_same {S0 : State} (hw : Sub 0x1000000 w) (hk : Same w r S0) : Same w r (sendFrame S0) :=
  set_1000000 (sub rfl hw) hk
theorem brakeReels_same {x0} {S1 : State} (hw : Sub 0x1800010 w) (hk : Same w r S1) : Same w r (brakeReels x0 S1) := by
  unfold brakeReels
  extract_lets -merge -underBinder +onlyGivenNames _ z0
  have h1 : Same w r z0 := setLoops_same (sub rfl hw) (sendFrame_same (sub rfl hw) (set_1000000 (sub rfl hw) hk))
  try clear_value z0
  exact set_1000000 (sub rfl hw) h1

/-! ### Signal -/

theorem State_modRch_same {S0 : State} {x1 x2} (hw : Sub 0x100000 w) (hk : Same w r S0) : Same w r (State.modRch S0 x1 x2) :=
  set_100000 (sub rfl hw) hk
theorem enterAcquisition_same {x0 x1} {S2 : State} (hw : Sub 0x300000 w) (hk : Same w r S2) : Same w r (enterAcquisition x0 x1 S2) :=
  set_300000 (sub rfl hw) hk
theorem reacquire_same {S0 : State} (hw : Sub 0x300000 w) (hk : Same w r S0) : Same w r (reacquire S0) :=
  enterAcquisition_same (sub rfl hw) hk
theorem acquireAll_same {S0 : State} (hw : Sub 0x300000 w) (hk : Same w r S0) : Same w r (acquireAll S0) :=
  enterAcquisition_same (sub rfl hw) hk
theorem dropJobs_same {S0 : State} (hw : Sub 0x300000 w) (hk : Same w r S0) : Same w r (dropJobs S0) :=
  set_300000 (sub rfl hw) hk

/-! ### Reads -/

theorem State_modRBlk_same {S0 : State} {x1 x2} (hw : Sub 0x400000 w) (hk : Same w r S0) : Same w r (State.modRBlk S0 x1 x2) :=
  set_400000 (sub rfl hw) hk
theorem dispatchOpen_same {S0 : State} (hw : Sub 0x401000 w) (hk : Same w r S0) : Same w r (dispatchOpen S0) := by
  unfold dispatchOpen
  split
  · exact hk
  · split
    · exact hk
    · exact set_1000 (sub rfl hw) (State_modRBlk_same (sub rfl hw) hk)
theorem freeSlice_same {x0} {S1 : State} (hw : Sub 0x1000 w) (hk : Same w r S1) : Same w r (freeSlice x0 S1) :=
  set_1000 (sub rfl hw) hk
theorem freeEngine_same {x0} {S1 : State} (hw : Sub 0x1000 w) (hk : Same w r S1) : Same w r (freeEngine x0 S1) :=
  set_1000 (sub rfl hw) hk
theorem drainRelease_same {x0} {S1 : State} (hw : Sub 0x1000 w) (hk : Same w r S1) : Same w r (drainRelease x0 S1) := by
  unfold drainRelease
  split
  · exact freeEngine_same (sub rfl hw) hk
  · exact hk
theorem dispatchDecode_same {S0 : State} (hw : Sub 0x401000 w) (hk : Same w r S0) : Same w r (dispatchDecode S0) := by
  unfold dispatchDecode
  split
  · exact hk
  · split
    · exact hk
    · split
      · exact hk
      · exact set_401000 (sub rfl hw) (State_modRBlk_same (sub rfl hw) (drainRelease_same (sub rfl hw) hk))
theorem missSecondRead_same {S0 : State} (hw : Sub 0x401000 w) (hk : Same w r S0) : Same w r (missSecondRead S0) :=
  set_400000 (sub rfl hw) (same_foldl (fun _ _ h4 => drainRelease_same (sub rfl hw) h4) hk)
theorem dispatchRead_same {S0 : State} (hw : Sub 0x401000 w) (hk : Same w r S0) : Same w r (dispatchRead S0) := by
  unfold dispatchRead
  extract_lets -merge -underBinder +onlyGivenNames z0
  have h1 : Same w r z0 := same_foldl (fun _ _ h9 => dispatchOpen_same (sub rfl hw) h9) (missSecondRead_same (sub rfl hw) hk)
  try clear_value z0
  extract_lets -merge -underBinder +onlyGivenNames z10
  have h11 : Same w r z10 := same_if h1 (same_foldl (fun _ _ h14 => dispatchDecode_same (sub rfl hw) h14) h1)
  try clear_value z10
  exact same_foldl (fun _ _ h15 => dispatchOpen_same (sub rfl hw) h15) h11
theorem queueSlice_same {x0 x1} {S2 : State} (hw : Sub 0x400000 w) (hk : Same w r S2) : Same w r (queueSlice x0 x1 S2) :=
  set_400000 (sub rfl hw) (State_modRBlk_same (sub rfl hw) hk)
theorem stopAt_same {x0 x1 x2} {S3 : State} (hw : Sub 0x401000 w) (hk : Same w r S3) : Same w r (stopAt x0 x1 x2 S3) :=
  set_400000 (sub rfl hw) (State_modRBlk_same (sub rfl hw) (dropRBlks_same (sub rfl hw) hk))
theorem failDecode_same {x0 x1 x2} {S3 : State} (hw : Sub 0xb7ebdf6 w) (hk : Same w r S3) : Same w r (failDecode x0 x1 x2 S3) := by
  unfold failDecode
  split
  · exact hk
  · try extract_lets -merge -underBinder +onlyGivenNames z0
    try clear_value z0
    extract_lets -merge -underBinder +onlyGivenNames z1
    have h2 : Same w r z1 := raiseResend_same (sub rfl hw) hk
    try clear_value z1
    extract_lets -merge -underBinder +onlyGivenNames _ z25
    have h26 : Same w r z25 := set_1000 (sub rfl hw) h2
    try clear_value z25
    try extract_lets -merge -underBinder +onlyGivenNames z37
    try clear_value z37
    extract_lets -merge -underBinder +onlyGivenNames z38
    have h39 : ∀ y40, Same w r y40 → Same w r (z38 y40) := by
      intro y40 hy
      exact same_if (freeSlice_same (sub rfl hw) hy) hy
    clear_value z38
    extract_lets -merge -underBinder +onlyGivenNames z41
    have h42 : Same w r z41 := by
      unfold z41
      split
      · extract_lets -merge -underBinder +onlyGivenNames z45
        have h46 : Same w r z45 := State_modRBlk_same (sub rfl hw) h26
        try clear_value z45
        exact same_if (set_1000 (sub rfl hw) h46) (queueSlice_same (sub rfl hw) h46)
      · exact queueSlice_same (sub rfl hw) (h39 _ (State_modRBlk_same (sub rfl hw) h26))
      · exact same_if (h39 _ (stopAt_same (sub rfl hw) h26)) (h39 _ (State_modRBlk_same (sub rfl hw) h26))
      · exact h39 _ (stopAt_same (sub rfl hw) h26)
    try clear_value z41
    exact dispatchRead_same (sub rfl hw) (strike_same (sub rfl hw) h42)
theorem modRd_same {x0 x1} {S2 : State} (hw : Sub 0x400 w) (hk : Same w r S2) : Same w r (modRd x0 x1 S2) :=
  State_modStream_same (sub rfl hw) hk
theorem pushItem_same {x0 x1} {S2 : State} (hw : Sub 0x400 w) (hk : Same w r S2) : Same w r (pushItem x0 x1 S2) :=
  modRd_same (sub rfl hw) hk
theorem removeRBlk_same {x0} {S1 : State} (hw : Sub 0x400000 w) (hk : Same w r S1) : Same w r (removeRBlk x0 S1) :=
  set_400000 (sub rfl hw) hk
theorem decodeAgain_same {x0} {S1 : State} (hw : Sub 0x400000 w) (hk : Same w r S1) : Same w r (decodeAgain x0 S1) :=
  same_foldl (fun _ _ h0 => queueSlice_same (sub rfl hw) (State_modRBlk_same (sub rfl hw) h0)) hk
theorem recordBad_same {x0 x1 x2} {S3 : State} (hw : Sub 0xb7ebdf6 w) (hk : Same w r S3) : Same w r (recordBad x0 x1 x2 S3) :=
  same_if (dropRBlks_same (sub rfl hw) (pushItem_same (sub rfl hw) hk)) (dispatchRead_same (sub rfl hw) (decodeAgain_same (sub rfl hw) (modRd_same (sub rfl hw) (strike_same (sub rfl hw) (raiseResend_same (sub rfl hw) hk)))))
theorem settleParsed_same {x0 x1 x2} {S3 : State} (hw : Sub 0x401000 w) (hk : Same w r S3) : Same w r (settleParsed x0 x1 x2 S3) := by
  unfold settleParsed
  try extract_lets -merge -underBinder +onlyGivenNames z0
  try clear_value z0
  try extract_lets -merge -underBinder +onlyGivenNames z1
  try clear_value z1
  extract_lets -merge -underBinder +onlyGivenNames z2
  have h3 : Same w r z2 := dropRBlks_same (sub rfl hw) hk
  try clear_value z2
  exact same_if (State_modRBlk_same (sub rfl hw) h3) (removeRBlk_same (sub rfl hw) h3)
theorem takeBlock_same {x0 x1} {S2 : State} (hw : Sub 0xb7ebdf6 w) (hk : Same w r S2) : Same w r (takeBlock x0 x1 S2) := by
  unfold takeBlock
  try extract_lets -merge -underBinder +onlyGivenNames z0
  try clear_value z0
  try extract_lets -merge -underBinder +onlyGivenNames z1
  try clear_value z1
  try extract_lets -merge -underBinder +onlyGivenNames z2
  try clear_value z2
  refine same_if (failDecode_same (sub rfl hw) hk) ?_
  try extract_lets -merge -underBinder +onlyGivenNames z3
  try clear_value z3
  try extract_lets -merge -underBinder +onlyGivenNames z4
  try clear_value z4
  extract_lets -merge -underBinder +onlyGivenNames _ z5
  have h6 : Same w r z5 := passAfter_same (sub rfl hw) (set_1000 (sub rfl hw) hk)
  try clear_value z5
  try extract_lets -merge -underBinder +onlyGivenNames z12
  try clear_value z12
  extract_lets -merge -underBinder +onlyGivenNames z13
  have h14 : Same w r z13 := same_foldl (fun _ _ h16 => pushItem_same (sub rfl hw) h16) h6
  try clear_value z13
  split
  · exact recordBad_same (sub rfl hw) h14
  · exact modRd_same (sub rfl hw) (settleParsed_same (sub rfl hw) h14)
theorem drainHead_same {x0} {S1 : State} (hw : Sub 0xb7ebdf6 w) (hk : Same w r S1) : Same w r (drainHead x0 S1) := by
  unfold drainHead
  split
  · refine same_if hk ?_
    split
    · exact dropRBlks_same (sub rfl hw) (pushItem_same (sub rfl hw) hk)
    · exact same_if (removeRBlk_same (sub rfl hw) (pushItem_same (sub rfl hw) hk)) (same_if (removeRBlk_same (sub rfl hw) (modRd_same (sub rfl hw) hk)) (takeBlock_same (sub rfl hw) hk))
  · exact hk
theorem drainRead_same {x0} {S1 : State} (hw : Sub 0xb7ebdf6 w) (hk : Same w r S1) : Same w r (drainRead x0 S1) :=
  same_foldl (fun _ _ h0 => drainHead_same (sub rfl hw) h0) hk
theorem scatterTo_same {x0 x1 x2} {s : State} (hw : Sub 0x8000000 w) (hk : Same w r s) : SndSame w r (scatterTo x0 x1 x2 s) := by
  induction x1 generalizing x2 s with
  | nil => exact hk
  | cons p ps ih =>
    unfold scatterTo
    refine snd_if (hk) (snd_if (?_) (ih (hostWrite_same (sub rfl hw) hk)))
    exact hostWrite_same (sub rfl hw) hk
theorem recordSent_same {x0 x1 x2 x3} {S4 : State} (hw : Sub 0x8000180 w) (hk : Same w r S4) : Same w r (recordSent x0 x1 x2 x3 S4) := by
  unfold recordSent
  split
  · exact hk
  · exact State_modInst_same (sub rfl hw) (State_modCmd_same (sub rfl hw) (hostWrite_same (sub rfl hw) hk))
theorem deliver_same {x0 x1 x2} {S3 : State} (hw : Sub 0x8000180 w) (hk : Same w r S3) : ExcPSame w r (deliver x0 x1 x2 S3) := by
  unfold deliver
  split
  · exact excP_ok (snd_mk hk)
  · try extract_lets -merge -underBinder +onlyGivenNames z0
    try clear_value z0
    try extract_lets -merge -underBinder +onlyGivenNames z1
    try clear_value z1
    try extract_lets -merge -underBinder +onlyGivenNames z2
    try clear_value z2
    split
    · exact excP_error
    · exact excP_error
    · extract_lets -merge -underBinder +onlyGivenNames z3
      have h4 : Same w r z3 := State_modCmd_same (sub rfl hw) hk
      try clear_value z3
      split
      · exact excP_ok (snd_mk (recordSent_same (sub rfl hw) h4))
      · try extract_lets -merge -underBinder +onlyGivenNames z8
        try clear_value z8
        extract_lets -merge -underBinder +onlyGivenNames z9
        have h10 : Same w r z9 := hostWrite_same (sub rfl hw) h4
        try clear_value z9
        exact excP_if (excP_ok (snd_mk (recordSent_same (sub rfl hw) h10))) (excP_ok (snd_mk (State_modCmd_same (sub rfl hw) h10)))
theorem endRead_same {x0 x1 x2 x3} {S4 : State} (hw : Sub 0x80005c0 w) (hk : Same w r S4) : Same w r (endRead x0 x1 x2 x3 S4) := by
  unfold endRead
  split
  · exact hk
  · try extract_lets -merge -underBinder +onlyGivenNames z0
    try clear_value z0
    extract_lets -merge -underBinder +onlyGivenNames z1
    have h2 : Same w r z1 := by
      unfold z1
      split
      · exact modRd_same (sub rfl hw) hk
      · exact hk
    try clear_value z1
    exact complete_same (sub rfl hw) h2
theorem failRecord_same {x0 x1 x2 x3} {S4 : State} (hw : Sub 0x84015c0 w) (hk : Same w r S4) : Same w r (failRecord x0 x1 x2 x3 S4) :=
  failRead_same (sub rfl hw) (snd_snd (scatterTo_same (sub rfl hw) hk))
theorem settleRead_same {x0} {S1 : State} {x2} (hw : Sub 0x84015c0 w) (hk : Same w r S1) : Same w r (settleRead x0 S1 x2) := by
  refine same_if hk ?_
  refine same_if ?_ ?_
  · refine endRead_same (sub rfl hw) ?_
    split
    · exact same_if (rewindRead_same (sub rfl hw) hk) hk
    · exact hk
  · split
    · exact hk
    · split
      · exact endRead_same (sub rfl hw) (modRd_same (sub rfl hw) hk)
      · exact endRead_same (sub rfl hw) hk
      · exact same_if (endRead_same (sub rfl hw) (rewindRead_same (sub rfl hw) hk)) (same_if (failRecord_same (sub rfl hw) hk) (failRead_same (sub rfl hw) hk))
      · exact hk
theorem settleReads_same {x0} {S1 : State} (hw : Sub 0x84015c0 w) (hk : Same w r S1) : Same w r (settleReads x0 S1) :=
  same_if (same_foldl (fun _ _ h0 => settleRead_same (sub rfl hw) h0) hk) hk
theorem settleAllReads_same {S0 : State} (hw : Sub 0x84015c0 w) (hk : Same w r S0) : Same w r (settleAllReads S0) :=
  same_foldl (fun _ _ h0 => settleReads_same (sub rfl hw) h0) hk
theorem advanceEntry_same {x0 x1 x2 x3} {S4 : State} (hw : Sub 0x400400 w) (hk : Same w r S4) : Same w r (advanceEntry x0 x1 x2 x3 S4) :=
  same_if (modRd_same (sub rfl hw) hk) (set_400000 (sub rfl hw) (modRd_same (sub rfl hw) hk))
theorem addRBlk_same {x0} {S1 : State} (hw : Sub 0x20400000 w) (hk : Same w r S1) : Same w r (addRBlk x0 S1) :=
  set_20400000 (sub rfl hw) hk
theorem extractPseudo_same {x0} {S1 : State} (hw : Sub 0x20400400 w) (hk : Same w r S1) : Same w r (extractPseudo x0 S1) := by
  refine same_if hk ?_
  split
  · exact addRBlk_same (sub rfl hw) hk
  · exact addRBlk_same (sub rfl hw) hk
  · exact same_if (advanceEntry_same (sub rfl hw) (addRBlk_same (sub rfl hw) hk)) (same_if (addRBlk_same (sub rfl hw) hk) hk)
  · exact hk
theorem pumpReads_same {S0 : State} (hw : Sub 0x2b7ebdf6 w) (hk : Same w r S0) : Same w r (pumpReads S0) := by
  unfold pumpReads
  extract_lets -merge -underBinder +onlyGivenNames z0
  have h1 : Same w r z0 := by
    unfold z0
    refine same_foldl (fun _ _ h4 => ?_) hk
    refine same_foldl (fun _ _ h5 => ?_) h4
    split
    · exact drainRead_same (sub rfl hw) (same_if (extractPseudo_same (sub rfl hw) h5) h5)
    · exact h5
  try clear_value z0
  exact settleReadBufs_same (sub rfl hw) (settleAllReads_same (sub rfl hw) h1)
theorem extracting_same {S0 : State} {x1} (hw : Sub 0x20400400 w) (hk : Same w r S0) : OptPSame w r (extracting S0 x1) := by
  unfold extracting
  split
  · exact optP_some (snd_mk hk)
  · refine optP_if optP_none ?_
    split
    · exact optP_if optP_none (optP_some (snd_mk (modRd_same (sub rfl hw) (advanceEntry_same (sub rfl hw) (addRBlk_same (sub rfl hw) hk)))))
    · exact optP_none
theorem failExtract_same {x0 x1} {S2 : State} (hw : Sub 0x2b7ebdf6 w) (hk : Same w r S2) : Same w r (failExtract x0 x1 S2) := by
  unfold failExtract
  try extract_lets -merge -underBinder +onlyGivenNames z0
  try clear_value z0
  extract_lets -merge -underBinder +onlyGivenNames z1
  have h2 : Same w r z1 := strike_same (sub rfl hw) (raiseResend_same (sub rfl hw) hk)
  try clear_value z1
  split
  · exact State_modRBlk_same (sub rfl hw) h2
  · exact State_modRBlk_same (sub rfl hw) h2
  · exact State_modRBlk_same (sub rfl hw) h2
  · exact pumpReads_same (sub rfl hw) (stopAt_same (sub rfl hw) h2)
theorem State_modRdAt_same {S0 : State} {x1 x2 x3} (hw : Sub 0x400000 w) (hk : Same w r S0) : Same w r (State.modRdAt S0 x1 x2 x3) :=
  set_400000 (sub rfl hw) hk
theorem erasePoison_same {x0} {S1 : State} (hw : Sub 0xb7ebdf6 w) (hk : Same w r S1) : Same w r (erasePoison x0 S1) := by
  unfold erasePoison
  split
  · exact hk
  · try extract_lets -merge -underBinder +onlyGivenNames z0
    try clear_value z0
    try extract_lets -merge -underBinder +onlyGivenNames z1
    try clear_value z1
    refine same_if (snd_snd (engineRead_same (sub rfl hw) hk)) ?_
    extract_lets -merge -underBinder +onlyGivenNames z2
    have h3 : Same w r z2 := snd_snd (engineRead_same (sub rfl hw) hk)
    try clear_value z2
    try extract_lets -merge -underBinder +onlyGivenNames z10
    try clear_value z10
    try extract_lets -merge -underBinder +onlyGivenNames z11
    try clear_value z11
    extract_lets -merge -underBinder +onlyGivenNames z12
    have h13 : Same w r z12 := same_if (same_foldl (fun _ _ h15 => freshStripes_same (sub rfl hw) h15) h3) h3
    try clear_value z12
    exact State_modRdAt_same (sub rfl hw) h13
theorem extractBurst_same {x0 x1 x2} {S3 : State} (hw : Sub 0x2b7ebdf6 w) (hk : Same w r S3) : Same w r (extractBurst x0 x1 x2 S3) := by
  unfold extractBurst
  try extract_lets -merge -underBinder +onlyGivenNames z0
  try clear_value z0
  try extract_lets -merge -underBinder +onlyGivenNames z1
  try clear_value z1
  extract_lets -merge -underBinder +onlyGivenNames z2
  have h3 : Same w r z2 := moverMoved_same (sub rfl hw) hk
  try clear_value z2
  refine same_if ?_ ?_
  · split
    · exact pumpReads_same (sub rfl hw) (erasePoison_same (sub rfl hw) (State_modRBlk_same (sub rfl hw) h3))
    · exact h3
  · refine same_if (State_modRBlk_same (sub rfl hw) h3) ?_
    split
    · exact failExtract_same (sub rfl hw) h3
    · exact pumpReads_same (sub rfl hw) (dispatchRead_same (sub rfl hw) (passAfter_same (sub rfl hw) (State_modRBlk_same (sub rfl hw) h3)))
theorem extractBlock_same {x0 x1 x2 x3} {S4 : State} (hw : Sub 0x2b7ebdf6 w) (hk : Same w r S4) : Same w r (extractBlock x0 x1 x2 x3 S4) := by
  unfold extractBlock
  split
  · exact hk
  · refine same_if hk ?_
    split
    · exact hk
    · have h0 := optP_elim ‹_ = _› (extracting_same (sub rfl hw) hk)
      exact same_if (extractBurst_same (sub rfl hw) (serveOldest_same (sub rfl hw) h0)) hk
theorem failOpen_same {x0 x1 x2} {S3 : State} (hw : Sub 0x2b7ebdf6 w) (hk : Same w r S3) : Same w r (failOpen x0 x1 x2 S3) := by
  unfold failOpen
  extract_lets -merge -underBinder +onlyGivenNames z0
  have h1 : Same w r z0 := same_if (raiseResend_same (sub rfl hw) hk) (raiseEv_same (sub rfl hw) hk)
  try clear_value z0
  extract_lets -merge -underBinder +onlyGivenNames _ z16
  have h17 : Same w r z16 := same_if h1 (set_1000 (sub rfl hw) h1)
  try clear_value z16
  extract_lets -merge -underBinder +onlyGivenNames z24
  have h25 : Same w r z24 := by
    unfold z24
    split
    · exact set_1000 (sub rfl hw) (State_modRBlk_same (sub rfl hw) h17)
    · exact freeEngine_same (sub rfl hw) (State_modRBlk_same (sub rfl hw) h17)
    · exact freeEngine_same (sub rfl hw) (State_modRBlk_same (sub rfl hw) h17)
    · exact freeEngine_same (sub rfl hw) (stopAt_same (sub rfl hw) h17)
  try clear_value z24
  exact pumpReads_same (sub rfl hw) (dispatchRead_same (sub rfl hw) (drainRead_same (sub rfl hw) (strike_same (sub rfl hw) h25)))
theorem tagMismatch_same {x0 x1} {S2 : State} (hw : Sub 0x2b7ebdf6 w) (hk : Same w r S2) : Same w r (tagMismatch x0 x1 S2) := by
  unfold tagMismatch
  extract_lets -merge -underBinder +onlyGivenNames _ z0
  have h1 : Same w r z0 := freeEngine_same (sub rfl hw) (set_1000 (sub rfl hw) hk)
  try clear_value z0
  extract_lets -merge -underBinder +onlyGivenNames z4
  have h5 : Same w r z4 := by
    unfold z4
    split
    · exact State_modRBlk_same (sub rfl hw) h1
    · exact stopAt_same (sub rfl hw) (raiseEv_same (sub rfl hw) h1)
  try clear_value z4
  exact pumpReads_same (sub rfl hw) (dispatchRead_same (sub rfl hw) (drainRead_same (sub rfl hw) h5))
theorem opened_same {x0 x1 x2} {S3 : State} (hw : Sub 0x2b7ebdf6 w) (hk : Same w r S3) : Same w r (opened x0 x1 x2 S3) := by
  unfold opened
  extract_lets -merge -underBinder +onlyGivenNames z0
  have h1 : Same w r z0 := State_modRBlk_same (sub rfl hw) hk
  try clear_value z0
  extract_lets -merge -underBinder +onlyGivenNames z8
  have h9 : Same w r z8 := same_if (freeEngine_same (sub rfl hw) (State_modRBlk_same (sub rfl hw) h1)) (queueSlice_same (sub rfl hw) h1)
  try clear_value z8
  extract_lets -merge -underBinder +onlyGivenNames z12
  have h13 : Same w r z12 := by
    unfold z12
    split
    · exact strike_same (sub rfl hw) h9
    · exact h9
  try clear_value z12
  exact pumpReads_same (sub rfl hw) (dispatchRead_same (sub rfl hw) (passAfter_same (sub rfl hw) h13))
theorem openSealed_same {x0 x1 x2 x3 x4} {S5 : State} (hw : Sub 0x2b7ebdf6 w) (hk : Same w r S5) : Same w r (openSealed x0 x1 x2 x3 x4 S5) := by
  refine same_if (failOpen_same (sub rfl hw) hk) ?_
  try extract_lets -merge -underBinder +onlyGivenNames z0
  try clear_value z0
  extract_lets -merge -underBinder +onlyGivenNames z1
  have h2 : Same w r z1 := cacheKey_same (sub rfl hw) hk
  try clear_value z1
  split
  · exact tagMismatch_same (sub rfl hw) h2
  · exact tagMismatch_same (sub rfl hw) h2
  · exact failOpen_same (sub rfl hw) h2
  · exact opened_same (sub rfl hw) h2
theorem cipherOpen_same {x0 x1} {S2 : State} (hw : Sub 0x2b7ebdf6 w) (hk : Same w r S2) : Same w r (cipherOpen x0 x1 S2) := by
  unfold cipherOpen
  split
  · exact hk
  · split
    · exact hk
    · split
      · split
        · exact opened_same (sub rfl hw) hk
        · exact failOpen_same (sub rfl hw) hk
      · split
        · exact opened_same (sub rfl hw) hk
        · exact failOpen_same (sub rfl hw) hk
      · exact openSealed_same (sub rfl hw) hk
      · exact hk
theorem execCipherOpenDone_same {x0 x1} {S2 : State} (hw : Sub 0x2b7ebdf6 w) (hk : Same w r S2) : OutSame w r (execCipherOpenDone x0 x1 S2) :=
  next_same (sub rfl hw) (cipherOpen_same (sub rfl hw) hk)
theorem decompressDone_same {x0 x1} {S2 : State} (hw : Sub 0x2b7ebdf6 w) (hk : Same w r S2) : Same w r (decompressDone x0 x1 S2) := by
  unfold decompressDone
  split
  · exact hk
  · split
    · exact pumpReads_same (sub rfl hw) (dispatchRead_same (sub rfl hw) (drainRead_same (sub rfl hw) (freeSlice_same (sub rfl hw) (State_modRBlk_same (sub rfl hw) hk))))
    · exact pumpReads_same (sub rfl hw) (drainRead_same (sub rfl hw) (failDecode_same (sub rfl hw) hk))
theorem execSliceDecompressDone_same {x0 x1} {S2 : State} (hw : Sub 0x2b7ebdf6 w) (hk : Same w r S2) : OutSame w r (execSliceDecompressDone x0 x1 S2) :=
  next_same (sub rfl hw) (decompressDone_same (sub rfl hw) hk)
theorem failDeliver_same {x0 x1 x2 x3} {S4 : State} (hw : Sub 0xb7ebdf6 w) (hk : Same w r S4) : Same w r (failDeliver x0 x1 x2 x3 S4) := by
  unfold failDeliver
  try extract_lets -merge -underBinder +onlyGivenNames z0
  try clear_value z0
  extract_lets -merge -underBinder +onlyGivenNames z1
  have h2 : Same w r z1 := strike_same (sub rfl hw) (raiseResend_same (sub rfl hw) hk)
  try clear_value z1
  split
  · exact State_modCmd_same (sub rfl hw) h2
  · exact State_modCmd_same (sub rfl hw) h2
  · exact State_modCmd_same (sub rfl hw) h2
  · exact failRecord_same (sub rfl hw) h2
theorem deliverNext_same {x0 x1 x2 x3} {S4 : State} (hw : Sub 0x2b7ebdf6 w) (hk : Same w r S4) : Same w r (deliverNext x0 x1 x2 x3 S4) := by
  unfold deliverNext
  split
  · exact hk
  · refine same_if hk ?_
    split
    · exact hk
    · split
      · split
        · exact failDeliver_same (sub rfl hw) (serveOldest_same (sub rfl hw) hk)
        · split
          · exact failRecord_same (sub rfl hw) hk
          · have h0 := excP_elim ‹_ = _› (deliver_same (sub rfl hw) (serveOldest_same (sub rfl hw) hk))
            extract_lets -merge -underBinder +onlyGivenNames z1
            have h2 : Same w r z1 := moverMoved_same (sub rfl hw) (passAfter_same (sub rfl hw) h0)
            try clear_value z1
            exact same_if (pumpReads_same (sub rfl hw) (modRd_same (sub rfl hw) h2)) h2
      · exact hk
theorem beginMove_same {x0 x1} {S2 : State} (hw : Sub 0x1802016 w) (hk : Same w r S2) : Same w r (beginMove x0 x1 S2) := by
  unfold beginMove
  extract_lets -merge -underBinder +onlyGivenNames z0
  have h1 : Same w r z0 := startLoops_same (sub rfl hw) (same_if hk (setMode_same (sub rfl hw) hk))
  try clear_value z0
  exact set_1002000 (sub rfl hw) h1
theorem readAnew_same {x0 x1} {S2 : State} (hw : Sub 0x760010 w) (hk : Same w r S2) : Same w r (readAnew x0 x1 S2) :=
  set_400000 (sub rfl hw) (dropJobs_same (sub rfl hw) (dropReadBufs_same (sub rfl hw) hk))
theorem needTape_same {x0} {S1 : State} (hw : Sub 0x1f63016 w) (hk : Same w r S1) : Same w r (needTape x0 S1) :=
  same_if hk (beginMove_same (sub rfl hw) (readAnew_same (sub rfl hw) (dropRBlks_same (sub rfl hw) hk)))
theorem startJob_same {x0 x1 x2} {S3 : State} (hw : Sub 0x180 w) (hk : Same w r S3) : ExcSame w r (startJob x0 x1 x2 S3) := by
  unfold startJob
  try extract_lets -merge -underBinder +onlyGivenNames z0
  try clear_value z0
  split
  · exact exc_error
  · exact exc_ok (State_modCmd_same (sub rfl hw) hk)
theorem ff2Stop_same {x0 x1} {S2 : State} (hw : Sub 0x20400000 w) (hk : Same w r S2) : Same w r (ff2Stop x0 x1 S2) :=
  addRBlk_same (sub rfl hw) hk
theorem ff2Blocks_same {x0 x1 x2 x3 x4 x5 x6 x7} {s : State} (hw : Sub 0x20400000 w) (hk : Same w r s) : Same w r (ff2Blocks x0 x1 x2 x3 x4 x5 x6 x7 s) := by
  induction x5 generalizing x6 x7 s with
  | zero => exact hk
  | succ n ih =>
    unfold ff2Blocks
    exact same_if (ff2Stop_same (sub rfl hw) hk) (same_if (ff2Stop_same (sub rfl hw) (addRBlk_same (sub rfl hw) hk)) (ih (addRBlk_same (sub rfl hw) hk)))
theorem readFf2_same {x0 x1 x2 x3} {S4 : State} (hw : Sub 0x2b7ebdf6 w) (hk : Same w r S4) : Same w r (readFf2 x0 x1 x2 x3 S4) := by
  unfold readFf2
  split
  · exact endSt_same (sub rfl hw) hk
  · try extract_lets -merge -underBinder +onlyGivenNames z0
    try clear_value z0
    refine same_if hk ?_
    refine same_if (endSt_same (sub rfl hw) hk) ?_
    refine same_if (endSt_same (sub rfl hw) hk) ?_
    try extract_lets -merge -underBinder +onlyGivenNames z1
    try clear_value z1
    try extract_lets -merge -underBinder +onlyGivenNames z2
    try clear_value z2
    split
    · exact complete_same (sub rfl hw) hk
    · exact complete_same (sub rfl hw) hk
    · split
      · exact complete_same (sub rfl hw) hk
      · have h3 := exc_elim ‹_ = _› (startJob_same (sub rfl hw) hk)
        exact pumpReads_same (sub rfl hw) (dispatchRead_same (sub rfl hw) (ff2Blocks_same (sub rfl hw) h3))
theorem readRecords_same {x0 x1} {S2 : State} (hw : Sub 0x2bfebdf6 w) (hk : Same w r S2) : Same w r (readRecords x0 x1 S2) := by
  unfold readRecords
  try extract_lets -merge -underBinder +onlyGivenNames z0
  try clear_value z0
  split
  · exact endSt_same (sub rfl hw) hk
  · refine same_if (endSt_same (sub rfl hw) hk) ?_
    refine streamCmd_same (sub rfl hw) (fun _ _ h1 => ?_) hk
    refine same_if (readFf2_same (sub rfl hw) h1) ?_
    refine same_if (endSt_same (sub rfl hw) h1) ?_
    refine same_if h1 ?_
    split
    · exact complete_same (sub rfl hw) h1
    · have h2 := exc_elim ‹_ = _› (startJob_same (sub rfl hw) h1)
      exact pumpReads_same (sub rfl hw) (needTape_same (sub rfl hw) h2)
theorem execReadRecords_same {x0 x1} {S2 : State} (hw : Sub 0x2bfebdf6 w) (hk : Same w r S2) : OutSame w r (execReadRecords x0 x1 S2) :=
  next_same (sub rfl hw) (instCmd_same (sub rfl hw) (fun _ _ h0 => readRecords_same (sub rfl hw) h0) hk)
theorem placeRead_same {x0 x1} {S2 : State} (hw : Sub 0x401580 w) (hk : Same w r S2) : Same w r (placeRead x0 x1 S2) :=
  rewindRead_same (sub rfl hw) (modRd_same (sub rfl hw) hk)
theorem moveThen_same {x0 x1 x2 x3 x4} {S5 : State} (hw : Sub 0x1f63596 w) (hk : Same w r S5) : Same w r (moveThen x0 x1 x2 x3 x4 S5) := by
  refine same_if hk ?_
  extract_lets -merge -underBinder +onlyGivenNames z0
  have h1 : Same w r z0 := placeRead_same (sub rfl hw) hk
  try clear_value z0
  extract_lets -merge -underBinder +onlyGivenNames z4
  have h5 : Same w r z4 := acquireAll_same (sub rfl hw) (beginMove_same (sub rfl hw) (readAnew_same (sub rfl hw) h1))
  try clear_value z4
  exact State_modCmd_same (sub rfl hw) h5
theorem locate_same {x0 x1 x2} {S3 : State} (hw : Sub 0x9f635d6 w) (hk : Same w r S3) : Same w r (locate x0 x1 x2 S3) :=
  same_if (endSt_same (sub rfl hw) hk) (same_if (endSt_same (sub rfl hw) hk) (streamCmd_same (sub rfl hw) (fun _ _ h2 => moveThen_same (sub rfl hw) h2) hk))
theorem execLocate_same {x0 x1 x2} {S3 : State} (hw : Sub 0x9f635d6 w) (hk : Same w r S3) : OutSame w r (execLocate x0 x1 x2 S3) :=
  next_same (sub rfl hw) (instCmd_same (sub rfl hw) (fun _ _ h0 => locate_same (sub rfl hw) h0) hk)
theorem space_same {x0 x1 x2} {S3 : State} (hw : Sub 0x9f635d6 w) (hk : Same w r S3) : Same w r (space x0 x1 x2 S3) :=
  same_if (endSt_same (sub rfl hw) hk) (same_if (endSt_same (sub rfl hw) hk) (streamCmd_same (sub rfl hw) (fun _ _ h2 => moveThen_same (sub rfl hw) h2) hk))
theorem execSpace_same {x0 x1 x2} {S3 : State} (hw : Sub 0x9f635d6 w) (hk : Same w r S3) : OutSame w r (execSpace x0 x1 x2 S3) :=
  next_same (sub rfl hw) (instCmd_same (sub rfl hw) (fun _ _ h0 => space_same (sub rfl hw) h0) hk)

/-! ### Cart -/

theorem coldStart_same {x0 x1} {S2 : State} (hw : Sub 0x100000 w) (hk : Same w r S2) : Same w r (coldStart x0 x1 S2) :=
  set_100000 (sub rfl hw) hk
theorem coldStartAll_same {x0} {S1 : State} (hw : Sub 0x100000 w) (hk : Same w r S1) : Same w r (coldStartAll x0 S1) :=
  same_foldl (fun _ _ h0 => coldStart_same (sub rfl hw) h0) hk
theorem calibrate_same {x0} {S1 : State} (hw : Sub 0x100000 w) (hk : Same w r S1) : Same w r (calibrate x0 S1) := by
  refine same_foldl (fun _ _ h0 => ?_) hk
  refine same_foldl (fun _ _ h1 => ?_) h0
  split
  · exact h1
  · exact State_modRch_same (sub rfl hw) h1
theorem writeCm_same {x0 x1} {S2 : State} (hw : Sub 0x10000 w) (hk : Same w r S2) : Same w r (writeCm x0 x1 S2) :=
  same_if (set_10000 (sub rfl hw) hk) hk
theorem writeDir_same {S0 : State} (hw : Sub 0x10000 w) (hk : Same w r S0) : Same w r (writeDir S0) :=
  writeCm_same (sub rfl hw) hk
theorem modDir_same {x0 x1} {S2 : State} (hw : Sub 0x10000 w) (hk : Same w r S2) : Same w r (modDir x0 x1 S2) :=
  writeDir_same (sub rfl hw) (set_10000 (sub rfl hw) hk)
theorem holdCheck_same {x0} {S1 : State} (hw : Sub 0x14 w) (hk : Same w r S1) : Same w r (holdCheck x0 S1) :=
  same_if (set_4 (sub rfl hw) hk) (raiseEv_same (sub rfl hw) (set_4 (sub rfl hw) hk))
theorem finishLoad_same {x0 x1 x2 x3 x4} {S5 : State} (hw : Sub 0x87121d6 w) (hk : Same w r S5) : Same w r (finishLoad x0 x1 x2 x3 x4 S5) :=
  same_if (mEnd_same (sub rfl hw) hk) (complete_same (sub rfl hw) (setMode_same (sub rfl hw) (set_2000 (sub rfl hw) (calibrate_same (sub rfl hw) (holdCheck_same (sub rfl hw) (writeDir_same (sub rfl hw) (set_510000 (sub rfl hw) hk)))))))
theorem cartLoad_same {x0 x1} {S2 : State} (hw : Sub 0x87121d6 w) (hk : Same w r S2) : Same w r (cartLoad x0 x1 S2) := by
  unfold cartLoad
  try extract_lets -merge -underBinder +onlyGivenNames z0
  try clear_value z0
  refine same_if (mEnd_same (sub rfl hw) hk) ?_
  refine same_if (mEnd_same (sub rfl hw) hk) ?_
  refine same_if (mEnd_same (sub rfl hw) hk) ?_
  split
  · exact mEnd_same (sub rfl hw) hk
  · exact same_if (mEnd_same (sub rfl hw) hk) (same_if (finishLoad_same (sub rfl hw) hk) (same_if (complete_same (sub rfl hw) hk) (same_if (finishLoad_same (sub rfl hw) hk) (mEnd_same (sub rfl hw) hk))))
theorem execCartLoad_same {x0 x1} {S2 : State} (hw : Sub 0x87121d6 w) (hk : Same w r S2) : OutSame w r (execCartLoad x0 x1 S2) :=
  next_same (sub rfl hw) (mgmtCmd_same (sub rfl hw) (fun _ _ h0 => cartLoad_same (sub rfl hw) h0) hk)
theorem takeTape_same {x0 x1} {S2 : State} (hw : Sub 0x1802196 w) (hk : Same w r S2) : Same w r (takeTape x0 x1 S2) :=
  beginMove_same (sub rfl hw) (State_modCmd_same (sub rfl hw) hk)
theorem unloadNow_same {x0} {S1 : State} (hw : Sub 0x98121d6 w) (hk : Same w r S1) : Same w r (unloadNow x0 S1) :=
  same_if (takeTape_same (sub rfl hw) (writeDir_same (sub rfl hw) (writeCm_same (sub rfl hw) hk))) (mEnd_same (sub rfl hw) hk)
theorem unloaded_same {x0} {S1 : State} (hw : Sub 0x94721d6 w) (hk : Same w r S1) : Same w r (unloaded x0 S1) :=
  mOk_same (sub rfl hw) (set_1412000 (sub rfl hw) (dropReadBufs_same (sub rfl hw) (setMode_same (sub rfl hw) (same_if hk (setMode_same (sub rfl hw) hk)))))
theorem cartUnload_same {x0} {S1 : State} (hw : Sub 0x98121d6 w) (hk : Same w r S1) : Same w r (cartUnload x0 S1) :=
  same_if (mEnd_same (sub rfl hw) hk) (same_if (mEnd_same (sub rfl hw) hk) (same_if hk (same_if (State_modCmd_same (sub rfl hw) hk) (unloadNow_same (sub rfl hw) hk))))
theorem execCartUnload_same {x0} {S1 : State} (hw : Sub 0x98121d6 w) (hk : Same w r S1) : OutSame w r (execCartUnload x0 S1) :=
  next_same (sub rfl hw) (mgmtCmd_same (sub rfl hw) (fun _ _ h0 => cartUnload_same (sub rfl hw) h0) hk)
theorem cartCalibrate_same {x0 x1} {S2 : State} (hw : Sub 0x98021d6 w) (hk : Same w r S2) : Same w r (cartCalibrate x0 x1 S2) :=
  same_if (mEnd_same (sub rfl hw) hk) (same_if hk (same_if (mEnd_same (sub rfl hw) hk) (same_if hk (takeTape_same (sub rfl hw) hk))))
theorem endTapeWork_same {S0 : State} (hw : Sub 0x95721d6 w) (hk : Same w r S0) : Same w r (endTapeWork S0) := by
  refine same_foldl (fun _ _ h0 => ?_) hk
  split
  · exact unloaded_same (sub rfl hw) h0
  · exact mOk_same (sub rfl hw) (calibrate_same (sub rfl hw) (beginStop_same (sub rfl hw) h0))
  · exact h0
theorem execCartCalibrate_same {x0 x1} {S2 : State} (hw : Sub 0x98021d6 w) (hk : Same w r S2) : OutSame w r (execCartCalibrate x0 x1 S2) :=
  next_same (sub rfl hw) (mgmtCmd_same (sub rfl hw) (fun _ _ h0 => cartCalibrate_same (sub rfl hw) h0) hk)
theorem afterSession_same {S0 : State} (hw : Sub 0x98121d6 w) (hk : Same w r S0) : Same w r (afterSession S0) :=
  same_foldl (fun _ _ h0 => same_if (unloadNow_same (sub rfl hw) h0) h0) hk

/-! ### Append -/

theorem loseStream_same {x0} {S1 : State} (hw : Sub 0x80005c0 w) (hk : Same w r S1) : Same w r (loseStream x0 S1) :=
  cutStream_same (sub rfl hw) (failAll_same (sub rfl hw) hk)
theorem loseBlock_same {x0} {S1 : State} (hw : Sub 0x2a463dd0 w) (hk : Same w r S1) : Same w r (loseBlock x0 S1) := by
  unfold loseBlock
  split
  · exact hk
  · try extract_lets -merge -underBinder +onlyGivenNames z0
    try clear_value z0
    extract_lets -merge -underBinder +onlyGivenNames z1
    have h2 : Same w r z1 := discardBlocks_same (sub rfl hw) hk
    try clear_value z1
    extract_lets -merge -underBinder +onlyGivenNames z5
    have h6 : Same w r z5 := by
      unfold z5
      split
      · exact loseStream_same (sub rfl hw) h2
      · exact h2
    try clear_value z5
    exact settleWaits_same (sub rfl hw) (pump_same (sub rfl hw) (giveBack_same (sub rfl hw) h6))
theorem failCode_same {x0 x1 x2} {S3 : State} (hw : Sub 0x2b7ebdf6 w) (hk : Same w r S3) : Same w r (failCode x0 x1 x2 S3) := by
  unfold failCode
  extract_lets -merge -underBinder +onlyGivenNames z0
  have h1 : Same w r z0 := same_if (raiseResend_same (sub rfl hw) hk) (raiseEv_same (sub rfl hw) hk)
  try clear_value z0
  extract_lets -merge -underBinder +onlyGivenNames _ z32
  have h33 : Same w r z32 := same_if h1 (set_1000 (sub rfl hw) h1)
  try clear_value z32
  extract_lets -merge -underBinder +onlyGivenNames z48
  have h49 : Same w r z48 := by
    unfold z48
    split
    · exact set_1000 (sub rfl hw) (State_modBlk_same (sub rfl hw) h33)
    · exact set_800 (sub rfl hw) (freeSlice_same (sub rfl hw) h33)
    · exact set_800 (sub rfl hw) (freeSlice_same (sub rfl hw) h33)
    · exact loseBlock_same (sub rfl hw) (freeSlice_same (sub rfl hw) h33)
  try clear_value z48
  exact dispatch_same (sub rfl hw) (strike_same (sub rfl hw) h49)
theorem sliceCode_same {x0 x1} {S2 : State} (hw : Sub 0x2b7ebdf6 w) (hk : Same w r S2) : Same w r (sliceCode x0 x1 S2) := by
  unfold sliceCode
  split
  · exact hk
  · split
    · exact same_if (dispatch_same (sub rfl hw) (loseBlock_same (sub rfl hw) (freeSlice_same (sub rfl hw) hk))) (failCode_same (sub rfl hw) hk)
    · exact dispatch_same (sub rfl hw) (passAfter_same (sub rfl hw) (set_1000 (sub rfl hw) (set_1000 (sub rfl hw) (State_modBlk_same (sub rfl hw) hk))))
theorem execSliceCodeDone_same {x0 x1} {S2 : State} (hw : Sub 0x2b7ebdf6 w) (hk : Same w r S2) : OutSame w r (execSliceCodeDone x0 x1 S2) :=
  next_same (sub rfl hw) (sliceCode_same (sub rfl hw) hk)
theorem failSeal_same {x0 x1 x2} {S3 : State} (hw : Sub 0x2b7ebdf6 w) (hk : Same w r S3) : Same w r (failSeal x0 x1 x2 S3) := by
  unfold failSeal
  extract_lets -merge -underBinder +onlyGivenNames z0
  have h1 : Same w r z0 := same_if (raiseResend_same (sub rfl hw) hk) (raiseEv_same (sub rfl hw) hk)
  try clear_value z0
  extract_lets -merge -underBinder +onlyGivenNames _ z16
  have h17 : Same w r z16 := same_if h1 (set_1000 (sub rfl hw) h1)
  try clear_value z16
  extract_lets -merge -underBinder +onlyGivenNames z24
  have h25 : Same w r z24 := by
    unfold z24
    split
    · exact set_1000 (sub rfl hw) (State_modBlk_same (sub rfl hw) h17)
    · exact freeEngine_same (sub rfl hw) (set_800 (sub rfl hw) h17)
    · exact freeEngine_same (sub rfl hw) (set_800 (sub rfl hw) h17)
    · exact loseBlock_same (sub rfl hw) (freeEngine_same (sub rfl hw) h17)
  try clear_value z24
  exact dispatch_same (sub rfl hw) (strike_same (sub rfl hw) h25)
theorem cipherSeal_same {x0 x1} {S2 : State} (hw : Sub 0x2b7ebdf6 w) (hk : Same w r S2) : Same w r (cipherSeal x0 x1 S2) := by
  unfold cipherSeal
  split
  · exact hk
  · split
    · exact failSeal_same (sub rfl hw) hk
    · try extract_lets -merge -underBinder +onlyGivenNames z0
      try clear_value z0
      extract_lets -merge -underBinder +onlyGivenNames z1
      have h2 : Same w r z1 := by
        unfold z1
        split
        · exact cacheKey_same (sub rfl hw) hk
        · exact hk
      try clear_value z1
      exact settleWaits_same (sub rfl hw) (settleGrants_same (sub rfl hw) (onBehalf_same (sub rfl hw) (fun _ h5 => panAlloc_same (sub rfl hw) h5) (passAfter_same (sub rfl hw) (State_modBlk_same (sub rfl hw) h2))))
theorem execCipherSealDone_same {x0 x1} {S2 : State} (hw : Sub 0x2b7ebdf6 w) (hk : Same w r S2) : OutSame w r (execCipherSealDone x0 x1 S2) :=
  next_same (sub rfl hw) (cipherSeal_same (sub rfl hw) hk)
theorem failMove_same {x0 x1} {S2 : State} (hw : Sub 0x2b7ebdf6 w) (hk : Same w r S2) : Same w r (failMove x0 x1 S2) := by
  unfold failMove
  try extract_lets -merge -underBinder +onlyGivenNames z0
  try clear_value z0
  extract_lets -merge -underBinder +onlyGivenNames z1
  have h2 : Same w r z1 := strike_same (sub rfl hw) (raiseResend_same (sub rfl hw) hk)
  try clear_value z1
  split
  · exact State_modBlk_same (sub rfl hw) h2
  · exact State_modBlk_same (sub rfl hw) h2
  · exact dispatch_same (sub rfl hw) (State_modBlk_same (sub rfl hw) (giveBack_same (sub rfl hw) h2))
  · exact loseBlock_same (sub rfl hw) h2
theorem panBurst_same {x0 x1 x2 x3 x4} {S5 : State} (hw : Sub 0x2b7ebdf6 w) (hk : Same w r S5) : Same w r (panBurst x0 x1 x2 x3 x4 S5) := by
  unfold panBurst
  try extract_lets -merge -underBinder +onlyGivenNames z0
  try clear_value z0
  try extract_lets -merge -underBinder +onlyGivenNames z1
  try clear_value z1
  extract_lets -merge -underBinder +onlyGivenNames z2
  have h3 : SndSame w r z2 := engineRead_same (sub rfl hw) (moverMoved_same (sub rfl hw) hk)
  try clear_value z2
  extract_lets -merge -underBinder +onlyGivenNames z18
  have h19 : Same w r z18 := snd_snd h3
  try clear_value z18
  refine same_if (failMove_same (sub rfl hw) h19) ?_
  refine same_if (State_modBlk_same (sub rfl hw) h19) ?_
  split
  · exact failMove_same (sub rfl hw) h19
  · exact settleWaits_same (sub rfl hw) (pump_same (sub rfl hw) (giveBack_same (sub rfl hw) (passAfter_same (sub rfl hw) (popItem_same (sub rfl hw) (set_800 (sub rfl hw) (State_modStream_same (sub rfl hw) (modDs_same (sub rfl hw) h19)))))))
theorem panIn_same {x0 x1 x2 x3} {S4 : State} (hw : Sub 0x2b7ebdf6 w) (hk : Same w r S4) : Same w r (panIn x0 x1 x2 x3 S4) := by
  unfold panIn
  split
  · exact hk
  · split
    · exact hk
    · exact same_if (noteWaits_same (sub rfl hw) (closeDs_same (sub rfl hw) hk)) (same_if hk (panBurst_same (sub rfl hw) hk))
theorem idleTimeout_same {x0 x1} {S2 : State} (hw : Sub 0x22002c00 w) (hk : Same w r S2) : Same w r (idleTimeout x0 x1 S2) := by
  refine same_if hk ?_
  split
  · exact hk
  · split
    · exact noteWaits_same (sub rfl hw) (closeDs_same (sub rfl hw) hk)
    · exact hk
theorem execDatasetIdleTimeout_same {x0 x1} {S2 : State} (hw : Sub 0x22002c00 w) (hk : Same w r S2) : OutSame w r (execDatasetIdleTimeout x0 x1 S2) :=
  next_same (sub rfl hw) (idleTimeout_same (sub rfl hw) hk)
theorem takeShares_same {S0 : State} (hw : Sub 0x80001c0 w) (hk : Same w r S0) : Same w r (takeShares S0) :=
  same_foldl (fun _ _ h0 => same_if h0 (putShare_same (sub rfl hw) h0)) hk
theorem addCredits_same {x0} {S1 : State} (hw : Sub 0x100 w) (hk : Same w r S1) : Same w r (addCredits x0 S1) :=
  same_foldl (fun _ _ h0 => same_if (State_modInst_same (sub rfl hw) h0) (same_if (State_modInst_same (sub rfl hw) h0) h0)) hk
theorem grantSlot_same {x0 x1} {S2 : State} (hw : Sub 0x22463d90 w) (hk : Same w r S2) : Same w r (grantSlot x0 x1 S2) :=
  settleGrants_same (sub rfl hw) (onBehalf_same (sub rfl hw) (fun _ h2 => panAlloc_same (sub rfl hw) h2) (set_20000 (sub rfl hw) (State_modStream_same (sub rfl hw) hk)))
theorem slotDecision_same {S0 : State} (hw : Sub 0x2a463dd0 w) (hk : Same w r S0) : Same w r (slotDecision S0) := by
  unfold slotDecision
  extract_lets -merge -underBinder +onlyGivenNames z0
  have h1 : Same w r z0 := noteWaits_same (sub rfl hw) hk
  try clear_value z0
  refine same_if h1 ?_
  extract_lets -merge -underBinder +onlyGivenNames z14
  have h15 : Same w r z14 := takeShares_same (sub rfl hw) h1
  try clear_value z14
  split
  · exact grantSlot_same (sub rfl hw) h15
  · try extract_lets -merge -underBinder +onlyGivenNames z21
    try clear_value z21
    extract_lets -merge -underBinder +onlyGivenNames z22
    have h23 : Same w r z22 := addCredits_same (sub rfl hw) h15
    try clear_value z22
    try extract_lets -merge -underBinder +onlyGivenNames z25
    try clear_value z25
    split
    · exact h23
    · split
      · exact h23
      · exact grantSlot_same (sub rfl hw) (State_modInst_same (sub rfl hw) h23)
theorem execSlotDecision_same {S0 : State} (hw : Sub 0x2a463dd0 w) (hk : Same w r S0) : OutSame w r (execSlotDecision S0) :=
  next_same (sub rfl hw) (slotDecision_same (sub rfl hw) hk)
theorem commitOne_same {S0 : State} {x1} (hw : Sub 0x22473d90 w) (hk : Same w r S0) : Same w r (commitOne S0 x1) := by
  unfold commitOne
  try extract_lets -merge -underBinder +onlyGivenNames z0
  try clear_value z0
  try extract_lets -merge -underBinder +onlyGivenNames z1
  try clear_value z1
  extract_lets -merge -underBinder +onlyGivenNames _ z2
  have h3 : Same w r z2 := set_10000 (sub rfl hw) hk
  try clear_value z2
  extract_lets -merge -underBinder +onlyGivenNames z10
  have h11 : Same w r z10 := same_if (setTapeCounts_same (sub rfl hw) h3) h3
  try clear_value z10
  extract_lets -merge -underBinder +onlyGivenNames z14
  have h15 : Same w r z14 := by
    unfold z14
    split
    · exact same_if (State_modStream_same (sub rfl hw) h11) h11
    · exact h11
  try clear_value z14
  exact same_if h15 (giveBack_same (sub rfl hw) h15)
theorem groupCommit_same {S0 : State} (hw : Sub 0x22463d90 w) (hk : Same w r S0) : Same w r (groupCommit S0) :=
  same_if hk (same_foldl (fun _ _ h5 => giveBack_same (sub rfl hw) h5) (set_2000000 (sub rfl hw) hk))
theorem reportCommit_same {S0 : State} (hw : Sub 0x22463d90 w) (hk : Same w r S0) : Same w r (reportCommit S0) :=
  same_if hk (same_if (groupCommit_same (sub rfl hw) hk) (settleXoff_same (sub rfl hw) (tellPos_same (sub rfl hw) hk)))
theorem setEod_same {x0 x1 x2 x3} {S4 : State} (hw : Sub 0x10000 w) (hk : Same w r S4) : Same w r (setEod x0 x1 x2 x3 S4) :=
  set_10000 (sub rfl hw) (modDir_same (sub rfl hw) hk)
theorem endSession_same {x0} {S1 : State} (hw : Sub 0xb8121d6 w) (hk : Same w r S1) : Same w r (endSession x0 S1) := by
  unfold endSession
  try extract_lets -merge -underBinder +onlyGivenNames z0
  try clear_value z0
  extract_lets -merge -underBinder +onlyGivenNames z1
  have h2 : Same w r z1 := setEod_same (sub rfl hw) hk
  try clear_value z1
  extract_lets -merge -underBinder +onlyGivenNames _ z17
  have h18 : Same w r z17 := set_10000 (sub rfl hw) h2
  try clear_value z17
  extract_lets -merge -underBinder +onlyGivenNames _ _ z25
  have h26 : Same w r z25 := same_if (set_2000000 (sub rfl hw) h18) h18
  try clear_value z25
  extract_lets -merge -underBinder +onlyGivenNames _ z29
  have h30 : Same w r z29 := beginStop_same (sub rfl hw) (dropGates_same (sub rfl hw) (set_2000 (sub rfl hw) h26))
  try clear_value z29
  exact afterSession_same (sub rfl hw) h30
theorem updateCommit_same {S0 : State} (hw : Sub 0x2bc73dd6 w) (hk : Same w r S0) : Same w r (updateCommit S0) := by
  unfold updateCommit
  try extract_lets -merge -underBinder +onlyGivenNames z0
  try clear_value z0
  refine same_if (settleWaits_same (sub rfl hw) hk) ?_
  try extract_lets -merge -underBinder +onlyGivenNames z1
  try clear_value z1
  try extract_lets -merge -underBinder +onlyGivenNames z2
  try clear_value z2
  try extract_lets -merge -underBinder +onlyGivenNames z3
  try clear_value z3
  extract_lets -merge -underBinder +onlyGivenNames _ z4
  have h5 : Same w r z4 := set_2000 (sub rfl hw) hk
  try clear_value z4
  extract_lets -merge -underBinder +onlyGivenNames z14
  have h15 : Same w r z14 := same_foldl (fun _ _ h19 => commitOne_same (sub rfl hw) h19) h5
  try clear_value z14
  extract_lets -merge -underBinder +onlyGivenNames z20
  have h21 : Same w r z20 := by
    unfold z20
    split
    · exact endSession_same (sub rfl hw) h15
    · exact h15
  try clear_value z20
  exact settleWaits_same (sub rfl hw) (reportCommit_same (sub rfl hw) h21)
theorem failStreams_same {x0} {S1 : State} (hw : Sub 0x2a463dd0 w) (hk : Same w r S1) : Same w r (failStreams x0 S1) := by
  unfold failStreams
  try extract_lets -merge -underBinder +onlyGivenNames z0
  try clear_value z0
  try extract_lets -merge -underBinder +onlyGivenNames z1
  try clear_value z1
  extract_lets -merge -underBinder +onlyGivenNames z2
  have h3 : Same w r z2 := same_foldl (fun _ _ h16 => cutStream_same (sub rfl hw) (failAll_same (sub rfl hw) h16)) hk
  try clear_value z2
  try extract_lets -merge -underBinder +onlyGivenNames z17
  try clear_value z17
  extract_lets -merge -underBinder +onlyGivenNames z18
  have h19 : Same w r z18 := discardBlocks_same (sub rfl hw) h3
  try clear_value z18
  extract_lets -merge -underBinder +onlyGivenNames z24
  have h25 : Same w r z24 := set_400 (sub rfl hw) h19
  try clear_value z24
  refine same_foldl (fun _ _ h27 => ?_) h25
  split
  · exact giveBack_same (sub rfl hw) h27
  · exact h27
theorem dropUnwritten_same {S0 : State} (hw : Sub 0x22463d90 w) (hk : Same w r S0) : Same w r (dropUnwritten S0) :=
  same_foldl (fun _ _ h3 => giveBack_same (sub rfl hw) h3) (set_2000 (sub rfl hw) hk)
theorem failGroup_same {S0 : State} (hw : Sub 0x2a463dd4 w) (hk : Same w r S0) : Same w r (failGroup S0) :=
  same_if hk (same_if (powerFor_same (sub rfl hw) (set_2000 (sub rfl hw) (same_foldl (fun _ _ h10 => giveBack_same (sub rfl hw) h10) (failStreams_same (sub rfl hw) (dropUnwritten_same (sub rfl hw) (set_2000000 (sub rfl hw) (raiseEv_same (sub rfl hw) hk))))))) (same_foldl (fun _ _ h14 => giveBack_same (sub rfl hw) h14) (powerFor_same (sub rfl hw) (set_2002000 (sub rfl hw) hk))))
theorem endFailed_same {x0} {S1 : State} (hw : Sub 0x2bc73dd6 w) (hk : Same w r S1) : Same w r (endFailed x0 S1) := by
  unfold endFailed
  extract_lets -merge -underBinder +onlyGivenNames z0
  have h1 : Same w r z0 := setEod_same (sub rfl hw) hk
  try clear_value z0
  try extract_lets -merge -underBinder +onlyGivenNames z11
  try clear_value z11
  extract_lets -merge -underBinder +onlyGivenNames _ _ z12
  have h13 : Same w r z12 := beginStop_same (sub rfl hw) (dropGates_same (sub rfl hw) (set_12000 (sub rfl hw) h1))
  try clear_value z12
  exact afterSession_same (sub rfl hw) (settleWaits_same (sub rfl hw) (setMode_same (sub rfl hw) (same_foldl (fun _ _ h19 => giveBack_same (sub rfl hw) h19) h13)))
theorem toCommitPoint_same {S0 : State} (hw : Sub 0x1802016 w) (hk : Same w r S0) : Same w r (toCommitPoint S0) := by
  unfold toCommitPoint
  extract_lets -merge -underBinder +onlyGivenNames _ z0
  have h1 : Same w r z0 := beginStop_same (sub rfl hw) (dropGates_same (sub rfl hw) (set_2000 (sub rfl hw) hk))
  try clear_value z0
  exact same_if (beginMove_same (sub rfl hw) h1) (set_2000 (sub rfl hw) h1)
theorem failWrite_same {x0} {S1 : State} (hw : Sub 0x2bc73dd6 w) (hk : Same w r S1) : Same w r (failWrite x0 S1) := by
  unfold failWrite
  split
  · exact hk
  · refine same_if (endFailed_same (sub rfl hw) hk) ?_
    try extract_lets -merge -underBinder +onlyGivenNames z0
    try clear_value z0
    extract_lets -merge -underBinder +onlyGivenNames _ z1
    have h2 : Same w r z1 := failStreams_same (sub rfl hw) (dropUnwritten_same (sub rfl hw) (set_2000 (sub rfl hw) hk))
    try clear_value z1
    extract_lets -merge -underBinder +onlyGivenNames z27
    have h28 : Same w r z27 := same_foldl (fun _ _ h40 => giveBack_same (sub rfl hw) h40) h2
    try clear_value z27
    extract_lets -merge -underBinder +onlyGivenNames z41
    have h42 : Same w r z41 := raiseEv_same (sub rfl hw) h28
    try clear_value z41
    extract_lets -merge -underBinder +onlyGivenNames z47
    have h48 : Same w r z47 := same_if h42 (same_if (failGroup_same (sub rfl hw) (tellAll_same (sub rfl hw) h42)) (tellPos_same (sub rfl hw) h42))
    try clear_value z47
    exact settleWaits_same (sub rfl hw) (toCommitPoint_same (sub rfl hw) (set_2000 (sub rfl hw) h48))
theorem startRecovery_same {x0} {S1 : State} (hw : Sub 0x2bc73dd6 w) (hk : Same w r S1) : Same w r (startRecovery x0 S1) := by
  refine same_if hk ?_
  refine same_if (failWrite_same (sub rfl hw) hk) ?_
  extract_lets -merge -underBinder +onlyGivenNames _ z0
  have h1 : Same w r z0 := set_2000 (sub rfl hw) hk
  try clear_value z0
  extract_lets -merge -underBinder +onlyGivenNames z4
  have h5 : Same w r z4 := raiseEv_same (sub rfl hw) h1
  try clear_value z4
  exact same_if (set_2000 (sub rfl hw) h5) (toCommitPoint_same (sub rfl hw) h5)
theorem rewind_same {S0 : State} (hw : Sub 0x2000 w) (hk : Same w r S0) : Same w r (rewind S0) :=
  set_2000 (sub rfl hw) hk
theorem modWr_same {x0 x1} {S2 : State} (hw : Sub 0x2000 w) (hk : Same w r S2) : Same w r (modWr x0 x1 S2) :=
  set_2000 (sub rfl hw) hk
theorem countJudged_same {x0} {S1 : State} (hw : Sub 0x2000 w) (hk : Same w r S1) : Same w r (countJudged x0 S1) :=
  set_2000 (sub rfl hw) hk
theorem fixFill_same {x0} {S1 : State} {x2} (hw : Sub 0x2000 w) (hk : Same w r S1) : Same w r (fixFill x0 S1 x2) :=
  same_if (set_2000 (sub rfl hw) hk) hk
theorem fixPosition_same {x0 x1} {S2 : State} {x3} (hw : Sub 0x2000 w) (hk : Same w r S2) : Same w r (fixPosition x0 x1 S2 x3) :=
  same_if (fixFill_same (sub rfl hw) hk) (same_if (set_2000 (sub rfl hw) hk) (countJudged_same (sub rfl hw) (set_2000 (sub rfl hw) hk)))
theorem tierDone_same {x0 x1 x2} {S3 : State} (hw : Sub 0x2000 w) (hk : Same w r S3) : Same w r (tierDone x0 x1 x2 S3) :=
  modWr_same (sub rfl hw) (set_2000 (sub rfl hw) hk)
theorem fixData_same {x0} {S1 : State} (hw : Sub 0x2000 w) (hk : Same w r S1) : Same w r (fixData x0 S1) :=
  tierDone_same (sub rfl hw) (same_foldl (fun _ _ h0 => fixPosition_same (sub rfl hw) h0) hk)
theorem placeCopy_same {x0} {x1 : List Nat × State} {x2} (hw : Sub 0x2000 w) (hk : SndSame w r x1) : SndSame w r (placeCopy x0 x1 x2) := by
  unfold placeCopy
  dsimp only
  split
  · exact set_2000 (sub rfl hw) hk
  · exact hk
  · exact set_2000 (sub rfl hw) hk
theorem fixRewrite_same {x0} {s : State} (hw : Sub 0x2000 w) (hk : Same w r s) : Same w r (fixRewrite x0 s) :=
  tierDone_same (sub rfl hw) (set_2000 (sub rfl hw) (same_foldl (fun _ _ h => fixFill_same (sub rfl hw) h)
    (snd_snd (snd_foldl (fun _ _ h => placeCopy_same (sub rfl hw) h) (snd_mk (set_2000 (sub rfl hw) hk))))))
theorem boundarySpeed_same {S0 : State} (hw : Sub 0x1002000 w) (hk : Same w r S0) : Same w r (boundarySpeed S0) :=
  same_if hk (set_1002000 (sub rfl hw) hk)
theorem fixSeparator_same {x0} {S1 : State} (hw : Sub 0x2bc73dd6 w) (hk : Same w r S1) : Same w r (fixSeparator x0 S1) := by
  unfold fixSeparator
  extract_lets -merge -underBinder +onlyGivenNames z0
  have h1 : Same w r z0 := modWr_same (sub rfl hw) hk
  try clear_value z0
  exact same_if (startRecovery_same (sub rfl hw) (set_2000 (sub rfl hw) h1)) (updateCommit_same (sub rfl hw) (set_2000 (sub rfl hw) h1))
theorem beginDs_same {x0 x1} {S2 : State} (hw : Sub 0x2012000 w) (hk : Same w r S2) : Same w r (beginDs x0 x1 S2) := by
  unfold beginDs
  try extract_lets -merge -underBinder +onlyGivenNames z0
  try clear_value z0
  try extract_lets -merge -underBinder +onlyGivenNames z1
  try clear_value z1
  try extract_lets -merge -underBinder +onlyGivenNames z2
  try clear_value z2
  try extract_lets -merge -underBinder +onlyGivenNames z3
  try clear_value z3
  try extract_lets -merge -underBinder +onlyGivenNames z4
  try clear_value z4
  try extract_lets -merge -underBinder +onlyGivenNames z5
  try clear_value z5
  try extract_lets -merge -underBinder +onlyGivenNames z6
  try clear_value z6
  extract_lets -merge -underBinder +onlyGivenNames z7
  have h8 : Same w r z7 := same_if hk (modDir_same (sub rfl hw) hk)
  try clear_value z7
  extract_lets -merge -underBinder +onlyGivenNames _ z27
  have h28 : Same w r z27 := set_2000 (sub rfl hw) h8
  try clear_value z27
  extract_lets -merge -underBinder +onlyGivenNames z37
  have h38 : Same w r z37 := same_if (tellAll_same (sub rfl hw) h28) h28
  try clear_value z37
  try extract_lets -merge -underBinder +onlyGivenNames z42
  try clear_value z42
  extract_lets -merge -underBinder +onlyGivenNames _ _ z43
  have h44 : Same w r z43 := same_if h38 (same_if (set_2000 (sub rfl hw) h38) (same_if (set_2000 (sub rfl hw) h38) h38))
  try clear_value z43
  exact fixData_same (sub rfl hw) h44
theorem partitionIsFull_same {S0 : State} (hw : Sub 0x2a463dd0 w) (hk : Same w r S0) : Same w r (partitionIsFull S0) :=
  settleWaits_same (sub rfl hw) (set_2000 (sub rfl hw) (raiseEv_same (sub rfl hw) (failStreams_same (sub rfl hw) (dropUnwritten_same (sub rfl hw) hk))))
theorem stopAfterSep_same {S0 : State} (hw : Sub 0x2000 w) (hk : Same w r S0) : Same w r (stopAfterSep S0) :=
  set_2000 (sub rfl hw) hk
theorem beginAt_same {x0 x1} {S2 : State} (hw : Sub 0x2000 w) (hx1 : ∀ y0 s, Same w r s → Same w r (x1 y0 s)) (hk : Same w r S2) : Same w r (beginAt x0 x1 S2) := by
  unfold beginAt
  split
  · exact stopAfterSep_same (sub rfl hw) hk
  · exact same_if (hx1 _ _ hk) (set_2000 (sub rfl hw) hk)
theorem leaveSep_same {S0 : State} (hw : Sub 0x1802016 w) (hk : Same w r S0) : Same w r (leaveSep S0) := by
  unfold leaveSep
  split
  · exact hk
  · exact beginStop_same (sub rfl hw) (dropGates_same (sub rfl hw) (set_2000 (sub rfl hw) hk))
  · exact beginMove_same (sub rfl hw) (dropGates_same (sub rfl hw) (set_2000 (sub rfl hw) hk))
theorem startNext_same {S0 : State} (hw : Sub 0x2b473dd0 w) (hk : Same w r S0) : Same w r (startNext S0) := by
  unfold startNext
  extract_lets -merge -underBinder +onlyGivenNames z0
  have h1 : Same w r z0 := boundarySpeed_same (sub rfl hw) hk
  try clear_value z0
  split
  · exact stopAfterSep_same (sub rfl hw) h1
  · try extract_lets -merge -underBinder +onlyGivenNames z11
    try clear_value z11
    try extract_lets -merge -underBinder +onlyGivenNames z12
    try clear_value z12
    try extract_lets -merge -underBinder +onlyGivenNames z13
    try clear_value z13
    try extract_lets -merge -underBinder +onlyGivenNames z14
    try clear_value z14
    try extract_lets -merge -underBinder +onlyGivenNames z15
    try clear_value z15
    try extract_lets -merge -underBinder +onlyGivenNames z16
    try clear_value z16
    refine same_if (stopAfterSep_same (sub rfl hw) h1) ?_
    refine same_if (beginAt_same (sub rfl hw) (fun _ _ h17 => beginDs_same (sub rfl hw) (set_20000000 (sub rfl hw) h17)) h1) ?_
    refine same_if (beginAt_same (sub rfl hw) (fun _ _ h18 => beginDs_same (sub rfl hw) (set_20002000 (sub rfl hw) h18)) h1) ?_
    split
    · exact stopAfterSep_same (sub rfl hw) h1
    · exact same_if (beginAt_same (sub rfl hw) (fun _ _ h19 => beginDs_same (sub rfl hw) (set_2000 (sub rfl hw) h19)) h1) (partitionIsFull_same (sub rfl hw) h1)
theorem swapVault_same {x0 x1 x2} {S3 : State} (hw : Sub 0x2000 w) (hk : Same w r S3) : Same w r (swapVault x0 x1 x2 S3) :=
  same_if hk (same_if (set_2000 (sub rfl hw) hk) (set_2000 (sub rfl hw) hk))
theorem loseRow_same {x0} {S1 : State} (hw : Sub 0x2bc73dd6 w) (hk : Same w r S1) : Same w r (loseRow x0 S1) := by
  unfold loseRow
  split
  · exact hk
  · split
    · exact startRecovery_same (sub rfl hw) hk
    · exact startRecovery_same (sub rfl hw) (swapVault_same (sub rfl hw) (modWr_same (sub rfl hw) (loseStream_same (sub rfl hw) hk)))
theorem rowFailure_same {x0 x1 x2} (hw : Sub 0x2bffbdf6 w) (hk : SndSame w r x1) : SndSame w r (rowFailure x0 x1 x2) := by
  unfold rowFailure
  extract_lets -merge -underBinder +onlyGivenNames s0
  have h0 : Same w r s0 := snd_snd hk
  clear_value s0
  split
  · exact hk
  · extract_lets -merge -underBinder +onlyGivenNames t rest s1
    have h9 : Same w r s1 := strike_same (sub rfl hw) (raiseResend_same (sub rfl hw) h0)
    clear_value s1
    split
    · exact snd_mk h9
    · exact snd_mk h9
    · exact snd_mk h9
    · exact snd_mk (loseRow_same (sub rfl hw) h9)
theorem rowPoison_same {x0 x1 x2} {s : State} (hw : Sub 0x2bffbdf6 w) (hk : Same w r s) : Same w r (rowPoison x0 x1 x2 s) := by
  induction x1 generalizing x2 s with
  | zero => exact hk
  | succ n ih =>
    unfold rowPoison
    extract_lets t1 e t2 s1
    have h9 : Same w r s1 := strike_same (sub rfl hw) (raiseResend_same (sub rfl hw) hk)
    clear_value s1
    split
    · exact ih h9
    · exact ih h9
    · exact ih h9
    · exact loseRow_same (sub rfl hw) h9
theorem readTier_same {x0} {S1 : State} (hw : Sub 0x2bffbdf6 w) (hk : Same w r S1) : Same w r (readTier x0 S1) := by
  refine same_if hk ?_
  refine same_foldl (fun _ _ h0 => ?_) hk
  split
  · exact h0
  · extract_lets -merge -underBinder +onlyGivenNames z1
    have h2 : SndSame w r z1 := engineRead_same (sub rfl hw) h0
    try clear_value z1
    exact same_if (snd_snd h2) (rowPoison_same (sub rfl hw) (snd_snd h2))
theorem rowFailures_same {x0 x1} {S2 : State} (hw : Sub 0x2bffbdf6 w) (hk : Same w r S2) : Same w r (rowFailures x0 x1 S2) :=
  same_foldl (fun _ _ h3 => passAfter_same (sub rfl hw) h3) (snd_snd (snd_foldl (fun _ _ h2 => rowFailure_same (sub rfl hw) h2) (snd_mk hk)))
theorem markTier_same {S0 : State} (hw : Sub 0x2000 w) (hk : Same w r S0) : Same w r (markTier S0) := by
  unfold markTier
  split
  · exact hk
  · exact set_2000 (sub rfl hw) hk
theorem gateBoundary_same {S0 : State} (hw : Sub 0x2000 w) (hk : Same w r S0) : Same w r (gateBoundary S0) := by
  unfold gateBoundary
  try extract_lets -merge -underBinder +onlyGivenNames z0
  try clear_value z0
  extract_lets -merge -underBinder +onlyGivenNames _ z1
  have h2 : Same w r z1 := set_2000 (sub rfl hw) hk
  try clear_value z1
  extract_lets -merge -underBinder +onlyGivenNames _ z5
  have h6 : Same w r z5 := same_if (set_2000 (sub rfl hw) h2) h2
  try clear_value z5
  exact same_if (markTier_same (sub rfl hw) h6) h6
theorem gateDrop_same {S0 : State} (hw : Sub 0x2bc73dd6 w) (hk : Same w r S0) : Same w r (gateDrop S0) :=
  same_if hk (same_if (set_2000 (sub rfl hw) hk) (same_if (startRecovery_same (sub rfl hw) (set_2000 (sub rfl hw) hk)) (markTier_same (sub rfl hw) (set_2000 (sub rfl hw) hk))))
theorem fixNext_same {S0 : State} (hw : Sub 0x2bc73dd6 w) (hk : Same w r S0) : Same w r (fixNext S0) := by
  unfold fixNext
  split
  · exact startNext_same (sub rfl hw) hk
  · exact same_if (fixData_same (sub rfl hw) hk) (same_if (fixRewrite_same (sub rfl hw) hk) (same_if (startRecovery_same (sub rfl hw) hk) (fixSeparator_same (sub rfl hw) hk)))
theorem tierFix_same {x0} {S1 : State} (hw : Sub 0x2bffbdf6 w) (hk : Same w r S1) : Same w r (tierFix x0 S1) :=
  same_if hk (same_if (toCommitPoint_same (sub rfl hw) hk) (same_if hk (same_if (leaveSep_same (sub rfl hw) hk) (gateBoundary_same (sub rfl hw) (rowFailures_same (sub rfl hw) (readTier_same (sub rfl hw) (fixNext_same (sub rfl hw) hk)))))))
theorem execTierFix_same {x0} {S1 : State} (hw : Sub 0x2bffbdf6 w) (hk : Same w r S1) : OutSame w r (execTierFix x0 S1) :=
  next_same (sub rfl hw) (tierFix_same (sub rfl hw) hk)
theorem underrun_same {x0} {S1 : State} (hw : Sub 0x2000 w) (hk : Same w r S1) : Same w r (underrun x0 S1) :=
  set_2000 (sub rfl hw) hk
theorem execWriteFifoUnderrun_same {x0} {S1 : State} (hw : Sub 0x2000 w) (hk : Same w r S1) : OutSame w r (execWriteFifoUnderrun x0 S1) :=
  next_same (sub rfl hw) (underrun_same (sub rfl hw) hk)
theorem noteChanFail_same {x0 x1} {S2 : State} (hw : Sub 0xb7ebdf6 w) (hk : Same w r S2) : Same w r (noteChanFail x0 x1 S2) := by
  unfold noteChanFail
  split
  · exact hk
  · try extract_lets -merge -underBinder +onlyGivenNames z0
    try clear_value z0
    extract_lets -merge -underBinder +onlyGivenNames z1
    have h2 : Same w r z1 := modWr_same (sub rfl hw) hk
    try clear_value z1
    exact same_if (strike_same (sub rfl hw) h2) h2
theorem judgeRow_same {x0 x1 x2} {S3 : State} (hw : Sub 0x2bffbdf6 w) (hk : Same w r S3) : Same w r (judgeRow x0 x1 x2 S3) := by
  unfold judgeRow
  try extract_lets -merge -underBinder +onlyGivenNames z0
  try clear_value z0
  try extract_lets -merge -underBinder +onlyGivenNames z1
  try clear_value z1
  extract_lets -merge -underBinder +onlyGivenNames z2
  have h3 : Same w r z2 := countJudged_same (sub rfl hw) hk
  try clear_value z2
  refine same_if (updateCommit_same (sub rfl hw) (modWr_same (sub rfl hw) h3)) ?_
  extract_lets -merge -underBinder +onlyGivenNames z6
  have h7 : Same w r z6 := same_if (noteChanFail_same (sub rfl hw) h3) h3
  try clear_value z6
  exact same_if (set_2000 (sub rfl hw) h7) (same_if (startRecovery_same (sub rfl hw) h7) (set_2000 (sub rfl hw) h7))
theorem judgeFrom_same {x0 x1} {s : State} (hw : Sub 0x2bffbdf6 w) (hk : Same w r s) : Same w r (judgeFrom x0 x1 s) := by
  induction x1 generalizing s with
  | nil => exact hk
  | cons p l ih =>
    unfold judgeFrom
    refine same_if hk ?_
    extract_lets x a b s1
    have h0 : Same w r a := State_modRch_same (sub rfl hw) hk
    have h1 : Same w r s1 := set_2000 (sub rfl hw) h0
    clear_value s1
    split
    · exact ih h1
    · exact judgeRow_same (sub rfl hw) h1
theorem judge_same {x0} {S1 : State} (hw : Sub 0x2bffbdf6 w) (hk : Same w r S1) : Same w r (judge x0 S1) :=
  judgeFrom_same (sub rfl hw) hk
theorem execCwoJudged_same {x0} {S1 : State} (hw : Sub 0x2bffbdf6 w) (hk : Same w r S1) : OutSame w r (execCwoJudged x0 S1) :=
  next_same (sub rfl hw) (judge_same (sub rfl hw) hk)
theorem fenceTimeout_same {S0 : State} (hw : Sub 0x2bc73dd6 w) (hk : Same w r S0) : Same w r (fenceTimeout S0) :=
  same_if (startRecovery_same (sub rfl hw) hk) hk
theorem execFenceTimeout_same {S0 : State} (hw : Sub 0x2bc73dd6 w) (hk : Same w r S0) : OutSame w r (execFenceTimeout S0) :=
  next_same (sub rfl hw) (fenceTimeout_same (sub rfl hw) hk)
theorem runUp_same {S0 : State} (hw : Sub 0x1802016 w) (hk : Same w r S0) : Same w r (runUp S0) :=
  beginMove_same (sub rfl hw) hk
theorem tapeRestart_same {S0 : State} (hw : Sub 0x1802016 w) (hk : Same w r S0) : Same w r (tapeRestart S0) :=
  same_if (runUp_same (sub rfl hw) hk) hk
theorem execTapeRestart_same {S0 : State} (hw : Sub 0x1802016 w) (hk : Same w r S0) : OutSame w r (execTapeRestart S0) :=
  next_same (sub rfl hw) (tapeRestart_same (sub rfl hw) hk)
theorem maxWait_same {S0 : State} (hw : Sub 0x1802016 w) (hk : Same w r S0) : Same w r (maxWait S0) :=
  same_if (runUp_same (sub rfl hw) hk) hk
theorem execMaxWaitExpiry_same {S0 : State} (hw : Sub 0x1802016 w) (hk : Same w r S0) : OutSame w r (execMaxWaitExpiry S0) :=
  next_same (sub rfl hw) (maxWait_same (sub rfl hw) hk)

/-! ### Servo -/

theorem fence_same {x0} {S1 : State} (hw : Sub 0x2bc73dd6 w) (hk : Same w r S1) : Same w r (fence x0 S1) := by
  unfold fence
  extract_lets -merge -underBinder +onlyGivenNames _ z0
  have h1 : Same w r z0 := set_800000 (sub rfl hw) hk
  try clear_value z0
  exact same_if h1 (gateDrop_same (sub rfl hw) (raiseEv_same (sub rfl hw) (set_800000 (sub rfl hw) h1)))
theorem judgeFence_same {x0} {S1 : State} (hw : Sub 0x2bc73dd6 w) (hk : Same w r S1) : Same w r (judgeFence x0 S1) :=
  same_if (fence_same (sub rfl hw) hk) (same_if (same_if (fence_same (sub rfl hw) hk) hk) (same_if (same_if (fence_same (sub rfl hw) hk) hk) (same_if (set_800000 (sub rfl hw) hk) hk)))
theorem enterSearch_same {S0 : State} (hw : Sub 0x2bc73dd6 w) (hk : Same w r S0) : Same w r (enterSearch S0) := by
  unfold enterSearch
  extract_lets -merge -underBinder +onlyGivenNames z0
  have h1 : Same w r z0 := judgeFence_same (sub rfl hw) (startSearch_same (sub rfl hw) hk)
  try clear_value z0
  split
  · exact startRecovery_same (sub rfl hw) h1
  · exact set_2000 (sub rfl hw) (beginStop_same (sub rfl hw) h1)
  · exact set_2000 (sub rfl hw) (beginStop_same (sub rfl hw) h1)
  · exact h1
theorem countFrame_same {S0 : State} (hw : Sub 0x2000 w) (hk : Same w r S0) : Same w r (countFrame S0) :=
  set_2000 (sub rfl hw) hk
theorem runUpAt_same {S0 : State} (hw : Sub 0x1000000 w) (hk : Same w r S0) : Same w r (runUpAt S0) := by
  refine same_if hk ?_
  split
  · exact hk
  · exact same_if (set_1000000 (sub rfl hw) hk) hk
theorem l2Sample_same {S0 : State} (hw : Sub 0x1800000 w) (hk : Same w r S0) : Same w r (l2Sample S0) :=
  same_if hk (runLoop_same (sub rfl hw) (set_800000 (sub rfl hw) (same_if (set_1000000 (sub rfl hw) (bankSwap_same (sub rfl hw) hk)) hk)))
theorem l3Sample_same {S0 : State} (hw : Sub 0x1800000 w) (hk : Same w r S0) : Same w r (l3Sample S0) :=
  same_if hk (runLoop_same (sub rfl hw) (set_800000 (sub rfl hw) hk))
theorem execL3Sample_same {S0 : State} (hw : Sub 0x1800000 w) (hk : Same w r S0) : OutSame w r (execL3Sample S0) :=
  next_same (sub rfl hw) (l3Sample_same (sub rfl hw) hk)
theorem frameDecided_same {x0} {S1 : State} (hw : Sub 0x2bc73dd6 w) (hk : Same w r S1) : Same w r (frameDecided x0 S1) := by
  refine same_if hk ?_
  try extract_lets -merge -underBinder +onlyGivenNames z0
  try clear_value z0
  try extract_lets -merge -underBinder +onlyGivenNames z1
  try clear_value z1
  refine same_if hk ?_
  try extract_lets -merge -underBinder +onlyGivenNames z2
  try clear_value z2
  try extract_lets -merge -underBinder +onlyGivenNames z3
  try clear_value z3
  try extract_lets -merge -underBinder +onlyGivenNames z4
  try clear_value z4
  try extract_lets -merge -underBinder +onlyGivenNames z5
  try clear_value z5
  try extract_lets -merge -underBinder +onlyGivenNames z6
  try clear_value z6
  try extract_lets -merge -underBinder +onlyGivenNames z7
  try clear_value z7
  extract_lets -merge -underBinder +onlyGivenNames z8
  have h9 : Same w r z8 := runUpAt_same (sub rfl hw) (countFrame_same (sub rfl hw) (set_800000 (sub rfl hw) hk))
  try clear_value z8
  exact l2Sample_same (sub rfl hw) (judgeFence_same (sub rfl hw) h9)
theorem execServoFrameDecided_same {x0} {S1 : State} (hw : Sub 0x2bc73dd6 w) (hk : Same w r S1) : OutSame w r (execServoFrameDecided x0 S1) :=
  next_same (sub rfl hw) (frameDecided_same (sub rfl hw) hk)
theorem frameMissed_same {S0 : State} (hw : Sub 0x2bc73dd6 w) (hk : Same w r S0) : Same w r (frameMissed S0) := by
  refine same_if hk ?_
  try extract_lets -merge -underBinder +onlyGivenNames z0
  try clear_value z0
  try extract_lets -merge -underBinder +onlyGivenNames z1
  try clear_value z1
  try extract_lets -merge -underBinder +onlyGivenNames z2
  try clear_value z2
  extract_lets -merge -underBinder +onlyGivenNames z3
  have h4 : Same w r z3 := runUpAt_same (sub rfl hw) (countFrame_same (sub rfl hw) (set_800000 (sub rfl hw) hk))
  try clear_value z3
  try extract_lets -merge -underBinder +onlyGivenNames z8
  try clear_value z8
  extract_lets -merge -underBinder +onlyGivenNames _ _ z9
  have h10 : Same w r z9 := same_if h4 (same_if (enterSearch_same (sub rfl hw) h4) (same_if (judgeFence_same (sub rfl hw) (set_800000 (sub rfl hw) h4)) (set_800000 (sub rfl hw) h4)))
  try clear_value z9
  exact l2Sample_same (sub rfl hw) h10
theorem execFrameMissed_same {S0 : State} (hw : Sub 0x2bc73dd6 w) (hk : Same w r S0) : OutSame w r (execFrameMissed S0) :=
  next_same (sub rfl hw) (frameMissed_same (sub rfl hw) hk)
theorem pafltAssert_same {x0} {S1 : State} (hw : Sub 0x2000 w) (hk : Same w r S1) : Same w r (pafltAssert x0 S1) :=
  markTier_same (sub rfl hw) (set_2000 (sub rfl hw) hk)
theorem execPafltAssert_same {x0} {S1 : State} (hw : Sub 0x2000 w) (hk : Same w r S1) : OutSame w r (execPafltAssert x0 S1) :=
  next_same (sub rfl hw) (pafltAssert_same (sub rfl hw) hk)
theorem pafltDeassert_same {x0} {S1 : State} (hw : Sub 0x2000 w) (hk : Same w r S1) : Same w r (pafltDeassert x0 S1) :=
  set_2000 (sub rfl hw) hk
theorem execPafltDeassert_same {x0} {S1 : State} (hw : Sub 0x2000 w) (hk : Same w r S1) : OutSame w r (execPafltDeassert x0 S1) :=
  next_same (sub rfl hw) (pafltDeassert_same (sub rfl hw) hk)

/-! ### Motion -/

theorem failMoves_same {S0 : State} (hw : Sub 0x80001c0 w) (hk : Same w r S0) : Same w r (failMoves S0) := by
  unfold failMoves
  extract_lets -merge -underBinder +onlyGivenNames z0
  have h1 : Same w r z0 := same_foldl (fun _ _ h5 => same_foldl (fun _ _ h6 => same_if (same_if (complete_same (sub rfl hw) h6) (completeSt_same (sub rfl hw) h6)) h6) h5) hk
  try clear_value z0
  refine same_foldl (fun _ _ h7 => ?_) h1
  split
  · exact completeSt_same (sub rfl hw) h7
  · exact completeSt_same (sub rfl hw) h7
  · exact completeSt_same (sub rfl hw) h7
  · exact h7
theorem motionFault_same {x0 x1} {S2 : State} (hw : Sub 0x2bc73dd6 w) (hk : Same w r S2) : Same w r (motionFault x0 x1 S2) := by
  unfold motionFault
  extract_lets -merge -underBinder +onlyGivenNames _ _ z0
  have h1 : Same w r z0 := brakeReels_same (sub rfl hw) (set_1002000 (sub rfl hw) hk)
  try clear_value z0
  extract_lets -merge -underBinder +onlyGivenNames z8
  have h9 : Same w r z8 := raiseEv_same (sub rfl hw) h1
  try clear_value z8
  refine same_if (startRecovery_same (sub rfl hw) (set_2000 (sub rfl hw) h9)) ?_
  extract_lets -merge -underBinder +onlyGivenNames _ _ z12
  have h13 : Same w r z12 := failMoves_same (sub rfl hw) (set_402000 (sub rfl hw) h9)
  try clear_value z12
  exact same_if (setMode_same (sub rfl hw) h13) h13
theorem l1Sample_same {x0} {S1 : State} (hw : Sub 0x2bc73dd6 w) (hk : Same w r S1) : Same w r (l1Sample x0 S1) := by
  refine same_if hk ?_
  try extract_lets -merge -underBinder +onlyGivenNames z0
  try clear_value z0
  try extract_lets -merge -underBinder +onlyGivenNames z1
  try clear_value z1
  try extract_lets -merge -underBinder +onlyGivenNames z2
  try clear_value z2
  try extract_lets -merge -underBinder +onlyGivenNames z3
  try clear_value z3
  extract_lets -merge -underBinder +onlyGivenNames _ z4
  have h5 : Same w r z4 := set_1000000 (sub rfl hw) hk
  try clear_value z4
  refine same_if h5 ?_
  try extract_lets -merge -underBinder +onlyGivenNames z15
  try clear_value z15
  extract_lets -merge -underBinder +onlyGivenNames z16
  have h17 : Same w r z16 := runLoop_same (sub rfl hw) h5
  try clear_value z16
  try extract_lets -merge -underBinder +onlyGivenNames z21
  try clear_value z21
  extract_lets -merge -underBinder +onlyGivenNames _ z22
  have h23 : Same w r z22 := set_1000000 (sub rfl hw) h17
  try clear_value z22
  exact same_if (motionFault_same (sub rfl hw) (set_1000000 (sub rfl hw) h23)) h23
theorem execL1Sample_same {x0} {S1 : State} (hw : Sub 0x2bc73dd6 w) (hk : Same w r S1) : OutSame w r (execL1Sample x0 S1) :=
  next_same (sub rfl hw) (l1Sample_same (sub rfl hw) hk)
theorem l0Sample_same {S0 : State} (hw : Sub 0x2bc73dd6 w) (hk : Same w r S0) : Same w r (l0Sample S0) := by
  refine same_if hk ?_
  extract_lets -merge -underBinder +onlyGivenNames _ z0
  have h1 : Same w r z0 := set_1000000 (sub rfl hw) hk
  try clear_value z0
  try extract_lets -merge -underBinder +onlyGivenNames z21
  try clear_value z21
  extract_lets -merge -underBinder +onlyGivenNames z22
  have h23 : Same w r z22 := runLoop_same (sub rfl hw) h1
  try clear_value z22
  extract_lets -merge -underBinder +onlyGivenNames _ z32
  have h33 : Same w r z32 := same_if (set_1000000 (sub rfl hw) h23) h23
  try clear_value z32
  try extract_lets -merge -underBinder +onlyGivenNames z37
  try clear_value z37
  extract_lets -merge -underBinder +onlyGivenNames _ z38
  have h39 : Same w r z38 := set_1000000 (sub rfl hw) h33
  try clear_value z38
  exact same_if (motionFault_same (sub rfl hw) (set_1000000 (sub rfl hw) h39)) h39
theorem endPeriod_same {S0 : State} (hw : Sub 0x2bc73dd6 w) (hk : Same w r S0) : Same w r (endPeriod S0) :=
  same_if hk (sendFrame_same (sub rfl hw) (l0Sample_same (sub rfl hw) (set_1000000 (sub rfl hw) hk)))
theorem mlsync_same {S0 : State} (hw : Sub 0x2bc73dd6 w) (hk : Same w r S0) : Same w r (mlsync S0) :=
  same_if hk (set_1000000 (sub rfl hw) (endPeriod_same (sub rfl hw) hk))
theorem execMlsync_same {S0 : State} (hw : Sub 0x2bc73dd6 w) (hk : Same w r S0) : OutSame w r (execMlsync S0) :=
  next_same (sub rfl hw) (mlsync_same (sub rfl hw) hk)
theorem badInFrame_same {S0 : State} (hw : Sub 0x2bc73dd6 w) (hk : Same w r S0) : Same w r (badInFrame S0) := by
  unfold badInFrame
  extract_lets -merge -underBinder +onlyGivenNames _ z0
  have h1 : Same w r z0 := set_1000000 (sub rfl hw) hk
  try clear_value z0
  exact same_if (motionFault_same (sub rfl hw) h1) h1
theorem inFrame_same {x0} {S1 : State} (hw : Sub 0x2bc73dd6 w) (hk : Same w r S1) : Same w r (inFrame x0 S1) :=
  same_if hk (same_if (endPeriod_same (sub rfl hw) (set_1000000 (sub rfl hw) hk)) (endPeriod_same (sub rfl hw) (badInFrame_same (sub rfl hw) (set_1000000 (sub rfl hw) hk))))
theorem execInFrame_same {x0} {S1 : State} (hw : Sub 0x2bc73dd6 w) (hk : Same w r S1) : OutSame w r (execInFrame x0 S1) :=
  next_same (sub rfl hw) (inFrame_same (sub rfl hw) hk)
theorem inFrameAbsent_same {S0 : State} (hw : Sub 0x2bc73dd6 w) (hk : Same w r S0) : Same w r (inFrameAbsent S0) :=
  same_if hk (endPeriod_same (sub rfl hw) (badInFrame_same (sub rfl hw) (set_1000000 (sub rfl hw) hk)))
theorem execInFrameAbsent_same {S0 : State} (hw : Sub 0x2bc73dd6 w) (hk : Same w r S0) : OutSame w r (execInFrameAbsent S0) :=
  next_same (sub rfl hw) (inFrameAbsent_same (sub rfl hw) hk)
theorem setSpeed_same {x0} {S1 : State} (hw : Sub 0x2010 w) (hk : Same w r S1) : Same w r (setSpeed x0 S1) :=
  same_if hk (raiseEv_same (sub rfl hw) (set_2000 (sub rfl hw) hk))
theorem rampEnd_same {S0 : State} (hw : Sub 0x1002010 w) (hk : Same w r S0) : Same w r (rampEnd S0) := by
  refine same_if hk ?_
  extract_lets -merge -underBinder +onlyGivenNames _ _ z0
  have h1 : Same w r z0 := set_1002000 (sub rfl hw) hk
  try clear_value z0
  refine same_if h1 ?_
  split
  · exact setSpeed_same (sub rfl hw) h1
  · exact h1
theorem execRampEnd_same {S0 : State} (hw : Sub 0x1002010 w) (hk : Same w r S0) : OutSame w r (execRampEnd S0) :=
  next_same (sub rfl hw) (rampEnd_same (sub rfl hw) hk)
theorem applyMotion_same {S0 : State} (hw : Sub 0x1000000 w) (hk : Same w r S0) : Same w r (applyMotion S0) :=
  same_if hk (set_1000000 (sub rfl hw) hk)
theorem resetIsland_same {S0 : State} (hw : Sub 0x1000004 w) (hk : Same w r S0) : Same w r (resetIsland S0) :=
  powerFor_same (sub rfl hw) (set_1000000 (sub rfl hw) hk)
theorem afterStop_same {S0 : State} (hw : Sub 0x1802016 w) (hk : Same w r S0) : Same w r (afterStop S0) := by
  refine same_if (applyMotion_same (sub rfl hw) (resetIsland_same (sub rfl hw) hk)) ?_
  refine same_if ?_ ?_
  · split
    · exact beginMove_same (sub rfl hw) hk
    · exact beginMove_same (sub rfl hw) hk
    · exact beginMove_same (sub rfl hw) hk
    · exact set_2000 (sub rfl hw) hk
  · refine same_if (beginMove_same (sub rfl hw) hk) ?_
    split
    · exact same_if hk (setMode_same (sub rfl hw) hk)
    · exact same_if hk (setMode_same (sub rfl hw) hk)
    · exact setMode_same (sub rfl hw) hk
    · exact hk
theorem tapeStopped_same {S0 : State} (hw : Sub 0x1802016 w) (hk : Same w r S0) : Same w r (tapeStopped S0) :=
  same_if (afterStop_same (sub rfl hw) (setSpeed_same (sub rfl hw) (set_1002000 (sub rfl hw) (same_if (writePreamps_same (sub rfl hw) hk) hk)))) hk
theorem execTapeStopped_same {S0 : State} (hw : Sub 0x1802016 w) (hk : Same w r S0) : OutSame w r (execTapeStopped S0) :=
  next_same (sub rfl hw) (tapeStopped_same (sub rfl hw) hk)
theorem motionStop_same {S0 : State} (hw : Sub 0x1002000 w) (hk : Same w r S0) : Same w r (motionStop S0) :=
  beginStop_same (sub rfl hw) (set_2000 (sub rfl hw) hk)
theorem execMotionStop_same {x0} {S1 : State} (hw : Sub 0x1002000 w) (hk : Same w r S1) : OutSame w r (execMotionStop x0 S1) :=
  next_same (sub rfl hw) (same_if (motionStop_same (sub rfl hw) hk) hk)
theorem motionBrake_same {S0 : State} (hw : Sub 0x1802010 w) (hk : Same w r S0) : Same w r (motionBrake S0) :=
  brakeReels_same (sub rfl hw) (set_2000 (sub rfl hw) hk)
theorem execMotionBrake_same {x0} {S1 : State} (hw : Sub 0x1802010 w) (hk : Same w r S1) : OutSame w r (execMotionBrake x0 S1) :=
  next_same (sub rfl hw) (same_if (motionBrake_same (sub rfl hw) hk) hk)

/-! ### RingRecv -/

theorem sendAck_same {x0} {S1 : State} (hw : Sub 0x2000000 w) (hk : Same w r S1) : Same w r (sendAck x0 S1) :=
  State_modPort_same (sub rfl hw) (emitFrame_same (sub rfl hw) hk)
theorem sendNak_same {x0} {S1 : State} (hw : Sub 0x2000000 w) (hk : Same w r S1) : Same w r (sendNak x0 S1) :=
  same_if hk (State_modPort_same (sub rfl hw) (emitFrame_same (sub rfl hw) hk))
theorem acceptFrame_same {x0} {S1 : State} (hw : Sub 0x2000000 w) (hk : Same w r S1) : Same w r (acceptFrame x0 S1) := by
  unfold acceptFrame
  extract_lets -merge -underBinder +onlyGivenNames z0
  have h1 : Same w r z0 := State_modPort_same (sub rfl hw) hk
  try clear_value z0
  exact same_if (sendAck_same (sub rfl hw) h1) h1
theorem forwardFrame_same {x0 x1} {S2 : State} (hw : Sub 0x2000000 w) (hk : Same w r S2) : Same w r (forwardFrame x0 x1 S2) :=
  same_if hk (enqueueFrame_same (sub rfl hw) hk)
theorem passDamaged_same {x0 x1} {S2 : State} (hw : Sub 0x2000000 w) (hk : Same w r S2) : Same w r (passDamaged x0 x1 S2) :=
  same_if hk (State_modPort_same (sub rfl hw) hk)
theorem dropFrame_same {x0 x1} {S2 : State} (hw : Sub 0x2000000 w) (hk : Same w r S2) : Same w r (dropFrame x0 x1 S2) :=
  sendNak_same (sub rfl hw) (passDamaged_same (sub rfl hw) hk)
theorem failFrame_same {x0 x1 x2} {S3 : State} (hw : Sub 0xb7ebdf6 w) (hk : Same w r S3) : Same w r (failFrame x0 x1 x2 S3) :=
  same_foldl (fun _ _ h4 => strike_same (sub rfl hw) h4) (dropFrame_same (sub rfl hw) (State_modPort_same (sub rfl hw) hk))
theorem receive_same {x0 x1 x2 x3 x4 x5} {S6 : State} (hw : Sub 0xb7ebdf6 w) (hx5 : ∀ s, Same w r s → Same w r (x5 s)) (hk : Same w r S6) : Same w r (receive x0 x1 x2 x3 x4 x5 S6) :=
  same_if hk (same_if (failFrame_same (sub rfl hw) hk) (same_if hk (same_if (dropFrame_same (sub rfl hw) hk) (same_if (sendNak_same (sub rfl hw) hk) (hx5 _ (acceptFrame_same (sub rfl hw) hk))))))
theorem receiveAck_same {x0 x1 x2 x3 x4} {S5 : State} (hw : Sub 0xb7ebdf6 w) (hx4 : ∀ s, Same w r s → Same w r (x4 s)) (hk : Same w r S5) : Same w r (receiveAck x0 x1 x2 x3 x4 S5) :=
  same_if hk (same_if (failFrame_same (sub rfl hw) hk) (same_if hk (same_if (dropFrame_same (sub rfl hw) hk) (hx4 _ hk))))
theorem routed_same {x0 x1 x2} {S3 : State} (hw : Sub 0x2000000 w) (hx2 : ∀ s, Same w r s → Same w r (x2 s)) (hk : Same w r S3) : Same w r (routed x0 x1 x2 S3) :=
  same_if (same_if hk (hx2 _ (forwardFrame_same (sub rfl hw) hk))) (same_if (hx2 _ hk) (same_if hk (forwardFrame_same (sub rfl hw) hk)))
theorem unlessStrange_same {x0 x1} {S2 : State} (hw : Sub 0x0 w) (hx1 : ∀ s, Same w r s → Same w r (x1 s)) (hk : Same w r S2) : Same w r (unlessStrange x0 x1 S2) :=
  same_if hk (hx1 _ hk)
theorem ofGroup_same {x0 x1} {S2 : State} (hw : Sub 0x0 w) (hx1 : ∀ s, Same w r s → Same w r (x1 s)) (hk : Same w r S2) : Same w r (ofGroup x0 x1 S2) :=
  same_if hk (unlessStrange_same (sub rfl hw) (fun _ h0 => hx1 _ h0) hk)

/-! ### Tape -/

theorem judgeMarks_same {S0 : State} (hw : Sub 0x2000 w) (hk : Same w r S0) : Same w r (judgeMarks S0) :=
  set_2000 (sub rfl hw) hk
theorem chooseSpeed_same {S0 : State} (hw : Sub 0x2000 w) (hk : Same w r S0) : Same w r (chooseSpeed S0) :=
  set_2000 (sub rfl hw) hk
theorem firstUse_same {x0} {S1 : State} (hw : Sub 0x100000 w) (hk : Same w r S1) : Same w r (firstUse x0 S1) :=
  same_foldl (fun _ _ h0 => same_if h0 (coldStart_same (sub rfl hw) h0)) hk
theorem enterZone_same {x0} {S1 : State} (hw : Sub 0x100000 w) (hk : Same w r S1) : Same w r (enterZone x0 S1) :=
  same_if (firstUse_same (sub rfl hw) hk) (coldStartAll_same (sub rfl hw) hk)
theorem openGate_same {S0 : State} (hw : Sub 0x1b02016 w) (hk : Same w r S0) : Same w r (openGate S0) :=
  set_1000000 (sub rfl hw) (setSpeed_same (sub rfl hw) (acquireAll_same (sub rfl hw) (set_a02000 (sub rfl hw) (enterZone_same (sub rfl hw) (setMode_same (sub rfl hw) hk)))))
theorem beginReading_same {x0} {S1 : State} (hw : Sub 0x1f02016 w) (hk : Same w r S1) : Same w r (beginReading x0 S1) := by
  unfold beginReading
  extract_lets -merge -underBinder +onlyGivenNames z0
  have h1 : Same w r z0 := setMode_same (sub rfl hw) hk
  try clear_value z0
  try extract_lets -merge -underBinder +onlyGivenNames z19
  try clear_value z19
  extract_lets -merge -underBinder +onlyGivenNames _ _ _ z20
  have h21 : Same w r z20 := set_c02000 (sub rfl hw) h1
  try clear_value z20
  try extract_lets -merge -underBinder +onlyGivenNames z29
  try clear_value z29
  extract_lets -merge -underBinder +onlyGivenNames z30
  have h31 : Same w r z30 := acquireAll_same (sub rfl hw) (same_if (coldStartAll_same (sub rfl hw) h21) (enterZone_same (sub rfl hw) h21))
  try clear_value z30
  exact set_1000000 (sub rfl hw) (setSpeed_same (sub rfl hw) (set_200000 (sub rfl hw) h31))
theorem endMoves_same {S0 : State} (hw : Sub 0x80001c0 w) (hk : Same w r S0) : Same w r (endMoves S0) := by
  refine same_foldl (fun _ _ h0 => ?_) hk
  refine same_foldl (fun _ _ h1 => ?_) h0
  split
  · exact complete_same (sub rfl hw) h1
  · exact h1
theorem positionReached_same {x0} {S1 : State} (hw : Sub 0x9f721d6 w) (hk : Same w r S1) : Same w r (positionReached x0 S1) := by
  refine same_if ?_ (same_if (beginReading_same (sub rfl hw) hk) hk)
  split
  · exact openGate_same (sub rfl hw) (dropJobs_same (sub rfl hw) hk)
  · exact openGate_same (sub rfl hw) (dropJobs_same (sub rfl hw) (rewind_same (sub rfl hw) hk))
  · exact same_if (openGate_same (sub rfl hw) (chooseSpeed_same (sub rfl hw) hk)) (beginReading_same (sub rfl hw) hk)
  · exact beginReading_same (sub rfl hw) hk
  · exact beginReading_same (sub rfl hw) hk
  · exact endTapeWork_same (sub rfl hw) hk
  · exact beginStop_same (sub rfl hw) (endMoves_same (sub rfl hw) (set_c00000 (sub rfl hw) hk))
  · exact beginStop_same (sub rfl hw) (endMoves_same (sub rfl hw) (set_c00000 (sub rfl hw) hk))
theorem execPositionReached_same {x0} {S1 : State} (hw : Sub 0x9f721d6 w) (hk : Same w r S1) : OutSame w r (execPositionReached x0 S1) :=
  next_same (sub rfl hw) (positionReached_same (sub rfl hw) hk)
theorem readAheadRestart_same {S0 : State} (hw : Sub 0x1c02016 w) (hk : Same w r S0) : Same w r (readAheadRestart S0) :=
  same_if (beginMove_same (sub rfl hw) (set_400000 (sub rfl hw) hk)) hk
theorem execReadAheadRestart_same {S0 : State} (hw : Sub 0x1c02016 w) (hk : Same w r S0) : OutSame w r (execReadAheadRestart S0) :=
  next_same (sub rfl hw) (readAheadRestart_same (sub rfl hw) hk)
theorem measurePace_same {x0} {S1 : State} (hw : Sub 0x8000 w) (hk : Same w r S1) : Same w r (measurePace x0 S1) :=
  set_8000 (sub rfl hw) hk
theorem closeRatio_same {S0 : State} (hw : Sub 0x1000 w) (hk : Same w r S0) : Same w r (closeRatio S0) :=
  set_1000 (sub rfl hw) hk
theorem decideSpeed_same {S0 : State} (hw : Sub 0x2000 w) (hk : Same w r S0) : Same w r (decideSpeed S0) :=
  chooseSpeed_same (sub rfl hw) (judgeMarks_same (sub rfl hw) (set_2000 (sub rfl hw) hk))
theorem decideEffort_same {x0} {S1 : State} (hw : Sub 0x3000 w) (hk : Same w r S1) : Same w r (decideEffort x0 S1) :=
  same_if (set_2000 (sub rfl hw) hk) (same_if (set_3000 (sub rfl hw) hk) (same_if (set_3000 (sub rfl hw) hk) (set_2000 (sub rfl hw) hk)))
theorem followRead_same {S0 : State} (hw : Sub 0x1002000 w) (hk : Same w r S0) : Same w r (followRead S0) :=
  same_if (set_1002000 (sub rfl hw) hk) hk
theorem paceWindowEnd_same {x0 x1} {S2 : State} (hw : Sub 0x900b1d0 w) (hk : Same w r S2) : Same w r (paceWindowEnd x0 x1 S2) := by
  unfold paceWindowEnd
  split
  · exact hk
  · exact hk
  · exact hk
  · extract_lets -merge -underBinder +onlyGivenNames z0
    have h1 : Same w r z0 := same_if (followRead_same (sub rfl hw) (publishCeilings_same (sub rfl hw) (measurePace_same (sub rfl hw) hk))) hk
    try clear_value z0
    exact takeShares_same (sub rfl hw) (decideEffort_same (sub rfl hw) (decideSpeed_same (sub rfl hw) (closeRatio_same (sub rfl hw) h1)))
theorem execPaceWindowEnd_same {x0 x1} {S2 : State} (hw : Sub 0x900b1d0 w) (hk : Same w r S2) : OutSame w r (execPaceWindowEnd x0 x1 S2) :=
  next_same (sub rfl hw) (paceWindowEnd_same (sub rfl hw) hk)

/-! ### RingServe -/

theorem State_modRdDs_same {S0 : State} {x1 x2} (hw : Sub 0x400000 w) (hk : Same w r S0) : Same w r (State.modRdDs S0 x1 x2) :=
  set_400000 (sub rfl hw) hk
theorem serveReq_same {x0} {S1 : State} {x2} (hw : Sub 0x2000000 w) (hk : Same w r S1) : Same w r (serveReq x0 S1 x2) :=
  same_foldl (fun _ _ h0 => sendTo_same (sub rfl hw) h0) hk
theorem serveAll_same {S0 : State} (hw : Sub 0x2400000 w) (hk : Same w r S0) : Same w r (serveAll S0) := by
  refine same_foldl (fun _ _ h0 => ?_) hk
  extract_lets -merge -underBinder +onlyGivenNames z1
  have h2 : ∀ y3, Same w r y3 → Same w r (z1 y3) := by
    intro y3 hy
    exact set_2000000 (sub rfl hw) hy
  clear_value z1
  split
  · exact same_if (State_modRdAt_same (sub rfl hw) (serveReq_same (sub rfl hw) (h2 _ h0))) h0
  · exact same_if (serveReq_same (sub rfl hw) (h2 _ h0)) h0
theorem askRows_same {x0 x1 x2 x3} {S4 : State} (hw : Sub 0x2000000 w) (hk : Same w r S4) : Same w r (askRows x0 x1 x2 x3 S4) :=
  same_if hk (tellPos_same (sub rfl hw) (set_2000000 (sub rfl hw) hk))
theorem requestStripe_same {x0} {S1 : State} (hw : Sub 0x2400000 w) (hk : Same w r S1) : Same w r (requestStripe x0 S1) :=
  same_if hk (same_foldl (fun _ _ h0 => same_if h0 (askRows_same (sub rfl hw) (set_400000 (sub rfl hw) h0))) hk)
theorem noteRebuild_same {x0} {S1 : State} (hw : Sub 0x2000010 w) (hk : Same w r S1) : Same w r (noteRebuild x0 S1) :=
  same_if hk (raiseEv_same (sub rfl hw) (set_2000000 (sub rfl hw) hk))
theorem loseRows_same {x0 x1} {S2 : State} (hw : Sub 0x400000 w) (hk : Same w r S2) : Same w r (loseRows x0 x1 S2) :=
  same_foldl (fun _ _ h0 => State_modRdAt_same (sub rfl hw) h0) hk
theorem rebuildRow_same {x0 x1} {S2 : State} (hw : Sub 0x2400010 w) (hk : Same w r S2) : Same w r (rebuildRow x0 x1 S2) := by
  unfold rebuildRow
  try extract_lets -merge -underBinder +onlyGivenNames z0
  try clear_value z0
  try extract_lets -merge -underBinder +onlyGivenNames z1
  try clear_value z1
  try extract_lets -merge -underBinder +onlyGivenNames z2
  try clear_value z2
  refine same_if hk ?_
  try extract_lets -merge -underBinder +onlyGivenNames z3
  try clear_value z3
  try extract_lets -merge -underBinder +onlyGivenNames z4
  try clear_value z4
  try extract_lets -merge -underBinder +onlyGivenNames z5
  try clear_value z5
  refine same_if (loseRows_same (sub rfl hw) hk) ?_
  refine same_if (same_foldl (fun _ _ h6 => same_if h6 (askRows_same (sub rfl hw) h6)) hk) ?_
  try extract_lets -merge -underBinder +onlyGivenNames z8
  try clear_value z8
  split
  · exact loseRows_same (sub rfl hw) hk
  · exact same_foldl (fun _ _ h9 => State_modRdAt_same (sub rfl hw) h9) (noteRebuild_same (sub rfl hw) hk)
theorem finishRemote_same {x0 x1} {S2 : State} (hw : Sub 0x400000 w) (hk : Same w r S2) : Same w r (finishRemote x0 x1 S2) := by
  unfold finishRemote
  split
  · exact hk
  · exact same_if hk (State_modRdAt_same (sub rfl hw) hk)
theorem settleRow_same {x0 x1} {S2 : State} (hw : Sub 0x2b7ebdf6 w) (hk : Same w r S2) : Same w r (settleRow x0 x1 S2) := by
  unfold settleRow
  extract_lets -merge -underBinder +onlyGivenNames z0
  have h1 : Same w r z0 := rebuildRow_same (sub rfl hw) hk
  try clear_value z0
  extract_lets -merge -underBinder +onlyGivenNames z6
  have h7 : Same w r z6 := same_foldl (fun _ _ h9 => same_if h9 (finishRemote_same (sub rfl hw) h9)) h1
  try clear_value z6
  exact pumpReads_same (sub rfl hw) h7
theorem takeRow_same {x0 x1 x2 x3} {S4 : State} (hw : Sub 0x2b7ebdf6 w) (hk : Same w r S4) : Same w r (takeRow x0 x1 x2 x3 S4) := by
  unfold takeRow
  try extract_lets -merge -underBinder +onlyGivenNames z0
  try clear_value z0
  try extract_lets -merge -underBinder +onlyGivenNames z1
  try clear_value z1
  refine same_if hk ?_
  extract_lets -merge -underBinder +onlyGivenNames z2
  have h3 : Same w r z2 := by
    unfold z2
    split
    · exact same_if (State_modRdAt_same (sub rfl hw) hk) (set_2000000 (sub rfl hw) hk)
    · exact set_2000000 (sub rfl hw) hk
  try clear_value z2
  exact settleRow_same (sub rfl hw) h3
theorem rebuildOwn_same {x0} {S1 : State} (hw : Sub 0x2400010 w) (hk : Same w r S1) : Same w r (rebuildOwn x0 S1) := by
  unfold rebuildOwn
  split
  · exact hk
  · exact finishRemote_same (sub rfl hw) (same_foldl (fun _ _ h3 => rebuildRow_same (sub rfl hw) h3) (requestStripe_same (sub rfl hw) (set_2000000 (sub rfl hw) hk)))
theorem loseReads_same {S0 : State} (hw : Sub 0x2b7ebdf6 w) (hk : Same w r S0) : Same w r (loseReads S0) :=
  same_foldl (fun _ _ h1 => same_if (same_foldl (fun _ _ h2 => settleRow_same (sub rfl hw) h2) h1) h1) hk
theorem askAgain_same {S0 : State} (hw : Sub 0x2000000 w) (hk : Same w r S0) : Same w r (askAgain S0) := by
  refine same_foldl (fun _ _ h0 => ?_) hk
  try extract_lets -merge -underBinder +onlyGivenNames z1
  try clear_value z1
  split
  · exact tellPos_same (sub rfl hw) h0
  · exact h0

/-! ### ReadChan -/

theorem writeCommit_same {x0 x1} {S2 : State} (hw : Sub 0x4000 w) (hk : Same w r S2) : Same w r (writeCommit x0 x1 S2) :=
  set_4000 (sub rfl hw) hk
theorem execWriteSetCommit_same {x0 x1} {S2 : State} (hw : Sub 0x4000 w) (hk : Same w r S2) : OutSame w r (execWriteSetCommit x0 x1 S2) :=
  next_same (sub rfl hw) (same_if (writeCommit_same (sub rfl hw) hk) hk)
theorem readCommit_same {x0 x1} {S2 : State} (hw : Sub 0x100000 w) (hk : Same w r S2) : Same w r (readCommit x0 x1 S2) :=
  set_100000 (sub rfl hw) hk
theorem execReadSetCommit_same {x0 x1} {S2 : State} (hw : Sub 0x100000 w) (hk : Same w r S2) : OutSame w r (execReadSetCommit x0 x1 S2) :=
  next_same (sub rfl hw) (same_if (readCommit_same (sub rfl hw) hk) hk)
theorem writeCommitAll_same {x0} {S1 : State} (hw : Sub 0x6000 w) (hk : Same w r S1) : Same w r (writeCommitAll x0 S1) :=
  same_foldl (fun _ _ h0 => writeCommit_same (sub rfl hw) h0) (set_2000 (sub rfl hw) hk)
theorem execWriteCommitAll_same {x0} {S1 : State} (hw : Sub 0x6000 w) (hk : Same w r S1) : OutSame w r (execWriteCommitAll x0 S1) :=
  next_same (sub rfl hw) (same_if (writeCommitAll_same (sub rfl hw) hk) hk)
theorem readCommitAll_same {x0} {S1 : State} (hw : Sub 0x300000 w) (hk : Same w r S1) : Same w r (readCommitAll x0 S1) :=
  same_foldl (fun _ _ h0 => readCommit_same (sub rfl hw) h0) (set_200000 (sub rfl hw) hk)
theorem execReadCommitAll_same {x0} {S1 : State} (hw : Sub 0x300000 w) (hk : Same w r S1) : OutSame w r (execReadCommitAll x0 S1) :=
  next_same (sub rfl hw) (same_if (readCommitAll_same (sub rfl hw) hk) hk)
theorem frameBoundary_same {x0 x1} {S2 : State} (hw : Sub 0x306000 w) (hk : Same w r S2) : Same w r (frameBoundary x0 x1 S2) := by
  refine same_if hk ?_
  split
  · exact set_2000 (sub rfl hw) (set_6000 (sub rfl hw) hk)
  · exact set_200000 (sub rfl hw) (set_300000 (sub rfl hw) hk)
theorem execServoFrameBoundary_same {x0 x1} {S2 : State} (hw : Sub 0x306000 w) (hk : Same w r S2) : OutSame w r (execServoFrameBoundary x0 x1 S2) :=
  next_same (sub rfl hw) (frameBoundary_same (sub rfl hw) hk)
theorem timingUpdate_same {x0 x1 x2 x3 x4} {S5 : State} (hw : Sub 0x300000 w) (hk : Same w r S5) : Same w r (timingUpdate x0 x1 x2 x3 x4 S5) :=
  same_if hk (State_modRch_same (sub rfl hw) (set_200000 (sub rfl hw) hk))
theorem execTimingUpdate_same {x0 x1 x2 x3 x4} {S5 : State} (hw : Sub 0x300000 w) (hk : Same w r S5) : OutSame w r (execTimingUpdate x0 x1 x2 x3 x4 S5) :=
  next_same (sub rfl hw) (timingUpdate_same (sub rfl hw) hk)
theorem muStep_same {x0} {S1 : State} (hw : Sub 0x100000 w) (hk : Same w r S1) : Same w r (muStep x0 S1) :=
  State_modRch_same (sub rfl hw) hk
theorem execMuStep_same {x0} {S1 : State} (hw : Sub 0x100000 w) (hk : Same w r S1) : OutSame w r (execMuStep x0 S1) :=
  next_same (sub rfl hw) (muStep_same (sub rfl hw) hk)
theorem noteHeader_same {x0} {S1 : State} (hw : Sub 0x22463d90 w) (hk : Same w r S1) : Same w r (noteHeader x0 S1) := by
  refine same_if hk ?_
  try extract_lets -merge -underBinder +onlyGivenNames z0
  try clear_value z0
  refine same_if (State_modRdDs_same (sub rfl hw) hk) ?_
  extract_lets -merge -underBinder +onlyGivenNames _ z1
  have h2 : Same w r z1 := settleReadBufs_same (sub rfl hw) (set_400000 (sub rfl hw) hk)
  try clear_value z1
  exact same_if (requestStripe_same (sub rfl hw) h2) h2
theorem noteGap_same {x0} {S1 : State} (hw : Sub 0x2400000 w) (hk : Same w r S1) : Same w r (noteGap x0 S1) := by
  unfold noteGap
  split
  · exact same_foldl (fun _ _ h0 => requestStripe_same (sub rfl hw) (set_400000 (sub rfl hw) h0)) hk
  · exact hk
theorem acceptDs_same {x0} {S1 : State} (hw : Sub 0x2460010 w) (hk : Same w r S1) : Same w r (acceptDs x0 S1) := by
  unfold acceptDs
  try extract_lets -merge -underBinder +onlyGivenNames z0
  try clear_value z0
  try extract_lets -merge -underBinder +onlyGivenNames z1
  try clear_value z1
  extract_lets -merge -underBinder +onlyGivenNames z2
  have h3 : Same w r z2 := State_modRdDs_same (sub rfl hw) hk
  try clear_value z2
  split
  · refine same_if ?_ (set_400000 (sub rfl hw) (same_if (noteGap_same (sub rfl hw) h3) h3))
    extract_lets -merge -underBinder +onlyGivenNames z8
    have h9 : Same w r z8 := by
      unfold z8
      split
      · split
        · exact releaseHandle_same (sub rfl hw) h3
        · exact h3
      · exact h3
    try clear_value z8
    exact set_400000 (sub rfl hw) h9
  · exact set_400000 (sub rfl hw) h3
theorem endReread_same {x0} {S1 : State} (hw : Sub 0x1402000 w) (hk : Same w r S1) : Same w r (endReread x0 S1) := by
  unfold endReread
  split
  · refine same_if ?_ hk
    extract_lets -merge -underBinder +onlyGivenNames _ z0
    have h1 : Same w r z0 := set_400000 (sub rfl hw) hk
    try clear_value z0
    exact same_if (set_1002000 (sub rfl hw) h1) h1
  · exact hk
theorem finishDs_same {x0} {S1 : State} (hw : Sub 0x2b7ebdf6 w) (hk : Same w r S1) : Same w r (finishDs x0 S1) := by
  unfold finishDs
  split
  · exact same_if (pumpReads_same (sub rfl hw) (serveAll_same (sub rfl hw) (acceptDs_same (sub rfl hw) (endReread_same (sub rfl hw) (State_modRdDs_same (sub rfl hw) hk))))) hk
  · exact hk
theorem passHeader_same {x0} {S1 : State} (hw : Sub 0x402000 w) (hk : Same w r S1) : Same w r (passHeader x0 S1) :=
  same_if (set_402000 (sub rfl hw) hk) (set_400000 (sub rfl hw) hk)
theorem placeRow_same {x0 x1} {S2 : State} (hw : Sub 0x2b7ebdf6 w) (hk : Same w r S2) : Same w r (placeRow x0 x1 S2) := by
  unfold placeRow
  extract_lets -merge -underBinder +onlyGivenNames z0
  have h1 : Same w r z0 := noteHeader_same (sub rfl hw) (passHeader_same (sub rfl hw) hk)
  try clear_value z0
  exact same_if h1 (finishDs_same (sub rfl hw) (State_modRdDs_same (sub rfl hw) h1))
theorem noteMissing_same {x0} {S1 : State} (hw : Sub 0xb7ebdf6 w) (hk : Same w r S1) : Same w r (noteMissing x0 S1) := by
  unfold noteMissing
  extract_lets -merge -underBinder +onlyGivenNames _ z0
  have h1 : Same w r z0 := set_200000 (sub rfl hw) hk
  try clear_value z0
  split
  · exact h1
  · try extract_lets -merge -underBinder +onlyGivenNames z5
    try clear_value z5
    extract_lets -merge -underBinder +onlyGivenNames z6
    have h7 : Same w r z6 := State_modRdDs_same (sub rfl hw) h1
    try clear_value z6
    exact same_if (strike_same (sub rfl hw) h7) h7
theorem frameTier_same {x0} {S1 : State} (hw : Sub 0x100000 w) (hk : Same w r S1) : Same w r (frameTier x0 S1) :=
  same_foldl (fun _ _ h1 => State_modRch_same (sub rfl hw) h1) hk
theorem decideTier_same {S0 : State} (hw : Sub 0x1702000 w) (hk : Same w r S0) : Same w r (decideTier S0) := by
  unfold decideTier
  try extract_lets -merge -underBinder +onlyGivenNames z0
  try clear_value z0
  try extract_lets -merge -underBinder +onlyGivenNames z1
  try clear_value z1
  try extract_lets -merge -underBinder +onlyGivenNames z2
  try clear_value z2
  try extract_lets -merge -underBinder +onlyGivenNames z3
  try clear_value z3
  try extract_lets -merge -underBinder +onlyGivenNames z4
  try clear_value z4
  extract_lets -merge -underBinder +onlyGivenNames z5
  have h6 : ∀ y7, Same w r y7 → Same w r (z5 y7) := by
    intro y7 hy
    exact set_200000 (sub rfl hw) hy
  clear_value z5
  refine same_if (h6 _ (frameTier_same (sub rfl hw) (set_200000 (sub rfl hw) hk))) ?_
  refine same_if (h6 _ hk) ?_
  refine same_if ?_ ?_
  · extract_lets -merge -underBinder +onlyGivenNames _ z8
    have h9 : Same w r z8 := h6 _ (set_200000 (sub rfl hw) hk)
    try clear_value z8
    exact same_if (set_400000 (sub rfl hw) (beginStop_same (sub rfl hw) h9)) h9
  · try extract_lets -merge -underBinder +onlyGivenNames z14
    try clear_value z14
    extract_lets -merge -underBinder +onlyGivenNames _ z15
    have h16 : Same w r z15 := h6 _ (frameTier_same (sub rfl hw) (set_200000 (sub rfl hw) hk))
    try clear_value z15
    exact same_if (reacquire_same (sub rfl hw) h16) h16
theorem decideSeparator_same {S0 : State} (hw : Sub 0x300000 w) (hk : Same w r S0) : Same w r (decideSeparator S0) :=
  set_200000 (sub rfl hw) (same_foldl (fun _ _ h4 => State_modRch_same (sub rfl hw) h4) hk)
theorem closeWindow_same {x0 x1 x2} {S3 : State} (hw : Sub 0x1702000 w) (hk : Same w r S3) : Same w r (closeWindow x0 x1 x2 S3) := by
  unfold closeWindow
  extract_lets -merge -underBinder +onlyGivenNames _ z0
  have h1 : Same w r z0 := set_200000 (sub rfl hw) hk
  try clear_value z0
  exact same_if (same_if (decideSeparator_same (sub rfl hw) h1) (decideTier_same (sub rfl hw) h1)) h1
theorem acquireWindow_same {x0 x1} {S2 : State} (hw : Sub 0x1702000 w) (hk : Same w r S2) : Same w r (acquireWindow x0 x1 S2) :=
  same_if hk (closeWindow_same (sub rfl hw) (State_modRch_same (sub rfl hw) hk))
theorem trackWindow_same {x0} {S1 : State} (hw : Sub 0x1702000 w) (hk : Same w r S1) : Same w r (trackWindow x0 S1) :=
  same_if hk (closeWindow_same (sub rfl hw) hk)
theorem syncWindow_same {x0 x1} {S2 : State} (hw : Sub 0xb7ebdf6 w) (hk : Same w r S2) : Same w r (syncWindow x0 x1 S2) := by
  refine same_if hk ?_
  split
  · exact same_if (noteMissing_same (sub rfl hw) hk) hk
  · exact acquireWindow_same (sub rfl hw) hk
  · exact trackWindow_same (sub rfl hw) hk
  · exact trackWindow_same (sub rfl hw) hk
theorem execSyncWindowClose_same {x0 x1} {S2 : State} (hw : Sub 0xb7ebdf6 w) (hk : Same w r S2) : OutSame w r (execSyncWindowClose x0 x1 S2) :=
  next_same (sub rfl hw) (syncWindow_same (sub rfl hw) hk)
theorem offer_same {x0} {S1 : State} (hw : Sub 0x20100000 w) (hk : Same w r S1) : Same w r (offer x0 S1) :=
  set_20000000 (sub rfl hw) (State_modRch_same (sub rfl hw) hk)
theorem resyncWindow_same {x0 x1} {S2 : State} (hw : Sub 0x20100000 w) (hk : Same w r S2) : Same w r (resyncWindow x0 x1 S2) := by
  unfold resyncWindow
  try extract_lets -merge -underBinder +onlyGivenNames z0
  try clear_value z0
  try extract_lets -merge -underBinder +onlyGivenNames z1
  try clear_value z1
  refine same_if hk ?_
  extract_lets -merge -underBinder +onlyGivenNames z2
  have h3 : Same w r z2 := State_modRch_same (sub rfl hw) hk
  try clear_value z2
  exact same_if (offer_same (sub rfl hw) h3) h3
theorem execResyncWindowClose_same {x0 x1} {S2 : State} (hw : Sub 0x20100000 w) (hk : Same w r S2) : OutSame w r (execResyncWindowClose x0 x1 S2) :=
  next_same (sub rfl hw) (resyncWindow_same (sub rfl hw) hk)
theorem State_modJob_same {S0 : State} {x1 x2 x3} (hw : Sub 0x100000 w) (hk : Same w r S0) : Same w r (State.modJob S0 x1 x2 x3) :=
  State_modRch_same (sub rfl hw) hk
theorem assignCores_same {S0 : State} (hw : Sub 0x200000 w) (hk : Same w r S0) : Same w r (assignCores S0) := by
  refine same_foldl (fun _ _ h0 => ?_) hk
  split
  · exact set_200000 (sub rfl hw) h0
  · exact h0
theorem slipEvent_same {x0 x1 x2 x3 x4} {S5 : State} (hw : Sub 0x10 w) (hk : Same w r S5) : Same w r (slipEvent x0 x1 x2 x3 x4 S5) :=
  raiseEv_same (sub rfl hw) hk
theorem endCwo_same {x0 x1 x2} {S3 : State} (hw : Sub 0x300010 w) (hk : Same w r S3) : Same w r (endCwo x0 x1 x2 S3) := by
  unfold endCwo
  try extract_lets -merge -underBinder +onlyGivenNames z0
  try clear_value z0
  extract_lets -merge -underBinder +onlyGivenNames z1
  have h2 : Same w r z1 := same_foldl (fun _ _ h15 => slipEvent_same (sub rfl hw) h15) hk
  try clear_value z1
  extract_lets -merge -underBinder +onlyGivenNames z16
  have h17 : Same w r z16 := by
    unfold z16
    split
    · exact same_if h2 (slipEvent_same (sub rfl hw) (set_200000 (sub rfl hw) (State_modRch_same (sub rfl hw) h2)))
    · exact h2
  try clear_value z16
  exact State_modRch_same (sub rfl hw) h17
theorem settleJob_same {x0 x1} {S2 : State} (hw : Sub 0x2b7ebdf6 w) (hk : Same w r S2) : Same w r (settleJob x0 x1 S2) := by
  unfold settleJob
  split
  · exact hk
  · split
    · exact hk
    · exact endCwo_same (sub rfl hw) (same_if (noteMissing_same (sub rfl hw) hk) hk)
    · extract_lets -merge -underBinder +onlyGivenNames _ z0
      have h1 : Same w r z0 := set_200000 (sub rfl hw) hk
      try clear_value z0
      split
      · exact endCwo_same (sub rfl hw) h1
      · extract_lets -merge -underBinder +onlyGivenNames z4
        have h5 : Same w r z4 := endCwo_same (sub rfl hw) h1
        try clear_value z4
        exact same_if (placeRow_same (sub rfl hw) h5) h5
theorem headerDone_same {x0} {S1 : State} (hw : Sub 0x2b7ebdf6 w) (hk : Same w r S1) : Same w r (headerDone x0 S1) := by
  unfold headerDone
  split
  · exact hk
  · try extract_lets -merge -underBinder +onlyGivenNames z0
    try clear_value z0
    refine same_if hk ?_
    refine same_if (settleJob_same (sub rfl hw) (State_modJob_same (sub rfl hw) hk)) ?_
    try extract_lets -merge -underBinder +onlyGivenNames z1
    try clear_value z1
    extract_lets -merge -underBinder +onlyGivenNames z2
    have h3 : Same w r z2 := same_if hk (State_modRch_same (sub rfl hw) hk)
    try clear_value z2
    split
    · exact assignCores_same (sub rfl hw) (set_200000 (sub rfl hw) (State_modJob_same (sub rfl hw) h3))
    · exact settleJob_same (sub rfl hw) (State_modJob_same (sub rfl hw) h3)
theorem execHeaderDecodeDone_same {x0} {S1 : State} (hw : Sub 0x2b7ebdf6 w) (hk : Same w r S1) : OutSame w r (execHeaderDecodeDone x0 S1) :=
  next_same (sub rfl hw) (headerDone_same (sub rfl hw) hk)
theorem freeCore_same {x0} {S1 : State} (hw : Sub 0x200000 w) (hk : Same w r S1) : Same w r (freeCore x0 S1) :=
  assignCores_same (sub rfl hw) (set_200000 (sub rfl hw) hk)
theorem endAttempt_same {x0 x1 x2} {s : State} (hw : Sub 0x2b7ebdf6 w) (hk : Same w r s) : Same w r (endAttempt x0 x1 x2 s) := by
  unfold endAttempt
  extract_lets c s1
  have h1 : Same w r s1 := State_modJob_same (sub rfl hw) hk
  clear_value s1 c
  exact settleJob_same (sub rfl hw) (freeCore_same (sub rfl hw) h1)
theorem c1Done_same {x0 x1} {S2 : State} (hw : Sub 0x2b7ebdf6 w) (hk : Same w r S2) : Same w r (c1Done x0 x1 S2) := by
  unfold c1Done
  split
  · exact hk
  · try extract_lets -merge -underBinder +onlyGivenNames z0
    try clear_value z0
    split
    · exact freeCore_same (sub rfl hw) hk
    · split
      · exact endAttempt_same (sub rfl hw) hk
      · refine same_if (endAttempt_same (sub rfl hw) (set_200000 (sub rfl hw) hk)) ?_
        try extract_lets -merge -underBinder +onlyGivenNames z1
        try clear_value z1
        try extract_lets -merge -underBinder +onlyGivenNames z2
        try clear_value z2
        try extract_lets -merge -underBinder +onlyGivenNames z3
        try clear_value z3
        extract_lets -merge -underBinder +onlyGivenNames z4
        have h5 : Same w r z4 := strike_same (sub rfl hw) (raiseResend_same (sub rfl hw) hk)
        try clear_value z4
        exact same_if (endAttempt_same (sub rfl hw) h5) (same_if h5 (set_200000 (sub rfl hw) h5))
theorem execC1DecodeDone_same {x0 x1} {S2 : State} (hw : Sub 0x2b7ebdf6 w) (hk : Same w r S2) : OutSame w r (execC1DecodeDone x0 x1 S2) :=
  next_same (sub rfl hw) (c1Done_same (sub rfl hw) hk)
theorem sampleOverwrite_same {x0} {S1 : State} (hw : Sub 0x2b7ebdf6 w) (hk : Same w r S1) : Same w r (sampleOverwrite x0 S1) :=
  same_foldl (fun _ _ h0 => same_if h0 (settleJob_same (sub rfl hw) (State_modJob_same (sub rfl hw) (set_200000 (sub rfl hw) h0)))) hk
theorem execSampleOverwrite_same {x0} {S1 : State} (hw : Sub 0x2b7ebdf6 w) (hk : Same w r S1) : OutSame w r (execSampleOverwrite x0 S1) :=
  next_same (sub rfl hw) (sampleOverwrite_same (sub rfl hw) hk)
theorem ctLost_same {x0} {S1 : State} (hw : Sub 0x2be73dd6 w) (hk : Same w r S1) : Same w r (ctLost x0 S1) := by
  refine same_if hk ?_
  extract_lets -merge -underBinder +onlyGivenNames _ z0
  have h1 : Same w r z0 := set_200000 (sub rfl hw) hk
  try clear_value z0
  extract_lets -merge -underBinder +onlyGivenNames z8
  have h9 : Same w r z8 := raiseEv_same (sub rfl hw) h1
  try clear_value z8
  refine same_if h9 ?_
  extract_lets -merge -underBinder +onlyGivenNames _ z12
  have h13 : Same w r z12 := set_200000 (sub rfl hw) h9
  try clear_value z12
  exact same_if (gateDrop_same (sub rfl hw) (set_2000 (sub rfl hw) h13)) h13
theorem execCtLost_same {x0} {S1 : State} (hw : Sub 0x2be73dd6 w) (hk : Same w r S1) : OutSame w r (execCtLost x0 S1) :=
  next_same (sub rfl hw) (ctLost_same (sub rfl hw) hk)
theorem ctRegained_same {x0} {S1 : State} (hw : Sub 0x302000 w) (hk : Same w r S1) : Same w r (ctRegained x0 S1) := by
  unfold ctRegained
  extract_lets -merge -underBinder +onlyGivenNames _ z0
  have h1 : Same w r z0 := set_200000 (sub rfl hw) hk
  try clear_value z0
  exact set_2000 (sub rfl hw) (same_if (reacquire_same (sub rfl hw) h1) h1)
theorem execCtRegained_same {x0} {S1 : State} (hw : Sub 0x302000 w) (hk : Same w r S1) : OutSame w r (execCtRegained x0 S1) :=
  next_same (sub rfl hw) (ctRegained_same (sub rfl hw) hk)
theorem holdoverEnd_same {S0 : State} (hw : Sub 0x300000 w) (hk : Same w r S0) : Same w r (holdoverEnd S0) :=
  same_if hk (set_300000 (sub rfl hw) hk)
theorem execHoldoverEnd_same {S0 : State} (hw : Sub 0x300000 w) (hk : Same w r S0) : OutSame w r (execHoldoverEnd S0) :=
  next_same (sub rfl hw) (holdoverEnd_same (sub rfl hw) hk)
theorem synthLock_same {x0} {S1 : State} (hw : Sub 0x300000 w) (hk : Same w r S1) : Same w r (synthLock x0 S1) :=
  same_if (acquireAll_same (sub rfl hw) (coldStartAll_same (sub rfl hw) (set_200000 (sub rfl hw) hk))) hk
theorem execSynthLock_same {x0} {S1 : State} (hw : Sub 0x300000 w) (hk : Same w r S1) : OutSame w r (execSynthLock x0 S1) :=
  next_same (sub rfl hw) (synthLock_same (sub rfl hw) hk)

/-! ### Recovery -/

theorem beginReread_same {x0 x1} {S2 : State} (hw : Sub 0x1c02016 w) (hk : Same w r S2) : Same w r (beginReread x0 x1 S2) := by
  unfold beginReread
  extract_lets -merge -underBinder +onlyGivenNames z0
  have h1 : Same w r z0 := State_modRdDs_same (sub rfl hw) hk
  try clear_value z0
  extract_lets -merge -underBinder +onlyGivenNames _ z8
  have h9 : Same w r z8 := set_400000 (sub rfl hw) h1
  try clear_value z8
  exact same_if (set_2000 (sub rfl hw) (beginStop_same (sub rfl hw) h9)) (beginMove_same (sub rfl hw) h9)
theorem readBehind_same {x0} {S1 : State} (hw : Sub 0x1c02016 w) (hk : Same w r S1) : Same w r (readBehind x0 S1) := by
  unfold readBehind
  extract_lets -merge -underBinder +onlyGivenNames _ z0
  have h1 : Same w r z0 := set_400000 (sub rfl hw) hk
  try clear_value z0
  exact same_if (set_2000 (sub rfl hw) (beginStop_same (sub rfl hw) h1)) (beginMove_same (sub rfl hw) h1)
theorem loseDs_same {x0} {S1 : State} (hw : Sub 0x2b7ebdf6 w) (hk : Same w r S1) : Same w r (loseDs x0 S1) :=
  pumpReads_same (sub rfl hw) (serveAll_same (sub rfl hw) (State_modRdDs_same (sub rfl hw) hk))
theorem recoverLast_same {x0} {S1 : State} (hw : Sub 0x2bfebdf6 w) (hk : Same w r S1) : Same w r (recoverLast x0 S1) := by
  unfold recoverLast
  split
  · exact hk
  · try extract_lets -merge -underBinder +onlyGivenNames z0
    try clear_value z0
    extract_lets -merge -underBinder +onlyGivenNames z1
    have h2 : Same w r z1 := State_modRdDs_same (sub rfl hw) hk
    try clear_value z1
    refine same_if (finishDs_same (sub rfl hw) h2) ?_
    split
    · exact endReread_same (sub rfl hw) h2
    · exact readBehind_same (sub rfl hw) (endReread_same (sub rfl hw) h2)
    · extract_lets -merge -underBinder +onlyGivenNames z5
      have h6 : Same w r z5 := endReread_same (sub rfl hw) h2
      try clear_value z5
      exact same_if (pumpReads_same (sub rfl hw) (rebuildOwn_same (sub rfl hw) h6)) (loseDs_same (sub rfl hw) h6)
theorem datasetRecovery_same {x0} {S1 : State} (hw : Sub 0x2bfebdf6 w) (hk : Same w r S1) : Same w r (datasetRecovery x0 S1) := by
  refine same_if hk ?_
  split
  · exact hk
  · refine same_if hk ?_
    extract_lets -merge -underBinder +onlyGivenNames z0
    have h1 : Same w r z0 := erasePoison_same (sub rfl hw) hk
    try clear_value z0
    extract_lets -merge -underBinder +onlyGivenNames z4
    have h5 : Same w r z4 := State_modRdDs_same (sub rfl hw) h1
    try clear_value z4
    split
    · exact h5
    · exact same_if (finishDs_same (sub rfl hw) h5) (same_if (beginReread_same (sub rfl hw) h5) (recoverLast_same (sub rfl hw) h5))
theorem execDatasetRecovery_same {x0} {S1 : State} (hw : Sub 0x2bfebdf6 w) (hk : Same w r S1) : OutSame w r (execDatasetRecovery x0 S1) :=
  next_same (sub rfl hw) (datasetRecovery_same (sub rfl hw) hk)

/-! ### RingGroup -/

theorem sendJoins_same {S0 : State} (hw : Sub 0x2000000 w) (hk : Same w r S0) : Same w r (sendJoins S0) :=
  same_if (same_foldl (fun _ _ h0 => tellPos_same (sub rfl hw) h0) (set_2000000 (sub rfl hw) hk)) hk
theorem sendAnswer_same {S0 : State} (hw : Sub 0x2000000 w) (hk : Same w r S0) : Same w r (sendAnswer S0) :=
  same_if hk (tellPos_same (sub rfl hw) hk)
theorem formHere_same {x0 x1 x2} {S3 : State} (hw : Sub 0x2010004 w) (hk : Same w r S3) : Same w r (formHere x0 x1 x2 S3) :=
  powerFor_same (sub rfl hw) (writeCm_same (sub rfl hw) (set_2000000 (sub rfl hw) hk))
theorem tryForm_same {S0 : State} (hw : Sub 0x2010004 w) (hk : Same w r S0) : Same w r (tryForm S0) := by
  unfold tryForm
  try extract_lets -merge -underBinder +onlyGivenNames z0
  try clear_value z0
  try extract_lets -merge -underBinder +onlyGivenNames z1
  try clear_value z1
  split
  · exact hk
  · exact same_if hk (formHere_same (sub rfl hw) (tellAll_same (sub rfl hw) (same_foldl (fun _ _ h7 => tellAll_same (sub rfl hw) h7) hk)))
theorem onJoin_same {S0 : State} (hw : Sub 0x2000000 w) (hk : Same w r S0) : Same w r (onJoin S0) :=
  same_if (sendAnswer_same (sub rfl hw) (set_2000000 (sub rfl hw) hk)) (sendAnswer_same (sub rfl hw) (set_2000000 (sub rfl hw) hk))
theorem onJoinAck_same {x0} {S1 : State} (hw : Sub 0x2010004 w) (hk : Same w r S1) : Same w r (onJoinAck x0 S1) :=
  same_if hk (tryForm_same (sub rfl hw) (set_2000000 (sub rfl hw) hk))
theorem onSerial_same {x0} {S1 : State} (hw : Sub 0x2000000 w) (hk : Same w r S1) : Same w r (onSerial x0 S1) :=
  same_if hk (set_2000000 (sub rfl hw) hk)
theorem onStart_same {x0} {S1 : State} (hw : Sub 0x2010004 w) (hk : Same w r S1) : Same w r (onStart x0 S1) := by
  unfold onStart
  split
  · exact hk
  · exact same_if (formHere_same (sub rfl hw) hk) hk
theorem raitSet_same {x0} {S1 : State} (hw : Sub 0xa0001c4 w) (hk : Same w r S1) : Same w r (raitSet x0 S1) := by
  refine same_if (mEnd_same (sub rfl hw) hk) ?_
  try extract_lets -merge -underBinder +onlyGivenNames z0
  try clear_value z0
  split
  · exact mEnd_same (sub rfl hw) hk
  · extract_lets -merge -underBinder +onlyGivenNames _ z1
    have h2 : Same w r z1 := powerFor_same (sub rfl hw) (set_2000000 (sub rfl hw) hk)
    try clear_value z1
    extract_lets -merge -underBinder +onlyGivenNames z5
    have h6 : Same w r z5 := same_if (sendJoins_same (sub rfl hw) h2) (sendAnswer_same (sub rfl hw) h2)
    try clear_value z5
    exact mOk_same (sub rfl hw) h6
theorem execRaitGroupSet_same {x0} {S1 : State} (hw : Sub 0xa0001c4 w) (hk : Same w r S1) : OutSame w r (execRaitGroupSet x0 S1) :=
  next_same (sub rfl hw) (subCmd_same (sub rfl hw) (fun _ _ h0 => raitSet_same (sub rfl hw) h0) hk)
theorem raitClear_same {x0} {S1 : State} (hw : Sub 0x2a463dd4 w) (hk : Same w r S1) : Same w r (raitClear x0 S1) := by
  refine same_if (mEnd_same (sub rfl hw) hk) ?_
  try extract_lets -merge -underBinder +onlyGivenNames z0
  try clear_value z0
  extract_lets -merge -underBinder +onlyGivenNames z1
  have h2 : Same w r z1 := same_if (failGroup_same (sub rfl hw) (tellAll_same (sub rfl hw) hk)) hk
  try clear_value z1
  exact mOk_same (sub rfl hw) (settleWaits_same (sub rfl hw) h2)
theorem execRaitGroupClear_same {x0} {S1 : State} (hw : Sub 0x2a463dd4 w) (hk : Same w r S1) : OutSame w r (execRaitGroupClear x0 S1) :=
  next_same (sub rfl hw) (subCmd_same (sub rfl hw) (fun _ _ h0 => raitClear_same (sub rfl hw) h0) hk)
theorem tellFail_same {x0} {S1 : State} (hw : Sub 0x2a463dd4 w) (hk : Same w r S1) : Same w r (tellFail x0 S1) :=
  settleWaits_same (sub rfl hw) (failGroup_same (sub rfl hw) (tellAll_same (sub rfl hw) hk))
theorem pumpPorts_same {S0 : State} (hw : Sub 0x2000000 w) (hk : Same w r S0) : Same w r (pumpPorts S0) :=
  pumpPort_same (sub rfl hw) (pumpPort_same (sub rfl hw) hk)
theorem losePosition_same {x0 x1} {S2 : State} (hw : Sub 0x2b7ebdf6 w) (hk : Same w r S2) : Same w r (losePosition x0 x1 S2) := by
  refine same_if hk ?_
  extract_lets -merge -underBinder +onlyGivenNames _ _ z0
  have h1 : Same w r z0 := set_2000000 (sub rfl hw) hk
  try clear_value z0
  extract_lets -merge -underBinder +onlyGivenNames z12
  have h13 : Same w r z12 := raiseEv_same (sub rfl hw) h1
  try clear_value z12
  extract_lets -merge -underBinder +onlyGivenNames z18
  have h19 : Same w r z18 := tellAll_same (sub rfl hw) h13
  try clear_value z18
  exact same_if (tellFail_same (sub rfl hw) h19) (settleWaits_same (sub rfl hw) (pumpPorts_same (sub rfl hw) (groupCommit_same (sub rfl hw) (loseReads_same (sub rfl hw) h19))))
theorem routeChanged_same {S0 : State} (hw : Sub 0x2b7ebdf6 w) (hk : Same w r S0) : Same w r (routeChanged S0) := by
  refine same_if hk ?_
  refine same_if ?_ (same_if hk (settleWaits_same (sub rfl hw) (failGroup_same (sub rfl hw) hk)))
  try extract_lets -merge -underBinder +onlyGivenNames z0
  try clear_value z0
  extract_lets -merge -underBinder +onlyGivenNames z1
  have h2 : Same w r z1 := same_foldl (fun _ _ h5 => losePosition_same (sub rfl hw) h5) hk
  try clear_value z1
  exact same_if (askAgain_same (sub rfl hw) (same_foldl (fun _ _ h6 => same_if h6 (sendPayload_same (sub rfl hw) h6)) h2)) h2
theorem askStripeBuffer_same {S0 : State} (hw : Sub 0x22463d90 w) (hk : Same w r S0) : Same w r (askStripeBuffer S0) :=
  same_if (settleGrants_same (sub rfl hw) (onBehalf_same (sub rfl hw) (fun _ h0 => panAlloc_same (sub rfl hw) h0) hk)) hk
theorem placeData_same {x0} {S1 : State} (hw : Sub 0x22463d90 w) (hk : Same w r S1) : Same w r (placeData x0 S1) :=
  same_if (same_if (tellPos_same (sub rfl hw) hk) hk) (settleXoff_same (sub rfl hw) (settleStripes_same (sub rfl hw) (askStripeBuffer_same (sub rfl hw) (set_2000000 (sub rfl hw) (set_2000 (sub rfl hw) hk)))))
theorem dataRow_same {x0 x1} {S2 : State} (hw : Sub 0x22463d90 w) (hk : Same w r S2) : Same w r (dataRow x0 x1 S2) := by
  unfold dataRow
  extract_lets -merge -underBinder +onlyGivenNames z0
  have h1 : Same w r z0 := same_if hk (forwardFrame_same (sub rfl hw) hk)
  try clear_value z0
  exact same_if (placeData_same (sub rfl hw) h1) h1
theorem execDataRow_same {x0 x1 x2} {S3 : State} (hw : Sub 0x2b7ebdf6 w) (hk : Same w r S3) : OutSame w r (execDataRow x0 x1 x2 S3) :=
  next_same (sub rfl hw) (receive_same (sub rfl hw) (fun _ h0 => dataRow_same (sub rfl hw) h0) hk)
theorem onReadRow_same {x0} {S1 : State} (hw : Sub 0x2b7ebdf6 w) (hk : Same w r S1) : Same w r (onReadRow x0 S1) :=
  same_if (takeRow_same (sub rfl hw) hk) hk
theorem execReadRow_same {x0 x1 x2} {S3 : State} (hw : Sub 0x2b7ebdf6 w) (hk : Same w r S3) : OutSame w r (execReadRow x0 x1 x2 S3) :=
  next_same (sub rfl hw) (receive_same (sub rfl hw) (fun _ h0 => routed_same (sub rfl hw) (fun _ h1 => onReadRow_same (sub rfl hw) h1) h0) hk)
theorem onReadReq_same {x0} {S1 : State} (hw : Sub 0x3c62016 w) (hk : Same w r S1) : Same w r (onReadReq x0 S1) := by
  unfold onReadReq
  try extract_lets -merge -underBinder +onlyGivenNames z0
  try clear_value z0
  try extract_lets -merge -underBinder +onlyGivenNames z1
  try clear_value z1
  try extract_lets -merge -underBinder +onlyGivenNames z2
  try clear_value z2
  refine same_if hk ?_
  extract_lets -merge -underBinder +onlyGivenNames _ _ z3
  have h4 : Same w r z3 := set_2000000 (sub rfl hw) hk
  try clear_value z3
  try extract_lets -merge -underBinder +onlyGivenNames z10
  try clear_value z10
  extract_lets -merge -underBinder +onlyGivenNames _ z11
  have h12 : Same w r z11 := same_if h4 (beginMove_same (sub rfl hw) (set_400000 (sub rfl hw) (dropReadBufs_same (sub rfl hw) h4)))
  try clear_value z11
  exact serveAll_same (sub rfl hw) h12
theorem execReadReq_same {x0 x1 x2} {S3 : State} (hw : Sub 0xbfebdf6 w) (hk : Same w r S3) : OutSame w r (execReadReq x0 x1 x2 S3) :=
  next_same (sub rfl hw) (receive_same (sub rfl hw) (fun _ h0 => routed_same (sub rfl hw) (fun _ h1 => ofGroup_same (sub rfl hw) (fun _ h2 => onReadReq_same (sub rfl hw) h2) h1) h0) hk)
theorem readRowTimeout_same {x0 x1 x2} {S3 : State} (hw : Sub 0x2b7ebdf6 w) (hk : Same w r S3) : Same w r (readRowTimeout x0 x1 x2 S3) :=
  same_if (takeRow_same (sub rfl hw) hk) hk
theorem execReadRowTimeout_same {x0 x1 x2} {S3 : State} (hw : Sub 0x2b7ebdf6 w) (hk : Same w r S3) : OutSame w r (execReadRowTimeout x0 x1 x2 S3) :=
  next_same (sub rfl hw) (readRowTimeout_same (sub rfl hw) hk)
theorem groupRow_same {x0 x1 x2 x3 x4} {S5 : State} (hw : Sub 0xb7ebdf6 w) (hx4 : ∀ s, Same w r s → Same w r (x4 s)) (hk : Same w r S5) : Same w r (groupRow x0 x1 x2 x3 x4 S5) :=
  receive_same (sub rfl hw) (fun _ h0 => routed_same (sub rfl hw) (fun _ h1 => ofGroup_same (sub rfl hw) (fun _ h2 => hx4 _ h2) h1) h0) hk
theorem execJoin_same {x0 x1 x2} {S3 : State} (hw : Sub 0xb7ebdf6 w) (hk : Same w r S3) : OutSame w r (execJoin x0 x1 x2 S3) :=
  next_same (sub rfl hw) (groupRow_same (sub rfl hw) (fun _ h0 => onJoin_same (sub rfl hw) h0) hk)
theorem execJoinAck_same {x0 x1 x2} {S3 : State} (hw : Sub 0xb7fbdf6 w) (hk : Same w r S3) : OutSame w r (execJoinAck x0 x1 x2 S3) :=
  next_same (sub rfl hw) (groupRow_same (sub rfl hw) (fun _ h0 => onJoinAck_same (sub rfl hw) h0) hk)
theorem execGroupSerial_same {x0 x1 x2} {S3 : State} (hw : Sub 0xb7ebdf6 w) (hk : Same w r S3) : OutSame w r (execGroupSerial x0 x1 x2 S3) :=
  next_same (sub rfl hw) (groupRow_same (sub rfl hw) (fun _ h0 => onSerial_same (sub rfl hw) h0) hk)
theorem execGroupStart_same {x0 x1 x2} {S3 : State} (hw : Sub 0xb7fbdf6 w) (hk : Same w r S3) : OutSame w r (execGroupStart x0 x1 x2 S3) :=
  next_same (sub rfl hw) (groupRow_same (sub rfl hw) (fun _ h0 => onStart_same (sub rfl hw) h0) hk)
theorem onPayloadOk_same {x0} {S1 : State} (hw : Sub 0x2000000 w) (hk : Same w r S1) : Same w r (onPayloadOk x0 S1) :=
  same_if hk (set_2000000 (sub rfl hw) hk)
theorem execPayloadOk_same {x0 x1 x2} {S3 : State} (hw : Sub 0xb7ebdf6 w) (hk : Same w r S3) : OutSame w r (execPayloadOk x0 x1 x2 S3) :=
  next_same (sub rfl hw) (groupRow_same (sub rfl hw) (fun _ h0 => onPayloadOk_same (sub rfl hw) h0) hk)
theorem onStripeCommit_same {x0} {S1 : State} (hw : Sub 0x2a463dd0 w) (hk : Same w r S1) : Same w r (onStripeCommit x0 S1) :=
  same_if hk (settleWaits_same (sub rfl hw) (groupCommit_same (sub rfl hw) (set_2000000 (sub rfl hw) hk)))
theorem execStripeCommit_same {x0 x1 x2} {S3 : State} (hw : Sub 0x2b7ebdf6 w) (hk : Same w r S3) : OutSame w r (execStripeCommit x0 x1 x2 S3) :=
  next_same (sub rfl hw) (groupRow_same (sub rfl hw) (fun _ h0 => onStripeCommit_same (sub rfl hw) h0) hk)
theorem onXoff_same {x0} {S1 : State} (hw : Sub 0x2000000 w) (hk : Same w r S1) : Same w r (onXoff x0 S1) :=
  same_if (set_2000000 (sub rfl hw) hk) hk
theorem execXoff_same {x0 x1 x2} {S3 : State} (hw : Sub 0xb7ebdf6 w) (hk : Same w r S3) : OutSame w r (execXoff x0 x1 x2 S3) :=
  next_same (sub rfl hw) (groupRow_same (sub rfl hw) (fun _ h0 => onXoff_same (sub rfl hw) h0) hk)
theorem onXon_same {x0} {S1 : State} (hw : Sub 0x2000000 w) (hk : Same w r S1) : Same w r (onXon x0 S1) :=
  same_if (pumpPorts_same (sub rfl hw) (set_2000000 (sub rfl hw) hk)) hk
theorem execXon_same {x0 x1 x2} {S3 : State} (hw : Sub 0xb7ebdf6 w) (hk : Same w r S3) : OutSame w r (execXon x0 x1 x2 S3) :=
  next_same (sub rfl hw) (groupRow_same (sub rfl hw) (fun _ h0 => onXon_same (sub rfl hw) h0) hk)
theorem onSessionEnd_same {x0} {S1 : State} (hw : Sub 0x22002000 w) (hk : Same w r S1) : Same w r (onSessionEnd x0 S1) :=
  same_if hk (settleStripes_same (sub rfl hw) (set_2000000 (sub rfl hw) hk))
theorem execSessionEnd_same {x0 x1 x2} {S3 : State} (hw : Sub 0x2b7ebdf6 w) (hk : Same w r S3) : OutSame w r (execSessionEnd x0 x1 x2 S3) :=
  next_same (sub rfl hw) (groupRow_same (sub rfl hw) (fun _ h0 => onSessionEnd_same (sub rfl hw) h0) hk)
theorem onPositionLost_same {x0} {S1 : State} (hw : Sub 0x2b7ebdf6 w) (hk : Same w r S1) : Same w r (onPositionLost x0 S1) :=
  same_if (losePosition_same (sub rfl hw) hk) (set_2000000 (sub rfl hw) hk)
theorem execPositionLost_same {x0 x1 x2} {S3 : State} (hw : Sub 0x2b7ebdf6 w) (hk : Same w r S3) : OutSame w r (execPositionLost x0 x1 x2 S3) :=
  next_same (sub rfl hw) (groupRow_same (sub rfl hw) (fun _ h0 => onPositionLost_same (sub rfl hw) h0) hk)
theorem onGroupFail_same {S0 : State} (hw : Sub 0x2a463dd4 w) (hk : Same w r S0) : Same w r (onGroupFail S0) :=
  settleWaits_same (sub rfl hw) (failGroup_same (sub rfl hw) hk)
theorem execGroupFail_same {x0 x1 x2} {S3 : State} (hw : Sub 0x2b7ebdf6 w) (hk : Same w r S3) : OutSame w r (execGroupFail x0 x1 x2 S3) :=
  next_same (sub rfl hw) (groupRow_same (sub rfl hw) (fun _ h0 => onGroupFail_same (sub rfl hw) h0) hk)
theorem confirmTimeout_same {x0 x1} {S2 : State} (hw : Sub 0x2b7ebdf6 w) (hk : Same w r S2) : Same w r (confirmTimeout x0 x1 S2) :=
  same_if (losePosition_same (sub rfl hw) hk) hk
theorem execPayloadConfirmTimeout_same {x0 x1} {S2 : State} (hw : Sub 0x2b7ebdf6 w) (hk : Same w r S2) : OutSame w r (execPayloadConfirmTimeout x0 x1 S2) :=
  next_same (sub rfl hw) (confirmTimeout_same (sub rfl hw) hk)

/-! ### RingAssembly -/

theorem noteMember_same {x0} {S1 : State} (hw : Sub 0x2000000 w) (hk : Same w r S1) : Same w r (noteMember x0 S1) :=
  set_2000000 (sub rfl hw) hk
theorem announce_same {x0} {S1 : State} (hw : Sub 0x2000000 w) (hk : Same w r S1) : Same w r (announce x0 S1) :=
  enqueueFrame_same (sub rfl hw) (enqueueFrame_same (sub rfl hw) (noteMember_same (sub rfl hw) hk))
theorem standAlone_same {S0 : State} (hw : Sub 0x2000000 w) (hk : Same w r S0) : Same w r (standAlone S0) :=
  noteMember_same (sub rfl hw) (set_2000000 (sub rfl hw) hk)
theorem beginFlood_same {S0 : State} (hw : Sub 0x2000010 w) (hk : Same w r S0) : Same w r (beginFlood S0) := by
  unfold beginFlood
  extract_lets -merge -underBinder +onlyGivenNames _ z0
  have h1 : Same w r z0 := set_2000000 (sub rfl hw) hk
  try clear_value z0
  exact same_if (enqueueFrame_same (sub rfl hw) (enqueueFrame_same (sub rfl hw) h1)) (raiseEv_same (sub rfl hw) (standAlone_same (sub rfl hw) h1))
theorem clearAssembly_same {S0 : State} (hw : Sub 0x2000000 w) (hk : Same w r S0) : Same w r (clearAssembly S0) :=
  set_2000000 (sub rfl hw) hk
theorem restartFlood_same {S0 : State} (hw : Sub 0x2000010 w) (hk : Same w r S0) : Same w r (restartFlood S0) :=
  beginFlood_same (sub rfl hw) (clearAssembly_same (sub rfl hw) hk)
theorem measureHop_same {S0 : State} (hw : Sub 0x20000000 w) (hk : Same w r S0) : SndSame w r (measureHop S0) :=
  snd_mk (set_20000000 (sub rfl hw) hk)
theorem sendStep3_same {x0} {S1 : State} (hw : Sub 0x2000000 w) (hk : Same w r S1) : Same w r (sendStep3 x0 S1) :=
  same_if (enqueueFrame_same (sub rfl hw) (State_modPort_same (sub rfl hw) hk)) hk
theorem startAttest_same {x0} {S1 : State} (hw : Sub 0x12000000 w) (hk : Same w r S1) : Same w r (startAttest x0 S1) :=
  same_if hk (sendStep3_same (sub rfl hw) (enqueueFrame_same (sub rfl hw) (enqueueFrame_same (sub rfl hw) (State_modPort_same (sub rfl hw) (drawn_same (sub rfl hw) hk)))))
theorem attestAll_same {S0 : State} (hw : Sub 0x12000000 w) (hk : Same w r S0) : Same w r (attestAll S0) :=
  startAttest_same (sub rfl hw) (startAttest_same (sub rfl hw) (set_2000000 (sub rfl hw) hk))
theorem failAttest_same {x0} {S1 : State} (hw : Sub 0x2000010 w) (hk : Same w r S1) : Same w r (failAttest x0 S1) :=
  restartFlood_same (sub rfl hw) (raiseEv_same (sub rfl hw) (State_modPort_same (sub rfl hw) hk))
theorem onAttest_same {x0 x1} {S2 : State} (hw : Sub 0x2000010 w) (hk : Same w r S2) : Same w r (onAttest x0 x1 S2) :=
  same_if (failAttest_same (sub rfl hw) hk) (same_if (State_modPort_same (sub rfl hw) hk) (same_if (sendStep3_same (sub rfl hw) (State_modPort_same (sub rfl hw) hk)) (same_if (State_modPort_same (sub rfl hw) hk) (failAttest_same (sub rfl hw) hk))))
theorem execAttest_same {x0 x1 x2} {S3 : State} (hw : Sub 0xb7ebdf6 w) (hk : Same w r S3) : OutSame w r (execAttest x0 x1 x2 S3) :=
  next_same (sub rfl hw) (receive_same (sub rfl hw) (fun _ h0 => onAttest_same (sub rfl hw) h0) hk)
theorem beginTokens_same {S0 : State} (hw : Sub 0x22000000 w) (hk : Same w r S0) : Same w r (beginTokens S0) := by
  unfold beginTokens
  extract_lets -merge -underBinder +onlyGivenNames _ z0
  have h1 : Same w r z0 := set_2000000 (sub rfl hw) hk
  try clear_value z0
  exact same_if (enqueueFrame_same (sub rfl hw) (announce_same (sub rfl hw) (snd_snd (measureHop_same (sub rfl hw) h1)))) (enqueueFrame_same (sub rfl hw) (announce_same (sub rfl hw) (set_2000000 (sub rfl hw) h1)))
theorem takeAddress_same {x0 x1} {S2 : State} (hw : Sub 0x2000000 w) (hk : Same w r S2) : SndSame w r (takeAddress x0 x1 S2) :=
  snd_mk (set_2000000 (sub rfl hw) hk)
theorem excludeHighest_same {S0 : State} (hw : Sub 0x2000000 w) (hk : Same w r S0) : Same w r (excludeHighest S0) := by
  unfold excludeHighest
  split
  · exact hk
  · exact set_2000000 (sub rfl hw) (enqueueFrame_same (sub rfl hw) (enqueueFrame_same (sub rfl hw) (noteMember_same (sub rfl hw) hk)))
theorem fitBudget_same {x0} {s : State} (hw : Sub 0x2000000 w) (hk : Same w r s) : Same w r (fitBudget x0 s) := by
  induction x0 generalizing s with
  | zero => exact hk
  | succ n ih => exact same_if (set_2000000 (sub rfl hw) hk) (ih (excludeHighest_same (sub rfl hw) hk))
theorem tokenHome_same {x0} {S1 : State} (hw : Sub 0x12000000 w) (hk : Same w r S1) : Same w r (tokenHome x0 S1) := by
  unfold tokenHome
  try extract_lets -merge -underBinder +onlyGivenNames z0
  try clear_value z0
  extract_lets -merge -underBinder +onlyGivenNames _ z1
  have h2 : Same w r z1 := set_2000000 (sub rfl hw) hk
  try clear_value z1
  refine same_if (attestAll_same (sub rfl hw) h2) ?_
  extract_lets -merge -underBinder +onlyGivenNames _ z7
  have h8 : Same w r z7 := same_if h2 (set_2000000 (sub rfl hw) (State_modPort_same (sub rfl hw) (enqueueFrame_same (sub rfl hw) h2)))
  try clear_value z7
  exact attestAll_same (sub rfl hw) (fitBudget_same (sub rfl hw) h8)
theorem onToken_same {x0 x1} {S2 : State} (hw : Sub 0x32000000 w) (hk : Same w r S2) : Same w r (onToken x0 x1 S2) := by
  unfold onToken
  try extract_lets -merge -underBinder +onlyGivenNames z0
  try clear_value z0
  refine same_if hk ?_
  refine same_if (same_if (enqueueFrame_same (sub rfl hw) (set_2000000 (sub rfl hw) hk)) (tokenHome_same (sub rfl hw) hk)) ?_
  refine same_if ?_ (enqueueFrame_same (sub rfl hw) (set_2000000 (sub rfl hw) hk))
  refine same_if ?_ ?_
  · extract_lets -merge -underBinder +onlyGivenNames z1
    have h2 : SndSame w r z1 := takeAddress_same (sub rfl hw) hk
    try clear_value z1
    refine same_if ?_ ?_
    · extract_lets -merge -underBinder +onlyGivenNames z13
      have h14 : SndSame w r z13 := measureHop_same (sub rfl hw) (snd_snd h2)
      try clear_value z13
      exact enqueueFrame_same (sub rfl hw) (attestAll_same (sub rfl hw) (announce_same (sub rfl hw) (snd_snd h14)))
    · extract_lets -merge -underBinder +onlyGivenNames _ _ z19
      have h20 : Same w r z19 := attestAll_same (sub rfl hw) (announce_same (sub rfl hw) (set_2000000 (sub rfl hw) (snd_snd h2)))
      try clear_value z19
      exact enqueueFrame_same (sub rfl hw) h20
  · extract_lets -merge -underBinder +onlyGivenNames z23
    have h24 : SndSame w r z23 := takeAddress_same (sub rfl hw) hk
    try clear_value z23
    extract_lets -merge -underBinder +onlyGivenNames z43
    have h44 : SndSame w r z43 := measureHop_same (sub rfl hw) (snd_snd h24)
    try clear_value z43
    extract_lets -merge -underBinder +onlyGivenNames _ _ z53
    have h54 : Same w r z53 := attestAll_same (sub rfl hw) (announce_same (sub rfl hw) (set_2000000 (sub rfl hw) (snd_snd h44)))
    try clear_value z53
    exact same_if (enqueueFrame_same (sub rfl hw) h54) (enqueueFrame_same (sub rfl hw) h54)
theorem execToken_same {x0 x1 x2} {S3 : State} (hw : Sub 0x3b7ebdf6 w) (hk : Same w r S3) : OutSame w r (execToken x0 x1 x2 S3) :=
  next_same (sub rfl hw) (receive_same (sub rfl hw) (fun _ h0 => onToken_same (sub rfl hw) h0) hk)
theorem noteBack_same {x0} {S1 : State} (hw : Sub 0x22000000 w) (hk : Same w r S1) : Same w r (noteBack x0 S1) := by
  unfold noteBack
  extract_lets -merge -underBinder +onlyGivenNames _ z0
  have h1 : Same w r z0 := set_2000000 (sub rfl hw) hk
  try clear_value z0
  exact same_if (beginTokens_same (sub rfl hw) h1) h1
theorem flood_same {x0 x1} {S2 : State} (hw : Sub 0x22000000 w) (hk : Same w r S2) : Same w r (flood x0 x1 S2) := by
  unfold flood
  try extract_lets -merge -underBinder +onlyGivenNames z0
  try clear_value z0
  try extract_lets -merge -underBinder +onlyGivenNames z1
  try clear_value z1
  try extract_lets -merge -underBinder +onlyGivenNames z2
  try clear_value z2
  try extract_lets -merge -underBinder +onlyGivenNames z3
  try clear_value z3
  refine same_if (noteBack_same (sub rfl hw) hk) ?_
  refine same_if (enqueueFrame_same (sub rfl hw) hk) ?_
  refine same_if hk ?_
  extract_lets -merge -underBinder +onlyGivenNames _ z4
  have h5 : Same w r z4 := set_2000000 (sub rfl hw) hk
  try clear_value z4
  exact same_if (enqueueFrame_same (sub rfl hw) h5) (enqueueFrame_same (sub rfl hw) h5)
theorem onBeacon_same {x0 x1} {S2 : State} (hw : Sub 0x22000010 w) (hk : Same w r S2) : Same w r (onBeacon x0 x1 S2) :=
  same_if (failAttest_same (sub rfl hw) hk) (flood_same (sub rfl hw) (same_if (restartFlood_same (sub rfl hw) hk) hk))
theorem execBeacon_same {x0 x1 x2} {S3 : State} (hw : Sub 0x2b7ebdf6 w) (hk : Same w r S3) : OutSame w r (execBeacon x0 x1 x2 S3) :=
  next_same (sub rfl hw) (receive_same (sub rfl hw) (fun _ h0 => onBeacon_same (sub rfl hw) h0) hk)
theorem onRoster_same {x0} {S1 : State} (hw : Sub 0x2000000 w) (hk : Same w r S1) : Same w r (onRoster x0 S1) := by
  unfold onRoster
  try extract_lets -merge -underBinder +onlyGivenNames z0
  try clear_value z0
  try extract_lets -merge -underBinder +onlyGivenNames z1
  try clear_value z1
  extract_lets -merge -underBinder +onlyGivenNames z2
  have h3 : Same w r z2 := noteMember_same (sub rfl hw) hk
  try clear_value z2
  exact same_if (set_2000000 (sub rfl hw) h3) h3
theorem execRoster_same {x0 x1 x2} {S3 : State} (hw : Sub 0xb7ebdf6 w) (hk : Same w r S3) : OutSame w r (execRoster x0 x1 x2 S3) :=
  next_same (sub rfl hw) (receive_same (sub rfl hw) (fun _ h0 => routed_same (sub rfl hw) (fun _ h1 => unlessStrange_same (sub rfl hw) (fun _ h2 => onRoster_same (sub rfl hw) h2) h1) h0) hk)
theorem cutBetween_same {x0 x1 x2} {S3 : State} (hw : Sub 0x2000000 w) (hk : Same w r S3) : Same w r (cutBetween x0 x1 x2 S3) :=
  same_if (set_2000000 (sub rfl hw) hk) (set_2000000 (sub rfl hw) hk)
theorem onTopology_same {x0} {S1 : State} (hw : Sub 0x2b7ebdf6 w) (hk : Same w r S1) : Same w r (onTopology x0 S1) := by
  unfold onTopology
  try extract_lets -merge -underBinder +onlyGivenNames z0
  try clear_value z0
  try extract_lets -merge -underBinder +onlyGivenNames z1
  try clear_value z1
  try extract_lets -merge -underBinder +onlyGivenNames z2
  try clear_value z2
  try extract_lets -merge -underBinder +onlyGivenNames z3
  try clear_value z3
  extract_lets -merge -underBinder +onlyGivenNames z4
  have h5 : Same w r z4 := same_if (State_modPort_same (sub rfl hw) hk) hk
  try clear_value z4
  exact same_if (routeChanged_same (sub rfl hw) (cutBetween_same (sub rfl hw) h5)) (set_2000000 (sub rfl hw) h5)
theorem execTopology_same {x0 x1 x2} {S3 : State} (hw : Sub 0x2b7ebdf6 w) (hk : Same w r S3) : OutSame w r (execTopology x0 x1 x2 S3) :=
  next_same (sub rfl hw) (receive_same (sub rfl hw) (fun _ h0 => routed_same (sub rfl hw) (fun _ h1 => unlessStrange_same (sub rfl hw) (fun _ h2 => onTopology_same (sub rfl hw) h2) h1) h0) hk)
theorem linkGone_same {x0} {S1 : State} (hw : Sub 0x2b7ebdf6 w) (hk : Same w r S1) : Same w r (linkGone x0 S1) := by
  refine same_if hk ?_
  try extract_lets -merge -underBinder +onlyGivenNames z0
  try clear_value z0
  try extract_lets -merge -underBinder +onlyGivenNames z1
  try clear_value z1
  extract_lets -merge -underBinder +onlyGivenNames z2
  have h3 : Same w r z2 := State_modPort_same (sub rfl hw) hk
  try clear_value z2
  exact same_if h3 (same_if (same_if h3 (beginFlood_same (sub rfl hw) h3)) (same_if (restartFlood_same (sub rfl hw) h3) (same_if h3 (routeChanged_same (sub rfl hw) (sendAll_same (sub rfl hw) (cutBetween_same (sub rfl hw) h3))))))
theorem execLinkDown_same {x0} {S1 : State} (hw : Sub 0x2b7ebdf6 w) (hk : Same w r S1) : OutSame w r (execLinkDown x0 S1) :=
  next_same (sub rfl hw) (linkGone_same (sub rfl hw) hk)
theorem goBack_same {x0 x1} {S2 : State} (hw : Sub 0x2b7ebdf6 w) (hk : Same w r S2) : Same w r (goBack x0 x1 S2) := by
  unfold goBack
  split
  · exact hk
  · exact same_if (linkGone_same (sub rfl hw) hk) (resendFrom_same (sub rfl hw) hk)
theorem onAck_same {x0 x1} {S2 : State} (hw : Sub 0x2000000 w) (hk : Same w r S2) : Same w r (onAck x0 x1 S2) :=
  pumpPort_same (sub rfl hw) (State_modPort_same (sub rfl hw) hk)
theorem execAck_same {x0 x1 x2} {S3 : State} (hw : Sub 0xb7ebdf6 w) (hk : Same w r S3) : OutSame w r (execAck x0 x1 x2 S3) :=
  next_same (sub rfl hw) (receiveAck_same (sub rfl hw) (fun _ h0 => onAck_same (sub rfl hw) h0) hk)
theorem onNak_same {x0 x1} {S2 : State} (hw : Sub 0x2b7ebdf6 w) (hk : Same w r S2) : Same w r (onNak x0 x1 S2) :=
  pumpPort_same (sub rfl hw) (goBack_same (sub rfl hw) (State_modPort_same (sub rfl hw) hk))
theorem execNak_same {x0 x1 x2} {S3 : State} (hw : Sub 0x2b7ebdf6 w) (hk : Same w r S3) : OutSame w r (execNak x0 x1 x2 S3) :=
  next_same (sub rfl hw) (receiveAck_same (sub rfl hw) (fun _ h0 => onNak_same (sub rfl hw) h0) hk)
theorem ackTimeout_same {x0} {S1 : State} (hw : Sub 0x2b7ebdf6 w) (hk : Same w r S1) : Same w r (ackTimeout x0 S1) := by
  unfold ackTimeout
  split
  · exact hk
  · exact same_if (goBack_same (sub rfl hw) hk) hk
theorem execAckTimeout_same {x0} {S1 : State} (hw : Sub 0x2b7ebdf6 w) (hk : Same w r S1) : OutSame w r (execAckTimeout x0 S1) :=
  next_same (sub rfl hw) (ackTimeout_same (sub rfl hw) hk)
theorem ackTimer_same {x0} {S1 : State} (hw : Sub 0x2000000 w) (hk : Same w r S1) : Same w r (ackTimer x0 S1) :=
  same_if (sendAck_same (sub rfl hw) hk) hk
theorem execAckTimer_same {x0} {S1 : State} (hw : Sub 0x2000000 w) (hk : Same w r S1) : OutSame w r (execAckTimer x0 S1) :=
  next_same (sub rfl hw) (ackTimer_same (sub rfl hw) hk)
theorem retrainDone_same {x0 x1} {S2 : State} (hw : Sub 0x2000000 w) (hk : Same w r S2) : Same w r (retrainDone x0 x1 S2) := by
  refine same_if hk ?_
  extract_lets -merge -underBinder +onlyGivenNames z0
  have h1 : Same w r z0 := State_modPort_same (sub rfl hw) hk
  try clear_value z0
  refine pumpPort_same (sub rfl hw) ?_
  split
  · exact h1
  · exact sendAgain_same (sub rfl hw) h1
theorem execLaneRetrainDone_same {x0 x1} {S2 : State} (hw : Sub 0x2000000 w) (hk : Same w r S2) : OutSame w r (execLaneRetrainDone x0 x1 S2) :=
  next_same (sub rfl hw) (retrainDone_same (sub rfl hw) hk)
theorem tryReassemble_same {S0 : State} (hw : Sub 0x2000010 w) (hk : Same w r S0) : Same w r (tryReassemble S0) :=
  same_if (restartFlood_same (sub rfl hw) (set_2000000 (sub rfl hw) (set_2000000 (sub rfl hw) hk))) hk
theorem linkTrained_same {x0 x1} {S2 : State} (hw : Sub 0x2000010 w) (hk : Same w r S2) : Same w r (linkTrained x0 x1 S2) := by
  refine same_if hk ?_
  refine same_if ?_ (same_if (tryReassemble_same (sub rfl hw) (set_2000000 (sub rfl hw) (State_modPort_same (sub rfl hw) hk))) hk)
  refine same_if hk ?_
  extract_lets -merge -underBinder +onlyGivenNames z0
  have h1 : Same w r z0 := pumpPort_same (sub rfl hw) (State_modPort_same (sub rfl hw) hk)
  try clear_value z0
  exact same_if h1 (beginFlood_same (sub rfl hw) h1)
theorem execRingLinkTrained_same {x0 x1} {S2 : State} (hw : Sub 0x2000010 w) (hk : Same w r S2) : OutSame w r (execRingLinkTrained x0 x1 S2) :=
  next_same (sub rfl hw) (linkTrained_same (sub rfl hw) hk)
theorem reassemble_same {S0 : State} (hw : Sub 0x2000010 w) (hk : Same w r S0) : Same w r (reassemble S0) :=
  tryReassemble_same (sub rfl hw) (set_2000000 (sub rfl hw) hk)
theorem execReassemble_same {S0 : State} (hw : Sub 0x2000010 w) (hk : Same w r S0) : OutSame w r (execReassemble S0) :=
  next_same (sub rfl hw) (same_if (reassemble_same (sub rfl hw) hk) hk)
theorem endRing_same {S0 : State} (hw : Sub 0x2000010 w) (hk : Same w r S0) : Same w r (endRing S0) :=
  same_if hk (sendJoins_same (sub rfl hw) (raiseEv_same (sub rfl hw) (set_2000000 (sub rfl hw) hk)))
theorem replayDoorbells_same {S0 : State} (hw : Sub 0x80001d0 w) (hk : Same w r S0) : Same w r (replayDoorbells S0) :=
  same_foldl (fun _ _ h0 => same_if (cqDoorbell_same (sub rfl hw) h0) (sqDoorbell_same (sub rfl hw) h0)) (set_80 (sub rfl hw) hk)
theorem chainStatus_same {x0} {S1 : State} (hw : Sub 0x80001c0 w) (hk : Same w r S1) : Same w r (chainStatus x0 S1) :=
  same_if (mEnd_same (sub rfl hw) hk) (same_if (mEnd_same (sub rfl hw) hk) (same_if (complete_same (sub rfl hw) hk) (mOk_same (sub rfl hw) (hostWrite_same (sub rfl hw) hk))))
theorem execChainStatus_same {x0} {S1 : State} (hw : Sub 0x80001c0 w) (hk : Same w r S1) : OutSame w r (execChainStatus x0 S1) :=
  next_same (sub rfl hw) (mgmtCmd_same (sub rfl hw) (fun _ _ h0 => chainStatus_same (sub rfl hw) h0) hk)

/-! ### Ingot -/

theorem writeEntry_same {x0 x1 x2} {S3 : State} (hw : Sub 0x8 w) (hk : Same w r S3) : Same w r (writeEntry x0 x1 x2 S3) := by
  unfold writeEntry
  split
  · exact hk
  · exact set_8 (sub rfl hw) hk
theorem logReadEntries_same {x0} {S1 : State} (hw : Sub 0x80001c0 w) (hk : Same w r S1) : Same w r (logReadEntries x0 S1) :=
  same_if (mEnd_same (sub rfl hw) hk) (same_if (mEnd_same (sub rfl hw) hk) (same_if (complete_same (sub rfl hw) hk) (mOk_same (sub rfl hw) (hostWrite_same (sub rfl hw) hk))))
theorem execLogReadEntries_same {x0} {S1 : State} (hw : Sub 0x80001c0 w) (hk : Same w r S1) : OutSame w r (execLogReadEntries x0 S1) :=
  next_same (sub rfl hw) (subCmd_same (sub rfl hw) (fun _ _ h0 => logReadEntries_same (sub rfl hw) h0) hk)
theorem logReadCertificates_same {x0} {S1 : State} (hw : Sub 0x80001c0 w) (hk : Same w r S1) : Same w r (logReadCertificates x0 S1) :=
  same_if (mEnd_same (sub rfl hw) hk) (same_if (mEnd_same (sub rfl hw) hk) (same_if (complete_same (sub rfl hw) hk) (mOk_same (sub rfl hw) (hostWrite_same (sub rfl hw) hk))))
theorem execLogReadCertificates_same {x0} {S1 : State} (hw : Sub 0x80001c0 w) (hk : Same w r S1) : OutSame w r (execLogReadCertificates x0 S1) :=
  next_same (sub rfl hw) (subCmd_same (sub rfl hw) (fun _ _ h0 => logReadCertificates_same (sub rfl hw) h0) hk)
theorem serviceChallenge_same {x0} {S1 : State} (hw : Sub 0x180001c8 w) (hk : Same w r S1) : Same w r (serviceChallenge x0 S1) :=
  same_if (mEnd_same (sub rfl hw) hk) (same_if (mEnd_same (sub rfl hw) hk) (same_if (mEnd_same (sub rfl hw) hk) (same_if (mEnd_same (sub rfl hw) hk) (mOk_same (sub rfl hw) (hostWrite_same (sub rfl hw) (set_8 (sub rfl hw) (drawn_same (sub rfl hw) hk)))))))
theorem execServiceChallenge_same {x0} {S1 : State} (hw : Sub 0x180001c8 w) (hk : Same w r S1) : OutSame w r (execServiceChallenge x0 S1) :=
  next_same (sub rfl hw) (mgmtCmd_same (sub rfl hw) (fun _ _ h0 => serviceChallenge_same (sub rfl hw) h0) hk)
theorem serviceFail_same {x0} {S1 : State} (hw : Sub 0x80001d8 w) (hk : Same w r S1) : Same w r (serviceFail x0 S1) :=
  mEnd_same (sub rfl hw) (raiseEv_same (sub rfl hw) (set_8 (sub rfl hw) hk))
theorem openService_same {x0} {S1 : State} (hw : Sub 0x1e w) (hk : Same w r S1) : Same w r (openService x0 S1) :=
  raiseEv_same (sub rfl hw) (setMode_same (sub rfl hw) (set_8 (sub rfl hw) hk))
theorem challengeLapse_same {S0 : State} (hw : Sub 0x8 w) (hk : Same w r S0) : Same w r (challengeLapse S0) :=
  set_8 (sub rfl hw) hk
theorem execChallengeLapse_same {S0 : State} (hw : Sub 0x8 w) (hk : Same w r S0) : OutSame w r (execChallengeLapse S0) :=
  next_same (sub rfl hw) (challengeLapse_same (sub rfl hw) hk)

/-! ### Firmware -/

theorem writeDirRec_same {x0 x1} {S2 : State} (hw : Sub 0x8 w) (hk : Same w r S2) : Same w r (writeDirRec x0 x1 S2) := by
  unfold writeDirRec
  try extract_lets -merge -underBinder +onlyGivenNames z0
  try clear_value z0
  split
  · exact set_8 (sub rfl hw) hk
  · exact set_8 (sub rfl hw) hk
  · exact same_if (set_8 (sub rfl hw) hk) (set_8 (sub rfl hw) hk)
theorem setTrial_same {x0} {S1 : State} (hw : Sub 0x8 w) (hk : Same w r S1) : Same w r (setTrial x0 S1) :=
  writeDirRec_same (sub rfl hw) hk
theorem bootLoad_same {x0} {S1 : State} (hw : Sub 0x400001a w) (hk : Same w r S1) : Same w r (bootLoad x0 S1) := by
  unfold bootLoad
  try extract_lets -merge -underBinder +onlyGivenNames z0
  try clear_value z0
  try extract_lets -merge -underBinder +onlyGivenNames z1
  try clear_value z1
  try extract_lets -merge -underBinder +onlyGivenNames z2
  try clear_value z2
  extract_lets -merge -underBinder +onlyGivenNames z3
  have h4 : Same w r z3 := by
    unfold z3
    split
    · exact same_if (setTrial_same (sub rfl hw) (setTrial_same (sub rfl hw) hk)) (setTrial_same (sub rfl hw) hk)
    · exact hk
  try clear_value z3
  try extract_lets -merge -underBinder +onlyGivenNames z5
  try clear_value z5
  try extract_lets -merge -underBinder +onlyGivenNames z6
  try clear_value z6
  extract_lets -merge -underBinder +onlyGivenNames z7
  have h8 : Same w r z7 := same_if (raiseEv_same (sub rfl hw) h4) h4
  try clear_value z7
  try extract_lets -merge -underBinder +onlyGivenNames z26
  try clear_value z26
  extract_lets -merge -underBinder +onlyGivenNames _ z27
  have h28 : Same w r z27 := set_4000008 (sub rfl hw) h8
  try clear_value z27
  try extract_lets -merge -underBinder +onlyGivenNames z36
  try clear_value z36
  extract_lets -merge -underBinder +onlyGivenNames _ z37
  have h38 : Same w r z37 := set_4000008 (sub rfl hw) h28
  try clear_value z37
  extract_lets -merge -underBinder +onlyGivenNames z41
  have h42 : Same w r z41 := by
    unfold z41
    split
    · exact raiseEv_same (sub rfl hw) h38
    · exact h38
  try clear_value z41
  exact set_a (sub rfl hw) h42
theorem bootImagesLoaded_same {x0} {S1 : State} (hw : Sub 0x400001a w) (hk : Same w r S1) : Same w r (bootImagesLoaded x0 S1) :=
  same_if (bootLoad_same (sub rfl hw) hk) hk
theorem execBootImagesLoaded_same {x0} {S1 : State} (hw : Sub 0x400001a w) (hk : Same w r S1) : OutSame w r (execBootImagesLoaded x0 S1) :=
  next_same (sub rfl hw) (bootImagesLoaded_same (sub rfl hw) hk)
theorem deriveAlias_same {S0 : State} (hw : Sub 0x8 w) (hk : Same w r S0) : Same w r (deriveAlias S0) :=
  same_if hk (set_8 (sub rfl hw) hk)
theorem applyProfile_same {S0 : State} (hw : Sub 0x1062000 w) (hk : Same w r S0) : Same w r (applyProfile S0) :=
  writePreamps_same (sub rfl hw) (applyMotion_same (sub rfl hw) (set_60000 (sub rfl hw) hk))
theorem startRing_same {S0 : State} (hw : Sub 0x2000000 w) (hk : Same w r S0) : Same w r (startRing S0) := by
  unfold startRing
  extract_lets -merge -underBinder +onlyGivenNames z0
  have h1 : Same w r z0 := clearAssembly_same (sub rfl hw) hk
  try clear_value z0
  exact same_if (standAlone_same (sub rfl hw) h1) (set_2000000 (sub rfl hw) h1)
theorem bootEntrySigned_same {S0 : State} (hw : Sub 0x3b7e3dfe w) (hk : Same w r S0) : Same w r (bootEntrySigned S0) := by
  refine same_if hk ?_
  extract_lets -merge -underBinder +onlyGivenNames z0
  have h1 : Same w r z0 := writeEntry_same (sub rfl hw) (deriveAlias_same (sub rfl hw) hk)
  try clear_value z0
  refine same_if (enterPewter_same (sub rfl hw) h1) ?_
  extract_lets -merge -underBinder +onlyGivenNames _ z8
  have h9 : Same w r z8 := setMode_same (sub rfl hw) (set_2 (sub rfl hw) h1)
  try clear_value z8
  extract_lets -merge -underBinder +onlyGivenNames z12
  have h13 : Same w r z12 := enablePans_same (sub rfl hw) (cxlBringup_same (sub rfl hw) (applyProfile_same (sub rfl hw) h9))
  try clear_value z12
  exact same_if (startRing_same (sub rfl hw) h13) h13
theorem execBootEntrySigned_same {S0 : State} (hw : Sub 0x3b7e3dfe w) (hk : Same w r S0) : OutSame w r (execBootEntrySigned S0) :=
  next_same (sub rfl hw) (bootEntrySigned_same (sub rfl hw) hk)
theorem confirmTrial_same {S0 : State} (hw : Sub 0x8 w) (hk : Same w r S0) : Same w r (confirmTrial S0) :=
  same_if (set_8 (sub rfl hw) (writeDirRec_same (sub rfl hw) hk)) hk
theorem reachIdle_same {S0 : State} (hw : Sub 0xb7e3dfe w) (hk : Same w r S0) : Same w r (reachIdle S0) := by
  unfold reachIdle
  extract_lets -merge -underBinder +onlyGivenNames _ z0
  have h1 : Same w r z0 := replayDoorbells_same (sub rfl hw) (confirmTrial_same (sub rfl hw) (setMode_same (sub rfl hw) (set_2 (sub rfl hw) hk)))
  try clear_value z0
  split
  · exact enterPewter_same (sub rfl hw) h1
  · exact h1
theorem assemblyEnd_same {S0 : State} (hw : Sub 0xb7e3dfe w) (hk : Same w r S0) : Same w r (assemblyEnd S0) := by
  refine same_if hk ?_
  extract_lets -merge -underBinder +onlyGivenNames z0
  have h1 : Same w r z0 := endRing_same (sub rfl hw) hk
  try clear_value z0
  exact same_if (reachIdle_same (sub rfl hw) h1) h1
theorem execAssemblyEnd_same {S0 : State} (hw : Sub 0xb7e3dfe w) (hk : Same w r S0) : OutSame w r (execAssemblyEnd S0) :=
  next_same (sub rfl hw) (assemblyEnd_same (sub rfl hw) hk)
theorem fwStageWrite_same {x0} {S1 : State} (hw : Sub 0x80001c8 w) (hk : Same w r S1) : Same w r (fwStageWrite x0 S1) :=
  same_if (mEnd_same (sub rfl hw) hk) (same_if (mEnd_same (sub rfl hw) hk) (same_if (mEnd_same (sub rfl hw) hk) (mOk_same (sub rfl hw) (set_8 (sub rfl hw) hk))))
theorem execFwStageWrite_same {x0} {S1 : State} (hw : Sub 0x80001c8 w) (hk : Same w r S1) : OutSame w r (execFwStageWrite x0 S1) :=
  next_same (sub rfl hw) (subCmd_same (sub rfl hw) (fun _ _ h0 => fwStageWrite_same (sub rfl hw) h0) hk)
theorem fwStageFinish_same {x0} {S1 : State} (hw : Sub 0x80001d8 w) (hk : Same w r S1) : Same w r (fwStageFinish x0 S1) := by
  refine same_if (mEnd_same (sub rfl hw) hk) ?_
  refine same_if (mEnd_same (sub rfl hw) hk) ?_
  try extract_lets -merge -underBinder +onlyGivenNames z0
  try clear_value z0
  split
  · exact mEnd_same (sub rfl hw) (raiseEv_same (sub rfl hw) (set_8 (sub rfl hw) hk))
  · exact mOk_same (sub rfl hw) (set_8 (sub rfl hw) hk)
theorem execFwStageFinish_same {x0} {S1 : State} (hw : Sub 0x80001d8 w) (hk : Same w r S1) : OutSame w r (execFwStageFinish x0 S1) :=
  next_same (sub rfl hw) (subCmd_same (sub rfl hw) (fun _ _ h0 => fwStageFinish_same (sub rfl hw) h0) hk)
theorem fwStageAbandon_same {x0} {S1 : State} (hw : Sub 0x80001c8 w) (hk : Same w r S1) : Same w r (fwStageAbandon x0 S1) :=
  same_if (mEnd_same (sub rfl hw) hk) (same_if (mEnd_same (sub rfl hw) hk) (mOk_same (sub rfl hw) (set_8 (sub rfl hw) hk)))
theorem execFwStageAbandon_same {x0} {S1 : State} (hw : Sub 0x80001c8 w) (hk : Same w r S1) : OutSame w r (execFwStageAbandon x0 S1) :=
  next_same (sub rfl hw) (subCmd_same (sub rfl hw) (fun _ _ h0 => fwStageAbandon_same (sub rfl hw) h0) hk)
theorem activateWhen_same {x0 x1 x2} {S3 : State} (hw : Sub 0x80001c0 w) (hx2 : ∀ s, Same w r s → Same w r (x2 s)) (hk : Same w r S3) : Same w r (activateWhen x0 x1 x2 S3) :=
  same_if (mEnd_same (sub rfl hw) hk) (same_if (mEnd_same (sub rfl hw) hk) (hx2 _ hk))
theorem fwActivateNext_same {x0} {S1 : State} (hw : Sub 0x80001c8 w) (hk : Same w r S1) : Same w r (fwActivateNext x0 S1) :=
  activateWhen_same (sub rfl hw) (fun _ h0 => mOk_same (sub rfl hw) (setTrial_same (sub rfl hw) h0)) hk
theorem execFwActivateNext_same {x0} {S1 : State} (hw : Sub 0x80001c8 w) (hk : Same w r S1) : OutSame w r (execFwActivateNext x0 S1) :=
  next_same (sub rfl hw) (subCmd_same (sub rfl hw) (fun _ _ h0 => fwActivateNext_same (sub rfl hw) h0) hk)
theorem fwActivateCommitSvn_same {x0} {S1 : State} (hw : Sub 0x80001c8 w) (hk : Same w r S1) : Same w r (fwActivateCommitSvn x0 S1) :=
  activateWhen_same (sub rfl hw) (fun _ h => mOk_same (sub rfl hw) (set_8 (sub rfl hw) h)) hk
theorem execFwActivateCommitSvn_same {x0} {S1 : State} (hw : Sub 0x80001c8 w) (hk : Same w r S1) : OutSame w r (execFwActivateCommitSvn x0 S1) :=
  next_same (sub rfl hw) (subCmd_same (sub rfl hw) (fun _ _ h0 => fwActivateCommitSvn_same (sub rfl hw) h0) hk)
theorem fwActivateCancel_same {x0} {S1 : State} (hw : Sub 0x80001c8 w) (hk : Same w r S1) : Same w r (fwActivateCancel x0 S1) :=
  activateWhen_same (sub rfl hw) (fun _ h0 => mOk_same (sub rfl hw) (setTrial_same (sub rfl hw) h0)) hk
theorem execFwActivateCancel_same {x0} {S1 : State} (hw : Sub 0x80001c8 w) (hk : Same w r S1) : OutSame w r (execFwActivateCancel x0 S1) :=
  next_same (sub rfl hw) (subCmd_same (sub rfl hw) (fun _ _ h0 => fwActivateCancel_same (sub rfl hw) h0) hk)

/-! ### Mover -/

theorem fillBuffer_same {x0 x1 x2} {s : State} (hw : Sub 0x60000 w) (hk : Same w r s) : Same w r (fillBuffer x0 x1 x2 s) := by
  induction x0 generalizing x1 x2 s with
  | zero => exact hk
  | succ n ih => exact same_if (hk) (ih (same_if (putData_same (sub rfl hw) hk) (hk)))
theorem setPort_same {x0 x1} {S2 : State} (hw : Sub 0x80000 w) (hk : Same w r S2) : Same w r (setPort x0 x1 S2) :=
  set_80000 (sub rfl hw) hk
theorem readSpace_same {x0 x1 x2 x3 x4} {S5 : State} (hw : Sub 0xb7ebdf6 w) (hk : Same w r S5) : SndSame w r (readSpace x0 x1 x2 x3 x4 S5) :=
  snd_if (snd_mk (snd_snd (readBuffer_same (sub rfl hw) hk))) (snd_if (snd_if (snd_mk hk) (snd_mk (setPort_same (sub rfl hw) hk))) (snd_mk hk))
theorem writeSpace_same {x0 x1 x2 x3 x4} {S5 : State} (hw : Sub 0xb7ebdf6 w) (hk : Same w r S5) : SndSame w r (writeSpace x0 x1 x2 x3 x4 S5) :=
  snd_if (writeBuffer_same (sub rfl hw) hk) (snd_if (snd_mk (setPort_same (sub rfl hw) hk)) (snd_mk (hostWrite_same (sub rfl hw) hk)))
theorem modDesc_same {x0 x1} {S2 : State} (hw : Sub 0x80000 w) (hk : Same w r S2) : Same w r (modDesc x0 x1 S2) :=
  set_80000 (sub rfl hw) hk
theorem endBad_same {x0 x1 x2 x3} {S4 : State} (hw : Sub 0x80010 w) (hk : Same w r S4) : Same w r (endBad x0 x1 x2 x3 S4) :=
  raiseEv_same (sub rfl hw) (endDesc_same (sub rfl hw) hk)
theorem bufSegment_same {x0 x1 x2} {s : State} (hw : Sub 0xb7ebdf6 w) (hk : Same w r s) : SndSame w r (bufSegment x0 x1 x2 s) := by
  induction x0 generalizing x1 x2 s with
  | zero => exact hk
  | succ n ih =>
    unfold bufSegment
    refine snd_if hk ?_
    dsimp only
    split
    · rename_i he
      exact snd_mk (snd_elim he (readBuffer_same (sub rfl hw) hk))
    · rename_i he
      have h := snd_elim he (readBuffer_same (sub rfl hw) hk)
      exact snd_if (snd_mk h) (snd_mk (snd_snd (ih h)))
theorem movSegment_same {x0 x1 x2 x3} {S4 : State} (hw : Sub 0xb7ebdf6 w) (hk : Same w r S4) : SndSame w r (movSegment x0 x1 x2 x3 S4) :=
  snd_if (bufSegment_same (sub rfl hw) hk) (snd_mk hk)
theorem loadMovSegment_same {x0 x1 x2 x3} {S4 : State} (hw : Sub 0xb7ebdf6 w) (hk : Same w r S4) : Same w r (loadMovSegment x0 x1 x2 x3 S4) := by
  unfold loadMovSegment
  extract_lets -merge -underBinder +onlyGivenNames z0
  have h1 : SndSame w r z0 := movSegment_same (sub rfl hw) hk
  try clear_value z0
  split
  · exact endDesc_same (sub rfl hw) (snd_snd h1)
  · split
    · exact endBad_same (sub rfl hw) (snd_snd h1)
    · exact modDesc_same (sub rfl hw) (snd_snd h1)
theorem dropRetired_same {S0 : State} (hw : Sub 0x80000 w) (hk : Same w r S0) : Same w r (dropRetired S0) :=
  set_80000 (sub rfl hw) hk
theorem bindLines_same {S0 : State} (hw : Sub 0x80000 w) (hk : Same w r S0) : Same w r (bindLines S0) :=
  set_80000 (sub rfl hw) hk
theorem assignWork_same {S0 : State} (hw : Sub 0x80000 w) (hk : Same w r S0) : Same w r (assignWork S0) := by
  refine same_foldl (fun _ _ h0 => ?_) (bindLines_same (sub rfl hw) (dropRetired_same (sub rfl hw) hk))
  split
  · exact h0
  · split
    · exact h0
    · exact set_80000 (sub rfl hw) h0
theorem movedBytes_same {x0 x1 x2} {S3 : State} (hw : Sub 0x80000 w) (hk : Same w r S3) : Same w r (movedBytes x0 x1 x2 S3) :=
  moverMoved_same (sub rfl hw) (modDesc_same (sub rfl hw) hk)
theorem endIfDone_same {x0 x1} {S2 : State} (hw : Sub 0x80000 w) (hk : Same w r S2) : Same w r (endIfDone x0 x1 S2) := by
  unfold endIfDone
  split
  · exact hk
  · exact same_if (endDesc_same (sub rfl hw) hk) hk
theorem endWrite_same {x0 x1 x2 x3} {S4 : State} (hw : Sub 0x80000 w) (hk : Same w r S4) : Same w r (endWrite x0 x1 x2 x3 S4) := by
  unfold endWrite
  split
  · exact hk
  · exact same_if (endDesc_same (sub rfl hw) hk) hk
theorem copyBurst_same {x0 x1} {S2 : State} (hw : Sub 0xb7ebdf6 w) (hk : Same w r S2) : Same w r (copyBurst x0 x1 S2) := by
  unfold copyBurst
  try extract_lets -merge -underBinder +onlyGivenNames z0
  try clear_value z0
  try extract_lets -merge -underBinder +onlyGivenNames z1
  try clear_value z1
  try extract_lets -merge -underBinder +onlyGivenNames z2
  try clear_value z2
  extract_lets -merge -underBinder +onlyGivenNames z3
  have h4 : SndSame w r z3 := readSpace_same (sub rfl hw) hk
  try clear_value z3
  split
  · exact hk
  · exact endDesc_same (sub rfl hw) (snd_snd h4)
  · extract_lets -merge -underBinder +onlyGivenNames z7
    have h8 : SndSame w r z7 := writeSpace_same (sub rfl hw) (snd_snd h4)
    try clear_value z7
    exact same_if (endWrite_same (sub rfl hw) (snd_snd h8)) (endIfDone_same (sub rfl hw) (movedBytes_same (sub rfl hw) (snd_snd h8)))
theorem fillBurst_same {x0 x1} {S2 : State} (hw : Sub 0xb7ebdf6 w) (hk : Same w r S2) : Same w r (fillBurst x0 x1 S2) := by
  unfold fillBurst
  try extract_lets -merge -underBinder +onlyGivenNames z0
  try clear_value z0
  try extract_lets -merge -underBinder +onlyGivenNames z1
  try clear_value z1
  extract_lets -merge -underBinder +onlyGivenNames z2
  have h3 : SndSame w r z2 := snd_if (snd_mk (fillBuffer_same (sub rfl hw) hk)) (writeBuffer_same (sub rfl hw) hk)
  try clear_value z2
  exact same_if (endWrite_same (sub rfl hw) (snd_snd h3)) (endIfDone_same (sub rfl hw) (movedBytes_same (sub rfl hw) (snd_snd h3)))
theorem compareBurst_same {x0 x1} {S2 : State} (hw : Sub 0xb7ebdf6 w) (hk : Same w r S2) : Same w r (compareBurst x0 x1 S2) := by
  unfold compareBurst
  try extract_lets -merge -underBinder +onlyGivenNames z0
  try clear_value z0
  try extract_lets -merge -underBinder +onlyGivenNames z1
  try clear_value z1
  try extract_lets -merge -underBinder +onlyGivenNames z2
  try clear_value z2
  try extract_lets -merge -underBinder +onlyGivenNames z3
  try clear_value z3
  extract_lets -merge -underBinder +onlyGivenNames z4
  have h5 : SndSame w r z4 := readSpace_same (sub rfl hw) hk
  try clear_value z4
  extract_lets -merge -underBinder +onlyGivenNames z12
  have h13 : SndSame w r z12 := snd_if (snd_mk (snd_snd h5)) (readSpace_same (sub rfl hw) (snd_snd h5))
  try clear_value z12
  split
  · extract_lets -merge -underBinder +onlyGivenNames z16
    have h17 : Same w r z16 := movedBytes_same (sub rfl hw) (snd_snd h13)
    try clear_value z16
    split
    · split
      · exact endDesc_same (sub rfl hw) h17
      · exact h17
    · exact endIfDone_same (sub rfl hw) h17
  · exact endDesc_same (sub rfl hw) (snd_snd h13)
  · exact endDesc_same (sub rfl hw) (snd_snd h13)
  · exact hk
theorem entryBurst_same {x0 x1 x2} {S3 : State} (hw : Sub 0xb7ebdf6 w) (hk : Same w r S3) : Same w r (entryBurst x0 x1 x2 S3) := by
  unfold entryBurst
  try extract_lets -merge -underBinder +onlyGivenNames z0
  try clear_value z0
  try extract_lets -merge -underBinder +onlyGivenNames z1
  try clear_value z1
  try extract_lets -merge -underBinder +onlyGivenNames z2
  try clear_value z2
  try extract_lets -merge -underBinder +onlyGivenNames z3
  try clear_value z3
  try extract_lets -merge -underBinder +onlyGivenNames z4
  try clear_value z4
  try extract_lets -merge -underBinder +onlyGivenNames z5
  try clear_value z5
  extract_lets -merge -underBinder +onlyGivenNames z6
  have h7 : SndSame w r z6 := snd_if (readSpace_same (sub rfl hw) hk) (readSpace_same (sub rfl hw) hk)
  try clear_value z6
  split
  · exact hk
  · exact endDesc_same (sub rfl hw) (snd_snd h7)
  · extract_lets -merge -underBinder +onlyGivenNames z10
    have h11 : SndSame w r z10 := snd_if (writeSpace_same (sub rfl hw) (snd_snd h7)) (writeSpace_same (sub rfl hw) (snd_snd h7))
    try clear_value z10
    exact same_if (endWrite_same (sub rfl hw) (snd_snd h11)) (movedBytes_same (sub rfl hw) (snd_snd h11))
theorem nextEntry_same {x0 x1} {S2 : State} (hw : Sub 0xb7ebdf6 w) (hk : Same w r S2) : Same w r (nextEntry x0 x1 S2) := by
  unfold nextEntry
  split
  · exact hk
  · split
    · exact endDesc_same (sub rfl hw) hk
    · refine same_if ?_ (same_if (same_if (endDesc_same (sub rfl hw) hk) (modDesc_same (sub rfl hw) hk)) hk)
      extract_lets -merge -underBinder +onlyGivenNames z0
      have h1 : Same w r z0 := modDesc_same (sub rfl hw) hk
      try clear_value z0
      split
      · exact loadMovSegment_same (sub rfl hw) h1
      · exact h1
theorem settleEntries_same {x0 x1 x2} {s : State} (hw : Sub 0xb7ebdf6 w) (hk : Same w r s) : Same w r (settleEntries x0 x1 x2 s) := by
  induction x2 generalizing s with
  | zero => exact hk
  | succ n ih => exact ih (nextEntry_same (sub rfl hw) hk)
theorem descBurst_same {x0 x1} {S2 : State} (hw : Sub 0xb7ebdf6 w) (hk : Same w r S2) : Same w r (descBurst x0 x1 S2) := by
  refine same_if (copyBurst_same (sub rfl hw) hk) ?_
  refine same_if (fillBurst_same (sub rfl hw) hk) ?_
  refine same_if (compareBurst_same (sub rfl hw) hk) ?_
  split
  · exact hk
  · exact settleEntries_same (sub rfl hw) (same_if hk (entryBurst_same (sub rfl hw) hk))
theorem serveLine_same {x0} {S1 : State} (hw : Sub 0x80000 w) (hk : Same w r S1) : Same w r (serveLine x0 S1) :=
  same_dite (fun _ => same_if hk (set_80000 (sub rfl hw) hk)) (fun _ => hk)
theorem failDesc_same {x0 x1} {S2 : State} (hw : Sub 0xb7ebdf6 w) (hk : Same w r S2) : Same w r (failDesc x0 x1 S2) := by
  unfold failDesc
  try extract_lets -merge -underBinder +onlyGivenNames z0
  try clear_value z0
  try extract_lets -merge -underBinder +onlyGivenNames z1
  try clear_value z1
  extract_lets -merge -underBinder +onlyGivenNames z2
  have h3 : Same w r z2 := strike_same (sub rfl hw) (raiseResend_same (sub rfl hw) hk)
  try clear_value z2
  split
  · exact modDesc_same (sub rfl hw) h3
  · exact modDesc_same (sub rfl hw) h3
  · exact modDesc_same (sub rfl hw) h3
  · exact endDesc_same (sub rfl hw) h3
theorem freeMover_same {x0} {S1 : State} (hw : Sub 0x80000 w) (hk : Same w r S1) : Same w r (freeMover x0 S1) :=
  set_80000 (sub rfl hw) hk
theorem runBurst_same {x0 x1 x2} {S3 : State} (hw : Sub 0xb7ebdf6 w) (hk : Same w r S3) : Same w r (runBurst x0 x1 x2 S3) := by
  unfold runBurst
  split
  · exact hk
  · refine same_if hk ?_
    split
    · exact same_if (assignWork_same (sub rfl hw) (freeMover_same (sub rfl hw) (failDesc_same (sub rfl hw) hk))) hk
    · exact same_if hk (assignWork_same (sub rfl hw) (freeMover_same (sub rfl hw) (descBurst_same (sub rfl hw) (serveLine_same (sub rfl hw) (passAfter_same (sub rfl hw) hk)))))
theorem runBursts_same {x0 x1} {s : State} (hw : Sub 0xb7ebdf6 w) (hk : Same w r s) : Same w r (runBursts x0 x1 s) := by
  induction x1 generalizing s with
  | zero => exact hk
  | succ n ih =>
    unfold runBursts
    split
    · exact hk
    · exact ih (runBurst_same (sub rfl hw) hk)
theorem postDesc_same {x0 x1 x2} {S3 : State} (hw : Sub 0x2b7ebdf6 w) (hk : Same w r S3) : Same w r (postDesc x0 x1 x2 S3) := by
  unfold postDesc
  try extract_lets -merge -underBinder +onlyGivenNames z0
  try clear_value z0
  extract_lets -merge -underBinder +onlyGivenNames z1
  have h2 : Same w r z1 := set_20000000 (sub rfl hw) hk
  try clear_value z1
  refine same_if (endBad_same (sub rfl hw) h2) ?_
  refine same_if (endBad_same (sub rfl hw) h2) ?_
  extract_lets -merge -underBinder +onlyGivenNames _ z9
  have h10 : Same w r z9 := set_80000 (sub rfl hw) h2
  try clear_value z9
  extract_lets -merge -underBinder +onlyGivenNames z13
  have h14 : Same w r z13 := same_if (settleEntries_same (sub rfl hw) (loadMovSegment_same (sub rfl hw) h10)) (endIfDone_same (sub rfl hw) h10)
  try clear_value z13
  exact runBursts_same (sub rfl hw) (assignWork_same (sub rfl hw) h14)
theorem execOp_same {x0 x1 x2} {S3 : State} (hw : Sub 0x2b7ebdf6 w) (hk : Same w r S3) : Same w r (execOp x0 x1 x2 S3) :=
  same_if (postDesc_same (sub rfl hw) hk) hk
theorem execCopy_same {x0 x1} {S2 : State} (hw : Sub 0x2b7ebdf6 w) (hk : Same w r S2) : OutSame w r (execCopy x0 x1 S2) :=
  next_same (sub rfl hw) (execOp_same (sub rfl hw) hk)
theorem execFill_same {x0 x1} {S2 : State} (hw : Sub 0x2b7ebdf6 w) (hk : Same w r S2) : OutSame w r (execFill x0 x1 S2) :=
  next_same (sub rfl hw) (execOp_same (sub rfl hw) hk)
theorem execCompare_same {x0 x1} {S2 : State} (hw : Sub 0x2b7ebdf6 w) (hk : Same w r S2) : OutSame w r (execCompare x0 x1 S2) :=
  next_same (sub rfl hw) (execOp_same (sub rfl hw) hk)
theorem execGather_same {x0 x1} {S2 : State} (hw : Sub 0x2b7ebdf6 w) (hk : Same w r S2) : OutSame w r (execGather x0 x1 S2) :=
  next_same (sub rfl hw) (execOp_same (sub rfl hw) hk)
theorem execScatter_same {x0 x1} {S2 : State} (hw : Sub 0x2b7ebdf6 w) (hk : Same w r S2) : OutSame w r (execScatter x0 x1 S2) :=
  next_same (sub rfl hw) (execOp_same (sub rfl hw) hk)
theorem requestLine_same {x0} {S1 : State} (hw : Sub 0x20080000 w) (hk : Same w r S1) : Same w r (requestLine x0 S1) :=
  same_if hk (assignWork_same (sub rfl hw) (set_20080000 (sub rfl hw) hk))
theorem execRequestLine_same {x0} {S1 : State} (hw : Sub 0x20080000 w) (hk : Same w r S1) : OutSame w r (execRequestLine x0 S1) :=
  next_same (sub rfl hw) (requestLine_same (sub rfl hw) hk)
theorem postService_same {S0 : State} (hw : Sub 0x2b7ebdf6 w) (hk : Same w r S0) : Same w r (postService S0) :=
  same_if hk (postDesc_same (sub rfl hw) (set_80000 (sub rfl hw) hk))
theorem execServiceDescriptorPost_same {S0 : State} (hw : Sub 0x2b7ebdf6 w) (hk : Same w r S0) : OutSame w r (execServiceDescriptorPost S0) :=
  next_same (sub rfl hw) (postService_same (sub rfl hw) hk)
theorem failHostBurst_same {x0 x1 x2 x3} {S4 : State} (hw : Sub 0xb7ebdf6 w) (hk : Same w r S4) : Same w r (failHostBurst x0 x1 x2 x3 S4) := by
  unfold failHostBurst
  try extract_lets -merge -underBinder +onlyGivenNames z0
  try clear_value z0
  extract_lets -merge -underBinder +onlyGivenNames z1
  have h2 : Same w r z1 := strike_same (sub rfl hw) (raiseResend_same (sub rfl hw) hk)
  try clear_value z1
  split
  · exact State_modCmd_same (sub rfl hw) h2
  · exact State_modCmd_same (sub rfl hw) h2
  · exact State_modCmd_same (sub rfl hw) h2
  · exact settleWaits_same (sub rfl hw) (loseStream_same (sub rfl hw) h2)
theorem hostIn_same {x0 x1 x2 x3} {S4 : State} (hw : Sub 0x3b7ebff6 w) (hk : Same w r S4) : Same w r (hostIn x0 x1 x2 x3 S4) := by
  unfold hostIn
  split
  · exact hk
  · split
    · exact hk
    · refine same_if hk ?_
      extract_lets -merge -underBinder +onlyGivenNames z0
      have h1 : Same w r z0 := serveOldest_same (sub rfl hw) hk
      try clear_value z0
      split
      · exact failHostBurst_same (sub rfl hw) h1
      · exact hostBurst_same (sub rfl hw) (passAfter_same (sub rfl hw) (moverMoved_same (sub rfl hw) (State_modCmd_same (sub rfl hw) h1)))
theorem burstDone_same {x0 x1 x2} {S3 : State} (hw : Sub 0x3b7ebff6 w) (hk : Same w r S3) : Same w r (burstDone x0 x1 x2 S3) := by
  unfold burstDone
  split
  · exact runBurst_same (sub rfl hw) (same_if (assignWork_same (sub rfl hw) hk) hk)
  · exact hostIn_same (sub rfl hw) hk
  · exact panIn_same (sub rfl hw) hk
  · exact extractBlock_same (sub rfl hw) hk
  · exact deliverNext_same (sub rfl hw) hk
theorem execBurstDone_same {x0 x1 x2} {S3 : State} (hw : Sub 0x3b7ebff6 w) (hk : Same w r S3) : OutSame w r (execBurstDone x0 x1 x2 S3) :=
  next_same (sub rfl hw) (burstDone_same (sub rfl hw) hk)
theorem dataFault_same {x0 x1} {S2 : State} (hw : Sub 0x84015c0 w) (hk : Same w r S2) : Same w r (dataFault x0 x1 S2) := by
  unfold dataFault
  split
  · exact hk
  · split
    · exact same_if (mEnd_same (sub rfl hw) hk) hk
    · refine same_if hk ?_
      split
      · exact same_if (endSt_same (sub rfl hw) hk) hk
      · exact same_if (completeWrite_same (sub rfl hw) hk) (failRead_same (sub rfl hw) hk)
      · exact same_if (completeWrite_same (sub rfl hw) hk) (failRead_same (sub rfl hw) hk)
      · exact hk
theorem hostFault_same {x0} {S1 : State} (hw : Sub 0x84815d0 w) (hk : Same w r S1) : Same w r (hostFault x0 S1) := by
  unfold hostFault
  split
  · exact same_if (stopRing_same (sub rfl hw) hk) hk
  · exact same_if hk (stopRing_same (sub rfl hw) hk)
  · exact dataFault_same (sub rfl hw) hk
  · exact evtFault_same (sub rfl hw) hk
  · split
    · exact hk
    · split
      · exact hk
      · exact same_if (assignWork_same (sub rfl hw) (endDesc_same (sub rfl hw) hk)) hk
theorem execHostFault_same {x0} {S1 : State} (hw : Sub 0x84815d0 w) (hk : Same w r S1) : OutSame w r (execHostFault x0 S1) :=
  next_same (sub rfl hw) (hostFault_same (sub rfl hw) hk)

/-! ### PanRows -/

theorem panRequest_same {x0 x1} {S2 : State} (hw : Sub 0x2a463dd0 w) (hx1 : ∀ s, Same w r s → Same w r (x1 s)) (hk : Same w r S2) : Same w r (panRequest x0 x1 S2) :=
  same_if (settleWaits_same (sub rfl hw) (settleGrants_same (sub rfl hw) (hx1 _ hk))) hk
theorem allocRow_same {x0 x1 x2 x3 x4} {S5 : State} (hw : Sub 0x20010 w) (hk : Same w r S5) : Same w r (allocRow x0 x1 x2 x3 x4 S5) := by
  unfold allocRow
  split
  · exact panAlloc_same (sub rfl hw) (same_if (startRebuild_same (sub rfl hw) hk) hk)
  · exact panAlloc_same (sub rfl hw) hk
theorem execAlloc_same {x0 x1 x2 x3 x4} {S5 : State} (hw : Sub 0x2a463dd0 w) (hk : Same w r S5) : OutSame w r (execAlloc x0 x1 x2 x3 x4 S5) :=
  next_same (sub rfl hw) (panRequest_same (sub rfl hw) (fun _ h0 => allocRow_same (sub rfl hw) h0) hk)
theorem execFree_same {x0 x1} {S2 : State} (hw : Sub 0x2a463dd0 w) (hk : Same w r S2) : OutSame w r (execFree x0 x1 S2) :=
  next_same (sub rfl hw) (panRequest_same (sub rfl hw) (fun _ h0 => panFree_same (sub rfl hw) h0) hk)
theorem execHandoff_same {x0 x1 x2} {S3 : State} (hw : Sub 0x2a463dd0 w) (hk : Same w r S3) : OutSame w r (execHandoff x0 x1 x2 S3) :=
  next_same (sub rfl hw) (panRequest_same (sub rfl hw) (fun _ h0 => panHandoff_same (sub rfl hw) h0) hk)
theorem execAcquire_same {x0 x1} {S2 : State} (hw : Sub 0x2a463dd0 w) (hk : Same w r S2) : OutSame w r (execAcquire x0 x1 S2) :=
  next_same (sub rfl hw) (panRequest_same (sub rfl hw) (fun _ h0 => panAcquire_same (sub rfl hw) h0) hk)
theorem execRelease_same {x0 x1} {S2 : State} (hw : Sub 0x2a463dd0 w) (hk : Same w r S2) : OutSame w r (execRelease x0 x1 S2) :=
  next_same (sub rfl hw) (panRequest_same (sub rfl hw) (fun _ h0 => panRelease_same (sub rfl hw) h0) hk)
theorem execCancel_same {x0} {S1 : State} (hw : Sub 0x2a463dd0 w) (hk : Same w r S1) : OutSame w r (execCancel x0 S1) :=
  next_same (sub rfl hw) (panRequest_same (sub rfl hw) (fun _ h0 => panCancel_same (sub rfl hw) h0) hk)
theorem dropNoWaits_same {S0 : State} (hw : Sub 0x20000 w) (hk : Same w r S0) : Same w r (dropNoWaits S0) := by
  refine same_foldl (fun _ _ h0 => ?_) hk
  split
  · exact same_if (panAnswer_same (sub rfl hw) (dropWaiter_same (sub rfl hw) h0)) h0
  · exact h0
theorem listRebuilt_same {x0} {S1 : State} (hw : Sub 0x60010 w) (hk : Same w r S1) : Same w r (listRebuilt x0 S1) :=
  same_if (dropNoWaits_same (sub rfl hw) (serveWaiting_same (sub rfl hw) (same_foldl (fun _ _ h3 => panCarry_same (sub rfl hw) h3) (set_20000 (sub rfl hw) (relink_same (sub rfl hw) (State_modPan_same (sub rfl hw) hk)))))) hk
theorem execPanListRebuild_same {x0} {S1 : State} (hw : Sub 0x2a463dd0 w) (hk : Same w r S1) : OutSame w r (execPanListRebuild x0 S1) :=
  next_same (sub rfl hw) (panRequest_same (sub rfl hw) (fun _ h0 => listRebuilt_same (sub rfl hw) h0) hk)
theorem countMode_same {x0 x1} {S2 : State} (hw : Sub 0x20000 w) (hk : Same w r S2) : Same w r (countMode x0 x1 S2) :=
  same_if hk (same_if (panReject_same (sub rfl hw) hk) (State_modPan_same (sub rfl hw) hk))
theorem execCountModeWrite_same {x0 x1 x2} {S3 : State} (hw : Sub 0x20000 w) (hk : Same w r S3) : OutSame w r (execCountModeWrite x0 x1 x2 S3) :=
  next_same (sub rfl hw) (same_if (countMode_same (sub rfl hw) hk) hk)
theorem execPanLock_same {x0} {S1 : State} (hw : Sub 0x20000 w) (hk : Same w r S1) : OutSame w r (execPanLock x0 S1) :=
  next_same (sub rfl hw) (same_if (set_20000 (sub rfl hw) hk) hk)

/-! ### Resets -/

theorem takeReset_same {x0 x1 x2} {s : State} (hw : Sub 0x7fffdfe w) (hk : Same w r s) : Same w r (takeReset x0 x1 x2 s) := by
  have h := abortMover_same (sub rfl hw) hk
  exact set_7fffdfe (sub rfl hw) h
theorem abortJobs_same {S0 : State} (hw : Sub 0x80001c0 w) (hk : Same w r S0) : Same w r (abortJobs S0) :=
  same_if hk (same_foldl (fun _ _ h0 => same_foldl (fun _ _ h1 => same_if h1 (same_if (completeWrite_same (sub rfl hw) h1) (same_if (complete_same (sub rfl hw) h1) h1))) h0) hk)
theorem prepareReset_same {S0 : State} (hw : Sub 0x80821e0 w) (hk : Same w r S0) : Same w r (prepareReset S0) := by
  unfold prepareReset
  extract_lets -merge -underBinder +onlyGivenNames z0
  have h1 : Same w r z0 := abortMover_same (sub rfl hw) (abortJobs_same (sub rfl hw) (dropGates_same (sub rfl hw) hk))
  try clear_value z0
  exact set_20 (sub rfl hw) h1
theorem warmReset_same {x0} {S1 : State} (hw : Sub 0xffffdfe w) (hk : Same w r S1) : Same w r (warmReset x0 S1) :=
  same_if (takeReset_same (sub rfl hw) (prepareReset_same (sub rfl hw) hk)) hk
theorem execWarmReset_same {S0 : State} (hw : Sub 0xffffdfe w) (hk : Same w r S0) : OutSame w r (execWarmReset S0) :=
  next_same (sub rfl hw) (same_if (warmReset_same (sub rfl hw) hk) hk)
theorem execColdResetRequest_same {S0 : State} (hw : Sub 0x7fffdfe w) (hk : Same w r S0) : OutSame w r (execColdResetRequest S0) :=
  next_same (sub rfl hw) (same_if (takeReset_same (sub rfl hw) hk) hk)
theorem linkLost_same {S0 : State} (hw : Sub 0x80 w) (hk : Same w r S0) : Same w r (linkLost S0) :=
  set_80 (sub rfl hw) hk
theorem perstAssert_same {S0 : State} (hw : Sub 0xffffdfe w) (hk : Same w r S0) : Same w r (perstAssert S0) :=
  warmReset_same (sub rfl hw) (linkLost_same (sub rfl hw) (set_2 (sub rfl hw) hk))
theorem execPerstAssert_same {S0 : State} (hw : Sub 0xffffdfe w) (hk : Same w r S0) : OutSame w r (execPerstAssert S0) :=
  next_same (sub rfl hw) (perstAssert_same (sub rfl hw) hk)
theorem perstDeassert_same {S0 : State} (hw : Sub 0x2 w) (hk : Same w r S0) : Same w r (perstDeassert S0) :=
  set_2 (sub rfl hw) hk
theorem execPerstDeassert_same {S0 : State} (hw : Sub 0x2 w) (hk : Same w r S0) : OutSame w r (execPerstDeassert S0) :=
  next_same (sub rfl hw) (perstDeassert_same (sub rfl hw) hk)
theorem execStewardWatchdog_same {S0 : State} (hw : Sub 0xffffdfe w) (hk : Same w r S0) : OutSame w r (execStewardWatchdog S0) :=
  next_same (sub rfl hw) (same_if (warmReset_same (sub rfl hw) hk) hk)
theorem execServiceClose_same {S0 : State} (hw : Sub 0xffffdfe w) (hk : Same w r S0) : OutSame w r (execServiceClose S0) :=
  next_same (sub rfl hw) (same_if (warmReset_same (sub rfl hw) hk) hk)
theorem pcieLinkDown_same {x0} {S1 : State} (hw : Sub 0xc0 w) (hk : Same w r S1) : Same w r (pcieLinkDown x0 S1) := by
  unfold pcieLinkDown
  extract_lets -merge -underBinder +onlyGivenNames z0
  have h1 : Same w r z0 := linkLost_same (sub rfl hw) hk
  try clear_value z0
  exact same_if (set_40 (sub rfl hw) h1) h1
theorem execPcieLinkDown_same {x0} {S1 : State} (hw : Sub 0xc0 w) (hk : Same w r S1) : OutSame w r (execPcieLinkDown x0 S1) :=
  next_same (sub rfl hw) (pcieLinkDown_same (sub rfl hw) hk)
theorem dropCommands_same {S0 : State} (hw : Sub 0x180 w) (hk : Same w r S0) : Same w r (dropCommands S0) :=
  set_180 (sub rfl hw) hk
theorem functionReset_same {x0} {S1 : State} (hw : Sub 0x2a4a3fca w) (hk : Same w r S1) : Same w r (functionReset x0 S1) := by
  have h : ∀ {t}, Same w r t → Same w r (allInsts.foldl (fun s v => endAll v s) t) := same_foldl (fun _ _ h => endAll_same (sub rfl hw) h)
  unfold functionReset
  extract_lets z0 z1
  have h0 : Same w r z0 := dropWaiter_same (sub rfl hw) (discardBlocks_same (sub rfl hw) (dropCommands_same (sub rfl hw) (abortMover_same (sub rfl hw) hk)))
  have h1 : Same w r z1 := wipeKeys_same (sub rfl hw) (h h0)
  clear_value z1
  refine resumeSeqs_same (sub rfl hw) (settleWaits_same (sub rfl hw) (dispatch_same (sub rfl hw) ?_))
  exact set_1ca (sub rfl hw) h1
theorem execFunctionReset_same {x0} {S1 : State} (hw : Sub 0x2a4a3fca w) (hk : Same w r S1) : OutSame w r (execFunctionReset x0 S1) :=
  next_same (sub rfl hw) (same_if (functionReset_same (sub rfl hw) hk) hk)
theorem powerOff_same {S0 : State} (hw : Sub 0x7fffdfe w) (hk : Same w r S0) : Same w r (powerOff S0) :=
  set_2 (sub rfl hw) (takeReset_same (sub rfl hw) hk)
theorem execVddAonFail_same {S0 : State} (hw : Sub 0x7fffdfe w) (hk : Same w r S0) : OutSame w r (execVddAonFail S0) :=
  next_same (sub rfl hw) (same_if hk (powerOff_same (sub rfl hw) hk))
theorem execVddAonRise_same {S0 : State} (hw : Sub 0x7fffdfe w) (hk : Same w r S0) : OutSame w r (execVddAonRise S0) :=
  next_same (sub rfl hw) (same_if (takeReset_same (sub rfl hw) hk) hk)
theorem execQuenchPowerOff_same {S0 : State} (hw : Sub 0x7fffdfe w) (hk : Same w r S0) : OutSame w r (execQuenchPowerOff S0) :=
  next_same (sub rfl hw) (same_if (powerOff_same (sub rfl hw) hk) hk)
theorem quenchReset_same {x0 x1} {S2 : State} (hw : Sub 0x7fffdfe w) (hk : Same w r S2) : Same w r (quenchReset x0 x1 S2) :=
  same_if (set_4 (sub rfl hw) (takeReset_same (sub rfl hw) hk)) hk
theorem execQuenchReset_same {x0 x1} {S2 : State} (hw : Sub 0x7fffdfe w) (hk : Same w r S2) : OutSame w r (execQuenchReset x0 x1 S2) :=
  next_same (sub rfl hw) (quenchReset_same (sub rfl hw) hk)
theorem execThermtrip_same {S0 : State} (hw : Sub 0x2 w) (hk : Same w r S0) : OutSame w r (execThermtrip S0) :=
  next_same (sub rfl hw) (same_if hk (set_2 (sub rfl hw) hk))
theorem takeEvents_same {S0 : State} (hw : Sub 0x10 w) (hk : Same w r S0) : Same w r (takeEvents S0) :=
  set_10 (sub rfl hw) hk
theorem powerOnRelease_same {S0 : State} (hw : Sub 0x42236 w) (hk : Same w r S0) : Same w r (powerOnRelease S0) := by
  refine same_if hk ?_
  try extract_lets -merge -underBinder +onlyGivenNames z0
  try clear_value z0
  try extract_lets -merge -underBinder +onlyGivenNames z1
  try clear_value z1
  extract_lets -merge -underBinder +onlyGivenNames z2
  have h3 : Same w r z2 := same_if (resumeSaved_same (sub rfl hw) hk) (resumeSeqs_same (sub rfl hw) hk)
  try clear_value z2
  extract_lets -merge -underBinder +onlyGivenNames _ z14
  have h15 : Same w r z14 := set_10 (sub rfl hw) h3
  try clear_value z14
  exact set_42002 (sub rfl hw) (same_if (set_24 (sub rfl hw) (takeEvents_same (sub rfl hw) h15)) h15)
theorem execPowerOnResetRelease_same {S0 : State} (hw : Sub 0x42236 w) (hk : Same w r S0) : OutSame w r (execPowerOnResetRelease S0) :=
  next_same (sub rfl hw) (powerOnRelease_same (sub rfl hw) hk)
theorem rngPass_same {S0 : State} (hw : Sub 0x1000000e w) (hk : Same w r S0) : Same w r (rngPass S0) :=
  same_if hk (setMode_same (sub rfl hw) (drawn_same (sub rfl hw) (set_2 (sub rfl hw) (set_8 (sub rfl hw) hk))))
theorem execRngStartupPass_same {S0 : State} (hw : Sub 0x1000000e w) (hk : Same w r S0) : OutSame w r (execRngStartupPass S0) :=
  next_same (sub rfl hw) (rngPass_same (sub rfl hw) hk)
theorem rngFail_same {x0} {S1 : State} (hw : Sub 0xb7e3dfe w) (hk : Same w r S1) : Same w r (rngFail x0 S1) :=
  same_if hk (enterPewter_same (sub rfl hw) (raiseEv_same (sub rfl hw) (set_8 (sub rfl hw) hk)))
theorem execRngContinuousFail_same {x0} {S1 : State} (hw : Sub 0xb7e3dfe w) (hk : Same w r S1) : OutSame w r (execRngContinuousFail x0 S1) :=
  next_same (sub rfl hw) (rngFail_same (sub rfl hw) hk)
theorem quenchRing_same {x0 : State × Nat × Bool} {x1} (hw : Sub 0x80001c0 w) (hk : FstSame w r x0) : FstSame w r (quenchRing x0 x1) := by
  refine fst_mk ?_
  have h : ∀ l : List Nat, Same w r (l.foldl (fun s u => completeSt x1 u .abortedQuench s) x0.1) :=
    fun l => same_foldl (fun _ _ h => completeSt_same (sub rfl hw) h) hk
  exact same_if (h _) (signalRing_same (sub rfl hw) (h _))
theorem quenchWindow_same {x0} {S1 : State} (hw : Sub 0x80001c4 w) (hk : Same w r S1) : Same w r (quenchWindow x0 S1) :=
  dropCommands_same (sub rfl hw) (set_4 (sub rfl hw) (fst_fst (fst_foldl (fun _ _ h => quenchRing_same (sub rfl hw) h) (fst_mk hk))))
theorem quenchStore_same {x0 x1 x2 x3} {S4 : State} (hw : Sub 0x20 w) (hk : Same w r S4) : Same w r (quenchStore x0 x1 x2 x3 S4) :=
  set_20 (sub rfl hw) hk
theorem quench_same {x0 x1 x2 x3 x4} {S5 : State} (hw : Sub 0xbfe3dfe w) (hk : Same w r S5) : Same w r (quench x0 x1 x2 x3 x4 S5) := by
  unfold quench
  refine same_if hk ?_
  extract_lets -merge -underBinder a b _ c d _ _ e f g h _ _ i
  have hd : Same w r d := dropGates_same (sub rfl hw) (raiseEv_same (sub rfl hw) (set_4 (sub rfl hw) hk))
  clear_value d
  have he : Same w r e := setMode_same (sub rfl hw) (set_1000002 (sub rfl hw) hd)
  clear_value e
  have hf : Same w r f := abortMover_same (sub rfl hw) (same_if (brakeReels_same (sub rfl hw) he) he)
  clear_value f
  have hh : Same w r h := quenchStore_same (sub rfl hw) (quenchWindow_same (sub rfl hw) hf)
  clear_value h
  have hi : Same w r i := rebuildTable_same (sub rfl hw) (set_2000000 (sub rfl hw) (abandonData_same (sub rfl hw) (unassignAll_same (sub rfl hw) hh)))
  clear_value i
  exact set_4000e (sub rfl hw) (linkLost_same (sub rfl hw) hi)
theorem execQuenchDetect_same {x0 x1 x2 x3 x4} {S5 : State} (hw : Sub 0xbfe3dfe w) (hk : Same w r S5) : OutSame w r (execQuenchDetect x0 x1 x2 x3 x4 S5) :=
  next_same (sub rfl hw) (quench_same (sub rfl hw) hk)
theorem pewterUnload_same {S0 : State} (hw : Sub 0x1810000 w) (hk : Same w r S0) : Same w r (pewterUnload S0) :=
  same_if hk (set_1810000 (sub rfl hw) hk)
theorem execPewterUnload_same {S0 : State} (hw : Sub 0x1810000 w) (hk : Same w r S0) : OutSame w r (execPewterUnload S0) :=
  next_same (sub rfl hw) (pewterUnload_same (sub rfl hw) hk)
theorem execRetireClear_same {S0 : State} (hw : Sub 0x10 w) (hk : Same w r S0) : OutSame w r (execRetireClear S0) :=
  next_same (sub rfl hw) (same_if (set_10 (sub rfl hw) hk) hk)

/-! ### Service -/

theorem serviceResponse_same {x0} {S1 : State} (hw : Sub 0xffffdfe w) (hk : Same w r S1) : Same w r (serviceResponse x0 S1) := by
  unfold serviceResponse
  extract_lets
  refine same_if (mEnd_same (sub rfl hw) hk) (same_if (mEnd_same (sub rfl hw) hk) (same_if (mEnd_same (sub rfl hw) hk) (same_if (mEnd_same (sub rfl hw) hk) ?_)))
  split
  · exact serviceFail_same (sub rfl hw) hk
  · refine same_if (serviceFail_same (sub rfl hw) hk) ?_
    extract_lets z
    have h : Same w r z := mOk_same (sub rfl hw) (writeEntry_same (sub rfl hw) hk)
    clear_value z
    exact same_if (warmReset_same (sub rfl hw) (set_8 (sub rfl hw) h)) (openService_same (sub rfl hw) h)
theorem execServiceResponse_same {x0} {S1 : State} (hw : Sub 0xffffdfe w) (hk : Same w r S1) : OutSame w r (execServiceResponse x0 S1) :=
  next_same (sub rfl hw) (mgmtCmd_same (sub rfl hw) (fun _ _ h0 => serviceResponse_same (sub rfl hw) h0) hk)
theorem fwActivateNow_same {x0} {S1 : State} (hw : Sub 0xffffdfe w) (hk : Same w r S1) : Same w r (fwActivateNow x0 S1) :=
  activateWhen_same (sub rfl hw) (fun _ h0 => warmReset_same (sub rfl hw) (mOk_same (sub rfl hw) (setTrial_same (sub rfl hw) h0))) hk
theorem execFwActivateNow_same {x0} {S1 : State} (hw : Sub 0xffffdfe w) (hk : Same w r S1) : OutSame w r (execFwActivateNow x0 S1) :=
  next_same (sub rfl hw) (subCmd_same (sub rfl hw) (fun _ _ h0 => fwActivateNow_same (sub rfl hw) h0) hk)
theorem toField_same {S0 : State} (hw : Sub 0x8 w) (hk : Same w r S0) : Same w r (toField S0) := by
  unfold toField
  split
  · rename_i h
    have h2 : S0.sec.lifecycle = 2 := by simp at h; exact h.1.2
    exact set_8 (sub rfl hw) hk
  · exact hk
theorem execToField_same {S0 : State} (hw : Sub 0x8 w) (hk : Same w r S0) : OutSame w r (execToField S0) :=
  next_same (sub rfl hw) (toField_same (sub rfl hw) hk)
theorem katStart_same {x0} {S1 : State} (hw : Sub 0x1000 w) (hk : Same w r S1) : Same w r (katStart x0 S1) :=
  same_if (set_1000 (sub rfl hw) hk) hk
theorem execKatStart_same {x0} {S1 : State} (hw : Sub 0x1000 w) (hk : Same w r S1) : OutSame w r (execKatStart x0 S1) :=
  next_same (sub rfl hw) (katStart_same (sub rfl hw) hk)

/-! ### Registers -/

theorem onBit_same {x0 x1 x2} {S3 : State} (hw : Sub 0x0 w) (hx2 : ∀ s, Same w r s → Same w r (x2 s)) (hk : Same w r S3) : Same w r (onBit x0 x1 x2 S3) :=
  same_if (hx2 _ hk) hk
theorem withFree_same {x0} {S1 : State} (hw : Sub 0x20000000 w) (hx0 : ∀ y0 s, Same w r s → Same w r (x0 y0 s)) (hk : Same w r S1) : Same w r (withFree x0 S1) :=
  hx0 _ _ (set_20000000 (sub rfl hw) hk)
theorem writeGlb_same {x0 x1} {S2 : State} (hw : Sub 0x2ffffffe w) (hk : Same w r S2) : Same w r (writeGlb x0 x1 S2) := by
  unfold writeGlb
  split
  · exact same_if (takeReset_same (sub rfl hw) hk) (same_if (warmReset_same (sub rfl hw) hk) (same_if (functionReset_same (sub rfl hw) hk) hk))
  · exact hk
theorem quenchCfg_same {x0} {S1 : State} (hw : Sub 0x4 w) (hk : Same w r S1) : Same w r (quenchCfg x0 S1) :=
  same_if hk (set_4 (sub rfl hw) hk)
theorem writePwr_same {x0 x1} {S2 : State} (hw : Sub 0x4 w) (hk : Same w r S2) : Same w r (writePwr x0 x1 S2) := by
  unfold writePwr
  split
  · exact quenchCfg_same (sub rfl hw) hk
  · exact hk
theorem writeSec_same {x0 x1} {S2 : State} (hw : Sub 0xffffdfe w) (hk : Same w r S2) : Same w r (writeSec x0 x1 S2) := by
  unfold writeSec
  split
  · exact onBit_same (sub rfl hw) (fun _ h0 => toField_same (sub rfl hw) h0) hk
  · exact onBit_same (sub rfl hw) (fun _ h1 => same_if (warmReset_same (sub rfl hw) h1) h1) hk
  · exact hk
theorem strikeCfg_same {x0 x1} {S2 : State} (hw : Sub 0x10 w) (hk : Same w r S2) : Same w r (strikeCfg x0 x1 S2) :=
  same_if hk (set_10 (sub rfl hw) hk)
theorem writeEvt_same {x0 x1} {S2 : State} (hw : Sub 0x10 w) (hk : Same w r S2) : Same w r (writeEvt x0 x1 S2) := by
  unfold writeEvt
  extract_lets f
  have h1 : ∀ g : State → State, Same w r (g S2) → Same w r (f g) := fun g hg => same_if hk hg
  clear_value f
  split
  · exact onBit_same (sub rfl hw) (fun _ h => evtSetLock_same (sub rfl hw) h) (same_if (evtStart_same (sub rfl hw) hk) (evtStop_same (sub rfl hw) hk))
  · exact h1 _ (set_10 (sub rfl hw) hk)
  · exact h1 _ (set_10 (sub rfl hw) hk)
  · exact h1 _ (set_10 (sub rfl hw) hk)
  · exact evtHead_same (sub rfl hw) hk
  · exact set_10 (sub rfl hw) hk
  · exact onBit_same (sub rfl hw) (fun _ h => same_if (set_10 (sub rfl hw) h) h) hk
  · split
    · exact strikeCfg_same (sub rfl hw) hk
    · exact hk
theorem writeHif_same {x0 x1} {S2 : State} (hw : Sub 0x80 w) (hk : Same w r S2) : Same w r (writeHif x0 x1 S2) := by
  unfold writeHif
  extract_lets f
  have h1 : ∀ g : State → State, Same w r (g S2) → Same w r (f g) := fun g hg => same_if hk hg
  clear_value f
  split
  · exact same_if (mqStart_same (sub rfl hw) hk) (mqStop_same (sub rfl hw) hk)
  all_goals first | exact h1 _ (set_80 (sub rfl hw) hk) | exact hk
theorem writeBuf_same {x0 x1} {S2 : State} (hw : Sub 0x10060010 w) (hk : Same w r S2) : Same w r (writeBuf x0 x1 S2) := by
  unfold writeBuf
  split
  · exact onBit_same (sub rfl hw) (fun _ h0 => fillRestart_same (sub rfl hw) h0) (set_40000 (sub rfl hw) hk)
  · exact set_40000 (sub rfl hw) hk
  · exact set_40000 (sub rfl hw) hk
  · exact hk
theorem panEnable_same {x0 x1} {S2 : State} (hw : Sub 0x60010 w) (hk : Same w r S2) : Same w r (panEnable x0 x1 S2) :=
  same_if hk (enablePans_same (sub rfl hw) (State_modPan_same (sub rfl hw) hk))
theorem panStore_same {x0 x1} {S2 : State} (hw : Sub 0x60010 w) (hk : Same w r S2) : Same w r (panStore x0 x1 S2) :=
  same_if hk (relink_same (sub rfl hw) (State_modPan_same (sub rfl hw) hk))
theorem panExtent_same {x0 x1} {S2 : State} (hw : Sub 0x60010 w) (hk : Same w r S2) : Same w r (panExtent x0 x1 S2) :=
  enablePans_same (sub rfl hw) (rebuildTable_same (sub rfl hw) (State_modPan_same (sub rfl hw) hk))
theorem writePan_same {x0 x1 x2} {S3 : State} (hw : Sub 0x22463d90 w) (hk : Same w r S3) : Same w r (writePan x0 x1 x2 S3) := by
  unfold writePan
  split
  · extract_lets -merge -underBinder +onlyGivenNames z0
    have h1 : Same w r z0 := same_if hk (panStore_same (sub rfl hw) (panEnable_same (sub rfl hw) hk))
    try clear_value z0
    exact settleGrants_same (sub rfl hw) (serveWaiting_same (sub rfl hw) (countMode_same (sub rfl hw) (State_modPan_same (sub rfl hw) h1)))
  · exact same_if hk (panExtent_same (sub rfl hw) hk)
  · exact same_if hk (panExtent_same (sub rfl hw) hk)
  · extract_lets -merge -underBinder +onlyGivenNames z2
    have h3 : Same w r z2 := State_modPan_same (sub rfl hw) hk
    try clear_value z2
    exact same_if (settleGrants_same (sub rfl hw) (serveWaiting_same (sub rfl hw) (settlePan_same (sub rfl hw) h3))) h3
  · exact hk
theorem writePans_same {x0 x1} {S2 : State} (hw : Sub 0x22463d90 w) (hk : Same w r S2) : Same w r (writePans x0 x1 S2) :=
  same_if (onBit_same (sub rfl hw) (fun _ h0 => set_20000 (sub rfl hw) h0) hk) (same_if (writePan_same (sub rfl hw) hk) hk)
theorem writeMov_same {x0 x1} {S2 : State} (hw : Sub 0x2b7ebdf6 w) (hk : Same w r S2) : Same w r (writeMov x0 x1 S2) := by
  unfold writeMov
  split
  · exact assignWork_same (sub rfl hw) (set_80000 (sub rfl hw) hk)
  · exact onBit_same (sub rfl hw) (fun _ h0 => postService_same (sub rfl hw) h0) hk
  · split
    · exact set_80000 (sub rfl hw) hk
    · exact hk
theorem writeCmp_same {x0 x1 x2} {S3 : State} (hw : Sub 0x401800 w) (hk : Same w r S3) : Same w r (writeCmp x0 x1 x2 S3) := by
  unfold writeCmp
  split
  · exact dispatchRead_same (sub rfl hw) (dispatch_same (sub rfl hw) (set_1000 (sub rfl hw) hk))
  · exact hk
theorem writeCph_same {x0 x1} {S2 : State} (hw : Sub 0x20001000 w) (hk : Same w r S2) : Same w r (writeCph x0 x1 S2) := by
  unfold writeCph
  split
  · exact onBit_same (sub rfl hw) (fun _ h0 => withFree_same (sub rfl hw) (fun _ _ h1 => katStart_same (sub rfl hw) h1) h0) (set_1000 (sub rfl hw) hk)
  · exact hk
theorem writeFmt_same {x0 x1} {S2 : State} (hw : Sub 0x20006000 w) (hk : Same w r S2) : Same w r (writeFmt x0 x1 S2) := by
  unfold writeFmt
  split
  · exact set_2000 (sub rfl hw) hk
  · exact set_2000 (sub rfl hw) hk
  · exact set_2000 (sub rfl hw) hk
  · exact set_2000 (sub rfl hw) hk
  · exact onBit_same (sub rfl hw) (fun _ h0 => withFree_same (sub rfl hw) (fun _ _ h1 => writeCommitAll_same (sub rfl hw) h1) h0) hk
  · exact hk
theorem writeWch_same {x0 x1} {S2 : State} (hw : Sub 0x20004000 w) (hk : Same w r S2) : Same w r (writeWch x0 x1 S2) := by
  refine same_if ?_ hk
  try extract_lets -merge -underBinder +onlyGivenNames z0
  try clear_value z0
  split
  · exact set_4000 (sub rfl hw) hk
  · exact set_4000 (sub rfl hw) hk
  · exact onBit_same (sub rfl hw) (fun _ h1 => withFree_same (sub rfl hw) (fun _ _ h2 => writeCommit_same (sub rfl hw) h2) h1) (set_4000 (sub rfl hw) hk)
  · exact hk
theorem putTap_same {x0 x1} {S2 : State} (hw : Sub 0x100000 w) (hk : Same w r S2) : Same w r (putTap x0 x1 S2) :=
  State_modRch_same (sub rfl hw) hk
theorem writeRch_same {x0 x1} {S2 : State} (hw : Sub 0x21302000 w) (hk : Same w r S2) : Same w r (writeRch x0 x1 S2) := by
  refine same_if ?_ ?_
  · try extract_lets -merge -underBinder +onlyGivenNames z0
    try clear_value z0
    split
    · exact State_modRch_same (sub rfl hw) hk
    · exact State_modRch_same (sub rfl hw) hk
    · exact onBit_same (sub rfl hw) (fun _ h1 => withFree_same (sub rfl hw) (fun _ _ h2 => readCommit_same (sub rfl hw) h2) h1) (State_modRch_same (sub rfl hw) hk)
    · exact hk
  · split
    · exact set_200000 (sub rfl hw) hk
    · exact set_200000 (sub rfl hw) hk
    · exact followRead_same (sub rfl hw) (set_200000 (sub rfl hw) hk)
    · exact set_200000 (sub rfl hw) hk
    · exact set_200000 (sub rfl hw) hk
    · exact onBit_same (sub rfl hw) (fun _ h3 => withFree_same (sub rfl hw) (fun _ _ h4 => readCommitAll_same (sub rfl hw) h4) h3) hk
    · split
      · exact putTap_same (sub rfl hw) hk
      · exact hk
theorem writeSrv_same {x0 x1} {S2 : State} (hw : Sub 0x800000 w) (hk : Same w r S2) : Same w r (writeSrv x0 x1 S2) := by
  unfold writeSrv
  split
  · exact set_800000 (sub rfl hw) hk
  · exact set_800000 (sub rfl hw) hk
  · exact hk
theorem clearSticky_same {x0} {S1 : State} (hw : Sub 0x1000000 w) (hk : Same w r S1) : Same w r (clearSticky x0 S1) :=
  set_1000000 (sub rfl hw) hk
theorem writeMot_same {x0 x1} {S2 : State} (hw : Sub 0x1802010 w) (hk : Same w r S2) : Same w r (writeMot x0 x1 S2) := by
  unfold writeMot
  split
  · exact onBit_same (sub rfl hw) (fun _ h0 => motionBrake_same (sub rfl hw) h0) (onBit_same (sub rfl hw) (fun _ h1 => motionStop_same (sub rfl hw) h1) (setLoops_same (sub rfl hw) hk))
  · exact clearSticky_same (sub rfl hw) hk
  · exact set_1000000 (sub rfl hw) hk
  · exact set_1000000 (sub rfl hw) hk
  · exact set_1000000 (sub rfl hw) hk
  · exact set_1000000 (sub rfl hw) hk
  · exact set_1000000 (sub rfl hw) hk
  · split
    · exact coefWrite_same (sub rfl hw) hk
    · exact onBit_same (sub rfl hw) (fun _ h2 => bankSwap_same (sub rfl hw) h2) hk
    · exact State_modLoop_same (sub rfl hw) hk
    · exact hk
theorem ringEnable_same {x0} {S1 : State} (hw : Sub 0x2b7ebdf6 w) (hk : Same w r S1) : Same w r (ringEnable x0 S1) :=
  same_if hk (same_if (set_2000000 (sub rfl hw) hk) (linkGone_same (sub rfl hw) (linkGone_same (sub rfl hw) (set_2000000 (sub rfl hw) hk))))
theorem writeChn_same {x0 x1} {S2 : State} (hw : Sub 0x2b7ebdf6 w) (hk : Same w r S2) : Same w r (writeChn x0 x1 S2) := by
  unfold writeChn
  split
  · exact onBit_same (sub rfl hw) (fun _ h0 => reassemble_same (sub rfl hw) h0) (ringEnable_same (sub rfl hw) hk)
  · exact set_2000000 (sub rfl hw) hk
  · exact set_2000000 (sub rfl hw) hk
  · exact hk
theorem writePace_same {x0 x1} {S2 : State} (hw : Sub 0x8000 w) (hk : Same w r S2) : Same w r (writePace x0 x1 S2) := by
  unfold writePace
  split
  · exact set_8000 (sub rfl hw) hk
  · exact hk
theorem writeReg_same {x0 x1 x2} {S3 : State} (hw : Sub 0x3ffffffe w) (hk : Same w r S3) : Same w r (writeReg x0 x1 x2 S3) := by
  unfold writeReg
  refine same_if hk ?_
  extract_lets o f
  have h1 : ∀ g : State → State, Same w r (g S3) → Same w r (f g) := fun g hg => same_if hg hk
  clear_value f o
  split
  · exact same_if (writeGlb_same (sub rfl hw) hk) (same_if (writePwr_same (sub rfl hw) hk) (same_if (writeSec_same (sub rfl hw) hk) (writeEvt_same (sub rfl hw) hk)))
  · exact writeHif_same (sub rfl hw) hk
  · refine h1 _ ?_
    split
    · exact writeBuf_same (sub rfl hw) hk
    · split
      · exact writePans_same (sub rfl hw) hk
      · exact hk
  · exact h1 _ (writeMov_same (sub rfl hw) hk)
  · exact writeCmp_same (sub rfl hw) hk
  · exact writeCph_same (sub rfl hw) hk
  · exact writeFmt_same (sub rfl hw) hk
  · exact writeWch_same (sub rfl hw) hk
  · exact writeRch_same (sub rfl hw) hk
  · exact writeSrv_same (sub rfl hw) hk
  · exact h1 _ (writeMot_same (sub rfl hw) hk)
  · exact writeChn_same (sub rfl hw) hk
  · exact writePace_same (sub rfl hw) hk
  · exact hk
theorem ringDoorbell_same {x0 x1 x2} {S3 : State} (hw : Sub 0x80001d0 w) (hk : Same w r S3) : Same w r (ringDoorbell x0 x1 x2 S3) :=
  same_if (keepDoorbell_same (sub rfl hw) hk) (same_if (cqDoorbell_same (sub rfl hw) hk) (sqDoorbell_same (sub rfl hw) hk))
theorem writeMsix_same {x0 x1 x2} {S3 : State} (hw : Sub 0x8000040 w) (hk : Same w r S3) : Same w r (writeMsix x0 x1 x2 S3) := by
  unfold writeMsix
  extract_lets -merge -underBinder +onlyGivenNames z0
  have h1 : ∀ y2, Same w r (z0 y2) := by
    intro y2
    exact set_40 (sub rfl hw) hk
  clear_value z0
  split
  · exact h1 _
  · exact h1 _
  · exact h1 _
  · exact flushMsix_same (sub rfl hw) (h1 _)
theorem writeBar2_same {x0 x1} {S2 : State} (hw : Sub 0x80001d0 w) (hk : Same w r S2) : Same w r (writeBar2 x0 x1 S2) := by
  unfold writeBar2
  split
  · exact ringDoorbell_same (sub rfl hw) hk
  · exact same_if (writeMsix_same (sub rfl hw) hk) hk
  · exact hk
theorem hostWriteReg_same {x0 x1 x2} {S3 : State} (hw : Sub 0x3ffffffe w) (hk : Same w r S3) : Same w r (hostWriteReg x0 x1 x2 S3) :=
  same_if (writeBar2_same (sub rfl hw) hk) (same_if (writeReg_same (sub rfl hw) hk) hk)
theorem execRegisterWrite_same {x0 x1 x2 x3} {S4 : State} (hw : Sub 0x3ffffffe w) (hk : Same w r S4) : OutSame w r (execRegisterWrite x0 x1 x2 x3 S4) := by
  refine next_same (sub rfl hw) ?_
  split
  · exact same_if (hostWriteReg_same (sub rfl hw) hk) hk
  · exact same_if (hostWriteReg_same (sub rfl hw) (hostWriteReg_same (sub rfl hw) hk)) hk
theorem execQuenchCfgLock_same {x0} {S1 : State} (hw : Sub 0x4 w) (hk : Same w r S1) : OutSame w r (execQuenchCfgLock x0 S1) :=
  next_same (sub rfl hw) (same_if (quenchCfg_same (sub rfl hw) hk) hk)
theorem execMalformedAccess_same {x0 x1 x2 x3} {S4 : State} (hw : Sub 0x2 w) (hk : Same w r S4) : OutSame w r (execMalformedAccess x0 x1 x2 x3 S4) :=
  next_same (sub rfl hw) (same_if hk (set_2 (sub rfl hw) hk))
theorem clearRc_same {x0} {S1 : State} (hw : Sub 0x3bc3000 w) (hk : Same w r S1) : Same w r (clearRc x0 S1) := by
  unfold clearRc
  try extract_lets -merge -underBinder +onlyGivenNames z0
  try clear_value z0
  split
  · refine same_if (set_40000 (sub rfl hw) hk) ?_
    refine same_if (set_40000 (sub rfl hw) hk) ?_
    split
    · exact set_40000 (sub rfl hw) hk
    · exact hk
  · split
    · exact set_80000 (sub rfl hw) hk
    · exact hk
  · split
    · exact set_1000 (sub rfl hw) hk
    · exact hk
  · split
    · exact set_1000 (sub rfl hw) hk
    · exact hk
  · exact same_if (set_2000 (sub rfl hw) hk) hk
  · exact same_if (State_modRch_same (sub rfl hw) hk) (same_if (set_200000 (sub rfl hw) hk) (same_if (set_200000 (sub rfl hw) hk) hk))
  · exact same_if (set_800000 (sub rfl hw) hk) hk
  · exact same_if (set_1000000 (sub rfl hw) hk) hk
  · split
    · exact State_modPort_same (sub rfl hw) hk
    · exact State_modPort_same (sub rfl hw) hk
    · exact hk
  · exact hk
theorem latchTime_same {x0} {S1 : State} (hw : Sub 0x2 w) (hk : Same w r S1) : Same w r (latchTime x0 S1) :=
  same_if (set_2 (sub rfl hw) hk) hk
theorem hostReadReg_same {x0 x1} {S2 : State} (hw : Sub 0x3bc3002 w) (hk : Same w r S2) : SndSame w r (hostReadReg x0 x1 S2) :=
  snd_if (snd_mk hk) (snd_mk (latchTime_same (sub rfl hw) (clearRc_same (sub rfl hw) hk)))
theorem hostRead64_same {x0 x1 x2} {S3 : State} (hw : Sub 0x3bc3002 w) (hk : Same w r S3) : Same w r (hostRead64 x0 x1 x2 S3) := by
  refine same_if hk ?_
  extract_lets -merge -underBinder +onlyGivenNames z0
  have h1 : SndSame w r z0 := hostReadReg_same (sub rfl hw) hk
  try clear_value z0
  extract_lets -merge -underBinder +onlyGivenNames z8
  have h9 : SndSame w r z8 := snd_if (hostReadReg_same (sub rfl hw) (snd_snd h1)) (snd_mk (snd_snd h1))
  try clear_value z8
  exact set_2 (sub rfl hw) (snd_snd h9)
theorem execRcFieldRead_same {x0 x1 x2} {S3 : State} (hw : Sub 0x3bc3002 w) (hk : Same w r S3) : OutSame w r (execRcFieldRead x0 x1 x2 S3) :=
  next_same (sub rfl hw) (hostRead64_same (sub rfl hw) hk)
theorem execTimeLoRead_same {S0 : State} (hw : Sub 0x3bc3002 w) (hk : Same w r S0) : OutSame w r (execTimeLoRead S0) :=
  next_same (sub rfl hw) (hostRead64_same (sub rfl hw) hk)
theorem execJtagAccess_same {x0 x1 x2} {S3 : State} (hw : Sub 0x3ffffffe w) (hk : Same w r S3) : OutSame w r (execJtagAccess x0 x1 x2 S3) := by
  refine out_if (next_same (sub rfl hw) hk) ?_
  split
  · exact next_same (sub rfl hw) (set_2 (sub rfl hw) hk)
  · exact out_if (next_same (sub rfl hw) (withFree_same (sub rfl hw) (fun _ _ h0 => set_2 (sub rfl hw) h0) hk)) (next_same (sub rfl hw) (latchTime_same (sub rfl hw) (set_2 (sub rfl hw) hk)))
  · refine next_same (sub rfl hw) ?_
    split
    · exact ringDoorbell_same (sub rfl hw) hk
    · exact hk
  · exact out_if trivial (next_same (sub rfl hw) (writeReg_same (sub rfl hw) hk))

/-! ### Shares -/

theorem releaseHeld_same {x0} {S1 : State} (hw : Sub 0x80001c0 w) (hk : Same w r S1) : Same w r (releaseHeld x0 S1) := by
  refine same_foldl (fun _ _ h0 => ?_) hk
  split
  · exact complete_same (sub rfl hw) h0
  · exact h0
theorem resumeInst_same {x0} {S1 : State} (hw : Sub 0x3b7ebff6 w) (hk : Same w r S1) : Same w r (resumeInst x0 S1) :=
  pumpReads_same (sub rfl hw) (retryStaged_same (sub rfl hw) (releaseHeld_same (sub rfl hw) (runInst_same (sub rfl hw) hk)))
theorem instanceShare_same {x0} {S1 : State} (hw : Sub 0x3b7ebff6 w) (hk : Same w r S1) : Same w r (instanceShare x0 S1) := by
  refine withTarget_same (sub rfl hw) (fun _ _ h0 => ?_) hk
  try extract_lets -merge -underBinder +onlyGivenNames z1
  try clear_value z1
  refine same_if (mEnd_same (sub rfl hw) h0) ?_
  refine same_if (mEnd_same (sub rfl hw) h0) ?_
  refine same_if (mEnd_same (sub rfl hw) h0) ?_
  extract_lets -merge -underBinder +onlyGivenNames z2
  have h3 : Same w r z2 := same_if (setQuota_same (sub rfl hw) h0) h0
  try clear_value z2
  try extract_lets -merge -underBinder +onlyGivenNames z11
  try clear_value z11
  extract_lets -merge -underBinder +onlyGivenNames z12
  have h13 : Same w r z12 := same_if (State_modInst_same (sub rfl hw) h3) h3
  try clear_value z12
  extract_lets -merge -underBinder +onlyGivenNames z16
  have h17 : Same w r z16 := same_if (resumeInst_same (sub rfl hw) (same_if (State_modInst_same (sub rfl hw) h13) h13)) h13
  try clear_value z16
  exact mOk_same (sub rfl hw) h17
theorem execInstanceShare_same {x0} {S1 : State} (hw : Sub 0x3b7ebff6 w) (hk : Same w r S1) : OutSame w r (execInstanceShare x0 S1) :=
  next_same (sub rfl hw) (mgmtCmd_same (sub rfl hw) (fun _ _ h0 => instanceShare_same (sub rfl hw) h0) hk)

/-! ### Spdm -/

theorem respond_same {x0} {S1 : State} (hw : Sub 0x8 w) (hk : Same w r S1) : Same w r (respond x0 S1) :=
  set_8 (sub rfl hw) hk
theorem serveSpdm_same {x0 x1 x2 x3} {S4 : State} (hw : Sub 0x8 w) (hx3 : ∀ s, Same w r s → Same w r (x3 s)) (hk : Same w r S4) : Same w r (serveSpdm x0 x1 x2 x3 S4) :=
  same_if hk (same_if (respond_same (sub rfl hw) hk) (same_if (respond_same (sub rfl hw) hk) (same_if (respond_same (sub rfl hw) hk) (same_if (respond_same (sub rfl hw) hk) (hx3 _ (same_if hk (set_8 (sub rfl hw) hk)))))))
theorem answerVca_same {x0 x1} {S2 : State} (hw : Sub 0x8 w) (hk : Same w r S2) : Same w r (answerVca x0 x1 S2) :=
  respond_same (sub rfl hw) (set_8 (sub rfl hw) hk)
theorem answerLogged_same {x0 x1} {S2 : State} (hw : Sub 0x8 w) (hk : Same w r S2) : Same w r (answerLogged x0 x1 S2) :=
  respond_same (sub rfl hw) (set_8 (sub rfl hw) hk)
theorem getVersion_same {x0} {S1 : State} (hw : Sub 0x8 w) (hk : Same w r S1) : Same w r (getVersion x0 S1) :=
  serveSpdm_same (sub rfl hw) (fun _ h0 => same_if (respond_same (sub rfl hw) h0) (answerVca_same (sub rfl hw) (set_8 (sub rfl hw) h0))) hk
theorem execGetVersion_same {x0} {S1 : State} (hw : Sub 0x8 w) (hk : Same w r S1) : OutSame w r (execGetVersion x0 S1) :=
  next_same (sub rfl hw) (getVersion_same (sub rfl hw) hk)
theorem getCapabilities_same {x0} {S1 : State} (hw : Sub 0x8 w) (hk : Same w r S1) : Same w r (getCapabilities x0 S1) :=
  serveSpdm_same (sub rfl hw) (fun _ h0 => same_if (respond_same (sub rfl hw) h0) (same_if (respond_same (sub rfl hw) h0) (answerVca_same (sub rfl hw) (set_8 (sub rfl hw) h0)))) hk
theorem execGetCapabilities_same {x0} {S1 : State} (hw : Sub 0x8 w) (hk : Same w r S1) : OutSame w r (execGetCapabilities x0 S1) :=
  next_same (sub rfl hw) (getCapabilities_same (sub rfl hw) hk)
theorem negotiateAlgorithms_same {x0} {S1 : State} (hw : Sub 0x8 w) (hk : Same w r S1) : Same w r (negotiateAlgorithms x0 S1) :=
  serveSpdm_same (sub rfl hw) (fun _ h0 => same_if (respond_same (sub rfl hw) h0) (same_if (respond_same (sub rfl hw) h0) (answerVca_same (sub rfl hw) (set_8 (sub rfl hw) h0)))) hk
theorem execNegotiateAlgorithms_same {x0} {S1 : State} (hw : Sub 0x8 w) (hk : Same w r S1) : OutSame w r (execNegotiateAlgorithms x0 S1) :=
  next_same (sub rfl hw) (negotiateAlgorithms_same (sub rfl hw) hk)
theorem getDigests_same {x0} {S1 : State} (hw : Sub 0x8 w) (hk : Same w r S1) : Same w r (getDigests x0 S1) :=
  serveSpdm_same (sub rfl hw) (fun _ h0 => answerLogged_same (sub rfl hw) h0) hk
theorem execGetDigests_same {x0} {S1 : State} (hw : Sub 0x8 w) (hk : Same w r S1) : OutSame w r (execGetDigests x0 S1) :=
  next_same (sub rfl hw) (getDigests_same (sub rfl hw) hk)
theorem getCertificate_same {x0} {S1 : State} (hw : Sub 0x8 w) (hk : Same w r S1) : Same w r (getCertificate x0 S1) :=
  serveSpdm_same (sub rfl hw) (fun _ h0 => same_if (respond_same (sub rfl hw) h0) (answerLogged_same (sub rfl hw) h0)) hk
theorem execGetCertificate_same {x0} {S1 : State} (hw : Sub 0x8 w) (hk : Same w r S1) : OutSame w r (execGetCertificate x0 S1) :=
  next_same (sub rfl hw) (getCertificate_same (sub rfl hw) hk)
theorem challengeAuth_same {x0} {S1 : State} (hw : Sub 0x10000008 w) (hk : Same w r S1) : Same w r (challengeAuth x0 S1) :=
  serveSpdm_same (sub rfl hw) (fun _ h0 => same_if (respond_same (sub rfl hw) h0) (respond_same (sub rfl hw) (set_8 (sub rfl hw) (drawn_same (sub rfl hw) h0)))) hk
theorem execChallenge_same {x0} {S1 : State} (hw : Sub 0x10000008 w) (hk : Same w r S1) : OutSame w r (execChallenge x0 S1) :=
  next_same (sub rfl hw) (challengeAuth_same (sub rfl hw) hk)
theorem getMeasurements_same {x0} {S1 : State} (hw : Sub 0x10000008 w) (hk : Same w r S1) : Same w r (getMeasurements x0 S1) := by
  refine serveSpdm_same (sub rfl hw) (fun _ h0 => ?_) hk
  try extract_lets -merge -underBinder +onlyGivenNames z1
  try clear_value z1
  try extract_lets -merge -underBinder +onlyGivenNames z2
  try clear_value z2
  try extract_lets -merge -underBinder +onlyGivenNames z3
  try clear_value z3
  refine same_if (respond_same (sub rfl hw) (set_8 (sub rfl hw) h0)) ?_
  try extract_lets -merge -underBinder +onlyGivenNames z4
  try clear_value z4
  try extract_lets -merge -underBinder +onlyGivenNames z5
  try clear_value z5
  try extract_lets -merge -underBinder +onlyGivenNames z6
  try clear_value z6
  extract_lets -merge -underBinder +onlyGivenNames z7
  have h8 : Same w r z7 := drawn_same (sub rfl hw) h0
  try clear_value z7
  exact same_if (respond_same (sub rfl hw) (set_8 (sub rfl hw) h8)) (respond_same (sub rfl hw) (set_8 (sub rfl hw) h8))
theorem execGetMeasurements_same {x0} {S1 : State} (hw : Sub 0x10000008 w) (hk : Same w r S1) : OutSame w r (execGetMeasurements x0 S1) :=
  next_same (sub rfl hw) (getMeasurements_same (sub rfl hw) hk)
theorem vendorRequest_same {x0} {S1 : State} (hw : Sub 0x8 w) (hk : Same w r S1) : Same w r (vendorRequest x0 S1) :=
  serveSpdm_same (sub rfl hw) (fun _ h0 => same_if (respond_same (sub rfl hw) h0) (respond_same (sub rfl hw) h0)) hk
theorem execVendorDefinedRequest_same {x0} {S1 : State} (hw : Sub 0x8 w) (hk : Same w r S1) : OutSame w r (execVendorDefinedRequest x0 S1) :=
  next_same (sub rfl hw) (vendorRequest_same (sub rfl hw) hk)
theorem setEndpointId_same {x0} {S1 : State} (hw : Sub 0x8 w) (hk : Same w r S1) : Same w r (setEndpointId x0 S1) :=
  same_if hk (set_8 (sub rfl hw) hk)
theorem execSetEndpointId_same {x0} {S1 : State} (hw : Sub 0x8 w) (hk : Same w r S1) : OutSame w r (execSetEndpointId x0 S1) :=
  next_same (sub rfl hw) (setEndpointId_same (sub rfl hw) hk)

/-! ### Idle -/

theorem idle_same {S0 : State} (hw : Sub 0xa0001d2 w) (hk : Same w r S0) : Same w r (idle S0) := by
  refine same_if hk ?_
  extract_lets -merge -underBinder +onlyGivenNames _ z0
  have h1 : Same w r z0 := tryReassemble_same (sub rfl hw) (set_2 (sub rfl hw) hk)
  try clear_value z0
  exact same_if (replayDoorbells_same (sub rfl hw) h1) h1

end Sys2Proof.Frames
end

