-- ==== Sys2Proof/Laws/Memory.lean ====
section
/-! SUPPORT. Sys2Proof/Laws/Memory.lean: host memory as a canonical list of cells: reads after writes, and the form kept. -/

namespace Sys2Proof.Machine

/-! ### One byte -/

theorem memByte_below {m : List Host.Cell} {lo k : Nat} (h : memWfFrom lo m = true) (hk : k < lo) : memByte m k = 0 := by
  induction m generalizing lo with
  | nil => rfl
  | cons c m ih =>
    simp only [memWfFrom, Bool.and_eq_true, decide_eq_true_eq] at h
    have hne : c.1 ≠ k := by omega
    simp only [memByte, hne, if_false]
    exact ih h.2 (by omega)

theorem memByte_memSet_same {m : List Host.Cell} {lo k : Nat} {b : Byte} (h : memWfFrom lo m = true) :
    memByte (memSet m k b) k = b := by
  induction m generalizing lo with
  | nil => simp only [memSet]; split <;> simp_all [memByte]
  | cons c m ih =>
    simp only [memWfFrom, Bool.and_eq_true, decide_eq_true_eq] at h
    simp only [memSet]
    split
    · rename_i hlt
      have hne : c.1 ≠ k := by omega
      simp only [memByte, hne, if_false]
      exact ih h.2
    · split
      · split
        · rename_i he hb
          rw [hb]
          exact memByte_below h.2 (by omega)
        · simp [memByte]
      · split
        · rename_i hb
          have hne : c.1 ≠ k := by omega
          simp only [memByte, hne, if_false]
          rw [hb]
          exact memByte_below h.2 (by omega)
        · simp [memByte]

theorem memByte_memSet_other {m : List Host.Cell} {k j : Nat} {b : Byte} (hj : j ≠ k) :
    memByte (memSet m k b) j = memByte m j := by
  induction m with
  | nil => simp only [memSet]; split <;> simp [memByte, Ne.symm hj]
  | cons c m ih =>
    simp only [memSet]
    split
    · simp only [memByte, ih]
    · split
      · rename_i he
        have hc : c.1 ≠ j := by omega
        split <;> simp [memByte, hc, Ne.symm hj]
      · split <;> simp [memByte, Ne.symm hj]

/-! ### The canonical form -/

theorem memWfFrom_mono {m : List Host.Cell} {lo lo' : Nat} (h : memWfFrom lo m = true) (hl : lo' ≤ lo) : memWfFrom lo' m = true := by
  cases m with
  | nil => rfl
  | cons c m =>
    simp only [memWfFrom, Bool.and_eq_true, decide_eq_true_eq] at h ⊢
    exact ⟨⟨by omega, h.1.2⟩, h.2⟩

theorem memWfFrom_memSet {m : List Host.Cell} {lo k : Nat} {b : Byte} (h : memWfFrom lo m = true) (hk : lo ≤ k) :
    memWfFrom lo (memSet m k b) = true := by
  induction m generalizing lo with
  | nil => simp only [memSet]; split <;> simp_all [memWfFrom]
  | cons c m ih =>
    have h' := h
    simp only [memWfFrom, Bool.and_eq_true, decide_eq_true_eq] at h
    simp only [memSet]
    split
    · simp only [memWfFrom, Bool.and_eq_true, decide_eq_true_eq]
      exact ⟨h.1, ih h.2 (by omega)⟩
    · split
      · rename_i he
        split
        · exact memWfFrom_mono h.2 (by omega)
        · rename_i hb
          simp only [memWfFrom, Bool.and_eq_true, decide_eq_true_eq]
          exact ⟨⟨hk, by simpa using hb⟩, he ▸ h.2⟩
      · split
        · exact h'
        · rename_i hb
          simp only [memWfFrom, Bool.and_eq_true, decide_eq_true_eq]
          exact ⟨⟨hk, by simpa using hb⟩, ⟨by omega, h.1.2⟩, h.2⟩

theorem wf_memSet {m : List Host.Cell} {k : Nat} {b : Byte} (h : Memory.wf m = true) : Memory.wf (memSet m k b) = true :=
  memWfFrom_memSet h (Nat.zero_le k)

theorem wf_memSetAll {m : List Host.Cell} {k : Nat} {bs : Bytes} (h : Memory.wf m = true) : Memory.wf (memSetAll m k bs) = true := by
  induction bs generalizing m k with
  | nil => exact h
  | cons b bs ih => exact ih (wf_memSet h)

theorem wf_hostWrite {space addr : Nat} {bs : Bytes} {s : State} (h : Memory.wf s.hostMem = true) :
    Memory.wf (hostWrite space addr bs s).hostMem = true := wf_memSetAll (wf_memSetAll h)

/-! ### Runs of bytes -/

theorem memByte_memSetAll_outside {m : List Host.Cell} {k j : Nat} {bs : Bytes} (h : j < k ∨ k + bs.length ≤ j) :
    memByte (memSetAll m k bs) j = memByte m j := by
  induction bs generalizing m k with
  | nil => rfl
  | cons b bs ih =>
    simp only [List.length_cons] at h
    simp only [memSetAll]
    rw [ih (by omega), memByte_memSet_other (by omega)]

theorem memByte_memSetAll_inside {m : List Host.Cell} {k i : Nat} {bs : Bytes} (hw : Memory.wf m = true) (hi : i < bs.length) :
    memByte (memSetAll m k bs) (k + i) = bs[i] := by
  induction bs generalizing m k i with
  | nil => simp at hi
  | cons b bs ih =>
    simp only [memSetAll]
    cases i with
    | zero =>
      rw [memByte_memSetAll_outside (by omega)]
      exact memByte_memSet_same hw
    | succ i =>
      have := ih (m := memSet m k b) (k := k + 1) (wf_memSet hw) (Nat.lt_of_succ_lt_succ hi)
      rw [show k + (i + 1) = k + 1 + i by omega, this]
      rfl

/-- What a write stores is what a read of the same run answers, where the run does not pass the top of the space. -/
theorem hostRead_hostWrite {s : State} {space addr : Nat} {bs : Bytes} (hw : Memory.wf s.hostMem = true)
    (hfit : addr % 2 ^ 64 + bs.length ≤ 2 ^ 64) : hostRead (hostWrite space addr bs s) space addr bs.length = bs := by
  have hd : bs.drop (2 ^ 64 - addr % 2 ^ 64) = [] := List.drop_eq_nil_of_le (by omega)
  have ht : bs.take (2 ^ 64 - addr % 2 ^ 64) = bs := List.take_of_length_le (by omega)
  apply List.ext_getElem
  · simp [hostRead]
  · intro i h1 h2
    have hkey : hostKey space (addr + i) = hostKey space addr + i := by
      simp only [hostKey]
      have := Nat.mod_add_mod addr (2 ^ 64) i
      have hlt : addr % 2 ^ 64 + i < 2 ^ 64 := by omega
      rw [← this, Nat.mod_eq_of_lt hlt]
      omega
    simp only [hostRead, List.getElem_map, List.getElem_range, hostWrite, hd, ht, memSetAll, hkey]
    exact memByte_memSetAll_inside hw h2

/-- A write changes no byte outside its run. -/
theorem memByte_hostWrite_outside {s : State} {space addr j : Nat} {bs : Bytes} (hfit : addr % 2 ^ 64 + bs.length ≤ 2 ^ 64)
    (hj : j < hostKey space addr ∨ hostKey space addr + bs.length ≤ j) :
    memByte (hostWrite space addr bs s).hostMem j = memByte s.hostMem j := by
  have hd : bs.drop (2 ^ 64 - addr % 2 ^ 64) = [] := List.drop_eq_nil_of_le (by omega)
  have ht : bs.take (2 ^ 64 - addr % 2 ^ 64) = bs := List.take_of_length_le (by omega)
  simp only [hostWrite, hd, ht, memSetAll]
  exact memByte_memSetAll_outside hj

end Sys2Proof.Machine
end

