-- ==== Sys2Proof/Laws/Kept.lean ====
section
/-! SUPPORT. Sys2Proof/Laws/Kept.lean: what no operation of the machine breaks, against a moment before it: the commands that wait,
the canonical form of host memory, and what never goes back in the enclave (`Safety.OneWay`). Here is the kit for proofs of it;
Sys2Proof/Laws/Keeps.lean has one lemma for each operation. -/

namespace Sys2Proof.Machine

open Sys2Proof.Safety

/-- A moment: the commands that waited, whether host memory was canonical and the lifecycle legal, and the enclave as it was. -/
structure Past where
  q : List Instr
  wf : Prop
  legal : Prop
  sec : Sec

/-- Between the moment `q` and the state `s` no command came or went, host memory stayed canonical and nothing went back in
the enclave. -/
def Kept (q : Past) (s : State) : Prop := s.pending = q.q ∧ (q.wf → Memory.wf s.hostMem = true) ∧ (q.legal → OneWay q.sec s.sec)

/-! ### The same of what operations answer -/

def OutKept (q : Past) : Out → Prop
  | .next t => Kept q t
  | _ => True
def ExcKept {ε : Type} (q : Past) : Except ε State → Prop
  | .ok t => Kept q t
  | .error _ => True
def ExcPKept {ε α : Type} (q : Past) : Except ε (α × State) → Prop
  | .ok t => Kept q t.2
  | .error _ => True
def OptPKept {α : Type} (q : Past) : Option (α × State) → Prop
  | some t => Kept q t.2
  | none => True
def SndKept {α : Type} (q : Past) (p : α × State) : Prop := Kept q p.2
def FstKept {α : Type} (q : Past) (p : State × α) : Prop := Kept q p.1
variable {q : Past}

/-! ### Cases -/

theorem kept_mk {s : State} {a1 a2 a3 a4 a5 a6 a7 a8 a9 a10 a11 a12 a13 a14 a15 a16 a17 a18 a19 a20 a21 a22 a23 a24 a25 a26 n1 n2} (h : Kept q s) (hs : OneWay q.sec s.sec → OneWay q.sec a3) :
  Kept q ⟨s.pending, a1, a2, a3, a4, a5, a6, a7, a8, a9, a10, a11, a12, a13, a14, a15, a16, a17, a18, a19, a20, a21, a22, a23, a24, a25, a26, s.hostMem, n1, n2⟩ := ⟨h.1, h.2.1, fun g => hs (h.2.2 g)⟩
theorem kept_if {c : Prop} [Decidable c] {a b : State} (h1 : Kept q a) (h2 : Kept q b) : Kept q (if c then a else b) := by
  split <;> assumption
theorem kept_dite {c : Prop} [Decidable c] {a : c → State} {b : ¬ c → State} (h1 : ∀ h, Kept q (a h)) (h2 : ∀ h, Kept q (b h)) : Kept q (if h : c then a h else b h) := by
  split <;> simp_all
theorem out_if {c : Prop} [Decidable c] {a b : Out} (h1 : OutKept q a) (h2 : OutKept q b) : OutKept q (if c then a else b) := by
  split <;> assumption
theorem exc_if {ε} {c : Prop} [Decidable c] {a b : Except ε State} (h1 : ExcKept q a) (h2 : ExcKept q b) : ExcKept q (if c then a else b) := by
  split <;> assumption
theorem excP_if {ε α} {c : Prop} [Decidable c] {a b : Except ε (α × State)} (h1 : ExcPKept q a) (h2 : ExcPKept q b) : ExcPKept q (if c then a else b) := by
  split <;> assumption
theorem optP_if {α} {c : Prop} [Decidable c] {a b : Option (α × State)} (h1 : OptPKept q a) (h2 : OptPKept q b) : OptPKept q (if c then a else b) := by
  split <;> assumption
theorem snd_if {α} {c : Prop} [Decidable c] {a b : α × State} (h1 : SndKept q a) (h2 : SndKept q b) : SndKept q (if c then a else b) := by
  split <;> assumption
theorem fst_if {α} {c : Prop} [Decidable c] {a b : State × α} (h1 : FstKept q a) (h2 : FstKept q b) : FstKept q (if c then a else b) := by
  split <;> assumption
theorem snd_snd {α} {p : α × State} (h : SndKept q p) : Kept q p.2 := h
theorem fst_fst {α} {p : State × α} (h : FstKept q p) : Kept q p.1 := h
theorem snd_mk {α} {a : α} {s} (h : Kept q s) : SndKept q (a, s) := h
theorem fst_mk {α} {a : α} {s} (h : Kept q s) : FstKept q (s, a) := h
theorem exc_ok {ε} {s} (h : Kept q s) : ExcKept q (.ok s : Except ε State) := h
theorem exc_error {ε} {e : ε} : ExcKept q (.error e) := trivial
theorem excP_ok {ε α} {p : α × State} (h : SndKept q p) : ExcPKept q (.ok p : Except ε (α × State)) := h
theorem excP_error {ε α} {e : ε} : ExcPKept q (.error e : Except ε (α × State)) := trivial
theorem optP_some {α} {p : α × State} (h : SndKept q p) : OptPKept q (some p) := h
theorem optP_none {α} : OptPKept q (none : Option (α × State)) := trivial
theorem out_next {s} (h : Kept q s) : OutKept q (.next s) := h
theorem snd_elim {α} {p : α × State} {r t} (e : p = (r, t)) (h : SndKept q p) : Kept q t := by subst e; exact h
theorem fst_elim {α} {p : State × α} {r t} (e : p = (t, r)) (h : FstKept q p) : Kept q t := by subst e; exact h
theorem exc_elim {ε} {p : Except ε State} {t} (e : p = .ok t) (h : ExcKept q p) : Kept q t := by subst e; exact h
theorem excP_elim {ε α} {p : Except ε (α × State)} {r t} (e : p = .ok (r, t)) (h : ExcPKept q p) : Kept q t := by subst e; exact h
theorem optP_elim {α} {p : Option (α × State)} {r t} (e : p = some (r, t)) (h : OptPKept q p) : Kept q t := by subst e; exact h
theorem kept_foldl {α : Type} {f : State → α → State} {l : List α} {s : State} (hf : ∀ s a, Kept q s → Kept q (f s a)) (h : Kept q s) : Kept q (l.foldl f s) := by
  induction l generalizing s with
  | nil => exact h
  | cons a l ih => exact ih (hf _ _ h)
theorem snd_foldl {α β : Type} {f : β × State → α → β × State} {l : List α} {s : β × State} (hf : ∀ s a, SndKept q s → SndKept q (f s a)) (h : SndKept q s) : SndKept q (l.foldl f s) := by
  induction l generalizing s with
  | nil => exact h
  | cons a l ih => exact ih (hf _ _ h)
theorem fst_foldl {α β : Type} {f : State × β → α → State × β} {l : List α} {s : State × β} (hf : ∀ s a, FstKept q s → FstKept q (f s a)) (h : FstKept q s) : FstKept q (l.foldl f s) := by
  induction l generalizing s with
  | nil => exact h
  | cons a l ih => exact ih (hf _ _ h)
theorem oneWay_floor {a b : Sec} {f : Nat} (h : b.floor ≤ f) : OneWay a b → OneWay a { b with floor := f } :=
  fun k => ⟨Nat.le_trans k.1 h, k.2⟩
theorem oneWay_field {a b : Sec} (h : b.lifecycle ≤ 3) {m x} : OneWay a b → OneWay a { b with lifecycle := 3, makerHash := m, challenge := x } :=
  fun k => ⟨k.1, Nat.le_trans k.2.1 h, Nat.le_succ 3, k.2.2.2⟩
theorem oneWay_returned {a b : Sec} {m x} : OneWay a b → OneWay a { b with lifecycle := 4, makerHash := m, challenge := x } :=
  fun k => ⟨k.1, Nat.le_trans k.2.1 k.2.2.1, Nat.le_refl 4, k.2.2.2⟩
theorem oneWay_log {a b : Sec} (l : List (Nat × Bytes)) {n : Nat} (hn : n ≤ (b.ingot ++ l).length) : OneWay a b → OneWay a { b with ingot := (b.ingot ++ l).drop n } := by
  rintro ⟨h1, h2, h3, new, k, hk, he⟩
  refine ⟨h1, h2, h3, new ++ l, k + n, ?_, ?_⟩
  · rw [he] at hn; simp at hn hk ⊢; omega
  · show (b.ingot ++ l).drop n = _
    rw [he, ← List.append_assoc, ← List.drop_drop, List.drop_append_of_le_length hk]

theorem hostWrite_kept {x0 x1 x2} {s : State} (hk : Kept q s) : Kept q (hostWrite x0 x1 x2 s) := ⟨hk.1, fun h => wf_hostWrite (hk.2.1 h), hk.2.2⟩

end Sys2Proof.Machine
end

