-- ==== Sys2Proof/Laws/Keeps.lean ====
section
/-! SUPPORT. Sys2Proof/Laws/Keeps.lean: one lemma for each operation that answers a state: it keeps what `Kept` says. -/

namespace Sys2Proof.Machine

variable {q : Past}

/-! ### Ops -/

theorem next_kept {s : State} (hk : Kept q s) : OutKept q (next s) := hk
theorem State_modInst_kept {S0 : State} {x1 x2} (hk : Kept q S0) : Kept q (State.modInst S0 x1 x2) :=
  kept_mk hk id
theorem State_modRing_kept {S0 : State} {x1 x2} (hk : Kept q S0) : Kept q (State.modRing S0 x1 x2) := by
  unfold State.modRing
  split
  · exact kept_mk hk id
  · exact State_modInst_kept hk
theorem drawn_kept {x0} {S1 : State} (hk : Kept q S1) : Kept q (drawn x0 S1) := kept_mk hk id
theorem fireMsix_kept {x0} {S1 : State} (hk : Kept q S1) : Kept q (fireMsix x0 S1) :=
  kept_if (kept_mk hk id) (hostWrite_kept (kept_mk hk id))
theorem flushMsix_kept {S0 : State} (hk : Kept q S0) : Kept q (flushMsix S0) :=
  kept_foldl (fun _ _ h0 => kept_if (fireMsix_kept (kept_mk h0 id)) h0) hk
theorem raiseEv_kept {x0 x1 x2 x3 x4} {S5 : State} (hk : Kept q S5) : Kept q (raiseEv x0 x1 x2 x3 x4 S5) :=
  kept_if hk (kept_mk hk id)
theorem signalRing_kept {x0} {S1 : State} (hk : Kept q S1) : Kept q (signalRing x0 S1) :=
  fireMsix_kept (State_modRing_kept hk)
theorem moderate_kept {x0} {S1 : State} (hk : Kept q S1) : Kept q (moderate x0 S1) :=
  kept_if (signalRing_kept hk) hk
theorem useAts_kept {x0 x1} {S2 : State} (hk : Kept q S2) : Kept q (useAts x0 x1 S2) := by
  unfold useAts
  split
  · exact hk
  · exact State_modInst_kept hk
theorem putCpl_kept {x0 x1 x2 x3} {S4 : State} (hk : Kept q S4) : Kept q (putCpl x0 x1 x2 x3 S4) :=
  State_modRing_kept (useAts_kept (hostWrite_kept hk))
theorem countCpl_kept {x0 x1} {S2 : State} (hk : Kept q S2) : Kept q (countCpl x0 x1 S2) := by
  unfold countCpl
  split
  · exact hk
  · exact State_modInst_kept hk
theorem State_modCmd_kept {S0 : State} {x1 x2 x3} (hk : Kept q S0) : Kept q (State.modCmd S0 x1 x2 x3) :=
  State_modRing_kept hk
theorem dropCmd_kept {x0 x1} {S2 : State} (hk : Kept q S2) : Kept q (dropCmd x0 x1 S2) :=
  State_modRing_kept hk
theorem complete_kept {x0 x1 x2} {S3 : State} (hk : Kept q S3) : Kept q (complete x0 x1 x2 S3) := by
  unfold complete
  split
  · exact hk
  · exact kept_if (State_modRing_kept hk) (kept_if (dropCmd_kept hk) (moderate_kept (countCpl_kept (putCpl_kept (dropCmd_kept hk)))))
theorem completeSt_kept {x0 x1 x2} {S3 : State} (hk : Kept q S3) : Kept q (completeSt x0 x1 x2 S3) :=
  complete_kept hk
theorem setInstState_kept {x0 x1} {S2 : State} (hk : Kept q S2) : Kept q (setInstState x0 x1 S2) :=
  kept_if hk (fireMsix_kept (State_modInst_kept hk))
theorem powerFor_kept {x0} {S1 : State} (hk : Kept q S1) : Kept q (powerFor x0 S1) := kept_mk hk id
theorem setMode_kept {x0} {S1 : State} (hk : Kept q S1) : Kept q (setMode x0 S1) :=
  kept_if hk (powerFor_kept (kept_mk hk id))
theorem storeMap_kept {S0 : State} (hk : Kept q S0) : Kept q (storeMap S0) := kept_mk hk id
theorem storeSlot_kept {x0} {S1 : State} (hk : Kept q S1) : Kept q (storeSlot x0 S1) := kept_mk hk id

/-! ### Stripes -/

theorem setDamage_kept {x0 x1} {S2 : State} (hk : Kept q S2) : Kept q (setDamage x0 x1 S2) := kept_mk hk id

/-! ### Pans -/

theorem State_modPan_kept {S0 : State} {x1 x2} (hk : Kept q S0) : Kept q (State.modPan S0 x1 x2) :=
  kept_mk hk id
theorem settlePan_kept {x0} {S1 : State} (hk : Kept q S1) : Kept q (settlePan x0 S1) := by
  unfold settlePan
  try extract_lets -merge -underBinder +onlyGivenNames z0
  try clear_value z0
  try extract_lets -merge -underBinder +onlyGivenNames z1
  try clear_value z1
  try extract_lets -merge -underBinder +onlyGivenNames z2
  try clear_value z2
  extract_lets -merge -underBinder +onlyGivenNames z3
  have h4 : Kept q z3 := State_modPan_kept hk
  try clear_value z3
  try extract_lets -merge -underBinder +onlyGivenNames z8
  try clear_value z8
  extract_lets -merge -underBinder +onlyGivenNames z9
  have h10 : Kept q z9 := kept_if (raiseEv_kept h4) h4
  try clear_value z9
  exact kept_if (raiseEv_kept h10) h10
theorem noteUncorr_kept {x0 x1} {S2 : State} (hk : Kept q S2) : Kept q (noteUncorr x0 x1 S2) :=
  raiseEv_kept (kept_mk hk id)
theorem writeLink_kept {x0 x1} {S2 : State} (hk : Kept q S2) : Kept q (writeLink x0 x1 S2) :=
  kept_if hk (kept_if (kept_mk (kept_if (noteUncorr_kept (setDamage_kept hk)) (setDamage_kept hk)) id) (setDamage_kept hk))
theorem relink_kept {x0} {S1 : State} (hk : Kept q S1) : Kept q (relink x0 S1) := by
  refine kept_foldl (fun _ _ h0 => ?_) hk
  try extract_lets -merge -underBinder +onlyGivenNames z1
  try clear_value z1
  try extract_lets -merge -underBinder +onlyGivenNames z2
  try clear_value z2
  refine kept_if ?_ h0
  split
  · exact writeLink_kept h0
  · exact h0
theorem chargeUnits_kept {x0 x1} {S2 : State} (hk : Kept q S2) : Kept q (chargeUnits x0 x1 S2) := by
  unfold chargeUnits
  split
  · exact hk
  · exact kept_mk hk id
theorem grantBuf_kept {x0 x1 x2} {S3 : State} (hk : Kept q S3) : SndKept q (grantBuf x0 x1 x2 S3) :=
  snd_mk (settlePan_kept (chargeUnits_kept (kept_mk (State_modPan_kept hk) id)))
theorem freeBuf_kept {x0 x1} {S2 : State} (hk : Kept q S2) : Kept q (freeBuf x0 x1 S2) := by
  unfold freeBuf
  extract_lets -merge -underBinder +onlyGivenNames _ z0
  have h1 : Kept q z0 := kept_mk hk id
  try clear_value z0
  extract_lets -merge -underBinder +onlyGivenNames z40
  have h41 : Kept q z40 := State_modPan_kept h1
  try clear_value z40
  extract_lets -merge -underBinder +onlyGivenNames z60
  have h61 : Kept q z60 := chargeUnits_kept h41
  try clear_value z60
  extract_lets -merge -underBinder +onlyGivenNames z70
  have h71 : Kept q z70 := kept_if h61 (writeLink_kept h61)
  try clear_value z70
  exact settlePan_kept (kept_if (State_modPan_kept h71) h71)
theorem dropWaiter_kept {x0} {S1 : State} (hk : Kept q S1) : Kept q (dropWaiter x0 S1) :=
  kept_foldl (fun _ _ h0 => State_modPan_kept h0) hk
theorem startRebuild_kept {x0} {S1 : State} (hk : Kept q S1) : Kept q (startRebuild x0 S1) :=
  raiseEv_kept (State_modPan_kept hk)
theorem serveOne_kept {S0 : State} {x1} (hk : Kept q S0) : Kept q (serveOne S0 x1) := by
  unfold serveOne
  split
  · exact hk
  · exact kept_if (startRebuild_kept hk) (kept_mk (snd_snd (grantBuf_kept (dropWaiter_kept hk))) id)
theorem serveWaiting_kept {S0 : State} (hk : Kept q S0) : Kept q (serveWaiting S0) :=
  kept_foldl (fun _ _ h0 => serveOne_kept h0) hk
theorem panAnswer_kept {x0} {S1 : State} (hk : Kept q S1) : Kept q (panAnswer x0 S1) := kept_mk hk id
theorem panReject_kept {x0 x1 x2} {S3 : State} (hk : Kept q S3) : Kept q (panReject x0 x1 x2 S3) :=
  panAnswer_kept (kept_mk hk id)
theorem panMisuse_kept {x0 x1 x2 x3 x4} {S5 : State} (hk : Kept q S5) : Kept q (panMisuse x0 x1 x2 x3 x4 S5) :=
  raiseEv_kept (panReject_kept hk)
theorem panBadHandle_kept {x0 x1} {S2 : State} (hk : Kept q S2) : Kept q (panBadHandle x0 x1 S2) :=
  raiseEv_kept (panReject_kept hk)
theorem panAlloc_kept {x0 x1 x2 x3} {S4 : State} (hk : Kept q S4) : Kept q (panAlloc x0 x1 x2 x3 S4) := by
  refine kept_if hk ?_
  split
  · exact panReject_kept hk
  · try extract_lets -merge -underBinder +onlyGivenNames z0
    try clear_value z0
    refine kept_if (panReject_kept hk) ?_
    try extract_lets -merge -underBinder +onlyGivenNames z1
    try clear_value z1
    extract_lets -merge -underBinder +onlyGivenNames z2
    have h3 : Kept q z2 := State_modPan_kept hk
    try clear_value z2
    extract_lets -merge -underBinder +onlyGivenNames _ z6
    have h7 : Kept q z6 := serveWaiting_kept (kept_mk h3 id)
    try clear_value z6
    exact kept_if (panAnswer_kept h7) (kept_if (panAnswer_kept h7) (panAnswer_kept (dropWaiter_kept h7)))
theorem panDefer_kept {x0 x1 x2} {S3 : State} (hk : Kept q S3) : Kept q (panDefer x0 x1 x2 S3) :=
  panAnswer_kept (kept_mk hk id)
theorem panFree_kept {x0 x1} {S2 : State} (hk : Kept q S2) : Kept q (panFree x0 x1 S2) := by
  unfold panFree
  split
  · exact panBadHandle_kept hk
  · refine kept_if (panDefer_kept hk) ?_
    split
    · exact panBadHandle_kept hk
    · refine kept_if (panReject_kept hk) ?_
      split
      · exact kept_if (serveWaiting_kept (panAnswer_kept (freeBuf_kept hk))) (panMisuse_kept hk)
      · exact panMisuse_kept hk
theorem panHandoff_kept {x0 x1 x2} {S3 : State} (hk : Kept q S3) : Kept q (panHandoff x0 x1 x2 S3) := by
  unfold panHandoff
  split
  · exact panBadHandle_kept hk
  · refine kept_if (panDefer_kept hk) ?_
    split
    · exact panBadHandle_kept hk
    · refine kept_if (panReject_kept hk) ?_
      split
      · exact kept_if (panAnswer_kept (kept_mk hk id)) (panMisuse_kept hk)
      · exact panMisuse_kept hk
theorem panAcquire_kept {x0 x1} {S2 : State} (hk : Kept q S2) : Kept q (panAcquire x0 x1 S2) := by
  unfold panAcquire
  split
  · exact panBadHandle_kept hk
  · refine kept_if (panDefer_kept hk) ?_
    split
    · exact panBadHandle_kept hk
    · refine kept_if (panReject_kept hk) ?_
      split
      · exact kept_if (panAnswer_kept (kept_mk hk id)) (panReject_kept hk)
      · exact panMisuse_kept hk
theorem panRelease_kept {x0 x1} {S2 : State} (hk : Kept q S2) : Kept q (panRelease x0 x1 S2) := by
  unfold panRelease
  split
  · exact panBadHandle_kept hk
  · refine kept_if (panDefer_kept hk) ?_
    split
    · exact panBadHandle_kept hk
    · refine kept_if (panReject_kept hk) ?_
      split
      · exact kept_if (serveWaiting_kept (panAnswer_kept (freeBuf_kept hk))) (panAnswer_kept (kept_mk hk id))
      · exact panMisuse_kept hk
theorem panCancel_kept {x0} {S1 : State} (hk : Kept q S1) : Kept q (panCancel x0 S1) :=
  panAnswer_kept (dropWaiter_kept hk)
theorem onBehalf_kept {x0} {S1 : State} (hx0 : ∀ s, Kept q s → Kept q (x0 s)) (hk : Kept q S1) : Kept q (onBehalf x0 S1) :=
  kept_mk (hx0 _ hk) id
theorem releaseHandle_kept {x0 x1} {S2 : State} (hk : Kept q S2) : Kept q (releaseHandle x0 x1 S2) :=
  onBehalf_kept (fun _ h0 => panFree_kept h0) hk
theorem panCarry_kept {S0 : State} {x1} (hk : Kept q S0) : Kept q (panCarry S0 x1) := by
  unfold panCarry
  split
  · exact panFree_kept hk
  · exact panHandoff_kept hk
  · exact panAcquire_kept hk
  · exact panRelease_kept hk
theorem takeGrant_kept {x0} {S1 : State} (hk : Kept q S1) : OptPKept q (takeGrant x0 S1) := by
  unfold takeGrant
  split
  · exact optP_none
  · exact optP_some (snd_mk (kept_mk hk id))
theorem fillPan_kept {x0} {S1 : State} {x2} (hk : Kept q S1) : Kept q (fillPan x0 S1 x2) :=
  kept_if (relink_kept (settlePan_kept (State_modPan_kept hk))) hk
theorem fillPans_kept {S0 : State} (hk : Kept q S0) : Kept q (fillPans S0) :=
  serveWaiting_kept (kept_foldl (fun _ _ h0 => fillPan_kept h0) hk)
theorem rebuildPan_kept {x0} {S1 : State} {x2} (hk : Kept q S1) : Kept q (rebuildPan x0 S1 x2) :=
  kept_if (relink_kept (settlePan_kept (State_modPan_kept (State_modPan_kept hk)))) (State_modPan_kept (State_modPan_kept hk))
theorem rebuildTable_kept {S0 : State} (hk : Kept q S0) : Kept q (rebuildTable S0) :=
  kept_foldl (fun _ _ h2 => rebuildPan_kept h2) (kept_mk hk id)
theorem enablePans_kept {S0 : State} (hk : Kept q S0) : Kept q (enablePans S0) :=
  kept_if (fillPans_kept (kept_foldl (fun _ _ h2 => kept_if (settlePan_kept h2) h2) (kept_mk hk id))) (kept_mk hk id)

/-! ### Pace -/

theorem publishCeilings_kept {x0} {S1 : State} (hk : Kept q S1) : Kept q (publishCeilings x0 S1) :=
  kept_if hk (kept_if (raiseEv_kept (kept_mk hk id)) (kept_mk hk id))

/-! ### Faults -/

theorem abortRing_kept {x0} {S1 : State} {x2} (hk : Kept q S1) : Kept q (abortRing x0 S1 x2) := by
  unfold abortRing
  extract_lets -merge -underBinder +onlyGivenNames z0
  have h1 : Kept q z0 := kept_foldl (fun _ _ h3 => completeSt_kept h3) hk
  try clear_value z0
  exact kept_if h1 (signalRing_kept h1)
theorem abortAll_kept {x0} {S1 : State} (hk : Kept q S1) : Kept q (abortAll x0 S1) :=
  kept_foldl (fun _ _ h0 => abortRing_kept h0) hk
theorem wipeKeys_kept {x0} {S1 : State} (hk : Kept q S1) : Kept q (wipeKeys x0 S1) := kept_mk hk id
theorem unassign_kept {S0 : State} {x1} (hk : Kept q S0) : Kept q (unassign S0 x1) :=
  setInstState_kept (State_modInst_kept hk)
theorem unassignAll_kept {S0 : State} (hk : Kept q S0) : Kept q (unassignAll S0) :=
  wipeKeys_kept (kept_foldl (fun _ _ h0 => unassign_kept h0) hk)
theorem dropGates_kept {S0 : State} (hk : Kept q S0) : Kept q (dropGates S0) := kept_mk hk id
theorem writePreamps_kept {S0 : State} (hk : Kept q S0) : Kept q (writePreamps S0) :=
  kept_if (kept_mk hk id) (kept_mk hk id)
theorem abandonData_kept {S0 : State} (hk : Kept q S0) : Kept q (abandonData S0) := kept_mk hk id
theorem endDesc_kept {x0 x1 x2 x3 x4} {S5 : State} (hk : Kept q S5) : Kept q (endDesc x0 x1 x2 x3 x4 S5) :=
  kept_mk hk id
theorem abortMover_kept {S0 : State} (hk : Kept q S0) : Kept q (abortMover S0) :=
  kept_mk (kept_foldl (fun _ _ h2 => endDesc_kept h2) hk) id
theorem beginStop_kept {S0 : State} (hk : Kept q S0) : Kept q (beginStop S0) := kept_if (kept_mk hk id) hk
theorem enterPewter_kept {x0 x1 x2} {S3 : State} (hk : Kept q S3) : Kept q (enterPewter x0 x1 x2 S3) := by
  refine kept_if hk ?_
  extract_lets -merge -underBinder +onlyGivenNames _ z0
  have h1 : Kept q z0 := storeMap_kept (kept_mk hk id)
  try clear_value z0
  extract_lets -merge -underBinder +onlyGivenNames _ z24
  have h25 : Kept q z24 := raiseEv_kept (kept_mk h1 id)
  try clear_value z24
  exact powerFor_kept (abandonData_kept (kept_mk (unassignAll_kept (abortAll_kept (abortMover_kept (kept_if (beginStop_kept (dropGates_kept h25)) (kept_mk (dropGates_kept h25) id))))) id))
theorem judgePewter_kept {x0 x1} {S2 : State} (hk : Kept q S2) : Kept q (judgePewter x0 x1 S2) := by
  unfold judgePewter
  split
  · exact enterPewter_kept hk
  · exact hk
theorem setRetired_kept {x0 x1 x2} {S3 : State} (hk : Kept q S3) : Kept q (setRetired x0 x1 x2 S3) :=
  kept_mk hk id
theorem requeueHeld_kept {x0 x1} {S2 : State} (hk : Kept q S2) : Kept q (requeueHeld x0 x1 S2) := by
  refine kept_if (kept_mk hk id) ?_
  refine kept_if (kept_mk hk id) ?_
  refine kept_if ?_ hk
  split
  · exact hk
  · exact kept_mk hk id
theorem loseDevice_kept {x0 x1} {S2 : State} (hk : Kept q S2) : Kept q (loseDevice x0 x1 S2) := by
  refine kept_if hk ?_
  extract_lets -merge -underBinder +onlyGivenNames _ z0
  have h1 : Kept q z0 := kept_mk hk id
  try clear_value z0
  extract_lets -merge -underBinder +onlyGivenNames z10
  have h11 : Kept q z10 := storeMap_kept (setRetired_kept h1)
  try clear_value z10
  exact kept_if (judgePewter_kept (kept_mk (raiseEv_kept h11) id)) (kept_if (kept_mk (raiseEv_kept h11) id) (raiseEv_kept h11))
theorem retrainPort_kept {x0} {S1 : State} (hk : Kept q S1) : Kept q (retrainPort x0 S1) := kept_mk hk id
theorem retire_kept {x0 x1 x2} {S3 : State} (hk : Kept q S3) : Kept q (retire x0 x1 x2 S3) := by
  refine kept_if hk ?_
  extract_lets -merge -underBinder +onlyGivenNames z0
  have h1 : Kept q z0 := requeueHeld_kept (setRetired_kept hk)
  try clear_value z0
  extract_lets -merge -underBinder +onlyGivenNames z64
  have h65 : Kept q z64 := kept_if (raiseEv_kept h1) (raiseEv_kept h1)
  try clear_value z64
  extract_lets -merge -underBinder +onlyGivenNames _ z96
  have h97 : Kept q z96 := storeMap_kept (kept_mk h65 id)
  try clear_value z96
  extract_lets -merge -underBinder +onlyGivenNames z112
  have h113 : Kept q z112 := kept_if (publishCeilings_kept h97) h97
  try clear_value z112
  extract_lets -merge -underBinder +onlyGivenNames z120
  have h121 : Kept q z120 := kept_if (loseDevice_kept h113) h113
  try clear_value z120
  exact judgePewter_kept (kept_if (retrainPort_kept h121) h121)
theorem strike_kept {x0 x1} {S2 : State} (hk : Kept q S2) : Kept q (strike x0 x1 S2) :=
  kept_if hk (kept_if (retire_kept (kept_mk hk id)) (kept_mk hk id))
theorem passAfter_kept {x0 x1} {S2 : State} (hk : Kept q S2) : Kept q (passAfter x0 x1 S2) := by
  unfold passAfter
  split
  · exact kept_if hk (retire_kept hk)
  · exact hk
theorem serveOldest_kept {x0 x1} {S2 : State} (hk : Kept q S2) : Kept q (serveOldest x0 x1 S2) := by
  unfold serveOldest
  split
  · exact hk
  · exact kept_mk hk id
theorem moverMoved_kept {x0 x1} {S2 : State} (hk : Kept q S2) : Kept q (moverMoved x0 x1 S2) :=
  kept_mk hk id
theorem raiseResend_kept {x0 x1 x2 x3 x4 x5} {S6 : State} (hk : Kept q S6) : Kept q (raiseResend x0 x1 x2 x3 x4 x5 S6) :=
  raiseEv_kept hk

/-! ### Keys -/

theorem State_modSlot_kept {S0 : State} {x1 x2 x3} (hk : Kept q S0) : Kept q (State.modSlot S0 x1 x2 x3) :=
  State_modInst_kept hk
theorem bumpGeneration_kept {x0 x1} {S2 : State} (hk : Kept q S2) : Kept q (bumpGeneration x0 x1 S2) :=
  fireMsix_kept (State_modSlot_kept hk)
theorem State_modStream_kept {S0 : State} {x1 x2} (hk : Kept q S0) : Kept q (State.modStream S0 x1 x2) :=
  kept_mk hk id
theorem takeLease_kept {x0 x1} {S2 : State} (hk : Kept q S2) : SndKept q (takeLease x0 x1 S2) :=
  snd_mk (kept_mk (kept_if (storeSlot_kept hk) hk) id)
theorem setEpoch_kept {x0 x1 x2} {S3 : State} (hk : Kept q S3) : Kept q (setEpoch x0 x1 x2 S3) :=
  kept_if (storeSlot_kept (kept_mk hk id)) (kept_mk hk id)
theorem resumeSeqs_kept {S0 : State} (hk : Kept q S0) : Kept q (resumeSeqs S0) := kept_mk hk id
theorem resumeSaved_kept {S0 : State} (hk : Kept q S0) : Kept q (resumeSaved S0) := kept_mk hk id
theorem cacheKey_kept {x0 x1 x2 x3 x4} {S5 : State} (hk : Kept q S5) : Kept q (cacheKey x0 x1 x2 x3 x4 S5) :=
  kept_mk hk id
theorem startKey_kept {x0 x1 x2} {S3 : State} (hk : Kept q S3) : SndKept q (startKey x0 x1 x2 S3) :=
  snd_mk (State_modSlot_kept (drawn_kept (setEpoch_kept hk)))
theorem keyFor_kept {x0 x1} {S2 : State} (hk : Kept q S2) : ExcPKept q (keyFor x0 x1 S2) := by
  unfold keyFor
  try extract_lets -merge -underBinder +onlyGivenNames z0
  try clear_value z0
  refine excP_if excP_error ?_
  refine excP_if ?_ ?_
  · refine excP_if excP_error ?_
    split
    · exact excP_error
    · exact excP_ok (startKey_kept hk)
  · split
    · exact excP_error
    · exact excP_if excP_error (excP_ok (snd_mk hk))
theorem takeCounter_kept {x0} {S1 : State} (hk : Kept q S1) : ExcPKept q (takeCounter x0 S1) := by
  unfold takeCounter
  split
  · exact hk
  · split
    · trivial
    · rename_i he
      have h := excP_elim he (keyFor_kept hk)
      by_cases h2 : x0.leaseNext < x0.leaseEnd
      · simp only [if_pos h2]
        exact excP_ok (snd_mk (State_modSlot_kept (State_modStream_kept h)))
      · simp only [if_neg h2]
        exact excP_ok (snd_mk (State_modSlot_kept (State_modStream_kept (takeLease_kept h))))

/-! ### Streams -/

theorem completeWrite_kept {x0 x1 x2 x3} {S4 : State} (hk : Kept q S4) : Kept q (completeWrite x0 x1 x2 x3 S4) :=
  complete_kept hk
theorem sweepStreams_kept {S0 : State} (hk : Kept q S0) : Kept q (sweepStreams S0) := kept_mk hk id
theorem settleCmd_kept {x0} {S1 : State} {x2} (hk : Kept q S1) : Kept q (settleCmd x0 S1 x2) := by
  unfold settleCmd
  split
  · exact hk
  · extract_lets -merge -underBinder +onlyGivenNames z0
    have h1 : Kept q z0 := by
      unfold z0
      split
      · exact State_modStream_kept hk
      · exact hk
    try clear_value z0
    exact complete_kept h1
theorem settleWaits_kept {S0 : State} (hk : Kept q S0) : Kept q (settleWaits S0) :=
  sweepStreams_kept (kept_foldl (fun _ _ h0 => kept_foldl (fun _ _ h1 => settleCmd_kept h1) h0) hk)
theorem failBegun_kept {x0 x1 x2} {S3 : State} (hk : Kept q S3) : Kept q (failBegun x0 x1 x2 S3) :=
  kept_foldl (fun _ _ h0 => kept_if (completeWrite_kept h0) h0) hk
theorem failAll_kept {x0 x1} {S2 : State} (hk : Kept q S2) : Kept q (failAll x0 x1 S2) :=
  kept_foldl (fun _ _ h0 => kept_if (completeWrite_kept h0) h0) hk
theorem cutStream_kept {x0 x1} {S2 : State} (hk : Kept q S2) : Kept q (cutStream x0 x1 S2) :=
  State_modStream_kept hk
theorem closeBlock_kept {x0 x1} {S2 : State} (hk : Kept q S2) : ExcKept q (closeBlock x0 x1 S2) := by
  unfold closeBlock
  split
  · exact exc_error
  · have h0 := excP_elim ‹_ = _› (q := q) (takeCounter_kept hk)
    exact exc_ok (kept_mk (State_modStream_kept h0) id)
theorem drainPieces_kept {x0 x1 x2} {s : State} (hk : Kept q s) : SndKept q (drainPieces x0 x1 x2 s) := by
  induction x2 generalizing s with
  | zero => exact hk
  | succ n ih =>
    unfold drainPieces
    split
    · exact hk
    · split
      · split
        · exact hk
        · rename_i he
          exact ih (exc_elim he (closeBlock_kept hk))
      · split
        · exact hk
        · exact ih (State_modStream_kept hk)
theorem drainStream_kept {x0 x1} {S2 : State} (hk : Kept q S2) : SndKept q (drainStream x0 x1 S2) := by
  unfold drainStream
  split
  · exact snd_mk hk
  · exact drainPieces_kept hk
theorem frameEntry_kept {x0 x1 x2} {S3 : State} (hk : Kept q S3) : Kept q (frameEntry x0 x1 x2 S3) := by
  unfold frameEntry
  split
  · exact hk
  · exact kept_mk (State_modStream_kept hk) id
theorem closeEarly_kept {x0 x1} {S2 : State} (hk : Kept q S2) : SndKept q (closeEarly x0 x1 S2) := by
  unfold closeEarly
  extract_lets -merge -underBinder +onlyGivenNames z0
  have h1 : SndKept q z0 := drainStream_kept hk
  try clear_value z0
  split
  · exact snd_mk (snd_snd h1)
  · exact h1
  · refine snd_if h1 ?_
    split
    · exact snd_mk (snd_snd h1)
    · have h3 := exc_elim ‹_ = _› (q := q) (closeBlock_kept (snd_snd h1))
      exact snd_mk h3
theorem keyWork_kept {S0 : State} (hk : Kept q S0) : Kept q (keyWork S0) := by
  unfold keyWork
  split
  · exact kept_mk hk id
  · exact hk
theorem State_modBlk_kept {S0 : State} {x1 x2} (hk : Kept q S0) : Kept q (State.modBlk S0 x1 x2) :=
  kept_mk hk id
theorem missSecond_kept {S0 : State} (hk : Kept q S0) : Kept q (missSecond S0) := kept_mk hk id
theorem dispatchSlice_kept {S0 : State} (hk : Kept q S0) : Kept q (dispatchSlice S0) := by
  unfold dispatchSlice
  split
  · exact hk
  · split
    · exact hk
    · exact kept_mk (State_modBlk_kept hk) id
theorem dispatchEngine_kept {S0 : State} (hk : Kept q S0) : Kept q (dispatchEngine S0) := by
  unfold dispatchEngine
  split
  · exact hk
  · split
    · exact hk
    · exact kept_mk (State_modBlk_kept hk) id
theorem dispatch_kept {S0 : State} (hk : Kept q S0) : Kept q (dispatch S0) := by
  unfold dispatch
  extract_lets -merge -underBinder +onlyGivenNames z0
  have h1 : Kept q z0 := missSecond_kept hk
  try clear_value z0
  exact kept_foldl (fun _ _ h11 => dispatchEngine_kept h11) (kept_if h1 (kept_foldl (fun _ _ h10 => dispatchSlice_kept h10) h1))
theorem endOfChain_kept {x0 x1} {S2 : State} (hk : Kept q S2) : Kept q (endOfChain x0 x1 S2) := by
  unfold endOfChain
  split
  · exact hk
  · exact kept_if (completeWrite_kept hk) (kept_if (completeWrite_kept hk) (State_modCmd_kept hk))
theorem loadSegment_kept {x0 x1 x2 x3} {S4 : State} (hk : Kept q S4) : Kept q (loadSegment x0 x1 x2 x3 S4) := by
  unfold loadSegment
  split
  · exact hk
  · try extract_lets -merge -underBinder +onlyGivenNames z0
    try clear_value z0
    split
    · exact completeWrite_kept hk
    · exact State_modCmd_kept hk
theorem entryDone_kept {x0 x1 x2} {S3 : State} (hk : Kept q S3) : Kept q (entryDone x0 x1 x2 S3) := by
  unfold entryDone
  split
  · exact hk
  · extract_lets -merge -underBinder +onlyGivenNames z0
    have h1 : Kept q z0 := State_modCmd_kept hk
    try clear_value z0
    exact kept_if (endOfChain_kept (dispatch_kept (State_modInst_kept h1))) (dispatch_kept (State_modInst_kept h1))
theorem exhaust_kept {x0 x1 x2 x3} {S4 : State} (hk : Kept q S4) : Kept q (exhaust x0 x1 x2 x3 S4) := by
  unfold exhaust
  split
  · exact dispatch_kept (completeWrite_kept (State_modInst_kept (State_modStream_kept hk)))
  · exact hk
theorem drainEntry_kept {x0 x1 x2 x3} {S4 : State} (hk : Kept q S4) : Kept q (drainEntry x0 x1 x2 x3 S4) := by
  unfold drainEntry
  split
  · have h0 := snd_elim ‹_ = _› (q := q) (drainStream_kept hk)
    exact entryDone_kept h0
  · have h1 := snd_elim ‹_ = _› (q := q) (drainStream_kept hk)
    exact dispatch_kept h1
  · have h2 := snd_elim ‹_ = _› (q := q) (drainStream_kept hk)
    exact exhaust_kept h2
theorem takeEntry_kept {x0 x1 x2 x3} {S4 : State} (hk : Kept q S4) : Kept q (takeEntry x0 x1 x2 x3 S4) := by
  unfold takeEntry
  split
  · refine kept_if (drainEntry_kept hk) ?_
    split
    · exact completeWrite_kept hk
    · exact drainEntry_kept (frameEntry_kept (State_modCmd_kept hk))
  · exact hk
theorem hostBurst_kept {x0 x1 x2} {S3 : State} (hk : Kept q S3) : Kept q (hostBurst x0 x1 x2 S3) := by
  unfold hostBurst
  split
  · exact hk
  · split
    · exact endOfChain_kept hk
    · exact kept_if (loadSegment_kept (State_modCmd_kept hk)) (kept_if (kept_if (endOfChain_kept (State_modCmd_kept hk)) (State_modCmd_kept hk)) (kept_if (State_modCmd_kept hk) (takeEntry_kept (State_modCmd_kept hk))))
theorem hostBursts_kept {x0 x1 x2 x3} {s : State} (hk : Kept q s) : Kept q (hostBursts x0 x1 x2 x3 s) := by
  induction x3 generalizing s with
  | zero => exact hk
  | succ n ih =>
    unfold hostBursts
    split
    · exact kept_if (ih (hostBurst_kept hk)) (hk)
    · exact hk
theorem retryStaged_kept {x0} {S1 : State} (hk : Kept q S1) : Kept q (retryStaged x0 S1) := by
  refine kept_if hk ?_
  refine kept_foldl (fun _ _ h0 => ?_) hk
  split
  · exact kept_if (takeEntry_kept h0) h0
  · exact h0
theorem checkSessionEnd_kept {S0 : State} (hk : Kept q S0) : Kept q (checkSessionEnd S0) := by
  unfold checkSessionEnd
  split
  · exact hk
  · exact kept_if hk (kept_mk hk id)
theorem addItem_kept {x0 x1} {S2 : State} (hk : Kept q S2) : Kept q (addItem x0 x1 S2) :=
  State_modStream_kept hk
theorem discardBlocks_kept {x0} {S1 : State} (hk : Kept q S1) : Kept q (discardBlocks x0 S1) := kept_mk hk id
theorem dropRBlks_kept {x0 x1} {S2 : State} (hk : Kept q S2) : Kept q (dropRBlks x0 x1 S2) := kept_mk hk id
theorem endStream_kept {S0 : State} {x1} (hk : Kept q S0) : Kept q (endStream S0 x1) :=
  checkSessionEnd_kept (kept_if (State_modStream_kept hk) (dropRBlks_kept (State_modStream_kept hk)))
theorem endStreams_kept {x0} {S1 : State} (hk : Kept q S1) : Kept q (endStreams x0 S1) :=
  sweepStreams_kept (kept_foldl (fun _ _ h0 => endStream_kept h0) hk)

/-! ### Layout -/

theorem startSession_kept {x0} {S1 : State} (hk : Kept q S1) : Kept q (startSession x0 S1) := kept_mk hk id
theorem setTapeCounts_kept {x0 x1 x2 x3} {S4 : State} (hk : Kept q S4) : Kept q (setTapeCounts x0 x1 x2 x3 S4) :=
  kept_mk hk id

/-! ### RingLink -/

theorem State_modPort_kept {S0 : State} {x1 x2} (hk : Kept q S0) : Kept q (State.modPort S0 x1 x2) :=
  kept_mk hk id
theorem pumpFrame_kept {x0} {S1 : State} (hk : Kept q S1) : Kept q (pumpFrame x0 S1) := by
  unfold pumpFrame
  try extract_lets -merge -underBinder +onlyGivenNames z0
  try clear_value z0
  refine kept_if hk ?_
  split
  · exact hk
  · exact State_modPort_kept hk
theorem pumpPort_kept {x0} {S1 : State} (hk : Kept q S1) : Kept q (pumpPort x0 S1) :=
  kept_foldl (fun _ _ h0 => pumpFrame_kept h0) hk
theorem enqueueFrame_kept {x0 x1} {S2 : State} (hk : Kept q S2) : Kept q (enqueueFrame x0 x1 S2) :=
  kept_if (pumpPort_kept (State_modPort_kept hk)) hk
theorem emitFrame_kept {x0 x1} {S2 : State} (hk : Kept q S2) : Kept q (emitFrame x0 x1 S2) :=
  kept_if (State_modPort_kept hk) hk
theorem sendAgain_kept {x0 x1} {S2 : State} (hk : Kept q S2) : Kept q (sendAgain x0 x1 S2) :=
  kept_if hk (State_modPort_kept hk)
theorem resendFrom_kept {x0 x1} {S2 : State} (hk : Kept q S2) : Kept q (resendFrom x0 x1 S2) :=
  kept_if (sendAgain_kept (State_modPort_kept hk)) hk
theorem sendTo_kept {x0 x1} {S2 : State} (hk : Kept q S2) : Kept q (sendTo x0 x1 S2) := by
  unfold sendTo
  split
  · exact enqueueFrame_kept hk
  · exact hk
theorem sendAll_kept {x0} {S1 : State} (hk : Kept q S1) : Kept q (sendAll x0 S1) :=
  kept_if (enqueueFrame_kept hk) (enqueueFrame_kept (enqueueFrame_kept hk))
theorem tellPos_kept {x0 x1 x2 x3} {S4 : State} (hk : Kept q S4) : Kept q (tellPos x0 x1 x2 x3 S4) := by
  unfold tellPos
  split
  · exact sendTo_kept hk
  · exact hk
theorem tellAll_kept {x0 x1 x2} {S3 : State} (hk : Kept q S3) : Kept q (tellAll x0 x1 x2 S3) :=
  sendAll_kept hk
theorem sendPayload_kept {x0} {S1 : State} (hk : Kept q S1) : Kept q (sendPayload x0 S1) :=
  kept_foldl (fun _ _ h2 => kept_foldl (fun _ _ h3 => enqueueFrame_kept h3) h2) hk
theorem stripeDs_kept {x0} {S1 : State} (hk : Kept q S1) : Kept q (stripeDs x0 S1) := by
  unfold stripeDs
  extract_lets -merge g k st p x d h _ _ a _ b
  have ha : Kept q a := kept_mk hk id
  clear_value a
  have hb : Kept q b := kept_if (kept_mk ha id) ha
  clear_value b
  exact sendPayload_kept hb
theorem padStripe_kept {x0 x1} {S2 : State} (hk : Kept q S2) : Kept q (padStripe x0 x1 S2) :=
  kept_if hk (kept_foldl (fun _ _ h0 => kept_if h0 (stripeDs_kept (kept_mk h0 id))) hk)
theorem joinQueue_kept {x0} {S1 : State} (hk : Kept q S1) : Kept q (joinQueue x0 S1) :=
  kept_if (stripeDs_kept hk) (kept_mk hk id)
theorem joinStripe_kept {S0 : State} (hk : Kept q S0) : Kept q (joinStripe S0) := by
  unfold joinStripe
  split
  · exact hk
  · exact kept_mk (kept_if hk (startSession_kept hk)) id
theorem endStripes_kept {S0 : State} (hk : Kept q S0) : Kept q (endStripes S0) := by
  unfold endStripes
  split
  · exact hk
  · exact kept_if hk (kept_mk (kept_if hk (startSession_kept hk)) id)
theorem settleStripes_kept {S0 : State} (hk : Kept q S0) : Kept q (settleStripes S0) :=
  kept_if hk (endStripes_kept (kept_foldl (fun _ _ h4 => joinStripe_kept h4) (kept_foldl (fun _ _ h3 => tellPos_kept (kept_mk h3 id)) hk)))
theorem settleXoff_kept {S0 : State} (hk : Kept q S0) : Kept q (settleXoff S0) :=
  kept_if hk (tellPos_kept (kept_mk hk id))

/-! ### Assemble -/

theorem closeDs_kept {x0} {S1 : State} (hk : Kept q S1) : Kept q (closeDs x0 S1) := by
  unfold closeDs
  split
  · exact hk
  · exact joinQueue_kept (kept_mk hk id)
theorem modDs_kept {x0 x1} {S2 : State} (hk : Kept q S2) : Kept q (modDs x0 x1 S2) := kept_mk hk id
theorem noteWaits_kept {S0 : State} (hk : Kept q S0) : Kept q (noteWaits S0) :=
  kept_foldl (fun _ _ h0 => kept_if (kept_if h0 (kept_mk (State_modStream_kept h0) id)) (State_modStream_kept h0)) hk
theorem popItem_kept {x0} {S1 : State} (hk : Kept q S1) : Kept q (popItem x0 S1) := State_modStream_kept hk
theorem pumpOne_kept {x0} {S1 : State} (hk : Kept q S1) : Kept q (pumpOne x0 S1) := by
  unfold pumpOne
  split
  · exact hk
  · split
    · exact kept_if (popItem_kept (State_modStream_kept (modDs_kept hk))) (closeDs_kept hk)
    · exact popItem_kept (padStripe_kept (closeDs_kept hk))
    · exact popItem_kept (padStripe_kept hk)
    · exact hk
theorem pump_kept {x0} {S1 : State} (hk : Kept q S1) : Kept q (pump x0 S1) := by
  unfold pump
  split
  · exact hk
  · exact noteWaits_kept (kept_foldl (fun _ _ h0 => pumpOne_kept h0) hk)
theorem freshStripes_kept {x0 x1} {S2 : State} (hk : Kept q S2) : Kept q (freshStripes x0 x1 S2) :=
  kept_mk hk id
theorem openDs_kept {x0 x1} {S2 : State} (hk : Kept q S2) : Kept q (openDs x0 x1 S2) := by
  unfold openDs
  split
  · exact releaseHandle_kept hk
  · exact pump_kept (kept_mk (freshStripes_kept hk) id)
theorem blkSealed_kept {x0 x1 x2} {S3 : State} (hk : Kept q S3) : Kept q (blkSealed x0 x1 x2 S3) := by
  unfold blkSealed
  split
  · exact releaseHandle_kept hk
  · exact pump_kept (State_modInst_kept (State_modCmd_kept (State_modBlk_kept (onBehalf_kept (fun _ h7 => panHandoff_kept h7) (kept_mk (freshStripes_kept hk) id)))))
theorem takeUp_kept {S0 : State} {x1} (hk : Kept q S0) : Kept q (takeUp S0 x1) := by
  unfold takeUp
  extract_lets -merge -underBinder +onlyGivenNames _ z0
  have h1 : Kept q z0 := kept_mk hk id
  try clear_value z0
  refine kept_if ?_ ?_
  · split
    · exact openDs_kept h1
    · exact hk
  · refine kept_if ?_ ?_
    · refine kept_if ?_ hk
      try extract_lets -merge -underBinder +onlyGivenNames z11
      try clear_value z11
      extract_lets -merge -underBinder +onlyGivenNames z12
      have h13 : Kept q z12 := onBehalf_kept (fun _ h15 => panHandoff_kept h15) (freshStripes_kept h1)
      try clear_value z12
      exact settleStripes_kept (kept_mk h13 id)
    · refine kept_if (kept_if (kept_mk (freshStripes_kept h1) id) (releaseHandle_kept h1)) ?_
      split
      · exact blkSealed_kept (kept_mk h1 id)
      · exact hk
theorem settleGrants_kept {S0 : State} (hk : Kept q S0) : Kept q (settleGrants S0) :=
  dispatch_kept (kept_foldl (fun _ _ h0 => takeUp_kept h0) hk)
theorem giveBack_kept {x0} {S1 : State} (hk : Kept q S1) : Kept q (giveBack x0 S1) := by
  unfold giveBack
  split
  · exact settleGrants_kept (releaseHandle_kept hk)
  · exact hk
theorem settleReadBufs_kept {S0 : State} (hk : Kept q S0) : Kept q (settleReadBufs S0) := by
  unfold settleReadBufs
  try extract_lets -merge -underBinder +onlyGivenNames z0
  try clear_value z0
  extract_lets -merge -underBinder +onlyGivenNames _ z1
  have h2 : Kept q z1 := kept_mk hk id
  try clear_value z1
  extract_lets -merge -underBinder +onlyGivenNames z10
  have h11 : Kept q z10 := by
    unfold z10
    refine kept_foldl (fun _ _ h13 => ?_) h2
    split
    · exact releaseHandle_kept h13
    · exact h13
  try clear_value z10
  exact settleGrants_kept (kept_if (onBehalf_kept (fun _ h16 => panAlloc_kept h16) h11) h11)
theorem dropReadBufs_kept {S0 : State} (hk : Kept q S0) : Kept q (dropReadBufs S0) :=
  kept_foldl (fun _ _ h3 => releaseHandle_kept h3) (dropWaiter_kept (kept_mk hk id))
theorem endAll_kept {x0} {S1 : State} (hk : Kept q S1) : Kept q (endAll x0 S1) :=
  sweepStreams_kept (kept_foldl (fun _ _ h1 => pump_kept h1) (endStreams_kept hk))

/-! ### HostCmds -/

theorem instCmd_kept {x0 x1 x2 x3} {S4 : State} (hx3 : ∀ y0 s, Kept q s → Kept q (x3 y0 s)) (hk : Kept q S4) : Kept q (instCmd x0 x1 x2 x3 S4) := by
  unfold instCmd
  split
  · exact hk
  · exact hx3 _ _ hk
theorem endSt_kept {x0 x1 x2} {S3 : State} (hk : Kept q S3) : Kept q (endSt x0 x1 x2 S3) :=
  completeSt_kept hk
theorem endOk_kept {x0 x1 x2 x3 x4} {S5 : State} (hk : Kept q S5) : Kept q (endOk x0 x1 x2 x3 x4 S5) :=
  complete_kept hk
theorem streamCmd_kept {x0 x1 x2 x3} {S4 : State} (hx3 : ∀ y0 s, Kept q s → Kept q (x3 y0 s)) (hk : Kept q S4) : Kept q (streamCmd x0 x1 x2 x3 S4) := by
  unfold streamCmd
  split
  · exact endSt_kept hk
  · split
    · exact endSt_kept hk
    · exact kept_if (hx3 _ _ hk) (endSt_kept hk)
theorem addStream_kept {x0} {S1 : State} (hk : Kept q S1) : Kept q (addStream x0 S1) := kept_mk hk id
theorem openStream_kept {x0 x1} {S2 : State} (hk : Kept q S2) : Kept q (openStream x0 x1 S2) := by
  unfold openStream
  try extract_lets -merge -underBinder +onlyGivenNames z0
  try clear_value z0
  split
  · exact endSt_kept hk
  · refine kept_if ?_ ?_
    · split
      · exact endSt_kept hk
      · exact endOk_kept (addStream_kept hk)
    · refine kept_if hk ?_
      split
      · exact endSt_kept hk
      · exact kept_if (endOk_kept (addStream_kept hk)) (endOk_kept (addStream_kept (kept_if (startSession_kept hk) hk)))
theorem execOpenStream_kept {x0 x1} {S2 : State} (hk : Kept q S2) : OutKept q (execOpenStream x0 x1 S2) :=
  next_kept (instCmd_kept (fun _ _ h0 => openStream_kept h0) hk)
theorem closeNow_kept {x0 x1 x2 x3} {S4 : State} (hk : Kept q S4) : Kept q (closeNow x0 x1 x2 x3 S4) :=
  endSt_kept (sweepStreams_kept (endStream_kept hk))
theorem closeStream_kept {x0 x1} {S2 : State} (hk : Kept q S2) : Kept q (closeStream x0 x1 S2) := by
  refine kept_if (endSt_kept hk) ?_
  split
  · exact endSt_kept hk
  · refine kept_if (closeNow_kept hk) ?_
    refine kept_if (endSt_kept hk) ?_
    refine kept_if (closeNow_kept hk) ?_
    split
    · have h0 := snd_elim ‹_ = _› (q := q) (closeEarly_kept hk)
      exact hk
    · have h1 := snd_elim ‹_ = _› (q := q) (closeEarly_kept hk)
      exact endSt_kept hk
    · have h2 := snd_elim ‹_ = _› (q := q) (closeEarly_kept hk)
      split
      · exact h2
      · exact settleWaits_kept (dispatch_kept (pump_kept (endStream_kept (State_modCmd_kept h2))))
theorem execCloseStream_kept {x0 x1} {S2 : State} (hk : Kept q S2) : OutKept q (execCloseStream x0 x1 S2) :=
  next_kept (instCmd_kept (fun _ _ h0 => closeStream_kept h0) hk)
theorem sync_kept {x0 x1} {S2 : State} (hk : Kept q S2) : Kept q (sync x0 x1 S2) := by
  refine kept_if (endSt_kept hk) ?_
  refine kept_if (endSt_kept hk) ?_
  refine streamCmd_kept (fun _ _ h0 => ?_) hk
  split
  · have h1 := snd_elim ‹_ = _› (q := q) (closeEarly_kept h0)
    exact h0
  · have h2 := snd_elim ‹_ = _› (q := q) (closeEarly_kept h0)
    exact endSt_kept h0
  · have h3 := snd_elim ‹_ = _› (q := q) (closeEarly_kept h0)
    split
    · exact h3
    · exact settleWaits_kept (pump_kept (dispatch_kept (State_modCmd_kept (addItem_kept h3))))
theorem execSync_kept {x0 x1} {S2 : State} (hk : Kept q S2) : OutKept q (execSync x0 x1 S2) :=
  next_kept (instCmd_kept (fun _ _ h0 => sync_kept h0) hk)
theorem writeMark_kept {x0 x1} {S2 : State} (hk : Kept q S2) : Kept q (writeMark x0 x1 S2) := by
  unfold writeMark
  try extract_lets -merge -underBinder +onlyGivenNames z0
  try clear_value z0
  refine kept_if (endSt_kept hk) ?_
  refine kept_if (endSt_kept hk) ?_
  refine streamCmd_kept (fun _ _ h1 => ?_) hk
  split
  · have h2 := snd_elim ‹_ = _› (q := q) (closeEarly_kept h1)
    exact h1
  · have h3 := snd_elim ‹_ = _› (q := q) (closeEarly_kept h1)
    exact endSt_kept h1
  · have h4 := snd_elim ‹_ = _› (q := q) (closeEarly_kept h1)
    split
    · exact h4
    · exact settleWaits_kept (pump_kept (dispatch_kept (State_modCmd_kept (State_modInst_kept (State_modStream_kept (kept_foldl (fun _ _ h7 => addItem_kept h7) h4))))))
theorem execWriteMark_kept {x0 x1} {S2 : State} (hk : Kept q S2) : OutKept q (execWriteMark x0 x1 S2) :=
  next_kept (instCmd_kept (fun _ _ h0 => writeMark_kept h0) hk)
theorem startWrite_kept {x0 x1 x2} {S3 : State} (hk : Kept q S3) : Kept q (startWrite x0 x1 x2 S3) := by
  unfold startWrite
  try extract_lets -merge -underBinder +onlyGivenNames z0
  try clear_value z0
  split
  · exact endSt_kept hk
  · exact kept_if (endSt_kept hk) (streamCmd_kept (fun _ _ h1 => hostBursts_kept (loadSegment_kept (State_modCmd_kept h1))) hk)
theorem execWriteRecords_kept {x0 x1 x2} {S3 : State} (hk : Kept q S3) : OutKept q (execWriteRecords x0 x1 x2 S3) :=
  next_kept (instCmd_kept (fun _ _ h0 => startWrite_kept h0) hk)
theorem execStreamAppend_kept {x0 x1 x2} {S3 : State} (hk : Kept q S3) : OutKept q (execStreamAppend x0 x1 x2 S3) :=
  next_kept (instCmd_kept (fun _ _ h0 => startWrite_kept h0) hk)
theorem readPosition_kept {x0 x1} {S2 : State} (hk : Kept q S2) : Kept q (readPosition x0 x1 S2) :=
  kept_if (endSt_kept hk) (streamCmd_kept (fun _ _ h0 => kept_if (endOk_kept h0) (endOk_kept h0)) hk)
theorem execReadPosition_kept {x0 x1} {S2 : State} (hk : Kept q S2) : OutKept q (execReadPosition x0 x1 S2) :=
  next_kept (instCmd_kept (fun _ _ h0 => readPosition_kept h0) hk)
theorem rewindRead_kept {x0} {S1 : State} (hk : Kept q S1) : Kept q (rewindRead x0 S1) := by
  unfold rewindRead
  extract_lets -merge -underBinder +onlyGivenNames z0
  have h1 : Kept q z0 := State_modStream_kept hk
  try clear_value z0
  extract_lets -merge -underBinder +onlyGivenNames z6
  have h7 : Kept q z6 := dropRBlks_kept h1
  try clear_value z6
  split
  · exact h7
  · exact kept_foldl (fun _ _ h9 => kept_if (State_modCmd_kept h9) h9) h7
theorem discardUnopened_kept {x0 x1} {S2 : State} (hk : Kept q S2) : Kept q (discardUnopened x0 x1 S2) :=
  kept_foldl (fun _ _ h1 => rewindRead_kept h1) hk
theorem failRead_kept {x0 x1 x2 x3} {S4 : State} (hk : Kept q S4) : Kept q (failRead x0 x1 x2 x3 S4) := by
  unfold failRead
  extract_lets -merge -underBinder +onlyGivenNames z0
  have h1 : Kept q z0 := by
    unfold z0
    split
    · exact rewindRead_kept hk
    · exact hk
  try clear_value z0
  exact complete_kept h1
theorem revokeAppend_kept {x0 x1} {S2 : State} (hk : Kept q S2) : Kept q (revokeAppend x0 x1 S2) :=
  kept_foldl (fun _ _ h0 => cutStream_kept (failBegun_kept h0)) hk
theorem revokeReads_kept {x0 x1} {S2 : State} (hk : Kept q S2) : Kept q (revokeReads x0 x1 S2) := by
  refine kept_foldl (fun _ _ h0 => ?_) hk
  split
  · exact kept_if (failRead_kept h0) h0
  · exact h0
theorem revokeWaiters_kept {x0 x1} {S2 : State} (hk : Kept q S2) : Kept q (revokeWaiters x0 x1 S2) :=
  kept_foldl (fun _ _ h0 => complete_kept h0) hk
theorem eraseSlot_kept {x0 x1} {S2 : State} (hk : Kept q S2) : Kept q (eraseSlot x0 x1 S2) :=
  settleWaits_kept (dispatch_kept (revokeWaiters_kept (bumpGeneration_kept (State_modSlot_kept (wipeKeys_kept (discardUnopened_kept (discardBlocks_kept (revokeReads_kept (revokeAppend_kept hk)))))))))
theorem mergeRewrite_kept {x0 x1 x2} {S3 : State} (hk : Kept q S3) : Kept q (mergeRewrite x0 x1 x2 S3) :=
  State_modSlot_kept hk
theorem applyPending_kept {x0 x1} {S2 : State} (hk : Kept q S2) : Kept q (applyPending x0 x1 S2) := by
  unfold applyPending
  split
  · exact hk
  · exact dispatch_kept (retryStaged_kept (kept_foldl (fun _ _ h8 => complete_kept h8) (bumpGeneration_kept (kept_if (wipeKeys_kept (State_modSlot_kept hk)) (State_modSlot_kept hk)))))
theorem applyIfIdle_kept {x0 x1} {S2 : State} (hk : Kept q S2) : Kept q (applyIfIdle x0 x1 S2) :=
  kept_if (applyPending_kept hk) hk
theorem slotBind_kept {x0 x1} {S2 : State} (hk : Kept q S2) : Kept q (slotBind x0 x1 S2) := by
  unfold slotBind
  split
  · exact endSt_kept hk
  · try extract_lets -merge -underBinder +onlyGivenNames z0
    try clear_value z0
    try extract_lets -merge -underBinder +onlyGivenNames z1
    try clear_value z1
    split
    · exact endSt_kept hk
    · exact endOk_kept (eraseSlot_kept hk)
    · exact kept_if (endOk_kept hk) (applyIfIdle_kept (State_modCmd_kept (mergeRewrite_kept hk)))
theorem execSlotBind_kept {x0 x1} {S2 : State} (hk : Kept q S2) : OutKept q (execSlotBind x0 x1 S2) :=
  next_kept (instCmd_kept (fun _ _ h0 => slotBind_kept h0) hk)
theorem slotRekey_kept {x0 x1} {S2 : State} (hk : Kept q S2) : Kept q (slotRekey x0 x1 S2) := by
  refine kept_if (endSt_kept hk) ?_
  try extract_lets -merge -underBinder +onlyGivenNames z0
  try clear_value z0
  refine kept_if (endSt_kept hk) ?_
  refine kept_if (endSt_kept hk) ?_
  try extract_lets -merge -underBinder +onlyGivenNames z1
  try clear_value z1
  extract_lets -merge -underBinder +onlyGivenNames z2
  have h3 : Kept q z2 := setEpoch_kept hk
  try clear_value z2
  try extract_lets -merge -underBinder +onlyGivenNames z13
  try clear_value z13
  extract_lets -merge -underBinder +onlyGivenNames z14
  have h15 : Kept q z14 := kept_foldl (fun _ _ h19 => State_modStream_kept h19) h3
  try clear_value z14
  exact endOk_kept (kept_if (State_modSlot_kept h15) h15)
theorem execSlotRekey_kept {x0 x1} {S2 : State} (hk : Kept q S2) : OutKept q (execSlotRekey x0 x1 S2) :=
  next_kept (instCmd_kept (fun _ _ h0 => slotRekey_kept h0) hk)
theorem getStats_kept {x0 x1} {S2 : State} (hk : Kept q S2) : Kept q (getStats x0 x1 S2) :=
  kept_if (endSt_kept hk) (kept_if (endSt_kept hk) (endOk_kept (hostWrite_kept hk)))
theorem execGetStats_kept {x0 x1} {S2 : State} (hk : Kept q S2) : OutKept q (execGetStats x0 x1 S2) :=
  next_kept (instCmd_kept (fun _ _ h0 => getStats_kept h0) hk)
theorem nop_kept {x0 x1} {S2 : State} (hk : Kept q S2) : Kept q (nop x0 x1 S2) :=
  kept_if (endSt_kept hk) (endOk_kept hk)
theorem execNop_kept {x0 x1} {S2 : State} (hk : Kept q S2) : OutKept q (execNop x0 x1 S2) :=
  next_kept (instCmd_kept (fun _ _ h0 => nop_kept h0) hk)
theorem invalidOpcode_kept {x0 x1} {S2 : State} (hk : Kept q S2) : Kept q (invalidOpcode x0 x1 S2) := by
  unfold invalidOpcode
  split
  · split
    · exact kept_if (completeSt_kept hk) hk
    · exact hk
  · split
    · exact kept_if (endSt_kept hk) hk
    · exact hk
theorem execInvalidOpcode_kept {x0 x1} {S2 : State} (hk : Kept q S2) : OutKept q (execInvalidOpcode x0 x1 S2) :=
  next_kept (invalidOpcode_kept hk)
theorem execPendingCopyApply_kept {x0 x1} {S2 : State} (hk : Kept q S2) : OutKept q (execPendingCopyApply x0 x1 S2) :=
  next_kept (applyIfIdle_kept hk)

/-! ### Rings -/

theorem setHifErr_kept {x0 x1} {S2 : State} (hk : Kept q S2) : Kept q (setHifErr x0 x1 S2) := kept_mk hk id
theorem stopRing_kept {x0 x1} {S2 : State} (hk : Kept q S2) : Kept q (stopRing x0 x1 S2) := by
  unfold stopRing
  extract_lets -merge -underBinder +onlyGivenNames z0
  have h1 : Kept q z0 := setHifErr_kept (State_modRing_kept hk)
  try clear_value z0
  extract_lets -merge -underBinder +onlyGivenNames z4
  have h5 : Kept q z4 := raiseEv_kept h1
  try clear_value z4
  split
  · exact h5
  · split
    · exact setInstState_kept h5
    · exact setInstState_kept h5
    · exact setInstState_kept h5
    · exact h5
theorem badDoorbell_kept {x0 x1} {S2 : State} (hk : Kept q S2) : Kept q (badDoorbell x0 x1 S2) :=
  raiseEv_kept (setHifErr_kept (State_modRing_kept hk))
theorem pauseInst_kept {x0} {S1 : State} (hk : Kept q S1) : Kept q (pauseInst x0 S1) :=
  setInstState_kept (State_modRing_kept hk)
theorem runInst_kept {x0} {S1 : State} (hk : Kept q S1) : Kept q (runInst x0 S1) :=
  kept_if (pauseInst_kept hk) (setInstState_kept hk)
theorem refetchParked_kept {x0} {S1 : State} {x2} (hk : Kept q S1) : Kept q (refetchParked x0 S1 x2) :=
  kept_if hk (kept_if hk (loadSegment_kept (State_modCmd_kept hk)))
theorem hostStores_kept {x0} {S1 : State} (hk : Kept q S1) : Kept q (hostStores x0 S1) :=
  kept_foldl (fun _ _ h0 => hostWrite_kept h0) hk
theorem keepDoorbell_kept {x0 x1 x2} {S3 : State} (hk : Kept q S3) : Kept q (keepDoorbell x0 x1 x2 S3) :=
  kept_mk hk id
theorem sqDoorbell_kept {x0 x1} {S2 : State} (hk : Kept q S2) : Kept q (sqDoorbell x0 x1 S2) := by
  refine kept_if hk ?_
  try extract_lets -merge -underBinder +onlyGivenNames z0
  try clear_value z0
  refine kept_if (badDoorbell_kept hk) ?_
  extract_lets -merge -underBinder +onlyGivenNames z1
  have h2 : Kept q z1 := State_modRing_kept hk
  try clear_value z1
  split
  · exact h2
  · extract_lets -merge -underBinder +onlyGivenNames z7
    have h8 : Kept q z7 := kept_if (runInst_kept h2) h2
    try clear_value z7
    exact kept_if h8 (kept_foldl (fun _ _ h10 => refetchParked_kept h10) h8)
theorem execHifDbSqTail_kept {x0 x1 x2} {S3 : State} (hk : Kept q S3) : OutKept q (execHifDbSqTail x0 x1 x2 S3) :=
  next_kept (kept_if (keepDoorbell_kept (hostStores_kept hk)) (sqDoorbell_kept (hostStores_kept hk)))
theorem cqDoorbell_kept {x0 x1} {S2 : State} (hk : Kept q S2) : Kept q (cqDoorbell x0 x1 S2) :=
  kept_if hk (kept_if (badDoorbell_kept hk) (State_modRing_kept hk))
theorem execHifDbCqHead_kept {x0 x1} {S2 : State} (hk : Kept q S2) : OutKept q (execHifDbCqHead x0 x1 S2) :=
  next_kept (kept_if (keepDoorbell_kept hk) (cqDoorbell_kept hk))
theorem endParked_kept {x0 x1} {S2 : State} (hk : Kept q S2) : Kept q (endParked x0 x1 S2) := by
  unfold endParked
  split
  · exact hk
  · exact kept_foldl (fun _ _ h0 => kept_if (completeWrite_kept h0) h0) hk
theorem fetchDescriptor_kept {x0} {S1 : State} (hk : Kept q S1) : Kept q (fetchDescriptor x0 S1) :=
  kept_if hk (State_modRing_kept (endParked_kept (useAts_kept (kept_mk (State_modRing_kept hk) id))))
theorem execDescriptorFetch_kept {x0} {S1 : State} (hk : Kept q S1) : OutKept q (execDescriptorFetch x0 S1) :=
  next_kept (fetchDescriptor_kept hk)
theorem irqTimer_kept {x0} {S1 : State} (hk : Kept q S1) : Kept q (irqTimer x0 S1) :=
  kept_if hk (signalRing_kept hk)
theorem execIrqTimerExpiry_kept {x0} {S1 : State} (hk : Kept q S1) : OutKept q (execIrqTimerExpiry x0 S1) :=
  next_kept (irqTimer_kept hk)
theorem linkUp_kept {x0 x1} {S2 : State} (hk : Kept q S2) : Kept q (linkUp x0 x1 S2) :=
  flushMsix_kept (kept_mk hk id)
theorem execPcieLinkUp_kept {x0 x1} {S2 : State} (hk : Kept q S2) : OutKept q (execPcieLinkUp x0 x1 S2) :=
  next_kept (kept_if hk (linkUp_kept hk))
theorem unmask_kept {x0} {S1 : State} (hk : Kept q S1) : Kept q (unmask x0 S1) :=
  flushMsix_kept (kept_mk hk id)
theorem execMsixUnmask_kept {x0} {S1 : State} (hk : Kept q S1) : OutKept q (execMsixUnmask x0 S1) :=
  next_kept (unmask_kept hk)
theorem atsInvalidate_kept {x0 x1} {S2 : State} (hk : Kept q S2) : Kept q (atsInvalidate x0 x1 S2) :=
  kept_mk hk id
theorem execAtsInvalidation_kept {x0 x1} {S2 : State} (hk : Kept q S2) : OutKept q (execAtsInvalidation x0 x1 S2) :=
  next_kept (atsInvalidate_kept hk)
theorem mqStart_kept {S0 : State} (hk : Kept q S0) : Kept q (mqStart S0) := kept_if hk (kept_mk hk id)
theorem execMqEnable_kept {S0 : State} (hk : Kept q S0) : OutKept q (execMqEnable S0) :=
  next_kept (kept_if (mqStart_kept hk) hk)
theorem mqStop_kept {S0 : State} (hk : Kept q S0) : Kept q (mqStop S0) := kept_if hk (kept_mk hk id)
theorem execMqDisable_kept {S0 : State} (hk : Kept q S0) : OutKept q (execMqDisable S0) :=
  next_kept (kept_if (mqStop_kept hk) hk)
theorem evtStart_kept {S0 : State} (hk : Kept q S0) : Kept q (evtStart S0) := kept_if hk (kept_mk hk id)
theorem execEventRingEnable_kept {S0 : State} (hk : Kept q S0) : OutKept q (execEventRingEnable S0) :=
  next_kept (kept_if (evtStart_kept hk) hk)
theorem evtStop_kept {S0 : State} (hk : Kept q S0) : Kept q (evtStop S0) := kept_mk hk id
theorem execEventRingDisable_kept {S0 : State} (hk : Kept q S0) : OutKept q (execEventRingDisable S0) :=
  next_kept (kept_if (evtStop_kept hk) hk)
theorem evtHead_kept {x0} {S1 : State} (hk : Kept q S1) : Kept q (evtHead x0 S1) :=
  kept_if hk (kept_mk hk id)
theorem execEvtRingHeadWrite_kept {x0} {S1 : State} (hk : Kept q S1) : OutKept q (execEvtRingHeadWrite x0 S1) :=
  next_kept (kept_if (evtHead_kept hk) hk)
theorem evtSetLock_kept {S0 : State} (hk : Kept q S0) : Kept q (evtSetLock S0) := kept_mk hk id
theorem execEvtLock_kept {S0 : State} (hk : Kept q S0) : OutKept q (execEvtLock S0) :=
  next_kept (kept_if (evtSetLock_kept hk) hk)
theorem evtSignal_kept {S0 : State} (hk : Kept q S0) : Kept q (evtSignal S0) :=
  kept_if (fireMsix_kept (kept_mk hk id)) (kept_mk hk id)
theorem writeRecord_kept {S0 : State} (hk : Kept q S0) : Kept q (writeRecord S0) := by
  refine kept_if hk ?_
  split
  · exact hk
  · exact evtSignal_kept (kept_mk (hostWrite_kept hk) id)
theorem execEventRecordWrite_kept {S0 : State} (hk : Kept q S0) : OutKept q (execEventRecordWrite S0) :=
  next_kept (writeRecord_kept hk)
theorem evtTimer_kept {S0 : State} (hk : Kept q S0) : Kept q (evtTimer S0) :=
  kept_if (fireMsix_kept (kept_mk hk id)) hk
theorem execEventIrqTimer_kept {S0 : State} (hk : Kept q S0) : OutKept q (execEventIrqTimer S0) :=
  next_kept (evtTimer_kept hk)
theorem evtFault_kept {S0 : State} (hk : Kept q S0) : Kept q (evtFault S0) :=
  kept_if hk (raiseEv_kept (setHifErr_kept (kept_mk hk id)))
theorem leak_kept {x0} {S1 : State} (hk : Kept q S1) : Kept q (leak x0 S1) := kept_if hk (kept_mk hk id)
theorem execLeakPeriod_kept {x0} {S1 : State} (hk : Kept q S1) : OutKept q (execLeakPeriod x0 S1) :=
  next_kept (leak_kept hk)

/-! ### Manager -/

theorem mEnd_kept {x0 x1} {S2 : State} (hk : Kept q S2) : Kept q (mEnd x0 x1 S2) := completeSt_kept hk
theorem mOk_kept {x0 x1 x2 x3} {S4 : State} (hk : Kept q S4) : Kept q (mOk x0 x1 x2 x3 S4) :=
  complete_kept hk
theorem mgmtCmd_kept {x0 x1 x2} {S3 : State} (hx2 : ∀ y0 s, Kept q s → Kept q (x2 y0 s)) (hk : Kept q S3) : Kept q (mgmtCmd x0 x1 x2 S3) := by
  unfold mgmtCmd
  split
  · exact hk
  · exact kept_if (mEnd_kept hk) (hx2 _ _ hk)
theorem subCmd_kept {x0 x1 x2 x3 x4} {S5 : State} (hx4 : ∀ y0 s, Kept q s → Kept q (x4 y0 s)) (hk : Kept q S5) : Kept q (subCmd x0 x1 x2 x3 x4 S5) :=
  mgmtCmd_kept (fun _ _ h0 => kept_if (hx4 _ _ h0) (kept_if (mEnd_kept h0) h0)) hk
theorem withTarget_kept {x0 x1} {S2 : State} (hx1 : ∀ y0 s, Kept q s → Kept q (x1 y0 s)) (hk : Kept q S2) : Kept q (withTarget x0 x1 S2) :=
  kept_if (hx1 _ _ hk) (mEnd_kept hk)
theorem setQuota_kept {x0 x1} {S2 : State} (hk : Kept q S2) : Kept q (setQuota x0 x1 S2) :=
  settleGrants_kept (serveWaiting_kept (kept_mk hk id))
theorem applyCfg_kept {x0 x1} {S2 : State} (hk : Kept q S2) : Kept q (applyCfg x0 x1 S2) :=
  kept_mk (State_modInst_kept hk) id
theorem newEcdh_kept {x0} {S1 : State} (hk : Kept q S1) : Kept q (newEcdh x0 S1) :=
  drawn_kept (State_modInst_kept hk)
theorem instanceCreate_kept {x0} {S1 : State} (hk : Kept q S1) : Kept q (instanceCreate x0 S1) := by
  refine withTarget_kept (fun _ _ h0 => ?_) hk
  try extract_lets -merge -underBinder +onlyGivenNames z1
  try clear_value z1
  try extract_lets -merge -underBinder +onlyGivenNames z2
  try clear_value z2
  split
  · exact mEnd_kept h0
  · exact mOk_kept (setInstState_kept (newEcdh_kept (applyCfg_kept h0)))
theorem execInstanceCreate_kept {x0} {S1 : State} (hk : Kept q S1) : OutKept q (execInstanceCreate x0 S1) :=
  next_kept (mgmtCmd_kept (fun _ _ h0 => instanceCreate_kept h0) hk)
theorem putShare_kept {x0 x1} {S2 : State} (hk : Kept q S2) : Kept q (putShare x0 x1 S2) := by
  unfold putShare
  extract_lets -merge -underBinder +onlyGivenNames z0
  have h1 : Kept q z0 := State_modInst_kept hk
  try clear_value z0
  split
  · exact kept_if (pauseInst_kept h1) h1
  · exact kept_if h1 (setInstState_kept h1)
  · exact h1
theorem closeAll_kept {x0} {S1 : State} (hk : Kept q S1) : Kept q (closeAll x0 S1) :=
  kept_foldl (fun _ _ h0 => closeDs_kept h0) hk
theorem beginQuiesce_kept {x0} {S1 : State} (hk : Kept q S1) : Kept q (beginQuiesce x0 S1) :=
  dispatch_kept (closeAll_kept (kept_foldl (fun _ _ h8 => rewindRead_kept h8) (kept_foldl (fun _ _ h5 => snd_snd (closeEarly_kept h5)) (setInstState_kept (State_modInst_kept hk)))))
theorem endQuiesce_kept {x0} {S1 : State} (hk : Kept q S1) : Kept q (endQuiesce x0 S1) :=
  kept_foldl (fun _ _ h3 => kept_if (mOk_kept h3) h3) (State_modInst_kept hk)
theorem instanceQuiesce_kept {x0} {S1 : State} (hk : Kept q S1) : Kept q (instanceQuiesce x0 S1) := by
  refine withTarget_kept (fun _ _ h0 => ?_) hk
  refine kept_if (mEnd_kept h0) ?_
  split
  · exact mEnd_kept h0
  · exact mEnd_kept h0
  · exact mOk_kept h0
  · exact mOk_kept h0
  · exact State_modCmd_kept h0
  · exact beginQuiesce_kept (State_modCmd_kept h0)
theorem execInstanceQuiesce_kept {x0} {S1 : State} (hk : Kept q S1) : OutKept q (execInstanceQuiesce x0 S1) :=
  next_kept (mgmtCmd_kept (fun _ _ h0 => instanceQuiesce_kept h0) hk)
theorem quiesceComplete_kept {x0} {S1 : State} (hk : Kept q S1) : Kept q (quiesceComplete x0 S1) :=
  kept_if (setInstState_kept (endQuiesce_kept hk)) hk
theorem execQuiesceComplete_kept {x0} {S1 : State} (hk : Kept q S1) : OutKept q (execQuiesceComplete x0 S1) :=
  next_kept (quiesceComplete_kept hk)
theorem abortHeld_kept {x0 x1} {S2 : State} (hk : Kept q S2) : Kept q (abortHeld x0 x1 S2) :=
  kept_foldl (fun _ _ h0 => kept_if h0 (completeSt_kept h0)) hk
theorem eraseSlots_kept {x0} {S1 : State} (hk : Kept q S1) : Kept q (eraseSlots x0 S1) :=
  kept_foldl (fun _ _ h0 => eraseSlot_kept h0) hk
theorem instanceReset_kept {x0} {S1 : State} (hk : Kept q S1) : Kept q (instanceReset x0 S1) :=
  withTarget_kept (fun _ _ h0 => kept_if (mEnd_kept h0) (kept_if (mEnd_kept h0) (kept_if (mEnd_kept h0) (mOk_kept (setInstState_kept (State_modInst_kept (eraseSlots_kept (endAll_kept (abortHeld_kept h0))))))))) hk
theorem execInstanceReset_kept {x0} {S1 : State} (hk : Kept q S1) : OutKept q (execInstanceReset x0 S1) :=
  next_kept (mgmtCmd_kept (fun _ _ h0 => instanceReset_kept h0) hk)
theorem instanceDestroy_kept {x0} {S1 : State} (hk : Kept q S1) : Kept q (instanceDestroy x0 S1) :=
  withTarget_kept (fun _ _ h0 => kept_if (mEnd_kept h0) (kept_if (mEnd_kept h0) (kept_if (mEnd_kept h0) (mOk_kept (setInstState_kept (setQuota_kept (State_modInst_kept (eraseSlots_kept (endAll_kept (abortHeld_kept h0)))))))))) hk
theorem execInstanceDestroy_kept {x0} {S1 : State} (hk : Kept q S1) : OutKept q (execInstanceDestroy x0 S1) :=
  next_kept (mgmtCmd_kept (fun _ _ h0 => instanceDestroy_kept h0) hk)
theorem freezeCmds_kept {x0 x1} {S2 : State} (hk : Kept q S2) : Kept q (freezeCmds x0 x1 S2) :=
  kept_foldl (fun _ _ h0 => kept_if h0 (kept_if (complete_kept h0) (kept_if (complete_kept h0) (completeSt_kept h0)))) hk
theorem freezeInst_kept {x0} {S1 : State} (hk : Kept q S1) : Kept q (freezeInst x0 S1) :=
  settleWaits_kept (dispatch_kept (kept_foldl (fun _ _ h16 => applyPending_kept h16) (setInstState_kept (State_modInst_kept (wipeKeys_kept (endAll_kept (freezeCmds_kept (kept_foldl (fun _ _ h9 => rewindRead_kept h9) (discardBlocks_kept (kept_if (endQuiesce_kept hk) hk))))))))))
theorem instanceFreeze_kept {x0} {S1 : State} (hk : Kept q S1) : Kept q (instanceFreeze x0 S1) := by
  refine withTarget_kept (fun _ _ h0 => ?_) hk
  refine kept_if (mEnd_kept h0) ?_
  split
  · exact mEnd_kept h0
  · exact mEnd_kept h0
  · exact mEnd_kept h0
  · exact mOk_kept (freezeInst_kept h0)
theorem execInstanceFreeze_kept {x0} {S1 : State} (hk : Kept q S1) : OutKept q (execInstanceFreeze x0 S1) :=
  next_kept (mgmtCmd_kept (fun _ _ h0 => instanceFreeze_kept h0) hk)
theorem instanceSave_kept {x0} {S1 : State} (hk : Kept q S1) : Kept q (instanceSave x0 S1) :=
  withTarget_kept (fun _ _ h0 => kept_if (mEnd_kept h0) (kept_if (mEnd_kept h0) (kept_if (mEnd_kept h0) (kept_if (mEnd_kept h0) (mOk_kept (State_modInst_kept (kept_mk (hostWrite_kept (drawn_kept (keyWork_kept h0))) id))))))) hk
theorem execInstanceSave_kept {x0} {S1 : State} (hk : Kept q S1) : OutKept q (execInstanceSave x0 S1) :=
  next_kept (mgmtCmd_kept (fun _ _ h0 => instanceSave_kept h0) hk)
theorem restoreSlots_kept {x0 x1 x2} {S3 : State} (hk : Kept q S3) : Kept q (restoreSlots x0 x1 x2 S3) := by
  unfold restoreSlots
  extract_lets -merge -underBinder +onlyGivenNames z0
  have h1 : Kept q z0 := kept_foldl (fun _ _ h6 => storeSlot_kept (kept_mk (State_modSlot_kept h6) id)) hk
  try clear_value z0
  exact State_modInst_kept h1
theorem instanceRestore_kept {x0} {S1 : State} (hk : Kept q S1) : Kept q (instanceRestore x0 S1) := by
  refine withTarget_kept (fun _ _ h0 => ?_) hk
  try extract_lets -merge -underBinder +onlyGivenNames z1
  try clear_value z1
  refine kept_if (mEnd_kept h0) ?_
  refine kept_if (mEnd_kept h0) ?_
  refine kept_if (mEnd_kept h0) ?_
  try extract_lets -merge -underBinder +onlyGivenNames z2
  try clear_value z2
  try extract_lets -merge -underBinder +onlyGivenNames z3
  try clear_value z3
  try extract_lets -merge -underBinder +onlyGivenNames z4
  try clear_value z4
  refine kept_if (mEnd_kept h0) ?_
  try extract_lets -merge -underBinder +onlyGivenNames z5
  try clear_value z5
  try extract_lets -merge -underBinder +onlyGivenNames z6
  try clear_value z6
  try extract_lets -merge -underBinder +onlyGivenNames z7
  try clear_value z7
  refine kept_if (mEnd_kept h0) ?_
  try extract_lets -merge -underBinder +onlyGivenNames z8
  try clear_value z8
  extract_lets -merge -underBinder +onlyGivenNames z9
  have h10 : Kept q z9 := kept_if (keyWork_kept h0) h0
  try clear_value z9
  exact mOk_kept (setInstState_kept (newEcdh_kept (restoreSlots_kept (applyCfg_kept (kept_if (kept_mk h10 id) h10)))))
theorem execInstanceRestore_kept {x0} {S1 : State} (hk : Kept q S1) : OutKept q (execInstanceRestore x0 S1) :=
  next_kept (mgmtCmd_kept (fun _ _ h0 => instanceRestore_kept h0) hk)
theorem rootGetPub_kept {x0} {S1 : State} (hk : Kept q S1) : Kept q (rootGetPub x0 S1) := by
  refine withTarget_kept (fun _ _ h0 => ?_) hk
  refine kept_if (mEnd_kept h0) ?_
  refine kept_if (mEnd_kept h0) ?_
  split
  · exact kept_if (mEnd_kept h0) (mOk_kept (hostWrite_kept h0))
  · exact mEnd_kept h0
theorem execRootImportGetPub_kept {x0} {S1 : State} (hk : Kept q S1) : OutKept q (execRootImportGetPub x0 S1) :=
  next_kept (subCmd_kept (fun _ _ h0 => rootGetPub_kept h0) hk)
theorem putRoot_kept {x0 x1 x2 x3} {S4 : State} (hk : Kept q S4) : Kept q (putRoot x0 x1 x2 x3 S4) :=
  kept_if (mOk_kept (bumpGeneration_kept (State_modSlot_kept hk))) (applyIfIdle_kept (State_modCmd_kept (mergeRewrite_kept hk)))
theorem rootImport_kept {x0} {S1 : State} (hk : Kept q S1) : Kept q (rootImport x0 S1) := by
  refine withTarget_kept (fun _ _ h0 => ?_) hk
  refine kept_if (mEnd_kept h0) ?_
  refine kept_if (mEnd_kept h0) ?_
  split
  · exact mEnd_kept h0
  · refine kept_if (mEnd_kept h0) ?_
    extract_lets -merge -underBinder +onlyGivenNames z1
    have h2 : Kept q z1 := keyWork_kept h0
    try clear_value z1
    split
    · exact mEnd_kept (raiseEv_kept h2)
    · exact putRoot_kept h2
theorem execRootImportImport_kept {x0} {S1 : State} (hk : Kept q S1) : OutKept q (execRootImportImport x0 S1) :=
  next_kept (subCmd_kept (fun _ _ h0 => rootImport_kept h0) hk)
theorem rootErase_kept {x0} {S1 : State} (hk : Kept q S1) : Kept q (rootErase x0 S1) :=
  withTarget_kept (fun _ _ h0 => kept_if (mEnd_kept h0) (kept_if (mEnd_kept h0) (mOk_kept (eraseSlot_kept h0)))) hk
theorem execRootErase_kept {x0} {S1 : State} (hk : Kept q S1) : OutKept q (execRootErase x0 S1) :=
  next_kept (mgmtCmd_kept (fun _ _ h0 => rootErase_kept h0) hk)

/-! ### Buffer -/

theorem putData_kept {x0 x1} {S2 : State} (hk : Kept q S2) : Kept q (putData x0 x1 S2) :=
  setDamage_kept (kept_mk hk id)
theorem takeSpare_kept {x0 x1 x2 x3} {s : State} (hk : Kept q s) : Kept q (takeSpare x0 x1 x2 x3 s) := by
  induction x3 generalizing x2 s with
  | nil => cases x2 <;> exact kept_if hk (raiseEv_kept (kept_mk hk id))
  | cons i l ih =>
    cases x2 with
    | zero => exact raiseEv_kept (setDamage_kept (kept_mk hk id))
    | succ n => exact ih (kept_mk hk id)
theorem remapStripe_kept {x0 x1 x2} {S3 : State} (hk : Kept q S3) : Kept q (remapStripe x0 x1 x2 S3) := by
  unfold remapStripe
  try extract_lets -merge -underBinder +onlyGivenNames z0
  try clear_value z0
  extract_lets -merge -underBinder +onlyGivenNames z1
  have h2 : Kept q z1 := by
    unfold z1
    split
    · exact kept_mk hk id
    · exact hk
  try clear_value z1
  exact takeSpare_kept h2
theorem noteDecode_kept {x0 x1} {S2 : State} (hk : Kept q S2) : Kept q (noteDecode x0 x1 S2) := by
  unfold noteDecode
  split
  · exact hk
  · exact kept_if (raiseEv_kept hk) (kept_if hk (kept_mk hk id))
theorem writeBackLines_kept {x0 x1 x2 x3} {S4 : State} (hk : Kept q S4) : Kept q (writeBackLines x0 x1 x2 x3 S4) := by
  unfold writeBackLines
  split
  · exact setDamage_kept hk
  · try extract_lets -merge -underBinder +onlyGivenNames z0
    try clear_value z0
    try extract_lets -merge -underBinder +onlyGivenNames z1
    try clear_value z1
    extract_lets -merge -underBinder +onlyGivenNames z2
    have h3 : Kept q z2 := setDamage_kept (kept_if hk (putData_kept hk))
    try clear_value z2
    exact kept_if h3 (remapStripe_kept h3)
theorem strikeLines_kept {x0} {S1 : State} (hk : Kept q S1) : Kept q (strikeLines x0 S1) :=
  kept_foldl (fun _ _ h5 => strike_kept h5) (kept_foldl (fun _ _ h4 => kept_mk h4 id) hk)
theorem noteUnfilled_kept {x0 x1} {S2 : State} (hk : Kept q S2) : Kept q (noteUnfilled x0 x1 S2) :=
  kept_if (raiseEv_kept (kept_mk hk id)) (kept_mk hk id)
theorem bufAnswer_kept {x0} {S1 : State} (hk : Kept q S1) : Kept q (bufAnswer x0 S1) := kept_mk hk id
theorem visitStripe_kept {x0 x1 x2} {S3 : State} (hk : Kept q S3) : SndKept q (visitStripe x0 x1 x2 S3) :=
  snd_mk (strikeLines_kept (writeBackLines_kept (kept_if (noteUncorr_kept (noteDecode_kept hk)) (noteDecode_kept hk))))
theorem bufRead_kept {x0 x1 x2} {S3 : State} (hk : Kept q S3) : Kept q (bufRead x0 x1 x2 S3) :=
  kept_if (bufAnswer_kept hk) (kept_if (bufAnswer_kept (noteUnfilled_kept hk)) (bufAnswer_kept (snd_snd (visitStripe_kept hk))))
theorem bufWrite_kept {x0 x1 x2 x3 x4} {S5 : State} (hk : Kept q S5) : Kept q (bufWrite x0 x1 x2 x3 x4 S5) := by
  unfold bufWrite
  try extract_lets -merge -underBinder +onlyGivenNames z0
  try clear_value z0
  refine kept_if (bufAnswer_kept hk) ?_
  refine kept_if (bufAnswer_kept (noteUnfilled_kept hk)) ?_
  refine kept_if (bufAnswer_kept (putData_kept hk)) ?_
  try extract_lets -merge -underBinder +onlyGivenNames z1
  try clear_value z1
  try extract_lets -merge -underBinder +onlyGivenNames z2
  try clear_value z2
  extract_lets -merge -underBinder +onlyGivenNames z3
  have h4 : Kept q z3 := writeBackLines_kept (noteDecode_kept hk)
  try clear_value z3
  exact bufAnswer_kept (strikeLines_kept (putData_kept (kept_if (noteUncorr_kept h4) h4)))
theorem engineRead_kept {x0 x1} {S2 : State} (hk : Kept q S2) : SndKept q (engineRead x0 x1 S2) :=
  snd_mk (kept_foldl (fun _ _ h0 => snd_snd (visitStripe_kept h0)) hk)
theorem readBuffer_kept {x0 x1 x2} {s : State} (hk : Kept q s) : SndKept q (readBuffer x0 x1 x2 s) := by
  induction x0 generalizing x1 x2 s with
  | zero => exact hk
  | succ n ih =>
    unfold readBuffer
    refine snd_if (hk) (?_)
    dsimp only
    split
    · exact ih (bufRead_kept hk)
    · exact bufRead_kept hk
theorem writeBuffer_kept {x0 x1 x2} {s : State} (hk : Kept q s) : SndKept q (writeBuffer x0 x1 x2 s) := by
  induction x0 generalizing x1 x2 s with
  | zero => exact hk
  | succ n ih => exact snd_if (snd_mk hk) (snd_mk (snd_snd (ih (bufWrite_kept hk))))
theorem execBufferRead_kept {x0 x1 x2} {S3 : State} (hk : Kept q S3) : OutKept q (execBufferRead x0 x1 x2 S3) :=
  next_kept (bufRead_kept hk)
theorem execBufferWrite_kept {x0 x1 x2 x3} {S4 : State} (hk : Kept q S4) : OutKept q (execBufferWrite x0 x1 x2 x3 S4) :=
  next_kept (bufWrite_kept hk)
theorem rakeAt_kept {x0 x1 x2} {S3 : State} (hk : Kept q S3) : Kept q (rakeAt x0 x1 x2 S3) :=
  kept_if (snd_snd (visitStripe_kept hk)) (kept_mk (snd_snd (visitStripe_kept hk)) id)
theorem rakeVisit_kept {x0 x1} {S2 : State} (hk : Kept q S2) : Kept q (rakeVisit x0 x1 S2) := by
  refine kept_if hk ?_
  split
  · exact rakeAt_kept (kept_mk hk id)
  · split
    · exact hk
    · extract_lets -merge -underBinder +onlyGivenNames z0
      have h1 : Kept q z0 := rakeAt_kept hk
      try clear_value z0
      split <;> exact kept_mk h1 id
theorem execRakeVisit_kept {x0 x1} {S2 : State} (hk : Kept q S2) : OutKept q (execRakeVisit x0 x1 S2) :=
  next_kept (rakeVisit_kept hk)
theorem eventPoll_kept {x0 x1} {S2 : State} (hk : Kept q S2) : Kept q (eventPoll x0 x1 S2) :=
  kept_if hk (kept_mk hk id)
theorem execMemdevEventPoll_kept {x0 x1} {S2 : State} (hk : Kept q S2) : OutKept q (execMemdevEventPoll x0 x1 S2) :=
  next_kept (eventPoll_kept hk)
theorem fillChunk_kept {S0 : State} (hk : Kept q S0) : Kept q (fillChunk S0) :=
  kept_if hk (kept_if (settleGrants_kept (fillPans_kept (kept_mk hk id))) (kept_mk hk id))
theorem execFillChunkDone_kept {S0 : State} (hk : Kept q S0) : OutKept q (execFillChunkDone S0) :=
  next_kept (fillChunk_kept hk)
theorem fillFromZero_kept {S0 : State} (hk : Kept q S0) : Kept q (fillFromZero S0) :=
  raiseEv_kept (rebuildTable_kept (kept_mk (drawn_kept hk) id))
theorem bringupSettle_kept {S0 : State} (hk : Kept q S0) : Kept q (bringupSettle S0) :=
  kept_if hk (kept_if (settleGrants_kept (fillPans_kept (kept_mk hk id))) (fillFromZero_kept hk))
theorem fillRestart_kept {S0 : State} (hk : Kept q S0) : Kept q (fillRestart S0) :=
  kept_if (fillFromZero_kept hk) hk
theorem execFillRestart_kept {S0 : State} (hk : Kept q S0) : OutKept q (execFillRestart S0) :=
  next_kept (fillRestart_kept hk)
theorem perstRelease_kept {S0 : State} (hk : Kept q S0) : Kept q (perstRelease S0) :=
  kept_if hk (kept_mk hk id)
theorem execCxlPerstRelease_kept {S0 : State} (hk : Kept q S0) : OutKept q (execCxlPerstRelease S0) :=
  next_kept (perstRelease_kept hk)
theorem absentDev_kept {x0} {S1 : State} (hk : Kept q S1) : Kept q (absentDev x0 S1) :=
  bringupSettle_kept (loseDevice_kept hk)
theorem cxlLinkUp_kept {x0 x1 x2 x3 x4} {S5 : State} (hk : Kept q S5) : Kept q (cxlLinkUp x0 x1 x2 x3 x4 S5) :=
  kept_if hk (kept_if (absentDev_kept hk) (kept_if (raiseEv_kept (kept_mk hk id)) (kept_mk hk id)))
theorem execCxlLinkUp_kept {x0 x1 x2 x3 x4} {S5 : State} (hk : Kept q S5) : OutKept q (execCxlLinkUp x0 x1 x2 x3 x4 S5) :=
  next_kept (cxlLinkUp_kept hk)
theorem memoryActive_kept {x0 x1 x2 x3} {S4 : State} (hk : Kept q S4) : Kept q (memoryActive x0 x1 x2 x3 S4) :=
  kept_if hk (kept_if (absentDev_kept hk) (bringupSettle_kept (kept_mk hk id)))
theorem execMemoryActive_kept {x0 x1 x2 x3} {S4 : State} (hk : Kept q S4) : OutKept q (execMemoryActive x0 x1 x2 x3 S4) :=
  next_kept (memoryActive_kept hk)
theorem bringupTimeout_kept {x0} {S1 : State} (hk : Kept q S1) : Kept q (bringupTimeout x0 S1) :=
  kept_if hk (absentDev_kept hk)
theorem execBringupTimeout_kept {x0} {S1 : State} (hk : Kept q S1) : OutKept q (execBringupTimeout x0 S1) :=
  next_kept (bringupTimeout_kept hk)
theorem memdevLost_kept {x0 x1} {S2 : State} (hk : Kept q S2) : Kept q (memdevLost x0 x1 S2) :=
  kept_if hk (bringupSettle_kept (loseDevice_kept (kept_if (kept_mk hk id) hk)))
theorem execMemdevLost_kept {x0 x1} {S2 : State} (hk : Kept q S2) : OutKept q (execMemdevLost x0 x1 S2) :=
  next_kept (memdevLost_kept hk)
theorem cxlBringup_kept {S0 : State} (hk : Kept q S0) : Kept q (cxlBringup S0) :=
  kept_if hk (kept_if (judgePewter_kept (kept_mk hk id)) (bringupSettle_kept (kept_mk hk id)))
theorem bufferFillStatus_kept {x0} {S1 : State} (hk : Kept q S1) : Kept q (bufferFillStatus x0 S1) :=
  kept_if (mEnd_kept hk) (mOk_kept hk)
theorem execBufferFillStatus_kept {x0} {S1 : State} (hk : Kept q S1) : OutKept q (execBufferFillStatus x0 S1) :=
  next_kept (mgmtCmd_kept (fun _ _ h0 => bufferFillStatus_kept h0) hk)

/-! ### Loops -/

theorem State_modLoop_kept {S0 : State} {x1 x2} (hk : Kept q S0) : Kept q (State.modLoop S0 x1 x2) :=
  kept_mk hk id
theorem loopBoundary_kept {x0} {S1 : State} (hk : Kept q S1) : Kept q (loopBoundary x0 S1) := by
  unfold loopBoundary
  split
  · exact State_modLoop_kept (kept_mk hk id)
  · exact kept_if (State_modLoop_kept hk) hk
theorem runLoop_kept {x0 x1} {S2 : State} (hk : Kept q S2) : Kept q (runLoop x0 x1 S2) :=
  kept_if (State_modLoop_kept (loopBoundary_kept hk)) hk
theorem coefWrite_kept {x0 x1 x2 x3 x4} {S5 : State} (hk : Kept q S5) : Kept q (coefWrite x0 x1 x2 x3 x4 S5) := by
  unfold coefWrite
  try extract_lets -merge -underBinder +onlyGivenNames z0
  try clear_value z0
  try extract_lets -merge -underBinder +onlyGivenNames z1
  try clear_value z1
  extract_lets -merge -underBinder +onlyGivenNames z2
  have h3 : ∀ y4, Kept q y4 → Kept q (z2 y4) := by
    intro y4 hy
    exact State_modLoop_kept hy
  clear_value z2
  exact kept_if (h3 _ hk) (kept_if (kept_if (kept_mk hk id) (h3 _ hk)) (kept_if (kept_mk hk id) (kept_mk hk id)))
theorem execCoefWrite_kept {x0 x1 x2 x3 x4 x5} {S6 : State} (hk : Kept q S6) : OutKept q (execCoefWrite x0 x1 x2 x3 x4 x5 S6) :=
  next_kept (kept_if (coefWrite_kept hk) hk)
theorem bankSwap_kept {x0} {S1 : State} (hk : Kept q S1) : Kept q (bankSwap x0 S1) :=
  kept_if (State_modLoop_kept hk) (State_modLoop_kept hk)
theorem execCoefBankSwap_kept {x0 x1} {S2 : State} (hk : Kept q S2) : OutKept q (execCoefBankSwap x0 x1 S2) :=
  next_kept (kept_if (bankSwap_kept hk) hk)
theorem flushLoop_kept {x0} {S1 : State} (hk : Kept q S1) : Kept q (flushLoop x0 S1) := by
  unfold flushLoop
  try extract_lets -merge -underBinder +onlyGivenNames z0
  try clear_value z0
  extract_lets -merge -underBinder +onlyGivenNames z1
  have h2 : Kept q z1 := kept_foldl (fun _ _ h6 => State_modLoop_kept h6) hk
  try clear_value z1
  exact kept_if (State_modLoop_kept (kept_mk h2 id)) (kept_mk h2 id)
theorem startLoop_kept {x0} {S1 : State} (hk : Kept q S1) : Kept q (startLoop x0 S1) :=
  kept_if (kept_mk (State_modLoop_kept hk) id) (State_modLoop_kept hk)
theorem startSearch_kept {S0 : State} (hk : Kept q S0) : Kept q (startSearch S0) :=
  raiseEv_kept (kept_mk hk id)
theorem wakeLoops_kept {S0 : State} (hk : Kept q S0) : Kept q (wakeLoops S0) :=
  startSearch_kept (kept_mk hk id)
theorem setLoops_kept {x0} {S1 : State} (hk : Kept q S1) : Kept q (setLoops x0 S1) := by
  unfold setLoops
  extract_lets -merge -underBinder +onlyGivenNames z0
  have h1 : Kept q z0 := kept_if (wakeLoops_kept hk) hk
  try clear_value z0
  extract_lets -merge -underBinder +onlyGivenNames z10
  have h11 : Kept q z10 := kept_foldl (fun _ _ h15 => kept_if (startLoop_kept h15) (kept_if (State_modLoop_kept (flushLoop_kept h15)) h15)) h1
  try clear_value z10
  exact kept_if (kept_mk (kept_mk h11 id) id) (kept_mk h11 id)
theorem execLoopEnable_kept {x0 x1} {S2 : State} (hk : Kept q S2) : OutKept q (execLoopEnable x0 x1 S2) :=
  next_kept (kept_if (setLoops_kept hk) hk)
theorem startLoops_kept {S0 : State} (hk : Kept q S0) : Kept q (startLoops S0) :=
  kept_if hk (setLoops_kept hk)
theorem sendFrame_kept {S0 : State} (hk : Kept q S0) : Kept q (sendFrame S0) := kept_mk hk id
theorem brakeReels_kept {x0} {S1 : State} (hk : Kept q S1) : Kept q (brakeReels x0 S1) :=
  kept_mk (setLoops_kept (sendFrame_kept (kept_mk hk id))) id

/-! ### Signal -/

theorem State_modRch_kept {S0 : State} {x1 x2} (hk : Kept q S0) : Kept q (State.modRch S0 x1 x2) :=
  kept_mk hk id
theorem enterAcquisition_kept {x0 x1} {S2 : State} (hk : Kept q S2) : Kept q (enterAcquisition x0 x1 S2) :=
  kept_mk hk id
theorem reacquire_kept {S0 : State} (hk : Kept q S0) : Kept q (reacquire S0) := enterAcquisition_kept hk
theorem acquireAll_kept {S0 : State} (hk : Kept q S0) : Kept q (acquireAll S0) := enterAcquisition_kept hk
theorem dropJobs_kept {S0 : State} (hk : Kept q S0) : Kept q (dropJobs S0) := kept_mk hk id

/-! ### Reads -/

theorem State_modRBlk_kept {S0 : State} {x1 x2} (hk : Kept q S0) : Kept q (State.modRBlk S0 x1 x2) :=
  kept_mk hk id
theorem dispatchOpen_kept {S0 : State} (hk : Kept q S0) : Kept q (dispatchOpen S0) := by
  unfold dispatchOpen
  split
  · exact hk
  · split
    · exact hk
    · exact kept_mk (State_modRBlk_kept hk) id
theorem freeSlice_kept {x0} {S1 : State} (hk : Kept q S1) : Kept q (freeSlice x0 S1) := kept_mk hk id
theorem freeEngine_kept {x0} {S1 : State} (hk : Kept q S1) : Kept q (freeEngine x0 S1) := kept_mk hk id
theorem drainRelease_kept {x0} {S1 : State} (hk : Kept q S1) : Kept q (drainRelease x0 S1) := by
  unfold drainRelease
  split
  · exact freeEngine_kept hk
  · exact hk
theorem dispatchDecode_kept {S0 : State} (hk : Kept q S0) : Kept q (dispatchDecode S0) := by
  unfold dispatchDecode
  split
  · exact hk
  · split
    · exact hk
    · split
      · exact hk
      · exact kept_mk (State_modRBlk_kept (drainRelease_kept hk)) id
theorem missSecondRead_kept {S0 : State} (hk : Kept q S0) : Kept q (missSecondRead S0) :=
  kept_mk (kept_foldl (fun _ _ h4 => drainRelease_kept h4) hk) id
theorem dispatchRead_kept {S0 : State} (hk : Kept q S0) : Kept q (dispatchRead S0) := by
  unfold dispatchRead
  extract_lets -merge -underBinder +onlyGivenNames z0
  have h1 : Kept q z0 := kept_foldl (fun _ _ h9 => dispatchOpen_kept h9) (missSecondRead_kept hk)
  try clear_value z0
  exact kept_foldl (fun _ _ h13 => dispatchOpen_kept h13) (kept_if h1 (kept_foldl (fun _ _ h12 => dispatchDecode_kept h12) h1))
theorem queueSlice_kept {x0 x1} {S2 : State} (hk : Kept q S2) : Kept q (queueSlice x0 x1 S2) :=
  kept_mk (State_modRBlk_kept hk) id
theorem stopAt_kept {x0 x1 x2} {S3 : State} (hk : Kept q S3) : Kept q (stopAt x0 x1 x2 S3) :=
  kept_mk (State_modRBlk_kept (dropRBlks_kept hk)) id
theorem failDecode_kept {x0 x1 x2} {S3 : State} (hk : Kept q S3) : Kept q (failDecode x0 x1 x2 S3) := by
  unfold failDecode
  split
  · exact hk
  · try extract_lets -merge -underBinder +onlyGivenNames z0
    try clear_value z0
    extract_lets -merge -underBinder +onlyGivenNames z1
    have h2 : Kept q z1 := raiseResend_kept hk
    try clear_value z1
    extract_lets -merge -underBinder +onlyGivenNames _ z25
    have h26 : Kept q z25 := kept_mk h2 id
    try clear_value z25
    try extract_lets -merge -underBinder +onlyGivenNames z37
    try clear_value z37
    extract_lets -merge -underBinder +onlyGivenNames z38
    have h39 : ∀ y40, Kept q y40 → Kept q (z38 y40) := by
      intro y40 hy
      exact kept_if (freeSlice_kept hy) hy
    clear_value z38
    extract_lets -merge -underBinder +onlyGivenNames z41
    have h42 : Kept q z41 := by
      unfold z41
      split
      · exact kept_if (kept_mk (State_modRBlk_kept h26) id) (queueSlice_kept (State_modRBlk_kept h26))
      · exact queueSlice_kept (h39 _ (State_modRBlk_kept h26))
      · exact kept_if (h39 _ (stopAt_kept h26)) (h39 _ (State_modRBlk_kept h26))
      · exact h39 _ (stopAt_kept h26)
    try clear_value z41
    exact dispatchRead_kept (strike_kept h42)
theorem modRd_kept {x0 x1} {S2 : State} (hk : Kept q S2) : Kept q (modRd x0 x1 S2) :=
  State_modStream_kept hk
theorem pushItem_kept {x0 x1} {S2 : State} (hk : Kept q S2) : Kept q (pushItem x0 x1 S2) := modRd_kept hk
theorem removeRBlk_kept {x0} {S1 : State} (hk : Kept q S1) : Kept q (removeRBlk x0 S1) := kept_mk hk id
theorem decodeAgain_kept {x0} {S1 : State} (hk : Kept q S1) : Kept q (decodeAgain x0 S1) :=
  kept_foldl (fun _ _ h0 => queueSlice_kept (State_modRBlk_kept h0)) hk
theorem recordBad_kept {x0 x1 x2} {S3 : State} (hk : Kept q S3) : Kept q (recordBad x0 x1 x2 S3) :=
  kept_if (dropRBlks_kept (pushItem_kept hk)) (dispatchRead_kept (decodeAgain_kept (modRd_kept (strike_kept (raiseResend_kept hk)))))
theorem settleParsed_kept {x0 x1 x2} {S3 : State} (hk : Kept q S3) : Kept q (settleParsed x0 x1 x2 S3) :=
  kept_if (State_modRBlk_kept (dropRBlks_kept hk)) (removeRBlk_kept (dropRBlks_kept hk))
theorem takeBlock_kept {x0 x1} {S2 : State} (hk : Kept q S2) : Kept q (takeBlock x0 x1 S2) := by
  unfold takeBlock
  try extract_lets -merge -underBinder +onlyGivenNames z0
  try clear_value z0
  try extract_lets -merge -underBinder +onlyGivenNames z1
  try clear_value z1
  try extract_lets -merge -underBinder +onlyGivenNames z2
  try clear_value z2
  refine kept_if (failDecode_kept hk) ?_
  try extract_lets -merge -underBinder +onlyGivenNames z3
  try clear_value z3
  try extract_lets -merge -underBinder +onlyGivenNames z4
  try clear_value z4
  extract_lets -merge -underBinder +onlyGivenNames _ z5
  have h6 : Kept q z5 := passAfter_kept (kept_mk hk id)
  try clear_value z5
  try extract_lets -merge -underBinder +onlyGivenNames z12
  try clear_value z12
  extract_lets -merge -underBinder +onlyGivenNames z13
  have h14 : Kept q z13 := kept_foldl (fun _ _ h16 => pushItem_kept h16) h6
  try clear_value z13
  split
  · exact recordBad_kept h14
  · exact modRd_kept (settleParsed_kept h14)
theorem drainHead_kept {x0} {S1 : State} (hk : Kept q S1) : Kept q (drainHead x0 S1) := by
  unfold drainHead
  split
  · refine kept_if hk ?_
    split
    · exact dropRBlks_kept (pushItem_kept hk)
    · exact kept_if (removeRBlk_kept (pushItem_kept hk)) (kept_if (removeRBlk_kept (modRd_kept hk)) (takeBlock_kept hk))
  · exact hk
theorem drainRead_kept {x0} {S1 : State} (hk : Kept q S1) : Kept q (drainRead x0 S1) :=
  kept_foldl (fun _ _ h0 => drainHead_kept h0) hk
theorem scatterTo_kept {x0 x1 x2} {s : State} (hk : Kept q s) : SndKept q (scatterTo x0 x1 x2 s) := by
  induction x1 generalizing x2 s with
  | nil => exact hk
  | cons p ps ih =>
    unfold scatterTo
    refine snd_if (hk) (snd_if (?_) (ih (hostWrite_kept hk)))
    exact hostWrite_kept hk
theorem recordSent_kept {x0 x1 x2 x3} {S4 : State} (hk : Kept q S4) : Kept q (recordSent x0 x1 x2 x3 S4) := by
  unfold recordSent
  split
  · exact hk
  · exact State_modInst_kept (State_modCmd_kept (hostWrite_kept hk))
theorem deliver_kept {x0 x1 x2} {S3 : State} (hk : Kept q S3) : ExcPKept q (deliver x0 x1 x2 S3) := by
  unfold deliver
  split
  · exact excP_ok (snd_mk hk)
  · try extract_lets -merge -underBinder +onlyGivenNames z0
    try clear_value z0
    try extract_lets -merge -underBinder +onlyGivenNames z1
    try clear_value z1
    try extract_lets -merge -underBinder +onlyGivenNames z2
    try clear_value z2
    split
    · exact excP_error
    · exact excP_error
    · extract_lets -merge -underBinder +onlyGivenNames z3
      have h4 : Kept q z3 := State_modCmd_kept hk
      try clear_value z3
      split
      · exact excP_ok (snd_mk (recordSent_kept h4))
      · exact excP_if (excP_ok (snd_mk (recordSent_kept (hostWrite_kept h4)))) (excP_ok (snd_mk (State_modCmd_kept (hostWrite_kept h4))))
theorem endRead_kept {x0 x1 x2 x3} {S4 : State} (hk : Kept q S4) : Kept q (endRead x0 x1 x2 x3 S4) := by
  unfold endRead
  split
  · exact hk
  · try extract_lets -merge -underBinder +onlyGivenNames z0
    try clear_value z0
    extract_lets -merge -underBinder +onlyGivenNames z1
    have h2 : Kept q z1 := by
      unfold z1
      split
      · exact modRd_kept hk
      · exact hk
    try clear_value z1
    exact complete_kept h2
theorem failRecord_kept {x0 x1 x2 x3} {S4 : State} (hk : Kept q S4) : Kept q (failRecord x0 x1 x2 x3 S4) :=
  failRead_kept (snd_snd (scatterTo_kept hk))
theorem settleRead_kept {x0} {S1 : State} {x2} (hk : Kept q S1) : Kept q (settleRead x0 S1 x2) := by
  refine kept_if hk ?_
  refine kept_if ?_ ?_
  · refine endRead_kept ?_
    split
    · exact kept_if (rewindRead_kept hk) hk
    · exact hk
  · split
    · exact hk
    · split
      · exact endRead_kept (modRd_kept hk)
      · exact endRead_kept hk
      · exact kept_if (endRead_kept (rewindRead_kept hk)) (kept_if (failRecord_kept hk) (failRead_kept hk))
      · exact hk
theorem settleReads_kept {x0} {S1 : State} (hk : Kept q S1) : Kept q (settleReads x0 S1) :=
  kept_if (kept_foldl (fun _ _ h0 => settleRead_kept h0) hk) hk
theorem settleAllReads_kept {S0 : State} (hk : Kept q S0) : Kept q (settleAllReads S0) :=
  kept_foldl (fun _ _ h0 => settleReads_kept h0) hk
theorem advanceEntry_kept {x0 x1 x2 x3} {S4 : State} (hk : Kept q S4) : Kept q (advanceEntry x0 x1 x2 x3 S4) :=
  kept_if (modRd_kept hk) (kept_mk (modRd_kept hk) id)
theorem addRBlk_kept {x0} {S1 : State} (hk : Kept q S1) : Kept q (addRBlk x0 S1) := kept_mk hk id
theorem extractPseudo_kept {x0} {S1 : State} (hk : Kept q S1) : Kept q (extractPseudo x0 S1) := by
  refine kept_if hk ?_
  split
  · exact addRBlk_kept hk
  · exact addRBlk_kept hk
  · exact kept_if (advanceEntry_kept (addRBlk_kept hk)) (kept_if (addRBlk_kept hk) hk)
  · exact hk
theorem pumpReads_kept {S0 : State} (hk : Kept q S0) : Kept q (pumpReads S0) := by
  unfold pumpReads
  extract_lets -merge -underBinder +onlyGivenNames z0
  have h1 : Kept q z0 := by
    unfold z0
    refine kept_foldl (fun _ _ h4 => ?_) hk
    refine kept_foldl (fun _ _ h5 => ?_) h4
    split
    · exact drainRead_kept (kept_if (extractPseudo_kept h5) h5)
    · exact h5
  try clear_value z0
  exact settleReadBufs_kept (settleAllReads_kept h1)
theorem extracting_kept {S0 : State} {x1} (hk : Kept q S0) : OptPKept q (extracting S0 x1) := by
  unfold extracting
  split
  · exact optP_some (snd_mk hk)
  · refine optP_if optP_none ?_
    split
    · exact optP_if optP_none (optP_some (snd_mk (modRd_kept (advanceEntry_kept (addRBlk_kept hk)))))
    · exact optP_none
theorem failExtract_kept {x0 x1} {S2 : State} (hk : Kept q S2) : Kept q (failExtract x0 x1 S2) := by
  unfold failExtract
  try extract_lets -merge -underBinder +onlyGivenNames z0
  try clear_value z0
  extract_lets -merge -underBinder +onlyGivenNames z1
  have h2 : Kept q z1 := strike_kept (raiseResend_kept hk)
  try clear_value z1
  split
  · exact State_modRBlk_kept h2
  · exact State_modRBlk_kept h2
  · exact State_modRBlk_kept h2
  · exact pumpReads_kept (stopAt_kept h2)
theorem State_modRdAt_kept {S0 : State} {x1 x2 x3} (hk : Kept q S0) : Kept q (State.modRdAt S0 x1 x2 x3) :=
  kept_mk hk id
theorem erasePoison_kept {x0} {S1 : State} (hk : Kept q S1) : Kept q (erasePoison x0 S1) := by
  unfold erasePoison
  split
  · exact hk
  · try extract_lets -merge -underBinder +onlyGivenNames z0
    try clear_value z0
    try extract_lets -merge -underBinder +onlyGivenNames z1
    try clear_value z1
    refine kept_if (snd_snd (engineRead_kept hk)) ?_
    extract_lets -merge -underBinder +onlyGivenNames z2
    have h3 : Kept q z2 := snd_snd (engineRead_kept hk)
    try clear_value z2
    exact State_modRdAt_kept (kept_if (kept_foldl (fun _ _ h14 => freshStripes_kept h14) h3) h3)
theorem extractBurst_kept {x0 x1 x2} {S3 : State} (hk : Kept q S3) : Kept q (extractBurst x0 x1 x2 S3) := by
  unfold extractBurst
  try extract_lets -merge -underBinder +onlyGivenNames z0
  try clear_value z0
  try extract_lets -merge -underBinder +onlyGivenNames z1
  try clear_value z1
  extract_lets -merge -underBinder +onlyGivenNames z2
  have h3 : Kept q z2 := moverMoved_kept hk
  try clear_value z2
  refine kept_if ?_ ?_
  · split
    · exact pumpReads_kept (erasePoison_kept (State_modRBlk_kept h3))
    · exact h3
  · refine kept_if (State_modRBlk_kept h3) ?_
    split
    · exact failExtract_kept h3
    · exact pumpReads_kept (dispatchRead_kept (passAfter_kept (State_modRBlk_kept h3)))
theorem extractBlock_kept {x0 x1 x2 x3} {S4 : State} (hk : Kept q S4) : Kept q (extractBlock x0 x1 x2 x3 S4) := by
  unfold extractBlock
  split
  · exact hk
  · refine kept_if hk ?_
    split
    · exact hk
    · have h0 := optP_elim ‹_ = _› (q := q) (extracting_kept hk)
      exact kept_if (extractBurst_kept (serveOldest_kept h0)) hk
theorem failOpen_kept {x0 x1 x2} {S3 : State} (hk : Kept q S3) : Kept q (failOpen x0 x1 x2 S3) := by
  unfold failOpen
  extract_lets -merge -underBinder +onlyGivenNames z0
  have h1 : Kept q z0 := kept_if (raiseResend_kept hk) (raiseEv_kept hk)
  try clear_value z0
  extract_lets -merge -underBinder +onlyGivenNames _ z16
  have h17 : Kept q z16 := kept_if h1 (kept_mk h1 id)
  try clear_value z16
  extract_lets -merge -underBinder +onlyGivenNames z24
  have h25 : Kept q z24 := by
    unfold z24
    split
    · exact kept_mk (State_modRBlk_kept h17) id
    · exact freeEngine_kept (State_modRBlk_kept h17)
    · exact freeEngine_kept (State_modRBlk_kept h17)
    · exact freeEngine_kept (stopAt_kept h17)
  try clear_value z24
  exact pumpReads_kept (dispatchRead_kept (drainRead_kept (strike_kept h25)))
theorem tagMismatch_kept {x0 x1} {S2 : State} (hk : Kept q S2) : Kept q (tagMismatch x0 x1 S2) := by
  unfold tagMismatch
  extract_lets -merge -underBinder +onlyGivenNames _ z0
  have h1 : Kept q z0 := freeEngine_kept (kept_mk hk id)
  try clear_value z0
  extract_lets -merge -underBinder +onlyGivenNames z4
  have h5 : Kept q z4 := by
    unfold z4
    split
    · exact State_modRBlk_kept h1
    · exact stopAt_kept (raiseEv_kept h1)
  try clear_value z4
  exact pumpReads_kept (dispatchRead_kept (drainRead_kept h5))
theorem opened_kept {x0 x1 x2} {S3 : State} (hk : Kept q S3) : Kept q (opened x0 x1 x2 S3) := by
  unfold opened
  extract_lets -merge -underBinder +onlyGivenNames z0
  have h1 : Kept q z0 := State_modRBlk_kept hk
  try clear_value z0
  extract_lets -merge -underBinder +onlyGivenNames z8
  have h9 : Kept q z8 := kept_if (freeEngine_kept (State_modRBlk_kept h1)) (queueSlice_kept h1)
  try clear_value z8
  extract_lets -merge -underBinder +onlyGivenNames z12
  have h13 : Kept q z12 := by
    unfold z12
    split
    · exact strike_kept h9
    · exact h9
  try clear_value z12
  exact pumpReads_kept (dispatchRead_kept (passAfter_kept h13))
theorem openSealed_kept {x0 x1 x2 x3 x4} {S5 : State} (hk : Kept q S5) : Kept q (openSealed x0 x1 x2 x3 x4 S5) := by
  refine kept_if (failOpen_kept hk) ?_
  try extract_lets -merge -underBinder +onlyGivenNames z0
  try clear_value z0
  extract_lets -merge -underBinder +onlyGivenNames z1
  have h2 : Kept q z1 := cacheKey_kept hk
  try clear_value z1
  split
  · exact tagMismatch_kept h2
  · exact tagMismatch_kept h2
  · exact failOpen_kept h2
  · exact opened_kept h2
theorem cipherOpen_kept {x0 x1} {S2 : State} (hk : Kept q S2) : Kept q (cipherOpen x0 x1 S2) := by
  unfold cipherOpen
  split
  · exact hk
  · split
    · exact hk
    · split
      · split
        · exact opened_kept hk
        · exact failOpen_kept hk
      · split
        · exact opened_kept hk
        · exact failOpen_kept hk
      · exact openSealed_kept hk
      · exact hk
theorem execCipherOpenDone_kept {x0 x1} {S2 : State} (hk : Kept q S2) : OutKept q (execCipherOpenDone x0 x1 S2) :=
  next_kept (cipherOpen_kept hk)
theorem decompressDone_kept {x0 x1} {S2 : State} (hk : Kept q S2) : Kept q (decompressDone x0 x1 S2) := by
  unfold decompressDone
  split
  · exact hk
  · split
    · exact pumpReads_kept (dispatchRead_kept (drainRead_kept (freeSlice_kept (State_modRBlk_kept hk))))
    · exact pumpReads_kept (drainRead_kept (failDecode_kept hk))
theorem execSliceDecompressDone_kept {x0 x1} {S2 : State} (hk : Kept q S2) : OutKept q (execSliceDecompressDone x0 x1 S2) :=
  next_kept (decompressDone_kept hk)
theorem failDeliver_kept {x0 x1 x2 x3} {S4 : State} (hk : Kept q S4) : Kept q (failDeliver x0 x1 x2 x3 S4) := by
  unfold failDeliver
  try extract_lets -merge -underBinder +onlyGivenNames z0
  try clear_value z0
  extract_lets -merge -underBinder +onlyGivenNames z1
  have h2 : Kept q z1 := strike_kept (raiseResend_kept hk)
  try clear_value z1
  split
  · exact State_modCmd_kept h2
  · exact State_modCmd_kept h2
  · exact State_modCmd_kept h2
  · exact failRecord_kept h2
theorem deliverNext_kept {x0 x1 x2 x3} {S4 : State} (hk : Kept q S4) : Kept q (deliverNext x0 x1 x2 x3 S4) := by
  unfold deliverNext
  split
  · exact hk
  · refine kept_if hk ?_
    split
    · exact hk
    · split
      · split
        · exact failDeliver_kept (serveOldest_kept hk)
        · split
          · exact failRecord_kept hk
          · have h0 := excP_elim ‹_ = _› (q := q) (deliver_kept (serveOldest_kept hk))
            extract_lets -merge -underBinder +onlyGivenNames z1
            have h2 : Kept q z1 := moverMoved_kept (passAfter_kept h0)
            try clear_value z1
            exact kept_if (pumpReads_kept (modRd_kept h2)) h2
      · exact hk
theorem beginMove_kept {x0 x1} {S2 : State} (hk : Kept q S2) : Kept q (beginMove x0 x1 S2) :=
  kept_mk (startLoops_kept (kept_if hk (setMode_kept hk))) id
theorem readAnew_kept {x0 x1} {S2 : State} (hk : Kept q S2) : Kept q (readAnew x0 x1 S2) :=
  kept_mk (dropJobs_kept (dropReadBufs_kept hk)) id
theorem needTape_kept {x0} {S1 : State} (hk : Kept q S1) : Kept q (needTape x0 S1) :=
  kept_if hk (beginMove_kept (readAnew_kept (dropRBlks_kept hk)))
theorem startJob_kept {x0 x1 x2} {S3 : State} (hk : Kept q S3) : ExcKept q (startJob x0 x1 x2 S3) := by
  unfold startJob
  try extract_lets -merge -underBinder +onlyGivenNames z0
  try clear_value z0
  split
  · exact exc_error
  · exact exc_ok (State_modCmd_kept hk)
theorem ff2Stop_kept {x0 x1} {S2 : State} (hk : Kept q S2) : Kept q (ff2Stop x0 x1 S2) := addRBlk_kept hk
theorem ff2Blocks_kept {x0 x1 x2 x3 x4 x5 x6 x7} {s : State} (hk : Kept q s) : Kept q (ff2Blocks x0 x1 x2 x3 x4 x5 x6 x7 s) := by
  induction x5 generalizing x6 x7 s with
  | zero => exact hk
  | succ n ih =>
    unfold ff2Blocks
    exact kept_if (ff2Stop_kept hk) (kept_if (ff2Stop_kept (addRBlk_kept hk)) (ih (addRBlk_kept hk)))
theorem readFf2_kept {x0 x1 x2 x3} {S4 : State} (hk : Kept q S4) : Kept q (readFf2 x0 x1 x2 x3 S4) := by
  unfold readFf2
  split
  · exact endSt_kept hk
  · try extract_lets -merge -underBinder +onlyGivenNames z0
    try clear_value z0
    refine kept_if hk ?_
    refine kept_if (endSt_kept hk) ?_
    refine kept_if (endSt_kept hk) ?_
    try extract_lets -merge -underBinder +onlyGivenNames z1
    try clear_value z1
    try extract_lets -merge -underBinder +onlyGivenNames z2
    try clear_value z2
    split
    · exact complete_kept hk
    · exact complete_kept hk
    · split
      · exact complete_kept hk
      · have h3 := exc_elim ‹_ = _› (q := q) (startJob_kept hk)
        exact pumpReads_kept (dispatchRead_kept (ff2Blocks_kept h3))
theorem readRecords_kept {x0 x1} {S2 : State} (hk : Kept q S2) : Kept q (readRecords x0 x1 S2) := by
  unfold readRecords
  try extract_lets -merge -underBinder +onlyGivenNames z0
  try clear_value z0
  split
  · exact endSt_kept hk
  · refine kept_if (endSt_kept hk) ?_
    refine streamCmd_kept (fun _ _ h1 => ?_) hk
    refine kept_if (readFf2_kept h1) ?_
    refine kept_if (endSt_kept h1) ?_
    refine kept_if h1 ?_
    split
    · exact complete_kept h1
    · have h2 := exc_elim ‹_ = _› (q := q) (startJob_kept h1)
      exact pumpReads_kept (needTape_kept h2)
theorem execReadRecords_kept {x0 x1} {S2 : State} (hk : Kept q S2) : OutKept q (execReadRecords x0 x1 S2) :=
  next_kept (instCmd_kept (fun _ _ h0 => readRecords_kept h0) hk)
theorem placeRead_kept {x0 x1} {S2 : State} (hk : Kept q S2) : Kept q (placeRead x0 x1 S2) :=
  rewindRead_kept (modRd_kept hk)
theorem moveThen_kept {x0 x1 x2 x3 x4} {S5 : State} (hk : Kept q S5) : Kept q (moveThen x0 x1 x2 x3 x4 S5) :=
  kept_if hk (State_modCmd_kept (acquireAll_kept (beginMove_kept (readAnew_kept (placeRead_kept hk)))))
theorem locate_kept {x0 x1 x2} {S3 : State} (hk : Kept q S3) : Kept q (locate x0 x1 x2 S3) :=
  kept_if (endSt_kept hk) (kept_if (endSt_kept hk) (streamCmd_kept (fun _ _ h2 => moveThen_kept h2) hk))
theorem execLocate_kept {x0 x1 x2} {S3 : State} (hk : Kept q S3) : OutKept q (execLocate x0 x1 x2 S3) :=
  next_kept (instCmd_kept (fun _ _ h0 => locate_kept h0) hk)
theorem space_kept {x0 x1 x2} {S3 : State} (hk : Kept q S3) : Kept q (space x0 x1 x2 S3) :=
  kept_if (endSt_kept hk) (kept_if (endSt_kept hk) (streamCmd_kept (fun _ _ h2 => moveThen_kept h2) hk))
theorem execSpace_kept {x0 x1 x2} {S3 : State} (hk : Kept q S3) : OutKept q (execSpace x0 x1 x2 S3) :=
  next_kept (instCmd_kept (fun _ _ h0 => space_kept h0) hk)

/-! ### Cart -/

theorem coldStart_kept {x0 x1} {S2 : State} (hk : Kept q S2) : Kept q (coldStart x0 x1 S2) := kept_mk hk id
theorem coldStartAll_kept {x0} {S1 : State} (hk : Kept q S1) : Kept q (coldStartAll x0 S1) :=
  kept_foldl (fun _ _ h0 => coldStart_kept h0) hk
theorem calibrate_kept {x0} {S1 : State} (hk : Kept q S1) : Kept q (calibrate x0 S1) := by
  refine kept_foldl (fun _ _ h0 => ?_) hk
  refine kept_foldl (fun _ _ h1 => ?_) h0
  split
  · exact h1
  · exact State_modRch_kept h1
theorem writeCm_kept {x0 x1} {S2 : State} (hk : Kept q S2) : Kept q (writeCm x0 x1 S2) :=
  kept_if (kept_mk hk id) hk
theorem writeDir_kept {S0 : State} (hk : Kept q S0) : Kept q (writeDir S0) := writeCm_kept hk
theorem modDir_kept {x0 x1} {S2 : State} (hk : Kept q S2) : Kept q (modDir x0 x1 S2) :=
  writeDir_kept (kept_mk hk id)
theorem holdCheck_kept {x0} {S1 : State} (hk : Kept q S1) : Kept q (holdCheck x0 S1) :=
  kept_if (kept_mk hk id) (raiseEv_kept (kept_mk hk id))
theorem finishLoad_kept {x0 x1 x2 x3 x4} {S5 : State} (hk : Kept q S5) : Kept q (finishLoad x0 x1 x2 x3 x4 S5) :=
  kept_if (mEnd_kept hk) (complete_kept (setMode_kept (kept_mk (calibrate_kept (holdCheck_kept (writeDir_kept (kept_mk hk id)))) id)))
theorem cartLoad_kept {x0 x1} {S2 : State} (hk : Kept q S2) : Kept q (cartLoad x0 x1 S2) := by
  unfold cartLoad
  try extract_lets -merge -underBinder +onlyGivenNames z0
  try clear_value z0
  refine kept_if (mEnd_kept hk) ?_
  refine kept_if (mEnd_kept hk) ?_
  refine kept_if (mEnd_kept hk) ?_
  split
  · exact mEnd_kept hk
  · exact kept_if (mEnd_kept hk) (kept_if (finishLoad_kept hk) (kept_if (complete_kept hk) (kept_if (finishLoad_kept hk) (mEnd_kept hk))))
theorem execCartLoad_kept {x0 x1} {S2 : State} (hk : Kept q S2) : OutKept q (execCartLoad x0 x1 S2) :=
  next_kept (mgmtCmd_kept (fun _ _ h0 => cartLoad_kept h0) hk)
theorem takeTape_kept {x0 x1} {S2 : State} (hk : Kept q S2) : Kept q (takeTape x0 x1 S2) :=
  beginMove_kept (State_modCmd_kept hk)
theorem unloadNow_kept {x0} {S1 : State} (hk : Kept q S1) : Kept q (unloadNow x0 S1) :=
  kept_if (takeTape_kept (writeDir_kept (writeCm_kept hk))) (mEnd_kept hk)
theorem unloaded_kept {x0} {S1 : State} (hk : Kept q S1) : Kept q (unloaded x0 S1) :=
  mOk_kept (kept_mk (dropReadBufs_kept (setMode_kept (kept_if hk (setMode_kept hk)))) id)
theorem cartUnload_kept {x0} {S1 : State} (hk : Kept q S1) : Kept q (cartUnload x0 S1) :=
  kept_if (mEnd_kept hk) (kept_if (mEnd_kept hk) (kept_if hk (kept_if (State_modCmd_kept hk) (unloadNow_kept hk))))
theorem execCartUnload_kept {x0} {S1 : State} (hk : Kept q S1) : OutKept q (execCartUnload x0 S1) :=
  next_kept (mgmtCmd_kept (fun _ _ h0 => cartUnload_kept h0) hk)
theorem cartCalibrate_kept {x0 x1} {S2 : State} (hk : Kept q S2) : Kept q (cartCalibrate x0 x1 S2) :=
  kept_if (mEnd_kept hk) (kept_if hk (kept_if (mEnd_kept hk) (kept_if hk (takeTape_kept hk))))
theorem endTapeWork_kept {S0 : State} (hk : Kept q S0) : Kept q (endTapeWork S0) := by
  refine kept_foldl (fun _ _ h0 => ?_) hk
  split
  · exact unloaded_kept h0
  · exact mOk_kept (calibrate_kept (beginStop_kept h0))
  · exact h0
theorem execCartCalibrate_kept {x0 x1} {S2 : State} (hk : Kept q S2) : OutKept q (execCartCalibrate x0 x1 S2) :=
  next_kept (mgmtCmd_kept (fun _ _ h0 => cartCalibrate_kept h0) hk)
theorem afterSession_kept {S0 : State} (hk : Kept q S0) : Kept q (afterSession S0) :=
  kept_foldl (fun _ _ h0 => kept_if (unloadNow_kept h0) h0) hk

/-! ### Append -/

theorem loseStream_kept {x0} {S1 : State} (hk : Kept q S1) : Kept q (loseStream x0 S1) :=
  cutStream_kept (failAll_kept hk)
theorem loseBlock_kept {x0} {S1 : State} (hk : Kept q S1) : Kept q (loseBlock x0 S1) := by
  unfold loseBlock
  split
  · exact hk
  · try extract_lets -merge -underBinder +onlyGivenNames z0
    try clear_value z0
    extract_lets -merge -underBinder +onlyGivenNames z1
    have h2 : Kept q z1 := discardBlocks_kept hk
    try clear_value z1
    extract_lets -merge -underBinder +onlyGivenNames z5
    have h6 : Kept q z5 := by
      unfold z5
      split
      · exact loseStream_kept h2
      · exact h2
    try clear_value z5
    exact settleWaits_kept (pump_kept (giveBack_kept h6))
theorem failCode_kept {x0 x1 x2} {S3 : State} (hk : Kept q S3) : Kept q (failCode x0 x1 x2 S3) := by
  unfold failCode
  extract_lets -merge -underBinder +onlyGivenNames z0
  have h1 : Kept q z0 := kept_if (raiseResend_kept hk) (raiseEv_kept hk)
  try clear_value z0
  extract_lets -merge -underBinder +onlyGivenNames _ z32
  have h33 : Kept q z32 := kept_if h1 (kept_mk h1 id)
  try clear_value z32
  extract_lets -merge -underBinder +onlyGivenNames z48
  have h49 : Kept q z48 := by
    unfold z48
    split
    · exact kept_mk (State_modBlk_kept h33) id
    · exact kept_mk (freeSlice_kept h33) id
    · exact kept_mk (freeSlice_kept h33) id
    · exact loseBlock_kept (freeSlice_kept h33)
  try clear_value z48
  exact dispatch_kept (strike_kept h49)
theorem sliceCode_kept {x0 x1} {S2 : State} (hk : Kept q S2) : Kept q (sliceCode x0 x1 S2) := by
  unfold sliceCode
  split
  · exact hk
  · split
    · exact kept_if (dispatch_kept (loseBlock_kept (freeSlice_kept hk))) (failCode_kept hk)
    · exact dispatch_kept (passAfter_kept (kept_mk (kept_mk (State_modBlk_kept hk) id) id))
theorem execSliceCodeDone_kept {x0 x1} {S2 : State} (hk : Kept q S2) : OutKept q (execSliceCodeDone x0 x1 S2) :=
  next_kept (sliceCode_kept hk)
theorem failSeal_kept {x0 x1 x2} {S3 : State} (hk : Kept q S3) : Kept q (failSeal x0 x1 x2 S3) := by
  unfold failSeal
  extract_lets -merge -underBinder +onlyGivenNames z0
  have h1 : Kept q z0 := kept_if (raiseResend_kept hk) (raiseEv_kept hk)
  try clear_value z0
  extract_lets -merge -underBinder +onlyGivenNames _ z16
  have h17 : Kept q z16 := kept_if h1 (kept_mk h1 id)
  try clear_value z16
  extract_lets -merge -underBinder +onlyGivenNames z24
  have h25 : Kept q z24 := by
    unfold z24
    split
    · exact kept_mk (State_modBlk_kept h17) id
    · exact freeEngine_kept (kept_mk h17 id)
    · exact freeEngine_kept (kept_mk h17 id)
    · exact loseBlock_kept (freeEngine_kept h17)
  try clear_value z24
  exact dispatch_kept (strike_kept h25)
theorem cipherSeal_kept {x0 x1} {S2 : State} (hk : Kept q S2) : Kept q (cipherSeal x0 x1 S2) := by
  unfold cipherSeal
  split
  · exact hk
  · split
    · exact failSeal_kept hk
    · try extract_lets -merge -underBinder +onlyGivenNames z0
      try clear_value z0
      extract_lets -merge -underBinder +onlyGivenNames z1
      have h2 : Kept q z1 := by
        unfold z1
        split
        · exact cacheKey_kept hk
        · exact hk
      try clear_value z1
      exact settleWaits_kept (settleGrants_kept (onBehalf_kept (fun _ h5 => panAlloc_kept h5) (passAfter_kept (State_modBlk_kept h2))))
theorem execCipherSealDone_kept {x0 x1} {S2 : State} (hk : Kept q S2) : OutKept q (execCipherSealDone x0 x1 S2) :=
  next_kept (cipherSeal_kept hk)
theorem failMove_kept {x0 x1} {S2 : State} (hk : Kept q S2) : Kept q (failMove x0 x1 S2) := by
  unfold failMove
  try extract_lets -merge -underBinder +onlyGivenNames z0
  try clear_value z0
  extract_lets -merge -underBinder +onlyGivenNames z1
  have h2 : Kept q z1 := strike_kept (raiseResend_kept hk)
  try clear_value z1
  split
  · exact State_modBlk_kept h2
  · exact State_modBlk_kept h2
  · exact dispatch_kept (State_modBlk_kept (giveBack_kept h2))
  · exact loseBlock_kept h2
theorem panBurst_kept {x0 x1 x2 x3 x4} {S5 : State} (hk : Kept q S5) : Kept q (panBurst x0 x1 x2 x3 x4 S5) := by
  unfold panBurst
  try extract_lets -merge -underBinder +onlyGivenNames z0
  try clear_value z0
  try extract_lets -merge -underBinder +onlyGivenNames z1
  try clear_value z1
  extract_lets -merge -underBinder +onlyGivenNames z2
  have h3 : SndKept q z2 := engineRead_kept (moverMoved_kept hk)
  try clear_value z2
  extract_lets -merge -underBinder +onlyGivenNames z18
  have h19 : Kept q z18 := snd_snd h3
  try clear_value z18
  refine kept_if (failMove_kept h19) ?_
  refine kept_if (State_modBlk_kept h19) ?_
  split
  · exact failMove_kept h19
  · exact settleWaits_kept (pump_kept (giveBack_kept (passAfter_kept (popItem_kept (kept_mk (State_modStream_kept (modDs_kept h19)) id)))))
theorem panIn_kept {x0 x1 x2 x3} {S4 : State} (hk : Kept q S4) : Kept q (panIn x0 x1 x2 x3 S4) := by
  unfold panIn
  split
  · exact hk
  · split
    · exact hk
    · exact kept_if (noteWaits_kept (closeDs_kept hk)) (kept_if hk (panBurst_kept hk))
theorem idleTimeout_kept {x0 x1} {S2 : State} (hk : Kept q S2) : Kept q (idleTimeout x0 x1 S2) := by
  refine kept_if hk ?_
  split
  · exact hk
  · split
    · exact noteWaits_kept (closeDs_kept hk)
    · exact hk
theorem execDatasetIdleTimeout_kept {x0 x1} {S2 : State} (hk : Kept q S2) : OutKept q (execDatasetIdleTimeout x0 x1 S2) :=
  next_kept (idleTimeout_kept hk)
theorem takeShares_kept {S0 : State} (hk : Kept q S0) : Kept q (takeShares S0) :=
  kept_foldl (fun _ _ h0 => kept_if h0 (putShare_kept h0)) hk
theorem addCredits_kept {x0} {S1 : State} (hk : Kept q S1) : Kept q (addCredits x0 S1) :=
  kept_foldl (fun _ _ h0 => kept_if (State_modInst_kept h0) (kept_if (State_modInst_kept h0) h0)) hk
theorem grantSlot_kept {x0 x1} {S2 : State} (hk : Kept q S2) : Kept q (grantSlot x0 x1 S2) :=
  settleGrants_kept (onBehalf_kept (fun _ h2 => panAlloc_kept h2) (kept_mk (State_modStream_kept hk) id))
theorem slotDecision_kept {S0 : State} (hk : Kept q S0) : Kept q (slotDecision S0) := by
  unfold slotDecision
  extract_lets -merge -underBinder +onlyGivenNames z0
  have h1 : Kept q z0 := noteWaits_kept hk
  try clear_value z0
  refine kept_if h1 ?_
  extract_lets -merge -underBinder +onlyGivenNames z14
  have h15 : Kept q z14 := takeShares_kept h1
  try clear_value z14
  split
  · exact grantSlot_kept h15
  · try extract_lets -merge -underBinder +onlyGivenNames z21
    try clear_value z21
    extract_lets -merge -underBinder +onlyGivenNames z22
    have h23 : Kept q z22 := addCredits_kept h15
    try clear_value z22
    try extract_lets -merge -underBinder +onlyGivenNames z25
    try clear_value z25
    split
    · exact h23
    · split
      · exact h23
      · exact grantSlot_kept (State_modInst_kept h23)
theorem execSlotDecision_kept {S0 : State} (hk : Kept q S0) : OutKept q (execSlotDecision S0) :=
  next_kept (slotDecision_kept hk)
theorem commitOne_kept {S0 : State} {x1} (hk : Kept q S0) : Kept q (commitOne S0 x1) := by
  unfold commitOne
  try extract_lets -merge -underBinder +onlyGivenNames z0
  try clear_value z0
  try extract_lets -merge -underBinder +onlyGivenNames z1
  try clear_value z1
  extract_lets -merge -underBinder +onlyGivenNames _ z2
  have h3 : Kept q z2 := kept_mk hk id
  try clear_value z2
  extract_lets -merge -underBinder +onlyGivenNames z10
  have h11 : Kept q z10 := kept_if (setTapeCounts_kept h3) h3
  try clear_value z10
  extract_lets -merge -underBinder +onlyGivenNames z14
  have h15 : Kept q z14 := by
    unfold z14
    split
    · exact kept_if (State_modStream_kept h11) h11
    · exact h11
  try clear_value z14
  exact kept_if h15 (giveBack_kept h15)
theorem groupCommit_kept {S0 : State} (hk : Kept q S0) : Kept q (groupCommit S0) :=
  kept_if hk (kept_foldl (fun _ _ h5 => giveBack_kept h5) (kept_mk hk id))
theorem reportCommit_kept {S0 : State} (hk : Kept q S0) : Kept q (reportCommit S0) :=
  kept_if hk (kept_if (groupCommit_kept hk) (settleXoff_kept (tellPos_kept hk)))
theorem setEod_kept {x0 x1 x2 x3} {S4 : State} (hk : Kept q S4) : Kept q (setEod x0 x1 x2 x3 S4) :=
  kept_mk (modDir_kept hk) id
theorem endSession_kept {x0} {S1 : State} (hk : Kept q S1) : Kept q (endSession x0 S1) :=
  afterSession_kept (beginStop_kept (dropGates_kept (kept_mk (kept_if (kept_mk (kept_mk (setEod_kept hk) id) id) (kept_mk (setEod_kept hk) id)) id)))
theorem updateCommit_kept {S0 : State} (hk : Kept q S0) : Kept q (updateCommit S0) := by
  unfold updateCommit
  try extract_lets -merge -underBinder +onlyGivenNames z0
  try clear_value z0
  refine kept_if (settleWaits_kept hk) ?_
  try extract_lets -merge -underBinder +onlyGivenNames z1
  try clear_value z1
  try extract_lets -merge -underBinder +onlyGivenNames z2
  try clear_value z2
  try extract_lets -merge -underBinder +onlyGivenNames z3
  try clear_value z3
  extract_lets -merge -underBinder +onlyGivenNames _ z4
  have h5 : Kept q z4 := kept_mk hk id
  try clear_value z4
  extract_lets -merge -underBinder +onlyGivenNames z14
  have h15 : Kept q z14 := kept_foldl (fun _ _ h19 => commitOne_kept h19) h5
  try clear_value z14
  extract_lets -merge -underBinder +onlyGivenNames z20
  have h21 : Kept q z20 := by
    unfold z20
    split
    · exact endSession_kept h15
    · exact h15
  try clear_value z20
  exact settleWaits_kept (reportCommit_kept h21)
theorem failStreams_kept {x0} {S1 : State} (hk : Kept q S1) : Kept q (failStreams x0 S1) := by
  unfold failStreams
  try extract_lets -merge -underBinder +onlyGivenNames z0
  try clear_value z0
  try extract_lets -merge -underBinder +onlyGivenNames z1
  try clear_value z1
  extract_lets -merge -underBinder +onlyGivenNames z2
  have h3 : Kept q z2 := kept_foldl (fun _ _ h16 => cutStream_kept (failAll_kept h16)) hk
  try clear_value z2
  try extract_lets -merge -underBinder +onlyGivenNames z17
  try clear_value z17
  extract_lets -merge -underBinder +onlyGivenNames z18
  have h19 : Kept q z18 := discardBlocks_kept h3
  try clear_value z18
  extract_lets -merge -underBinder +onlyGivenNames z24
  have h25 : Kept q z24 := kept_mk h19 id
  try clear_value z24
  refine kept_foldl (fun _ _ h27 => ?_) h25
  split
  · exact giveBack_kept h27
  · exact h27
theorem dropUnwritten_kept {S0 : State} (hk : Kept q S0) : Kept q (dropUnwritten S0) :=
  kept_foldl (fun _ _ h3 => giveBack_kept h3) (kept_mk hk id)
theorem failGroup_kept {S0 : State} (hk : Kept q S0) : Kept q (failGroup S0) :=
  kept_if hk (kept_if (powerFor_kept (kept_mk (kept_foldl (fun _ _ h10 => giveBack_kept h10) (failStreams_kept (dropUnwritten_kept (kept_mk (raiseEv_kept hk) id)))) id)) (kept_foldl (fun _ _ h14 => giveBack_kept h14) (powerFor_kept (kept_mk hk id))))
theorem endFailed_kept {x0} {S1 : State} (hk : Kept q S1) : Kept q (endFailed x0 S1) :=
  afterSession_kept (settleWaits_kept (setMode_kept (kept_foldl (fun _ _ h7 => giveBack_kept h7) (beginStop_kept (dropGates_kept (kept_mk (setEod_kept hk) id))))))
theorem toCommitPoint_kept {S0 : State} (hk : Kept q S0) : Kept q (toCommitPoint S0) := by
  unfold toCommitPoint
  extract_lets -merge -underBinder +onlyGivenNames _ z0
  have h1 : Kept q z0 := beginStop_kept (dropGates_kept (kept_mk hk id))
  try clear_value z0
  exact kept_if (beginMove_kept h1) (kept_mk h1 id)
theorem failWrite_kept {x0} {S1 : State} (hk : Kept q S1) : Kept q (failWrite x0 S1) := by
  unfold failWrite
  split
  · exact hk
  · refine kept_if (endFailed_kept hk) ?_
    try extract_lets -merge -underBinder +onlyGivenNames z0
    try clear_value z0
    extract_lets -merge -underBinder +onlyGivenNames _ z1
    have h2 : Kept q z1 := failStreams_kept (dropUnwritten_kept (kept_mk hk id))
    try clear_value z1
    extract_lets -merge -underBinder +onlyGivenNames z27
    have h28 : Kept q z27 := kept_foldl (fun _ _ h40 => giveBack_kept h40) h2
    try clear_value z27
    extract_lets -merge -underBinder +onlyGivenNames z41
    have h42 : Kept q z41 := raiseEv_kept h28
    try clear_value z41
    extract_lets -merge -underBinder +onlyGivenNames z47
    have h48 : Kept q z47 := kept_if h42 (kept_if (failGroup_kept (tellAll_kept h42)) (tellPos_kept h42))
    try clear_value z47
    exact settleWaits_kept (toCommitPoint_kept (kept_mk h48 id))
theorem startRecovery_kept {x0} {S1 : State} (hk : Kept q S1) : Kept q (startRecovery x0 S1) :=
  kept_if hk (kept_if (failWrite_kept hk) (kept_if (kept_mk (raiseEv_kept (kept_mk hk id)) id) (toCommitPoint_kept (raiseEv_kept (kept_mk hk id)))))
theorem rewind_kept {S0 : State} (hk : Kept q S0) : Kept q (rewind S0) := kept_mk hk id
theorem modWr_kept {x0 x1} {S2 : State} (hk : Kept q S2) : Kept q (modWr x0 x1 S2) := kept_mk hk id
theorem countJudged_kept {x0} {S1 : State} (hk : Kept q S1) : Kept q (countJudged x0 S1) := kept_mk hk id
theorem fixFill_kept {x0} {S1 : State} {x2} (hk : Kept q S1) : Kept q (fixFill x0 S1 x2) :=
  kept_if (kept_mk hk id) hk
theorem fixPosition_kept {x0 x1} {S2 : State} {x3} (hk : Kept q S2) : Kept q (fixPosition x0 x1 S2 x3) :=
  kept_if (fixFill_kept hk) (kept_if (kept_mk hk id) (countJudged_kept (kept_mk hk id)))
theorem tierDone_kept {x0 x1 x2} {S3 : State} (hk : Kept q S3) : Kept q (tierDone x0 x1 x2 S3) :=
  modWr_kept (kept_mk hk id)
theorem fixData_kept {x0} {S1 : State} (hk : Kept q S1) : Kept q (fixData x0 S1) :=
  tierDone_kept (kept_foldl (fun _ _ h0 => fixPosition_kept h0) hk)
theorem placeCopy_kept {x0} {x1 : List Nat × State} {x2} (hk : SndKept q x1) : SndKept q (placeCopy x0 x1 x2) := by
  unfold placeCopy
  dsimp only
  split
  · exact kept_mk hk id
  · exact hk
  · exact kept_mk hk id
theorem fixRewrite_kept {x0} {s : State} (hk : Kept q s) : Kept q (fixRewrite x0 s) :=
  tierDone_kept (kept_mk (kept_foldl (fun _ _ h => fixFill_kept h)
    (snd_snd (snd_foldl (fun _ _ h => placeCopy_kept h) (snd_mk (kept_mk hk id))))) id)
theorem boundarySpeed_kept {S0 : State} (hk : Kept q S0) : Kept q (boundarySpeed S0) :=
  kept_if hk (kept_mk hk id)
theorem fixSeparator_kept {x0} {S1 : State} (hk : Kept q S1) : Kept q (fixSeparator x0 S1) :=
  kept_if (startRecovery_kept (kept_mk (modWr_kept hk) id)) (updateCommit_kept (kept_mk (modWr_kept hk) id))
theorem beginDs_kept {x0 x1} {S2 : State} (hk : Kept q S2) : Kept q (beginDs x0 x1 S2) := by
  unfold beginDs
  try extract_lets -merge -underBinder +onlyGivenNames z0
  try clear_value z0
  try extract_lets -merge -underBinder +onlyGivenNames z1
  try clear_value z1
  try extract_lets -merge -underBinder +onlyGivenNames z2
  try clear_value z2
  try extract_lets -merge -underBinder +onlyGivenNames z3
  try clear_value z3
  try extract_lets -merge -underBinder +onlyGivenNames z4
  try clear_value z4
  try extract_lets -merge -underBinder +onlyGivenNames z5
  try clear_value z5
  try extract_lets -merge -underBinder +onlyGivenNames z6
  try clear_value z6
  extract_lets -merge -underBinder +onlyGivenNames z7
  have h8 : Kept q z7 := kept_if hk (modDir_kept hk)
  try clear_value z7
  extract_lets -merge -underBinder +onlyGivenNames _ z27
  have h28 : Kept q z27 := kept_mk h8 id
  try clear_value z27
  extract_lets -merge -underBinder +onlyGivenNames z37
  have h38 : Kept q z37 := kept_if (tellAll_kept h28) h28
  try clear_value z37
  exact fixData_kept (kept_if h38 (kept_if (kept_mk h38 id) (kept_if (kept_mk h38 id) h38)))
theorem partitionIsFull_kept {S0 : State} (hk : Kept q S0) : Kept q (partitionIsFull S0) :=
  settleWaits_kept (kept_mk (raiseEv_kept (failStreams_kept (dropUnwritten_kept hk))) id)
theorem stopAfterSep_kept {S0 : State} (hk : Kept q S0) : Kept q (stopAfterSep S0) := kept_mk hk id
theorem beginAt_kept {x0 x1} {S2 : State} (hx1 : ∀ y0 s, Kept q s → Kept q (x1 y0 s)) (hk : Kept q S2) : Kept q (beginAt x0 x1 S2) := by
  unfold beginAt
  split
  · exact stopAfterSep_kept hk
  · exact kept_if (hx1 _ _ hk) (kept_mk hk id)
theorem leaveSep_kept {S0 : State} (hk : Kept q S0) : Kept q (leaveSep S0) := by
  unfold leaveSep
  split
  · exact hk
  · exact beginStop_kept (dropGates_kept (kept_mk hk id))
  · exact beginMove_kept (dropGates_kept (kept_mk hk id))
theorem startNext_kept {S0 : State} (hk : Kept q S0) : Kept q (startNext S0) := by
  unfold startNext
  extract_lets -merge -underBinder +onlyGivenNames z0
  have h1 : Kept q z0 := boundarySpeed_kept hk
  try clear_value z0
  split
  · exact stopAfterSep_kept h1
  · try extract_lets -merge -underBinder +onlyGivenNames z11
    try clear_value z11
    try extract_lets -merge -underBinder +onlyGivenNames z12
    try clear_value z12
    try extract_lets -merge -underBinder +onlyGivenNames z13
    try clear_value z13
    try extract_lets -merge -underBinder +onlyGivenNames z14
    try clear_value z14
    try extract_lets -merge -underBinder +onlyGivenNames z15
    try clear_value z15
    try extract_lets -merge -underBinder +onlyGivenNames z16
    try clear_value z16
    refine kept_if (stopAfterSep_kept h1) ?_
    refine kept_if (beginAt_kept (fun _ _ h17 => beginDs_kept (kept_mk h17 id)) h1) ?_
    refine kept_if (beginAt_kept (fun _ _ h18 => beginDs_kept (kept_mk h18 id)) h1) ?_
    split
    · exact stopAfterSep_kept h1
    · exact kept_if (beginAt_kept (fun _ _ h19 => beginDs_kept (kept_mk h19 id)) h1) (partitionIsFull_kept h1)
theorem swapVault_kept {x0 x1 x2} {S3 : State} (hk : Kept q S3) : Kept q (swapVault x0 x1 x2 S3) :=
  kept_if hk (kept_if (kept_mk hk id) (kept_mk hk id))
theorem loseRow_kept {x0} {S1 : State} (hk : Kept q S1) : Kept q (loseRow x0 S1) := by
  unfold loseRow
  split
  · exact hk
  · split
    · exact startRecovery_kept hk
    · exact startRecovery_kept (swapVault_kept (modWr_kept (loseStream_kept hk)))
theorem rowFailure_kept {x0 x1 x2} (hk : SndKept q x1) : SndKept q (rowFailure x0 x1 x2) := by
  unfold rowFailure
  extract_lets -merge -underBinder +onlyGivenNames s0
  have h0 : Kept q s0 := snd_snd hk
  clear_value s0
  split
  · exact hk
  · extract_lets -merge -underBinder +onlyGivenNames t rest s1
    have h9 : Kept q s1 := strike_kept (raiseResend_kept h0)
    clear_value s1
    split
    · exact snd_mk h9
    · exact snd_mk h9
    · exact snd_mk h9
    · exact snd_mk (loseRow_kept h9)
theorem rowPoison_kept {x0 x1 x2} {s : State} (hk : Kept q s) : Kept q (rowPoison x0 x1 x2 s) := by
  induction x1 generalizing x2 s with
  | zero => exact hk
  | succ n ih =>
    unfold rowPoison
    extract_lets t1 e t2 s1
    have h9 : Kept q s1 := strike_kept (raiseResend_kept hk)
    clear_value s1
    split
    · exact ih h9
    · exact ih h9
    · exact ih h9
    · exact loseRow_kept h9
theorem readTier_kept {x0} {S1 : State} (hk : Kept q S1) : Kept q (readTier x0 S1) := by
  refine kept_if hk ?_
  refine kept_foldl (fun _ _ h0 => ?_) hk
  split
  · exact h0
  · exact kept_if (snd_snd (engineRead_kept h0)) (rowPoison_kept (snd_snd (engineRead_kept h0)))
theorem rowFailures_kept {x0 x1} {S2 : State} (hk : Kept q S2) : Kept q (rowFailures x0 x1 S2) :=
  kept_foldl (fun _ _ h3 => passAfter_kept h3) (snd_snd (snd_foldl (fun _ _ h2 => rowFailure_kept h2) (snd_mk hk)))
theorem markTier_kept {S0 : State} (hk : Kept q S0) : Kept q (markTier S0) := by
  unfold markTier
  split
  · exact hk
  · exact kept_mk hk id
theorem gateBoundary_kept {S0 : State} (hk : Kept q S0) : Kept q (gateBoundary S0) := by
  unfold gateBoundary
  try extract_lets -merge -underBinder +onlyGivenNames z0
  try clear_value z0
  extract_lets -merge -underBinder +onlyGivenNames _ z1
  have h2 : Kept q z1 := kept_mk hk id
  try clear_value z1
  extract_lets -merge -underBinder +onlyGivenNames _ z5
  have h6 : Kept q z5 := kept_if (kept_mk h2 id) h2
  try clear_value z5
  exact kept_if (markTier_kept h6) h6
theorem gateDrop_kept {S0 : State} (hk : Kept q S0) : Kept q (gateDrop S0) :=
  kept_if hk (kept_if (kept_mk hk id) (kept_if (startRecovery_kept (kept_mk hk id)) (markTier_kept (kept_mk hk id))))
theorem fixNext_kept {S0 : State} (hk : Kept q S0) : Kept q (fixNext S0) := by
  unfold fixNext
  split
  · exact startNext_kept hk
  · exact kept_if (fixData_kept hk) (kept_if (fixRewrite_kept hk) (kept_if (startRecovery_kept hk) (fixSeparator_kept hk)))
theorem tierFix_kept {x0} {S1 : State} (hk : Kept q S1) : Kept q (tierFix x0 S1) :=
  kept_if hk (kept_if (toCommitPoint_kept hk) (kept_if hk (kept_if (leaveSep_kept hk) (gateBoundary_kept (rowFailures_kept (readTier_kept (fixNext_kept hk)))))))
theorem execTierFix_kept {x0} {S1 : State} (hk : Kept q S1) : OutKept q (execTierFix x0 S1) :=
  next_kept (tierFix_kept hk)
theorem underrun_kept {x0} {S1 : State} (hk : Kept q S1) : Kept q (underrun x0 S1) := kept_mk hk id
theorem execWriteFifoUnderrun_kept {x0} {S1 : State} (hk : Kept q S1) : OutKept q (execWriteFifoUnderrun x0 S1) :=
  next_kept (underrun_kept hk)
theorem noteChanFail_kept {x0 x1} {S2 : State} (hk : Kept q S2) : Kept q (noteChanFail x0 x1 S2) := by
  unfold noteChanFail
  split
  · exact hk
  · exact kept_if (strike_kept (modWr_kept hk)) (modWr_kept hk)
theorem judgeRow_kept {x0 x1 x2} {S3 : State} (hk : Kept q S3) : Kept q (judgeRow x0 x1 x2 S3) := by
  unfold judgeRow
  try extract_lets -merge -underBinder +onlyGivenNames z0
  try clear_value z0
  try extract_lets -merge -underBinder +onlyGivenNames z1
  try clear_value z1
  extract_lets -merge -underBinder +onlyGivenNames z2
  have h3 : Kept q z2 := countJudged_kept hk
  try clear_value z2
  refine kept_if (updateCommit_kept (modWr_kept h3)) ?_
  extract_lets -merge -underBinder +onlyGivenNames z6
  have h7 : Kept q z6 := kept_if (noteChanFail_kept h3) h3
  try clear_value z6
  exact kept_if (kept_mk h7 id) (kept_if (startRecovery_kept h7) (kept_mk h7 id))
theorem judgeFrom_kept {x0 x1} {s : State} (hk : Kept q s) : Kept q (judgeFrom x0 x1 s) := by
  induction x1 generalizing s with
  | nil => exact hk
  | cons p l ih =>
    unfold judgeFrom
    refine kept_if hk ?_
    extract_lets x s1
    have h1 : Kept q s1 := kept_mk (s := s.modRch x0 (fun r => { r with done := x.2 })) (State_modRch_kept hk) id
    clear_value s1
    split
    · exact ih h1
    · exact judgeRow_kept h1
theorem judge_kept {x0} {S1 : State} (hk : Kept q S1) : Kept q (judge x0 S1) := judgeFrom_kept hk
theorem execCwoJudged_kept {x0} {S1 : State} (hk : Kept q S1) : OutKept q (execCwoJudged x0 S1) :=
  next_kept (judge_kept hk)
theorem fenceTimeout_kept {S0 : State} (hk : Kept q S0) : Kept q (fenceTimeout S0) :=
  kept_if (startRecovery_kept hk) hk
theorem execFenceTimeout_kept {S0 : State} (hk : Kept q S0) : OutKept q (execFenceTimeout S0) :=
  next_kept (fenceTimeout_kept hk)
theorem runUp_kept {S0 : State} (hk : Kept q S0) : Kept q (runUp S0) := beginMove_kept hk
theorem tapeRestart_kept {S0 : State} (hk : Kept q S0) : Kept q (tapeRestart S0) :=
  kept_if (runUp_kept hk) hk
theorem execTapeRestart_kept {S0 : State} (hk : Kept q S0) : OutKept q (execTapeRestart S0) :=
  next_kept (tapeRestart_kept hk)
theorem maxWait_kept {S0 : State} (hk : Kept q S0) : Kept q (maxWait S0) := kept_if (runUp_kept hk) hk
theorem execMaxWaitExpiry_kept {S0 : State} (hk : Kept q S0) : OutKept q (execMaxWaitExpiry S0) :=
  next_kept (maxWait_kept hk)

/-! ### Servo -/

theorem fence_kept {x0} {S1 : State} (hk : Kept q S1) : Kept q (fence x0 S1) :=
  kept_if (kept_mk hk id) (gateDrop_kept (raiseEv_kept (kept_mk (kept_mk hk id) id)))
theorem judgeFence_kept {x0} {S1 : State} (hk : Kept q S1) : Kept q (judgeFence x0 S1) :=
  kept_if (fence_kept hk) (kept_if (kept_if (fence_kept hk) hk) (kept_if (kept_if (fence_kept hk) hk) (kept_if (kept_mk hk id) hk)))
theorem enterSearch_kept {S0 : State} (hk : Kept q S0) : Kept q (enterSearch S0) := by
  unfold enterSearch
  extract_lets -merge -underBinder +onlyGivenNames z0
  have h1 : Kept q z0 := judgeFence_kept (startSearch_kept hk)
  try clear_value z0
  split
  · exact startRecovery_kept h1
  · exact kept_mk (beginStop_kept h1) id
  · exact kept_mk (beginStop_kept h1) id
  · exact h1
theorem countFrame_kept {S0 : State} (hk : Kept q S0) : Kept q (countFrame S0) := kept_mk hk id
theorem runUpAt_kept {S0 : State} (hk : Kept q S0) : Kept q (runUpAt S0) := by
  refine kept_if hk ?_
  split
  · exact hk
  · exact kept_if (kept_mk hk id) hk
theorem l2Sample_kept {S0 : State} (hk : Kept q S0) : Kept q (l2Sample S0) :=
  kept_if hk (runLoop_kept (kept_mk (kept_if (kept_mk (bankSwap_kept hk) id) hk) id))
theorem l3Sample_kept {S0 : State} (hk : Kept q S0) : Kept q (l3Sample S0) :=
  kept_if hk (runLoop_kept (kept_mk hk id))
theorem execL3Sample_kept {S0 : State} (hk : Kept q S0) : OutKept q (execL3Sample S0) :=
  next_kept (l3Sample_kept hk)
theorem frameDecided_kept {x0} {S1 : State} (hk : Kept q S1) : Kept q (frameDecided x0 S1) :=
  kept_if hk (kept_if hk (l2Sample_kept (judgeFence_kept (runUpAt_kept (countFrame_kept (kept_mk hk id))))))
theorem execServoFrameDecided_kept {x0} {S1 : State} (hk : Kept q S1) : OutKept q (execServoFrameDecided x0 S1) :=
  next_kept (frameDecided_kept hk)
theorem frameMissed_kept {S0 : State} (hk : Kept q S0) : Kept q (frameMissed S0) := by
  refine kept_if hk ?_
  try extract_lets -merge -underBinder +onlyGivenNames z0
  try clear_value z0
  try extract_lets -merge -underBinder +onlyGivenNames z1
  try clear_value z1
  try extract_lets -merge -underBinder +onlyGivenNames z2
  try clear_value z2
  extract_lets -merge -underBinder +onlyGivenNames z3
  have h4 : Kept q z3 := runUpAt_kept (countFrame_kept (kept_mk hk id))
  try clear_value z3
  try extract_lets -merge -underBinder +onlyGivenNames z8
  try clear_value z8
  extract_lets -merge -underBinder +onlyGivenNames _ _ z9
  have h10 : Kept q z9 := kept_if h4 (kept_if (enterSearch_kept h4) (kept_if (judgeFence_kept (kept_mk h4 id)) (kept_mk h4 id)))
  try clear_value z9
  exact l2Sample_kept h10
theorem execFrameMissed_kept {S0 : State} (hk : Kept q S0) : OutKept q (execFrameMissed S0) :=
  next_kept (frameMissed_kept hk)
theorem pafltAssert_kept {x0} {S1 : State} (hk : Kept q S1) : Kept q (pafltAssert x0 S1) :=
  markTier_kept (kept_mk hk id)
theorem execPafltAssert_kept {x0} {S1 : State} (hk : Kept q S1) : OutKept q (execPafltAssert x0 S1) :=
  next_kept (pafltAssert_kept hk)
theorem pafltDeassert_kept {x0} {S1 : State} (hk : Kept q S1) : Kept q (pafltDeassert x0 S1) := kept_mk hk id
theorem execPafltDeassert_kept {x0} {S1 : State} (hk : Kept q S1) : OutKept q (execPafltDeassert x0 S1) :=
  next_kept (pafltDeassert_kept hk)

/-! ### Motion -/

theorem failMoves_kept {S0 : State} (hk : Kept q S0) : Kept q (failMoves S0) := by
  unfold failMoves
  extract_lets -merge -underBinder +onlyGivenNames z0
  have h1 : Kept q z0 := kept_foldl (fun _ _ h5 => kept_foldl (fun _ _ h6 => kept_if (kept_if (complete_kept h6) (completeSt_kept h6)) h6) h5) hk
  try clear_value z0
  refine kept_foldl (fun _ _ h7 => ?_) h1
  split
  · exact completeSt_kept h7
  · exact completeSt_kept h7
  · exact completeSt_kept h7
  · exact h7
theorem motionFault_kept {x0 x1} {S2 : State} (hk : Kept q S2) : Kept q (motionFault x0 x1 S2) := by
  unfold motionFault
  extract_lets -merge -underBinder +onlyGivenNames _ _ z0
  have h1 : Kept q z0 := brakeReels_kept (kept_mk hk id)
  try clear_value z0
  extract_lets -merge -underBinder +onlyGivenNames z8
  have h9 : Kept q z8 := raiseEv_kept h1
  try clear_value z8
  refine kept_if (startRecovery_kept (kept_mk h9 id)) ?_
  extract_lets -merge -underBinder +onlyGivenNames _ _ z12
  have h13 : Kept q z12 := failMoves_kept (kept_mk h9 id)
  try clear_value z12
  exact kept_if (setMode_kept h13) h13
theorem l1Sample_kept {x0} {S1 : State} (hk : Kept q S1) : Kept q (l1Sample x0 S1) :=
  kept_if hk (kept_if (kept_mk hk id) (kept_if (motionFault_kept (kept_mk (kept_mk (runLoop_kept (kept_mk hk id)) id) id)) (kept_mk (runLoop_kept (kept_mk hk id)) id)))
theorem execL1Sample_kept {x0} {S1 : State} (hk : Kept q S1) : OutKept q (execL1Sample x0 S1) :=
  next_kept (l1Sample_kept hk)
theorem l0Sample_kept {S0 : State} (hk : Kept q S0) : Kept q (l0Sample S0) := by
  refine kept_if hk ?_
  extract_lets -merge -underBinder +onlyGivenNames _ z0
  have h1 : Kept q z0 := kept_mk hk id
  try clear_value z0
  try extract_lets -merge -underBinder +onlyGivenNames z21
  try clear_value z21
  extract_lets -merge -underBinder +onlyGivenNames z22
  have h23 : Kept q z22 := runLoop_kept h1
  try clear_value z22
  extract_lets -merge -underBinder +onlyGivenNames _ z32
  have h33 : Kept q z32 := kept_if (kept_mk h23 id) h23
  try clear_value z32
  exact kept_if (motionFault_kept (kept_mk (kept_mk h33 id) id)) (kept_mk h33 id)
theorem endPeriod_kept {S0 : State} (hk : Kept q S0) : Kept q (endPeriod S0) :=
  kept_if hk (sendFrame_kept (l0Sample_kept (kept_mk hk id)))
theorem mlsync_kept {S0 : State} (hk : Kept q S0) : Kept q (mlsync S0) :=
  kept_if hk (kept_mk (endPeriod_kept hk) id)
theorem execMlsync_kept {S0 : State} (hk : Kept q S0) : OutKept q (execMlsync S0) :=
  next_kept (mlsync_kept hk)
theorem badInFrame_kept {S0 : State} (hk : Kept q S0) : Kept q (badInFrame S0) :=
  kept_if (motionFault_kept (kept_mk hk id)) (kept_mk hk id)
theorem inFrame_kept {x0} {S1 : State} (hk : Kept q S1) : Kept q (inFrame x0 S1) :=
  kept_if hk (kept_if (endPeriod_kept (kept_mk hk id)) (endPeriod_kept (badInFrame_kept (kept_mk hk id))))
theorem execInFrame_kept {x0} {S1 : State} (hk : Kept q S1) : OutKept q (execInFrame x0 S1) :=
  next_kept (inFrame_kept hk)
theorem inFrameAbsent_kept {S0 : State} (hk : Kept q S0) : Kept q (inFrameAbsent S0) :=
  kept_if hk (endPeriod_kept (badInFrame_kept (kept_mk hk id)))
theorem execInFrameAbsent_kept {S0 : State} (hk : Kept q S0) : OutKept q (execInFrameAbsent S0) :=
  next_kept (inFrameAbsent_kept hk)
theorem setSpeed_kept {x0} {S1 : State} (hk : Kept q S1) : Kept q (setSpeed x0 S1) :=
  kept_if hk (raiseEv_kept (kept_mk hk id))
theorem rampEnd_kept {S0 : State} (hk : Kept q S0) : Kept q (rampEnd S0) := by
  refine kept_if hk ?_
  extract_lets -merge -underBinder +onlyGivenNames _ _ z0
  have h1 : Kept q z0 := kept_mk hk id
  try clear_value z0
  refine kept_if h1 ?_
  split
  · exact setSpeed_kept h1
  · exact h1
theorem execRampEnd_kept {S0 : State} (hk : Kept q S0) : OutKept q (execRampEnd S0) :=
  next_kept (rampEnd_kept hk)
theorem applyMotion_kept {S0 : State} (hk : Kept q S0) : Kept q (applyMotion S0) :=
  kept_if hk (kept_mk hk id)
theorem resetIsland_kept {S0 : State} (hk : Kept q S0) : Kept q (resetIsland S0) :=
  powerFor_kept (kept_mk hk id)
theorem afterStop_kept {S0 : State} (hk : Kept q S0) : Kept q (afterStop S0) := by
  refine kept_if (applyMotion_kept (resetIsland_kept hk)) ?_
  refine kept_if ?_ ?_
  · split
    · exact beginMove_kept hk
    · exact beginMove_kept hk
    · exact beginMove_kept hk
    · exact kept_mk hk id
  · refine kept_if (beginMove_kept hk) ?_
    split
    · exact kept_if hk (setMode_kept hk)
    · exact kept_if hk (setMode_kept hk)
    · exact setMode_kept hk
    · exact hk
theorem tapeStopped_kept {S0 : State} (hk : Kept q S0) : Kept q (tapeStopped S0) :=
  kept_if (afterStop_kept (setSpeed_kept (kept_mk (kept_if (writePreamps_kept hk) hk) id))) hk
theorem execTapeStopped_kept {S0 : State} (hk : Kept q S0) : OutKept q (execTapeStopped S0) :=
  next_kept (tapeStopped_kept hk)
theorem motionStop_kept {S0 : State} (hk : Kept q S0) : Kept q (motionStop S0) :=
  beginStop_kept (kept_mk hk id)
theorem execMotionStop_kept {x0} {S1 : State} (hk : Kept q S1) : OutKept q (execMotionStop x0 S1) :=
  next_kept (kept_if (motionStop_kept hk) hk)
theorem motionBrake_kept {S0 : State} (hk : Kept q S0) : Kept q (motionBrake S0) :=
  brakeReels_kept (kept_mk hk id)
theorem execMotionBrake_kept {x0} {S1 : State} (hk : Kept q S1) : OutKept q (execMotionBrake x0 S1) :=
  next_kept (kept_if (motionBrake_kept hk) hk)

/-! ### RingRecv -/

theorem sendAck_kept {x0} {S1 : State} (hk : Kept q S1) : Kept q (sendAck x0 S1) :=
  State_modPort_kept (emitFrame_kept hk)
theorem sendNak_kept {x0} {S1 : State} (hk : Kept q S1) : Kept q (sendNak x0 S1) :=
  kept_if hk (State_modPort_kept (emitFrame_kept hk))
theorem acceptFrame_kept {x0} {S1 : State} (hk : Kept q S1) : Kept q (acceptFrame x0 S1) :=
  kept_if (sendAck_kept (State_modPort_kept hk)) (State_modPort_kept hk)
theorem forwardFrame_kept {x0 x1} {S2 : State} (hk : Kept q S2) : Kept q (forwardFrame x0 x1 S2) :=
  kept_if hk (enqueueFrame_kept hk)
theorem passDamaged_kept {x0 x1} {S2 : State} (hk : Kept q S2) : Kept q (passDamaged x0 x1 S2) :=
  kept_if hk (State_modPort_kept hk)
theorem dropFrame_kept {x0 x1} {S2 : State} (hk : Kept q S2) : Kept q (dropFrame x0 x1 S2) :=
  sendNak_kept (passDamaged_kept hk)
theorem failFrame_kept {x0 x1 x2} {S3 : State} (hk : Kept q S3) : Kept q (failFrame x0 x1 x2 S3) :=
  kept_foldl (fun _ _ h4 => strike_kept h4) (dropFrame_kept (State_modPort_kept hk))
theorem receive_kept {x0 x1 x2 x3 x4 x5} {S6 : State} (hx5 : ∀ s, Kept q s → Kept q (x5 s)) (hk : Kept q S6) : Kept q (receive x0 x1 x2 x3 x4 x5 S6) :=
  kept_if hk (kept_if (failFrame_kept hk) (kept_if hk (kept_if (dropFrame_kept hk) (kept_if (sendNak_kept hk) (hx5 _ (acceptFrame_kept hk))))))
theorem receiveAck_kept {x0 x1 x2 x3 x4} {S5 : State} (hx4 : ∀ s, Kept q s → Kept q (x4 s)) (hk : Kept q S5) : Kept q (receiveAck x0 x1 x2 x3 x4 S5) :=
  kept_if hk (kept_if (failFrame_kept hk) (kept_if hk (kept_if (dropFrame_kept hk) (hx4 _ hk))))
theorem routed_kept {x0 x1 x2} {S3 : State} (hx2 : ∀ s, Kept q s → Kept q (x2 s)) (hk : Kept q S3) : Kept q (routed x0 x1 x2 S3) :=
  kept_if (kept_if hk (hx2 _ (forwardFrame_kept hk))) (kept_if (hx2 _ hk) (kept_if hk (forwardFrame_kept hk)))
theorem unlessStrange_kept {x0 x1} {S2 : State} (hx1 : ∀ s, Kept q s → Kept q (x1 s)) (hk : Kept q S2) : Kept q (unlessStrange x0 x1 S2) :=
  kept_if hk (hx1 _ hk)
theorem ofGroup_kept {x0 x1} {S2 : State} (hx1 : ∀ s, Kept q s → Kept q (x1 s)) (hk : Kept q S2) : Kept q (ofGroup x0 x1 S2) :=
  kept_if hk (unlessStrange_kept (fun _ h0 => hx1 _ h0) hk)

/-! ### Tape -/

theorem judgeMarks_kept {S0 : State} (hk : Kept q S0) : Kept q (judgeMarks S0) := kept_mk hk id
theorem chooseSpeed_kept {S0 : State} (hk : Kept q S0) : Kept q (chooseSpeed S0) := kept_mk hk id
theorem firstUse_kept {x0} {S1 : State} (hk : Kept q S1) : Kept q (firstUse x0 S1) :=
  kept_foldl (fun _ _ h0 => kept_if h0 (coldStart_kept h0)) hk
theorem enterZone_kept {x0} {S1 : State} (hk : Kept q S1) : Kept q (enterZone x0 S1) :=
  kept_if (firstUse_kept hk) (coldStartAll_kept hk)
theorem openGate_kept {S0 : State} (hk : Kept q S0) : Kept q (openGate S0) :=
  kept_mk (setSpeed_kept (acquireAll_kept (kept_mk (enterZone_kept (setMode_kept hk)) id))) id
theorem beginReading_kept {x0} {S1 : State} (hk : Kept q S1) : Kept q (beginReading x0 S1) := by
  unfold beginReading
  extract_lets -merge -underBinder +onlyGivenNames z0
  have h1 : Kept q z0 := setMode_kept hk
  try clear_value z0
  try extract_lets -merge -underBinder +onlyGivenNames z17
  try clear_value z17
  extract_lets -merge -underBinder +onlyGivenNames _ _ _ z18
  have h19 : Kept q z18 := kept_mk h1 id
  try clear_value z18
  exact kept_mk (setSpeed_kept (kept_mk (acquireAll_kept (kept_if (coldStartAll_kept h19) (enterZone_kept h19))) id)) id
theorem endMoves_kept {S0 : State} (hk : Kept q S0) : Kept q (endMoves S0) := by
  refine kept_foldl (fun _ _ h0 => ?_) hk
  refine kept_foldl (fun _ _ h1 => ?_) h0
  split
  · exact complete_kept h1
  · exact h1
theorem positionReached_kept {x0} {S1 : State} (hk : Kept q S1) : Kept q (positionReached x0 S1) := by
  refine kept_if ?_ (kept_if (beginReading_kept hk) hk)
  split
  · exact openGate_kept (dropJobs_kept hk)
  · exact openGate_kept (dropJobs_kept (rewind_kept hk))
  · exact kept_if (openGate_kept (chooseSpeed_kept hk)) (beginReading_kept hk)
  · exact beginReading_kept hk
  · exact beginReading_kept hk
  · exact endTapeWork_kept hk
  · exact beginStop_kept (endMoves_kept (kept_mk hk id))
  · exact beginStop_kept (endMoves_kept (kept_mk hk id))
theorem execPositionReached_kept {x0} {S1 : State} (hk : Kept q S1) : OutKept q (execPositionReached x0 S1) :=
  next_kept (positionReached_kept hk)
theorem readAheadRestart_kept {S0 : State} (hk : Kept q S0) : Kept q (readAheadRestart S0) :=
  kept_if (beginMove_kept (kept_mk hk id)) hk
theorem execReadAheadRestart_kept {S0 : State} (hk : Kept q S0) : OutKept q (execReadAheadRestart S0) :=
  next_kept (readAheadRestart_kept hk)
theorem measurePace_kept {x0} {S1 : State} (hk : Kept q S1) : Kept q (measurePace x0 S1) := kept_mk hk id
theorem closeRatio_kept {S0 : State} (hk : Kept q S0) : Kept q (closeRatio S0) := kept_mk hk id
theorem decideSpeed_kept {S0 : State} (hk : Kept q S0) : Kept q (decideSpeed S0) :=
  chooseSpeed_kept (judgeMarks_kept (kept_mk hk id))
theorem decideEffort_kept {x0} {S1 : State} (hk : Kept q S1) : Kept q (decideEffort x0 S1) :=
  kept_if (kept_mk hk id) (kept_if (kept_mk hk id) (kept_if (kept_mk hk id) (kept_mk hk id)))
theorem followRead_kept {S0 : State} (hk : Kept q S0) : Kept q (followRead S0) := kept_if (kept_mk hk id) hk
theorem paceWindowEnd_kept {x0 x1} {S2 : State} (hk : Kept q S2) : Kept q (paceWindowEnd x0 x1 S2) := by
  unfold paceWindowEnd
  split
  · exact hk
  · exact hk
  · exact hk
  · extract_lets -merge -underBinder +onlyGivenNames z0
    have h1 : Kept q z0 := kept_if (followRead_kept (publishCeilings_kept (measurePace_kept hk))) hk
    try clear_value z0
    exact takeShares_kept (decideEffort_kept (decideSpeed_kept (closeRatio_kept h1)))
theorem execPaceWindowEnd_kept {x0 x1} {S2 : State} (hk : Kept q S2) : OutKept q (execPaceWindowEnd x0 x1 S2) :=
  next_kept (paceWindowEnd_kept hk)

/-! ### RingServe -/

theorem State_modRdDs_kept {S0 : State} {x1 x2} (hk : Kept q S0) : Kept q (State.modRdDs S0 x1 x2) :=
  kept_mk hk id
theorem serveReq_kept {x0} {S1 : State} {x2} (hk : Kept q S1) : Kept q (serveReq x0 S1 x2) :=
  kept_foldl (fun _ _ h0 => sendTo_kept h0) hk
theorem serveAll_kept {S0 : State} (hk : Kept q S0) : Kept q (serveAll S0) := by
  refine kept_foldl (fun _ _ h0 => ?_) hk
  extract_lets -merge -underBinder +onlyGivenNames z1
  have h2 : ∀ y3, Kept q y3 → Kept q (z1 y3) := by
    intro y3 hy
    exact kept_mk hy id
  clear_value z1
  split
  · exact kept_if (State_modRdAt_kept (serveReq_kept (h2 _ h0))) h0
  · exact kept_if (serveReq_kept (h2 _ h0)) h0
theorem askRows_kept {x0 x1 x2 x3} {S4 : State} (hk : Kept q S4) : Kept q (askRows x0 x1 x2 x3 S4) :=
  kept_if hk (tellPos_kept (kept_mk hk id))
theorem requestStripe_kept {x0} {S1 : State} (hk : Kept q S1) : Kept q (requestStripe x0 S1) :=
  kept_if hk (kept_foldl (fun _ _ h0 => kept_if h0 (askRows_kept (kept_mk h0 id))) hk)
theorem noteRebuild_kept {x0} {S1 : State} (hk : Kept q S1) : Kept q (noteRebuild x0 S1) :=
  kept_if hk (raiseEv_kept (kept_mk hk id))
theorem loseRows_kept {x0 x1} {S2 : State} (hk : Kept q S2) : Kept q (loseRows x0 x1 S2) :=
  kept_foldl (fun _ _ h0 => State_modRdAt_kept h0) hk
theorem rebuildRow_kept {x0 x1} {S2 : State} (hk : Kept q S2) : Kept q (rebuildRow x0 x1 S2) := by
  unfold rebuildRow
  try extract_lets -merge -underBinder +onlyGivenNames z0
  try clear_value z0
  try extract_lets -merge -underBinder +onlyGivenNames z1
  try clear_value z1
  try extract_lets -merge -underBinder +onlyGivenNames z2
  try clear_value z2
  refine kept_if hk ?_
  try extract_lets -merge -underBinder +onlyGivenNames z3
  try clear_value z3
  try extract_lets -merge -underBinder +onlyGivenNames z4
  try clear_value z4
  try extract_lets -merge -underBinder +onlyGivenNames z5
  try clear_value z5
  refine kept_if (loseRows_kept hk) ?_
  refine kept_if (kept_foldl (fun _ _ h6 => kept_if h6 (askRows_kept h6)) hk) ?_
  try extract_lets -merge -underBinder +onlyGivenNames z8
  try clear_value z8
  split
  · exact loseRows_kept hk
  · exact kept_foldl (fun _ _ h9 => State_modRdAt_kept h9) (noteRebuild_kept hk)
theorem finishRemote_kept {x0 x1} {S2 : State} (hk : Kept q S2) : Kept q (finishRemote x0 x1 S2) := by
  unfold finishRemote
  split
  · exact hk
  · exact kept_if hk (State_modRdAt_kept hk)
theorem settleRow_kept {x0 x1} {S2 : State} (hk : Kept q S2) : Kept q (settleRow x0 x1 S2) :=
  pumpReads_kept (kept_foldl (fun _ _ h4 => kept_if h4 (finishRemote_kept h4)) (rebuildRow_kept hk))
theorem takeRow_kept {x0 x1 x2 x3} {S4 : State} (hk : Kept q S4) : Kept q (takeRow x0 x1 x2 x3 S4) := by
  unfold takeRow
  try extract_lets -merge -underBinder +onlyGivenNames z0
  try clear_value z0
  try extract_lets -merge -underBinder +onlyGivenNames z1
  try clear_value z1
  refine kept_if hk ?_
  extract_lets -merge -underBinder +onlyGivenNames z2
  have h3 : Kept q z2 := by
    unfold z2
    split
    · exact kept_if (State_modRdAt_kept hk) (kept_mk hk id)
    · exact kept_mk hk id
  try clear_value z2
  exact settleRow_kept h3
theorem rebuildOwn_kept {x0} {S1 : State} (hk : Kept q S1) : Kept q (rebuildOwn x0 S1) := by
  unfold rebuildOwn
  split
  · exact hk
  · exact finishRemote_kept (kept_foldl (fun _ _ h3 => rebuildRow_kept h3) (requestStripe_kept (kept_mk hk id)))
theorem loseReads_kept {S0 : State} (hk : Kept q S0) : Kept q (loseReads S0) :=
  kept_foldl (fun _ _ h1 => kept_if (kept_foldl (fun _ _ h2 => settleRow_kept h2) h1) h1) hk
theorem askAgain_kept {S0 : State} (hk : Kept q S0) : Kept q (askAgain S0) := by
  refine kept_foldl (fun _ _ h0 => ?_) hk
  try extract_lets -merge -underBinder +onlyGivenNames z1
  try clear_value z1
  split
  · exact tellPos_kept h0
  · exact h0

/-! ### ReadChan -/

theorem writeCommit_kept {x0 x1} {S2 : State} (hk : Kept q S2) : Kept q (writeCommit x0 x1 S2) :=
  kept_mk hk id
theorem execWriteSetCommit_kept {x0 x1} {S2 : State} (hk : Kept q S2) : OutKept q (execWriteSetCommit x0 x1 S2) :=
  next_kept (kept_if (writeCommit_kept hk) hk)
theorem readCommit_kept {x0 x1} {S2 : State} (hk : Kept q S2) : Kept q (readCommit x0 x1 S2) :=
  kept_mk hk id
theorem execReadSetCommit_kept {x0 x1} {S2 : State} (hk : Kept q S2) : OutKept q (execReadSetCommit x0 x1 S2) :=
  next_kept (kept_if (readCommit_kept hk) hk)
theorem writeCommitAll_kept {x0} {S1 : State} (hk : Kept q S1) : Kept q (writeCommitAll x0 S1) :=
  kept_foldl (fun _ _ h0 => writeCommit_kept h0) (kept_mk hk id)
theorem execWriteCommitAll_kept {x0} {S1 : State} (hk : Kept q S1) : OutKept q (execWriteCommitAll x0 S1) :=
  next_kept (kept_if (writeCommitAll_kept hk) hk)
theorem readCommitAll_kept {x0} {S1 : State} (hk : Kept q S1) : Kept q (readCommitAll x0 S1) :=
  kept_foldl (fun _ _ h0 => readCommit_kept h0) (kept_mk hk id)
theorem execReadCommitAll_kept {x0} {S1 : State} (hk : Kept q S1) : OutKept q (execReadCommitAll x0 S1) :=
  next_kept (kept_if (readCommitAll_kept hk) hk)
theorem frameBoundary_kept {x0 x1} {S2 : State} (hk : Kept q S2) : Kept q (frameBoundary x0 x1 S2) := by
  refine kept_if hk ?_
  split <;> exact kept_mk (kept_mk hk id) id
theorem execServoFrameBoundary_kept {x0 x1} {S2 : State} (hk : Kept q S2) : OutKept q (execServoFrameBoundary x0 x1 S2) :=
  next_kept (frameBoundary_kept hk)
theorem timingUpdate_kept {x0 x1 x2 x3 x4} {S5 : State} (hk : Kept q S5) : Kept q (timingUpdate x0 x1 x2 x3 x4 S5) :=
  kept_if hk (State_modRch_kept (kept_mk hk id))
theorem execTimingUpdate_kept {x0 x1 x2 x3 x4} {S5 : State} (hk : Kept q S5) : OutKept q (execTimingUpdate x0 x1 x2 x3 x4 S5) :=
  next_kept (timingUpdate_kept hk)
theorem muStep_kept {x0} {S1 : State} (hk : Kept q S1) : Kept q (muStep x0 S1) := State_modRch_kept hk
theorem execMuStep_kept {x0} {S1 : State} (hk : Kept q S1) : OutKept q (execMuStep x0 S1) :=
  next_kept (muStep_kept hk)
theorem noteHeader_kept {x0} {S1 : State} (hk : Kept q S1) : Kept q (noteHeader x0 S1) := by
  refine kept_if hk ?_
  try extract_lets -merge -underBinder +onlyGivenNames z0
  try clear_value z0
  refine kept_if (State_modRdDs_kept hk) ?_
  extract_lets -merge -underBinder +onlyGivenNames _ z1
  have h2 : Kept q z1 := settleReadBufs_kept (kept_mk hk id)
  try clear_value z1
  exact kept_if (requestStripe_kept h2) h2
theorem noteGap_kept {x0} {S1 : State} (hk : Kept q S1) : Kept q (noteGap x0 S1) := by
  unfold noteGap
  split
  · exact kept_foldl (fun _ _ h0 => requestStripe_kept (kept_mk h0 id)) hk
  · exact hk
theorem acceptDs_kept {x0} {S1 : State} (hk : Kept q S1) : Kept q (acceptDs x0 S1) := by
  unfold acceptDs
  try extract_lets -merge -underBinder +onlyGivenNames z0
  try clear_value z0
  try extract_lets -merge -underBinder +onlyGivenNames z1
  try clear_value z1
  extract_lets -merge -underBinder +onlyGivenNames z2
  have h3 : Kept q z2 := State_modRdDs_kept hk
  try clear_value z2
  split
  · refine kept_if ?_ (kept_mk (kept_if (noteGap_kept h3) h3) id)
    extract_lets -merge -underBinder +onlyGivenNames z8
    have h9 : Kept q z8 := by
      unfold z8
      split
      · split
        · exact releaseHandle_kept h3
        · exact h3
      · exact h3
    try clear_value z8
    exact kept_mk h9 id
  · exact kept_mk h3 id
theorem endReread_kept {x0} {S1 : State} (hk : Kept q S1) : Kept q (endReread x0 S1) := by
  unfold endReread
  split
  · exact kept_if (kept_if (kept_mk (kept_mk hk id) id) (kept_mk hk id)) hk
  · exact hk
theorem finishDs_kept {x0} {S1 : State} (hk : Kept q S1) : Kept q (finishDs x0 S1) := by
  unfold finishDs
  split
  · exact kept_if (pumpReads_kept (serveAll_kept (acceptDs_kept (endReread_kept (State_modRdDs_kept hk))))) hk
  · exact hk
theorem passHeader_kept {x0} {S1 : State} (hk : Kept q S1) : Kept q (passHeader x0 S1) :=
  kept_if (kept_mk hk id) (kept_mk hk id)
theorem placeRow_kept {x0 x1} {S2 : State} (hk : Kept q S2) : Kept q (placeRow x0 x1 S2) := by
  unfold placeRow
  extract_lets -merge -underBinder +onlyGivenNames z0
  have h1 : Kept q z0 := noteHeader_kept (passHeader_kept hk)
  try clear_value z0
  exact kept_if h1 (finishDs_kept (State_modRdDs_kept h1))
theorem noteMissing_kept {x0} {S1 : State} (hk : Kept q S1) : Kept q (noteMissing x0 S1) := by
  unfold noteMissing
  extract_lets -merge -underBinder +onlyGivenNames _ z0
  have h1 : Kept q z0 := kept_mk hk id
  try clear_value z0
  split
  · exact h1
  · exact kept_if (strike_kept (State_modRdDs_kept h1)) (State_modRdDs_kept h1)
theorem frameTier_kept {x0} {S1 : State} (hk : Kept q S1) : Kept q (frameTier x0 S1) :=
  kept_foldl (fun _ _ h1 => State_modRch_kept h1) hk
theorem decideTier_kept {S0 : State} (hk : Kept q S0) : Kept q (decideTier S0) := by
  unfold decideTier
  try extract_lets -merge -underBinder +onlyGivenNames z0
  try clear_value z0
  try extract_lets -merge -underBinder +onlyGivenNames z1
  try clear_value z1
  try extract_lets -merge -underBinder +onlyGivenNames z2
  try clear_value z2
  try extract_lets -merge -underBinder +onlyGivenNames z3
  try clear_value z3
  try extract_lets -merge -underBinder +onlyGivenNames z4
  try clear_value z4
  extract_lets -merge -underBinder +onlyGivenNames z5
  have h6 : ∀ y7, Kept q y7 → Kept q (z5 y7) := by
    intro y7 hy
    exact kept_mk hy id
  clear_value z5
  refine kept_if (h6 _ (frameTier_kept (kept_mk hk id))) ?_
  refine kept_if (h6 _ hk) ?_
  refine kept_if (kept_if (kept_mk (beginStop_kept (h6 _ (kept_mk hk id))) id) (h6 _ (kept_mk hk id))) ?_
  try extract_lets -merge -underBinder +onlyGivenNames z12
  try clear_value z12
  extract_lets -merge -underBinder +onlyGivenNames _ z13
  have h14 : Kept q z13 := h6 _ (frameTier_kept (kept_mk hk id))
  try clear_value z13
  exact kept_if (reacquire_kept h14) h14
theorem decideSeparator_kept {S0 : State} (hk : Kept q S0) : Kept q (decideSeparator S0) :=
  kept_mk (kept_foldl (fun _ _ h4 => State_modRch_kept h4) hk) id
theorem closeWindow_kept {x0 x1 x2} {S3 : State} (hk : Kept q S3) : Kept q (closeWindow x0 x1 x2 S3) :=
  kept_if (kept_if (decideSeparator_kept (kept_mk hk id)) (decideTier_kept (kept_mk hk id))) (kept_mk hk id)
theorem acquireWindow_kept {x0 x1} {S2 : State} (hk : Kept q S2) : Kept q (acquireWindow x0 x1 S2) :=
  kept_if hk (closeWindow_kept (State_modRch_kept hk))
theorem trackWindow_kept {x0} {S1 : State} (hk : Kept q S1) : Kept q (trackWindow x0 S1) :=
  kept_if hk (closeWindow_kept hk)
theorem syncWindow_kept {x0 x1} {S2 : State} (hk : Kept q S2) : Kept q (syncWindow x0 x1 S2) := by
  refine kept_if hk ?_
  split
  · exact kept_if (noteMissing_kept hk) hk
  · exact acquireWindow_kept hk
  · exact trackWindow_kept hk
  · exact trackWindow_kept hk
theorem execSyncWindowClose_kept {x0 x1} {S2 : State} (hk : Kept q S2) : OutKept q (execSyncWindowClose x0 x1 S2) :=
  next_kept (syncWindow_kept hk)
theorem offer_kept {x0} {S1 : State} (hk : Kept q S1) : Kept q (offer x0 S1) :=
  kept_mk (State_modRch_kept hk) id
theorem resyncWindow_kept {x0 x1} {S2 : State} (hk : Kept q S2) : Kept q (resyncWindow x0 x1 S2) :=
  kept_if hk (kept_if (offer_kept (State_modRch_kept hk)) (State_modRch_kept hk))
theorem execResyncWindowClose_kept {x0 x1} {S2 : State} (hk : Kept q S2) : OutKept q (execResyncWindowClose x0 x1 S2) :=
  next_kept (resyncWindow_kept hk)
theorem State_modJob_kept {S0 : State} {x1 x2 x3} (hk : Kept q S0) : Kept q (State.modJob S0 x1 x2 x3) :=
  State_modRch_kept hk
theorem assignCores_kept {S0 : State} (hk : Kept q S0) : Kept q (assignCores S0) := by
  refine kept_foldl (fun _ _ h0 => ?_) hk
  split
  · exact kept_mk h0 id
  · exact h0
theorem slipEvent_kept {x0 x1 x2 x3 x4} {S5 : State} (hk : Kept q S5) : Kept q (slipEvent x0 x1 x2 x3 x4 S5) :=
  raiseEv_kept hk
theorem endCwo_kept {x0 x1 x2} {S3 : State} (hk : Kept q S3) : Kept q (endCwo x0 x1 x2 S3) := by
  unfold endCwo
  try extract_lets -merge -underBinder +onlyGivenNames z0
  try clear_value z0
  extract_lets -merge -underBinder +onlyGivenNames z1
  have h2 : Kept q z1 := kept_foldl (fun _ _ h15 => slipEvent_kept h15) hk
  try clear_value z1
  extract_lets -merge -underBinder +onlyGivenNames z16
  have h17 : Kept q z16 := by
    unfold z16
    split
    · exact kept_if h2 (slipEvent_kept (kept_mk (State_modRch_kept h2) id))
    · exact h2
  try clear_value z16
  exact State_modRch_kept h17
theorem settleJob_kept {x0 x1} {S2 : State} (hk : Kept q S2) : Kept q (settleJob x0 x1 S2) := by
  unfold settleJob
  split
  · exact hk
  · split
    · exact hk
    · exact endCwo_kept (kept_if (noteMissing_kept hk) hk)
    · extract_lets -merge -underBinder +onlyGivenNames _ z0
      have h1 : Kept q z0 := kept_mk hk id
      try clear_value z0
      split
      · exact endCwo_kept h1
      · exact kept_if (placeRow_kept (endCwo_kept h1)) (endCwo_kept h1)
theorem headerDone_kept {x0} {S1 : State} (hk : Kept q S1) : Kept q (headerDone x0 S1) := by
  unfold headerDone
  split
  · exact hk
  · try extract_lets -merge -underBinder +onlyGivenNames z0
    try clear_value z0
    refine kept_if hk ?_
    refine kept_if (settleJob_kept (State_modJob_kept hk)) ?_
    try extract_lets -merge -underBinder +onlyGivenNames z1
    try clear_value z1
    extract_lets -merge -underBinder +onlyGivenNames z2
    have h3 : Kept q z2 := kept_if hk (State_modRch_kept hk)
    try clear_value z2
    split
    · exact assignCores_kept (kept_mk (State_modJob_kept h3) id)
    · exact settleJob_kept (State_modJob_kept h3)
theorem execHeaderDecodeDone_kept {x0} {S1 : State} (hk : Kept q S1) : OutKept q (execHeaderDecodeDone x0 S1) :=
  next_kept (headerDone_kept hk)
theorem freeCore_kept {x0} {S1 : State} (hk : Kept q S1) : Kept q (freeCore x0 S1) :=
  assignCores_kept (kept_mk hk id)
theorem endAttempt_kept {x0 x1 x2} {s : State} (hk : Kept q s) : Kept q (endAttempt x0 x1 x2 s) := by
  unfold endAttempt
  extract_lets c s1
  have h1 : Kept q s1 := State_modJob_kept hk
  clear_value s1 c
  exact settleJob_kept (freeCore_kept h1)
theorem c1Done_kept {x0 x1} {S2 : State} (hk : Kept q S2) : Kept q (c1Done x0 x1 S2) := by
  unfold c1Done
  split
  · exact hk
  · try extract_lets -merge -underBinder +onlyGivenNames z0
    try clear_value z0
    split
    · exact freeCore_kept hk
    · split
      · exact endAttempt_kept hk
      · refine kept_if (endAttempt_kept (kept_mk hk id)) ?_
        try extract_lets -merge -underBinder +onlyGivenNames z1
        try clear_value z1
        try extract_lets -merge -underBinder +onlyGivenNames z2
        try clear_value z2
        try extract_lets -merge -underBinder +onlyGivenNames z3
        try clear_value z3
        extract_lets -merge -underBinder +onlyGivenNames z4
        have h5 : Kept q z4 := strike_kept (raiseResend_kept hk)
        try clear_value z4
        exact kept_if (endAttempt_kept h5) (kept_if h5 (kept_mk h5 id))
theorem execC1DecodeDone_kept {x0 x1} {S2 : State} (hk : Kept q S2) : OutKept q (execC1DecodeDone x0 x1 S2) :=
  next_kept (c1Done_kept hk)
theorem sampleOverwrite_kept {x0} {S1 : State} (hk : Kept q S1) : Kept q (sampleOverwrite x0 S1) :=
  kept_foldl (fun _ _ h0 => kept_if h0 (settleJob_kept (State_modJob_kept (kept_mk h0 id)))) hk
theorem execSampleOverwrite_kept {x0} {S1 : State} (hk : Kept q S1) : OutKept q (execSampleOverwrite x0 S1) :=
  next_kept (sampleOverwrite_kept hk)
theorem ctLost_kept {x0} {S1 : State} (hk : Kept q S1) : Kept q (ctLost x0 S1) :=
  kept_if hk (kept_if (raiseEv_kept (kept_mk hk id)) (kept_if (gateDrop_kept (kept_mk (kept_mk (raiseEv_kept (kept_mk hk id)) id) id)) (kept_mk (raiseEv_kept (kept_mk hk id)) id)))
theorem execCtLost_kept {x0} {S1 : State} (hk : Kept q S1) : OutKept q (execCtLost x0 S1) :=
  next_kept (ctLost_kept hk)
theorem ctRegained_kept {x0} {S1 : State} (hk : Kept q S1) : Kept q (ctRegained x0 S1) :=
  kept_mk (kept_if (reacquire_kept (kept_mk hk id)) (kept_mk hk id)) id
theorem execCtRegained_kept {x0} {S1 : State} (hk : Kept q S1) : OutKept q (execCtRegained x0 S1) :=
  next_kept (ctRegained_kept hk)
theorem holdoverEnd_kept {S0 : State} (hk : Kept q S0) : Kept q (holdoverEnd S0) :=
  kept_if hk (kept_mk hk id)
theorem execHoldoverEnd_kept {S0 : State} (hk : Kept q S0) : OutKept q (execHoldoverEnd S0) :=
  next_kept (holdoverEnd_kept hk)
theorem synthLock_kept {x0} {S1 : State} (hk : Kept q S1) : Kept q (synthLock x0 S1) :=
  kept_if (acquireAll_kept (coldStartAll_kept (kept_mk hk id))) hk
theorem execSynthLock_kept {x0} {S1 : State} (hk : Kept q S1) : OutKept q (execSynthLock x0 S1) :=
  next_kept (synthLock_kept hk)

/-! ### Recovery -/

theorem beginReread_kept {x0 x1} {S2 : State} (hk : Kept q S2) : Kept q (beginReread x0 x1 S2) :=
  kept_if (kept_mk (beginStop_kept (kept_mk (State_modRdDs_kept hk) id)) id) (beginMove_kept (kept_mk (State_modRdDs_kept hk) id))
theorem readBehind_kept {x0} {S1 : State} (hk : Kept q S1) : Kept q (readBehind x0 S1) :=
  kept_if (kept_mk (beginStop_kept (kept_mk hk id)) id) (beginMove_kept (kept_mk hk id))
theorem loseDs_kept {x0} {S1 : State} (hk : Kept q S1) : Kept q (loseDs x0 S1) :=
  pumpReads_kept (serveAll_kept (State_modRdDs_kept hk))
theorem recoverLast_kept {x0} {S1 : State} (hk : Kept q S1) : Kept q (recoverLast x0 S1) := by
  unfold recoverLast
  split
  · exact hk
  · try extract_lets -merge -underBinder +onlyGivenNames z0
    try clear_value z0
    extract_lets -merge -underBinder +onlyGivenNames z1
    have h2 : Kept q z1 := State_modRdDs_kept hk
    try clear_value z1
    refine kept_if (finishDs_kept h2) ?_
    split
    · exact endReread_kept h2
    · exact readBehind_kept (endReread_kept h2)
    · exact kept_if (pumpReads_kept (rebuildOwn_kept (endReread_kept h2))) (loseDs_kept (endReread_kept h2))
theorem datasetRecovery_kept {x0} {S1 : State} (hk : Kept q S1) : Kept q (datasetRecovery x0 S1) := by
  refine kept_if hk ?_
  split
  · exact hk
  · refine kept_if hk ?_
    extract_lets -merge -underBinder +onlyGivenNames z0
    have h1 : Kept q z0 := erasePoison_kept hk
    try clear_value z0
    extract_lets -merge -underBinder +onlyGivenNames z4
    have h5 : Kept q z4 := State_modRdDs_kept h1
    try clear_value z4
    split
    · exact h5
    · exact kept_if (finishDs_kept h5) (kept_if (beginReread_kept h5) (recoverLast_kept h5))
theorem execDatasetRecovery_kept {x0} {S1 : State} (hk : Kept q S1) : OutKept q (execDatasetRecovery x0 S1) :=
  next_kept (datasetRecovery_kept hk)

/-! ### RingGroup -/

theorem sendJoins_kept {S0 : State} (hk : Kept q S0) : Kept q (sendJoins S0) :=
  kept_if (kept_foldl (fun _ _ h0 => tellPos_kept h0) (kept_mk hk id)) hk
theorem sendAnswer_kept {S0 : State} (hk : Kept q S0) : Kept q (sendAnswer S0) :=
  kept_if hk (tellPos_kept hk)
theorem formHere_kept {x0 x1 x2} {S3 : State} (hk : Kept q S3) : Kept q (formHere x0 x1 x2 S3) :=
  powerFor_kept (writeCm_kept (kept_mk hk id))
theorem tryForm_kept {S0 : State} (hk : Kept q S0) : Kept q (tryForm S0) := by
  unfold tryForm
  try extract_lets -merge -underBinder +onlyGivenNames z0
  try clear_value z0
  try extract_lets -merge -underBinder +onlyGivenNames z1
  try clear_value z1
  split
  · exact hk
  · exact kept_if hk (formHere_kept (tellAll_kept (kept_foldl (fun _ _ h7 => tellAll_kept h7) hk)))
theorem onJoin_kept {S0 : State} (hk : Kept q S0) : Kept q (onJoin S0) :=
  kept_if (sendAnswer_kept (kept_mk hk id)) (sendAnswer_kept (kept_mk hk id))
theorem onJoinAck_kept {x0} {S1 : State} (hk : Kept q S1) : Kept q (onJoinAck x0 S1) :=
  kept_if hk (tryForm_kept (kept_mk hk id))
theorem onSerial_kept {x0} {S1 : State} (hk : Kept q S1) : Kept q (onSerial x0 S1) :=
  kept_if hk (kept_mk hk id)
theorem onStart_kept {x0} {S1 : State} (hk : Kept q S1) : Kept q (onStart x0 S1) := by
  unfold onStart
  split
  · exact hk
  · exact kept_if (formHere_kept hk) hk
theorem raitSet_kept {x0} {S1 : State} (hk : Kept q S1) : Kept q (raitSet x0 S1) := by
  refine kept_if (mEnd_kept hk) ?_
  try extract_lets -merge -underBinder +onlyGivenNames z0
  try clear_value z0
  split
  · exact mEnd_kept hk
  · extract_lets -merge -underBinder +onlyGivenNames _ z1
    have h2 : Kept q z1 := powerFor_kept (kept_mk hk id)
    try clear_value z1
    exact mOk_kept (kept_if (sendJoins_kept h2) (sendAnswer_kept h2))
theorem execRaitGroupSet_kept {x0} {S1 : State} (hk : Kept q S1) : OutKept q (execRaitGroupSet x0 S1) :=
  next_kept (subCmd_kept (fun _ _ h0 => raitSet_kept h0) hk)
theorem raitClear_kept {x0} {S1 : State} (hk : Kept q S1) : Kept q (raitClear x0 S1) :=
  kept_if (mEnd_kept hk) (mOk_kept (settleWaits_kept (kept_if (failGroup_kept (tellAll_kept hk)) hk)))
theorem execRaitGroupClear_kept {x0} {S1 : State} (hk : Kept q S1) : OutKept q (execRaitGroupClear x0 S1) :=
  next_kept (subCmd_kept (fun _ _ h0 => raitClear_kept h0) hk)
theorem tellFail_kept {x0} {S1 : State} (hk : Kept q S1) : Kept q (tellFail x0 S1) :=
  settleWaits_kept (failGroup_kept (tellAll_kept hk))
theorem pumpPorts_kept {S0 : State} (hk : Kept q S0) : Kept q (pumpPorts S0) :=
  pumpPort_kept (pumpPort_kept hk)
theorem losePosition_kept {x0 x1} {S2 : State} (hk : Kept q S2) : Kept q (losePosition x0 x1 S2) :=
  kept_if hk (kept_if (tellFail_kept (tellAll_kept (raiseEv_kept (kept_mk hk id)))) (settleWaits_kept (pumpPorts_kept (groupCommit_kept (loseReads_kept (tellAll_kept (raiseEv_kept (kept_mk hk id))))))))
theorem routeChanged_kept {S0 : State} (hk : Kept q S0) : Kept q (routeChanged S0) := by
  refine kept_if hk ?_
  refine kept_if ?_ (kept_if hk (settleWaits_kept (failGroup_kept hk)))
  try extract_lets -merge -underBinder +onlyGivenNames z0
  try clear_value z0
  extract_lets -merge -underBinder +onlyGivenNames z1
  have h2 : Kept q z1 := kept_foldl (fun _ _ h5 => losePosition_kept h5) hk
  try clear_value z1
  exact kept_if (askAgain_kept (kept_foldl (fun _ _ h6 => kept_if h6 (sendPayload_kept h6)) h2)) h2
theorem askStripeBuffer_kept {S0 : State} (hk : Kept q S0) : Kept q (askStripeBuffer S0) :=
  kept_if (settleGrants_kept (onBehalf_kept (fun _ h0 => panAlloc_kept h0) hk)) hk
theorem placeData_kept {x0} {S1 : State} (hk : Kept q S1) : Kept q (placeData x0 S1) :=
  kept_if (kept_if (tellPos_kept hk) hk) (settleXoff_kept (settleStripes_kept (askStripeBuffer_kept (kept_mk (kept_mk hk id) id))))
theorem dataRow_kept {x0 x1} {S2 : State} (hk : Kept q S2) : Kept q (dataRow x0 x1 S2) := by
  unfold dataRow
  extract_lets -merge -underBinder +onlyGivenNames z0
  have h1 : Kept q z0 := kept_if hk (forwardFrame_kept hk)
  try clear_value z0
  exact kept_if (placeData_kept h1) h1
theorem execDataRow_kept {x0 x1 x2} {S3 : State} (hk : Kept q S3) : OutKept q (execDataRow x0 x1 x2 S3) :=
  next_kept (receive_kept (fun _ h0 => dataRow_kept h0) hk)
theorem onReadRow_kept {x0} {S1 : State} (hk : Kept q S1) : Kept q (onReadRow x0 S1) :=
  kept_if (takeRow_kept hk) hk
theorem execReadRow_kept {x0 x1 x2} {S3 : State} (hk : Kept q S3) : OutKept q (execReadRow x0 x1 x2 S3) :=
  next_kept (receive_kept (fun _ h0 => routed_kept (fun _ h1 => onReadRow_kept h1) h0) hk)
theorem onReadReq_kept {x0} {S1 : State} (hk : Kept q S1) : Kept q (onReadReq x0 S1) := by
  unfold onReadReq
  try extract_lets -merge -underBinder +onlyGivenNames z0
  try clear_value z0
  try extract_lets -merge -underBinder +onlyGivenNames z1
  try clear_value z1
  try extract_lets -merge -underBinder +onlyGivenNames z2
  try clear_value z2
  refine kept_if hk ?_
  extract_lets -merge -underBinder +onlyGivenNames _ _ z3
  have h4 : Kept q z3 := kept_mk hk id
  try clear_value z3
  exact serveAll_kept (kept_if h4 (beginMove_kept (kept_mk (dropReadBufs_kept h4) id)))
theorem execReadReq_kept {x0 x1 x2} {S3 : State} (hk : Kept q S3) : OutKept q (execReadReq x0 x1 x2 S3) :=
  next_kept (receive_kept (fun _ h0 => routed_kept (fun _ h1 => ofGroup_kept (fun _ h2 => onReadReq_kept h2) h1) h0) hk)
theorem readRowTimeout_kept {x0 x1 x2} {S3 : State} (hk : Kept q S3) : Kept q (readRowTimeout x0 x1 x2 S3) :=
  kept_if (takeRow_kept hk) hk
theorem execReadRowTimeout_kept {x0 x1 x2} {S3 : State} (hk : Kept q S3) : OutKept q (execReadRowTimeout x0 x1 x2 S3) :=
  next_kept (readRowTimeout_kept hk)
theorem groupRow_kept {x0 x1 x2 x3 x4} {S5 : State} (hx4 : ∀ s, Kept q s → Kept q (x4 s)) (hk : Kept q S5) : Kept q (groupRow x0 x1 x2 x3 x4 S5) :=
  receive_kept (fun _ h0 => routed_kept (fun _ h1 => ofGroup_kept (fun _ h2 => hx4 _ h2) h1) h0) hk
theorem execJoin_kept {x0 x1 x2} {S3 : State} (hk : Kept q S3) : OutKept q (execJoin x0 x1 x2 S3) :=
  next_kept (groupRow_kept (fun _ h0 => onJoin_kept h0) hk)
theorem execJoinAck_kept {x0 x1 x2} {S3 : State} (hk : Kept q S3) : OutKept q (execJoinAck x0 x1 x2 S3) :=
  next_kept (groupRow_kept (fun _ h0 => onJoinAck_kept h0) hk)
theorem execGroupSerial_kept {x0 x1 x2} {S3 : State} (hk : Kept q S3) : OutKept q (execGroupSerial x0 x1 x2 S3) :=
  next_kept (groupRow_kept (fun _ h0 => onSerial_kept h0) hk)
theorem execGroupStart_kept {x0 x1 x2} {S3 : State} (hk : Kept q S3) : OutKept q (execGroupStart x0 x1 x2 S3) :=
  next_kept (groupRow_kept (fun _ h0 => onStart_kept h0) hk)
theorem onPayloadOk_kept {x0} {S1 : State} (hk : Kept q S1) : Kept q (onPayloadOk x0 S1) :=
  kept_if hk (kept_mk hk id)
theorem execPayloadOk_kept {x0 x1 x2} {S3 : State} (hk : Kept q S3) : OutKept q (execPayloadOk x0 x1 x2 S3) :=
  next_kept (groupRow_kept (fun _ h0 => onPayloadOk_kept h0) hk)
theorem onStripeCommit_kept {x0} {S1 : State} (hk : Kept q S1) : Kept q (onStripeCommit x0 S1) :=
  kept_if hk (settleWaits_kept (groupCommit_kept (kept_mk hk id)))
theorem execStripeCommit_kept {x0 x1 x2} {S3 : State} (hk : Kept q S3) : OutKept q (execStripeCommit x0 x1 x2 S3) :=
  next_kept (groupRow_kept (fun _ h0 => onStripeCommit_kept h0) hk)
theorem onXoff_kept {x0} {S1 : State} (hk : Kept q S1) : Kept q (onXoff x0 S1) := kept_if (kept_mk hk id) hk
theorem execXoff_kept {x0 x1 x2} {S3 : State} (hk : Kept q S3) : OutKept q (execXoff x0 x1 x2 S3) :=
  next_kept (groupRow_kept (fun _ h0 => onXoff_kept h0) hk)
theorem onXon_kept {x0} {S1 : State} (hk : Kept q S1) : Kept q (onXon x0 S1) :=
  kept_if (pumpPorts_kept (kept_mk hk id)) hk
theorem execXon_kept {x0 x1 x2} {S3 : State} (hk : Kept q S3) : OutKept q (execXon x0 x1 x2 S3) :=
  next_kept (groupRow_kept (fun _ h0 => onXon_kept h0) hk)
theorem onSessionEnd_kept {x0} {S1 : State} (hk : Kept q S1) : Kept q (onSessionEnd x0 S1) :=
  kept_if hk (settleStripes_kept (kept_mk hk id))
theorem execSessionEnd_kept {x0 x1 x2} {S3 : State} (hk : Kept q S3) : OutKept q (execSessionEnd x0 x1 x2 S3) :=
  next_kept (groupRow_kept (fun _ h0 => onSessionEnd_kept h0) hk)
theorem onPositionLost_kept {x0} {S1 : State} (hk : Kept q S1) : Kept q (onPositionLost x0 S1) :=
  kept_if (losePosition_kept hk) (kept_mk hk id)
theorem execPositionLost_kept {x0 x1 x2} {S3 : State} (hk : Kept q S3) : OutKept q (execPositionLost x0 x1 x2 S3) :=
  next_kept (groupRow_kept (fun _ h0 => onPositionLost_kept h0) hk)
theorem onGroupFail_kept {S0 : State} (hk : Kept q S0) : Kept q (onGroupFail S0) :=
  settleWaits_kept (failGroup_kept hk)
theorem execGroupFail_kept {x0 x1 x2} {S3 : State} (hk : Kept q S3) : OutKept q (execGroupFail x0 x1 x2 S3) :=
  next_kept (groupRow_kept (fun _ h0 => onGroupFail_kept h0) hk)
theorem confirmTimeout_kept {x0 x1} {S2 : State} (hk : Kept q S2) : Kept q (confirmTimeout x0 x1 S2) :=
  kept_if (losePosition_kept hk) hk
theorem execPayloadConfirmTimeout_kept {x0 x1} {S2 : State} (hk : Kept q S2) : OutKept q (execPayloadConfirmTimeout x0 x1 S2) :=
  next_kept (confirmTimeout_kept hk)

/-! ### RingAssembly -/

theorem noteMember_kept {x0} {S1 : State} (hk : Kept q S1) : Kept q (noteMember x0 S1) := kept_mk hk id
theorem announce_kept {x0} {S1 : State} (hk : Kept q S1) : Kept q (announce x0 S1) :=
  enqueueFrame_kept (enqueueFrame_kept (noteMember_kept hk))
theorem standAlone_kept {S0 : State} (hk : Kept q S0) : Kept q (standAlone S0) :=
  noteMember_kept (kept_mk hk id)
theorem beginFlood_kept {S0 : State} (hk : Kept q S0) : Kept q (beginFlood S0) :=
  kept_if (enqueueFrame_kept (enqueueFrame_kept (kept_mk hk id))) (raiseEv_kept (standAlone_kept (kept_mk hk id)))
theorem clearAssembly_kept {S0 : State} (hk : Kept q S0) : Kept q (clearAssembly S0) := kept_mk hk id
theorem restartFlood_kept {S0 : State} (hk : Kept q S0) : Kept q (restartFlood S0) :=
  beginFlood_kept (clearAssembly_kept hk)
theorem measureHop_kept {S0 : State} (hk : Kept q S0) : SndKept q (measureHop S0) := snd_mk (kept_mk hk id)
theorem sendStep3_kept {x0} {S1 : State} (hk : Kept q S1) : Kept q (sendStep3 x0 S1) :=
  kept_if (enqueueFrame_kept (State_modPort_kept hk)) hk
theorem startAttest_kept {x0} {S1 : State} (hk : Kept q S1) : Kept q (startAttest x0 S1) :=
  kept_if hk (sendStep3_kept (enqueueFrame_kept (enqueueFrame_kept (State_modPort_kept (drawn_kept hk)))))
theorem attestAll_kept {S0 : State} (hk : Kept q S0) : Kept q (attestAll S0) :=
  startAttest_kept (startAttest_kept (kept_mk hk id))
theorem failAttest_kept {x0} {S1 : State} (hk : Kept q S1) : Kept q (failAttest x0 S1) :=
  restartFlood_kept (raiseEv_kept (State_modPort_kept hk))
theorem onAttest_kept {x0 x1} {S2 : State} (hk : Kept q S2) : Kept q (onAttest x0 x1 S2) :=
  kept_if (failAttest_kept hk) (kept_if (State_modPort_kept hk) (kept_if (sendStep3_kept (State_modPort_kept hk)) (kept_if (State_modPort_kept hk) (failAttest_kept hk))))
theorem execAttest_kept {x0 x1 x2} {S3 : State} (hk : Kept q S3) : OutKept q (execAttest x0 x1 x2 S3) :=
  next_kept (receive_kept (fun _ h0 => onAttest_kept h0) hk)
theorem beginTokens_kept {S0 : State} (hk : Kept q S0) : Kept q (beginTokens S0) :=
  kept_if (enqueueFrame_kept (announce_kept (snd_snd (measureHop_kept (kept_mk hk id))))) (enqueueFrame_kept (announce_kept (kept_mk (kept_mk hk id) id)))
theorem takeAddress_kept {x0 x1} {S2 : State} (hk : Kept q S2) : SndKept q (takeAddress x0 x1 S2) :=
  snd_mk (kept_mk hk id)
theorem excludeHighest_kept {S0 : State} (hk : Kept q S0) : Kept q (excludeHighest S0) := by
  unfold excludeHighest
  split
  · exact hk
  · exact kept_mk (enqueueFrame_kept (enqueueFrame_kept (noteMember_kept hk))) id
theorem fitBudget_kept {x0} {s : State} (hk : Kept q s) : Kept q (fitBudget x0 s) := by
  induction x0 generalizing s with
  | zero => exact hk
  | succ n ih => exact kept_if (kept_mk hk id) (ih (excludeHighest_kept hk))
theorem tokenHome_kept {x0} {S1 : State} (hk : Kept q S1) : Kept q (tokenHome x0 S1) := by
  unfold tokenHome
  try extract_lets -merge -underBinder +onlyGivenNames z0
  try clear_value z0
  extract_lets -merge -underBinder +onlyGivenNames _ z1
  have h2 : Kept q z1 := kept_mk hk id
  try clear_value z1
  exact kept_if (attestAll_kept h2) (attestAll_kept (fitBudget_kept (kept_if h2 (kept_mk (State_modPort_kept (enqueueFrame_kept h2)) id))))
theorem onToken_kept {x0 x1} {S2 : State} (hk : Kept q S2) : Kept q (onToken x0 x1 S2) := by
  unfold onToken
  try extract_lets -merge -underBinder +onlyGivenNames z0
  try clear_value z0
  refine kept_if hk ?_
  refine kept_if (kept_if (enqueueFrame_kept (kept_mk hk id)) (tokenHome_kept hk)) ?_
  refine kept_if ?_ (enqueueFrame_kept (kept_mk hk id))
  refine kept_if (kept_if (enqueueFrame_kept (attestAll_kept (announce_kept (snd_snd (measureHop_kept (snd_snd (takeAddress_kept hk))))))) (enqueueFrame_kept (attestAll_kept (announce_kept (kept_mk (snd_snd (takeAddress_kept hk)) id))))) ?_
  extract_lets -merge -underBinder +onlyGivenNames z11
  have h12 : SndKept q z11 := takeAddress_kept hk
  try clear_value z11
  extract_lets -merge -underBinder +onlyGivenNames z31
  have h32 : SndKept q z31 := measureHop_kept (snd_snd h12)
  try clear_value z31
  extract_lets -merge -underBinder +onlyGivenNames _ _ z41
  have h42 : Kept q z41 := attestAll_kept (announce_kept (kept_mk (snd_snd h32) id))
  try clear_value z41
  exact kept_if (enqueueFrame_kept h42) (enqueueFrame_kept h42)
theorem execToken_kept {x0 x1 x2} {S3 : State} (hk : Kept q S3) : OutKept q (execToken x0 x1 x2 S3) :=
  next_kept (receive_kept (fun _ h0 => onToken_kept h0) hk)
theorem noteBack_kept {x0} {S1 : State} (hk : Kept q S1) : Kept q (noteBack x0 S1) :=
  kept_if (beginTokens_kept (kept_mk hk id)) (kept_mk hk id)
theorem flood_kept {x0 x1} {S2 : State} (hk : Kept q S2) : Kept q (flood x0 x1 S2) :=
  kept_if (noteBack_kept hk) (kept_if (enqueueFrame_kept hk) (kept_if hk (kept_if (enqueueFrame_kept (kept_mk hk id)) (enqueueFrame_kept (kept_mk hk id)))))
theorem onBeacon_kept {x0 x1} {S2 : State} (hk : Kept q S2) : Kept q (onBeacon x0 x1 S2) :=
  kept_if (failAttest_kept hk) (flood_kept (kept_if (restartFlood_kept hk) hk))
theorem execBeacon_kept {x0 x1 x2} {S3 : State} (hk : Kept q S3) : OutKept q (execBeacon x0 x1 x2 S3) :=
  next_kept (receive_kept (fun _ h0 => onBeacon_kept h0) hk)
theorem onRoster_kept {x0} {S1 : State} (hk : Kept q S1) : Kept q (onRoster x0 S1) :=
  kept_if (kept_mk (noteMember_kept hk) id) (noteMember_kept hk)
theorem execRoster_kept {x0 x1 x2} {S3 : State} (hk : Kept q S3) : OutKept q (execRoster x0 x1 x2 S3) :=
  next_kept (receive_kept (fun _ h0 => routed_kept (fun _ h1 => unlessStrange_kept (fun _ h2 => onRoster_kept h2) h1) h0) hk)
theorem cutBetween_kept {x0 x1 x2} {S3 : State} (hk : Kept q S3) : Kept q (cutBetween x0 x1 x2 S3) :=
  kept_if (kept_mk hk id) (kept_mk hk id)
theorem onTopology_kept {x0} {S1 : State} (hk : Kept q S1) : Kept q (onTopology x0 S1) := by
  unfold onTopology
  try extract_lets -merge -underBinder +onlyGivenNames z0
  try clear_value z0
  try extract_lets -merge -underBinder +onlyGivenNames z1
  try clear_value z1
  try extract_lets -merge -underBinder +onlyGivenNames z2
  try clear_value z2
  try extract_lets -merge -underBinder +onlyGivenNames z3
  try clear_value z3
  extract_lets -merge -underBinder +onlyGivenNames z4
  have h5 : Kept q z4 := kept_if (State_modPort_kept hk) hk
  try clear_value z4
  exact kept_if (routeChanged_kept (cutBetween_kept h5)) (kept_mk h5 id)
theorem execTopology_kept {x0 x1 x2} {S3 : State} (hk : Kept q S3) : OutKept q (execTopology x0 x1 x2 S3) :=
  next_kept (receive_kept (fun _ h0 => routed_kept (fun _ h1 => unlessStrange_kept (fun _ h2 => onTopology_kept h2) h1) h0) hk)
theorem linkGone_kept {x0} {S1 : State} (hk : Kept q S1) : Kept q (linkGone x0 S1) :=
  kept_if hk (kept_if (State_modPort_kept hk) (kept_if (kept_if (State_modPort_kept hk) (beginFlood_kept (State_modPort_kept hk))) (kept_if (restartFlood_kept (State_modPort_kept hk)) (kept_if (State_modPort_kept hk) (routeChanged_kept (sendAll_kept (cutBetween_kept (State_modPort_kept hk))))))))
theorem execLinkDown_kept {x0} {S1 : State} (hk : Kept q S1) : OutKept q (execLinkDown x0 S1) :=
  next_kept (linkGone_kept hk)
theorem goBack_kept {x0 x1} {S2 : State} (hk : Kept q S2) : Kept q (goBack x0 x1 S2) := by
  unfold goBack
  split
  · exact hk
  · exact kept_if (linkGone_kept hk) (resendFrom_kept hk)
theorem onAck_kept {x0 x1} {S2 : State} (hk : Kept q S2) : Kept q (onAck x0 x1 S2) :=
  pumpPort_kept (State_modPort_kept hk)
theorem execAck_kept {x0 x1 x2} {S3 : State} (hk : Kept q S3) : OutKept q (execAck x0 x1 x2 S3) :=
  next_kept (receiveAck_kept (fun _ h0 => onAck_kept h0) hk)
theorem onNak_kept {x0 x1} {S2 : State} (hk : Kept q S2) : Kept q (onNak x0 x1 S2) :=
  pumpPort_kept (goBack_kept (State_modPort_kept hk))
theorem execNak_kept {x0 x1 x2} {S3 : State} (hk : Kept q S3) : OutKept q (execNak x0 x1 x2 S3) :=
  next_kept (receiveAck_kept (fun _ h0 => onNak_kept h0) hk)
theorem ackTimeout_kept {x0} {S1 : State} (hk : Kept q S1) : Kept q (ackTimeout x0 S1) := by
  unfold ackTimeout
  split
  · exact hk
  · exact kept_if (goBack_kept hk) hk
theorem execAckTimeout_kept {x0} {S1 : State} (hk : Kept q S1) : OutKept q (execAckTimeout x0 S1) :=
  next_kept (ackTimeout_kept hk)
theorem ackTimer_kept {x0} {S1 : State} (hk : Kept q S1) : Kept q (ackTimer x0 S1) :=
  kept_if (sendAck_kept hk) hk
theorem execAckTimer_kept {x0} {S1 : State} (hk : Kept q S1) : OutKept q (execAckTimer x0 S1) :=
  next_kept (ackTimer_kept hk)
theorem retrainDone_kept {x0 x1} {S2 : State} (hk : Kept q S2) : Kept q (retrainDone x0 x1 S2) := by
  refine kept_if hk ?_
  extract_lets -merge -underBinder +onlyGivenNames z0
  have h1 : Kept q z0 := State_modPort_kept hk
  try clear_value z0
  refine pumpPort_kept ?_
  split
  · exact h1
  · exact sendAgain_kept h1
theorem execLaneRetrainDone_kept {x0 x1} {S2 : State} (hk : Kept q S2) : OutKept q (execLaneRetrainDone x0 x1 S2) :=
  next_kept (retrainDone_kept hk)
theorem tryReassemble_kept {S0 : State} (hk : Kept q S0) : Kept q (tryReassemble S0) :=
  kept_if (restartFlood_kept (kept_mk (kept_mk hk id) id)) hk
theorem linkTrained_kept {x0 x1} {S2 : State} (hk : Kept q S2) : Kept q (linkTrained x0 x1 S2) := by
  refine kept_if hk ?_
  refine kept_if ?_ (kept_if (tryReassemble_kept (kept_mk (State_modPort_kept hk) id)) hk)
  refine kept_if hk ?_
  extract_lets -merge -underBinder +onlyGivenNames z0
  have h1 : Kept q z0 := pumpPort_kept (State_modPort_kept hk)
  try clear_value z0
  exact kept_if h1 (beginFlood_kept h1)
theorem execRingLinkTrained_kept {x0 x1} {S2 : State} (hk : Kept q S2) : OutKept q (execRingLinkTrained x0 x1 S2) :=
  next_kept (linkTrained_kept hk)
theorem reassemble_kept {S0 : State} (hk : Kept q S0) : Kept q (reassemble S0) :=
  tryReassemble_kept (kept_mk hk id)
theorem execReassemble_kept {S0 : State} (hk : Kept q S0) : OutKept q (execReassemble S0) :=
  next_kept (kept_if (reassemble_kept hk) hk)
theorem endRing_kept {S0 : State} (hk : Kept q S0) : Kept q (endRing S0) :=
  kept_if hk (sendJoins_kept (raiseEv_kept (kept_mk hk id)))
theorem replayDoorbells_kept {S0 : State} (hk : Kept q S0) : Kept q (replayDoorbells S0) :=
  kept_foldl (fun _ _ h0 => kept_if (cqDoorbell_kept h0) (sqDoorbell_kept h0)) (kept_mk hk id)
theorem chainStatus_kept {x0} {S1 : State} (hk : Kept q S1) : Kept q (chainStatus x0 S1) :=
  kept_if (mEnd_kept hk) (kept_if (mEnd_kept hk) (kept_if (complete_kept hk) (mOk_kept (hostWrite_kept hk))))
theorem execChainStatus_kept {x0} {S1 : State} (hk : Kept q S1) : OutKept q (execChainStatus x0 S1) :=
  next_kept (mgmtCmd_kept (fun _ _ h0 => chainStatus_kept h0) hk)

/-! ### Ingot -/

theorem writeEntry_kept {x0 x1 x2} {S3 : State} (hk : Kept q S3) : Kept q (writeEntry x0 x1 x2 S3) := by
  unfold writeEntry
  split
  · exact hk
  · exact kept_mk hk (oneWay_log _ (Nat.sub_le _ _))
theorem logReadEntries_kept {x0} {S1 : State} (hk : Kept q S1) : Kept q (logReadEntries x0 S1) :=
  kept_if (mEnd_kept hk) (kept_if (mEnd_kept hk) (kept_if (complete_kept hk) (mOk_kept (hostWrite_kept hk))))
theorem execLogReadEntries_kept {x0} {S1 : State} (hk : Kept q S1) : OutKept q (execLogReadEntries x0 S1) :=
  next_kept (subCmd_kept (fun _ _ h0 => logReadEntries_kept h0) hk)
theorem logReadCertificates_kept {x0} {S1 : State} (hk : Kept q S1) : Kept q (logReadCertificates x0 S1) :=
  kept_if (mEnd_kept hk) (kept_if (mEnd_kept hk) (kept_if (complete_kept hk) (mOk_kept (hostWrite_kept hk))))
theorem execLogReadCertificates_kept {x0} {S1 : State} (hk : Kept q S1) : OutKept q (execLogReadCertificates x0 S1) :=
  next_kept (subCmd_kept (fun _ _ h0 => logReadCertificates_kept h0) hk)
theorem serviceChallenge_kept {x0} {S1 : State} (hk : Kept q S1) : Kept q (serviceChallenge x0 S1) :=
  kept_if (mEnd_kept hk) (kept_if (mEnd_kept hk) (kept_if (mEnd_kept hk) (kept_if (mEnd_kept hk) (mOk_kept (hostWrite_kept (kept_mk (drawn_kept hk) id))))))
theorem execServiceChallenge_kept {x0} {S1 : State} (hk : Kept q S1) : OutKept q (execServiceChallenge x0 S1) :=
  next_kept (mgmtCmd_kept (fun _ _ h0 => serviceChallenge_kept h0) hk)
theorem serviceFail_kept {x0} {S1 : State} (hk : Kept q S1) : Kept q (serviceFail x0 S1) :=
  mEnd_kept (raiseEv_kept (kept_mk hk id))
theorem openService_kept {x0} {S1 : State} (hk : Kept q S1) : Kept q (openService x0 S1) :=
  raiseEv_kept (setMode_kept (kept_mk hk id))
theorem challengeLapse_kept {S0 : State} (hk : Kept q S0) : Kept q (challengeLapse S0) := kept_mk hk id
theorem execChallengeLapse_kept {S0 : State} (hk : Kept q S0) : OutKept q (execChallengeLapse S0) :=
  next_kept (challengeLapse_kept hk)

/-! ### Firmware -/

theorem writeDirRec_kept {x0 x1} {S2 : State} (hk : Kept q S2) : Kept q (writeDirRec x0 x1 S2) := by
  unfold writeDirRec
  try extract_lets -merge -underBinder +onlyGivenNames z0
  try clear_value z0
  split
  · exact kept_mk hk id
  · exact kept_mk hk id
  · exact kept_if (kept_mk hk id) (kept_mk hk id)
theorem setTrial_kept {x0} {S1 : State} (hk : Kept q S1) : Kept q (setTrial x0 S1) := writeDirRec_kept hk
theorem bootLoad_kept {x0} {S1 : State} (hk : Kept q S1) : Kept q (bootLoad x0 S1) := by
  unfold bootLoad
  try extract_lets -merge -underBinder +onlyGivenNames z0
  try clear_value z0
  try extract_lets -merge -underBinder +onlyGivenNames z1
  try clear_value z1
  try extract_lets -merge -underBinder +onlyGivenNames z2
  try clear_value z2
  extract_lets -merge -underBinder +onlyGivenNames z3
  have h4 : Kept q z3 := by
    unfold z3
    split
    · exact kept_if (setTrial_kept (setTrial_kept hk)) (setTrial_kept hk)
    · exact hk
  try clear_value z3
  try extract_lets -merge -underBinder +onlyGivenNames z5
  try clear_value z5
  try extract_lets -merge -underBinder +onlyGivenNames z6
  try clear_value z6
  extract_lets -merge -underBinder +onlyGivenNames z7
  have h8 : Kept q z7 := kept_if (raiseEv_kept h4) h4
  try clear_value z7
  try extract_lets -merge -underBinder +onlyGivenNames z26
  try clear_value z26
  extract_lets -merge -underBinder +onlyGivenNames _ z27
  have h28 : Kept q z27 := kept_mk h8 id
  try clear_value z27
  try extract_lets -merge -underBinder +onlyGivenNames z36
  try clear_value z36
  extract_lets -merge -underBinder +onlyGivenNames _ z37
  have h38 : Kept q z37 := kept_mk h28 id
  try clear_value z37
  extract_lets -merge -underBinder +onlyGivenNames z41
  have h42 : Kept q z41 := by
    unfold z41
    split
    · exact raiseEv_kept h38
    · exact h38
  try clear_value z41
  exact kept_mk h42 id
theorem bootImagesLoaded_kept {x0} {S1 : State} (hk : Kept q S1) : Kept q (bootImagesLoaded x0 S1) :=
  kept_if (bootLoad_kept hk) hk
theorem execBootImagesLoaded_kept {x0} {S1 : State} (hk : Kept q S1) : OutKept q (execBootImagesLoaded x0 S1) :=
  next_kept (bootImagesLoaded_kept hk)
theorem deriveAlias_kept {S0 : State} (hk : Kept q S0) : Kept q (deriveAlias S0) :=
  kept_if hk (kept_mk hk id)
theorem applyProfile_kept {S0 : State} (hk : Kept q S0) : Kept q (applyProfile S0) :=
  writePreamps_kept (applyMotion_kept (kept_mk hk id))
theorem startRing_kept {S0 : State} (hk : Kept q S0) : Kept q (startRing S0) :=
  kept_if (standAlone_kept (clearAssembly_kept hk)) (kept_mk (clearAssembly_kept hk) id)
theorem bootEntrySigned_kept {S0 : State} (hk : Kept q S0) : Kept q (bootEntrySigned S0) := by
  refine kept_if hk ?_
  extract_lets -merge -underBinder +onlyGivenNames z0
  have h1 : Kept q z0 := writeEntry_kept (deriveAlias_kept hk)
  try clear_value z0
  refine kept_if (enterPewter_kept h1) ?_
  extract_lets -merge -underBinder +onlyGivenNames _ z8
  have h9 : Kept q z8 := setMode_kept (kept_mk h1 id)
  try clear_value z8
  extract_lets -merge -underBinder +onlyGivenNames z12
  have h13 : Kept q z12 := enablePans_kept (cxlBringup_kept (applyProfile_kept h9))
  try clear_value z12
  exact kept_if (startRing_kept h13) h13
theorem execBootEntrySigned_kept {S0 : State} (hk : Kept q S0) : OutKept q (execBootEntrySigned S0) :=
  next_kept (bootEntrySigned_kept hk)
theorem confirmTrial_kept {S0 : State} (hk : Kept q S0) : Kept q (confirmTrial S0) :=
  kept_if (kept_mk (writeDirRec_kept hk) id) hk
theorem reachIdle_kept {S0 : State} (hk : Kept q S0) : Kept q (reachIdle S0) := by
  unfold reachIdle
  extract_lets -merge -underBinder +onlyGivenNames _ z0
  have h1 : Kept q z0 := replayDoorbells_kept (confirmTrial_kept (setMode_kept (kept_mk hk id)))
  try clear_value z0
  split
  · exact enterPewter_kept h1
  · exact h1
theorem assemblyEnd_kept {S0 : State} (hk : Kept q S0) : Kept q (assemblyEnd S0) :=
  kept_if hk (kept_if (reachIdle_kept (endRing_kept hk)) (endRing_kept hk))
theorem execAssemblyEnd_kept {S0 : State} (hk : Kept q S0) : OutKept q (execAssemblyEnd S0) :=
  next_kept (assemblyEnd_kept hk)
theorem fwStageWrite_kept {x0} {S1 : State} (hk : Kept q S1) : Kept q (fwStageWrite x0 S1) :=
  kept_if (mEnd_kept hk) (kept_if (mEnd_kept hk) (kept_if (mEnd_kept hk) (mOk_kept (kept_mk hk id))))
theorem execFwStageWrite_kept {x0} {S1 : State} (hk : Kept q S1) : OutKept q (execFwStageWrite x0 S1) :=
  next_kept (subCmd_kept (fun _ _ h0 => fwStageWrite_kept h0) hk)
theorem fwStageFinish_kept {x0} {S1 : State} (hk : Kept q S1) : Kept q (fwStageFinish x0 S1) := by
  refine kept_if (mEnd_kept hk) ?_
  refine kept_if (mEnd_kept hk) ?_
  try extract_lets -merge -underBinder +onlyGivenNames z0
  try clear_value z0
  split
  · exact mEnd_kept (raiseEv_kept (kept_mk hk id))
  · exact mOk_kept (kept_mk hk id)
theorem execFwStageFinish_kept {x0} {S1 : State} (hk : Kept q S1) : OutKept q (execFwStageFinish x0 S1) :=
  next_kept (subCmd_kept (fun _ _ h0 => fwStageFinish_kept h0) hk)
theorem fwStageAbandon_kept {x0} {S1 : State} (hk : Kept q S1) : Kept q (fwStageAbandon x0 S1) :=
  kept_if (mEnd_kept hk) (kept_if (mEnd_kept hk) (mOk_kept (kept_mk hk id)))
theorem execFwStageAbandon_kept {x0} {S1 : State} (hk : Kept q S1) : OutKept q (execFwStageAbandon x0 S1) :=
  next_kept (subCmd_kept (fun _ _ h0 => fwStageAbandon_kept h0) hk)
theorem activateWhen_kept {x0 x1 x2} {S3 : State} (hx2 : ∀ s, Kept q s → Kept q (x2 s)) (hk : Kept q S3) : Kept q (activateWhen x0 x1 x2 S3) :=
  kept_if (mEnd_kept hk) (kept_if (mEnd_kept hk) (hx2 _ hk))
theorem fwActivateNext_kept {x0} {S1 : State} (hk : Kept q S1) : Kept q (fwActivateNext x0 S1) :=
  activateWhen_kept (fun _ h0 => mOk_kept (setTrial_kept h0)) hk
theorem execFwActivateNext_kept {x0} {S1 : State} (hk : Kept q S1) : OutKept q (execFwActivateNext x0 S1) :=
  next_kept (subCmd_kept (fun _ _ h0 => fwActivateNext_kept h0) hk)
theorem fwActivateCommitSvn_kept {x0} {S1 : State} (hk : Kept q S1) : Kept q (fwActivateCommitSvn x0 S1) :=
  activateWhen_kept (fun _ h => mOk_kept (kept_mk h (oneWay_floor (Nat.le_max_left _ _)))) hk
theorem execFwActivateCommitSvn_kept {x0} {S1 : State} (hk : Kept q S1) : OutKept q (execFwActivateCommitSvn x0 S1) :=
  next_kept (subCmd_kept (fun _ _ h0 => fwActivateCommitSvn_kept h0) hk)
theorem fwActivateCancel_kept {x0} {S1 : State} (hk : Kept q S1) : Kept q (fwActivateCancel x0 S1) :=
  activateWhen_kept (fun _ h0 => mOk_kept (setTrial_kept h0)) hk
theorem execFwActivateCancel_kept {x0} {S1 : State} (hk : Kept q S1) : OutKept q (execFwActivateCancel x0 S1) :=
  next_kept (subCmd_kept (fun _ _ h0 => fwActivateCancel_kept h0) hk)

/-! ### Mover -/

theorem fillBuffer_kept {x0 x1 x2} {s : State} (hk : Kept q s) : Kept q (fillBuffer x0 x1 x2 s) := by
  induction x0 generalizing x1 x2 s with
  | zero => exact hk
  | succ n ih => exact kept_if (hk) (ih (kept_if (kept_mk hk id) (hk)))
theorem setPort_kept {x0 x1} {S2 : State} (hk : Kept q S2) : Kept q (setPort x0 x1 S2) := kept_mk hk id
theorem readSpace_kept {x0 x1 x2 x3 x4} {S5 : State} (hk : Kept q S5) : SndKept q (readSpace x0 x1 x2 x3 x4 S5) :=
  snd_if (snd_mk (snd_snd (readBuffer_kept hk))) (snd_if (snd_if (snd_mk hk) (snd_mk (setPort_kept hk))) (snd_mk hk))
theorem writeSpace_kept {x0 x1 x2 x3 x4} {S5 : State} (hk : Kept q S5) : SndKept q (writeSpace x0 x1 x2 x3 x4 S5) :=
  snd_if (writeBuffer_kept hk) (snd_if (snd_mk (setPort_kept hk)) (snd_mk (hostWrite_kept hk)))
theorem modDesc_kept {x0 x1} {S2 : State} (hk : Kept q S2) : Kept q (modDesc x0 x1 S2) := kept_mk hk id
theorem endBad_kept {x0 x1 x2 x3} {S4 : State} (hk : Kept q S4) : Kept q (endBad x0 x1 x2 x3 S4) :=
  raiseEv_kept (endDesc_kept hk)
theorem bufSegment_kept {x0 x1 x2} {s : State} (hk : Kept q s) : SndKept q (bufSegment x0 x1 x2 s) := by
  induction x0 generalizing x1 x2 s with
  | zero => exact hk
  | succ n ih =>
    unfold bufSegment
    refine snd_if hk ?_
    dsimp only
    split
    · rename_i he
      exact snd_mk (snd_elim he (readBuffer_kept hk))
    · rename_i he
      have h := snd_elim he (readBuffer_kept hk)
      exact snd_if (snd_mk h) (snd_mk (snd_snd (ih h)))
theorem movSegment_kept {x0 x1 x2 x3} {S4 : State} (hk : Kept q S4) : SndKept q (movSegment x0 x1 x2 x3 S4) :=
  snd_if (bufSegment_kept hk) (snd_mk hk)
theorem loadMovSegment_kept {x0 x1 x2 x3} {S4 : State} (hk : Kept q S4) : Kept q (loadMovSegment x0 x1 x2 x3 S4) := by
  unfold loadMovSegment
  extract_lets -merge -underBinder +onlyGivenNames z0
  have h1 : SndKept q z0 := movSegment_kept hk
  try clear_value z0
  split
  · exact endDesc_kept (snd_snd h1)
  · split
    · exact endBad_kept (snd_snd h1)
    · exact modDesc_kept (snd_snd h1)
theorem dropRetired_kept {S0 : State} (hk : Kept q S0) : Kept q (dropRetired S0) := kept_mk hk id
theorem bindLines_kept {S0 : State} (hk : Kept q S0) : Kept q (bindLines S0) := kept_mk hk id
theorem assignWork_kept {S0 : State} (hk : Kept q S0) : Kept q (assignWork S0) := by
  refine kept_foldl (fun _ _ h0 => ?_) (bindLines_kept (dropRetired_kept hk))
  split
  · exact h0
  · split
    · exact h0
    · exact kept_mk h0 id
theorem movedBytes_kept {x0 x1 x2} {S3 : State} (hk : Kept q S3) : Kept q (movedBytes x0 x1 x2 S3) :=
  moverMoved_kept (modDesc_kept hk)
theorem endIfDone_kept {x0 x1} {S2 : State} (hk : Kept q S2) : Kept q (endIfDone x0 x1 S2) := by
  unfold endIfDone
  split
  · exact hk
  · exact kept_if (endDesc_kept hk) hk
theorem endWrite_kept {x0 x1 x2 x3} {S4 : State} (hk : Kept q S4) : Kept q (endWrite x0 x1 x2 x3 S4) := by
  unfold endWrite
  split
  · exact hk
  · exact kept_if (endDesc_kept hk) hk
theorem copyBurst_kept {x0 x1} {S2 : State} (hk : Kept q S2) : Kept q (copyBurst x0 x1 S2) := by
  unfold copyBurst
  try extract_lets -merge -underBinder +onlyGivenNames z0
  try clear_value z0
  try extract_lets -merge -underBinder +onlyGivenNames z1
  try clear_value z1
  try extract_lets -merge -underBinder +onlyGivenNames z2
  try clear_value z2
  extract_lets -merge -underBinder +onlyGivenNames z3
  have h4 : SndKept q z3 := readSpace_kept hk
  try clear_value z3
  split
  · exact hk
  · exact endDesc_kept (snd_snd h4)
  · extract_lets -merge -underBinder +onlyGivenNames z7
    have h8 : SndKept q z7 := writeSpace_kept (snd_snd h4)
    try clear_value z7
    exact kept_if (endWrite_kept (snd_snd h8)) (endIfDone_kept (movedBytes_kept (snd_snd h8)))
theorem fillBurst_kept {x0 x1} {S2 : State} (hk : Kept q S2) : Kept q (fillBurst x0 x1 S2) := by
  unfold fillBurst
  try extract_lets -merge -underBinder +onlyGivenNames z0
  try clear_value z0
  try extract_lets -merge -underBinder +onlyGivenNames z1
  try clear_value z1
  extract_lets -merge -underBinder +onlyGivenNames z2
  have h3 : SndKept q z2 := snd_if (snd_mk (fillBuffer_kept hk)) (writeBuffer_kept hk)
  try clear_value z2
  exact kept_if (endWrite_kept (snd_snd h3)) (endIfDone_kept (movedBytes_kept (snd_snd h3)))
theorem compareBurst_kept {x0 x1} {S2 : State} (hk : Kept q S2) : Kept q (compareBurst x0 x1 S2) := by
  unfold compareBurst
  try extract_lets -merge -underBinder +onlyGivenNames z0
  try clear_value z0
  try extract_lets -merge -underBinder +onlyGivenNames z1
  try clear_value z1
  try extract_lets -merge -underBinder +onlyGivenNames z2
  try clear_value z2
  try extract_lets -merge -underBinder +onlyGivenNames z3
  try clear_value z3
  extract_lets -merge -underBinder +onlyGivenNames z4
  have h5 : SndKept q z4 := readSpace_kept hk
  try clear_value z4
  extract_lets -merge -underBinder +onlyGivenNames z12
  have h13 : SndKept q z12 := snd_if (snd_mk (snd_snd h5)) (readSpace_kept (snd_snd h5))
  try clear_value z12
  split
  · extract_lets -merge -underBinder +onlyGivenNames z16
    have h17 : Kept q z16 := movedBytes_kept (snd_snd h13)
    try clear_value z16
    split
    · split
      · exact endDesc_kept h17
      · exact h17
    · exact endIfDone_kept h17
  · exact endDesc_kept (snd_snd h13)
  · exact endDesc_kept (snd_snd h13)
  · exact hk
theorem entryBurst_kept {x0 x1 x2} {S3 : State} (hk : Kept q S3) : Kept q (entryBurst x0 x1 x2 S3) := by
  unfold entryBurst
  try extract_lets -merge -underBinder +onlyGivenNames z0
  try clear_value z0
  try extract_lets -merge -underBinder +onlyGivenNames z1
  try clear_value z1
  try extract_lets -merge -underBinder +onlyGivenNames z2
  try clear_value z2
  try extract_lets -merge -underBinder +onlyGivenNames z3
  try clear_value z3
  try extract_lets -merge -underBinder +onlyGivenNames z4
  try clear_value z4
  try extract_lets -merge -underBinder +onlyGivenNames z5
  try clear_value z5
  extract_lets -merge -underBinder +onlyGivenNames z6
  have h7 : SndKept q z6 := snd_if (readSpace_kept hk) (readSpace_kept hk)
  try clear_value z6
  split
  · exact hk
  · exact endDesc_kept (snd_snd h7)
  · extract_lets -merge -underBinder +onlyGivenNames z10
    have h11 : SndKept q z10 := snd_if (writeSpace_kept (snd_snd h7)) (writeSpace_kept (snd_snd h7))
    try clear_value z10
    exact kept_if (endWrite_kept (snd_snd h11)) (movedBytes_kept (snd_snd h11))
theorem nextEntry_kept {x0 x1} {S2 : State} (hk : Kept q S2) : Kept q (nextEntry x0 x1 S2) := by
  unfold nextEntry
  split
  · exact hk
  · split
    · exact endDesc_kept hk
    · refine kept_if ?_ (kept_if (kept_if (endDesc_kept hk) (modDesc_kept hk)) hk)
      extract_lets -merge -underBinder +onlyGivenNames z0
      have h1 : Kept q z0 := modDesc_kept hk
      try clear_value z0
      split
      · exact loadMovSegment_kept h1
      · exact h1
theorem settleEntries_kept {x0 x1 x2} {s : State} (hk : Kept q s) : Kept q (settleEntries x0 x1 x2 s) := by
  induction x2 generalizing s with
  | zero => exact hk
  | succ n ih => exact ih (nextEntry_kept hk)
theorem descBurst_kept {x0 x1} {S2 : State} (hk : Kept q S2) : Kept q (descBurst x0 x1 S2) := by
  refine kept_if (copyBurst_kept hk) ?_
  refine kept_if (fillBurst_kept hk) ?_
  refine kept_if (compareBurst_kept hk) ?_
  split
  · exact hk
  · exact settleEntries_kept (kept_if hk (entryBurst_kept hk))
theorem serveLine_kept {x0} {S1 : State} (hk : Kept q S1) : Kept q (serveLine x0 S1) :=
  kept_dite (fun _ => kept_if hk (kept_mk hk id)) (fun _ => hk)
theorem failDesc_kept {x0 x1} {S2 : State} (hk : Kept q S2) : Kept q (failDesc x0 x1 S2) := by
  unfold failDesc
  try extract_lets -merge -underBinder +onlyGivenNames z0
  try clear_value z0
  try extract_lets -merge -underBinder +onlyGivenNames z1
  try clear_value z1
  extract_lets -merge -underBinder +onlyGivenNames z2
  have h3 : Kept q z2 := strike_kept (raiseResend_kept hk)
  try clear_value z2
  split
  · exact modDesc_kept h3
  · exact modDesc_kept h3
  · exact modDesc_kept h3
  · exact endDesc_kept h3
theorem freeMover_kept {x0} {S1 : State} (hk : Kept q S1) : Kept q (freeMover x0 S1) := kept_mk hk id
theorem runBurst_kept {x0 x1 x2} {S3 : State} (hk : Kept q S3) : Kept q (runBurst x0 x1 x2 S3) := by
  unfold runBurst
  split
  · exact hk
  · refine kept_if hk ?_
    split
    · exact kept_if (assignWork_kept (freeMover_kept (failDesc_kept hk))) hk
    · exact kept_if hk (assignWork_kept (freeMover_kept (descBurst_kept (serveLine_kept (passAfter_kept hk)))))
theorem runBursts_kept {x0 x1} {s : State} (hk : Kept q s) : Kept q (runBursts x0 x1 s) := by
  induction x1 generalizing s with
  | zero => exact hk
  | succ n ih =>
    unfold runBursts
    split
    · exact hk
    · exact ih (runBurst_kept hk)
theorem postDesc_kept {x0 x1 x2} {S3 : State} (hk : Kept q S3) : Kept q (postDesc x0 x1 x2 S3) := by
  unfold postDesc
  try extract_lets -merge -underBinder +onlyGivenNames z0
  try clear_value z0
  extract_lets -merge -underBinder +onlyGivenNames z1
  have h2 : Kept q z1 := kept_mk hk id
  try clear_value z1
  refine kept_if (endBad_kept h2) ?_
  refine kept_if (endBad_kept h2) ?_
  extract_lets -merge -underBinder +onlyGivenNames _ z9
  have h10 : Kept q z9 := kept_mk h2 id
  try clear_value z9
  extract_lets -merge -underBinder +onlyGivenNames z13
  have h14 : Kept q z13 := kept_if (settleEntries_kept (loadMovSegment_kept h10)) (endIfDone_kept h10)
  try clear_value z13
  exact runBursts_kept (assignWork_kept h14)
theorem execOp_kept {x0 x1 x2} {S3 : State} (hk : Kept q S3) : Kept q (execOp x0 x1 x2 S3) :=
  kept_if (postDesc_kept hk) hk
theorem execCopy_kept {x0 x1} {S2 : State} (hk : Kept q S2) : OutKept q (execCopy x0 x1 S2) :=
  next_kept (execOp_kept hk)
theorem execFill_kept {x0 x1} {S2 : State} (hk : Kept q S2) : OutKept q (execFill x0 x1 S2) :=
  next_kept (execOp_kept hk)
theorem execCompare_kept {x0 x1} {S2 : State} (hk : Kept q S2) : OutKept q (execCompare x0 x1 S2) :=
  next_kept (execOp_kept hk)
theorem execGather_kept {x0 x1} {S2 : State} (hk : Kept q S2) : OutKept q (execGather x0 x1 S2) :=
  next_kept (execOp_kept hk)
theorem execScatter_kept {x0 x1} {S2 : State} (hk : Kept q S2) : OutKept q (execScatter x0 x1 S2) :=
  next_kept (execOp_kept hk)
theorem requestLine_kept {x0} {S1 : State} (hk : Kept q S1) : Kept q (requestLine x0 S1) :=
  kept_if hk (assignWork_kept (kept_mk hk id))
theorem execRequestLine_kept {x0} {S1 : State} (hk : Kept q S1) : OutKept q (execRequestLine x0 S1) :=
  next_kept (requestLine_kept hk)
theorem postService_kept {S0 : State} (hk : Kept q S0) : Kept q (postService S0) :=
  kept_if hk (postDesc_kept (kept_mk hk id))
theorem execServiceDescriptorPost_kept {S0 : State} (hk : Kept q S0) : OutKept q (execServiceDescriptorPost S0) :=
  next_kept (postService_kept hk)
theorem failHostBurst_kept {x0 x1 x2 x3} {S4 : State} (hk : Kept q S4) : Kept q (failHostBurst x0 x1 x2 x3 S4) := by
  unfold failHostBurst
  try extract_lets -merge -underBinder +onlyGivenNames z0
  try clear_value z0
  extract_lets -merge -underBinder +onlyGivenNames z1
  have h2 : Kept q z1 := strike_kept (raiseResend_kept hk)
  try clear_value z1
  split
  · exact State_modCmd_kept h2
  · exact State_modCmd_kept h2
  · exact State_modCmd_kept h2
  · exact settleWaits_kept (loseStream_kept h2)
theorem hostIn_kept {x0 x1 x2 x3} {S4 : State} (hk : Kept q S4) : Kept q (hostIn x0 x1 x2 x3 S4) := by
  unfold hostIn
  split
  · exact hk
  · split
    · exact hk
    · refine kept_if hk ?_
      extract_lets -merge -underBinder +onlyGivenNames z0
      have h1 : Kept q z0 := serveOldest_kept hk
      try clear_value z0
      split
      · exact failHostBurst_kept h1
      · exact hostBurst_kept (passAfter_kept (moverMoved_kept (State_modCmd_kept h1)))
theorem burstDone_kept {x0 x1 x2} {S3 : State} (hk : Kept q S3) : Kept q (burstDone x0 x1 x2 S3) := by
  unfold burstDone
  split
  · exact runBurst_kept (kept_if (assignWork_kept hk) hk)
  · exact hostIn_kept hk
  · exact panIn_kept hk
  · exact extractBlock_kept hk
  · exact deliverNext_kept hk
theorem execBurstDone_kept {x0 x1 x2} {S3 : State} (hk : Kept q S3) : OutKept q (execBurstDone x0 x1 x2 S3) :=
  next_kept (burstDone_kept hk)
theorem dataFault_kept {x0 x1} {S2 : State} (hk : Kept q S2) : Kept q (dataFault x0 x1 S2) := by
  unfold dataFault
  split
  · exact hk
  · split
    · exact kept_if (mEnd_kept hk) hk
    · refine kept_if hk ?_
      split
      · exact kept_if (endSt_kept hk) hk
      · exact kept_if (completeWrite_kept hk) (failRead_kept hk)
      · exact kept_if (completeWrite_kept hk) (failRead_kept hk)
      · exact hk
theorem hostFault_kept {x0} {S1 : State} (hk : Kept q S1) : Kept q (hostFault x0 S1) := by
  unfold hostFault
  split
  · exact kept_if (stopRing_kept hk) hk
  · exact kept_if hk (stopRing_kept hk)
  · exact dataFault_kept hk
  · exact evtFault_kept hk
  · split
    · exact hk
    · split
      · exact hk
      · exact kept_if (assignWork_kept (endDesc_kept hk)) hk
theorem execHostFault_kept {x0} {S1 : State} (hk : Kept q S1) : OutKept q (execHostFault x0 S1) :=
  next_kept (hostFault_kept hk)

/-! ### PanRows -/

theorem panRequest_kept {x0 x1} {S2 : State} (hx1 : ∀ s, Kept q s → Kept q (x1 s)) (hk : Kept q S2) : Kept q (panRequest x0 x1 S2) :=
  kept_if (settleWaits_kept (settleGrants_kept (hx1 _ hk))) hk
theorem allocRow_kept {x0 x1 x2 x3 x4} {S5 : State} (hk : Kept q S5) : Kept q (allocRow x0 x1 x2 x3 x4 S5) := by
  unfold allocRow
  split
  · exact panAlloc_kept (kept_if (startRebuild_kept hk) hk)
  · exact panAlloc_kept hk
theorem execAlloc_kept {x0 x1 x2 x3 x4} {S5 : State} (hk : Kept q S5) : OutKept q (execAlloc x0 x1 x2 x3 x4 S5) :=
  next_kept (panRequest_kept (fun _ h0 => allocRow_kept h0) hk)
theorem execFree_kept {x0 x1} {S2 : State} (hk : Kept q S2) : OutKept q (execFree x0 x1 S2) :=
  next_kept (panRequest_kept (fun _ h0 => panFree_kept h0) hk)
theorem execHandoff_kept {x0 x1 x2} {S3 : State} (hk : Kept q S3) : OutKept q (execHandoff x0 x1 x2 S3) :=
  next_kept (panRequest_kept (fun _ h0 => panHandoff_kept h0) hk)
theorem execAcquire_kept {x0 x1} {S2 : State} (hk : Kept q S2) : OutKept q (execAcquire x0 x1 S2) :=
  next_kept (panRequest_kept (fun _ h0 => panAcquire_kept h0) hk)
theorem execRelease_kept {x0 x1} {S2 : State} (hk : Kept q S2) : OutKept q (execRelease x0 x1 S2) :=
  next_kept (panRequest_kept (fun _ h0 => panRelease_kept h0) hk)
theorem execCancel_kept {x0} {S1 : State} (hk : Kept q S1) : OutKept q (execCancel x0 S1) :=
  next_kept (panRequest_kept (fun _ h0 => panCancel_kept h0) hk)
theorem dropNoWaits_kept {S0 : State} (hk : Kept q S0) : Kept q (dropNoWaits S0) := by
  refine kept_foldl (fun _ _ h0 => ?_) hk
  split
  · exact kept_if (panAnswer_kept (dropWaiter_kept h0)) h0
  · exact h0
theorem listRebuilt_kept {x0} {S1 : State} (hk : Kept q S1) : Kept q (listRebuilt x0 S1) :=
  kept_if (dropNoWaits_kept (serveWaiting_kept (kept_foldl (fun _ _ h3 => panCarry_kept h3) (kept_mk (relink_kept (State_modPan_kept hk)) id)))) hk
theorem execPanListRebuild_kept {x0} {S1 : State} (hk : Kept q S1) : OutKept q (execPanListRebuild x0 S1) :=
  next_kept (panRequest_kept (fun _ h0 => listRebuilt_kept h0) hk)
theorem countMode_kept {x0 x1} {S2 : State} (hk : Kept q S2) : Kept q (countMode x0 x1 S2) :=
  kept_if hk (kept_if (panReject_kept hk) (State_modPan_kept hk))
theorem execCountModeWrite_kept {x0 x1 x2} {S3 : State} (hk : Kept q S3) : OutKept q (execCountModeWrite x0 x1 x2 S3) :=
  next_kept (kept_if (countMode_kept hk) hk)
theorem execPanLock_kept {x0} {S1 : State} (hk : Kept q S1) : OutKept q (execPanLock x0 S1) :=
  next_kept (kept_if (kept_mk hk id) hk)

/-! ### Resets -/

theorem takeReset_kept {x0 x1 x2} {s : State} (hk : Kept q s) : Kept q (takeReset x0 x1 x2 s) := by
  have h := abortMover_kept hk
  exact h
theorem abortJobs_kept {S0 : State} (hk : Kept q S0) : Kept q (abortJobs S0) :=
  kept_if hk (kept_foldl (fun _ _ h0 => kept_foldl (fun _ _ h1 => kept_if h1 (kept_if (completeWrite_kept h1) (kept_if (complete_kept h1) h1))) h0) hk)
theorem prepareReset_kept {S0 : State} (hk : Kept q S0) : Kept q (prepareReset S0) :=
  kept_mk (abortMover_kept (abortJobs_kept (dropGates_kept hk))) id
theorem warmReset_kept {x0} {S1 : State} (hk : Kept q S1) : Kept q (warmReset x0 S1) :=
  kept_if (takeReset_kept (prepareReset_kept hk)) hk
theorem execWarmReset_kept {S0 : State} (hk : Kept q S0) : OutKept q (execWarmReset S0) :=
  next_kept (kept_if (warmReset_kept hk) hk)
theorem execColdResetRequest_kept {S0 : State} (hk : Kept q S0) : OutKept q (execColdResetRequest S0) :=
  next_kept (kept_if (takeReset_kept hk) hk)
theorem linkLost_kept {S0 : State} (hk : Kept q S0) : Kept q (linkLost S0) := kept_mk hk id
theorem perstAssert_kept {S0 : State} (hk : Kept q S0) : Kept q (perstAssert S0) :=
  warmReset_kept (linkLost_kept (kept_mk hk id))
theorem execPerstAssert_kept {S0 : State} (hk : Kept q S0) : OutKept q (execPerstAssert S0) :=
  next_kept (perstAssert_kept hk)
theorem perstDeassert_kept {S0 : State} (hk : Kept q S0) : Kept q (perstDeassert S0) := kept_mk hk id
theorem execPerstDeassert_kept {S0 : State} (hk : Kept q S0) : OutKept q (execPerstDeassert S0) :=
  next_kept (perstDeassert_kept hk)
theorem execStewardWatchdog_kept {S0 : State} (hk : Kept q S0) : OutKept q (execStewardWatchdog S0) :=
  next_kept (kept_if (warmReset_kept hk) hk)
theorem execServiceClose_kept {S0 : State} (hk : Kept q S0) : OutKept q (execServiceClose S0) :=
  next_kept (kept_if (warmReset_kept hk) hk)
theorem pcieLinkDown_kept {x0} {S1 : State} (hk : Kept q S1) : Kept q (pcieLinkDown x0 S1) :=
  kept_if (kept_mk (linkLost_kept hk) id) (linkLost_kept hk)
theorem execPcieLinkDown_kept {x0} {S1 : State} (hk : Kept q S1) : OutKept q (execPcieLinkDown x0 S1) :=
  next_kept (pcieLinkDown_kept hk)
theorem dropCommands_kept {S0 : State} (hk : Kept q S0) : Kept q (dropCommands S0) := kept_mk hk id
theorem functionReset_kept {x0} {S1 : State} (hk : Kept q S1) : Kept q (functionReset x0 S1) := by
  have h : ∀ {t}, Kept q t → Kept q (allInsts.foldl (fun s v => endAll v s) t) := kept_foldl (fun _ _ h => endAll_kept h)
  unfold functionReset
  extract_lets z0 z1
  have h0 : Kept q z0 := dropWaiter_kept (discardBlocks_kept (dropCommands_kept (abortMover_kept hk)))
  have h1 : Kept q z1 := wipeKeys_kept (h h0)
  clear_value z1
  refine resumeSeqs_kept (settleWaits_kept (dispatch_kept ?_))
  exact kept_mk h1 id
theorem execFunctionReset_kept {x0} {S1 : State} (hk : Kept q S1) : OutKept q (execFunctionReset x0 S1) :=
  next_kept (kept_if (functionReset_kept hk) hk)
theorem powerOff_kept {S0 : State} (hk : Kept q S0) : Kept q (powerOff S0) := kept_mk (takeReset_kept hk) id
theorem execVddAonFail_kept {S0 : State} (hk : Kept q S0) : OutKept q (execVddAonFail S0) :=
  next_kept (kept_if hk (powerOff_kept hk))
theorem execVddAonRise_kept {S0 : State} (hk : Kept q S0) : OutKept q (execVddAonRise S0) :=
  next_kept (kept_if (takeReset_kept hk) hk)
theorem execQuenchPowerOff_kept {S0 : State} (hk : Kept q S0) : OutKept q (execQuenchPowerOff S0) :=
  next_kept (kept_if (powerOff_kept hk) hk)
theorem quenchReset_kept {x0 x1} {S2 : State} (hk : Kept q S2) : Kept q (quenchReset x0 x1 S2) :=
  kept_if (kept_mk (takeReset_kept hk) id) hk
theorem execQuenchReset_kept {x0 x1} {S2 : State} (hk : Kept q S2) : OutKept q (execQuenchReset x0 x1 S2) :=
  next_kept (quenchReset_kept hk)
theorem execThermtrip_kept {S0 : State} (hk : Kept q S0) : OutKept q (execThermtrip S0) :=
  next_kept (kept_if hk (kept_mk hk id))
theorem takeEvents_kept {S0 : State} (hk : Kept q S0) : Kept q (takeEvents S0) := kept_mk hk id
theorem powerOnRelease_kept {S0 : State} (hk : Kept q S0) : Kept q (powerOnRelease S0) := by
  refine kept_if hk ?_
  try extract_lets -merge -underBinder +onlyGivenNames z0
  try clear_value z0
  try extract_lets -merge -underBinder +onlyGivenNames z1
  try clear_value z1
  extract_lets -merge -underBinder +onlyGivenNames z2
  have h3 : Kept q z2 := kept_if (resumeSaved_kept hk) (resumeSeqs_kept hk)
  try clear_value z2
  exact kept_mk (kept_if (kept_mk (takeEvents_kept (kept_mk h3 id)) id) (kept_mk h3 id)) id
theorem execPowerOnResetRelease_kept {S0 : State} (hk : Kept q S0) : OutKept q (execPowerOnResetRelease S0) :=
  next_kept (powerOnRelease_kept hk)
theorem rngPass_kept {S0 : State} (hk : Kept q S0) : Kept q (rngPass S0) :=
  kept_if hk (setMode_kept (drawn_kept (kept_mk (kept_mk hk id) id)))
theorem execRngStartupPass_kept {S0 : State} (hk : Kept q S0) : OutKept q (execRngStartupPass S0) :=
  next_kept (rngPass_kept hk)
theorem rngFail_kept {x0} {S1 : State} (hk : Kept q S1) : Kept q (rngFail x0 S1) :=
  kept_if hk (enterPewter_kept (raiseEv_kept (kept_mk hk id)))
theorem execRngContinuousFail_kept {x0} {S1 : State} (hk : Kept q S1) : OutKept q (execRngContinuousFail x0 S1) :=
  next_kept (rngFail_kept hk)
theorem quenchRing_kept {x0 : State × Nat × Bool} {x1} (hk : FstKept q x0) : FstKept q (quenchRing x0 x1) := by
  refine fst_mk ?_
  have h : ∀ l : List Nat, Kept q (l.foldl (fun s u => completeSt x1 u .abortedQuench s) x0.1) :=
    fun l => kept_foldl (fun _ _ h => completeSt_kept h) hk
  exact kept_if (h _) (signalRing_kept (h _))
theorem quenchWindow_kept {x0} {S1 : State} (hk : Kept q S1) : Kept q (quenchWindow x0 S1) :=
  dropCommands_kept (kept_mk (fst_fst (fst_foldl (fun _ _ h => quenchRing_kept h) (fst_mk hk))) id)
theorem quenchStore_kept {x0 x1 x2 x3} {S4 : State} (hk : Kept q S4) : Kept q (quenchStore x0 x1 x2 x3 S4) :=
  kept_mk hk id
theorem quench_kept {x0 x1 x2 x3 x4} {S5 : State} (hk : Kept q S5) : Kept q (quench x0 x1 x2 x3 x4 S5) := by
  unfold quench
  refine kept_if hk ?_
  extract_lets -merge -underBinder a b _ c d _ _ e f g h _ _ i
  have hd : Kept q d := dropGates_kept (raiseEv_kept (kept_mk hk id))
  clear_value d
  have he : Kept q e := setMode_kept (kept_mk hd id)
  clear_value e
  have hf : Kept q f := abortMover_kept (kept_if (brakeReels_kept he) he)
  clear_value f
  have hh : Kept q h := quenchStore_kept (quenchWindow_kept hf)
  clear_value h
  have hi : Kept q i := rebuildTable_kept (kept_mk (abandonData_kept (unassignAll_kept hh)) id)
  clear_value i
  exact kept_mk (linkLost_kept hi) id
theorem execQuenchDetect_kept {x0 x1 x2 x3 x4} {S5 : State} (hk : Kept q S5) : OutKept q (execQuenchDetect x0 x1 x2 x3 x4 S5) :=
  next_kept (quench_kept hk)
theorem pewterUnload_kept {S0 : State} (hk : Kept q S0) : Kept q (pewterUnload S0) :=
  kept_if hk (kept_mk hk id)
theorem execPewterUnload_kept {S0 : State} (hk : Kept q S0) : OutKept q (execPewterUnload S0) :=
  next_kept (pewterUnload_kept hk)
theorem execRetireClear_kept {S0 : State} (hk : Kept q S0) : OutKept q (execRetireClear S0) :=
  next_kept (kept_if (kept_mk hk id) hk)

/-! ### Service -/

theorem serviceResponse_kept {x0} {S1 : State} (hk : Kept q S1) : Kept q (serviceResponse x0 S1) := by
  unfold serviceResponse
  extract_lets
  refine kept_if (mEnd_kept hk) (kept_if (mEnd_kept hk) (kept_if (mEnd_kept hk) (kept_if (mEnd_kept hk) ?_)))
  split
  · exact serviceFail_kept hk
  · refine kept_if (serviceFail_kept hk) ?_
    extract_lets z
    have h : Kept q z := mOk_kept (writeEntry_kept hk)
    clear_value z
    exact kept_if (warmReset_kept (kept_mk h oneWay_returned)) (openService_kept h)
theorem execServiceResponse_kept {x0} {S1 : State} (hk : Kept q S1) : OutKept q (execServiceResponse x0 S1) :=
  next_kept (mgmtCmd_kept (fun _ _ h0 => serviceResponse_kept h0) hk)
theorem fwActivateNow_kept {x0} {S1 : State} (hk : Kept q S1) : Kept q (fwActivateNow x0 S1) :=
  activateWhen_kept (fun _ h0 => warmReset_kept (mOk_kept (setTrial_kept h0))) hk
theorem execFwActivateNow_kept {x0} {S1 : State} (hk : Kept q S1) : OutKept q (execFwActivateNow x0 S1) :=
  next_kept (subCmd_kept (fun _ _ h0 => fwActivateNow_kept h0) hk)
theorem toField_kept {S0 : State} (hk : Kept q S0) : Kept q (toField S0) := by
  unfold toField
  split
  · rename_i h
    have h2 : S0.sec.lifecycle = 2 := by simp at h; exact h.1.2
    exact kept_mk hk (oneWay_field (by omega))
  · exact hk
theorem execToField_kept {S0 : State} (hk : Kept q S0) : OutKept q (execToField S0) :=
  next_kept (toField_kept hk)
theorem katStart_kept {x0} {S1 : State} (hk : Kept q S1) : Kept q (katStart x0 S1) :=
  kept_if (kept_mk hk id) hk
theorem execKatStart_kept {x0} {S1 : State} (hk : Kept q S1) : OutKept q (execKatStart x0 S1) :=
  next_kept (katStart_kept hk)

/-! ### Registers -/

theorem onBit_kept {x0 x1 x2} {S3 : State} (hx2 : ∀ s, Kept q s → Kept q (x2 s)) (hk : Kept q S3) : Kept q (onBit x0 x1 x2 S3) :=
  kept_if (hx2 _ hk) hk
theorem withFree_kept {x0} {S1 : State} (hx0 : ∀ y0 s, Kept q s → Kept q (x0 y0 s)) (hk : Kept q S1) : Kept q (withFree x0 S1) :=
  hx0 _ _ (kept_mk hk id)
theorem writeGlb_kept {x0 x1} {S2 : State} (hk : Kept q S2) : Kept q (writeGlb x0 x1 S2) := by
  unfold writeGlb
  split
  · exact kept_if (takeReset_kept hk) (kept_if (warmReset_kept hk) (kept_if (functionReset_kept hk) hk))
  · exact hk
theorem quenchCfg_kept {x0} {S1 : State} (hk : Kept q S1) : Kept q (quenchCfg x0 S1) :=
  kept_if hk (kept_mk hk id)
theorem writePwr_kept {x0 x1} {S2 : State} (hk : Kept q S2) : Kept q (writePwr x0 x1 S2) := by
  unfold writePwr
  split
  · exact quenchCfg_kept hk
  · exact hk
theorem writeSec_kept {x0 x1} {S2 : State} (hk : Kept q S2) : Kept q (writeSec x0 x1 S2) := by
  unfold writeSec
  split
  · exact onBit_kept (fun _ h0 => toField_kept h0) hk
  · exact onBit_kept (fun _ h1 => kept_if (warmReset_kept h1) h1) hk
  · exact hk
theorem strikeCfg_kept {x0 x1} {S2 : State} (hk : Kept q S2) : Kept q (strikeCfg x0 x1 S2) :=
  kept_if hk (kept_mk hk id)
theorem writeEvt_kept {x0 x1} {S2 : State} (hk : Kept q S2) : Kept q (writeEvt x0 x1 S2) := by
  unfold writeEvt
  extract_lets f
  have h1 : ∀ g : State → State, Kept q (g S2) → Kept q (f g) := fun g hg => kept_if hk hg
  clear_value f
  split
  · exact onBit_kept (fun _ h => evtSetLock_kept h) (kept_if (evtStart_kept hk) (evtStop_kept hk))
  · exact h1 _ (kept_mk hk id)
  · exact h1 _ (kept_mk hk id)
  · exact h1 _ (kept_mk hk id)
  · exact evtHead_kept hk
  · exact kept_mk hk id
  · exact onBit_kept (fun _ h => kept_if (kept_mk h id) h) hk
  · split
    · exact strikeCfg_kept hk
    · exact hk
theorem writeHif_kept {x0 x1} {S2 : State} (hk : Kept q S2) : Kept q (writeHif x0 x1 S2) := by
  unfold writeHif
  extract_lets f
  have h1 : ∀ g : State → State, Kept q (g S2) → Kept q (f g) := fun g hg => kept_if hk hg
  clear_value f
  split
  · exact kept_if (mqStart_kept hk) (mqStop_kept hk)
  all_goals first | exact h1 _ (kept_mk hk id) | exact hk
theorem writeBuf_kept {x0 x1} {S2 : State} (hk : Kept q S2) : Kept q (writeBuf x0 x1 S2) := by
  unfold writeBuf
  split
  · exact onBit_kept (fun _ h0 => fillRestart_kept h0) (kept_mk hk id)
  · exact kept_mk hk id
  · exact kept_mk hk id
  · exact hk
theorem panEnable_kept {x0 x1} {S2 : State} (hk : Kept q S2) : Kept q (panEnable x0 x1 S2) :=
  kept_if hk (enablePans_kept (State_modPan_kept hk))
theorem panStore_kept {x0 x1} {S2 : State} (hk : Kept q S2) : Kept q (panStore x0 x1 S2) :=
  kept_if hk (relink_kept (State_modPan_kept hk))
theorem panExtent_kept {x0 x1} {S2 : State} (hk : Kept q S2) : Kept q (panExtent x0 x1 S2) :=
  enablePans_kept (rebuildTable_kept (State_modPan_kept hk))
theorem writePan_kept {x0 x1 x2} {S3 : State} (hk : Kept q S3) : Kept q (writePan x0 x1 x2 S3) := by
  unfold writePan
  split
  · exact settleGrants_kept (serveWaiting_kept (countMode_kept (State_modPan_kept (kept_if hk (panStore_kept (panEnable_kept hk))))))
  · exact kept_if hk (panExtent_kept hk)
  · exact kept_if hk (panExtent_kept hk)
  · exact kept_if (settleGrants_kept (serveWaiting_kept (settlePan_kept (State_modPan_kept hk)))) (State_modPan_kept hk)
  · exact hk
theorem writePans_kept {x0 x1} {S2 : State} (hk : Kept q S2) : Kept q (writePans x0 x1 S2) :=
  kept_if (onBit_kept (fun _ h0 => kept_mk h0 id) hk) (kept_if (writePan_kept hk) hk)
theorem writeMov_kept {x0 x1} {S2 : State} (hk : Kept q S2) : Kept q (writeMov x0 x1 S2) := by
  unfold writeMov
  split
  · exact assignWork_kept (kept_mk hk id)
  · exact onBit_kept (fun _ h0 => postService_kept h0) hk
  · split
    · exact kept_mk hk id
    · exact hk
theorem writeCmp_kept {x0 x1 x2} {S3 : State} (hk : Kept q S3) : Kept q (writeCmp x0 x1 x2 S3) := by
  unfold writeCmp
  split
  · exact dispatchRead_kept (dispatch_kept (kept_mk hk id))
  · exact hk
theorem writeCph_kept {x0 x1} {S2 : State} (hk : Kept q S2) : Kept q (writeCph x0 x1 S2) := by
  unfold writeCph
  split
  · exact onBit_kept (fun _ h0 => withFree_kept (fun _ _ h1 => katStart_kept h1) h0) (kept_mk hk id)
  · exact hk
theorem writeFmt_kept {x0 x1} {S2 : State} (hk : Kept q S2) : Kept q (writeFmt x0 x1 S2) := by
  unfold writeFmt
  split
  · exact kept_mk hk id
  · exact kept_mk hk id
  · exact kept_mk hk id
  · exact kept_mk hk id
  · exact onBit_kept (fun _ h0 => withFree_kept (fun _ _ h1 => writeCommitAll_kept h1) h0) hk
  · exact hk
theorem writeWch_kept {x0 x1} {S2 : State} (hk : Kept q S2) : Kept q (writeWch x0 x1 S2) := by
  refine kept_if ?_ hk
  try extract_lets -merge -underBinder +onlyGivenNames z0
  try clear_value z0
  split
  · exact kept_mk hk id
  · exact kept_mk hk id
  · exact onBit_kept (fun _ h1 => withFree_kept (fun _ _ h2 => writeCommit_kept h2) h1) (kept_mk hk id)
  · exact hk
theorem putTap_kept {x0 x1} {S2 : State} (hk : Kept q S2) : Kept q (putTap x0 x1 S2) :=
  State_modRch_kept hk
theorem writeRch_kept {x0 x1} {S2 : State} (hk : Kept q S2) : Kept q (writeRch x0 x1 S2) := by
  refine kept_if ?_ ?_
  · try extract_lets -merge -underBinder +onlyGivenNames z0
    try clear_value z0
    split
    · exact State_modRch_kept hk
    · exact State_modRch_kept hk
    · exact onBit_kept (fun _ h1 => withFree_kept (fun _ _ h2 => readCommit_kept h2) h1) (State_modRch_kept hk)
    · exact hk
  · split
    · exact kept_mk hk id
    · exact kept_mk hk id
    · exact followRead_kept (kept_mk hk id)
    · exact kept_mk hk id
    · exact kept_mk hk id
    · exact onBit_kept (fun _ h3 => withFree_kept (fun _ _ h4 => readCommitAll_kept h4) h3) hk
    · split
      · exact putTap_kept hk
      · exact hk
theorem writeSrv_kept {x0 x1} {S2 : State} (hk : Kept q S2) : Kept q (writeSrv x0 x1 S2) := by
  unfold writeSrv
  split
  · exact kept_mk hk id
  · exact kept_mk hk id
  · exact hk
theorem clearSticky_kept {x0} {S1 : State} (hk : Kept q S1) : Kept q (clearSticky x0 S1) := kept_mk hk id
theorem writeMot_kept {x0 x1} {S2 : State} (hk : Kept q S2) : Kept q (writeMot x0 x1 S2) := by
  unfold writeMot
  split
  · exact onBit_kept (fun _ h0 => motionBrake_kept h0) (onBit_kept (fun _ h1 => motionStop_kept h1) (setLoops_kept hk))
  · exact clearSticky_kept hk
  · exact kept_mk hk id
  · exact kept_mk hk id
  · exact kept_mk hk id
  · exact kept_mk hk id
  · exact kept_mk hk id
  · split
    · exact coefWrite_kept hk
    · exact onBit_kept (fun _ h2 => bankSwap_kept h2) hk
    · exact State_modLoop_kept hk
    · exact hk
theorem ringEnable_kept {x0} {S1 : State} (hk : Kept q S1) : Kept q (ringEnable x0 S1) :=
  kept_if hk (kept_if (kept_mk hk id) (linkGone_kept (linkGone_kept (kept_mk hk id))))
theorem writeChn_kept {x0 x1} {S2 : State} (hk : Kept q S2) : Kept q (writeChn x0 x1 S2) := by
  unfold writeChn
  split
  · exact onBit_kept (fun _ h0 => reassemble_kept h0) (ringEnable_kept hk)
  · exact kept_mk hk id
  · exact kept_mk hk id
  · exact hk
theorem writePace_kept {x0 x1} {S2 : State} (hk : Kept q S2) : Kept q (writePace x0 x1 S2) := by
  unfold writePace
  split
  · exact kept_mk hk id
  · exact hk
theorem writeReg_kept {x0 x1 x2} {S3 : State} (hk : Kept q S3) : Kept q (writeReg x0 x1 x2 S3) := by
  unfold writeReg
  refine kept_if hk ?_
  extract_lets o f
  have h1 : ∀ g : State → State, Kept q (g S3) → Kept q (f g) := fun g hg => kept_if hg hk
  clear_value f o
  split
  · exact kept_if (writeGlb_kept hk) (kept_if (writePwr_kept hk) (kept_if (writeSec_kept hk) (writeEvt_kept hk)))
  · exact writeHif_kept hk
  · refine h1 _ ?_
    split
    · exact writeBuf_kept hk
    · split
      · exact writePans_kept hk
      · exact hk
  · exact h1 _ (writeMov_kept hk)
  · exact writeCmp_kept hk
  · exact writeCph_kept hk
  · exact writeFmt_kept hk
  · exact writeWch_kept hk
  · exact writeRch_kept hk
  · exact writeSrv_kept hk
  · exact h1 _ (writeMot_kept hk)
  · exact writeChn_kept hk
  · exact writePace_kept hk
  · exact hk
theorem ringDoorbell_kept {x0 x1 x2} {S3 : State} (hk : Kept q S3) : Kept q (ringDoorbell x0 x1 x2 S3) :=
  kept_if (keepDoorbell_kept hk) (kept_if (cqDoorbell_kept hk) (sqDoorbell_kept hk))
theorem writeMsix_kept {x0 x1 x2} {S3 : State} (hk : Kept q S3) : Kept q (writeMsix x0 x1 x2 S3) := by
  unfold writeMsix
  extract_lets -merge -underBinder +onlyGivenNames z0
  have h1 : ∀ y2, Kept q (z0 y2) := by
    intro y2
    exact kept_mk hk id
  clear_value z0
  split
  · exact h1 _
  · exact h1 _
  · exact h1 _
  · exact flushMsix_kept (h1 _)
theorem writeBar2_kept {x0 x1} {S2 : State} (hk : Kept q S2) : Kept q (writeBar2 x0 x1 S2) := by
  unfold writeBar2
  split
  · exact ringDoorbell_kept hk
  · exact kept_if (writeMsix_kept hk) hk
  · exact hk
theorem hostWriteReg_kept {x0 x1 x2} {S3 : State} (hk : Kept q S3) : Kept q (hostWriteReg x0 x1 x2 S3) :=
  kept_if (writeBar2_kept hk) (kept_if (writeReg_kept hk) hk)
theorem execRegisterWrite_kept {x0 x1 x2 x3} {S4 : State} (hk : Kept q S4) : OutKept q (execRegisterWrite x0 x1 x2 x3 S4) := by
  refine next_kept ?_
  split
  · exact kept_if (hostWriteReg_kept hk) hk
  · exact kept_if (hostWriteReg_kept (hostWriteReg_kept hk)) hk
theorem execQuenchCfgLock_kept {x0} {S1 : State} (hk : Kept q S1) : OutKept q (execQuenchCfgLock x0 S1) :=
  next_kept (kept_if (quenchCfg_kept hk) hk)
theorem execMalformedAccess_kept {x0 x1 x2 x3} {S4 : State} (hk : Kept q S4) : OutKept q (execMalformedAccess x0 x1 x2 x3 S4) :=
  next_kept (kept_if hk (kept_mk hk id))
theorem clearRc_kept {x0} {S1 : State} (hk : Kept q S1) : Kept q (clearRc x0 S1) := by
  unfold clearRc
  try extract_lets -merge -underBinder +onlyGivenNames z0
  try clear_value z0
  split
  · refine kept_if (kept_mk hk id) ?_
    refine kept_if (kept_mk hk id) ?_
    split
    · exact kept_mk hk id
    · exact hk
  · split
    · exact kept_mk hk id
    · exact hk
  · split
    · exact kept_mk hk id
    · exact hk
  · split
    · exact kept_mk hk id
    · exact hk
  · exact kept_if (kept_mk hk id) hk
  · exact kept_if (State_modRch_kept hk) (kept_if (kept_mk hk id) (kept_if (kept_mk hk id) hk))
  · exact kept_if (kept_mk hk id) hk
  · exact kept_if (kept_mk hk id) hk
  · split
    · exact State_modPort_kept hk
    · exact State_modPort_kept hk
    · exact hk
  · exact hk
theorem latchTime_kept {x0} {S1 : State} (hk : Kept q S1) : Kept q (latchTime x0 S1) :=
  kept_if (kept_mk hk id) hk
theorem hostReadReg_kept {x0 x1} {S2 : State} (hk : Kept q S2) : SndKept q (hostReadReg x0 x1 S2) :=
  snd_if (snd_mk hk) (snd_mk (latchTime_kept (clearRc_kept hk)))
theorem hostRead64_kept {x0 x1 x2} {S3 : State} (hk : Kept q S3) : Kept q (hostRead64 x0 x1 x2 S3) :=
  kept_if hk (kept_mk (snd_snd (snd_if (hostReadReg_kept (snd_snd (hostReadReg_kept hk))) (snd_mk (snd_snd (hostReadReg_kept hk))))) id)
theorem execRcFieldRead_kept {x0 x1 x2} {S3 : State} (hk : Kept q S3) : OutKept q (execRcFieldRead x0 x1 x2 S3) :=
  next_kept (hostRead64_kept hk)
theorem execTimeLoRead_kept {S0 : State} (hk : Kept q S0) : OutKept q (execTimeLoRead S0) :=
  next_kept (hostRead64_kept hk)
theorem execJtagAccess_kept {x0 x1 x2} {S3 : State} (hk : Kept q S3) : OutKept q (execJtagAccess x0 x1 x2 S3) := by
  refine out_if (next_kept hk) ?_
  split
  · exact next_kept (kept_mk hk id)
  · exact out_if (next_kept (withFree_kept (fun _ _ h0 => kept_mk h0 id) hk)) (next_kept (latchTime_kept (kept_mk hk id)))
  · refine next_kept ?_
    split
    · exact ringDoorbell_kept hk
    · exact hk
  · exact out_if trivial (next_kept (writeReg_kept hk))

/-! ### Shares -/

theorem releaseHeld_kept {x0} {S1 : State} (hk : Kept q S1) : Kept q (releaseHeld x0 S1) := by
  refine kept_foldl (fun _ _ h0 => ?_) hk
  split
  · exact complete_kept h0
  · exact h0
theorem resumeInst_kept {x0} {S1 : State} (hk : Kept q S1) : Kept q (resumeInst x0 S1) :=
  pumpReads_kept (retryStaged_kept (releaseHeld_kept (runInst_kept hk)))
theorem instanceShare_kept {x0} {S1 : State} (hk : Kept q S1) : Kept q (instanceShare x0 S1) := by
  refine withTarget_kept (fun _ _ h0 => ?_) hk
  try extract_lets -merge -underBinder +onlyGivenNames z1
  try clear_value z1
  refine kept_if (mEnd_kept h0) ?_
  refine kept_if (mEnd_kept h0) ?_
  refine kept_if (mEnd_kept h0) ?_
  extract_lets -merge -underBinder +onlyGivenNames z2
  have h3 : Kept q z2 := kept_if (setQuota_kept h0) h0
  try clear_value z2
  try extract_lets -merge -underBinder +onlyGivenNames z11
  try clear_value z11
  extract_lets -merge -underBinder +onlyGivenNames z12
  have h13 : Kept q z12 := kept_if (State_modInst_kept h3) h3
  try clear_value z12
  exact mOk_kept (kept_if (resumeInst_kept (kept_if (State_modInst_kept h13) h13)) h13)
theorem execInstanceShare_kept {x0} {S1 : State} (hk : Kept q S1) : OutKept q (execInstanceShare x0 S1) :=
  next_kept (mgmtCmd_kept (fun _ _ h0 => instanceShare_kept h0) hk)

/-! ### Spdm -/

theorem respond_kept {x0} {S1 : State} (hk : Kept q S1) : Kept q (respond x0 S1) := kept_mk hk id
theorem serveSpdm_kept {x0 x1 x2 x3} {S4 : State} (hx3 : ∀ s, Kept q s → Kept q (x3 s)) (hk : Kept q S4) : Kept q (serveSpdm x0 x1 x2 x3 S4) :=
  kept_if hk (kept_if (respond_kept hk) (kept_if (respond_kept hk) (kept_if (respond_kept hk) (kept_if (respond_kept hk) (hx3 _ (kept_if hk (kept_mk hk id)))))))
theorem answerVca_kept {x0 x1} {S2 : State} (hk : Kept q S2) : Kept q (answerVca x0 x1 S2) :=
  respond_kept (kept_mk hk id)
theorem answerLogged_kept {x0 x1} {S2 : State} (hk : Kept q S2) : Kept q (answerLogged x0 x1 S2) :=
  respond_kept (kept_mk hk id)
theorem getVersion_kept {x0} {S1 : State} (hk : Kept q S1) : Kept q (getVersion x0 S1) :=
  serveSpdm_kept (fun _ h0 => kept_if (respond_kept h0) (answerVca_kept (kept_mk h0 id))) hk
theorem execGetVersion_kept {x0} {S1 : State} (hk : Kept q S1) : OutKept q (execGetVersion x0 S1) :=
  next_kept (getVersion_kept hk)
theorem getCapabilities_kept {x0} {S1 : State} (hk : Kept q S1) : Kept q (getCapabilities x0 S1) :=
  serveSpdm_kept (fun _ h0 => kept_if (respond_kept h0) (kept_if (respond_kept h0) (answerVca_kept (kept_mk h0 id)))) hk
theorem execGetCapabilities_kept {x0} {S1 : State} (hk : Kept q S1) : OutKept q (execGetCapabilities x0 S1) :=
  next_kept (getCapabilities_kept hk)
theorem negotiateAlgorithms_kept {x0} {S1 : State} (hk : Kept q S1) : Kept q (negotiateAlgorithms x0 S1) :=
  serveSpdm_kept (fun _ h0 => kept_if (respond_kept h0) (kept_if (respond_kept h0) (answerVca_kept (kept_mk h0 id)))) hk
theorem execNegotiateAlgorithms_kept {x0} {S1 : State} (hk : Kept q S1) : OutKept q (execNegotiateAlgorithms x0 S1) :=
  next_kept (negotiateAlgorithms_kept hk)
theorem getDigests_kept {x0} {S1 : State} (hk : Kept q S1) : Kept q (getDigests x0 S1) :=
  serveSpdm_kept (fun _ h0 => answerLogged_kept h0) hk
theorem execGetDigests_kept {x0} {S1 : State} (hk : Kept q S1) : OutKept q (execGetDigests x0 S1) :=
  next_kept (getDigests_kept hk)
theorem getCertificate_kept {x0} {S1 : State} (hk : Kept q S1) : Kept q (getCertificate x0 S1) :=
  serveSpdm_kept (fun _ h0 => kept_if (respond_kept h0) (answerLogged_kept h0)) hk
theorem execGetCertificate_kept {x0} {S1 : State} (hk : Kept q S1) : OutKept q (execGetCertificate x0 S1) :=
  next_kept (getCertificate_kept hk)
theorem challengeAuth_kept {x0} {S1 : State} (hk : Kept q S1) : Kept q (challengeAuth x0 S1) :=
  serveSpdm_kept (fun _ h0 => kept_if (respond_kept h0) (respond_kept (kept_mk (drawn_kept h0) id))) hk
theorem execChallenge_kept {x0} {S1 : State} (hk : Kept q S1) : OutKept q (execChallenge x0 S1) :=
  next_kept (challengeAuth_kept hk)
theorem getMeasurements_kept {x0} {S1 : State} (hk : Kept q S1) : Kept q (getMeasurements x0 S1) :=
  serveSpdm_kept (fun _ h0 => kept_if (respond_kept (kept_mk h0 id)) (kept_if (respond_kept (kept_mk (drawn_kept h0) id)) (respond_kept (kept_mk (drawn_kept h0) id)))) hk
theorem execGetMeasurements_kept {x0} {S1 : State} (hk : Kept q S1) : OutKept q (execGetMeasurements x0 S1) :=
  next_kept (getMeasurements_kept hk)
theorem vendorRequest_kept {x0} {S1 : State} (hk : Kept q S1) : Kept q (vendorRequest x0 S1) :=
  serveSpdm_kept (fun _ h0 => kept_if (respond_kept h0) (respond_kept h0)) hk
theorem execVendorDefinedRequest_kept {x0} {S1 : State} (hk : Kept q S1) : OutKept q (execVendorDefinedRequest x0 S1) :=
  next_kept (vendorRequest_kept hk)
theorem setEndpointId_kept {x0} {S1 : State} (hk : Kept q S1) : Kept q (setEndpointId x0 S1) :=
  kept_if hk (kept_mk hk id)
theorem execSetEndpointId_kept {x0} {S1 : State} (hk : Kept q S1) : OutKept q (execSetEndpointId x0 S1) :=
  next_kept (setEndpointId_kept hk)

/-! ### Idle -/

theorem idle_kept {S0 : State} (hk : Kept q S0) : Kept q (idle S0) := by
  refine kept_if hk ?_
  extract_lets -merge -underBinder +onlyGivenNames _ z0
  have h1 : Kept q z0 := tryReassemble_kept (kept_mk hk id)
  try clear_value z0
  exact kept_if (replayDoorbells_kept h1) h1

end Sys2Proof.Machine
end

