-- ==== Sys2Proof/Laws/State.lean ====
section
/-! SUPPORT. Sys2Proof/Laws/State.lean: the fields of State after each named update: what it changes, and all the others as they
were. -/

namespace Sys2Proof.Machine

/-! ### Vectors -/

@[simp] theorem vset_same {α : Type} {n : Nat} (v : Vector α n) (i : Fin n) (x : α) : (vset v i x)[i] = x := by simp [vset]
theorem vset_other {α : Type} {n : Nat} (v : Vector α n) (i j : Fin n) (x : α) (h : i ≠ j) : (vset v i x)[j] = v[j] := by
  have : i.val ≠ j.val := fun e => h (Fin.ext e)
  simp [vset, this]
@[simp] theorem vmod_same {α : Type} {n : Nat} (v : Vector α n) (i : Fin n) (f : α → α) : (vmod v i f)[i] = f v[i] := vset_same _ _ _
theorem vmod_other {α : Type} {n : Nat} (v : Vector α n) (i j : Fin n) (f : α → α) (h : i ≠ j) : (vmod v i f)[j] = v[j] := vset_other v i j _ h

/-! ### The element changed, and the others -/

@[simp] theorem inst_modInst_same (s : State) (v : Inst) (f : InstSt → InstSt) : (s.modInst v f).inst v = f (s.inst v) := vmod_same _ _ _
theorem inst_modInst_other (s : State) (v w : Inst) (f : InstSt → InstSt) (h : v ≠ w) : (s.modInst v f).inst w = s.inst w := vmod_other _ _ _ _ h
@[simp] theorem ring_modRing_same (s : State) (r : RingId) (f : Ring → Ring) : (s.modRing r f).ring r = f (s.ring r) := by
  cases r with
  | none => rfl
  | some v => simp only [State.modRing, State.ring, inst_modInst_same]
theorem ring_modRing_other (s : State) (r t : RingId) (f : Ring → Ring) (h : r ≠ t) : (s.modRing r f).ring t = s.ring t := by
  cases r with
  | none => cases t with
    | none => exact absurd rfl h
    | some _ => rfl
  | some v => cases t with
    | none => rfl
    | some w =>
      have hvw : v ≠ w := fun e => h (e ▸ rfl)
      simp only [State.modRing, State.ring, inst_modInst_other s v w _ hvw]
@[simp] theorem inst_modRing_none (s : State) (v : Inst) (f : Ring → Ring) : (s.modRing none f).inst v = s.inst v := rfl
@[simp] theorem ring_modInst_none (s : State) (v : Inst) (f : InstSt → InstSt) : (s.modInst v f).ring none = s.ring none := rfl
@[simp] theorem inst_hostWrite (v : Inst) (space addr : Nat) (bs : Bytes) (s : State) : (hostWrite space addr bs s).inst v = s.inst v := rfl
@[simp] theorem ring_hostWrite (r : RingId) (space addr : Nat) (bs : Bytes) (s : State) : (hostWrite space addr bs s).ring r = s.ring r := by cases r <;> rfl

/-! ### The other fields -/

@[simp] theorem modInst_pending (s : State) (v : Inst) (f : InstSt → InstSt) : (s.modInst v f).pending = s.pending := rfl
@[simp] theorem modInst_glb (s : State) (v : Inst) (f : InstSt → InstSt) : (s.modInst v f).glb = s.glb := rfl
@[simp] theorem modInst_pwr (s : State) (v : Inst) (f : InstSt → InstSt) : (s.modInst v f).pwr = s.pwr := rfl
@[simp] theorem modInst_sec (s : State) (v : Inst) (f : InstSt → InstSt) : (s.modInst v f).sec = s.sec := rfl
@[simp] theorem modInst_evt (s : State) (v : Inst) (f : InstSt → InstSt) : (s.modInst v f).evt = s.evt := rfl
@[simp] theorem modInst_qs (s : State) (v : Inst) (f : InstSt → InstSt) : (s.modInst v f).qs = s.qs := rfl
@[simp] theorem modInst_msix (s : State) (v : Inst) (f : InstSt → InstSt) : (s.modInst v f).msix = s.msix := rfl
@[simp] theorem modInst_hif (s : State) (v : Inst) (f : InstSt → InstSt) : (s.modInst v f).hif = s.hif := rfl
@[simp] theorem modInst_seqs (s : State) (v : Inst) (f : InstSt → InstSt) : (s.modInst v f).seqs = s.seqs := rfl
@[simp] theorem modInst_streams (s : State) (v : Inst) (f : InstSt → InstSt) : (s.modInst v f).streams = s.streams := rfl
@[simp] theorem modInst_blks (s : State) (v : Inst) (f : InstSt → InstSt) : (s.modInst v f).blks = s.blks := rfl
@[simp] theorem modInst_codec (s : State) (v : Inst) (f : InstSt → InstSt) : (s.modInst v f).codec = s.codec := rfl
@[simp] theorem modInst_fmt (s : State) (v : Inst) (f : InstSt → InstSt) : (s.modInst v f).fmt = s.fmt := rfl
@[simp] theorem modInst_wch (s : State) (v : Inst) (f : InstSt → InstSt) : (s.modInst v f).wch = s.wch := rfl
@[simp] theorem modInst_pace (s : State) (v : Inst) (f : InstSt → InstSt) : (s.modInst v f).pace = s.pace := rfl
@[simp] theorem modInst_cart (s : State) (v : Inst) (f : InstSt → InstSt) : (s.modInst v f).cart = s.cart := rfl
@[simp] theorem modInst_pans (s : State) (v : Inst) (f : InstSt → InstSt) : (s.modInst v f).pans = s.pans := rfl
@[simp] theorem modInst_buf (s : State) (v : Inst) (f : InstSt → InstSt) : (s.modInst v f).buf = s.buf := rfl
@[simp] theorem modInst_mov (s : State) (v : Inst) (f : InstSt → InstSt) : (s.modInst v f).mov = s.mov := rfl
@[simp] theorem modInst_rch (s : State) (v : Inst) (f : InstSt → InstSt) : (s.modInst v f).rch = s.rch := rfl
@[simp] theorem modInst_rdc (s : State) (v : Inst) (f : InstSt → InstSt) : (s.modInst v f).rdc = s.rdc := rfl
@[simp] theorem modInst_rtv (s : State) (v : Inst) (f : InstSt → InstSt) : (s.modInst v f).rtv = s.rtv := rfl
@[simp] theorem modInst_srv (s : State) (v : Inst) (f : InstSt → InstSt) : (s.modInst v f).srv = s.srv := rfl
@[simp] theorem modInst_mot (s : State) (v : Inst) (f : InstSt → InstSt) : (s.modInst v f).mot = s.mot := rfl
@[simp] theorem modInst_chn (s : State) (v : Inst) (f : InstSt → InstSt) : (s.modInst v f).chn = s.chn := rfl
@[simp] theorem modInst_prof (s : State) (v : Inst) (f : InstSt → InstSt) : (s.modInst v f).prof = s.prof := rfl
@[simp] theorem modInst_hostMem (s : State) (v : Inst) (f : InstSt → InstSt) : (s.modInst v f).hostMem = s.hostMem := rfl
@[simp] theorem modInst_freeCtr (s : State) (v : Inst) (f : InstSt → InstSt) : (s.modInst v f).freeCtr = s.freeCtr := rfl
@[simp] theorem modInst_nextId (s : State) (v : Inst) (f : InstSt → InstSt) : (s.modInst v f).nextId = s.nextId := rfl

@[simp] theorem modRing_pending (s : State) (r : RingId) (f : Ring → Ring) : (s.modRing r f).pending = s.pending := by cases r <;> rfl
@[simp] theorem modRing_glb (s : State) (r : RingId) (f : Ring → Ring) : (s.modRing r f).glb = s.glb := by cases r <;> rfl
@[simp] theorem modRing_pwr (s : State) (r : RingId) (f : Ring → Ring) : (s.modRing r f).pwr = s.pwr := by cases r <;> rfl
@[simp] theorem modRing_sec (s : State) (r : RingId) (f : Ring → Ring) : (s.modRing r f).sec = s.sec := by cases r <;> rfl
@[simp] theorem modRing_evt (s : State) (r : RingId) (f : Ring → Ring) : (s.modRing r f).evt = s.evt := by cases r <;> rfl
@[simp] theorem modRing_qs (s : State) (r : RingId) (f : Ring → Ring) : (s.modRing r f).qs = s.qs := by cases r <;> rfl
@[simp] theorem modRing_msix (s : State) (r : RingId) (f : Ring → Ring) : (s.modRing r f).msix = s.msix := by cases r <;> rfl
@[simp] theorem modRing_seqs (s : State) (r : RingId) (f : Ring → Ring) : (s.modRing r f).seqs = s.seqs := by cases r <;> rfl
@[simp] theorem modRing_streams (s : State) (r : RingId) (f : Ring → Ring) : (s.modRing r f).streams = s.streams := by cases r <;> rfl
@[simp] theorem modRing_blks (s : State) (r : RingId) (f : Ring → Ring) : (s.modRing r f).blks = s.blks := by cases r <;> rfl
@[simp] theorem modRing_codec (s : State) (r : RingId) (f : Ring → Ring) : (s.modRing r f).codec = s.codec := by cases r <;> rfl
@[simp] theorem modRing_fmt (s : State) (r : RingId) (f : Ring → Ring) : (s.modRing r f).fmt = s.fmt := by cases r <;> rfl
@[simp] theorem modRing_wch (s : State) (r : RingId) (f : Ring → Ring) : (s.modRing r f).wch = s.wch := by cases r <;> rfl
@[simp] theorem modRing_pace (s : State) (r : RingId) (f : Ring → Ring) : (s.modRing r f).pace = s.pace := by cases r <;> rfl
@[simp] theorem modRing_cart (s : State) (r : RingId) (f : Ring → Ring) : (s.modRing r f).cart = s.cart := by cases r <;> rfl
@[simp] theorem modRing_pans (s : State) (r : RingId) (f : Ring → Ring) : (s.modRing r f).pans = s.pans := by cases r <;> rfl
@[simp] theorem modRing_buf (s : State) (r : RingId) (f : Ring → Ring) : (s.modRing r f).buf = s.buf := by cases r <;> rfl
@[simp] theorem modRing_mov (s : State) (r : RingId) (f : Ring → Ring) : (s.modRing r f).mov = s.mov := by cases r <;> rfl
@[simp] theorem modRing_rch (s : State) (r : RingId) (f : Ring → Ring) : (s.modRing r f).rch = s.rch := by cases r <;> rfl
@[simp] theorem modRing_rdc (s : State) (r : RingId) (f : Ring → Ring) : (s.modRing r f).rdc = s.rdc := by cases r <;> rfl
@[simp] theorem modRing_rtv (s : State) (r : RingId) (f : Ring → Ring) : (s.modRing r f).rtv = s.rtv := by cases r <;> rfl
@[simp] theorem modRing_srv (s : State) (r : RingId) (f : Ring → Ring) : (s.modRing r f).srv = s.srv := by cases r <;> rfl
@[simp] theorem modRing_mot (s : State) (r : RingId) (f : Ring → Ring) : (s.modRing r f).mot = s.mot := by cases r <;> rfl
@[simp] theorem modRing_chn (s : State) (r : RingId) (f : Ring → Ring) : (s.modRing r f).chn = s.chn := by cases r <;> rfl
@[simp] theorem modRing_prof (s : State) (r : RingId) (f : Ring → Ring) : (s.modRing r f).prof = s.prof := by cases r <;> rfl
@[simp] theorem modRing_hostMem (s : State) (r : RingId) (f : Ring → Ring) : (s.modRing r f).hostMem = s.hostMem := by cases r <;> rfl
@[simp] theorem modRing_freeCtr (s : State) (r : RingId) (f : Ring → Ring) : (s.modRing r f).freeCtr = s.freeCtr := by cases r <;> rfl
@[simp] theorem modRing_nextId (s : State) (r : RingId) (f : Ring → Ring) : (s.modRing r f).nextId = s.nextId := by cases r <;> rfl

@[simp] theorem modCmd_pending (s : State) (r : RingId) (uid : Nat) (f : Cmd → Cmd) : (s.modCmd r uid f).pending = s.pending := by cases r <;> rfl
@[simp] theorem modCmd_glb (s : State) (r : RingId) (uid : Nat) (f : Cmd → Cmd) : (s.modCmd r uid f).glb = s.glb := by cases r <;> rfl
@[simp] theorem modCmd_pwr (s : State) (r : RingId) (uid : Nat) (f : Cmd → Cmd) : (s.modCmd r uid f).pwr = s.pwr := by cases r <;> rfl
@[simp] theorem modCmd_sec (s : State) (r : RingId) (uid : Nat) (f : Cmd → Cmd) : (s.modCmd r uid f).sec = s.sec := by cases r <;> rfl
@[simp] theorem modCmd_evt (s : State) (r : RingId) (uid : Nat) (f : Cmd → Cmd) : (s.modCmd r uid f).evt = s.evt := by cases r <;> rfl
@[simp] theorem modCmd_qs (s : State) (r : RingId) (uid : Nat) (f : Cmd → Cmd) : (s.modCmd r uid f).qs = s.qs := by cases r <;> rfl
@[simp] theorem modCmd_msix (s : State) (r : RingId) (uid : Nat) (f : Cmd → Cmd) : (s.modCmd r uid f).msix = s.msix := by cases r <;> rfl
@[simp] theorem modCmd_seqs (s : State) (r : RingId) (uid : Nat) (f : Cmd → Cmd) : (s.modCmd r uid f).seqs = s.seqs := by cases r <;> rfl
@[simp] theorem modCmd_streams (s : State) (r : RingId) (uid : Nat) (f : Cmd → Cmd) : (s.modCmd r uid f).streams = s.streams := by cases r <;> rfl
@[simp] theorem modCmd_blks (s : State) (r : RingId) (uid : Nat) (f : Cmd → Cmd) : (s.modCmd r uid f).blks = s.blks := by cases r <;> rfl
@[simp] theorem modCmd_codec (s : State) (r : RingId) (uid : Nat) (f : Cmd → Cmd) : (s.modCmd r uid f).codec = s.codec := by cases r <;> rfl
@[simp] theorem modCmd_fmt (s : State) (r : RingId) (uid : Nat) (f : Cmd → Cmd) : (s.modCmd r uid f).fmt = s.fmt := by cases r <;> rfl
@[simp] theorem modCmd_wch (s : State) (r : RingId) (uid : Nat) (f : Cmd → Cmd) : (s.modCmd r uid f).wch = s.wch := by cases r <;> rfl
@[simp] theorem modCmd_pace (s : State) (r : RingId) (uid : Nat) (f : Cmd → Cmd) : (s.modCmd r uid f).pace = s.pace := by cases r <;> rfl
@[simp] theorem modCmd_cart (s : State) (r : RingId) (uid : Nat) (f : Cmd → Cmd) : (s.modCmd r uid f).cart = s.cart := by cases r <;> rfl
@[simp] theorem modCmd_pans (s : State) (r : RingId) (uid : Nat) (f : Cmd → Cmd) : (s.modCmd r uid f).pans = s.pans := by cases r <;> rfl
@[simp] theorem modCmd_buf (s : State) (r : RingId) (uid : Nat) (f : Cmd → Cmd) : (s.modCmd r uid f).buf = s.buf := by cases r <;> rfl
@[simp] theorem modCmd_mov (s : State) (r : RingId) (uid : Nat) (f : Cmd → Cmd) : (s.modCmd r uid f).mov = s.mov := by cases r <;> rfl
@[simp] theorem modCmd_rch (s : State) (r : RingId) (uid : Nat) (f : Cmd → Cmd) : (s.modCmd r uid f).rch = s.rch := by cases r <;> rfl
@[simp] theorem modCmd_rdc (s : State) (r : RingId) (uid : Nat) (f : Cmd → Cmd) : (s.modCmd r uid f).rdc = s.rdc := by cases r <;> rfl
@[simp] theorem modCmd_rtv (s : State) (r : RingId) (uid : Nat) (f : Cmd → Cmd) : (s.modCmd r uid f).rtv = s.rtv := by cases r <;> rfl
@[simp] theorem modCmd_srv (s : State) (r : RingId) (uid : Nat) (f : Cmd → Cmd) : (s.modCmd r uid f).srv = s.srv := by cases r <;> rfl
@[simp] theorem modCmd_mot (s : State) (r : RingId) (uid : Nat) (f : Cmd → Cmd) : (s.modCmd r uid f).mot = s.mot := by cases r <;> rfl
@[simp] theorem modCmd_chn (s : State) (r : RingId) (uid : Nat) (f : Cmd → Cmd) : (s.modCmd r uid f).chn = s.chn := by cases r <;> rfl
@[simp] theorem modCmd_prof (s : State) (r : RingId) (uid : Nat) (f : Cmd → Cmd) : (s.modCmd r uid f).prof = s.prof := by cases r <;> rfl
@[simp] theorem modCmd_hostMem (s : State) (r : RingId) (uid : Nat) (f : Cmd → Cmd) : (s.modCmd r uid f).hostMem = s.hostMem := by cases r <;> rfl
@[simp] theorem modCmd_freeCtr (s : State) (r : RingId) (uid : Nat) (f : Cmd → Cmd) : (s.modCmd r uid f).freeCtr = s.freeCtr := by cases r <;> rfl
@[simp] theorem modCmd_nextId (s : State) (r : RingId) (uid : Nat) (f : Cmd → Cmd) : (s.modCmd r uid f).nextId = s.nextId := by cases r <;> rfl

@[simp] theorem modPan_pending (s : State) (p : Fin 4) (f : Pan → Pan) : (s.modPan p f).pending = s.pending := rfl
@[simp] theorem modPan_glb (s : State) (p : Fin 4) (f : Pan → Pan) : (s.modPan p f).glb = s.glb := rfl
@[simp] theorem modPan_pwr (s : State) (p : Fin 4) (f : Pan → Pan) : (s.modPan p f).pwr = s.pwr := rfl
@[simp] theorem modPan_sec (s : State) (p : Fin 4) (f : Pan → Pan) : (s.modPan p f).sec = s.sec := rfl
@[simp] theorem modPan_evt (s : State) (p : Fin 4) (f : Pan → Pan) : (s.modPan p f).evt = s.evt := rfl
@[simp] theorem modPan_qs (s : State) (p : Fin 4) (f : Pan → Pan) : (s.modPan p f).qs = s.qs := rfl
@[simp] theorem modPan_msix (s : State) (p : Fin 4) (f : Pan → Pan) : (s.modPan p f).msix = s.msix := rfl
@[simp] theorem modPan_hif (s : State) (p : Fin 4) (f : Pan → Pan) : (s.modPan p f).hif = s.hif := rfl
@[simp] theorem modPan_insts (s : State) (p : Fin 4) (f : Pan → Pan) : (s.modPan p f).insts = s.insts := rfl
@[simp] theorem modPan_seqs (s : State) (p : Fin 4) (f : Pan → Pan) : (s.modPan p f).seqs = s.seqs := rfl
@[simp] theorem modPan_streams (s : State) (p : Fin 4) (f : Pan → Pan) : (s.modPan p f).streams = s.streams := rfl
@[simp] theorem modPan_blks (s : State) (p : Fin 4) (f : Pan → Pan) : (s.modPan p f).blks = s.blks := rfl
@[simp] theorem modPan_codec (s : State) (p : Fin 4) (f : Pan → Pan) : (s.modPan p f).codec = s.codec := rfl
@[simp] theorem modPan_fmt (s : State) (p : Fin 4) (f : Pan → Pan) : (s.modPan p f).fmt = s.fmt := rfl
@[simp] theorem modPan_wch (s : State) (p : Fin 4) (f : Pan → Pan) : (s.modPan p f).wch = s.wch := rfl
@[simp] theorem modPan_pace (s : State) (p : Fin 4) (f : Pan → Pan) : (s.modPan p f).pace = s.pace := rfl
@[simp] theorem modPan_cart (s : State) (p : Fin 4) (f : Pan → Pan) : (s.modPan p f).cart = s.cart := rfl
@[simp] theorem modPan_buf (s : State) (p : Fin 4) (f : Pan → Pan) : (s.modPan p f).buf = s.buf := rfl
@[simp] theorem modPan_mov (s : State) (p : Fin 4) (f : Pan → Pan) : (s.modPan p f).mov = s.mov := rfl
@[simp] theorem modPan_rch (s : State) (p : Fin 4) (f : Pan → Pan) : (s.modPan p f).rch = s.rch := rfl
@[simp] theorem modPan_rdc (s : State) (p : Fin 4) (f : Pan → Pan) : (s.modPan p f).rdc = s.rdc := rfl
@[simp] theorem modPan_rtv (s : State) (p : Fin 4) (f : Pan → Pan) : (s.modPan p f).rtv = s.rtv := rfl
@[simp] theorem modPan_srv (s : State) (p : Fin 4) (f : Pan → Pan) : (s.modPan p f).srv = s.srv := rfl
@[simp] theorem modPan_mot (s : State) (p : Fin 4) (f : Pan → Pan) : (s.modPan p f).mot = s.mot := rfl
@[simp] theorem modPan_chn (s : State) (p : Fin 4) (f : Pan → Pan) : (s.modPan p f).chn = s.chn := rfl
@[simp] theorem modPan_prof (s : State) (p : Fin 4) (f : Pan → Pan) : (s.modPan p f).prof = s.prof := rfl
@[simp] theorem modPan_hostMem (s : State) (p : Fin 4) (f : Pan → Pan) : (s.modPan p f).hostMem = s.hostMem := rfl
@[simp] theorem modPan_freeCtr (s : State) (p : Fin 4) (f : Pan → Pan) : (s.modPan p f).freeCtr = s.freeCtr := rfl
@[simp] theorem modPan_nextId (s : State) (p : Fin 4) (f : Pan → Pan) : (s.modPan p f).nextId = s.nextId := rfl

@[simp] theorem modSlot_pending (s : State) (v : Inst) (k : SlotNo) (f : KeySlot → KeySlot) : (s.modSlot v k f).pending = s.pending := rfl
@[simp] theorem modSlot_glb (s : State) (v : Inst) (k : SlotNo) (f : KeySlot → KeySlot) : (s.modSlot v k f).glb = s.glb := rfl
@[simp] theorem modSlot_pwr (s : State) (v : Inst) (k : SlotNo) (f : KeySlot → KeySlot) : (s.modSlot v k f).pwr = s.pwr := rfl
@[simp] theorem modSlot_sec (s : State) (v : Inst) (k : SlotNo) (f : KeySlot → KeySlot) : (s.modSlot v k f).sec = s.sec := rfl
@[simp] theorem modSlot_evt (s : State) (v : Inst) (k : SlotNo) (f : KeySlot → KeySlot) : (s.modSlot v k f).evt = s.evt := rfl
@[simp] theorem modSlot_qs (s : State) (v : Inst) (k : SlotNo) (f : KeySlot → KeySlot) : (s.modSlot v k f).qs = s.qs := rfl
@[simp] theorem modSlot_msix (s : State) (v : Inst) (k : SlotNo) (f : KeySlot → KeySlot) : (s.modSlot v k f).msix = s.msix := rfl
@[simp] theorem modSlot_hif (s : State) (v : Inst) (k : SlotNo) (f : KeySlot → KeySlot) : (s.modSlot v k f).hif = s.hif := rfl
@[simp] theorem modSlot_seqs (s : State) (v : Inst) (k : SlotNo) (f : KeySlot → KeySlot) : (s.modSlot v k f).seqs = s.seqs := rfl
@[simp] theorem modSlot_streams (s : State) (v : Inst) (k : SlotNo) (f : KeySlot → KeySlot) : (s.modSlot v k f).streams = s.streams := rfl
@[simp] theorem modSlot_blks (s : State) (v : Inst) (k : SlotNo) (f : KeySlot → KeySlot) : (s.modSlot v k f).blks = s.blks := rfl
@[simp] theorem modSlot_codec (s : State) (v : Inst) (k : SlotNo) (f : KeySlot → KeySlot) : (s.modSlot v k f).codec = s.codec := rfl
@[simp] theorem modSlot_fmt (s : State) (v : Inst) (k : SlotNo) (f : KeySlot → KeySlot) : (s.modSlot v k f).fmt = s.fmt := rfl
@[simp] theorem modSlot_wch (s : State) (v : Inst) (k : SlotNo) (f : KeySlot → KeySlot) : (s.modSlot v k f).wch = s.wch := rfl
@[simp] theorem modSlot_pace (s : State) (v : Inst) (k : SlotNo) (f : KeySlot → KeySlot) : (s.modSlot v k f).pace = s.pace := rfl
@[simp] theorem modSlot_cart (s : State) (v : Inst) (k : SlotNo) (f : KeySlot → KeySlot) : (s.modSlot v k f).cart = s.cart := rfl
@[simp] theorem modSlot_pans (s : State) (v : Inst) (k : SlotNo) (f : KeySlot → KeySlot) : (s.modSlot v k f).pans = s.pans := rfl
@[simp] theorem modSlot_buf (s : State) (v : Inst) (k : SlotNo) (f : KeySlot → KeySlot) : (s.modSlot v k f).buf = s.buf := rfl
@[simp] theorem modSlot_mov (s : State) (v : Inst) (k : SlotNo) (f : KeySlot → KeySlot) : (s.modSlot v k f).mov = s.mov := rfl
@[simp] theorem modSlot_rch (s : State) (v : Inst) (k : SlotNo) (f : KeySlot → KeySlot) : (s.modSlot v k f).rch = s.rch := rfl
@[simp] theorem modSlot_rdc (s : State) (v : Inst) (k : SlotNo) (f : KeySlot → KeySlot) : (s.modSlot v k f).rdc = s.rdc := rfl
@[simp] theorem modSlot_rtv (s : State) (v : Inst) (k : SlotNo) (f : KeySlot → KeySlot) : (s.modSlot v k f).rtv = s.rtv := rfl
@[simp] theorem modSlot_srv (s : State) (v : Inst) (k : SlotNo) (f : KeySlot → KeySlot) : (s.modSlot v k f).srv = s.srv := rfl
@[simp] theorem modSlot_mot (s : State) (v : Inst) (k : SlotNo) (f : KeySlot → KeySlot) : (s.modSlot v k f).mot = s.mot := rfl
@[simp] theorem modSlot_chn (s : State) (v : Inst) (k : SlotNo) (f : KeySlot → KeySlot) : (s.modSlot v k f).chn = s.chn := rfl
@[simp] theorem modSlot_prof (s : State) (v : Inst) (k : SlotNo) (f : KeySlot → KeySlot) : (s.modSlot v k f).prof = s.prof := rfl
@[simp] theorem modSlot_hostMem (s : State) (v : Inst) (k : SlotNo) (f : KeySlot → KeySlot) : (s.modSlot v k f).hostMem = s.hostMem := rfl
@[simp] theorem modSlot_freeCtr (s : State) (v : Inst) (k : SlotNo) (f : KeySlot → KeySlot) : (s.modSlot v k f).freeCtr = s.freeCtr := rfl
@[simp] theorem modSlot_nextId (s : State) (v : Inst) (k : SlotNo) (f : KeySlot → KeySlot) : (s.modSlot v k f).nextId = s.nextId := rfl

@[simp] theorem modStream_pending (s : State) (sid : Nat) (f : Stream → Stream) : (s.modStream sid f).pending = s.pending := rfl
@[simp] theorem modStream_glb (s : State) (sid : Nat) (f : Stream → Stream) : (s.modStream sid f).glb = s.glb := rfl
@[simp] theorem modStream_pwr (s : State) (sid : Nat) (f : Stream → Stream) : (s.modStream sid f).pwr = s.pwr := rfl
@[simp] theorem modStream_sec (s : State) (sid : Nat) (f : Stream → Stream) : (s.modStream sid f).sec = s.sec := rfl
@[simp] theorem modStream_evt (s : State) (sid : Nat) (f : Stream → Stream) : (s.modStream sid f).evt = s.evt := rfl
@[simp] theorem modStream_qs (s : State) (sid : Nat) (f : Stream → Stream) : (s.modStream sid f).qs = s.qs := rfl
@[simp] theorem modStream_msix (s : State) (sid : Nat) (f : Stream → Stream) : (s.modStream sid f).msix = s.msix := rfl
@[simp] theorem modStream_hif (s : State) (sid : Nat) (f : Stream → Stream) : (s.modStream sid f).hif = s.hif := rfl
@[simp] theorem modStream_insts (s : State) (sid : Nat) (f : Stream → Stream) : (s.modStream sid f).insts = s.insts := rfl
@[simp] theorem modStream_seqs (s : State) (sid : Nat) (f : Stream → Stream) : (s.modStream sid f).seqs = s.seqs := rfl
@[simp] theorem modStream_blks (s : State) (sid : Nat) (f : Stream → Stream) : (s.modStream sid f).blks = s.blks := rfl
@[simp] theorem modStream_codec (s : State) (sid : Nat) (f : Stream → Stream) : (s.modStream sid f).codec = s.codec := rfl
@[simp] theorem modStream_fmt (s : State) (sid : Nat) (f : Stream → Stream) : (s.modStream sid f).fmt = s.fmt := rfl
@[simp] theorem modStream_wch (s : State) (sid : Nat) (f : Stream → Stream) : (s.modStream sid f).wch = s.wch := rfl
@[simp] theorem modStream_pace (s : State) (sid : Nat) (f : Stream → Stream) : (s.modStream sid f).pace = s.pace := rfl
@[simp] theorem modStream_cart (s : State) (sid : Nat) (f : Stream → Stream) : (s.modStream sid f).cart = s.cart := rfl
@[simp] theorem modStream_pans (s : State) (sid : Nat) (f : Stream → Stream) : (s.modStream sid f).pans = s.pans := rfl
@[simp] theorem modStream_buf (s : State) (sid : Nat) (f : Stream → Stream) : (s.modStream sid f).buf = s.buf := rfl
@[simp] theorem modStream_mov (s : State) (sid : Nat) (f : Stream → Stream) : (s.modStream sid f).mov = s.mov := rfl
@[simp] theorem modStream_rch (s : State) (sid : Nat) (f : Stream → Stream) : (s.modStream sid f).rch = s.rch := rfl
@[simp] theorem modStream_rdc (s : State) (sid : Nat) (f : Stream → Stream) : (s.modStream sid f).rdc = s.rdc := rfl
@[simp] theorem modStream_rtv (s : State) (sid : Nat) (f : Stream → Stream) : (s.modStream sid f).rtv = s.rtv := rfl
@[simp] theorem modStream_srv (s : State) (sid : Nat) (f : Stream → Stream) : (s.modStream sid f).srv = s.srv := rfl
@[simp] theorem modStream_mot (s : State) (sid : Nat) (f : Stream → Stream) : (s.modStream sid f).mot = s.mot := rfl
@[simp] theorem modStream_chn (s : State) (sid : Nat) (f : Stream → Stream) : (s.modStream sid f).chn = s.chn := rfl
@[simp] theorem modStream_prof (s : State) (sid : Nat) (f : Stream → Stream) : (s.modStream sid f).prof = s.prof := rfl
@[simp] theorem modStream_hostMem (s : State) (sid : Nat) (f : Stream → Stream) : (s.modStream sid f).hostMem = s.hostMem := rfl
@[simp] theorem modStream_freeCtr (s : State) (sid : Nat) (f : Stream → Stream) : (s.modStream sid f).freeCtr = s.freeCtr := rfl
@[simp] theorem modStream_nextId (s : State) (sid : Nat) (f : Stream → Stream) : (s.modStream sid f).nextId = s.nextId := rfl

@[simp] theorem modBlk_pending (s : State) (id : Nat) (f : Blk → Blk) : (s.modBlk id f).pending = s.pending := rfl
@[simp] theorem modBlk_glb (s : State) (id : Nat) (f : Blk → Blk) : (s.modBlk id f).glb = s.glb := rfl
@[simp] theorem modBlk_pwr (s : State) (id : Nat) (f : Blk → Blk) : (s.modBlk id f).pwr = s.pwr := rfl
@[simp] theorem modBlk_sec (s : State) (id : Nat) (f : Blk → Blk) : (s.modBlk id f).sec = s.sec := rfl
@[simp] theorem modBlk_evt (s : State) (id : Nat) (f : Blk → Blk) : (s.modBlk id f).evt = s.evt := rfl
@[simp] theorem modBlk_qs (s : State) (id : Nat) (f : Blk → Blk) : (s.modBlk id f).qs = s.qs := rfl
@[simp] theorem modBlk_msix (s : State) (id : Nat) (f : Blk → Blk) : (s.modBlk id f).msix = s.msix := rfl
@[simp] theorem modBlk_hif (s : State) (id : Nat) (f : Blk → Blk) : (s.modBlk id f).hif = s.hif := rfl
@[simp] theorem modBlk_insts (s : State) (id : Nat) (f : Blk → Blk) : (s.modBlk id f).insts = s.insts := rfl
@[simp] theorem modBlk_seqs (s : State) (id : Nat) (f : Blk → Blk) : (s.modBlk id f).seqs = s.seqs := rfl
@[simp] theorem modBlk_streams (s : State) (id : Nat) (f : Blk → Blk) : (s.modBlk id f).streams = s.streams := rfl
@[simp] theorem modBlk_codec (s : State) (id : Nat) (f : Blk → Blk) : (s.modBlk id f).codec = s.codec := rfl
@[simp] theorem modBlk_fmt (s : State) (id : Nat) (f : Blk → Blk) : (s.modBlk id f).fmt = s.fmt := rfl
@[simp] theorem modBlk_wch (s : State) (id : Nat) (f : Blk → Blk) : (s.modBlk id f).wch = s.wch := rfl
@[simp] theorem modBlk_pace (s : State) (id : Nat) (f : Blk → Blk) : (s.modBlk id f).pace = s.pace := rfl
@[simp] theorem modBlk_cart (s : State) (id : Nat) (f : Blk → Blk) : (s.modBlk id f).cart = s.cart := rfl
@[simp] theorem modBlk_pans (s : State) (id : Nat) (f : Blk → Blk) : (s.modBlk id f).pans = s.pans := rfl
@[simp] theorem modBlk_buf (s : State) (id : Nat) (f : Blk → Blk) : (s.modBlk id f).buf = s.buf := rfl
@[simp] theorem modBlk_mov (s : State) (id : Nat) (f : Blk → Blk) : (s.modBlk id f).mov = s.mov := rfl
@[simp] theorem modBlk_rch (s : State) (id : Nat) (f : Blk → Blk) : (s.modBlk id f).rch = s.rch := rfl
@[simp] theorem modBlk_rdc (s : State) (id : Nat) (f : Blk → Blk) : (s.modBlk id f).rdc = s.rdc := rfl
@[simp] theorem modBlk_rtv (s : State) (id : Nat) (f : Blk → Blk) : (s.modBlk id f).rtv = s.rtv := rfl
@[simp] theorem modBlk_srv (s : State) (id : Nat) (f : Blk → Blk) : (s.modBlk id f).srv = s.srv := rfl
@[simp] theorem modBlk_mot (s : State) (id : Nat) (f : Blk → Blk) : (s.modBlk id f).mot = s.mot := rfl
@[simp] theorem modBlk_chn (s : State) (id : Nat) (f : Blk → Blk) : (s.modBlk id f).chn = s.chn := rfl
@[simp] theorem modBlk_prof (s : State) (id : Nat) (f : Blk → Blk) : (s.modBlk id f).prof = s.prof := rfl
@[simp] theorem modBlk_hostMem (s : State) (id : Nat) (f : Blk → Blk) : (s.modBlk id f).hostMem = s.hostMem := rfl
@[simp] theorem modBlk_freeCtr (s : State) (id : Nat) (f : Blk → Blk) : (s.modBlk id f).freeCtr = s.freeCtr := rfl
@[simp] theorem modBlk_nextId (s : State) (id : Nat) (f : Blk → Blk) : (s.modBlk id f).nextId = s.nextId := rfl

@[simp] theorem modRBlk_pending (s : State) (id : Nat) (f : RBlk → RBlk) : (s.modRBlk id f).pending = s.pending := rfl
@[simp] theorem modRBlk_glb (s : State) (id : Nat) (f : RBlk → RBlk) : (s.modRBlk id f).glb = s.glb := rfl
@[simp] theorem modRBlk_pwr (s : State) (id : Nat) (f : RBlk → RBlk) : (s.modRBlk id f).pwr = s.pwr := rfl
@[simp] theorem modRBlk_sec (s : State) (id : Nat) (f : RBlk → RBlk) : (s.modRBlk id f).sec = s.sec := rfl
@[simp] theorem modRBlk_evt (s : State) (id : Nat) (f : RBlk → RBlk) : (s.modRBlk id f).evt = s.evt := rfl
@[simp] theorem modRBlk_qs (s : State) (id : Nat) (f : RBlk → RBlk) : (s.modRBlk id f).qs = s.qs := rfl
@[simp] theorem modRBlk_msix (s : State) (id : Nat) (f : RBlk → RBlk) : (s.modRBlk id f).msix = s.msix := rfl
@[simp] theorem modRBlk_hif (s : State) (id : Nat) (f : RBlk → RBlk) : (s.modRBlk id f).hif = s.hif := rfl
@[simp] theorem modRBlk_insts (s : State) (id : Nat) (f : RBlk → RBlk) : (s.modRBlk id f).insts = s.insts := rfl
@[simp] theorem modRBlk_seqs (s : State) (id : Nat) (f : RBlk → RBlk) : (s.modRBlk id f).seqs = s.seqs := rfl
@[simp] theorem modRBlk_streams (s : State) (id : Nat) (f : RBlk → RBlk) : (s.modRBlk id f).streams = s.streams := rfl
@[simp] theorem modRBlk_blks (s : State) (id : Nat) (f : RBlk → RBlk) : (s.modRBlk id f).blks = s.blks := rfl
@[simp] theorem modRBlk_codec (s : State) (id : Nat) (f : RBlk → RBlk) : (s.modRBlk id f).codec = s.codec := rfl
@[simp] theorem modRBlk_fmt (s : State) (id : Nat) (f : RBlk → RBlk) : (s.modRBlk id f).fmt = s.fmt := rfl
@[simp] theorem modRBlk_wch (s : State) (id : Nat) (f : RBlk → RBlk) : (s.modRBlk id f).wch = s.wch := rfl
@[simp] theorem modRBlk_pace (s : State) (id : Nat) (f : RBlk → RBlk) : (s.modRBlk id f).pace = s.pace := rfl
@[simp] theorem modRBlk_cart (s : State) (id : Nat) (f : RBlk → RBlk) : (s.modRBlk id f).cart = s.cart := rfl
@[simp] theorem modRBlk_pans (s : State) (id : Nat) (f : RBlk → RBlk) : (s.modRBlk id f).pans = s.pans := rfl
@[simp] theorem modRBlk_buf (s : State) (id : Nat) (f : RBlk → RBlk) : (s.modRBlk id f).buf = s.buf := rfl
@[simp] theorem modRBlk_mov (s : State) (id : Nat) (f : RBlk → RBlk) : (s.modRBlk id f).mov = s.mov := rfl
@[simp] theorem modRBlk_rch (s : State) (id : Nat) (f : RBlk → RBlk) : (s.modRBlk id f).rch = s.rch := rfl
@[simp] theorem modRBlk_rdc (s : State) (id : Nat) (f : RBlk → RBlk) : (s.modRBlk id f).rdc = s.rdc := rfl
@[simp] theorem modRBlk_srv (s : State) (id : Nat) (f : RBlk → RBlk) : (s.modRBlk id f).srv = s.srv := rfl
@[simp] theorem modRBlk_mot (s : State) (id : Nat) (f : RBlk → RBlk) : (s.modRBlk id f).mot = s.mot := rfl
@[simp] theorem modRBlk_chn (s : State) (id : Nat) (f : RBlk → RBlk) : (s.modRBlk id f).chn = s.chn := rfl
@[simp] theorem modRBlk_prof (s : State) (id : Nat) (f : RBlk → RBlk) : (s.modRBlk id f).prof = s.prof := rfl
@[simp] theorem modRBlk_hostMem (s : State) (id : Nat) (f : RBlk → RBlk) : (s.modRBlk id f).hostMem = s.hostMem := rfl
@[simp] theorem modRBlk_freeCtr (s : State) (id : Nat) (f : RBlk → RBlk) : (s.modRBlk id f).freeCtr = s.freeCtr := rfl
@[simp] theorem modRBlk_nextId (s : State) (id : Nat) (f : RBlk → RBlk) : (s.modRBlk id f).nextId = s.nextId := rfl

@[simp] theorem modLoop_pending (s : State) (l : Fin 4) (f : Loop → Loop) : (s.modLoop l f).pending = s.pending := rfl
@[simp] theorem modLoop_glb (s : State) (l : Fin 4) (f : Loop → Loop) : (s.modLoop l f).glb = s.glb := rfl
@[simp] theorem modLoop_pwr (s : State) (l : Fin 4) (f : Loop → Loop) : (s.modLoop l f).pwr = s.pwr := rfl
@[simp] theorem modLoop_sec (s : State) (l : Fin 4) (f : Loop → Loop) : (s.modLoop l f).sec = s.sec := rfl
@[simp] theorem modLoop_evt (s : State) (l : Fin 4) (f : Loop → Loop) : (s.modLoop l f).evt = s.evt := rfl
@[simp] theorem modLoop_qs (s : State) (l : Fin 4) (f : Loop → Loop) : (s.modLoop l f).qs = s.qs := rfl
@[simp] theorem modLoop_msix (s : State) (l : Fin 4) (f : Loop → Loop) : (s.modLoop l f).msix = s.msix := rfl
@[simp] theorem modLoop_hif (s : State) (l : Fin 4) (f : Loop → Loop) : (s.modLoop l f).hif = s.hif := rfl
@[simp] theorem modLoop_insts (s : State) (l : Fin 4) (f : Loop → Loop) : (s.modLoop l f).insts = s.insts := rfl
@[simp] theorem modLoop_seqs (s : State) (l : Fin 4) (f : Loop → Loop) : (s.modLoop l f).seqs = s.seqs := rfl
@[simp] theorem modLoop_streams (s : State) (l : Fin 4) (f : Loop → Loop) : (s.modLoop l f).streams = s.streams := rfl
@[simp] theorem modLoop_blks (s : State) (l : Fin 4) (f : Loop → Loop) : (s.modLoop l f).blks = s.blks := rfl
@[simp] theorem modLoop_codec (s : State) (l : Fin 4) (f : Loop → Loop) : (s.modLoop l f).codec = s.codec := rfl
@[simp] theorem modLoop_fmt (s : State) (l : Fin 4) (f : Loop → Loop) : (s.modLoop l f).fmt = s.fmt := rfl
@[simp] theorem modLoop_wch (s : State) (l : Fin 4) (f : Loop → Loop) : (s.modLoop l f).wch = s.wch := rfl
@[simp] theorem modLoop_pace (s : State) (l : Fin 4) (f : Loop → Loop) : (s.modLoop l f).pace = s.pace := rfl
@[simp] theorem modLoop_cart (s : State) (l : Fin 4) (f : Loop → Loop) : (s.modLoop l f).cart = s.cart := rfl
@[simp] theorem modLoop_pans (s : State) (l : Fin 4) (f : Loop → Loop) : (s.modLoop l f).pans = s.pans := rfl
@[simp] theorem modLoop_buf (s : State) (l : Fin 4) (f : Loop → Loop) : (s.modLoop l f).buf = s.buf := rfl
@[simp] theorem modLoop_mov (s : State) (l : Fin 4) (f : Loop → Loop) : (s.modLoop l f).mov = s.mov := rfl
@[simp] theorem modLoop_rch (s : State) (l : Fin 4) (f : Loop → Loop) : (s.modLoop l f).rch = s.rch := rfl
@[simp] theorem modLoop_rdc (s : State) (l : Fin 4) (f : Loop → Loop) : (s.modLoop l f).rdc = s.rdc := rfl
@[simp] theorem modLoop_rtv (s : State) (l : Fin 4) (f : Loop → Loop) : (s.modLoop l f).rtv = s.rtv := rfl
@[simp] theorem modLoop_srv (s : State) (l : Fin 4) (f : Loop → Loop) : (s.modLoop l f).srv = s.srv := rfl
@[simp] theorem modLoop_chn (s : State) (l : Fin 4) (f : Loop → Loop) : (s.modLoop l f).chn = s.chn := rfl
@[simp] theorem modLoop_prof (s : State) (l : Fin 4) (f : Loop → Loop) : (s.modLoop l f).prof = s.prof := rfl
@[simp] theorem modLoop_hostMem (s : State) (l : Fin 4) (f : Loop → Loop) : (s.modLoop l f).hostMem = s.hostMem := rfl
@[simp] theorem modLoop_freeCtr (s : State) (l : Fin 4) (f : Loop → Loop) : (s.modLoop l f).freeCtr = s.freeCtr := rfl
@[simp] theorem modLoop_nextId (s : State) (l : Fin 4) (f : Loop → Loop) : (s.modLoop l f).nextId = s.nextId := rfl

@[simp] theorem modPort_pending (s : State) (q : Fin 2) (f : RingPort → RingPort) : (s.modPort q f).pending = s.pending := rfl
@[simp] theorem modPort_glb (s : State) (q : Fin 2) (f : RingPort → RingPort) : (s.modPort q f).glb = s.glb := rfl
@[simp] theorem modPort_pwr (s : State) (q : Fin 2) (f : RingPort → RingPort) : (s.modPort q f).pwr = s.pwr := rfl
@[simp] theorem modPort_sec (s : State) (q : Fin 2) (f : RingPort → RingPort) : (s.modPort q f).sec = s.sec := rfl
@[simp] theorem modPort_evt (s : State) (q : Fin 2) (f : RingPort → RingPort) : (s.modPort q f).evt = s.evt := rfl
@[simp] theorem modPort_qs (s : State) (q : Fin 2) (f : RingPort → RingPort) : (s.modPort q f).qs = s.qs := rfl
@[simp] theorem modPort_msix (s : State) (q : Fin 2) (f : RingPort → RingPort) : (s.modPort q f).msix = s.msix := rfl
@[simp] theorem modPort_hif (s : State) (q : Fin 2) (f : RingPort → RingPort) : (s.modPort q f).hif = s.hif := rfl
@[simp] theorem modPort_insts (s : State) (q : Fin 2) (f : RingPort → RingPort) : (s.modPort q f).insts = s.insts := rfl
@[simp] theorem modPort_seqs (s : State) (q : Fin 2) (f : RingPort → RingPort) : (s.modPort q f).seqs = s.seqs := rfl
@[simp] theorem modPort_streams (s : State) (q : Fin 2) (f : RingPort → RingPort) : (s.modPort q f).streams = s.streams := rfl
@[simp] theorem modPort_blks (s : State) (q : Fin 2) (f : RingPort → RingPort) : (s.modPort q f).blks = s.blks := rfl
@[simp] theorem modPort_codec (s : State) (q : Fin 2) (f : RingPort → RingPort) : (s.modPort q f).codec = s.codec := rfl
@[simp] theorem modPort_fmt (s : State) (q : Fin 2) (f : RingPort → RingPort) : (s.modPort q f).fmt = s.fmt := rfl
@[simp] theorem modPort_wch (s : State) (q : Fin 2) (f : RingPort → RingPort) : (s.modPort q f).wch = s.wch := rfl
@[simp] theorem modPort_pace (s : State) (q : Fin 2) (f : RingPort → RingPort) : (s.modPort q f).pace = s.pace := rfl
@[simp] theorem modPort_cart (s : State) (q : Fin 2) (f : RingPort → RingPort) : (s.modPort q f).cart = s.cart := rfl
@[simp] theorem modPort_pans (s : State) (q : Fin 2) (f : RingPort → RingPort) : (s.modPort q f).pans = s.pans := rfl
@[simp] theorem modPort_buf (s : State) (q : Fin 2) (f : RingPort → RingPort) : (s.modPort q f).buf = s.buf := rfl
@[simp] theorem modPort_mov (s : State) (q : Fin 2) (f : RingPort → RingPort) : (s.modPort q f).mov = s.mov := rfl
@[simp] theorem modPort_rch (s : State) (q : Fin 2) (f : RingPort → RingPort) : (s.modPort q f).rch = s.rch := rfl
@[simp] theorem modPort_rdc (s : State) (q : Fin 2) (f : RingPort → RingPort) : (s.modPort q f).rdc = s.rdc := rfl
@[simp] theorem modPort_rtv (s : State) (q : Fin 2) (f : RingPort → RingPort) : (s.modPort q f).rtv = s.rtv := rfl
@[simp] theorem modPort_srv (s : State) (q : Fin 2) (f : RingPort → RingPort) : (s.modPort q f).srv = s.srv := rfl
@[simp] theorem modPort_mot (s : State) (q : Fin 2) (f : RingPort → RingPort) : (s.modPort q f).mot = s.mot := rfl
@[simp] theorem modPort_prof (s : State) (q : Fin 2) (f : RingPort → RingPort) : (s.modPort q f).prof = s.prof := rfl
@[simp] theorem modPort_hostMem (s : State) (q : Fin 2) (f : RingPort → RingPort) : (s.modPort q f).hostMem = s.hostMem := rfl
@[simp] theorem modPort_freeCtr (s : State) (q : Fin 2) (f : RingPort → RingPort) : (s.modPort q f).freeCtr = s.freeCtr := rfl
@[simp] theorem modPort_nextId (s : State) (q : Fin 2) (f : RingPort → RingPort) : (s.modPort q f).nextId = s.nextId := rfl

@[simp] theorem modRch_pending (s : State) (c : Chan) (f : RChan → RChan) : (s.modRch c f).pending = s.pending := rfl
@[simp] theorem modRch_glb (s : State) (c : Chan) (f : RChan → RChan) : (s.modRch c f).glb = s.glb := rfl
@[simp] theorem modRch_pwr (s : State) (c : Chan) (f : RChan → RChan) : (s.modRch c f).pwr = s.pwr := rfl
@[simp] theorem modRch_sec (s : State) (c : Chan) (f : RChan → RChan) : (s.modRch c f).sec = s.sec := rfl
@[simp] theorem modRch_evt (s : State) (c : Chan) (f : RChan → RChan) : (s.modRch c f).evt = s.evt := rfl
@[simp] theorem modRch_qs (s : State) (c : Chan) (f : RChan → RChan) : (s.modRch c f).qs = s.qs := rfl
@[simp] theorem modRch_msix (s : State) (c : Chan) (f : RChan → RChan) : (s.modRch c f).msix = s.msix := rfl
@[simp] theorem modRch_hif (s : State) (c : Chan) (f : RChan → RChan) : (s.modRch c f).hif = s.hif := rfl
@[simp] theorem modRch_insts (s : State) (c : Chan) (f : RChan → RChan) : (s.modRch c f).insts = s.insts := rfl
@[simp] theorem modRch_seqs (s : State) (c : Chan) (f : RChan → RChan) : (s.modRch c f).seqs = s.seqs := rfl
@[simp] theorem modRch_streams (s : State) (c : Chan) (f : RChan → RChan) : (s.modRch c f).streams = s.streams := rfl
@[simp] theorem modRch_blks (s : State) (c : Chan) (f : RChan → RChan) : (s.modRch c f).blks = s.blks := rfl
@[simp] theorem modRch_codec (s : State) (c : Chan) (f : RChan → RChan) : (s.modRch c f).codec = s.codec := rfl
@[simp] theorem modRch_fmt (s : State) (c : Chan) (f : RChan → RChan) : (s.modRch c f).fmt = s.fmt := rfl
@[simp] theorem modRch_wch (s : State) (c : Chan) (f : RChan → RChan) : (s.modRch c f).wch = s.wch := rfl
@[simp] theorem modRch_pace (s : State) (c : Chan) (f : RChan → RChan) : (s.modRch c f).pace = s.pace := rfl
@[simp] theorem modRch_cart (s : State) (c : Chan) (f : RChan → RChan) : (s.modRch c f).cart = s.cart := rfl
@[simp] theorem modRch_pans (s : State) (c : Chan) (f : RChan → RChan) : (s.modRch c f).pans = s.pans := rfl
@[simp] theorem modRch_buf (s : State) (c : Chan) (f : RChan → RChan) : (s.modRch c f).buf = s.buf := rfl
@[simp] theorem modRch_mov (s : State) (c : Chan) (f : RChan → RChan) : (s.modRch c f).mov = s.mov := rfl
@[simp] theorem modRch_rdc (s : State) (c : Chan) (f : RChan → RChan) : (s.modRch c f).rdc = s.rdc := rfl
@[simp] theorem modRch_rtv (s : State) (c : Chan) (f : RChan → RChan) : (s.modRch c f).rtv = s.rtv := rfl
@[simp] theorem modRch_srv (s : State) (c : Chan) (f : RChan → RChan) : (s.modRch c f).srv = s.srv := rfl
@[simp] theorem modRch_mot (s : State) (c : Chan) (f : RChan → RChan) : (s.modRch c f).mot = s.mot := rfl
@[simp] theorem modRch_chn (s : State) (c : Chan) (f : RChan → RChan) : (s.modRch c f).chn = s.chn := rfl
@[simp] theorem modRch_prof (s : State) (c : Chan) (f : RChan → RChan) : (s.modRch c f).prof = s.prof := rfl
@[simp] theorem modRch_hostMem (s : State) (c : Chan) (f : RChan → RChan) : (s.modRch c f).hostMem = s.hostMem := rfl
@[simp] theorem modRch_freeCtr (s : State) (c : Chan) (f : RChan → RChan) : (s.modRch c f).freeCtr = s.freeCtr := rfl
@[simp] theorem modRch_nextId (s : State) (c : Chan) (f : RChan → RChan) : (s.modRch c f).nextId = s.nextId := rfl

@[simp] theorem modJob_pending (s : State) (c : Chan) (id : Nat) (f : CwoJob → CwoJob) : (s.modJob c id f).pending = s.pending := rfl
@[simp] theorem modJob_glb (s : State) (c : Chan) (id : Nat) (f : CwoJob → CwoJob) : (s.modJob c id f).glb = s.glb := rfl
@[simp] theorem modJob_pwr (s : State) (c : Chan) (id : Nat) (f : CwoJob → CwoJob) : (s.modJob c id f).pwr = s.pwr := rfl
@[simp] theorem modJob_sec (s : State) (c : Chan) (id : Nat) (f : CwoJob → CwoJob) : (s.modJob c id f).sec = s.sec := rfl
@[simp] theorem modJob_evt (s : State) (c : Chan) (id : Nat) (f : CwoJob → CwoJob) : (s.modJob c id f).evt = s.evt := rfl
@[simp] theorem modJob_qs (s : State) (c : Chan) (id : Nat) (f : CwoJob → CwoJob) : (s.modJob c id f).qs = s.qs := rfl
@[simp] theorem modJob_msix (s : State) (c : Chan) (id : Nat) (f : CwoJob → CwoJob) : (s.modJob c id f).msix = s.msix := rfl
@[simp] theorem modJob_hif (s : State) (c : Chan) (id : Nat) (f : CwoJob → CwoJob) : (s.modJob c id f).hif = s.hif := rfl
@[simp] theorem modJob_insts (s : State) (c : Chan) (id : Nat) (f : CwoJob → CwoJob) : (s.modJob c id f).insts = s.insts := rfl
@[simp] theorem modJob_seqs (s : State) (c : Chan) (id : Nat) (f : CwoJob → CwoJob) : (s.modJob c id f).seqs = s.seqs := rfl
@[simp] theorem modJob_streams (s : State) (c : Chan) (id : Nat) (f : CwoJob → CwoJob) : (s.modJob c id f).streams = s.streams := rfl
@[simp] theorem modJob_blks (s : State) (c : Chan) (id : Nat) (f : CwoJob → CwoJob) : (s.modJob c id f).blks = s.blks := rfl
@[simp] theorem modJob_codec (s : State) (c : Chan) (id : Nat) (f : CwoJob → CwoJob) : (s.modJob c id f).codec = s.codec := rfl
@[simp] theorem modJob_fmt (s : State) (c : Chan) (id : Nat) (f : CwoJob → CwoJob) : (s.modJob c id f).fmt = s.fmt := rfl
@[simp] theorem modJob_wch (s : State) (c : Chan) (id : Nat) (f : CwoJob → CwoJob) : (s.modJob c id f).wch = s.wch := rfl
@[simp] theorem modJob_pace (s : State) (c : Chan) (id : Nat) (f : CwoJob → CwoJob) : (s.modJob c id f).pace = s.pace := rfl
@[simp] theorem modJob_cart (s : State) (c : Chan) (id : Nat) (f : CwoJob → CwoJob) : (s.modJob c id f).cart = s.cart := rfl
@[simp] theorem modJob_pans (s : State) (c : Chan) (id : Nat) (f : CwoJob → CwoJob) : (s.modJob c id f).pans = s.pans := rfl
@[simp] theorem modJob_buf (s : State) (c : Chan) (id : Nat) (f : CwoJob → CwoJob) : (s.modJob c id f).buf = s.buf := rfl
@[simp] theorem modJob_mov (s : State) (c : Chan) (id : Nat) (f : CwoJob → CwoJob) : (s.modJob c id f).mov = s.mov := rfl
@[simp] theorem modJob_rdc (s : State) (c : Chan) (id : Nat) (f : CwoJob → CwoJob) : (s.modJob c id f).rdc = s.rdc := rfl
@[simp] theorem modJob_rtv (s : State) (c : Chan) (id : Nat) (f : CwoJob → CwoJob) : (s.modJob c id f).rtv = s.rtv := rfl
@[simp] theorem modJob_srv (s : State) (c : Chan) (id : Nat) (f : CwoJob → CwoJob) : (s.modJob c id f).srv = s.srv := rfl
@[simp] theorem modJob_mot (s : State) (c : Chan) (id : Nat) (f : CwoJob → CwoJob) : (s.modJob c id f).mot = s.mot := rfl
@[simp] theorem modJob_chn (s : State) (c : Chan) (id : Nat) (f : CwoJob → CwoJob) : (s.modJob c id f).chn = s.chn := rfl
@[simp] theorem modJob_prof (s : State) (c : Chan) (id : Nat) (f : CwoJob → CwoJob) : (s.modJob c id f).prof = s.prof := rfl
@[simp] theorem modJob_hostMem (s : State) (c : Chan) (id : Nat) (f : CwoJob → CwoJob) : (s.modJob c id f).hostMem = s.hostMem := rfl
@[simp] theorem modJob_freeCtr (s : State) (c : Chan) (id : Nat) (f : CwoJob → CwoJob) : (s.modJob c id f).freeCtr = s.freeCtr := rfl
@[simp] theorem modJob_nextId (s : State) (c : Chan) (id : Nat) (f : CwoJob → CwoJob) : (s.modJob c id f).nextId = s.nextId := rfl

@[simp] theorem modRdDs_pending (s : State) (dsn : Nat) (f : RdDs → RdDs) : (s.modRdDs dsn f).pending = s.pending := rfl
@[simp] theorem modRdDs_glb (s : State) (dsn : Nat) (f : RdDs → RdDs) : (s.modRdDs dsn f).glb = s.glb := rfl
@[simp] theorem modRdDs_pwr (s : State) (dsn : Nat) (f : RdDs → RdDs) : (s.modRdDs dsn f).pwr = s.pwr := rfl
@[simp] theorem modRdDs_sec (s : State) (dsn : Nat) (f : RdDs → RdDs) : (s.modRdDs dsn f).sec = s.sec := rfl
@[simp] theorem modRdDs_evt (s : State) (dsn : Nat) (f : RdDs → RdDs) : (s.modRdDs dsn f).evt = s.evt := rfl
@[simp] theorem modRdDs_qs (s : State) (dsn : Nat) (f : RdDs → RdDs) : (s.modRdDs dsn f).qs = s.qs := rfl
@[simp] theorem modRdDs_msix (s : State) (dsn : Nat) (f : RdDs → RdDs) : (s.modRdDs dsn f).msix = s.msix := rfl
@[simp] theorem modRdDs_hif (s : State) (dsn : Nat) (f : RdDs → RdDs) : (s.modRdDs dsn f).hif = s.hif := rfl
@[simp] theorem modRdDs_insts (s : State) (dsn : Nat) (f : RdDs → RdDs) : (s.modRdDs dsn f).insts = s.insts := rfl
@[simp] theorem modRdDs_seqs (s : State) (dsn : Nat) (f : RdDs → RdDs) : (s.modRdDs dsn f).seqs = s.seqs := rfl
@[simp] theorem modRdDs_streams (s : State) (dsn : Nat) (f : RdDs → RdDs) : (s.modRdDs dsn f).streams = s.streams := rfl
@[simp] theorem modRdDs_blks (s : State) (dsn : Nat) (f : RdDs → RdDs) : (s.modRdDs dsn f).blks = s.blks := rfl
@[simp] theorem modRdDs_codec (s : State) (dsn : Nat) (f : RdDs → RdDs) : (s.modRdDs dsn f).codec = s.codec := rfl
@[simp] theorem modRdDs_fmt (s : State) (dsn : Nat) (f : RdDs → RdDs) : (s.modRdDs dsn f).fmt = s.fmt := rfl
@[simp] theorem modRdDs_wch (s : State) (dsn : Nat) (f : RdDs → RdDs) : (s.modRdDs dsn f).wch = s.wch := rfl
@[simp] theorem modRdDs_pace (s : State) (dsn : Nat) (f : RdDs → RdDs) : (s.modRdDs dsn f).pace = s.pace := rfl
@[simp] theorem modRdDs_cart (s : State) (dsn : Nat) (f : RdDs → RdDs) : (s.modRdDs dsn f).cart = s.cart := rfl
@[simp] theorem modRdDs_pans (s : State) (dsn : Nat) (f : RdDs → RdDs) : (s.modRdDs dsn f).pans = s.pans := rfl
@[simp] theorem modRdDs_buf (s : State) (dsn : Nat) (f : RdDs → RdDs) : (s.modRdDs dsn f).buf = s.buf := rfl
@[simp] theorem modRdDs_mov (s : State) (dsn : Nat) (f : RdDs → RdDs) : (s.modRdDs dsn f).mov = s.mov := rfl
@[simp] theorem modRdDs_rch (s : State) (dsn : Nat) (f : RdDs → RdDs) : (s.modRdDs dsn f).rch = s.rch := rfl
@[simp] theorem modRdDs_rdc (s : State) (dsn : Nat) (f : RdDs → RdDs) : (s.modRdDs dsn f).rdc = s.rdc := rfl
@[simp] theorem modRdDs_srv (s : State) (dsn : Nat) (f : RdDs → RdDs) : (s.modRdDs dsn f).srv = s.srv := rfl
@[simp] theorem modRdDs_mot (s : State) (dsn : Nat) (f : RdDs → RdDs) : (s.modRdDs dsn f).mot = s.mot := rfl
@[simp] theorem modRdDs_chn (s : State) (dsn : Nat) (f : RdDs → RdDs) : (s.modRdDs dsn f).chn = s.chn := rfl
@[simp] theorem modRdDs_prof (s : State) (dsn : Nat) (f : RdDs → RdDs) : (s.modRdDs dsn f).prof = s.prof := rfl
@[simp] theorem modRdDs_hostMem (s : State) (dsn : Nat) (f : RdDs → RdDs) : (s.modRdDs dsn f).hostMem = s.hostMem := rfl
@[simp] theorem modRdDs_freeCtr (s : State) (dsn : Nat) (f : RdDs → RdDs) : (s.modRdDs dsn f).freeCtr = s.freeCtr := rfl
@[simp] theorem modRdDs_nextId (s : State) (dsn : Nat) (f : RdDs → RdDs) : (s.modRdDs dsn f).nextId = s.nextId := rfl

@[simp] theorem modRdAt_pending (s : State) (dsn pos : Nat) (f : RdDs → RdDs) : (s.modRdAt dsn pos f).pending = s.pending := rfl
@[simp] theorem modRdAt_glb (s : State) (dsn pos : Nat) (f : RdDs → RdDs) : (s.modRdAt dsn pos f).glb = s.glb := rfl
@[simp] theorem modRdAt_pwr (s : State) (dsn pos : Nat) (f : RdDs → RdDs) : (s.modRdAt dsn pos f).pwr = s.pwr := rfl
@[simp] theorem modRdAt_sec (s : State) (dsn pos : Nat) (f : RdDs → RdDs) : (s.modRdAt dsn pos f).sec = s.sec := rfl
@[simp] theorem modRdAt_evt (s : State) (dsn pos : Nat) (f : RdDs → RdDs) : (s.modRdAt dsn pos f).evt = s.evt := rfl
@[simp] theorem modRdAt_qs (s : State) (dsn pos : Nat) (f : RdDs → RdDs) : (s.modRdAt dsn pos f).qs = s.qs := rfl
@[simp] theorem modRdAt_msix (s : State) (dsn pos : Nat) (f : RdDs → RdDs) : (s.modRdAt dsn pos f).msix = s.msix := rfl
@[simp] theorem modRdAt_hif (s : State) (dsn pos : Nat) (f : RdDs → RdDs) : (s.modRdAt dsn pos f).hif = s.hif := rfl
@[simp] theorem modRdAt_insts (s : State) (dsn pos : Nat) (f : RdDs → RdDs) : (s.modRdAt dsn pos f).insts = s.insts := rfl
@[simp] theorem modRdAt_seqs (s : State) (dsn pos : Nat) (f : RdDs → RdDs) : (s.modRdAt dsn pos f).seqs = s.seqs := rfl
@[simp] theorem modRdAt_streams (s : State) (dsn pos : Nat) (f : RdDs → RdDs) : (s.modRdAt dsn pos f).streams = s.streams := rfl
@[simp] theorem modRdAt_blks (s : State) (dsn pos : Nat) (f : RdDs → RdDs) : (s.modRdAt dsn pos f).blks = s.blks := rfl
@[simp] theorem modRdAt_codec (s : State) (dsn pos : Nat) (f : RdDs → RdDs) : (s.modRdAt dsn pos f).codec = s.codec := rfl
@[simp] theorem modRdAt_fmt (s : State) (dsn pos : Nat) (f : RdDs → RdDs) : (s.modRdAt dsn pos f).fmt = s.fmt := rfl
@[simp] theorem modRdAt_wch (s : State) (dsn pos : Nat) (f : RdDs → RdDs) : (s.modRdAt dsn pos f).wch = s.wch := rfl
@[simp] theorem modRdAt_pace (s : State) (dsn pos : Nat) (f : RdDs → RdDs) : (s.modRdAt dsn pos f).pace = s.pace := rfl
@[simp] theorem modRdAt_cart (s : State) (dsn pos : Nat) (f : RdDs → RdDs) : (s.modRdAt dsn pos f).cart = s.cart := rfl
@[simp] theorem modRdAt_pans (s : State) (dsn pos : Nat) (f : RdDs → RdDs) : (s.modRdAt dsn pos f).pans = s.pans := rfl
@[simp] theorem modRdAt_buf (s : State) (dsn pos : Nat) (f : RdDs → RdDs) : (s.modRdAt dsn pos f).buf = s.buf := rfl
@[simp] theorem modRdAt_mov (s : State) (dsn pos : Nat) (f : RdDs → RdDs) : (s.modRdAt dsn pos f).mov = s.mov := rfl
@[simp] theorem modRdAt_rch (s : State) (dsn pos : Nat) (f : RdDs → RdDs) : (s.modRdAt dsn pos f).rch = s.rch := rfl
@[simp] theorem modRdAt_rdc (s : State) (dsn pos : Nat) (f : RdDs → RdDs) : (s.modRdAt dsn pos f).rdc = s.rdc := rfl
@[simp] theorem modRdAt_srv (s : State) (dsn pos : Nat) (f : RdDs → RdDs) : (s.modRdAt dsn pos f).srv = s.srv := rfl
@[simp] theorem modRdAt_mot (s : State) (dsn pos : Nat) (f : RdDs → RdDs) : (s.modRdAt dsn pos f).mot = s.mot := rfl
@[simp] theorem modRdAt_chn (s : State) (dsn pos : Nat) (f : RdDs → RdDs) : (s.modRdAt dsn pos f).chn = s.chn := rfl
@[simp] theorem modRdAt_prof (s : State) (dsn pos : Nat) (f : RdDs → RdDs) : (s.modRdAt dsn pos f).prof = s.prof := rfl
@[simp] theorem modRdAt_hostMem (s : State) (dsn pos : Nat) (f : RdDs → RdDs) : (s.modRdAt dsn pos f).hostMem = s.hostMem := rfl
@[simp] theorem modRdAt_freeCtr (s : State) (dsn pos : Nat) (f : RdDs → RdDs) : (s.modRdAt dsn pos f).freeCtr = s.freeCtr := rfl
@[simp] theorem modRdAt_nextId (s : State) (dsn pos : Nat) (f : RdDs → RdDs) : (s.modRdAt dsn pos f).nextId = s.nextId := rfl

@[simp] theorem hostWrite_pending (space addr : Nat) (bs : Bytes) (s : State) : (hostWrite space addr bs s).pending = s.pending := rfl
@[simp] theorem hostWrite_glb (space addr : Nat) (bs : Bytes) (s : State) : (hostWrite space addr bs s).glb = s.glb := rfl
@[simp] theorem hostWrite_pwr (space addr : Nat) (bs : Bytes) (s : State) : (hostWrite space addr bs s).pwr = s.pwr := rfl
@[simp] theorem hostWrite_sec (space addr : Nat) (bs : Bytes) (s : State) : (hostWrite space addr bs s).sec = s.sec := rfl
@[simp] theorem hostWrite_evt (space addr : Nat) (bs : Bytes) (s : State) : (hostWrite space addr bs s).evt = s.evt := rfl
@[simp] theorem hostWrite_qs (space addr : Nat) (bs : Bytes) (s : State) : (hostWrite space addr bs s).qs = s.qs := rfl
@[simp] theorem hostWrite_msix (space addr : Nat) (bs : Bytes) (s : State) : (hostWrite space addr bs s).msix = s.msix := rfl
@[simp] theorem hostWrite_hif (space addr : Nat) (bs : Bytes) (s : State) : (hostWrite space addr bs s).hif = s.hif := rfl
@[simp] theorem hostWrite_insts (space addr : Nat) (bs : Bytes) (s : State) : (hostWrite space addr bs s).insts = s.insts := rfl
@[simp] theorem hostWrite_seqs (space addr : Nat) (bs : Bytes) (s : State) : (hostWrite space addr bs s).seqs = s.seqs := rfl
@[simp] theorem hostWrite_streams (space addr : Nat) (bs : Bytes) (s : State) : (hostWrite space addr bs s).streams = s.streams := rfl
@[simp] theorem hostWrite_blks (space addr : Nat) (bs : Bytes) (s : State) : (hostWrite space addr bs s).blks = s.blks := rfl
@[simp] theorem hostWrite_codec (space addr : Nat) (bs : Bytes) (s : State) : (hostWrite space addr bs s).codec = s.codec := rfl
@[simp] theorem hostWrite_fmt (space addr : Nat) (bs : Bytes) (s : State) : (hostWrite space addr bs s).fmt = s.fmt := rfl
@[simp] theorem hostWrite_wch (space addr : Nat) (bs : Bytes) (s : State) : (hostWrite space addr bs s).wch = s.wch := rfl
@[simp] theorem hostWrite_pace (space addr : Nat) (bs : Bytes) (s : State) : (hostWrite space addr bs s).pace = s.pace := rfl
@[simp] theorem hostWrite_cart (space addr : Nat) (bs : Bytes) (s : State) : (hostWrite space addr bs s).cart = s.cart := rfl
@[simp] theorem hostWrite_pans (space addr : Nat) (bs : Bytes) (s : State) : (hostWrite space addr bs s).pans = s.pans := rfl
@[simp] theorem hostWrite_buf (space addr : Nat) (bs : Bytes) (s : State) : (hostWrite space addr bs s).buf = s.buf := rfl
@[simp] theorem hostWrite_mov (space addr : Nat) (bs : Bytes) (s : State) : (hostWrite space addr bs s).mov = s.mov := rfl
@[simp] theorem hostWrite_rch (space addr : Nat) (bs : Bytes) (s : State) : (hostWrite space addr bs s).rch = s.rch := rfl
@[simp] theorem hostWrite_rdc (space addr : Nat) (bs : Bytes) (s : State) : (hostWrite space addr bs s).rdc = s.rdc := rfl
@[simp] theorem hostWrite_rtv (space addr : Nat) (bs : Bytes) (s : State) : (hostWrite space addr bs s).rtv = s.rtv := rfl
@[simp] theorem hostWrite_srv (space addr : Nat) (bs : Bytes) (s : State) : (hostWrite space addr bs s).srv = s.srv := rfl
@[simp] theorem hostWrite_mot (space addr : Nat) (bs : Bytes) (s : State) : (hostWrite space addr bs s).mot = s.mot := rfl
@[simp] theorem hostWrite_chn (space addr : Nat) (bs : Bytes) (s : State) : (hostWrite space addr bs s).chn = s.chn := rfl
@[simp] theorem hostWrite_prof (space addr : Nat) (bs : Bytes) (s : State) : (hostWrite space addr bs s).prof = s.prof := rfl
@[simp] theorem hostWrite_freeCtr (space addr : Nat) (bs : Bytes) (s : State) : (hostWrite space addr bs s).freeCtr = s.freeCtr := rfl
@[simp] theorem hostWrite_nextId (space addr : Nat) (bs : Bytes) (s : State) : (hostWrite space addr bs s).nextId = s.nextId := rfl

@[simp] theorem drawn_pending (n : Nat) (s : State) : (drawn n s).pending = s.pending := rfl
@[simp] theorem drawn_glb (n : Nat) (s : State) : (drawn n s).glb = s.glb := rfl
@[simp] theorem drawn_pwr (n : Nat) (s : State) : (drawn n s).pwr = s.pwr := rfl
@[simp] theorem drawn_sec (n : Nat) (s : State) : (drawn n s).sec = s.sec := rfl
@[simp] theorem drawn_evt (n : Nat) (s : State) : (drawn n s).evt = s.evt := rfl
@[simp] theorem drawn_qs (n : Nat) (s : State) : (drawn n s).qs = s.qs := rfl
@[simp] theorem drawn_msix (n : Nat) (s : State) : (drawn n s).msix = s.msix := rfl
@[simp] theorem drawn_hif (n : Nat) (s : State) : (drawn n s).hif = s.hif := rfl
@[simp] theorem drawn_insts (n : Nat) (s : State) : (drawn n s).insts = s.insts := rfl
@[simp] theorem drawn_seqs (n : Nat) (s : State) : (drawn n s).seqs = s.seqs := rfl
@[simp] theorem drawn_streams (n : Nat) (s : State) : (drawn n s).streams = s.streams := rfl
@[simp] theorem drawn_blks (n : Nat) (s : State) : (drawn n s).blks = s.blks := rfl
@[simp] theorem drawn_codec (n : Nat) (s : State) : (drawn n s).codec = s.codec := rfl
@[simp] theorem drawn_fmt (n : Nat) (s : State) : (drawn n s).fmt = s.fmt := rfl
@[simp] theorem drawn_wch (n : Nat) (s : State) : (drawn n s).wch = s.wch := rfl
@[simp] theorem drawn_pace (n : Nat) (s : State) : (drawn n s).pace = s.pace := rfl
@[simp] theorem drawn_cart (n : Nat) (s : State) : (drawn n s).cart = s.cart := rfl
@[simp] theorem drawn_pans (n : Nat) (s : State) : (drawn n s).pans = s.pans := rfl
@[simp] theorem drawn_buf (n : Nat) (s : State) : (drawn n s).buf = s.buf := rfl
@[simp] theorem drawn_mov (n : Nat) (s : State) : (drawn n s).mov = s.mov := rfl
@[simp] theorem drawn_rch (n : Nat) (s : State) : (drawn n s).rch = s.rch := rfl
@[simp] theorem drawn_rdc (n : Nat) (s : State) : (drawn n s).rdc = s.rdc := rfl
@[simp] theorem drawn_rtv (n : Nat) (s : State) : (drawn n s).rtv = s.rtv := rfl
@[simp] theorem drawn_srv (n : Nat) (s : State) : (drawn n s).srv = s.srv := rfl
@[simp] theorem drawn_mot (n : Nat) (s : State) : (drawn n s).mot = s.mot := rfl
@[simp] theorem drawn_chn (n : Nat) (s : State) : (drawn n s).chn = s.chn := rfl
@[simp] theorem drawn_prof (n : Nat) (s : State) : (drawn n s).prof = s.prof := rfl
@[simp] theorem drawn_hostMem (n : Nat) (s : State) : (drawn n s).hostMem = s.hostMem := rfl
@[simp] theorem drawn_nextId (n : Nat) (s : State) : (drawn n s).nextId = s.nextId := rfl

@[simp] theorem powerFor_pending (m : Mode) (s : State) : (powerFor m s).pending = s.pending := rfl
@[simp] theorem powerFor_glb (m : Mode) (s : State) : (powerFor m s).glb = s.glb := rfl
@[simp] theorem powerFor_sec (m : Mode) (s : State) : (powerFor m s).sec = s.sec := rfl
@[simp] theorem powerFor_evt (m : Mode) (s : State) : (powerFor m s).evt = s.evt := rfl
@[simp] theorem powerFor_qs (m : Mode) (s : State) : (powerFor m s).qs = s.qs := rfl
@[simp] theorem powerFor_msix (m : Mode) (s : State) : (powerFor m s).msix = s.msix := rfl
@[simp] theorem powerFor_hif (m : Mode) (s : State) : (powerFor m s).hif = s.hif := rfl
@[simp] theorem powerFor_insts (m : Mode) (s : State) : (powerFor m s).insts = s.insts := rfl
@[simp] theorem powerFor_seqs (m : Mode) (s : State) : (powerFor m s).seqs = s.seqs := rfl
@[simp] theorem powerFor_streams (m : Mode) (s : State) : (powerFor m s).streams = s.streams := rfl
@[simp] theorem powerFor_blks (m : Mode) (s : State) : (powerFor m s).blks = s.blks := rfl
@[simp] theorem powerFor_codec (m : Mode) (s : State) : (powerFor m s).codec = s.codec := rfl
@[simp] theorem powerFor_fmt (m : Mode) (s : State) : (powerFor m s).fmt = s.fmt := rfl
@[simp] theorem powerFor_wch (m : Mode) (s : State) : (powerFor m s).wch = s.wch := rfl
@[simp] theorem powerFor_pace (m : Mode) (s : State) : (powerFor m s).pace = s.pace := rfl
@[simp] theorem powerFor_cart (m : Mode) (s : State) : (powerFor m s).cart = s.cart := rfl
@[simp] theorem powerFor_pans (m : Mode) (s : State) : (powerFor m s).pans = s.pans := rfl
@[simp] theorem powerFor_buf (m : Mode) (s : State) : (powerFor m s).buf = s.buf := rfl
@[simp] theorem powerFor_mov (m : Mode) (s : State) : (powerFor m s).mov = s.mov := rfl
@[simp] theorem powerFor_rch (m : Mode) (s : State) : (powerFor m s).rch = s.rch := rfl
@[simp] theorem powerFor_rdc (m : Mode) (s : State) : (powerFor m s).rdc = s.rdc := rfl
@[simp] theorem powerFor_rtv (m : Mode) (s : State) : (powerFor m s).rtv = s.rtv := rfl
@[simp] theorem powerFor_srv (m : Mode) (s : State) : (powerFor m s).srv = s.srv := rfl
@[simp] theorem powerFor_mot (m : Mode) (s : State) : (powerFor m s).mot = s.mot := rfl
@[simp] theorem powerFor_chn (m : Mode) (s : State) : (powerFor m s).chn = s.chn := rfl
@[simp] theorem powerFor_prof (m : Mode) (s : State) : (powerFor m s).prof = s.prof := rfl
@[simp] theorem powerFor_hostMem (m : Mode) (s : State) : (powerFor m s).hostMem = s.hostMem := rfl
@[simp] theorem powerFor_freeCtr (m : Mode) (s : State) : (powerFor m s).freeCtr = s.freeCtr := rfl
@[simp] theorem powerFor_nextId (m : Mode) (s : State) : (powerFor m s).nextId = s.nextId := rfl

end Sys2Proof.Machine
end

