-- ==== Sys2Proof/Laws/Ops.lean ====
section
/-! SUPPORT. Sys2Proof/Laws/Ops.lean: what the shared operations leave as it was, and what completing a command does. -/

namespace Sys2Proof.Machine

@[simp] theorem fireMsix_pending (x : Fin 130) (s : State) : (fireMsix x s).pending = s.pending := by unfold fireMsix; simp only; split <;> rfl
@[simp] theorem fireMsix_glb (x : Fin 130) (s : State) : (fireMsix x s).glb = s.glb := by unfold fireMsix; simp only; split <;> rfl
@[simp] theorem fireMsix_pwr (x : Fin 130) (s : State) : (fireMsix x s).pwr = s.pwr := by unfold fireMsix; simp only; split <;> rfl
@[simp] theorem fireMsix_sec (x : Fin 130) (s : State) : (fireMsix x s).sec = s.sec := by unfold fireMsix; simp only; split <;> rfl
@[simp] theorem fireMsix_evt (x : Fin 130) (s : State) : (fireMsix x s).evt = s.evt := by unfold fireMsix; simp only; split <;> rfl
@[simp] theorem fireMsix_qs (x : Fin 130) (s : State) : (fireMsix x s).qs = s.qs := by unfold fireMsix; simp only; split <;> rfl
@[simp] theorem fireMsix_hif (x : Fin 130) (s : State) : (fireMsix x s).hif = s.hif := by unfold fireMsix; simp only; split <;> rfl
@[simp] theorem fireMsix_insts (x : Fin 130) (s : State) : (fireMsix x s).insts = s.insts := by unfold fireMsix; simp only; split <;> rfl
@[simp] theorem fireMsix_seqs (x : Fin 130) (s : State) : (fireMsix x s).seqs = s.seqs := by unfold fireMsix; simp only; split <;> rfl
@[simp] theorem fireMsix_streams (x : Fin 130) (s : State) : (fireMsix x s).streams = s.streams := by unfold fireMsix; simp only; split <;> rfl
@[simp] theorem fireMsix_blks (x : Fin 130) (s : State) : (fireMsix x s).blks = s.blks := by unfold fireMsix; simp only; split <;> rfl
@[simp] theorem fireMsix_codec (x : Fin 130) (s : State) : (fireMsix x s).codec = s.codec := by unfold fireMsix; simp only; split <;> rfl
@[simp] theorem fireMsix_fmt (x : Fin 130) (s : State) : (fireMsix x s).fmt = s.fmt := by unfold fireMsix; simp only; split <;> rfl
@[simp] theorem fireMsix_wch (x : Fin 130) (s : State) : (fireMsix x s).wch = s.wch := by unfold fireMsix; simp only; split <;> rfl
@[simp] theorem fireMsix_pace (x : Fin 130) (s : State) : (fireMsix x s).pace = s.pace := by unfold fireMsix; simp only; split <;> rfl
@[simp] theorem fireMsix_cart (x : Fin 130) (s : State) : (fireMsix x s).cart = s.cart := by unfold fireMsix; simp only; split <;> rfl
@[simp] theorem fireMsix_pans (x : Fin 130) (s : State) : (fireMsix x s).pans = s.pans := by unfold fireMsix; simp only; split <;> rfl
@[simp] theorem fireMsix_buf (x : Fin 130) (s : State) : (fireMsix x s).buf = s.buf := by unfold fireMsix; simp only; split <;> rfl
@[simp] theorem fireMsix_mov (x : Fin 130) (s : State) : (fireMsix x s).mov = s.mov := by unfold fireMsix; simp only; split <;> rfl
@[simp] theorem fireMsix_rch (x : Fin 130) (s : State) : (fireMsix x s).rch = s.rch := by unfold fireMsix; simp only; split <;> rfl
@[simp] theorem fireMsix_rdc (x : Fin 130) (s : State) : (fireMsix x s).rdc = s.rdc := by unfold fireMsix; simp only; split <;> rfl
@[simp] theorem fireMsix_rtv (x : Fin 130) (s : State) : (fireMsix x s).rtv = s.rtv := by unfold fireMsix; simp only; split <;> rfl
@[simp] theorem fireMsix_srv (x : Fin 130) (s : State) : (fireMsix x s).srv = s.srv := by unfold fireMsix; simp only; split <;> rfl
@[simp] theorem fireMsix_mot (x : Fin 130) (s : State) : (fireMsix x s).mot = s.mot := by unfold fireMsix; simp only; split <;> rfl
@[simp] theorem fireMsix_chn (x : Fin 130) (s : State) : (fireMsix x s).chn = s.chn := by unfold fireMsix; simp only; split <;> rfl
@[simp] theorem fireMsix_prof (x : Fin 130) (s : State) : (fireMsix x s).prof = s.prof := by unfold fireMsix; simp only; split <;> rfl
@[simp] theorem fireMsix_freeCtr (x : Fin 130) (s : State) : (fireMsix x s).freeCtr = s.freeCtr := by unfold fireMsix; simp only; split <;> rfl
@[simp] theorem fireMsix_nextId (x : Fin 130) (s : State) : (fireMsix x s).nextId = s.nextId := by unfold fireMsix; simp only; split <;> rfl

@[simp] theorem signalRing_pending (r : RingId) (s : State) : (signalRing r s).pending = s.pending := by simp [signalRing]
@[simp] theorem signalRing_glb (r : RingId) (s : State) : (signalRing r s).glb = s.glb := by simp [signalRing]
@[simp] theorem signalRing_pwr (r : RingId) (s : State) : (signalRing r s).pwr = s.pwr := by simp [signalRing]
@[simp] theorem signalRing_sec (r : RingId) (s : State) : (signalRing r s).sec = s.sec := by simp [signalRing]
@[simp] theorem signalRing_evt (r : RingId) (s : State) : (signalRing r s).evt = s.evt := by simp [signalRing]
@[simp] theorem signalRing_qs (r : RingId) (s : State) : (signalRing r s).qs = s.qs := by simp [signalRing]
@[simp] theorem signalRing_seqs (r : RingId) (s : State) : (signalRing r s).seqs = s.seqs := by simp [signalRing]
@[simp] theorem signalRing_streams (r : RingId) (s : State) : (signalRing r s).streams = s.streams := by simp [signalRing]
@[simp] theorem signalRing_blks (r : RingId) (s : State) : (signalRing r s).blks = s.blks := by simp [signalRing]
@[simp] theorem signalRing_codec (r : RingId) (s : State) : (signalRing r s).codec = s.codec := by simp [signalRing]
@[simp] theorem signalRing_fmt (r : RingId) (s : State) : (signalRing r s).fmt = s.fmt := by simp [signalRing]
@[simp] theorem signalRing_wch (r : RingId) (s : State) : (signalRing r s).wch = s.wch := by simp [signalRing]
@[simp] theorem signalRing_pace (r : RingId) (s : State) : (signalRing r s).pace = s.pace := by simp [signalRing]
@[simp] theorem signalRing_cart (r : RingId) (s : State) : (signalRing r s).cart = s.cart := by simp [signalRing]
@[simp] theorem signalRing_pans (r : RingId) (s : State) : (signalRing r s).pans = s.pans := by simp [signalRing]
@[simp] theorem signalRing_buf (r : RingId) (s : State) : (signalRing r s).buf = s.buf := by simp [signalRing]
@[simp] theorem signalRing_mov (r : RingId) (s : State) : (signalRing r s).mov = s.mov := by simp [signalRing]
@[simp] theorem signalRing_rch (r : RingId) (s : State) : (signalRing r s).rch = s.rch := by simp [signalRing]
@[simp] theorem signalRing_rdc (r : RingId) (s : State) : (signalRing r s).rdc = s.rdc := by simp [signalRing]
@[simp] theorem signalRing_rtv (r : RingId) (s : State) : (signalRing r s).rtv = s.rtv := by simp [signalRing]
@[simp] theorem signalRing_srv (r : RingId) (s : State) : (signalRing r s).srv = s.srv := by simp [signalRing]
@[simp] theorem signalRing_mot (r : RingId) (s : State) : (signalRing r s).mot = s.mot := by simp [signalRing]
@[simp] theorem signalRing_chn (r : RingId) (s : State) : (signalRing r s).chn = s.chn := by simp [signalRing]
@[simp] theorem signalRing_prof (r : RingId) (s : State) : (signalRing r s).prof = s.prof := by simp [signalRing]
@[simp] theorem signalRing_freeCtr (r : RingId) (s : State) : (signalRing r s).freeCtr = s.freeCtr := by simp [signalRing]
@[simp] theorem signalRing_nextId (r : RingId) (s : State) : (signalRing r s).nextId = s.nextId := by simp [signalRing]

@[simp] theorem moderate_pending (r : RingId) (s : State) : (moderate r s).pending = s.pending := by unfold moderate; split <;> simp
@[simp] theorem moderate_glb (r : RingId) (s : State) : (moderate r s).glb = s.glb := by unfold moderate; split <;> simp
@[simp] theorem moderate_pwr (r : RingId) (s : State) : (moderate r s).pwr = s.pwr := by unfold moderate; split <;> simp
@[simp] theorem moderate_sec (r : RingId) (s : State) : (moderate r s).sec = s.sec := by unfold moderate; split <;> simp
@[simp] theorem moderate_evt (r : RingId) (s : State) : (moderate r s).evt = s.evt := by unfold moderate; split <;> simp
@[simp] theorem moderate_qs (r : RingId) (s : State) : (moderate r s).qs = s.qs := by unfold moderate; split <;> simp
@[simp] theorem moderate_seqs (r : RingId) (s : State) : (moderate r s).seqs = s.seqs := by unfold moderate; split <;> simp
@[simp] theorem moderate_streams (r : RingId) (s : State) : (moderate r s).streams = s.streams := by unfold moderate; split <;> simp
@[simp] theorem moderate_blks (r : RingId) (s : State) : (moderate r s).blks = s.blks := by unfold moderate; split <;> simp
@[simp] theorem moderate_codec (r : RingId) (s : State) : (moderate r s).codec = s.codec := by unfold moderate; split <;> simp
@[simp] theorem moderate_fmt (r : RingId) (s : State) : (moderate r s).fmt = s.fmt := by unfold moderate; split <;> simp
@[simp] theorem moderate_wch (r : RingId) (s : State) : (moderate r s).wch = s.wch := by unfold moderate; split <;> simp
@[simp] theorem moderate_pace (r : RingId) (s : State) : (moderate r s).pace = s.pace := by unfold moderate; split <;> simp
@[simp] theorem moderate_cart (r : RingId) (s : State) : (moderate r s).cart = s.cart := by unfold moderate; split <;> simp
@[simp] theorem moderate_pans (r : RingId) (s : State) : (moderate r s).pans = s.pans := by unfold moderate; split <;> simp
@[simp] theorem moderate_buf (r : RingId) (s : State) : (moderate r s).buf = s.buf := by unfold moderate; split <;> simp
@[simp] theorem moderate_mov (r : RingId) (s : State) : (moderate r s).mov = s.mov := by unfold moderate; split <;> simp
@[simp] theorem moderate_rch (r : RingId) (s : State) : (moderate r s).rch = s.rch := by unfold moderate; split <;> simp
@[simp] theorem moderate_rdc (r : RingId) (s : State) : (moderate r s).rdc = s.rdc := by unfold moderate; split <;> simp
@[simp] theorem moderate_rtv (r : RingId) (s : State) : (moderate r s).rtv = s.rtv := by unfold moderate; split <;> simp
@[simp] theorem moderate_srv (r : RingId) (s : State) : (moderate r s).srv = s.srv := by unfold moderate; split <;> simp
@[simp] theorem moderate_mot (r : RingId) (s : State) : (moderate r s).mot = s.mot := by unfold moderate; split <;> simp
@[simp] theorem moderate_chn (r : RingId) (s : State) : (moderate r s).chn = s.chn := by unfold moderate; split <;> simp
@[simp] theorem moderate_prof (r : RingId) (s : State) : (moderate r s).prof = s.prof := by unfold moderate; split <;> simp
@[simp] theorem moderate_freeCtr (r : RingId) (s : State) : (moderate r s).freeCtr = s.freeCtr := by unfold moderate; split <;> simp
@[simp] theorem moderate_nextId (r : RingId) (s : State) : (moderate r s).nextId = s.nextId := by unfold moderate; split <;> simp

@[simp] theorem useAts_pending (r : RingId) (addr : Nat) (s : State) : (useAts r addr s).pending = s.pending := by cases r <;> rfl
@[simp] theorem useAts_glb (r : RingId) (addr : Nat) (s : State) : (useAts r addr s).glb = s.glb := by cases r <;> rfl
@[simp] theorem useAts_pwr (r : RingId) (addr : Nat) (s : State) : (useAts r addr s).pwr = s.pwr := by cases r <;> rfl
@[simp] theorem useAts_sec (r : RingId) (addr : Nat) (s : State) : (useAts r addr s).sec = s.sec := by cases r <;> rfl
@[simp] theorem useAts_evt (r : RingId) (addr : Nat) (s : State) : (useAts r addr s).evt = s.evt := by cases r <;> rfl
@[simp] theorem useAts_qs (r : RingId) (addr : Nat) (s : State) : (useAts r addr s).qs = s.qs := by cases r <;> rfl
@[simp] theorem useAts_msix (r : RingId) (addr : Nat) (s : State) : (useAts r addr s).msix = s.msix := by cases r <;> rfl
@[simp] theorem useAts_hif (r : RingId) (addr : Nat) (s : State) : (useAts r addr s).hif = s.hif := by cases r <;> rfl
@[simp] theorem useAts_seqs (r : RingId) (addr : Nat) (s : State) : (useAts r addr s).seqs = s.seqs := by cases r <;> rfl
@[simp] theorem useAts_streams (r : RingId) (addr : Nat) (s : State) : (useAts r addr s).streams = s.streams := by cases r <;> rfl
@[simp] theorem useAts_blks (r : RingId) (addr : Nat) (s : State) : (useAts r addr s).blks = s.blks := by cases r <;> rfl
@[simp] theorem useAts_codec (r : RingId) (addr : Nat) (s : State) : (useAts r addr s).codec = s.codec := by cases r <;> rfl
@[simp] theorem useAts_fmt (r : RingId) (addr : Nat) (s : State) : (useAts r addr s).fmt = s.fmt := by cases r <;> rfl
@[simp] theorem useAts_wch (r : RingId) (addr : Nat) (s : State) : (useAts r addr s).wch = s.wch := by cases r <;> rfl
@[simp] theorem useAts_pace (r : RingId) (addr : Nat) (s : State) : (useAts r addr s).pace = s.pace := by cases r <;> rfl
@[simp] theorem useAts_cart (r : RingId) (addr : Nat) (s : State) : (useAts r addr s).cart = s.cart := by cases r <;> rfl
@[simp] theorem useAts_pans (r : RingId) (addr : Nat) (s : State) : (useAts r addr s).pans = s.pans := by cases r <;> rfl
@[simp] theorem useAts_buf (r : RingId) (addr : Nat) (s : State) : (useAts r addr s).buf = s.buf := by cases r <;> rfl
@[simp] theorem useAts_mov (r : RingId) (addr : Nat) (s : State) : (useAts r addr s).mov = s.mov := by cases r <;> rfl
@[simp] theorem useAts_rch (r : RingId) (addr : Nat) (s : State) : (useAts r addr s).rch = s.rch := by cases r <;> rfl
@[simp] theorem useAts_rdc (r : RingId) (addr : Nat) (s : State) : (useAts r addr s).rdc = s.rdc := by cases r <;> rfl
@[simp] theorem useAts_rtv (r : RingId) (addr : Nat) (s : State) : (useAts r addr s).rtv = s.rtv := by cases r <;> rfl
@[simp] theorem useAts_srv (r : RingId) (addr : Nat) (s : State) : (useAts r addr s).srv = s.srv := by cases r <;> rfl
@[simp] theorem useAts_mot (r : RingId) (addr : Nat) (s : State) : (useAts r addr s).mot = s.mot := by cases r <;> rfl
@[simp] theorem useAts_chn (r : RingId) (addr : Nat) (s : State) : (useAts r addr s).chn = s.chn := by cases r <;> rfl
@[simp] theorem useAts_prof (r : RingId) (addr : Nat) (s : State) : (useAts r addr s).prof = s.prof := by cases r <;> rfl
@[simp] theorem useAts_hostMem (r : RingId) (addr : Nat) (s : State) : (useAts r addr s).hostMem = s.hostMem := by cases r <;> rfl
@[simp] theorem useAts_freeCtr (r : RingId) (addr : Nat) (s : State) : (useAts r addr s).freeCtr = s.freeCtr := by cases r <;> rfl
@[simp] theorem useAts_nextId (r : RingId) (addr : Nat) (s : State) : (useAts r addr s).nextId = s.nextId := by cases r <;> rfl

@[simp] theorem putCpl_pending (r : RingId) (cid target : Nat) (c : Cpl) (s : State) : (putCpl r cid target c s).pending = s.pending := by simp [putCpl]
@[simp] theorem putCpl_glb (r : RingId) (cid target : Nat) (c : Cpl) (s : State) : (putCpl r cid target c s).glb = s.glb := by simp [putCpl]
@[simp] theorem putCpl_pwr (r : RingId) (cid target : Nat) (c : Cpl) (s : State) : (putCpl r cid target c s).pwr = s.pwr := by simp [putCpl]
@[simp] theorem putCpl_sec (r : RingId) (cid target : Nat) (c : Cpl) (s : State) : (putCpl r cid target c s).sec = s.sec := by simp [putCpl]
@[simp] theorem putCpl_evt (r : RingId) (cid target : Nat) (c : Cpl) (s : State) : (putCpl r cid target c s).evt = s.evt := by simp [putCpl]
@[simp] theorem putCpl_qs (r : RingId) (cid target : Nat) (c : Cpl) (s : State) : (putCpl r cid target c s).qs = s.qs := by simp [putCpl]
@[simp] theorem putCpl_msix (r : RingId) (cid target : Nat) (c : Cpl) (s : State) : (putCpl r cid target c s).msix = s.msix := by simp [putCpl]
@[simp] theorem putCpl_seqs (r : RingId) (cid target : Nat) (c : Cpl) (s : State) : (putCpl r cid target c s).seqs = s.seqs := by simp [putCpl]
@[simp] theorem putCpl_streams (r : RingId) (cid target : Nat) (c : Cpl) (s : State) : (putCpl r cid target c s).streams = s.streams := by simp [putCpl]
@[simp] theorem putCpl_blks (r : RingId) (cid target : Nat) (c : Cpl) (s : State) : (putCpl r cid target c s).blks = s.blks := by simp [putCpl]
@[simp] theorem putCpl_codec (r : RingId) (cid target : Nat) (c : Cpl) (s : State) : (putCpl r cid target c s).codec = s.codec := by simp [putCpl]
@[simp] theorem putCpl_fmt (r : RingId) (cid target : Nat) (c : Cpl) (s : State) : (putCpl r cid target c s).fmt = s.fmt := by simp [putCpl]
@[simp] theorem putCpl_wch (r : RingId) (cid target : Nat) (c : Cpl) (s : State) : (putCpl r cid target c s).wch = s.wch := by simp [putCpl]
@[simp] theorem putCpl_pace (r : RingId) (cid target : Nat) (c : Cpl) (s : State) : (putCpl r cid target c s).pace = s.pace := by simp [putCpl]
@[simp] theorem putCpl_cart (r : RingId) (cid target : Nat) (c : Cpl) (s : State) : (putCpl r cid target c s).cart = s.cart := by simp [putCpl]
@[simp] theorem putCpl_pans (r : RingId) (cid target : Nat) (c : Cpl) (s : State) : (putCpl r cid target c s).pans = s.pans := by simp [putCpl]
@[simp] theorem putCpl_buf (r : RingId) (cid target : Nat) (c : Cpl) (s : State) : (putCpl r cid target c s).buf = s.buf := by simp [putCpl]
@[simp] theorem putCpl_mov (r : RingId) (cid target : Nat) (c : Cpl) (s : State) : (putCpl r cid target c s).mov = s.mov := by simp [putCpl]
@[simp] theorem putCpl_rch (r : RingId) (cid target : Nat) (c : Cpl) (s : State) : (putCpl r cid target c s).rch = s.rch := by simp [putCpl]
@[simp] theorem putCpl_rdc (r : RingId) (cid target : Nat) (c : Cpl) (s : State) : (putCpl r cid target c s).rdc = s.rdc := by simp [putCpl]
@[simp] theorem putCpl_rtv (r : RingId) (cid target : Nat) (c : Cpl) (s : State) : (putCpl r cid target c s).rtv = s.rtv := by simp [putCpl]
@[simp] theorem putCpl_srv (r : RingId) (cid target : Nat) (c : Cpl) (s : State) : (putCpl r cid target c s).srv = s.srv := by simp [putCpl]
@[simp] theorem putCpl_mot (r : RingId) (cid target : Nat) (c : Cpl) (s : State) : (putCpl r cid target c s).mot = s.mot := by simp [putCpl]
@[simp] theorem putCpl_chn (r : RingId) (cid target : Nat) (c : Cpl) (s : State) : (putCpl r cid target c s).chn = s.chn := by simp [putCpl]
@[simp] theorem putCpl_prof (r : RingId) (cid target : Nat) (c : Cpl) (s : State) : (putCpl r cid target c s).prof = s.prof := by simp [putCpl]
@[simp] theorem putCpl_freeCtr (r : RingId) (cid target : Nat) (c : Cpl) (s : State) : (putCpl r cid target c s).freeCtr = s.freeCtr := by simp [putCpl]
@[simp] theorem putCpl_nextId (r : RingId) (cid target : Nat) (c : Cpl) (s : State) : (putCpl r cid target c s).nextId = s.nextId := by simp [putCpl]

@[simp] theorem countCpl_pending (r : RingId) (st : Status) (s : State) : (countCpl r st s).pending = s.pending := by cases r <;> simp [countCpl]
@[simp] theorem countCpl_glb (r : RingId) (st : Status) (s : State) : (countCpl r st s).glb = s.glb := by cases r <;> simp [countCpl]
@[simp] theorem countCpl_pwr (r : RingId) (st : Status) (s : State) : (countCpl r st s).pwr = s.pwr := by cases r <;> simp [countCpl]
@[simp] theorem countCpl_sec (r : RingId) (st : Status) (s : State) : (countCpl r st s).sec = s.sec := by cases r <;> simp [countCpl]
@[simp] theorem countCpl_evt (r : RingId) (st : Status) (s : State) : (countCpl r st s).evt = s.evt := by cases r <;> simp [countCpl]
@[simp] theorem countCpl_qs (r : RingId) (st : Status) (s : State) : (countCpl r st s).qs = s.qs := by cases r <;> simp [countCpl]
@[simp] theorem countCpl_msix (r : RingId) (st : Status) (s : State) : (countCpl r st s).msix = s.msix := by cases r <;> simp [countCpl]
@[simp] theorem countCpl_hif (r : RingId) (st : Status) (s : State) : (countCpl r st s).hif = s.hif := by cases r <;> simp [countCpl]
@[simp] theorem countCpl_seqs (r : RingId) (st : Status) (s : State) : (countCpl r st s).seqs = s.seqs := by cases r <;> simp [countCpl]
@[simp] theorem countCpl_streams (r : RingId) (st : Status) (s : State) : (countCpl r st s).streams = s.streams := by cases r <;> simp [countCpl]
@[simp] theorem countCpl_blks (r : RingId) (st : Status) (s : State) : (countCpl r st s).blks = s.blks := by cases r <;> simp [countCpl]
@[simp] theorem countCpl_codec (r : RingId) (st : Status) (s : State) : (countCpl r st s).codec = s.codec := by cases r <;> simp [countCpl]
@[simp] theorem countCpl_fmt (r : RingId) (st : Status) (s : State) : (countCpl r st s).fmt = s.fmt := by cases r <;> simp [countCpl]
@[simp] theorem countCpl_wch (r : RingId) (st : Status) (s : State) : (countCpl r st s).wch = s.wch := by cases r <;> simp [countCpl]
@[simp] theorem countCpl_pace (r : RingId) (st : Status) (s : State) : (countCpl r st s).pace = s.pace := by cases r <;> simp [countCpl]
@[simp] theorem countCpl_cart (r : RingId) (st : Status) (s : State) : (countCpl r st s).cart = s.cart := by cases r <;> simp [countCpl]
@[simp] theorem countCpl_pans (r : RingId) (st : Status) (s : State) : (countCpl r st s).pans = s.pans := by cases r <;> simp [countCpl]
@[simp] theorem countCpl_buf (r : RingId) (st : Status) (s : State) : (countCpl r st s).buf = s.buf := by cases r <;> simp [countCpl]
@[simp] theorem countCpl_mov (r : RingId) (st : Status) (s : State) : (countCpl r st s).mov = s.mov := by cases r <;> simp [countCpl]
@[simp] theorem countCpl_rch (r : RingId) (st : Status) (s : State) : (countCpl r st s).rch = s.rch := by cases r <;> simp [countCpl]
@[simp] theorem countCpl_rdc (r : RingId) (st : Status) (s : State) : (countCpl r st s).rdc = s.rdc := by cases r <;> simp [countCpl]
@[simp] theorem countCpl_rtv (r : RingId) (st : Status) (s : State) : (countCpl r st s).rtv = s.rtv := by cases r <;> simp [countCpl]
@[simp] theorem countCpl_srv (r : RingId) (st : Status) (s : State) : (countCpl r st s).srv = s.srv := by cases r <;> simp [countCpl]
@[simp] theorem countCpl_mot (r : RingId) (st : Status) (s : State) : (countCpl r st s).mot = s.mot := by cases r <;> simp [countCpl]
@[simp] theorem countCpl_chn (r : RingId) (st : Status) (s : State) : (countCpl r st s).chn = s.chn := by cases r <;> simp [countCpl]
@[simp] theorem countCpl_prof (r : RingId) (st : Status) (s : State) : (countCpl r st s).prof = s.prof := by cases r <;> simp [countCpl]
@[simp] theorem countCpl_hostMem (r : RingId) (st : Status) (s : State) : (countCpl r st s).hostMem = s.hostMem := by cases r <;> simp [countCpl]
@[simp] theorem countCpl_freeCtr (r : RingId) (st : Status) (s : State) : (countCpl r st s).freeCtr = s.freeCtr := by cases r <;> simp [countCpl]
@[simp] theorem countCpl_nextId (r : RingId) (st : Status) (s : State) : (countCpl r st s).nextId = s.nextId := by cases r <;> simp [countCpl]

@[simp] theorem dropCmd_pending (r : RingId) (uid : Nat) (s : State) : (dropCmd r uid s).pending = s.pending := by simp [dropCmd]
@[simp] theorem dropCmd_glb (r : RingId) (uid : Nat) (s : State) : (dropCmd r uid s).glb = s.glb := by simp [dropCmd]
@[simp] theorem dropCmd_pwr (r : RingId) (uid : Nat) (s : State) : (dropCmd r uid s).pwr = s.pwr := by simp [dropCmd]
@[simp] theorem dropCmd_sec (r : RingId) (uid : Nat) (s : State) : (dropCmd r uid s).sec = s.sec := by simp [dropCmd]
@[simp] theorem dropCmd_evt (r : RingId) (uid : Nat) (s : State) : (dropCmd r uid s).evt = s.evt := by simp [dropCmd]
@[simp] theorem dropCmd_qs (r : RingId) (uid : Nat) (s : State) : (dropCmd r uid s).qs = s.qs := by simp [dropCmd]
@[simp] theorem dropCmd_msix (r : RingId) (uid : Nat) (s : State) : (dropCmd r uid s).msix = s.msix := by simp [dropCmd]
@[simp] theorem dropCmd_seqs (r : RingId) (uid : Nat) (s : State) : (dropCmd r uid s).seqs = s.seqs := by simp [dropCmd]
@[simp] theorem dropCmd_streams (r : RingId) (uid : Nat) (s : State) : (dropCmd r uid s).streams = s.streams := by simp [dropCmd]
@[simp] theorem dropCmd_blks (r : RingId) (uid : Nat) (s : State) : (dropCmd r uid s).blks = s.blks := by simp [dropCmd]
@[simp] theorem dropCmd_codec (r : RingId) (uid : Nat) (s : State) : (dropCmd r uid s).codec = s.codec := by simp [dropCmd]
@[simp] theorem dropCmd_fmt (r : RingId) (uid : Nat) (s : State) : (dropCmd r uid s).fmt = s.fmt := by simp [dropCmd]
@[simp] theorem dropCmd_wch (r : RingId) (uid : Nat) (s : State) : (dropCmd r uid s).wch = s.wch := by simp [dropCmd]
@[simp] theorem dropCmd_pace (r : RingId) (uid : Nat) (s : State) : (dropCmd r uid s).pace = s.pace := by simp [dropCmd]
@[simp] theorem dropCmd_cart (r : RingId) (uid : Nat) (s : State) : (dropCmd r uid s).cart = s.cart := by simp [dropCmd]
@[simp] theorem dropCmd_pans (r : RingId) (uid : Nat) (s : State) : (dropCmd r uid s).pans = s.pans := by simp [dropCmd]
@[simp] theorem dropCmd_buf (r : RingId) (uid : Nat) (s : State) : (dropCmd r uid s).buf = s.buf := by simp [dropCmd]
@[simp] theorem dropCmd_mov (r : RingId) (uid : Nat) (s : State) : (dropCmd r uid s).mov = s.mov := by simp [dropCmd]
@[simp] theorem dropCmd_rch (r : RingId) (uid : Nat) (s : State) : (dropCmd r uid s).rch = s.rch := by simp [dropCmd]
@[simp] theorem dropCmd_rdc (r : RingId) (uid : Nat) (s : State) : (dropCmd r uid s).rdc = s.rdc := by simp [dropCmd]
@[simp] theorem dropCmd_rtv (r : RingId) (uid : Nat) (s : State) : (dropCmd r uid s).rtv = s.rtv := by simp [dropCmd]
@[simp] theorem dropCmd_srv (r : RingId) (uid : Nat) (s : State) : (dropCmd r uid s).srv = s.srv := by simp [dropCmd]
@[simp] theorem dropCmd_mot (r : RingId) (uid : Nat) (s : State) : (dropCmd r uid s).mot = s.mot := by simp [dropCmd]
@[simp] theorem dropCmd_chn (r : RingId) (uid : Nat) (s : State) : (dropCmd r uid s).chn = s.chn := by simp [dropCmd]
@[simp] theorem dropCmd_prof (r : RingId) (uid : Nat) (s : State) : (dropCmd r uid s).prof = s.prof := by simp [dropCmd]
@[simp] theorem dropCmd_hostMem (r : RingId) (uid : Nat) (s : State) : (dropCmd r uid s).hostMem = s.hostMem := by simp [dropCmd]
@[simp] theorem dropCmd_freeCtr (r : RingId) (uid : Nat) (s : State) : (dropCmd r uid s).freeCtr = s.freeCtr := by simp [dropCmd]
@[simp] theorem dropCmd_nextId (r : RingId) (uid : Nat) (s : State) : (dropCmd r uid s).nextId = s.nextId := by simp [dropCmd]

@[simp] theorem complete_pending (r : RingId) (uid : Nat) (c : Cpl) (s : State) : (complete r uid c s).pending = s.pending := by unfold complete; dsimp only; (repeat' split) <;> simp
@[simp] theorem complete_glb (r : RingId) (uid : Nat) (c : Cpl) (s : State) : (complete r uid c s).glb = s.glb := by unfold complete; dsimp only; (repeat' split) <;> simp
@[simp] theorem complete_pwr (r : RingId) (uid : Nat) (c : Cpl) (s : State) : (complete r uid c s).pwr = s.pwr := by unfold complete; dsimp only; (repeat' split) <;> simp
@[simp] theorem complete_sec (r : RingId) (uid : Nat) (c : Cpl) (s : State) : (complete r uid c s).sec = s.sec := by unfold complete; dsimp only; (repeat' split) <;> simp
@[simp] theorem complete_evt (r : RingId) (uid : Nat) (c : Cpl) (s : State) : (complete r uid c s).evt = s.evt := by unfold complete; dsimp only; (repeat' split) <;> simp
@[simp] theorem complete_qs (r : RingId) (uid : Nat) (c : Cpl) (s : State) : (complete r uid c s).qs = s.qs := by unfold complete; dsimp only; (repeat' split) <;> simp
@[simp] theorem complete_seqs (r : RingId) (uid : Nat) (c : Cpl) (s : State) : (complete r uid c s).seqs = s.seqs := by unfold complete; dsimp only; (repeat' split) <;> simp
@[simp] theorem complete_streams (r : RingId) (uid : Nat) (c : Cpl) (s : State) : (complete r uid c s).streams = s.streams := by unfold complete; dsimp only; (repeat' split) <;> simp
@[simp] theorem complete_blks (r : RingId) (uid : Nat) (c : Cpl) (s : State) : (complete r uid c s).blks = s.blks := by unfold complete; dsimp only; (repeat' split) <;> simp
@[simp] theorem complete_codec (r : RingId) (uid : Nat) (c : Cpl) (s : State) : (complete r uid c s).codec = s.codec := by unfold complete; dsimp only; (repeat' split) <;> simp
@[simp] theorem complete_fmt (r : RingId) (uid : Nat) (c : Cpl) (s : State) : (complete r uid c s).fmt = s.fmt := by unfold complete; dsimp only; (repeat' split) <;> simp
@[simp] theorem complete_wch (r : RingId) (uid : Nat) (c : Cpl) (s : State) : (complete r uid c s).wch = s.wch := by unfold complete; dsimp only; (repeat' split) <;> simp
@[simp] theorem complete_pace (r : RingId) (uid : Nat) (c : Cpl) (s : State) : (complete r uid c s).pace = s.pace := by unfold complete; dsimp only; (repeat' split) <;> simp
@[simp] theorem complete_cart (r : RingId) (uid : Nat) (c : Cpl) (s : State) : (complete r uid c s).cart = s.cart := by unfold complete; dsimp only; (repeat' split) <;> simp
@[simp] theorem complete_pans (r : RingId) (uid : Nat) (c : Cpl) (s : State) : (complete r uid c s).pans = s.pans := by unfold complete; dsimp only; (repeat' split) <;> simp
@[simp] theorem complete_buf (r : RingId) (uid : Nat) (c : Cpl) (s : State) : (complete r uid c s).buf = s.buf := by unfold complete; dsimp only; (repeat' split) <;> simp
@[simp] theorem complete_mov (r : RingId) (uid : Nat) (c : Cpl) (s : State) : (complete r uid c s).mov = s.mov := by unfold complete; dsimp only; (repeat' split) <;> simp
@[simp] theorem complete_rch (r : RingId) (uid : Nat) (c : Cpl) (s : State) : (complete r uid c s).rch = s.rch := by unfold complete; dsimp only; (repeat' split) <;> simp
@[simp] theorem complete_rdc (r : RingId) (uid : Nat) (c : Cpl) (s : State) : (complete r uid c s).rdc = s.rdc := by unfold complete; dsimp only; (repeat' split) <;> simp
@[simp] theorem complete_rtv (r : RingId) (uid : Nat) (c : Cpl) (s : State) : (complete r uid c s).rtv = s.rtv := by unfold complete; dsimp only; (repeat' split) <;> simp
@[simp] theorem complete_srv (r : RingId) (uid : Nat) (c : Cpl) (s : State) : (complete r uid c s).srv = s.srv := by unfold complete; dsimp only; (repeat' split) <;> simp
@[simp] theorem complete_mot (r : RingId) (uid : Nat) (c : Cpl) (s : State) : (complete r uid c s).mot = s.mot := by unfold complete; dsimp only; (repeat' split) <;> simp
@[simp] theorem complete_chn (r : RingId) (uid : Nat) (c : Cpl) (s : State) : (complete r uid c s).chn = s.chn := by unfold complete; dsimp only; (repeat' split) <;> simp
@[simp] theorem complete_prof (r : RingId) (uid : Nat) (c : Cpl) (s : State) : (complete r uid c s).prof = s.prof := by unfold complete; dsimp only; (repeat' split) <;> simp
@[simp] theorem complete_freeCtr (r : RingId) (uid : Nat) (c : Cpl) (s : State) : (complete r uid c s).freeCtr = s.freeCtr := by unfold complete; dsimp only; (repeat' split) <;> simp
@[simp] theorem complete_nextId (r : RingId) (uid : Nat) (c : Cpl) (s : State) : (complete r uid c s).nextId = s.nextId := by unfold complete; dsimp only; (repeat' split) <;> simp

@[simp] theorem completeSt_pending (r : RingId) (uid : Nat) (st : Status) (s : State) : (completeSt r uid st s).pending = s.pending := by simp [completeSt]
@[simp] theorem completeSt_glb (r : RingId) (uid : Nat) (st : Status) (s : State) : (completeSt r uid st s).glb = s.glb := by simp [completeSt]
@[simp] theorem completeSt_pwr (r : RingId) (uid : Nat) (st : Status) (s : State) : (completeSt r uid st s).pwr = s.pwr := by simp [completeSt]
@[simp] theorem completeSt_sec (r : RingId) (uid : Nat) (st : Status) (s : State) : (completeSt r uid st s).sec = s.sec := by simp [completeSt]
@[simp] theorem completeSt_evt (r : RingId) (uid : Nat) (st : Status) (s : State) : (completeSt r uid st s).evt = s.evt := by simp [completeSt]
@[simp] theorem completeSt_qs (r : RingId) (uid : Nat) (st : Status) (s : State) : (completeSt r uid st s).qs = s.qs := by simp [completeSt]
@[simp] theorem completeSt_seqs (r : RingId) (uid : Nat) (st : Status) (s : State) : (completeSt r uid st s).seqs = s.seqs := by simp [completeSt]
@[simp] theorem completeSt_streams (r : RingId) (uid : Nat) (st : Status) (s : State) : (completeSt r uid st s).streams = s.streams := by simp [completeSt]
@[simp] theorem completeSt_blks (r : RingId) (uid : Nat) (st : Status) (s : State) : (completeSt r uid st s).blks = s.blks := by simp [completeSt]
@[simp] theorem completeSt_codec (r : RingId) (uid : Nat) (st : Status) (s : State) : (completeSt r uid st s).codec = s.codec := by simp [completeSt]
@[simp] theorem completeSt_fmt (r : RingId) (uid : Nat) (st : Status) (s : State) : (completeSt r uid st s).fmt = s.fmt := by simp [completeSt]
@[simp] theorem completeSt_wch (r : RingId) (uid : Nat) (st : Status) (s : State) : (completeSt r uid st s).wch = s.wch := by simp [completeSt]
@[simp] theorem completeSt_pace (r : RingId) (uid : Nat) (st : Status) (s : State) : (completeSt r uid st s).pace = s.pace := by simp [completeSt]
@[simp] theorem completeSt_cart (r : RingId) (uid : Nat) (st : Status) (s : State) : (completeSt r uid st s).cart = s.cart := by simp [completeSt]
@[simp] theorem completeSt_pans (r : RingId) (uid : Nat) (st : Status) (s : State) : (completeSt r uid st s).pans = s.pans := by simp [completeSt]
@[simp] theorem completeSt_buf (r : RingId) (uid : Nat) (st : Status) (s : State) : (completeSt r uid st s).buf = s.buf := by simp [completeSt]
@[simp] theorem completeSt_mov (r : RingId) (uid : Nat) (st : Status) (s : State) : (completeSt r uid st s).mov = s.mov := by simp [completeSt]
@[simp] theorem completeSt_rch (r : RingId) (uid : Nat) (st : Status) (s : State) : (completeSt r uid st s).rch = s.rch := by simp [completeSt]
@[simp] theorem completeSt_rdc (r : RingId) (uid : Nat) (st : Status) (s : State) : (completeSt r uid st s).rdc = s.rdc := by simp [completeSt]
@[simp] theorem completeSt_rtv (r : RingId) (uid : Nat) (st : Status) (s : State) : (completeSt r uid st s).rtv = s.rtv := by simp [completeSt]
@[simp] theorem completeSt_srv (r : RingId) (uid : Nat) (st : Status) (s : State) : (completeSt r uid st s).srv = s.srv := by simp [completeSt]
@[simp] theorem completeSt_mot (r : RingId) (uid : Nat) (st : Status) (s : State) : (completeSt r uid st s).mot = s.mot := by simp [completeSt]
@[simp] theorem completeSt_chn (r : RingId) (uid : Nat) (st : Status) (s : State) : (completeSt r uid st s).chn = s.chn := by simp [completeSt]
@[simp] theorem completeSt_prof (r : RingId) (uid : Nat) (st : Status) (s : State) : (completeSt r uid st s).prof = s.prof := by simp [completeSt]
@[simp] theorem completeSt_freeCtr (r : RingId) (uid : Nat) (st : Status) (s : State) : (completeSt r uid st s).freeCtr = s.freeCtr := by simp [completeSt]
@[simp] theorem completeSt_nextId (r : RingId) (uid : Nat) (st : Status) (s : State) : (completeSt r uid st s).nextId = s.nextId := by simp [completeSt]

@[simp] theorem mEnd_pending (c : Cmd) (st : Status) (s : State) : (mEnd c st s).pending = s.pending := by simp [mEnd]
@[simp] theorem mEnd_glb (c : Cmd) (st : Status) (s : State) : (mEnd c st s).glb = s.glb := by simp [mEnd]
@[simp] theorem mEnd_pwr (c : Cmd) (st : Status) (s : State) : (mEnd c st s).pwr = s.pwr := by simp [mEnd]
@[simp] theorem mEnd_sec (c : Cmd) (st : Status) (s : State) : (mEnd c st s).sec = s.sec := by simp [mEnd]
@[simp] theorem mEnd_evt (c : Cmd) (st : Status) (s : State) : (mEnd c st s).evt = s.evt := by simp [mEnd]
@[simp] theorem mEnd_qs (c : Cmd) (st : Status) (s : State) : (mEnd c st s).qs = s.qs := by simp [mEnd]
@[simp] theorem mEnd_seqs (c : Cmd) (st : Status) (s : State) : (mEnd c st s).seqs = s.seqs := by simp [mEnd]
@[simp] theorem mEnd_streams (c : Cmd) (st : Status) (s : State) : (mEnd c st s).streams = s.streams := by simp [mEnd]
@[simp] theorem mEnd_blks (c : Cmd) (st : Status) (s : State) : (mEnd c st s).blks = s.blks := by simp [mEnd]
@[simp] theorem mEnd_codec (c : Cmd) (st : Status) (s : State) : (mEnd c st s).codec = s.codec := by simp [mEnd]
@[simp] theorem mEnd_fmt (c : Cmd) (st : Status) (s : State) : (mEnd c st s).fmt = s.fmt := by simp [mEnd]
@[simp] theorem mEnd_wch (c : Cmd) (st : Status) (s : State) : (mEnd c st s).wch = s.wch := by simp [mEnd]
@[simp] theorem mEnd_pace (c : Cmd) (st : Status) (s : State) : (mEnd c st s).pace = s.pace := by simp [mEnd]
@[simp] theorem mEnd_cart (c : Cmd) (st : Status) (s : State) : (mEnd c st s).cart = s.cart := by simp [mEnd]
@[simp] theorem mEnd_pans (c : Cmd) (st : Status) (s : State) : (mEnd c st s).pans = s.pans := by simp [mEnd]
@[simp] theorem mEnd_buf (c : Cmd) (st : Status) (s : State) : (mEnd c st s).buf = s.buf := by simp [mEnd]
@[simp] theorem mEnd_mov (c : Cmd) (st : Status) (s : State) : (mEnd c st s).mov = s.mov := by simp [mEnd]
@[simp] theorem mEnd_rch (c : Cmd) (st : Status) (s : State) : (mEnd c st s).rch = s.rch := by simp [mEnd]
@[simp] theorem mEnd_rdc (c : Cmd) (st : Status) (s : State) : (mEnd c st s).rdc = s.rdc := by simp [mEnd]
@[simp] theorem mEnd_rtv (c : Cmd) (st : Status) (s : State) : (mEnd c st s).rtv = s.rtv := by simp [mEnd]
@[simp] theorem mEnd_srv (c : Cmd) (st : Status) (s : State) : (mEnd c st s).srv = s.srv := by simp [mEnd]
@[simp] theorem mEnd_mot (c : Cmd) (st : Status) (s : State) : (mEnd c st s).mot = s.mot := by simp [mEnd]
@[simp] theorem mEnd_chn (c : Cmd) (st : Status) (s : State) : (mEnd c st s).chn = s.chn := by simp [mEnd]
@[simp] theorem mEnd_prof (c : Cmd) (st : Status) (s : State) : (mEnd c st s).prof = s.prof := by simp [mEnd]
@[simp] theorem mEnd_freeCtr (c : Cmd) (st : Status) (s : State) : (mEnd c st s).freeCtr = s.freeCtr := by simp [mEnd]
@[simp] theorem mEnd_nextId (c : Cmd) (st : Status) (s : State) : (mEnd c st s).nextId = s.nextId := by simp [mEnd]

@[simp] theorem mOk_pending (c : Cmd) (a b d : Nat) (s : State) : (mOk c a b d s).pending = s.pending := by simp [mOk]
@[simp] theorem mOk_glb (c : Cmd) (a b d : Nat) (s : State) : (mOk c a b d s).glb = s.glb := by simp [mOk]
@[simp] theorem mOk_pwr (c : Cmd) (a b d : Nat) (s : State) : (mOk c a b d s).pwr = s.pwr := by simp [mOk]
@[simp] theorem mOk_sec (c : Cmd) (a b d : Nat) (s : State) : (mOk c a b d s).sec = s.sec := by simp [mOk]
@[simp] theorem mOk_evt (c : Cmd) (a b d : Nat) (s : State) : (mOk c a b d s).evt = s.evt := by simp [mOk]
@[simp] theorem mOk_qs (c : Cmd) (a b d : Nat) (s : State) : (mOk c a b d s).qs = s.qs := by simp [mOk]
@[simp] theorem mOk_seqs (c : Cmd) (a b d : Nat) (s : State) : (mOk c a b d s).seqs = s.seqs := by simp [mOk]
@[simp] theorem mOk_streams (c : Cmd) (a b d : Nat) (s : State) : (mOk c a b d s).streams = s.streams := by simp [mOk]
@[simp] theorem mOk_blks (c : Cmd) (a b d : Nat) (s : State) : (mOk c a b d s).blks = s.blks := by simp [mOk]
@[simp] theorem mOk_codec (c : Cmd) (a b d : Nat) (s : State) : (mOk c a b d s).codec = s.codec := by simp [mOk]
@[simp] theorem mOk_fmt (c : Cmd) (a b d : Nat) (s : State) : (mOk c a b d s).fmt = s.fmt := by simp [mOk]
@[simp] theorem mOk_wch (c : Cmd) (a b d : Nat) (s : State) : (mOk c a b d s).wch = s.wch := by simp [mOk]
@[simp] theorem mOk_pace (c : Cmd) (a b d : Nat) (s : State) : (mOk c a b d s).pace = s.pace := by simp [mOk]
@[simp] theorem mOk_cart (c : Cmd) (a b d : Nat) (s : State) : (mOk c a b d s).cart = s.cart := by simp [mOk]
@[simp] theorem mOk_pans (c : Cmd) (a b d : Nat) (s : State) : (mOk c a b d s).pans = s.pans := by simp [mOk]
@[simp] theorem mOk_buf (c : Cmd) (a b d : Nat) (s : State) : (mOk c a b d s).buf = s.buf := by simp [mOk]
@[simp] theorem mOk_mov (c : Cmd) (a b d : Nat) (s : State) : (mOk c a b d s).mov = s.mov := by simp [mOk]
@[simp] theorem mOk_rch (c : Cmd) (a b d : Nat) (s : State) : (mOk c a b d s).rch = s.rch := by simp [mOk]
@[simp] theorem mOk_rdc (c : Cmd) (a b d : Nat) (s : State) : (mOk c a b d s).rdc = s.rdc := by simp [mOk]
@[simp] theorem mOk_rtv (c : Cmd) (a b d : Nat) (s : State) : (mOk c a b d s).rtv = s.rtv := by simp [mOk]
@[simp] theorem mOk_srv (c : Cmd) (a b d : Nat) (s : State) : (mOk c a b d s).srv = s.srv := by simp [mOk]
@[simp] theorem mOk_mot (c : Cmd) (a b d : Nat) (s : State) : (mOk c a b d s).mot = s.mot := by simp [mOk]
@[simp] theorem mOk_chn (c : Cmd) (a b d : Nat) (s : State) : (mOk c a b d s).chn = s.chn := by simp [mOk]
@[simp] theorem mOk_prof (c : Cmd) (a b d : Nat) (s : State) : (mOk c a b d s).prof = s.prof := by simp [mOk]
@[simp] theorem mOk_freeCtr (c : Cmd) (a b d : Nat) (s : State) : (mOk c a b d s).freeCtr = s.freeCtr := by simp [mOk]
@[simp] theorem mOk_nextId (c : Cmd) (a b d : Nat) (s : State) : (mOk c a b d s).nextId = s.nextId := by simp [mOk]

@[simp] theorem endSt_pending (v : Inst) (c : Cmd) (st : Status) (s : State) : (endSt v c st s).pending = s.pending := by simp [endSt]
@[simp] theorem endSt_glb (v : Inst) (c : Cmd) (st : Status) (s : State) : (endSt v c st s).glb = s.glb := by simp [endSt]
@[simp] theorem endSt_pwr (v : Inst) (c : Cmd) (st : Status) (s : State) : (endSt v c st s).pwr = s.pwr := by simp [endSt]
@[simp] theorem endSt_sec (v : Inst) (c : Cmd) (st : Status) (s : State) : (endSt v c st s).sec = s.sec := by simp [endSt]
@[simp] theorem endSt_evt (v : Inst) (c : Cmd) (st : Status) (s : State) : (endSt v c st s).evt = s.evt := by simp [endSt]
@[simp] theorem endSt_qs (v : Inst) (c : Cmd) (st : Status) (s : State) : (endSt v c st s).qs = s.qs := by simp [endSt]
@[simp] theorem endSt_seqs (v : Inst) (c : Cmd) (st : Status) (s : State) : (endSt v c st s).seqs = s.seqs := by simp [endSt]
@[simp] theorem endSt_streams (v : Inst) (c : Cmd) (st : Status) (s : State) : (endSt v c st s).streams = s.streams := by simp [endSt]
@[simp] theorem endSt_blks (v : Inst) (c : Cmd) (st : Status) (s : State) : (endSt v c st s).blks = s.blks := by simp [endSt]
@[simp] theorem endSt_codec (v : Inst) (c : Cmd) (st : Status) (s : State) : (endSt v c st s).codec = s.codec := by simp [endSt]
@[simp] theorem endSt_fmt (v : Inst) (c : Cmd) (st : Status) (s : State) : (endSt v c st s).fmt = s.fmt := by simp [endSt]
@[simp] theorem endSt_wch (v : Inst) (c : Cmd) (st : Status) (s : State) : (endSt v c st s).wch = s.wch := by simp [endSt]
@[simp] theorem endSt_pace (v : Inst) (c : Cmd) (st : Status) (s : State) : (endSt v c st s).pace = s.pace := by simp [endSt]
@[simp] theorem endSt_cart (v : Inst) (c : Cmd) (st : Status) (s : State) : (endSt v c st s).cart = s.cart := by simp [endSt]
@[simp] theorem endSt_pans (v : Inst) (c : Cmd) (st : Status) (s : State) : (endSt v c st s).pans = s.pans := by simp [endSt]
@[simp] theorem endSt_buf (v : Inst) (c : Cmd) (st : Status) (s : State) : (endSt v c st s).buf = s.buf := by simp [endSt]
@[simp] theorem endSt_mov (v : Inst) (c : Cmd) (st : Status) (s : State) : (endSt v c st s).mov = s.mov := by simp [endSt]
@[simp] theorem endSt_rch (v : Inst) (c : Cmd) (st : Status) (s : State) : (endSt v c st s).rch = s.rch := by simp [endSt]
@[simp] theorem endSt_rdc (v : Inst) (c : Cmd) (st : Status) (s : State) : (endSt v c st s).rdc = s.rdc := by simp [endSt]
@[simp] theorem endSt_rtv (v : Inst) (c : Cmd) (st : Status) (s : State) : (endSt v c st s).rtv = s.rtv := by simp [endSt]
@[simp] theorem endSt_srv (v : Inst) (c : Cmd) (st : Status) (s : State) : (endSt v c st s).srv = s.srv := by simp [endSt]
@[simp] theorem endSt_mot (v : Inst) (c : Cmd) (st : Status) (s : State) : (endSt v c st s).mot = s.mot := by simp [endSt]
@[simp] theorem endSt_chn (v : Inst) (c : Cmd) (st : Status) (s : State) : (endSt v c st s).chn = s.chn := by simp [endSt]
@[simp] theorem endSt_prof (v : Inst) (c : Cmd) (st : Status) (s : State) : (endSt v c st s).prof = s.prof := by simp [endSt]
@[simp] theorem endSt_freeCtr (v : Inst) (c : Cmd) (st : Status) (s : State) : (endSt v c st s).freeCtr = s.freeCtr := by simp [endSt]
@[simp] theorem endSt_nextId (v : Inst) (c : Cmd) (st : Status) (s : State) : (endSt v c st s).nextId = s.nextId := by simp [endSt]

@[simp] theorem endOk_pending (v : Inst) (c : Cmd) (a b d : Nat) (s : State) : (endOk v c a b d s).pending = s.pending := by simp [endOk]
@[simp] theorem endOk_glb (v : Inst) (c : Cmd) (a b d : Nat) (s : State) : (endOk v c a b d s).glb = s.glb := by simp [endOk]
@[simp] theorem endOk_pwr (v : Inst) (c : Cmd) (a b d : Nat) (s : State) : (endOk v c a b d s).pwr = s.pwr := by simp [endOk]
@[simp] theorem endOk_sec (v : Inst) (c : Cmd) (a b d : Nat) (s : State) : (endOk v c a b d s).sec = s.sec := by simp [endOk]
@[simp] theorem endOk_evt (v : Inst) (c : Cmd) (a b d : Nat) (s : State) : (endOk v c a b d s).evt = s.evt := by simp [endOk]
@[simp] theorem endOk_qs (v : Inst) (c : Cmd) (a b d : Nat) (s : State) : (endOk v c a b d s).qs = s.qs := by simp [endOk]
@[simp] theorem endOk_seqs (v : Inst) (c : Cmd) (a b d : Nat) (s : State) : (endOk v c a b d s).seqs = s.seqs := by simp [endOk]
@[simp] theorem endOk_streams (v : Inst) (c : Cmd) (a b d : Nat) (s : State) : (endOk v c a b d s).streams = s.streams := by simp [endOk]
@[simp] theorem endOk_blks (v : Inst) (c : Cmd) (a b d : Nat) (s : State) : (endOk v c a b d s).blks = s.blks := by simp [endOk]
@[simp] theorem endOk_codec (v : Inst) (c : Cmd) (a b d : Nat) (s : State) : (endOk v c a b d s).codec = s.codec := by simp [endOk]
@[simp] theorem endOk_fmt (v : Inst) (c : Cmd) (a b d : Nat) (s : State) : (endOk v c a b d s).fmt = s.fmt := by simp [endOk]
@[simp] theorem endOk_wch (v : Inst) (c : Cmd) (a b d : Nat) (s : State) : (endOk v c a b d s).wch = s.wch := by simp [endOk]
@[simp] theorem endOk_pace (v : Inst) (c : Cmd) (a b d : Nat) (s : State) : (endOk v c a b d s).pace = s.pace := by simp [endOk]
@[simp] theorem endOk_cart (v : Inst) (c : Cmd) (a b d : Nat) (s : State) : (endOk v c a b d s).cart = s.cart := by simp [endOk]
@[simp] theorem endOk_pans (v : Inst) (c : Cmd) (a b d : Nat) (s : State) : (endOk v c a b d s).pans = s.pans := by simp [endOk]
@[simp] theorem endOk_buf (v : Inst) (c : Cmd) (a b d : Nat) (s : State) : (endOk v c a b d s).buf = s.buf := by simp [endOk]
@[simp] theorem endOk_mov (v : Inst) (c : Cmd) (a b d : Nat) (s : State) : (endOk v c a b d s).mov = s.mov := by simp [endOk]
@[simp] theorem endOk_rch (v : Inst) (c : Cmd) (a b d : Nat) (s : State) : (endOk v c a b d s).rch = s.rch := by simp [endOk]
@[simp] theorem endOk_rdc (v : Inst) (c : Cmd) (a b d : Nat) (s : State) : (endOk v c a b d s).rdc = s.rdc := by simp [endOk]
@[simp] theorem endOk_rtv (v : Inst) (c : Cmd) (a b d : Nat) (s : State) : (endOk v c a b d s).rtv = s.rtv := by simp [endOk]
@[simp] theorem endOk_srv (v : Inst) (c : Cmd) (a b d : Nat) (s : State) : (endOk v c a b d s).srv = s.srv := by simp [endOk]
@[simp] theorem endOk_mot (v : Inst) (c : Cmd) (a b d : Nat) (s : State) : (endOk v c a b d s).mot = s.mot := by simp [endOk]
@[simp] theorem endOk_chn (v : Inst) (c : Cmd) (a b d : Nat) (s : State) : (endOk v c a b d s).chn = s.chn := by simp [endOk]
@[simp] theorem endOk_prof (v : Inst) (c : Cmd) (a b d : Nat) (s : State) : (endOk v c a b d s).prof = s.prof := by simp [endOk]
@[simp] theorem endOk_freeCtr (v : Inst) (c : Cmd) (a b d : Nat) (s : State) : (endOk v c a b d s).freeCtr = s.freeCtr := by simp [endOk]
@[simp] theorem endOk_nextId (v : Inst) (c : Cmd) (a b d : Nat) (s : State) : (endOk v c a b d s).nextId = s.nextId := by simp [endOk]

@[simp] theorem raiseEv_pending (e : Ev) (a b c : Nat) (d : Bytes) (s : State) : (raiseEv e a b c d s).pending = s.pending := by unfold raiseEv; split <;> rfl
@[simp] theorem raiseEv_glb (e : Ev) (a b c : Nat) (d : Bytes) (s : State) : (raiseEv e a b c d s).glb = s.glb := by unfold raiseEv; split <;> rfl
@[simp] theorem raiseEv_pwr (e : Ev) (a b c : Nat) (d : Bytes) (s : State) : (raiseEv e a b c d s).pwr = s.pwr := by unfold raiseEv; split <;> rfl
@[simp] theorem raiseEv_sec (e : Ev) (a b c : Nat) (d : Bytes) (s : State) : (raiseEv e a b c d s).sec = s.sec := by unfold raiseEv; split <;> rfl
@[simp] theorem raiseEv_qs (e : Ev) (a b c : Nat) (d : Bytes) (s : State) : (raiseEv e a b c d s).qs = s.qs := by unfold raiseEv; split <;> rfl
@[simp] theorem raiseEv_msix (e : Ev) (a b c : Nat) (d : Bytes) (s : State) : (raiseEv e a b c d s).msix = s.msix := by unfold raiseEv; split <;> rfl
@[simp] theorem raiseEv_hif (e : Ev) (a b c : Nat) (d : Bytes) (s : State) : (raiseEv e a b c d s).hif = s.hif := by unfold raiseEv; split <;> rfl
@[simp] theorem raiseEv_insts (e : Ev) (a b c : Nat) (d : Bytes) (s : State) : (raiseEv e a b c d s).insts = s.insts := by unfold raiseEv; split <;> rfl
@[simp] theorem raiseEv_seqs (e : Ev) (a b c : Nat) (d : Bytes) (s : State) : (raiseEv e a b c d s).seqs = s.seqs := by unfold raiseEv; split <;> rfl
@[simp] theorem raiseEv_streams (e : Ev) (a b c : Nat) (d : Bytes) (s : State) : (raiseEv e a b c d s).streams = s.streams := by unfold raiseEv; split <;> rfl
@[simp] theorem raiseEv_blks (e : Ev) (a b c : Nat) (d : Bytes) (s : State) : (raiseEv e a b c d s).blks = s.blks := by unfold raiseEv; split <;> rfl
@[simp] theorem raiseEv_codec (e : Ev) (a b c : Nat) (d : Bytes) (s : State) : (raiseEv e a b c d s).codec = s.codec := by unfold raiseEv; split <;> rfl
@[simp] theorem raiseEv_fmt (e : Ev) (a b c : Nat) (d : Bytes) (s : State) : (raiseEv e a b c d s).fmt = s.fmt := by unfold raiseEv; split <;> rfl
@[simp] theorem raiseEv_wch (e : Ev) (a b c : Nat) (d : Bytes) (s : State) : (raiseEv e a b c d s).wch = s.wch := by unfold raiseEv; split <;> rfl
@[simp] theorem raiseEv_pace (e : Ev) (a b c : Nat) (d : Bytes) (s : State) : (raiseEv e a b c d s).pace = s.pace := by unfold raiseEv; split <;> rfl
@[simp] theorem raiseEv_cart (e : Ev) (a b c : Nat) (d : Bytes) (s : State) : (raiseEv e a b c d s).cart = s.cart := by unfold raiseEv; split <;> rfl
@[simp] theorem raiseEv_pans (e : Ev) (a b c : Nat) (d : Bytes) (s : State) : (raiseEv e a b c d s).pans = s.pans := by unfold raiseEv; split <;> rfl
@[simp] theorem raiseEv_buf (e : Ev) (a b c : Nat) (d : Bytes) (s : State) : (raiseEv e a b c d s).buf = s.buf := by unfold raiseEv; split <;> rfl
@[simp] theorem raiseEv_mov (e : Ev) (a b c : Nat) (d : Bytes) (s : State) : (raiseEv e a b c d s).mov = s.mov := by unfold raiseEv; split <;> rfl
@[simp] theorem raiseEv_rch (e : Ev) (a b c : Nat) (d : Bytes) (s : State) : (raiseEv e a b c d s).rch = s.rch := by unfold raiseEv; split <;> rfl
@[simp] theorem raiseEv_rdc (e : Ev) (a b c : Nat) (d : Bytes) (s : State) : (raiseEv e a b c d s).rdc = s.rdc := by unfold raiseEv; split <;> rfl
@[simp] theorem raiseEv_rtv (e : Ev) (a b c : Nat) (d : Bytes) (s : State) : (raiseEv e a b c d s).rtv = s.rtv := by unfold raiseEv; split <;> rfl
@[simp] theorem raiseEv_srv (e : Ev) (a b c : Nat) (d : Bytes) (s : State) : (raiseEv e a b c d s).srv = s.srv := by unfold raiseEv; split <;> rfl
@[simp] theorem raiseEv_mot (e : Ev) (a b c : Nat) (d : Bytes) (s : State) : (raiseEv e a b c d s).mot = s.mot := by unfold raiseEv; split <;> rfl
@[simp] theorem raiseEv_chn (e : Ev) (a b c : Nat) (d : Bytes) (s : State) : (raiseEv e a b c d s).chn = s.chn := by unfold raiseEv; split <;> rfl
@[simp] theorem raiseEv_prof (e : Ev) (a b c : Nat) (d : Bytes) (s : State) : (raiseEv e a b c d s).prof = s.prof := by unfold raiseEv; split <;> rfl
@[simp] theorem raiseEv_hostMem (e : Ev) (a b c : Nat) (d : Bytes) (s : State) : (raiseEv e a b c d s).hostMem = s.hostMem := by unfold raiseEv; split <;> rfl
@[simp] theorem raiseEv_freeCtr (e : Ev) (a b c : Nat) (d : Bytes) (s : State) : (raiseEv e a b c d s).freeCtr = s.freeCtr := by unfold raiseEv; split <;> rfl
@[simp] theorem raiseEv_nextId (e : Ev) (a b c : Nat) (d : Bytes) (s : State) : (raiseEv e a b c d s).nextId = s.nextId := by unfold raiseEv; split <;> rfl

@[simp] theorem setInstState_pending (v : Inst) (st : InstState) (s : State) : (setInstState v st s).pending = s.pending := by unfold setInstState; split <;> simp
@[simp] theorem setInstState_glb (v : Inst) (st : InstState) (s : State) : (setInstState v st s).glb = s.glb := by unfold setInstState; split <;> simp
@[simp] theorem setInstState_pwr (v : Inst) (st : InstState) (s : State) : (setInstState v st s).pwr = s.pwr := by unfold setInstState; split <;> simp
@[simp] theorem setInstState_sec (v : Inst) (st : InstState) (s : State) : (setInstState v st s).sec = s.sec := by unfold setInstState; split <;> simp
@[simp] theorem setInstState_evt (v : Inst) (st : InstState) (s : State) : (setInstState v st s).evt = s.evt := by unfold setInstState; split <;> simp
@[simp] theorem setInstState_qs (v : Inst) (st : InstState) (s : State) : (setInstState v st s).qs = s.qs := by unfold setInstState; split <;> simp
@[simp] theorem setInstState_hif (v : Inst) (st : InstState) (s : State) : (setInstState v st s).hif = s.hif := by unfold setInstState; split <;> simp
@[simp] theorem setInstState_seqs (v : Inst) (st : InstState) (s : State) : (setInstState v st s).seqs = s.seqs := by unfold setInstState; split <;> simp
@[simp] theorem setInstState_streams (v : Inst) (st : InstState) (s : State) : (setInstState v st s).streams = s.streams := by unfold setInstState; split <;> simp
@[simp] theorem setInstState_blks (v : Inst) (st : InstState) (s : State) : (setInstState v st s).blks = s.blks := by unfold setInstState; split <;> simp
@[simp] theorem setInstState_codec (v : Inst) (st : InstState) (s : State) : (setInstState v st s).codec = s.codec := by unfold setInstState; split <;> simp
@[simp] theorem setInstState_fmt (v : Inst) (st : InstState) (s : State) : (setInstState v st s).fmt = s.fmt := by unfold setInstState; split <;> simp
@[simp] theorem setInstState_wch (v : Inst) (st : InstState) (s : State) : (setInstState v st s).wch = s.wch := by unfold setInstState; split <;> simp
@[simp] theorem setInstState_pace (v : Inst) (st : InstState) (s : State) : (setInstState v st s).pace = s.pace := by unfold setInstState; split <;> simp
@[simp] theorem setInstState_cart (v : Inst) (st : InstState) (s : State) : (setInstState v st s).cart = s.cart := by unfold setInstState; split <;> simp
@[simp] theorem setInstState_pans (v : Inst) (st : InstState) (s : State) : (setInstState v st s).pans = s.pans := by unfold setInstState; split <;> simp
@[simp] theorem setInstState_buf (v : Inst) (st : InstState) (s : State) : (setInstState v st s).buf = s.buf := by unfold setInstState; split <;> simp
@[simp] theorem setInstState_mov (v : Inst) (st : InstState) (s : State) : (setInstState v st s).mov = s.mov := by unfold setInstState; split <;> simp
@[simp] theorem setInstState_rch (v : Inst) (st : InstState) (s : State) : (setInstState v st s).rch = s.rch := by unfold setInstState; split <;> simp
@[simp] theorem setInstState_rdc (v : Inst) (st : InstState) (s : State) : (setInstState v st s).rdc = s.rdc := by unfold setInstState; split <;> simp
@[simp] theorem setInstState_rtv (v : Inst) (st : InstState) (s : State) : (setInstState v st s).rtv = s.rtv := by unfold setInstState; split <;> simp
@[simp] theorem setInstState_srv (v : Inst) (st : InstState) (s : State) : (setInstState v st s).srv = s.srv := by unfold setInstState; split <;> simp
@[simp] theorem setInstState_mot (v : Inst) (st : InstState) (s : State) : (setInstState v st s).mot = s.mot := by unfold setInstState; split <;> simp
@[simp] theorem setInstState_chn (v : Inst) (st : InstState) (s : State) : (setInstState v st s).chn = s.chn := by unfold setInstState; split <;> simp
@[simp] theorem setInstState_prof (v : Inst) (st : InstState) (s : State) : (setInstState v st s).prof = s.prof := by unfold setInstState; split <;> simp
@[simp] theorem setInstState_freeCtr (v : Inst) (st : InstState) (s : State) : (setInstState v st s).freeCtr = s.freeCtr := by unfold setInstState; split <;> simp
@[simp] theorem setInstState_nextId (v : Inst) (st : InstState) (s : State) : (setInstState v st s).nextId = s.nextId := by unfold setInstState; split <;> simp

@[simp] theorem setMode_pending (m : Mode) (s : State) : (setMode m s).pending = s.pending := by unfold setMode; split <;> simp
@[simp] theorem setMode_sec (m : Mode) (s : State) : (setMode m s).sec = s.sec := by unfold setMode; split <;> simp
@[simp] theorem setMode_evt (m : Mode) (s : State) : (setMode m s).evt = s.evt := by unfold setMode; split <;> simp
@[simp] theorem setMode_qs (m : Mode) (s : State) : (setMode m s).qs = s.qs := by unfold setMode; split <;> simp
@[simp] theorem setMode_msix (m : Mode) (s : State) : (setMode m s).msix = s.msix := by unfold setMode; split <;> simp
@[simp] theorem setMode_hif (m : Mode) (s : State) : (setMode m s).hif = s.hif := by unfold setMode; split <;> simp
@[simp] theorem setMode_insts (m : Mode) (s : State) : (setMode m s).insts = s.insts := by unfold setMode; split <;> simp
@[simp] theorem setMode_seqs (m : Mode) (s : State) : (setMode m s).seqs = s.seqs := by unfold setMode; split <;> simp
@[simp] theorem setMode_streams (m : Mode) (s : State) : (setMode m s).streams = s.streams := by unfold setMode; split <;> simp
@[simp] theorem setMode_blks (m : Mode) (s : State) : (setMode m s).blks = s.blks := by unfold setMode; split <;> simp
@[simp] theorem setMode_codec (m : Mode) (s : State) : (setMode m s).codec = s.codec := by unfold setMode; split <;> simp
@[simp] theorem setMode_fmt (m : Mode) (s : State) : (setMode m s).fmt = s.fmt := by unfold setMode; split <;> simp
@[simp] theorem setMode_wch (m : Mode) (s : State) : (setMode m s).wch = s.wch := by unfold setMode; split <;> simp
@[simp] theorem setMode_pace (m : Mode) (s : State) : (setMode m s).pace = s.pace := by unfold setMode; split <;> simp
@[simp] theorem setMode_cart (m : Mode) (s : State) : (setMode m s).cart = s.cart := by unfold setMode; split <;> simp
@[simp] theorem setMode_pans (m : Mode) (s : State) : (setMode m s).pans = s.pans := by unfold setMode; split <;> simp
@[simp] theorem setMode_buf (m : Mode) (s : State) : (setMode m s).buf = s.buf := by unfold setMode; split <;> simp
@[simp] theorem setMode_mov (m : Mode) (s : State) : (setMode m s).mov = s.mov := by unfold setMode; split <;> simp
@[simp] theorem setMode_rch (m : Mode) (s : State) : (setMode m s).rch = s.rch := by unfold setMode; split <;> simp
@[simp] theorem setMode_rdc (m : Mode) (s : State) : (setMode m s).rdc = s.rdc := by unfold setMode; split <;> simp
@[simp] theorem setMode_rtv (m : Mode) (s : State) : (setMode m s).rtv = s.rtv := by unfold setMode; split <;> simp
@[simp] theorem setMode_srv (m : Mode) (s : State) : (setMode m s).srv = s.srv := by unfold setMode; split <;> simp
@[simp] theorem setMode_mot (m : Mode) (s : State) : (setMode m s).mot = s.mot := by unfold setMode; split <;> simp
@[simp] theorem setMode_chn (m : Mode) (s : State) : (setMode m s).chn = s.chn := by unfold setMode; split <;> simp
@[simp] theorem setMode_prof (m : Mode) (s : State) : (setMode m s).prof = s.prof := by unfold setMode; split <;> simp
@[simp] theorem setMode_hostMem (m : Mode) (s : State) : (setMode m s).hostMem = s.hostMem := by unfold setMode; split <;> simp
@[simp] theorem setMode_freeCtr (m : Mode) (s : State) : (setMode m s).freeCtr = s.freeCtr := by unfold setMode; split <;> simp
@[simp] theorem setMode_nextId (m : Mode) (s : State) : (setMode m s).nextId = s.nextId := by unfold setMode; split <;> simp


/-! ### Instances after a completion of the management ring, and after a change of state -/

@[simp] theorem complete_none_insts (uid : Nat) (c : Cpl) (s : State) : (complete none uid c s).insts = s.insts := by
  unfold complete
  split
  · rfl
  · dsimp only
    split
    · rfl
    · split
      · rfl
      · unfold moderate
        split <;> simp [signalRing, State.modRing, countCpl, putCpl, useAts, dropCmd]

@[simp] theorem completeSt_none_insts (uid : Nat) (st : Status) (s : State) : (completeSt none uid st s).insts = s.insts :=
  complete_none_insts _ _ _

@[simp] theorem mOk_insts (c : Cmd) (a b d : Nat) (s : State) : (mOk c a b d s).insts = s.insts := complete_none_insts _ _ _

@[simp] theorem mEnd_insts (c : Cmd) (st : Status) (s : State) : (mEnd c st s).insts = s.insts := complete_none_insts _ _ _

theorem fireMsix_inst (x : Fin 130) (s : State) (v : Inst) : (fireMsix x s).inst v = s.inst v := by simp [State.inst]

theorem setInstState_inst (v : Inst) (st : InstState) (s : State) :
    (setInstState v st s).inst v
      = { s.inst v with state := st, seq := if (s.inst v).state = st then (s.inst v).seq else (s.inst v).seq + 1 } := by
  unfold setInstState
  split
  · rename_i e
    simp only [e, if_true]
    rw [← e]
  · rename_i e
    rw [fireMsix_inst, inst_modInst_same]

theorem setInstState_inst_other (v w : Inst) (st : InstState) (s : State) (h : v ≠ w) : (setInstState v st s).inst w = s.inst w := by
  unfold setInstState
  split
  · rfl
  · rw [fireMsix_inst, inst_modInst_other _ _ _ _ h]

end Sys2Proof.Machine
end

