-- ==== Sys2Proof/Laws/Registers.lean ====
section
/-! SUPPORT. Sys2Proof/Laws/Registers.lean: GLB's read data is no part of what a register reads as, so a 64-bit read is two reads. -/
namespace Sys2Proof.Machine

theorem glbReg_rdData (s : State) (x o : Nat) : glbReg { s with glb.rdData := x } o = glbReg s o := by unfold glbReg; rfl
theorem pwrReg_rdData (s : State) (x o : Nat) : pwrReg { s with glb.rdData := x } o = pwrReg s o := by unfold pwrReg; rfl

theorem viReg_rdData (s : State) (x : Nat) (v : Fin 64) (o : Nat) : viReg { s with glb.rdData := x } v o = viReg s v o := by unfold viReg; rfl
set_option maxRecDepth 60000 in
theorem readReg_rdData (s : State) (x off : Nat) : readReg { s with glb.rdData := x } off = readReg s off := by
  unfold readReg
  simp only [glbReg_rdData, pwrReg_rdData, viReg_rdData]
  split
  · rfl
  split
  · rfl
  split
  · rfl
  split <;> rfl

theorem readBar2_msix {s t : State} (h : s.msix = t.msix) (off : Nat) : readBar2 s off = readBar2 t off := by
  unfold readBar2
  rw [h]

theorem clearRc_rdData (s : State) (x off : Nat) : clearRc off { s with glb.rdData := x } = { clearRc off s with glb.rdData := x } := by
  unfold clearRc
  dsimp only
  repeat' (first | rfl | split)

theorem latchTime_rdData (s : State) (x off : Nat) : latchTime off { s with glb.rdData := x } = { latchTime off s with glb.rdData := x } := by
  unfold latchTime
  split <;> rfl

theorem clearRc_glb (s : State) (off : Nat) : (clearRc off s).glb = s.glb := by
  unfold clearRc
  dsimp only
  repeat' (first | rfl | split)

theorem latchTime_mode (s : State) (off : Nat) : (latchTime off s).glb.mode = s.glb.mode := by
  unfold latchTime
  split <;> rfl

end Sys2Proof.Machine
end

