-- ==== Sys2Proof/Laws/Signal.lean ====
section
/-! SUPPORT. Sys2Proof/Laws/Signal.lean: what samples change in a read channel: gain, taps, the pipeline and the brine buffer alone. -/

namespace Sys2Proof.Machine

/-- Two channels agree but for the signal path: gain, taps and their accumulators, samples and outputs in hand, the buffer. -/
def RChan.Alike (r q : RChan) : Prop :=
  q = { r with agc := q.agc, low := q.low, count := q.count, adc := q.adc, eq := q.eq, ring := q.ring, ringEnd := q.ringEnd, tapsA := q.tapsA, tapsB := q.tapsB }

theorem RChan.Alike.refl (r : RChan) : r.Alike r := rfl

theorem RChan.Alike.trans {a b c : RChan} (h : a.Alike b) (g : b.Alike c) : a.Alike c := by
  unfold RChan.Alike at *
  rw [g, h]

theorem RChan.alike_fold {α : Type} (f : RChan → α → RChan) (h : ∀ (r : RChan) (x : α), r.Alike (f r x)) (l : List α) : ∀ r : RChan, r.Alike (l.foldl f r) := by
  induction l with
  | nil => exact fun r => rfl
  | cons x l ih => exact fun r => (h r x).trans (ih _)

theorem RChan.put_alike (r : RChan) (p v : Int) : r.Alike (r.put p v) := by
  unfold RChan.put
  split
  · rfl
  · split <;> rfl

theorem RChan.lms_alike (r : RChan) (e : EqOut) (d d1 d2 : Bool) : r.Alike (r.lms e d d1 d2) := by
  unfold RChan.lms RChan.putTaps
  dsimp only
  split <;> rfl

theorem RChan.trim_alike (r : RChan) : r.Alike r.trim := rfl

theorem RChan.eq_alike (r : RChan) (l : List EqOut) : r.Alike { r with eq := l } := rfl

theorem RChan.sample_alike (r : RChan) (x : Int) : r.Alike (r.sample x) := rfl

theorem RChan.window_alike (c : Nat) (sep : Bool) (r : RChan) : r.Alike (r.window c sep) := by
  have puts (l : List (EqOut × Int)) : r.Alike (l.foldl (fun r e => r.put e.1.pos (softSample e.1.set e.2)) r).trim :=
    (RChan.alike_fold _ (fun r _ => r.put_alike _ _) l r).trans (RChan.trim_alike _)
  unfold RChan.window
  dsimp only
  split
  · rfl
  · refine RChan.Alike.trans ?_ (RChan.eq_alike _ _)
    split
    · exact (puts _).trans (RChan.alike_fold (fun r (x : EqOut × Bool × Bool × Bool) => r.lms x.1 x.2.1 x.2.2.1 x.2.2.2) (fun r _ => r.lms_alike _ _ _ _) _ _)
    · exact puts _

theorem RChan.gainStep_alike (r : RChan) (xs : List Int) : r.Alike (r.gainStep xs) := by
  unfold RChan.gainStep
  dsimp only
  split <;> rfl

/-- Samples change the signal path of a channel and nothing else of it. -/
theorem RChan.take_alike (c : Nat) (sep : Bool) (xs : List Int) (r : RChan) : r.Alike (r.take c sep xs) :=
  (RChan.alike_fold _ RChan.sample_alike xs r).trans ((RChan.gainStep_alike _ _).trans (RChan.window_alike c sep _))

theorem RChan.put_count (r : RChan) (p v : Int) : (r.put p v).count = r.count := by
  unfold RChan.put
  split
  · rfl
  · split <;> rfl

theorem RChan.lms_count (r : RChan) (e : EqOut) (d d1 d2 : Bool) : (r.lms e d d1 d2).count = r.count := by
  unfold RChan.lms RChan.putTaps
  dsimp only
  split <;> rfl

theorem RChan.count_fold {α : Type} (f : RChan → α → RChan) (h : ∀ r x, (f r x).count = r.count) (l : List α) :
    ∀ r : RChan, (l.foldl f r).count = r.count := by
  induction l with
  | nil => exact fun r => rfl
  | cons x l ih => exact fun r => (ih _).trans (h r x)

theorem RChan.window_count (c : Nat) (sep : Bool) (r : RChan) : (r.window c sep).count = r.count := by
  unfold RChan.window
  dsimp only
  split
  · rfl
  · split
    · exact (RChan.count_fold _ (fun r x => r.lms_count _ _ _ _) _ _).trans (RChan.count_fold _ (fun r x => r.put_count _ _) _ r)
    · exact RChan.count_fold _ (fun r x => r.put_count _ _) _ r

theorem RChan.sample_count (xs : List Int) : ∀ r : RChan, (xs.foldl RChan.sample r).count = r.count + xs.length := by
  induction xs with
  | nil => intro r; simp
  | cons x l ih =>
    intro r
    rw [List.foldl_cons, ih, List.length_cons]
    show r.count + 1 + _ = _
    push_cast
    omega

/-- The bit index moves on by the samples taken. -/
theorem RChan.take_count (c : Nat) (sep : Bool) (xs : List Int) (r : RChan) : (r.take c sep xs).count = r.count + xs.length := by
  unfold RChan.take
  rw [RChan.window_count]
  refine Eq.trans ?_ (RChan.sample_count xs r)
  unfold RChan.gainStep
  dsimp only
  split <;> rfl

end Sys2Proof.Machine
end

