-- ==== Sys2Proof/Machine/Electrical.lean ====
section
/-! DEFINITION. Sys2Proof/Machine/Electrical.lean: the balls, the levels that the part's state drives on them, and the limits
that the board must keep (R390 to R408). -/

namespace Sys2Proof.Machine

/-! ### Balls (R390 to R392) -/

/-- The ball groups of R390. -/
inductive BallGroup where
  | headRead | headWrite | servoClock | preamp | motionLink | cartridge | flash | sideband | debug | status | pcie | cxl | ring | reserved
  | vddCore | vddAon | vddIo18 | vddPhy09 | vddPhy12 | vhold | vss
  deriving DecidableEq, Repr

/-- Balls of a group (R390). -/
def BallGroup.balls : BallGroup → Nat
  | .headRead => 256 | .headWrite => 256 | .servoClock => 8 | .preamp => 26 | .motionLink => 4 | .cartridge => 4 | .flash => 6
  | .sideband => 5 | .debug => 5 | .status => 15 | .pcie => 34 | .cxl => 66 | .ring => 34 | .reserved => 11
  | .vddCore => 420 | .vddAon => 8 | .vddIo18 => 60 | .vddPhy09 => 90 | .vddPhy12 => 40 | .vhold => 6 | .vss => 1247

/-- The groups in the order of the table. -/
def ballGroups : List BallGroup :=
  [.headRead, .headWrite, .servoClock, .preamp, .motionLink, .cartridge, .flash, .sideband, .debug, .status, .pcie, .cxl, .ring, .reserved
  , .vddCore, .vddAon, .vddIo18, .vddPhy09, .vddPhy12, .vhold, .vss]

/-- One-letter row names (R391). -/
def rowLetters : List String := ["A", "B", "C", "D", "E", "F", "G", "H", "J", "K", "L", "M", "N", "P", "T", "U", "V", "W", "Y"]

/-- Row names from the edge nearest the head balls: A to H, J to N, P, T to W, Y, then AA to AY and BA to BN with the same
second letters (R391). -/
def ballRows : List String := rowLetters ++ rowLetters.map (fun l => "A" ++ l) ++ (rowLetters.take 13).map (fun l => "B" ++ l)

/-- A head ball's polarity. -/
inductive Polarity where
  | p | n
  deriving DecidableEq, Repr

/-- Row and column of a read-head ball of channel `c` (R392). -/
def hrxBall (q : Polarity) (c : Chan) : String × Nat :=
  ((match q with | .p => ["B", "D", "F"] | .n => ["C", "E", "G"]).getD (c.val / 43) "", 4 + c.val % 43)

/-- Row and column of a write-head ball of channel `c` (R392). -/
def hwxBall (q : Polarity) (c : Chan) : String × Nat :=
  ((match q with | .p => ["BH", "BK", "BM"] | .n => ["BJ", "BL", "BN"]).getD (c.val / 43) "", 4 + c.val % 43)

/-! ### Levels that follow the state (R397, R398, R401, R403, R405) -/

/-- The parameter set that a channel writes with (R118). -/
def activeSet (s : State) (c : Chan) : Word := let w := s.wch[c]; if w.activeB then w.setB else w.setA

/-- Length of the run of equal bits that each bit of a channel ends. -/
def runsOf : Nat → Option Bool → List Bool → List Nat
  | _, _, [] => []
  | n, last, b :: l => let k := if last = some b then n + 1 else 1; k :: runsOf k (some b) l

/-- The drive of HWX_P[c] and HWX_N[c] over a run of channel bits (R115): for each bit whether P stands above N, and by how many 1/64 bit
periods the transition into it is delayed. -/
def hwxDrive (s : State) (c : Chan) (bits : List Bool) : List (Bool × Int) :=
  let w := activeSet s c
  let runs := runsOf 0 none bits
  let before := none :: bits.map some
  (bits.zip (before.zip (0 :: runs))).map (fun x =>
    (x.1 != rbit w 16, if x.2.1 = some (!x.1) then precomp (signed 6 (fld w 0 6)) (signed 6 (fld w 6 6)) x.2.2 else 0))

/-- The write drive of a channel, mV peak-to-peak differential: swing code of its active set (R397). -/
def hwxSwing (s : State) (c : Chan) : Nat :=
  100 + 25 * fld (activeSet s c) 12 4

/-- The preamplifier that serves a channel (R398). -/
def preampOf (c : Chan) : Fin 8 := Fin.ofNat 8 (c.val / 16)

/-- WGATE[k], active high (R398). -/
def pinWgate (s : State) (k : Fin 8) : Bool := (wgate s).getLsbD k.val

/-- A channel's write pair toggles only under an open gate; under a closed one it holds a static level (R397). -/
def hwxActive (s : State) (c : Chan) : Bool := pinWgate s (preampOf c)

/-- PACTL_CS#[k]: high, but while the bus writes preamplifier `k` (R399); a write is over within the command that brings it on. -/
def pinPactlCs (_ : State) (_ : Fin 8) : Bool := true

/-- What the control bus carries while it writes the profile's settings: one preamplifier selected at a time (R399). -/
def pactlWrites (s : State) : List (Fin 8 × Bytes) := (List.finRange 8).map (fun k => (k, s.prof.preamps.getD k.val (s.fmt.preamps.get k)))

/-- THERMTRIP# as its pin reads: low once latched (R403, R405). -/
def pinThermtrip (s : State) : Bool := !s.glb.thermtrip

/-- CXL_PERST#[k]: low from power-up until bring-up releases its port's links that carry a device (R212, R403). -/
def pinCxlPerst (s : State) (k : Fin 8) : Bool := s.buf.devLinks.getLsbD k.val && s.buf.perstOff.getLsbD (portOfLink k.val).val

/-- What the TAP answers while closed, beside BYPASS (R401). -/
def tapIdcode : Word := 0x0F3128B5

/-- The 7-bit SMBus target address (R401). -/
def smbusAddress : Nat := 0x1D

/-- The number of the silicon as ordered (R408). -/
def orderingCode : String := "FX3-128-B0T"

/-! ### Supplies, clocks and temperature (R393, R395, R404, R405) -/

/-- The supplies. -/
inductive Supply where
  | core | aon | io18 | phy09 | phy12
  deriving DecidableEq, Repr

/-- Range of a supply in units of 0.1 mV (R393). -/
def Supply.range : Supply → Nat × Nat
  | .core => (7275, 7725) | .aon => (7275, 7725) | .io18 => (17100, 18900) | .phy09 => (8730, 9270) | .phy12 => (11640, 12360)

/-- Nominal voltage in 0.1 mV, typical and maximum current in mA (R393). -/
def Supply.load : Supply → Nat × Nat × Nat
  | .core => (7500, 22300, 25500) | .aon => (7500, 330, 400) | .io18 => (18000, 2350, 2500) | .phy09 => (9000, 5000, 5200)
  | .phy12 => (12000, 1500, 1600)

/-- A supply voltage within its range. -/
def Supply.within (p : Supply) (v : Nat) : Bool := decide (p.range.1 ≤ v) && decide (v ≤ p.range.2)

/-- The greatest junction temperature of operation, and that at which THERMTRIP# asserts, °C (R405). -/
def junctionMax : Nat := 110
def junctionTrip : Nat := 125

/-- Typical pace ratio of site 0 in per cent, by VDD_CORE in 0.1 mV and junction temperature (R405). -/
def site0Ratio (vdd temp : Nat) : Option Nat :=
  match vdd, temp with
  | 7500, 25 => some 100 | 7500, 60 => some 94 | 7500, 85 => some 90 | 7500, 110 => some 85
  | 7275, 25 => some 95 | 7275, 60 => some 89 | 7275, 85 => some 85 | 7275, 110 => some 80
  | _, _ => none

end Sys2Proof.Machine
end

