-- ==== Sys2Proof/Machine/Limits.lean ====
section
/-! DEFINITION. Sys2Proof/Machine/Limits.lean: the bounds that the board, the supplies and the companion parts must keep, and what the part
draws and gives within them (R1, R23, R24, R200, R211, R223, R322 to R325, R332, R336, R393 to R407). No step reads them: a run outside
them is outside the manual (R1). -/

namespace Sys2Proof.Machine

/-- A closed range of a quantity. -/
structure Range where
  lo : Int
  hi : Int
  deriving DecidableEq, Repr

/-- Whether a value lies in a range. -/
def Range.has (r : Range) (x : Int) : Bool := decide (r.lo ≤ x) && decide (x ≤ r.hi)

/-! ### Throughput (R23) -/

/-- Classes of back-end engines. -/
inductive EngineClass where
  | c1Decoders | c1Encoder | slicesStatic | slicesDynamic | slicesDecoding | ciphers
  deriving DecidableEq, Repr

/-- Throughput of a class at nominal pace and, guaranteed, at the slow corner: C1 and C2 in Mbit/s of channel bits, the others in MB/s. -/
def EngineClass.rate : EngineClass → Nat × Nat
  | .c1Decoders => (35000, 27000) | .c1Encoder => (40000, 31000) | .slicesStatic => (10000, 7800)
  | .slicesDynamic => (7600, 5900) | .slicesDecoding => (12800, 10000) | .ciphers => (4160, 3300)

/-- Raw line traffic of the buffer controller in MB/s, nominal and slow corner (R223). -/
def bufferRate : Nat × Nat := (48000, 37400)

/-! ### Power (R24, R324, R325, R393) -/

/-- Typical power of a switched domain in units of 0.1 mW (R324); domain 70 counts when it is on. -/
def domainPower (d : Nat) : Nat :=
  if d < 16 then 3625 else if d < 32 then 625 else if d < 34 then 2000 else if d < 42 then 2200 else if d < 44 then 3200
  else if d < 52 then 4250 else if d < 56 then 4000 else if d = 56 then 26000 else if d < 59 then 25000 else if d < 61 then 9000
  else if d = 61 then 3000 else if d < 66 then 1500 else if d < 68 then 1500 else if d < 70 then 3000 else if d = 70 then 1000
  else if d = 71 then 2000 else if d < 80 then 1000 else 0

/-- Typical power of what is always on: enclave, unswitched I/O and leakage (R324). -/
def alwaysOnPower : Nat := 7000

/-- Typical power of the domains that are on, with what is always on, in units of 0.1 mW. -/
def typicalPower (s : State) : Nat :=
  alwaysOnPower + (((List.range 80).filter (fun d => s.pwr.dom.getLsbD d)).map domainPower).foldl (· + ·) 0

/-- Most power at full load and slow corner, in mW (R24). -/
def maxPower : Nat := 30000

/-- Full-load power of all supplies at their maximum currents, in µW, at the voltages that `v` gives in 0.1 mV (R393). -/
def fullLoad (v : Supply → Nat) : Nat := ([.core, .aon, .io18, .phy09, .phy12].map (fun p => v p * p.load.2.2 / 10)).foldl (· + ·) 0

/-- Largest step of a supply's current within 1 µs, in mA (R393). -/
def Supply.step : Supply → Nat
  | .core => 8000 | .aon => 100 | .io18 => 1000 | .phy09 => 2000 | .phy12 => 500

/-! ### Supplies as they rise and fall (R322, R394, R395) -/

/-- Time of a supply's rise from 10 % to 90 % of nominal, µs (R394). -/
def riseTime : Range := { lo := 100, hi := 10000 }

/-- Latest time of each event of R322 after the one that it is measured from, µs; VHOLD has no bound. -/
def supplyOrder : List (Nat × Nat) := [(2, 10000), (3, 10000), (4, 10000), (5, 5000)]

/-- Whether a fall of a supply below its range while VDD_AON holds is a power failure (R322, R394). -/
def Supply.failsPower : Supply → Bool
  | .core | .phy09 | .phy12 => true
  | .aon | .io18 => false

/-- Most current of VHOLD in mA: outside a quench and the check of R333, in that check, in a quench (R333, R395). -/
def vholdCurrent : Nat × Nat × Nat := (2, 50, 3200)

/-- What VSENSE measures, mV (R395). -/
def vsenseRange : Range := { lo := 0, hi := 16000 }

/-- How far a VSENSE measurement of `mv` may lie off: 1 % and 20 mV (R395). -/
def vsenseError (mv : Nat) : Nat := mv / 100 + 20

/-! ### The hold-up path (R332, R336) -/

/-- Least capacitance in µF, most ESR in mΩ, the voltage it is charged to and the regulator's floor in mV (R332). -/
def holdCapacitor : Nat × Nat × Nat × Nat := (1000, 50, 12000, 6000)

/-- Energy that a capacitor of `uf` µF gives between two voltages in mV, in nJ. -/
def holdEnergy (uf mv0 mv1 : Nat) : Nat := uf * (mv0 * mv0 - mv1 * mv1) / 2000

/-- The intervals of a quench: their end in µs and the most power delivered in mW (R336). -/
def quenchPower : List (Nat × Nat) := [(40, 30000), (1520, 9000), (6000, 3500), (8000, 2000)]

/-- Energy delivered over such intervals, in nJ, from the time `t` on. -/
def deliveredEnergy : Nat → List (Nat × Nat) → Nat
  | _, [] => 0
  | t, (e, p) :: l => (e - t) * p + deliveredEnergy e l

/-- Energy drawn from VHOLD for energy delivered: the regulator converts with 0.80 or better (R332). -/
def drawnEnergy (delivered : Nat) : Nat := delivered * 10 / 8

/-- Most energy drawn from VHOLD by a quench, in nJ, and its longest time, µs (R336). -/
def quenchEnergy : Nat := 45000000
def quenchTime : Nat := 8000

/-! ### Companion parts (R200, R211) -/

/-- Whether a memory device may be fitted (R211): its capacity in GiB against C, the time to Memory_Active in units of 100 ms against
BUF_CXL_CFG, and its line writes in units of 1/16 GB/s. -/
def memoryFits (s : State) (gib active rate : Nat) : Bool :=
  decide (16 * 2 ^ s.buf.cap ≤ gib) && decide (active ≤ max 1 (fld s.buf.cxlCfg 0 8)) && decide (49 ≤ rate)

/-- The motion companion's latest times, µs: braking after a brake code, and braking of its own when no valid out-frame ends (R200). -/
def companionBrake : Nat × Nat := (100, 200)

/-! ### Balls (R396, R397, R400, R401, R403, R404) -/

/-- Analogue inputs: head read, or servo and clock track. -/
inductive AnalogIn where
  | head | servo
  deriving DecidableEq, Repr

/-- Input signal, mV peak-to-peak differential (R396). -/
def AnalogIn.signal : AnalogIn → Range
  | .head => { lo := 20, hi := 400 }
  | .servo => { lo := 10, hi := 400 }

/-- Low corner of the coupling and least bandwidth in kHz, and most input noise in 0.1 nV/√Hz (R396). -/
def AnalogIn.band : AnalogIn → Nat × Nat × Nat
  | .head => (1000, 200000, 40)
  | .servo => (500, 20000, 60)

/-- Input impedance of the head, servo and clock-track balls, Ω (R396), and their common mode and that of the write pairs, mV
(R396, R397). -/
def inputImpedance : Range := { lo := 90, hi := 110 }
def commonMode : Range := { lo := 850, hi := 950 }

/-- How far a write pair's swing may lie from its code's value, mV (R397). -/
def swingError (mv : Nat) : Nat := mv / 10

/-- Motion-link timing at the balls: MLTX and MLSYNC, and MLRX, after the falling edge of MLCK, 0.1 ns (R400). -/
def linkOut : Range := { lo := 20, hi := 60 }
def linkIn : Range := { lo := 10, hi := 70 }

/-- Levels of a 1.8 V LVCMOS ball, mV: VIL at most, VIH at least, VOL at most, VOH at least (R401). -/
def lvcmos : Nat × Nat × Nat × Nat := (630, 1170, 450, 1350)

/-- The serial interfaces. -/
inductive SerialPort where
  | cartridge | flashBoot | flash | i3c | smbus | jtag
  deriving DecidableEq, Repr

/-- Highest clock of an interface, kHz (R401). -/
def SerialPort.clock : SerialPort → Nat
  | .cartridge => 10000 | .flashBoot => 25000 | .flash => 100000 | .i3c => 12500 | .smbus => 400 | .jtag => 20000

/-- Status balls and how they are pulled: up, down, by the board, or not at all (R403). -/
inductive Pull where
  | up | down | board | none
  deriving DecidableEq, Repr

/-- The pull of PERST#, PWRFAIL#, THERMTRIP# and CXL_PERST# (R403). -/
def statusPulls : List (String × Pull) := [("PERST#", .none), ("PWRFAIL#", .up), ("THERMTRIP#", .board), ("CXL_PERST#", .down)]

/-- Width of the glitch filter of PERST# and PWRFAIL#, ns (R403). -/
def glitchFilter : Nat := 100

/-- Reference clocks: frequency in MHz and tolerance in ppm (R404). -/
inductive RefClock where
  | mref | pcie | cxl | ring
  deriving DecidableEq, Repr

def RefClock.freq : RefClock → Nat × Nat
  | .mref => (50, 50) | .pcie => (100, 300) | .cxl => (100, 300) | .ring => (100, 100)

/-- Only the PCIe reference may be spread (R404). -/
def RefClock.mayDownSpread : RefClock → Bool
  | .pcie => true
  | .mref | .cxl | .ring => false

/-! ### Heat, stress and package (R405 to R407) -/

/-- Junction temperatures of operation, °C (R405). -/
def junctionRange : Range := { lo := 0, hi := 110 }

/-- Thermal resistances from the junction to the lid top and to the board, 0.01 °C/W (R405). -/
def thetaJC : Nat := 6
def thetaJB : Nat := 210

/-- Absolute maximum ratings, mV (R406). -/
def absoluteMax : List (String × Range) :=
  [ ("VDD_CORE", { lo := -300, hi := 900 }), ("VDD_AON", { lo := -300, hi := 900 }), ("VDD_PHY09", { lo := -300, hi := 1050 })
  , ("VDD_PHY12", { lo := -300, hi := 1400 }), ("VDD_IO18", { lo := -300, hi := 2100 }), ("VHOLD", { lo := -300, hi := 16000 })
  , ("VSENSE", { lo := -300, hi := 16000 }), ("PERST#", { lo := -300, hi := 3600 }), ("THERMTRIP#", { lo := -300, hi := 3600 })
  , ("SMB_SCL", { lo := -300, hi := 3600 }), ("SMB_SDA", { lo := -300, hi := 3600 }), ("SMB_ALERT#", { lo := -300, hi := 3600 }) ]

/-- Junction and storage temperatures that the part withstands, °C, and the most current into a signal ball, mA (R406). -/
def stressJunction : Int := 125
def storageRange : Range := { lo := -40, hi := 125 }
def signalCurrent : Nat := 10

/-- Balls along each edge, their pitch and the body's edge in µm, and the seated height at most (R407). -/
def packageArray : Nat := 51
def packagePitch : Nat := 1000
def packageBody : Nat := 52500
def packageHeight : Nat := 3950

end Sys2Proof.Machine
end

