-- ==== Sys2Proof/Machine/QuenchImage.lean ====
section
/-! DEFINITION. Sys2Proof/Machine/QuenchImage.lean: the 64 KiB of the quench store as bytes (R338, R339, R370, R376). -/

namespace Sys2Proof.Machine

/-- Bytes with their CRC-32C after them; a region that State marks as damaged carries one that fails. -/
def withCrc (ok : Bool) (b : Bytes) : Bytes := b ++ (if ok then crcBytes b else (crcBytes b).map (fun x => ~~~x))

/-- Bit `i` of byte `i` div 8 says whether resource `n + i` of the map is retired. -/
def mapBits (q : QStore) (n count : Nat) : Bytes :=
  (List.range ((count + 7) / 8)).map (fun j => BitVec.ofNat 8
    ((List.range 8).foldl (fun a i => a + 2 ^ i * bit (decide (8 * j + i < count) && q.map[Fin.ofNat 304 (n + 8 * j + i)].retired)) 0))

/-- The retirement map (R370). -/
def mapImage (q : QStore) : Bytes :=
  let nibbles := (List.range 152).map (fun j =>
    BitVec.ofNat 8 (q.map[Fin.ofNat 304 (2 * j)].level % 16 + 16 * (q.map[Fin.ofNat 304 (2 * j + 1)].level % 16)))
  withCrc q.mapOk (mapBits q 0 128 ++ mapBits q 128 128 ++ mapBits q 256 16 ++ mapBits q 272 8 ++ mapBits q 280 4
    ++ mapBits q 284 8 ++ mapBits q 292 8 ++ mapBits q 300 4 ++ zeros 1 ++ nibbles ++ leBytes 1 q.pewterCause ++ zeros 59)

/-- The position region. -/
def positionImage (q : QStore) : Bytes :=
  withCrc true (padTo 16 q.cartSerial ++ leBytes 1 q.partition ++ leBytes 1 q.wrap ++ zeros 2 ++ leBytes 4 q.commitDsn
    ++ leBytes 4 q.session ++ leBytes 4 q.lx ++ leBytes 4 q.curDsn ++ zeros 24)

/-- The motion region. -/
def motionImage (q : QStore) : Bytes :=
  withCrc true (leBytes 2 q.speed ++ leBytes 1 (bit q.brakeSent + 2 * bit q.braking) ++ zeros 57)

/-- One copy of the slot state: record 8v + k is slot k of instance v (R338, R339). -/
def slotsImage (l : Vector SlotRec 512) : Bytes :=
  l.toList.flatMap (fun r => withCrc r.ok (leBytes 8 r.frontier ++ leBytes 4 r.epoch))

/-- Bytes 0x0040 to 0x23FF: position, motion, retirement map, reserved, loss counters, events. -/
def bodyImage (q : QStore) : Bytes :=
  positionImage q ++ motionImage q ++ mapImage q ++ zeros 64 ++ q.loss.toList.flatMap LossCtr.bytes
    ++ padTo 8192 (q.events.flatMap (EvRec.bytes false))

/-- The header: its version is not stated (a free value), its first CRC covers the body. -/
def headerImage (q : QStore) : Bytes :=
  withCrc true (leBytes 2 0x51F3 ++ leBytes 1 Config.qstoreVersion.toNat ++ leBytes 1 q.state ++ leBytes 1 q.cause ++ zeros 3
    ++ leBytes 4 q.number ++ leBytes 8 q.time ++ crcBytes (bodyImage q) ++ zeros 36)

/-- The whole store (R338). -/
def QStore.image (q : QStore) : Bytes :=
  headerImage q ++ bodyImage q ++ slotsImage q.slotA ++ slotsImage q.slotB ++ zeros 39936

end Sys2Proof.Machine
end

