-- ==== Sys2Proof/WellFormed.lean ====
section
/-! DEFINITION. Sys2Proof/WellFormed.lean: which commands the outside can send: sizes and ranges that the spec fixes for an
operand. The meanings do not lean on it: an ill-formed command has an effect too. -/

namespace Sys2Proof

/-- A mover descriptor is 64 bytes (R241). -/
def descLen (b : Bytes) : Bool := b.length == 64

/-- A ring frame: a header of 16 bytes, a payload of 48 or 2,048 bytes or none, and a CRC (R300). -/
def frameLen (b : Bytes) : Bool := b.length == 68 || b.length == 2068 || b.length == 20

/-- A naturally aligned access of 32 or 64 bits (R3). -/
def alignedAccess (off size : Nat) : Bool := (size == 4 && off % 4 == 0) || (size == 8 && off % 8 == 0)

/-- An aligned 32-bit word inside BAR0 (1 MiB, R381) or BAR2 (512 KiB, R383). -/
def barWord (bar2 : Bool) (off : Nat) : Bool := off % 4 == 0 && decide (off < (if bar2 then 0x80000 else 0x100000))

/-- A 6-bit requester number (R230). -/
def reqNo (r : Nat) : Bool := decide (r < 64)

/-- An 18-bit handle (R225). -/
def handleNo (h : Nat) : Bool := decide (h < 262144)

/-- Lines that a stripe access finds wrong are 64 bytes each, and no line is named twice (R201). -/
def lineErrs (e : List LineError) : Bool := e.all (fun x => x.flip.length == 64) && decide ((e.map (·.line)).Nodup)

/-- A buffer write stays inside one stripe of 1,024 data bytes (R201). -/
def stripeWrite (ba : Nat) (data : Bytes) : Bool := decide (ba % 1024 + data.length ≤ 1024)

/-- Lanes at which a ring port trains (R299). -/
def ringLanes (n : Nat) : Bool := n == 4 || n == 2 || n == 1 || n == 0

/-- The fields of HIF_LINK: 4 and 6 bits. -/
def linkFields (speed width : Nat) : Bool := decide (speed < 16) && decide (width < 64)

/-- Handshake counts of the eight pace sites, 24 bits each (R13). -/
def siteCounts (c : List Nat) : Bool := c.length == 8 && c.all (fun n => decide (n < 2 ^ 24))

/-- Rows of a dataset, 0 to 3,071 (R41). -/
def tierRows (r : List (Nat × Fin 4)) : Bool := r.all (fun x => decide (x.1 < 3072))

/-- Cartridge memory has at least 4,096 bytes (R54). -/
def cmSize (v : CartView) : Bool := match v.cm with | some b => decide (4096 ≤ b.length) | none => true

/-- ADC samples of 32 bits, 6 bits each in two's complement (R144). -/
def adcSamples (l : List Int) : Bool := l.length == 32 && l.all (fun x => decide (-32 ≤ x) && decide (x < 32))

/-- An outcome of calibration: a 6-bit gain and ten signed 10-bit taps (R144, R145). -/
def calResult (r : CalResult) : Bool :=
  decide (r.gain < 64) && r.taps.length == 10 && r.taps.all (fun x => decide (-512 ≤ x) && decide (x < 512))

/-- A host store lies below 2^64. -/
def storesFit (l : List HostStore) : Bool := l.all (fun w => decide (w.addr + w.bytes.length ≤ 2 ^ 64))

/-- A command that the outside can send. -/
def Instr.wf : Instr → Bool
  | .openStream _ _ => true
  | .closeStream _ _ => true
  | .writeRecords _ _ _ => true
  | .streamAppend _ _ _ => true
  | .writeMark _ _ => true
  | .sync _ _ => true
  | .readRecords _ _ => true
  | .locate _ _ _ => true
  | .space _ _ _ => true
  | .readPosition _ _ => true
  | .slotBind _ _ => true
  | .slotRekey _ _ => true
  | .getStats _ _ => true
  | .nop _ _ => true
  | .invalidOpcode _ _ => true
  | .instanceCreate _ => true
  | .instanceShare _ => true
  | .instanceQuiesce _ => true
  | .instanceReset _ => true
  | .instanceFreeze _ => true
  | .instanceSave _ => true
  | .instanceRestore _ => true
  | .instanceDestroy _ => true
  | .rootImportGetPub _ => true
  | .rootImportImport _ => true
  | .rootErase _ => true
  | .cartLoad _ view => cmSize view && view.results.all calResult
  | .cartUnload _ => true
  | .cartCalibrate _ results => results.all calResult
  | .chainStatus _ => true
  | .raitGroupSet _ => true
  | .raitGroupClear _ => true
  | .logReadEntries _ => true
  | .logReadCertificates _ => true
  | .serviceChallenge _ => true
  | .serviceResponse _ => true
  | .fwStageWrite _ => true
  | .fwStageFinish _ => true
  | .fwStageAbandon _ => true
  | .fwActivateNext _ => true
  | .fwActivateNow _ => true
  | .fwActivateCommitSvn _ => true
  | .fwActivateCancel _ => true
  | .bufferFillStatus _ => true
  | .hifDbSqTail _ _ stores => storesFit stores
  | .hifDbCqHead _ _ => true
  | .descriptorFetch _ => true
  | .irqTimerExpiry _ => true
  | .pcieLinkUp speed width => linkFields speed width
  | .hostFault _ => true
  | .mqEnable => true
  | .mqDisable => true
  | .eventRingEnable => true
  | .eventRingDisable => true
  | .evtRingHeadWrite _ => true
  | .evtLock => true
  | .panLock _ => true
  | .quenchCfgLock _ => true
  | .writeSetCommit _ _ => true
  | .writeCommitAll _ => true
  | .readSetCommit _ _ => true
  | .readCommitAll _ => true
  | .coefWrite _ _ _ _ _ _ => true
  | .coefBankSwap _ _ => true
  | .loopEnable _ _ => true
  | .motionStop _ => true
  | .motionBrake _ => true
  | .functionReset _ => true
  | .warmReset => true
  | .coldResetRequest => true
  | .perstAssert => true
  | .stewardWatchdog => true
  | .toField => true
  | .serviceClose => true
  | .katStart _ => true
  | .fillRestart => true
  | .serviceDescriptorPost => true
  | .retireClear => true
  | .reassemble => true
  | .countModeWrite _ _ _ => true
  | .registerWrite bar2 off _ high => barWord bar2 off && (high.isNone || off % 8 == 0)
  | .malformedAccess _ off size _ => !alignedAccess off size
  | .rcFieldRead bar2 off wide => barWord bar2 off && (!wide || off % 8 == 0)
  | .timeLoRead => true
  | .copy desc _ => descLen desc
  | .fill desc _ => descLen desc
  | .compare desc _ => descLen desc
  | .gather desc _ => descLen desc
  | .scatter desc _ => descLen desc
  | .requestLine _ => true
  | .burstDone _ _ _ => true
  | .alloc requester _ _ _ _ => reqNo requester
  | .free requester handle => reqNo requester && handleNo handle
  | .handoff requester handle dest => reqNo requester && handleNo handle && reqNo dest
  | .acquire requester handle => reqNo requester && handleNo handle
  | .release requester handle => reqNo requester && handleNo handle
  | .cancel requester => reqNo requester
  | .panListRebuild _ => true
  | .bufferRead _ errs _ => lineErrs errs
  | .bufferWrite ba data errs _ => stripeWrite ba data && lineErrs errs
  | .rakeVisit errs _ => lineErrs errs
  | .memdevEventPoll _ _ => true
  | .fillChunkDone => true
  | .cxlPerstRelease => true
  | .cxlLinkUp _ _ _ _ _ => true
  | .memoryActive _ _ _ _ => true
  | .bringupTimeout _ => true
  | .memdevLost _ _ => true
  | .sliceCodeDone _ _ => true
  | .cipherSealDone _ _ => true
  | .cipherOpenDone _ _ => true
  | .sliceDecompressDone _ _ => true
  | .datasetIdleTimeout _ _ => true
  | .slotDecision => true
  | .tierFix rowErrors => tierRows rowErrors
  | .writeFifoUnderrun _ => true
  | .cwoJudged _ => true
  | .fenceTimeout => true
  | .maxWaitExpiry => true
  | .tapeRestart => true
  | .positionReached _ => true
  | .rampEnd => true
  | .paceWindowEnd counts _ => siteCounts counts
  | .servoFrameBoundary _ _ => true
  | .timingUpdate _ samples _ _ _ => adcSamples samples
  | .muStep _ => true
  | .syncWindowClose _ _ => true
  | .resyncWindowClose _ _ => true
  | .headerDecodeDone _ => true
  | .c1DecodeDone _ _ => true
  | .sampleOverwrite _ => true
  | .ctLost _ => true
  | .ctRegained _ => true
  | .holdoverEnd => true
  | .synthLock _ => true
  | .datasetRecovery _ => true
  | .readAheadRestart => true
  | .servoFrameDecided _ => true
  | .frameMissed => true
  | .l3Sample => true
  | .mlsync => true
  | .inFrame frame => frame.length == 15
  | .inFrameAbsent => true
  | .l1Sample _ => true
  | .tapeStopped => true
  | .pafltAssert _ => true
  | .vddAonRise => true
  | .powerOnResetRelease => true
  | .rngStartupPass => true
  | .rngContinuousFail _ => true
  | .bootImagesLoaded _ => true
  | .bootEntrySigned => true
  | .ringLinkTrained _ lanes => ringLanes lanes
  | .assemblyEnd => true
  | .quenchDetect _ _ _ _ _ => true
  | .quenchPowerOff => true
  | .quenchReset _ _ => true
  | .thermtrip => true
  | .leakPeriod _ => true
  | .pewterUnload => true
  | .eventRecordWrite => true
  | .eventIrqTimer => true
  | .pendingCopyApply _ _ => true
  | .quiesceComplete _ => true
  | .challengeLapse => true
  | .dataRow _ frame _ => frameLen frame
  | .readRow _ frame _ => frameLen frame
  | .ack _ frame _ => frameLen frame
  | .nak _ frame _ => frameLen frame
  | .beacon _ frame _ => frameLen frame
  | .token _ frame _ => frameLen frame
  | .attest _ frame _ => frameLen frame
  | .roster _ frame _ => frameLen frame
  | .topology _ frame _ => frameLen frame
  | .join _ frame _ => frameLen frame
  | .joinAck _ frame _ => frameLen frame
  | .groupSerial _ frame _ => frameLen frame
  | .groupStart _ frame _ => frameLen frame
  | .payloadOk _ frame _ => frameLen frame
  | .stripeCommit _ frame _ => frameLen frame
  | .xoff _ frame _ => frameLen frame
  | .xon _ frame _ => frameLen frame
  | .sessionEnd _ frame _ => frameLen frame
  | .readReq _ frame _ => frameLen frame
  | .positionLost _ frame _ => frameLen frame
  | .groupFail _ frame _ => frameLen frame
  | .ackTimeout _ => true
  | .ackTimer _ => true
  | .linkDown _ => true
  | .laneRetrainDone _ lanes => ringLanes lanes
  | .payloadConfirmTimeout _ _ => true
  | .readRowTimeout _ _ _ => true
  | .getVersion _ => true
  | .getCapabilities _ => true
  | .negotiateAlgorithms _ => true
  | .getDigests _ => true
  | .getCertificate _ => true
  | .challenge _ => true
  | .getMeasurements _ => true
  | .vendorDefinedRequest _ => true
  | .perstDeassert => true
  | .pcieLinkDown _ => true
  | .vddAonFail => true
  | .msixUnmask _ => true
  | .atsInvalidation _ _ => true
  | .jtagAccess bar2 off _ => barWord bar2 off
  | .pafltDeassert _ => true
  | .setEndpointId _ => true

end Sys2Proof
end

