-- ==== Sys2Proof/Tests/Slice0.lean ====
section
/-! SUPPORT. Sys2Proof/Tests/Slice0.lean: checks of the model's own. First, for each check of WellFormed, a term that it refuses. Then,
for each statement that has hypotheses, concrete states and operands that meet the hypotheses of each of its clauses together: a theorem
`witness_…` for each. Last, a few single steps and values that the spec works out. -/

open Sys2Proof Sys2Proof.Machine Sys2Proof.Safety Sys2Proof.Claims

namespace Sys2Proof.Tests

set_option Elab.async false

/-! ### What WellFormed refuses -/

theorem test_wf_command : Instr.wf (.copy (zeros 64) 0) = true := by decide +kernel
theorem test_illformed_descLen : Instr.wf (.copy (zeros 63) 0) = false := by decide +kernel
theorem test_illformed_frameLen : Instr.wf (.ack 0 (zeros 21) 0) = false := by decide +kernel
theorem test_illformed_alignedAccess : Instr.wf (.malformedAccess false 0x10 4 true) = false := by decide +kernel
theorem test_illformed_barWord : Instr.wf (.registerWrite true 0x80000 0 none) = false := by decide +kernel
theorem test_illformed_wide : Instr.wf (.registerWrite false 0x004 0 (some 0)) = false := by decide +kernel
theorem test_illformed_wideRead : Instr.wf (.rcFieldRead false 0x004 true) = false := by decide +kernel
theorem test_illformed_reqNo : Instr.wf (.cancel 64) = false := by decide +kernel
theorem test_illformed_handleNo : Instr.wf (.free 0 262144) = false := by decide +kernel
theorem test_illformed_lineErrs : Instr.wf (.rakeVisit [{ line := 3, flip := zeros 63, poison := false, hard := false }] 0) = false := by decide +kernel
theorem test_illformed_lineTwice : Instr.wf (.rakeVisit [{ line := 3, flip := zeros 64, poison := false, hard := false }, { line := 3, flip := zeros 64, poison := false, hard := false }] 0) = false := by decide +kernel
theorem test_illformed_stripeWrite : Instr.wf (.bufferWrite 1020 (zeros 8) [] 0) = false := by decide +kernel
theorem test_illformed_ringLanes : Instr.wf (.ringLinkTrained 0 3) = false := by decide +kernel
theorem test_illformed_linkFields : Instr.wf (.pcieLinkUp 16 4) = false := by decide +kernel
theorem test_illformed_siteCounts : Instr.wf (.paceWindowEnd [0, 0, 0, 0, 0, 0, 0] 0) = false := by decide +kernel
theorem test_illformed_tierRows : Instr.wf (.tierFix [(3072, 0)]) = false := by decide +kernel
theorem test_illformed_cmSize : Instr.wf (.cartLoad 0 { cm := some (zeros 64), writes := true, threads := true, scan := [], tagCounts := [], capUf := 0, esrMohm := 0, vhold := 0, results := [] }) = false := by decide +kernel
theorem test_illformed_adcSamples : Instr.wf (.timingUpdate 0 (List.replicate 32 32) 0 0 0) = false := by decide +kernel
theorem test_illformed_storesFit : Instr.wf (.hifDbSqTail none 0 [{ space := 0, addr := 2 ^ 64, bytes := [1] }]) = false := by decide +kernel
theorem test_illformed_calResult : Instr.wf (.cartCalibrate 0 [{ gain := 64, taps := List.replicate 10 0, framed := 0 }]) = false := by decide +kernel
theorem test_illformed_inFrame : Instr.wf (.inFrame (zeros 14)) = false := by decide +kernel

/-! ### States to start from -/

/-- A part that has started, in mode `m`, with its random-bit generator tested and its host link up. -/
def live (m : Mode) : State :=
  { State.reset with
    glb := { State.reset.glb with mode := m, boot := .running }
    sec := { State.reset.sec with rngOk := true, profileValid := true }
    hif := { State.reset.hif with linkL0 := true, mqEn := true } }

/-- A descriptor: opcode, cid, target, and runs of parameter bytes by offset (R264). -/
def desc (op cid target : Nat) (ps : List (Nat × Bytes)) : Bytes :=
  ps.foldl (fun d p => patch d p.1 p.2) (patch (zeros 64) 0 (leBytes 1 op ++ [0] ++ leBytes 2 cid ++ leBytes 2 target))

/-- The command of a descriptor, fetched and waiting. -/
def cmd (d : Bytes) : Cmd := { uid := 7, desc := d }

/-- `s` with instance 0 in state `st`, and the command of `d` in its ring. -/
def held (st : InstState) (d : Bytes) (s : State) : State :=
  s.modInst 0 (fun i => { i with
    state := st
    cfg := { pasid := 1, maxStreams := 4, partMask := 0xFFFF, tagLo := 1, tagHi := 16, rtagLo := 1, rtagHi := 16 }
    share := 1, shareNext := 1, ring := { sqLog := 4, cqLog := 4, cmds := [cmd d] } })

/-- `s` with the command of `d` in the management ring. -/
def asked (d : Bytes) (s : State) : State := { s with hif := { s.hif with mq := { sqLog := 4, cqLog := 4, cmds := [cmd d] } } }

/-- `s` with open streams. -/
def opened (l : List Machine.Stream) (s : State) : State := { s with streams := l, nextId := 100 }

/-- Stream 5, number 2 of instance 0, tag 1 of partition 0, without a slot. -/
def str (dir : StreamDir) : Machine.Stream :=
  { sid := 5, v := 0, no := 2, dir := dir, tag := 1, part := 0, slot := none, seed := 0, effort := 0 }

/-- `s` with a partition 0 of four wraps on the cartridge. -/
def loaded (s : State) : State :=
  { s with cart := { s.cart with loaded := true, writes := true, dir := [{ DirEntry.none with defined := true, firstWrap := 0, wrapCount := 4 }] } }

/-- A NOP. -/
def wNop : Bytes := desc 0x41 1 0xFFFF []


/-! ### Witnesses: the machine as a whole, commands of an instance ring -/

theorem witness_IdleStepCountsTime :
    State.reset.pending = [] ∧ State.reset.glb.mode ≠ .off ∧ State.reset.chn.reassemble = false ∧ State.reset.chn.pendingJoin = false
      ∧ State.reset.hif.early = [] := by decide +kernel
theorem witness_IdleStepCountsTime_off : (live .off).pending = [] ∧ (live .off).glb.mode = .off := by decide +kernel
theorem witness_StepKeepsQueueAndMemory :
    let s : State := { live .idle with pending := [.thermtrip, .evtLock], hostMem := [(5, 1)] }
    Memory.wf s.hostMem = true ∧ step s = .next { s with pending := [.evtLock], glb := { s.glb with thermtrip := true } } :=
  ⟨by decide +kernel, rfl⟩
theorem witness_EnclaveNeverGoesBack :
    let s : State := { live .idle with pending := [.thermtrip] }
    s.sec.lifecycle ≤ 4 ∧ step s = .next { s with pending := [], glb := { s.glb with thermtrip := true } } :=
  ⟨by decide +kernel, rfl⟩
theorem witness_SequenceNeverFalls : ∀ i : Fin 512, State.reset.seqs[i].frontier ≤ (storedSlot State.reset i).frontier + 2 ^ 20
    ∧ State.reset.seqs[i].epoch ≤ (storedSlot State.reset i).epoch + 1 ∧ State.reset.seqs[i].epoch ≤ lastEpoch
    ∧ (storedSlot State.reset i).epoch ≤ lastEpoch := by decide +kernel
theorem witness_CommandsSpareUnits : exec .thermtrip (live .idle) = .next { live .idle with glb := { (live .idle).glb with thermtrip := true } }
    ∧ Claims.Part.evt ∈ Claims.spared .thermtrip := ⟨rfl, by decide +kernel⟩

def wStats : Bytes := desc 0x40 1 0xFFFF [(8, leBytes 8 0x1000)]
theorem witness_InstanceQueriesComplete_nop :
    startable (held .active wNop (live .idle)) 0 1 0x41 = some (cmd wNop) ∧ reservedZero wNop [] = true ∧ (cmd wNop).target = 0xFFFF := by decide +kernel
theorem witness_InstanceQueriesComplete_stats :
    startable (held .active wStats (live .idle)) 0 1 0x40 = some (cmd wStats) ∧ reservedZero wStats [(8, 8)] = true ∧ (cmd wStats).target = 0xFFFF
      ∧ u64 wStats 8 % 64 = 0 := by decide +kernel
theorem witness_InstanceQueriesComplete_position :
    let d := desc 0x23 1 2 []
    let s := opened [str .read] (held .active d (live .retrieve))
    startable s 0 1 0x23 = some (cmd d) ∧ reservedZero d [] = true ∧ s.openStream? 0 (cmd d).target = some (str .read) ∧ (str .read).cut = none := by decide +kernel
theorem witness_InstanceQueriesComplete_opcode :
    let d := desc 0x99 1 0xFFFF []
    let s := held .active d (live .idle)
    findStartable 1 [] (s.ring (some 0)).cmds = some (cmd d) ∧ (s.inst 0).state = .active ∧ s.glb.mode.served = true
      ∧ (cmd d).opcode ∉ [0x01, 0x02, 0x10, 0x11, 0x12, 0x13, 0x20, 0x21, 0x22, 0x23, 0x30, 0x31, 0x40, 0x41] := by decide +kernel

/-- OPEN_STREAM of stream 3: tag 1, partition 0, the slot and direction given. -/
def wOpen (slot dir : Nat) : Bytes := desc 0x01 1 3 [(8, leBytes 2 1), (11, leBytes 1 slot), (14, leBytes 1 dir)]
theorem witness_OpenStreams_ff2 :
    let s := (held .active (wOpen 0 2) (live .idle)).modSlot 0 0 (fun q => { q with kind := .ff2Cbc })
    startable s 0 1 0x01 = some (cmd (wOpen 0 2)) ∧ openFormFault s 0 (cmd (wOpen 0 2)) (openParams (wOpen 0 2)) = none
      ∧ u8 (wOpen 0 2) 14 = 2 ∧ openFf2Fault s 0 (openParams (wOpen 0 2)) = none := by decide +kernel
/-- A threaded part whose instance 0 may write tag 1 in plaintext. -/
def wPlain (d : Bytes) : State :=
  let s := held .active d (loaded (live .threaded))
  { s with insts := vset s.insts 0 { s.inst 0 with cfg := { (s.inst 0).cfg with plaintextOk := true } }, pwr := { s.pwr with holdOk := true } }
theorem witness_OpenStreams_read :
    let s := wPlain (wOpen 0xFF 1)
    startable s 0 1 0x01 = some (cmd (wOpen 0xFF 1)) ∧ openFormFault s 0 (cmd (wOpen 0xFF 1)) (openParams (wOpen 0xFF 1)) = none
      ∧ u8 (wOpen 0xFF 1) 14 = 1 ∧ s.glb.mode.onTape = true ∧ sessionEnding s = false ∧ cartBusy s = false
      ∧ openTapeFault s 0 (openParams (wOpen 0xFF 1)) = none := by decide +kernel
theorem witness_OpenStreams_append :
    let s := wPlain (wOpen 0xFF 0)
    startable s 0 1 0x01 = some (cmd (wOpen 0xFF 0)) ∧ openFormFault s 0 (cmd (wOpen 0xFF 0)) (openParams (wOpen 0xFF 0)) = none
      ∧ u8 (wOpen 0xFF 0) 14 = 0 ∧ s.glb.mode.onTape = true ∧ sessionEnding s = false ∧ cartBusy s = false
      ∧ openTapeFault s 0 (openParams (wOpen 0xFF 0)) = none ∧ s.fmt.sess = none ∧ groupPart s 0 = false := by decide +kernel
/-- The first append stream of a group's partition at the origin, one that joins a session, and one that must wait for its end. -/
theorem witness_OpenStreams_session :
    let d := wOpen 0xFF 0
    let s := wPlain d
    let g := { s with chn := { s.chn with grp := { s.chn.grp with state := 2, part := 0, position := 0 } } }
    let j := { s with fmt := { s.fmt with sess := some { part := 0, session := 1 } } }
    let w := { s with fmt := { s.fmt with sess := some { part := 0, session := 1, ending := true } } }
    startable g 0 1 0x01 = some (cmd d) ∧ openFormFault g 0 (cmd d) (openParams d) = none ∧ openTapeFault g 0 (openParams d) = none ∧ groupPart g 0 = true
      ∧ startable j 0 1 0x01 = some (cmd d) ∧ openFormFault j 0 (cmd d) (openParams d) = none ∧ openTapeFault j 0 (openParams d) = none
      ∧ sessionEnding j = false ∧ cartBusy j = false ∧ j.fmt.sess.isSome = true
      ∧ startable w 0 1 0x01 = some (cmd d) ∧ openFormFault w 0 (cmd d) (openParams d) = none ∧ w.glb.mode.onTape = true
      ∧ (sessionEnding w || cartBusy w) = true := by decide +kernel

def wWrite (op entries : Nat) : Bytes := desc op 1 2 [(8, leBytes 8 0x4000), (16, leBytes 2 entries)]
theorem witness_WriteCommands_run :
    ∀ x ∈ [(0x10, 1), (0x11, 256)],
      let d := wWrite x.1 x.2
      let s := opened [str .append] (held .active d (live .append))
      (s.inst 0).state = .active ∧ s.openStream? 0 (cmd d).target = some (str .append) ∧ (str .append).cut = none
        ∧ startable s 0 1 x.1 = some (cmd d) ∧ reservedZero d [(8, 10), (24, 12)] = true ∧ u64 d 8 % 64 = 0 ∧ u64 d 24 % 64 = 0
        ∧ 1 ≤ u16 d 16 ∧ u16 d 16 ≤ 256 := by decide +kernel
theorem witness_WriteCommands_wait :
    ∀ x ∈ [(0x02, desc 0x02 1 2 []), (0x13, desc 0x13 1 2 []), (0x12, desc 0x12 1 2 [(8, leBytes 2 1)])],
      let s := opened [str .append] (held .active x.2 (live .append))
      (s.inst 0).state = .active ∧ s.openStream? 0 (cmd x.2).target = some (str .append)
        ∧ (closeEarly 5 7 s).1 = none ∧ (closeEarly 5 7 s).2.stream? 5 = some (str .append)
        ∧ startable s 0 1 x.1 = some (cmd x.2) ∧ reservedZero x.2 (if x.1 = 0x12 then [(8, 2)] else []) = true
        ∧ (x.1 = 0x12 → u16 x.2 8 ≠ 0) := by decide +kernel

def wReadCmd : Bytes := desc 0x20 1 2 [(8, leBytes 8 0x4000), (16, leBytes 2 1), (24, leBytes 8 0x8000)]
theorem witness_ReadCommands_close :
    let d := desc 0x02 1 2 []
    let s := opened [str .read] (held .active d (live .retrieve))
    (s.inst 0).state = .active ∧ s.openStream? 0 (cmd d).target = some (str .read) ∧ startable s 0 1 0x02 = some (cmd d) ∧ reservedZero d [] = true
      ∧ (str .read).dir ≠ .append := by decide +kernel
theorem witness_ReadCommands_read :
    let s := hostWrite 2 0x4000 (leBytes 8 0x10000 ++ leBytes 4 4096 ++ leBytes 4 1) (opened [str .read] (held .active wReadCmd (live .retrieve)))
    (s.inst 0).state = .active ∧ s.openStream? 0 (cmd wReadCmd).target = some (str .read) ∧ startable s 0 1 0x20 = some (cmd wReadCmd)
      ∧ readFault (cmd wReadCmd) (readParams wReadCmd) = none ∧ u64 wReadCmd 32 = 0 ∧ u16 wReadCmd 40 = 0
      ∧ tapeHeld s = false ∧ (match startJob 0 (cmd wReadCmd) (readParams wReadCmd) s with | .ok _ => true | .error _ => false) = true := by decide +kernel
theorem witness_ReadCommands_move :
    ∀ x ∈ [(0x21, desc 0x21 1 2 [(8, [2])]), (0x22, desc 0x22 1 2 [(8, [1]), (16, leBytes 8 (2 ^ 64 - 1))])],
      let s := opened [str .read] (held .active x.2 (live .retrieve))
      (s.inst 0).state = .active ∧ s.openStream? 0 (cmd x.2).target = some (str .read) ∧ startable s 0 1 x.1 = some (cmd x.2)
        ∧ reservedZero x.2 [(8, 1), (16, 8)] = true ∧ u8 x.2 8 ≤ (if x.1 = 0x21 then 2 else 1) := by decide +kernel
theorem witness_ReadCommands_moved : tapeHeld (live .retrieve) = false ∧ (opened [str .read] (live .retrieve)).stream? 5 = some (str .read) := by decide +kernel

def wBind (kind limit auto_ : Nat) : Bytes := desc 0x30 1 0xFFFF [(8, [7, BitVec.ofNat 8 kind, BitVec.ofNat 8 limit, BitVec.ofNat 8 auto_])]
/-- `s` with slot 7 of instance 0 bound as FF3_GCM. -/
def slotted (s : State) : State := s.modSlot 0 7 (fun q => { q with kind := .ff3Gcm, root := List.replicate 32 0x42#8 })
theorem witness_SlotCommands_erase :
    let s := slotted (held .active (wBind 0 0 0) (live .idle))
    startable s 0 1 0x30 = some (cmd (wBind 0 0 0)) ∧ bindFault s 0 (cmd (wBind 0 0 0)) = none ∧ u8 (wBind 0 0 0) 9 = 0 := by decide +kernel
theorem witness_SlotCommands_same :
    let d := wBind 1 36 1
    let s := slotted (held .active d (live .idle))
    startable s 0 1 0x30 = some (cmd d) ∧ bindFault s 0 (cmd d) = none ∧ u8 d 9 ≠ 0 ∧ SlotKind.ofCode (u8 d 9) = some .ff3Gcm
      ∧ (s.slot 0 7).pending = none ∧ (s.slot 0 7).kind = .ff3Gcm ∧ (s.slot 0 7).limitLog2 = u8 d 10 ∧ (s.slot 0 7).autoRekey = (u8 d 11 == 1) := by decide +kernel
theorem witness_SlotCommands_rewrite :
    let d := wBind 3 20 1
    let s := slotted (held .active d (live .idle))
    startable s 0 1 0x30 = some (cmd d) ∧ bindFault s 0 (cmd d) = none ∧ u8 d 9 ≠ 0 ∧ SlotKind.ofCode (u8 d 9) = some .ff2Cfb
      ∧ (s.slot 0 7).kind ≠ .ff2Cfb := by decide +kernel
theorem witness_SlotCommands_rekey :
    let d := desc 0x31 1 0xFFFF [(8, [7])]
    let s := slotted (held .active d (live .idle))
    startable s 0 1 0x31 = some (cmd d) ∧ reservedZero d [(8, 1)] = true ∧ (cmd d).target = 0xFFFF ∧ u8 d 8 < 8
      ∧ (s.slot 0 7).kind = .ff3Gcm ∧ (s.seqOf 0 7).epoch ≠ 0xFFFFFFFF := by decide +kernel


/-! ### Witnesses: commands of the management ring -/

def wCreate : Bytes :=
  desc 0x80 1 0 [(8, leBytes 4 1), (12, [1, 4, 12, 16]), (16, leBytes 8 0x200000), (24, leBytes 8 0x201000), (32, [1, 0]), (36, leBytes 4 0xFFFFFF)
    , (40, leBytes 2 0xFFFF), (42, leBytes 2 1), (44, leBytes 2 16), (46, leBytes 2 1), (48, leBytes 2 16)]
theorem witness_CreateConfiguresInstance :
    let s := asked wCreate (live .idle)
    Served s 1 0x80 (cmd wCreate) ∧ (cmd wCreate).target = (0 : Inst).val ∧ reservedZero wCreate [(8, 42)] = true ∧ u32 (slice wCreate 8 48) 0 < 2 ^ 20
      ∧ (createParams (slice wCreate 8 48)).flags < 4 ∧ u32 (slice wCreate 8 48) 28 < 2 ^ 24 ∧ (createParams (slice wCreate 8 48)).sqBase % 64 = 0
      ∧ (createParams (slice wCreate 8 48)).cqBase % 64 = 0 ∧ s.glb.mode ≠ .service ∧ (s.inst 0).state = .unassigned ∧ cfgBroken s 0 (createParams (slice wCreate 8 48)) = false := by
  unfold Served; decide +kernel

/-- Instance 0 in state `st`, with the command of `d` in the management ring. -/
def wInst (st : InstState) (d : Bytes) : State := asked d (held st wNop (live .idle))
theorem witness_InstanceStateCommands_share :
    let d := desc 0x81 1 0 [(8, [255, 7]), (12, leBytes 4 0xFFFFFF)]
    let s := wInst .quiesced d
    (cmd d).target = (0 : Inst).val ∧ Served s 1 0x81 (cmd d) ∧ reservedZero d [(8, 2), (12, 4)] = true ∧ u8 d 9 < 8 ∧ u32 d 12 < 2 ^ 24
      ∧ (s.inst 0).state ≠ .unassigned ∧ resumable (s.inst 0) = true := by unfold Served; decide +kernel
theorem witness_InstanceStateCommands_quiesce :
    let d := desc 0x82 1 0 []
    ∀ st ∈ [InstState.unassigned, .active, .quiescing, .quiesced], Served (wInst st d) 1 0x82 (cmd d) ∧ reservedZero d [] = true := by
  unfold Served; decide +kernel
theorem witness_InstanceStateCommands_end :
    ∀ x ∈ [(0x83, InstState.configured), (0x87, .frozen), (0x84, .active), (0x84, .quiescing)],
      let d := desc x.1 1 0 []
      Served (wInst x.2 d) 1 x.1 (cmd d) ∧ (cmd d).target = (0 : Inst).val ∧ reservedZero d [] = true ∧ ((wInst x.2 d).inst 0).state = x.2 := by
  unfold Served; decide +kernel
theorem witness_InstanceStateCommands_drained :
    let s := (live .idle).modInst 0 (fun i => { i with state := .quiescing })
    (s.inst 0).state = .quiescing ∧ drainedInst s 0 = true := by decide +kernel

theorem witness_SaveAndRestore_save :
    let d := desc 0x85 1 0 [(16, leBytes 8 0x4000), (24, leBytes 4 1024)]
    let s := wInst .frozen d
    Served s 1 0x85 (cmd d) ∧ (cmd d).target = (0 : Inst).val ∧ reservedZero d [(16, 12)] = true ∧ u64 d 16 % 64 = 0 ∧ (s.inst 0).state = .frozen
      ∧ 1024 ≤ u32 d 24 := by unfold Served; decide +kernel
/-- The head of a blob of another device, whose nonce this device does not hold. -/
def wBlob : Bytes :=
  patch (patch (patch (zeros 1024) 0 (leBytes 4 0xF3B10B5A ++ leBytes 2 1 ++ leBytes 2 1024)) 64
    (leBytes 4 1 ++ [0, 4, 4, 1] ++ leBytes 8 0 ++ leBytes 8 0 ++ [0, 1, 0, 0] ++ leBytes 4 0 ++ leBytes 2 1)) 98 (leBytes 2 1 ++ leBytes 2 1 ++ leBytes 2 1 ++ leBytes 2 1)
theorem witness_SaveAndRestore_restore :
    let d := desc 0x86 1 0 [(8, leBytes 4 7), (16, leBytes 8 0x4000), (24, leBytes 8 0x1000), (32, leBytes 8 0x2000)]
    let s := hostWrite 0 0x4000 wBlob (asked d (live .idle))
    let b := hostRead s 0 (u64 d 16) 1024
    let p := { createParams (slice b 64 48) with pasid := u32 d 8, sqBase := u64 d 24, cqBase := u64 d 32 }
    Served s 1 0x86 (cmd d) ∧ (cmd d).target = (0 : Inst).val ∧ reservedZero d [(8, 4), (16, 24)] = true ∧ u32 d 8 < 2 ^ 20 ∧ u64 d 16 % 64 = 0
      ∧ u64 d 24 % 64 = 0 ∧ u64 d 32 % 64 = 0 ∧ (s.inst 0).state = .unassigned ∧ s.glb.mode ≠ .service ∧ u32 b 0 = 0xF3B10B5A ∧ u16 b 4 = 1 ∧ u16 b 6 = 1024
      ∧ cfgBroken s 0 p = false ∧ nonceOpen s (slice b 32 16) = false := by unfold Served; decide +kernel

theorem witness_RootCommands_public :
    let d := desc 0x90 1 0 [(16, leBytes 8 0x4000), (24, leBytes 4 193)]
    let s := { asked d ((live .idle).modInst 0 (fun i => { i with state := .configured, ecdh := some 5 })) with sec := { (live .idle).sec with aliasPriv := some 9 } }
    Served s 1 0x90 (cmd d) ∧ (cmd d).target = (0 : Inst).val ∧ u8 d 8 = 0 ∧ reservedZero d [(8, 2), (16, 12)] = true ∧ u64 d 16 % 64 = 0
      ∧ (s.inst 0).ecdh = some 5 ∧ s.sec.aliasPriv = some 9 ∧ 193 ≤ u32 d 24 := by unfold Served; decide +kernel
/-- An import of a root that unwraps: of the message itself only its length is shown here; that some message unwraps is AES key wrap's
own property (R96), too long for the kernel to compute. -/
def wImportDesc : Bytes := desc 0x90 1 0 [(8, [1, 7]), (16, leBytes 8 0x4000), (24, leBytes 4 137)]
theorem witness_RootCommands_import :
    let s := asked wImportDesc ((live .idle).modInst 0 (fun i => { i with state := .configured, ecdh := some 5 }))
    Served s 1 0x90 (cmd wImportDesc) ∧ (cmd wImportDesc).target = (0 : Inst).val ∧ u8 wImportDesc 8 = 1 ∧ reservedZero wImportDesc [(8, 2), (16, 12)] = true
      ∧ u8 wImportDesc 9 < 8 ∧ u64 wImportDesc 16 % 64 = 0 ∧ (s.inst 0).ecdh = some 5 ∧ 137 ≤ u32 wImportDesc 24 ∧ (s.slot 0 7).kind = .empty
      ∧ ((slotted s).slot 0 7).kind ≠ .empty := by unfold Served; decide +kernel
theorem witness_RootCommands_erase :
    let d := desc 0x91 1 0 [(8, [7])]
    let s := wInst .configured d
    Served s 1 0x91 (cmd d) ∧ (cmd d).target = (0 : Inst).val ∧ reservedZero d [(8, 1)] = true ∧ u8 d 8 < 8 ∧ (s.inst 0).state ≠ .unassigned
      ∧ inUse s 0 7 = 0 := by unfold Served; decide +kernel

/-- A cartridge memory whose manufacture region and directory pass their checks (R53, R54). -/
def wMemory : Bytes :=
  let m := patch (patch (zeros 64) 0 (leBytes 2 0xC3F3 ++ [1, 3] ++ leBytes 4 4096)) 16 (ascii "BIBX-0004-7731-Q")
  let cm := patch (zeros 4096) 0 (patch m 60 (crcBytes (m.take 60)))
  patch cm 0x600 (crcBytes (slice cm 0x400 512))
theorem witness_CartridgeCommands_memory : manufactureOk wMemory = true := by decide +kernel
set_option maxRecDepth 200000 in
theorem witness_CartridgeCommands_directory : directoryOk wMemory = true := by decide +kernel
theorem witness_CartridgeCommands_load :
    let d := desc 0xA0 1 0xFFFF []
    let view : CartView := { cm := some wMemory, writes := true, threads := true, scan := [], tagCounts := [], capUf := 0, esrMohm := 0, vhold := 0, results := [] }
    Served (asked d (live .idle)) 1 0xA0 (cmd d) ∧ reservedZero d [(8, 1), (16, 8)] = true ∧ u8 d 8 ≤ 1 ∧ (cmd d).target = 0xFFFF ∧ u64 d 16 % 64 = 0
      ∧ (live .idle).glb.mode = .idle ∧ view.cm = some wMemory ∧ view.threads = true ∧ view.writes = true := by
  unfold Served; exact ⟨by decide +kernel, by decide +kernel, by decide +kernel, by decide +kernel, by decide +kernel, rfl, rfl, rfl, rfl⟩
/-- A write session of partition 0. -/
def wSession : WSession := { part := 0, session := 1 }
theorem witness_CartridgeCommands_unload :
    let d := desc 0xA1 1 0xFFFF []
    let s := asked d (loaded (live .threaded))
    let w := { asked d (loaded (live .append)) with fmt := { s.fmt with sess := some wSession } }
    reservedZero d [] = true ∧ (cmd d).target = 0xFFFF ∧ Served s 1 0xA1 (cmd d) ∧ s.glb.mode = .threaded ∧ cartInUse s = false ∧ s.fmt.sess = none
      ∧ tapeHeld s = false ∧ tapeHeld w = false ∧ s.glb.mode.onTape = true ∧ s.cart.writes = true ∧ Served w 1 0xA1 (cmd d) ∧ w.glb.mode.onTape = true ∧ cartInUse w = false ∧ w.fmt.sess.isSome = true := by unfold Served; decide +kernel
theorem witness_CartridgeCommands_calibrate :
    let d := desc 0xA2 1 0xFFFF []
    let s := asked d (loaded (live .threaded))
    reservedZero d [] = true ∧ (cmd d).target = 0xFFFF ∧ tapeHeld s = false ∧ Served s 1 0xA2 (cmd d) ∧ sessionEnding s = false ∧ s.glb.mode = .threaded := by
  unfold Served; decide +kernel
theorem witness_CartridgeCommands_there :
    let s := { live .threaded with fmt := { (live .threaded).fmt with motion := .positioning, moveFor := .mgmt } }
    s.fmt.motion = .positioning ∧ s.fmt.moveFor = .mgmt := by decide +kernel

theorem witness_ChainAndBufferQueries_chain :
    let d := desc 0xB0 1 0xFFFF [(16, leBytes 8 0x4000), (24, leBytes 4 32)]
    let s := { asked d (live .idle) with chn := { (live .idle).chn with state := 5, roster := [{ addr := 0, flags := 1, latency := 0, ident := zeros 16 }] } }
    (cmd d).target = 0xFFFF ∧ Served s 1 0xB0 (cmd d) ∧ reservedZero d [(16, 12)] = true ∧ u64 d 16 % 64 = 0 ∧ 32 * s.chn.roster.length ≤ u32 d 24 := by
  unfold Served; decide +kernel
theorem witness_ChainAndBufferQueries_clear :
    let d := desc 0xB1 1 0xFFFF [(8, [1])]
    (cmd d).target = 0xFFFF ∧ Served (asked d (live .idle)) 1 0xB1 (cmd d) ∧ u8 d 8 = 1 ∧ reservedZero d [(8, 5), (16, 16)] = true := by
  unfold Served; decide +kernel
theorem witness_ChainAndBufferQueries_fill :
    let d := desc 0xD2 1 0xFFFF []
    (cmd d).target = 0xFFFF ∧ startableMgmt (asked d (live .pewter)) 1 0xD2 = some (cmd d) ∧ reservedZero d [] = true := by decide +kernel

theorem witness_IngotLog_entries :
    let d := desc 0xC0 1 0xFFFF [(12, leBytes 4 3), (16, leBytes 2 512), (24, leBytes 8 0x4000), (32, leBytes 4 384)]
    let s := { asked d (live .pewter) with sec := { (live .pewter).sec with ingot := [(3, zeros 384)] } }
    startableMgmt s 1 0xC0 = some (cmd d) ∧ reservedZero d logUsed = true ∧ (cmd d).target = 0xFFFF ∧ u64 d 24 % 64 = 0 ∧ u8 d 8 = 0
      ∧ 1 ≤ u16 d 16 ∧ u16 d 16 ≤ 512
      ∧ 384 * ((s.sec.ingot.filter (fun e => decide (max (u32 d 12) (ingotOldest s) ≤ e.1))).take (u16 d 16)).length ≤ u32 d 32 := by decide +kernel
theorem witness_IngotLog_chain :
    let d := desc 0xC0 1 0xFFFF [(8, [1]), (24, leBytes 8 0x4000), (32, leBytes 4 4096)]
    startableMgmt (asked d (live .idle)) 1 0xC0 = some (cmd d) ∧ reservedZero d logUsed = true ∧ (cmd d).target = 0xFFFF ∧ u64 d 24 % 64 = 0
      ∧ u8 d 8 = 1 := by decide +kernel
theorem witness_IngotLog_write :
    let s := { live .attest with sec := { (live .attest).sec with ingot := [(3, zeros 384)] } }
    deviceKey s = some (Ecc.privOf (Sha.hmac ((List.finRange 32).map Config.uds) (ascii "FX3-DEVICE"))) ∧ s.sec.ingot.getLast? = some (3, zeros 384)
      ∧ (∀ e ∈ s.sec.ingot, e.1 ≤ 3) ∧ s.sec.ingot.length ≤ 512 := ⟨rfl, by decide +kernel, by decide +kernel, by decide +kernel⟩

theorem witness_ServiceGate_challenge :
    let d := desc 0xC1 1 0xFFFF [(8, leBytes 4 7), (16, leBytes 8 0x4000), (24, leBytes 4 64)]
    let s := asked d (live .idle)
    (cmd d).target = 0xFFFF ∧ u64 d 16 % 64 = 0 ∧ Served s 1 0xC1 (cmd d) ∧ reservedZero d [(8, 4), (16, 8), (24, 4)] = true ∧ 0 < u32 d 8 ∧ u32 d 8 < 8
      ∧ s.glb.mode ≠ .service ∧ gateLocked s = false ∧ 64 ≤ u32 d 24 := by unfold Served; decide +kernel
def wAnswer : Bytes := desc 0xC2 1 0xFFFF [(16, leBytes 8 0x4000), (24, leBytes 4 193)]
/-- The public key of the private key 5. -/
def wKey : Bytes :=
  [0x04] ++ beBytes 96
    0x11de24a2c251c777573cac5ea025e467f208e51dbff98fc54f6661cbe56583b037882f4a1ca297e60abcdbc3836d84bc8fa696c77440f92d0f5837e90a00e7c5284b447754d5dee88c986533b6901aeb3177686d0ae8fb33184414abe6c1713a
/-- Its signature of 64 zeros. -/
def wSignature : Bytes :=
  beBytes 96
    0x8f649bb9aeddaf4d9b7bbaed7bfe53249bd19c1daedc6c501e07c5e3fe1ff9516d364fbd34c2bf30bf006cb38cf1a9c2384123bef48b5fdaf70bfd8b8c3f9868ebc17e26a1c973cdad2dab7e828aa18072b7a0e6ea52ecea93713cafc1551b2f
/-- A part with a challenge out, and a response in host memory. -/
def wGate (scope : Nat) (challenge key response : Bytes) : State :=
  let s := hostWrite 0 0x4000 (key ++ response) (asked wAnswer (live .idle))
  { s with sec := { s.sec with lifecycle := 3, makerHash := some (Sha.sha384 key), challenge := some { scope := scope, bytes := challenge, issued := 0 } } }
theorem witness_ServiceGate_good : Ecc.verify wKey (zeros 64) wSignature = true := by decide +kernel
theorem witness_ServiceGate_granted : mayGrant (wGate 1 (zeros 64) wKey wSignature) 1 wKey = true := by
  have h : (makerAuthority (wGate 1 (zeros 64) wKey wSignature) == some (Sha.sha384 wKey)) = true := by
    simp [makerAuthority, wGate]
  simp only [mayGrant, h]; simp
theorem witness_ServiceGate_read : hostRead (wGate 1 (zeros 64) wKey wSignature) 0 (u64 wAnswer 16) 193 = wKey ++ wSignature := by decide +kernel
theorem witness_ServiceGate_response :
    let s := wGate 1 (zeros 64) (zeros 97) (zeros 96)
    (cmd wAnswer).target = 0xFFFF ∧ u64 wAnswer 16 % 64 = 0 ∧ Served s 1 0xC2 (cmd wAnswer) ∧ reservedZero wAnswer [(16, 8), (24, 4)] = true
      ∧ 193 ≤ u32 wAnswer 24 ∧ gateReady s = true ∧ s.sec.challenge = some { scope := 1, bytes := zeros 64, issued := 0 }
      ∧ Ecc.verify (zeros 97) (zeros 64) (zeros 96) = false := by unfold Served; decide +kernel

theorem witness_FirmwareUpdates_stage :
    let d := desc 0xD0 1 0xFFFF [(16, leBytes 8 0x4000), (24, leBytes 4 4096)]
    let s := asked d (live .idle)
    Served s 1 0xD0 (cmd d) ∧ reservedZero d [(8, 1), (12, 4), (16, 8), (24, 4)] = true ∧ (cmd d).target = 0xFFFF ∧ stageOpen s = true ∧ u8 d 8 = 0
      ∧ u32 d 12 % 4096 = 0 ∧ u32 d 24 % 4096 = 0 ∧ u32 d 24 ≤ 2 ^ 20 ∧ u32 d 12 + u32 d 24 ≤ 2 ^ 24 ∧ u64 d 16 % 64 = 0 ∧ u32 d 12 = 0 := by
  unfold Served; decide +kernel
theorem witness_FirmwareUpdates_later :
    let d := desc 0xD0 1 0xFFFF [(12, leBytes 4 0xFFF000), (16, leBytes 8 0x4000), (24, leBytes 4 4096)]
    let s := { asked d (live .idle) with sec := { (live .idle).sec with staging := true } }
    Served s 1 0xD0 (cmd d) ∧ stageOpen s = true ∧ u8 d 8 = 0 ∧ u32 d 12 % 4096 = 0 ∧ u32 d 12 + u32 d 24 ≤ 2 ^ 24 ∧ s.sec.staging = true ∧ u32 d 12 ≠ 0 := by
  unfold Served; decide +kernel
theorem witness_FirmwareUpdates_finish :
    ∀ k ∈ [1, 2],
      let d := desc 0xD0 1 0xFFFF [(8, leBytes 1 k)]
      let s := { asked d (live .idle) with sec := { (live .idle).sec with staging := true, otherBank := [(0, zeros 4096)] } }
      Served s 1 0xD0 (cmd d) ∧ reservedZero d [(8, 1), (12, 4), (16, 8), (24, 4)] = true ∧ stageOpen s = true ∧ u8 d 8 = k ∧ s.sec.staging = true
        ∧ bankFault s (otherView s) = some 1 := by unfold Served; decide +kernel
theorem witness_FirmwareUpdates_activate :
    ∀ k ∈ [0, 1, 2, 3],
      let d := desc 0xD1 1 0xFFFF [(8, leBytes 1 k)]
      let s := { asked d (live .idle) with sec := { (live .idle).sec with staged := true, dir0 := some { trial := if k = 3 then 1 else 0 } } }
      Served s 1 0xD1 (cmd d) ∧ reservedZero d [(8, 1)] = true ∧ (cmd d).target = 0xFFFF ∧ u8 d 8 = k ∧ s.sec.staged = true ∧ s.glb.mode = .idle
        ∧ (dirNow s).trial = (if k = 3 then 1 else 0) ∧ s.sec.romPewter = false ∧ s.sec.bankB = (dirNow s).activeB := by unfold Served; decide +kernel
theorem witness_FirmwareUpdates_directory :
    let s := { live .idle with sec := { (live .idle).sec with dir0 := some { seq := 2 ^ 32 - 2 } } }
    (dirNow s).seq < 2 ^ 32 - 1 ∧ s.sec.dir0.isSome = true := by decide +kernel


/-! ### Witnesses: doorbells, fetch, events, resets, registers -/

theorem witness_DoorbellsAndFetch_starting : (live .assemble).glb.mode.starting = true := by decide +kernel
theorem witness_DoorbellsAndFetch_doorbell :
    ∀ st ∈ [InstState.configured, .active],
      let s := held st wNop (live .idle)
      s.glb.mode.served = true ∧ (s.inst 0).state ≠ .unassigned ∧ fld (15 : Word) 0 12 < 2 ^ (s.ring (some 0)).sqLog ∧ 2 ^ (s.ring (some 0)).sqLog ≤ fld (16 : Word) 0 12
        ∧ fld (15 : Word) 0 12 < 2 ^ (s.ring (some 0)).cqLog ∧ fld (0 : Word) 0 12 < 2 ^ s.hif.mq.sqLog ∧ fld (0 : Word) 0 12 < 2 ^ s.hif.mq.cqLog := by decide +kernel
theorem witness_DoorbellsAndFetch_fetch :
    let s := (held .active wNop (live .idle)).modRing (some 0) (fun q => { q with sqTail := 1, cmds := [] })
    fetches s (some 0) = true ∧ fetches { live .idle with hif := { (live .idle).hif with mq := { sqLog := 4, cqLog := 4, sqHead := 15 } } } none = true := by decide +kernel

theorem witness_InterruptsAndLink_timer :
    let s := (held .active wNop (live .idle)).modRing (some 0) (fun q => { q with unsignalled := 1, irqUsec := 100 })
    (s.ring (some 0)).unsignalled ≠ 0 ∧ (s.ring (some 0)).irqUsec ≠ 0 := by decide +kernel
theorem witness_InterruptsAndLink_link :
    (live .idle).hif.linkL0 = true ∧ (live .idle).glb.perst = false ∧ (live .idle).glb.mode ≠ .off ∧ (live .idle).glb.mode ≠ .quench
      ∧ (live .idle).msix.table[(3 : Fin 130)].masked = true := by decide +kernel

theorem witness_PairsStartAndStop :
    (live .service).glb.mode.served = true ∧ (live .service).hif.mqEn = true ∧ { (live .service).hif with mqEn := false }.mqEn = false
      ∧ (live .service).evt.ringEn = false ∧ (live .service).mayDrive .host = true ∧ (live .service).pwr.quenchCfg.getLsbD 31 = false := by decide +kernel

/-- An event of class 1. -/
def wEvent : EvRec := { time := 0, code := 1, cls := 1, source := 1, resource := 0xFFFF, inst := 0xFF, detail := [] }
theorem witness_EventsReachHost_write :
    let s := { live .idle with evt := { (live .idle).evt with ringEn := true, head := 5, tail := 63, fifo := [wEvent] } }
    evtWrites s = true ∧ s.evt.fifo = wEvent :: [] ∧ s.evt.tail + 1 = 2 ^ evtLog s.evt := by decide +kernel
theorem witness_EventsReachHost_timer :
    let s := { live .idle with evt := { (live .idle).evt with irqDue := true, buckets := vset (live .idle).evt.buckets 303 { level := 1, leakAt := some 5 } } }
    s.evt.irqDue = true ∧ s.evt.buckets[(303 : Fin 304)].level ≠ 0 ∧ s.evt.buckets[(303 : Fin 304)].leakAt.isSome = true := by decide +kernel
theorem witness_EventsReachHost_known :
    let u := { (live .idle).evt with fifo := List.replicate 256 wEvent }
    wEvent.rep = 0 ∧ (∀ e ∈ u.fifo, e.rep < 65535) ∧ (∀ i : Fin 64, u.loss[i].count < 65535) ∧ u.fifo.length ≤ 256 := by decide +kernel

theorem witness_ResetsTaken :
    (live .service).glb.mode.served = true ∧ (live .service).glb.mode = .service ∧ (live .attest).glb.mode.resets = true
      ∧ (live .assemble).glb.mode.stewarded = true ∧ (live .off).glb.mode = .off ∧ (live .quench).glb.mode = .quench
      ∧ restoreMv (live .quench).pwr.quenchCfg < 12000 := by decide +kernel
theorem witness_PowerAndFunctionReset :
    (live .append).glb.mode ≠ .off ∧ (live .quench).glb.mode = .quench ∧ (live .append).glb.mode.served = true := by decide +kernel

theorem witness_StartUp_held :
    let s := { State.reset with qs := { State.reset.qs with state := 2, cause := 0, number := 1, recorded := 1 } }
    s.glb.mode = .reset ∧ s.glb.boot = .held ∧ s.qs.state = 2 ∧ s.qs.number = s.qs.recorded ∧ s.qs.cause ≠ 3
      ∧ ¬(State.reset.qs.state = 2 ∧ State.reset.qs.number = State.reset.qs.recorded ∧ State.reset.qs.cause ≠ 3) := by decide +kernel
theorem witness_StartUp_tested :
    let s := { State.reset with glb := { State.reset.glb with boot := .released } }
    s.glb.mode = .reset ∧ s.glb.boot = .released ∧ (live .append).sec.rngOk = true ∧ (live .append).glb.mode.pewterFrom = true := by decide +kernel
theorem witness_StartUp_loaded :
    ∀ b ∈ [BootStage.testing, .loaded],
      let s := { live .attest with glb := { (live .attest).glb with boot := b } }
      s.glb.mode = .attest ∧ s.glb.boot = b ∧ s.sec.romPewter = false ∧ s.sec.profileValid = true ∧ s.sec.lifecycle ≠ 4
        ∧ { s.sec with romPewter := true }.romPewter = true := by decide +kernel
theorem witness_StartUp_assembled :
    let s := { live .assemble with chn := { (live .assemble).chn with state := 7 } }
    assemblyDone s = true ∧ s.glb.mode = .assemble := by decide +kernel

theorem witness_QuenchSavesState :
    (live .append).glb.mode ≠ .off ∧ (live .append).glb.mode ≠ .quench ∧ detects (live .append) 0 10199 = true ∧ detects (live .append) 0 10200 = false
      ∧ detects (live .append) 2 12000 = true := by decide +kernel

theorem witness_PewterAndServiceRows_pewter :
    (live .pewter).glb.mode = .pewter ∧ (live .pewter).sec.profileValid = true ∧ (live .pewter).fmt.motion = .stopped := by decide +kernel
theorem witness_PewterAndServiceRows_service :
    let s := { live .service with buf := { (live .service).buf with state := 4 } }
    s.glb.mode = .service ∧ s.glb.mode.served = true ∧ s.sec.lifecycle = 2 ∧ s.sec.profileValid = true ∧ s.mov.svcPosted = false
      ∧ s.mayDrive .host = true ∧ (s.pan 3).countMode ≠ true ∧ panHolds s 3 = false ∧ 2 ≤ s.buf.state ∧ s.buf.state ≤ 4 := by decide +kernel

theorem witness_RegisterWrites :
    (live .pewter).glb.mode.served = true ∧ (live .service).glb.mode = .service ∧ stewardAt 0x0F00 = stewardAt 0x0F00
      ∧ (live .idle).glb.mode ≠ .service ∧ 0x5000 / 0x1000 = 5 ∧ (live .assemble).glb.mode.served = false := by decide +kernel
theorem witness_HostAndJtagReads :
    (live .idle).glb.mode.served = true ∧ (live .idle).glb.time < 2 ^ 64 ∧ wellFormedAccess 0x2 4 = false ∧ (live .idle).glb.mode ≠ .off
      ∧ (live .idle).tapOpen = true ∧ { live .idle with sec := { (live .idle).sec with lifecycle := 3 } }.tapOpen = false ∧ stewardAt 0x8080 = false
      ∧ wellFormedAccess 0x8 8 = true := by decide +kernel


/-! ### Witnesses: parameter sets, loops, motion, servo, read channels -/

/-- A part that writes: APPEND with the tape running. -/
def wAppend : State := { live .append with fmt := { (live .append).fmt with motion := .running, map := (List.range 32).map (fun i => 4 * i) } }

/-- A part that reads: RETRIEVE with the tape running. -/
def wRetrieving : State := { live .retrieve with fmt := { (live .retrieve).fmt with motion := .running } }

theorem witness_ParameterSets :
    wAppend.glb.mode.served = true ∧ wAppend.fmt.motion ≠ .stopped ∧ 4 ∈ wAppend.fmt.map.map (· % 128) ∧ 5 ∉ wAppend.fmt.map.map (· % 128)
      ∧ wAppend.wch[(4 : Chan)].pending = none ∧ (wAppend.modRch 4 (fun r => { r with pending := some 0 })).rch[(4 : Chan)].pending = some 0
      ∧ (wAppend.modRch 4 (fun r => { r with pending := some 1 })).rch[(4 : Chan)].pending = some (0 + 1) := by decide +kernel
theorem witness_ParameterSets_write :
    let w (k : Option Nat) : State := { wAppend with wch := vmod wAppend.wch 4 (fun x => { x with pending := k }) }
    (w (some 0)).wch[(4 : Chan)].pending = some 0 ∧ (w (some 1)).wch[(4 : Chan)].pending = some (0 + 1) ∧ (w none).wch[(4 : Chan)].activeB = false
      ∧ (w none).wch[(4 : Chan)].activeB ≠ true ∧ (w (some 0)).wch[(4 : Chan)].pending.isSome = true ∧ (w none).wch[(4 : Chan)].pending = none := by decide +kernel

theorem witness_LoopRegisters_coefficients :
    let s := { wAppend with mot := { wAppend.mot with loopEn := 2 } }
    let u := s.modLoop 1 (fun x => { x with swap := true })
    s.mayDrive .steward = true ∧ s.loopOn 0 = false ∧ s.loopOn 1 = true ∧ ((1 : Nat) == 1) ≠ s.mot.loop[(1 : Fin 4)].bankB ∧ s.mot.loop[(1 : Fin 4)].swap = false
      ∧ u.mot.loop[(1 : Fin 4)].swap = true ∧ ((0 : Nat) == 1) = s.mot.loop[(1 : Fin 4)].bankB ∧ s.mot.queue.length < 16
      ∧ 16 ≤ { s.mot with queue := List.replicate 16 (1, 0, 0) }.queue.length := by decide +kernel
theorem witness_LoopRegisters_enables :
    let s := { wAppend with mot := { wAppend.mot with loopEn := 2 } }
    (6 : BitVec 4).getLsbD 2 = true ∧ s.loopOn 2 = false ∧ (4 : BitVec 4).getLsbD 1 = false ∧ s.loopOn 1 = true ∧ (4 : BitVec 4).getLsbD 0 = s.loopOn 0
      ∧ s.mot.loopEn ≠ 0 ∧ wAppend.mot.loopEn = 0 ∧ (6 : BitVec 4) ≠ 0 := by decide +kernel

theorem witness_SamplesAndMotionLink_samples :
    let s := { wAppend with mot := { wAppend.mot with loopEn := 0xA, follow := 0x0000FFFF }, srv := { wAppend.srv with l2Count := 16 } }
    l1Due s.mot = true ∧ l1Due { s.mot with awaiting := true } = false ∧ s.loopOn 1 = true ∧ wAppend.loopOn 1 = false ∧ l1Due wAppend.mot = true ∧ fld s.mot.follow 0 16 = 0xFFFF
      ∧ (sat16 (rounded 8 (8 * (s.mot.posRef + stepRef s.mot.speedRef s.mot.target (accelNow s).2) - 635 * 0) 5000)).natAbs ≤ 8 * fld s.mot.follow 0 16
      ∧ 16 ≤ s.srv.l2Count ∧ s.loopOn 3 = true ∧ wAppend.loopOn 3 = false ∧ wAppend.srv.l2Count < 16 := by
  decide +kernel
/-- An in-frame (R196, R197): 0x5A, eleven bytes of payload, the sequence byte before them, and its CRC. -/
def wInFrame : Bytes := [0x5A] ++ zeros 12 ++ linkCrc (zeros 12)
theorem witness_SamplesAndMotionLink_link :
    let s := { wAppend with mot := { wAppend.mot with loopEn := 2, badFrames := 2 } }
    motionOn s = true ∧ motionOn State.reset = false ∧ inFrameOk wInFrame = true ∧ inFrameOk (zeros 15) = false ∧ 2 ≤ s.mot.badFrames ∧ s.mot.brake = 0
      ∧ { s.mot with badFrames := 1 }.badFrames < 2 := by decide +kernel

theorem witness_StopsAndRamps :
    ∀ m ∈ [MotState.running, .stopping, .softStart],
      let s := { live .threaded with mot := { (live .threaded).mot with state := m, target := 6500000 } }
      s.mayDrive .steward = true ∧ (s.mot.state = .running ∨ s.mot.state = .stopping ∨ s.mot.state = .softStart) ∧ s.mot.target ≠ 0
        ∧ (codeOfSpeed (s.mot.target / 1000)).isSome = true ∧ s.mot.islandReset = false ∧ s.glb.mode = .threaded ∧ s.fmt.moveFor = .none ∧ tapeHeld s = false := by
  decide +kernel

/-- A frame that element A finds in the middle of stripe 256, the first of servo band 2, with equal bursts. -/
def wElement : ElementRead := { gray := BitVec.ofNat 10 (grayOf 256), a := 100, b := 100, c := 100, d := 100, inWindow := true }
theorem witness_ServoFramesDecode_valid :
    ∀ n ∈ [2, 3],
      let s := { wAppend with srv := { wAppend.srv with state := .search, ctrl := 1, good := n, lxValid := true } }
      let f : ServoFrame := { elemA := some wElement, elemB := none, lxField := 0, interval := 0 }
      s.srv.state ≠ .off ∧ rbit s.srv.ctrl 0 = true ∧ (f.elemA.bind (elemY s 0)).isSome = true ∧ rbit s.srv.ctrl 1 = false
        ∧ ({ s with mot := { s.mot with loopEn := 2 } }.mot.loopEn ≠ 0 ∨ s.glb.mode ≠ .append) ∧ s.srv.state = .search ∧ (n = 2 ∨ 3 ≤ s.srv.good)
        ∧ (takeLx f.lxField s.srv).lxValid = true := by decide +kernel
theorem witness_ServoFramesDecode_missed :
    let s := { wRetrieving with srv := { wRetrieving.srv with state := .locked, lxValid := true } }
    let f := { s with srv := { s.srv with missed := 3, fence := 0x00030000 ||| s.srv.fence } }
    let g := { s with srv := { s.srv with missed := 4, fence := 0x00200000 } }
    let u := { wRetrieving with srv := { wRetrieving.srv with state := .fenced, missed := 15 } }
    s.glb.mode ≠ .append ∧ s.srv.missed + 1 ≤ fld s.srv.fence 16 2 ∧ s.srv.missed + 1 < max 4 (fld s.srv.fence 18 4) ∧ s.srv.lxValid = true
      ∧ f.srv.state ≠ .search ∧ fld g.srv.fence 16 2 < g.srv.missed + 1 ∧ g.srv.missed + 1 < max 4 (fld g.srv.fence 18 4)
      ∧ u.srv.state = .fenced ∧ max 4 (fld u.srv.fence 18 4) ≤ u.srv.missed + 1 := by decide +kernel
/-- The four fields of LX 0x04030203 as a group carries it, byte 0 first (R178). -/
theorem witness_ServoFramesDecode_group :
    let f (i : Fin 4) : BitVec 16 :=
      let n := i.val + 4 * [3, 2, 3, 4].getD i.val 0
      BitVec.ofNat 16 (n + 1024 * (crc6 ((List.range 10).map (fun j => n.testBit j))).toNat)
    (∀ i : Fin 4, lxParts (f i) = (i.val, [3, 2, 3, 4].getD i.val 0, true))
      ∧ { wAppend.srv with lxValid := false, forward := true, group := [] }.forward = true := by decide +kernel

theorem witness_ReadTimingAndMarks_timing :
    let s := { wAppend.modRch 4 (fun r => { r with sync := .tracking, muCwos := 4 }) with rdc := { wAppend.rdc with lockA := true, lockB := true } }
    s.rch[(4 : Chan)].sync ≠ .stopped ∧ s.rch[(5 : Chan)].sync = .stopped ∧ s.rdc.lockA = true ∧ s.rdc.lockB = true ∧ rbit s.rdc.clkCfg 4 = true
      ∧ { s.rdc with lockB := false }.lockB = false
      ∧ max 1 (fld s.rdc.adapt 8 4) ≤ s.rch[(4 : Chan)].muCwos ∧ s.rch[(5 : Chan)].muCwos < max 1 (fld s.rdc.adapt 8 4) := by decide +kernel
/-- Channels 4 and 8 in tracking; `n` is where channel 4's next SM32 is expected, and its samples end at `m`. -/
def wWindow (n m : Int) (s : State) : State :=
  let up (r : RChan) : RChan := { r with sync := .tracking, expected := n, ringEnd := m }
  (s.modRch 4 up).modRch 8 up
theorem witness_ReadTimingAndMarks_marks :
    ∀ w ∈ [[], [(8, none, false)]],
      let s := let t := wWindow 100 156 wAppend; { t with rdc := { t.rdc with windows := w } }
      let r := s.rch[(4 : Chan)]
      s.retired 1 4 = false ∧ s.rdc.windows.any (fun w => w.1 == 4) = false ∧ r.sync = .tracking ∧ s.rdc.inSeparator = false ∧ r.arrived (r.expected + 55) = true
        ∧ r.arrived (r.expected + 56) = false
        ∧ ((8 ∈ rchUp s ∧ (8 : Nat) ≠ (4 : Chan).val ∧ s.rdc.windows.any (fun w => w.1 == 8) = false)
            ∨ ∀ k ∈ rchUp s, k = (4 : Chan).val ∨ s.rdc.windows.any (fun w => w.1 == k) = true)
        ∧ s.rch[(5 : Chan)].sync = .stopped ∧ s.retired 1 5 = false ∧ s.rdc.windows.any (fun w => w.1 == 5) = false := by decide +kernel
theorem witness_ReadTimingAndMarks_closed :
    ({ wAppend with rdc := { wAppend.rdc with windows := [(4, none, false)] } }).rdc.windows.any (fun w => w.1 == 4) = true := by decide +kernel
/-- Channel 4 frames a CWO at 100, and holds resync mark `j` `d` bits after its place; with `d` none it holds no mark. -/
def wMark (j : Fin 4) (d : Option Nat) : State :=
  let p : Int := 100 - 48 + resyncOffset j.val
  let bits : List Bool := match d with
    | some d => (List.replicate d true ++ bitsMsb 16 (resyncMark j.val) ++ List.replicate 8 true).take 24
    | none => List.replicate 24 true
  wAppend.modRch 4 (fun r => { r with sync := .tracking, framing := true, chosen := 100, base := 100, found := true, ring := (bits.map pm).reverse, ringEnd := p + 20 })
/-- What the window of `j` finds there. -/
def wFinds (j : Fin 4) (d : Option Nat) : Option (Int × Nat) :=
  let r := (wMark j d).rch[(4 : Chan)]
  let p := r.chosen - 48 + r.slipOff + resyncOffset j.val
  bestCand p (r.marksNear (4 : Chan).val (bitsMsb 16 (resyncMark j.val)) 2 p 4)
theorem witness_ReadTimingAndMarks_resync :
    let p : Int := 100 - 48 + resyncOffset 1
    (wMark 1 none).rch[(4 : Chan)].framing = true ∧ (wMark 1 none).rch[(4 : Chan)].arrived (p + 19) = true ∧ (wMark 1 none).rch[(4 : Chan)].arrived (p + 20) = false
      ∧ wFinds 1 none = none ∧ wFinds 1 (some 4) = some (p, 0) ∧ wFinds 1 (some 6) = some (p + 2, 0) := by decide +kernel
theorem witness_ReadTimingAndMarks_last :
    let r := (wMark 3 (some 4)).rch[(4 : Chan)]
    r.framing = true ∧ r.arrived (r.chosen - 48 + r.slipOff + resyncOffset 3 + 19) = true ∧ wFinds 3 (some 4) = some (r.chosen - 48 + resyncOffset 3, 0)
      ∧ wAppend.rch[(4 : Chan)].framing = false := by decide +kernel
theorem witness_BestMarkIsChosen : bestCand 100 [(90, 2), (104, 1), (96, 1)] = some (96, 1) := by decide +kernel

/-- A CWO in hand at alignment 100 with one more to try. -/
def wJob : CwoJob :=
  { id := 9, wrap := 0, expected := 100, chosen := 100, found := true, slipOff := 0, smDist := 0, marksOk := true, slips := [], erased := [], cuts := []
    attempts := [100, 101] }
/-- That CWO on channel 4, of whose samples the last is at `m − 1`. -/
def wRead (m : Int) : State := wAppend.modRch 4 (fun r => { r with jobs := [wJob], ringEnd := m })
theorem witness_AttemptsAndRuns_waits :
    ∀ m ∈ [0, 19331, 38692, 38693],
      (wRead m).rch[(4 : Chan)].jobs.find? (mayAttempt (wRead m)) = some wJob ∧ wJob.attempts.head? = some 100
        ∧ ((wRead m).rch[(4 : Chan)].arrived (100 + 19231) = decide (19331 < m)) ∧ ((wRead m).rch[(4 : Chan)].standing (100 + 32) = decide (m ≤ 38692)) := by
  decide +kernel
/-- The header of row 0 of dataset 3, on channel 4. -/
def wHeader : CwoHeader :=
  { type := 1, attempt := 1, revision := 0, dsn := 3, cwoIndex := 0, partition := 0, streamTag := 1, tierSlot := 0, wrap := 0, channel := 4 }
/-- The soft samples of 16 header bytes on channel 4, oldest first. -/
def wSoft (b : Bytes) : List Int := (List.zipWith xor (b.flatMap (fun x => bitsMsb 8 x.toNat)) (scramblerOut 128 (scramblerSeed 4))).map pm
/-- The CWO with the header `b`, its samples just complete. -/
def wHeard (b : Bytes) : State :=
  wAppend.modRch 4 (fun r => { r with jobs := [wJob], ringEnd := 19332, ring := List.replicate 19072 1 ++ (wSoft b).reverse })
theorem wHeard_soft (b : Bytes) (h : (wSoft b).length = 128) : (wHeard b).rch[(4 : Chan)].softFrom 132 128 = wSoft b := by
  have e : (wHeard b).rch[(4 : Chan)].ring = List.replicate 19072 1 ++ (wSoft b).reverse := rfl
  have n : ((wHeard b).rch[(4 : Chan)].ringEnd - 132 - ((128 : Nat) : Int)).toNat = 19072 := rfl
  simp only [RChan.softFrom, e, n]
  rw [List.drop_left' (List.length_replicate ..), List.take_of_length_le (by simp [h])]
  simp [h]
theorem wHeard_header (b : Bytes) (h : (wSoft b).length = 128) : (wHeard b).rch[(4 : Chan)].headerAt 4 100
    = bytesOfBits 16 (List.zipWith xor ((wSoft b).zipIdx.map (fun v => hardBit 4 (132 + v.2) v.1)) (scramblerOut 128 (scramblerSeed 4))) := by
  rw [RChan.headerAt, RChan.bitsFrom, show (100 : Int) + 32 = 132 from rfl, wHeard_soft b h]
theorem witness_AttemptsAndRuns_header : headerAccepted wJob.wrap ((wHeard wHeader.bytes).rch[(4 : Chan)].headerAt 4 100) = some wHeader := by
  rw [wHeard_header _ (by decide +kernel)]; decide +kernel
theorem witness_AttemptsAndRuns_noHeader : headerAccepted wJob.wrap ((wHeard (wHeader.bytes.map (fun x => ~~~x))).rch[(4 : Chan)].headerAt 4 100) = none := by
  rw [wHeard_header _ (by decide +kernel)]; decide +kernel
theorem witness_AttemptsAndRuns_takes :
    let s := wHeard wHeader.bytes
    s.rch[(4 : Chan)].jobs.find? (mayAttempt s) = some wJob ∧ wJob.attempts.head? = some wJob.chosen ∧ s.rch[(4 : Chan)].arrived (100 + 19231) = true
      ∧ s.rch[(4 : Chan)].standing (100 + 32) = true ∧ s.rdc.coreQueue = [] ∧ s.rdc.core[(0 : Fin 16)] = none ∧ s.retired 2 0 = false
      ∧ (∀ i : Fin 16, i < 0 → s.rdc.core[i].isSome = true ∨ s.retired 2 i.val = true) ∧ wJob.running = [] ∧ 2 ≤ wJob.attempts.length := by decide +kernel
theorem witness_AttemptsAndRuns_queues :
    let q : C1Req := { order := 1, chan := 5, id := 1, align := 0 }
    ∀ k : Fin 16, ({ wAppend.rdc with core := Vector.replicate 16 (some q) }).core[k].isSome = true := by decide +kernel

/-! ### Witnesses: clocks, reading, the pace window -/

theorem witness_ClocksAndReading_clocks :
    let s := { wAppend.modRch 4 (fun r => { r with sync := .tracking }) with rdc := { wAppend.rdc with lockA := true, lockB := true } }
    let one := { s.rdc with lockB := false }
    s.rdc.lockA = true ∧ s.rdc.lockB = true ∧ one.lockB = false ∧ one.lockA = true ∧ (∃ k : Chan, s.rch[k].sync ≠ .stopped) ∧ s.glb.mode = .append
      ∧ (∀ k : Chan, wAppend.rch[k].sync = .stopped) ∧ (live .retrieve).glb.mode = .retrieve ∧ (live .idle).glb.mode ≠ .append ∧ (live .idle).glb.mode ≠ .retrieve
      ∧ { s.rdc with holdover := true, holdLeft := 0 }.holdLeft = 0 ∧ s.rdc.holdover = false ∧ 0 < { s.rdc with holdover := true, holdLeft := 8 }.holdLeft := by decide +kernel
/-- A part that reads, stopped for its read-ahead, with dataset 3 in hand and no row of it. -/
def wRetrieve : State :=
  { live .retrieve with
    rtv := { (live .retrieve).rtv with stopped := true, ds := [{ dsn := 3, part := 0, session := 1, kind := 1, tag := 1 }] } }
theorem witness_ClocksAndReading_reading :
    wRetrieve.glb.mode = .retrieve ∧ (wRetrieve.rdAt 3 0).any (fun d => !d.complete && !d.lost &&
        ((erasePoison d wRetrieve).rdAt 3 0).any (fun e => !e.c2Fill.full && decide (e.pass < rereadMax (erasePoison d wRetrieve)))) = true
      ∧ wRetrieve.rtv.stopped = true ∧ wRetrieve.fmt.motion = .stopped ∧ wRetrieve.rtv.eodSeen = false ∧ aheadCount wRetrieve ≤ rdAhead wRetrieve / 2 := by
  decide +kernel
theorem witness_ClocksAndReading_reached :
    ∀ m ∈ [MoveFor.splice, .recovery, .turn, .readStart, .reread, .mgmt, .locate, .none],
      let s := { wAppend with fmt := { wAppend.fmt with motion := .positioning, moveFor := m }, mot := { wAppend.mot with state := .running } }
      s.fmt.motion = .positioning ∧ s.fmt.moveFor = m ∧ s.mot.state = .running ∧ s.glb.mode = .append := by decide +kernel
theorem witness_ClocksAndReading_passes :
    wRetrieving.fmt.motion = .running ∧ wRetrieving.glb.mode = .retrieve
      ∧ ({ wRetrieving with fmt := { wRetrieving.fmt with motion := .positioning, moveFor := .turn } }).fmt.moveFor = .turn
      ∧ wAppend.fmt.motion ≠ .positioning ∧ wAppend.glb.mode ≠ .retrieve := by decide +kernel
theorem witness_PaceWindows :
    let s := { wAppend with pwr := { wAppend.pwr with dom := BitVec.allOnes _ }, codec := { wAppend.codec with winIn := 4096, winCoded := 2048 } }
    s.glb.mode ≠ .off ∧ s.glb.mode ≠ .reset ∧ s.glb.mode ≠ .quench ∧ s.codec.winCoded ≠ 0 ∧ rbit s.pace.ctrl 0 = true ∧ siteOn s 3 = true
      ∧ rbit { s.pace with ctrl := 0 }.ctrl 0 = false ∧ s.glb.mode ≠ .retrieve := by decide +kernel

/-! ### Witnesses: coding, sealing, opening -/

/-- A stored block of one byte. -/
def wCoded : Bytes := codeBlock 0 .none { continues := false, endsOpen := false, firstFrame := none } [0x5A]
def wBlk : Blk :=
  { id := 9, sid := 5, v := 0, seq := 0, pos := 0, input := [0x5A], head := { continues := false, endsOpen := false, firstFrame := none }, recordsEnded := 0
    seed := 0, effort := 0, key := none, session := 1, part := 0, tag := 1, carrier := 7 }
def wRBlk : RBlk :=
  { id := 9, sid := 5, dsn := 3, entry := 0, encrypted := false, epoch := 1, salt := 0, counter := 0, session := 1, part := 0, tag := 1, serial := zeros 16, bytes := wCoded, plain := wCoded
    place := .engine 0 }
/-- Slice 0 and engine 0 hold the block 9. -/
def engaged (u : EngineUse) (s : State) : State :=
  { s with codec := { s.codec with slices := vmod s.codec.slices 0 (fun x => { x with use := u }), engines := vmod s.codec.engines 0 (fun x => { x with use := u }) } }
theorem witness_SealedBlocksOpen :
    (zeros 32).length = 32 ∧ 16 ≤ wCoded.length ∧ wCoded = withBlockCrc (slice wCoded 0 12) (wCoded.drop 16) := by decide +kernel
theorem witness_AttemptsEndInNine : 9 ≤ (List.replicate 9 true).length ∧ [true, false].length < 6 := by decide +kernel
theorem witness_EnginesFinishBlocks_append :
    let s := engaged (.append 9) { wAppend with streams := [str .append], blks := [wBlk] }
    let u := { s with blks := [{ wBlk with place := .engine 0, coded := wCoded }] }
    codedIn s 0 = some wBlk ∧ wBlk.tries.first = none ∧ (sealedIn u 0).isSome = true ∧ wBlk.sealTries.first = none
      ∧ codedIn wAppend 0 = none ∧ sealedIn wAppend 0 = none ∧ heldByEngine wAppend 0 = none ∧ heldBySlice wAppend 0 = none := by decide +kernel
theorem witness_EnginesFinishBlocks_read :
    let s := engaged (.retrieve 9) { wRetrieve with streams := [str .read], rtv := { wRetrieve.rtv with blks := [wRBlk] } }
    heldByEngine s 0 = some wRBlk ∧ heldBySlice s 0 = some wRBlk ∧ s.stream? 5 = some (str .read) ∧ wRBlk.encrypted = false ∧ wRBlk.ff2 = none ∧ wRBlk.tries.first = none
      ∧ wRBlk.tagFailed = none ∧ (decodeBlock wRBlk.plain).toOption = some [0x5A] := by decide +kernel
/-- A block of one byte sealed under the session key of a slot whose root is `zeros 32`. -/
def wSealed : RBlk :=
  { wRBlk with
    encrypted := true
    bytes := leBytes 41 467593219007940488963591235441400536514919614142071544982092118377587167500528779545827404547224320 }
/-- The state that holds it. -/
def wOpening : State :=
  (engaged (.retrieve 9) { wRetrieve with
    streams := [{ str .read with slot := some 0 }], rtv := { wRetrieve.rtv with blks := [wSealed] } }).modSlot 0 0 (fun k => { k with root := zeros 32 })
theorem witness_EnginesFinishBlocks_slot :
    heldByEngine wOpening 0 = some wSealed ∧ (wOpening.stream? 5).map (·.slot) = some (some 0) ∧ (wOpening.slot 0 0).root = zeros 32 := by decide +kernel
theorem witness_EnginesFinishBlocks_ff2 :
    let s := { wOpening with rtv := { wOpening.rtv with blks := [{ wRBlk with ff2 := some (zeros 16) }] } }
    heldByEngine s 0 = some { wRBlk with ff2 := some (zeros 16) } ∧ (s.stream? 5).map (·.slot) = some (some 0) := by decide +kernel
theorem witness_EnginesFinishBlocks_opens :
    (openBlock (sessionKey (zeros 32) (zeros 16) 0 1 1) 0 0 1 1 0 1 wSealed.bytes).isSome = true := by decide +kernel

theorem set_self (a : Array Int) (i : Nat) (x : Int) (h : a.getD i 0 = x) : a.setIfInBounds i x = a := by
  subst h
  apply Array.ext (by simp)
  intro j h1 h2
  rw [Array.getElem_setIfInBounds]
  split
  · next e => subst e; simp [Array.getD, h2]
  · rfl
theorem fold_set_self {α : Type} (l : List α) (f : α → Nat) (g : α → Int) (a : Array Int) (h : ∀ y ∈ l, a.getD (f y) 0 = g y) :
    l.foldl (fun b y => b.setIfInBounds (f y) (g y)) a = a := by
  induction l with
  | nil => rfl
  | cons y l ih =>
    rw [List.foldl_cons, set_self a _ _ (h y (by simp))]
    exact ih (fun z hz => h z (by simp [hz]))
theorem foldl_min_zero (l : List Nat) (n : Nat) (h : 0 ∈ l ∨ n = 0) : l.foldl min n = 0 := by
  induction l generalizing n with
  | nil => simpa using h
  | cons a l ih =>
    apply ih
    rcases h with h | h
    · rcases List.mem_cons.mp h with h | h
      · exact .inr (by omega)
      · exact .inl h
    · exact .inr (by omega)
/-- A decoder without messages in which every check has beliefs 0 but the first: no step changes it. -/
theorem checkStep_same (st : C1State) (i u : Nat) (hm : ∀ k, st.msg.getD k 0 = 0) (hs : ∀ n, sat31 (st.belief.getD n 0) = st.belief.getD n 0)
    (hl : 3 ≤ (c1Check i u).length) (hz : ∀ k n, 1 ≤ k → (c1Check i u)[k]? = some n → st.belief.getD n 0 = 0) : c1CheckStep st i u = st := by
  unfold c1CheckStep
  generalize c1Check i u = L at hl hz
  simp only [hm, Int.sub_zero, hs]
  have he : ∀ k, (L.zipIdx.map (fun v => st.belief.getD v.1 0)).getD k 0 = match L[k]? with | some n => st.belief.getD n 0 | none => 0 := by
    intro k
    simp only [List.getD_eq_getElem?_getD, List.getElem?_map, List.getElem?_zipIdx]
    cases L[k]? <;> rfl
  have hnew : ∀ v ∈ L.zipIdx, (fun v : Nat × Nat =>
      let others := ((L.zipIdx.map (fun v => st.belief.getD v.1 0)).zipIdx.filter (fun x => x.2 ≠ v.2)).map (fun x => x.1.natAbs)
      let mag : Int := rounded 13 (3 * others.foldl min 31 : Nat) 4
      let s := xor ((L.zipIdx.map (fun v => st.belief.getD v.1 0)).foldl (fun s x => if x < 0 then !s else s) false) (decide ((L.zipIdx.map (fun v => st.belief.getD v.1 0)).getD v.2 0 < 0))
      sat31 (if s then -mag else mag)) v = 0 := by
    intro v _
    have h0 : 0 ∈ ((L.zipIdx.map (fun v => st.belief.getD v.1 0)).zipIdx.filter (fun x => x.2 ≠ v.2)).map (fun x => x.1.natAbs) := by
      obtain ⟨k, hk, hv, hlt⟩ : ∃ k, 1 ≤ k ∧ k ≠ v.2 ∧ k < L.length := by
        by_cases e : v.2 = 1
        · exact ⟨2, by omega, by omega, by omega⟩
        · exact ⟨1, by omega, by omega, by omega⟩
      refine List.mem_map.mpr ⟨(0, k), List.mem_filter.mpr ⟨?_, by simpa using hv⟩, rfl⟩
      rw [List.mem_zipIdx_iff_getElem?]
      simp only [List.getElem?_map, List.getElem?_zipIdx]
      rw [List.getElem?_eq_getElem hlt]
      simp only [Option.map_some, Option.some.injEq]
      exact hz k _ hk (List.getElem?_eq_getElem hlt)
    simp only [foldl_min_zero _ _ (.inl h0)]
    have : rounded 13 ((3 * 0 : Nat) : Int) 4 = 0 := by simp [rounded]
    rw [this]
    split <;> rfl
  rw [List.map_congr_left hnew]
  have hmem : ∀ y ∈ L.zipIdx.zip (L.zipIdx.map (fun _ => (0 : Int))), L[y.1.2]? = some y.1.1 ∧ y.2 = 0 := by
    intro y hy
    have h1 := List.of_mem_zip (a := y.1) (b := y.2) hy
    refine ⟨?_, ?_⟩
    · have := List.mem_zipIdx_iff_getElem?.mp h1.1; simpa using this
    · obtain ⟨_, _, h⟩ := List.mem_map.mp h1.2; exact h.symm
  have e1 := fold_set_self (L.zipIdx.zip (L.zipIdx.map (fun _ => (0 : Int)))) (fun y => y.1.1)
    (fun y => (L.zipIdx.map (fun v => st.belief.getD v.1 0)).getD y.1.2 0 + y.2) st.belief
    (fun y hy => by rw [he, (hmem y hy).1, (hmem y hy).2]; simp)
  have e2 := fold_set_self (L.zipIdx.zip (L.zipIdx.map (fun _ => (0 : Int)))) (fun y => 36 * (512 * i + u) + y.1.2) (fun y => y.2) st.msg
    (fun y hy => by rw [(hmem y hy).2]; exact hm _)
  exact congr (congrArg C1State.mk e1) e2
theorem foldl_same {α β : Type} (l : List α) (f : β → α → β) (b : β) (h : ∀ x ∈ l, f b x = b) : l.foldl f b = b := by
  induction l with
  | nil => rfl
  | cons x l ih => rw [List.foldl_cons, h x (by simp)]; exact ih (fun y hy => h y (by simp [hy]))
/-- Soft values of which only that of bit 0 may differ from 0. -/
def loneBit (b : Int) (n : Nat) : List Int := b :: List.replicate n 0
theorem loneBit_iteration (b : Int) (n m : Nat) (hb : sat31 (-(sat31 b)) = -(sat31 b)) :
    let st : C1State := { belief := ((loneBit b n).map (fun x => -(sat31 x))).toArray, msg := (List.replicate m (0 : Int)).toArray }
    c1Iteration st = st := by
  intro st
  have hd : ∀ k, st.belief.getD k 0 = if k = 0 then -(sat31 b) else 0 := by
    intro k
    simp only [st, loneBit, List.map_cons, List.map_replicate]
    cases k with
    | zero => simp [Array.getD]
    | succ k =>
      simp only [Array.getD_eq_getD_getElem?, List.getElem?_toArray, List.getElem?_cons_succ, List.getElem?_replicate]
      split <;> rfl
  have hm : ∀ k, st.msg.getD k 0 = 0 := by
    intro k
    simp only [st, Array.getD_eq_getD_getElem?, List.getElem?_toArray, List.getElem?_replicate]
    split <;> rfl
  unfold c1Iteration
  refine foldl_same _ _ _ (fun i _ => foldl_same _ _ _ (fun u _ => checkStep_same st i u hm ?_ ?_ ?_))
  · intro k; rw [hd]; split
    · exact hb
    · rfl
  · simp [c1Check, c1Row]; omega
  · intro k x hk hx
    rw [hd, if_neg]
    rintro rfl
    rw [c1Check, List.getElem?_map] at hx
    obtain ⟨js, h1, h2⟩ := Option.map_eq_some_iff.mp hx
    have hj : 1 ≤ js.1 := by
      unfold c1Row at h1
      rw [List.getElem?_append] at h1
      split at h1
      · rw [List.getElem?_map] at h1
        obtain ⟨j, h3, rfl⟩ := Option.map_eq_some_iff.mp h1
        rw [List.getElem?_range (by simpa using ‹_›)] at h3
        simp only [Option.some.injEq] at h3
        subst h3; exact hk
      · obtain ⟨j, -, rfl⟩ := List.mem_map.mp (List.mem_of_getElem? h1)
        simp only; omega
    omega
theorem loneBit_bits (b : Int) (n k : Nat) :
    (((loneBit b n).map (fun x => -(sat31 x))).toArray.map (fun x => decide (x < 0))).getD k false = (decide (k = 0) && decide (-(sat31 b) < 0)) := by
  simp only [loneBit, List.map_cons, List.map_replicate, Array.getD_eq_getD_getElem?, List.map_toArray, List.getElem?_toArray]
  cases k with
  | zero => simp
  | succ k =>
    simp only [List.getElem?_cons_succ, List.getElem?_replicate]
    have e : sat31 0 ≤ 0 := by decide
    split <;> simp [e]
/-- All values 0: the decoder stops after one iteration with every bit 0. -/
theorem loneBit_zero (cap n : Nat) : (c1Decode (cap + 1) (loneBit 0 n)).isSome = true := by
  have h := loneBit_iteration 0 n (36 * 2048) rfl
  unfold c1Decode
  simp only [c1Run, Option.isSome_map, h]
  rw [if_pos]
  · rfl
  · simp only [c1Holds, loneBit_bits]
    have e : decide (-(sat31 0) < 0) = false := by decide
    simp only [e, Bool.and_false, Bool.xor_false, List.all_eq_true, beq_iff_eq]
    intro _ _ _ _
    exact foldl_same _ _ _ (fun _ _ => rfl)
/-- One bit alone against values of 0: the decoder never ends. -/
theorem loneBit_one (cap n : Nat) : c1Decode cap (loneBit 1 n) = none := by
  have h := loneBit_iteration 1 n (36 * 2048) rfl
  unfold c1Decode
  rw [Option.map_eq_none_iff]
  suffices ∀ cap k, c1Run cap k { belief := ((loneBit 1 n).map (fun x => -(sat31 x))).toArray, msg := (List.replicate (36 * 2048) (0 : Int)).toArray } = none from this _ _
  intro cap
  induction cap with
  | zero => intro k; rfl
  | succ c ih =>
    intro k
    simp only [c1Run, h]
    rw [if_neg, ih]
    intro hh
    rw [c1Holds, List.all_eq_true] at hh
    have h0 := List.all_eq_true.mp (hh 0 (by simp)) 0 (by simp)
    simp only [loneBit_bits] at h0
    revert h0
    decide +kernel
/-- Channel 4's CWO, its attempt at its chosen alignment on core 0, whose input is `b` at bit 0 and 0 elsewhere; `l` are the attempts left. -/
def wReq (b : Int) : C1Req := { order := 9, chan := 4, id := 9, align := 100, input := some (loneBit b 18431, []) }
def wDecoding (b : Int) (l : List Int) : State :=
  { wAppend.modRch 4 (fun r => { r with jobs := [{ wJob with attempts := l, running := [(100, zeros 16, none)] }] }) with
    rdc := { wAppend.rdc with core := vset wAppend.rdc.core 0 (some (wReq b)) } }
theorem witness_AttemptsAndRuns_fails :
    let s := wDecoding 1 [101]
    let j : CwoJob := { wJob with attempts := [101], running := [(100, zeros 16, none)] }
    s.rdc.core[(0 : Fin 16)] = some (wReq 1) ∧ (wReq 1).chan = (4 : Chan).val ∧ (wReq 1).id = j.id ∧ (wReq 1).align = j.chosen ∧ s.rch[(4 : Chan)].jobs = [j]
      ∧ s.rdc.coreQueue = [] ∧ j.running = [(j.chosen, zeros 16, none)] ∧ j.attempts ≠ []
      ∧ c1Outcome (iterCap s) ((wReq 1).input.getD ([], [])) = none := by
  refine ⟨rfl, rfl, rfl, rfl, rfl, rfl, rfl, by decide, ?_⟩
  simp only [c1Outcome, wReq, Option.getD_some, loneBit_one, Option.map_none]
theorem witness_AttemptsAndRuns_converges :
    let s := wDecoding 0 []
    let j : CwoJob := { wJob with attempts := [], running := [(100, zeros 16, none)] }
    s.rdc.core[(0 : Fin 16)] = some (wReq 0) ∧ s.rdc.core[(1 : Fin 16)] = none ∧ s.rch[(4 : Chan)].jobs = [j] ∧ s.glb.mode = .append ∧ j.slips = []
      ∧ (c1Outcome (iterCap s) ((wReq 0).input.getD ([], []))).isSome = true := by
  refine ⟨rfl, rfl, rfl, rfl, rfl, ?_⟩
  rw [show iterCap (wDecoding 0 []) = 7 + 1 from by decide +kernel, c1Outcome, Option.isSome_map]
  exact loneBit_zero 7 _
theorem witness_AttemptsAndRuns_overwritten :
    let s := wRead 38792
    s.rch[(4 : Chan)].jobs = [wJob] ∧ wJob.running = [] ∧ wJob.slips = [] ∧ wJob.attempts ≠ [] ∧ (∀ a ∈ wJob.attempts, s.rch[(4 : Chan)].standing (a + 32) = false)
      ∧ s.glb.mode = .append ∧ (∀ j ∈ (wRead 200).rch[(4 : Chan)].jobs, lostAttempts 4 j (wRead 200) = []) := by decide +kernel

/-! ### Witnesses: slots, tiers, judgement, restarts -/

/-- An instance with share `n` whose stream waits for a dataset slot with a filemark. -/
def wWaits (n : Nat) (s : State) : State :=
  { held .active wNop s with streams := [{ str .append with items := [.mark 0], waitSince := some 3 }] }.modInst 0 (fun i => { i with share := n, shareNext := n })
theorem witness_SlotsAndTiers_slot :
    let n := noteWaits (wWaits 2 wAppend)
    let u := takeShares n
    n.fmt.asm.length < 8 ∧ n.pans.asmFor = none ∧ (∃ x ∈ n.streams, x.waitSince.isSome = true) ∧ draining u = [] ∧ participants u = [0] ∧ waiting u 1 = [] ∧ (u.inst 1).share = 0
      ∧ (∀ x ∈ (noteWaits wAppend).streams, x.waitSince = none) := by decide +kernel
theorem witness_SlotsAndTiers_drains :
    let u := takeShares (noteWaits ((opened [{ str .append with items := [.mark 0], waitSince := some 3, ended := true }] wAppend).modInst 0 (fun i => { i with state := .frozen })))
    (longest (draining u)).isSome = true := by decide +kernel
theorem witness_SlotsAndTiers_heldBack :
    let u := (takeShares (noteWaits (wWaits 2 wAppend))).modInst 0 (fun i => { i with state := .quiescing })
    (0 : Inst) ∉ participants u ∧ waiting u 0 ≠ [] ∧ (u.inst 0).share ≠ 0 := by decide +kernel

/-- Dataset 9 on its way to tape, with no row verified yet. -/
def wDataset : WrDs :=
  { buf := { id := 9, kind := 1 }, dsn := 3, session := 1, first := false, vaultPos := 0, wrap := 0, startBit := 0
    map := (List.range 32).map (fun i => 4 * i), unpassed := [0, 1], order := 5 }
/-- The recording of its row 0 on channel 4, with attempt number `a`. -/
def wPlan (a : Nat) : CwoPlan :=
  { chan := 4, mapPos := 1, ds := some 9, index := 0, attempt := a, tierSlot := 0, header := { wHeader with attempt := a }, tier := 6, home := 9 }
def wTape (a : Nat) : State :=
  { wAppend with
    fmt := { wAppend.fmt with
      cur := some 9, written := [wDataset], plans := [wPlan a], slot := 2, tiersFixed := 8, recovery := 0
      sess := some { part := 0, session := 1 } } }
theorem witness_SlotsAndTiers_tiers :
    let s := wTape 1
    s.glb.mode = .append ∧ s.fmt.motion = .running ∧ s.fmt.recovering = false ∧ s.fmt.dropDue = false ∧ s.fmt.afterSep = .goOn ∧ s.buf.damage = [] ∧ s.fmt.cur = some 9
      ∧ s.wr? 9 = some wDataset ∧ s.fmt.slot < dataTiers wDataset.map.length ∧ 2 * wDataset.map.length + 1 < 3072
      ∧ chanUp s (wDataset.map.getD 1 0) = true ∧ s.fmt.plans = [] ++ wPlan 1 :: [] ∧ (wPlan 1).chan = (4 : Chan).val
      ∧ headTier s = some (wPlan 1).tier ∧ (∀ q ∈ s.fmt.plans, q.chan ≠ (5 : Chan).val ∨ headTier s ≠ some q.tier) := by decide +kernel
/-- What verify reads of the recording of attempt `a`, decoded or not. -/
def wBack (a : Nat) (ok : Bool) : Readback :=
  { header := some { wHeader with attempt := a }.bytes, smDist := 0, flywheeled := false, marksOk := true
    out := if ok then some { row := plannedRow (wTape a) (wPlan a), iterations := 1, errors := 0 } else none, overwritten := false }
/-- The tape with that recording read back. -/
def wJudge (a : Nat) (ok : Bool) : State := (wTape a).modRch 4 (fun r => { r with sync := .tracking, done := [wBack a ok] })
theorem witness_JudgementAndRestarts_waits :
    let s := (wTape 1).modRch 4 (fun r => { r with sync := .tracking })
    s.fmt.plans.filter (fun p => p.chan == (4 : Chan).val) = wPlan 1 :: [] ∧ (wPlan 1).ds = some 9 ∧ s.rch[(4 : Chan)].done = [] ∧ readsBack s 4 = true := by decide +kernel
theorem witness_JudgementAndRestarts_names : ∀ a ∈ [0, 1, 2, 3], ∀ ok ∈ [true, false], (wBack a ok).names (wPlan a) = true := by decide +kernel
theorem witness_JudgementAndRestarts_passes : passesVerify (wJudge 1 true) (wPlan 1) (wBack 1 true) = true := by
  have e : plannedRow (wJudge 1 true) (wPlan 1) = plannedRow (wTape 1) (wPlan 1) := rfl
  unfold passesVerify
  simp only [e, wBack, if_true]
  generalize plannedRow (wTape 1) (wPlan 1) = row
  simp only [beq_self_eq_true]
  simp only [Bool.and_eq_true, decide_eq_true_eq]
  decide +kernel
theorem witness_JudgementAndRestarts_committed :
    let s := wJudge 1 true
    committedCount (modFirst (fun w => w.buf.id == 9)
          (fun w => { w with unpassed := w.unpassed.filter (fun i => i != (wPlan 1).index), lastHome := max w.lastHome (homeOrder s (wPlan 1)) }) s.fmt.written) = 0 := by
  decide +kernel
theorem witness_JudgementAndRestarts_fails :
    ∀ a ∈ [0, 1, 2, 3], ∀ cut ∈ [true, false],
      let s := wJudge a false
      passesVerify s { wPlan a with cutByGate := cut } (wBack a false) = false ∧ (wPlan a).attempt = a ∧ s.fmt.sess.isSome = true ∧ s.fmt.recovering = false
        ∧ s.wr? 9 = some wDataset ∧ (wDataset.chanFails.lookup (wPlan a).chan).getD 0 ≠ 7 ∧ s.fmt.recovery < fld s.fmt.appendCfg 0 2 := by decide +kernel
theorem witness_JudgementAndRestarts_fence :
    let s := { wTape 1 with fmt := { (wTape 1).fmt with gateWanted := true, closedFrames := 9 } }
    s.fmt.gateWanted = true ∧ s.fmt.gateOpen = false ∧ max 1 (fld s.fmt.appendCfg 2 6) < s.fmt.closedFrames ∧ s.fmt.recovering = false ∧ s.fmt.sess.isSome = true
      ∧ s.fmt.recovery < fld s.fmt.appendCfg 0 2 ∧ fld s.fmt.appendCfg 0 2 ≤ { s.fmt with recovery := 2 }.recovery ∧ s.chn.grp.state = 0
      ∧ s.fmt.sess = some { part := 0, session := 1 } ∧ ({ part := 0, session := 1 } : WSession).failed = false ∧ { ({ part := 0, session := 1 } : WSession) with failed := true }.failed = true := by decide +kernel
theorem witness_JudgementAndRestarts_starts :
    let s := { wTape 1 with fmt := { (wTape 1).fmt with motion := .stopped, queue := [{ id := 10, kind := 1 }] }, pace := { (wTape 1).pace with ceil := Vector.replicate 3 0 } }
    writeIdle s = true ∧ s.fmt.recovering = false ∧ restartDue s = true ∧ readyToStart s = true ∧ writeIdle wAppend = false
      ∧ fld { wAppend.fmt with appendCfg := 0 }.appendCfg 8 10 = 0 := by decide +kernel
theorem witness_JudgementAndRestarts_idle :
    let d : DsBuf := { id := 10, kind := 1, sid := some 5 }
    let s := { wAppend with streams := [str .append], fmt := { wAppend.fmt with asm := [d] } }
    fld s.fmt.appendCfg 8 10 ≠ 0 ∧ s.chn.grp.state = 0 ∧ s.streams.find? (fun x => x.v == 0 && x.no == 2 && (s.openDs? x.sid).isSome) = some (str .append)
      ∧ s.openDs? 5 = some d ∧ s.fmt.asm.find? (fun y => y.id == d.id) = some d := by decide +kernel
theorem witness_OnlyVerifiedCommits : committedCount [{ wDataset with unpassed := [], closed := true }, { wDataset with order := 6 }] = 1 := by decide +kernel

/-! ### Witnesses: buffer memory, pans, block mover -/

/-- A part with two memory devices on links 0 and 1, in `k` of BUF_STAT.state, filled up to stripe 2,048. -/
def wBuffer (k : Nat) : State :=
  { live .idle with
    buf := { (live .idle).buf with nDev := 2, devLinks := 3, links := 3, bif0 := 0, state := k, mark := 2048, perstOff := 1 } }
theorem witness_EncodedWordsDecode : 4 ≤ 32 ∧ rsCheck 4 [1, 2, 3] ≠ zeros 4 := by decide +kernel
theorem witness_StripesReadBack_whole :
    let s := wBuffer 3
    (List.replicate 1024 (0x5A : Byte)).length = 1024 ∧ 7 < s.buf.mark ∧ s.buf.state ≠ 5 ∧ (∀ d : Fin 8, s.buf.dev[d].lost = false)
      ∧ s.buf.stripes.Pairwise (fun a b => a.1 < b.1) := by decide +kernel
theorem witness_StripesReadBack_part :
    let s := wBuffer 3
    7200 / 1024 < s.buf.mark ∧ 7200 % 1024 + (zeros 64).length ≤ 1024 ∧ (zeros 64).length < 1024 ∧ (readStripe s (7200 / 1024) []).poisoned = []
      ∧ (readStripe s (7200 / 1024) []).decoded.any (fun x => x.2.isEmpty) = true := by decide +kernel
/-- Line 2 reads with one bit wrong. -/
def wLine (hard : Bool) : LineError := { line := 2, flip := 1 :: zeros 63, poison := false, hard := hard }
theorem witness_StripesReadBack_corrected :
    ∀ hard ∈ [true, false],
      let s := wBuffer 3
      7 < s.buf.mark ∧ (readStripe s 7 [wLine hard]).decoded.isSome = true ∧ errorsAt s 7 [wLine hard] = [wLine hard]
        ∧ (wLine hard).line.val ∈ (readStripe s 7 [wLine hard]).writeBack ∧ s.buf.remap[(0 : Fin 32)].valid = false := by decide +kernel
theorem witness_StripesReadBack_poisoned :
    (readStripe (wBuffer 3) 7 ((List.finRange 5).map (fun l => { line := Fin.ofNat 20 l.val, flip := zeros 64, poison := true, hard := false }))).decoded = none := by decide +kernel
theorem witness_BufferUpkeep_unfilled :
    ∀ k ∈ [3, 5],
      let s := wBuffer k
      s.buf.mark ≤ 2048 * 1024 / 1024 ∧ 2048 * 1024 % 1024 = 0 ∧ (2048 * 1024 + 64) % 1024 ≠ 0 ∧ s.buf.mark ≤ (2048 * 1024 + 64) / 1024
        ∧ 1024 ≤ (zeros 1024).length ∧ (zeros 64).length < 1024 ∧ s.buf.state = k := by decide +kernel
theorem witness_BufferUpkeep_rake :
    let s := wBuffer 3
    let u := { s with buf := { s.buf with rakeQueue := [9] } }
    let e := { s with buf := { s.buf with mark := 0, rakePos := 0 } }
    let l := { s with buf := { s.buf with rakePos := 2047 } }
    rbit s.buf.rakeCfg 0 = true ∧ s.buf.state = 3 ∧ u.buf.rakeQueue = 9 :: [] ∧ s.buf.rakeQueue = [] ∧ rakeNext s s.buf.rakePos = some 0 ∧ rakeNext s (0 + 1) = some 1
      ∧ rakeNext e e.buf.rakePos = none ∧ rakeNext l 2047 = some 2047 ∧ rakeNext l (2047 + 1) = none ∧ rbit { s.buf with rakeCfg := 0 }.rakeCfg 0 = false
      ∧ s.buf.damage = [] ∧ (∀ d : Fin 8, s.buf.dev[d].lost = false) ∧ (standing s (logicalOf s 9)).length = 1024
      ∧ (1 : Fin 8).val < s.buf.nDev ∧ s.buf.nDev ≤ (7 : Fin 8).val ∧ raked s ((100 * s.buf.nDev + 1) / 20) = true := by
  decide +kernel
/-- Device 0 accepted, device 1 with its link up. -/
def wBringUp : State :=
  let s := wBuffer 1
  { s with buf := { s.buf with
    dev := vmod (vmod s.buf.dev 0 (fun x => { x with active := true, linkUp := true, present := true, media := true, tagOk := true })) 1
      (fun x => { x with linkUp := true, tag := some (tagLine s.buf.fillTag 1) }) } }
/-- The same with device 1 accepted. -/
def wAccepted (tagOk : Bool) : State :=
  { wBringUp with buf := { wBringUp.buf with dev := vmod wBringUp.buf.dev 1 (fun x =>
      { x with active := true, present := true, media := true, hdm := some (hdmOf wBringUp 1), mail := bringupMail
               tagOk := tagOk && x.tag == some (tagLine wBringUp.buf.fillTag 1) }) } }
theorem witness_BufferUpkeep_bringUp :
    let s := wBuffer 1
    s.buf.state = 1 ∧ (1 : Fin 8).val < s.buf.nDev ∧ s.buf.dev[(1 : Fin 8)].lost = false ∧ s.buf.dev[(1 : Fin 8)].linkUp = false ∧ s.buf.perstOff.getLsbD (linkOf s 1 / 4) = true
      ∧ wBringUp.buf.dev[(1 : Fin 8)].linkUp = true ∧ wBringUp.buf.dev[(1 : Fin 8)].active = false ∧ wBringUp.buf.dev[(1 : Fin 8)].lost = false ∧ 2 ^ s.buf.cap * 16 ≤ 64 ∧ 8 < 2 ^ s.buf.cap * 16
      ∧ (∀ e : Fin 8, e ≠ 1 → e.val < wBringUp.buf.nDev → wBringUp.buf.dev[e].active = true ∨ wBringUp.buf.dev[e].lost = true)
      ∧ fillResumes (wAccepted true) = true ∧ fillResumes (wAccepted false) = false
      ∧ (∃ e : Fin 8, e ≠ 1 ∧ e.val < s.buf.nDev ∧ s.buf.dev[e].active = false ∧ s.buf.dev[e].lost = false) := by decide +kernel
theorem witness_BufferUpkeep_fill :
    let s := wBuffer 2
    (1 : Fin 8).val < s.buf.nDev ∧ s.buf.state = 2 ∧ s.buf.mark < s.usable ∧ s.usable ≤ { s.buf with mark := s.usable }.mark ∧ (wBuffer 3).buf.state ≠ 2 := by decide +kernel
theorem witness_BufferUpkeep_loss :
    ∀ n ∈ [4, 5],
      let s := { wBringUp with buf := { wBringUp.buf with state := 3, nDev := n } }
      (1 : Fin 8).val < s.buf.nDev ∧ s.buf.dev[(1 : Fin 8)].linkUp = true ∧ (∀ e : Fin 8, s.buf.dev[e].lost = false) ∧ s.buf.state ≠ 1 ∧ s.buf.state ≠ 5 := by decide +kernel

/-- Pan 0 with six buffers filled, of which requester 5 holds handle 2; pan 1 in the list store with four; pan 2 counts references. -/
def wPans : State :=
  let s := live .service
  let f (p : Pan) (n : Nat) (l : List FreeRun) (held : Nat) : Pan := { p with enable := true, count := n, filled := n, free := n - held, list := l, thresh := 0 }
  { s with
    pans := { s.pans with
      active := true
      pan := #v[f (s.pan 0) 6 [] 1, f (s.pan 1) 4 [{ first := 9, count := 4, down := true }] 0, { f (s.pan 2) 4 [{ first := 13, count := 3, down := true }] 1 with countMode := true }, s.pan 3]
      held := [{ handle := 2, owner := 5, charge := some 0, refs := 0 }, { handle := 10, owner := 6, charge := none, refs := 1 }]
      heldUnits := vset s.pans.heldUnits 0 1 } }
theorem witness_PanRequestsKeepTable : Claims.PanTable wPans := by
  refine ⟨by decide +kernel, by decide +kernel, fun p => ⟨?_, ?_, ?_⟩⟩
  · revert p; decide +kernel
  · revert p; decide +kernel
  · intro hb
    rw [show (wPans.pans.held) = [{ handle := 2, owner := 5, charge := some 0, refs := 0 }, { handle := 10, owner := 6, charge := none, refs := 1 }] from rfl]
    have e : p = 1 ∨ p = 2 := by revert p; decide +kernel
    rcases e with rfl | rfl
    · rw [show (wPans.pan 1).list = [{ first := 9, count := 4, down := true }] from rfl, show panFirst wPans 1 = 6 by decide +kernel, show (wPans.pan 1).filled = 4 from rfl]
      exact ⟨by decide, by decide, fun h => by simp [List.range_succ]; omega⟩
    · rw [show (wPans.pan 2).list = [{ first := 13, count := 3, down := true }] from rfl, show panFirst wPans 2 = 10 by decide +kernel, show (wPans.pan 2).filled = 4 from rfl]
      exact ⟨by decide, by decide, fun h => by simp [List.range_succ]; omega⟩
theorem witness_PanRequests_alloc :
    let s := wPans
    panServes s = true ∧ s.blks = [] ∧ s.pans.grants = [] ∧ allWaiters s = [] ∧ (9 : Nat) ≠ reqAssembler ∧ (9 : Nat) ≠ reqParity ∧ (9 : Nat) ≠ reqRetrieve
      ∧ homePan (2 ^ 40) = none ∧ homePan 100 = some 0 ∧ servingPan s 9 100 (some 0) = some 0 ∧ linkBad s 0 = false ∧ (s.pan 0).bitmap = true
      ∧ s.pans.held.Pairwise (fun a b => a.handle < b.handle) ∧ homePan 65536 = some 1 ∧ servingPan s 9 65536 none = some 1 ∧ linkBad s 1 = false ∧ (s.pan 1).bitmap = false
      ∧ (s.pan 1).countMode = false ∧ homePan 6291456 = some 3 ∧ servingPan s 9 6291456 none = none ∧ meetsRebuild s 3 = false ∧ (s.pan 3).countMode = false := by decide +kernel
theorem witness_PanRequests_badLink :
    let s := { wPans with pans := { wPans.pans with overlaid := [bufStripe wPans 1 (nextFree wPans 1)] } }
    servingPan s 9 65536 none = some 1 ∧ linkBad s 1 = true := by decide +kernel
theorem witness_PanRequests_mode :
    let s := { wPans with glb := (live .idle).glb }
    panServes s = true ∧ homePan 1048576 = some 2 ∧ (s.pan 2).countMode = true ∧ s.glb.mode ≠ .assemble ∧ s.glb.mode ≠ .service ∧ servingPan s 9 1048576 none = none
      ∧ meetsRebuild s 2 = false := by decide +kernel
theorem witness_PanRequests_held :
    let s := wPans
    allWaiters s = [] ∧ s.pans.held.Pairwise (fun x y => x.handle < y.handle) ∧ panOfHandle s 2 = some 0 ∧ (s.pan 0).rebuilding = false
      ∧ bufState s 0 2 = .held { handle := 2, owner := 5, charge := some 0, refs := 0 } ∧ (s.pan 0).countMode = false ∧ panOfHandle s 3 = some 0 ∧ bufState s 0 3 = .free
      ∧ panOfHandle s 99 = none ∧ panOfHandle s 10 = some 2 ∧ bufState s 2 10 = .held { handle := 10, owner := 6, charge := none, refs := 1 } ∧ (s.pan 2).countMode = true := by
  decide +kernel
theorem witness_PanRequests_references :
    ∀ n ∈ [2, 255],
      let s := { wPans with pans := { wPans.pans with held := [{ handle := 10, owner := 6, charge := none, refs := n }] } }
      bufState s 2 10 = .held { handle := 10, owner := 6, charge := none, refs := n } ∧ 1 < n := by decide +kernel
theorem witness_PanRequests_rebuild :
    let s := wPans.modPan 1 (fun q => { q with rebuilding := true })
    (s.pan 1).rebuilding = true ∧ panOfHandle s 7 = some 1 ∧ s.pans.deferred = [] ∧ allWaiters s = [] := by decide +kernel

/-- A descriptor of the mover: bytes, and its CRC (R241). -/
def wDesc (op : Nat) (ps : List (Nat × Bytes)) : Bytes :=
  let b := ps.foldl (fun d p => patch d p.1 p.2) (patch (zeros 64) 0 (leBytes 4 op ++ leBytes 4 128))
  patch b 60 (crcBytes (b.take 60))
def wCopy : Bytes := wDesc 1 [(8, leBytes 8 0x4000), (16, leBytes 8 0x8000), (24, [1, 1])]
def wFill : Bytes := wDesc 2 [(16, leBytes 8 0x8000), (32, [1, 2, 3, 4, 5, 6, 7, 8])]
def wGather : Bytes := wDesc 4 [(8, leBytes 8 0x4000), (16, leBytes 8 0x8000), (24, [3])]
def wScatter : Bytes := wDesc 5 [(8, leBytes 8 0x8000), (16, leBytes 8 0x4000), (25, [3])]
def wCompare : Bytes := wDesc 3 [(8, leBytes 8 0x4000), (16, leBytes 8 0x8000)]
/-- The descriptor `b` as the mover takes it, under number 9. -/
def taken (b : Bytes) : MovDesc := { id := 9, bytes := b }
theorem witness_MoverAndHostFaults_good :
    moverRuns { live .idle with pwr := { (live .idle).pwr with dom := BitVec.allOnes _ } } = true ∧ u8 (patch wCopy 0 [0]) 0 ≤ 1 ∧ 5 < u8 (patch wCopy 0 [6]) 0
      ∧ (taken (wDesc 1 [(4, zeros 4)])).length = 0 ∧ (∀ b ∈ [wCopy, wFill, wCompare, wGather, wScatter], badDesc (taken b) = false ∧ misaligned (taken b) = false ∧ 0 < (taken b).length)
      ∧ [wCopy, wFill, wCompare, wGather, wScatter].map (fun b => u8 b 0) = [1, 2, 3, 4, 5] ∧ (∀ x ∈ (live .idle).mov.queue, x.id < (live .idle).nextId) := by decide +kernel
theorem witness_MoverAndHostFaults_bad :
    badDesc (taken (patch wCopy 60 (zeros 4))) = true ∧ u8 (patch wCopy 60 (zeros 4)) 0 = 1
      ∧ badDesc (taken (wDesc 1 [(8, leBytes 8 0x4001), (16, leBytes 8 0x8000), (24, [1, 1])])) = false
      ∧ misaligned (taken (wDesc 1 [(8, leBytes 8 0x4001), (16, leBytes 8 0x8000), (24, [1, 1])])) = true := by decide +kernel
/-- A list of one entry that ends its chain, in host memory (R245). -/
def wList : State := hostWrite 1 0x4000 (leBytes 8 0xC000 ++ leBytes 4 128 ++ leBytes 4 2) (live .idle)
theorem witness_MoverAndHostFaults_lists :
    ∀ b ∈ [wGather, wScatter],
      (taken b).list.1 = spHostList
        ∧ (match segmentOf (readEntries wList (taken b).hostSpace 256 (taken b).list.2) with
            | e :: rest => (firstBad (e :: rest) 0).isNone && !e.link && decide (0 < e.len)
            | [] => false) = true := by decide +kernel
/-- The same with an entry of 100 bytes. -/
def wBadList : State := hostWrite 1 0x4000 (leBytes 8 0xC000 ++ leBytes 4 100 ++ leBytes 4 2) (live .idle)
theorem witness_MoverAndHostFaults_badList : (firstBad (segmentOf (readEntries wBadList (taken wGather).hostSpace 256 (taken wGather).list.2)) 0).isSome = true := by decide +kernel
/-- Engine 0 carries a burst of the descriptor `b`. -/
def moving (b : Bytes) : State :=
  let s := wBuffer 3
  { s with mov := { s.mov with queue := [taken b], eng := vmod s.mov.eng 0 (fun x => { x with use := some 9 }) } }
theorem witness_MoverAndHostFaults_bursts :
    let d := taken wCopy
    let f := taken wFill
    (moving wCopy).mov.queue.find? (fun x => x.id == 9) = some d ∧ (moving wCopy).mov.eng[(0 : Fin 4)].use = some 9 ∧ (∀ e : Fin 4, (moving wCopy).retired 7 e.val = false) ∧ (∀ e : Fin 4, (moving wFill).retired 7 e.val = false)
      ∧ d.op = opCopy ∧ d.srcSpace = spHost ∧ d.dstSpace = spHost
      ∧ d.flag 1 = false ∧ d.tries.first = none ∧ d.moved = 0 ∧ 0 < d.length ∧ d.length ≤ 4096 ∧ d.src % 4096 + d.length ≤ 4096 ∧ d.dst % 4096 + d.length ≤ 4096
      ∧ d.onHost = true ∧ (moving wFill).mov.queue.find? (fun x => x.id == 9) = some f ∧ f.op = opFill ∧ f.flag 2 = false ∧ f.flag 1 = false ∧ f.length ≤ 4096
      ∧ (writeBuffer (f.length / 1024 + 2) f.dst (patternBytes f f.length) (moving wFill)).1 = false
      ∧ (let s := { moving wFill with buf := { (moving wFill).buf with mark := 0 } }
         let w := writeBuffer (f.length / 1024 + 2) f.dst (patternBytes f f.length) s
         w.1 = true ∧ w.2.mov.queue = s.mov.queue) := by
  decide +kernel
theorem witness_MoverAndHostFaults_lines :
    let s := moving wCopy
    s.mov.line[(3 : Fin 64)].pending.length < 4
      ∧ 4 ≤ { s.mov.line[(3 : Fin 64)] with pending := [(1, 0), (2, 0), (3, 0), (4, 0)] }.pending.length := by decide +kernel
theorem witness_MoverAndHostFaults_rings :
    let s := (held .active wNop (live .idle)).modRing (some 0) (fun q => { q with sqTail := 1, cmds := [] })
    let w := desc 0x10 1 2 []
    let u := held .active w (live .idle)
    fetches s (some 0) = true ∧ (u.ring (some 0)).stopped = false ∧ (u.inst 0).state ≠ .unassigned ∧ findStartable (cmd w).cid [] (u.ring (some 0)).cmds = some (cmd w)
      ∧ (cmd w).phase = .waiting ∧ (cmd w).cid < 65536 ∧ (u.ring (some 0)).cmds.find? (fun x => x.cid == (cmd w).cid) = some (cmd w) ∧ (cmd w).opcode = 0x10 := by decide +kernel

/-! ### Witnesses: the ring and RAIT -/

/-- Member 1 of a ring of three, in a group of two data positions and one parity position, at position `p`. -/
def wRing (p : Nat) : State :=
  let s := live .idle
  { s with
    chn := { s.chn with
      state := 5, addr := 1, members := 3, port := Vector.replicate 2 { state := 2, lanes := 4, rxSeq := 7 }
      grp := { state := 2, k := 2, p := 1, part := 0, position := p, id := ascii "GROUP-01", s0 := 4, session := 2 } } }
/-- A frame of the neighbour's with seq 7, or `q`. -/
def wFrame (q : BitVec 12) (type flags dst pos row stripe : Nat) (payload : Bytes) : Bytes := sealFrame q false (mkFrame type flags dst 0 (if type = 2 then 1 else 0) pos row stripe payload)
/-- A CONTROL message of the group to this member. -/
def wControl (msg pos : Nat) (body : Bytes) : Bytes := wFrame 7 ftControl 0 1 pos 0 0 (control msg (ascii "GROUP-01") body)
set_option maxRecDepth 100000 in
theorem witness_RingLinks_sound :
    let s := wRing 1
    let f := wControl 0x23 1 []
    portUp s 0 = true ∧ frameSound f = true ∧ frameIs ftControl (some 0x23) f = true ∧ frameClean f = true ∧ fSeq f = (s.rport 0).rxSeq
      ∧ (Claims.frameRows 0 f 0).any (fun x => frameIs x.2.1 x.2.2 f) = true ∧ (fSeq (wFrame 9 ftControl 0 1 0 0 0 (control 0x23 [] []))) ≠ (s.rport 0).rxSeq
      ∧ frameSound (wFrame 9 ftControl 0 1 0 0 0 (control 0x23 [] [])) = true ∧ frameClean (wFrame 9 ftControl 0 1 0 0 0 (control 0x23 [] [])) = true := by decide +kernel
theorem witness_RingLinks_faulty :
    let f := wControl 0x23 1 []
    let g := wControl 0x23 1 [0, 9]
    frameSound (patch f 20 [0xFF]) = false ∧ frameSound g = true ∧ frameIs ftControl (some 0x23) g = true ∧ frameClean g = false
      ∧ portUp { wRing 1 with chn := { (wRing 1).chn with port := Vector.replicate 2 {} } } 0 = false := by decide +kernel
theorem witness_RingLinks_naks :
    let s := (wRing 1).modPort 0 (fun p => { p with nakOut := true, nakAt := 10 })
    (s.rport 0).nakOut = true ∧ s.glb.time < (s.rport 0).nakAt + 4000 ∧ ((wRing 1).rport 0).nakOut = false := by decide +kernel
/-- Two frames are not acknowledged, each sent `n` times; the ACK or NAK names the second. -/
def wRetry (n : Nat) : State :=
  (wRing 1).modPort 0 (fun p => { p with unacked := [(3, wControl 0x23 1 [], n)] ++ (4, wControl 0x23 1 [], n) :: [], txSeq := 5, toAck := 2 })
theorem witness_RingLinks_retry :
    let x : BitVec 12 × Bytes × Nat := (4, wControl 0x23 1 [], 1)
    let s := wRetry 1
    (s.rport 0).toAck ≠ 0 ∧ ((wRing 1).rport 0).toAck = 0 ∧ ((wRing 1).rport 0).unacked = [] ∧ (s.rport 0).unacked = [(3, wControl 0x23 1 [], 1)] ++ x :: []
      ∧ (∀ y ∈ [((3 : BitVec 12), wControl 0x23 1 [], 1)], y.1 ≠ x.1) ∧ (s.rport 0).queue = [] ∧ x.1 ≠ (s.rport 0).txSeq
      ∧ 1 < resendMax s ∧ resendMax s ≤ 9 ∧ inGroup { wRetry 9 with chn := { (wRetry 9).chn with grp := {} } } = false
      ∧ ∀ k ∈ [ftAck, ftNak],
          let f := wFrame 0 k 0 1 0 0 0 (leBytes 2 4 ++ leBytes 2 512 ++ zeros 44)
          frameSound f = true ∧ frameClean f = true ∧ fAckSeq f = x.1 ∧ frameIs k none f = true ∧ frameIs ftData none f = false := by decide +kernel
theorem witness_RingLinks_train :
    let s := { wRing 1 with prof := { (wRing 1).prof with eastLanes := 4, westLanes := 4 }, chn := { (wRing 1).chn with state := 1, port := Vector.replicate 2 { state := 1 } } }
    s.chn.enable = true ∧ widthOk s 0 4 = true ∧ s.chn.state = 1 ∧ (s.rport 0).state = 1 ∧ (s.rport (otherPort 0)).state = 1 ∧ (s.rport 0).queue = []
      ∧ ((s.modPort 1 (fun p => { p with state := 0 })).rport (otherPort 0)).state ≠ 1 := by decide +kernel
theorem witness_RingLinks_down :
    let s := { wRing 1 with chn := { (wRing 1).chn with grp := {} } }
    s.chn.state = 5 ∧ (s.rport 0).state = 2 ∧ s.chn.grp.state = 0 ∧ s.chn.addr < s.chn.members ∧ s.chn.members < 1023
      ∧ ((live .idle).rport 0).state = 0 ∧ ((live .idle).rport 0).untold = false := by decide +kernel

/-- A beacon with identifier `ident` and a priority of zeros. -/
def wBeacon (ident : Bytes) : Bytes := wFrame 7 ftBeacon 0 noAddr 0 0 0 (zeros 16 ++ ident ++ [1, 0, 0, 0] ++ zeros 12)
/-- A member before it has an address; the lowest seen so far is all ones. -/
def wFlood : State := { wRing 1 with chn := { (wRing 1).chn with state := 2, addr := noAddr, lowest := List.replicate 16 0xFF, grp := {} } }
theorem witness_RingLinks_beacon :
    ∃ ident ∈ [zeros 16, List.replicate 16 (1 : Byte)], ident ≠ deviceIdent ∧ slice (fPayload (wBeacon ident)) 16 16 ≠ deviceIdent
      ∧ Claims.Accepted 0 (wBeacon ident) ftBeacon none wFlood ∧ wFlood.chn.state = 2 ∧ u8 (fPayload (wBeacon ident)) 32 = 1
      ∧ (u8 (fPayload (wBeacon ident)) 35).testBit 0 = false ∧ beNat (slice (fPayload (wBeacon ident)) 0 16) < beNat wFlood.chn.lowest := by
  have h : ∀ ident ∈ [zeros 16, List.replicate 16 (1 : Byte)], slice (fPayload (wBeacon ident)) 16 16 = ident
      ∧ Claims.Accepted 0 (wBeacon ident) ftBeacon none wFlood ∧ wFlood.chn.state = 2 ∧ u8 (fPayload (wBeacon ident)) 32 = 1
      ∧ (u8 (fPayload (wBeacon ident)) 35).testBit 0 = false ∧ beNat (slice (fPayload (wBeacon ident)) 0 16) < beNat wFlood.chn.lowest := by
    unfold Claims.Accepted; decide +kernel
  by_cases e : zeros 16 = deviceIdent
  · have hi : List.replicate 16 (1 : Byte) ≠ deviceIdent := by rw [← e]; decide
    have h1 := h (List.replicate 16 1) (by simp)
    exact ⟨List.replicate 16 1, by simp, hi, by rw [h1.1]; exact hi, h1.2⟩
  · have h1 := h (zeros 16) (by simp)
    exact ⟨zeros 16, by simp, e, by rw [h1.1]; exact e, h1.2⟩
theorem witness_RingLinks_token :
    let f := wFrame 7 ftToken 0 noAddr 0 0 0 (leBytes 2 1 ++ zeros 14 ++ List.replicate 16 0xFF ++ zeros 16)
    Claims.Accepted 0 f ftToken none wFlood ∧ wFlood.chn.state = 2 ∧ wFlood.chn.anchor = false ∧ wFlood.chn.addr = noAddr ∧ (tokenOf f).anchor = wFlood.chn.lowest := by
  unfold Claims.Accepted; decide +kernel
set_option maxRecDepth 100000 in
theorem witness_RingLinks_attest :
    let f := wFrame 7 ftAttest 0 1 0 0 0 ([1, 0] ++ leBytes 2 100 ++ zeros 2044)
    Claims.Accepted 0 f ftAttest none (wRing 1) ∧ u8 (fPayload f) 0 = 1 ∧ ((wRing 1).rport 0).step = 0 := by unfold Claims.Accepted; decide +kernel
/-- A ROSTER of member 2. -/
def wRoster (ident : Bytes) : Bytes := wFrame 7 ftControl 0 noAddr 0 0 0 (control 0x01 [] (leBytes 2 2 ++ [1, 0] ++ leBytes 4 900 ++ ident))
theorem witness_RingLinks_roster :
    ∃ ident ∈ [zeros 16, List.replicate 16 (1 : Byte)], slice (fBody (wRoster ident)) 8 16 ≠ deviceIdent ∧ Claims.Accepted 0 (wRoster ident) ftControl (some 0x01) (wRing 1)
      ∧ fDst (wRoster ident) = noAddr ∧ fSrc (wRoster ident) ≠ (wRing 1).chn.addr ∧ strangeGroup (wRing 1) (wRoster ident) = false := by
  have h : ∀ ident ∈ [zeros 16, List.replicate 16 (1 : Byte)], slice (fBody (wRoster ident)) 8 16 = ident ∧ Claims.Accepted 0 (wRoster ident) ftControl (some 0x01) (wRing 1)
      ∧ fDst (wRoster ident) = noAddr ∧ fSrc (wRoster ident) ≠ (wRing 1).chn.addr ∧ strangeGroup (wRing 1) (wRoster ident) = false := by unfold Claims.Accepted; decide +kernel
  by_cases e : zeros 16 = deviceIdent
  · have h1 := h (List.replicate 16 1) (by simp)
    exact ⟨List.replicate 16 1, by simp, by rw [h1.1, ← e]; decide, h1.2⟩
  · have h1 := h (zeros 16) (by simp)
    exact ⟨zeros 16, by simp, by rw [h1.1]; exact e, h1.2⟩
theorem witness_RingLinks_strange :
    let f := wFrame 7 ftControl 0 noAddr 0 0 0 (control 0x01 (ascii "GROUP-02") (leBytes 2 2 ++ [1, 0] ++ leBytes 4 900 ++ zeros 16))
    Claims.Accepted 0 f ftControl (some 0x01) (wRing 1) ∧ fDst f = noAddr ∧ fSrc f ≠ (wRing 1).chn.addr ∧ strangeGroup (wRing 1) f = true := by
  unfold Claims.Accepted; decide +kernel
theorem witness_RingLinks_topology :
    let f := wFrame 7 ftControl 0 noAddr 0 0 0 (control 0x02 [] (leBytes 1 6 ++ [0] ++ leBytes 2 2))
    let s := { wRing 1 with chn := { (wRing 1).chn with grp := {} } }
    Claims.Accepted 0 f ftControl (some 0x02) s ∧ fDst f = noAddr ∧ fSrc f ≠ s.chn.addr ∧ s.chn.state = 5 ∧ s.chn.grp.state = 0 ∧ fGroup f = zeros 8 := by
  unfold Claims.Accepted; decide +kernel

theorem witness_GroupsFormAndWork_messages :
    ∀ m ∈ [0x10, 0x11, 0x12, 0x20, 0x21, 0x22, 0x23, 0x24, 0x30, 0x40, 0x41],
      Claims.ForGroup 0 (wControl m 1 []) m (wRing 1) ∧ Claims.ForGroup 0 (wControl m 1 []) m (wRing 0) := by
  unfold Claims.ForGroup Claims.Accepted; decide +kernel
theorem witness_GroupsFormAndWork_noGroup :
    let f := wFrame 7 ftControl 0 1 1 0 0 (control 0x23 [] [])
    Claims.ForGroup 0 f 0x23 (wRing 1) ∧ fGroup f = zeros 8 := by unfold Claims.ForGroup Claims.Accepted; decide +kernel
/-- The same group while it forms; the serials of positions `l` have come. -/
def wForming (p : Nat) (l : List (Nat × Bytes)) : State := { wRing p with chn := { (wRing p).chn with grp := { (wRing p).chn.grp with state := 1, serials := l } } }
theorem witness_GroupsFormAndWork_answer :
    isOrigin (wForming 0 []) = true ∧ (wForming 0 []).chn.grp.state = 1 ∧ Claims.ForGroup 0 (wControl 0x11 1 []) 0x11 (wForming 0 [])
      ∧ 2 < (wForming 0 []).chn.grp.size ∧ 2 ≠ fPos (wControl 0x11 1 []) ∧ (wForming 0 []).chn.grp.serials.lookup 2 = none := by
  unfold Claims.ForGroup Claims.Accepted; decide +kernel
set_option maxRecDepth 100000 in
theorem witness_GroupsFormAndWork_start :
    let l := [(0, zeros 16), (1, zeros 16), (2, zeros 16)]
    let s := wForming 1 l
    let f := wControl 0x13 0 (leBytes 4 4 ++ leBytes 4 2 ++ crcBytes (zeros 48))
    Claims.ForGroup 0 f 0x13 s ∧ s.cart.writes = true ∧ { s.cart with writes := false }.writes = false ∧ s.chn.grp.state = 1 ∧ allSerials s.chn.grp = some [zeros 16, zeros 16, zeros 16]
      ∧ slice (fBody f) 8 4 = crcBytes ([zeros 16, zeros 16, zeros 16].flatMap (padTo 16))
      ∧ Claims.ForGroup 0 (wControl 0x13 0 []) 0x13 s ∧ slice (fBody (wControl 0x13 0 [])) 8 4 ≠ crcBytes ([zeros 16, zeros 16, zeros 16].flatMap (padTo 16)) := by
  unfold Claims.ForGroup Claims.Accepted; decide +kernel
/-- A group at work with a stripe begun, and one held at the origin. -/
def wWork (p : Nat) : State :=
  { wRing p with
    chn := { (wRing p).chn with grp := { (wRing p).chn.grp with
      stripes := [{ stripe := 4, handle := some 3 }], held := [{ stripe := 4, position := 1, ds := { id := 9, kind := 1 } }]
      wanted := [{ position := 1, stripe := 4, first := 0, count := 8 }] } } }
/-- A row of stripe 4 for position 1. -/
def wRow : Bytes := wFrame 7 ftData 0 1 1 5 4 (zeros 2048)
set_option maxRecDepth 1000000 in
theorem witness_GroupsFormAndWork_sound : frameSound wRow = true := by decide +kernel
theorem witness_GroupsFormAndWork_row :
    let s := wWork 1
    portUp s 0 = true ∧ frameIs ftData none wRow = true ∧ frameClean wRow = true ∧ fSeq wRow = (s.rport 0).rxSeq ∧ fDst wRow = s.chn.addr
      ∧ isTarget s wRow = true ∧ nextStripe s ≤ fStripe wRow ∧ s.chn.grp.stripes = [{ stripe := 4, handle := some 3 }] ∧ fStripe wRow = 4
      ∧ s.chn.grp.sessionEnd = none ∧ (s.pan 3).low = s.chn.grp.xoffSent := by decide +kernel
theorem witness_GroupsFormAndWork_origin :
    isOrigin (wWork 0) = true ∧ (wRing 0).chn.grp.held = [] ∧ (wRing 0).chn.grp.isLost 1 = false
      ∧ 1 ∈ HeldDs.targets (wWork 0).chn.grp { stripe := 4, position := 1, ds := { id := 9, kind := 1 } } ∧ 1 < (wWork 0).chn.grp.size
      ∧ { stripe := 4, position := 1, ds := { id := 9, kind := 1 } } ∈ (wWork 0).chn.grp.held := by decide +kernel
theorem witness_GroupsFormAndWork_end :
    let s := { wRing 1 with fmt := { (wRing 1).fmt with sess := some { part := 0, session := 1 } } }
    isOrigin s = false ∧ s.chn.grp.state = 2 ∧ s.chn.grp.stripes = [] ∧ nextStripe s < u32 (fBody (wControl 0x24 0 (leBytes 4 9))) 0
      ∧ Claims.ForGroup 0 (wControl 0x24 0 (leBytes 4 9)) 0x24 s ∧ u32 (fBody (wControl 0x24 0 (leBytes 4 4))) 0 ≤ nextStripe s ∧ s.fmt.sess.isSome = true ∧ inGroup s = true := by
  unfold Claims.ForGroup Claims.Accepted; decide +kernel
theorem witness_GroupsFormAndWork_request :
    let s := { wRing 1 with rtv := { (wRing 1).rtv with started := true } }
    let f := wControl 0x30 1 (leBytes 4 4 ++ leBytes 2 16 ++ leBytes 2 8)
    Claims.ForGroup 0 f 0x30 s ∧ isOrigin s = false ∧ s.chn.grp.state = 2 ∧ fPos f = s.chn.grp.position ∧ s.fmt.sess = none ∧ s.chn.grp.serve = [] ∧ s.rtv.started = true
      ∧ s.rtv.part = s.chn.grp.part ∧ s.rtv.low ≤ u32 (fBody f) 0 ∧ s.rdAt (u32 (fBody f) 0) 0 = none ∧ s.rtv.eodSeen = false ∧ u16 (fBody f) 6 ≠ 0
      ∧ u16 (fBody f) 4 < payloadRows := by unfold Claims.ForGroup Claims.Accepted; decide +kernel
/-- A row that is asked for and comes as lost: a frame of type 2 without a payload. -/
theorem witness_GroupsFormAndWork_lostRow :
    let s := wWork 0
    let f := wFrame 7 ftRead 2 1 1 5 4 []
    let r : RowReq := { position := 1, stripe := 4, first := 0, count := 8 }
    Claims.Accepted 0 f ftRead none s ∧ fDst f = s.chn.addr ∧ s.chn.addr ≠ noAddr ∧ isOrigin s = true ∧ s.chn.grp.state = 2 ∧ fOrigin f = s.chn.addr ∧ r ∈ s.chn.grp.wanted
      ∧ r.position = fPos f ∧ r.stripe = fStripe f ∧ r.first ≤ fRow f ∧ fRow f < r.first + r.count ∧ rowAt s (fStripe f) (fRow f) (fPos f) = none
      ∧ (fFlags f).testBit 1 = true := by unfold Claims.Accepted; decide +kernel

/-! ### Witnesses: SPDM, host memory -/

theorem witness_SpdmResponder_stages :
    let s := live .idle
    let rest (n : Nat) : Bytes := zeros (n - 6)
    s.glb.mode ≠ .off ∧ s.glb.mode ≠ .quench ∧ spdmOpen s = true ∧ spdmOpen { s with glb := { s.glb with boot := .testing } } = false
      ∧ { s.sec with lifecycle := 4 }.lifecycle = 4 ∧ u8 [0x10, 0x84, 0, 0] 1 = 0x84 ∧ u8 ([0x12, 0xE1] ++ zeros 18) 1 = 0xE1
      ∧ u8 ([0x12, 0xE3, 0, 0, 32, 0] ++ rest 32) 1 = 0xE3 ∧ u16 ([0x12, 0xE3, 0, 0, 32, 0] ++ rest 32) 4 = ([0x12, 0xE3, 0, 0, 32, 0] ++ rest 32).length
      ∧ 32 ≤ ([0x12, 0xE3, 0, 0, 32, 0] ++ rest 32).length := by decide +kernel
/-- A responder at its last stage, with one entry in its log. -/
def wResponder : State := { live .idle with sec := { (live .idle).sec with spdmStage := 3, ingot := [(3, zeros 384)] } }
theorem witness_SpdmResponder_ready :
    wResponder.glb.mode ≠ .off ∧ wResponder.glb.mode ≠ .quench ∧ spdmOpen wResponder = true ∧ wResponder.sec.lifecycle ≠ 4 ∧ wResponder.sec.spdmStage = 3
      ∧ u8 [0x12, 0x81, 0, 0] 0 = 0x12 ∧ u8 [0x12, 0x81, 0, 0] 1 = 0x81 := by decide +kernel
theorem witness_SpdmResponder_certificate :
    let r : Bytes := [0x12, 0x82, 0, 0, 0, 0, 0, 4]
    u8 r 0 = 0x12 ∧ u8 r 1 = 0x82 ∧ 8 ≤ r.length ∧ u8 r 2 % 16 = 0 ∧ u16 r 4 < (spdmChain wResponder).length := by
  refine ⟨by decide, by decide, by decide, by decide, ?_⟩
  rw [show u16 [0x12, 0x82, 0, 0, 0, 0, 0, 4] 4 = 0 by decide]
  simp [spdmChain, zeros] <;> omega
theorem witness_SpdmResponder_signed :
    let c : Bytes := [0x12, 0x83, 0, 0] ++ zeros 32
    let m : Bytes := [0x12, 0xE0, 0, 4]
    u8 c 0 = 0x12 ∧ u8 c 1 = 0x83 ∧ 36 ≤ c.length ∧ u8 c 2 % 16 = 0 ∧ u8 c 3 = 0 ∧ u8 m 0 = 0x12 ∧ u8 m 1 = 0xE0 ∧ 4 ≤ m.length ∧ u8 m 2 = 0 ∧ u8 m 3 = 4 := by decide +kernel
theorem witness_HostMemoryReadsBack : [1, 2, 3].length ≤ 2 ^ 64 ∧ Memory.wf (hostWrite 1 (2 ^ 64 - 1) [1, 2, 3] State.reset).hostMem = true := by decide +kernel
/-- The vendor's request for entry 0 of the log, whatever the vendor ID is. -/
def wVendor (n : Nat) : Bytes := [0x12, 0xFE, 0, 0] ++ leBytes 2 3 ++ [2] ++ leBytes 2 n ++ leBytes 2 5 ++ [1] ++ leBytes 4 0
theorem wVendor_bytes (n : Nat) :
    wVendor n = [0x12, 0xFE, 0, 0, 3, 0, 2, BitVec.ofNat 8 n, BitVec.ofNat 8 (n / 256), 5, 0, 1, 0, 0, 0, 0] := by simp [wVendor, leBytes]
theorem witness_SpdmResponder_vendor (n : Nat) (hn : n < 2 ^ 16) :
    u8 (wVendor n) 0 = 0x12 ∧ u8 (wVendor n) 1 = 0xFE ∧ 16 ≤ (wVendor n).length ∧ u16 (wVendor n) 4 = 3 ∧ u8 (wVendor n) 6 = 2 ∧ u16 (wVendor n) 7 = n
      ∧ u16 (wVendor n) 9 = 5 ∧ u8 (wVendor n) 11 = 1 ∧ u32 (wVendor n) 12 = 0 := by
  rw [wVendor_bytes]
  simp [u8, u16, u32, leAt, leNat, slice]
  omega
theorem witness_SpdmResponder_vendorId : Config.vendorId.toNat < 2 ^ 16 := Config.vendorId.isLt
theorem witness_SpdmResponder_log : wResponder.sec.ingot ≠ [] ∧ max 0 (ingotOldest wResponder) ≤ ingotHead wResponder := by decide +kernel

/-! ### Values that standards and the spec work out -/

/-- The S-box table is the inverse in the field under the affine map (FIPS 197), and the inverse table undoes it. -/
theorem test_sbox :
    ∀ a : Fin 256, Aes.sub (BitVec.ofNat 8 a.val) = Aes.sboxOf (BitVec.ofNat 8 a.val)
      ∧ Aes.subInv (Aes.sub (BitVec.ofNat 8 a.val)) = BitVec.ofNat 8 a.val := by decide +kernel
/-- FIPS 197, appendix C.3. -/
theorem test_aes_fips197 :
    Aes.encryptBlock (Aes.roundKeys ((List.range 32).map (BitVec.ofNat 8))) ((List.range 16).map (fun i => BitVec.ofNat 8 (17 * i)))
      = beBytes 16 0x8ea2b7ca516745bfeafc49904b496089 := by decide +kernel
/-- The worked example of 02_ff3_format.md: rows 7, 8 and 21 of sub-dataset 1, and the seed of channel 102. -/
theorem test_layout_example : nominalIndex 1 7 = 230 ∧ nominalIndex 1 8 = 267 ∧ nominalIndex 1 21 = 698 ∧ scramblerSeed 102 = 0xA821 := by decide +kernel
/-- The worked example of 03_compression.md: ten bytes under the TEXT seed at effort 1. -/
theorem test_block_example :
    let b := codeBlock 1 .text { continues := true, endsOpen := true, firstFrame := none } (ascii "seed seeds")
    b.length = 32 ∧ b.take 12 = [0x35, 0xF3, 0x0A, 0, 0, 0x10, 0, 0, 0xFF, 0xFF, 0xFF, 0]
      ∧ slice b 16 8 = [0xD4, 0xA5, 0x9B, 0x35, 0x2B, 0xF8, 0xD4, 0x80] ∧ slice b 28 4 = [9, 0, 0, 0] ∧ (decodeBlock b).toOption = some (ascii "seed seeds") := by
  decide +kernel
/-- The worked example of 04_cipher_and_keys.md: the IV of entry 7, the context of the session key, the counter in the AAD. -/
theorem test_key_example :
    blockIv 0x5A1C0E93 0x341C00007 = [0x5A, 0x1C, 0x0E, 0x93, 0, 0, 0, 0x03, 0x41, 0xC0, 0, 0x07]
      ∧ sessionContext (ascii "BIBX-0004-7731-Q") 1 7 0x13 = ascii "BIBX-0004-7731-Q" ++ [1, 0, 0, 0, 7, 0, 0, 0, 0x13, 0, 0, 0, 0, 0, 0, 0]
      ∧ slice (blockAad (zeros 12) 1 1 7 0x13 0x341C00007) 24 8 = [0x07, 0, 0xC0, 0x41, 0x03, 0, 0, 0] := by decide +kernel
/-- The worked example of 06_read_channel.md: E − 9 at distance 3 is chosen, the true mark at distance 5 being no candidate. -/
theorem test_mark_example : bestCand 0 ([(0, 5), (-9, 3)].filter (fun x => decide (x.2 ≤ 3))) = some (-9, 3) := by decide +kernel
/-- The worked example of 07_servo_and_motion.md: one L0 sample. Both biquads are given through their coefficients. -/
theorem test_loop_example :
    let c : List Int := [19661, -18022, 0, -16384, 0, 2]
    let l : Loop := { lim := 24576, coef := Vector.ofFn (fun i => BitVec.ofInt 16 (if i.val < 6 then c.getD i.val 0 else 0)), sec0 := { x1 := 470, w1 := 5000 }, ramp := 100 }
    (l.sample 491).sec0.w1 = 5036 ∧ (l.sample 491).output = 20144 := by decide +kernel
/-- The worked example of 08_buffer_memory.md: data line 14 of stripe 4,772,185 with eight devices of 128 GiB. -/
theorem test_line_example :
    let s := { live .idle with buf := { (live .idle).buf with nDev := 8, cap := 3 } }
    4886718336 / 1024 = 4772185 ∧ lineDev s 4772185 14 = 2 ∧ lineAt s 4772185 14 = 11930464 ∧ lineHpa s 4772185 14 = 0x402D82D800
      ∧ (List.range 20).filter (fun l => lineDev s 4772185 l == 5) = [1, 9, 17] := by decide +kernel
/-- The worked example of 13_ring_and_rait.md: the parity bytes of three data positions. -/
theorem test_rait_example : raitParity 0 1 [[0x12], [0x34], [0x56]] = [0x70] ∧ raitParity 1 1 [[0x12], [0x34], [0x56]] = [0x3F] := by decide +kernel
/-- The first decision of the worked example of 12_instances.md: shares 4, 2 and 1. -/
def wThree : State :=
  let st (k : Nat) : Machine.Stream := { str .append with sid := 20 + k, v := Fin.ofNat 64 k, items := [.mark 0], waitSince := some k }
  [(3, 4), (7, 2), (12, 1)].foldl (fun s x => s.modInst (Fin.ofNat 64 x.1) (fun i => { i with state := .active, share := x.2, shareNext := x.2 }))
    { live .append with streams := [st 3, st 7, st 12] }
theorem test_share_example :
    (match exec .slotDecision wThree with
    | .next t => decide ([(t.inst 3).credit, (t.inst 7).credit, (t.inst 12).credit] = [-3, 2, 1])
    | _ => false) = true := by decide +kernel

end Sys2Proof.Tests
end

section
/-! PROOFS. The hand-overs of parameter sets (R117 to R119, R167): what one commit, a commit of the whole map, a servo-frame boundary and
a write to a set of a write channel leave, and the statement on parameter sets. -/

namespace Sys2Proof.Machine

/-! ### Commits -/

theorem vset_self {α : Type} {n : Nat} (v : Vector α n) (i : Fin n) : vset v i v[i] = v := by simp [vset]

theorem WChan.commit_eq (w : WChan) (n : Nat) : w.commit n = { w with pending := some (w.pending.getD n) } := by
  unfold WChan.commit
  cases h : w.pending with
  | none => rfl
  | some k => exact congrArg (fun p => { w with pending := p }) h

theorem RChan.commit_eq (r : RChan) (n : Nat) : r.commit n = { r with pending := some (r.pending.getD n) } := by
  unfold RChan.commit
  cases h : r.pending with
  | none => rfl
  | some k => exact congrArg (fun p => { r with pending := p }) h

/-- A channel that waits keeps its boundary, so that a second commit changes nothing. -/
theorem WChan.commit_commit (n : Nat) (w : WChan) : (w.commit n).commit n = w.commit n := by simp [WChan.commit_eq]
theorem RChan.commit_commit (n : Nat) (r : RChan) : (r.commit n).commit n = r.commit n := by simp [RChan.commit_eq]

theorem commitWait_eq (s : State) (bitsLeft : Nat) : commitWait s bitsLeft = if s.fmt.motion = .stopped ∨ 64 ≤ bitsLeft then 0 else 1 := by
  simp [commitWait]

/-! ### Commits of every channel of the map -/

/-- Every channel that the map `m` names, changed by `f`. -/
def vmodMap {α : Type} (f : α → α) (m : List Nat) (v : Vector α 128) : Vector α 128 := m.foldl (fun v k => vmod v (Fin.ofNat 128 k) f) v

/-- A map may name a channel more than once: what changes it is done once where `f` done twice is `f`. -/
theorem vmodMap_getElem {α : Type} {f : α → α} (hf : ∀ x, f (f x) = f x) (c : Chan) (m : List Nat) (v : Vector α 128) :
    (vmodMap f m v)[c] = if c.val ∈ m.map (· % 128) then f v[c] else v[c] := by
  induction m generalizing v with
  | nil => rfl
  | cons k m ih =>
    have step : (vmodMap f (k :: m) v)[c] = if c.val ∈ m.map (· % 128) then f (vmod v (Fin.ofNat 128 k) f)[c] else (vmod v (Fin.ofNat 128 k) f)[c] := ih _
    rw [step]
    by_cases hk : Fin.ofNat 128 k = c
    · have hc : c.val = k % 128 := by rw [← hk]; rfl
      rw [hk, vmod_same, hf]
      simp [hc]
    · have hc : c.val ≠ k % 128 := fun e => hk (Fin.ext e.symm)
      rw [vmod_other _ _ _ _ hk]
      simp [hc]

theorem foldl_writeCommit (bitsLeft : Nat) (m : List Nat) (s : State) :
    m.foldl (fun s k => writeCommit (Fin.ofNat 128 k) bitsLeft s) s = { s with wch := vmodMap (·.commit (commitWait s bitsLeft)) m s.wch } := by
  induction m generalizing s with
  | nil => rfl
  | cons k m ih => exact ih _

theorem foldl_readCommit (bitsLeft : Nat) (m : List Nat) (s : State) :
    m.foldl (fun s k => readCommit (Fin.ofNat 128 k) bitsLeft s) s = { s with rch := vmodMap (·.commit (commitWait s bitsLeft)) m s.rch } := by
  induction m generalizing s with
  | nil => rfl
  | cons k m ih => exact ih _

theorem writeCommitAll_eq (bitsLeft : Nat) (s : State) :
    writeCommitAll bitsLeft s = { s with fmt.wswap := true, wch := vmodMap (·.commit (commitWait s bitsLeft)) s.fmt.map s.wch } :=
  foldl_writeCommit _ _ _

theorem readCommitAll_eq (bitsLeft : Nat) (s : State) :
    readCommitAll bitsLeft s = { s with rdc.rswap := true, rch := vmodMap (·.commit (commitWait s bitsLeft)) s.fmt.map s.rch } :=
  foldl_readCommit _ _ _

/-! ### Boundaries -/

theorem WChan.boundary_due (lx : Nat) {w : WChan} (h : w.pending = some 0) :
    w.boundary lx = { w with pending := none, activeB := !w.activeB, swapLx := BitVec.ofNat 16 lx } := by simp only [WChan.boundary, h]
theorem WChan.boundary_later (lx : Nat) {w : WChan} {k : Nat} (h : w.pending = some (k + 1)) : w.boundary lx = { w with pending := some k } := by
  simp only [WChan.boundary, h]
theorem WChan.boundary_none (lx : Nat) {w : WChan} (h : w.pending = none) : w.boundary lx = w := by simp only [WChan.boundary, h]

theorem RChan.boundary_due (lx : Nat) {r : RChan} (h : r.pending = some 0) :
    r.boundary lx = { r with pending := none, activeB := !r.activeB, swapLx := BitVec.ofNat 16 lx, low := List.replicate 10 0 } := by
  simp only [RChan.boundary, h]
theorem RChan.boundary_later (lx : Nat) {r : RChan} {k : Nat} (h : r.pending = some (k + 1)) : r.boundary lx = { r with pending := some k } := by
  simp only [RChan.boundary, h]
theorem RChan.boundary_none (lx : Nat) {r : RChan} (h : r.pending = none) : r.boundary lx = r := by simp only [RChan.boundary, h]

theorem frameBoundary_stopped (line : HeadLine) (lx : Nat) {s : State} (h : s.fmt.motion = .stopped) : frameBoundary line lx s = s := if_pos h

theorem frameBoundary_write (lx : Nat) {s : State} (h : s.fmt.motion ≠ .stopped) :
    (frameBoundary .write lx s).wch = s.wch.map (WChan.boundary lx) ∧ (frameBoundary .write lx s).rch = s.rch
      ∧ (frameBoundary .write lx s).rdc = s.rdc := by
  simp [frameBoundary, h]

theorem frameBoundary_read (lx : Nat) {s : State} (h : s.fmt.motion ≠ .stopped) :
    (frameBoundary .read lx s).rch = s.rch.map (RChan.boundary lx) ∧ (frameBoundary .read lx s).wch = s.wch
      ∧ (frameBoundary .read lx s).fmt = s.fmt := by
  simp [frameBoundary, h]

/-! ### Writes to the sets of a write channel -/

theorem WChan.put_active {b : Bool} (v : Word) {w : WChan} (h : w.activeB = b) : w.put b v = w := if_pos h
theorem WChan.put_locked {b : Bool} (v : Word) {w : WChan} (h : w.activeB ≠ b) (hp : w.pending.isSome = true) :
    w.put b v = { w with shadowLocked := true } := by
  simp only [WChan.put, if_neg h, if_pos hp]
theorem WChan.put_shadow {b : Bool} (v : Word) {w : WChan} (h : w.activeB ≠ b) (hp : w.pending = none) :
    w.put b v = if b then { w with setB := v &&& 0x1FFFF } else { w with setA := v &&& 0x1FFFF } := by
  simp [WChan.put, h, hp]

/-- The registers of the write channels lie outside the steward's (R381). -/
theorem stewardAt_wch {off : Nat} (lo : 0x9000 ≤ off) (hi : off < 0x9800) : stewardAt off = false := by
  simp only [stewardAt, List.any_cons, List.any_nil, Bool.or_false, Bool.and_eq_false_imp, beq_iff_eq, Bool.or_eq_false_iff,
    decide_eq_true_eq, decide_eq_false_iff_not, Nat.not_le, Bool.and_eq_true, and_imp]
  omega

theorem hostWriteReg_wch {o : Nat} (v : Word) {s : State} (hs : s.glb.mode.served = true) (ho : o < 0x800) (ha : o % 4 = 0) :
    hostWriteReg false (0x9000 + o) v s = writeWch o v s := by
  have hsteward : stewardAt (0x9000 + o) = false := stewardAt_wch (by omega) (by omega)
  have hblock : (0x9000 + o) / 0x1000 = 0x9 := by omega
  have hoff : (0x9000 + o) % 0x1000 = o := by omega
  have haligned : (0x9000 + o) % 4 = 0 := by omega
  have hbar : ¬ 0x10000 ≤ 0x9000 + o := by omega
  simp only [hostWriteReg, hs, writeReg, hsteward, hblock, hoff, haligned, hbar]
  rfl

theorem writeWch_set (c : Chan) (b : Bool) (v : Word) (s : State) :
    writeWch (16 * c.val + if b then 4 else 0) v s = { s with wch := vmod s.wch c (WChan.put b v) } := by
  have hchan (k : Nat) (hk : k < 16) : Fin.ofNat 128 ((16 * c.val + k) / 16) = c := Fin.ext (by simp only [Fin.ofNat]; omega)
  have hlow (k : Nat) (hk : k < 16) : (16 * c.val + k) % 16 = k := by omega
  have hin (k : Nat) (hk : k < 16) : 16 * c.val + k < 0x800 := by omega
  cases b with
  | false =>
    show writeWch (16 * c.val + 0) v s = _
    simp only [writeWch, if_pos (hin 0 (by decide)), hlow 0 (by decide), hchan 0 (by decide)]
  | true =>
    show writeWch (16 * c.val + 4) v s = _
    simp only [writeWch, if_pos (hin 4 (by decide)), hlow 4 (by decide), hchan 4 (by decide)]

/-- REGISTER_WRITE of 32 bits to an aligned offset of BAR0. -/
theorem exec_registerWrite_word {off : Nat} (v : Word) (s : State) (ha : off % 4 = 0) :
    exec (.registerWrite false off v none) s = .next (hostWriteReg false off v s) :=
  congrArg Host.Outcome.next (if_pos (by simp [wellFormedAccess, ha]))

/-- REGISTER_WRITE to set A or B of a write channel. -/
theorem exec_registerWrite_set (c : Chan) (b : Bool) (v : Word) {s : State} (hs : s.glb.mode.served = true) :
    exec (.registerWrite false (0x9000 + 16 * c.val + if b then 4 else 0) v none) s = .next { s with wch := vmod s.wch c (WChan.put b v) } := by
  have hbound : (16 * c.val + if b then 4 else 0) < 0x800 := by split <;> omega
  have haligned : (16 * c.val + if b then 4 else 0) % 4 = 0 := by split <;> omega
  have hword : (0x9000 + (16 * c.val + if b then 4 else 0)) % 4 = 0 := by omega
  rw [Nat.add_assoc, exec_registerWrite_word v s hword, hostWriteReg_wch v hs hbound haligned, writeWch_set]

/-! ### The rows -/

theorem exec_writeSetCommit (c : Chan) (bitsLeft : Nat) {s : State} (hs : s.glb.mode.served = true) :
    exec (.writeSetCommit c bitsLeft) s
      = .next { s with wch := vset s.wch c { s.wch[c] with pending := some (s.wch[c].pending.getD (commitWait s bitsLeft)) } } := by
  rw [← WChan.commit_eq]
  exact congrArg Host.Outcome.next (if_pos hs)

theorem exec_readSetCommit (c : Chan) (bitsLeft : Nat) {s : State} (hs : s.glb.mode.served = true) :
    exec (.readSetCommit c bitsLeft) s
      = .next { s with rch := vset s.rch c { s.rch[c] with pending := some (s.rch[c].pending.getD (commitWait s bitsLeft)) } } := by
  rw [← RChan.commit_eq]
  exact congrArg Host.Outcome.next (if_pos hs)

theorem exec_writeCommitAll (bitsLeft : Nat) {s : State} (hs : s.glb.mode.served = true) :
    exec (.writeCommitAll bitsLeft) s = .next (writeCommitAll bitsLeft s) := congrArg Host.Outcome.next (if_pos hs)

theorem exec_readCommitAll (bitsLeft : Nat) {s : State} (hs : s.glb.mode.served = true) :
    exec (.readCommitAll bitsLeft) s = .next (readCommitAll bitsLeft s) := congrArg Host.Outcome.next (if_pos hs)

theorem exec_servoFrameBoundary (line : HeadLine) (lx : Nat) (s : State) :
    exec (.servoFrameBoundary line lx) s = .next (frameBoundary line lx s) := rfl

/-! ### A commit of all, on one channel -/

theorem writeCommitAll_wch (c : Chan) (bitsLeft : Nat) (s : State) :
    (writeCommitAll bitsLeft s).wch[c] = if c.val ∈ s.fmt.map.map (· % 128) then s.wch[c].commit (commitWait s bitsLeft) else s.wch[c] := by
  rw [writeCommitAll_eq]
  exact vmodMap_getElem (WChan.commit_commit _) c _ _

theorem readCommitAll_rch (c : Chan) (bitsLeft : Nat) (s : State) :
    (readCommitAll bitsLeft s).rch[c] = if c.val ∈ s.fmt.map.map (· % 128) then s.rch[c].commit (commitWait s bitsLeft) else s.rch[c] := by
  rw [readCommitAll_eq]
  exact vmodMap_getElem (RChan.commit_commit _) c _ _

end Sys2Proof.Machine

namespace Sys2Proof.Claims
open Sys2Proof.Machine

theorem gives_writeCommitAll (c : Chan) (bitsLeft : Nat) {s : State} (hs : s.glb.mode.served = true) :
    Gives (exec (.writeCommitAll bitsLeft) s) fun t =>
      t.fmt = { s.fmt with wswap := true } ∧ t.rch = s.rch ∧ t.rdc = s.rdc
        ∧ (c.val ∈ s.fmt.map.map (· % 128) → t.wch[c] = { s.wch[c] with pending := some (s.wch[c].pending.getD (commitWait s bitsLeft)) })
        ∧ (c.val ∉ s.fmt.map.map (· % 128) → t.wch[c] = s.wch[c]) := by
  refine ⟨_, exec_writeCommitAll bitsLeft hs, ?_, ?_, ?_, fun hc => ?_, fun hc => ?_⟩
  · rw [writeCommitAll_eq]
  · rw [writeCommitAll_eq]
  · rw [writeCommitAll_eq]
  · rw [writeCommitAll_wch, if_pos hc, WChan.commit_eq]
  · rw [writeCommitAll_wch, if_neg hc]

theorem gives_readCommitAll (c : Chan) (bitsLeft : Nat) {s : State} (hs : s.glb.mode.served = true) :
    Gives (exec (.readCommitAll bitsLeft) s) fun t =>
      t.rdc = { s.rdc with rswap := true } ∧ t.wch = s.wch ∧ t.fmt = s.fmt
        ∧ (c.val ∈ s.fmt.map.map (· % 128) → t.rch[c] = { s.rch[c] with pending := some (s.rch[c].pending.getD (commitWait s bitsLeft)) })
        ∧ (c.val ∉ s.fmt.map.map (· % 128) → t.rch[c] = s.rch[c]) := by
  refine ⟨_, exec_readCommitAll bitsLeft hs, ?_, ?_, ?_, fun hc => ?_, fun hc => ?_⟩
  · rw [readCommitAll_eq]
  · rw [readCommitAll_eq]
  · rw [readCommitAll_eq]
  · rw [readCommitAll_rch, if_pos hc, RChan.commit_eq]
  · rw [readCommitAll_rch, if_neg hc]

theorem gives_writeBoundary (c : Chan) (lx : Nat) {s : State} (hm : s.fmt.motion ≠ .stopped) :
    Gives (exec (.servoFrameBoundary .write lx) s) fun t =>
      (s.wch[c].pending = some 0 → t.wch[c] = { s.wch[c] with pending := none, activeB := !s.wch[c].activeB, swapLx := BitVec.ofNat 16 lx })
        ∧ (s.wch[c].pending = none → t.wch[c] = s.wch[c])
        ∧ (∀ k, s.wch[c].pending = some (k + 1) → t.wch[c] = { s.wch[c] with pending := some k }) ∧ t.rch = s.rch ∧ t.rdc = s.rdc := by
  obtain ⟨hwch, hrch, hrdc⟩ := frameBoundary_write lx hm
  have hc : (frameBoundary .write lx s).wch[c] = s.wch[c].boundary lx := by simp [hwch]
  exact ⟨_, exec_servoFrameBoundary .write lx s, fun h => hc.trans (WChan.boundary_due lx h), fun h => hc.trans (WChan.boundary_none lx h),
    fun k h => hc.trans (WChan.boundary_later lx h), hrch, hrdc⟩

theorem gives_readBoundary (c : Chan) (lx : Nat) {s : State} (hm : s.fmt.motion ≠ .stopped) :
    Gives (exec (.servoFrameBoundary .read lx) s) fun t =>
      (s.rch[c].pending = some 0 → t.rch[c] =
          { s.rch[c] with pending := none, activeB := !s.rch[c].activeB, swapLx := BitVec.ofNat 16 lx, low := List.replicate 10 0 })
        ∧ (s.rch[c].pending = none → t.rch[c] = s.rch[c])
        ∧ (∀ k, s.rch[c].pending = some (k + 1) → t.rch[c] = { s.rch[c] with pending := some k }) ∧ t.wch = s.wch ∧ t.fmt = s.fmt := by
  obtain ⟨hrch, hwch, hfmt⟩ := frameBoundary_read lx hm
  have hc : (frameBoundary .read lx s).rch[c] = s.rch[c].boundary lx := by simp [hrch]
  exact ⟨_, exec_servoFrameBoundary .read lx s, fun h => hc.trans (RChan.boundary_due lx h), fun h => hc.trans (RChan.boundary_none lx h),
    fun k h => hc.trans (RChan.boundary_later lx h), hwch, hfmt⟩

theorem parameterSetsSwap : ParameterSetsSwap := by
  intro c bitsLeft s n
  have hn : commitWait s bitsLeft = n := commitWait_eq s bitsLeft
  rw [← hn]
  refine ⟨fun hs => ⟨?_, ?_, ?_, ?_⟩, fun lx hm => ⟨?_, ?_⟩, fun line lx hm => ?_⟩
  · exact exec_writeSetCommit c bitsLeft hs
  · exact exec_readSetCommit c bitsLeft hs
  · exact gives_writeCommitAll c bitsLeft hs
  · exact gives_readCommitAll c bitsLeft hs
  · exact gives_writeBoundary c lx hm
  · exact gives_readBoundary c lx hm
  · rw [exec_servoFrameBoundary, frameBoundary_stopped line lx hm]

theorem shadowLocks : ShadowLocks := by
  intro c b v s hs
  refine ⟨fun ha => ?_, fun ha hp => ?_, fun ha hp => ?_⟩ <;> rw [exec_registerWrite_set c b v hs, vmod]
  · rw [WChan.put_active v ha, vset_self]
  · rw [WChan.put_locked v ha hp]
  · rw [WChan.put_shadow v ha hp]

end Sys2Proof.Claims

/-- Settles O34: the rows of the commits and of the boundaries, and the writes to a write channel's sets. -/
theorem Sys2Proof.parameterSets : Obligations.ParameterSets := ⟨Sys2Proof.Claims.parameterSetsSwap, Sys2Proof.Claims.shadowLocks⟩
end

section
/-! PROOFS. Queries of the ring and of the fill, and the definition of a group (R276, R307, R311, R319): what a row of a management
opcode runs, what CHAIN_STATUS, RAIT_GROUP_SET and BUFFER_FILL_STATUS leave, and a state in which RAIT_GROUP_SET is taken. -/

open Sys2Proof.Machine

namespace Sys2Proof.Machine

/-! ### Rows of the management ring -/

theorem noTarget_iff (c : Cmd) : noTarget c = true ↔ c.target = 0xFFFF := beq_iff_eq

theorem aligned64_iff (a : Nat) : aligned64 a = true ↔ a % 64 = 0 := beq_iff_eq

/-- A row whose command may start runs the command, in PEWTER where that is served (R380). -/
theorem mgmtCmd_started {cid : Cid} {op : Nat} {c : Cmd} {s : State} (f : Cmd → State → State) (h : startableMgmt s cid op = some c)
    (hm : s.glb.mode ≠ .pewter ∨ pewterServes op = true) : mgmtCmd cid op f s = f c s := by
  have hserved : ¬ (decide (s.glb.mode = .pewter) && !pewterServes op) = true := by
    obtain hmode | hop := hm
    · rw [decide_eq_false hmode, Bool.false_and]
      exact Bool.false_ne_true
    · rw [hop, Bool.not_true, Bool.and_false]
      exact Bool.false_ne_true
  simp only [mgmtCmd, h, if_neg hserved]

/-- A row of the sub-operation that the descriptor names runs it. -/
theorem subCmd_started {cid : Cid} {op n last : Nat} {c : Cmd} {s : State} (f : Cmd → State → State) (h : startableMgmt s cid op = some c)
    (hm : s.glb.mode ≠ .pewter) (hn : u8 c.desc 8 = n) : subCmd cid op n last f s = f c s :=
  (mgmtCmd_started _ h (.inl hm)).trans (if_pos hn)

/-! ### The commands, where nothing is wrong with the descriptor -/

/-- The form check of a command that names no instance: reserved bytes 0 and no target. -/
theorem not_formFault {c : Cmd} {used : List (Nat × Nat)} (ht : c.target = 0xFFFF) (hr : reservedZero c.desc used = true) :
    ¬ (!reservedZero c.desc used || !noTarget c) = true := by
  rw [hr, (noTarget_iff c).mpr ht]
  exact Bool.false_ne_true

theorem chainStatus_done {c : Cmd} {s : State} (ht : c.target = 0xFFFF) (hr : reservedZero c.desc [(16, 12)] = true)
    (ha : u64 c.desc 16 % 64 = 0) (hlen : 32 * s.chn.roster.length ≤ u32 c.desc 24) :
    chainStatus c s
      = mOk c s.chn.roster.length s.chn.rt s.chn.state (hostWrite 0 (u64 c.desc 16) (s.chn.roster.flatMap chainEntry) s) := by
  have haligned : ¬ (!aligned64 (u64 c.desc 16)) = true := by
    rw [(aligned64_iff _).mpr ha]
    exact Bool.false_ne_true
  have hfits : ¬ u32 c.desc 24 < 32 * s.chn.roster.length := Nat.not_lt.mpr hlen
  simp only [chainStatus, if_neg (not_formFault ht hr), if_neg haligned, if_neg hfits]

/-- What a definition without fault leaves before the command completes: the group defined, the others asked or answered. -/
def groupAsked (g : Group) (s : State) : State :=
  let u := powerFor s.glb.mode { s with chn.grp := g }
  if g.position = 0 then sendJoins u else sendAnswer u

theorem raitSet_done {c : Cmd} {s : State} (ht : c.target = 0xFFFF) (hr : reservedZero c.desc [(8, 5), (16, 16)] = true)
    (hg : groupSetFault s c.desc (groupOf s c.desc) = none) :
    raitSet c s = mOk c 0 0 ((groupOf s c.desc).position + 256 * bit ((groupAsked (groupOf s c.desc) s).chn.grp.state == 2))
      (groupAsked (groupOf s c.desc) s) := by
  simp only [raitSet, if_neg (not_formFault ht hr), hg, groupAsked]

theorem raitClear_done {c : Cmd} {s : State} (ht : c.target = 0xFFFF) (hr : reservedZero c.desc [(8, 5), (16, 16)] = true) :
    raitClear c s = mOk c 0 0 s.chn.grp.position
      (settleWaits (if inGroup s then failGroup (tellAll 0x41 0 (leBytes 1 2) s) else s)) :=
  if_neg (not_formFault ht hr)

theorem bufferFillStatus_done {c : Cmd} {s : State} (ht : c.target = 0xFFFF) (hr : reservedZero c.desc [] = true) :
    bufferFillStatus c s = mOk c s.buf.mark s.usable (s.buf.state + 8 * lostMask s) s := by
  rw [bufferFillStatus, Bool.or_comm]
  exact if_neg (not_formFault ht hr)

/-! ### Reads within a run -/

/-- A read within a run answers that part of the run. -/
theorem hostRead_within {s : State} {space addr i n m : Nat} (h : i + n ≤ m) :
    hostRead s space (addr + i) n = ((hostRead s space addr m).drop i).take n := by
  apply List.ext_getElem
  · simp only [hostRead, List.length_map, List.length_range, List.length_take, List.length_drop]
    omega
  · intro j _ _
    simp only [hostRead, List.getElem_take, List.getElem_drop, List.getElem_map, List.getElem_range, Nat.add_assoc]

end Sys2Proof.Machine

namespace Sys2Proof.Tests
open Sys2Proof.Claims

/-! ### A group that RAIT_GROUP_SET takes -/

/-- RAIT_GROUP_SET, set: two data members and one of parity, partition 0, the list at 0x4000. -/
def wGroup : Bytes := desc 0xB1 1 0xFFFF [(9, [2, 1]), (16, leBytes 8 0x4000)]

/-- The identifier of another device, whatever this one's is. -/
def wPeer : Bytes := deviceIdent.map (~~~ ·)

/-- A threaded part that is asked to set the group, this device at position 0. -/
def wGrouped : State :=
  hostWrite 0 0x4000 (deviceIdent ++ wPeer ++ wPeer) { asked wGroup (loaded (live .threaded)) with chn := { (live .threaded).chn with raitOk := true } }

theorem wPeer_ne_deviceIdent : wPeer ≠ deviceIdent := by
  have hflip (b : Byte) : ~~~b ≠ b := by revert b; decide
  intro h
  have h0 : ~~~Config.deviceId 0 = Config.deviceId 0 := congrArg (·.getD 0 0) h
  exact hflip _ h0

theorem hostRead_wGrouped : hostRead wGrouped 0 0x4000 48 = deviceIdent ++ wPeer ++ wPeer :=
  hostRead_hostWrite (by decide +kernel) (by decide +kernel)

theorem groupOf_wGrouped_members : (groupOf wGrouped wGroup).members = [deviceIdent, wPeer, wPeer] := by
  have hread (i : Nat) (h : i + 16 ≤ 48) : hostRead wGrouped 0 (0x4000 + i) 16 = ((deviceIdent ++ wPeer ++ wPeer).drop i).take 16 := by
    rw [← hostRead_wGrouped, hostRead_within h]
  calc (groupOf wGrouped wGroup).members
      = [hostRead wGrouped 0 (0x4000 + 0) 16, hostRead wGrouped 0 (0x4000 + 16) 16, hostRead wGrouped 0 (0x4000 + 32) 16] := rfl
    _ = [deviceIdent, wPeer, wPeer] := by rw [hread 0 (by decide), hread 16 (by decide), hread 32 (by decide)]; rfl

theorem witness_ChainAndBufferQueries_set :
    (cmd wGroup).target = 0xFFFF ∧ Served wGrouped 1 0xB1 (cmd wGroup) ∧ u8 wGroup 8 = 0 ∧ reservedZero wGroup [(8, 5), (16, 16)] = true
      ∧ groupSetFault wGrouped wGroup (groupOf wGrouped wGroup) = none := by
  have hcount : (groupOf wGrouped wGroup).members.countP (fun m => m == deviceIdent) = 1 := by
    have hself : (deviceIdent == deviceIdent) = true := beq_self_eq_true _
    have hpeer : ¬ (wPeer == deviceIdent) = true := fun h => wPeer_ne_deviceIdent (eq_of_beq h)
    rw [groupOf_wGrouped_members, List.countP_cons_of_pos (p := (· == deviceIdent)) hself,
      List.countP_cons_of_neg (p := (· == deviceIdent)) hpeer, List.countP_cons_of_neg (p := (· == deviceIdent)) hpeer, List.countP_nil]
  refine ⟨by decide +kernel, by unfold Served; decide +kernel, by decide +kernel, by decide +kernel, ?_⟩
  simp only [groupSetFault, hcount]
  rfl

end Sys2Proof.Tests

/-- Settles O19: the row of each command runs it, BUFFER_FILL_STATUS in PEWTER too (R380), and the descriptor has no fault. -/
theorem Sys2Proof.chainAndBufferQueries : Obligations.ChainAndBufferQueries := by
  intro cid c s ht
  refine ⟨?chain, ?set, ?clear, ?fill⟩
  case chain =>
    rintro ⟨hstart, hmode⟩ hr ha hlen
    exact congrArg Host.Outcome.next ((mgmtCmd_started chainStatus hstart (.inl hmode)).trans (chainStatus_done ht hr ha hlen))
  case set =>
    rintro ⟨hstart, hmode⟩ hsub hr g hg
    exact congrArg Host.Outcome.next ((subCmd_started raitSet hstart hmode hsub).trans (raitSet_done ht hr hg))
  case clear =>
    rintro ⟨hstart, hmode⟩ hsub hr
    exact congrArg Host.Outcome.next ((subCmd_started raitClear hstart hmode hsub).trans (raitClear_done ht hr))
  case fill =>
    intro hstart hr
    exact congrArg Host.Outcome.next ((mgmtCmd_started bufferFillStatus hstart (.inr rfl)).trans (bufferFillStatus_done ht hr))
end

section
/-! PROOFS. The machine as a whole: a step and the commands that wait, host memory and the parts that a command leaves as they are
(95_what_each_step_holds.md). The frame of every command (Laws/Frames.lean) and what every command keeps (Laws/Keeps.lean) are put
together here, one line for each command. -/

open Sys2Proof Sys2Proof.Machine Sys2Proof.Safety

namespace Sys2Proof.Claims

open Sys2Proof.Frames

/-! ### The parts that a command leaves -/

/-- The bit of a part in the masks of `Frames.Same`. -/
def Part.bit : Part → Nat
  | .glb => 1 | .pwr => 2 | .sec => 3 | .evt => 4 | .qs => 5 | .msix => 6 | .hif => 7 | .insts => 8 | .seqs => 9 | .streams => 10
  | .blks => 11 | .codec => 12 | .fmt => 13 | .wch => 14 | .pace => 15 | .cart => 16 | .pans => 17 | .buf => 18 | .mov => 19
  | .rch => 20 | .rdc => 21 | .rtv => 22 | .srv => 23 | .mot => 24 | .chn => 25 | .prof => 26 | .hostMem => 27 | .freeCtr => 28
  | .nextId => 29

theorem Part.kept_of_same {p : Part} {w : BitVec 30} {s t : State} (h : Same w s t) (hp : w.getLsbD p.bit = false) : p.kept s t := by
  cases p with
  | glb => exact h.glb hp
  | pwr => exact h.pwr hp
  | sec => exact h.sec hp
  | evt => exact h.evt hp
  | qs => exact h.qs hp
  | msix => exact h.msix hp
  | hif => exact h.hif hp
  | insts => exact h.insts hp
  | seqs => exact h.seqs hp
  | streams => exact h.streams hp
  | blks => exact h.blks hp
  | codec => exact h.codec hp
  | fmt => exact h.fmt hp
  | wch => exact h.wch hp
  | pace => exact h.pace hp
  | cart => exact h.cart hp
  | pans => exact h.pans hp
  | buf => exact h.buf hp
  | mov => exact h.mov hp
  | rch => exact h.rch hp
  | rdc => exact h.rdc hp
  | rtv => exact h.rtv hp
  | srv => exact h.srv hp
  | mot => exact h.mot hp
  | chn => exact h.chn hp
  | prof => exact h.prof hp
  | hostMem => exact h.hostMem hp
  | freeCtr => exact h.freeCtr hp
  | nextId => exact h.nextId hp

/-- A command whose frame is `a` leaves the parts of which no bit stands in `a`. -/
theorem kept_of_outSame {a : BitVec 30} {s : State} {o : Out} {l : List Part} (h : OutSame a s o)
    (hl : l.all (fun p => !a.getLsbD p.bit) = true) : ∀ t, o = .next t → ∀ p ∈ l, p.kept s t := by
  rintro t rfl p hp
  have hbit : a.getLsbD p.bit = false := by simpa using List.all_eq_true.mp hl p hp
  exact Part.kept_of_same h hbit

/-- Each command leaves the parts that it spares: no bit of theirs stands in the frame of its operation (Laws/Frames.lean). -/
theorem exec_spares (c : Instr) (s : State) : ∀ t, exec c s = .next t → ∀ p ∈ spared c, p.kept s t :=
  match c with
  | .openStream _ _ => kept_of_outSame (execOpenStream_same sub_refl same_refl) rfl
  | .closeStream _ _ => kept_of_outSame (execCloseStream_same sub_refl same_refl) rfl
  | .writeRecords _ _ _ => kept_of_outSame (execWriteRecords_same sub_refl same_refl) rfl
  | .streamAppend _ _ _ => kept_of_outSame (execStreamAppend_same sub_refl same_refl) rfl
  | .writeMark _ _ => kept_of_outSame (execWriteMark_same sub_refl same_refl) rfl
  | .sync _ _ => kept_of_outSame (execSync_same sub_refl same_refl) rfl
  | .readRecords _ _ => kept_of_outSame (execReadRecords_same sub_refl same_refl) rfl
  | .locate _ _ _ => kept_of_outSame (execLocate_same sub_refl same_refl) rfl
  | .space _ _ _ => kept_of_outSame (execSpace_same sub_refl same_refl) rfl
  | .readPosition _ _ => kept_of_outSame (execReadPosition_same sub_refl same_refl) rfl
  | .slotBind _ _ => kept_of_outSame (execSlotBind_same sub_refl same_refl) rfl
  | .slotRekey _ _ => kept_of_outSame (execSlotRekey_same sub_refl same_refl) rfl
  | .getStats _ _ => kept_of_outSame (execGetStats_same sub_refl same_refl) rfl
  | .nop _ _ => kept_of_outSame (execNop_same sub_refl same_refl) rfl
  | .invalidOpcode _ _ => kept_of_outSame (execInvalidOpcode_same sub_refl same_refl) rfl
  | .instanceCreate _ => kept_of_outSame (execInstanceCreate_same sub_refl same_refl) rfl
  | .instanceShare _ => kept_of_outSame (execInstanceShare_same sub_refl same_refl) rfl
  | .instanceQuiesce _ => kept_of_outSame (execInstanceQuiesce_same sub_refl same_refl) rfl
  | .instanceReset _ => kept_of_outSame (execInstanceReset_same sub_refl same_refl) rfl
  | .instanceFreeze _ => kept_of_outSame (execInstanceFreeze_same sub_refl same_refl) rfl
  | .instanceSave _ => kept_of_outSame (execInstanceSave_same sub_refl same_refl) rfl
  | .instanceRestore _ => kept_of_outSame (execInstanceRestore_same sub_refl same_refl) rfl
  | .instanceDestroy _ => kept_of_outSame (execInstanceDestroy_same sub_refl same_refl) rfl
  | .rootImportGetPub _ => kept_of_outSame (execRootImportGetPub_same sub_refl same_refl) rfl
  | .rootImportImport _ => kept_of_outSame (execRootImportImport_same sub_refl same_refl) rfl
  | .rootErase _ => kept_of_outSame (execRootErase_same sub_refl same_refl) rfl
  | .cartLoad _ _ => kept_of_outSame (execCartLoad_same sub_refl same_refl) rfl
  | .cartUnload _ => kept_of_outSame (execCartUnload_same sub_refl same_refl) rfl
  | .cartCalibrate _ _ => kept_of_outSame (execCartCalibrate_same sub_refl same_refl) rfl
  | .chainStatus _ => kept_of_outSame (execChainStatus_same sub_refl same_refl) rfl
  | .raitGroupSet _ => kept_of_outSame (execRaitGroupSet_same sub_refl same_refl) rfl
  | .raitGroupClear _ => kept_of_outSame (execRaitGroupClear_same sub_refl same_refl) rfl
  | .logReadEntries _ => kept_of_outSame (execLogReadEntries_same sub_refl same_refl) rfl
  | .logReadCertificates _ => kept_of_outSame (execLogReadCertificates_same sub_refl same_refl) rfl
  | .serviceChallenge _ => kept_of_outSame (execServiceChallenge_same sub_refl same_refl) rfl
  | .serviceResponse _ => kept_of_outSame (execServiceResponse_same sub_refl same_refl) rfl
  | .fwStageWrite _ => kept_of_outSame (execFwStageWrite_same sub_refl same_refl) rfl
  | .fwStageFinish _ => kept_of_outSame (execFwStageFinish_same sub_refl same_refl) rfl
  | .fwStageAbandon _ => kept_of_outSame (execFwStageAbandon_same sub_refl same_refl) rfl
  | .fwActivateNext _ => kept_of_outSame (execFwActivateNext_same sub_refl same_refl) rfl
  | .fwActivateNow _ => kept_of_outSame (execFwActivateNow_same sub_refl same_refl) rfl
  | .fwActivateCommitSvn _ => kept_of_outSame (execFwActivateCommitSvn_same sub_refl same_refl) rfl
  | .fwActivateCancel _ => kept_of_outSame (execFwActivateCancel_same sub_refl same_refl) rfl
  | .bufferFillStatus _ => kept_of_outSame (execBufferFillStatus_same sub_refl same_refl) rfl
  | .hifDbSqTail _ _ _ => kept_of_outSame (execHifDbSqTail_same sub_refl same_refl) rfl
  | .hifDbCqHead _ _ => kept_of_outSame (execHifDbCqHead_same sub_refl same_refl) rfl
  | .descriptorFetch _ => kept_of_outSame (execDescriptorFetch_same sub_refl same_refl) rfl
  | .irqTimerExpiry _ => kept_of_outSame (execIrqTimerExpiry_same sub_refl same_refl) rfl
  | .pcieLinkUp _ _ => kept_of_outSame (execPcieLinkUp_same sub_refl same_refl) rfl
  | .hostFault _ => kept_of_outSame (execHostFault_same sub_refl same_refl) rfl
  | .mqEnable => kept_of_outSame (execMqEnable_same sub_refl same_refl) rfl
  | .mqDisable => kept_of_outSame (execMqDisable_same sub_refl same_refl) rfl
  | .eventRingEnable => kept_of_outSame (execEventRingEnable_same sub_refl same_refl) rfl
  | .eventRingDisable => kept_of_outSame (execEventRingDisable_same sub_refl same_refl) rfl
  | .evtRingHeadWrite _ => kept_of_outSame (execEvtRingHeadWrite_same sub_refl same_refl) rfl
  | .evtLock => kept_of_outSame (execEvtLock_same sub_refl same_refl) rfl
  | .panLock _ => kept_of_outSame (execPanLock_same sub_refl same_refl) rfl
  | .quenchCfgLock _ => kept_of_outSame (execQuenchCfgLock_same sub_refl same_refl) rfl
  | .writeSetCommit _ _ => kept_of_outSame (execWriteSetCommit_same sub_refl same_refl) rfl
  | .writeCommitAll _ => kept_of_outSame (execWriteCommitAll_same sub_refl same_refl) rfl
  | .readSetCommit _ _ => kept_of_outSame (execReadSetCommit_same sub_refl same_refl) rfl
  | .readCommitAll _ => kept_of_outSame (execReadCommitAll_same sub_refl same_refl) rfl
  | .coefWrite _ _ _ _ _ _ => kept_of_outSame (execCoefWrite_same sub_refl same_refl) rfl
  | .coefBankSwap _ _ => kept_of_outSame (execCoefBankSwap_same sub_refl same_refl) rfl
  | .loopEnable _ _ => kept_of_outSame (execLoopEnable_same sub_refl same_refl) rfl
  | .motionStop _ => kept_of_outSame (execMotionStop_same sub_refl same_refl) rfl
  | .motionBrake _ => kept_of_outSame (execMotionBrake_same sub_refl same_refl) rfl
  | .functionReset _ => kept_of_outSame (execFunctionReset_same sub_refl same_refl) rfl
  | .warmReset => kept_of_outSame (execWarmReset_same sub_refl same_refl) rfl
  | .coldResetRequest => kept_of_outSame (execColdResetRequest_same sub_refl same_refl) rfl
  | .perstAssert => kept_of_outSame (execPerstAssert_same sub_refl same_refl) rfl
  | .stewardWatchdog => kept_of_outSame (execStewardWatchdog_same sub_refl same_refl) rfl
  | .toField => kept_of_outSame (execToField_same sub_refl same_refl) rfl
  | .serviceClose => kept_of_outSame (execServiceClose_same sub_refl same_refl) rfl
  | .katStart _ => kept_of_outSame (execKatStart_same sub_refl same_refl) rfl
  | .fillRestart => kept_of_outSame (execFillRestart_same sub_refl same_refl) rfl
  | .serviceDescriptorPost => kept_of_outSame (execServiceDescriptorPost_same sub_refl same_refl) rfl
  | .retireClear => kept_of_outSame (execRetireClear_same sub_refl same_refl) rfl
  | .reassemble => kept_of_outSame (execReassemble_same sub_refl same_refl) rfl
  | .countModeWrite _ _ _ => kept_of_outSame (execCountModeWrite_same sub_refl same_refl) rfl
  | .registerWrite _ _ _ _ => kept_of_outSame (execRegisterWrite_same sub_refl same_refl) rfl
  | .malformedAccess b _ _ _ => kept_of_outSame (execMalformedAccess_same (x0 := b) sub_refl same_refl) rfl
  | .rcFieldRead _ _ _ => kept_of_outSame (execRcFieldRead_same sub_refl same_refl) rfl
  | .timeLoRead => kept_of_outSame (execTimeLoRead_same sub_refl same_refl) rfl
  | .copy _ _ => kept_of_outSame (execCopy_same sub_refl same_refl) rfl
  | .fill _ _ => kept_of_outSame (execFill_same sub_refl same_refl) rfl
  | .compare _ _ => kept_of_outSame (execCompare_same sub_refl same_refl) rfl
  | .gather _ _ => kept_of_outSame (execGather_same sub_refl same_refl) rfl
  | .scatter _ _ => kept_of_outSame (execScatter_same sub_refl same_refl) rfl
  | .requestLine _ => kept_of_outSame (execRequestLine_same sub_refl same_refl) rfl
  | .burstDone _ _ _ => kept_of_outSame (execBurstDone_same sub_refl same_refl) rfl
  | .alloc _ _ _ _ _ => kept_of_outSame (execAlloc_same sub_refl same_refl) rfl
  | .free _ _ => kept_of_outSame (execFree_same sub_refl same_refl) rfl
  | .handoff _ _ _ => kept_of_outSame (execHandoff_same sub_refl same_refl) rfl
  | .acquire _ _ => kept_of_outSame (execAcquire_same sub_refl same_refl) rfl
  | .release _ _ => kept_of_outSame (execRelease_same sub_refl same_refl) rfl
  | .cancel _ => kept_of_outSame (execCancel_same sub_refl same_refl) rfl
  | .panListRebuild _ => kept_of_outSame (execPanListRebuild_same sub_refl same_refl) rfl
  | .bufferRead _ _ _ => kept_of_outSame (execBufferRead_same sub_refl same_refl) rfl
  | .bufferWrite _ _ _ _ => kept_of_outSame (execBufferWrite_same sub_refl same_refl) rfl
  | .rakeVisit _ _ => kept_of_outSame (execRakeVisit_same sub_refl same_refl) rfl
  | .memdevEventPoll _ _ => kept_of_outSame (execMemdevEventPoll_same sub_refl same_refl) rfl
  | .fillChunkDone => kept_of_outSame (execFillChunkDone_same sub_refl same_refl) rfl
  | .cxlPerstRelease => kept_of_outSame (execCxlPerstRelease_same sub_refl same_refl) rfl
  | .cxlLinkUp _ _ _ _ _ => kept_of_outSame (execCxlLinkUp_same sub_refl same_refl) rfl
  | .memoryActive _ _ _ _ => kept_of_outSame (execMemoryActive_same sub_refl same_refl) rfl
  | .bringupTimeout _ => kept_of_outSame (execBringupTimeout_same sub_refl same_refl) rfl
  | .memdevLost _ _ => kept_of_outSame (execMemdevLost_same sub_refl same_refl) rfl
  | .sliceCodeDone _ _ => kept_of_outSame (execSliceCodeDone_same sub_refl same_refl) rfl
  | .cipherSealDone _ _ => kept_of_outSame (execCipherSealDone_same sub_refl same_refl) rfl
  | .cipherOpenDone _ _ => kept_of_outSame (execCipherOpenDone_same sub_refl same_refl) rfl
  | .sliceDecompressDone _ _ => kept_of_outSame (execSliceDecompressDone_same sub_refl same_refl) rfl
  | .datasetIdleTimeout _ _ => kept_of_outSame (execDatasetIdleTimeout_same sub_refl same_refl) rfl
  | .slotDecision => kept_of_outSame (execSlotDecision_same sub_refl same_refl) rfl
  | .tierFix _ => kept_of_outSame (execTierFix_same sub_refl same_refl) rfl
  | .writeFifoUnderrun _ => kept_of_outSame (execWriteFifoUnderrun_same sub_refl same_refl) rfl
  | .cwoJudged _ => kept_of_outSame (execCwoJudged_same sub_refl same_refl) rfl
  | .fenceTimeout => kept_of_outSame (execFenceTimeout_same sub_refl same_refl) rfl
  | .maxWaitExpiry => kept_of_outSame (execMaxWaitExpiry_same sub_refl same_refl) rfl
  | .tapeRestart => kept_of_outSame (execTapeRestart_same sub_refl same_refl) rfl
  | .positionReached _ => kept_of_outSame (execPositionReached_same sub_refl same_refl) rfl
  | .rampEnd => kept_of_outSame (execRampEnd_same sub_refl same_refl) rfl
  | .paceWindowEnd _ _ => kept_of_outSame (execPaceWindowEnd_same sub_refl same_refl) rfl
  | .servoFrameBoundary _ _ => kept_of_outSame (execServoFrameBoundary_same sub_refl same_refl) rfl
  | .timingUpdate _ _ _ _ _ => kept_of_outSame (execTimingUpdate_same sub_refl same_refl) rfl
  | .muStep _ => kept_of_outSame (execMuStep_same sub_refl same_refl) rfl
  | .syncWindowClose _ _ => kept_of_outSame (execSyncWindowClose_same sub_refl same_refl) rfl
  | .resyncWindowClose _ _ => kept_of_outSame (execResyncWindowClose_same sub_refl same_refl) rfl
  | .headerDecodeDone _ => kept_of_outSame (execHeaderDecodeDone_same sub_refl same_refl) rfl
  | .c1DecodeDone _ _ => kept_of_outSame (execC1DecodeDone_same sub_refl same_refl) rfl
  | .sampleOverwrite _ => kept_of_outSame (execSampleOverwrite_same sub_refl same_refl) rfl
  | .ctLost _ => kept_of_outSame (execCtLost_same sub_refl same_refl) rfl
  | .ctRegained _ => kept_of_outSame (execCtRegained_same sub_refl same_refl) rfl
  | .holdoverEnd => kept_of_outSame (execHoldoverEnd_same sub_refl same_refl) rfl
  | .synthLock _ => kept_of_outSame (execSynthLock_same sub_refl same_refl) rfl
  | .datasetRecovery _ => kept_of_outSame (execDatasetRecovery_same sub_refl same_refl) rfl
  | .readAheadRestart => kept_of_outSame (execReadAheadRestart_same sub_refl same_refl) rfl
  | .servoFrameDecided _ => kept_of_outSame (execServoFrameDecided_same sub_refl same_refl) rfl
  | .frameMissed => kept_of_outSame (execFrameMissed_same sub_refl same_refl) rfl
  | .l3Sample => kept_of_outSame (execL3Sample_same sub_refl same_refl) rfl
  | .mlsync => kept_of_outSame (execMlsync_same sub_refl same_refl) rfl
  | .inFrame _ => kept_of_outSame (execInFrame_same sub_refl same_refl) rfl
  | .inFrameAbsent => kept_of_outSame (execInFrameAbsent_same sub_refl same_refl) rfl
  | .l1Sample _ => kept_of_outSame (execL1Sample_same sub_refl same_refl) rfl
  | .tapeStopped => kept_of_outSame (execTapeStopped_same sub_refl same_refl) rfl
  | .pafltAssert _ => kept_of_outSame (execPafltAssert_same sub_refl same_refl) rfl
  | .vddAonRise => kept_of_outSame (execVddAonRise_same sub_refl same_refl) rfl
  | .powerOnResetRelease => kept_of_outSame (execPowerOnResetRelease_same sub_refl same_refl) rfl
  | .rngStartupPass => kept_of_outSame (execRngStartupPass_same sub_refl same_refl) rfl
  | .rngContinuousFail _ => kept_of_outSame (execRngContinuousFail_same sub_refl same_refl) rfl
  | .bootImagesLoaded _ => kept_of_outSame (execBootImagesLoaded_same sub_refl same_refl) rfl
  | .bootEntrySigned => kept_of_outSame (execBootEntrySigned_same sub_refl same_refl) rfl
  | .ringLinkTrained _ _ => kept_of_outSame (execRingLinkTrained_same sub_refl same_refl) rfl
  | .assemblyEnd => kept_of_outSame (execAssemblyEnd_same sub_refl same_refl) rfl
  | .quenchDetect _ _ _ _ _ => kept_of_outSame (execQuenchDetect_same sub_refl same_refl) rfl
  | .quenchPowerOff => kept_of_outSame (execQuenchPowerOff_same sub_refl same_refl) rfl
  | .quenchReset _ _ => kept_of_outSame (execQuenchReset_same sub_refl same_refl) rfl
  | .thermtrip => kept_of_outSame (execThermtrip_same sub_refl same_refl) rfl
  | .leakPeriod _ => kept_of_outSame (execLeakPeriod_same sub_refl same_refl) rfl
  | .pewterUnload => kept_of_outSame (execPewterUnload_same sub_refl same_refl) rfl
  | .eventRecordWrite => kept_of_outSame (execEventRecordWrite_same sub_refl same_refl) rfl
  | .eventIrqTimer => kept_of_outSame (execEventIrqTimer_same sub_refl same_refl) rfl
  | .pendingCopyApply _ _ => kept_of_outSame (execPendingCopyApply_same sub_refl same_refl) rfl
  | .quiesceComplete _ => kept_of_outSame (execQuiesceComplete_same sub_refl same_refl) rfl
  | .challengeLapse => kept_of_outSame (execChallengeLapse_same sub_refl same_refl) rfl
  | .dataRow _ _ _ => kept_of_outSame (execDataRow_same sub_refl same_refl) rfl
  | .readRow _ _ _ => kept_of_outSame (execReadRow_same sub_refl same_refl) rfl
  | .ack _ _ _ => kept_of_outSame (execAck_same sub_refl same_refl) rfl
  | .nak _ _ _ => kept_of_outSame (execNak_same sub_refl same_refl) rfl
  | .beacon _ _ _ => kept_of_outSame (execBeacon_same sub_refl same_refl) rfl
  | .token _ _ _ => kept_of_outSame (execToken_same sub_refl same_refl) rfl
  | .attest _ _ _ => kept_of_outSame (execAttest_same sub_refl same_refl) rfl
  | .roster _ _ _ => kept_of_outSame (execRoster_same sub_refl same_refl) rfl
  | .topology _ _ _ => kept_of_outSame (execTopology_same sub_refl same_refl) rfl
  | .join _ _ _ => kept_of_outSame (execJoin_same sub_refl same_refl) rfl
  | .joinAck _ _ _ => kept_of_outSame (execJoinAck_same sub_refl same_refl) rfl
  | .groupSerial _ _ _ => kept_of_outSame (execGroupSerial_same sub_refl same_refl) rfl
  | .groupStart _ _ _ => kept_of_outSame (execGroupStart_same sub_refl same_refl) rfl
  | .payloadOk _ _ _ => kept_of_outSame (execPayloadOk_same sub_refl same_refl) rfl
  | .stripeCommit _ _ _ => kept_of_outSame (execStripeCommit_same sub_refl same_refl) rfl
  | .xoff _ _ _ => kept_of_outSame (execXoff_same sub_refl same_refl) rfl
  | .xon _ _ _ => kept_of_outSame (execXon_same sub_refl same_refl) rfl
  | .sessionEnd _ _ _ => kept_of_outSame (execSessionEnd_same sub_refl same_refl) rfl
  | .readReq _ _ _ => kept_of_outSame (execReadReq_same sub_refl same_refl) rfl
  | .positionLost _ _ _ => kept_of_outSame (execPositionLost_same sub_refl same_refl) rfl
  | .groupFail _ _ _ => kept_of_outSame (execGroupFail_same sub_refl same_refl) rfl
  | .ackTimeout _ => kept_of_outSame (execAckTimeout_same sub_refl same_refl) rfl
  | .ackTimer _ => kept_of_outSame (execAckTimer_same sub_refl same_refl) rfl
  | .linkDown _ => kept_of_outSame (execLinkDown_same sub_refl same_refl) rfl
  | .laneRetrainDone _ _ => kept_of_outSame (execLaneRetrainDone_same sub_refl same_refl) rfl
  | .payloadConfirmTimeout _ _ => kept_of_outSame (execPayloadConfirmTimeout_same sub_refl same_refl) rfl
  | .readRowTimeout _ _ _ => kept_of_outSame (execReadRowTimeout_same sub_refl same_refl) rfl
  | .getVersion _ => kept_of_outSame (execGetVersion_same sub_refl same_refl) rfl
  | .getCapabilities _ => kept_of_outSame (execGetCapabilities_same sub_refl same_refl) rfl
  | .negotiateAlgorithms _ => kept_of_outSame (execNegotiateAlgorithms_same sub_refl same_refl) rfl
  | .getDigests _ => kept_of_outSame (execGetDigests_same sub_refl same_refl) rfl
  | .getCertificate _ => kept_of_outSame (execGetCertificate_same sub_refl same_refl) rfl
  | .challenge _ => kept_of_outSame (execChallenge_same sub_refl same_refl) rfl
  | .getMeasurements _ => kept_of_outSame (execGetMeasurements_same sub_refl same_refl) rfl
  | .vendorDefinedRequest _ => kept_of_outSame (execVendorDefinedRequest_same sub_refl same_refl) rfl
  | .perstDeassert => kept_of_outSame (execPerstDeassert_same sub_refl same_refl) rfl
  | .pcieLinkDown _ => kept_of_outSame (execPcieLinkDown_same sub_refl same_refl) rfl
  | .vddAonFail => kept_of_outSame (execVddAonFail_same sub_refl same_refl) rfl
  | .msixUnmask _ => kept_of_outSame (execMsixUnmask_same sub_refl same_refl) rfl
  | .atsInvalidation _ _ => kept_of_outSame (execAtsInvalidation_same sub_refl same_refl) rfl
  | .jtagAccess _ _ _ => kept_of_outSame (execJtagAccess_same sub_refl same_refl) rfl
  | .pafltDeassert _ => kept_of_outSame (execPafltDeassert_same sub_refl same_refl) rfl
  | .setEndpointId _ => kept_of_outSame (execSetEndpointId_same sub_refl same_refl) rfl

end Sys2Proof.Claims

namespace Sys2Proof.Machine

/-! ### What every command keeps -/

theorem exec_kept {q : Past} (c : Instr) {s : State} (hk : Kept q s) : OutKept q (exec c s) :=
  match c with
  | .openStream _ _ => execOpenStream_kept hk
  | .closeStream _ _ => execCloseStream_kept hk
  | .writeRecords _ _ _ => execWriteRecords_kept hk
  | .streamAppend _ _ _ => execStreamAppend_kept hk
  | .writeMark _ _ => execWriteMark_kept hk
  | .sync _ _ => execSync_kept hk
  | .readRecords _ _ => execReadRecords_kept hk
  | .locate _ _ _ => execLocate_kept hk
  | .space _ _ _ => execSpace_kept hk
  | .readPosition _ _ => execReadPosition_kept hk
  | .slotBind _ _ => execSlotBind_kept hk
  | .slotRekey _ _ => execSlotRekey_kept hk
  | .getStats _ _ => execGetStats_kept hk
  | .nop _ _ => execNop_kept hk
  | .invalidOpcode _ _ => execInvalidOpcode_kept hk
  | .instanceCreate _ => execInstanceCreate_kept hk
  | .instanceShare _ => execInstanceShare_kept hk
  | .instanceQuiesce _ => execInstanceQuiesce_kept hk
  | .instanceReset _ => execInstanceReset_kept hk
  | .instanceFreeze _ => execInstanceFreeze_kept hk
  | .instanceSave _ => execInstanceSave_kept hk
  | .instanceRestore _ => execInstanceRestore_kept hk
  | .instanceDestroy _ => execInstanceDestroy_kept hk
  | .rootImportGetPub _ => execRootImportGetPub_kept hk
  | .rootImportImport _ => execRootImportImport_kept hk
  | .rootErase _ => execRootErase_kept hk
  | .cartLoad _ _ => execCartLoad_kept hk
  | .cartUnload _ => execCartUnload_kept hk
  | .cartCalibrate _ _ => execCartCalibrate_kept hk
  | .chainStatus _ => execChainStatus_kept hk
  | .raitGroupSet _ => execRaitGroupSet_kept hk
  | .raitGroupClear _ => execRaitGroupClear_kept hk
  | .logReadEntries _ => execLogReadEntries_kept hk
  | .logReadCertificates _ => execLogReadCertificates_kept hk
  | .serviceChallenge _ => execServiceChallenge_kept hk
  | .serviceResponse _ => execServiceResponse_kept hk
  | .fwStageWrite _ => execFwStageWrite_kept hk
  | .fwStageFinish _ => execFwStageFinish_kept hk
  | .fwStageAbandon _ => execFwStageAbandon_kept hk
  | .fwActivateNext _ => execFwActivateNext_kept hk
  | .fwActivateNow _ => execFwActivateNow_kept hk
  | .fwActivateCommitSvn _ => execFwActivateCommitSvn_kept hk
  | .fwActivateCancel _ => execFwActivateCancel_kept hk
  | .bufferFillStatus _ => execBufferFillStatus_kept hk
  | .hifDbSqTail _ _ _ => execHifDbSqTail_kept hk
  | .hifDbCqHead _ _ => execHifDbCqHead_kept hk
  | .descriptorFetch _ => execDescriptorFetch_kept hk
  | .irqTimerExpiry _ => execIrqTimerExpiry_kept hk
  | .pcieLinkUp _ _ => execPcieLinkUp_kept hk
  | .hostFault _ => execHostFault_kept hk
  | .mqEnable => execMqEnable_kept hk
  | .mqDisable => execMqDisable_kept hk
  | .eventRingEnable => execEventRingEnable_kept hk
  | .eventRingDisable => execEventRingDisable_kept hk
  | .evtRingHeadWrite _ => execEvtRingHeadWrite_kept hk
  | .evtLock => execEvtLock_kept hk
  | .panLock _ => execPanLock_kept hk
  | .quenchCfgLock _ => execQuenchCfgLock_kept hk
  | .writeSetCommit _ _ => execWriteSetCommit_kept hk
  | .writeCommitAll _ => execWriteCommitAll_kept hk
  | .readSetCommit _ _ => execReadSetCommit_kept hk
  | .readCommitAll _ => execReadCommitAll_kept hk
  | .coefWrite _ _ _ _ _ _ => execCoefWrite_kept hk
  | .coefBankSwap _ _ => execCoefBankSwap_kept hk
  | .loopEnable _ _ => execLoopEnable_kept hk
  | .motionStop _ => execMotionStop_kept hk
  | .motionBrake _ => execMotionBrake_kept hk
  | .functionReset _ => execFunctionReset_kept hk
  | .warmReset => execWarmReset_kept hk
  | .coldResetRequest => execColdResetRequest_kept hk
  | .perstAssert => execPerstAssert_kept hk
  | .stewardWatchdog => execStewardWatchdog_kept hk
  | .toField => execToField_kept hk
  | .serviceClose => execServiceClose_kept hk
  | .katStart _ => execKatStart_kept hk
  | .fillRestart => execFillRestart_kept hk
  | .serviceDescriptorPost => execServiceDescriptorPost_kept hk
  | .retireClear => execRetireClear_kept hk
  | .reassemble => execReassemble_kept hk
  | .countModeWrite _ _ _ => execCountModeWrite_kept hk
  | .registerWrite _ _ _ _ => execRegisterWrite_kept hk
  | .malformedAccess b _ _ _ => execMalformedAccess_kept (x0 := b) hk
  | .rcFieldRead _ _ _ => execRcFieldRead_kept hk
  | .timeLoRead => execTimeLoRead_kept hk
  | .copy _ _ => execCopy_kept hk
  | .fill _ _ => execFill_kept hk
  | .compare _ _ => execCompare_kept hk
  | .gather _ _ => execGather_kept hk
  | .scatter _ _ => execScatter_kept hk
  | .requestLine _ => execRequestLine_kept hk
  | .burstDone _ _ _ => execBurstDone_kept hk
  | .alloc _ _ _ _ _ => execAlloc_kept hk
  | .free _ _ => execFree_kept hk
  | .handoff _ _ _ => execHandoff_kept hk
  | .acquire _ _ => execAcquire_kept hk
  | .release _ _ => execRelease_kept hk
  | .cancel _ => execCancel_kept hk
  | .panListRebuild _ => execPanListRebuild_kept hk
  | .bufferRead _ _ _ => execBufferRead_kept hk
  | .bufferWrite _ _ _ _ => execBufferWrite_kept hk
  | .rakeVisit _ _ => execRakeVisit_kept hk
  | .memdevEventPoll _ _ => execMemdevEventPoll_kept hk
  | .fillChunkDone => execFillChunkDone_kept hk
  | .cxlPerstRelease => execCxlPerstRelease_kept hk
  | .cxlLinkUp _ _ _ _ _ => execCxlLinkUp_kept hk
  | .memoryActive _ _ _ _ => execMemoryActive_kept hk
  | .bringupTimeout _ => execBringupTimeout_kept hk
  | .memdevLost _ _ => execMemdevLost_kept hk
  | .sliceCodeDone _ _ => execSliceCodeDone_kept hk
  | .cipherSealDone _ _ => execCipherSealDone_kept hk
  | .cipherOpenDone _ _ => execCipherOpenDone_kept hk
  | .sliceDecompressDone _ _ => execSliceDecompressDone_kept hk
  | .datasetIdleTimeout _ _ => execDatasetIdleTimeout_kept hk
  | .slotDecision => execSlotDecision_kept hk
  | .tierFix _ => execTierFix_kept hk
  | .writeFifoUnderrun _ => execWriteFifoUnderrun_kept hk
  | .cwoJudged _ => execCwoJudged_kept hk
  | .fenceTimeout => execFenceTimeout_kept hk
  | .maxWaitExpiry => execMaxWaitExpiry_kept hk
  | .tapeRestart => execTapeRestart_kept hk
  | .positionReached _ => execPositionReached_kept hk
  | .rampEnd => execRampEnd_kept hk
  | .paceWindowEnd _ _ => execPaceWindowEnd_kept hk
  | .servoFrameBoundary _ _ => execServoFrameBoundary_kept hk
  | .timingUpdate _ _ _ _ _ => execTimingUpdate_kept hk
  | .muStep _ => execMuStep_kept hk
  | .syncWindowClose _ _ => execSyncWindowClose_kept hk
  | .resyncWindowClose _ _ => execResyncWindowClose_kept hk
  | .headerDecodeDone _ => execHeaderDecodeDone_kept hk
  | .c1DecodeDone _ _ => execC1DecodeDone_kept hk
  | .sampleOverwrite _ => execSampleOverwrite_kept hk
  | .ctLost _ => execCtLost_kept hk
  | .ctRegained _ => execCtRegained_kept hk
  | .holdoverEnd => execHoldoverEnd_kept hk
  | .synthLock _ => execSynthLock_kept hk
  | .datasetRecovery _ => execDatasetRecovery_kept hk
  | .readAheadRestart => execReadAheadRestart_kept hk
  | .servoFrameDecided _ => execServoFrameDecided_kept hk
  | .frameMissed => execFrameMissed_kept hk
  | .l3Sample => execL3Sample_kept hk
  | .mlsync => execMlsync_kept hk
  | .inFrame _ => execInFrame_kept hk
  | .inFrameAbsent => execInFrameAbsent_kept hk
  | .l1Sample _ => execL1Sample_kept hk
  | .tapeStopped => execTapeStopped_kept hk
  | .pafltAssert _ => execPafltAssert_kept hk
  | .vddAonRise => execVddAonRise_kept hk
  | .powerOnResetRelease => execPowerOnResetRelease_kept hk
  | .rngStartupPass => execRngStartupPass_kept hk
  | .rngContinuousFail _ => execRngContinuousFail_kept hk
  | .bootImagesLoaded _ => execBootImagesLoaded_kept hk
  | .bootEntrySigned => execBootEntrySigned_kept hk
  | .ringLinkTrained _ _ => execRingLinkTrained_kept hk
  | .assemblyEnd => execAssemblyEnd_kept hk
  | .quenchDetect _ _ _ _ _ => execQuenchDetect_kept hk
  | .quenchPowerOff => execQuenchPowerOff_kept hk
  | .quenchReset _ _ => execQuenchReset_kept hk
  | .thermtrip => execThermtrip_kept hk
  | .leakPeriod _ => execLeakPeriod_kept hk
  | .pewterUnload => execPewterUnload_kept hk
  | .eventRecordWrite => execEventRecordWrite_kept hk
  | .eventIrqTimer => execEventIrqTimer_kept hk
  | .pendingCopyApply _ _ => execPendingCopyApply_kept hk
  | .quiesceComplete _ => execQuiesceComplete_kept hk
  | .challengeLapse => execChallengeLapse_kept hk
  | .dataRow _ _ _ => execDataRow_kept hk
  | .readRow _ _ _ => execReadRow_kept hk
  | .ack _ _ _ => execAck_kept hk
  | .nak _ _ _ => execNak_kept hk
  | .beacon _ _ _ => execBeacon_kept hk
  | .token _ _ _ => execToken_kept hk
  | .attest _ _ _ => execAttest_kept hk
  | .roster _ _ _ => execRoster_kept hk
  | .topology _ _ _ => execTopology_kept hk
  | .join _ _ _ => execJoin_kept hk
  | .joinAck _ _ _ => execJoinAck_kept hk
  | .groupSerial _ _ _ => execGroupSerial_kept hk
  | .groupStart _ _ _ => execGroupStart_kept hk
  | .payloadOk _ _ _ => execPayloadOk_kept hk
  | .stripeCommit _ _ _ => execStripeCommit_kept hk
  | .xoff _ _ _ => execXoff_kept hk
  | .xon _ _ _ => execXon_kept hk
  | .sessionEnd _ _ _ => execSessionEnd_kept hk
  | .readReq _ _ _ => execReadReq_kept hk
  | .positionLost _ _ _ => execPositionLost_kept hk
  | .groupFail _ _ _ => execGroupFail_kept hk
  | .ackTimeout _ => execAckTimeout_kept hk
  | .ackTimer _ => execAckTimer_kept hk
  | .linkDown _ => execLinkDown_kept hk
  | .laneRetrainDone _ _ => execLaneRetrainDone_kept hk
  | .payloadConfirmTimeout _ _ => execPayloadConfirmTimeout_kept hk
  | .readRowTimeout _ _ _ => execReadRowTimeout_kept hk
  | .getVersion _ => execGetVersion_kept hk
  | .getCapabilities _ => execGetCapabilities_kept hk
  | .negotiateAlgorithms _ => execNegotiateAlgorithms_kept hk
  | .getDigests _ => execGetDigests_kept hk
  | .getCertificate _ => execGetCertificate_kept hk
  | .challenge _ => execChallenge_kept hk
  | .getMeasurements _ => execGetMeasurements_kept hk
  | .vendorDefinedRequest _ => execVendorDefinedRequest_kept hk
  | .perstDeassert => execPerstDeassert_kept hk
  | .pcieLinkDown _ => execPcieLinkDown_kept hk
  | .vddAonFail => execVddAonFail_kept hk
  | .msixUnmask _ => execMsixUnmask_kept hk
  | .atsInvalidation _ _ => execAtsInvalidation_kept hk
  | .jtagAccess _ _ _ => execJtagAccess_kept hk
  | .pafltDeassert _ => execPafltDeassert_kept hk
  | .setEndpointId _ => execSetEndpointId_kept hk

/-- Between a state and itself nothing came or went, whatever host memory and the enclave are. -/
theorem kept_self (s : State) : Kept { q := s.pending, wf := Memory.wf s.hostMem = true, legal := s.sec.lifecycle ≤ 4, sec := s.sec } s :=
  ⟨rfl, id, fun h => ⟨Nat.le_refl _, Nat.le_refl _, h, [], 0, Nat.zero_le _, by simp⟩⟩

/-- The moment that the step of `s` begins: its front command is out of the queue. -/
def stepPast (s : State) : Past :=
  { q := s.pending.tail, wf := Memory.wf s.hostMem = true, legal := s.sec.lifecycle ≤ 4, sec := s.sec }

theorem step_kept (s : State) : OutKept (stepPast s) (step s) := by
  have hself : Kept (stepPast s) { s with pending := s.pending.tail } := kept_self { s with pending := s.pending.tail }
  unfold step
  cases h : s.pending with
  | nil =>
    have hs : { s with pending := s.pending.tail } = s := by rw [h, List.tail_nil, ← h]
    rw [hs] at hself
    exact idle_kept hself
  | cons c rest =>
    rw [h, List.tail_cons] at hself
    exact exec_kept c hself

/-! ### Every command answers a next state -/

theorem execJtagAccess_next_or (bar2 : Bool) (off : Nat) (value : Option Word) (s : State) :
    (∃ t, execJtagAccess bar2 off value s = .next t)
      ∨ ∃ o v, Instr.jtagAccess bar2 off value = .jtagAccess false o (some v) ∧ stewardAt o = true
          ∧ execJtagAccess bar2 off value s = .fault .stewardWrite := by
  by_cases hopen : (!s.tapOpen || s.glb.mode == .off) = true
  · exact .inl ⟨s, if_pos hopen⟩
  · cases value with
    | none =>
      cases bar2 with
      | true => exact .inl ⟨_, if_neg hopen⟩
      | false =>
        by_cases hsteward : stewardAt off = true
        · exact .inl ⟨_, (if_neg hopen).trans (if_pos hsteward)⟩
        · exact .inl ⟨_, (if_neg hopen).trans (if_neg hsteward)⟩
    | some v =>
      cases bar2 with
      | true => exact .inl ⟨_, if_neg hopen⟩
      | false =>
        by_cases hsteward : stewardAt off = true
        · exact .inr ⟨off, v, rfl, hsteward, (if_neg hopen).trans (if_pos hsteward)⟩
        · exact .inl ⟨_, (if_neg hopen).trans (if_neg hsteward)⟩

/-- Every arm but JTAG_ACCESS ends in `next`. -/
theorem exec_next_or (c : Instr) (s : State) :
    (∃ t, exec c s = .next t) ∨ ∃ off value, c = .jtagAccess false off (some value) ∧ stewardAt off = true ∧ exec c s = .fault .stewardWrite :=
  match c with
  | .openStream _ _ => .inl ⟨_, rfl⟩
  | .closeStream _ _ => .inl ⟨_, rfl⟩
  | .writeRecords _ _ _ => .inl ⟨_, rfl⟩
  | .streamAppend _ _ _ => .inl ⟨_, rfl⟩
  | .writeMark _ _ => .inl ⟨_, rfl⟩
  | .sync _ _ => .inl ⟨_, rfl⟩
  | .readRecords _ _ => .inl ⟨_, rfl⟩
  | .locate _ _ _ => .inl ⟨_, rfl⟩
  | .space _ _ _ => .inl ⟨_, rfl⟩
  | .readPosition _ _ => .inl ⟨_, rfl⟩
  | .slotBind _ _ => .inl ⟨_, rfl⟩
  | .slotRekey _ _ => .inl ⟨_, rfl⟩
  | .getStats _ _ => .inl ⟨_, rfl⟩
  | .nop _ _ => .inl ⟨_, rfl⟩
  | .invalidOpcode _ _ => .inl ⟨_, rfl⟩
  | .instanceCreate _ => .inl ⟨_, rfl⟩
  | .instanceShare _ => .inl ⟨_, rfl⟩
  | .instanceQuiesce _ => .inl ⟨_, rfl⟩
  | .instanceReset _ => .inl ⟨_, rfl⟩
  | .instanceFreeze _ => .inl ⟨_, rfl⟩
  | .instanceSave _ => .inl ⟨_, rfl⟩
  | .instanceRestore _ => .inl ⟨_, rfl⟩
  | .instanceDestroy _ => .inl ⟨_, rfl⟩
  | .rootImportGetPub _ => .inl ⟨_, rfl⟩
  | .rootImportImport _ => .inl ⟨_, rfl⟩
  | .rootErase _ => .inl ⟨_, rfl⟩
  | .cartLoad _ _ => .inl ⟨_, rfl⟩
  | .cartUnload _ => .inl ⟨_, rfl⟩
  | .cartCalibrate _ _ => .inl ⟨_, rfl⟩
  | .chainStatus _ => .inl ⟨_, rfl⟩
  | .raitGroupSet _ => .inl ⟨_, rfl⟩
  | .raitGroupClear _ => .inl ⟨_, rfl⟩
  | .logReadEntries _ => .inl ⟨_, rfl⟩
  | .logReadCertificates _ => .inl ⟨_, rfl⟩
  | .serviceChallenge _ => .inl ⟨_, rfl⟩
  | .serviceResponse _ => .inl ⟨_, rfl⟩
  | .fwStageWrite _ => .inl ⟨_, rfl⟩
  | .fwStageFinish _ => .inl ⟨_, rfl⟩
  | .fwStageAbandon _ => .inl ⟨_, rfl⟩
  | .fwActivateNext _ => .inl ⟨_, rfl⟩
  | .fwActivateNow _ => .inl ⟨_, rfl⟩
  | .fwActivateCommitSvn _ => .inl ⟨_, rfl⟩
  | .fwActivateCancel _ => .inl ⟨_, rfl⟩
  | .bufferFillStatus _ => .inl ⟨_, rfl⟩
  | .hifDbSqTail _ _ _ => .inl ⟨_, rfl⟩
  | .hifDbCqHead _ _ => .inl ⟨_, rfl⟩
  | .descriptorFetch _ => .inl ⟨_, rfl⟩
  | .irqTimerExpiry _ => .inl ⟨_, rfl⟩
  | .pcieLinkUp _ _ => .inl ⟨_, rfl⟩
  | .hostFault _ => .inl ⟨_, rfl⟩
  | .mqEnable => .inl ⟨_, rfl⟩
  | .mqDisable => .inl ⟨_, rfl⟩
  | .eventRingEnable => .inl ⟨_, rfl⟩
  | .eventRingDisable => .inl ⟨_, rfl⟩
  | .evtRingHeadWrite _ => .inl ⟨_, rfl⟩
  | .evtLock => .inl ⟨_, rfl⟩
  | .panLock _ => .inl ⟨_, rfl⟩
  | .quenchCfgLock _ => .inl ⟨_, rfl⟩
  | .writeSetCommit _ _ => .inl ⟨_, rfl⟩
  | .writeCommitAll _ => .inl ⟨_, rfl⟩
  | .readSetCommit _ _ => .inl ⟨_, rfl⟩
  | .readCommitAll _ => .inl ⟨_, rfl⟩
  | .coefWrite _ _ _ _ _ _ => .inl ⟨_, rfl⟩
  | .coefBankSwap _ _ => .inl ⟨_, rfl⟩
  | .loopEnable _ _ => .inl ⟨_, rfl⟩
  | .motionStop _ => .inl ⟨_, rfl⟩
  | .motionBrake _ => .inl ⟨_, rfl⟩
  | .functionReset _ => .inl ⟨_, rfl⟩
  | .warmReset => .inl ⟨_, rfl⟩
  | .coldResetRequest => .inl ⟨_, rfl⟩
  | .perstAssert => .inl ⟨_, rfl⟩
  | .stewardWatchdog => .inl ⟨_, rfl⟩
  | .toField => .inl ⟨_, rfl⟩
  | .serviceClose => .inl ⟨_, rfl⟩
  | .katStart _ => .inl ⟨_, rfl⟩
  | .fillRestart => .inl ⟨_, rfl⟩
  | .serviceDescriptorPost => .inl ⟨_, rfl⟩
  | .retireClear => .inl ⟨_, rfl⟩
  | .reassemble => .inl ⟨_, rfl⟩
  | .countModeWrite _ _ _ => .inl ⟨_, rfl⟩
  | .registerWrite _ _ _ _ => .inl ⟨_, rfl⟩
  | .malformedAccess _ _ _ _ => .inl ⟨_, rfl⟩
  | .rcFieldRead _ _ _ => .inl ⟨_, rfl⟩
  | .timeLoRead => .inl ⟨_, rfl⟩
  | .copy _ _ => .inl ⟨_, rfl⟩
  | .fill _ _ => .inl ⟨_, rfl⟩
  | .compare _ _ => .inl ⟨_, rfl⟩
  | .gather _ _ => .inl ⟨_, rfl⟩
  | .scatter _ _ => .inl ⟨_, rfl⟩
  | .requestLine _ => .inl ⟨_, rfl⟩
  | .burstDone _ _ _ => .inl ⟨_, rfl⟩
  | .alloc _ _ _ _ _ => .inl ⟨_, rfl⟩
  | .free _ _ => .inl ⟨_, rfl⟩
  | .handoff _ _ _ => .inl ⟨_, rfl⟩
  | .acquire _ _ => .inl ⟨_, rfl⟩
  | .release _ _ => .inl ⟨_, rfl⟩
  | .cancel _ => .inl ⟨_, rfl⟩
  | .panListRebuild _ => .inl ⟨_, rfl⟩
  | .bufferRead _ _ _ => .inl ⟨_, rfl⟩
  | .bufferWrite _ _ _ _ => .inl ⟨_, rfl⟩
  | .rakeVisit _ _ => .inl ⟨_, rfl⟩
  | .memdevEventPoll _ _ => .inl ⟨_, rfl⟩
  | .fillChunkDone => .inl ⟨_, rfl⟩
  | .cxlPerstRelease => .inl ⟨_, rfl⟩
  | .cxlLinkUp _ _ _ _ _ => .inl ⟨_, rfl⟩
  | .memoryActive _ _ _ _ => .inl ⟨_, rfl⟩
  | .bringupTimeout _ => .inl ⟨_, rfl⟩
  | .memdevLost _ _ => .inl ⟨_, rfl⟩
  | .sliceCodeDone _ _ => .inl ⟨_, rfl⟩
  | .cipherSealDone _ _ => .inl ⟨_, rfl⟩
  | .cipherOpenDone _ _ => .inl ⟨_, rfl⟩
  | .sliceDecompressDone _ _ => .inl ⟨_, rfl⟩
  | .datasetIdleTimeout _ _ => .inl ⟨_, rfl⟩
  | .slotDecision => .inl ⟨_, rfl⟩
  | .tierFix _ => .inl ⟨_, rfl⟩
  | .writeFifoUnderrun _ => .inl ⟨_, rfl⟩
  | .cwoJudged _ => .inl ⟨_, rfl⟩
  | .fenceTimeout => .inl ⟨_, rfl⟩
  | .maxWaitExpiry => .inl ⟨_, rfl⟩
  | .tapeRestart => .inl ⟨_, rfl⟩
  | .positionReached _ => .inl ⟨_, rfl⟩
  | .rampEnd => .inl ⟨_, rfl⟩
  | .paceWindowEnd _ _ => .inl ⟨_, rfl⟩
  | .servoFrameBoundary _ _ => .inl ⟨_, rfl⟩
  | .timingUpdate _ _ _ _ _ => .inl ⟨_, rfl⟩
  | .muStep _ => .inl ⟨_, rfl⟩
  | .syncWindowClose _ _ => .inl ⟨_, rfl⟩
  | .resyncWindowClose _ _ => .inl ⟨_, rfl⟩
  | .headerDecodeDone _ => .inl ⟨_, rfl⟩
  | .c1DecodeDone _ _ => .inl ⟨_, rfl⟩
  | .sampleOverwrite _ => .inl ⟨_, rfl⟩
  | .ctLost _ => .inl ⟨_, rfl⟩
  | .ctRegained _ => .inl ⟨_, rfl⟩
  | .holdoverEnd => .inl ⟨_, rfl⟩
  | .synthLock _ => .inl ⟨_, rfl⟩
  | .datasetRecovery _ => .inl ⟨_, rfl⟩
  | .readAheadRestart => .inl ⟨_, rfl⟩
  | .servoFrameDecided _ => .inl ⟨_, rfl⟩
  | .frameMissed => .inl ⟨_, rfl⟩
  | .l3Sample => .inl ⟨_, rfl⟩
  | .mlsync => .inl ⟨_, rfl⟩
  | .inFrame _ => .inl ⟨_, rfl⟩
  | .inFrameAbsent => .inl ⟨_, rfl⟩
  | .l1Sample _ => .inl ⟨_, rfl⟩
  | .tapeStopped => .inl ⟨_, rfl⟩
  | .pafltAssert _ => .inl ⟨_, rfl⟩
  | .vddAonRise => .inl ⟨_, rfl⟩
  | .powerOnResetRelease => .inl ⟨_, rfl⟩
  | .rngStartupPass => .inl ⟨_, rfl⟩
  | .rngContinuousFail _ => .inl ⟨_, rfl⟩
  | .bootImagesLoaded _ => .inl ⟨_, rfl⟩
  | .bootEntrySigned => .inl ⟨_, rfl⟩
  | .ringLinkTrained _ _ => .inl ⟨_, rfl⟩
  | .assemblyEnd => .inl ⟨_, rfl⟩
  | .quenchDetect _ _ _ _ _ => .inl ⟨_, rfl⟩
  | .quenchPowerOff => .inl ⟨_, rfl⟩
  | .quenchReset _ _ => .inl ⟨_, rfl⟩
  | .thermtrip => .inl ⟨_, rfl⟩
  | .leakPeriod _ => .inl ⟨_, rfl⟩
  | .pewterUnload => .inl ⟨_, rfl⟩
  | .eventRecordWrite => .inl ⟨_, rfl⟩
  | .eventIrqTimer => .inl ⟨_, rfl⟩
  | .pendingCopyApply _ _ => .inl ⟨_, rfl⟩
  | .quiesceComplete _ => .inl ⟨_, rfl⟩
  | .challengeLapse => .inl ⟨_, rfl⟩
  | .dataRow _ _ _ => .inl ⟨_, rfl⟩
  | .readRow _ _ _ => .inl ⟨_, rfl⟩
  | .ack _ _ _ => .inl ⟨_, rfl⟩
  | .nak _ _ _ => .inl ⟨_, rfl⟩
  | .beacon _ _ _ => .inl ⟨_, rfl⟩
  | .token _ _ _ => .inl ⟨_, rfl⟩
  | .attest _ _ _ => .inl ⟨_, rfl⟩
  | .roster _ _ _ => .inl ⟨_, rfl⟩
  | .topology _ _ _ => .inl ⟨_, rfl⟩
  | .join _ _ _ => .inl ⟨_, rfl⟩
  | .joinAck _ _ _ => .inl ⟨_, rfl⟩
  | .groupSerial _ _ _ => .inl ⟨_, rfl⟩
  | .groupStart _ _ _ => .inl ⟨_, rfl⟩
  | .payloadOk _ _ _ => .inl ⟨_, rfl⟩
  | .stripeCommit _ _ _ => .inl ⟨_, rfl⟩
  | .xoff _ _ _ => .inl ⟨_, rfl⟩
  | .xon _ _ _ => .inl ⟨_, rfl⟩
  | .sessionEnd _ _ _ => .inl ⟨_, rfl⟩
  | .readReq _ _ _ => .inl ⟨_, rfl⟩
  | .positionLost _ _ _ => .inl ⟨_, rfl⟩
  | .groupFail _ _ _ => .inl ⟨_, rfl⟩
  | .ackTimeout _ => .inl ⟨_, rfl⟩
  | .ackTimer _ => .inl ⟨_, rfl⟩
  | .linkDown _ => .inl ⟨_, rfl⟩
  | .laneRetrainDone _ _ => .inl ⟨_, rfl⟩
  | .payloadConfirmTimeout _ _ => .inl ⟨_, rfl⟩
  | .readRowTimeout _ _ _ => .inl ⟨_, rfl⟩
  | .getVersion _ => .inl ⟨_, rfl⟩
  | .getCapabilities _ => .inl ⟨_, rfl⟩
  | .negotiateAlgorithms _ => .inl ⟨_, rfl⟩
  | .getDigests _ => .inl ⟨_, rfl⟩
  | .getCertificate _ => .inl ⟨_, rfl⟩
  | .challenge _ => .inl ⟨_, rfl⟩
  | .getMeasurements _ => .inl ⟨_, rfl⟩
  | .vendorDefinedRequest _ => .inl ⟨_, rfl⟩
  | .perstDeassert => .inl ⟨_, rfl⟩
  | .pcieLinkDown _ => .inl ⟨_, rfl⟩
  | .vddAonFail => .inl ⟨_, rfl⟩
  | .msixUnmask _ => .inl ⟨_, rfl⟩
  | .atsInvalidation _ _ => .inl ⟨_, rfl⟩
  | .jtagAccess bar2 off value => execJtagAccess_next_or bar2 off value s
  | .pafltDeassert _ => .inl ⟨_, rfl⟩
  | .setEndpointId _ => .inl ⟨_, rfl⟩

/-! ### The step of an empty queue -/

theorem idle_off {s : State} (h : s.glb.mode = .off) : idle s = s := if_pos h

/-- Nothing waits for a time to come: the tick is all. -/
theorem idle_quiet {s : State} (hm : s.glb.mode ≠ .off) (hr : s.chn.reassemble = false) (hj : s.chn.pendingJoin = false)
    (he : s.hif.early = []) : idle s = { s with glb := { s.glb with time := (s.glb.time + 20) % 2 ^ 64 } } := by
  have hquiet : tryReassemble { s with glb := { s.glb with time := tickTime s.glb.time } } = { s with glb := { s.glb with time := tickTime s.glb.time } } := by
    simp [tryReassemble, hr, hj]
  have hearly : (!s.hif.early.isEmpty) = false := by rw [he]; rfl
  simp only [idle, if_neg hm, hquiet, hearly, Bool.and_false]
  rfl

end Sys2Proof.Machine

namespace Sys2Proof.Claims

/-- At reset no pan has an entry, and nothing is held. -/
theorem panTable_reset : PanTable State.reset := by
  have hpan (p : Fin 4) : (State.reset.pan p).filled = 0 ∧ (State.reset.pan p).free = 0 ∧ (State.reset.pan p).list = [] := by
    revert p; decide
  have hheld : State.reset.pans.held = [] := rfl
  refine ⟨by rw [hheld]; exact List.Pairwise.nil, by simp [hheld], fun p => ?_⟩
  obtain ⟨hfilled, hfree, hlist⟩ := hpan p
  simp [hfilled, hfree, hlist, hheld]

end Sys2Proof.Claims

/-- Settles O1: the step of a queue with a command at its front is that arm of `exec`. -/
theorem Sys2Proof.stepRunsFrontCommand : Obligations.StepRunsFrontCommand := fun _ _ _ => rfl

/-- Settles O2, by the two cases of `idle`. -/
theorem Sys2Proof.idleStepCountsTime : Obligations.IdleStepCountsTime := by
  intro s hq
  have hstep : step s = .next (idle s) := by simp only [step, hq]
  refine ⟨fun hm => ?_, fun hm hr hj he => ?_⟩
  · rw [hstep, idle_off hm]
  · rw [hstep, idle_quiet hm hr hj he]

/-- Settles O3, by what every command and the tick keep. -/
theorem Sys2Proof.stepKeepsQueueAndMemory : Obligations.StepKeepsQueueAndMemory := by
  intro s t hwf hstep
  have hkept : OutKept (stepPast s) (.next t) := hstep ▸ step_kept s
  obtain ⟨hqueue, hmem, -⟩ := hkept
  exact ⟨hqueue, hmem hwf⟩

/-- Settles O6: no pan has an entry at reset. -/
theorem Sys2Proof.resetMeetsInvariants : Obligations.ResetMeetsInvariants :=
  ⟨rfl, by decide, rfl, Claims.panTable_reset⟩

/-- Settles O7, command by command. -/
theorem Sys2Proof.onlyStewardWritesStop : Obligations.OnlyStewardWritesStop := exec_next_or

/-- Settles O8, by the frames of the commands. -/
theorem Sys2Proof.commandsSpareUnits : Obligations.CommandsSpareUnits := Claims.exec_spares
end

section
/-! PROOFS. The sequence state of the slots never falls (R101, R105): what holds between an earlier moment and a state in which the
quench store covers what is in use, and one lemma for each operation that may write the sequence state or the quench store. An operation
that writes neither (its frame of Laws/Frames.lean says so) needs none. -/

open Sys2Proof Sys2Proof.Machine Sys2Proof.Safety

namespace Sys2Proof.Sequence

open Sys2Proof.Claims
open Sys2Proof.Frames (Same OutSame ExcSame ExcPSame OptPSame SndSame FstSame sub_refl same_refl)

/-! ### What is kept -/

/-- One slot's state `u`, used under the stored record `k`, is covered by it (R105). -/
def Covered (k : SlotRec) (u : SlotSeq) : Prop :=
  u.frontier ≤ k.frontier + 2 ^ 20 ∧ u.epoch ≤ k.epoch + 1 ∧ u.epoch ≤ lastEpoch ∧ k.epoch ≤ lastEpoch

/-- Neither value of `u` lies below that of `a`. -/
def Above (a u : SlotSeq) : Prop := a.frontier ≤ u.frontier ∧ a.epoch ≤ u.epoch

/-- The quench store covers the sequence state of `s`, and no value of it lies below `q`, the sequence state of an earlier moment. -/
def Risen (q : Vector SlotSeq 512) (s : State) : Prop := ∀ i : Fin 512, Covered (storedSlot s i) s.seqs[i] ∧ Above q[i] s.seqs[i]

def OutRisen (q : Vector SlotSeq 512) : Out → Prop
  | .next t => Risen q t
  | _ => True
def ExcRisen {ε : Type} (q : Vector SlotSeq 512) : Except ε State → Prop
  | .ok t => Risen q t
  | .error _ => True
def ExcPRisen {ε α : Type} (q : Vector SlotSeq 512) : Except ε (α × State) → Prop
  | .ok t => Risen q t.2
  | .error _ => True
def OptPRisen {α : Type} (q : Vector SlotSeq 512) : Option (α × State) → Prop
  | some t => Risen q t.2
  | none => True
def SndRisen {α : Type} (q : Vector SlotSeq 512) (p : α × State) : Prop := Risen q p.2
def FstRisen {α : Type} (q : Vector SlotSeq 512) (p : State × α) : Prop := Risen q p.1

variable {q : Vector SlotSeq 512} {w : BitVec 30} {S : State}

theorem risen_iff {s : State} : Risen s.seqs s ↔ SeqCovered s :=
  ⟨fun h i => (h i).1, fun h i => ⟨h i, Nat.le_refl _, Nat.le_refl _⟩⟩

/-! ### An operation that leaves the slots and their records -/

theorem risen_eq {s t : State} (hk : Risen q s) (hA : t.qs.slotA = s.qs.slotA) (hB : t.qs.slotB = s.qs.slotB) (hs : t.seqs = s.seqs) :
    Risen q t := by
  intro i
  have hstored : storedSlot t i = storedSlot s i := by simp only [storedSlot, hA, hB]
  rw [hstored, hs]
  exact hk i

theorem risen_mk {s : State} {a0 a1 a2 a3 a4 a6 a7 a8 a10 a11 a12 a13 a14 a15 a16 a17 a18 a19 a20 a21 a22 a23 a24 a25 a26 a27 n1 n2}
    (hk : Risen q s) :
    Risen q ⟨a0, a1, a2, a3, a4, s.qs, a6, a7, a8, s.seqs, a10, a11, a12, a13, a14, a15, a16, a17, a18, a19, a20, a21, a22, a23, a24, a25,
      a26, a27, n1, n2⟩ := hk

/-- The frame says neither the sequence state (bit 9) nor the quench store (bit 5). -/
theorem risen_same {t : State} (h : Same w S t) (hw : w &&& 0x220 = 0) (hk : Risen q S) : Risen q t := by
  have hbit (n : Nat) (hn : (0x220 : BitVec 30).getLsbD n = true) : w.getLsbD n = false := by
    have hand : (w &&& 0x220).getLsbD n = false := by rw [hw]; exact BitVec.getLsbD_zero
    rwa [BitVec.getLsbD_and, hn, Bool.and_true] at hand
  have hqs : t.qs = S.qs := h.qs (hbit 5 rfl)
  exact risen_eq hk (congrArg QStore.slotA hqs) (congrArg QStore.slotB hqs) (h.seqs (hbit 9 rfl))
theorem snd_same {α} {p : α × State} (h : SndSame w S p) (hw : w &&& 0x220 = 0) (hk : Risen q S) : SndRisen q p := risen_same h hw hk
theorem fst_same {α} {p : State × α} (h : FstSame w S p) (hw : w &&& 0x220 = 0) (hk : Risen q S) : FstRisen q p := risen_same h hw hk
theorem exc_same {ε} {p : Except ε State} (h : ExcSame w S p) (hw : w &&& 0x220 = 0) (hk : Risen q S) : ExcRisen q p := by
  cases p with
  | error => trivial
  | ok t => exact risen_same h hw hk
theorem excP_same {ε α} {p : Except ε (α × State)} (h : ExcPSame w S p) (hw : w &&& 0x220 = 0) (hk : Risen q S) : ExcPRisen q p := by
  cases p with
  | error => trivial
  | ok t => exact risen_same h hw hk
theorem optP_same {α} {p : Option (α × State)} (h : OptPSame w S p) (hw : w &&& 0x220 = 0) (hk : Risen q S) : OptPRisen q p := by
  cases p with
  | none => trivial
  | some t => exact risen_same h hw hk
theorem out_same {o : Out} (h : OutSame w S o) (hw : w &&& 0x220 = 0) (hk : Risen q S) : OutRisen q o := by
  cases o with
  | next t => exact risen_same h hw hk
  | fault => trivial
  | refused => trivial

/-! ### Cases -/

theorem risen_if {c : Prop} [Decidable c] {a b : State} (h1 : Risen q a) (h2 : Risen q b) : Risen q (if c then a else b) := by
  split <;> assumption
theorem out_if {c : Prop} [Decidable c] {a b : Out} (h1 : OutRisen q a) (h2 : OutRisen q b) : OutRisen q (if c then a else b) := by
  split <;> assumption
theorem exc_if {ε} {c : Prop} [Decidable c] {a b : Except ε State} (h1 : ExcRisen q a) (h2 : ExcRisen q b) : ExcRisen q (if c then a else b) := by
  split <;> assumption
theorem excP_if {ε α} {c : Prop} [Decidable c] {a b : Except ε (α × State)} (h1 : ExcPRisen q a) (h2 : ExcPRisen q b) : ExcPRisen q (if c then a else b) := by
  split <;> assumption
theorem optP_if {α} {c : Prop} [Decidable c] {a b : Option (α × State)} (h1 : OptPRisen q a) (h2 : OptPRisen q b) : OptPRisen q (if c then a else b) := by
  split <;> assumption
theorem snd_if {α} {c : Prop} [Decidable c] {a b : α × State} (h1 : SndRisen q a) (h2 : SndRisen q b) : SndRisen q (if c then a else b) := by
  split <;> assumption
theorem fst_if {α} {c : Prop} [Decidable c] {a b : State × α} (h1 : FstRisen q a) (h2 : FstRisen q b) : FstRisen q (if c then a else b) := by
  split <;> assumption
theorem snd_snd {α} {p : α × State} (h : SndRisen q p) : Risen q p.2 := h
theorem fst_fst {α} {p : State × α} (h : FstRisen q p) : Risen q p.1 := h
theorem snd_mk {α} {a : α} {s} (h : Risen q s) : SndRisen q (a, s) := h
theorem fst_mk {α} {a : α} {s} (h : Risen q s) : FstRisen q (s, a) := h
theorem exc_ok {ε} {s} (h : Risen q s) : ExcRisen q (.ok s : Except ε State) := h
theorem exc_error {ε} {e : ε} : ExcRisen q (.error e) := trivial
theorem excP_ok {ε α} {p : α × State} (h : SndRisen q p) : ExcPRisen q (.ok p : Except ε (α × State)) := h
theorem excP_error {ε α} {e : ε} : ExcPRisen q (.error e : Except ε (α × State)) := trivial
theorem optP_some {α} {p : α × State} (h : SndRisen q p) : OptPRisen q (some p) := h
theorem optP_none {α} : OptPRisen q (none : Option (α × State)) := trivial
theorem out_next {s} (h : Risen q s) : OutRisen q (.next s) := h
theorem snd_elim {α} {p : α × State} {r t} (e : p = (r, t)) (h : SndRisen q p) : Risen q t := by subst e; exact h
theorem fst_elim {α} {p : State × α} {r t} (e : p = (t, r)) (h : FstRisen q p) : Risen q t := by subst e; exact h
theorem exc_elim {ε} {p : Except ε State} {t} (e : p = .ok t) (h : ExcRisen q p) : Risen q t := by subst e; exact h
theorem excP_elim {ε α} {p : Except ε (α × State)} {r t} (e : p = .ok (r, t)) (h : ExcPRisen q p) : Risen q t := by subst e; exact h
theorem optP_elim {α} {p : Option (α × State)} {r t} (e : p = some (r, t)) (h : OptPRisen q p) : Risen q t := by subst e; exact h
theorem risen_foldl {α : Type} {f : State → α → State} {l : List α} {s : State} (hf : ∀ s a, Risen q s → Risen q (f s a)) (h : Risen q s) : Risen q (l.foldl f s) := by
  induction l generalizing s with
  | nil => exact h
  | cons a l ih => exact ih (hf _ _ h)
theorem snd_foldl {α β : Type} {f : β × State → α → β × State} {l : List α} {s : β × State} (hf : ∀ s a, SndRisen q s → SndRisen q (f s a)) (h : SndRisen q s) : SndRisen q (l.foldl f s) := by
  induction l generalizing s with
  | nil => exact h
  | cons a l ih => exact ih (hf _ _ h)
theorem fst_foldl {α β : Type} {f : State × β → α → State × β} {l : List α} {s : State × β} (hf : ∀ s a, FstRisen q s → FstRisen q (f s a)) (h : FstRisen q s) : FstRisen q (l.foldl f s) := by
  induction l generalizing s with
  | nil => exact h
  | cons a l ih => exact ih (hf _ _ h)

/-! ### The slots themselves -/

theorem storedSlot_storeSlot_same (i : Fin 512) (s : State) :
    storedSlot (storeSlot i s) i = { frontier := s.seqs[i].frontier, epoch := s.seqs[i].epoch, ok := true } := by
  simp only [storedSlot, storeSlot, vset_same, if_true]

theorem storedSlot_storeSlot_other {i j : Fin 512} (s : State) (h : i ≠ j) : storedSlot (storeSlot i s) j = storedSlot s j := by
  simp only [storedSlot, storeSlot, vset_other _ _ _ _ h]

/-- A slot's own state, once stored, is its cover. -/
theorem covered_stored {u : SlotSeq} (h : u.epoch ≤ lastEpoch) : Covered { frontier := u.frontier, epoch := u.epoch, ok := true } u :=
  ⟨Nat.le_add_right _ _, Nat.le_succ _, h, h⟩

/-- What the change of one slot must meet: its new state is covered and above the old. -/
theorem risen_slot {s t : State} {i : Fin 512} (hk : Risen q s) (hstored : ∀ j, j ≠ i → storedSlot t j = storedSlot s j)
    (hseqs : ∀ j, j ≠ i → t.seqs[j] = s.seqs[j]) (hc : Covered (storedSlot t i) t.seqs[i]) (ha : Above s.seqs[i] t.seqs[i]) : Risen q t := by
  intro j
  obtain ⟨hcover, hfront, hepoch⟩ := hk j
  by_cases hj : j = i
  · subst hj
    exact ⟨hc, Nat.le_trans hfront ha.1, Nat.le_trans hepoch ha.2⟩
  · rw [hstored j hj, hseqs j hj]
    exact ⟨hcover, hfront, hepoch⟩

/-- A slot that takes a state above the old one, covered by the record it has. -/
theorem risen_vset {i : Fin 512} {u : SlotSeq} {s : State} (hk : Risen q s) (hc : Covered (storedSlot s i) u) (ha : Above s.seqs[i] u) :
    Risen q { s with seqs := vset s.seqs i u } := by
  refine risen_slot hk (i := i) (fun _ _ => rfl) (fun j hj => vset_other _ _ _ _ (Ne.symm hj)) ?_ ?_
  · simp only [vset_same]
    exact hc
  · simp only [vset_same]
    exact ha

/-- A slot that takes a state above the old one and is stored with it. -/
theorem risen_vset_storeSlot {i : Fin 512} {u : SlotSeq} {s : State} (hk : Risen q s) (he : u.epoch ≤ lastEpoch) (ha : Above s.seqs[i] u) :
    Risen q (storeSlot i { s with seqs := vset s.seqs i u }) := by
  refine risen_slot hk (i := i) (fun j hj => storedSlot_storeSlot_other _ (Ne.symm hj)) (fun j hj => vset_other _ _ _ _ (Ne.symm hj)) ?_ ?_
  · rw [storedSlot_storeSlot_same]
    simp only [storeSlot, vset_same]
    exact covered_stored he
  · simp only [storeSlot, vset_same]
    exact ha

/-- Every slot's own state, once all are stored, is its cover. -/
theorem risen_storeAll {s t : State} (hk : Risen q s) (hs : t.seqs = s.seqs)
    (hA : ∀ i : Fin 512, t.qs.slotA[i] = { frontier := s.seqs[i].frontier, epoch := s.seqs[i].epoch, ok := true }) : Risen q t := by
  intro i
  obtain ⟨hcover, habove⟩ := hk i
  have hstored : storedSlot t i = { frontier := s.seqs[i].frontier, epoch := s.seqs[i].epoch, ok := true } := by
    simp only [storedSlot, hA, if_true]
  rw [hstored, hs]
  exact ⟨covered_stored hcover.2.2.1, habove⟩

/-! ### Ops -/

theorem next_risen {s : State} (hk : Risen q s) : OutRisen q (next s) := hk
theorem storeMap_risen {S0 : State} (hk : Risen q S0) : Risen q (storeMap S0) := risen_eq hk rfl rfl rfl
theorem storeSlot_risen {x0} {S1 : State} (hk : Risen q S1) : Risen q (storeSlot x0 S1) := by
  refine risen_slot hk (i := x0) (fun j hj => storedSlot_storeSlot_other _ (Ne.symm hj)) (fun _ _ => rfl) ?_ ⟨Nat.le_refl _, Nat.le_refl _⟩
  rw [storedSlot_storeSlot_same]
  obtain ⟨⟨-, -, hlast, -⟩, -⟩ := hk x0
  exact covered_stored hlast

/-! ### Pans -/

theorem onBehalf_risen {x0} {S1 : State} (hx0 : ∀ s, Risen q s → Risen q (x0 s)) (hk : Risen q S1) : Risen q (onBehalf x0 S1) :=
  risen_mk (hx0 _ hk)

/-! ### Faults -/

theorem enterPewter_risen {x0 x1 x2} {S3 : State} (hk : Risen q S3) : Risen q (enterPewter x0 x1 x2 S3) := by
  refine risen_if hk ?_
  extract_lets -merge -underBinder +onlyGivenNames _ z0
  have h1 : Risen q z0 := storeMap_risen (risen_mk hk)
  clear_value z0
  extract_lets -merge -underBinder +onlyGivenNames _ z24
  have h25 : Risen q z24 := risen_same (Frames.raiseEv_same sub_refl same_refl) rfl (risen_mk h1)
  clear_value z24
  exact risen_same (Frames.powerFor_same sub_refl same_refl) rfl (risen_same (Frames.abandonData_same sub_refl same_refl) rfl (risen_mk (risen_same (Frames.unassignAll_same sub_refl same_refl) rfl (risen_same (Frames.abortAll_same sub_refl same_refl) rfl (risen_same (Frames.abortMover_same sub_refl same_refl) rfl (risen_if (risen_same (Frames.beginStop_same sub_refl same_refl) rfl (risen_same (Frames.dropGates_same sub_refl same_refl) rfl h25)) (risen_mk (risen_same (Frames.dropGates_same sub_refl same_refl) rfl h25))))))))
theorem judgePewter_risen {x0 x1} {S2 : State} (hk : Risen q S2) : Risen q (judgePewter x0 x1 S2) := by
  unfold judgePewter
  split
  · exact enterPewter_risen hk
  · exact hk
theorem loseDevice_risen {x0 x1} {S2 : State} (hk : Risen q S2) : Risen q (loseDevice x0 x1 S2) := by
  refine risen_if hk ?_
  extract_lets -merge -underBinder +onlyGivenNames _ z0
  have h1 : Risen q z0 := risen_mk hk
  clear_value z0
  extract_lets -merge -underBinder +onlyGivenNames z10
  have h11 : Risen q z10 := storeMap_risen (risen_same (Frames.setRetired_same sub_refl same_refl) rfl h1)
  clear_value z10
  exact risen_if (judgePewter_risen (risen_mk (risen_same (Frames.raiseEv_same sub_refl same_refl) rfl h11))) (risen_if (risen_mk (risen_same (Frames.raiseEv_same sub_refl same_refl) rfl h11)) (risen_same (Frames.raiseEv_same sub_refl same_refl) rfl h11))
theorem retire_risen {x0 x1 x2} {S3 : State} (hk : Risen q S3) : Risen q (retire x0 x1 x2 S3) := by
  refine risen_if hk ?_
  extract_lets -merge -underBinder +onlyGivenNames z0
  have h1 : Risen q z0 := risen_same (Frames.requeueHeld_same sub_refl same_refl) rfl (risen_same (Frames.setRetired_same sub_refl same_refl) rfl hk)
  clear_value z0
  extract_lets -merge -underBinder +onlyGivenNames z64
  have h65 : Risen q z64 := risen_if (risen_same (Frames.raiseEv_same sub_refl same_refl) rfl h1) (risen_same (Frames.raiseEv_same sub_refl same_refl) rfl h1)
  clear_value z64
  extract_lets -merge -underBinder +onlyGivenNames _ z96
  have h97 : Risen q z96 := storeMap_risen (risen_mk h65)
  clear_value z96
  extract_lets -merge -underBinder +onlyGivenNames z112
  have h113 : Risen q z112 := risen_if (risen_same (Frames.publishCeilings_same sub_refl same_refl) rfl h97) h97
  clear_value z112
  extract_lets -merge -underBinder +onlyGivenNames z120
  have h121 : Risen q z120 := risen_if (loseDevice_risen h113) h113
  clear_value z120
  exact judgePewter_risen (risen_if (risen_same (Frames.retrainPort_same sub_refl same_refl) rfl h121) h121)
theorem strike_risen {x0 x1} {S2 : State} (hk : Risen q S2) : Risen q (strike x0 x1 S2) :=
  risen_if hk (risen_if (retire_risen (risen_mk hk)) (risen_mk hk))
theorem passAfter_risen {x0 x1} {S2 : State} (hk : Risen q S2) : Risen q (passAfter x0 x1 S2) := by
  unfold passAfter
  split
  · exact risen_if hk (retire_risen hk)
  · exact hk

/-! ### Keys -/

/-- A lease ends at most 2^20 above the stored frontier, or the slot is stored first (R105). -/
theorem takeLease_risen {v k} {s : State} (hk : Risen q s) : SndRisen q (takeLease v k s) := by
  obtain ⟨⟨-, hnext, hlast, hstored⟩, -⟩ := hk (seqIx v k)
  have habove : Above s.seqs[seqIx v k] { s.seqs[seqIx v k] with frontier := s.seqs[seqIx v k].frontier + leaseSize } :=
    ⟨Nat.le_add_right _ _, Nat.le_refl _⟩
  by_cases hlow : (storedSlot s (seqIx v k)).frontier + 2 ^ 20 < s.seqs[seqIx v k].frontier + leaseSize
  · have hcover : Covered (storedSlot (storeSlot (seqIx v k) s) (seqIx v k))
        { s.seqs[seqIx v k] with frontier := s.seqs[seqIx v k].frontier + leaseSize } := by
      rw [storedSlot_storeSlot_same]
      exact ⟨Nat.add_le_add_left (by decide) _, Nat.le_succ _, hlast, hlast⟩
    simp only [takeLease, if_pos hlow]
    exact risen_vset (storeSlot_risen hk) hcover habove
  · simp only [takeLease, if_neg hlow]
    exact risen_vset hk ⟨Nat.le_of_not_lt hlow, hnext, hlast, hstored⟩ habove
/-- A slot's state with its epoch raised to `e`, or to the last of all. -/
def raisedEpoch (u : SlotSeq) (e : Nat) : SlotSeq := { u with epoch := max u.epoch (min e lastEpoch) }
theorem setEpoch_eq (v : Inst) (k : SlotNo) (e : Nat) (s : State) :
    setEpoch v k e s = if (storedSlot s (seqIx v k)).epoch < min e lastEpoch
      then storeSlot (seqIx v k) { s with seqs := vset s.seqs (seqIx v k) (raisedEpoch s.seqs[seqIx v k] e) }
      else { s with seqs := vset s.seqs (seqIx v k) (raisedEpoch s.seqs[seqIx v k] e) } := rfl
/-- An epoch above the last stored is stored at once (R105). -/
theorem setEpoch_risen {v k e} {s : State} (hk : Risen q s) : Risen q (setEpoch v k e s) := by
  obtain ⟨⟨hfront, hnext, hlast, hstored⟩, -⟩ := hk (seqIx v k)
  have habove : Above s.seqs[seqIx v k] (raisedEpoch s.seqs[seqIx v k] e) := ⟨Nat.le_refl _, Nat.le_max_left _ _⟩
  have hmax : (raisedEpoch s.seqs[seqIx v k] e).epoch ≤ lastEpoch := Nat.max_le.mpr ⟨hlast, Nat.min_le_right _ _⟩
  rw [setEpoch_eq]
  split
  · exact risen_vset_storeSlot hk hmax habove
  · next hlow =>
    exact risen_vset hk ⟨hfront, Nat.max_le.mpr ⟨hnext, Nat.le_succ_of_le (Nat.le_of_not_lt hlow)⟩, hmax, hstored⟩ habove
/-- What resumes beyond the stored records was covered by them. -/
theorem resumeSeqs_risen {s : State} (hk : Risen q s) : Risen q (resumeSeqs s) := by
  have hresumed (k : SlotRec) (a u : SlotSeq) (hc : Covered k u) (ha : Above a u) :
      Covered k { frontier := k.frontier + 2 ^ 20, epoch := min (k.epoch + 1) lastEpoch }
        ∧ Above a { frontier := k.frontier + 2 ^ 20, epoch := min (k.epoch + 1) lastEpoch } := by
    unfold Covered Above at *
    dsimp only
    omega
  intro i
  have hseq : (resumeSeqs s).seqs[i] = { frontier := (storedSlot s i).frontier + 2 ^ 20, epoch := min ((storedSlot s i).epoch + 1) lastEpoch } :=
    Vector.getElem_ofFn i.isLt
  have hqs : (resumeSeqs s).qs = s.qs := by simp only [resumeSeqs]
  have hrec : storedSlot (resumeSeqs s) i = storedSlot s i := by simp only [storedSlot, hqs]
  rw [hseq, hrec]
  exact hresumed _ _ _ (hk i).1 (hk i).2
theorem startKey_risen {x0 x1 x2} {S3 : State} (hk : Risen q S3) : SndRisen q (startKey x0 x1 x2 S3) :=
  snd_mk (risen_same (Frames.State_modSlot_same sub_refl same_refl) rfl (risen_same (Frames.drawn_same sub_refl same_refl) rfl (setEpoch_risen hk)))
theorem keyFor_risen {x0 x1} {S2 : State} (hk : Risen q S2) : ExcPRisen q (keyFor x0 x1 S2) := by
  unfold keyFor
  extract_lets -merge -underBinder +onlyGivenNames z0
  clear_value z0
  refine excP_if excP_error ?_
  refine excP_if ?_ ?_
  · refine excP_if excP_error ?_
    split
    · exact excP_error
    · exact excP_ok (startKey_risen hk)
  · split
    · exact excP_error
    · exact excP_if excP_error (excP_ok (snd_mk hk))
theorem takeCounter_risen {x0} {S1 : State} (hk : Risen q S1) : ExcPRisen q (takeCounter x0 S1) := by
  unfold takeCounter
  split
  · exact hk
  · split
    · trivial
    · rename_i he
      have h := excP_elim he (keyFor_risen hk)
      by_cases h2 : x0.leaseNext < x0.leaseEnd
      · simp only [if_pos h2]
        exact excP_ok (snd_mk (risen_same (Frames.State_modSlot_same sub_refl same_refl) rfl (risen_same (Frames.State_modStream_same sub_refl same_refl) rfl h)))
      · simp only [if_neg h2]
        exact excP_ok (snd_mk (risen_same (Frames.State_modSlot_same sub_refl same_refl) rfl (risen_same (Frames.State_modStream_same sub_refl same_refl) rfl (takeLease_risen h))))

/-! ### Streams -/

theorem closeBlock_risen {x0 x1} {S2 : State} (hk : Risen q S2) : ExcRisen q (closeBlock x0 x1 S2) := by
  unfold closeBlock
  split
  · exact exc_error
  · have h0 := excP_elim ‹_ = _› (q := q) (takeCounter_risen hk)
    exact exc_ok (risen_mk (risen_same (Frames.State_modStream_same sub_refl same_refl) rfl h0))
theorem drainPieces_risen {x0 x1 x2} {s : State} (hk : Risen q s) : SndRisen q (drainPieces x0 x1 x2 s) := by
  induction x2 generalizing s with
  | zero => exact hk
  | succ n ih =>
    unfold drainPieces
    split
    · exact hk
    · split
      · split
        · exact hk
        · rename_i he
          exact ih (exc_elim he (closeBlock_risen hk))
      · split
        · exact hk
        · exact ih (risen_same (Frames.State_modStream_same sub_refl same_refl) rfl hk)
theorem drainStream_risen {x0 x1} {S2 : State} (hk : Risen q S2) : SndRisen q (drainStream x0 x1 S2) := by
  unfold drainStream
  split
  · exact snd_mk hk
  · exact drainPieces_risen hk
theorem closeEarly_risen {x0 x1} {S2 : State} (hk : Risen q S2) : SndRisen q (closeEarly x0 x1 S2) := by
  unfold closeEarly
  extract_lets -merge -underBinder +onlyGivenNames z0
  have h1 : SndRisen q z0 := drainStream_risen hk
  clear_value z0
  split
  · exact snd_mk (snd_snd h1)
  · exact h1
  · refine snd_if h1 ?_
    split
    · exact snd_mk (snd_snd h1)
    · have h3 := exc_elim ‹_ = _› (q := q) (closeBlock_risen (snd_snd h1))
      exact snd_mk h3
theorem drainEntry_risen {x0 x1 x2 x3} {S4 : State} (hk : Risen q S4) : Risen q (drainEntry x0 x1 x2 x3 S4) := by
  unfold drainEntry
  split
  · have h0 := snd_elim ‹_ = _› (q := q) (drainStream_risen hk)
    exact risen_same (Frames.entryDone_same sub_refl same_refl) rfl h0
  · have h1 := snd_elim ‹_ = _› (q := q) (drainStream_risen hk)
    exact risen_same (Frames.dispatch_same sub_refl same_refl) rfl h1
  · have h2 := snd_elim ‹_ = _› (q := q) (drainStream_risen hk)
    exact risen_same (Frames.exhaust_same sub_refl same_refl) rfl h2
theorem takeEntry_risen {x0 x1 x2 x3} {S4 : State} (hk : Risen q S4) : Risen q (takeEntry x0 x1 x2 x3 S4) := by
  unfold takeEntry
  split
  · refine risen_if (drainEntry_risen hk) ?_
    split
    · exact risen_same (Frames.completeWrite_same sub_refl same_refl) rfl hk
    · exact drainEntry_risen (risen_same (Frames.frameEntry_same sub_refl same_refl) rfl (risen_same (Frames.State_modCmd_same sub_refl same_refl) rfl hk))
  · exact hk
theorem hostBurst_risen {x0 x1 x2} {S3 : State} (hk : Risen q S3) : Risen q (hostBurst x0 x1 x2 S3) := by
  unfold hostBurst
  split
  · exact hk
  · split
    · exact risen_same (Frames.endOfChain_same sub_refl same_refl) rfl hk
    · exact risen_if (risen_same (Frames.loadSegment_same sub_refl same_refl) rfl (risen_same (Frames.State_modCmd_same sub_refl same_refl) rfl hk)) (risen_if (risen_if (risen_same (Frames.endOfChain_same sub_refl same_refl) rfl (risen_same (Frames.State_modCmd_same sub_refl same_refl) rfl hk)) (risen_same (Frames.State_modCmd_same sub_refl same_refl) rfl hk)) (risen_if (risen_same (Frames.State_modCmd_same sub_refl same_refl) rfl hk) (takeEntry_risen (risen_same (Frames.State_modCmd_same sub_refl same_refl) rfl hk))))
theorem hostBursts_risen {x0 x1 x2 x3} {s : State} (hk : Risen q s) : Risen q (hostBursts x0 x1 x2 x3 s) := by
  induction x3 generalizing s with
  | zero => exact hk
  | succ n ih =>
    unfold hostBursts
    split
    · exact risen_if (ih (hostBurst_risen hk)) (hk)
    · exact hk
theorem retryStaged_risen {x0} {S1 : State} (hk : Risen q S1) : Risen q (retryStaged x0 S1) := by
  refine risen_if hk ?_
  refine risen_foldl (fun _ _ h0 => ?_) hk
  split
  · exact risen_if (takeEntry_risen h0) h0
  · exact h0

/-! ### HostCmds -/

theorem instCmd_risen {x0 x1 x2 x3} {S4 : State} (hx3 : ∀ y0 s, Risen q s → Risen q (x3 y0 s)) (hk : Risen q S4) : Risen q (instCmd x0 x1 x2 x3 S4) := by
  unfold instCmd
  split
  · exact hk
  · exact hx3 _ _ hk
theorem streamCmd_risen {x0 x1 x2 x3} {S4 : State} (hx3 : ∀ y0 s, Risen q s → Risen q (x3 y0 s)) (hk : Risen q S4) : Risen q (streamCmd x0 x1 x2 x3 S4) := by
  unfold streamCmd
  split
  · exact risen_same (Frames.endSt_same sub_refl same_refl) rfl hk
  · split
    · exact risen_same (Frames.endSt_same sub_refl same_refl) rfl hk
    · exact risen_if (hx3 _ _ hk) (risen_same (Frames.endSt_same sub_refl same_refl) rfl hk)
theorem closeStream_risen {x0 x1} {S2 : State} (hk : Risen q S2) : Risen q (closeStream x0 x1 S2) := by
  refine risen_if (risen_same (Frames.endSt_same sub_refl same_refl) rfl hk) ?_
  split
  · exact risen_same (Frames.endSt_same sub_refl same_refl) rfl hk
  · refine risen_if (risen_same (Frames.closeNow_same sub_refl same_refl) rfl hk) ?_
    refine risen_if (risen_same (Frames.endSt_same sub_refl same_refl) rfl hk) ?_
    refine risen_if (risen_same (Frames.closeNow_same sub_refl same_refl) rfl hk) ?_
    split
    · have h0 := snd_elim ‹_ = _› (q := q) (closeEarly_risen hk)
      exact hk
    · have h1 := snd_elim ‹_ = _› (q := q) (closeEarly_risen hk)
      exact risen_same (Frames.endSt_same sub_refl same_refl) rfl hk
    · have h2 := snd_elim ‹_ = _› (q := q) (closeEarly_risen hk)
      split
      · exact h2
      · exact risen_same (Frames.settleWaits_same sub_refl same_refl) rfl (risen_same (Frames.dispatch_same sub_refl same_refl) rfl (risen_same (Frames.pump_same sub_refl same_refl) rfl (risen_same (Frames.endStream_same sub_refl same_refl) rfl (risen_same (Frames.State_modCmd_same sub_refl same_refl) rfl h2))))
theorem execCloseStream_risen {x0 x1} {S2 : State} (hk : Risen q S2) : OutRisen q (execCloseStream x0 x1 S2) :=
  next_risen (instCmd_risen (fun _ _ h0 => closeStream_risen h0) hk)
theorem sync_risen {x0 x1} {S2 : State} (hk : Risen q S2) : Risen q (sync x0 x1 S2) := by
  refine risen_if (risen_same (Frames.endSt_same sub_refl same_refl) rfl hk) ?_
  refine risen_if (risen_same (Frames.endSt_same sub_refl same_refl) rfl hk) ?_
  refine streamCmd_risen (fun _ _ h0 => ?_) hk
  split
  · have h1 := snd_elim ‹_ = _› (q := q) (closeEarly_risen h0)
    exact h0
  · have h2 := snd_elim ‹_ = _› (q := q) (closeEarly_risen h0)
    exact risen_same (Frames.endSt_same sub_refl same_refl) rfl h0
  · have h3 := snd_elim ‹_ = _› (q := q) (closeEarly_risen h0)
    split
    · exact h3
    · exact risen_same (Frames.settleWaits_same sub_refl same_refl) rfl (risen_same (Frames.pump_same sub_refl same_refl) rfl (risen_same (Frames.dispatch_same sub_refl same_refl) rfl (risen_same (Frames.State_modCmd_same sub_refl same_refl) rfl (risen_same (Frames.addItem_same sub_refl same_refl) rfl h3))))
theorem execSync_risen {x0 x1} {S2 : State} (hk : Risen q S2) : OutRisen q (execSync x0 x1 S2) :=
  next_risen (instCmd_risen (fun _ _ h0 => sync_risen h0) hk)
theorem writeMark_risen {x0 x1} {S2 : State} (hk : Risen q S2) : Risen q (writeMark x0 x1 S2) := by
  unfold writeMark
  extract_lets -merge -underBinder +onlyGivenNames z0
  clear_value z0
  refine risen_if (risen_same (Frames.endSt_same sub_refl same_refl) rfl hk) ?_
  refine risen_if (risen_same (Frames.endSt_same sub_refl same_refl) rfl hk) ?_
  refine streamCmd_risen (fun _ _ h1 => ?_) hk
  split
  · have h2 := snd_elim ‹_ = _› (q := q) (closeEarly_risen h1)
    exact h1
  · have h3 := snd_elim ‹_ = _› (q := q) (closeEarly_risen h1)
    exact risen_same (Frames.endSt_same sub_refl same_refl) rfl h1
  · have h4 := snd_elim ‹_ = _› (q := q) (closeEarly_risen h1)
    split
    · exact h4
    · exact risen_same (Frames.settleWaits_same sub_refl same_refl) rfl (risen_same (Frames.pump_same sub_refl same_refl) rfl (risen_same (Frames.dispatch_same sub_refl same_refl) rfl (risen_same (Frames.State_modCmd_same sub_refl same_refl) rfl (risen_same (Frames.State_modInst_same sub_refl same_refl) rfl (risen_same (Frames.State_modStream_same sub_refl same_refl) rfl (risen_foldl (fun _ _ h7 => risen_same (Frames.addItem_same sub_refl same_refl) rfl h7) h4))))))
theorem execWriteMark_risen {x0 x1} {S2 : State} (hk : Risen q S2) : OutRisen q (execWriteMark x0 x1 S2) :=
  next_risen (instCmd_risen (fun _ _ h0 => writeMark_risen h0) hk)
theorem startWrite_risen {x0 x1 x2} {S3 : State} (hk : Risen q S3) : Risen q (startWrite x0 x1 x2 S3) := by
  unfold startWrite
  extract_lets -merge -underBinder +onlyGivenNames z0
  clear_value z0
  split
  · exact risen_same (Frames.endSt_same sub_refl same_refl) rfl hk
  · exact risen_if (risen_same (Frames.endSt_same sub_refl same_refl) rfl hk) (streamCmd_risen (fun _ _ h1 => hostBursts_risen (risen_same (Frames.loadSegment_same sub_refl same_refl) rfl (risen_same (Frames.State_modCmd_same sub_refl same_refl) rfl h1))) hk)
theorem execWriteRecords_risen {x0 x1 x2} {S3 : State} (hk : Risen q S3) : OutRisen q (execWriteRecords x0 x1 x2 S3) :=
  next_risen (instCmd_risen (fun _ _ h0 => startWrite_risen h0) hk)
theorem execStreamAppend_risen {x0 x1 x2} {S3 : State} (hk : Risen q S3) : OutRisen q (execStreamAppend x0 x1 x2 S3) :=
  next_risen (instCmd_risen (fun _ _ h0 => startWrite_risen h0) hk)
theorem applyPending_risen {x0 x1} {S2 : State} (hk : Risen q S2) : Risen q (applyPending x0 x1 S2) := by
  unfold applyPending
  split
  · exact hk
  · exact risen_same (Frames.dispatch_same sub_refl same_refl) rfl (retryStaged_risen (risen_foldl (fun _ _ h8 => risen_same (Frames.complete_same sub_refl same_refl) rfl h8) (risen_same (Frames.bumpGeneration_same sub_refl same_refl) rfl (risen_if (risen_same (Frames.wipeKeys_same sub_refl same_refl) rfl (risen_same (Frames.State_modSlot_same sub_refl same_refl) rfl hk)) (risen_same (Frames.State_modSlot_same sub_refl same_refl) rfl hk)))))
theorem applyIfIdle_risen {x0 x1} {S2 : State} (hk : Risen q S2) : Risen q (applyIfIdle x0 x1 S2) :=
  risen_if (applyPending_risen hk) hk
theorem slotBind_risen {x0 x1} {S2 : State} (hk : Risen q S2) : Risen q (slotBind x0 x1 S2) := by
  unfold slotBind
  split
  · exact risen_same (Frames.endSt_same sub_refl same_refl) rfl hk
  · extract_lets -merge -underBinder +onlyGivenNames z0
    clear_value z0
    extract_lets -merge -underBinder +onlyGivenNames z1
    clear_value z1
    split
    · exact risen_same (Frames.endSt_same sub_refl same_refl) rfl hk
    · exact risen_same (Frames.endOk_same sub_refl same_refl) rfl (risen_same (Frames.eraseSlot_same sub_refl same_refl) rfl hk)
    · exact risen_if (risen_same (Frames.endOk_same sub_refl same_refl) rfl hk) (applyIfIdle_risen (risen_same (Frames.State_modCmd_same sub_refl same_refl) rfl (risen_same (Frames.mergeRewrite_same sub_refl same_refl) rfl hk)))
theorem execSlotBind_risen {x0 x1} {S2 : State} (hk : Risen q S2) : OutRisen q (execSlotBind x0 x1 S2) :=
  next_risen (instCmd_risen (fun _ _ h0 => slotBind_risen h0) hk)
theorem slotRekey_risen {x0 x1} {S2 : State} (hk : Risen q S2) : Risen q (slotRekey x0 x1 S2) := by
  refine risen_if (risen_same (Frames.endSt_same sub_refl same_refl) rfl hk) ?_
  extract_lets -merge -underBinder +onlyGivenNames z0
  clear_value z0
  refine risen_if (risen_same (Frames.endSt_same sub_refl same_refl) rfl hk) ?_
  refine risen_if (risen_same (Frames.endSt_same sub_refl same_refl) rfl hk) ?_
  extract_lets -merge -underBinder +onlyGivenNames z1
  clear_value z1
  extract_lets -merge -underBinder +onlyGivenNames z2
  have h3 : Risen q z2 := setEpoch_risen hk
  clear_value z2
  extract_lets -merge -underBinder +onlyGivenNames z13
  clear_value z13
  extract_lets -merge -underBinder +onlyGivenNames z14
  have h15 : Risen q z14 := risen_foldl (fun _ _ h19 => risen_same (Frames.State_modStream_same sub_refl same_refl) rfl h19) h3
  clear_value z14
  exact risen_same (Frames.endOk_same sub_refl same_refl) rfl (risen_if (risen_same (Frames.State_modSlot_same sub_refl same_refl) rfl h15) h15)
theorem execSlotRekey_risen {x0 x1} {S2 : State} (hk : Risen q S2) : OutRisen q (execSlotRekey x0 x1 S2) :=
  next_risen (instCmd_risen (fun _ _ h0 => slotRekey_risen h0) hk)
theorem execPendingCopyApply_risen {x0 x1} {S2 : State} (hk : Risen q S2) : OutRisen q (execPendingCopyApply x0 x1 S2) :=
  next_risen (applyIfIdle_risen hk)

/-! ### Manager -/

theorem mgmtCmd_risen {x0 x1 x2} {S3 : State} (hx2 : ∀ y0 s, Risen q s → Risen q (x2 y0 s)) (hk : Risen q S3) : Risen q (mgmtCmd x0 x1 x2 S3) := by
  unfold mgmtCmd
  split
  · exact hk
  · exact risen_if (risen_same (Frames.mEnd_same sub_refl same_refl) rfl hk) (hx2 _ _ hk)
theorem subCmd_risen {x0 x1 x2 x3 x4} {S5 : State} (hx4 : ∀ y0 s, Risen q s → Risen q (x4 y0 s)) (hk : Risen q S5) : Risen q (subCmd x0 x1 x2 x3 x4 S5) :=
  mgmtCmd_risen (fun _ _ h0 => risen_if (hx4 _ _ h0) (risen_if (risen_same (Frames.mEnd_same sub_refl same_refl) rfl h0) h0)) hk
theorem withTarget_risen {x0 x1} {S2 : State} (hx1 : ∀ y0 s, Risen q s → Risen q (x1 y0 s)) (hk : Risen q S2) : Risen q (withTarget x0 x1 S2) :=
  risen_if (hx1 _ _ hk) (risen_same (Frames.mEnd_same sub_refl same_refl) rfl hk)
theorem beginQuiesce_risen {x0} {S1 : State} (hk : Risen q S1) : Risen q (beginQuiesce x0 S1) :=
  risen_same (Frames.dispatch_same sub_refl same_refl) rfl (risen_same (Frames.closeAll_same sub_refl same_refl) rfl (risen_foldl (fun _ _ h8 => risen_same (Frames.rewindRead_same sub_refl same_refl) rfl h8) (risen_foldl (fun _ _ h5 => snd_snd (closeEarly_risen h5)) (risen_same (Frames.setInstState_same sub_refl same_refl) rfl (risen_same (Frames.State_modInst_same sub_refl same_refl) rfl hk)))))
theorem instanceQuiesce_risen {x0} {S1 : State} (hk : Risen q S1) : Risen q (instanceQuiesce x0 S1) := by
  refine withTarget_risen (fun _ _ h0 => ?_) hk
  refine risen_if (risen_same (Frames.mEnd_same sub_refl same_refl) rfl h0) ?_
  split
  · exact risen_same (Frames.mEnd_same sub_refl same_refl) rfl h0
  · exact risen_same (Frames.mEnd_same sub_refl same_refl) rfl h0
  · exact risen_same (Frames.mOk_same sub_refl same_refl) rfl h0
  · exact risen_same (Frames.mOk_same sub_refl same_refl) rfl h0
  · exact risen_same (Frames.State_modCmd_same sub_refl same_refl) rfl h0
  · exact beginQuiesce_risen (risen_same (Frames.State_modCmd_same sub_refl same_refl) rfl h0)
theorem execInstanceQuiesce_risen {x0} {S1 : State} (hk : Risen q S1) : OutRisen q (execInstanceQuiesce x0 S1) :=
  next_risen (mgmtCmd_risen (fun _ _ h0 => instanceQuiesce_risen h0) hk)
theorem freezeInst_risen {x0} {S1 : State} (hk : Risen q S1) : Risen q (freezeInst x0 S1) :=
  risen_same (Frames.settleWaits_same sub_refl same_refl) rfl (risen_same (Frames.dispatch_same sub_refl same_refl) rfl (risen_foldl (fun _ _ h16 => applyPending_risen h16) (risen_same (Frames.setInstState_same sub_refl same_refl) rfl (risen_same (Frames.State_modInst_same sub_refl same_refl) rfl (risen_same (Frames.wipeKeys_same sub_refl same_refl) rfl (risen_same (Frames.endAll_same sub_refl same_refl) rfl (risen_same (Frames.freezeCmds_same sub_refl same_refl) rfl (risen_foldl (fun _ _ h9 => risen_same (Frames.rewindRead_same sub_refl same_refl) rfl h9) (risen_same (Frames.discardBlocks_same sub_refl same_refl) rfl (risen_if (risen_same (Frames.endQuiesce_same sub_refl same_refl) rfl hk) hk))))))))))
theorem instanceFreeze_risen {x0} {S1 : State} (hk : Risen q S1) : Risen q (instanceFreeze x0 S1) := by
  refine withTarget_risen (fun _ _ h0 => ?_) hk
  refine risen_if (risen_same (Frames.mEnd_same sub_refl same_refl) rfl h0) ?_
  split
  · exact risen_same (Frames.mEnd_same sub_refl same_refl) rfl h0
  · exact risen_same (Frames.mEnd_same sub_refl same_refl) rfl h0
  · exact risen_same (Frames.mEnd_same sub_refl same_refl) rfl h0
  · exact risen_same (Frames.mOk_same sub_refl same_refl) rfl (freezeInst_risen h0)
theorem execInstanceFreeze_risen {x0} {S1 : State} (hk : Risen q S1) : OutRisen q (execInstanceFreeze x0 S1) :=
  next_risen (mgmtCmd_risen (fun _ _ h0 => instanceFreeze_risen h0) hk)
/-- Each slot of a blob takes values above its own and is stored (log entry 30). -/
theorem restoreSlots_risen {v b roots} {s : State} (hk : Risen q s) : Risen q (restoreSlots v b roots s) := by
  refine risen_mk (risen_foldl (fun s k hs => ?_) hk)
  obtain ⟨⟨-, -, hlast, -⟩, -⟩ := hs (seqIx v k)
  exact risen_vset_storeSlot (risen_same (Frames.State_modSlot_same sub_refl same_refl) rfl hs) (Nat.min_le_right _ _)
    ⟨Nat.le_trans (Nat.le_max_left _ _) (Nat.le_add_right _ _), Nat.le_min.mpr ⟨Nat.le_succ_of_le (Nat.le_max_left _ _), hlast⟩⟩
theorem instanceRestore_risen {x0} {S1 : State} (hk : Risen q S1) : Risen q (instanceRestore x0 S1) := by
  refine withTarget_risen (fun _ _ h0 => ?_) hk
  extract_lets -merge -underBinder +onlyGivenNames z1
  clear_value z1
  refine risen_if (risen_same (Frames.mEnd_same sub_refl same_refl) rfl h0) ?_
  refine risen_if (risen_same (Frames.mEnd_same sub_refl same_refl) rfl h0) ?_
  refine risen_if (risen_same (Frames.mEnd_same sub_refl same_refl) rfl h0) ?_
  extract_lets -merge -underBinder +onlyGivenNames z2
  clear_value z2
  extract_lets -merge -underBinder +onlyGivenNames z3
  clear_value z3
  extract_lets -merge -underBinder +onlyGivenNames z4
  clear_value z4
  refine risen_if (risen_same (Frames.mEnd_same sub_refl same_refl) rfl h0) ?_
  extract_lets -merge -underBinder +onlyGivenNames z5
  clear_value z5
  extract_lets -merge -underBinder +onlyGivenNames z6
  clear_value z6
  extract_lets -merge -underBinder +onlyGivenNames z7
  clear_value z7
  refine risen_if (risen_same (Frames.mEnd_same sub_refl same_refl) rfl h0) ?_
  extract_lets -merge -underBinder +onlyGivenNames z8
  clear_value z8
  extract_lets -merge -underBinder +onlyGivenNames z9
  have h10 : Risen q z9 := risen_if (risen_same (Frames.keyWork_same sub_refl same_refl) rfl h0) h0
  clear_value z9
  exact risen_same (Frames.mOk_same sub_refl same_refl) rfl (risen_same (Frames.setInstState_same sub_refl same_refl) rfl (risen_same (Frames.newEcdh_same sub_refl same_refl) rfl (restoreSlots_risen (risen_same (Frames.applyCfg_same sub_refl same_refl) rfl (risen_if (risen_mk h10) h10)))))
theorem execInstanceRestore_risen {x0} {S1 : State} (hk : Risen q S1) : OutRisen q (execInstanceRestore x0 S1) :=
  next_risen (mgmtCmd_risen (fun _ _ h0 => instanceRestore_risen h0) hk)
theorem putRoot_risen {x0 x1 x2 x3} {S4 : State} (hk : Risen q S4) : Risen q (putRoot x0 x1 x2 x3 S4) :=
  risen_if (risen_same (Frames.mOk_same sub_refl same_refl) rfl (risen_same (Frames.bumpGeneration_same sub_refl same_refl) rfl (risen_same (Frames.State_modSlot_same sub_refl same_refl) rfl hk))) (applyIfIdle_risen (risen_same (Frames.State_modCmd_same sub_refl same_refl) rfl (risen_same (Frames.mergeRewrite_same sub_refl same_refl) rfl hk)))
theorem rootImport_risen {x0} {S1 : State} (hk : Risen q S1) : Risen q (rootImport x0 S1) := by
  refine withTarget_risen (fun _ _ h0 => ?_) hk
  refine risen_if (risen_same (Frames.mEnd_same sub_refl same_refl) rfl h0) ?_
  refine risen_if (risen_same (Frames.mEnd_same sub_refl same_refl) rfl h0) ?_
  split
  · exact risen_same (Frames.mEnd_same sub_refl same_refl) rfl h0
  · refine risen_if (risen_same (Frames.mEnd_same sub_refl same_refl) rfl h0) ?_
    extract_lets -merge -underBinder +onlyGivenNames z1
    have h2 : Risen q z1 := risen_same (Frames.keyWork_same sub_refl same_refl) rfl h0
    clear_value z1
    split
    · exact risen_same (Frames.mEnd_same sub_refl same_refl) rfl (risen_same (Frames.raiseEv_same sub_refl same_refl) rfl h2)
    · exact putRoot_risen h2
theorem execRootImportImport_risen {x0} {S1 : State} (hk : Risen q S1) : OutRisen q (execRootImportImport x0 S1) :=
  next_risen (subCmd_risen (fun _ _ h0 => rootImport_risen h0) hk)

/-! ### Buffer -/

theorem strikeLines_risen {x0} {S1 : State} (hk : Risen q S1) : Risen q (strikeLines x0 S1) :=
  risen_foldl (fun _ _ h5 => strike_risen h5) (risen_foldl (fun _ _ h4 => risen_mk h4) hk)
theorem visitStripe_risen {x0 x1 x2} {S3 : State} (hk : Risen q S3) : SndRisen q (visitStripe x0 x1 x2 S3) :=
  snd_mk (strikeLines_risen (risen_same (Frames.writeBackLines_same sub_refl same_refl) rfl (risen_if (risen_same (Frames.noteUncorr_same sub_refl same_refl) rfl (risen_same (Frames.noteDecode_same sub_refl same_refl) rfl hk)) (risen_same (Frames.noteDecode_same sub_refl same_refl) rfl hk))))
theorem bufRead_risen {x0 x1 x2} {S3 : State} (hk : Risen q S3) : Risen q (bufRead x0 x1 x2 S3) :=
  risen_if (risen_same (Frames.bufAnswer_same sub_refl same_refl) rfl hk) (risen_if (risen_same (Frames.bufAnswer_same sub_refl same_refl) rfl (risen_same (Frames.noteUnfilled_same sub_refl same_refl) rfl hk)) (risen_same (Frames.bufAnswer_same sub_refl same_refl) rfl (snd_snd (visitStripe_risen hk))))
theorem bufWrite_risen {x0 x1 x2 x3 x4} {S5 : State} (hk : Risen q S5) : Risen q (bufWrite x0 x1 x2 x3 x4 S5) := by
  unfold bufWrite
  extract_lets -merge -underBinder +onlyGivenNames z0
  clear_value z0
  refine risen_if (risen_same (Frames.bufAnswer_same sub_refl same_refl) rfl hk) ?_
  refine risen_if (risen_same (Frames.bufAnswer_same sub_refl same_refl) rfl (risen_same (Frames.noteUnfilled_same sub_refl same_refl) rfl hk)) ?_
  refine risen_if (risen_same (Frames.bufAnswer_same sub_refl same_refl) rfl (risen_same (Frames.putData_same sub_refl same_refl) rfl hk)) ?_
  extract_lets -merge -underBinder +onlyGivenNames z1
  clear_value z1
  extract_lets -merge -underBinder +onlyGivenNames z2
  clear_value z2
  extract_lets -merge -underBinder +onlyGivenNames z3
  have h4 : Risen q z3 := risen_same (Frames.writeBackLines_same sub_refl same_refl) rfl (risen_same (Frames.noteDecode_same sub_refl same_refl) rfl hk)
  clear_value z3
  exact risen_same (Frames.bufAnswer_same sub_refl same_refl) rfl (strikeLines_risen (risen_same (Frames.putData_same sub_refl same_refl) rfl (risen_if (risen_same (Frames.noteUncorr_same sub_refl same_refl) rfl h4) h4)))
theorem engineRead_risen {x0 x1} {S2 : State} (hk : Risen q S2) : SndRisen q (engineRead x0 x1 S2) :=
  snd_mk (risen_foldl (fun _ _ h0 => snd_snd (visitStripe_risen h0)) hk)
theorem readBuffer_risen {x0 x1 x2} {s : State} (hk : Risen q s) : SndRisen q (readBuffer x0 x1 x2 s) := by
  induction x0 generalizing x1 x2 s with
  | zero => exact hk
  | succ n ih =>
    unfold readBuffer
    refine snd_if (hk) (?_)
    dsimp only
    split
    · exact ih (bufRead_risen hk)
    · exact bufRead_risen hk
theorem writeBuffer_risen {x0 x1 x2} {s : State} (hk : Risen q s) : SndRisen q (writeBuffer x0 x1 x2 s) := by
  induction x0 generalizing x1 x2 s with
  | zero => exact hk
  | succ n ih => exact snd_if (snd_mk hk) (snd_mk (snd_snd (ih (bufWrite_risen hk))))
theorem execBufferRead_risen {x0 x1 x2} {S3 : State} (hk : Risen q S3) : OutRisen q (execBufferRead x0 x1 x2 S3) :=
  next_risen (bufRead_risen hk)
theorem execBufferWrite_risen {x0 x1 x2 x3} {S4 : State} (hk : Risen q S4) : OutRisen q (execBufferWrite x0 x1 x2 x3 S4) :=
  next_risen (bufWrite_risen hk)
theorem rakeAt_risen {x0 x1 x2} {S3 : State} (hk : Risen q S3) : Risen q (rakeAt x0 x1 x2 S3) :=
  risen_if (snd_snd (visitStripe_risen hk)) (risen_mk (snd_snd (visitStripe_risen hk)))
theorem rakeVisit_risen {x0 x1} {S2 : State} (hk : Risen q S2) : Risen q (rakeVisit x0 x1 S2) := by
  refine risen_if hk ?_
  split
  · exact rakeAt_risen (risen_mk hk)
  · split
    · exact hk
    · extract_lets -merge -underBinder +onlyGivenNames z0
      have h1 : Risen q z0 := rakeAt_risen hk
      clear_value z0
      split <;> exact risen_mk h1
theorem execRakeVisit_risen {x0 x1} {S2 : State} (hk : Risen q S2) : OutRisen q (execRakeVisit x0 x1 S2) :=
  next_risen (rakeVisit_risen hk)
theorem absentDev_risen {x0} {S1 : State} (hk : Risen q S1) : Risen q (absentDev x0 S1) :=
  risen_same (Frames.bringupSettle_same sub_refl same_refl) rfl (loseDevice_risen hk)
theorem cxlLinkUp_risen {x0 x1 x2 x3 x4} {S5 : State} (hk : Risen q S5) : Risen q (cxlLinkUp x0 x1 x2 x3 x4 S5) :=
  risen_if hk (risen_if (absentDev_risen hk) (risen_if (risen_same (Frames.raiseEv_same sub_refl same_refl) rfl (risen_mk hk)) (risen_mk hk)))
theorem execCxlLinkUp_risen {x0 x1 x2 x3 x4} {S5 : State} (hk : Risen q S5) : OutRisen q (execCxlLinkUp x0 x1 x2 x3 x4 S5) :=
  next_risen (cxlLinkUp_risen hk)
theorem memoryActive_risen {x0 x1 x2 x3} {S4 : State} (hk : Risen q S4) : Risen q (memoryActive x0 x1 x2 x3 S4) :=
  risen_if hk (risen_if (absentDev_risen hk) (risen_same (Frames.bringupSettle_same sub_refl same_refl) rfl (risen_mk hk)))
theorem execMemoryActive_risen {x0 x1 x2 x3} {S4 : State} (hk : Risen q S4) : OutRisen q (execMemoryActive x0 x1 x2 x3 S4) :=
  next_risen (memoryActive_risen hk)
theorem bringupTimeout_risen {x0} {S1 : State} (hk : Risen q S1) : Risen q (bringupTimeout x0 S1) :=
  risen_if hk (absentDev_risen hk)
theorem execBringupTimeout_risen {x0} {S1 : State} (hk : Risen q S1) : OutRisen q (execBringupTimeout x0 S1) :=
  next_risen (bringupTimeout_risen hk)
theorem memdevLost_risen {x0 x1} {S2 : State} (hk : Risen q S2) : Risen q (memdevLost x0 x1 S2) :=
  risen_if hk (risen_same (Frames.bringupSettle_same sub_refl same_refl) rfl (loseDevice_risen (risen_if (risen_mk hk) hk)))
theorem execMemdevLost_risen {x0 x1} {S2 : State} (hk : Risen q S2) : OutRisen q (execMemdevLost x0 x1 S2) :=
  next_risen (memdevLost_risen hk)
theorem cxlBringup_risen {S0 : State} (hk : Risen q S0) : Risen q (cxlBringup S0) :=
  risen_if hk (risen_if (judgePewter_risen (risen_mk hk)) (risen_same (Frames.bringupSettle_same sub_refl same_refl) rfl (risen_mk hk)))

/-! ### Reads -/

theorem failDecode_risen {x0 x1 x2} {S3 : State} (hk : Risen q S3) : Risen q (failDecode x0 x1 x2 S3) := by
  unfold failDecode
  split
  · exact hk
  · extract_lets -merge -underBinder +onlyGivenNames z0
    clear_value z0
    extract_lets -merge -underBinder +onlyGivenNames z1
    have h2 : Risen q z1 := risen_same (Frames.raiseResend_same sub_refl same_refl) rfl hk
    clear_value z1
    extract_lets -merge -underBinder +onlyGivenNames _ z25
    have h26 : Risen q z25 := risen_mk h2
    clear_value z25
    extract_lets -merge -underBinder +onlyGivenNames z37
    clear_value z37
    extract_lets -merge -underBinder +onlyGivenNames z38
    have h39 : ∀ y40, Risen q y40 → Risen q (z38 y40) := by
      intro y40 hy
      exact risen_if (risen_same (Frames.freeSlice_same sub_refl same_refl) rfl hy) hy
    clear_value z38
    extract_lets -merge -underBinder +onlyGivenNames z41
    have h42 : Risen q z41 := by
      unfold z41
      split
      · exact risen_if (risen_mk (risen_same (Frames.State_modRBlk_same sub_refl same_refl) rfl h26)) (risen_same (Frames.queueSlice_same sub_refl same_refl) rfl (risen_same (Frames.State_modRBlk_same sub_refl same_refl) rfl h26))
      · exact risen_same (Frames.queueSlice_same sub_refl same_refl) rfl (h39 _ (risen_same (Frames.State_modRBlk_same sub_refl same_refl) rfl h26))
      · exact risen_if (h39 _ (risen_same (Frames.stopAt_same sub_refl same_refl) rfl h26)) (h39 _ (risen_same (Frames.State_modRBlk_same sub_refl same_refl) rfl h26))
      · exact h39 _ (risen_same (Frames.stopAt_same sub_refl same_refl) rfl h26)
    clear_value z41
    exact risen_same (Frames.dispatchRead_same sub_refl same_refl) rfl (strike_risen h42)
theorem recordBad_risen {x0 x1 x2} {S3 : State} (hk : Risen q S3) : Risen q (recordBad x0 x1 x2 S3) :=
  risen_if (risen_same (Frames.dropRBlks_same sub_refl same_refl) rfl (risen_same (Frames.pushItem_same sub_refl same_refl) rfl hk)) (risen_same (Frames.dispatchRead_same sub_refl same_refl) rfl (risen_same (Frames.decodeAgain_same sub_refl same_refl) rfl (risen_same (Frames.modRd_same sub_refl same_refl) rfl (strike_risen (risen_same (Frames.raiseResend_same sub_refl same_refl) rfl hk)))))
theorem takeBlock_risen {x0 x1} {S2 : State} (hk : Risen q S2) : Risen q (takeBlock x0 x1 S2) := by
  unfold takeBlock
  extract_lets -merge -underBinder +onlyGivenNames z0
  clear_value z0
  extract_lets -merge -underBinder +onlyGivenNames z1
  clear_value z1
  extract_lets -merge -underBinder +onlyGivenNames z2
  clear_value z2
  refine risen_if (failDecode_risen hk) ?_
  extract_lets -merge -underBinder +onlyGivenNames z3
  clear_value z3
  extract_lets -merge -underBinder +onlyGivenNames z4
  clear_value z4
  extract_lets -merge -underBinder +onlyGivenNames _ z5
  have h6 : Risen q z5 := passAfter_risen (risen_mk hk)
  clear_value z5
  extract_lets -merge -underBinder +onlyGivenNames z12
  clear_value z12
  extract_lets -merge -underBinder +onlyGivenNames z13
  have h14 : Risen q z13 := risen_foldl (fun _ _ h16 => risen_same (Frames.pushItem_same sub_refl same_refl) rfl h16) h6
  clear_value z13
  split
  · exact recordBad_risen h14
  · exact risen_same (Frames.modRd_same sub_refl same_refl) rfl (risen_same (Frames.settleParsed_same sub_refl same_refl) rfl h14)
theorem drainHead_risen {x0} {S1 : State} (hk : Risen q S1) : Risen q (drainHead x0 S1) := by
  unfold drainHead
  split
  · refine risen_if hk ?_
    split
    · exact risen_same (Frames.dropRBlks_same sub_refl same_refl) rfl (risen_same (Frames.pushItem_same sub_refl same_refl) rfl hk)
    · exact risen_if (risen_same (Frames.removeRBlk_same sub_refl same_refl) rfl (risen_same (Frames.pushItem_same sub_refl same_refl) rfl hk)) (risen_if (risen_same (Frames.removeRBlk_same sub_refl same_refl) rfl (risen_same (Frames.modRd_same sub_refl same_refl) rfl hk)) (takeBlock_risen hk))
  · exact hk
theorem drainRead_risen {x0} {S1 : State} (hk : Risen q S1) : Risen q (drainRead x0 S1) :=
  risen_foldl (fun _ _ h0 => drainHead_risen h0) hk
theorem pumpReads_risen {S0 : State} (hk : Risen q S0) : Risen q (pumpReads S0) := by
  unfold pumpReads
  extract_lets -merge -underBinder +onlyGivenNames z0
  have h1 : Risen q z0 := by
    unfold z0
    refine risen_foldl (fun _ _ h4 => ?_) hk
    refine risen_foldl (fun _ _ h5 => ?_) h4
    split
    · exact drainRead_risen (risen_if (risen_same (Frames.extractPseudo_same sub_refl same_refl) rfl h5) h5)
    · exact h5
  clear_value z0
  exact risen_same (Frames.settleReadBufs_same sub_refl same_refl) rfl (risen_same (Frames.settleAllReads_same sub_refl same_refl) rfl h1)
theorem failExtract_risen {x0 x1} {S2 : State} (hk : Risen q S2) : Risen q (failExtract x0 x1 S2) := by
  unfold failExtract
  extract_lets -merge -underBinder +onlyGivenNames z0
  clear_value z0
  extract_lets -merge -underBinder +onlyGivenNames z1
  have h2 : Risen q z1 := strike_risen (risen_same (Frames.raiseResend_same sub_refl same_refl) rfl hk)
  clear_value z1
  split
  · exact risen_same (Frames.State_modRBlk_same sub_refl same_refl) rfl h2
  · exact risen_same (Frames.State_modRBlk_same sub_refl same_refl) rfl h2
  · exact risen_same (Frames.State_modRBlk_same sub_refl same_refl) rfl h2
  · exact pumpReads_risen (risen_same (Frames.stopAt_same sub_refl same_refl) rfl h2)
theorem erasePoison_risen {x0} {S1 : State} (hk : Risen q S1) : Risen q (erasePoison x0 S1) := by
  unfold erasePoison
  split
  · exact hk
  · extract_lets -merge -underBinder +onlyGivenNames z0
    clear_value z0
    extract_lets -merge -underBinder +onlyGivenNames z1
    clear_value z1
    refine risen_if (snd_snd (engineRead_risen hk)) ?_
    extract_lets -merge -underBinder +onlyGivenNames z2
    have h3 : Risen q z2 := snd_snd (engineRead_risen hk)
    clear_value z2
    exact risen_same (Frames.State_modRdAt_same sub_refl same_refl) rfl (risen_if (risen_foldl (fun _ _ h14 => risen_same (Frames.freshStripes_same sub_refl same_refl) rfl h14) h3) h3)
theorem extractBurst_risen {x0 x1 x2} {S3 : State} (hk : Risen q S3) : Risen q (extractBurst x0 x1 x2 S3) := by
  unfold extractBurst
  extract_lets -merge -underBinder +onlyGivenNames z0
  clear_value z0
  extract_lets -merge -underBinder +onlyGivenNames z1
  clear_value z1
  extract_lets -merge -underBinder +onlyGivenNames z2
  have h3 : Risen q z2 := risen_same (Frames.moverMoved_same sub_refl same_refl) rfl hk
  clear_value z2
  refine risen_if ?_ ?_
  · split
    · exact pumpReads_risen (erasePoison_risen (risen_same (Frames.State_modRBlk_same sub_refl same_refl) rfl h3))
    · exact h3
  · refine risen_if (risen_same (Frames.State_modRBlk_same sub_refl same_refl) rfl h3) ?_
    split
    · exact failExtract_risen h3
    · exact pumpReads_risen (risen_same (Frames.dispatchRead_same sub_refl same_refl) rfl (passAfter_risen (risen_same (Frames.State_modRBlk_same sub_refl same_refl) rfl h3)))
theorem extractBlock_risen {x0 x1 x2 x3} {S4 : State} (hk : Risen q S4) : Risen q (extractBlock x0 x1 x2 x3 S4) := by
  unfold extractBlock
  split
  · exact hk
  · refine risen_if hk ?_
    split
    · exact hk
    · have h0 := optP_elim ‹_ = _› (q := q) (optP_same (Frames.extracting_same sub_refl same_refl) rfl hk)
      exact risen_if (extractBurst_risen (risen_same (Frames.serveOldest_same sub_refl same_refl) rfl h0)) hk
theorem failOpen_risen {x0 x1 x2} {S3 : State} (hk : Risen q S3) : Risen q (failOpen x0 x1 x2 S3) := by
  unfold failOpen
  extract_lets -merge -underBinder +onlyGivenNames z0
  have h1 : Risen q z0 := risen_if (risen_same (Frames.raiseResend_same sub_refl same_refl) rfl hk) (risen_same (Frames.raiseEv_same sub_refl same_refl) rfl hk)
  clear_value z0
  extract_lets -merge -underBinder +onlyGivenNames _ z16
  have h17 : Risen q z16 := risen_if h1 (risen_mk h1)
  clear_value z16
  extract_lets -merge -underBinder +onlyGivenNames z24
  have h25 : Risen q z24 := by
    unfold z24
    split
    · exact risen_mk (risen_same (Frames.State_modRBlk_same sub_refl same_refl) rfl h17)
    · exact risen_same (Frames.freeEngine_same sub_refl same_refl) rfl (risen_same (Frames.State_modRBlk_same sub_refl same_refl) rfl h17)
    · exact risen_same (Frames.freeEngine_same sub_refl same_refl) rfl (risen_same (Frames.State_modRBlk_same sub_refl same_refl) rfl h17)
    · exact risen_same (Frames.freeEngine_same sub_refl same_refl) rfl (risen_same (Frames.stopAt_same sub_refl same_refl) rfl h17)
  clear_value z24
  exact pumpReads_risen (risen_same (Frames.dispatchRead_same sub_refl same_refl) rfl (drainRead_risen (strike_risen h25)))
theorem tagMismatch_risen {x0 x1} {S2 : State} (hk : Risen q S2) : Risen q (tagMismatch x0 x1 S2) := by
  unfold tagMismatch
  extract_lets -merge -underBinder +onlyGivenNames _ z0
  have h1 : Risen q z0 := risen_same (Frames.freeEngine_same sub_refl same_refl) rfl (risen_mk hk)
  clear_value z0
  extract_lets -merge -underBinder +onlyGivenNames z4
  have h5 : Risen q z4 := by
    unfold z4
    split
    · exact risen_same (Frames.State_modRBlk_same sub_refl same_refl) rfl h1
    · exact risen_same (Frames.stopAt_same sub_refl same_refl) rfl (risen_same (Frames.raiseEv_same sub_refl same_refl) rfl h1)
  clear_value z4
  exact pumpReads_risen (risen_same (Frames.dispatchRead_same sub_refl same_refl) rfl (drainRead_risen h5))
theorem opened_risen {x0 x1 x2} {S3 : State} (hk : Risen q S3) : Risen q (opened x0 x1 x2 S3) := by
  unfold opened
  extract_lets -merge -underBinder +onlyGivenNames z0
  have h1 : Risen q z0 := risen_same (Frames.State_modRBlk_same sub_refl same_refl) rfl hk
  clear_value z0
  extract_lets -merge -underBinder +onlyGivenNames z8
  have h9 : Risen q z8 := risen_if (risen_same (Frames.freeEngine_same sub_refl same_refl) rfl (risen_same (Frames.State_modRBlk_same sub_refl same_refl) rfl h1)) (risen_same (Frames.queueSlice_same sub_refl same_refl) rfl h1)
  clear_value z8
  extract_lets -merge -underBinder +onlyGivenNames z12
  have h13 : Risen q z12 := by
    unfold z12
    split
    · exact strike_risen h9
    · exact h9
  clear_value z12
  exact pumpReads_risen (risen_same (Frames.dispatchRead_same sub_refl same_refl) rfl (passAfter_risen h13))
theorem openSealed_risen {x0 x1 x2 x3 x4} {S5 : State} (hk : Risen q S5) : Risen q (openSealed x0 x1 x2 x3 x4 S5) := by
  refine risen_if (failOpen_risen hk) ?_
  extract_lets -merge -underBinder +onlyGivenNames z0
  clear_value z0
  extract_lets -merge -underBinder +onlyGivenNames z1
  have h2 : Risen q z1 := risen_same (Frames.cacheKey_same sub_refl same_refl) rfl hk
  clear_value z1
  split
  · exact tagMismatch_risen h2
  · exact tagMismatch_risen h2
  · exact failOpen_risen h2
  · exact opened_risen h2
theorem cipherOpen_risen {x0 x1} {S2 : State} (hk : Risen q S2) : Risen q (cipherOpen x0 x1 S2) := by
  unfold cipherOpen
  split
  · exact hk
  · split
    · exact hk
    · split
      · split
        · exact opened_risen hk
        · exact failOpen_risen hk
      · split
        · exact opened_risen hk
        · exact failOpen_risen hk
      · exact openSealed_risen hk
      · exact hk
theorem execCipherOpenDone_risen {x0 x1} {S2 : State} (hk : Risen q S2) : OutRisen q (execCipherOpenDone x0 x1 S2) :=
  next_risen (cipherOpen_risen hk)
theorem decompressDone_risen {x0 x1} {S2 : State} (hk : Risen q S2) : Risen q (decompressDone x0 x1 S2) := by
  unfold decompressDone
  split
  · exact hk
  · split
    · exact pumpReads_risen (risen_same (Frames.dispatchRead_same sub_refl same_refl) rfl (drainRead_risen (risen_same (Frames.freeSlice_same sub_refl same_refl) rfl (risen_same (Frames.State_modRBlk_same sub_refl same_refl) rfl hk))))
    · exact pumpReads_risen (drainRead_risen (failDecode_risen hk))
theorem execSliceDecompressDone_risen {x0 x1} {S2 : State} (hk : Risen q S2) : OutRisen q (execSliceDecompressDone x0 x1 S2) :=
  next_risen (decompressDone_risen hk)
theorem failDeliver_risen {x0 x1 x2 x3} {S4 : State} (hk : Risen q S4) : Risen q (failDeliver x0 x1 x2 x3 S4) := by
  unfold failDeliver
  extract_lets -merge -underBinder +onlyGivenNames z0
  clear_value z0
  extract_lets -merge -underBinder +onlyGivenNames z1
  have h2 : Risen q z1 := strike_risen (risen_same (Frames.raiseResend_same sub_refl same_refl) rfl hk)
  clear_value z1
  split
  · exact risen_same (Frames.State_modCmd_same sub_refl same_refl) rfl h2
  · exact risen_same (Frames.State_modCmd_same sub_refl same_refl) rfl h2
  · exact risen_same (Frames.State_modCmd_same sub_refl same_refl) rfl h2
  · exact risen_same (Frames.failRecord_same sub_refl same_refl) rfl h2
theorem deliverNext_risen {x0 x1 x2 x3} {S4 : State} (hk : Risen q S4) : Risen q (deliverNext x0 x1 x2 x3 S4) := by
  unfold deliverNext
  split
  · exact hk
  · refine risen_if hk ?_
    split
    · exact hk
    · split
      · split
        · exact failDeliver_risen (risen_same (Frames.serveOldest_same sub_refl same_refl) rfl hk)
        · split
          · exact risen_same (Frames.failRecord_same sub_refl same_refl) rfl hk
          · have h0 := excP_elim ‹_ = _› (q := q) (excP_same (Frames.deliver_same sub_refl same_refl) rfl (risen_same (Frames.serveOldest_same sub_refl same_refl) rfl hk))
            extract_lets -merge -underBinder +onlyGivenNames z1
            have h2 : Risen q z1 := risen_same (Frames.moverMoved_same sub_refl same_refl) rfl (passAfter_risen h0)
            clear_value z1
            exact risen_if (pumpReads_risen (risen_same (Frames.modRd_same sub_refl same_refl) rfl h2)) h2
      · exact hk
theorem readFf2_risen {x0 x1 x2 x3} {S4 : State} (hk : Risen q S4) : Risen q (readFf2 x0 x1 x2 x3 S4) := by
  unfold readFf2
  split
  · exact risen_same (Frames.endSt_same sub_refl same_refl) rfl hk
  · extract_lets -merge -underBinder +onlyGivenNames z0
    clear_value z0
    refine risen_if hk ?_
    refine risen_if (risen_same (Frames.endSt_same sub_refl same_refl) rfl hk) ?_
    refine risen_if (risen_same (Frames.endSt_same sub_refl same_refl) rfl hk) ?_
    extract_lets -merge -underBinder +onlyGivenNames z1
    clear_value z1
    extract_lets -merge -underBinder +onlyGivenNames z2
    clear_value z2
    split
    · exact risen_same (Frames.complete_same sub_refl same_refl) rfl hk
    · exact risen_same (Frames.complete_same sub_refl same_refl) rfl hk
    · split
      · exact risen_same (Frames.complete_same sub_refl same_refl) rfl hk
      · have h3 := exc_elim ‹_ = _› (q := q) (exc_same (Frames.startJob_same sub_refl same_refl) rfl hk)
        exact pumpReads_risen (risen_same (Frames.dispatchRead_same sub_refl same_refl) rfl (risen_same (Frames.ff2Blocks_same sub_refl same_refl) rfl h3))
theorem readRecords_risen {x0 x1} {S2 : State} (hk : Risen q S2) : Risen q (readRecords x0 x1 S2) := by
  unfold readRecords
  extract_lets -merge -underBinder +onlyGivenNames z0
  clear_value z0
  split
  · exact risen_same (Frames.endSt_same sub_refl same_refl) rfl hk
  · refine risen_if (risen_same (Frames.endSt_same sub_refl same_refl) rfl hk) ?_
    refine streamCmd_risen (fun _ _ h1 => ?_) hk
    refine risen_if (readFf2_risen h1) ?_
    refine risen_if (risen_same (Frames.endSt_same sub_refl same_refl) rfl h1) ?_
    refine risen_if h1 ?_
    split
    · exact risen_same (Frames.complete_same sub_refl same_refl) rfl h1
    · have h2 := exc_elim ‹_ = _› (q := q) (exc_same (Frames.startJob_same sub_refl same_refl) rfl h1)
      exact pumpReads_risen (risen_same (Frames.needTape_same sub_refl same_refl) rfl h2)
theorem execReadRecords_risen {x0 x1} {S2 : State} (hk : Risen q S2) : OutRisen q (execReadRecords x0 x1 S2) :=
  next_risen (instCmd_risen (fun _ _ h0 => readRecords_risen h0) hk)

/-! ### Append -/

theorem failCode_risen {x0 x1 x2} {S3 : State} (hk : Risen q S3) : Risen q (failCode x0 x1 x2 S3) := by
  unfold failCode
  extract_lets -merge -underBinder +onlyGivenNames z0
  have h1 : Risen q z0 := risen_if (risen_same (Frames.raiseResend_same sub_refl same_refl) rfl hk) (risen_same (Frames.raiseEv_same sub_refl same_refl) rfl hk)
  clear_value z0
  extract_lets -merge -underBinder +onlyGivenNames _ z32
  have h33 : Risen q z32 := risen_if h1 (risen_mk h1)
  clear_value z32
  extract_lets -merge -underBinder +onlyGivenNames z48
  have h49 : Risen q z48 := by
    unfold z48
    split
    · exact risen_mk (risen_same (Frames.State_modBlk_same sub_refl same_refl) rfl h33)
    · exact risen_mk (risen_same (Frames.freeSlice_same sub_refl same_refl) rfl h33)
    · exact risen_mk (risen_same (Frames.freeSlice_same sub_refl same_refl) rfl h33)
    · exact risen_same (Frames.loseBlock_same sub_refl same_refl) rfl (risen_same (Frames.freeSlice_same sub_refl same_refl) rfl h33)
  clear_value z48
  exact risen_same (Frames.dispatch_same sub_refl same_refl) rfl (strike_risen h49)
theorem sliceCode_risen {x0 x1} {S2 : State} (hk : Risen q S2) : Risen q (sliceCode x0 x1 S2) := by
  unfold sliceCode
  split
  · exact hk
  · split
    · exact risen_if (risen_same (Frames.dispatch_same sub_refl same_refl) rfl (risen_same (Frames.loseBlock_same sub_refl same_refl) rfl (risen_same (Frames.freeSlice_same sub_refl same_refl) rfl hk))) (failCode_risen hk)
    · exact risen_same (Frames.dispatch_same sub_refl same_refl) rfl (passAfter_risen (risen_mk (risen_mk (risen_same (Frames.State_modBlk_same sub_refl same_refl) rfl hk))))
theorem execSliceCodeDone_risen {x0 x1} {S2 : State} (hk : Risen q S2) : OutRisen q (execSliceCodeDone x0 x1 S2) :=
  next_risen (sliceCode_risen hk)
theorem failSeal_risen {x0 x1 x2} {S3 : State} (hk : Risen q S3) : Risen q (failSeal x0 x1 x2 S3) := by
  unfold failSeal
  extract_lets -merge -underBinder +onlyGivenNames z0
  have h1 : Risen q z0 := risen_if (risen_same (Frames.raiseResend_same sub_refl same_refl) rfl hk) (risen_same (Frames.raiseEv_same sub_refl same_refl) rfl hk)
  clear_value z0
  extract_lets -merge -underBinder +onlyGivenNames _ z16
  have h17 : Risen q z16 := risen_if h1 (risen_mk h1)
  clear_value z16
  extract_lets -merge -underBinder +onlyGivenNames z24
  have h25 : Risen q z24 := by
    unfold z24
    split
    · exact risen_mk (risen_same (Frames.State_modBlk_same sub_refl same_refl) rfl h17)
    · exact risen_same (Frames.freeEngine_same sub_refl same_refl) rfl (risen_mk h17)
    · exact risen_same (Frames.freeEngine_same sub_refl same_refl) rfl (risen_mk h17)
    · exact risen_same (Frames.loseBlock_same sub_refl same_refl) rfl (risen_same (Frames.freeEngine_same sub_refl same_refl) rfl h17)
  clear_value z24
  exact risen_same (Frames.dispatch_same sub_refl same_refl) rfl (strike_risen h25)
theorem cipherSeal_risen {x0 x1} {S2 : State} (hk : Risen q S2) : Risen q (cipherSeal x0 x1 S2) := by
  unfold cipherSeal
  split
  · exact hk
  · split
    · exact failSeal_risen hk
    · extract_lets -merge -underBinder +onlyGivenNames z0
      clear_value z0
      extract_lets -merge -underBinder +onlyGivenNames z1
      have h2 : Risen q z1 := by
        unfold z1
        split
        · exact risen_same (Frames.cacheKey_same sub_refl same_refl) rfl hk
        · exact hk
      clear_value z1
      exact risen_same (Frames.settleWaits_same sub_refl same_refl) rfl (risen_same (Frames.settleGrants_same sub_refl same_refl) rfl (onBehalf_risen (fun _ h5 => risen_same (Frames.panAlloc_same sub_refl same_refl) rfl h5) (passAfter_risen (risen_same (Frames.State_modBlk_same sub_refl same_refl) rfl h2))))
theorem execCipherSealDone_risen {x0 x1} {S2 : State} (hk : Risen q S2) : OutRisen q (execCipherSealDone x0 x1 S2) :=
  next_risen (cipherSeal_risen hk)
theorem failMove_risen {x0 x1} {S2 : State} (hk : Risen q S2) : Risen q (failMove x0 x1 S2) := by
  unfold failMove
  extract_lets -merge -underBinder +onlyGivenNames z0
  clear_value z0
  extract_lets -merge -underBinder +onlyGivenNames z1
  have h2 : Risen q z1 := strike_risen (risen_same (Frames.raiseResend_same sub_refl same_refl) rfl hk)
  clear_value z1
  split
  · exact risen_same (Frames.State_modBlk_same sub_refl same_refl) rfl h2
  · exact risen_same (Frames.State_modBlk_same sub_refl same_refl) rfl h2
  · exact risen_same (Frames.dispatch_same sub_refl same_refl) rfl (risen_same (Frames.State_modBlk_same sub_refl same_refl) rfl (risen_same (Frames.giveBack_same sub_refl same_refl) rfl h2))
  · exact risen_same (Frames.loseBlock_same sub_refl same_refl) rfl h2
theorem panBurst_risen {x0 x1 x2 x3 x4} {S5 : State} (hk : Risen q S5) : Risen q (panBurst x0 x1 x2 x3 x4 S5) := by
  unfold panBurst
  extract_lets -merge -underBinder +onlyGivenNames z0
  clear_value z0
  extract_lets -merge -underBinder +onlyGivenNames z1
  clear_value z1
  extract_lets -merge -underBinder +onlyGivenNames z2
  have h3 : SndRisen q z2 := engineRead_risen (risen_same (Frames.moverMoved_same sub_refl same_refl) rfl hk)
  clear_value z2
  extract_lets -merge -underBinder +onlyGivenNames z18
  have h19 : Risen q z18 := snd_snd h3
  clear_value z18
  refine risen_if (failMove_risen h19) ?_
  refine risen_if (risen_same (Frames.State_modBlk_same sub_refl same_refl) rfl h19) ?_
  split
  · exact failMove_risen h19
  · exact risen_same (Frames.settleWaits_same sub_refl same_refl) rfl (risen_same (Frames.pump_same sub_refl same_refl) rfl (risen_same (Frames.giveBack_same sub_refl same_refl) rfl (passAfter_risen (risen_same (Frames.popItem_same sub_refl same_refl) rfl (risen_mk (risen_same (Frames.State_modStream_same sub_refl same_refl) rfl (risen_same (Frames.modDs_same sub_refl same_refl) rfl h19)))))))
theorem panIn_risen {x0 x1 x2 x3} {S4 : State} (hk : Risen q S4) : Risen q (panIn x0 x1 x2 x3 S4) := by
  unfold panIn
  split
  · exact hk
  · split
    · exact hk
    · exact risen_if (risen_same (Frames.noteWaits_same sub_refl same_refl) rfl (risen_same (Frames.closeDs_same sub_refl same_refl) rfl hk)) (risen_if hk (panBurst_risen hk))
theorem rowFailure_risen {x0 x1 x2} (hk : SndRisen q x1) : SndRisen q (rowFailure x0 x1 x2) := by
  unfold rowFailure
  extract_lets -merge -underBinder +onlyGivenNames s0
  have h0 : Risen q s0 := snd_snd hk
  clear_value s0
  split
  · exact hk
  · extract_lets -merge -underBinder +onlyGivenNames t rest s1
    have h9 : Risen q s1 := strike_risen (risen_same (Frames.raiseResend_same sub_refl same_refl) rfl h0)
    clear_value s1
    split
    · exact snd_mk h9
    · exact snd_mk h9
    · exact snd_mk h9
    · exact snd_mk (risen_same (Frames.loseRow_same sub_refl same_refl) rfl h9)
theorem rowPoison_risen {x0 x1 x2} {s : State} (hk : Risen q s) : Risen q (rowPoison x0 x1 x2 s) := by
  induction x1 generalizing x2 s with
  | zero => exact hk
  | succ n ih =>
    unfold rowPoison
    extract_lets t1 e t2 s1
    have h9 : Risen q s1 := strike_risen (risen_same (Frames.raiseResend_same sub_refl same_refl) rfl hk)
    clear_value s1
    split
    · exact ih h9
    · exact ih h9
    · exact ih h9
    · exact risen_same (Frames.loseRow_same sub_refl same_refl) rfl h9
theorem readTier_risen {x0} {S1 : State} (hk : Risen q S1) : Risen q (readTier x0 S1) := by
  refine risen_if hk ?_
  refine risen_foldl (fun _ _ h0 => ?_) hk
  split
  · exact h0
  · exact risen_if (snd_snd (engineRead_risen h0)) (rowPoison_risen (snd_snd (engineRead_risen h0)))
theorem rowFailures_risen {x0 x1} {S2 : State} (hk : Risen q S2) : Risen q (rowFailures x0 x1 S2) :=
  risen_foldl (fun _ _ h3 => passAfter_risen h3) (snd_snd (snd_foldl (fun _ _ h2 => rowFailure_risen h2) (snd_mk hk)))
theorem tierFix_risen {x0} {S1 : State} (hk : Risen q S1) : Risen q (tierFix x0 S1) :=
  risen_if hk (risen_if (risen_same (Frames.toCommitPoint_same sub_refl same_refl) rfl hk) (risen_if hk (risen_if (risen_same (Frames.leaveSep_same sub_refl same_refl) rfl hk) (risen_same (Frames.gateBoundary_same sub_refl same_refl) rfl (rowFailures_risen (readTier_risen (risen_same (Frames.fixNext_same sub_refl same_refl) rfl hk)))))))
theorem execTierFix_risen {x0} {S1 : State} (hk : Risen q S1) : OutRisen q (execTierFix x0 S1) :=
  next_risen (tierFix_risen hk)
theorem noteChanFail_risen {x0 x1} {S2 : State} (hk : Risen q S2) : Risen q (noteChanFail x0 x1 S2) := by
  unfold noteChanFail
  split
  · exact hk
  · exact risen_if (strike_risen (risen_same (Frames.modWr_same sub_refl same_refl) rfl hk)) (risen_same (Frames.modWr_same sub_refl same_refl) rfl hk)
theorem judgeRow_risen {x0 x1 x2} {S3 : State} (hk : Risen q S3) : Risen q (judgeRow x0 x1 x2 S3) := by
  unfold judgeRow
  extract_lets -merge -underBinder +onlyGivenNames z0
  extract_lets -merge -underBinder +onlyGivenNames z1
  clear_value z1
  extract_lets -merge -underBinder +onlyGivenNames z2
  have h3 : Risen q z2 := risen_same (Frames.countJudged_same sub_refl same_refl) rfl hk
  clear_value z2
  refine risen_if (risen_same (Frames.updateCommit_same sub_refl same_refl) rfl (risen_same (Frames.modWr_same sub_refl same_refl) rfl h3)) ?_
  extract_lets -merge -underBinder +onlyGivenNames z6
  have h7 : Risen q z6 := risen_if (noteChanFail_risen h3) h3
  clear_value z6
  exact risen_if (risen_mk h7) (risen_if (risen_same (Frames.startRecovery_same sub_refl same_refl) rfl h7) (risen_mk h7))
theorem judgeFrom_risen {x0 x1} {s : State} (hk : Risen q s) : Risen q (judgeFrom x0 x1 s) := by
  induction x1 generalizing s with
  | nil => exact hk
  | cons p l ih =>
    unfold judgeFrom
    refine risen_if hk ?_
    extract_lets x s1
    have h1 : Risen q s1 := risen_mk hk
    clear_value s1
    split
    · exact ih h1
    · exact judgeRow_risen h1
theorem judge_risen {x0} {S1 : State} (hk : Risen q S1) : Risen q (judge x0 S1) := judgeFrom_risen hk
theorem execCwoJudged_risen {x0} {S1 : State} (hk : Risen q S1) : OutRisen q (execCwoJudged x0 S1) :=
  next_risen (judge_risen hk)

/-! ### RingRecv -/

theorem failFrame_risen {x0 x1 x2} {S3 : State} (hk : Risen q S3) : Risen q (failFrame x0 x1 x2 S3) :=
  risen_foldl (fun _ _ h4 => strike_risen h4) (risen_same (Frames.dropFrame_same sub_refl same_refl) rfl (risen_same (Frames.State_modPort_same sub_refl same_refl) rfl hk))
theorem receive_risen {x0 x1 x2 x3 x4 x5} {S6 : State} (hx5 : ∀ s, Risen q s → Risen q (x5 s)) (hk : Risen q S6) : Risen q (receive x0 x1 x2 x3 x4 x5 S6) :=
  risen_if hk (risen_if (failFrame_risen hk) (risen_if hk (risen_if (risen_same (Frames.dropFrame_same sub_refl same_refl) rfl hk) (risen_if (risen_same (Frames.sendNak_same sub_refl same_refl) rfl hk) (hx5 _ (risen_same (Frames.acceptFrame_same sub_refl same_refl) rfl hk))))))
theorem receiveAck_risen {x0 x1 x2 x3 x4} {S5 : State} (hx4 : ∀ s, Risen q s → Risen q (x4 s)) (hk : Risen q S5) : Risen q (receiveAck x0 x1 x2 x3 x4 S5) :=
  risen_if hk (risen_if (failFrame_risen hk) (risen_if hk (risen_if (risen_same (Frames.dropFrame_same sub_refl same_refl) rfl hk) (hx4 _ hk))))
theorem routed_risen {x0 x1 x2} {S3 : State} (hx2 : ∀ s, Risen q s → Risen q (x2 s)) (hk : Risen q S3) : Risen q (routed x0 x1 x2 S3) :=
  risen_if (risen_if hk (hx2 _ (risen_same (Frames.forwardFrame_same sub_refl same_refl) rfl hk))) (risen_if (hx2 _ hk) (risen_if hk (risen_same (Frames.forwardFrame_same sub_refl same_refl) rfl hk)))
theorem unlessStrange_risen {x0 x1} {S2 : State} (hx1 : ∀ s, Risen q s → Risen q (x1 s)) (hk : Risen q S2) : Risen q (unlessStrange x0 x1 S2) :=
  risen_if hk (hx1 _ hk)
theorem ofGroup_risen {x0 x1} {S2 : State} (hx1 : ∀ s, Risen q s → Risen q (x1 s)) (hk : Risen q S2) : Risen q (ofGroup x0 x1 S2) :=
  risen_if hk (unlessStrange_risen (fun _ h0 => hx1 _ h0) hk)

/-! ### RingServe -/

theorem settleRow_risen {x0 x1} {S2 : State} (hk : Risen q S2) : Risen q (settleRow x0 x1 S2) :=
  pumpReads_risen (risen_foldl (fun _ _ h4 => risen_if h4 (risen_same (Frames.finishRemote_same sub_refl same_refl) rfl h4)) (risen_same (Frames.rebuildRow_same sub_refl same_refl) rfl hk))
theorem takeRow_risen {x0 x1 x2 x3} {S4 : State} (hk : Risen q S4) : Risen q (takeRow x0 x1 x2 x3 S4) := by
  unfold takeRow
  extract_lets -merge -underBinder +onlyGivenNames z0
  clear_value z0
  extract_lets -merge -underBinder +onlyGivenNames z1
  clear_value z1
  refine risen_if hk ?_
  extract_lets -merge -underBinder +onlyGivenNames z2
  have h3 : Risen q z2 := by
    unfold z2
    split
    · exact risen_if (risen_same (Frames.State_modRdAt_same sub_refl same_refl) rfl hk) (risen_mk hk)
    · exact risen_mk hk
  clear_value z2
  exact settleRow_risen h3
theorem loseReads_risen {S0 : State} (hk : Risen q S0) : Risen q (loseReads S0) :=
  risen_foldl (fun _ _ h1 => risen_if (risen_foldl (fun _ _ h2 => settleRow_risen h2) h1) h1) hk

/-! ### ReadChan -/

theorem finishDs_risen {x0} {S1 : State} (hk : Risen q S1) : Risen q (finishDs x0 S1) := by
  unfold finishDs
  split
  · exact risen_if (pumpReads_risen (risen_same (Frames.serveAll_same sub_refl same_refl) rfl (risen_same (Frames.acceptDs_same sub_refl same_refl) rfl (risen_same (Frames.endReread_same sub_refl same_refl) rfl (risen_same (Frames.State_modRdDs_same sub_refl same_refl) rfl hk))))) hk
  · exact hk
theorem placeRow_risen {x0 x1} {S2 : State} (hk : Risen q S2) : Risen q (placeRow x0 x1 S2) := by
  unfold placeRow
  extract_lets -merge -underBinder +onlyGivenNames z0
  have h1 : Risen q z0 := risen_same (Frames.noteHeader_same sub_refl same_refl) rfl (risen_same (Frames.passHeader_same sub_refl same_refl) rfl hk)
  clear_value z0
  exact risen_if h1 (finishDs_risen (risen_same (Frames.State_modRdDs_same sub_refl same_refl) rfl h1))
theorem noteMissing_risen {x0} {S1 : State} (hk : Risen q S1) : Risen q (noteMissing x0 S1) := by
  unfold noteMissing
  extract_lets -merge -underBinder +onlyGivenNames _ z0
  have h1 : Risen q z0 := risen_mk hk
  clear_value z0
  split
  · exact h1
  · exact risen_if (strike_risen (risen_same (Frames.State_modRdDs_same sub_refl same_refl) rfl h1)) (risen_same (Frames.State_modRdDs_same sub_refl same_refl) rfl h1)
theorem syncWindow_risen {x0 x1} {S2 : State} (hk : Risen q S2) : Risen q (syncWindow x0 x1 S2) := by
  refine risen_if hk ?_
  split
  · exact risen_if (noteMissing_risen hk) hk
  · exact risen_same (Frames.acquireWindow_same sub_refl same_refl) rfl hk
  · exact risen_same (Frames.trackWindow_same sub_refl same_refl) rfl hk
  · exact risen_same (Frames.trackWindow_same sub_refl same_refl) rfl hk
theorem execSyncWindowClose_risen {x0 x1} {S2 : State} (hk : Risen q S2) : OutRisen q (execSyncWindowClose x0 x1 S2) :=
  next_risen (syncWindow_risen hk)
theorem settleJob_risen {x0 x1} {S2 : State} (hk : Risen q S2) : Risen q (settleJob x0 x1 S2) := by
  unfold settleJob
  split
  · exact hk
  · split
    · exact hk
    · exact risen_same (Frames.endCwo_same sub_refl same_refl) rfl (risen_if (noteMissing_risen hk) hk)
    · extract_lets -merge -underBinder +onlyGivenNames _ z0
      have h1 : Risen q z0 := risen_mk hk
      clear_value z0
      split
      · exact risen_same (Frames.endCwo_same sub_refl same_refl) rfl h1
      · exact risen_if (placeRow_risen (risen_same (Frames.endCwo_same sub_refl same_refl) rfl h1)) (risen_same (Frames.endCwo_same sub_refl same_refl) rfl h1)
theorem headerDone_risen {x0} {S1 : State} (hk : Risen q S1) : Risen q (headerDone x0 S1) := by
  unfold headerDone
  split
  · exact hk
  · extract_lets -merge -underBinder +onlyGivenNames z0
    clear_value z0
    refine risen_if hk ?_
    refine risen_if (settleJob_risen (risen_same (Frames.State_modJob_same sub_refl same_refl) rfl hk)) ?_
    extract_lets -merge -underBinder +onlyGivenNames z1
    clear_value z1
    extract_lets -merge -underBinder +onlyGivenNames z2
    have h3 : Risen q z2 := risen_if hk (risen_same (Frames.State_modRch_same sub_refl same_refl) rfl hk)
    clear_value z2
    split
    · exact risen_same (Frames.assignCores_same sub_refl same_refl) rfl (risen_mk (risen_same (Frames.State_modJob_same sub_refl same_refl) rfl h3))
    · exact settleJob_risen (risen_same (Frames.State_modJob_same sub_refl same_refl) rfl h3)
theorem execHeaderDecodeDone_risen {x0} {S1 : State} (hk : Risen q S1) : OutRisen q (execHeaderDecodeDone x0 S1) :=
  next_risen (headerDone_risen hk)
theorem endAttempt_risen {x0 x1 x2} {s : State} (hk : Risen q s) : Risen q (endAttempt x0 x1 x2 s) := by
  unfold endAttempt
  extract_lets c s1
  have h1 : Risen q s1 := risen_same (Frames.State_modJob_same sub_refl same_refl) rfl hk
  clear_value s1 c
  exact settleJob_risen (risen_same (Frames.freeCore_same sub_refl same_refl) rfl h1)
theorem c1Done_risen {x0 x1} {S2 : State} (hk : Risen q S2) : Risen q (c1Done x0 x1 S2) := by
  unfold c1Done
  split
  · exact hk
  · extract_lets -merge -underBinder +onlyGivenNames z0
    split
    · exact risen_same (Frames.freeCore_same sub_refl same_refl) rfl hk
    · split
      · exact endAttempt_risen hk
      · refine risen_if (endAttempt_risen (risen_mk hk)) ?_
        extract_lets -merge -underBinder +onlyGivenNames z1
        clear_value z1
        extract_lets -merge -underBinder +onlyGivenNames z2
        clear_value z2
        extract_lets -merge -underBinder +onlyGivenNames z3
        clear_value z3
        extract_lets -merge -underBinder +onlyGivenNames z4
        have h5 : Risen q z4 := strike_risen (risen_same (Frames.raiseResend_same sub_refl same_refl) rfl hk)
        clear_value z4
        exact risen_if (endAttempt_risen h5) (risen_if h5 (risen_mk h5))
theorem execC1DecodeDone_risen {x0 x1} {S2 : State} (hk : Risen q S2) : OutRisen q (execC1DecodeDone x0 x1 S2) :=
  next_risen (c1Done_risen hk)
theorem sampleOverwrite_risen {x0} {S1 : State} (hk : Risen q S1) : Risen q (sampleOverwrite x0 S1) :=
  risen_foldl (fun _ _ h0 => risen_if h0 (settleJob_risen (risen_same (Frames.State_modJob_same sub_refl same_refl) rfl (risen_mk h0)))) hk
theorem execSampleOverwrite_risen {x0} {S1 : State} (hk : Risen q S1) : OutRisen q (execSampleOverwrite x0 S1) :=
  next_risen (sampleOverwrite_risen hk)

/-! ### Recovery -/

theorem loseDs_risen {x0} {S1 : State} (hk : Risen q S1) : Risen q (loseDs x0 S1) :=
  pumpReads_risen (risen_same (Frames.serveAll_same sub_refl same_refl) rfl (risen_same (Frames.State_modRdDs_same sub_refl same_refl) rfl hk))
theorem recoverLast_risen {x0} {S1 : State} (hk : Risen q S1) : Risen q (recoverLast x0 S1) := by
  unfold recoverLast
  split
  · exact hk
  · extract_lets -merge -underBinder +onlyGivenNames z0
    clear_value z0
    extract_lets -merge -underBinder +onlyGivenNames z1
    have h2 : Risen q z1 := risen_same (Frames.State_modRdDs_same sub_refl same_refl) rfl hk
    clear_value z1
    refine risen_if (finishDs_risen h2) ?_
    split
    · exact risen_same (Frames.endReread_same sub_refl same_refl) rfl h2
    · exact risen_same (Frames.readBehind_same sub_refl same_refl) rfl (risen_same (Frames.endReread_same sub_refl same_refl) rfl h2)
    · exact risen_if (pumpReads_risen (risen_same (Frames.rebuildOwn_same sub_refl same_refl) rfl (risen_same (Frames.endReread_same sub_refl same_refl) rfl h2))) (loseDs_risen (risen_same (Frames.endReread_same sub_refl same_refl) rfl h2))
theorem datasetRecovery_risen {x0} {S1 : State} (hk : Risen q S1) : Risen q (datasetRecovery x0 S1) := by
  refine risen_if hk ?_
  split
  · exact hk
  · refine risen_if hk ?_
    extract_lets -merge -underBinder +onlyGivenNames z0
    have h1 : Risen q z0 := erasePoison_risen hk
    clear_value z0
    extract_lets -merge -underBinder +onlyGivenNames z4
    have h5 : Risen q z4 := risen_same (Frames.State_modRdDs_same sub_refl same_refl) rfl h1
    clear_value z4
    split
    · exact h5
    · exact risen_if (finishDs_risen h5) (risen_if (risen_same (Frames.beginReread_same sub_refl same_refl) rfl h5) (recoverLast_risen h5))
theorem execDatasetRecovery_risen {x0} {S1 : State} (hk : Risen q S1) : OutRisen q (execDatasetRecovery x0 S1) :=
  next_risen (datasetRecovery_risen hk)

/-! ### RingGroup -/

theorem losePosition_risen {x0 x1} {S2 : State} (hk : Risen q S2) : Risen q (losePosition x0 x1 S2) :=
  risen_if hk (risen_if (risen_same (Frames.tellFail_same sub_refl same_refl) rfl (risen_same (Frames.tellAll_same sub_refl same_refl) rfl (risen_same (Frames.raiseEv_same sub_refl same_refl) rfl (risen_mk hk)))) (risen_same (Frames.settleWaits_same sub_refl same_refl) rfl (risen_same (Frames.pumpPorts_same sub_refl same_refl) rfl (risen_same (Frames.groupCommit_same sub_refl same_refl) rfl (loseReads_risen (risen_same (Frames.tellAll_same sub_refl same_refl) rfl (risen_same (Frames.raiseEv_same sub_refl same_refl) rfl (risen_mk hk))))))))
theorem routeChanged_risen {S0 : State} (hk : Risen q S0) : Risen q (routeChanged S0) := by
  refine risen_if hk ?_
  refine risen_if ?_ (risen_if hk (risen_same (Frames.settleWaits_same sub_refl same_refl) rfl (risen_same (Frames.failGroup_same sub_refl same_refl) rfl hk)))
  extract_lets -merge -underBinder +onlyGivenNames z0
  clear_value z0
  extract_lets -merge -underBinder +onlyGivenNames z1
  have h2 : Risen q z1 := risen_foldl (fun _ _ h5 => losePosition_risen h5) hk
  clear_value z1
  exact risen_if (risen_same (Frames.askAgain_same sub_refl same_refl) rfl (risen_foldl (fun _ _ h6 => risen_if h6 (risen_same (Frames.sendPayload_same sub_refl same_refl) rfl h6)) h2)) h2
theorem execDataRow_risen {x0 x1 x2} {S3 : State} (hk : Risen q S3) : OutRisen q (execDataRow x0 x1 x2 S3) :=
  next_risen (receive_risen (fun _ h0 => risen_same (Frames.dataRow_same sub_refl same_refl) rfl h0) hk)
theorem onReadRow_risen {x0} {S1 : State} (hk : Risen q S1) : Risen q (onReadRow x0 S1) :=
  risen_if (takeRow_risen hk) hk
theorem execReadRow_risen {x0 x1 x2} {S3 : State} (hk : Risen q S3) : OutRisen q (execReadRow x0 x1 x2 S3) :=
  next_risen (receive_risen (fun _ h0 => routed_risen (fun _ h1 => onReadRow_risen h1) h0) hk)
theorem execReadReq_risen {x0 x1 x2} {S3 : State} (hk : Risen q S3) : OutRisen q (execReadReq x0 x1 x2 S3) :=
  next_risen (receive_risen (fun _ h0 => routed_risen (fun _ h1 => ofGroup_risen (fun _ h2 => risen_same (Frames.onReadReq_same sub_refl same_refl) rfl h2) h1) h0) hk)
theorem readRowTimeout_risen {x0 x1 x2} {S3 : State} (hk : Risen q S3) : Risen q (readRowTimeout x0 x1 x2 S3) :=
  risen_if (takeRow_risen hk) hk
theorem execReadRowTimeout_risen {x0 x1 x2} {S3 : State} (hk : Risen q S3) : OutRisen q (execReadRowTimeout x0 x1 x2 S3) :=
  next_risen (readRowTimeout_risen hk)
theorem groupRow_risen {x0 x1 x2 x3 x4} {S5 : State} (hx4 : ∀ s, Risen q s → Risen q (x4 s)) (hk : Risen q S5) : Risen q (groupRow x0 x1 x2 x3 x4 S5) :=
  receive_risen (fun _ h0 => routed_risen (fun _ h1 => ofGroup_risen (fun _ h2 => hx4 _ h2) h1) h0) hk
theorem execJoin_risen {x0 x1 x2} {S3 : State} (hk : Risen q S3) : OutRisen q (execJoin x0 x1 x2 S3) :=
  next_risen (groupRow_risen (fun _ h0 => risen_same (Frames.onJoin_same sub_refl same_refl) rfl h0) hk)
theorem execJoinAck_risen {x0 x1 x2} {S3 : State} (hk : Risen q S3) : OutRisen q (execJoinAck x0 x1 x2 S3) :=
  next_risen (groupRow_risen (fun _ h0 => risen_same (Frames.onJoinAck_same sub_refl same_refl) rfl h0) hk)
theorem execGroupSerial_risen {x0 x1 x2} {S3 : State} (hk : Risen q S3) : OutRisen q (execGroupSerial x0 x1 x2 S3) :=
  next_risen (groupRow_risen (fun _ h0 => risen_same (Frames.onSerial_same sub_refl same_refl) rfl h0) hk)
theorem execGroupStart_risen {x0 x1 x2} {S3 : State} (hk : Risen q S3) : OutRisen q (execGroupStart x0 x1 x2 S3) :=
  next_risen (groupRow_risen (fun _ h0 => risen_same (Frames.onStart_same sub_refl same_refl) rfl h0) hk)
theorem execPayloadOk_risen {x0 x1 x2} {S3 : State} (hk : Risen q S3) : OutRisen q (execPayloadOk x0 x1 x2 S3) :=
  next_risen (groupRow_risen (fun _ h0 => risen_same (Frames.onPayloadOk_same sub_refl same_refl) rfl h0) hk)
theorem execStripeCommit_risen {x0 x1 x2} {S3 : State} (hk : Risen q S3) : OutRisen q (execStripeCommit x0 x1 x2 S3) :=
  next_risen (groupRow_risen (fun _ h0 => risen_same (Frames.onStripeCommit_same sub_refl same_refl) rfl h0) hk)
theorem execXoff_risen {x0 x1 x2} {S3 : State} (hk : Risen q S3) : OutRisen q (execXoff x0 x1 x2 S3) :=
  next_risen (groupRow_risen (fun _ h0 => risen_same (Frames.onXoff_same sub_refl same_refl) rfl h0) hk)
theorem execXon_risen {x0 x1 x2} {S3 : State} (hk : Risen q S3) : OutRisen q (execXon x0 x1 x2 S3) :=
  next_risen (groupRow_risen (fun _ h0 => risen_same (Frames.onXon_same sub_refl same_refl) rfl h0) hk)
theorem execSessionEnd_risen {x0 x1 x2} {S3 : State} (hk : Risen q S3) : OutRisen q (execSessionEnd x0 x1 x2 S3) :=
  next_risen (groupRow_risen (fun _ h0 => risen_same (Frames.onSessionEnd_same sub_refl same_refl) rfl h0) hk)
theorem onPositionLost_risen {x0} {S1 : State} (hk : Risen q S1) : Risen q (onPositionLost x0 S1) :=
  risen_if (losePosition_risen hk) (risen_mk hk)
theorem execPositionLost_risen {x0 x1 x2} {S3 : State} (hk : Risen q S3) : OutRisen q (execPositionLost x0 x1 x2 S3) :=
  next_risen (groupRow_risen (fun _ h0 => onPositionLost_risen h0) hk)
theorem execGroupFail_risen {x0 x1 x2} {S3 : State} (hk : Risen q S3) : OutRisen q (execGroupFail x0 x1 x2 S3) :=
  next_risen (groupRow_risen (fun _ h0 => risen_same (Frames.onGroupFail_same sub_refl same_refl) rfl h0) hk)
theorem confirmTimeout_risen {x0 x1} {S2 : State} (hk : Risen q S2) : Risen q (confirmTimeout x0 x1 S2) :=
  risen_if (losePosition_risen hk) hk
theorem execPayloadConfirmTimeout_risen {x0 x1} {S2 : State} (hk : Risen q S2) : OutRisen q (execPayloadConfirmTimeout x0 x1 S2) :=
  next_risen (confirmTimeout_risen hk)

/-! ### RingAssembly -/

theorem execAttest_risen {x0 x1 x2} {S3 : State} (hk : Risen q S3) : OutRisen q (execAttest x0 x1 x2 S3) :=
  next_risen (receive_risen (fun _ h0 => risen_same (Frames.onAttest_same sub_refl same_refl) rfl h0) hk)
theorem execToken_risen {x0 x1 x2} {S3 : State} (hk : Risen q S3) : OutRisen q (execToken x0 x1 x2 S3) :=
  next_risen (receive_risen (fun _ h0 => risen_same (Frames.onToken_same sub_refl same_refl) rfl h0) hk)
theorem execBeacon_risen {x0 x1 x2} {S3 : State} (hk : Risen q S3) : OutRisen q (execBeacon x0 x1 x2 S3) :=
  next_risen (receive_risen (fun _ h0 => risen_same (Frames.onBeacon_same sub_refl same_refl) rfl h0) hk)
theorem execRoster_risen {x0 x1 x2} {S3 : State} (hk : Risen q S3) : OutRisen q (execRoster x0 x1 x2 S3) :=
  next_risen (receive_risen (fun _ h0 => routed_risen (fun _ h1 => unlessStrange_risen (fun _ h2 => risen_same (Frames.onRoster_same sub_refl same_refl) rfl h2) h1) h0) hk)
theorem onTopology_risen {x0} {S1 : State} (hk : Risen q S1) : Risen q (onTopology x0 S1) := by
  unfold onTopology
  extract_lets -merge -underBinder +onlyGivenNames z0
  clear_value z0
  extract_lets -merge -underBinder +onlyGivenNames z1
  clear_value z1
  extract_lets -merge -underBinder +onlyGivenNames z2
  clear_value z2
  extract_lets -merge -underBinder +onlyGivenNames z3
  clear_value z3
  extract_lets -merge -underBinder +onlyGivenNames z4
  have h5 : Risen q z4 := risen_if (risen_same (Frames.State_modPort_same sub_refl same_refl) rfl hk) hk
  clear_value z4
  exact risen_if (routeChanged_risen (risen_same (Frames.cutBetween_same sub_refl same_refl) rfl h5)) (risen_mk h5)
theorem execTopology_risen {x0 x1 x2} {S3 : State} (hk : Risen q S3) : OutRisen q (execTopology x0 x1 x2 S3) :=
  next_risen (receive_risen (fun _ h0 => routed_risen (fun _ h1 => unlessStrange_risen (fun _ h2 => onTopology_risen h2) h1) h0) hk)
theorem linkGone_risen {x0} {S1 : State} (hk : Risen q S1) : Risen q (linkGone x0 S1) :=
  risen_if hk (risen_if (risen_same (Frames.State_modPort_same sub_refl same_refl) rfl hk) (risen_if (risen_if (risen_same (Frames.State_modPort_same sub_refl same_refl) rfl hk) (risen_same (Frames.beginFlood_same sub_refl same_refl) rfl (risen_same (Frames.State_modPort_same sub_refl same_refl) rfl hk))) (risen_if (risen_same (Frames.restartFlood_same sub_refl same_refl) rfl (risen_same (Frames.State_modPort_same sub_refl same_refl) rfl hk)) (risen_if (risen_same (Frames.State_modPort_same sub_refl same_refl) rfl hk) (routeChanged_risen (risen_same (Frames.sendAll_same sub_refl same_refl) rfl (risen_same (Frames.cutBetween_same sub_refl same_refl) rfl (risen_same (Frames.State_modPort_same sub_refl same_refl) rfl hk))))))))
theorem execLinkDown_risen {x0} {S1 : State} (hk : Risen q S1) : OutRisen q (execLinkDown x0 S1) :=
  next_risen (linkGone_risen hk)
theorem goBack_risen {x0 x1} {S2 : State} (hk : Risen q S2) : Risen q (goBack x0 x1 S2) := by
  unfold goBack
  split
  · exact hk
  · exact risen_if (linkGone_risen hk) (risen_same (Frames.resendFrom_same sub_refl same_refl) rfl hk)
theorem execAck_risen {x0 x1 x2} {S3 : State} (hk : Risen q S3) : OutRisen q (execAck x0 x1 x2 S3) :=
  next_risen (receiveAck_risen (fun _ h0 => risen_same (Frames.onAck_same sub_refl same_refl) rfl h0) hk)
theorem onNak_risen {x0 x1} {S2 : State} (hk : Risen q S2) : Risen q (onNak x0 x1 S2) :=
  risen_same (Frames.pumpPort_same sub_refl same_refl) rfl (goBack_risen (risen_same (Frames.State_modPort_same sub_refl same_refl) rfl hk))
theorem execNak_risen {x0 x1 x2} {S3 : State} (hk : Risen q S3) : OutRisen q (execNak x0 x1 x2 S3) :=
  next_risen (receiveAck_risen (fun _ h0 => onNak_risen h0) hk)
theorem ackTimeout_risen {x0} {S1 : State} (hk : Risen q S1) : Risen q (ackTimeout x0 S1) := by
  unfold ackTimeout
  split
  · exact hk
  · exact risen_if (goBack_risen hk) hk
theorem execAckTimeout_risen {x0} {S1 : State} (hk : Risen q S1) : OutRisen q (execAckTimeout x0 S1) :=
  next_risen (ackTimeout_risen hk)

/-! ### Firmware -/

theorem bootEntrySigned_risen {S0 : State} (hk : Risen q S0) : Risen q (bootEntrySigned S0) := by
  refine risen_if hk ?_
  extract_lets -merge -underBinder +onlyGivenNames z0
  have h1 : Risen q z0 := risen_same (Frames.writeEntry_same sub_refl same_refl) rfl (risen_same (Frames.deriveAlias_same sub_refl same_refl) rfl hk)
  clear_value z0
  refine risen_if (enterPewter_risen h1) ?_
  extract_lets -merge -underBinder +onlyGivenNames _ z8
  have h9 : Risen q z8 := risen_same (Frames.setMode_same sub_refl same_refl) rfl (risen_mk h1)
  clear_value z8
  extract_lets -merge -underBinder +onlyGivenNames z12
  have h13 : Risen q z12 := risen_same (Frames.enablePans_same sub_refl same_refl) rfl (cxlBringup_risen (risen_same (Frames.applyProfile_same sub_refl same_refl) rfl h9))
  clear_value z12
  exact risen_if (risen_same (Frames.startRing_same sub_refl same_refl) rfl h13) h13
theorem execBootEntrySigned_risen {S0 : State} (hk : Risen q S0) : OutRisen q (execBootEntrySigned S0) :=
  next_risen (bootEntrySigned_risen hk)
theorem reachIdle_risen {S0 : State} (hk : Risen q S0) : Risen q (reachIdle S0) := by
  unfold reachIdle
  extract_lets -merge -underBinder +onlyGivenNames _ z0
  have h1 : Risen q z0 := risen_same (Frames.replayDoorbells_same sub_refl same_refl) rfl (risen_same (Frames.confirmTrial_same sub_refl same_refl) rfl (risen_same (Frames.setMode_same sub_refl same_refl) rfl (risen_mk hk)))
  clear_value z0
  split
  · exact enterPewter_risen h1
  · exact h1
theorem assemblyEnd_risen {S0 : State} (hk : Risen q S0) : Risen q (assemblyEnd S0) :=
  risen_if hk (risen_if (reachIdle_risen (risen_same (Frames.endRing_same sub_refl same_refl) rfl hk)) (risen_same (Frames.endRing_same sub_refl same_refl) rfl hk))
theorem execAssemblyEnd_risen {S0 : State} (hk : Risen q S0) : OutRisen q (execAssemblyEnd S0) :=
  next_risen (assemblyEnd_risen hk)
theorem activateWhen_risen {x0 x1 x2} {S3 : State} (hx2 : ∀ s, Risen q s → Risen q (x2 s)) (hk : Risen q S3) : Risen q (activateWhen x0 x1 x2 S3) :=
  risen_if (risen_same (Frames.mEnd_same sub_refl same_refl) rfl hk) (risen_if (risen_same (Frames.mEnd_same sub_refl same_refl) rfl hk) (hx2 _ hk))

/-! ### Mover -/

theorem readSpace_risen {x0 x1 x2 x3 x4} {S5 : State} (hk : Risen q S5) : SndRisen q (readSpace x0 x1 x2 x3 x4 S5) :=
  snd_if (snd_mk (snd_snd (readBuffer_risen hk))) (snd_if (snd_if (snd_mk hk) (snd_mk (risen_same (Frames.setPort_same sub_refl same_refl) rfl hk))) (snd_mk hk))
theorem writeSpace_risen {x0 x1 x2 x3 x4} {S5 : State} (hk : Risen q S5) : SndRisen q (writeSpace x0 x1 x2 x3 x4 S5) :=
  snd_if (writeBuffer_risen hk) (snd_if (snd_mk (risen_same (Frames.setPort_same sub_refl same_refl) rfl hk)) (snd_mk (risen_mk hk)))
theorem bufSegment_risen {x0 x1 x2} {s : State} (hk : Risen q s) : SndRisen q (bufSegment x0 x1 x2 s) := by
  induction x0 generalizing x1 x2 s with
  | zero => exact hk
  | succ n ih =>
    unfold bufSegment
    refine snd_if hk ?_
    dsimp only
    split
    · rename_i he
      exact snd_mk (snd_elim he (readBuffer_risen hk))
    · rename_i he
      have h := snd_elim he (readBuffer_risen hk)
      exact snd_if (snd_mk h) (snd_mk (snd_snd (ih h)))
theorem movSegment_risen {x0 x1 x2 x3} {S4 : State} (hk : Risen q S4) : SndRisen q (movSegment x0 x1 x2 x3 S4) :=
  snd_if (bufSegment_risen hk) (snd_mk hk)
theorem loadMovSegment_risen {x0 x1 x2 x3} {S4 : State} (hk : Risen q S4) : Risen q (loadMovSegment x0 x1 x2 x3 S4) := by
  unfold loadMovSegment
  extract_lets -merge -underBinder +onlyGivenNames z0
  have h1 : SndRisen q z0 := movSegment_risen hk
  clear_value z0
  split
  · exact risen_same (Frames.endDesc_same sub_refl same_refl) rfl (snd_snd h1)
  · split
    · exact risen_same (Frames.endBad_same sub_refl same_refl) rfl (snd_snd h1)
    · exact risen_same (Frames.modDesc_same sub_refl same_refl) rfl (snd_snd h1)
theorem copyBurst_risen {x0 x1} {S2 : State} (hk : Risen q S2) : Risen q (copyBurst x0 x1 S2) := by
  unfold copyBurst
  extract_lets -merge -underBinder +onlyGivenNames z0
  clear_value z0
  extract_lets -merge -underBinder +onlyGivenNames z1
  clear_value z1
  extract_lets -merge -underBinder +onlyGivenNames z2
  clear_value z2
  extract_lets -merge -underBinder +onlyGivenNames z3
  have h4 : SndRisen q z3 := readSpace_risen hk
  clear_value z3
  split
  · exact hk
  · exact risen_same (Frames.endDesc_same sub_refl same_refl) rfl (snd_snd h4)
  · extract_lets -merge -underBinder +onlyGivenNames z7
    have h8 : SndRisen q z7 := writeSpace_risen (snd_snd h4)
    clear_value z7
    exact risen_if (risen_same (Frames.endWrite_same sub_refl same_refl) rfl (snd_snd h8)) (risen_same (Frames.endIfDone_same sub_refl same_refl) rfl (risen_same (Frames.movedBytes_same sub_refl same_refl) rfl (snd_snd h8)))
theorem fillBurst_risen {x0 x1} {S2 : State} (hk : Risen q S2) : Risen q (fillBurst x0 x1 S2) := by
  unfold fillBurst
  extract_lets -merge -underBinder +onlyGivenNames z0
  clear_value z0
  extract_lets -merge -underBinder +onlyGivenNames z1
  clear_value z1
  extract_lets -merge -underBinder +onlyGivenNames z2
  have h3 : SndRisen q z2 := snd_if (snd_mk (risen_same (Frames.fillBuffer_same sub_refl same_refl) rfl hk)) (writeBuffer_risen hk)
  clear_value z2
  exact risen_if (risen_same (Frames.endWrite_same sub_refl same_refl) rfl (snd_snd h3)) (risen_same (Frames.endIfDone_same sub_refl same_refl) rfl (risen_same (Frames.movedBytes_same sub_refl same_refl) rfl (snd_snd h3)))
theorem compareBurst_risen {x0 x1} {S2 : State} (hk : Risen q S2) : Risen q (compareBurst x0 x1 S2) := by
  unfold compareBurst
  extract_lets -merge -underBinder +onlyGivenNames z0
  clear_value z0
  extract_lets -merge -underBinder +onlyGivenNames z1
  clear_value z1
  extract_lets -merge -underBinder +onlyGivenNames z2
  clear_value z2
  extract_lets -merge -underBinder +onlyGivenNames z3
  clear_value z3
  extract_lets -merge -underBinder +onlyGivenNames z4
  have h5 : SndRisen q z4 := readSpace_risen hk
  clear_value z4
  extract_lets -merge -underBinder +onlyGivenNames z12
  have h13 : SndRisen q z12 := snd_if (snd_mk (snd_snd h5)) (readSpace_risen (snd_snd h5))
  clear_value z12
  split
  · extract_lets -merge -underBinder +onlyGivenNames z16
    have h17 : Risen q z16 := risen_same (Frames.movedBytes_same sub_refl same_refl) rfl (snd_snd h13)
    clear_value z16
    split
    · split
      · exact risen_same (Frames.endDesc_same sub_refl same_refl) rfl h17
      · exact h17
    · exact risen_same (Frames.endIfDone_same sub_refl same_refl) rfl h17
  · exact risen_same (Frames.endDesc_same sub_refl same_refl) rfl (snd_snd h13)
  · exact risen_same (Frames.endDesc_same sub_refl same_refl) rfl (snd_snd h13)
  · exact hk
theorem entryBurst_risen {x0 x1 x2} {S3 : State} (hk : Risen q S3) : Risen q (entryBurst x0 x1 x2 S3) := by
  unfold entryBurst
  extract_lets -merge -underBinder +onlyGivenNames z0
  clear_value z0
  extract_lets -merge -underBinder +onlyGivenNames z1
  clear_value z1
  extract_lets -merge -underBinder +onlyGivenNames z2
  clear_value z2
  extract_lets -merge -underBinder +onlyGivenNames z3
  clear_value z3
  extract_lets -merge -underBinder +onlyGivenNames z4
  clear_value z4
  extract_lets -merge -underBinder +onlyGivenNames z5
  clear_value z5
  extract_lets -merge -underBinder +onlyGivenNames z6
  have h7 : SndRisen q z6 := snd_if (readSpace_risen hk) (readSpace_risen hk)
  clear_value z6
  split
  · exact hk
  · exact risen_same (Frames.endDesc_same sub_refl same_refl) rfl (snd_snd h7)
  · extract_lets -merge -underBinder +onlyGivenNames z10
    have h11 : SndRisen q z10 := snd_if (writeSpace_risen (snd_snd h7)) (writeSpace_risen (snd_snd h7))
    clear_value z10
    exact risen_if (risen_same (Frames.endWrite_same sub_refl same_refl) rfl (snd_snd h11)) (risen_same (Frames.movedBytes_same sub_refl same_refl) rfl (snd_snd h11))
theorem nextEntry_risen {x0 x1} {S2 : State} (hk : Risen q S2) : Risen q (nextEntry x0 x1 S2) := by
  unfold nextEntry
  split
  · exact hk
  · split
    · exact risen_same (Frames.endDesc_same sub_refl same_refl) rfl hk
    · refine risen_if ?_ (risen_if (risen_if (risen_same (Frames.endDesc_same sub_refl same_refl) rfl hk) (risen_same (Frames.modDesc_same sub_refl same_refl) rfl hk)) hk)
      extract_lets -merge -underBinder +onlyGivenNames z0
      have h1 : Risen q z0 := risen_same (Frames.modDesc_same sub_refl same_refl) rfl hk
      clear_value z0
      split
      · exact loadMovSegment_risen h1
      · exact h1
theorem settleEntries_risen {x0 x1 x2} {s : State} (hk : Risen q s) : Risen q (settleEntries x0 x1 x2 s) := by
  induction x2 generalizing s with
  | zero => exact hk
  | succ n ih => exact ih (nextEntry_risen hk)
theorem descBurst_risen {x0 x1} {S2 : State} (hk : Risen q S2) : Risen q (descBurst x0 x1 S2) := by
  refine risen_if (copyBurst_risen hk) ?_
  refine risen_if (fillBurst_risen hk) ?_
  refine risen_if (compareBurst_risen hk) ?_
  split
  · exact hk
  · exact settleEntries_risen (risen_if hk (entryBurst_risen hk))
theorem failDesc_risen {x0 x1} {S2 : State} (hk : Risen q S2) : Risen q (failDesc x0 x1 S2) := by
  unfold failDesc
  extract_lets -merge -underBinder +onlyGivenNames z0
  clear_value z0
  extract_lets -merge -underBinder +onlyGivenNames z1
  clear_value z1
  extract_lets -merge -underBinder +onlyGivenNames z2
  have h3 : Risen q z2 := strike_risen (risen_same (Frames.raiseResend_same sub_refl same_refl) rfl hk)
  clear_value z2
  split
  · exact risen_same (Frames.modDesc_same sub_refl same_refl) rfl h3
  · exact risen_same (Frames.modDesc_same sub_refl same_refl) rfl h3
  · exact risen_same (Frames.modDesc_same sub_refl same_refl) rfl h3
  · exact risen_same (Frames.endDesc_same sub_refl same_refl) rfl h3
theorem runBurst_risen {x0 x1 x2} {S3 : State} (hk : Risen q S3) : Risen q (runBurst x0 x1 x2 S3) := by
  unfold runBurst
  split
  · exact hk
  · refine risen_if hk ?_
    split
    · exact risen_if (risen_same (Frames.assignWork_same sub_refl same_refl) rfl (risen_same (Frames.freeMover_same sub_refl same_refl) rfl (failDesc_risen hk))) hk
    · exact risen_if hk (risen_same (Frames.assignWork_same sub_refl same_refl) rfl (risen_same (Frames.freeMover_same sub_refl same_refl) rfl (descBurst_risen (risen_same (Frames.serveLine_same sub_refl same_refl) rfl (passAfter_risen hk)))))
theorem runBursts_risen {x0 x1} {s : State} (hk : Risen q s) : Risen q (runBursts x0 x1 s) := by
  induction x1 generalizing s with
  | zero => exact hk
  | succ n ih =>
    unfold runBursts
    split
    · exact hk
    · exact ih (runBurst_risen hk)
theorem postDesc_risen {x0 x1 x2} {S3 : State} (hk : Risen q S3) : Risen q (postDesc x0 x1 x2 S3) := by
  unfold postDesc
  extract_lets -merge -underBinder +onlyGivenNames z0
  clear_value z0
  extract_lets -merge -underBinder +onlyGivenNames z1
  have h2 : Risen q z1 := risen_mk hk
  clear_value z1
  refine risen_if (risen_same (Frames.endBad_same sub_refl same_refl) rfl h2) ?_
  refine risen_if (risen_same (Frames.endBad_same sub_refl same_refl) rfl h2) ?_
  extract_lets -merge -underBinder +onlyGivenNames _ z9
  have h10 : Risen q z9 := risen_mk h2
  clear_value z9
  extract_lets -merge -underBinder +onlyGivenNames z13
  have h14 : Risen q z13 := risen_if (settleEntries_risen (loadMovSegment_risen h10)) (risen_same (Frames.endIfDone_same sub_refl same_refl) rfl h10)
  clear_value z13
  exact runBursts_risen (risen_same (Frames.assignWork_same sub_refl same_refl) rfl h14)
theorem execOp_risen {x0 x1 x2} {S3 : State} (hk : Risen q S3) : Risen q (execOp x0 x1 x2 S3) :=
  risen_if (postDesc_risen hk) hk
theorem execCopy_risen {x0 x1} {S2 : State} (hk : Risen q S2) : OutRisen q (execCopy x0 x1 S2) :=
  next_risen (execOp_risen hk)
theorem execFill_risen {x0 x1} {S2 : State} (hk : Risen q S2) : OutRisen q (execFill x0 x1 S2) :=
  next_risen (execOp_risen hk)
theorem execCompare_risen {x0 x1} {S2 : State} (hk : Risen q S2) : OutRisen q (execCompare x0 x1 S2) :=
  next_risen (execOp_risen hk)
theorem execGather_risen {x0 x1} {S2 : State} (hk : Risen q S2) : OutRisen q (execGather x0 x1 S2) :=
  next_risen (execOp_risen hk)
theorem execScatter_risen {x0 x1} {S2 : State} (hk : Risen q S2) : OutRisen q (execScatter x0 x1 S2) :=
  next_risen (execOp_risen hk)
theorem postService_risen {S0 : State} (hk : Risen q S0) : Risen q (postService S0) :=
  risen_if hk (postDesc_risen (risen_mk hk))
theorem execServiceDescriptorPost_risen {S0 : State} (hk : Risen q S0) : OutRisen q (execServiceDescriptorPost S0) :=
  next_risen (postService_risen hk)
theorem failHostBurst_risen {x0 x1 x2 x3} {S4 : State} (hk : Risen q S4) : Risen q (failHostBurst x0 x1 x2 x3 S4) := by
  unfold failHostBurst
  extract_lets -merge -underBinder +onlyGivenNames z0
  clear_value z0
  extract_lets -merge -underBinder +onlyGivenNames z1
  have h2 : Risen q z1 := strike_risen (risen_same (Frames.raiseResend_same sub_refl same_refl) rfl hk)
  clear_value z1
  split
  · exact risen_same (Frames.State_modCmd_same sub_refl same_refl) rfl h2
  · exact risen_same (Frames.State_modCmd_same sub_refl same_refl) rfl h2
  · exact risen_same (Frames.State_modCmd_same sub_refl same_refl) rfl h2
  · exact risen_same (Frames.settleWaits_same sub_refl same_refl) rfl (risen_same (Frames.loseStream_same sub_refl same_refl) rfl h2)
theorem hostIn_risen {x0 x1 x2 x3} {S4 : State} (hk : Risen q S4) : Risen q (hostIn x0 x1 x2 x3 S4) := by
  unfold hostIn
  split
  · exact hk
  · split
    · exact hk
    · refine risen_if hk ?_
      extract_lets -merge -underBinder +onlyGivenNames z0
      have h1 : Risen q z0 := risen_same (Frames.serveOldest_same sub_refl same_refl) rfl hk
      clear_value z0
      split
      · exact failHostBurst_risen h1
      · exact hostBurst_risen (passAfter_risen (risen_same (Frames.moverMoved_same sub_refl same_refl) rfl (risen_same (Frames.State_modCmd_same sub_refl same_refl) rfl h1)))
theorem burstDone_risen {x0 x1 x2} {S3 : State} (hk : Risen q S3) : Risen q (burstDone x0 x1 x2 S3) := by
  unfold burstDone
  split
  · exact runBurst_risen (risen_if (risen_same (Frames.assignWork_same sub_refl same_refl) rfl hk) hk)
  · exact hostIn_risen hk
  · exact panIn_risen hk
  · exact extractBlock_risen hk
  · exact deliverNext_risen hk
theorem execBurstDone_risen {x0 x1 x2} {S3 : State} (hk : Risen q S3) : OutRisen q (execBurstDone x0 x1 x2 S3) :=
  next_risen (burstDone_risen hk)

/-! ### Resets -/

theorem storeAfter_slots (s : State) : (storeAfter s).slotA = s.qs.slotA ∧ (storeAfter s).slotB = s.qs.slotB := by
  unfold storeAfter
  split <;> exact ⟨rfl, rfl⟩
theorem takeReset_risen {x0 x1 x2} {s : State} (hk : Risen q s) : Risen q (takeReset x0 x1 x2 s) := by
  obtain ⟨hA, hB⟩ := storeAfter_slots (abortMover s)
  exact risen_eq (risen_same (Frames.abortMover_same sub_refl same_refl) rfl hk) hA hB rfl
theorem prepareReset_risen {s : State} (hk : Risen q s) : Risen q (prepareReset s) :=
  risen_eq (risen_same (Frames.abortMover_same sub_refl same_refl) rfl (risen_same (Frames.abortJobs_same sub_refl same_refl) rfl
    (risen_same (Frames.dropGates_same sub_refl same_refl) rfl hk))) rfl rfl rfl
theorem warmReset_risen {x0} {S1 : State} (hk : Risen q S1) : Risen q (warmReset x0 S1) :=
  risen_if (takeReset_risen (prepareReset_risen hk)) hk
theorem execWarmReset_risen {S0 : State} (hk : Risen q S0) : OutRisen q (execWarmReset S0) :=
  next_risen (risen_if (warmReset_risen hk) hk)
theorem execColdResetRequest_risen {S0 : State} (hk : Risen q S0) : OutRisen q (execColdResetRequest S0) :=
  next_risen (risen_if (takeReset_risen hk) hk)
theorem perstAssert_risen {S0 : State} (hk : Risen q S0) : Risen q (perstAssert S0) :=
  warmReset_risen (risen_same (Frames.linkLost_same sub_refl same_refl) rfl (risen_mk hk))
theorem execPerstAssert_risen {S0 : State} (hk : Risen q S0) : OutRisen q (execPerstAssert S0) :=
  next_risen (perstAssert_risen hk)
theorem execStewardWatchdog_risen {S0 : State} (hk : Risen q S0) : OutRisen q (execStewardWatchdog S0) :=
  next_risen (risen_if (warmReset_risen hk) hk)
theorem execServiceClose_risen {S0 : State} (hk : Risen q S0) : OutRisen q (execServiceClose S0) :=
  next_risen (risen_if (warmReset_risen hk) hk)
theorem functionReset_risen {x0} {S1 : State} (hk : Risen q S1) : Risen q (functionReset x0 S1) := by
  have h : ∀ {t}, Risen q t → Risen q (allInsts.foldl (fun s v => endAll v s) t) := risen_foldl (fun _ _ h => risen_same (Frames.endAll_same sub_refl same_refl) rfl h)
  unfold functionReset
  extract_lets z0 z1
  have h0 : Risen q z0 := risen_same (Frames.dropWaiter_same sub_refl same_refl) rfl (risen_same (Frames.discardBlocks_same sub_refl same_refl) rfl (risen_same (Frames.dropCommands_same sub_refl same_refl) rfl (risen_same (Frames.abortMover_same sub_refl same_refl) rfl hk)))
  have h1 : Risen q z1 := risen_same (Frames.wipeKeys_same sub_refl same_refl) rfl (h h0)
  clear_value z1
  refine resumeSeqs_risen (risen_same (Frames.settleWaits_same sub_refl same_refl) rfl (risen_same (Frames.dispatch_same sub_refl same_refl) rfl ?_))
  exact risen_mk h1
theorem execFunctionReset_risen {x0} {S1 : State} (hk : Risen q S1) : OutRisen q (execFunctionReset x0 S1) :=
  next_risen (risen_if (functionReset_risen hk) hk)
theorem powerOff_risen {S0 : State} (hk : Risen q S0) : Risen q (powerOff S0) := risen_mk (takeReset_risen hk)
theorem execVddAonFail_risen {S0 : State} (hk : Risen q S0) : OutRisen q (execVddAonFail S0) :=
  next_risen (risen_if hk (powerOff_risen hk))
theorem execVddAonRise_risen {S0 : State} (hk : Risen q S0) : OutRisen q (execVddAonRise S0) :=
  next_risen (risen_if (takeReset_risen hk) hk)
theorem execQuenchPowerOff_risen {S0 : State} (hk : Risen q S0) : OutRisen q (execQuenchPowerOff S0) :=
  next_risen (risen_if (powerOff_risen hk) hk)
theorem quenchReset_risen {x0 x1} {S2 : State} (hk : Risen q S2) : Risen q (quenchReset x0 x1 S2) :=
  risen_if (risen_mk (takeReset_risen hk)) hk
theorem execQuenchReset_risen {x0 x1} {S2 : State} (hk : Risen q S2) : OutRisen q (execQuenchReset x0 x1 S2) :=
  next_risen (quenchReset_risen hk)
theorem rngFail_risen {x0} {S1 : State} (hk : Risen q S1) : Risen q (rngFail x0 S1) :=
  risen_if hk (enterPewter_risen (risen_same (Frames.raiseEv_same sub_refl same_refl) rfl (risen_mk hk)))
theorem execRngContinuousFail_risen {x0} {S1 : State} (hk : Risen q S1) : OutRisen q (execRngContinuousFail x0 S1) :=
  next_risen (rngFail_risen hk)
theorem quenchStore_risen {x0 x1 x2 x3} {s : State} (hk : Risen q s) : Risen q (quenchStore x0 x1 x2 x3 s) :=
  risen_storeAll hk rfl (fun i => by simp only [quenchStore, Fin.getElem_fin, Vector.getElem_ofFn])
theorem quench_risen {x0 x1 x2 x3 x4} {S5 : State} (hk : Risen q S5) : Risen q (quench x0 x1 x2 x3 x4 S5) := by
  unfold quench
  refine risen_if hk ?_
  extract_lets -merge -underBinder a b _ c d _ _ e f g h _ _ i
  have hd : Risen q d := risen_same (Frames.dropGates_same sub_refl same_refl) rfl (risen_same (Frames.raiseEv_same sub_refl same_refl) rfl (risen_mk hk))
  clear_value d
  have he : Risen q e := risen_same (Frames.setMode_same sub_refl same_refl) rfl (risen_mk hd)
  clear_value e
  have hf : Risen q f := risen_same (Frames.abortMover_same sub_refl same_refl) rfl (risen_if (risen_same (Frames.brakeReels_same sub_refl same_refl) rfl he) he)
  clear_value f
  have hh : Risen q h := quenchStore_risen (risen_same (Frames.quenchWindow_same sub_refl same_refl) rfl hf)
  clear_value h
  have hi : Risen q i := risen_same (Frames.rebuildTable_same sub_refl same_refl) rfl (risen_mk (risen_same (Frames.abandonData_same sub_refl same_refl) rfl (risen_same (Frames.unassignAll_same sub_refl same_refl) rfl hh)))
  clear_value i
  exact risen_mk (risen_same (Frames.linkLost_same sub_refl same_refl) rfl hi)
theorem execQuenchDetect_risen {x0 x1 x2 x3 x4} {S5 : State} (hk : Risen q S5) : OutRisen q (execQuenchDetect x0 x1 x2 x3 x4 S5) :=
  next_risen (quench_risen hk)

/-! ### Service -/

theorem serviceResponse_risen {x0} {S1 : State} (hk : Risen q S1) : Risen q (serviceResponse x0 S1) := by
  unfold serviceResponse
  extract_lets
  refine risen_if (risen_same (Frames.mEnd_same sub_refl same_refl) rfl hk) (risen_if (risen_same (Frames.mEnd_same sub_refl same_refl) rfl hk) (risen_if (risen_same (Frames.mEnd_same sub_refl same_refl) rfl hk) (risen_if (risen_same (Frames.mEnd_same sub_refl same_refl) rfl hk) ?_)))
  split
  · exact risen_same (Frames.serviceFail_same sub_refl same_refl) rfl hk
  · refine risen_if (risen_same (Frames.serviceFail_same sub_refl same_refl) rfl hk) ?_
    extract_lets z
    have h : Risen q z := risen_same (Frames.mOk_same sub_refl same_refl) rfl (risen_same (Frames.writeEntry_same sub_refl same_refl) rfl hk)
    clear_value z
    exact risen_if (warmReset_risen (risen_mk h)) (risen_same (Frames.openService_same sub_refl same_refl) rfl h)
theorem execServiceResponse_risen {x0} {S1 : State} (hk : Risen q S1) : OutRisen q (execServiceResponse x0 S1) :=
  next_risen (mgmtCmd_risen (fun _ _ h0 => serviceResponse_risen h0) hk)
theorem fwActivateNow_risen {x0} {S1 : State} (hk : Risen q S1) : Risen q (fwActivateNow x0 S1) :=
  activateWhen_risen (fun _ h0 => warmReset_risen (risen_same (Frames.mOk_same sub_refl same_refl) rfl (risen_same (Frames.setTrial_same sub_refl same_refl) rfl h0))) hk
theorem execFwActivateNow_risen {x0} {S1 : State} (hk : Risen q S1) : OutRisen q (execFwActivateNow x0 S1) :=
  next_risen (subCmd_risen (fun _ _ h0 => fwActivateNow_risen h0) hk)

/-! ### Registers -/

theorem onBit_risen {x0 x1 x2} {S3 : State} (hx2 : ∀ s, Risen q s → Risen q (x2 s)) (hk : Risen q S3) : Risen q (onBit x0 x1 x2 S3) :=
  risen_if (hx2 _ hk) hk
theorem withFree_risen {x0} {S1 : State} (hx0 : ∀ y0 s, Risen q s → Risen q (x0 y0 s)) (hk : Risen q S1) : Risen q (withFree x0 S1) :=
  hx0 _ _ (risen_mk hk)
theorem writeGlb_risen {x0 x1} {S2 : State} (hk : Risen q S2) : Risen q (writeGlb x0 x1 S2) := by
  unfold writeGlb
  split
  · exact risen_if (takeReset_risen hk) (risen_if (warmReset_risen hk) (risen_if (functionReset_risen hk) hk))
  · exact hk
theorem writeSec_risen {x0 x1} {S2 : State} (hk : Risen q S2) : Risen q (writeSec x0 x1 S2) := by
  unfold writeSec
  split
  · exact onBit_risen (fun _ h0 => risen_same (Frames.toField_same sub_refl same_refl) rfl h0) hk
  · exact onBit_risen (fun _ h1 => risen_if (warmReset_risen h1) h1) hk
  · exact hk
theorem writeMov_risen {x0 x1} {S2 : State} (hk : Risen q S2) : Risen q (writeMov x0 x1 S2) := by
  unfold writeMov
  split
  · exact risen_same (Frames.assignWork_same sub_refl same_refl) rfl (risen_mk hk)
  · exact onBit_risen (fun _ h0 => postService_risen h0) hk
  · split
    · exact risen_mk hk
    · exact hk
theorem ringEnable_risen {x0} {S1 : State} (hk : Risen q S1) : Risen q (ringEnable x0 S1) :=
  risen_if hk (risen_if (risen_mk hk) (linkGone_risen (linkGone_risen (risen_mk hk))))
theorem writeChn_risen {x0 x1} {S2 : State} (hk : Risen q S2) : Risen q (writeChn x0 x1 S2) := by
  unfold writeChn
  split
  · exact onBit_risen (fun _ h0 => risen_same (Frames.reassemble_same sub_refl same_refl) rfl h0) (ringEnable_risen hk)
  · exact risen_mk hk
  · exact risen_mk hk
  · exact hk
theorem writeReg_risen {x0 x1 x2} {S3 : State} (hk : Risen q S3) : Risen q (writeReg x0 x1 x2 S3) := by
  unfold writeReg
  refine risen_if hk ?_
  extract_lets o f
  have h1 : ∀ g : State → State, Risen q (g S3) → Risen q (f g) := fun g hg => risen_if hg hk
  clear_value f o
  split
  · exact risen_if (writeGlb_risen hk) (risen_if (risen_same (Frames.writePwr_same sub_refl same_refl) rfl hk) (risen_if (writeSec_risen hk) (risen_same (Frames.writeEvt_same sub_refl same_refl) rfl hk)))
  · exact risen_same (Frames.writeHif_same sub_refl same_refl) rfl hk
  · refine h1 _ ?_
    split
    · exact risen_same (Frames.writeBuf_same sub_refl same_refl) rfl hk
    · split
      · exact risen_same (Frames.writePans_same sub_refl same_refl) rfl hk
      · exact hk
  · exact h1 _ (writeMov_risen hk)
  · exact risen_same (Frames.writeCmp_same sub_refl same_refl) rfl hk
  · exact risen_same (Frames.writeCph_same sub_refl same_refl) rfl hk
  · exact risen_same (Frames.writeFmt_same sub_refl same_refl) rfl hk
  · exact risen_same (Frames.writeWch_same sub_refl same_refl) rfl hk
  · exact risen_same (Frames.writeRch_same sub_refl same_refl) rfl hk
  · exact risen_same (Frames.writeSrv_same sub_refl same_refl) rfl hk
  · exact h1 _ (risen_same (Frames.writeMot_same sub_refl same_refl) rfl hk)
  · exact writeChn_risen hk
  · exact risen_same (Frames.writePace_same sub_refl same_refl) rfl hk
  · exact hk
theorem hostWriteReg_risen {x0 x1 x2} {S3 : State} (hk : Risen q S3) : Risen q (hostWriteReg x0 x1 x2 S3) :=
  risen_if (risen_same (Frames.writeBar2_same sub_refl same_refl) rfl hk) (risen_if (writeReg_risen hk) hk)
theorem execRegisterWrite_risen {x0 x1 x2 x3} {S4 : State} (hk : Risen q S4) : OutRisen q (execRegisterWrite x0 x1 x2 x3 S4) := by
  refine next_risen ?_
  split
  · exact risen_if (hostWriteReg_risen hk) hk
  · exact risen_if (hostWriteReg_risen (hostWriteReg_risen hk)) hk
theorem execJtagAccess_risen {x0 x1 x2} {S3 : State} (hk : Risen q S3) : OutRisen q (execJtagAccess x0 x1 x2 S3) := by
  refine out_if (next_risen hk) ?_
  split
  · exact next_risen (risen_mk hk)
  · exact out_if (next_risen (withFree_risen (fun _ _ h0 => risen_mk h0) hk)) (next_risen (risen_same (Frames.latchTime_same sub_refl same_refl) rfl (risen_mk hk)))
  · refine next_risen ?_
    split
    · exact risen_same (Frames.ringDoorbell_same sub_refl same_refl) rfl hk
    · exact hk
  · exact out_if trivial (next_risen (writeReg_risen hk))

/-! ### Shares -/

theorem resumeInst_risen {x0} {S1 : State} (hk : Risen q S1) : Risen q (resumeInst x0 S1) :=
  pumpReads_risen (retryStaged_risen (risen_same (Frames.releaseHeld_same sub_refl same_refl) rfl (risen_same (Frames.runInst_same sub_refl same_refl) rfl hk)))
theorem instanceShare_risen {x0} {S1 : State} (hk : Risen q S1) : Risen q (instanceShare x0 S1) := by
  refine withTarget_risen (fun _ _ h0 => ?_) hk
  extract_lets -merge -underBinder +onlyGivenNames z1
  clear_value z1
  refine risen_if (risen_same (Frames.mEnd_same sub_refl same_refl) rfl h0) ?_
  refine risen_if (risen_same (Frames.mEnd_same sub_refl same_refl) rfl h0) ?_
  refine risen_if (risen_same (Frames.mEnd_same sub_refl same_refl) rfl h0) ?_
  extract_lets -merge -underBinder +onlyGivenNames z2
  have h3 : Risen q z2 := risen_if (risen_same (Frames.setQuota_same sub_refl same_refl) rfl h0) h0
  clear_value z2
  extract_lets -merge -underBinder +onlyGivenNames z11
  clear_value z11
  extract_lets -merge -underBinder +onlyGivenNames z12
  have h13 : Risen q z12 := risen_if (risen_same (Frames.State_modInst_same sub_refl same_refl) rfl h3) h3
  clear_value z12
  exact risen_same (Frames.mOk_same sub_refl same_refl) rfl (risen_if (resumeInst_risen (risen_if (risen_same (Frames.State_modInst_same sub_refl same_refl) rfl h13) h13)) h13)
theorem execInstanceShare_risen {x0} {S1 : State} (hk : Risen q S1) : OutRisen q (execInstanceShare x0 S1) :=
  next_risen (mgmtCmd_risen (fun _ _ h0 => instanceShare_risen h0) hk)

/-! ### The commands, one by one -/

/-- A command that spares the sequence state and the quench store (Claims.spared). -/
theorem out_spared {c : Instr} {s : State} (hk : Risen q s) (hs : (spared c).contains .seqs = true) (hq : (spared c).contains .qs = true) :
    OutRisen q (exec c s) := by
  have hkept := exec_spares c s
  cases h : exec c s with
  | next t =>
    have hqs : t.qs = s.qs := hkept t h .qs (by simpa using hq)
    exact risen_eq hk (congrArg QStore.slotA hqs) (congrArg QStore.slotB hqs) (hkept t h .seqs (by simpa using hs))
  | fault => trivial
  | refused => trivial

/-- Every command but the start-up row POWER_ON_RESET_RELEASE. -/
theorem exec_risen {c : Instr} {s : State} (hk : Risen q s) (hc : c ≠ .powerOnResetRelease) : OutRisen q (exec c s) :=
  match c with
  | .powerOnResetRelease => absurd rfl hc
  | .closeStream _ _ => execCloseStream_risen hk
  | .writeRecords _ _ _ => execWriteRecords_risen hk
  | .streamAppend _ _ _ => execStreamAppend_risen hk
  | .writeMark _ _ => execWriteMark_risen hk
  | .sync _ _ => execSync_risen hk
  | .readRecords _ _ => execReadRecords_risen hk
  | .slotBind _ _ => execSlotBind_risen hk
  | .slotRekey _ _ => execSlotRekey_risen hk
  | .instanceShare _ => execInstanceShare_risen hk
  | .instanceQuiesce _ => execInstanceQuiesce_risen hk
  | .instanceFreeze _ => execInstanceFreeze_risen hk
  | .instanceRestore _ => execInstanceRestore_risen hk
  | .rootImportImport _ => execRootImportImport_risen hk
  | .serviceResponse _ => execServiceResponse_risen hk
  | .fwActivateNow _ => execFwActivateNow_risen hk
  | .functionReset _ => execFunctionReset_risen hk
  | .warmReset => execWarmReset_risen hk
  | .coldResetRequest => execColdResetRequest_risen hk
  | .perstAssert => execPerstAssert_risen hk
  | .stewardWatchdog => execStewardWatchdog_risen hk
  | .serviceClose => execServiceClose_risen hk
  | .serviceDescriptorPost => execServiceDescriptorPost_risen hk
  | .registerWrite _ _ _ _ => execRegisterWrite_risen hk
  | .copy _ _ => execCopy_risen hk
  | .fill _ _ => execFill_risen hk
  | .compare _ _ => execCompare_risen hk
  | .gather _ _ => execGather_risen hk
  | .scatter _ _ => execScatter_risen hk
  | .burstDone _ _ _ => execBurstDone_risen hk
  | .bufferRead _ _ _ => execBufferRead_risen hk
  | .bufferWrite _ _ _ _ => execBufferWrite_risen hk
  | .rakeVisit _ _ => execRakeVisit_risen hk
  | .cxlLinkUp _ _ _ _ _ => execCxlLinkUp_risen hk
  | .memoryActive _ _ _ _ => execMemoryActive_risen hk
  | .bringupTimeout _ => execBringupTimeout_risen hk
  | .memdevLost _ _ => execMemdevLost_risen hk
  | .sliceCodeDone _ _ => execSliceCodeDone_risen hk
  | .cipherSealDone _ _ => execCipherSealDone_risen hk
  | .cipherOpenDone _ _ => execCipherOpenDone_risen hk
  | .sliceDecompressDone _ _ => execSliceDecompressDone_risen hk
  | .tierFix _ => execTierFix_risen hk
  | .cwoJudged _ => execCwoJudged_risen hk
  | .syncWindowClose _ _ => execSyncWindowClose_risen hk
  | .headerDecodeDone _ => execHeaderDecodeDone_risen hk
  | .c1DecodeDone _ _ => execC1DecodeDone_risen hk
  | .sampleOverwrite _ => execSampleOverwrite_risen hk
  | .datasetRecovery _ => execDatasetRecovery_risen hk
  | .vddAonRise => execVddAonRise_risen hk
  | .rngContinuousFail _ => execRngContinuousFail_risen hk
  | .bootEntrySigned => execBootEntrySigned_risen hk
  | .assemblyEnd => execAssemblyEnd_risen hk
  | .quenchDetect _ _ _ _ _ => execQuenchDetect_risen hk
  | .quenchPowerOff => execQuenchPowerOff_risen hk
  | .quenchReset _ _ => execQuenchReset_risen hk
  | .pendingCopyApply _ _ => execPendingCopyApply_risen hk
  | .dataRow _ _ _ => execDataRow_risen hk
  | .readRow _ _ _ => execReadRow_risen hk
  | .ack _ _ _ => execAck_risen hk
  | .nak _ _ _ => execNak_risen hk
  | .beacon _ _ _ => execBeacon_risen hk
  | .token _ _ _ => execToken_risen hk
  | .attest _ _ _ => execAttest_risen hk
  | .roster _ _ _ => execRoster_risen hk
  | .topology _ _ _ => execTopology_risen hk
  | .join _ _ _ => execJoin_risen hk
  | .joinAck _ _ _ => execJoinAck_risen hk
  | .groupSerial _ _ _ => execGroupSerial_risen hk
  | .groupStart _ _ _ => execGroupStart_risen hk
  | .payloadOk _ _ _ => execPayloadOk_risen hk
  | .stripeCommit _ _ _ => execStripeCommit_risen hk
  | .xoff _ _ _ => execXoff_risen hk
  | .xon _ _ _ => execXon_risen hk
  | .sessionEnd _ _ _ => execSessionEnd_risen hk
  | .readReq _ _ _ => execReadReq_risen hk
  | .positionLost _ _ _ => execPositionLost_risen hk
  | .groupFail _ _ _ => execGroupFail_risen hk
  | .ackTimeout _ => execAckTimeout_risen hk
  | .linkDown _ => execLinkDown_risen hk
  | .payloadConfirmTimeout _ _ => execPayloadConfirmTimeout_risen hk
  | .readRowTimeout _ _ _ => execReadRowTimeout_risen hk
  | .vddAonFail => execVddAonFail_risen hk
  | .jtagAccess _ _ _ => execJtagAccess_risen hk
  | .openStream .. | .locate .. | .space .. | .readPosition .. | .getStats .. | .nop .. | .invalidOpcode .. | .instanceCreate ..
  | .instanceReset .. | .instanceSave .. | .instanceDestroy .. | .rootImportGetPub .. | .rootErase .. | .cartLoad .. | .cartUnload ..
  | .cartCalibrate .. | .chainStatus .. | .raitGroupSet .. | .raitGroupClear .. | .logReadEntries .. | .logReadCertificates ..
  | .serviceChallenge .. | .fwStageWrite .. | .fwStageFinish .. | .fwStageAbandon .. | .fwActivateNext .. | .fwActivateCommitSvn ..
  | .fwActivateCancel .. | .bufferFillStatus .. | .hifDbSqTail .. | .hifDbCqHead .. | .descriptorFetch .. | .irqTimerExpiry ..
  | .pcieLinkUp .. | .hostFault .. | .mqEnable .. | .mqDisable .. | .eventRingEnable .. | .eventRingDisable .. | .evtRingHeadWrite ..
  | .evtLock .. | .panLock .. | .quenchCfgLock .. | .writeSetCommit .. | .writeCommitAll .. | .readSetCommit .. | .readCommitAll ..
  | .coefWrite .. | .coefBankSwap .. | .loopEnable .. | .motionStop .. | .motionBrake .. | .toField .. | .katStart .. | .fillRestart ..
  | .retireClear .. | .reassemble .. | .countModeWrite .. | .malformedAccess .. | .rcFieldRead .. | .timeLoRead .. | .requestLine ..
  | .alloc .. | .free .. | .handoff .. | .acquire .. | .release .. | .cancel .. | .panListRebuild .. | .memdevEventPoll ..
  | .fillChunkDone .. | .cxlPerstRelease .. | .datasetIdleTimeout .. | .slotDecision .. | .writeFifoUnderrun .. | .fenceTimeout ..
  | .maxWaitExpiry .. | .tapeRestart .. | .positionReached .. | .rampEnd .. | .paceWindowEnd .. | .servoFrameBoundary ..
  | .timingUpdate .. | .muStep .. | .resyncWindowClose .. | .ctLost .. | .ctRegained .. | .holdoverEnd .. | .synthLock ..
  | .readAheadRestart .. | .servoFrameDecided .. | .frameMissed .. | .l3Sample .. | .mlsync .. | .inFrame .. | .inFrameAbsent ..
  | .l1Sample .. | .tapeStopped .. | .pafltAssert .. | .rngStartupPass .. | .bootImagesLoaded .. | .ringLinkTrained .. | .thermtrip ..
  | .leakPeriod .. | .pewterUnload .. | .eventRecordWrite .. | .eventIrqTimer .. | .quiesceComplete .. | .challengeLapse .. | .ackTimer ..
  | .laneRetrainDone .. | .getVersion .. | .getCapabilities .. | .negotiateAlgorithms .. | .getDigests .. | .getCertificate ..
  | .challenge .. | .getMeasurements .. | .vendorDefinedRequest .. | .perstDeassert .. | .pcieLinkDown .. | .msixUnmask ..
  | .atsInvalidation .. | .pafltDeassert .. | .setEndpointId .. =>
      out_spared hk rfl rfl

/-! ### Start-up -/

/-- POWER_ON_RESET_RELEASE leaves the slots' records; it sets the slots from them, or, out of its place, nothing. -/
theorem powerOnRelease_slots (s : State) :
    (powerOnRelease s).qs.slotA = s.qs.slotA ∧ (powerOnRelease s).qs.slotB = s.qs.slotB
      ∧ (powerOnRelease s = s ∨ (powerOnRelease s).seqs = if quenchRecord s then (resumeSaved s).seqs else (resumeSeqs s).seqs) := by
  by_cases hm : (s.glb.mode != .reset || s.glb.boot != .held) = true
  · have hsame : powerOnRelease s = s := if_pos hm
    rw [hsame]
    exact ⟨rfl, rfl, .inl rfl⟩
  · have hrecord : (decide (s.qs.state = 2) && decide (s.qs.number = s.qs.recorded) && s.qs.cause != 3) = quenchRecord s := by
      simp only [quenchRecord, Bool.beq_eq_decide_eq]
    have hresumed : (if quenchRecord s then resumeSaved s else resumeSeqs s).qs = s.qs := by
      split
      · simp only [resumeSaved]
      · simp only [resumeSeqs]
    have hseqs : (if quenchRecord s then resumeSaved s else resumeSeqs s).seqs = if quenchRecord s then (resumeSaved s).seqs else (resumeSeqs s).seqs :=
      apply_ite State.seqs _ _ _
    rw [← hseqs, ← congrArg QStore.slotA hresumed, ← congrArg QStore.slotB hresumed]
    unfold powerOnRelease
    rw [if_neg hm]
    extract_lets complete quench u _ w t _ _ x
    have hquench : quench = quenchRecord s := hrecord
    have hu : u = if quenchRecord s then resumeSaved s else resumeSeqs s := by simp only [u, hquench]
    rw [← hu]
    have hx : x.qs.slotA = u.qs.slotA ∧ x.qs.slotB = u.qs.slotB ∧ x.seqs = u.seqs := by
      simp only [x]
      split <;> exact ⟨rfl, rfl, rfl⟩
    obtain ⟨hA, hB, hs⟩ := hx
    exact ⟨hA, hB, .inr hs⟩

theorem powerOnRelease_risen {s : State} (hk : Risen q s) (hn : quenchRecord s = false) : Risen q (powerOnRelease s) := by
  obtain ⟨hA, hB, hs | hs⟩ := powerOnRelease_slots s
  · rw [hs]
    exact hk
  · rw [hn] at hs
    exact risen_eq (s := resumeSeqs s) (resumeSeqs_risen hk) hA hB hs

/-- A completed quench record is taken as it is, and covers what is taken from it. -/
theorem powerOnRelease_saved {s : State} (hk : SeqCovered s) (hn : quenchRecord s = true) :
    SeqCovered (powerOnRelease s) ∧ (powerOnRelease s = s
      ∨ ∀ i : Fin 512, (powerOnRelease s).seqs[i] = { frontier := (storedSlot s i).frontier, epoch := (storedSlot s i).epoch }) := by
  obtain ⟨hA, hB, hs | hs⟩ := powerOnRelease_slots s
  · exact ⟨hs.symm ▸ hk, .inl hs⟩
  · rw [hn] at hs
    have hslot (i : Fin 512) : (powerOnRelease s).seqs[i] = { frontier := (storedSlot s i).frontier, epoch := (storedSlot s i).epoch } := by
      rw [hs]
      exact Vector.getElem_ofFn i.isLt
    refine ⟨fun i => ?_, .inr hslot⟩
    have hstored : storedSlot (powerOnRelease s) i = storedSlot s i := by simp only [storedSlot, hA, hB]
    obtain ⟨-, -, -, hlast⟩ := hk i
    rw [hstored, hslot]
    exact ⟨Nat.le_add_right _ _, Nat.le_succ _, hlast, hlast⟩

end Sys2Proof.Sequence

namespace Sys2Proof.Claims

theorem seqCovered_reset : SeqCovered State.reset := by
  intro i
  have hseq : State.reset.seqs[i] = {} := by simp [State.reset]
  rw [hseq]
  exact ⟨Nat.zero_le _, Nat.zero_le _, Nat.zero_le _, by simp [storedSlot, State.reset]⟩

end Sys2Proof.Claims

/-- Settles O5: the cover holds at reset; every operation keeps it and lowers no value, but for a start-up from a completed record. -/
theorem Sys2Proof.sequenceNeverFalls : Obligations.SequenceNeverFalls := by
  refine ⟨Claims.seqCovered_reset, fun c s t hs hstep => ?_⟩
  have hself : Sequence.Risen s.seqs s := Sequence.risen_iff.mpr hs
  by_cases hc : c = .powerOnResetRelease ∧ Claims.quenchRecord s = true
  · obtain ⟨rfl, hrecord⟩ := hc
    obtain rfl : powerOnRelease s = t := Host.Outcome.next.inj hstep
    obtain ⟨hcover, hsame | htaken⟩ := Sequence.powerOnRelease_saved hs hrecord
    · exact ⟨hcover, .inr fun i => by rw [hsame]; exact ⟨Nat.le_refl _, Nat.le_refl _⟩⟩
    · exact ⟨hcover, .inl ⟨rfl, hrecord, fun i => by rw [htaken i]; exact ⟨rfl, rfl⟩⟩⟩
  · have hrisen : Sequence.Risen s.seqs t := by
      by_cases hrow : c = .powerOnResetRelease
      · subst hrow
        obtain rfl : powerOnRelease s = t := Host.Outcome.next.inj hstep
        exact Sequence.powerOnRelease_risen hself (by simpa using hc)
      · have hout := Sequence.exec_risen (q := s.seqs) hself hrow
        rw [hstep] at hout
        exact hout
    exact ⟨fun i => (hrisen i).1, .inr fun i => (hrisen i).2⟩
end

section
/-! PROOFS. Words of the Reed-Solomon encoders are codewords (R30, R37, R202, R205): the laws of the field of R37, a word as a polynomial
at a point, the generator's zeros, the division register of an encoder, and the decode of a word that has no syndrome. -/

open Sys2Proof Sys2Proof.Machine

namespace Sys2Proof.Machine

/-! ### The field of R37

Multiplication by a fixed byte is a sum of powers of `gfTwice`, so two such multiplications commute; with a unit that makes the product
commutative and associative. -/

theorem byte_xor_self (a : Byte) : a ^^^ a = 0 := BitVec.xor_self

theorem byte_zero_xor (a : Byte) : 0 ^^^ a = a := BitVec.zero_xor

theorem gfTwice_xor (a b : Byte) : gfTwice (a ^^^ b) = gfTwice a ^^^ gfTwice b := by
  unfold gfTwice
  rw [BitVec.getLsbD_xor, BitVec.shiftLeft_xor_distrib]
  have hred (x y : Byte) : x ^^^ y = x ^^^ 0x1D#8 ^^^ (y ^^^ 0x1D#8) := by
    rw [BitVec.xor_assoc, BitVec.xor_comm y, ← BitVec.xor_assoc 0x1D#8, BitVec.xor_self, BitVec.zero_xor]
  cases a.getLsbD 7 <;> cases b.getLsbD 7
  · rfl
  · exact BitVec.xor_assoc _ _ _
  · exact (BitVec.xor_assoc _ _ _).trans ((congrArg _ (BitVec.xor_comm _ _)).trans (BitVec.xor_assoc _ _ _).symm)
  · exact hred _ _

/-- A map of bytes that respects sums and doubling respects the steps of a product. -/
theorem foldl_gfMulStep_map {φ : Byte → Byte} (hadd : ∀ x y, φ (x ^^^ y) = φ x ^^^ φ y) (htwice : ∀ x, φ (gfTwice x) = gfTwice (φ x)) (b : Byte)
    (l : List Nat) (st : Byte × Byte) :
    φ (l.foldl (fun st i => gfMulStep st i b) st).1 = (l.foldl (fun st i => gfMulStep st i b) (φ st.1, φ st.2)).1 := by
  induction l generalizing st with
  | nil => rfl
  | cons i l ih =>
    have hstep : (φ (gfMulStep st i b).1, φ (gfMulStep st i b).2) = gfMulStep (φ st.1, φ st.2) i b := by
      simp only [gfMulStep, htwice, apply_ite φ, hadd]
    rw [List.foldl_cons, ih, hstep, List.foldl_cons]

theorem map_gfMul {φ : Byte → Byte} (hadd : ∀ x y, φ (x ^^^ y) = φ x ^^^ φ y) (htwice : ∀ x, φ (gfTwice x) = gfTwice (φ x)) (a b : Byte) :
    φ (gfMul a b) = gfMul (φ a) b := by
  have hzero : φ 0 = 0 := by simpa using hadd 0 0
  have hfold := foldl_gfMulStep_map hadd htwice b (List.range 8) (0, a)
  rwa [hzero] at hfold

theorem foldl_gfMulStep_xor (c : Byte) (l : List Nat) (s t : Byte × Byte) :
    (l.foldl (fun st i => gfMulStep st i c) (s.1 ^^^ t.1, s.2 ^^^ t.2)).1
      = (l.foldl (fun st i => gfMulStep st i c) s).1 ^^^ (l.foldl (fun st i => gfMulStep st i c) t).1 := by
  induction l generalizing s t with
  | nil => rfl
  | cons i l ih =>
    have hstep : gfMulStep (s.1 ^^^ t.1, s.2 ^^^ t.2) i c = ((gfMulStep s i c).1 ^^^ (gfMulStep t i c).1, (gfMulStep s i c).2 ^^^ (gfMulStep t i c).2) := by
      simp only [gfMulStep, gfTwice_xor]
      split
      · exact Prod.ext (by dsimp only; ac_rfl) rfl
      · rfl
    rw [List.foldl_cons, hstep, ih, List.foldl_cons, List.foldl_cons]

theorem xor_gfMul (a b c : Byte) : gfMul (a ^^^ b) c = gfMul a c ^^^ gfMul b c := by
  have hfold := foldl_gfMulStep_xor c (List.range 8) (0, a) (0, b)
  rwa [BitVec.xor_self] at hfold

theorem gfTwice_gfMul (a b : Byte) : gfTwice (gfMul a b) = gfMul (gfTwice a) b := map_gfMul gfTwice_xor (fun _ => rfl) a b

theorem gfMul_right_comm (a b c : Byte) : gfMul (gfMul a b) c = gfMul (gfMul a c) b :=
  map_gfMul (φ := fun x => gfMul x c) (fun x y => xor_gfMul x y c) (fun x => (gfTwice_gfMul x c).symm) a b

theorem one_gfMul (b : Byte) : gfMul 1 b = b := by revert b; decide +kernel

theorem gfMul_comm (a b : Byte) : gfMul a b = gfMul b a := by
  have h := gfMul_right_comm 1 a b
  rwa [one_gfMul, one_gfMul] at h

theorem gfMul_assoc (a b c : Byte) : gfMul (gfMul a b) c = gfMul a (gfMul b c) := by
  rw [gfMul_comm a (gfMul b c), gfMul_right_comm b c a, gfMul_comm b a]

theorem gfMul_xor (a b c : Byte) : gfMul a (b ^^^ c) = gfMul a b ^^^ gfMul a c := by
  rw [gfMul_comm a, xor_gfMul, gfMul_comm b, gfMul_comm c]

theorem gfMul_one (a : Byte) : gfMul a 1 = a := by rw [gfMul_comm, one_gfMul]

theorem zero_gfMul (a : Byte) : gfMul 0 a = 0 := by simpa using xor_gfMul 0 0 a

theorem gfMul_zero (a : Byte) : gfMul a 0 = 0 := by rw [gfMul_comm, zero_gfMul]

/-! ### A word as a polynomial at the point `x`, highest coefficient first -/

/-- The word with `a` for what came before it. -/
def hornerAt (x : Byte) (w : List Byte) (a : Byte) : Byte := w.foldl (fun a b => gfMul a x ^^^ b) a

theorem rsSyndrome_eq (w : List Byte) (j : Nat) : rsSyndrome w j = hornerAt (gfAlpha j) w 0 := rfl

theorem hornerAt_cons (x b : Byte) (w : List Byte) (a : Byte) : hornerAt x (b :: w) a = hornerAt x w (gfMul a x ^^^ b) := rfl

theorem hornerAt_append (x : Byte) (v w : List Byte) (a : Byte) : hornerAt x (v ++ w) a = hornerAt x w (hornerAt x v a) := List.foldl_append

theorem hornerAt_xor (x : Byte) {v w : List Byte} (h : v.length = w.length) (a b : Byte) :
    hornerAt x (List.zipWith (· ^^^ ·) v w) (a ^^^ b) = hornerAt x v a ^^^ hornerAt x w b := by
  induction v generalizing w a b with
  | nil =>
    obtain rfl : w = [] := List.length_eq_zero_iff.mp h.symm
    rfl
  | cons c v ih =>
    cases w with
    | nil => cases h
    | cons d w =>
      have hstep : gfMul (a ^^^ b) x ^^^ (c ^^^ d) = (gfMul a x ^^^ c) ^^^ (gfMul b x ^^^ d) := by
        rw [xor_gfMul]
        ac_rfl
      rw [List.zipWith_cons_cons, hornerAt_cons, hstep, ih (Nat.succ.inj h), hornerAt_cons, hornerAt_cons]

theorem hornerAt_map (x f : Byte) (w : List Byte) (a : Byte) : hornerAt x (w.map (gfMul f)) (gfMul f a) = gfMul f (hornerAt x w a) := by
  induction w generalizing a with
  | nil => rfl
  | cons b w ih => rw [List.map_cons, hornerAt_cons, hornerAt_cons, ← ih, gfMul_xor, gfMul_assoc]

/-! ### The generator -/

theorem length_rsGenStep (g : List Byte) (i : Nat) : (rsGenStep g i).length = g.length + 1 := by simp [rsGenStep]

/-- The product with (x + α^i), at a point. -/
theorem hornerAt_rsGenStep (x : Byte) (g : List Byte) (i : Nat) : hornerAt x (rsGenStep g i) 0 = gfMul (hornerAt x g 0) (x ^^^ gfAlpha i) := by
  have hlen : (g ++ [0]).length = (0 :: g.map (gfMul (gfAlpha i))).length := by simp
  have hsum := hornerAt_xor x hlen 0 0
  have hshift : hornerAt x (g ++ [0]) 0 = gfMul (hornerAt x g 0) x := by
    rw [hornerAt_append]
    exact BitVec.xor_zero
  have hscaled : hornerAt x (0 :: g.map (gfMul (gfAlpha i))) 0 = gfMul (hornerAt x g 0) (gfAlpha i) := by
    have hmap := hornerAt_map x (gfAlpha i) g 0
    rw [gfMul_zero] at hmap
    rw [hornerAt_cons, zero_gfMul, byte_xor_self, hmap, gfMul_comm]
  rw [byte_xor_self, hshift, hscaled, ← gfMul_xor] at hsum
  exact hsum

theorem rsGen_succ (m : Nat) : rsGen (m + 1) = rsGenStep (rsGen m) m := by
  rw [rsGen, List.range_succ, List.foldl_append]
  rfl

theorem length_rsGen (m : Nat) : (rsGen m).length = m + 1 := by
  induction m with
  | zero => rfl
  | succ m ih => rw [rsGen_succ, length_rsGenStep, ih]

/-- The generator of `m` check bytes is 0 at α^0 to α^(m−1). -/
theorem hornerAt_rsGen {m j : Nat} (h : j < m) : hornerAt (gfAlpha j) (rsGen m) 0 = 0 := by
  induction m with
  | zero => cases h
  | succ m ih =>
    rw [rsGen_succ, hornerAt_rsGenStep]
    rcases Nat.lt_succ_iff_lt_or_eq.mp h with hlt | rfl
    · rw [ih hlt, zero_gfMul]
    · rw [byte_xor_self, gfMul_zero]

/-- Its leading coefficient is 1. -/
theorem rsGen_head (m : Nat) : (rsGen m).head? = some 1 := by
  induction m with
  | zero => rfl
  | succ m ih =>
    obtain ⟨g, hg⟩ : ∃ g, rsGen m = 1 :: g := by
      cases h : rsGen m with
      | nil => rw [h] at ih; cases ih
      | cons c g => rw [h] at ih; cases ih; exact ⟨g, rfl⟩
    rw [rsGen_succ, hg]
    rfl

theorem rsGen_eq (m : Nat) : rsGen m = 1 :: (rsGen m).drop 1 := by
  have h := rsGen_head m
  cases hg : rsGen m with
  | nil => rw [hg] at h; cases h
  | cons c g => rw [hg] at h; cases h; rfl

/-! ### The division register -/

theorem length_rsStep {g reg : List Byte} (h : reg.length = g.length) (d : Byte) : (rsStep g reg d).length = g.length := by
  simp only [rsStep, List.length_zipWith, List.length_append, List.length_drop, List.length_map, List.length_cons, List.length_nil]
  omega

theorem length_foldl_rsStep {g : List Byte} (data : List Byte) {reg : List Byte} (h : reg.length = g.length) :
    (data.foldl (rsStep g) reg).length = g.length := by
  induction data generalizing reg with
  | nil => exact h
  | cons d data ih => exact ih (length_rsStep h d)

theorem length_rsCheck (m : Nat) (data : List Byte) : (rsCheck m data).length = m := by
  have hgen : ((rsGen m).drop 1).length = m := by rw [List.length_drop, length_rsGen, Nat.add_sub_cancel]
  rw [rsCheck, length_foldl_rsStep data (by rw [List.length_replicate, hgen]), hgen]

/-- With `a` for the data so far, one more byte and the register after it: the word up to there times x, and a multiple of the generator. -/
theorem hornerAt_rsStep (x : Byte) {g reg : List Byte} (h : reg.length = g.length) (a d : Byte) :
    hornerAt x (rsStep g reg d) (gfMul a x ^^^ d) = gfMul (hornerAt x reg a) x ^^^ gfMul (d ^^^ reg.headD 0) (hornerAt x g 1) := by
  cases reg with
  | nil =>
    obtain rfl : g = [] := List.length_eq_zero_iff.mp h.symm
    show gfMul a x ^^^ d = gfMul a x ^^^ gfMul (d ^^^ 0) 1
    rw [gfMul_one, BitVec.xor_comm d 0, byte_zero_xor]
  | cons c reg =>
    have hlen : (reg ++ [0]).length = (g.map (gfMul (d ^^^ c))).length := by simpa using h
    have hsum := hornerAt_xor x hlen (gfMul a x ^^^ c) (d ^^^ c)
    have hstart : (gfMul a x ^^^ c) ^^^ (d ^^^ c) = gfMul a x ^^^ d := by
      rw [BitVec.xor_comm d c, BitVec.xor_assoc, ← BitVec.xor_assoc c, byte_xor_self, byte_zero_xor]
    have hshift : hornerAt x (reg ++ [0]) (gfMul a x ^^^ c) = gfMul (hornerAt x (c :: reg) a) x := by
      rw [hornerAt_append, hornerAt_cons]
      exact BitVec.xor_zero
    have hmap : hornerAt x (g.map (gfMul (d ^^^ c))) (d ^^^ c) = gfMul (d ^^^ c) (hornerAt x g 1) := by
      rw [← hornerAt_map, gfMul_one]
    rw [hstart, hshift, hmap] at hsum
    exact hsum

/-- Where the generator is 0, the register keeps the word at 0. -/
theorem hornerAt_foldl_rsStep (x : Byte) {g : List Byte} (hg : hornerAt x g 1 = 0) (data : List Byte) {reg : List Byte} (h : reg.length = g.length)
    {a : Byte} (h0 : hornerAt x reg a = 0) : hornerAt x (data ++ data.foldl (rsStep g) reg) a = 0 := by
  induction data generalizing reg a with
  | nil => exact h0
  | cons d data ih =>
    rw [List.cons_append, hornerAt_cons, List.foldl_cons]
    refine ih (length_rsStep h d |>.trans rfl) ?_
    rw [hornerAt_rsStep x h, h0, hg, zero_gfMul, gfMul_zero, byte_xor_self]

theorem hornerAt_replicate_zero (x : Byte) (n : Nat) : hornerAt x (List.replicate n 0) 0 = 0 := by
  induction n with
  | zero => rfl
  | succ n ih => rw [List.replicate_succ, hornerAt_cons, zero_gfMul, byte_xor_self, ih]

theorem rsSyndrome_encoded {m j : Nat} (h : j < m) (data : List Byte) : rsSyndrome (data ++ rsCheck m data) j = 0 := by
  have hlen : (List.replicate m (0 : Byte)).length = ((rsGen m).drop 1).length := by
    rw [List.length_replicate, List.length_drop, length_rsGen, Nat.add_sub_cancel]
  have hgen : hornerAt (gfAlpha j) ((rsGen m).drop 1) 1 = 0 := by
    have hzero := hornerAt_rsGen h
    rwa [rsGen_eq, hornerAt_cons, zero_gfMul, byte_zero_xor] at hzero
  exact hornerAt_foldl_rsStep (gfAlpha j) hgen data hlen (hornerAt_replicate_zero _ _)

/-! ### The decode of a codeword -/

theorem rsFix_codeword {m : Nat} {w : List Byte} (h : ∀ j < m, rsSyndrome w j = 0) : rsFix m w [] = some w := by
  have hrows : ((List.range m).map (fun j => [rsSyndrome w j])).all (fun x => x.all (· == 0)) = true := by
    simp only [List.all_eq_true, List.mem_map, List.mem_range]
    rintro _ ⟨j, hj, rfl⟩
    simp [h j hj]
  simp only [rsFix, gfSolve, List.map_nil, List.nil_append, List.length_nil, List.range_zero, List.foldl_nil, List.all_nil, List.drop_zero, hrows,
    Bool.and_self, if_true, List.take_zero, List.zip_nil_left]

theorem rsDecode_codeword {m : Nat} {w : List Byte} (h : ∀ j < m, rsSyndrome w j = 0) (e : Nat) : rsDecode m w [] e = some (w, []) := by
  rw [rsDecode, List.range_succ_eq_map, List.findSome?_cons]
  simp [errorSets, rsFix_codeword h]

end Sys2Proof.Machine

/-- Settles O51: an encoder's register divides by the generator, whose zeros are the points of the syndromes. -/
theorem Sys2Proof.encodedWordsDecode : Obligations.EncodedWordsDecode := by
  intro m data _
  have hcodeword : ∀ j < m, rsSyndrome (data ++ rsCheck m data) j = 0 := fun j hj => rsSyndrome_encoded hj data
  refine ⟨?_, length_rsCheck m data, rsDecode_codeword hcodeword⟩
  simp only [rsSyndromes, List.mem_map, List.mem_range]
  rintro x ⟨j, hj, rfl⟩
  exact hcodeword j hj
end

section
/-! PROOFS. What a write stores and a read answers (R8): the statement says it of every list of cells, and it fails for one that is not in
the canonical form of host memory. For memory in that form hostRead_hostWrite (Laws/Memory.lean) says it of a run that does not wrap. -/

open Sys2Proof Sys2Proof.Machine

namespace Sys2Proof.Tests

/-- Host memory with a cell of byte 2 at address 3 that stands behind one at address 5: no canonical form, which no step leaves
(`stepKeepsQueueAndMemory`). -/
def unsortedMemory : State := { State.reset with hostMem := [(5, 1), (3, 2)] }

theorem unsortedMemory_wf : Memory.wf unsortedMemory.hostMem = false := by decide

/-- A byte 0 written at address 3 meets the cell at 5 first, and the read finds the byte that stood there. -/
theorem hostRead_unsortedMemory : hostRead (hostWrite 0 3 [0] unsortedMemory) 0 3 1 = [2] := by decide

end Sys2Proof.Tests

/-- Refutes O60: in a list of cells whose keys do not rise, a byte 0 that is written does not read back; the statement does not ask for the
canonical form there. -/
theorem Sys2Proof.not_hostMemoryReadsBack : ¬ Obligations.HostMemoryReadsBack := by
  intro h
  have hread := (h 0 3 [0] Tests.unsortedMemory (by decide)).1
  rw [show ([0] : Bytes).length = 1 from rfl, Tests.hostRead_unsortedMemory] at hread
  exact absurd hread (by decide)
end

section
/-! PROOFS. What a cipher engine seals it opens again (R87, R93): the lengths of AES blocks, counter mode as an exclusive or with a stream
that only the length of the data decides, and the parts of a sealed block. -/

open Sys2Proof Sys2Proof.Machine

namespace Sys2Proof.Machine

/-! ### Lengths -/

theorem length_leBytes (k n : Nat) : (leBytes k n).length = k := by
  induction k generalizing n with
  | zero => rfl
  | succ k ih => exact congrArg (· + 1) (ih _)

theorem length_beBytes (k n : Nat) : (beBytes k n).length = k := by rw [beBytes, List.length_reverse, length_leBytes]

theorem length_slice (bs : Bytes) (off n : Nat) : (slice bs off n).length = n := by
  simp only [slice, List.length_append, List.length_replicate, List.length_take, List.length_drop]
  omega

theorem slice_eq_take {bs : Bytes} {off n : Nat} (h : off + n ≤ bs.length) : slice bs off n = (bs.drop off).take n := by
  have hlen : n - ((bs.drop off).take n).length = 0 := by
    rw [List.length_take, List.length_drop]
    omega
  rw [slice, hlen, List.replicate_zero, List.append_nil]

theorem length_crcBytes (bs : Bytes) : (crcBytes bs).length = 4 := length_leBytes _ _

theorem length_xorBytes (a b : Bytes) : (xorBytes a b).length = min a.length b.length := List.length_zipWith

theorem xorBytes_xorBytes {a b : Bytes} (h : a.length ≤ b.length) : xorBytes (xorBytes a b) b = a := by
  apply List.ext_getElem
  · rw [length_xorBytes, length_xorBytes]
    omega
  · intro i _ _
    simp only [xorBytes, List.getElem_zipWith, BitVec.xor_assoc, BitVec.xor_self, BitVec.xor_zero]

theorem xorBytes_append (a b : Bytes) {c : Bytes} (n : Nat) (h : c.length = n) :
    xorBytes a (c ++ b) = xorBytes (a.take n) c ++ xorBytes (a.drop n) b := by
  subst h
  induction c generalizing a with
  | nil => simp [xorBytes]
  | cons x c ih =>
    cases a with
    | nil => simp [xorBytes]
    | cons y a => exact congrArg (_ :: ·) (ih a)

end Sys2Proof.Machine

namespace Sys2Proof.Machine.Aes

/-! ### The key schedule and the cipher -/

theorem length_keyTemp {i : Nat} {rcon : Byte} {w : Bytes} (h : w.length = 4) : (keyTemp i rcon w).length = 4 := by
  unfold keyTemp
  split
  · simp only [length_xorBytes, List.length_map, List.length_append, List.length_drop, List.length_take, List.length_cons, List.length_nil]
    omega
  · split
    · rw [List.length_map, h]
    · exact h

/-- The words of a schedule under way: as many as stated, each of 4 bytes. -/
def WordsOf (n : Nat) (w : Array Bytes) : Prop := w.size = n ∧ ∀ i < n, (w[i]!).length = 4

theorem WordsOf.push {n : Nat} {w : Array Bytes} {b : Bytes} (h : WordsOf n w) (hb : b.length = 4) : WordsOf (n + 1) (w.push b) := by
  obtain ⟨hsize, hlen⟩ := h
  refine ⟨by rw [Array.size_push, hsize], fun i hi => ?_⟩
  have hpush : i < (w.push b).size := by rw [Array.size_push, hsize]; exact hi
  rw [getElem!_pos (w.push b) i hpush]
  rcases Nat.lt_succ_iff_lt_or_eq.mp hi with hlt | rfl
  · have hold : i < w.size := hsize ▸ hlt
    rw [Array.getElem_push_lt hold, ← getElem!_pos w i hold]
    exact hlen i hlt
  · simpa [← hsize] using hb

/-- One word more of the schedule: `keyWords` is 52 of these. -/
def keyStep (st : Array Bytes × Byte) (k : Nat) : Array Bytes × Byte :=
  (st.1.push (xorBytes (st.1[k + 8 - 8]!) (keyTemp (k + 8) st.2 (st.1[k + 8 - 1]!))), if (k + 8) % 8 = 0 then xt st.2 else st.2)

theorem keySteps_words (key : Bytes) (n : Nat) :
    WordsOf (n + 8) ((List.range n).foldl keyStep (((List.range 8).map (fun i => slice key (4 * i) 4)).toArray, 1#8)).1 := by
  induction n with
  | zero =>
    refine ⟨by simp, fun i hi => ?_⟩
    have hsize : i < ((List.range 8).map (fun i => slice key (4 * i) 4)).toArray.size := by simpa using hi
    rw [List.range_zero, List.foldl_nil, getElem!_pos (((List.range 8).map (fun i => slice key (4 * i) 4)).toArray) i hsize]
    simp [length_slice]
  | succ n ih =>
    rw [List.range_succ (n := n), List.foldl_append]
    refine WordsOf.push ih ?_
    rw [length_xorBytes, length_keyTemp (ih.2 _ (by omega)), ih.2 _ (by omega), Nat.min_self]

theorem keyWords_words (key : Bytes) : WordsOf 60 (keyWords key) := keySteps_words key 52

theorem length_roundKeys (key : Bytes) {r : Nat} (h : r < 15) : ((roundKeys key).getD r []).length = 16 := by
  have hword (c : Nat) (hc : c < 4) : ((keyWords key)[4 * r + c]!).length = 4 := (keyWords_words key).2 _ (by omega)
  have hparts : List.range 4 = [0, 1, 2, 3] := rfl
  have hfirst : ((keyWords key)[4 * r]!).length = 4 := hword 0 (by decide)
  simp [roundKeys, List.getD_eq_getElem?_getD, h, hparts, hword, hfirst]

theorem length_encryptBlock (key b : Bytes) : (encryptBlock (roundKeys key) b).length = 16 := by
  rw [encryptBlock, length_xorBytes, length_roundKeys key (by decide), shiftRows, List.length_map, List.length_range, Nat.min_self]

/-! ### Counter mode -/

theorem blocks_nil : blocks [] = [] := rfl

theorem blocks_cons {bs : Bytes} (h : bs ≠ []) : blocks bs = bs.take 16 :: blocks (bs.drop 16) := by
  have hpos : 0 < bs.length := List.length_pos_iff.mpr h
  have hcount : ceilDiv bs.length 16 = ceilDiv (bs.drop 16).length 16 + 1 := by
    simp only [ceilDiv, List.length_drop]
    omega
  rw [blocks, hcount, List.range_succ_eq_map, List.map_cons, List.map_map, blocks]
  refine List.cons_eq_cons.mpr ⟨rfl, List.map_congr_left fun i _ => ?_⟩
  simp only [Function.comp_apply, List.drop_drop, Nat.succ_eq_add_one]
  rw [show 16 * (i + 1) = 16 + 16 * i by omega]

/-- The key stream that counter mode sets against `n` blocks, counter block `c` first. -/
def keyStream (ks : List Bytes) (w : Nat) (c : Bytes) : Nat → Bytes
  | 0 => []
  | n + 1 => encryptBlock ks c ++ keyStream ks w (incr w c) n

/-- One block of counter mode: `ctr` is a fold of these. -/
def ctrStep (ks : List Bytes) (w : Nat) (st : Bytes × List Bytes) (b : Bytes) : Bytes × List Bytes :=
  (incr w st.1, xorBytes b (encryptBlock ks st.1) :: st.2)

theorem foldl_ctrStep {ks : List Bytes} (w : Nat) (h : ∀ b, (encryptBlock ks b).length = 16) (n : Nat) (data : Bytes) (hn : ceilDiv data.length 16 = n)
    (c : Bytes) (acc : List Bytes) :
    ((blocks data).foldl (ctrStep ks w) (c, acc)).2.reverse.flatten = acc.reverse.flatten ++ xorBytes data (keyStream ks w c n) := by
  induction n generalizing data c acc with
  | zero =>
    obtain rfl : data = [] := List.length_eq_zero_iff.mp (by unfold ceilDiv at hn; omega)
    simp [blocks_nil, xorBytes]
  | succ n ih =>
    have hne : data ≠ [] := by rintro rfl; cases hn
    have hrest : ceilDiv (data.drop 16).length 16 = n := by
      simp only [ceilDiv, List.length_drop] at hn ⊢
      omega
    have hsplit : xorBytes data (encryptBlock ks c ++ keyStream ks w (incr w c) n)
        = xorBytes (data.take 16) (encryptBlock ks c) ++ xorBytes (data.drop 16) (keyStream ks w (incr w c) n) :=
      xorBytes_append _ _ 16 (h c)
    rw [blocks_cons hne, List.foldl_cons, ctrStep, ih _ hrest, keyStream, hsplit, List.reverse_cons, List.flatten_append]
    simp

theorem ctr_eq {ks : List Bytes} (w : Nat) (c data : Bytes) (h : ∀ b, (encryptBlock ks b).length = 16) :
    ctr ks w c data = xorBytes data (keyStream ks w c (ceilDiv data.length 16)) := foldl_ctrStep w h _ data rfl c []

theorem length_keyStream {ks : List Bytes} (w : Nat) (h : ∀ b, (encryptBlock ks b).length = 16) (n : Nat) (c : Bytes) :
    (keyStream ks w c n).length = 16 * n := by
  induction n generalizing c with
  | zero => rfl
  | succ n ih =>
    rw [keyStream, List.length_append, h, ih]
    omega

theorem length_ctr {ks : List Bytes} (w : Nat) (c data : Bytes) (h : ∀ b, (encryptBlock ks b).length = 16) : (ctr ks w c data).length = data.length := by
  rw [ctr_eq w c data h, length_xorBytes, length_keyStream w h]
  unfold ceilDiv
  omega

/-- Counter mode undoes itself: the stream that it sets against the data depends on their length alone. -/
theorem ctr_ctr {ks : List Bytes} (w : Nat) (c data : Bytes) (h : ∀ b, (encryptBlock ks b).length = 16) : ctr ks w c (ctr ks w c data) = data := by
  have hlen : data.length ≤ (keyStream ks w c (ceilDiv data.length 16)).length := by
    rw [length_keyStream w h]
    unfold ceilDiv
    omega
  rw [ctr_eq w c (ctr ks w c data) h, length_ctr w c data h, ctr_eq w c data h]
  exact xorBytes_xorBytes hlen

end Sys2Proof.Machine.Aes

namespace Sys2Proof.Machine

open Aes

/-! ### A block, sealed and opened -/

theorem length_gcmTag (key iv aad ct : Bytes) : (gcmTag (roundKeys key) iv aad ct).length = 16 := by
  rw [gcmTag, length_xorBytes, length_beBytes, length_encryptBlock, Nat.min_self]

theorem length_gcmBody (key iv data : Bytes) : (gcmBody (roundKeys key) iv data).length = data.length :=
  length_ctr _ _ _ (length_encryptBlock key)

theorem gcmBody_gcmBody (key iv data : Bytes) : gcmBody (roundKeys key) iv (gcmBody (roundKeys key) iv data) = data :=
  ctr_ctr _ _ _ (length_encryptBlock key)

theorem length_withBlockCrc (h body : Bytes) : (withBlockCrc h body).length = h.length + 4 + body.length := by
  rw [withBlockCrc, List.length_append, List.length_append, length_crcBytes]

/-- The header of a block of 12 bytes of it. -/
theorem slice_withBlockCrc {h : Bytes} (body : Bytes) (hh : h.length = 12) : slice (withBlockCrc h body) 0 12 = h := by
  rw [slice_eq_take (by rw [length_withBlockCrc]; omega), List.drop_zero, withBlockCrc, List.append_assoc, List.take_left' hh]

theorem drop_withBlockCrc {h : Bytes} (body : Bytes) (hh : h.length = 12) : (withBlockCrc h body).drop 16 = body := by
  rw [withBlockCrc, List.drop_left']
  rw [List.length_append, length_crcBytes, hh]

theorem openBlock_sealBlock (key coded : Bytes) (salt counter epoch tag part session : Nat) :
    openBlock key salt counter epoch tag part session (sealBlock key salt counter epoch tag part session coded)
      = some (withBlockCrc (slice coded 0 12) (coded.drop 16)) := by
  rw [sealBlock]
  generalize hct : gcmBody (roundKeys key) (blockIv salt counter) (coded.drop 16) = ct
  generalize ht : gcmTag (roundKeys key) (blockIv salt counter) (blockAad (slice coded 0 12) tag part session epoch counter) ct = t
  have hh : (slice coded 0 12).length = 12 := length_slice _ _ _
  have htag : t.length = 16 := ht ▸ length_gcmTag _ _ _ _
  generalize hblk : withBlockCrc (slice coded 0 12) (ct ++ t) = blk
  have hlen : blk.length = 16 + ct.length + 16 := by
    rw [← hblk, length_withBlockCrc, hh, List.length_append, htag]
    omega
  have hhead : slice blk 0 12 = slice coded 0 12 := hblk ▸ slice_withBlockCrc _ hh
  have hbody : blk.drop 16 = ct ++ t := hblk ▸ drop_withBlockCrc _ hh
  have hcipher : slice blk 16 (blk.length - 32) = ct := by
    rw [slice_eq_take (by omega), hbody, List.take_left' (by omega)]
  have htail : blk.drop (blk.length - 16) = t := by
    rw [show blk.length - 16 = 16 + ct.length by omega, ← List.drop_drop, hbody, List.drop_left]
  rw [openBlock, hhead, hcipher, htail, ht, ← hct, gcmBody_gcmBody, if_neg (by omega), if_pos rfl]

theorem openBlock_some {key blk plain : Bytes} {salt counter epoch tag part session : Nat}
    (h : openBlock key salt counter epoch tag part session blk = some plain) :
    plain = withBlockCrc (slice blk 0 12) (plain.drop 16) ∧ blk.length = plain.length + 16 := by
  have hh : (slice blk 0 12).length = 12 := length_slice _ _ _
  rw [openBlock] at h
  split at h
  · cases h
  · split at h
    · cases h
      refine ⟨by rw [drop_withBlockCrc _ hh], ?_⟩
      rw [length_withBlockCrc, hh, length_gcmBody, length_slice]
      omega
    · cases h

end Sys2Proof.Machine

/-- Settles O45: counter mode undoes itself, and the tag of what was sealed is the tag that opening computes. -/
theorem Sys2Proof.sealedBlocksOpen : Obligations.SealedBlocksOpen := by
  intro key coded salt counter epoch tag part session _ _ hcoded
  refine ⟨?_, fun blk plain h => openBlock_some h⟩
  rw [openBlock_sealBlock, ← hcoded]
end

section
/-! PROOFS. Every request of the pan manager keeps the buffer state table (R225 to R233): the table speaks of the handles that are HELD and
of the counts and the store of each pan alone, a grant moves one handle from the store to the HELD ones, and a buffer freed goes back. -/

open Sys2Proof Sys2Proof.Machine

namespace Sys2Proof.PanManager

/-! ### What the table speaks of -/

/-- The handles of a run of the linked store, head first. -/
def runHandles (r : FreeRun) : List Nat := (List.range r.count).map (fun i => if r.down then r.first - i else r.first + i)

/-- The handles of a linked store. -/
def storeHandles (l : List FreeRun) : List Nat := l.flatMap runHandles

/-- The handles of the HELD buffers. -/
def heldHandles (s : State) : List Nat := s.pans.held.map (·.handle)

/-- How many handles of a list stand from `first` on, before `first + n`. -/
def countIn (first n : Nat) (l : List Nat) : Nat := l.countP (fun h => decide (first ≤ h) && decide (h < first + n))

/-- A linked store has the handles of a pan that are filled and not HELD, each once, in sound runs. -/
def StoreHolds (l : List FreeRun) (first filled : Nat) (held : List Nat) : Prop :=
  (storeHandles l).Nodup ∧ (∀ r ∈ l, 0 < r.count ∧ (r.down = true → r.count ≤ r.first + 1))
    ∧ ∀ h, h ∈ storeHandles l ↔ first ≤ h ∧ h < first + filled ∧ h ∉ held

/-- The table's part of one pan. -/
def PanEntries (q : Pan) (first : Nat) (held : List Nat) : Prop :=
  q.filled ≤ q.count ∧ q.free + countIn first q.count held = q.filled ∧ (q.bitmap = false → StoreHolds q.list first q.filled held)

theorem countIn_map (first n : Nat) (l : List HeldBuf) :
    countIn first n (l.map (·.handle)) = (l.filter (fun b => decide (first ≤ b.handle) && decide (b.handle < first + n))).length := by
  rw [countIn, List.countP_map, List.countP_eq_length_filter]
  rfl

theorem panTable_iff (s : State) : Claims.PanTable s ↔
    (heldHandles s).Pairwise (· < ·)
      ∧ (∀ h ∈ heldHandles s, ∃ p, panFirst s p ≤ h ∧ h < panFirst s p + (s.pan p).filled)
      ∧ ∀ p, PanEntries (s.pan p) (panFirst s p) (heldHandles s) := by
  simp only [Claims.PanTable, PanEntries, StoreHolds, heldHandles, List.pairwise_map, List.forall_mem_map, countIn_map]
  refine and_congr_right fun _ => and_congr_right fun _ => forall_congr' fun p => and_congr_right fun _ => and_congr_right fun _ =>
    imp_congr_right fun _ => and_congr_right fun _ => and_congr_right fun _ => forall_congr' fun h =>
      iff_congr Iff.rfl (and_congr_right fun _ => and_congr_right fun _ => ?_)
  simp

/-! ### What leaves the table alone -/

/-- Two states have the same HELD handles, counts and stores. -/
def SameTable (s t : State) : Prop :=
  heldHandles t = heldHandles s ∧ ∀ p, (t.pan p).count = (s.pan p).count ∧ (t.pan p).filled = (s.pan p).filled ∧ (t.pan p).free = (s.pan p).free
    ∧ (t.pan p).bitmap = (s.pan p).bitmap ∧ (t.pan p).list = (s.pan p).list

theorem SameTable.refl (s : State) : SameTable s s := ⟨rfl, fun _ => ⟨rfl, rfl, rfl, rfl, rfl⟩⟩

theorem SameTable.trans {s t u : State} (h : SameTable s t) (k : SameTable t u) : SameTable s u := by
  refine ⟨k.1.trans h.1, fun p => ?_⟩
  obtain ⟨h1, h2, h3, h4, h5⟩ := h.2 p
  obtain ⟨k1, k2, k3, k4, k5⟩ := k.2 p
  exact ⟨k1.trans h1, k2.trans h2, k3.trans h3, k4.trans h4, k5.trans h5⟩

theorem SameTable.of_pans {s t : State} (h : t.pans = s.pans) : SameTable s t := by
  simp only [SameTable, heldHandles, State.pan, h, implies_true, and_self]

theorem SameTable.first {s t : State} (h : SameTable s t) (p : Fin 4) : panFirst t p = panFirst s p := by
  have hcount (k : Fin 4) : (t.pan k).count = (s.pan k).count := (h.2 k).1
  simp only [panFirst, hcount]

theorem SameTable.panTable {s t : State} (h : SameTable s t) (ht : Claims.PanTable s) : Claims.PanTable t := by
  obtain ⟨hsorted, hin, hpans⟩ := (panTable_iff s).mp ht
  refine (panTable_iff t).mpr ⟨h.1 ▸ hsorted, fun k hk => ?_, fun p => ?_⟩
  · obtain ⟨p, hp⟩ := hin k (h.1 ▸ hk)
    exact ⟨p, by rwa [h.first, (h.2 p).2.1]⟩
  · obtain ⟨hcount, hfilled, hfree, hbitmap, hlist⟩ := h.2 p
    have hp := hpans p
    rwa [PanEntries, hcount, hfilled, hfree, hbitmap, hlist, h.first, h.1]

theorem pan_modPan_same (s : State) (p : Fin 4) (f : Pan → Pan) : (s.modPan p f).pan p = f (s.pan p) := vmod_same _ _ _
theorem pan_modPan_other (s : State) {p q : Fin 4} (f : Pan → Pan) (h : p ≠ q) : (s.modPan p f).pan q = s.pan q := vmod_other _ _ _ _ h

/-- A change of one pan in what the table does not speak of. -/
theorem sameTable_modPan (s : State) (p : Fin 4) (f : Pan → Pan)
    (h : ∀ q : Pan, (f q).count = q.count ∧ (f q).filled = q.filled ∧ (f q).free = q.free ∧ (f q).bitmap = q.bitmap ∧ (f q).list = q.list) :
    SameTable s (s.modPan p f) := by
  refine ⟨rfl, fun q => ?_⟩
  by_cases hq : p = q
  · subst hq
    rw [pan_modPan_same]
    exact h _
  · rw [pan_modPan_other s f hq]
    exact ⟨rfl, rfl, rfl, rfl, rfl⟩

theorem sameTable_raiseEv (e : Ev) (sev res inst : Nat) (det : Bytes) (s : State) : SameTable s (raiseEv e sev res inst det s) :=
  .of_pans ((Frames.raiseEv_same Frames.sub_refl Frames.same_refl).pans rfl)

theorem sameTable_settlePan (p : Fin 4) (s : State) : SameTable s (settlePan p s) := by
  unfold settlePan
  extract_lets q l c s1 det s2
  have h1 : SameTable s s1 := sameTable_modPan s p _ (by exact fun _ => ⟨rfl, rfl, rfl, rfl, rfl⟩)
  have h2 : SameTable s s2 := by
    unfold s2
    split
    · exact h1.trans (sameTable_raiseEv ..)
    · exact h1
  split
  · exact h2.trans (sameTable_raiseEv ..)
  · exact h2

theorem sameTable_chargeUnits (v : Option Inst) (f : Nat → Nat) (s : State) : SameTable s (chargeUnits v f s) := by
  cases v with
  | none => exact .refl s
  | some v => exact ⟨rfl, fun _ => ⟨rfl, rfl, rfl, rfl, rfl⟩⟩

theorem sameTable_noteUncorr (st kind : Nat) (s : State) : SameTable s (noteUncorr st kind s) :=
  .of_pans ((Frames.noteUncorr_same Frames.sub_refl Frames.same_refl).pans rfl)

theorem sameTable_writeLink (st : Nat) (next : Option Nat) (s : State) : SameTable s (writeLink st next s) := by
  unfold writeLink
  extract_lets p overlaid
  split
  · exact .refl s
  · rename_i kept s1 s2 _ _ _
    have h1 : SameTable s s1 := .of_pans ((Frames.setDamage_same Frames.sub_refl Frames.same_refl).pans rfl)
    have h2 : SameTable s s2 := by
      unfold s2
      split
      · exact h1.trans (sameTable_noteUncorr ..)
      · exact h1
    split
    · exact h2.trans ⟨rfl, fun _ => ⟨rfl, rfl, rfl, rfl, rfl⟩⟩
    · exact h1

theorem sameTable_foldl {α : Type} {f : State → α → State} (hf : ∀ s a, SameTable s (f s a)) (l : List α) (s : State) : SameTable s (l.foldl f s) := by
  induction l generalizing s with
  | nil => exact .refl s
  | cons a l ih => exact (hf s a).trans (ih _)

theorem sameTable_dropWaiter (r : Nat) (s : State) : SameTable s (dropWaiter r s) :=
  sameTable_foldl (fun s p => sameTable_modPan s p _ (by exact fun _ => ⟨rfl, rfl, rfl, rfl, rfl⟩)) _ s

theorem sameTable_startRebuild (p : Fin 4) (s : State) : SameTable s (startRebuild p s) :=
  (sameTable_modPan s p _ (by exact fun _ => ⟨rfl, rfl, rfl, rfl, rfl⟩)).trans (sameTable_raiseEv ..)

theorem sameTable_panAnswer (r : PanResult) (s : State) : SameTable s (panAnswer r s) := ⟨rfl, fun _ => ⟨rfl, rfl, rfl, rfl, rfl⟩⟩

theorem SameTable.answer {s t : State} (r : PanResult) (h : SameTable s t) : SameTable s (panAnswer r t) := h.trans (sameTable_panAnswer r t)

theorem sameTable_panReject (kind r h : Nat) (s : State) : SameTable s (panReject kind r h s) := ⟨rfl, fun _ => ⟨rfl, rfl, rfl, rfl, rfl⟩⟩

theorem sameTable_panMisuse (kind r h o : Nat) (p : Fin 4) (s : State) : SameTable s (panMisuse kind r h o p s) :=
  (sameTable_panReject kind r h s).trans (sameTable_raiseEv ..)

theorem sameTable_panBadHandle (r h : Nat) (s : State) : SameTable s (panBadHandle r h s) :=
  (sameTable_panReject errHandle r h s).trans (sameTable_raiseEv ..)

theorem sameTable_panDefer (q : PanReq) (r h : Nat) (s : State) : SameTable s (panDefer q r h s) := ⟨rfl, fun _ => ⟨rfl, rfl, rfl, rfl, rfl⟩⟩

theorem map_handle_modFirst {p : HeldBuf → Bool} {f : HeldBuf → HeldBuf} (hf : ∀ b, (f b).handle = b.handle) (l : List HeldBuf) :
    (modFirst p f l).map (·.handle) = l.map (·.handle) := by
  induction l with
  | nil => rfl
  | cons b l ih =>
    rw [modFirst]
    split
    · rw [List.map_cons, List.map_cons, hf]
    · rw [List.map_cons, List.map_cons, ih]

/-- An entry changed in its owner or its references. -/
theorem sameTable_modFirst (s : State) (p : HeldBuf → Bool) {f : HeldBuf → HeldBuf} (hf : ∀ b, (f b).handle = b.handle) :
    SameTable s { s with pans := { s.pans with held := modFirst p f s.pans.held } } :=
  ⟨map_handle_modFirst hf _, fun _ => ⟨rfl, rfl, rfl, rfl, rfl⟩⟩

/-! ### Pans stand apart -/

theorem pan_lt_cases : ∀ p q : Fin 4, p < q → (p = 0 ∧ q = 1) ∨ (p = 0 ∧ q = 2) ∨ (p = 0 ∧ q = 3) ∨ (p = 1 ∧ q = 2) ∨ (p = 1 ∧ q = 3) ∨ (p = 2 ∧ q = 3) := by
  decide

theorem panFirst_add_count_le (s : State) {p q : Fin 4} (h : p < q) : panFirst s p + (s.pan p).count ≤ panFirst s q := by
  have h0 : panFirst s 0 = 0 := rfl
  have h1 : panFirst s 1 = 0 + (s.pan 0).count := rfl
  have h2 : panFirst s 2 = 0 + (s.pan 0).count + (s.pan 1).count := rfl
  have h3 : panFirst s 3 = 0 + (s.pan 0).count + (s.pan 1).count + (s.pan 2).count := rfl
  rcases pan_lt_cases p q h with ⟨rfl, rfl⟩ | ⟨rfl, rfl⟩ | ⟨rfl, rfl⟩ | ⟨rfl, rfl⟩ | ⟨rfl, rfl⟩ | ⟨rfl, rfl⟩ <;> omega

/-- A handle of one pan is not one of another. -/
theorem pan_unique (s : State) {p q : Fin 4} {h : Nat} (hp : panFirst s p ≤ h ∧ h < panFirst s p + (s.pan p).count)
    (hq : panFirst s q ≤ h ∧ h < panFirst s q + (s.pan q).count) : p = q := by
  rcases Nat.lt_trichotomy p.val q.val with hlt | heq | hgt
  · have := panFirst_add_count_le s hlt
    omega
  · exact Fin.ext heq
  · have := panFirst_add_count_le s hgt
    omega

theorem panFirst_modPan (s : State) (p q : Fin 4) {f : Pan → Pan} (hf : ∀ q : Pan, (f q).count = q.count) : panFirst (s.modPan p f) q = panFirst s q := by
  have hcount (k : Fin 4) : ((s.modPan p f).pan k).count = (s.pan k).count := by
    by_cases hk : p = k
    · rw [← hk, pan_modPan_same, hf]
    · rw [pan_modPan_other s f hk]
  simp only [panFirst, hcount]

/-- The other pans' parts of the table, when handle `h` of pan `p` has become HELD or FREE. -/
theorem PanEntries.of_other {s : State} {p q : Fin 4} {h : Nat} {held held' : List Nat} (hpq : p ≠ q)
    (hp : panFirst s p ≤ h ∧ h < panFirst s p + (s.pan p).count) (hmem : ∀ k, k ≠ h → (k ∈ held' ↔ k ∈ held))
    (hcount : countIn (panFirst s q) (s.pan q).count held' = countIn (panFirst s q) (s.pan q).count held)
    (he : PanEntries (s.pan q) (panFirst s q) held) : PanEntries (s.pan q) (panFirst s q) held' := by
  obtain ⟨hle, hfree, hstore⟩ := he
  refine ⟨hle, hcount ▸ hfree, fun hb => ?_⟩
  obtain ⟨hnodup, hruns, hiff⟩ := hstore hb
  refine ⟨hnodup, hruns, fun k => (hiff k).trans (and_congr_right fun hk => and_congr_right fun hk' => not_congr ?_)⟩
  refine (hmem k ?_).symm
  rintro rfl
  exact hpq (pan_unique s hp ⟨hk, by omega⟩)

/-! ### HELD entries -/

theorem insertHeld_perm (b : HeldBuf) (l : List HeldBuf) : (insertHeld b l).Perm (b :: l) := by
  induction l with
  | nil => rfl
  | cons c l ih =>
    rw [insertHeld]
    split
    · exact (ih.cons c).trans (List.Perm.swap b c l)
    · rfl

theorem insertHeld_pairwise {b : HeldBuf} {l : List HeldBuf} (h : (l.map (·.handle)).Pairwise (· < ·)) (hb : b.handle ∉ l.map (·.handle)) :
    ((insertHeld b l).map (·.handle)).Pairwise (· < ·) := by
  induction l with
  | nil => exact List.pairwise_singleton _ _
  | cons c l ih =>
    simp only [List.map_cons, List.pairwise_cons, List.mem_cons, not_or] at h hb
    obtain ⟨hc, hl⟩ := h
    rw [insertHeld]
    split
    case isTrue hlt =>
      rw [List.map_cons, List.pairwise_cons]
      refine ⟨fun k hk => ?_, ih hl hb.2⟩
      rcases List.mem_cons.mp (((insertHeld_perm b l).map (·.handle)).mem_iff.mp hk) with rfl | hk
      · exact hlt
      · exact hc k hk
    case isFalse hge =>
      have hlt : b.handle < c.handle := by omega
      simp only [List.map_cons, List.pairwise_cons, List.mem_cons, forall_eq_or_imp]
      exact ⟨⟨hlt, fun k hk => Nat.lt_trans hlt (hc k hk)⟩, hc, hl⟩

theorem countIn_cons (first n h : Nat) (l : List Nat) :
    countIn first n (h :: l) = countIn first n l + if first ≤ h ∧ h < first + n then 1 else 0 := by
  simp [countIn, List.countP_cons]

theorem countIn_perm {first n : Nat} {l l' : List Nat} (h : l.Perm l') : countIn first n l = countIn first n l' := h.countP_eq _

theorem countIn_succ (first m : Nat) (l : List Nat) : countIn first (m + 1) l = countIn first m l + l.count (first + m) := by
  induction l with
  | nil => rfl
  | cons a l ih =>
    rw [countIn_cons, countIn_cons, ih, List.count_cons]
    by_cases ha : a = first + m
    · rw [if_pos (by omega), if_neg (by omega), if_pos (beq_iff_eq.mpr ha)]
      omega
    · rw [if_neg (show ¬(a == first + m) = true from fun h => ha (beq_iff_eq.mp h))]
      by_cases hr : first ≤ a ∧ a < first + m
      · rw [if_pos hr, if_pos (by omega)]
        omega
      · rw [if_neg hr, if_neg (by omega)]
        omega

/-- A range all of which is held has at least its length of handles in it. -/
theorem le_countIn {first m : Nat} {l : List Nat} (h : ∀ k, first ≤ k → k < first + m → k ∈ l) : m ≤ countIn first m l := by
  induction m with
  | zero => exact Nat.zero_le _
  | succ m ih =>
    have hm := ih fun k hk hk' => h k hk (by omega)
    have hone : 1 ≤ l.count (first + m) := List.one_le_count_iff.mpr (h (first + m) (by omega) (by omega))
    rw [countIn_succ]
    omega

theorem countIn_mono {first m n : Nat} (h : m ≤ n) (l : List Nat) : countIn first m l ≤ countIn first n l := by
  induction l with
  | nil => exact Nat.le_refl _
  | cons a l ih =>
    rw [countIn_cons, countIn_cons]
    split
    · rw [if_pos (by omega)]
      omega
    · omega

/-- Of a range that fewer handles than its length stand in, some are left out. -/
theorem exists_not_held {first n m : Nat} {held : List Nat} (hn : m ≤ n) (hc : countIn first n held < m) : ∃ h, first ≤ h ∧ h < first + m ∧ h ∉ held := by
  refine Classical.byContradiction fun hall => ?_
  have hheld : ∀ k, first ≤ k → k < first + m → k ∈ held := fun k hk hk' => Decidable.byContradiction fun hnot => hall ⟨k, hk, hk', hnot⟩
  have h1 := le_countIn hheld
  have h2 := countIn_mono (first := first) hn held
  omega

/-- The lowest gap of rising handles from `c` on: not among them, and every number from `c` up to it is. -/
theorem lowestGap_spec {c : Nat} {l : List Nat} (h : l.Pairwise (· < ·)) :
    c ≤ lowestGap c l ∧ lowestGap c l ∉ l ∧ ∀ k, c ≤ k → k < lowestGap c l → k ∈ l := by
  induction l generalizing c with
  | nil => exact ⟨Nat.le_refl _, List.not_mem_nil, fun k hk hk' => absurd hk' (Nat.not_lt.mpr hk)⟩
  | cons a l ih =>
    obtain ⟨ha, hl⟩ := List.pairwise_cons.mp h
    rw [lowestGap]
    split
    case isTrue hlt =>
      obtain ⟨hle, hnot, hall⟩ := ih hl (c := c)
      refine ⟨hle, ?_, fun k hk hk' => List.mem_cons_of_mem _ (hall k hk hk')⟩
      rw [List.mem_cons, not_or]
      exact ⟨by omega, hnot⟩
    case isFalse hge =>
      split
      case isTrue heq =>
        obtain ⟨hle, hnot, hall⟩ := ih hl (c := c + 1)
        refine ⟨by omega, ?_, fun k hk hk' => ?_⟩
        · rw [List.mem_cons, not_or]
          exact ⟨by omega, hnot⟩
        · rcases Nat.eq_or_lt_of_le hk with rfl | hlt
          · exact heq ▸ List.mem_cons_self
          · exact List.mem_cons_of_mem _ (hall k hlt hk')
      case isFalse hne =>
        refine ⟨Nat.le_refl _, fun hmem => ?_, fun k hk hk' => absurd hk' (Nat.not_lt.mpr hk)⟩
        rcases List.mem_cons.mp hmem with heq | hmem
        · exact hne heq.symm
        · have := ha c hmem
          omega

/-! ### A grant -/

theorem runHandles_cons {r : FreeRun} (h : 0 < r.count) :
    runHandles r = r.first :: runHandles { r with first := if r.down then r.first - 1 else r.first + 1, count := r.count - 1 } := by
  obtain ⟨n, hn⟩ : ∃ n, r.count = n + 1 := ⟨r.count - 1, by omega⟩
  rw [runHandles, runHandles, hn, List.range_succ_eq_map, List.map_cons, List.map_map]
  refine List.cons_eq_cons.mpr ⟨by simp, List.map_congr_left fun i _ => ?_⟩
  cases hd : r.down <;> simp <;> omega

/-- The head of a store leaves it, and what is left is sound. -/
theorem storeHandles_popRun {r : FreeRun} {rs : List FreeRun} (hpos : 0 < r.count) : storeHandles (r :: rs) = r.first :: storeHandles (popRun (r :: rs)) := by
  rw [popRun]
  split
  case isTrue hone =>
    have hc : r.count = 1 := by omega
    simp [storeHandles, runHandles, hc]
  case isFalse =>
    rw [storeHandles, List.flatMap_cons, runHandles_cons hpos]
    rfl

theorem StoreHolds.popRun {r : FreeRun} {rs : List FreeRun} {first filled : Nat} {held : List Nat} (h : StoreHolds (r :: rs) first filled held) :
    (first ≤ r.first ∧ r.first < first + filled ∧ r.first ∉ held) ∧ StoreHolds (popRun (r :: rs)) first filled (r.first :: held) := by
  obtain ⟨hnodup, hruns, hiff⟩ := h
  obtain ⟨hpos, hdown⟩ := hruns r List.mem_cons_self
  rw [storeHandles_popRun hpos] at hnodup hiff
  obtain ⟨hnot, hnodup⟩ := List.nodup_cons.mp hnodup
  refine ⟨(hiff r.first).mp List.mem_cons_self, hnodup, ?_, fun k => ?_⟩
  · intro x hx
    rw [Machine.popRun] at hx
    split at hx
    · exact hruns x (List.mem_cons_of_mem _ hx)
    · rcases List.mem_cons.mp hx with rfl | hx
      · refine ⟨by dsimp only; omega, fun hd => ?_⟩
        have hd : r.down = true := hd
        have := hdown hd
        simp only [hd, if_true]
        omega
      · exact hruns x (List.mem_cons_of_mem _ hx)
  · have hk := hiff k
    rw [List.mem_cons] at hk
    rw [List.mem_cons, not_or]
    constructor
    · intro hmem
      obtain ⟨h1, h2, h3⟩ := hk.mp (.inr hmem)
      exact ⟨h1, h2, fun heq => hnot (heq ▸ hmem), h3⟩
    · rintro ⟨h1, h2, hne, h3⟩
      exact (hk.mpr ⟨h1, h2, h3⟩).resolve_left hne

/-- The handle that a pan with a free buffer gives is one of its FREE ones. -/
theorem nextFree_free {s : State} {p : Fin 4} (ht : Claims.PanTable s) (hfree : (s.pan p).free ≠ 0) :
    panFirst s p ≤ nextFree s p ∧ nextFree s p < panFirst s p + (s.pan p).filled ∧ nextFree s p ∉ heldHandles s := by
  obtain ⟨hsorted, -, hpans⟩ := (panTable_iff s).mp ht
  obtain ⟨hle, hcount, hstore⟩ := hpans p
  obtain ⟨h, hh⟩ := exists_not_held (first := panFirst s p) hle (m := (s.pan p).filled) (held := heldHandles s) (by omega)
  obtain ⟨hlow, hhigh, hnot⟩ := hh
  rw [nextFree]
  cases hb : (s.pan p).bitmap with
  | true =>
    obtain ⟨hge, hgap, hall⟩ := lowestGap_spec (c := panFirst s p) hsorted
    have hgap_le : lowestGap (panFirst s p) (heldHandles s) ≤ h := by
      refine Nat.le_of_not_lt fun hlt => ?_
      exact hnot (hall h hlow (by omega))
    exact ⟨hge, by simp only [if_true]; exact Nat.lt_of_le_of_lt hgap_le hhigh, hgap⟩
  | false =>
    obtain hst := hstore hb
    cases hl : (s.pan p).list with
    | nil =>
      have hmem := (hst.2.2 h).mpr ⟨hlow, hhigh, hnot⟩
      rw [hl] at hmem
      exact absurd hmem List.not_mem_nil
    | cons r rs =>
      rw [hl] at hst
      exact hst.popRun.1

/-- A grant's pan and HELD entries, before its charge and the pan's threshold state. -/
def granted (p : Fin 4) (b : HeldBuf) (s : State) : State :=
  let t := s.modPan p (fun q => { q with list := popRun q.list, free := q.free - 1 })
  { t with pans := { t.pans with held := insertHeld b t.pans.held } }

theorem panTable_granted {s : State} {p : Fin 4} {b : HeldBuf} (ht : Claims.PanTable s) (hfree : (s.pan p).free ≠ 0) (hb : b.handle = nextFree s p) :
    Claims.PanTable (granted p b s) := by
  obtain ⟨hlow, hhigh, hnot⟩ := nextFree_free ht hfree
  obtain ⟨hsorted, hin, hpans⟩ := (panTable_iff s).mp ht
  rw [← hb] at hlow hhigh hnot
  obtain ⟨hle, hcount, hstore⟩ := hpans p
  have hfirst (q : Fin 4) : panFirst (granted p b s) q = panFirst s q := panFirst_modPan s p q fun _ => rfl
  have hsame : (granted p b s).pan p = { s.pan p with list := popRun (s.pan p).list, free := (s.pan p).free - 1 } := pan_modPan_same s p _
  have hother (q : Fin 4) (hq : p ≠ q) : (granted p b s).pan q = s.pan q := pan_modPan_other s _ hq
  have hperm : (heldHandles (granted p b s)).Perm (b.handle :: heldHandles s) := (insertHeld_perm b s.pans.held).map _
  have hfilled (q : Fin 4) : ((granted p b s).pan q).filled = (s.pan q).filled := by
    by_cases hq : p = q
    · rw [← hq, hsame]
    · rw [hother q hq]
  refine (panTable_iff _).mpr ⟨insertHeld_pairwise hsorted hnot, fun k hk => ?_, fun q => ?_⟩
  · simp only [hfirst, hfilled]
    rcases List.mem_cons.mp (hperm.mem_iff.mp hk) with rfl | hk
    · exact ⟨p, hlow, hhigh⟩
    · exact hin k hk
  · rw [hfirst]
    by_cases hq : p = q
    · subst hq
      rw [hsame]
      have hin : panFirst s p ≤ b.handle ∧ b.handle < panFirst s p + (s.pan p).count := ⟨hlow, by omega⟩
      refine ⟨hle, ?_, fun hbit => ?_⟩
      · show (s.pan p).free - 1 + countIn _ (s.pan p).count _ = (s.pan p).filled
        rw [countIn_perm hperm, countIn_cons, if_pos hin]
        omega
      · have hst := hstore hbit
        cases hl : (s.pan p).list with
        | nil =>
          have hmem := (hst.2.2 _).mpr ⟨hlow, hhigh, hnot⟩
          rw [hl] at hmem
          exact absurd hmem List.not_mem_nil
        | cons r rs =>
          have hr : r.first = b.handle := by
            rw [hb, nextFree, hbit, hl]
            rfl
          rw [hl] at hst
          obtain ⟨-, hnodup, hruns, hiff⟩ := hst.popRun
          refine ⟨hnodup, hruns, fun k => (hiff k).trans ?_⟩
          rw [hperm.mem_iff, hr]
    · rw [hother q hq]
      refine PanEntries.of_other hq (h := b.handle) ⟨hlow, by omega⟩ (fun k hk => ?_) ?_ (hpans q)
      · rw [hperm.mem_iff, List.mem_cons, or_iff_right hk]
      · rw [countIn_perm hperm, countIn_cons, if_neg fun hin => hq (pan_unique s ⟨hlow, by omega⟩ hin), Nat.add_zero]

theorem panTable_grantBuf {s : State} {p : Fin 4} (r : Nat) (charge : Option Inst) (ht : Claims.PanTable s) (hfree : (s.pan p).free ≠ 0) :
    Claims.PanTable (grantBuf p r charge s).2 :=
  ((sameTable_chargeUnits ..).trans (sameTable_settlePan ..)).panTable
    (panTable_granted (b := { handle := nextFree s p, owner := r, charge := charge, refs := bit (s.pan p).countMode }) ht hfree rfl)

/-! ### A buffer freed -/

/-- A freed buffer's pan and HELD entries, before its charge, its link and the pan's threshold state. -/
def freed (p : Fin 4) (h : Nat) (s : State) : State :=
  let t := { s with pans := { s.pans with held := s.pans.held.filter (fun c => c.handle != h) } }
  t.modPan p (fun q => { q with free := q.free + 1, list := if q.bitmap then q.list else { first := h, count := 1, down := false } :: q.list })

theorem heldHandles_freed (p : Fin 4) (h : Nat) (s : State) : heldHandles (freed p h s) = (heldHandles s).filter (· != h) := by
  show (s.pans.held.filter _).map _ = _
  rw [heldHandles, List.filter_map]
  rfl

theorem perm_cons_filter {l : List Nat} {h : Nat} (hl : l.Nodup) (hm : h ∈ l) : l.Perm (h :: l.filter (· != h)) := by
  rw [← hl.erase_eq_filter]
  exact List.perm_cons_erase hm

theorem panTable_freed {s : State} {p : Fin 4} {h : Nat} (ht : Claims.PanTable s) (hheld : h ∈ heldHandles s) (hlow : panFirst s p ≤ h)
    (hhigh : h < panFirst s p + (s.pan p).filled) : Claims.PanTable (freed p h s) := by
  obtain ⟨hsorted, hin, hpans⟩ := (panTable_iff s).mp ht
  obtain ⟨hle, hcount, hstore⟩ := hpans p
  have hfirst (q : Fin 4) : panFirst (freed p h s) q = panFirst s q := panFirst_modPan _ p q fun _ => rfl
  have hsame : (freed p h s).pan p = { s.pan p with free := (s.pan p).free + 1, list := if (s.pan p).bitmap then (s.pan p).list else { first := h, count := 1, down := false } :: (s.pan p).list } :=
    pan_modPan_same _ p _
  have hother (q : Fin 4) (hq : p ≠ q) : (freed p h s).pan q = s.pan q := pan_modPan_other _ _ hq
  have hfilled (q : Fin 4) : ((freed p h s).pan q).filled = (s.pan q).filled := by
    by_cases hq : p = q
    · rw [← hq, hsame]
    · rw [hother q hq]
  have hperm : (heldHandles s).Perm (h :: heldHandles (freed p h s)) := by
    rw [heldHandles_freed]
    exact perm_cons_filter (hsorted.imp Nat.ne_of_lt) hheld
  have hmem (k : Nat) : k ∈ heldHandles (freed p h s) ↔ k ∈ heldHandles s ∧ k ≠ h := by rw [heldHandles_freed]; simp
  refine (panTable_iff _).mpr ⟨?_, fun k hk => ?_, fun q => ?_⟩
  · rw [heldHandles_freed]
    exact hsorted.filter _
  · simp only [hfirst, hfilled]
    exact hin k ((hmem k).mp hk).1
  · rw [hfirst]
    by_cases hq : p = q
    · subst hq
      rw [countIn_perm hperm, countIn_cons, if_pos ⟨hlow, by omega⟩] at hcount
      rw [hsame]
      refine ⟨hle, ?_, fun hbit => ?_⟩
      · show (s.pan p).free + 1 + countIn _ (s.pan p).count _ = (s.pan p).filled
        omega
      · have hbit : (s.pan p).bitmap = false := hbit
        obtain ⟨hnodup, hruns, hiff⟩ := hstore hbit
        have hhandles : storeHandles ({ first := h, count := 1, down := false } :: (s.pan p).list) = h :: storeHandles (s.pan p).list := rfl
        simp only [hbit, StoreHolds, Bool.false_eq_true, if_false, hhandles, List.nodup_cons, List.mem_cons, forall_eq_or_imp]
        refine ⟨⟨fun hm => ((hiff h).mp hm).2.2 hheld, hnodup⟩, ⟨⟨Nat.one_pos, False.elim⟩, hruns⟩, fun k => ?_⟩
        rw [hiff, hmem]
        constructor
        · rintro (rfl | ⟨h1, h2, h3⟩)
          · exact ⟨hlow, hhigh, fun hm => hm.2 rfl⟩
          · exact ⟨h1, h2, fun hm => h3 hm.1⟩
        · rintro ⟨h1, h2, h3⟩
          by_cases hk : k = h
          · exact .inl hk
          · exact .inr ⟨h1, h2, fun hm => h3 ⟨hm, hk⟩⟩
    · rw [hother q hq]
      refine PanEntries.of_other hq (h := h) ⟨hlow, by omega⟩ (fun k hk => ?_) ?_ (hpans q)
      · rw [hmem, and_iff_left hk]
      · rw [countIn_perm hperm, countIn_cons, if_neg fun hin => hq (pan_unique s ⟨hlow, by omega⟩ hin), Nat.add_zero]

theorem sameTable_freeBuf (p : Fin 4) (b : HeldBuf) (s : State) : SameTable (freed p b.handle s) (freeBuf p b s) := by
  unfold freeBuf
  extract_lets _ s1 s2 s3 s4 leave s5
  have h3 : SameTable (freed p b.handle s) s3 := sameTable_chargeUnits ..
  have h4 : SameTable (freed p b.handle s) s4 := by
    unfold s4
    split
    · exact h3
    · exact h3.trans (sameTable_writeLink ..)
  have h5 : SameTable (freed p b.handle s) s5 := by
    unfold s5
    split
    · exact h4.trans (sameTable_modPan _ p _ (by exact fun _ => ⟨rfl, rfl, rfl, rfl, rfl⟩))
    · exact h4
  exact h5.trans (sameTable_settlePan ..)

/-! ### The requests -/

theorem panOfHandle_some {s : State} {p : Fin 4} {h : Nat} (hp : panOfHandle s h = some p) :
    panOn s p = true ∧ panFirst s p ≤ h ∧ h < panFirst s p + (s.pan p).count := by
  have := List.find?_some hp
  simpa [and_assoc] using this

theorem bufState_held {s : State} {p : Fin 4} {h : Nat} {b : HeldBuf} (hb : bufState s p h = .held b) :
    h < panFirst s p + (s.pan p).filled ∧ b ∈ s.pans.held ∧ b.handle = h := by
  unfold bufState at hb
  split at hb
  · cases hb
  · split at hb
    case h_1 c hfind =>
      obtain rfl : c = b := by injection hb
      exact ⟨by omega, List.mem_of_find?_eq_some hfind, by simpa using List.find?_some hfind⟩
    case h_2 => cases hb

theorem panTable_freeBuf {s : State} {p : Fin 4} {h : Nat} {b : HeldBuf} (ht : Claims.PanTable s) (hp : panOfHandle s h = some p)
    (hb : bufState s p h = .held b) : Claims.PanTable (freeBuf p b s) := by
  obtain ⟨hhigh, hmem, rfl⟩ := bufState_held hb
  exact (sameTable_freeBuf p b s).panTable (panTable_freed ht (List.mem_map_of_mem hmem) (panOfHandle_some hp).2.1 hhigh)

theorem servingPan_some {s : State} {r size : Nat} {charge : Option Inst} {p : Fin 4} (h : servingPan s r size charge = some p) :
    ∃ spilled, mayTake s p r charge spilled = true := by
  unfold servingPan at h
  split at h
  · cases h
  · obtain ⟨x, hx, rfl⟩ := Option.map_eq_some_iff.mp h
    have hmay := List.find?_some hx
    exact ⟨x.2, hmay⟩

theorem free_of_mayTake {s : State} {p : Fin 4} {r : Nat} {charge : Option Inst} {spilled : Bool} (h : mayTake s p r charge spilled = true) :
    panOn s p = true ∧ (s.pan p).free ≠ 0 ∧ (s.pan p).rebuilding = false := by
  simp only [mayTake, Bool.and_eq_true, bne_iff_ne, Bool.not_eq_true'] at h
  obtain ⟨⟨⟨⟨⟨⟨hon, hfree⟩, hrebuild⟩, -⟩, -⟩, -⟩, -⟩ := h
  exact ⟨hon, hfree, hrebuild⟩

theorem panTable_serveOne {s : State} (w : PanWaiter) (ht : Claims.PanTable s) : Claims.PanTable (serveOne s w) := by
  unfold serveOne
  split
  · exact ht
  case h_2 p hp =>
    split
    · exact (sameTable_startRebuild p s).panTable ht
    · obtain ⟨_, hmay⟩ := servingPan_some hp
      have hdrop := sameTable_dropWaiter w.requester s
      have hfree : ((dropWaiter w.requester s).pan p).free ≠ 0 := (hdrop.2 p).2.2.1 ▸ (free_of_mayTake hmay).2.1
      exact SameTable.panTable (s := (grantBuf p w.requester w.charge (dropWaiter w.requester s)).2) ⟨rfl, fun _ => ⟨rfl, rfl, rfl, rfl, rfl⟩⟩
        (panTable_grantBuf _ _ (hdrop.panTable ht) hfree)

theorem panTable_serveWaiting {s : State} (ht : Claims.PanTable s) : Claims.PanTable (serveWaiting s) := by
  unfold serveWaiting
  generalize allWaiters s = l
  induction l generalizing s with
  | nil => exact ht
  | cons w l ih => exact ih (panTable_serveOne w ht)

theorem panTable_panAlloc {s : State} (r size : Nat) (charge : Option Inst) (wait : Bool) (ht : Claims.PanTable s) :
    Claims.PanTable (panAlloc r size charge wait s) := by
  unfold panAlloc
  split
  · exact ht
  · split
    · exact (sameTable_panReject ..).panTable ht
    case h_2 home _ =>
      extract_lets later w s1 _ s2
      have h1 : SameTable s s1 := sameTable_modPan s home _ (by exact fun _ => ⟨rfl, rfl, rfl, rfl, rfl⟩)
      have h2 : Claims.PanTable s2 := panTable_serveWaiting (SameTable.panTable (h1.trans ⟨rfl, fun _ => ⟨rfl, rfl, rfl, rfl, rfl⟩⟩) ht)
      split
      · exact (sameTable_panReject ..).panTable ht
      · split
        · exact (sameTable_panAnswer ..).panTable h2
        · split
          · exact (sameTable_panAnswer ..).panTable h2
          · exact ((sameTable_dropWaiter r s2).trans (sameTable_panAnswer ..)).panTable h2

theorem panTable_panFree {s : State} (r h : Nat) (ht : Claims.PanTable s) : Claims.PanTable (panFree r h s) := by
  unfold panFree
  split
  · exact (sameTable_panBadHandle ..).panTable ht
  case h_2 p hp =>
    split
    · exact (sameTable_panDefer ..).panTable ht
    · split
      · exact (sameTable_panBadHandle ..).panTable ht
      · split
        · exact (sameTable_panReject ..).panTable ht
        · split
          case h_1 b hb =>
            split
            · exact panTable_serveWaiting ((sameTable_panAnswer ..).panTable (panTable_freeBuf ht hp hb))
            · exact (sameTable_panMisuse ..).panTable ht
          case h_2 => exact (sameTable_panMisuse ..).panTable ht

theorem panTable_panHandoff {s : State} (r h dest : Nat) (ht : Claims.PanTable s) : Claims.PanTable (panHandoff r h dest s) := by
  refine SameTable.panTable ?_ ht
  unfold panHandoff
  split
  · exact sameTable_panBadHandle ..
  · split
    · exact sameTable_panDefer ..
    · split
      · exact sameTable_panBadHandle ..
      · split
        · exact sameTable_panReject ..
        · split
          · split
            · exact SameTable.answer _ (sameTable_modFirst s _ (by exact fun _ => rfl))
            · exact sameTable_panMisuse ..
          · exact sameTable_panMisuse ..

theorem panTable_panAcquire {s : State} (r h : Nat) (ht : Claims.PanTable s) : Claims.PanTable (panAcquire r h s) := by
  refine SameTable.panTable ?_ ht
  unfold panAcquire
  split
  · exact sameTable_panBadHandle ..
  · split
    · exact sameTable_panDefer ..
    · split
      · exact sameTable_panBadHandle ..
      · split
        · exact sameTable_panReject ..
        · split
          · split
            · exact SameTable.answer _ (sameTable_modFirst s _ (by exact fun _ => rfl))
            · exact sameTable_panReject ..
          · exact sameTable_panMisuse ..

theorem panTable_panRelease {s : State} (r h : Nat) (ht : Claims.PanTable s) : Claims.PanTable (panRelease r h s) := by
  unfold panRelease
  split
  · exact (sameTable_panBadHandle ..).panTable ht
  case h_2 p hp =>
    split
    · exact (sameTable_panDefer ..).panTable ht
    · split
      · exact (sameTable_panBadHandle ..).panTable ht
      · split
        · exact (sameTable_panReject ..).panTable ht
        · split
          case h_1 b hb =>
            split
            · exact panTable_serveWaiting ((sameTable_panAnswer ..).panTable (panTable_freeBuf ht hp hb))
            · exact (SameTable.answer _ (sameTable_modFirst s _ (by exact fun _ => rfl))).panTable ht
          case h_2 => exact (sameTable_panMisuse ..).panTable ht

end Sys2Proof.PanManager

/-- Settles O54: every request changes the table by grants and freed buffers alone. -/
theorem Sys2Proof.panRequestsKeepTable : Obligations.PanRequestsKeepTable := by
  intro s ht r h size dest charge wait
  exact ⟨PanManager.panTable_panAlloc r size charge wait ht, PanManager.panTable_panFree r h ht, PanManager.panTable_panHandoff r h dest ht,
    PanManager.panTable_panAcquire r h ht, PanManager.panTable_panRelease r h ht,
    ((PanManager.sameTable_dropWaiter r s).trans (PanManager.sameTable_panAnswer ..)).panTable ht, PanManager.panTable_serveWaiting ht⟩
end

section
/-! PROOFS. Rings and locks that start and stop, events on their way to the host, and the resets: each command is unfolded to its one
operation, whose branch the conditions choose. -/

open Sys2Proof Sys2Proof.Machine Sys2Proof.Claims

/-- Settles O25: the conditions choose the branch of each operation. -/
theorem Sys2Proof.pairsStartAndStop : Obligations.PairsStartAndStop := by
  intro s hserved
  have hnext {f : State} {t : State} (h : f = t) : next (if s.glb.mode.served then f else s) = .next t := by rw [hserved, if_pos rfl, h]; rfl
  refine ⟨fun hoff => hnext ?_, fun hon => hnext ?_, fun hon => hnext ?_, fun hoff => hnext ?_, hnext rfl, fun value => hnext ?_, hnext rfl,
    fun by_ hmay => congrArg Host.Outcome.next (if_pos hmay), fun value hfree => hnext ?_⟩
  · rw [mqStart, hoff]
    rfl
  · rw [mqStart, hon]
    rfl
  · rw [mqStop, hon]
    rfl
  · rw [evtStart, hoff]
    rfl
  · simp only [evtHead, ← Nat.not_lt, ite_not]
  · rw [quenchCfg, rbit, hfree]
    rfl

namespace Sys2Proof.Machine

/-! ### Events -/

theorem settleLoss_fields (now : Nat) (u : Evt) :
    (settleLoss now u).tail = u.tail ∧ (settleLoss now u).phase = u.phase ∧ (settleLoss now u).buckets = u.buckets
      ∧ ∃ extra, (settleLoss now u).fifo = u.fifo ++ extra := by
  unfold settleLoss
  split
  · exact ⟨rfl, rfl, rfl, _, rfl⟩
  · exact ⟨rfl, rfl, rfl, [], (List.append_nil _).symm⟩

/-- The signal of vector 1 changes the event unit in whether a signal is due, and when the last was. -/
theorem evtSignal_evt (s : State) : ∃ due last, (evtSignal s).evt = { s.evt with irqDue := due, lastIrq := last } := by
  unfold evtSignal
  extract_lets usec due
  split
  · exact ⟨false, some s.glb.time, fireMsix_evt _ _⟩
  · exact ⟨true, s.evt.lastIrq, rfl⟩

theorem writeRecord_eq {s : State} {r : EvRec} {rest : List EvRec} (hw : evtWrites s = true) (hf : s.evt.fifo = r :: rest) :
    ∃ u, writeRecord s = evtSignal { hostWrite 0 (s.evt.ringBase + 32 * s.evt.tail) (r.bytes s.evt.phase) s with evt := settleLoss s.glb.time u }
      ∧ u.tail = (if s.evt.tail + 1 = 2 ^ evtLog s.evt then 0 else s.evt.tail + 1)
      ∧ u.phase = (if s.evt.tail + 1 = 2 ^ evtLog s.evt then !s.evt.phase else s.evt.phase) ∧ u.fifo = rest ∧ u.buckets = s.evt.buckets := by
  refine ⟨{ s.evt with
    fifo := rest, tail := if s.evt.tail + 1 == 2 ^ evtLog s.evt then 0 else s.evt.tail + 1
    phase := if s.evt.tail + 1 == 2 ^ evtLog s.evt then !s.evt.phase else s.evt.phase }, ?_, by simp, by simp, rfl, rfl⟩
  rw [writeRecord, hw, hf]
  rfl

theorem leak_eq {i : Fin 304} {s : State} (hlevel : s.evt.buckets[i].level ≠ 0) (hleak : s.evt.buckets[i].leakAt.isSome = true) :
    ∃ b, leak i s = { s with evt := { s.evt with buckets := vset s.evt.buckets i b } } ∧ b.level = s.evt.buckets[i].level - 1
      ∧ b.retired = s.evt.buckets[i].retired ∧ (b.leakAt.isSome = true ↔ s.evt.buckets[i].level ≠ 1) := by
  have hgo : ¬(s.evt.buckets[i].level = 0 || s.evt.buckets[i].leakAt.isNone) = true := by
    rw [Bool.or_eq_true, decide_eq_true_eq, not_or, Option.isNone_iff_eq_none]
    exact ⟨hlevel, Option.isSome_iff_ne_none.mp hleak⟩
  exact ⟨_, if_neg hgo, rfl, rfl, by simp⟩

theorem eventRecordsReachHost : Claims.EventRecordsReachHost := by
  intro s
  refine ⟨fun r rest hw hf => ?_, fun hdue => ?_, fun i hlevel hleak => ?_⟩
  · obtain ⟨u, heq, htail, hphase, hfifo, hbuckets⟩ := writeRecord_eq hw hf
    refine ⟨_, rfl, ?_⟩
    rw [heq]
    generalize hs1 : ({ hostWrite 0 (s.evt.ringBase + 32 * s.evt.tail) (r.bytes s.evt.phase) s with evt := settleLoss s.glb.time u } : State) = s1
    obtain ⟨ltail, lphase, lbuckets, extra, lfifo⟩ := settleLoss_fields s.glb.time u
    obtain ⟨due, last, hevt⟩ := evtSignal_evt s1
    have hs1evt : s1.evt = settleLoss s.glb.time u := by rw [← hs1]
    have hsame := Frames.evtSignal_same (S0 := s1) Frames.sub_refl Frames.same_refl
    rw [hs1evt] at hevt
    rw [hevt]
    refine ⟨ltail.trans htail, lphase.trans hphase, ⟨extra, by rw [lfifo, hfifo]⟩, lbuckets.trans hbuckets, ?_, ?_, s1, rfl, by rw [← hs1]⟩
    · rw [hsame.insts rfl, ← hs1]
      rfl
    · rw [hsame.sec rfl, ← hs1]
      rfl
  · exact congrArg Host.Outcome.next (if_pos hdue)
  · refine ⟨_, rfl, ?_⟩
    obtain ⟨b, heq, hlevel', hretired, hat⟩ := leak_eq hlevel hleak
    have hbucket : (vset s.evt.buckets i b)[i] = b := vset_same ..
    simp only [heq, hbucket]
    exact ⟨hlevel', hretired, hat, fun j hj => vset_other _ _ _ _ hj.symm, trivial, trivial⟩

theorem sum_set_add {l : List Nat} {i : Nat} (h : i < l.length) (b : Nat) : (l.set i b).sum + l[i] = l.sum + b := by
  induction l generalizing i with
  | nil => exact absurd h (Nat.not_lt_zero i)
  | cons a l ih =>
    cases i with
    | zero => simp only [List.set_cons_zero, List.sum_cons, List.getElem_cons_zero]; omega
    | succ i =>
      have := ih (Nat.lt_of_succ_lt_succ h)
      simp only [List.set_cons_succ, List.sum_cons, List.getElem_cons_succ]
      omega

/-- One count more in one place of the loss counters. -/
theorem sum_count_vmod (v : Vector LossCtr 64) (i : Fin 64) {f : LossCtr → LossCtr} (h : (f v[i]).count = v[i].count + 1) :
    ((vmod v i f).toList.map (·.count)).sum = (v.toList.map (·.count)).sum + 1 := by
  have hi : i.val < (v.toList.map (·.count)).length := by simp
  have hset : (vmod v i f).toList.map (·.count) = (v.toList.map (·.count)).set i.val (v[i].count + 1) := by
    rw [vmod, vset, Vector.toList_set, List.map_set, h]
  have hsum := sum_set_add hi (v[i].count + 1)
  simp only [List.getElem_map, Vector.getElem_toList, Fin.getElem_fin] at hsum
  rw [hset]
  simp only [Fin.getElem_fin]
  omega

theorem loseEvent_known {u : Evt} (r : EvRec) (h : ∀ i : Fin 64, u.loss[i].count < 65535) : eventsKnown (loseEvent u r) = eventsKnown u + 1 := by
  rw [eventsKnown, eventsKnown, loseEvent, sum_count_vmod _ _ (by rw [satInc, if_pos (h _)]), Nat.add_assoc]

theorem noEventVanishes : Claims.NoEventVanishes := by
  intro u r hrep hfifo hloss
  unfold enqueueEvent
  split
  case isTrue hfull => exact ⟨loseEvent_known r hloss, fun hle => hle, rfl, rfl⟩
  case isFalse hroom =>
    have hjoins : eventsKnown { u with fifo := u.fifo ++ [r] } = eventsKnown u + 1
        ∧ (u.fifo.length ≤ 256 → (u.fifo ++ [r]).length ≤ 256) := by
      simp only [eventsKnown, List.map_append, List.sum_append, List.map_cons, List.map_nil, List.sum_singleton, hrep, List.length_append,
        List.length_singleton]
      omega
    split
    case h_1 l hlast =>
      split
      case isTrue =>
        obtain ⟨front, hfront⟩ := List.getLast?_eq_some_iff.mp hlast
        have hl : l.rep < 65535 := hfifo l (List.mem_of_getLast? hlast)
        refine ⟨?_, fun hle => ?_, rfl, rfl⟩
        · simp only [eventsKnown, hfront, List.dropLast_concat, List.map_append, List.sum_append, List.map_cons, List.map_nil, List.sum_singleton,
            satInc, if_pos hl]
          omega
        · simp only [hfront, List.dropLast_concat, List.length_append, List.length_singleton] at hle ⊢
          exact hle
      case isFalse => exact ⟨hjoins.1, hjoins.2, rfl, rfl⟩
    case h_2 => exact ⟨hjoins.1, hjoins.2, rfl, rfl⟩

end Sys2Proof.Machine

/-- Settles O26: the record written is the front of the FIFO, and an event raised adds one to the FIFO's records or to one counter. -/
theorem Sys2Proof.eventsReachHost : Obligations.EventsReachHost := ⟨eventRecordsReachHost, noEventVanishes⟩
end

section
/-! PROOFS. Resets, power and the quench: what a device reset leaves is stated once, over what the mover's abort does not touch; the ways
into a reset cite it. -/

open Sys2Proof Sys2Proof.Machine Sys2Proof.Claims

namespace Sys2Proof.Machine

/-! ### A device reset -/

theorem takeReset_taken (kind cause : Nat) (power : Bool) (s : State) : ResetTaken kind cause s (takeReset kind cause power s) := by
  have h := Frames.abortMover_same (S0 := s) Frames.sub_refl Frames.same_refl
  have hsec : keptSec (abortMover s) = keptSec s := by rw [keptSec, h.sec rfl]; rfl
  unfold takeReset
  extract_lets t cold m cxl
  rw [show keptSec t = keptSec s from hsec]
  refine ⟨rfl, rfl, rfl, rfl, rfl, rfl, rfl, rfl, rfl, ?_, rfl, rfl, rfl, rfl, rfl, rfl, rfl, rfl, rfl, rfl, rfl, h.seqs rfl, h.freeCtr rfl, h.pending rfl⟩
  dsimp only
  split <;> rfl

theorem takeReset_hostMem (kind cause : Nat) (power : Bool) (s : State) : (takeReset kind cause power s).hostMem = s.hostMem :=
  (Frames.abortMover_same (S0 := s) Frames.sub_refl Frames.same_refl).hostMem rfl

theorem takeReset_time (kind cause : Nat) (power : Bool) (s : State) : (takeReset kind cause power s).glb.time = if kind = 0 then 0 else s.glb.time := by
  show (if kind = 0 then 0 else (abortMover s).glb.time) = _
  rw [(Frames.abortMover_same (S0 := s) Frames.sub_refl Frames.same_refl).glb rfl]

theorem takeReset_perst (kind cause : Nat) (power : Bool) (s : State) : (takeReset kind cause power s).glb.perst = s.glb.perst := by
  show (abortMover s).glb.perst = _
  rw [(Frames.abortMover_same (S0 := s) Frames.sub_refl Frames.same_refl).glb rfl]

/-- The quench store after a reset: only the map and the cause of Pewter mode may be cleared. -/
theorem takeReset_qs (kind cause : Nat) (power : Bool) (s : State) :
    (takeReset kind cause power s).qs = if s.evt.retireClr then { s.qs with map := Vector.replicate 304 {}, pewterCause := 0, mapOk := true } else s.qs := by
  have h := Frames.abortMover_same (S0 := s) Frames.sub_refl Frames.same_refl
  show storeAfter (abortMover s) = _
  rw [storeAfter, h.evt rfl, h.qs rfl]

/-- A reset of what leaves the kept parts of the enclave, the sequence state, the draws and the queue as they were. -/
theorem resetTaken_of_kept {kind cause : Nat} {s u t : State} (h : ResetTaken kind cause u t) (hsec : u.sec = s.sec) (hseqs : u.seqs = s.seqs)
    (hctr : u.freeCtr = s.freeCtr) (hpending : u.pending = s.pending) : ResetTaken kind cause s t := by
  simpa only [ResetTaken, hsec, hseqs, hctr, hpending] using h

theorem warmReset_eq (cause : Nat) {s : State} (h : s.glb.mode.resets = true) : warmReset cause s = takeReset 1 cause false (prepareReset s) := if_pos h

theorem warmReset_taken (cause : Nat) {s : State} (h : s.glb.mode.resets = true) : ResetTaken 1 cause s (warmReset cause s) := by
  have hp := Frames.prepareReset_same (S0 := s) Frames.sub_refl Frames.same_refl
  rw [warmReset_eq cause h]
  exact resetTaken_of_kept (takeReset_taken 1 cause false (prepareReset s)) (hp.sec rfl) (hp.seqs rfl) (hp.freeCtr rfl) (hp.pending rfl)

theorem Mode.resets_of_served {m : Mode} (h : m.served = true) : m.resets = true := by cases m <;> simp_all [Mode.served, Mode.resets]

theorem prepareReset_qs (s : State) : (prepareReset s).qs.events = s.evt.fifo ∧ (prepareReset s).qs.loss = s.evt.loss ∧ (prepareReset s).qs.state = 2 := by
  unfold prepareReset
  extract_lets t
  have ht : t.evt = s.evt :=
    (Frames.abortMover_same (w := 0x80821e0) rfl (Frames.abortJobs_same rfl (Frames.dropGates_same (S0 := s) rfl Frames.same_refl))).evt rfl
  exact ⟨congrArg Evt.fifo ht, congrArg Evt.loss ht, rfl⟩

/-- What the quench store holds after a warm reset. -/
theorem warmReset_qs (cause : Nat) {s : State} (h : s.glb.mode.resets = true) :
    (warmReset cause s).qs.events = s.evt.fifo ∧ (warmReset cause s).qs.loss = s.evt.loss ∧ (warmReset cause s).qs.state = 2 := by
  rw [warmReset_eq cause h, takeReset_qs]
  split <;> exact prepareReset_qs s

end Sys2Proof.Machine

/-- Settles O27: each way in is a reset taken in the mode that the condition names. -/
theorem Sys2Proof.resetsTaken : Obligations.ResetsTaken := by
  intro s
  have hprep := Frames.prepareReset_same (S0 := s) Frames.sub_refl Frames.same_refl
  refine ⟨fun hm => ?_, fun hm => ?_, fun hm => ?_, fun hm => ?_, fun hm => ?_, fun hm => ?_, fun vsense hm hv => ?_⟩
  · have hr := Mode.resets_of_served hm
    refine ⟨warmReset 3 s, congrArg Host.Outcome.next (if_pos hm), warmReset_taken 3 hr, ?_, ?_⟩
    · rw [warmReset_eq 3 hr, takeReset_time, hprep.glb rfl]
      rfl
    · obtain ⟨hevents, hloss, hstate⟩ := warmReset_qs 3 hr
      exact ⟨hevents, hloss, hstate, by rw [warmReset_eq 3 hr, takeReset_hostMem]⟩
  · exact ⟨takeReset 0 3 false s, congrArg Host.Outcome.next (if_pos hm), takeReset_taken .., takeReset_time .., rfl, takeReset_hostMem ..⟩
  · refine ⟨perstAssert s, rfl, ?_, ?_⟩
    · exact resetTaken_of_kept (warmReset_taken 1 (s := linkLost { s with glb := { s.glb with perst := true, training := false } }) hm) rfl rfl rfl rfl
    · have hr := warmReset_eq 1 (s := linkLost { s with glb := { s.glb with perst := true, training := false } }) hm
      rw [perstAssert, hr, takeReset_perst, (Frames.prepareReset_same Frames.sub_refl Frames.same_refl).glb rfl]
      rfl
  · refine ⟨warmReset 4 s, congrArg Host.Outcome.next (if_pos hm), warmReset_taken 4 ?_⟩
    exact (Bool.and_eq_true_iff.mp hm).1
  · exact ⟨warmReset 5 s, congrArg Host.Outcome.next (if_pos hm), warmReset_taken 5 (by rw [hm]; rfl)⟩
  · exact ⟨takeReset 0 0 true s, congrArg Host.Outcome.next (if_pos hm), takeReset_taken .., takeReset_time .., rfl, takeReset_hostMem ..⟩
  · have hq : quenchReset vsense true s = { takeReset 3 6 true s with pwr := { (takeReset 3 6 true s).pwr with vsense := vsense % 65536 } } :=
      if_pos (by simp [hm, hv])
    refine ⟨_, congrArg Host.Outcome.next hq, takeReset_taken 3 6 true s, takeReset_time 3 6 true s, ?_, takeReset_hostMem 3 6 true s⟩
    show (takeReset 3 6 true s).qs.slotA = s.qs.slotA
    rw [takeReset_qs]
    split <;> rfl

namespace Sys2Proof.Machine

/-! ### Power and the function reset -/

theorem powerOff_gives (s : State) :
    (powerOff s).glb.mode = .off ∧ (powerOff s).pwr.dom = 0 ∧ (powerOff s).insts = State.reset.insts ∧ (powerOff s).sec.floor = s.sec.floor
      ∧ (powerOff s).sec.ingot = s.sec.ingot ∧ (powerOff s).qs.slotA = s.qs.slotA := by
  obtain ⟨-, -, -, hinsts, -, -, -, -, -, -, -, -, -, -, -, -, -, hfloor, hingot, -⟩ := takeReset_taken 0 0 true s
  refine ⟨rfl, ?_, hinsts, hfloor, hingot, ?_⟩
  · exact BitVec.or_self (x := 0#80)
  · show (takeReset 0 0 true s).qs.slotA = s.qs.slotA
    rw [takeReset_qs]
    split <;> rfl

theorem powerPins : Claims.PowerPins := by
  intro s
  refine ⟨fun hm => ⟨powerOff s, congrArg Host.Outcome.next (if_neg hm), powerOff_gives s⟩,
    fun hm => ⟨powerOff s, congrArg Host.Outcome.next (if_pos hm), powerOff_gives s⟩, fun hm => congrArg Host.Outcome.next (if_neg hm), rfl, fun resets => ?_⟩
  cases resets <;> rfl

/-- With no command fetched, nothing waits that could settle. -/
theorem settleWaits_no_cmds {s : State} (h : ∀ v, (s.ring (some v)).cmds = []) : settleWaits s = sweepStreams s := by
  have hid (l : List Inst) : l.foldl (fun s v => (s.ring (some v)).cmds.foldl (settleCmd v) s) s = s := by
    induction l with
    | nil => rfl
    | cons v l ih => rw [List.foldl_cons, h v]; exact ih
  rw [settleWaits, hid]

/-- The state that a function reset leaves, before blocks are dispatched and the slots resume. -/
def functionCleared (cause : Nat) (s : State) : State :=
  let t := dropWaiter 33 (discardBlocks (fun b => b.place.unsealed) (dropCommands (abortMover s)))
  let t := wipeKeys (fun _ => true) (allInsts.foldl (fun s v => endAll v s) t)
  { t with
    glb := { t.glb with rstKind := 2, rstCause := cause }
    hif := { ({} : Hif) with linkSpeed := t.hif.linkSpeed, linkWidth := t.hif.linkWidth, linkL0 := t.hif.linkL0 }
    msix := {}
    insts := Vector.replicate 64 {}
    sec := { t.sec with challenge := none, staging := false, staged := t.sec.staged && !t.sec.staging } }

theorem functionReset_eq (cause : Nat) (s : State) : functionReset cause s = resumeSeqs (settleWaits (dispatch (functionCleared cause s))) := rfl

theorem functionCleared_fields (cause : Nat) (s : State) :
    (functionCleared cause s).glb = { s.glb with rstKind := 2, rstCause := cause }
      ∧ (functionCleared cause s).sec = { s.sec with challenge := none, staging := false, staged := s.sec.staged && !s.sec.staging }
      ∧ (functionCleared cause s).hif.linkL0 = s.hif.linkL0 ∧ (functionCleared cause s).hif.mqEn = false
      ∧ (functionCleared cause s).insts = Vector.replicate 64 {} := by
  have hdrop : Frames.Same 0x80180 s (dropCommands (abortMover s)) := Frames.dropCommands_same rfl (Frames.abortMover_same rfl Frames.same_refl)
  have hend {w : BitVec 30} {r : State} (hw : Frames.Sub 0x22423c00 w) (h : Frames.Same w r (dropCommands (abortMover s))) :
      Frames.Same w r (wipeKeys (fun _ => true) (allInsts.foldl (fun s v => endAll v s)
        (dropWaiter 33 (discardBlocks (fun b => b.place.unsealed) (dropCommands (abortMover s)))))) :=
    Frames.wipeKeys_same (Frames.sub rfl hw) (Frames.same_foldl (fun _ _ h => Frames.endAll_same (Frames.sub rfl hw) h)
      (Frames.dropWaiter_same (Frames.sub rfl hw) (Frames.discardBlocks_same (Frames.sub rfl hw) h)))
  have hall := hend (w := 0x224a3d80) rfl (Frames.dropCommands_same rfl (Frames.abortMover_same rfl Frames.same_refl))
  have hlink := (hend Frames.sub_refl Frames.same_refl).hif rfl
  unfold functionCleared
  extract_lets t u
  have hglb : u.glb = s.glb := hall.glb rfl
  have hsec : u.sec = s.sec := hall.sec rfl
  have hhif : u.hif = (dropCommands (abortMover s)).hif := hlink
  clear_value u
  refine ⟨congrArg (fun g : Glb => { g with rstKind := 2, rstCause := cause }) hglb,
    congrArg (fun c : Sec => { c with challenge := none, staging := false, staged := c.staged && !c.staging }) hsec, ?_, rfl, rfl⟩
  show u.hif.linkL0 = s.hif.linkL0
  rw [hhif]
  show (abortMover s).hif.linkL0 = s.hif.linkL0
  rw [(Frames.abortMover_same (S0 := s) Frames.sub_refl Frames.same_refl).hif rfl]

theorem functionResetStaysInMode : Claims.FunctionResetStaysInMode := by
  intro flr s hserved
  refine ⟨functionReset (if flr then 2 else 3) s, congrArg Host.Outcome.next (if_pos hserved), ?_⟩
  generalize hcause : (if flr then 2 else 3) = cause
  obtain ⟨hglb, hsec, hlink, hmq, hinsts⟩ := functionCleared_fields cause s
  have hd := Frames.dispatch_same (S0 := functionCleared cause s) Frames.sub_refl Frames.same_refl
  have hno (v : Inst) : ((dispatch (functionCleared cause s)).ring (some v)).cmds = [] := by
    rw [State.ring, State.inst, hd.insts rfl, hinsts]
    simp
  have ht := Frames.sweepStreams_same (w := 0x1c00) rfl (Frames.dispatch_same (S0 := functionCleared cause s) rfl Frames.same_refl)
  have hf := Frames.functionReset_same (x0 := cause) (S1 := s) Frames.sub_refl Frames.same_refl
  have heq : functionReset cause s = resumeSeqs (sweepStreams (dispatch (functionCleared cause s))) := by rw [functionReset_eq, settleWaits_no_cmds hno]
  have hglb' : (functionReset cause s).glb = (functionCleared cause s).glb := by rw [heq]; exact ht.glb rfl
  have hsec' : (functionReset cause s).sec = (functionCleared cause s).sec := by rw [heq]; exact ht.sec rfl
  have hhif' : (functionReset cause s).hif = (functionCleared cause s).hif := by rw [heq]; exact ht.hif rfl
  refine ⟨hglb'.trans hglb, hsec'.trans hsec, by rw [hhif', hlink], by rw [hhif', hmq], fun i => ?_, hf.evt rfl, hf.cart rfl, hf.buf rfl,
    hf.mot rfl, hf.qs rfl, hf.pwr rfl⟩
  have hqs : (sweepStreams (dispatch (functionCleared cause s))).qs = s.qs := by rw [← hf.qs rfl, heq]; rfl
  rw [heq, resumeSeqs, Fin.getElem_fin, Vector.getElem_ofFn, storedSlot, hqs]
  rfl

end Sys2Proof.Machine

/-- Settles O28: the pins act by one field each; the function reset's last steps change streams and sequence state alone. -/
theorem Sys2Proof.powerAndFunctionReset : Obligations.PowerAndFunctionReset := ⟨powerPins, functionResetStaysInMode⟩
end

section
/-! PROOFS. The quench: what each of its stages leaves alone, and what the store then holds; service rows, each by the branch that its
conditions choose. -/

open Sys2Proof Sys2Proof.Machine Sys2Proof.Claims

namespace Sys2Proof.Machine

/-! ### The stages of a quench -/

theorem setMode_mode (m : Mode) (s : State) : (setMode m s).glb.mode = m := by
  unfold setMode
  split
  · assumption
  · rfl

theorem setMode_time (m : Mode) (s : State) : (setMode m s).glb.time = s.glb.time := by unfold setMode; split <;> rfl

/-- To take loops out changes the motion control alone. -/
theorem setLoops_zero_same {w : BitVec 30} {r s : State} (hw : Frames.Sub 0x1000000 w) (hk : Frames.Same w r s) : Frames.Same w r (setLoops 0 s) := by
  unfold setLoops
  extract_lets z0 z1 _ z2
  have h0 : Frames.Same w r z0 := by
    unfold z0
    rw [if_neg (by simp)]
    exact hk
  have h1 : Frames.Same w r z1 := Frames.same_foldl (fun _ _ h => Frames.same_if (Frames.startLoop_same (Frames.sub rfl hw) h)
    (Frames.same_if (Frames.State_modLoop_same (Frames.sub rfl hw) (Frames.flushLoop_same (Frames.sub rfl hw) h)) h)) h0
  have h2 : Frames.Same w r z2 := Frames.set_1000000 (Frames.sub rfl hw) h1
  rw [if_pos rfl]
  exact Frames.set_1000000 (Frames.sub rfl hw) h2

theorem brakeReels_motion_same {code : Nat} {w : BitVec 30} {r s : State} (hw : Frames.Sub 0x1000000 w) (hk : Frames.Same w r s) :
    Frames.Same w r (brakeReels code s) :=
  Frames.set_1000000 (Frames.sub rfl hw)
    (setLoops_zero_same (Frames.sub rfl hw) (Frames.sendFrame_same (Frames.sub rfl hw) (Frames.set_1000000 (Frames.sub rfl hw) hk)))

/-- A quench begins: sense and event noted, gates shut. -/
def quenchNoted (cause : Fin 3) (vsense : Nat) (s : State) : State :=
  dropGates (raiseEv .quench 0x0 noRes noInst (leBytes 1 cause.val) { s with pwr := { s.pwr with vsense := vsense % 65536 } })

/-- A quench up to its mode. -/
def quenchEntered (cause : Fin 3) (vsense : Nat) (s : State) : State :=
  setMode .quench { quenchNoted cause vsense s with
    mot := { (quenchNoted cause vsense s).mot with islandReset := false }, glb := { (quenchNoted cause vsense s).glb with boot := .held } }

/-- A quench up to its store: the reels braked, the mover's work ended, the window passed. -/
def quenchHalted (cause : Fin 3) (vsense window : Nat) (s : State) : State :=
  let t := quenchEntered cause vsense s
  quenchWindow window (abortMover (if motionOn s then brakeReels 2 t else t))

/-- A quench with its store written and what the device had in hand abandoned. -/
def quenchAbandoned (cause : Fin 3) (vsense window : Nat) (braking : Bool) (s : State) : State :=
  abandonData (unassignAll (quenchStore cause.val (quenchHalted cause vsense window s).glb.time s.mot.speed braking (quenchHalted cause vsense window s)))

/-- A quench up to the end of supply: the ports off, the pan table cleared. -/
def quenchStored (cause : Fin 3) (vsense window : Nat) (braking : Bool) (s : State) : State :=
  rebuildTable { quenchAbandoned cause vsense window braking s with
    chn := { (quenchAbandoned cause vsense window braking s).chn with port := (quenchAbandoned cause vsense window braking s).chn.port.map RingPort.off } }

theorem quench_eq {cause : Fin 3} {vsense : Nat} (window vholdEnd : Nat) (braking : Bool) {s : State} (hoff : s.glb.mode ≠ .off) (hq : s.glb.mode ≠ .quench)
    (hd : detects s cause vsense = true) :
    let t := quenchStored cause vsense window braking s
    quench cause vsense window vholdEnd braking s = { linkLost t with
      pwr := { t.pwr with dom := 0, qDone := true, vholdEnd := vholdEnd % 65536 }
      glb := { t.glb with quenches := satInc 65535 t.glb.quenches, training := false }
      sec := { t.sec with challenge := none, staging := false, staged := t.sec.staged && !t.sec.staging }
      buf := { t.buf with links := 0, perstOff := 0 } } :=
  by
  have hgo : ¬(s.glb.mode = .off || s.glb.mode = .quench || !detects s cause vsense) = true := by simp [hoff, hq, hd]
  simp only [quench, if_neg hgo, quenchStored, quenchAbandoned, quenchHalted, quenchEntered, quenchNoted]

theorem quenchNoted_fields (cause : Fin 3) (vsense : Nat) (s : State) :
    (quenchNoted cause vsense s).glb = s.glb ∧ (quenchNoted cause vsense s).fmt = { s.fmt with gateOpen := false, gateWanted := false } := by
  have hraise := Frames.raiseEv_same (x0 := .quench) (x1 := 0x0) (x2 := noRes) (x3 := noInst) (x4 := leBytes 1 cause.val) (w := 0x14) (r := s)
    (S5 := { s with pwr := { s.pwr with vsense := vsense % 65536 } }) rfl (Frames.set_4 rfl Frames.same_refl)
  refine ⟨hraise.glb rfl, ?_⟩
  rw [quenchNoted, dropGates, hraise.fmt rfl]

theorem quenchEntered_fields (cause : Fin 3) (vsense : Nat) (s : State) :
    (quenchEntered cause vsense s).glb.mode = .quench ∧ (quenchEntered cause vsense s).glb.time = s.glb.time
      ∧ (quenchEntered cause vsense s).fmt = { s.fmt with gateOpen := false, gateWanted := false }
      ∧ Frames.Same 0x1002016 s (quenchEntered cause vsense s) := by
  obtain ⟨hglb, hfmt⟩ := quenchNoted_fields cause vsense s
  refine ⟨setMode_mode .., ?_, ?_, Frames.setMode_same rfl (Frames.set_1000002 rfl
    (Frames.dropGates_same rfl (Frames.raiseEv_same rfl (Frames.set_4 rfl Frames.same_refl))))⟩
  · rw [quenchEntered, setMode_time, hglb]
  · rw [quenchEntered, setMode_fmt, hfmt]

theorem quenchHalted_same (cause : Fin 3) (vsense window : Nat) (s : State) :
    Frames.Same 0x90801c4 (quenchEntered cause vsense s) (quenchHalted cause vsense window s) :=
  Frames.quenchWindow_same rfl (Frames.abortMover_same rfl (Frames.same_if (brakeReels_motion_same rfl Frames.same_refl) Frames.same_refl))

theorem quenchAbandoned_same (cause : Fin 3) (vsense window : Nat) (braking : Bool) (s : State) :
    Frames.Same 0x8703d60 (quenchHalted cause vsense window s) (quenchAbandoned cause vsense window braking s) :=
  Frames.abandonData_same rfl (Frames.unassignAll_same rfl (Frames.quenchStore_same rfl Frames.same_refl))

theorem quenchStored_same (cause : Fin 3) (vsense window : Nat) (braking : Bool) (s : State) :
    Frames.Same 0x2060010 (quenchAbandoned cause vsense window braking s) (quenchStored cause vsense window braking s) :=
  Frames.rebuildTable_same rfl (Frames.set_2000000 rfl Frames.same_refl)

/-- What the store takes is what stood when the quench began. -/
theorem quenchAbandoned_qs (cause : Fin 3) (vsense window : Nat) (braking : Bool) (s : State) :
    (quenchAbandoned cause vsense window braking s).qs
      = (quenchStore cause.val (quenchHalted cause vsense window s).glb.time s.mot.speed braking (quenchHalted cause vsense window s)).qs :=
  (Frames.abandonData_same (w := 0x8703d40) rfl (Frames.unassignAll_same rfl Frames.same_refl)).qs rfl

theorem abandonData_gateOpen (s : State) : (abandonData s).fmt.gateOpen = s.fmt.gateOpen := rfl

theorem abandonData_gone (s : State) : (abandonData s).blks = [] ∧ (abandonData s).streams = [] := ⟨rfl, rfl⟩

theorem quenchAbandoned_gateOpen (cause : Fin 3) (vsense window : Nat) (braking : Bool) (s : State) :
    (quenchAbandoned cause vsense window braking s).fmt.gateOpen = (quenchHalted cause vsense window s).fmt.gateOpen := by
  have h := (Frames.unassignAll_same (w := 0x8001160) rfl (Frames.quenchStore_same (x0 := cause.val) (x1 := (quenchHalted cause vsense window s).glb.time) (x2 := s.mot.speed)
    (x3 := braking) (S4 := quenchHalted cause vsense window s) rfl Frames.same_refl)).fmt rfl
  rw [quenchAbandoned, abandonData_gateOpen, h]

end Sys2Proof.Machine

/-- Settles O30: what stands before the store is written is what the store takes; what follows leaves the store alone. -/
theorem Sys2Proof.quenchSavesState : Obligations.QuenchSavesState := by
  intro cause vsense window vholdEnd braking s hoff hquench hdetects
  refine ⟨quench cause vsense window vholdEnd braking s, rfl, ?_⟩
  obtain ⟨hmode, htime, hfmt, hentered⟩ := quenchEntered_fields cause vsense s
  have hhalted := quenchHalted_same cause vsense window s
  have habandoned := quenchAbandoned_same cause vsense window braking s
  have hstored := quenchStored_same cause vsense window braking s
  rw [quench_eq window vholdEnd braking hoff hquench hdetects]
  have hqs := (hstored.qs rfl).trans (quenchAbandoned_qs cause vsense window braking s)
  have hgate : (quenchStored cause vsense window braking s).fmt.gateOpen = false := by
    rw [hstored.fmt rfl, quenchAbandoned_gateOpen, hhalted.fmt rfl, hfmt]
  have hgone := abandonData_gone (unassignAll (quenchStore cause.val (quenchHalted cause vsense window s).glb.time s.mot.speed braking (quenchHalted cause vsense window s)))
  have hblks : (quenchStored cause vsense window braking s).blks = [] := (hstored.blks rfl).trans hgone.1
  have hstreams : (quenchStored cause vsense window braking s).streams = [] := (hstored.streams rfl).trans hgone.2
  have hseqs0 : (quenchHalted cause vsense window s).seqs = s.seqs := (hhalted.seqs rfl).trans (hentered.seqs rfl)
  have hseqs : (quenchStored cause vsense window braking s).seqs = s.seqs := (hstored.seqs rfl).trans ((habandoned.seqs rfl).trans hseqs0)
  have hsec : (quenchStored cause vsense window braking s).sec = s.sec :=
    (hstored.sec rfl).trans ((habandoned.sec rfl).trans ((hhalted.sec rfl).trans (hentered.sec rfl)))
  have hglb : (quenchStored cause vsense window braking s).glb = (quenchEntered cause vsense s).glb :=
    (hstored.glb rfl).trans ((habandoned.glb rfl).trans (hhalted.glb rfl))
  have hrecorded : (quenchHalted cause vsense window s).qs = s.qs := (hhalted.qs rfl).trans (hentered.qs rfl)
  have hcart : (quenchHalted cause vsense window s).cart = s.cart := (hhalted.cart rfl).trans (hentered.cart rfl)
  have hsrv : (quenchHalted cause vsense window s).srv = s.srv := (hhalted.srv rfl).trans (hentered.srv rfl)
  have hcommit : (quenchHalted cause vsense window s).fmt.commitDsn = s.fmt.commitDsn := by rw [hhalted.fmt rfl, hfmt]
  have htime0 : (quenchHalted cause vsense window s).glb.time = s.glb.time := by rw [hhalted.glb rfl, htime]
  simp only [linkLost, hqs, quenchStore, hgate, hblks, hstreams, hseqs, hsec, hglb, hmode, hrecorded, hcart, hsrv, hcommit, htime0, hseqs0, Fin.getElem_fin,
    Vector.getElem_ofFn, and_self, implies_true]

/-- Settles O31: the conditions choose the branch of each row's operation. -/
theorem Sys2Proof.pewterAndServiceRows : Obligations.PewterAndServiceRows := by
  intro s
  refine ⟨fun hm hp hs => ?_, fun hm => ?_, fun hm hl hp => ?_, fun pass hm => ?_, fun hm => ?_, fun hm hp => ?_, fun by_ p on hmay hne hno hm => ?_,
    fun hm hlow hhigh => ?_⟩
  · exact congrArg Host.Outcome.next (if_neg (by simp [hm, hp, hs]))
  · exact congrArg Host.Outcome.next (if_pos (by simpa using hm))
  · exact congrArg Host.Outcome.next (if_pos (by simp [hm, hl, hp]))
  · exact congrArg Host.Outcome.next (if_pos hm)
  · exact congrArg Host.Outcome.next (if_pos hm)
  · exact congrArg Host.Outcome.next (if_neg (by simp [hm, hp]))
  · exact congrArg Host.Outcome.next ((if_pos hmay).trans ((if_neg hne).trans (if_neg (by simp [hno, hm]))))
  · exact congrArg Host.Outcome.next (if_pos (by simp [hm, hlow, hhigh]))
end

section
/-! PROOFS. Commands of an instance ring that answer at once: a row whose command may start runs it, and the checks of its descriptor pass. -/

open Sys2Proof Sys2Proof.Machine Sys2Proof.Claims

namespace Sys2Proof.Machine

/-- A row whose command may start runs the command. -/
theorem instCmd_started {v : Inst} {cid : Cid} {op : Nat} {c : Cmd} {s : State} (f : Cmd → State → State) (h : startable s v cid op = some c) :
    instCmd v cid op f s = f c s := by
  simp only [instCmd, h]

/-- The form check of a command that names no stream. -/
theorem not_paramFault {c : Cmd} {used : List (Nat × Nat)} (ht : c.target = 0xFFFF) (hr : reservedZero c.desc used = true) :
    ¬ (!reservedZero c.desc used || c.target != 0xFFFF) = true := by simp [ht, hr]

theorem not_misaligned {a : Nat} (h : a % 64 = 0) : ¬ (!aligned64 a) = true := by simp [(aligned64_iff a).mpr h]

theorem streamCmd_open {v : Inst} {c : Cmd} {dirs : List StreamDir} {x : Machine.Stream} {s : State} (f : Machine.Stream → State → State)
    (hx : s.openStream? v c.target = some x) (hcut : x.cut = none) (hdir : dirs.contains x.dir = true) : streamCmd v c dirs f s = f x s := by
  simp only [streamCmd, hx, hcut, if_pos hdir]

theorem nop_done {v : Inst} {c : Cmd} {s : State} (ht : c.target = 0xFFFF) (hr : reservedZero c.desc [] = true) : nop v c s = okFor v c 0 0 0 s :=
  if_neg (not_paramFault ht hr)

theorem getStats_done {v : Inst} {c : Cmd} {s : State} (ht : c.target = 0xFFFF) (hr : reservedZero c.desc [(8, 8)] = true) (ha : u64 c.desc 8 % 64 = 0) :
    getStats v c s = okFor v c 0 0 0 (hostWrite (s.space (some v)) (u64 c.desc 8) (s.inst v).stats.bytes s) :=
  (if_neg (not_paramFault ht hr)).trans (if_neg (not_misaligned ha))

theorem readPosition_done {v : Inst} {c : Cmd} {x : Machine.Stream} {s : State} (hr : reservedZero c.desc [] = true)
    (hx : s.openStream? v c.target = some x) (hcut : x.cut = none) (hdir : x.dir = .read) :
    readPosition v c s = okFor v c x.rd.records x.rd.marks x.rd.dsn s := by
  simp only [readPosition, hr, Bool.not_true, Bool.false_eq_true, if_false]
  rw [streamCmd_open _ hx hcut (by rw [hdir]; rfl), if_pos (by rw [hdir]; rfl)]
  rfl

theorem invalidOpcode_done {v : Inst} {cid : Cid} {c : Cmd} {s : State} (hc : findStartable cid.toNat [] (s.ring (some v)).cmds = some c)
    (hst : (s.inst v).state = .active) (hm : s.glb.mode.served = true) (hop : c.opcode ∉ instOpcodes) :
    invalidOpcode (some v) cid s = completeSt (some v) c.uid .badOpcode s := by
  have hgo : (stateTakes s v c && s.glb.mode.served && !instOpcodes.contains c.opcode) = true := by simp [stateTakes, hst, hm, hop]
  simp only [invalidOpcode, hc, if_pos hgo]
  rfl

end Sys2Proof.Machine

/-- Settles O9: the row of each command runs it, and the descriptor has no fault. -/
theorem Sys2Proof.instanceQueriesComplete : Obligations.InstanceQueriesComplete := by
  intro v cid c s
  refine ⟨?nop, ?stats, ?position, ?opcode⟩
  case nop =>
    intro hstart hr ht
    exact congrArg Host.Outcome.next ((instCmd_started (nop v) hstart).trans (nop_done ht hr))
  case stats =>
    intro hstart hr ht ha
    exact congrArg Host.Outcome.next ((instCmd_started (getStats v) hstart).trans (getStats_done ht hr ha))
  case position =>
    intro x hstart hr hx hcut hdir
    exact congrArg Host.Outcome.next ((instCmd_started (readPosition v) hstart).trans (readPosition_done hr hx hcut hdir))
  case opcode =>
    intro hc hst hm hop
    exact congrArg Host.Outcome.next (invalidOpcode_done hc hst hm hop)

namespace Sys2Proof.Tests

/-- SLOT_REKEY of slot 7. -/
def wRekey : Bytes := desc 0x31 1 0xFFFF [(8, [7])]

/-- A part whose slot 7 of instance 0 stands at an epoch beyond 32 bits. -/
def wBeyond : State :=
  let s := slotted (held .active wRekey (live .idle))
  { s with seqs := vset s.seqs (seqIx 0 7) { frontier := 0, epoch := 2 ^ 32 } }

theorem wBeyond_meets :
    let k : SlotNo := Fin.ofNat 8 (u8 (cmd wRekey).desc 8)
    startable wBeyond 0 1 0x31 = some (cmd wRekey) ∧ reservedZero (cmd wRekey).desc [(8, 1)] = true ∧ (cmd wRekey).target = 0xFFFF
      ∧ u8 (cmd wRekey).desc 8 < 8 ∧ (wBeyond.slot 0 k).kind = .ff3Gcm ∧ (wBeyond.seqOf 0 k).epoch = 2 ^ 32 := by decide +kernel

theorem slotRekey_wBeyond : ((slotRekey 0 (cmd wRekey) wBeyond).seqOf 0 (Fin.ofNat 8 (u8 (cmd wRekey).desc 8))).epoch = 2 ^ 32 := by decide +kernel

end Sys2Proof.Tests

/-- Refutes O13: an epoch of 2^32, which the statement does not exclude, is not 0xFFFFFFFF and does not rise, as SLOT_REKEY clamps the new
epoch to 32 bits. -/
theorem Sys2Proof.not_slotCommands : ¬ Obligations.SlotCommands := by
  rintro ⟨-, hrekey⟩
  obtain ⟨hstart, hr, ht, hk, hkind, hepoch⟩ := Tests.wBeyond_meets
  obtain ⟨t, hexec, hrises, -⟩ := hrekey 0 1 _ Tests.wBeyond hstart hr ht hk hkind (by rw [hepoch]; decide)
  have hruns : exec (.slotRekey 0 1) Tests.wBeyond = .next (slotRekey 0 (Tests.cmd Tests.wRekey) Tests.wBeyond) :=
    congrArg Host.Outcome.next (instCmd_started (slotRekey 0) hstart)
  obtain rfl : slotRekey 0 (Tests.cmd Tests.wRekey) Tests.wBeyond = t := Host.Outcome.next.inj (hruns.symm.trans hexec)
  rw [Tests.slotRekey_wBeyond, hepoch] at hrises
  exact absurd hrises (by decide)
end

section
/-! PROOFS. Commands of the management ring on instances and roots: each names its instance, its descriptor has no fault, and what it leaves
follows from what the configuration, the state change and the completion do. -/

open Sys2Proof Sys2Proof.Machine Sys2Proof.Claims

namespace Sys2Proof.Machine

/-! ### The instance that a command names -/

theorem withTarget_inst {c : Cmd} {v : Inst} {s : State} (f : Inst → State → State) (h : c.target = v.val) : withTarget c f s = f v s := by
  have hv : Fin.ofNat 64 c.target = v := by rw [h]; exact Fin.ofNat_val_eq_self v
  rw [withTarget, if_pos (h ▸ v.isLt), hv]

@[simp] theorem mOk_inst (c : Cmd) (a b d : Nat) (s : State) (v : Inst) : (mOk c a b d s).inst v = s.inst v := by rw [State.inst, mOk_insts]; rfl

theorem setInstState_inst_of_ne {v : Inst} {st : InstState} {s : State} (h : (s.inst v).state ≠ st) :
    (setInstState v st s).inst v = { s.inst v with state := st, seq := (s.inst v).seq + 1 } := by
  rw [setInstState_inst, if_neg h]

/-! ### Create -/

theorem applyCfg_inst (v : Inst) (p : CreateParams) (s : State) :
    (applyCfg v p s).inst v =
      { state := (s.inst v).state, seq := (s.inst v).seq
        cfg := { pasid := p.pasid, plaintextOk := p.flags.testBit 0, ats := p.flags.testBit 1, maxStreams := p.maxStreams
                 partMask := p.partMask, tagLo := p.tagLo, tagHi := p.tagHi, rtagLo := p.rtagLo, rtagHi := p.rtagHi }
        ring := { sqBase := p.sqBase, cqBase := p.cqBase, sqLog := p.sqLog, cqLog := p.cqLog, irqCount := p.irqCount, irqUsec := p.irqUsec }
        share := p.share, shareNext := p.share
        slots := (s.inst v).slots.map (fun q => { ({} : KeySlot) with generation := q.generation }) } :=
  inst_modInst_same _ _ _

theorem applyCfg_inst_other {v w : Inst} (p : CreateParams) (s : State) (h : v ≠ w) : (applyCfg v p s).inst w = s.inst w := inst_modInst_other _ _ _ _ h

theorem newEcdh_inst (v : Inst) (s : State) : (newEcdh v s).inst v = { s.inst v with ecdh := some (Ecc.privOf (draw s 48)) } := inst_modInst_same _ _ _

theorem newEcdh_inst_other {v w : Inst} (s : State) (h : v ≠ w) : (newEcdh v s).inst w = s.inst w := inst_modInst_other _ _ _ _ h

theorem instanceCreate_done {c : Cmd} {v : Inst} {s : State} (ht : c.target = v.val) (hr : reservedZero c.desc [(8, 42)] = true)
    (hpasid : u32 (slice c.desc 8 48) 0 < 2 ^ 20) (hflags : (createParams (slice c.desc 8 48)).flags < 4) (hquota : u32 (slice c.desc 8 48) 28 < 2 ^ 24)
    (hsq : (createParams (slice c.desc 8 48)).sqBase % 64 = 0) (hcq : (createParams (slice c.desc 8 48)).cqBase % 64 = 0) (hm : s.glb.mode ≠ .service)
    (hst : (s.inst v).state = .unassigned) (hcfg : cfgBroken s v (createParams (slice c.desc 8 48)) = false) :
    instanceCreate c s = mOk c 0 0 1 (setInstState v .configured (newEcdh v (applyCfg v (createParams (slice c.desc 8 48)) s))) := by
  have hno : firstFault
      [ (!reservedZero c.desc [(8, 42)] || !decide (u32 (slice c.desc 8 48) 0 < 2 ^ 20) || !decide ((createParams (slice c.desc 8 48)).flags < 4)
          || !decide (u32 (slice c.desc 8 48) 28 < 2 ^ 24), .badParam)
      , (!(aligned64 (createParams (slice c.desc 8 48)).sqBase && aligned64 (createParams (slice c.desc 8 48)).cqBase), .align)
      , (s.glb.mode == .service, .notReady)
      , ((s.inst v).state != .unassigned || cfgBroken s v (createParams (slice c.desc 8 48)), .badParam) ] = none := by
    simp [firstFault, hr, hflags, (aligned64_iff _).mpr hsq, (aligned64_iff _).mpr hcq, hm, hst, hcfg]
    exact ⟨hpasid, hquota⟩
  rw [instanceCreate, withTarget_inst _ ht]
  simp only [hno]

end Sys2Proof.Machine

/-- Settles O14: the configuration is applied to one instance, its key drawn, its state set; the completion changes no instance. -/
theorem Sys2Proof.createConfiguresInstance : Obligations.CreateConfiguresInstance := by
  intro cid c v s ⟨hstart, hmode⟩ ht
  dsimp only
  intro hr hpasid hflags hquota hsq hcq hm hst hcfg
  have hdone := instanceCreate_done ht hr hpasid hflags hquota hsq hcq hm hst hcfg
  generalize createParams (slice c.desc 8 48) = p at hdone
  refine ⟨_, congrArg Host.Outcome.next ((mgmtCmd_started instanceCreate hstart (.inl hmode)).trans hdone), ⟨_, rfl⟩, ?_⟩
  have hinst : (newEcdh v (applyCfg v p s)).inst v = _ := newEcdh_inst v _
  rw [applyCfg_inst] at hinst
  have hne : ((newEcdh v (applyCfg v p s)).inst v).state ≠ .configured := by rw [hinst, hst]; decide
  have hv := setInstState_inst_of_ne hne
  have hmade := Frames.newEcdh_same (x0 := v) (S1 := applyCfg v p s) Frames.sub_refl Frames.same_refl
  simp only [mOk_inst, State.slot, hv, hinst, mOk_freeCtr, mOk_pans, mOk_seqs, mOk_sec, mOk_streams, mOk_blks, mOk_glb, setInstState_freeCtr, setInstState_pans,
    setInstState_seqs, setInstState_sec, setInstState_streams, setInstState_blks, setInstState_glb]
  refine ⟨trivial, trivial, trivial, trivial, trivial, trivial, fun k => ?_, rfl, rfl, hmade.pans rfl, fun w hw => ?_, hmade.seqs rfl, hmade.sec rfl,
    hmade.streams rfl, hmade.blks rfl, hmade.glb rfl⟩
  · simp
  · rw [setInstState_inst_other _ _ _ _ hw.symm, newEcdh_inst_other _ hw.symm, applyCfg_inst_other _ _ hw.symm]

namespace Sys2Proof.Machine

/-! ### Share, quiesce, reset, destroy and freeze -/

theorem instanceShare_done {c : Cmd} {v : Inst} {s : State} (ht : c.target = v.val) (hr : reservedZero c.desc [(8, 2), (12, 4)] = true)
    (hflags : u8 c.desc 9 < 8) (hquota : u32 c.desc 12 < 2 ^ 24) (hst : (s.inst v).state ≠ .unassigned)
    (hresume : (u8 c.desc 9).testBit 2 = false ∨ resumable (s.inst v) = true) :
    instanceShare c s =
      let a := if (u8 c.desc 9).testBit 1 then setQuota v (u32 c.desc 12) s else s
      let b := if (u8 c.desc 9).testBit 0 then a.modInst v (fun i => { i with shareNext := u8 c.desc 8 }) else a
      mOk c 0 0 0 (if (u8 c.desc 9).testBit 2 then
        resumeInst v (if (u8 c.desc 9).testBit 0 then b.modInst v (fun i => { i with share := u8 c.desc 8 }) else b) else b) := by
  have hform : ¬ (!reservedZero c.desc [(8, 2), (12, 4)] || !decide (u8 c.desc 9 < 8) || !decide (u32 c.desc 12 < 2 ^ 24)) = true := by
    simp [hr, hflags]
    exact hquota
  have hgo : ¬ ((u8 c.desc 9).testBit 2 && !resumable (s.inst v)) = true := by
    rcases hresume with h | h <;> simp [h]
  rw [instanceShare, withTarget_inst _ ht]
  simp only [if_neg hform, if_neg hst, if_neg hgo]

/-- Completions of the management ring change no instance. -/
theorem foldl_mOk_inst (p : Cmd → Bool) (a b d : Nat) (l : List Cmd) (s : State) (w : Inst) :
    (l.foldl (fun s c => if p c then mOk c a b d s else s) s).inst w = s.inst w := by
  induction l generalizing s with
  | nil => rfl
  | cons c l ih =>
    rw [List.foldl_cons, ih]
    split
    · exact mOk_inst ..
    · rfl

theorem endQuiesce_inst (v w : Inst) (s : State) : (endQuiesce v s).inst w = (s.modInst v (fun i => { i with qscHeld := heldCount s v })).inst w :=
  foldl_mOk_inst ..

theorem quiesceComplete_inst {v : Inst} {s : State} (hst : (s.inst v).state = .quiescing) :
    (setInstState v .quiesced (endQuiesce v s)).inst v = { s.inst v with state := .quiesced, seq := (s.inst v).seq + 1, qscHeld := heldCount s v } := by
  have hend : (endQuiesce v s).inst v = { s.inst v with qscHeld := heldCount s v } := (endQuiesce_inst v v s).trans (inst_modInst_same ..)
  rw [setInstState_inst_of_ne (by rw [hend, hst]; decide), hend]

theorem quiesceComplete_inst_other {v w : Inst} (s : State) (h : v ≠ w) : (setInstState v .quiesced (endQuiesce v s)).inst w = s.inst w := by
  rw [setInstState_inst_other _ _ _ _ h, endQuiesce_inst, inst_modInst_other _ _ _ _ h]

theorem instanceShareAndQuiesce : Claims.InstanceShareAndQuiesce := by
  intro cid c v s ht
  refine ⟨?share, ?quiesce, ?complete⟩
  case share =>
    rintro ⟨hstart, hmode⟩ hr hflags hquota hst
    have hrun := mgmtCmd_started instanceShare hstart (.inl hmode)
    constructor
    · intro hresume
      refine congrArg Host.Outcome.next (hrun.trans ((instanceShare_done ht hr hflags hquota hst (.inl hresume)).trans ?_))
      simp only [hresume, Bool.false_eq_true, if_false]
    · intro hresume hcan
      refine congrArg Host.Outcome.next (hrun.trans ((instanceShare_done ht hr hflags hquota hst (.inr hcan)).trans ?_))
      simp only [hresume, if_true]
  case quiesce =>
    rintro ⟨hstart, hmode⟩ hr
    have hrun (t : State) (h : instanceQuiesce c s = t) : exec (.instanceQuiesce cid) s = .next t :=
      congrArg Host.Outcome.next ((mgmtCmd_started instanceQuiesce hstart (.inl hmode)).trans h)
    rw [instanceQuiesce, withTarget_inst _ ht, if_neg (by simp [hr])] at hrun
    refine ⟨fun hst => hrun _ ?_, fun hst => hrun _ ?_, fun hst => hrun _ ?_⟩
    · rcases hst with hst | hst <;> simp only [hst]
    · rcases hst with hst | hst <;> simp only [hst]
    · simp only [hst]
  case complete =>
    intro hst hdrained
    refine ⟨_, congrArg Host.Outcome.next (if_pos (by simp [hst, hdrained])), rfl, ?_⟩
    rw [quiesceComplete_inst hst]
    exact ⟨rfl, rfl, rfl, fun w hw => quiesceComplete_inst_other s hw.symm⟩

theorem instanceEnds : Claims.InstanceEnds := by
  intro cid c v s ht hr
  constructor
  · intro hst
    have hset : ¬ (s.inst v).state = .unassigned ∧ ¬ (!(s.inst v).state.settled) = true := by
      rcases hst with hst | hst | hst <;> rw [hst] <;> decide
    constructor <;> rintro ⟨hstart, hmode⟩
    · refine congrArg Host.Outcome.next ((mgmtCmd_started instanceReset hstart (.inl hmode)).trans ?_)
      rw [instanceReset, withTarget_inst _ ht, if_neg (by simp [hr]), if_neg hset.1, if_neg hset.2]
    · refine congrArg Host.Outcome.next ((mgmtCmd_started instanceDestroy hstart (.inl hmode)).trans ?_)
      rw [instanceDestroy, withTarget_inst _ ht, if_neg (by simp [hr]), if_neg hset.1, if_neg hset.2]
  · rintro ⟨hstart, hmode⟩ hst
    refine congrArg Host.Outcome.next ((mgmtCmd_started instanceFreeze hstart (.inl hmode)).trans ?_)
    rw [instanceFreeze, withTarget_inst _ ht, if_neg (by simp [hr])]
    rcases hst with hst | hst | hst | hst <;> simp only [hst]

end Sys2Proof.Machine

/-- Settles O15: each command runs the branch that its instance's state names. -/
theorem Sys2Proof.instanceStateCommands : Obligations.InstanceStateCommands := ⟨instanceShareAndQuiesce, instanceEnds⟩
end

section
/-! PROOFS. Save, restore and roots: a blob reads of the machine what key work and draws leave alone; a restore puts the slots back one by
one, each in its own place. -/

open Sys2Proof Sys2Proof.Machine Sys2Proof.Claims

namespace Sys2Proof.Machine

/-! ### Save -/

theorem saveBlob_congr {s t : State} (v : Inst) (nonce : Bytes) (hi : t.insts = s.insts) (hs : t.seqs = s.seqs) (hg : t.glb = s.glb)
    (hp : t.pans = s.pans) : saveBlob t v nonce = saveBlob s v nonce := by
  have hinst : t.inst v = s.inst v := by rw [State.inst, hi]; rfl
  have hslot : t.slot v = s.slot v := by funext k; rw [State.slot, hinst]; rfl
  have hseq : t.seqOf v = s.seqOf v := by funext k; rw [State.seqOf, hs]; rfl
  have hcfg : cfgBytes t v = cfgBytes s v := by simp only [cfgBytes, hinst, hp]
  have hwraps : blobWraps t v = blobWraps s v := by funext kw; simp only [blobWraps, hslot]
  simp only [saveBlob, hinst, hslot, hseq, hcfg, hwraps, hg]

theorem draw_congr {s t : State} (n : Nat) (hs : t.sec = s.sec) (hc : t.freeCtr = s.freeCtr) : draw t n = draw s n := by rw [draw, draw, hs, hc]

theorem drawn_congr {s t : State} (n : Nat) (hs : t.sec = s.sec) (hc : t.freeCtr = s.freeCtr) : (drawn n t).freeCtr = (drawn n s).freeCtr := by
  rw [drawn, drawn, hs, hc]

/-- What INSTANCE_SAVE leaves before it completes. -/
def saved (v : Inst) (addr : Nat) (s : State) : State :=
  let t := hostWrite 0 addr (saveBlob (keyWork s) v (draw (keyWork s) 16)) (drawn 16 (keyWork s))
  let all := t.sec.nonces ++ [(draw (keyWork s) 16, false)]
  { t with sec := { t.sec with nonces := all.drop (all.length - 64) } }.modInst v (fun i => { i with saved := true })

theorem saved_sec (v : Inst) (addr : Nat) (s : State) : (saved v addr s).sec = { (keyWork s).sec with
    nonces := ((keyWork s).sec.nonces ++ [(draw (keyWork s) 16, false)]).drop (((keyWork s).sec.nonces ++ [(draw (keyWork s) 16, false)]).length - 64) } := rfl

theorem saved_same (v : Inst) (addr : Nat) (s : State) : Frames.Same 0x18000108 (keyWork s) (saved v addr s) :=
  Frames.State_modInst_same rfl (Frames.set_8 rfl (Frames.hostWrite_same rfl (Frames.drawn_same rfl Frames.same_refl)))

theorem saved_freeCtr (v : Inst) (addr : Nat) (s : State) : (saved v addr s).freeCtr = (drawn 16 (keyWork s)).freeCtr := rfl

theorem instanceSave_done {c : Cmd} {v : Inst} {s : State} (ht : c.target = v.val) (hr : reservedZero c.desc [(16, 12)] = true)
    (ha : u64 c.desc 16 % 64 = 0) (hst : (s.inst v).state = .frozen) (hlen : 1024 ≤ u32 c.desc 24) :
    instanceSave c s = mOk c 0 0 0 (saved v (u64 c.desc 16) s) := by
  rw [instanceSave, withTarget_inst _ ht, if_neg (by simp [hr]), if_neg (not_misaligned ha), if_neg (by simp [hst]), if_neg (Nat.not_lt.mpr hlen)]
  rfl

theorem saveWritesBlob : Claims.SaveWritesBlob := by
  intro cid c v s ⟨hstart, hmode⟩ ht hr ha hst hlen
  have hk := Frames.keyWork_same (S0 := s) Frames.sub_refl Frames.same_refl
  have hdraw := draw_congr 16 (hk.sec rfl) (hk.freeCtr rfl)
  have hblob := saveBlob_congr v (draw s 16) (hk.insts rfl) (hk.seqs rfl) (hk.glb rfl) (hk.pans rfl)
  have hinsts : (saved v (u64 c.desc 16) s).insts = vmod (keyWork s).insts v (fun i => { i with saved := true }) := rfl
  rw [hk.insts rfl] at hinsts
  have hinst : (saved v (u64 c.desc 16) s).inst v = { s.inst v with saved := true } := by rw [State.inst, hinsts]; exact vmod_same _ _ _
  refine ⟨_, congrArg Host.Outcome.next ((mgmtCmd_started instanceSave hstart (.inl hmode)).trans (instanceSave_done ht hr ha hst hlen)), ⟨_, rfl, ?_⟩, ?_⟩
  · show (hostWrite 0 _ (saveBlob (keyWork s) v (draw (keyWork s) 16)) (drawn 16 (keyWork s))).hostMem = _
    rw [hdraw, hblob, hostWrite, drawn_hostMem, hk.hostMem rfl]
    rfl
  · rw [mOk_sec, mOk_freeCtr, mOk_inst, mOk_seqs, hinst]
    have hsame := saved_same v (u64 c.desc 16) s
    refine ⟨?_, (saved_freeCtr ..).trans (drawn_congr 16 (hk.sec rfl) (hk.freeCtr rfl)), rfl, hst, rfl, (hsame.seqs rfl).trans (hk.seqs rfl), fun w hw => ?_⟩
    · rw [saved_sec, hdraw, hk.sec rfl, List.length_append, List.length_singleton]
    · rw [mOk_inst, State.inst, hinsts]
      exact vmod_other _ _ _ _ hw.symm

/-! ### Restore -/

theorem seqIx_injective (v : Inst) {k j : SlotNo} (h : seqIx v k = seqIx v j) : k = j := by
  have hval : (8 * v.val + k.val) % 512 = (8 * v.val + j.val) % 512 := congrArg Fin.val h
  exact Fin.ext (by omega)

/-- A run of steps, one for each place of a list, each of which changes its own place alone. -/
theorem foldl_places {α : Type} {f : State → SlotNo → State} {get : State → SlotNo → α} {g : SlotNo → α → α} (hsame : ∀ s k, get (f s k) k = g k (get s k))
    (hother : ∀ s k j, j ≠ k → get (f s k) j = get s j) {l : List SlotNo} (hl : l.Nodup) (s : State) (j : SlotNo) :
    get (l.foldl f s) j = if j ∈ l then g j (get s j) else get s j := by
  induction l generalizing s with
  | nil => simp
  | cons k l ih =>
    obtain ⟨hk, hl⟩ := List.nodup_cons.mp hl
    rw [List.foldl_cons, ih hl]
    by_cases hj : j = k
    · subst hj
      rw [if_neg hk, if_pos List.mem_cons_self, hsame]
    · simp only [List.mem_cons, hj, false_or, hother _ _ _ hj]

theorem foldl_keeps {α : Type} {f : State → SlotNo → State} {get : State → α} (h : ∀ s k, get (f s k) = get s) (l : List SlotNo) (s : State) :
    get (l.foldl f s) = get s := by
  induction l generalizing s with
  | nil => rfl
  | cons k l ih => rw [List.foldl_cons, ih, h]

/-- One slot of a blob put back. -/
def restoreSlot (v : Inst) (b : Bytes) (roots : List (Option Bytes)) (s : State) (k : SlotNo) : State :=
  let r := slice b (128 + 16 * k.val) 16
  let t := s.modSlot v k (fun _ => restoredSlot r (roots.getD k.val none))
  storeSlot (seqIx v k) { t with seqs := vmod t.seqs (seqIx v k) (fun q =>
    { frontier := max q.frontier (u64 r 8) + 2 ^ 20, epoch := min (max q.epoch (u32 r 4) + 1) lastEpoch }) }

theorem restoreSlots_eq (v : Inst) (b : Bytes) (roots : List (Option Bytes)) (s : State) :
    restoreSlots v b roots s = ((List.finRange 8).foldl (restoreSlot v b roots) s).modInst v (fun i => { i with stats :=
      { consumed := u64 b 256, sealed := u64 b 264, records := u64 b 272, marks := u64 b 280, delivered := u64 b 288
        deliveredBytes := u64 b 296, commands := u64 b 304, failed := u64 b 312 } }) := rfl

theorem restoreSlot_slots (v : Inst) (b : Bytes) (roots : List (Option Bytes)) (s : State) (k : SlotNo) :
    (restoreSlot v b roots s k).inst v
      = { s.inst v with slots := vmod (s.inst v).slots k (fun _ => restoredSlot (slice b (128 + 16 * k.val) 16) (roots.getD k.val none)) } :=
  inst_modInst_same ..

/-- What a restore makes of an instance's slots, sequence state and the rest. -/
theorem restoreSlots_slot (v : Inst) (b : Bytes) (roots : List (Option Bytes)) (s : State) (k : SlotNo) :
    (restoreSlots v b roots s).slot v k = restoredSlot (slice b (128 + 16 * k.val) 16) (roots.getD k.val none) := by
  have h := foldl_places (f := restoreSlot v b roots) (get := fun s k => s.slot v k)
    (g := fun k _ => restoredSlot (slice b (128 + 16 * k.val) 16) (roots.getD k.val none))
    (fun s k => by rw [State.slot, restoreSlot_slots]; exact vmod_same _ _ _)
    (fun s k j hj => by rw [State.slot, restoreSlot_slots]; exact vmod_other _ _ _ _ hj.symm) (List.nodup_finRange 8) s k
  rw [if_pos (List.mem_finRange k)] at h
  rw [State.slot, restoreSlots_eq, inst_modInst_same]
  exact h

theorem restoreSlot_seqs (v : Inst) (b : Bytes) (roots : List (Option Bytes)) (s : State) (k : SlotNo) :
    (restoreSlot v b roots s k).seqs = vmod s.seqs (seqIx v k) (fun q =>
      { frontier := max q.frontier (u64 (slice b (128 + 16 * k.val) 16) 8) + 2 ^ 20
        epoch := min (max q.epoch (u32 (slice b (128 + 16 * k.val) 16) 4) + 1) lastEpoch }) := rfl

theorem restoreSlots_seqs (v : Inst) (b : Bytes) (roots : List (Option Bytes)) (s : State) :
    (restoreSlots v b roots s).seqs = ((List.finRange 8).foldl (restoreSlot v b roots) s).seqs := by rw [restoreSlots_eq, modInst_seqs]

theorem restoreSlots_seqOf (v : Inst) (b : Bytes) (roots : List (Option Bytes)) (s : State) (k : SlotNo) :
    (restoreSlots v b roots s).seqOf v k =
      { frontier := max (s.seqOf v k).frontier (u64 (slice b (128 + 16 * k.val) 16) 8) + 2 ^ 20
        epoch := min (max (s.seqOf v k).epoch (u32 (slice b (128 + 16 * k.val) 16) 4) + 1) lastEpoch } := by
  have h := foldl_places (f := restoreSlot v b roots) (get := fun s k => s.seqOf v k)
    (g := fun k q => { frontier := max q.frontier (u64 (slice b (128 + 16 * k.val) 16) 8) + 2 ^ 20
                       epoch := min (max q.epoch (u32 (slice b (128 + 16 * k.val) 16) 4) + 1) lastEpoch })
    (fun s k => by rw [State.seqOf, restoreSlot_seqs]; exact vmod_same _ _ _)
    (fun s k j hj => by rw [State.seqOf, restoreSlot_seqs]; exact vmod_other _ _ _ _ fun h => hj (seqIx_injective v h).symm) (List.nodup_finRange 8) s k
  rw [if_pos (List.mem_finRange k)] at h
  rw [State.seqOf, restoreSlots_seqs]
  exact h

theorem restoreSlots_seqs_other (v : Inst) (b : Bytes) (roots : List (Option Bytes)) (s : State) {i : Fin 512} (hi : ∀ k, i ≠ seqIx v k) :
    (restoreSlots v b roots s).seqs[i] = s.seqs[i] := by
  rw [restoreSlots_seqs]
  exact foldl_keeps (f := restoreSlot v b roots) (get := fun s => s.seqs[i])
    (fun s k => by rw [restoreSlot_seqs]; exact vmod_other _ _ _ _ (hi k).symm) (List.finRange 8) s

theorem restoreSlots_inst (v : Inst) (b : Bytes) (roots : List (Option Bytes)) (s : State) :
    ((restoreSlots v b roots s).inst v).ring = (s.inst v).ring ∧ ((restoreSlots v b roots s).inst v).cfg = (s.inst v).cfg
      ∧ ((restoreSlots v b roots s).inst v).state = (s.inst v).state := by
  have h := foldl_keeps (f := restoreSlot v b roots) (get := fun s => ((s.inst v).ring, (s.inst v).cfg, (s.inst v).state))
    (fun s k => by rw [restoreSlot_slots]) (List.finRange 8) s
  simp only [Prod.mk.injEq] at h
  rw [restoreSlots_eq, inst_modInst_same]
  exact h

theorem slice_slice {b : Bytes} {off m o n : Nat} (h : off + m ≤ b.length) (hn : o + n ≤ m) : slice (slice b off m) o n = slice b (off + o) n := by
  have hlen : (slice b off m).length = m := length_slice _ _ _
  rw [slice_eq_take (by omega), slice_eq_take (by omega), slice_eq_take (by omega), List.drop_take, List.take_take, List.drop_drop]
  congr 1
  omega

theorem length_hostRead (s : State) (space addr n : Nat) : (hostRead s space addr n).length = n := by rw [hostRead, List.length_map, List.length_range]

theorem restoredSlot_none (r : Bytes) : (restoredSlot r none).kind = .empty := by
  unfold restoredSlot
  split
  · rfl
  · contradiction
  · rfl

/-- The mark that a restore leaves on its nonce. -/
theorem nonceOpen_marked (s : State) (nonce : Bytes) :
    nonceOpen { s with sec := { s.sec with nonces := s.sec.nonces.map (fun x => if x.1 == nonce then (x.1, true) else x) } } nonce = false := by
  rw [nonceOpen, List.any_eq_false]
  intro x hx
  obtain ⟨y, -, rfl⟩ := List.mem_map.mp hx
  by_cases hy : y.1 == nonce <;> simp [hy]

/-- The state that a restore starts from: with the roots to come back, the nonce is used. -/
def nonceUsed (nonce : Bytes) (s : State) : State :=
  let t := if nonceOpen s nonce then keyWork s else s
  if nonceOpen s nonce then { t with sec := { t.sec with nonces := t.sec.nonces.map (fun x => if x.1 == nonce then (x.1, true) else x) } } else t

theorem nonceUsed_closed (nonce : Bytes) (s : State) : nonceOpen (nonceUsed nonce s) nonce = false := by
  rw [nonceUsed]
  split
  · exact nonceOpen_marked ..
  · rename_i h
    simpa using h

theorem nonceUsed_same (nonce : Bytes) (s : State) : Frames.Same 0x1008 s (nonceUsed nonce s) :=
  have h : Frames.Same 0x1008 s (if nonceOpen s nonce then keyWork s else s) := Frames.same_if (Frames.keyWork_same rfl Frames.same_refl) Frames.same_refl
  Frames.same_if (Frames.set_8 rfl h) h

theorem nonceUsed_draw (nonce : Bytes) (s : State) (n : Nat) : draw (nonceUsed nonce s) n = draw s n := by
  have hrng : (nonceUsed nonce s).sec.rngOk = s.sec.rngOk := by
    rw [nonceUsed]
    split
    · show (keyWork s).sec.rngOk = _
      rw [(Frames.keyWork_same (S0 := s) Frames.sub_refl Frames.same_refl).sec rfl]
    · rfl
  rw [draw, draw, hrng, (nonceUsed_same nonce s).freeCtr rfl]

/-- The configuration that a restore puts in force: the blob's, under the PASID and the rings that the descriptor names. -/
def restoreParams (d b : Bytes) : CreateParams :=
  { createParams (slice b 64 48) with pasid := u32 d 8, sqBase := u64 d 24, cqBase := u64 d 32 }

/-- The instance that a restore leaves, before its state is set: configuration, slots, and a new key. -/
def restored (v : Inst) (d b : Bytes) (s : State) : State :=
  newEcdh v (restoreSlots v b (if nonceOpen s (slice b 32 16) then blobRoots b (slice b 32 16) (slice b 24 8) else [])
    (applyCfg v (restoreParams d b) (nonceUsed (slice b 32 16) s)))

theorem instanceRestore_done {c : Cmd} {v : Inst} {s : State} {b : Bytes} (hb : hostRead s 0 (u64 c.desc 16) 1024 = b) (ht : c.target = v.val)
    (hr : reservedZero c.desc [(8, 4), (16, 24)] = true) (hpasid : u32 c.desc 8 < 2 ^ 20) (h16 : u64 c.desc 16 % 64 = 0) (h24 : u64 c.desc 24 % 64 = 0)
    (h32 : u64 c.desc 32 % 64 = 0) (hst : (s.inst v).state = .unassigned) (hm : s.glb.mode ≠ .service) (hmagic : u32 b 0 = 0xF3B10B5A)
    (hversion : u16 b 4 = 1) (hlen : u16 b 6 = 1024) (hcfg : cfgBroken s v (restoreParams c.desc b) = false)
    (hmac : nonceOpen s (slice b 32 16) = true → Aes.cmac (blobKey "FF3-BLBM" (slice b 32 16) (slice b 24 8)) (b.take 1008) = slice b 1008 16) :
    instanceRestore c s = mOk c 0 0 (bit (nonceOpen s (slice b 32 16))) (setInstState v .frozen (restored v c.desc b s)) := by
  have hform : ¬ (!reservedZero c.desc [(8, 4), (16, 24)] || !decide (u32 c.desc 8 < 2 ^ 20)) = true := by
    rw [hr, decide_eq_true hpasid]
    decide
  have haligned : ¬ (!(aligned64 (u64 c.desc 16) && aligned64 (u64 c.desc 24) && aligned64 (u64 c.desc 32))) = true := by
    simp [(aligned64_iff _).mpr h16, (aligned64_iff _).mpr h24, (aligned64_iff _).mpr h32]
  have hblob : ¬ (u32 b 0 != 0xF3B10B5A || u16 b 4 != 1 || u16 b 6 != 1024 || cfgBroken s v (restoreParams c.desc b)) = true := by
    simp [hmagic, hversion, hlen, hcfg]
  have hwhole : ¬ (nonceOpen s (slice b 32 16) && Aes.cmac (blobKey "FF3-BLBM" (slice b 32 16) (slice b 24 8)) (b.take 1008) != slice b 1008 16) = true := by
    cases hopen : nonceOpen s (slice b 32 16) with
    | false => simp
    | true => simp [hmac hopen]
  rw [instanceRestore, withTarget_inst _ ht]
  have hidle : ¬ ((s.inst v).state != .unassigned || s.glb.mode == .service) = true := by simp [hst, hm]
  subst hb
  exact (if_neg hform).trans ((if_neg haligned).trans ((if_neg hidle).trans ((if_neg hblob).trans (if_neg hwhole))))

theorem nonceUsed_inst (nonce : Bytes) (s : State) (v : Inst) : (nonceUsed nonce s).inst v = s.inst v := by
  rw [State.inst, (nonceUsed_same nonce s).insts rfl]
  rfl

theorem restored_inst (v : Inst) (d b : Bytes) (s : State) :
    ((restored v d b s).inst v).ring.sqBase = u64 d 24 ∧ ((restored v d b s).inst v).ring.cqBase = u64 d 32 ∧ ((restored v d b s).inst v).cfg.pasid = u32 d 8
      ∧ ((restored v d b s).inst v).ecdh = some (Ecc.privOf (draw s 48)) ∧ ((restored v d b s).inst v).state = (s.inst v).state := by
  generalize hroots : (if nonceOpen s (slice b 32 16) then blobRoots b (slice b 32 16) (slice b 24 8) else []) = roots
  obtain ⟨hring, hcfg, hstate⟩ := restoreSlots_inst v b roots (applyCfg v (restoreParams d b) (nonceUsed (slice b 32 16) s))
  have hdraw : draw (restoreSlots v b roots (applyCfg v (restoreParams d b) (nonceUsed (slice b 32 16) s))) 48 = draw s 48 := by
    have h := Frames.restoreSlots_same (w := 0x20320) (x0 := v) (x1 := b) (x2 := roots) rfl
      (Frames.applyCfg_same (x0 := v) (x1 := restoreParams d b) (S2 := nonceUsed (slice b 32 16) s) rfl Frames.same_refl)
    rw [draw_congr 48 (h.sec rfl) (h.freeCtr rfl), nonceUsed_draw]
  rw [restored, hroots, newEcdh_inst]
  dsimp only
  rw [hring, hcfg, hstate, hdraw, applyCfg_inst, nonceUsed_inst]
  exact ⟨rfl, rfl, rfl, rfl, rfl⟩

/-- A restore changes the enclave as its nonce does. -/
theorem restored_same (v : Inst) (d b : Bytes) (s : State) : Frames.Same 0x10020320 (nonceUsed (slice b 32 16) s) (restored v d b s) :=
  Frames.newEcdh_same rfl (Frames.restoreSlots_same rfl (Frames.applyCfg_same rfl Frames.same_refl))

theorem restored_slot (v : Inst) (d b : Bytes) (s : State) (k : SlotNo) :
    (restored v d b s).slot v k = restoredSlot (slice b (128 + 16 * k.val) 16)
      ((if nonceOpen s (slice b 32 16) then blobRoots b (slice b 32 16) (slice b 24 8) else []).getD k.val none) := by
  rw [State.slot, restored, newEcdh_inst]
  exact restoreSlots_slot ..

theorem restored_seqs (v : Inst) (d b : Bytes) (s : State) :
    (restored v d b s).seqs = (restoreSlots v b (if nonceOpen s (slice b 32 16) then blobRoots b (slice b 32 16) (slice b 24 8) else [])
      (applyCfg v (restoreParams d b) (nonceUsed (slice b 32 16) s))).seqs :=
  (Frames.newEcdh_same Frames.sub_refl Frames.same_refl).seqs rfl

theorem applied_seqs (v : Inst) (p : CreateParams) (nonce : Bytes) (s : State) : (applyCfg v p (nonceUsed nonce s)).seqs = s.seqs :=
  (Frames.applyCfg_same Frames.sub_refl Frames.same_refl).seqs rfl |>.trans ((nonceUsed_same nonce s).seqs rfl)

theorem restored_seqOf {v : Inst} {d b : Bytes} {s : State} (hb : b.length = 1024) (k : SlotNo) :
    (restored v d b s).seqOf v k = { frontier := max (s.seqOf v k).frontier (u64 b (136 + 16 * k.val)) + 2 ^ 20
                                     epoch := min (max (s.seqOf v k).epoch (u32 b (132 + 16 * k.val)) + 1) 0xFFFFFFFF } := by
  have hbound := k.isLt
  have hfrontier : u64 (slice b (128 + 16 * k.val) 16) 8 = u64 b (136 + 16 * k.val) := by
    rw [u64, leAt, slice_slice (by omega) (by omega), u64, leAt, show 128 + 16 * k.val + 8 = 136 + 16 * k.val by omega]
  have hepoch : u32 (slice b (128 + 16 * k.val) 16) 4 = u32 b (132 + 16 * k.val) := by
    rw [u32, leAt, slice_slice (by omega) (by omega), u32, leAt, show 128 + 16 * k.val + 4 = 132 + 16 * k.val by omega]
  have h := restoreSlots_seqOf v b (if nonceOpen s (slice b 32 16) then blobRoots b (slice b 32 16) (slice b 24 8) else [])
    (applyCfg v (restoreParams d b) (nonceUsed (slice b 32 16) s)) k
  rw [hfrontier, hepoch, State.seqOf, ← restored_seqs, State.seqOf, applied_seqs] at h
  exact h

theorem restoreNeverReuses : Claims.RestoreNeverReuses := by
  intro cid c v s ⟨hstart, hmode⟩ ht hr hpasid h16 h24 h32 hst hm
  dsimp only
  generalize hb : hostRead s 0 (u64 c.desc 16) 1024 = b
  intro hmagic hversion hlen hcfg hmac
  have hlength : b.length = 1024 := hb ▸ length_hostRead ..
  have hdone := instanceRestore_done hb ht hr hpasid h16 h24 h32 hst hm hmagic hversion hlen hcfg hmac
  obtain ⟨hsq, hcq, hpas, hecdh, hstate⟩ := restored_inst v c.desc b s
  have hv := setInstState_inst_of_ne (v := v) (st := .frozen) (s := restored v c.desc b s) (by rw [hstate, hst]; decide)
  have hsec : (restored v c.desc b s).sec = (nonceUsed (slice b 32 16) s).sec := (restored_same v c.desc b s).sec rfl
  refine ⟨_, congrArg Host.Outcome.next ((mgmtCmd_started instanceRestore hstart (.inl hmode)).trans hdone), ⟨_, rfl⟩, ?_⟩
  simp only [mOk_inst, State.slot, hv, mOk_seqs, setInstState_seqs, mOk_sec, setInstState_sec, State.seqOf]
  refine ⟨trivial, hsq, hcq, hpas, hecdh, fun k => congrArg SlotSeq.frontier (restored_seqOf hlength k), fun k => congrArg SlotSeq.epoch (restored_seqOf hlength k),
    fun i hi => ?_, fun hclosed => ⟨fun k => ?_, ?_⟩, ?_⟩
  · exact (congrArg (·[i]) (restored_seqs ..)).trans ((restoreSlots_seqs_other v b _ _ hi).trans (congrArg (·[i]) (applied_seqs ..)))
  · have h := restored_slot v c.desc b s k
    rw [hclosed, if_neg Bool.false_ne_true, List.getD_nil] at h
    exact (congrArg KeySlot.kind h).trans (restoredSlot_none _)
  · rw [hsec, nonceUsed, hclosed]
    rfl
  · rw [nonceOpen, mOk_sec, setInstState_sec, hsec]
    exact nonceUsed_closed ..

end Sys2Proof.Machine

/-- Settles O16: the blob is of the machine as it stood, and a restore's slots come back only under an open nonce. -/
theorem Sys2Proof.saveAndRestore : Obligations.SaveAndRestore := ⟨saveWritesBlob, restoreNeverReuses⟩
end

section
/-! PROOFS. Roots and their import; the Ingot log and its digests; the service gate. -/

open Sys2Proof Sys2Proof.Machine Sys2Proof.Claims

namespace Sys2Proof.Machine

/-! ### Roots -/

theorem inst_keyWork (s : State) (v : Inst) : (keyWork s).inst v = s.inst v := by
  rw [State.inst, (Frames.keyWork_same (S0 := s) Frames.sub_refl Frames.same_refl).insts rfl]
  rfl

theorem hostRead_congr {s t : State} (space addr n : Nat) (h : t.hostMem = s.hostMem) : hostRead t space addr n = hostRead s space addr n := by
  rw [hostRead, hostRead, h]

theorem rootGetPub_done {c : Cmd} {v : Inst} {d a : Nat} {s : State} (ht : c.target = v.val) (hr : reservedZero c.desc [(8, 2), (16, 12)] = true)
    (ha : u64 c.desc 16 % 64 = 0) (hd : (s.inst v).ecdh = some d) (hk : s.sec.aliasPriv = some a) (hlen : 193 ≤ u32 c.desc 24) :
    rootGetPub c s = mOk c 0 0 0 (hostWrite 0 (u64 c.desc 16) (Ecc.pub d ++ Ecc.sign a (Ecc.pub d ++ leBytes 1 v.val)) s) := by
  rw [rootGetPub, withTarget_inst _ ht, if_neg (by simp [hr]), if_neg (not_misaligned ha)]
  simp only [hd, hk, if_neg (Nat.not_lt.mpr hlen)]

theorem rootImport_done {c : Cmd} {v : Inst} {d : Nat} {r : Bytes} {s : State} (ht : c.target = v.val) (hr : reservedZero c.desc [(8, 2), (16, 12)] = true)
    (hk : u8 c.desc 9 < 8) (ha : u64 c.desc 16 % 64 = 0) (hd : (s.inst v).ecdh = some d) (hlen : 137 ≤ u32 c.desc 24)
    (hroot : importedRoot d (hostRead s 0 (u64 c.desc 16) 137) = some r) :
    rootImport c s = putRoot c v (Fin.ofNat 8 (u8 c.desc 9)) r (keyWork s) := by
  have hread := hostRead_congr 0 (u64 c.desc 16) 137 ((Frames.keyWork_same (S0 := s) Frames.sub_refl Frames.same_refl).hostMem rfl)
  rw [rootImport, withTarget_inst _ ht, if_neg (by simp [hr, hk]), if_neg (not_misaligned ha)]
  simp only [hd, if_neg (Nat.not_lt.mpr hlen), hread, hroot]

theorem slot_modSlot_same (v : Inst) (k : SlotNo) (f : KeySlot → KeySlot) (s : State) : (s.modSlot v k f).slot v k = f (s.slot v k) := by
  rw [State.slot, State.modSlot, inst_modInst_same]
  exact vmod_same _ _ _

theorem slot_modSlot_other {v w : Inst} {k j : SlotNo} (f : KeySlot → KeySlot) (s : State) (h : w ≠ v ∨ j ≠ k) : (s.modSlot v k f).slot w j = s.slot w j := by
  rw [State.slot, State.modSlot]
  by_cases hw : v = w
  · subst hw
    rw [inst_modInst_same]
    exact vmod_other _ _ _ _ fun hj => h.elim (· rfl) (· hj.symm)
  · rw [inst_modInst_other _ _ _ _ hw]
    rfl

theorem slot_bumpGeneration (v w : Inst) (k j : SlotNo) (s : State) :
    (bumpGeneration v k s).slot w j = (s.modSlot v k (fun q => { q with generation := (q.generation + 1) % 256 })).slot w j := by
  rw [State.slot, bumpGeneration, fireMsix_inst]
  rfl

/-- A root put into a slot, which takes the next generation. -/
def rooted (v : Inst) (k : SlotNo) (r : Bytes) (s : State) : State := bumpGeneration v k (s.modSlot v k (fun q => { q with kind := .ff3Gcm, root := r }))

theorem rooted_slot (v : Inst) (k : SlotNo) (r : Bytes) (s : State) :
    (rooted v k r s).slot v k = { s.slot v k with kind := .ff3Gcm, root := r, generation := ((s.slot v k).generation + 1) % 256 }
      ∧ ∀ w j, w ≠ v ∨ j ≠ k → (rooted v k r s).slot w j = s.slot w j := by
  refine ⟨?_, fun w j hne => ?_⟩
  · rw [rooted, slot_bumpGeneration, slot_modSlot_same, slot_modSlot_same]
  · rw [rooted, slot_bumpGeneration, slot_modSlot_other _ _ hne, slot_modSlot_other _ _ hne]

theorem putRoot_empty {c : Cmd} {v : Inst} {k : SlotNo} (r : Bytes) {s : State} (h : (s.slot v k).kind = .empty) :
    putRoot c v k r s = mOk c 0 0 (((s.slot v k).generation + 1) % 256) (rooted v k r s) := by
  rw [putRoot, if_pos h]
  show mOk c 0 0 ((rooted v k r s).slot v k).generation (rooted v k r s) = _
  rw [(rooted_slot v k r s).1]

theorem rootErase_done {c : Cmd} {v : Inst} {s : State} (ht : c.target = v.val) (hr : reservedZero c.desc [(8, 1)] = true) (hk : u8 c.desc 8 < 8)
    (hst : (s.inst v).state ≠ .unassigned) :
    rootErase c s = mOk c 0 0 ((eraseSlot v (Fin.ofNat 8 (u8 c.desc 8)) s).slot v (Fin.ofNat 8 (u8 c.desc 8))).generation
      (eraseSlot v (Fin.ofNat 8 (u8 c.desc 8)) s) := by
  rw [rootErase, withTarget_inst _ ht, if_neg (by simp [hr, hk]), if_neg hst]

end Sys2Proof.Machine

/-- Settles O17: each row runs its command, whose checks pass; an EMPTY slot takes its root at once. -/
theorem Sys2Proof.rootCommands : Obligations.RootCommands := by
  intro cid c v s ht
  refine ⟨?pub, ?import_, ?erase, fun k hidle => congrArg Host.Outcome.next (if_pos hidle)⟩
  case pub =>
    rintro d a ⟨hstart, hmode⟩ hsub hr ha hd hk hlen
    exact congrArg Host.Outcome.next ((subCmd_started rootGetPub hstart hmode hsub).trans (rootGetPub_done ht hr ha hd hk hlen))
  case import_ =>
    rintro d r ⟨hstart, hmode⟩ hsub hr hk ha hd hlen hroot
    have hrun := (subCmd_started (last := 1) rootImport hstart hmode hsub).trans (rootImport_done ht hr hk ha hd hlen hroot)
    have hslot (k : SlotNo) : (keyWork s).slot v k = s.slot v k := by rw [State.slot, inst_keyWork]; rfl
    refine ⟨fun hempty => ?_, fun hfull => ?_⟩
    · rw [putRoot_empty r ((congrArg KeySlot.kind (hslot _)).trans hempty), hslot] at hrun
      obtain ⟨hnew, hothers⟩ := rooted_slot v (Fin.ofNat 8 (u8 c.desc 9)) r (keyWork s)
      rw [hslot] at hnew
      refine ⟨_, congrArg Host.Outcome.next hrun, ⟨_, rfl⟩, ?_, fun w j hne => ?_⟩
      · rw [State.slot, mOk_inst]
        exact hnew
      · rw [State.slot, mOk_inst]
        exact (hothers w j hne).trans (by rw [State.slot, inst_keyWork]; rfl)
    · rw [putRoot, if_neg (fun h => hfull ((congrArg KeySlot.kind (hslot _)).symm.trans h))] at hrun
      exact congrArg Host.Outcome.next hrun
  case erase =>
    rintro ⟨hstart, hmode⟩ hr hk hst
    exact congrArg Host.Outcome.next ((mgmtCmd_started rootErase hstart (.inl hmode)).trans (rootErase_done ht hr hk hst))

namespace Sys2Proof.Machine

/-! ### The Ingot log -/

theorem length_sha384 (m : Bytes) : (Sha.sha384 m).length = 48 := by
  have hblock (hs : List (BitVec 64)) (b : Bytes) (h : hs.length = 8) : (Sha.block hs b).length = 8 := by
    rw [Sha.block, List.length_zipWith, h]
    rfl
  have hrun (l : List Nat) (p : Bytes) (hs : List (BitVec 64)) (h : hs.length = 8) :
      (l.foldl (fun h i => Sha.block h (slice p (128 * i) 128)) hs).length = 8 := by
    induction l generalizing hs with
    | nil => exact h
    | cons i l ih => exact ih _ (hblock _ _ h)
  have hinit : Sha.init.length = 8 := by decide +kernel
  rw [Sha.sha384, List.length_flatten, List.map_map]
  have heach : List.length ∘ (fun x : BitVec 64 => beBytes 8 x.toNat) = fun _ => 8 := funext fun x => length_beBytes 8 _
  rw [heach, List.map_const', List.sum_replicate_nat, List.length_take, hrun _ _ _ hinit]
  rfl

theorem length_padTo (n : Nat) (bs : Bytes) : (padTo n bs).length = n := by
  rw [padTo, List.length_append, List.length_take, List.length_replicate]
  omega

/-- Bytes 240 to 287 of an entry after the first are the digest of the one before. -/
theorem slice_entryHead {s : State} (kind scope : Nat) (nonce rest : Bytes) (h : s.sec.ingot.isEmpty = false) :
    slice (entryHead s kind scope nonce ++ rest) 240 48 = Sha.sha384 (ingotEntry s (ingotHead s)) := by
  have hfront (front prev : Bytes) (hf : front.length = 240) (hp : prev.length = 48) : slice (front ++ prev ++ rest) 240 48 = prev := by
    rw [slice_eq_take (by simp only [List.length_append]; omega), List.append_assoc, List.drop_left' hf, List.take_left' hp]
  rw [entryHead, h]
  refine hfront _ _ ?_ (length_sha384 _)
  simp only [List.length_append, length_leBytes, length_padTo, length_sha384, zeros, List.length_replicate]

/-- The log after an entry: the oldest leaves when 512 stand. -/
theorem writeEntry_ingot {kind scope : Nat} {nonce : Bytes} {s : State} {k i : Nat} {b : Bytes} (hk : deviceKey s = some k)
    (hlast : s.sec.ingot.getLast? = some (i, b)) :
    writeEntry kind scope nonce s = { s with sec := { s.sec with ingot := s.sec.ingot.drop (s.sec.ingot.length + 1 - 512)
      ++ [(i + 1, entryHead s kind scope nonce ++ Ecc.sign k (entryHead s kind scope nonce))] } } := by
  have hne : s.sec.ingot ≠ [] := by
    intro h
    rw [h] at hlast
    cases hlast
  have hle : s.sec.ingot.length + 1 - 512 ≤ s.sec.ingot.length := by
    have := List.length_pos_iff.mpr hne
    omega
  have hnext : ingotNext s = i + 1 := by rw [ingotNext, hlast]
  simp only [writeEntry, hk, hnext, List.length_append, List.length_singleton, List.drop_append_of_le_length hle]

theorem logEntriesChain : Claims.LogEntriesChain := by
  intro kind scope nonce s k i b hk hlast hle hlen
  have hhead : ingotHead s = i := by rw [ingotHead, hlast]
  have hempty : s.sec.ingot.isEmpty = false := by
    rw [List.isEmpty_eq_false_iff]
    intro h
    rw [h] at hlast
    cases hlast
  have hold : ∀ e ∈ s.sec.ingot.drop (s.sec.ingot.length + 1 - 512), e.1 ≤ i := fun e he => hle e (List.mem_of_mem_drop he)
  dsimp only
  rw [writeEntry_ingot hk hlast]
  refine ⟨?_, ?_, ?_, fun e he => ?_, rfl⟩
  · simp [ingotHead]
  · have hnone : (s.sec.ingot.drop (s.sec.ingot.length + 1 - 512)).find? (fun e => e.1 == i + 1) = none := by
      rw [List.find?_eq_none]
      intro e he
      have := hold e he
      simp only [beq_iff_eq]
      omega
    rw [ingotEntry, List.find?_append, hnone, ← hhead]
    simp [slice_entryHead kind scope nonce _ hempty, hhead]
  · rw [List.length_append, List.length_drop, List.length_singleton]
    omega
  · rcases List.mem_append.mp he with he | he
    · exact Nat.le_succ_of_le (hold e he)
    · exact Nat.le_of_eq (congrArg Prod.fst (List.mem_singleton.mp he))

theorem logReadAnswers : Claims.LogReadAnswers := by
  intro cid c s hstart hr ht ha
  have hform : ¬ (!reservedZero c.desc logUsed || !noTarget c) = true := not_formFault ht hr
  have hpewter : s.glb.mode ≠ .pewter ∨ pewterServes 0xC0 = true := .inr rfl
  constructor
  · intro count hsub hcount hlow hhigh first found hfits
    subst hcount
    have hrange : ¬ (!reservedZero c.desc logUsed || !noTarget c || !(decide (1 ≤ u16 c.desc 16) && decide (u16 c.desc 16 ≤ 512))) = true := by
      rw [Bool.or_eq_true, not_or]
      exact ⟨hform, by simp [hlow, hhigh]⟩
    refine congrArg Host.Outcome.next ((mgmtCmd_started _ hstart hpewter).trans ((if_pos hsub).trans ?_))
    exact (if_neg hrange).trans ((if_neg (not_misaligned ha)).trans (if_neg (Nat.not_lt.mpr hfits)))
  · intro hsub chain hfits
    have hrun : subCmd cid 0xC0 1 1 logReadCertificates s = logReadCertificates c s := (mgmtCmd_started _ hstart hpewter).trans (if_pos hsub)
    refine congrArg Host.Outcome.next (hrun.trans ?_)
    simp only [logReadCertificates, if_neg hform, if_neg (not_misaligned ha)]
    exact if_neg (Nat.not_lt.mpr hfits)

end Sys2Proof.Machine

/-- Settles O20: the new entry is the last of the log, over the digest of the one before. -/
theorem Sys2Proof.ingotLog : Obligations.IngotLog := ⟨logReadAnswers, logEntriesChain⟩

namespace Sys2Proof.Machine

/-! ### The service gate -/

theorem writeEntry_sec (kind scope : Nat) (nonce : Bytes) (s : State) :
    (writeEntry kind scope nonce s).sec = { s.sec with ingot := (writeEntry kind scope nonce s).sec.ingot } := by
  cases hk : deviceKey s <;> simp only [writeEntry, hk]

theorem serviceChallenge_done {c : Cmd} {s : State} (ht : c.target = 0xFFFF) (ha : u64 c.desc 16 % 64 = 0)
    (hr : reservedZero c.desc [(8, 4), (16, 8), (24, 4)] = true) (hlow : 0 < u32 c.desc 8) (hhigh : u32 c.desc 8 < 8) (hm : s.glb.mode ≠ .service)
    (hopen : gateLocked s = false) (hlen : 64 ≤ u32 c.desc 24) :
    let bytes := challengeBytes s (u32 c.desc 8) (draw s 32)
    serviceChallenge c s = mOk c 0 0 0 (hostWrite 0 (u64 c.desc 16) bytes
      { drawn 32 s with sec := { s.sec with challenge := some { scope := u32 c.desc 8, bytes := bytes, issued := s.glb.time } } }) := by
  have hform : ¬ (!reservedZero c.desc [(8, 4), (16, 8), (24, 4)] || !noTarget c || u32 c.desc 8 = 0 || 8 ≤ u32 c.desc 8) = true := by
    simp [hr, (noTarget_iff c).mpr ht]
    omega
  exact (if_neg hform).trans ((if_neg (not_misaligned ha)).trans ((if_neg (by simp [hm, hopen])).trans (if_neg (Nat.not_lt.mpr hlen))))

theorem gateReady_resets {s : State} (h : gateReady s = true) : s.glb.mode.resets = true := by
  simp only [gateReady, Bool.and_eq_true, Bool.or_eq_true, beq_iff_eq] at h
  rcases h.1 with h | ⟨h, -⟩ <;> rw [h] <;> rfl

theorem openService_fields (scope : Nat) (s : State) :
    (openService scope s).glb.mode = .service ∧ (openService scope s).sec = { s.sec with gateOpen := true, scope := scope, challenge := none } := by
  have h := Frames.raiseEv_same (x0 := .serviceOpen) (x1 := 0x1) (x2 := noRes) (x3 := noInst) (x4 := leBytes 4 scope)
    (S5 := setMode .service { s with sec := { s.sec with gateOpen := true, scope := scope, challenge := none } }) Frames.sub_refl Frames.same_refl
  refine ⟨?_, (h.sec rfl).trans (setMode_sec ..)⟩
  rw [openService, h.glb rfl, setMode_mode]

/-- The part that a response of scope RMA ends. -/
def returned (c : Cmd) (ch : Challenge) (s : State) : State :=
  let entered := mOk c 0 0 0 (writeEntry 2 ch.scope (slice ch.bytes 32 8) s)
  { entered with sec := { entered.sec with lifecycle := 4, challenge := none } }

/-- A response that is served: it grants, or it fails. -/
theorem serviceResponse_served {c : Cmd} {s : State} {ch : Challenge} (ht : c.target = 0xFFFF) (ha : u64 c.desc 16 % 64 = 0)
    (hr : reservedZero c.desc [(16, 8), (24, 4)] = true) (hlen : 193 ≤ u32 c.desc 24) (hready : gateReady s = true) (hch : s.sec.challenge = some ch) :
    serviceResponse c s =
      let key := (hostRead s 0 (u64 c.desc 16) 193).take 97
      let entered := mOk c 0 0 0 (writeEntry 2 ch.scope (slice ch.bytes 32 8) s)
      if mayGrant s ch.scope key && Ecc.verify key ch.bytes ((hostRead s 0 (u64 c.desc 16) 193).drop 97) then
        if ch.scope.testBit 2 then warmReset Config.rmaResetCause.val (returned c ch s)
        else openService ch.scope entered
      else serviceFail c s := by
  simp only [serviceResponse, if_neg (not_formFault ht hr), if_neg (not_misaligned ha), if_neg (Nat.not_lt.mpr hlen), hready, hch]
  cases mayGrant s ch.scope ((hostRead s 0 (u64 c.desc 16) 193).take 97) with
  | false => rfl
  | true => cases Ecc.verify ((hostRead s 0 (u64 c.desc 16) 193).take 97) ch.bytes ((hostRead s 0 (u64 c.desc 16) 193).drop 97) <;> rfl

theorem returned_glb (c : Cmd) (ch : Challenge) (s : State) : (returned c ch s).glb = s.glb := by
  show (mOk c 0 0 0 (writeEntry 2 ch.scope (slice ch.bytes 32 8) s)).glb = s.glb
  rw [mOk_glb, writeEntry]
  split <;> rfl

theorem returned_sec (c : Cmd) (ch : Challenge) (s : State) :
    (returned c ch s).sec.lifecycle = 4 ∧ (returned c ch s).sec.ingot = (writeEntry 2 ch.scope (slice ch.bytes 32 8) s).sec.ingot := by
  refine ⟨rfl, ?_⟩
  show (mOk c 0 0 0 (writeEntry 2 ch.scope (slice ch.bytes 32 8) s)).sec.ingot = _
  rw [mOk_sec]

end Sys2Proof.Machine

/-- Settles O21: a response that is served opens the gate, returns the part, or counts as failed. -/
theorem Sys2Proof.serviceGate : Obligations.ServiceGate := by
  intro cid c s ht ha
  refine ⟨?challenge, ?response, rfl⟩
  case challenge =>
    rintro ⟨hstart, hmode⟩ hr hlow hhigh hm hopen hlen
    exact congrArg Host.Outcome.next ((mgmtCmd_started serviceChallenge hstart (.inl hmode)).trans (serviceChallenge_done ht ha hr hlow hhigh hm hopen hlen))
  case response =>
    rintro ch ⟨hstart, hmode⟩ hr hlen hready hch
    have hrun := (mgmtCmd_started serviceResponse hstart (.inl hmode)).trans (serviceResponse_served ht ha hr hlen hready hch)
    have hsec : (mOk c 0 0 0 (writeEntry 2 ch.scope (slice ch.bytes 32 8) s)).sec
        = { s.sec with ingot := (writeEntry 2 ch.scope (slice ch.bytes 32 8) s).sec.ingot } := (mOk_sec ..).trans (writeEntry_sec ..)
    refine ⟨fun hgood hscope => ?_, fun hgood hscope => ?_, fun hbad => ?_⟩
    · rw [if_pos hgood, hscope, if_neg Bool.false_ne_true] at hrun
      refine ⟨_, congrArg Host.Outcome.next hrun, rfl, ?_⟩
      obtain ⟨hmode', hsec'⟩ := openService_fields ch.scope (mOk c 0 0 0 (writeEntry 2 ch.scope (slice ch.bytes 32 8) s))
      rw [hsec', hsec]
      exact ⟨hmode', rfl, rfl, rfl, rfl, rfl⟩
    · rw [if_pos hgood, if_pos hscope] at hrun
      refine ⟨_, congrArg Host.Outcome.next hrun, ?_⟩
      obtain ⟨hmode', hkind, -, -, -, -, -, -, -, -, -, -, hgate, hvoid, -, -, hlife, -, hingot, -⟩ :=
        warmReset_taken Config.rmaResetCause.val (s := returned c ch s) (by rw [returned_glb]; exact gateReady_resets hready)
      obtain ⟨hfour, hentry⟩ := returned_sec c ch s
      exact ⟨hmode', hkind, hlife.trans hfour, hgate, hvoid, hingot.trans hentry⟩
    · rw [if_neg (by rw [hbad]; exact Bool.false_ne_true)] at hrun
      exact congrArg Host.Outcome.next hrun
end

section
/-! PROOFS. Firmware: staging and activation run the branch that their conditions name, and an update of the image directory writes the copy
that is not in force. -/

open Sys2Proof Sys2Proof.Machine Sys2Proof.Claims

namespace Sys2Proof.Machine

theorem firmwareStaging : Claims.FirmwareStaging := by
  intro cid c s ⟨hstart, hmode⟩ hr ht hopen
  have hform := not_formFault ht hr
  refine ⟨?write, ?finish, ?abandon⟩
  case write =>
    intro hsub hoff hoffAl hlenAl hlen hend ha hfirst
    have hbad : ¬ (!reservedZero c.desc [(8, 1), (12, 4), (16, 8), (24, 4)] || !noTarget c || u32 c.desc 12 % 4096 != 0 || u32 c.desc 24 % 4096 != 0
        || 2 ^ 20 < u32 c.desc 24 || 2 ^ 24 ≤ u32 c.desc 12 || 2 ^ 24 < u32 c.desc 12 + u32 c.desc 24) = true := by
      simp [hr, (noTarget_iff c).mpr ht, hoffAl, hlenAl]
      omega
    have hgo : ¬ (!stageOpen s || (!s.sec.staging && u32 c.desc 12 != 0)) = true := by
      rcases hfirst with h | h <;> simp [hopen, h]
    refine ⟨_, congrArg Host.Outcome.next ((subCmd_started fwStageWrite hstart hmode hsub).trans
      ((if_neg hbad).trans ((if_neg (not_misaligned ha)).trans (if_neg hgo)))), ⟨_, rfl⟩, ?_⟩
    rw [mOk_sec, mOk_glb, mOk_insts]
    refine ⟨rfl, rfl, fun hzero => ⟨by simp [hzero], if_pos hzero⟩, fun hne => ⟨by simp [hne], if_neg hne⟩, rfl, rfl, rfl, rfl, rfl⟩
  case finish =>
    intro hsub hstaging
    have hrun := subCmd_started (last := 2) fwStageFinish hstart hmode hsub
    have hgo : ¬ (!stageOpen s || !s.sec.staging) = true := by simp [hopen, hstaging]
    refine ⟨fun hok => ?_, fun n hn => ?_⟩
    · refine congrArg Host.Outcome.next (hrun.trans ?_)
      simp only [fwStageFinish, if_neg hform, if_neg hgo, hok]
    · refine congrArg Host.Outcome.next (hrun.trans ?_)
      simp only [fwStageFinish, if_neg hform, if_neg hgo, hn]
  case abandon =>
    intro hsub
    exact congrArg Host.Outcome.next ((subCmd_started fwStageAbandon hstart hmode hsub).trans ((if_neg hform).trans (if_neg (by simp [hopen]))))

theorem activateWhen_done {c : Cmd} {ok : Bool} {s : State} (f : State → State) (ht : c.target = 0xFFFF) (hr : reservedZero c.desc [(8, 1)] = true)
    (hok : ok = true) : activateWhen c ok f s = f s :=
  (if_neg (not_formFault ht hr)).trans (if_neg (by rw [hok]; decide))

/-- The directory's trial field is a change of the directory alone. -/
theorem setTrial_same (t : Nat) (s : State) : Frames.Same 0x8 s (setTrial t s) ∧ (setTrial t s).sec.ingot = s.sec.ingot := by
  unfold setTrial writeDirRec
  extract_lets r
  clear_value r
  split
  · exact ⟨Frames.set_8 rfl Frames.same_refl, rfl⟩
  · exact ⟨Frames.set_8 rfl Frames.same_refl, rfl⟩
  · split <;> exact ⟨Frames.set_8 rfl Frames.same_refl, rfl⟩

theorem firmwareActivation : Claims.FirmwareActivation := by
  intro cid c s ⟨hstart, hmode⟩ hr ht
  refine ⟨fun hsub hstaged => ?_, fun hsub hstaged hidle => ?_, fun hsub htrial hpewter hbank => ?_, fun hsub htrial => ?_⟩
  · exact congrArg Host.Outcome.next ((subCmd_started fwActivateNext hstart hmode hsub).trans (activateWhen_done _ ht hr hstaged))
  · have hgo : (s.sec.staged && (s.glb.mode == .idle || (s.glb.mode == .threaded && !s.streams.any (fun x => !x.ended)))) = true := by
      rcases hidle with h | ⟨h, hno⟩
      · simp [hstaged, h]
      · rw [hno]
        simp [hstaged, h]
    have hresets : (mOk c 0 0 0 (setTrial 1 s)).glb.mode.resets = true := by
      rw [mOk_glb, (setTrial_same 1 s).1.glb rfl]
      rcases hidle with h | ⟨h, -⟩ <;> rw [h] <;> rfl
    obtain ⟨hreset, hkind, -, -, -, -, -, -, -, -, -, -, -, -, -, -, -, -, hingot, hdir0, hdir1, -⟩ := warmReset_taken 3 hresets
    rw [mOk_sec] at hingot hdir0 hdir1
    exact ⟨_, congrArg Host.Outcome.next ((subCmd_started fwActivateNow hstart hmode hsub).trans (activateWhen_done _ ht hr hgo)), rfl, hreset, hkind, hdir0, hdir1,
      hingot.trans (setTrial_same 1 s).2⟩
  · exact congrArg Host.Outcome.next ((subCmd_started fwActivateCommitSvn hstart hmode hsub).trans (activateWhen_done _ ht hr (by simp [htrial, hpewter, hbank])))
  · exact congrArg Host.Outcome.next ((subCmd_started fwActivateCancel hstart hmode hsub).trans (activateWhen_done _ ht hr (by simp [htrial])))

theorem directoryUpdateTakes : Claims.DirectoryUpdateTakes := by
  intro t s hseq
  have hno (n : Nat) : ¬n + 1 < n := by omega
  have hmod : ((dirNow s).seq + 1) % 2 ^ 32 = (dirNow s).seq + 1 := Nat.mod_eq_of_lt (by omega)
  unfold setTrial writeDirRec
  rw [hmod]
  cases h0 : s.sec.dir0 with
  | none => cases h1 : s.sec.dir1 <;> simp [dirNow, h0, h1, hno]
  | some a =>
    cases h1 : s.sec.dir1 with
    | none => simp [dirNow, h0, h1]
    | some b =>
      by_cases hlt : a.seq < b.seq
      · simp [dirNow, h0, h1, hlt, hno]
      · simp [dirNow, h0, h1, hlt]

end Sys2Proof.Machine

/-- Settles O22: each row runs its command; of two copies of the directory the update takes the older. -/
theorem Sys2Proof.firmwareUpdates : Obligations.FirmwareUpdates := ⟨firmwareStaging, firmwareActivation, directoryUpdateTakes⟩
end

section

/-! PROOFS. The attempts of a block end within nine (R20, R21), the best candidate of a window is chosen (R150, R153), and a loop stays
within its limit (R184, R185, R189). -/

open Sys2Proof Sys2Proof.Machine Sys2Proof.Claims

namespace Sys2Proof.Machine

/-! ### Attempts -/

/-- What is left of a block after a failed attempt. -/
def triesLeft (n : Nat) (t : Option Tries) (others : Bool) : Option Tries :=
  t.bind (fun t => match retryAfter t n others with
    | .again u | .other u | .before u => some u
    | .lost => none)

/-- The engine that the attempts are on, with no more than three made there. -/
def Tries.OnEngine (t : Tries) (n : Nat) : Prop := (t.on = none ∨ t.on = some n) ∧ 1 ≤ t.attempt ∧ t.attempt ≤ 3

/-- The most failures that a block can have yet before it is lost. -/
def Tries.most (t : Tries) : Nat :=
  if t.repeated then 4 - t.attempt else if t.first.isSome then 7 - t.attempt else 10 - t.attempt

/-- The fewest failures that lose a block. -/
def Tries.fewest (t : Tries) : Nat := if t.repeated then 4 - t.attempt else 7 - t.attempt

theorem Tries.here_of_onEngine {t : Tries} {n : Nat} (h : t.OnEngine n) : t.here n = t := by
  obtain ⟨hon | hon, -⟩ := h <;> simp [Tries.here, hon]

/-- A failed attempt loses a block that has one failure left, and otherwise takes one of the most and at most one of the fewest. -/
theorem triesLeft_of_onEngine {t : Tries} {n : Nat} (h : t.OnEngine n) (others : Bool) :
    (triesLeft n (some t) others = none ∧ t.fewest = 1)
      ∨ ∃ u, triesLeft n (some t) others = some u ∧ u.OnEngine n ∧ u.most + 1 ≤ t.most ∧ t.fewest ≤ u.fewest + 1 := by
  have hhere := Tries.here_of_onEngine h
  obtain ⟨-, h1, h3⟩ := h
  unfold triesLeft retryAfter
  simp only [hhere, Option.bind_some]
  by_cases ha : t.attempt < 3
  · refine .inr ⟨{ t with attempt := t.attempt + 1, on := some n }, by rw [if_pos ha], ⟨.inr rfl, by simp, ha⟩, ?_, ?_⟩
    · simp only [Tries.most]; (repeat' split) <;> omega
    · simp only [Tries.fewest]; (repeat' split) <;> omega
  · have h3' : t.attempt = 3 := by omega
    rw [if_neg ha]
    cases hr : t.repeated with
    | true => exact .inl ⟨by simp, by simp [Tries.fewest, hr, h3']⟩
    | false =>
      by_cases hf : (t.first.isNone && others) = true
      · refine .inr ⟨{ first := some n }, by simp [hf], ⟨.inl rfl, by simp, by simp⟩, ?_, by simp [Tries.fewest, hr, h3']⟩
        have hn : t.first = none := by simpa using (Bool.and_eq_true_iff.mp hf).1
        simp [Tries.most, hr, h3', hn]
      · refine .inr ⟨{ repeated := true }, by simp [hf], ⟨.inl rfl, by simp, by simp⟩, ?_, by simp [Tries.fewest, hr, h3']⟩
        simp only [Tries.most, hr, h3', Bool.false_eq_true, if_false, if_true]; (repeat' split) <;> decide

theorem foldl_triesLeft_none (n : Nat) (l : List Bool) : l.foldl (triesLeft n) none = none := by
  induction l with
  | nil => rfl
  | cons a l ih => exact ih

/-- A block with attempts left on an engine is lost by as many failures as it can have, and by no fewer than it needs. -/
theorem foldl_triesLeft {n : Nat} (l : List Bool) : ∀ {t : Tries}, t.OnEngine n →
    (t.most ≤ l.length → l.foldl (triesLeft n) (some t) = none)
      ∧ (l.length < t.fewest → (l.foldl (triesLeft n) (some t)).isSome = true) := by
  induction l with
  | nil =>
    intro t ⟨_, h1, h3⟩
    refine ⟨fun h => ?_, fun _ => rfl⟩
    have : 1 ≤ t.most := by simp only [Tries.most]; (repeat' split) <;> omega
    simp at h; omega
  | cons a l ih =>
    intro t ht
    simp only [List.foldl_cons, List.length_cons]
    obtain ⟨hlost, hfew⟩ | ⟨u, hu, huOn, hmost, hfew⟩ := triesLeft_of_onEngine ht a
    · exact ⟨fun _ => by rw [hlost, foldl_triesLeft_none], fun h => by omega⟩
    · rw [hu]
      exact ⟨fun h => (ih huOn).1 (by omega), fun h => (ih huOn).2 (by omega)⟩

/-! ### The candidates of a window -/

/-- A candidate is at least as good as another: at a lower distance, or at the same one nearer to the expected position, the earlier
one of two as near. -/
def NoWorse (e : Int) (b a : Int × Nat) : Prop :=
  b.2 ≤ a.2 ∧ (b.2 = a.2 → (b.1 - e).natAbs ≤ (a.1 - e).natAbs ∧ ((b.1 - e).natAbs = (a.1 - e).natAbs → b.1 ≤ a.1))

/-- Of a candidate and the best behind it the better one is the best of both. -/
theorem bestCand_cons_some {e : Int} {a b : Int × Nat} {l : List (Int × Nat)} (h : bestCand e l = some b) :
    (bestCand e (a :: l) = some a ∧ NoWorse e a b) ∨ (bestCand e (a :: l) = some b ∧ NoWorse e b a) := by
  simp only [bestCand, h, NoWorse, Bool.or_eq_true, Bool.and_eq_true, decide_eq_true_eq]
  split
  · exact .inr ⟨rfl, by omega⟩
  · exact .inl ⟨rfl, by omega⟩

theorem NoWorse.trans {e : Int} {a b c : Int × Nat} (h : NoWorse e a b) (h' : NoWorse e b c) : NoWorse e a c := by
  unfold NoWorse at *; omega

theorem NoWorse.refl (e : Int) (a : Int × Nat) : NoWorse e a a := by unfold NoWorse; omega

theorem bestCand_eq_none_iff (e : Int) (l : List (Int × Nat)) : bestCand e l = none ↔ l = [] := by
  cases l with
  | nil => simp [bestCand]
  | cons a l =>
    simp only [reduceCtorEq, iff_false]
    cases h : bestCand e l with
    | none => simp [bestCand, h]
    | some b => obtain ⟨h, -⟩ | ⟨h, -⟩ := bestCand_cons_some (a := a) h <;> simp [h]

theorem bestCand_best (e : Int) : ∀ (l : List (Int × Nat)) {b}, bestCand e l = some b → b ∈ l ∧ ∀ a ∈ l, NoWorse e b a
  | [], _, h => by simp [bestCand] at h
  | a :: l, b, h => by
    cases hl : bestCand e l with
    | none =>
      obtain rfl := (bestCand_eq_none_iff e l).mp hl
      obtain rfl : a = b := by simpa [bestCand] using h
      exact ⟨by simp, by simp [NoWorse.refl]⟩
    | some d =>
      obtain ⟨hd, hbest⟩ := bestCand_best e l hl
      obtain ⟨h', hw⟩ | ⟨h', hw⟩ := bestCand_cons_some (a := a) hl <;> obtain rfl := Option.some.inj (h'.symm.trans h)
      · exact ⟨by simp, List.forall_mem_cons.mpr ⟨.refl e _, fun c hc => hw.trans (hbest c hc)⟩⟩
      · exact ⟨by simp [hd], List.forall_mem_cons.mpr ⟨hw, hbest⟩⟩

/-! ### The control engine -/

theorem clampI_bounds {lo hi : Int} (h : lo ≤ hi) (v : Int) : lo ≤ clampI lo hi v ∧ clampI lo hi v ≤ hi := by
  unfold clampI; omega

theorem sat16_bounds (x : Int) : -32768 ≤ sat16 x ∧ sat16 x ≤ 32767 := clampI_bounds (by decide) x

/-- The share of a whole, rounded either way, is between 0 and the whole. -/
theorem rounded_share_bounds (n a : Nat) {r d : Nat} (h : r < d) : 0 ≤ rounded n (a * r : Nat) d ∧ rounded n (a * r : Nat) d ≤ a := by
  have hle : a * r ≤ a * d := Nat.mul_le_mul_left a (Nat.le_of_lt h)
  have hq : a * r / d ≤ a := Nat.div_le_of_le_mul (by rw [Nat.mul_comm d]; exact hle)
  have hdiv : d * (a * r / d) + a * r % d = a * r := Nat.div_add_mod _ _
  have hup : a * r % d ≠ 0 → a * r / d + 1 ≤ a := by
    intro hm
    refine Decidable.byContradiction fun hc => ?_
    have : a * r / d = a := by omega
    rw [this, Nat.mul_comm d] at hdiv
    omega
  have hqi : ((a * r : Nat) : Int) / (d : Int) = ((a * r / d : Nat) : Int) := (Int.natCast_ediv _ _).symm
  unfold rounded
  rw [hqi, ← Int.natCast_emod]
  clear hqi
  generalize a * r / d = q at *
  split
  next hc =>
    have := hup (by exact_mod_cast hc.1)
    omega
  next => omega

theorem limitNow_bounds (l : Loop) : 0 ≤ l.limitNow ∧ l.limitNow ≤ fld l.lim 0 15 := by
  unfold Loop.limitNow
  dsimp only
  split
  · exact ⟨by omega, Int.le_refl _⟩
  · exact rounded_share_bounds 5 _ (by omega)

theorem sectionSample_w1_bounds (c : Coefs) (q : Section) (x : Int) :
    -32768 ≤ (sectionSample c q x).2.1.w1 ∧ (sectionSample c q x).2.1.w1 ≤ 32767 := by
  unfold sectionSample
  split
  · exact ⟨by simp, by simp⟩
  · exact sat16_bounds _

end Sys2Proof.Machine

/-- Settles O46: each failure takes one of the at most nine that a block can have, and at most one of the at least six that lose it. -/
theorem Sys2Proof.attemptsEndInNine : Obligations.AttemptsEndInNine := by
  intro n l
  have h := foldl_triesLeft l (t := {}) (n := n) ⟨.inl rfl, by decide, by decide⟩
  exact h

/-- Settles O41: of a candidate and the best behind it the better one is kept. -/
theorem Sys2Proof.bestMarkIsChosen : Obligations.BestMarkIsChosen :=
  fun e cands => ⟨bestCand_eq_none_iff e cands, fun _ h => bestCand_best e cands h⟩

/-- Settles O36: the output is clamped to the limit in force, which a ramp never raises, and the states saturate. -/
theorem Sys2Proof.loopOutputBounded : Obligations.LoopOutputBounded := by
  intro l x
  obtain ⟨hpos, hlim⟩ := limitNow_bounds { l with ramp := satInc 0xFFFF l.ramp }
  have hle := Int.le_trans (Int.neg_le_neg hpos) hpos
  exact ⟨Int.le_trans (clampI_bounds hle _).2 hlim, Int.le_trans (Int.neg_le_neg hlim) (clampI_bounds hle _).1,
    (sectionSample_w1_bounds _ _ _).1, (sectionSample_w1_bounds _ _ _).2,
    (sectionSample_w1_bounds _ _ _).1, (sectionSample_w1_bounds _ _ _).2, rfl, rfl⟩

end

section

/-! PROOFS. Loops are written, enabled and sampled (R183 to R191, R198), the motion link has its periods (R194 to R198), and the tape is
stopped, braked and ramped (R134, R189, R192, R199). -/

open Sys2Proof Sys2Proof.Machine Sys2Proof.Claims

namespace Sys2Proof.Machine

/-! ### What the loops change of the motion state -/

/-- Motion states that differ in the loops, their queue and what a start of the tension loop sets. -/
def LoopsOnly (a b : Mot) : Prop :=
  ∃ lp q ts n d st, b = { a with loop := lp, queue := q, tStart := ts, tSamples := n, delta := d, state := st }

theorem LoopsOnly.refl (a : Mot) : LoopsOnly a a := ⟨_, _, _, _, _, _, rfl⟩

theorem LoopsOnly.trans {a b c : Mot} (h : LoopsOnly a b) (h' : LoopsOnly b c) : LoopsOnly a c := by
  obtain ⟨lp, q, ts, n, d, st, rfl⟩ := h
  obtain ⟨lp, q, ts, n, d, st, rfl⟩ := h'
  exact ⟨lp, q, ts, n, d, st, rfl⟩

theorem loopsOnly_modLoop (s : State) (l : Fin 4) (f : Loop → Loop) : LoopsOnly s.mot (s.modLoop l f).mot := ⟨_, _, _, _, _, _, rfl⟩

theorem LoopsOnly.loopEn {a b : Mot} (h : LoopsOnly a b) : b.loopEn = a.loopEn := by
  obtain ⟨_, _, _, _, _, _, rfl⟩ := h; rfl

theorem LoopsOnly.brake {a b : Mot} (h : LoopsOnly a b) : b.brake = a.brake ∧ b.brakeSent = a.brakeSent := by
  obtain ⟨_, _, _, _, _, _, rfl⟩ := h; exact ⟨rfl, rfl⟩

theorem loopsOnly_foldl {α : Type} {f : State → α → State} (hf : ∀ s x, LoopsOnly s.mot (f s x).mot) (l : List α) (s : State) :
    LoopsOnly s.mot (l.foldl f s).mot := by
  induction l generalizing s with
  | nil => exact .refl _
  | cons x l ih => exact (hf s x).trans (ih _)

theorem loop_modLoop_same (s : State) (l : Fin 4) (f : Loop → Loop) : (s.modLoop l f).mot.loop[l] = f s.mot.loop[l] := vmod_same _ _ _

theorem loop_modLoop_other (s : State) {k l : Fin 4} (f : Loop → Loop) (h : k ≠ l) : (s.modLoop k f).mot.loop[l] = s.mot.loop[l] :=
  vmod_other _ _ _ _ h

theorem loop_foldl_modLoop_other {α : Type} (g : α → Loop → Loop) {k l : Fin 4} (h : k ≠ l) (qs : List α) (s : State) :
    (qs.foldl (fun s q => s.modLoop k (g q)) s).mot.loop[l] = s.mot.loop[l] := by
  induction qs generalizing s with
  | nil => rfl
  | cons q qs ih => exact (ih _).trans (loop_modLoop_other s _ h)

theorem loopsOnly_flushLoop (l : Fin 4) (s : State) : LoopsOnly s.mot (flushLoop l s).mot := by
  unfold flushLoop
  extract_lets qs u _ v
  have hv : LoopsOnly s.mot v.mot := (loopsOnly_foldl (fun s _ => loopsOnly_modLoop s l _) qs s).trans ⟨_, _, _, _, _, _, rfl⟩
  split
  · exact hv.trans (loopsOnly_modLoop _ _ _)
  · exact hv

theorem loop_flushLoop_other {k l : Fin 4} (h : k ≠ l) (s : State) : (flushLoop k s).mot.loop[l] = s.mot.loop[l] := by
  unfold flushLoop
  extract_lets qs u _ v
  have hv : v.mot.loop[l] = s.mot.loop[l] := loop_foldl_modLoop_other _ h qs s
  split
  · exact (loop_modLoop_other v _ h).trans hv
  · exact hv

theorem loopsOnly_startLoop (l : Fin 4) (s : State) : LoopsOnly s.mot (startLoop l s).mot := by
  unfold startLoop
  dsimp only
  split
  · exact ⟨_, _, _, _, _, _, rfl⟩
  · exact loopsOnly_modLoop _ _ _

theorem loop_startLoop (k : Fin 4) (s : State) :
    (startLoop k s).mot.loop = (s.modLoop k (fun x => { x with sec0 := {}, sec1 := {}, ramp := 0, output := 0 })).mot.loop := by
  unfold startLoop
  dsimp only
  split <;> rfl

/-! ### The loop-enable field -/

/-- A loop as the enable field has it. -/
def enableLoop (mask : BitVec 4) (s : State) (l : Fin 4) : State :=
  if mask.getLsbD l.val && !s.loopOn l then startLoop l s
  else if !mask.getLsbD l.val && s.loopOn l then (flushLoop l s).modLoop l (fun x => { x with output := 0 })
  else s

/-- What the enable field makes of a loop `a` that is on or off. -/
def LoopEnabled (want on : Bool) (a b : Loop) : Prop :=
  (want = true → on = false → b = { a with sec0 := {}, sec1 := {}, ramp := 0, output := 0 })
    ∧ (want = false → on = true → b.output = 0) ∧ (want = on → b = a)

theorem loopsOnly_enableLoop (mask : BitVec 4) (s : State) (l : Fin 4) : LoopsOnly s.mot (enableLoop mask s l).mot := by
  unfold enableLoop
  split
  · exact loopsOnly_startLoop l s
  · split
    · exact (loopsOnly_flushLoop l s).trans (loopsOnly_modLoop _ _ _)
    · exact .refl _

theorem loopOn_of_loopsOnly {s t : State} (h : LoopsOnly s.mot t.mot) (l : Fin 4) : t.loopOn l = s.loopOn l := by
  unfold State.loopOn; rw [h.loopEn]

theorem loop_enableLoop_other (mask : BitVec 4) (s : State) {k l : Fin 4} (h : k ≠ l) :
    (enableLoop mask s k).mot.loop[l] = s.mot.loop[l] := by
  unfold enableLoop
  split
  · exact (congrArg (·[l]) (loop_startLoop k s)).trans (loop_modLoop_other s _ h)
  · split
    · exact (loop_modLoop_other _ _ h).trans (loop_flushLoop_other h s)
    · rfl

theorem loop_enableLoop_same (mask : BitVec 4) (s : State) (l : Fin 4) :
    LoopEnabled (mask.getLsbD l.val) (s.loopOn l) s.mot.loop[l] (enableLoop mask s l).mot.loop[l] := by
  unfold enableLoop LoopEnabled
  generalize mask.getLsbD l.val = want
  cases want <;> cases ho : s.loopOn l <;> simp only [Bool.not_true, Bool.not_false, Bool.and_true, Bool.and_false, Bool.false_eq_true,
    if_true, if_false, reduceCtorEq, false_implies, true_implies, implies_true, and_true, true_and]
  · exact congrArg Loop.output (loop_modLoop_same _ l _)
  · exact (congrArg (·[l]) (loop_startLoop l s)).trans (loop_modLoop_same s l _)

theorem loop_foldl_enableLoop_other (mask : BitVec 4) {l : Fin 4} (ls : List (Fin 4)) (h : l ∉ ls) (s : State) :
    (ls.foldl (enableLoop mask) s).mot.loop[l] = s.mot.loop[l] := by
  induction ls generalizing s with
  | nil => rfl
  | cons k ls ih =>
    simp only [List.mem_cons, not_or] at h
    exact (ih h.2 _).trans (loop_enableLoop_other mask s (Ne.symm h.1))

theorem loop_foldl_enableLoop (mask : BitVec 4) {l : Fin 4} (ls : List (Fin 4)) (hnd : ls.Nodup) (h : l ∈ ls) (s : State) :
    LoopEnabled (mask.getLsbD l.val) (s.loopOn l) s.mot.loop[l] (ls.foldl (enableLoop mask) s).mot.loop[l] := by
  induction ls generalizing s with
  | nil => simp at h
  | cons k ls ih =>
    obtain ⟨hk, hnd⟩ := List.nodup_cons.mp hnd
    by_cases hkl : k = l
    · subst hkl
      rw [List.foldl_cons, loop_foldl_enableLoop_other mask ls hk]
      exact loop_enableLoop_same mask s k
    · have := ih hnd (by simpa [Ne.symm hkl] using h) (enableLoop mask s k)
      rwa [loop_enableLoop_other mask s hkl, loopOn_of_loopsOnly (loopsOnly_enableLoop mask s k)] at this

/-- The loops as the enable field has them. -/
def enableLoops (mask : BitVec 4) (s : State) : State := (List.finRange 4).foldl (enableLoop mask) s

theorem loopsOnly_enableLoops (mask : BitVec 4) (s : State) : LoopsOnly s.mot (enableLoops mask s).mot :=
  loopsOnly_foldl (loopsOnly_enableLoop mask) _ s

theorem loop_enableLoops (mask : BitVec 4) (s : State) (l : Fin 4) :
    LoopEnabled (mask.getLsbD l.val) (s.loopOn l) s.mot.loop[l] (enableLoops mask s).mot.loop[l] :=
  loop_foldl_enableLoop mask _ (List.nodup_finRange 4) (List.mem_finRange l) s

theorem enableLoops_same (mask : BitVec 4) (s : State) : Frames.Same 0x1000000 s (enableLoops mask s) :=
  Frames.same_foldl (fun _ _ h => Frames.same_if (Frames.startLoop_same Frames.sub_refl h)
    (Frames.same_if (Frames.State_modLoop_same Frames.sub_refl (Frames.flushLoop_same Frames.sub_refl h)) h)) Frames.same_refl

/-- The machine before the enable field acts: the brake released and the servo searching where the first loop starts. -/
def loopsWoken (mask : BitVec 4) (s : State) : State := if s.mot.loopEn = 0 && mask != 0 then wakeLoops s else s

theorem setLoops_eq (mask : BitVec 4) (s : State) :
    setLoops mask s = { enableLoops mask (loopsWoken mask s) with mot := { (enableLoops mask (loopsWoken mask s)).mot with
      loopEn := mask
      state := if mask = 0 then if (enableLoops mask (loopsWoken mask s)).mot.state = .braked then .braked else .off
        else (enableLoops mask (loopsWoken mask s)).mot.state } } := by
  by_cases h : mask = 0
  · subst h; rfl
  · simp only [if_neg h]
    exact if_neg h

theorem startSearch_mot (s : State) : (startSearch s).mot = s.mot := (Frames.startSearch_same Frames.sub_refl Frames.same_refl).mot rfl

theorem wakeLoops_mot (s : State) : (wakeLoops s).mot =
    { s.mot with brake := 0, brakeSent := false, overPos := 0, overT := 0, badFrames := 0, state := if s.mot.state = .braked then .off else s.mot.state } :=
  startSearch_mot _

theorem loopsWoken_loop (mask : BitVec 4) (s : State) : (loopsWoken mask s).mot.loop = s.mot.loop ∧ (loopsWoken mask s).mot.loopEn = s.mot.loopEn := by
  unfold loopsWoken
  split
  · rw [wakeLoops_mot]; exact ⟨rfl, rfl⟩
  · exact ⟨rfl, rfl⟩

end Sys2Proof.Machine

/-! ### Coefficients and enables -/

theorem Sys2Proof.Machine.coefficientWrites : Claims.CoefficientWrites := by
  intro by_ l k sec c value s hdrive
  have hbits : coefBits c.val value = if c.val = 5 then value &&& 7 else value := rfl
  refine ⟨?_, fun hon => ?_, fun hoff => ?_⟩
  · refine congrArg Host.Outcome.next ((if_pos hdrive).trans ?_)
    unfold coefWrite
    simp only [hbits]
    cases hon : s.loopOn l <;> cases hst : ((k.val == 1) != s.mot.loop[l].bankB) <;> cases hsw : s.mot.loop[l].swap <;> simp
  · exact congrArg Host.Outcome.next ((if_pos hdrive).trans (if_pos hon))
  · exact congrArg Host.Outcome.next ((if_pos hdrive).trans (if_neg (by simp [hoff])))

theorem Sys2Proof.Machine.loopEnables : Claims.LoopEnables := by
  intro by_ mask s hdrive
  refine ⟨setLoops mask s, congrArg Host.Outcome.next (if_pos hdrive), ?_⟩
  have hsame := Frames.setLoops_same (x0 := mask) (Frames.sub_refl) (Frames.same_refl (r := s))
  have hloop := loopsWoken_loop mask s
  have hen := loopsOnly_enableLoops mask (loopsWoken mask s)
  have hsrv : (setLoops mask s).srv = (loopsWoken mask s).srv := by
    rw [setLoops_eq]; exact (enableLoops_same mask (loopsWoken mask s)).srv rfl
  have hbrake : (setLoops mask s).mot.brake = (loopsWoken mask s).mot.brake ∧ (setLoops mask s).mot.brakeSent = (loopsWoken mask s).mot.brakeSent := by
    rw [setLoops_eq]; exact hen.brake
  refine ⟨by rw [setLoops_eq], hsame.fmt rfl, hsame.glb rfl, hsame.sec rfl, hsame.seqs rfl, fun l => ?_, fun h0 hm => ?_, fun h => ?_⟩
  · have hl := loop_enableLoops mask (loopsWoken mask s) l
    have hon : (loopsWoken mask s).loopOn l = s.loopOn l := by unfold State.loopOn; rw [hloop.2]
    rw [hon, hloop.1] at hl
    rw [setLoops_eq]
    exact hl
  · have hw : loopsWoken mask s = wakeLoops s := if_pos (by simpa [h0] using hm)
    rw [hsrv, hbrake.1, hbrake.2, hw, wakeLoops_mot]
    refine ⟨?_, ?_, rfl, rfl⟩ <;> exact congrArg _ (raiseEv_srv ..)
  · have hw : loopsWoken mask s = s := if_neg (by simpa using fun h0 : s.mot.loopEn = 0 => h.resolve_left fun k => k h0)
    rw [hsrv, hbrake.1, hw]
    exact ⟨rfl, rfl⟩

/-- Settles O35: a write goes where the bank and the loop's state send it, and the enable field acts on each loop alone. -/
theorem Sys2Proof.loopRegisters : Obligations.LoopRegisters := ⟨coefficientWrites, loopEnables⟩

end

section

/-! PROOFS. L1 and L3 samples and the periods of the motion link (R183 to R190, R194 to R198), and stops, brakes and ramps (R134, R189,
R192, R199). -/

open Sys2Proof Sys2Proof.Machine Sys2Proof.Claims

namespace Sys2Proof.Machine

theorem stepRef_between (ref target step : Nat) : min ref target ≤ stepRef ref target step ∧ stepRef ref target step ≤ max ref target := by
  unfold stepRef; split <;> omega

/-- The machine with the position of an L1 sample taken and the references moved on, the position's by `step`. -/
def l1Moved (pos step : Int) (s : State) : State := { s with mot := { s.mot with
  speedRef := stepRef s.mot.speedRef s.mot.target (accelNow s).2, posRef := s.mot.posRef + step, pos := pos
  speed := min (rounded 7 ((pos - s.mot.pos).natAbs * 127 : Nat) 1600).toNat 65535, delta := feedForward s (accelNow s).1 } }

/-- The machine with the position of an L1 sample taken. -/
def l1Taken (pos : Int) (s : State) : State :=
  l1Moved pos (if s.srv.forward then (stepRef s.mot.speedRef s.mot.target (accelNow s).2 : Int)
    else -(stepRef s.mot.speedRef s.mot.target (accelNow s).2 : Int)) s

/-- L1's position error. -/
def l1Error (pos : Int) (s : State) : Int := sat16 (rounded 8 (8 * s.mot.posRef - 635 * pos) 5000)

/-- What L1 computes once the position is taken. -/
def l1Computed (pos : Int) (s : State) : State :=
  if !s.loopOn 1 then s
  else
    let x := l1Error pos s
    let s := runLoop 1 x s
    let past := decide (8 * fld s.mot.follow 0 16 < x.natAbs)
    let s := { s with mot := { s.mot with overPos := if past then s.mot.overPos + 1 else 0 } }
    if past && decide (max 1 (fld s.mot.follow 16 16) ≤ s.mot.overPos) then
      motionFault .motFollow (leBytes 2 (unsigned 16 x)) { s with mot := { s.mot with followFault := true } }
    else s

theorem l1Sample_of_due {pos : Int} {s : State} (hdue : l1Due s.mot = true) : l1Sample pos s = l1Computed pos (l1Taken pos s) := by
  have hraw : l1Sample pos s = l1Computed pos (l1Moved pos ((if s.srv.forward then 1 else -1) *
      (stepRef s.mot.speedRef s.mot.target (accelNow s).2 : Int)) s) := if_neg (by simp [hdue])
  have hdir : ∀ r : Nat, (if s.srv.forward then (1 : Int) else -1) * (r : Int) = if s.srv.forward then (r : Int) else -(r : Int) := by
    intro r; split <;> omega
  rw [hraw, hdir]
  rfl

theorem l1Computed_of_off {pos : Int} {s : State} (hoff : s.loopOn 1 = false) : l1Computed pos s = s := if_pos (congrArg (! ·) hoff)

theorem runLoop_loopsOnly (l : Fin 4) (x : Int) (s : State) : LoopsOnly s.mot (runLoop l x s).mot := by
  have hb : LoopsOnly s.mot (loopBoundary l s).mot := by
    unfold loopBoundary
    split
    · exact ⟨_, _, _, _, _, _, rfl⟩
    · split
      · exact loopsOnly_modLoop _ _ _
      · exact .refl _
  unfold runLoop
  split
  · exact hb.trans (loopsOnly_modLoop _ _ _)
  · exact .refl _

theorem l1Computed_of_on {pos : Int} {s : State} (hon : s.loopOn 1 = true) (hin : (l1Error pos s).natAbs ≤ 8 * fld s.mot.follow 0 16) :
    l1Computed pos s = { runLoop 1 (l1Error pos s) s with mot := { (runLoop 1 (l1Error pos s) s).mot with overPos := 0 } } := by
  have hfollow : (runLoop 1 (l1Error pos s) s).mot.follow = s.mot.follow := by
    obtain ⟨_, _, _, _, _, _, h⟩ := runLoop_loopsOnly 1 (l1Error pos s) s
    rw [h]
  have hpast : ¬ 8 * fld s.mot.follow 0 16 < (l1Error pos s).natAbs := by omega
  unfold l1Computed
  simp only [hon, hfollow, hpast, decide_false, Bool.not_true, Bool.false_and, Bool.false_eq_true, if_false]

/-- A running loop's sample leaves its output within its limit, and the queue no longer. -/
theorem runLoop_output_bounds {l : Fin 4} {x : Int} {s : State} (hon : s.loopOn l = true) :
    (runLoop l x s).mot.queue.length ≤ s.mot.queue.length
      ∧ (runLoop l x s).mot.loop[l].output ≤ fld s.mot.loop[l].lim 0 15
      ∧ -(fld s.mot.loop[l].lim 0 15 : Int) ≤ (runLoop l x s).mot.loop[l].output := by
  have hlim : (loopBoundary l s).mot.loop[l].lim = s.mot.loop[l].lim := by
    unfold loopBoundary
    split
    · exact (congrArg Loop.lim (loop_modLoop_same _ l _)).trans rfl
    · split
      · exact (congrArg Loop.lim (loop_modLoop_same _ l _)).trans rfl
      · rfl
  have hqueue : (loopBoundary l s).mot.queue.length ≤ s.mot.queue.length := by
    unfold loopBoundary
    split
    · exact List.length_erase_le
    · split <;> exact Nat.le_refl _
  have hrun : runLoop l x s = (loopBoundary l s).modLoop l (fun q => q.sample x) := if_pos hon
  have hb := loopOutputBounded (loopBoundary l s).mot.loop[l] x
  rw [hrun, loop_modLoop_same, ← hlim]
  exact ⟨hqueue, hb.1, hb.2.1⟩

theorem l3Sample_of_due {s : State} (h : 16 ≤ s.srv.l2Count) :
    ∃ x, l3Sample s = runLoop 3 x { s with srv := { s.srv with l2Count := s.srv.l2Count - 16, azErrs := [] } } :=
  ⟨_, if_neg (by omega)⟩

theorem samplesAdvance : Claims.SamplesAdvance := by
  intro pos s
  dsimp only
  refine ⟨stepRef_between _ _ _, fun h => ?_, fun hdue hoff => ?_, fun hdue hon hin => ?_, fun h16 hoff => ?_, fun h16 hon => ?_, fun h16 => ?_⟩
  · exact congrArg Host.Outcome.next (if_pos (by simp [h]))
  · exact congrArg Host.Outcome.next ((l1Sample_of_due hdue).trans (l1Computed_of_off hoff))
  · exact congrArg Host.Outcome.next ((l1Sample_of_due hdue).trans (l1Computed_of_on hon hin))
  · obtain ⟨x, hx⟩ := l3Sample_of_due h16
    exact congrArg Host.Outcome.next (hx.trans (if_neg (ne_true_of_eq_false hoff)))
  · obtain ⟨x, hx⟩ := l3Sample_of_due h16
    refine ⟨_, congrArg Host.Outcome.next hx, ?_⟩
    have hsame := Frames.runLoop_same (x0 := 3) (x1 := x) (Frames.sub_refl) (Frames.same_refl (r := { s with srv := { s.srv with l2Count := s.srv.l2Count - 16, azErrs := [] } }))
    obtain ⟨hq, hup, hlo⟩ := runLoop_output_bounds (l := 3) (x := x) (s := { s with srv := { s.srv with l2Count := s.srv.l2Count - 16, azErrs := [] } }) hon
    exact ⟨hsame.srv rfl, hsame.glb rfl, hsame.fmt rfl, hq, hup, hlo⟩
  · exact congrArg Host.Outcome.next (if_pos h16)

/-- A wrong or missing in-frame is a motion fault when it is the third in a row and the brake is off. -/
theorem badInFrame_eq (s : State) : badInFrame s = if 2 ≤ s.mot.badFrames ∧ s.mot.brake = 0 then
      motionFault .motLink (leBytes 3 ((linkStat { s.mot with linkOk := false, badFrames := s.mot.badFrames + 1 }).toNat % 2 ^ 24))
        { s with mot := { s.mot with linkOk := false, badFrames := s.mot.badFrames + 1 } }
    else { s with mot := { s.mot with linkOk := false, badFrames := s.mot.badFrames + 1 } } := by
  refine ite_congr (propext ?_) (fun _ => rfl) fun _ => rfl
  simp

theorem badInFrame_counted {s : State} (h : s.mot.badFrames < 2 ∨ s.mot.brake ≠ 0) :
    badInFrame s = { s with mot := { s.mot with linkOk := false, badFrames := s.mot.badFrames + 1 } } :=
  (badInFrame_eq s).trans (if_neg fun ⟨h2, h0⟩ => h.elim (Nat.not_lt.mpr h2) fun h => h h0)

theorem badInFrame_faults {s : State} (h2 : 2 ≤ s.mot.badFrames) (h0 : s.mot.brake = 0) :
    badInFrame s = motionFault .motLink (leBytes 3 ((linkStat { s.mot with linkOk := false, badFrames := s.mot.badFrames + 1 }).toNat % 2 ^ 24))
        { s with mot := { s.mot with linkOk := false, badFrames := s.mot.badFrames + 1 } } :=
  (badInFrame_eq s).trans (if_pos ⟨h2, h0⟩)

theorem motionLinkPeriod : Claims.MotionLinkPeriod := by
  intro s
  refine ⟨fun hoff => ?_, fun hon => ⟨?_, fun b hb => ?_, fun b hb => ⟨fun h => ?_, fun h2 h0 => ?_⟩, fun h => ?_, fun h2 h0 => ?_⟩⟩
  · have hn : (!motionOn s) = true := by simp [hoff]
    exact ⟨congrArg Host.Outcome.next (if_pos hn), congrArg Host.Outcome.next (if_pos hn), fun b => congrArg Host.Outcome.next (if_pos hn)⟩
  all_goals have hn : ¬ (!motionOn s) = true := by simp [hon]
  · exact congrArg Host.Outcome.next (if_neg hn)
  · exact congrArg Host.Outcome.next ((if_neg hn).trans (if_pos hb))
  · exact congrArg Host.Outcome.next ((if_neg hn).trans ((if_neg (ne_true_of_eq_false hb)).trans (congrArg endPeriod (badInFrame_counted h))))
  · exact congrArg Host.Outcome.next ((if_neg hn).trans ((if_neg (ne_true_of_eq_false hb)).trans (congrArg endPeriod (badInFrame_faults h2 h0))))
  · exact congrArg Host.Outcome.next ((if_neg hn).trans (congrArg endPeriod (badInFrame_counted h)))
  · exact congrArg Host.Outcome.next ((if_neg hn).trans (congrArg endPeriod (badInFrame_faults h2 h0)))

/-! ### Stops, brakes and ramps -/

theorem setSpeed_same' (code : Nat) (s : State) : Frames.Same 0x2010 s (setSpeed code s) := Frames.setSpeed_same Frames.sub_refl Frames.same_refl

theorem setSpeed_fmt (code : Nat) (s : State) : ∃ n, (setSpeed code s).fmt = { s.fmt with spCur := code, spSeq := n } := by
  unfold setSpeed
  split
  · rename_i h; exact ⟨s.fmt.spSeq, by subst h; rfl⟩
  · exact ⟨s.fmt.spSeq + 1, (Frames.raiseEv_same Frames.sub_refl Frames.same_refl).fmt rfl⟩

theorem setLoops_zero (s : State) : (setLoops 0 s).mot.loopEn = 0 ∧ (setLoops 0 s).mot.brake = s.mot.brake ∧ (setLoops 0 s).mot.brakeSent = s.mot.brakeSent := by
  have hw : loopsWoken 0 s = s := if_neg (by simp)
  rw [setLoops_eq, hw]
  exact ⟨rfl, (loopsOnly_enableLoops 0 s).brake⟩

theorem brakeReels_mot (code : Nat) (s : State) :
    (brakeReels code s).mot.state = .braked ∧ (brakeReels code s).mot.brake = code
      ∧ (brakeReels code s).mot.brakeSent = (code != 0) ∧ (brakeReels code s).mot.loopEn = 0 := by
  obtain ⟨hen, hbr, hsent⟩ := setLoops_zero (sendFrame { s with mot := { s.mot with brake := code } })
  exact ⟨rfl, hbr, hsent, hen⟩

theorem beginStop_of_moving {s : State} (h : s.mot.state = .running ∨ s.mot.state = .softStart) : beginStop s = { s with
    mot := { s.mot with stop := true, state := .stopping, target := 0 }, fmt := { s.fmt with motion := .stopping, moveFor := .none } } :=
  if_pos (by simpa using h)

theorem beginStop_of_still {s : State} (h : s.mot.state ≠ .running) (h' : s.mot.state ≠ .softStart) : beginStop s = s :=
  if_neg (by simp [h, h'])

/-- The machine with a ramp at its end. -/
def rampAtTarget (s : State) : State := { s with mot := { s.mot with speedRef := s.mot.target }, fmt := { s.fmt with ramping := false } }

theorem rampEnd_eq {s : State} (h : s.mot.state = .running ∨ s.mot.state = .stopping ∨ s.mot.state = .softStart) :
    rampEnd s = if s.mot.target = 0 then rampAtTarget s else match codeOfSpeed (s.mot.target / 1000) with
      | some c => setSpeed c (rampAtTarget s)
      | none => rampAtTarget s := by
  refine (if_neg ?_).trans ?_
  · obtain h | h | h := h <;> simp [h]
  · rfl

/-- The machine as a tape leaves it that came to its stop. -/
def tapeAtRest (s : State) : State :=
  setSpeed 7 { s with
    mot := { s.mot with state := .stopped, stop := false, speed := 0, speedRef := 0, target := 0 }
    fmt := { s.fmt with motion := .stopped, ramping := false, stopped := true } }

theorem tapeAtRest_fields (s : State) : ∃ n, (tapeAtRest s).fmt = { s.fmt with motion := .stopped, ramping := false, stopped := true, spCur := 7, spSeq := n } :=
  setSpeed_fmt 7 _

theorem tapeAtRest_mot (s : State) :
    (tapeAtRest s).mot = { s.mot with state := .stopped, stop := false, speed := 0, speedRef := 0, target := 0 } :=
  (setSpeed_same' 7 _).mot rfl

theorem tapeAtRest_same (s : State) : Frames.Same 0x1002010 s (tapeAtRest s) :=
  Frames.setSpeed_same (w := 0x1002010) rfl (Frames.set_1002000 rfl Frames.same_refl)

/-- A tape that stops in THREADED, with nothing that holds it, stays where it is. -/
theorem tapeStopped_of_free {s : State} (hst : s.mot.state = .stopping) (hisl : s.mot.islandReset = false) (hmode : s.glb.mode = .threaded)
    (hmove : s.fmt.moveFor = .none) (hheld : tapeHeld s = false) :
    tapeStopped s = tapeAtRest (if s.fmt.preampDue then writePreamps s else s) := by
  have hp : Frames.Same 0x2000 s (if s.fmt.preampDue then writePreamps s else s) :=
    Frames.same_if (Frames.writePreamps_same Frames.sub_refl Frames.same_refl) Frames.same_refl
  have hpm : (if s.fmt.preampDue then writePreamps s else s).fmt.moveFor = .none := by
    split
    · unfold writePreamps; split <;> exact hmove
    · exact hmove
  generalize hu : (if s.fmt.preampDue then writePreamps s else s) = u at *
  have hrest := tapeAtRest_same u
  obtain ⟨n, hf⟩ := tapeAtRest_fields u
  have hmot : (tapeAtRest u).mot.islandReset = u.mot.islandReset := by rw [tapeAtRest_mot]
  have hafter : afterStop (tapeAtRest u) = tapeAtRest u := by
    have h1 : ¬ (tapeAtRest u).mot.islandReset = true := by rw [hmot, hp.mot rfl, hisl]; decide
    have h2 : ¬ ((tapeAtRest u).fmt.moveFor != .none) = true := by rw [hf]; simp [hpm]
    have h3 : ¬ tapeHeld (tapeAtRest u) = true := by
      unfold tapeHeld at hheld ⊢; rw [hrest.hif rfl, hp.hif rfl, hheld]; decide
    have h4 : (tapeAtRest u).glb.mode = .threaded := by rw [hrest.glb rfl, hp.glb rfl, hmode]
    unfold afterStop
    rw [if_neg h1, if_neg h2, if_neg h3, h4]
  refine (if_pos (by simp [hst])).trans ?_
  simp only [hu, if_pos hst]
  exact hafter

end Sys2Proof.Machine

/-- Settles O37: each sample and each period is the model's own, by the cases of its conditions. -/
theorem Sys2Proof.samplesAndMotionLink : Obligations.SamplesAndMotionLink := ⟨samplesAdvance, motionLinkPeriod⟩

/-- Settles O38: what each stop, brake, ramp's end and stopped tape sets, by its branches. -/
theorem Sys2Proof.stopsAndRamps : Obligations.StopsAndRamps := by
  intro by_ s
  refine ⟨fun hdrive => ⟨fun h => ?_, fun h h' => ?_, ?_⟩, fun h => ⟨rampEnd s, rfl, ?_⟩, fun hst hisl hmode hmove hheld => ?_⟩
  · exact congrArg Host.Outcome.next ((if_pos hdrive).trans (beginStop_of_moving h))
  · exact congrArg Host.Outcome.next ((if_pos hdrive).trans (beginStop_of_still h h'))
  · refine ⟨motionBrake s, congrArg Host.Outcome.next (if_pos hdrive), ?_⟩
    have hsame := brakeReels_motion_same (code := 2) Frames.sub_refl (Frames.same_refl (r := { s with fmt := { s.fmt with gateOpen := false } }))
    obtain ⟨h1, h2, h3, h4⟩ := brakeReels_mot 2 { s with fmt := { s.fmt with gateOpen := false } }
    exact ⟨hsame.fmt rfl, h1, h2, h3, h4, hsame.glb rfl, hsame.srv rfl⟩
  · rw [rampEnd_eq h]
    split
    next h0 => exact ⟨rfl, rfl, fun c hc => absurd h0 hc, rfl⟩
    · split
      · rename_i c hc
        have hsame := setSpeed_same' c (rampAtTarget s)
        obtain ⟨n, hf⟩ := setSpeed_fmt c (rampAtTarget s)
        refine ⟨hsame.mot rfl, by rw [hf]; rfl, fun d _ hd => ?_, hsame.glb rfl⟩
        rw [hf]
        exact Option.some.inj (hc.symm.trans hd)
      · rename_i hc
        exact ⟨rfl, rfl, fun d _ hd => absurd (hc.symm.trans hd) (by simp), rfl⟩
  · refine ⟨_, congrArg Host.Outcome.next (tapeStopped_of_free hst hisl hmode hmove hheld), ?_⟩
    have hp : Frames.Same 0x2000 s (if s.fmt.preampDue then writePreamps s else s) :=
      Frames.same_if (Frames.writePreamps_same Frames.sub_refl Frames.same_refl) Frames.same_refl
    generalize (if s.fmt.preampDue then writePreamps s else s) = u at *
    have hrest := tapeAtRest_same u
    obtain ⟨n, hf⟩ := tapeAtRest_fields u
    dsimp only
    rw [tapeAtRest_mot, hf, hrest.glb rfl, hrest.srv rfl, hp.glb rfl, hp.srv rfl]
    exact ⟨rfl, rfl, rfl, rfl, rfl, rfl, rfl, rfl⟩

end

section

/-! PROOFS. What a host or the TAP writes to a register and reads of it (R3, R4, R382, R384, R387 to R389). -/

open Sys2Proof Sys2Proof.Machine Sys2Proof.Claims

namespace Sys2Proof.Machine

theorem exec_hostWrite {off : Nat} (v : Word) {s : State} (ha : off % 4 = 0) (hs : s.glb.mode.served = true) :
    exec (.registerWrite false off v none) s = .next (writeReg .host off v s) :=
  (exec_registerWrite_word v s ha).trans (congrArg Host.Outcome.next (if_pos hs))

/-- What a register write that only its block sees leaves of the machine. -/
structure WriteKeeps (s t : State) : Prop where
  sec : t.sec = s.sec
  seqs : t.seqs = s.seqs
  insts : t.insts = s.insts
  hostMem : t.hostMem = s.hostMem
  glb : t.glb = s.glb

/-- A write that reads back in its bits. -/
theorem writeReadsBack {r : Nat × Word} {v : Word} {s t : State} (ha : r.1 % 4 = 0) (hs : s.glb.mode.served = true)
    (hw : writeReg .host r.1 v s = t) (hr : readReg t r.1 &&& r.2 = v &&& r.2) (hk : WriteKeeps s t) :
    Gives (exec (.registerWrite false r.1 v none) s) fun t =>
      readReg t r.1 &&& r.2 = v &&& r.2 ∧ t.sec = s.sec ∧ t.seqs = s.seqs ∧ t.insts = s.insts ∧ t.hostMem = s.hostMem ∧ t.glb = s.glb :=
  ⟨t, (exec_hostWrite v ha hs).trans (congrArg Host.Outcome.next hw), hr, hk.sec, hk.seqs, hk.insts, hk.hostMem, hk.glb⟩

theorem and_mask_twice (v m : Word) : (v &&& m) &&& m = v &&& m := by rw [BitVec.and_assoc, BitVec.and_self]

theorem followRead_keeps (s : State) : WriteKeeps s (followRead s) ∧ (followRead s).rdc = s.rdc :=
  have h := Frames.followRead_same Frames.sub_refl (Frames.same_refl (r := s))
  ⟨⟨h.sec rfl, h.seqs rfl, h.insts rfl, h.hostMem rfl, h.glb rfl⟩, h.rdc rfl⟩

/-- The low half of CHN_LAT reads as the budget written (R309). -/
theorem budget_reads_back (v : Word) (hi : Nat) :
    pack [(0, fld v 0 16 % 65536), (16, hi)] &&& 0xFFFF = v &&& 0xFFFF := by
  apply BitVec.eq_of_getLsbD_eq
  intro i hlt
  simp only [pack, fld, List.foldl_cons, List.foldl_nil, BitVec.getLsbD_and, BitVec.getLsbD_or, BitVec.getLsbD_ofNat]
  by_cases h : i < 16
  · have h' : ¬ 16 ≤ i := by omega
    simp [h', hlt, Nat.testBit_shiftLeft, BitVec.getLsbD]
    rw [show 65536 = 2 ^ 16 from rfl, Nat.testBit_mod_two_pow, decide_eq_true h, Bool.true_and]
  · have hmask : (0xFFFF : Word).getLsbD i = false := Nat.testBit_lt_two_pow (Nat.lt_of_lt_of_le (by decide) (Nat.pow_le_pow_right (by decide) (by omega : 16 ≤ i)))
    rw [hmask, Bool.and_false, Bool.and_false]

end Sys2Proof.Machine

theorem Sys2Proof.Machine.registerWritesReadBack : Claims.RegisterWritesReadBack := by
  intro r v s h
  obtain ⟨hr, hs⟩ | ⟨hr, hm⟩ := h
  · simp only [List.mem_cons, List.not_mem_nil, or_false] at hr
    rcases hr with rfl | rfl | rfl | rfl | rfl | rfl | rfl | rfl | rfl | rfl | rfl | rfl | rfl
    · exact writeReadsBack rfl hs rfl (and_mask_twice _ _) ⟨rfl, rfl, rfl, rfl, rfl⟩
    · exact writeReadsBack rfl hs rfl (and_mask_twice _ _) ⟨rfl, rfl, rfl, rfl, rfl⟩
    · exact writeReadsBack rfl hs rfl (and_mask_twice _ _) ⟨rfl, rfl, rfl, rfl, rfl⟩
    · exact writeReadsBack rfl hs rfl rfl ⟨rfl, rfl, rfl, rfl, rfl⟩
    · exact writeReadsBack rfl hs rfl (and_mask_twice _ _) ⟨rfl, rfl, rfl, rfl, rfl⟩
    · exact writeReadsBack rfl hs rfl (and_mask_twice _ _) ⟨rfl, rfl, rfl, rfl, rfl⟩
    · obtain ⟨hk, hrdc⟩ := followRead_keeps { s with rdc := { s.rdc with decCfg := v &&& 0x003FFFFF } }
      have hr : readReg (followRead { s with rdc := { s.rdc with decCfg := v &&& 0x003FFFFF } }) 0xA820 = v &&& 0x003FFFFF :=
        congrArg Rdc.decCfg hrdc
      exact writeReadsBack rfl hs rfl ((congrArg (· &&& 0x003FFFFF) hr).trans (and_mask_twice _ _)) ⟨hk.sec, hk.seqs, hk.insts, hk.hostMem, hk.glb⟩
    · exact writeReadsBack rfl hs rfl (and_mask_twice _ _) ⟨rfl, rfl, rfl, rfl, rfl⟩
    · exact writeReadsBack rfl hs rfl (and_mask_twice _ _) ⟨rfl, rfl, rfl, rfl, rfl⟩
    · exact writeReadsBack rfl hs rfl (and_mask_twice _ _) ⟨rfl, rfl, rfl, rfl, rfl⟩
    · exact writeReadsBack rfl hs rfl (budget_reads_back _ _) ⟨rfl, rfl, rfl, rfl, rfl⟩
    · exact writeReadsBack rfl hs rfl (and_mask_twice _ _) ⟨rfl, rfl, rfl, rfl, rfl⟩
    · exact writeReadsBack rfl hs rfl (and_mask_twice _ _) ⟨rfl, rfl, rfl, rfl, rfl⟩
  · have hs : s.glb.mode.served = true := by rw [hm]; rfl
    have hd : s.mayDrive .host = true := by simp [State.mayDrive, hm]
    simp only [List.mem_cons, List.not_mem_nil, or_false] at hr
    rcases hr with rfl | rfl | rfl | rfl | rfl | rfl | rfl
    · exact writeReadsBack rfl hs (if_pos hd) (and_mask_twice _ _) ⟨rfl, rfl, rfl, rfl, rfl⟩
    · exact writeReadsBack rfl hs (if_pos hd) (and_mask_twice _ _) ⟨rfl, rfl, rfl, rfl, rfl⟩
    · exact writeReadsBack rfl hs (if_pos hd) (and_mask_twice _ _) ⟨rfl, rfl, rfl, rfl, rfl⟩
    · exact writeReadsBack rfl hs (if_pos hd) (and_mask_twice _ _) ⟨rfl, rfl, rfl, rfl, rfl⟩
    · exact writeReadsBack rfl hs (if_pos hd) rfl ⟨rfl, rfl, rfl, rfl, rfl⟩
    · exact writeReadsBack rfl hs (if_pos hd) (and_mask_twice _ _) ⟨rfl, rfl, rfl, rfl, rfl⟩
    · exact writeReadsBack rfl hs (if_pos hd) (and_mask_twice _ _) ⟨rfl, rfl, rfl, rfl, rfl⟩

theorem Sys2Proof.Machine.registerWritesDiscarded : Claims.RegisterWritesDiscarded := by
  intro off v s h
  refine congrArg Host.Outcome.next ?_
  have hw : s.glb.mode.served = true → writeReg .host off v s = s := by
    intro hs
    unfold writeReg
    obtain h | h | ⟨hm, h⟩ | ⟨hm, h⟩ | ⟨hm, h⟩ | h := h
    · exact if_pos (by simp [h])
    · exact if_pos (by simp [h])
    all_goals first
      | exact absurd hs (ne_true_of_eq_false h)
      | have hd : s.mayDrive .host = false := by simpa [State.mayDrive] using hm
        simp only [h, hd, Bool.false_eq_true, if_false, ite_self]
  show (if wellFormedAccess off 4 then hostWriteReg false off v s else s) = s
  split
  · unfold hostWriteReg
    split
    · rename_i h; exact absurd h (by decide)
    · split
      · rename_i hs; exact hw hs
      · rfl
  · rfl

/-- Settles O32: the register of each listed offset is the word its block stores, and what a block discards leaves the machine. -/
theorem Sys2Proof.registerWrites : Obligations.RegisterWrites := ⟨registerWritesReadBack, registerWritesDiscarded⟩

namespace Sys2Proof.Machine

/-! ### Reads -/

/-- A host's 32-bit read of BAR0. -/
theorem exec_hostRead {off : Nat} {s : State} (ha : off % 4 = 0) (hs : s.glb.mode.served = true) :
    exec (.rcFieldRead false off false) s = .next { latchTime off (clearRc off s) with
      glb := { (latchTime off (clearRc off s)).glb with rdData := (readReg s off).toNat + 2 ^ 32 * 0 } } :=
  congrArg Host.Outcome.next (if_neg (by simp [hs, wellFormedAccess, ha]))

/-- A read of a register whose fields all clear, away from the clock. -/
theorem readClears {off : Nat} {s t : State} (ha : off % 4 = 0) (h10 : off ≠ 0x010) (hs : s.glb.mode.served = true) (hc : clearRc off s = t)
    (hr : readReg t off = 0) (hi : t.insts = s.insts) (hsec : t.sec = s.sec) :
    Gives (exec (.rcFieldRead false off false) s) fun t => t.glb.rdData = (readReg s off).toNat ∧ readReg t off = 0 ∧ t.insts = s.insts ∧ t.sec = s.sec := by
  refine ⟨_, exec_hostRead ha hs, rfl, ?_, ?_, ?_⟩
  · rw [readReg_rdData, latchTime, if_neg h10, hc, hr]
  · simpa only [latchTime, if_neg h10, hc] using hi
  · simpa only [latchTime, if_neg h10, hc] using hsec

theorem hostReads : Claims.HostReads := by
  intro s hs
  refine ⟨fun off hoff => ?_, fun ht => ?_, fun bar2 off size write hbad => ?_⟩
  · simp only [List.mem_cons, List.not_mem_nil, or_false] at hoff
    rcases hoff with rfl | rfl | rfl | rfl
    · exact readClears rfl (by decide) hs rfl (by decide : pack [(0, sat 16 0), (16, sat 8 0), (24, sat 8 0)] = 0) rfl rfl
    · exact readClears rfl (by decide) hs rfl (by decide : pack [(0, sat 20 0), (20, sat 12 0)] = 0) rfl rfl
    · exact readClears rfl (by decide) hs rfl (by decide : pack [(0, sat 16 0), (16, sat 8 0), (24, sat 8 0)] = 0) rfl rfl
    · exact readClears rfl (by decide) hs rfl (by decide : pack [(0, sat 16 0), (16, sat 16 0)] = 0) rfl rfl
  · refine ⟨_, exec_hostRead rfl hs, ?_, rfl, rfl, rfl⟩
    show (BitVec.ofNat 32 s.glb.time).toNat + 2 ^ 32 * 0 + 2 ^ 32 * (BitVec.ofNat 32 (s.glb.time / 2 ^ 32)).toNat = s.glb.time
    simp only [BitVec.toNat_ofNat]
    omega
  · refine congrArg Host.Outcome.next ?_
    cases write <;> simp [hbad, hs]

/-- A read as two words and the state after it. -/
theorem hostReadReg_state (bar2 : Bool) (off x : Nat) (s : State) :
    (hostReadReg bar2 off { s with glb := { s.glb with rdData := x } }).1 = (hostReadReg bar2 off s).1
      ∧ (hostReadReg bar2 off { s with glb := { s.glb with rdData := x } }).2
        = { (hostReadReg bar2 off s).2 with glb := { (hostReadReg bar2 off s).2.glb with rdData := x } } := by
  cases bar2 with
  | true => exact ⟨congrArg BitVec.toNat (readBar2_msix rfl off), rfl⟩
  | false =>
    refine ⟨congrArg BitVec.toNat (readReg_rdData s x off), ?_⟩
    show latchTime off (clearRc off { s with glb := { s.glb with rdData := x } }) = _
    rw [clearRc_rdData, latchTime_rdData]
    rfl

theorem hostReadReg_mode (bar2 : Bool) (off : Nat) (s : State) : (hostReadReg bar2 off s).2.glb.mode = s.glb.mode := by
  cases bar2 with
  | true => rfl
  | false => exact (latchTime_mode _ off).trans (congrArg Glb.mode (clearRc_glb s off))

theorem hostRead64_word {bar2 : Bool} {off : Nat} {s : State} (hs : s.glb.mode.served = true) (ha : wellFormedAccess off 4 = true) :
    hostRead64 bar2 off false s = { (hostReadReg bar2 off s).2 with glb :=
      { (hostReadReg bar2 off s).2.glb with rdData := (hostReadReg bar2 off s).1 + 2 ^ 32 * 0 } } :=
  if_neg (by simp [hs, ha])

/-- A 64-bit read is the two of its words. -/
theorem wideRead_eq {bar2 : Bool} {off : Nat} {s : State} (hs : s.glb.mode.served = true) (hwf : wellFormedAccess off 8 = true)
    (hlo : wellFormedAccess off 4 = true) (hhi : wellFormedAccess (off + 4) 4 = true) :
    hostRead64 bar2 off true s =
      { hostRead64 bar2 (off + 4) false (hostRead64 bar2 off false s) with glb :=
        { (hostRead64 bar2 (off + 4) false (hostRead64 bar2 off false s)).glb with rdData :=
          (hostRead64 bar2 off false s).glb.rdData + 2 ^ 32 * (hostRead64 bar2 (off + 4) false (hostRead64 bar2 off false s)).glb.rdData } } := by
  have hwide : hostRead64 bar2 off true s = { (hostReadReg bar2 (off + 4) (hostReadReg bar2 off s).2).2 with glb :=
      { (hostReadReg bar2 (off + 4) (hostReadReg bar2 off s).2).2.glb with rdData :=
        (hostReadReg bar2 off s).1 + 2 ^ 32 * (hostReadReg bar2 (off + 4) (hostReadReg bar2 off s).2).1 } } :=
    if_neg (by simp [hs, hwf])
  have h1 := hostRead64_word (bar2 := bar2) hs hlo
  have hs1 : (hostRead64 bar2 off false s).glb.mode.served = true := by rw [h1]; exact (congrArg Mode.served (hostReadReg_mode bar2 off s)).trans hs
  obtain ⟨hv, ht⟩ := hostReadReg_state bar2 (off + 4) ((hostReadReg bar2 off s).1 + 2 ^ 32 * 0) (hostReadReg bar2 off s).2
  rw [hwide, hostRead64_word hs1 hhi, h1, hv, ht]
  simp only [Nat.mul_zero, Nat.add_zero]

theorem wideAccesses : Claims.WideAccesses := by
  intro bar2 off v h s hwf
  have h8 : off % 8 = 0 := by simpa [wellFormedAccess] using hwf
  have hlo : wellFormedAccess off 4 = true := by simp [wellFormedAccess]; omega
  have hhi : wellFormedAccess (off + 4) 4 = true := by simp [wellFormedAccess]; omega
  refine ⟨⟨_, rfl, ?_⟩, fun hs => ⟨hostRead64 bar2 off false s, hostRead64 bar2 (off + 4) false (hostRead64 bar2 off false s), rfl, rfl, ?_⟩⟩
  · exact congrArg Host.Outcome.next ((if_pos hwf).trans
      ((if_pos hhi).trans (congrArg (hostWriteReg bar2 (off + 4) h) (if_pos hlo))).symm)
  · exact congrArg Host.Outcome.next (wideRead_eq hs hwf hlo hhi)

theorem jtagAccesses : Claims.JtagAccesses := by
  intro off s hmode
  have hoff : (s.glb.mode == .off) = false := by simpa using hmode
  refine ⟨fun bar2 value hclosed => ?_, fun hopen hst h10 => ?_, fun hopen hst => ?_, fun v hopen hst => ?_, fun v hopen hst => ?_⟩
  · exact if_pos (by simp [hclosed])
  all_goals have hgo : ¬ (!s.tapOpen || s.glb.mode == .off) = true := by simp [hopen, hoff]
  · refine (if_neg hgo).trans ((if_neg (ne_true_of_eq_false hst)).trans (congrArg Host.Outcome.next (if_neg h10)))
  · exact ⟨_, (if_neg hgo).trans (if_pos hst)⟩
  · exact (if_neg hgo).trans (if_neg (ne_true_of_eq_false hst))
  · exact (if_neg hgo).trans (if_pos hst)

end Sys2Proof.Machine

/-- Settles O33: what a read returns is what the register holds, its clearing leaves zeros, and a wide access is two of words. -/
theorem Sys2Proof.hostAndJtagReads : Obligations.HostAndJtagReads := ⟨hostReads, wideAccesses, jtagAccesses⟩

end

section

/-! PROOFS. The SPDM responder (R345, R355, R360): its stages, and what it answers in the last. PRESUMED formats (log entry 28). -/

open Sys2Proof Sys2Proof.Machine Sys2Proof.Claims

namespace Sys2Proof.Machine

section

variable {code stage : Nat} {r : Bytes} {f : State → State} {s : State}

theorem spdmPowered_of (hoff : s.glb.mode ≠ .off) (hq : s.glb.mode ≠ .quench) : spdmPowered s = true := by simp [spdmPowered, hoff, hq]

theorem serveSpdm_of_other (h : u8 r 1 ≠ code) : serveSpdm code stage r f s = s := if_pos (by simp [h])

theorem serveSpdm_of_shut (hp : spdmPowered s = true) (hc : u8 r 1 = code) (hshut : spdmOpen s = false) :
    serveSpdm code stage r f s = respond (spdmError errBusy) s :=
  (if_neg (by simp [hp, hc])).trans (if_pos (by simp [hshut]))

theorem serveSpdm_of_returned (hp : spdmPowered s = true) (hc : u8 r 1 = code) (hopen : spdmOpen s = true) (hl : s.sec.lifecycle = 4)
    (h3 : 3 ≤ stage) : serveSpdm code stage r f s = respond (spdmError errUnsupported) s :=
  (if_neg (by simp [hp, hc])).trans ((if_neg (by simp [hopen])).trans (if_pos (by simp [hl, h3])))

/-- The machine with the measurement transcript ended. -/
def measEnded (s : State) : State := { s with sec := { s.sec with measLog := [] } }

/-- A request of its own code and version, in its stage, is served. -/
theorem serveSpdm_served (hp : spdmPowered s = true) (hc : u8 r 1 = code) (hopen : spdmOpen s = true)
    (hl : stage < 3 ∨ s.sec.lifecycle ≠ 4) (hv : code = 0x84 ∨ u8 r 0 = 0x12) (hstage : stage ≤ s.sec.spdmStage) :
    serveSpdm code stage r f s = f (if code = 0xE0 then s else measEnded s) := by
  refine (if_neg (by simp [hp, hc])).trans ((if_neg (by simp [hopen])).trans ((if_neg ?_).trans ((if_neg ?_).trans (if_neg (by omega)))))
  · rcases hl with h | h
    · simp; omega
    · simp [h]
  · rcases hv with h | h <;> simp [h]

/-- The requests with their codes, in the order of their stages. -/
def spdmRows (r : Bytes) : List (Nat × Instr) :=
  [(0x84, .getVersion r), (0xE1, .getCapabilities r), (0xE3, .negotiateAlgorithms r), (0x81, .getDigests r),
    (0x82, .getCertificate r), (0x83, .challenge r), (0xE0, .getMeasurements r), (0xFE, .vendorDefinedRequest r)]

/-- Every request is served by its code and stage. -/
theorem exec_spdmRow (s : State) {x : Nat × Instr} (hx : x ∈ spdmRows r) : ∃ stage f, exec x.2 s = .next (serveSpdm x.1 stage r f s) := by
  simp only [spdmRows, List.mem_cons, List.not_mem_nil, or_false] at hx
  rcases hx with rfl | rfl | rfl | rfl | rfl | rfl | rfl | rfl <;> exact ⟨_, _, rfl⟩

theorem exec_spdmRow_late (s : State) {x : Nat × Instr} (hx : x ∈ (spdmRows r).drop 3) :
    ∃ f, exec x.2 s = .next (serveSpdm x.1 3 r f s) := by
  simp only [spdmRows, List.drop, List.mem_cons, List.not_mem_nil, or_false] at hx
  rcases hx with rfl | rfl | rfl | rfl | rfl <;> exact ⟨_, rfl⟩

theorem length_spdmMsg (code p1 p2 : Nat) (body : Bytes) : (spdmMsg code p1 p2 body).length = body.length + 4 := by
  simp only [spdmMsg, List.length_append, length_leBytes]; omega

theorem spdmMsg_eq (code p1 p2 : Nat) (body : Bytes) :
    spdmMsg code p1 p2 body = 0x12 :: BitVec.ofNat 8 code :: BitVec.ofNat 8 p1 :: BitVec.ofNat 8 p2 :: body := rfl

theorem leNat_leBytes_four (n : Nat) (h : n < 2 ^ 32) : leNat (leBytes 4 n) = n := by
  simp only [leBytes, leNat, BitVec.toNat_ofNat]; omega

theorem spdmStages : Claims.SpdmStages := by
  intro r s hoff hq
  have hp := spdmPowered_of hoff hq
  refine ⟨fun x hx hne => ?_, fun e h0 hff => ?_, ?_, ?_, fun hshut x hx hc => ?_, fun hopen hl x hx hc => ?_, fun hopen hc hv => ?_,
    fun hopen hv hst hc hlen => ?_, fun hopen hv hst hc hlen hsize => ?_⟩
  · obtain ⟨_, _, h⟩ := exec_spdmRow s hx
    exact h.trans (congrArg Host.Outcome.next (serveSpdm_of_other hne))
  · exact congrArg Host.Outcome.next (if_neg (by rw [hp, decide_eq_false h0, decide_eq_false hff]; decide))
  · exact congrArg Host.Outcome.next (if_pos (by simp))
  · exact congrArg Host.Outcome.next (if_pos (by simp))
  · obtain ⟨_, _, h⟩ := exec_spdmRow s hx
    exact ⟨_, h.trans (congrArg Host.Outcome.next (serveSpdm_of_shut hp hc hshut)), rfl, rfl, rfl, rfl, rfl⟩
  · obtain ⟨_, h⟩ := exec_spdmRow_late s hx
    exact ⟨_, h.trans (congrArg Host.Outcome.next (serveSpdm_of_returned hp hc hopen hl (Nat.le_refl 3))), rfl, rfl, rfl, rfl, rfl⟩
  · refine ⟨_, congrArg Host.Outcome.next ((serveSpdm_served hp hc hopen (.inl (by decide)) (.inl rfl) (Nat.zero_le _)).trans
      (if_neg (by simp [hv]))), ⟨rfl, rfl, rfl, rfl, rfl⟩, rfl, rfl⟩
  · refine ⟨_, congrArg Host.Outcome.next ((serveSpdm_served hp hc hopen (.inl (by decide)) (.inr hv) (by omega)).trans
      ((if_neg (by omega)).trans (if_neg (by simpa [measEnded] using hst)))), rfl, rfl, rfl, rfl⟩
  · refine ⟨_, congrArg Host.Outcome.next ((serveSpdm_served hp hc hopen (.inl (by decide)) (.inr hv) (by omega)).trans
      ((if_neg (by simp [hsize]; omega)).trans (if_neg (by simpa [measEnded] using hst)))), rfl, rfl, rfl, ?_, ?_⟩
    · show leNat (leBytes 4 (if (u32 r 12).testBit 1 then 2 else 0)) = _
      exact leNat_leBytes_four _ (by split <;> decide)
    · show leNat (leBytes 4 (if (u32 r 8).testBit 7 then 0x80 else 0)) = _
      exact leNat_leBytes_four _ (by split <;> decide)

theorem spdmSign_congr {t : State} (h : t.sec.aliasPriv = s.sec.aliasPriv) (context : String) (transcript : Bytes) :
    spdmSign t context transcript = spdmSign s context transcript := by
  unfold spdmSign; rw [h]

theorem measurementBlock_four (s : State) :
    measurementBlock s 4 = [4, 1, 51, 0, Config.measurementType 4, 48, 0] ++ padTo 48 s.sec.profileDigest := by
  unfold measurementBlock
  simp only [measurementValue, length_padTo]
  rfl

/-- The body of CHALLENGE_AUTH, without a summary of measurements. -/
theorem challengeBody_eq (d n z : Bytes) : spdmMsg 0x03 0 1 (d ++ n ++ [] ++ z) = [0x12, 0x03, 0, 1] ++ d ++ n ++ z := by
  rw [spdmMsg_eq, List.append_nil]
  rfl

theorem spdmAnswers : Claims.SpdmAnswers := by
  intro r s hoff hq hopen hl hv hst
  have served {code : Nat} {f : State → State} (hc : u8 r 1 = code) :
      serveSpdm code 3 r f s = f (if code = 0xE0 then s else measEnded s) :=
    serveSpdm_served (spdmPowered_of hoff hq) hc hopen (.inr hl) (.inr hv) (by omega)
  have hchain : spdmChain (measEnded s) = spdmChain s := rfl
  refine ⟨fun hc => ?_, fun hc hlen hslot hoffs => ?_, fun hc hlen hslot hkind => ?_, fun hc hlen hsig hop => ?_,
    fun hc hlen h3 h2 hid h5 h1 hlog hidx => ?_⟩
  · exact ⟨_, congrArg Host.Outcome.next (served hc), rfl, rfl⟩
  · refine ⟨_, congrArg Host.Outcome.next ((served hc).trans (if_neg ?_)), rfl⟩
    simp only [show (0x82 : Nat) ≠ 0xE0 by decide, if_false, hchain, hslot]
    simp; omega
  · refine ⟨_, congrArg Host.Outcome.next ((served hc).trans (if_neg ?_)), ?_⟩
    · simp [hslot, hkind]; omega
    · simp only [hkind, if_true, show ¬ (0x83 = 0xE0) by decide, if_false, respond]
      have hch : spdmChain (drawn 32 (measEnded s)) = spdmChain s := rfl
      have hdraw : draw (measEnded s) 32 = draw s 32 := rfl
      have hvca : (drawn 32 (measEnded s)).sec.vca = s.sec.vca := rfl
      have htr : (drawn 32 (measEnded s)).sec.transcript = s.sec.transcript := rfl
      refine ⟨rfl, trivial, ?_⟩
      rw [spdmSign_congr (t := drawn 32 (measEnded s)) (s := s) rfl, hch, hdraw, hvca, htr, challengeBody_eq]
  · refine ⟨_, congrArg Host.Outcome.next ((served hc).trans (if_neg ?_)), ?_⟩
    · simp only [hsig, hop]; simp; omega
    · have hlen : (measurementBlock s 4).length = 55 := by rw [measurementBlock_four, List.length_append, length_padTo]; rfl
      simp only [hsig, hop, Nat.zero_testBit, Bool.false_eq_true, if_false, if_true, respond, show ¬ (4 = 0) by decide,
        show ¬ (4 = 255) by decide, List.flatMap_cons, List.flatMap_nil, List.append_nil, hlen, spdmMsg_eq]
      refine ⟨?_, trivial⟩
      simp [measurementBlock_four, leBytes]
  · refine ⟨_, congrArg Host.Outcome.next ((served hc).trans (if_neg ?_)), rfl, rfl⟩
    have hne : (254 : Nat) ≠ 224 := by decide
    have hm : (measEnded s).sec.ingot = s.sec.ingot := rfl
    have ho : ingotOldest (measEnded s) = ingotOldest s := rfl
    have hh : ingotHead (measEnded s) = ingotHead s := rfl
    simp only [if_neg hne, hm, ho, hh, h3, h2, hid, h5, h1]
    simp [hlog]
    omega

end

end Sys2Proof.Machine

/-- Settles O59: each request is served by its code and stage, and what the last stage answers is read off its row. -/
theorem Sys2Proof.spdmResponder : Obligations.SpdmResponder := ⟨spdmStages, spdmAnswers⟩

end

section

/-! PROOFS. What the pan manager answers (R228 to R235): a request that meets no other is decided on the table as it stands. -/

open Sys2Proof Sys2Proof.Machine

namespace Sys2Proof.PanManager

/-! ### The row of a request -/

/-- A state in which a request's own part of the machine stands as the pan manager left it. -/
structure PanSettled (u t : State) : Prop where
  pans : t.pans = u.pans
  buf : t.buf = u.buf
  evt : t.evt = u.evt

theorem panSettled_settleWaits {u t : State} (h : PanSettled u t) : PanSettled u (settleWaits t) :=
  have k := Frames.settleWaits_same Frames.sub_refl (Frames.same_refl (r := t))
  ⟨(k.pans rfl).trans h.pans, (k.buf rfl).trans h.buf, (k.evt rfl).trans h.evt⟩

theorem panSettled_dispatch (u : State) : PanSettled u (dispatch u) :=
  have k := Frames.dispatch_same Frames.sub_refl (Frames.same_refl (r := u))
  ⟨k.pans rfl, k.buf rfl, k.evt rfl⟩

/-- A request that leaves no grant to be taken up ends as the pan manager has it. -/
theorem panRequest_settled {r : Nat} {f : State → State} {s : State} (hs : panServes s = true) (hr : r < 64) (hg : (f s).pans.grants = []) :
    PanSettled (f s) (panRequest r f s) := by
  have heq : panRequest r f s = settleWaits (settleGrants (f s)) := if_pos (by simp [hs, hr])
  have hd : settleGrants (f s) = dispatch (f s) := by unfold settleGrants; rw [hg]; rfl
  rw [heq, hd]
  exact panSettled_settleWaits (panSettled_dispatch _)

/-- A request whose one grant nobody takes up ends as the pan manager has it. -/
theorem panRequest_granted {r h : Nat} {f : State → State} {s : State} (hs : panServes s = true) (hr : r < 64) (hg : (f s).pans.grants = [(r, h)])
    (ha : r ≠ reqAssembler) (hp : r ≠ reqParity) (hrt : r ≠ reqRetrieve) (hb : ∀ b ∈ (f s).blks, ∀ e, b.place = .panWait e → reqEngine e ≠ r) :
    PanSettled (f s) (panRequest r f s) := by
  have heq : panRequest r f s = settleWaits (settleGrants (f s)) := if_pos (by simp [hs, hr])
  have hfind : (f s).blks.find? (fun b => match b.place with | .panWait e => reqEngine e == r | _ => false) = none := by
    refine List.find?_eq_none.mpr fun b hbm => ?_
    split
    · rename_i e he; simpa using hb b hbm e he
    · decide
  have htake : takeUp (f s) (r, h) = f s := by
    unfold takeUp
    simp only [if_neg ha, if_neg hp, if_neg hrt]
    have : ∀ o : Option Blk, o = none → ∀ g : Blk → State, (match o with | some b => g b | none => f s) = f s := by
      rintro _ rfl _; rfl
    exact this _ hfind _
  have hd : settleGrants (f s) = dispatch (f s) := by
    unfold settleGrants; rw [hg, List.foldl_cons, List.foldl_nil, htake]
  rw [heq, hd]
  exact panSettled_settleWaits (panSettled_dispatch _)

/-! ### Waiting requests -/

theorem length_insertWaiter (a : PanWaiter) (l : List PanWaiter) : (insertWaiter a l).length = l.length + 1 := by
  induction l with
  | nil => rfl
  | cons b l ih => unfold insertWaiter; split <;> simp [ih]

theorem length_foldl_insertWaiter (l acc : List PanWaiter) : (l.foldl (fun l w => insertWaiter w l) acc).length = l.length + acc.length := by
  induction l generalizing acc with
  | nil => simp
  | cons a l ih => rw [List.foldl_cons, ih, length_insertWaiter, List.length_cons]; omega

theorem allWaiters_eq_nil_iff (s : State) : allWaiters s = [] ↔ ∀ p, (s.pan p).waiting = [] := by
  rw [← List.length_eq_zero_iff, allWaiters, length_foldl_insertWaiter, List.length_nil, Nat.add_zero, List.length_eq_zero_iff,
    List.flatMap_eq_nil_iff]
  exact ⟨fun h p => h p (List.mem_finRange p), fun h p _ => h p⟩

theorem allWaiters_single {s : State} {home : Fin 4} {w : PanWaiter} (h : ∀ p, (s.pan p).waiting = if p = home then [w] else []) :
    allWaiters s = [w] := by
  have hflat : allPans.flatMap (fun p => (s.pan p).waiting) = [w] := by
    rw [funext h]
    match home with
    | 0 => rfl
    | 1 => rfl
    | 2 => rfl
    | 3 => rfl
  rw [allWaiters, hflat]
  rfl

theorem foldl_modPan_frame (f : Pan → Pan) (l : List (Fin 4)) (s : State) :
    l.foldl (fun s p => s.modPan p f) s = { s with pans := { s.pans with pan := (l.foldl (fun s p => s.modPan p f) s).pans.pan } } := by
  induction l generalizing s with
  | nil => rfl
  | cons p l ih => rw [List.foldl_cons, ih]; rfl

theorem pan_foldl_modPan (f : Pan → Pan) (l : List (Fin 4)) (hnd : l.Nodup) (s : State) (q : Fin 4) :
    (l.foldl (fun s p => s.modPan p f) s).pan q = if q ∈ l then f (s.pan q) else s.pan q := by
  induction l generalizing s with
  | nil => rfl
  | cons p l ih =>
    obtain ⟨hp, hnd⟩ := List.nodup_cons.mp hnd
    rw [List.foldl_cons, ih hnd]
    by_cases hq : p = q
    · subst hq; rw [if_neg hp, if_pos List.mem_cons_self, pan_modPan_same]
    · rw [pan_modPan_other s f hq]; simp [Ne.symm hq]

theorem pan_dropWaiter (r : Nat) (s : State) (q : Fin 4) :
    (dropWaiter r s).pan q = { s.pan q with waiting := (s.pan q).waiting.filter (fun w => w.requester != r) } :=
  (pan_foldl_modPan _ _ (List.nodup_finRange 4) s q).trans (if_pos (List.mem_finRange q))

theorem dropWaiter_frame (r : Nat) (s : State) : dropWaiter r s = { s with pans := { s.pans with pan := (dropWaiter r s).pans.pan } } :=
  foldl_modPan_frame _ _ s

theorem panVector_ext {v w : Vector Pan 4} (h : ∀ p : Fin 4, v[p] = w[p]) : v = w := Vector.ext fun i hi => h ⟨i, hi⟩

/-- The machine with a request waiting in its home pan. -/
def withWaiter (home : Fin 4) (w : PanWaiter) (s : State) : State :=
  let t := s.modPan home (fun q => { q with waiting := q.waiting ++ [w] })
  { t with pans := { t.pans with ages := t.pans.ages + 1 } }

/-- The machine with one more request counted. -/
def aged (s : State) : State := { s with pans := { s.pans with ages := s.pans.ages + 1 } }

section

variable {s : State} {home : Fin 4} {w : PanWaiter}

theorem pan_withWaiter (h0 : allWaiters s = []) (p : Fin 4) :
    (withWaiter home w s).pan p = { s.pan p with waiting := if p = home then [w] else [] } := by
  have hw := (allWaiters_eq_nil_iff s).mp h0
  by_cases hp : p = home
  · subst hp
    exact (pan_modPan_same s p _).trans (by rw [hw p]; simp)
  · refine (pan_modPan_other s _ (Ne.symm hp)).trans ?_
    rw [if_neg hp, ← hw p]

theorem allWaiters_withWaiter (h0 : allWaiters s = []) : allWaiters (withWaiter home w s) = [w] :=
  allWaiters_single fun p => by rw [pan_withWaiter h0]

theorem dropWaiter_withWaiter (h0 : allWaiters s = []) : dropWaiter w.requester (withWaiter home w s) = aged s := by
  have hw := (allWaiters_eq_nil_iff s).mp h0
  have hv : (dropWaiter w.requester (withWaiter home w s)).pans.pan = s.pans.pan := by
    refine panVector_ext fun p => (pan_dropWaiter w.requester (withWaiter home w s) p).trans ?_
    rw [pan_withWaiter h0]
    have : ((if p = home then [w] else []).filter fun x => x.requester != w.requester) = (s.pan p).waiting := by
      rw [hw p]; split <;> simp
    exact congrArg (fun l => ({ s.pan p with waiting := l } : Pan)) this
  rw [dropWaiter_frame, hv]
  rfl

end

/-! ### What a decision reads -/

/-- Machines that differ in what waits, in the count of requests and in the last answer. -/
def AlikePans (s t : State) : Prop :=
  ∃ v a r, t = { s with pans := { s.pans with pan := v, ages := a, result := r } } ∧ ∀ p : Fin 4, ∃ w, v[p] = { s.pans.pan[p] with waiting := w }

theorem alikePans_withWaiter {s : State} (home : Fin 4) (w : PanWaiter) (h0 : allWaiters s = []) : AlikePans s (withWaiter home w s) :=
  ⟨(withWaiter home w s).pans.pan, _, _, rfl, fun p => ⟨_, pan_withWaiter h0 p⟩⟩

section

variable {s t : State}

theorem AlikePans.pan (h : AlikePans s t) (p : Fin 4) : ∃ w, t.pan p = { s.pan p with waiting := w } := by
  obtain ⟨v, a, r, rfl, hv⟩ := h
  exact hv p

theorem AlikePans.sameTable (h : AlikePans s t) : SameTable s t := by
  obtain ⟨v, a, r, rfl, hv⟩ := id h
  refine ⟨rfl, fun p => ?_⟩
  obtain ⟨w, hw⟩ := h.pan p
  rw [hw]
  exact ⟨rfl, rfl, rfl, rfl, rfl⟩

theorem AlikePans.nextFree (h : AlikePans s t) (p : Fin 4) : nextFree t p = nextFree s p := by
  unfold Machine.nextFree
  obtain ⟨w, hw⟩ := h.pan p
  rw [h.sameTable.first, hw]
  obtain ⟨v, a, r, rfl, hv⟩ := h
  rfl

theorem AlikePans.mayTake (h : AlikePans s t) (p : Fin 4) (r : Nat) (charge : Option Inst) (b : Bool) : mayTake t p r charge b = mayTake s p r charge b := by
  obtain ⟨w, hw⟩ := h.pan p
  unfold Machine.mayTake panOn
  rw [hw]
  obtain ⟨v, a, r', rfl, hv⟩ := h
  rfl

theorem AlikePans.tryPans (h : AlikePans s t) (ps : List (Fin 4)) (b : Bool) : tryPans t ps b = tryPans s ps b := by
  induction ps generalizing b with
  | nil => rfl
  | cons p ps ih =>
    obtain ⟨w, hw⟩ := h.pan p
    rw [Machine.tryPans, Machine.tryPans, hw, ih]

theorem AlikePans.servingPan (h : AlikePans s t) (r size : Nat) (charge : Option Inst) : servingPan t r size charge = servingPan s r size charge := by
  unfold Machine.servingPan
  split
  · rfl
  · rw [h.tryPans]
    congr 2
    funext x
    exact h.mayTake ..

theorem AlikePans.meetsRebuild (h : AlikePans s t) (home : Fin 4) : meetsRebuild t home = meetsRebuild s home := by
  unfold Machine.meetsRebuild
  rw [h.tryPans]
  congr 1
  funext x
  obtain ⟨w, hw⟩ := h.pan x.1
  rw [hw]

theorem AlikePans.linkBad (h : AlikePans s t) (p : Fin 4) : linkBad t p = linkBad s p := by
  have hn := h.nextFree p
  have hf := h.sameTable.first p
  obtain ⟨w, hw⟩ := h.pan p
  unfold Machine.linkBad bufStripe
  rw [hn, hf, hw]
  obtain ⟨v, a, r', rfl, hv⟩ := h
  rfl

end

end Sys2Proof.PanManager

end

section

/-! PROOFS. What ALLOC answers (R228, R229, R232 to R234). -/

open Sys2Proof Sys2Proof.Machine

namespace Sys2Proof.PanManager

/-! ### A grant -/

theorem raiseEv_frame (e : Ev) (src res inst : Nat) (det : Bytes) (s : State) : ∃ x, raiseEv e src res inst det s = { s with evt := x } := by
  unfold raiseEv
  split
  · exact ⟨s.evt, rfl⟩
  · exact ⟨_, rfl⟩

/-- Thresholds change a pan's warning state alone, and the events. -/
theorem settlePan_frame (p : Fin 4) (s : State) : ∃ v x, settlePan p s = { s with pans := { s.pans with pan := v }, evt := x }
    ∧ (∀ q, q ≠ p → v[q] = s.pan q) ∧ ∃ l c, v[p] = { s.pan p with low := l, critical := c } := by
  unfold settlePan
  extract_lets q l c s1 det s2
  have h2 : ∃ x, s2 = { s1 with evt := x } := by
    unfold s2
    split
    · exact raiseEv_frame ..
    · exact ⟨s1.evt, rfl⟩
  obtain ⟨x2, h2⟩ := h2
  have h3 : ∃ x, (if (c && !q.critical) = true then raiseEv .panCritical 0x5 p.val noInst det s2 else s2) = { s2 with evt := x } := by
    split
    · exact raiseEv_frame ..
    · exact ⟨s2.evt, rfl⟩
  obtain ⟨x, h3⟩ := h3
  refine ⟨s1.pans.pan, x, by rw [h3, h2]; rfl, fun q hq => pan_modPan_other s _ (Ne.symm hq), l, c, pan_modPan_same s p _⟩

/-- The units charged. -/
def unitsCharged (v : Option Inst) (f : Nat → Nat) (u : Vector Nat 64) : Vector Nat 64 :=
  match v with
  | none => u
  | some v => vmod u v f

theorem chargeUnits_frame (v : Option Inst) (f : Nat → Nat) (s : State) :
    chargeUnits v f s = { s with pans := { s.pans with heldUnits := unitsCharged v f s.pans.heldUnits } } := by
  cases v <;> rfl

theorem unitsCharged_some {v : Inst} (f : Nat → Nat) (u : Vector Nat 64) : (unitsCharged (some v) f u)[v] = f u[v] := vmod_same _ _ _

/-- What a grant of the next free buffer changes. -/
theorem grantBuf_frame (p : Fin 4) (r : Nat) (charge : Option Inst) (s : State) :
    ∃ v x, (grantBuf p r charge s).2 = { s with
        pans := { s.pans with pan := v, held := insertHeld { handle := nextFree s p, owner := r, charge := charge, refs := bit (s.pan p).countMode } s.pans.held
                              heldUnits := unitsCharged charge (· + panUnits p) s.pans.heldUnits }
        evt := x }
      ∧ (∀ q, q ≠ p → v[q] = s.pan q)
      ∧ ∃ l c, v[p] = { s.pan p with list := popRun (s.pan p).list, free := (s.pan p).free - 1, low := l, critical := c } := by
  unfold grantBuf
  extract_lets h b s1 _ s2
  obtain ⟨v, x, hset, hother, l, c, hp⟩ := settlePan_frame p (chargeUnits charge (· + panUnits p) s2)
  have hpan (q : Fin 4) : (chargeUnits charge (· + panUnits p) s2).pan q = s1.pan q := by rw [chargeUnits_frame]; rfl
  refine ⟨v, x, ?_, fun q hq => ?_, l, c, ?_⟩
  · dsimp only
    rw [hset, chargeUnits_frame]
    rfl
  · rw [hother q hq, hpan]; exact pan_modPan_other s _ (Ne.symm hq)
  · have hs1 : s1.pan p = { s.pan p with list := popRun (s.pan p).list, free := (s.pan p).free - 1 } := pan_modPan_same s p _
    rw [hp, hpan, hs1]

theorem grantBuf_handle (p : Fin 4) (r : Nat) (charge : Option Inst) (s : State) : (grantBuf p r charge s).1 = nextFree s p := rfl

/-! ### The decision of a request that meets no other -/

section

variable {s : State} {home : Fin 4} {w : PanWaiter} {r size : Nat} {charge : Option Inst} {wait : Bool}

theorem waitsPan_of_idle (h0 : allWaiters s = []) (r : Nat) : waitsPan s r = false := by unfold waitsPan; rw [h0]; rfl

theorem serveWaiting_of_idle (h0 : allWaiters s = []) : serveWaiting s = s := by unfold serveWaiting; rw [h0]; rfl

theorem serveWaiting_withWaiter (h0 : allWaiters s = []) : serveWaiting (withWaiter home w s) = serveOne (withWaiter home w s) w := by
  unfold serveWaiting; rw [allWaiters_withWaiter h0]; rfl

/-- What ALLOC answers once the request has been decided on. -/
def allocAnswer (r : Nat) (wait : Bool) (home : Fin 4) (u : State) : State :=
  if !waitsPan u r then panAnswer (.granted (lastGrant u r)) u
  else if wait || meetsRebuild u home then panAnswer .waits u
  else panAnswer .empty (dropWaiter r u)

/-- The request of an ALLOC. -/
def allocRequest (r size : Nat) (charge : Option Inst) (wait : Bool) (s : State) : PanWaiter :=
  { requester := r, size := size, charge := charge, age := s.pans.ages, noWait := !wait }

theorem panAlloc_of_noPan (h0 : allWaiters s = []) (hhome : homePan size = none) : panAlloc r size charge wait s = panReject errSize r 0 s := by
  unfold panAlloc
  rw [if_neg (by simp [waitsPan_of_idle h0]), hhome]

/-- A request that count mode does not turn away joins its home pan, and is decided on. -/
theorem panAlloc_of_taken (h0 : allWaiters s = []) (hhome : homePan size = some home)
    (hok : servingPan s r size charge ≠ none ∨ (s.pan home).countMode = false ∨ s.glb.mode = .assemble ∨ s.glb.mode = .service) :
    panAlloc r size charge wait s = allocAnswer r wait home (serveOne (withWaiter home (allocRequest r size charge wait s) s) (allocRequest r size charge wait s)) := by
  rw [← serveWaiting_withWaiter h0]
  unfold panAlloc
  rw [if_neg (by simp [waitsPan_of_idle h0]), hhome]
  refine if_neg fun h => ?_
  simp only [Bool.and_eq_true, bne_iff_ne, ne_eq, Option.isNone_iff_eq_none] at h
  obtain ⟨⟨⟨⟨hnone, -⟩, hcount⟩, hma⟩, hms⟩ := h
  rcases hok with h | h | h | h
  · exact h hnone
  · simp [hcount] at h
  · exact hma h
  · exact hms h

theorem panAlloc_of_countMode (h0 : allWaiters s = []) (hhome : homePan size = some home) (hnone : servingPan s r size charge = none)
    (hmeets : meetsRebuild s home = false) (hcount : (s.pan home).countMode = true) (hma : s.glb.mode ≠ .assemble) (hms : s.glb.mode ≠ .service) :
    panAlloc r size charge wait s = panReject errMode r 0 s := by
  unfold panAlloc
  rw [if_neg (by simp [waitsPan_of_idle h0]), hhome]
  exact if_pos (by simp [hnone, hmeets, hcount, hma, hms])

theorem waitsPan_withWaiter (h0 : allWaiters s = []) : waitsPan (withWaiter home w s) w.requester = true := by
  unfold waitsPan; rw [allWaiters_withWaiter h0]; simp

/-- Nothing serves the request: it stays. -/
theorem serveOne_of_none (h0 : allWaiters s = []) (hnone : servingPan s w.requester w.size w.charge = none) :
    serveOne (withWaiter home w s) w = withWaiter home w s := by
  unfold serveOne
  rw [(alikePans_withWaiter home w h0).servingPan, hnone]

/-- A bad link turns the request away to a rebuild. -/
theorem serveOne_of_badLink {p : Fin 4} (h0 : allWaiters s = []) (hp : servingPan s w.requester w.size w.charge = some p) (hbad : linkBad s p = true) :
    serveOne (withWaiter home w s) w = startRebuild p (withWaiter home w s) := by
  unfold serveOne
  rw [(alikePans_withWaiter home w h0).servingPan, hp]
  exact if_pos ((alikePans_withWaiter home w h0).linkBad p ▸ hbad)

/-- The request is granted the next free buffer. -/
theorem serveOne_of_granted {p : Fin 4} (h0 : allWaiters s = []) (hp : servingPan s w.requester w.size w.charge = some p) (hgood : linkBad s p = false) :
    serveOne (withWaiter home w s) w = { (grantBuf p w.requester w.charge (aged s)).2 with
      pans := { (grantBuf p w.requester w.charge (aged s)).2.pans with
        grants := (grantBuf p w.requester w.charge (aged s)).2.pans.grants ++ [(w.requester, nextFree s p)] } } := by
  unfold serveOne
  rw [(alikePans_withWaiter home w h0).servingPan, hp]
  refine (if_neg ?_).trans ?_
  · rw [(alikePans_withWaiter home w h0).linkBad p, hgood]; decide
  · rw [dropWaiter_withWaiter h0]
    rfl

end

end Sys2Proof.PanManager

end

section

/-! PROOFS. The results of ALLOC (R228, R229, R232 to R234): granted, waiting, empty or rejected. -/

open Sys2Proof Sys2Proof.Machine Sys2Proof.Claims

namespace Sys2Proof.PanManager

section

variable {s : State} {home : Fin 4} {r size : Nat} {charge : Option Inst} {wait : Bool}

/-- An ALLOC that no bad link of the row's meets. -/
theorem allocRow_false : allocRow r size charge wait false s = panAlloc r size charge wait s := by
  unfold allocRow
  split
  · simp
  · rfl

theorem meetsRebuild_of_rebuilding {p : Fin 4} {s : State} {home : Fin 4} (hp : ∃ b, (p, b) ∈ tryPans s (allPans.drop home.val) false)
    (h : (s.pan p).rebuilding = true) : meetsRebuild s home = true :=
  have ⟨b, hb⟩ := hp
  List.any_eq_true.mpr ⟨(p, b), hb, h⟩

/-- The pan that serves is among those tried, before none that may. -/
theorem servingPan_tried {p : Fin 4} (hhome : homePan size = some home) (h : servingPan s r size charge = some p) :
    ∃ b, (p, b) ∈ tryPans s (allPans.drop home.val) false := by
  unfold servingPan at h
  rw [hhome] at h
  obtain ⟨x, hx, rfl⟩ := Option.map_eq_some_iff.mp h
  exact ⟨x.2, List.mem_of_find?_eq_some hx⟩

theorem rejected_alloc {kind : Nat} (hs : panServes s = true) (hr : r < 64) (hg : s.pans.grants = [])
    (h : panAlloc r size charge wait s = panReject kind r 0 s) : Gives (exec (.alloc r size charge wait false) s) fun t =>
      t.pans = { s.pans with result := .rejected kind, errKind := kind, errReq := r, errHandle := 0 } ∧ t.buf = s.buf ∧ t.evt = s.evt := by
  have hrow : allocRow r size charge wait false s = panReject kind r 0 s := allocRow_false.trans h
  have hset := panRequest_settled (f := allocRow r size charge wait false) hs hr (by rw [hrow]; exact hg)
  rw [hrow] at hset
  exact ⟨_, rfl, hset.pans, hset.buf, hset.evt⟩

end

theorem allocAnswers_granted {s : State} {home p : Fin 4} {r size : Nat} {charge : Option Inst} {wait : Bool} (hs : panServes s = true) (hr : r < 64)
    (ha : r ≠ reqAssembler) (hpar : r ≠ reqParity) (hret : r ≠ reqRetrieve) (hblk : ∀ b ∈ s.blks, ∀ e, b.place = .panWait e → reqEngine e ≠ r)
    (hg : s.pans.grants = []) (h0 : allWaiters s = []) (hhome : homePan size = some home) (hp : servingPan s r size charge = some p)
    (hgood : linkBad s p = false) :
    ∃ u v l c x, panAlloc r size charge wait s = u ∧ PanSettled u (panRequest r (allocRow r size charge wait false) s)
      ∧ u = { s with pans := { s.pans with
          pan := v, held := insertHeld { handle := nextFree s p, owner := r, charge := charge, refs := bit (s.pan p).countMode } s.pans.held
          heldUnits := unitsCharged charge (· + panUnits p) s.pans.heldUnits, ages := s.pans.ages + 1, grants := [(r, nextFree s p)]
          result := .granted (nextFree s p) }, evt := x }
      ∧ (∀ q, q ≠ p → v[q] = s.pan q) ∧ v[p] = { s.pan p with list := popRun (s.pan p).list, free := (s.pan p).free - 1, low := l, critical := c } := by
  obtain ⟨v, x, hframe, hother, l, c, hpan⟩ := grantBuf_frame p r charge (aged s)
  have hserve := serveOne_of_granted (w := allocRequest r size charge wait s) (home := home) h0 hp hgood
  have htaken := panAlloc_of_taken (wait := wait) h0 hhome (.inl (by rw [hp]; simp) : servingPan s r size charge ≠ none ∨ _)
  generalize hu : serveOne (withWaiter home (allocRequest r size charge wait s) s) (allocRequest r size charge wait s) = u at *
  have hu' : u = { s with pans := { s.pans with
      pan := v, held := insertHeld { handle := nextFree s p, owner := r, charge := charge, refs := bit (s.pan p).countMode } s.pans.held
      heldUnits := unitsCharged charge (· + panUnits p) s.pans.heldUnits, ages := s.pans.ages + 1, grants := [(r, nextFree s p)] }, evt := x } := by
    rw [hserve]
    show { (grantBuf p r charge (aged s)).2 with pans := { (grantBuf p r charge (aged s)).2.pans with
      grants := (grantBuf p r charge (aged s)).2.pans.grants ++ [(r, nextFree s p)] } } = _
    rw [hframe]
    dsimp only [aged]
    rw [hg]
    rfl
  have hidle : waitsPan u r = false := by
    refine waitsPan_of_idle ((allWaiters_eq_nil_iff u).mpr fun q => ?_) r
    have hw := (allWaiters_eq_nil_iff s).mp h0 q
    rw [hu']
    show v[q].waiting = []
    by_cases hq : q = p
    · subst hq; rw [hpan]; exact hw
    · rw [hother q hq]; exact hw
  have hanswer : allocAnswer r wait home u = panAnswer (.granted (nextFree s p)) u := by
    have hlast : lastGrant u r = nextFree s p := by rw [hu']; simp [lastGrant]
    exact (if_pos (by rw [hidle]; rfl)).trans (by rw [hlast])
  have hrow : allocRow r size charge wait false s = panAnswer (.granted (nextFree s p)) u := allocRow_false.trans (htaken.trans hanswer)
  have hset := panRequest_granted (f := allocRow r size charge wait false) (h := nextFree s p) hs hr (by rw [hrow, hu']; rfl) ha hpar hret
    (by rw [hrow, hu']; exact hblk)
  rw [hrow] at hset
  exact ⟨_, v, l, c, x, htaken.trans hanswer, hset, by rw [hu']; rfl, hother, hpan⟩

/-! ### A rebuild -/

theorem raiseEv_evt_congr {s t : State} (hg : t.glb = s.glb) (he : t.evt = s.evt) (e : Ev) (src res inst : Nat) (det : Bytes) :
    (raiseEv e src res inst det t).evt = (raiseEv e src res inst det s).evt := by
  unfold raiseEv
  rw [hg, he]
  split
  · exact he
  · rfl

theorem startRebuild_frame (p : Fin 4) (s : State) : startRebuild p s = { s.modPan p (fun q => { q with rebuilding := true }) with
    evt := (raiseEv .panListRebuild 0x5 p.val noInst (leBytes 1 p.val) s).evt } := by
  obtain ⟨x, hx⟩ := raiseEv_frame .panListRebuild 0x5 p.val noInst (leBytes 1 p.val) (s.modPan p (fun q => { q with rebuilding := true }))
  have he := raiseEv_evt_congr (s := s) (t := s.modPan p (fun q => { q with rebuilding := true })) rfl rfl .panListRebuild 0x5 p.val noInst (leBytes 1 p.val)
  rw [startRebuild, hx]
  rw [hx] at he
  rw [← he]

theorem pan_startRebuild_same (p : Fin 4) (s : State) : (startRebuild p s).pan p = { s.pan p with rebuilding := true } := by
  rw [startRebuild_frame]; exact pan_modPan_same s p _

theorem pan_startRebuild_other (s : State) {p q : Fin 4} (h : q ≠ p) : (startRebuild p s).pan q = s.pan q := by
  rw [startRebuild_frame]; exact pan_modPan_other s _ (Ne.symm h)

theorem mayTake_startRebuild_same (p : Fin 4) (s : State) (r : Nat) (charge : Option Inst) (b : Bool) : mayTake (startRebuild p s) p r charge b = false := by
  unfold mayTake
  rw [pan_startRebuild_same]
  simp

theorem mayTake_startRebuild_other (s : State) {p q : Fin 4} (h : q ≠ p) (r : Nat) (charge : Option Inst) (b : Bool) :
    mayTake (startRebuild p s) q r charge b = mayTake s q r charge b := by
  unfold mayTake panOn
  rw [pan_startRebuild_other s h, startRebuild_frame]
  rfl

/-- Once the pan that serves rebuilds its list, no pan serves, and the request has it before it. -/
theorem tryPans_startRebuild {p : Fin 4} {s : State} {r : Nat} {charge : Option Inst} (ps : List (Fin 4)) {b b' : Bool}
    (h : (tryPans s ps b).find? (fun x => mayTake s x.1 r charge x.2) = some (p, b')) :
    (tryPans (startRebuild p s) ps b).find? (fun x => mayTake (startRebuild p s) x.1 r charge x.2) = none
      ∧ ∃ c, (p, c) ∈ tryPans (startRebuild p s) ps b := by
  induction ps generalizing b with
  | nil => simp [tryPans] at h
  | cons q ps ih =>
    rw [tryPans] at h ⊢
    by_cases hq : q = p
    · subst hq
      rw [pan_startRebuild_same]
      exact ⟨by simp [mayTake_startRebuild_same], b, by simp⟩
    · rw [pan_startRebuild_other s hq]
      have hm : ¬ mayTake s q r charge b = true := by
        intro hm
        rw [List.find?_cons_of_pos (by exact hm)] at h
        exact hq (congrArg Prod.fst (Option.some.inj h))
      rw [List.find?_cons_of_neg (by exact hm)] at h
      rw [List.find?_cons_of_neg (by rw [mayTake_startRebuild_other s hq]; exact hm)]
      split at h
      · rename_i hc
        rw [if_pos hc]
        exact ⟨(ih h).1, (ih h).2.imp fun _ => List.mem_cons_of_mem _⟩
      · simp at h

section

variable {s : State} {home p : Fin 4} {r size : Nat} {charge : Option Inst} {wait bad : Bool}

theorem servingPan_startRebuild (h : servingPan s r size charge = some p) : servingPan (startRebuild p s) r size charge = none := by
  unfold servingPan at h ⊢
  split at h
  · cases h
  · obtain ⟨⟨q, b⟩, hx, rfl⟩ := Option.map_eq_some_iff.mp h
    simp only [(tryPans_startRebuild _ hx).1, Option.map_none]

theorem meetsRebuild_startRebuild (hhome : homePan size = some home) (h : servingPan s r size charge = some p) :
    meetsRebuild (startRebuild p s) home = true := by
  unfold servingPan at h
  rw [hhome] at h
  obtain ⟨⟨q, b⟩, hx, rfl⟩ := Option.map_eq_some_iff.mp h
  exact meetsRebuild_of_rebuilding (tryPans_startRebuild _ hx).2 (by rw [pan_startRebuild_same])

theorem pan_waiting_startRebuild (s : State) (p q : Fin 4) : ((startRebuild p s).pan q).waiting = (s.pan q).waiting := by
  by_cases hq : q = p
  · subst hq; rw [pan_startRebuild_same]
  · rw [pan_startRebuild_other s hq]

theorem allWaiters_startRebuild (s : State) (p : Fin 4) : allWaiters (startRebuild p s) = allWaiters s := by
  unfold allWaiters
  rw [funext fun q => pan_waiting_startRebuild s p q]

/-- What a request leaves that waits for a rebuild. -/
structure WaitsForRebuild (s u : State) (p home : Fin 4) (w : PanWaiter) : Prop where
  rebuilding : (u.pan p).rebuilding = true
  held : u.pans.held = s.pans.held
  grants : u.pans.grants = s.pans.grants
  buf : u.buf = s.buf
  evt : u.evt = (raiseEv .panListRebuild 0x5 p.val noInst (leBytes 1 p.val) s).evt
  waiting : (u.pan home).waiting = [w]

theorem waitsForRebuild_of_badLink {w : PanWaiter} (h0 : allWaiters s = []) : WaitsForRebuild s (startRebuild p (withWaiter home w s)) p home w where
  rebuilding := by rw [pan_startRebuild_same]
  held := by rw [startRebuild_frame]; rfl
  grants := by rw [startRebuild_frame]; rfl
  buf := by rw [startRebuild_frame]; rfl
  evt := by rw [startRebuild_frame]; exact raiseEv_evt_congr (s := s) (t := withWaiter home w s) rfl rfl ..
  waiting := by rw [pan_waiting_startRebuild, pan_withWaiter h0, if_pos rfl]

theorem waitsForRebuild_of_row {w : PanWaiter} (h0 : allWaiters s = []) : WaitsForRebuild s (withWaiter home w (startRebuild p s)) p home w where
  rebuilding := by rw [pan_withWaiter (by rw [allWaiters_startRebuild, h0]), pan_startRebuild_same]
  held := by rw [startRebuild_frame]; rfl
  grants := by rw [startRebuild_frame]; rfl
  buf := by rw [startRebuild_frame]; rfl
  evt := by rw [startRebuild_frame]; rfl
  waiting := by rw [pan_withWaiter (by rw [allWaiters_startRebuild, h0]), if_pos rfl]

theorem allocAnswer_waits {u : State} (hw : waitsPan u r = true) (hm : (wait || meetsRebuild u home) = true) :
    allocAnswer r wait home u = panAnswer .waits u :=
  (if_neg (by rw [hw]; decide)).trans (if_pos hm)

theorem allocRow_badLink (h0 : allWaiters s = []) (hhome : homePan size = some home) (hp : servingPan s r size charge = some p)
    (hbitmap : (s.pan p).bitmap = false) (hbad : bad = true ∨ linkBad s p = true) (hcount : (s.pan home).countMode = false) :
    ∃ u, allocRow r size charge wait bad s = panAnswer .waits u ∧ WaitsForRebuild s u p home (allocRequest r size charge wait s) := by
  have hrow : allocRow r size charge wait bad s = panAlloc r size charge wait (if bad then startRebuild p s else s) := by
    unfold allocRow
    rw [hp]
    simp [hbitmap, waitsPan_of_idle h0]
  cases hb : bad with
  | true =>
    have h0' : allWaiters (startRebuild p s) = [] := by rw [allWaiters_startRebuild, h0]
    have hnone := servingPan_startRebuild hp
    have hcount' : ((startRebuild p s).pan home).countMode = false := by
      by_cases hq : home = p
      · subst hq; rw [pan_startRebuild_same]; exact hcount
      · rw [pan_startRebuild_other s hq]; exact hcount
    have hreq : allocRequest r size charge wait (startRebuild p s) = allocRequest r size charge wait s := by
      rw [startRebuild_frame]; rfl
    refine ⟨withWaiter home (allocRequest r size charge wait s) (startRebuild p s), ?_, waitsForRebuild_of_row h0⟩
    rw [← hb, hrow, hb, if_pos rfl, panAlloc_of_taken h0' hhome (.inr (.inl hcount')), hreq, serveOne_of_none h0' hnone]
    refine allocAnswer_waits (waitsPan_withWaiter h0') ?_
    rw [(alikePans_withWaiter home _ h0').meetsRebuild, meetsRebuild_startRebuild hhome hp, Bool.or_true]
  | false =>
    have hlink : linkBad s p = true := hbad.resolve_left (by simp [hb])
    have hp' : servingPan (withWaiter home (allocRequest r size charge wait s) s) r size charge = some p := by
      rw [(alikePans_withWaiter home _ h0).servingPan, hp]
    refine ⟨startRebuild p (withWaiter home (allocRequest r size charge wait s) s), ?_, waitsForRebuild_of_badLink h0⟩
    rw [← hb, hrow, hb, if_neg (by decide), panAlloc_of_taken h0 hhome (.inl (by rw [hp]; simp)), serveOne_of_badLink h0 hp hlink]
    refine allocAnswer_waits ?_ (by rw [meetsRebuild_startRebuild hhome hp', Bool.or_true])
    unfold waitsPan
    rw [allWaiters_startRebuild]
    exact waitsPan_withWaiter h0

/-- With nothing that serves, a request that is taken waits, or is answered EMPTY. -/
theorem allocRow_of_none (h0 : allWaiters s = []) (hhome : homePan size = some home) (hnone : servingPan s r size charge = none)
    (hmeets : meetsRebuild s home = false) (hok : (s.pan home).countMode = false ∨ s.glb.mode = .assemble ∨ s.glb.mode = .service) :
    allocRow r size charge false false s = panAnswer .empty (aged s)
      ∧ allocRow r size charge true false s = panAnswer .waits (withWaiter home (allocRequest r size charge true s) s) := by
  refine ⟨?_, ?_⟩ <;> rw [allocRow_false, panAlloc_of_taken h0 hhome (.inr hok), serveOne_of_none h0 hnone]
  · have hw : waitsPan (withWaiter home (allocRequest r size charge false s) s) r = true :=
      waitsPan_withWaiter (w := allocRequest r size charge false s) h0
    refine (if_neg (by rw [hw]; decide)).trans
      ((if_neg (by rw [(alikePans_withWaiter home _ h0).meetsRebuild, hmeets]; decide)).trans ?_)
    exact congrArg (panAnswer .empty) (dropWaiter_withWaiter h0)
  · exact allocAnswer_waits (waitsPan_withWaiter h0) (Bool.true_or _)

end

theorem allocAnswers : Claims.AllocAnswers := by
  intro r size charge wait s hs hr ha hpar hret hblk hg h0
  refine ⟨fun hnone => rejected_alloc hs hr hg (panAlloc_of_noPan h0 hnone), fun home hhome => ⟨fun p hp hgood => ?_, fun p bad hp hbitmap hbad hcount => ?_,
    fun hnone hmeets => ⟨fun hok => ?_, fun hcount hma hms => ?_⟩⟩⟩
  · obtain ⟨u, v, l, c, x, -, hset, rfl, hother, hpan⟩ := allocAnswers_granted (wait := wait) hs hr ha hpar hret hblk hg h0 hhome hp hgood
    refine ⟨_, rfl, ?_⟩
    unfold State.pan at hother hpan ⊢
    dsimp only
    rw [hset.pans, hset.buf]
    refine ⟨rfl, rfl, rfl, by simp only [hpan], by simp only [hpan], hother, fun w hw => ?_, rfl, fun hbm hsorted h hlow hlt => ?_⟩
    · subst hw; exact unitsCharged_some _ _
    · have hnext : nextFree s p = lowestGap (panFirst s p) (s.pans.held.map (·.handle)) := if_pos hbm
      have hmem := (lowestGap_spec (List.pairwise_map.mpr hsorted)).2.2 h hlow (hnext ▸ hlt)
      exact List.mem_map.mp hmem
  · obtain ⟨u, hu, hw⟩ := allocRow_badLink (wait := wait) h0 hhome hp hbitmap hbad hcount
    have hset := panRequest_settled (f := allocRow r size charge wait bad) hs hr (by rw [hu]; exact hw.grants.trans hg)
    rw [hu] at hset
    refine ⟨_, rfl, ?_⟩
    unfold State.pan
    dsimp only
    rw [hset.pans, hset.buf, hset.evt]
    exact ⟨rfl, hw.rebuilding, hw.held, hw.grants.trans hg, hw.buf, hw.evt, hw.waiting⟩
  · obtain ⟨hempty, hwaits⟩ := allocRow_of_none h0 hhome hnone hmeets hok
    refine ⟨?_, ?_⟩
    · have hset := panRequest_settled (f := allocRow r size charge false false) hs hr (by rw [hempty]; exact hg)
      rw [hempty] at hset
      exact ⟨_, rfl, hset.pans, hset.buf, hset.evt⟩
    · have hset := panRequest_settled (f := allocRow r size charge true false) hs hr (by rw [hwaits]; exact hg)
      rw [hwaits] at hset
      refine ⟨_, rfl, ?_⟩
      unfold State.pan
      dsimp only
      rw [hset.pans, hset.buf, hset.evt]
      exact ⟨rfl, (congrArg Pan.waiting (pan_withWaiter h0 home)).trans (if_pos rfl), rfl, rfl, rfl, rfl⟩
  · obtain ⟨t, ht, hpans, -, -⟩ := rejected_alloc (wait := wait) hs hr hg (panAlloc_of_countMode h0 hhome hnone hmeets hcount hma hms)
    exact ⟨t, ht, hpans⟩

end Sys2Proof.PanManager

end

section

/-! PROOFS. What FREE, HANDOFF, ACQUIRE, RELEASE, CANCEL and the end of a rebuild answer (R229, R231, R235). -/

open Sys2Proof Sys2Proof.Machine Sys2Proof.Claims

namespace Sys2Proof.PanManager

/-! ### What the parts of a request change -/

theorem writeLink_frame (st : Nat) (next : Option Nat) (s : State) :
    ∃ o d x, writeLink st next s = { s with pans := { s.pans with overlaid := o }, buf := d, evt := x } := by
  unfold writeLink
  extract_lets p overlaid kept t u
  have hu : ∃ d x, u = { s with buf := d, evt := x } := by
    unfold u
    split
    · unfold noteUncorr
      obtain ⟨x, hx⟩ := raiseEv_frame .bufUncorr 0x4 noRes noInst (leBytes 4 st ++ leBytes 1 1)
        { t with buf := { t.buf with eccUncorr := satInc 255 t.buf.eccUncorr, uncorrLoc := st } }
      exact ⟨_, x, by rw [hx]; rfl⟩
    · exact ⟨t.buf, s.evt, rfl⟩
  obtain ⟨d, x, hu⟩ := hu
  split
  · exact ⟨s.pans.overlaid, s.buf, s.evt, rfl⟩
  · split
    · exact ⟨_, _, _, congrArg (fun u : State => { u with
        buf := { u.buf with stripes := putStripe p (patch (kept.getD (zeros 1024)) 0 (linkBytes next)) u.buf.stripes }
        pans := { u.pans with overlaid := if overlaid then u.pans.overlaid else st :: u.pans.overlaid } }) hu⟩
    · exact ⟨s.pans.overlaid, t.buf, s.evt, rfl⟩

/-- What a freed buffer changes. -/
theorem freeBuf_frame (p : Fin 4) (b : HeldBuf) (s : State) :
    ∃ v o d x, freeBuf p b s = { s with
        pans := { s.pans with pan := v, held := s.pans.held.filter (fun c => c.handle != b.handle)
                              heldUnits := unitsCharged b.charge (· - panUnits p) s.pans.heldUnits, overlaid := o }
        buf := d, evt := x }
      ∧ (∀ q, (v[q]).waiting = (s.pan q).waiting) ∧ v[p].free = (s.pan p).free + 1 := by
  unfold freeBuf
  extract_lets _ s1 s2 s3 s4 leave s5
  have h3 : s3 = { s2 with pans := { s2.pans with heldUnits := unitsCharged b.charge (· - panUnits p) s2.pans.heldUnits } } := chargeUnits_frame ..
  have h4 : ∃ o d x, s4 = { s3 with pans := { s3.pans with overlaid := o }, buf := d, evt := x } := by
    unfold s4
    split
    · exact ⟨s3.pans.overlaid, s3.buf, s3.evt, rfl⟩
    · exact writeLink_frame ..
  obtain ⟨o, d, x, h4⟩ := h4
  have h5 : ∃ m : Pan → Bool, s5 = s4.modPan p (fun q => { q with countMode := m q }) := by
    unfold s5
    split
    · exact ⟨fun _ => false, rfl⟩
    · refine ⟨fun q => q.countMode, ?_⟩
      have hv : vmod s4.pans.pan p (fun q => { q with countMode := q.countMode }) = s4.pans.pan := panVector_ext fun q => by
        by_cases hq : p = q
        · subst hq; exact vmod_same _ _ _
        · exact vmod_other _ _ _ _ hq
      unfold State.modPan
      rw [hv]
  obtain ⟨m, h5⟩ := h5
  obtain ⟨v, y, hset, hother, l, c, hp⟩ := settlePan_frame p s5
  have hpan5 (q : Fin 4) : (s5.pan q).waiting = (s4.pan q).waiting ∧ (s5.pan q).free = (s4.pan q).free := by
    rw [h5]
    by_cases hq : p = q
    · subst hq; rw [pan_modPan_same]; exact ⟨rfl, rfl⟩
    · rw [pan_modPan_other s4 _ hq]; exact ⟨rfl, rfl⟩
  have hpan4 (q : Fin 4) : s4.pan q = s2.pan q := by rw [h4, h3]; rfl
  have hpan2 (q : Fin 4) : (s2.pan q).waiting = (s.pan q).waiting := by
    by_cases hq : p = q
    · subst hq; exact (congrArg Pan.waiting (pan_modPan_same s1 p _)).trans rfl
    · exact congrArg Pan.waiting (pan_modPan_other s1 _ hq)
  have hfree2 : (s2.pan p).free = (s.pan p).free + 1 := (congrArg Pan.free (pan_modPan_same s1 p _)).trans rfl
  refine ⟨v, o, d, y, ?_, fun q => ?_, ?_⟩
  · rw [hset, h5, h4, h3]; rfl
  · by_cases hq : q = p
    · subst hq; rw [hp]; exact (hpan5 q).1.trans ((congrArg Pan.waiting (hpan4 q)).trans (hpan2 q))
    · rw [hother q hq]; exact (hpan5 q).1.trans ((congrArg Pan.waiting (hpan4 q)).trans (hpan2 q))
  · rw [hp]; exact (hpan5 p).2.trans ((congrArg Pan.free (hpan4 p)).trans hfree2)

/-- The row of a request that leaves no grant and nothing waiting. -/
theorem request_settled {r : Nat} {f : State → State} {s u : State} (hs : panServes s = true) (hr : r < 64) (hg : s.pans.grants = [])
    (h : f s = u) (hgu : u.pans.grants = s.pans.grants) : PanSettled u (panRequest r f s) := by
  have hset := panRequest_settled (f := f) hs hr (by rw [h, hgu, hg])
  rwa [h] at hset

section

variable {s : State} {p : Fin 4} {r h dest : Nat} {b : HeldBuf}

theorem mem_modFirst {α : Type} {q : α → Bool} {f : α → α} {l : List α} {b : α} (h : l.find? q = some b) : f b ∈ modFirst q f l := by
  induction l with
  | nil => simp at h
  | cons a l ih =>
    unfold modFirst
    by_cases ha : q a = true
    · rw [List.find?_cons_of_pos ha] at h
      obtain rfl := Option.some.inj h
      simp [ha]
    · rw [List.find?_cons_of_neg ha] at h
      simp [ha, ih h]

theorem find_of_bufState (hb : bufState s p h = .held b) : s.pans.held.find? (fun c => c.handle == h) = some b := by
  unfold bufState at hb
  split at hb
  · cases hb
  · split at hb
    · rename_i c hc; obtain rfl : c = b := by injection hb
      exact hc
    · cases hb

/-! ### The entries of the table -/

theorem requests_of_none (hp : panOfHandle s h = none) :
    panFree r h s = panBadHandle r h s ∧ panHandoff r h dest s = panBadHandle r h s ∧ panAcquire r h s = panBadHandle r h s
      ∧ panRelease r h s = panBadHandle r h s := by
  refine ⟨?_, ?_, ?_, ?_⟩
  · unfold panFree; rw [hp]
  · unfold panHandoff; rw [hp]
  · unfold panAcquire; rw [hp]
  · unfold panRelease; rw [hp]

theorem requests_of_rebuilding (hp : panOfHandle s h = some p) (hreb : (s.pan p).rebuilding = true) :
    panFree r h s = panDefer .free r h s ∧ panHandoff r h dest s = panDefer (.handoff dest) r h s ∧ panAcquire r h s = panDefer .acquire r h s
      ∧ panRelease r h s = panDefer .release r h s := by
  refine ⟨?_, ?_, ?_, ?_⟩
  · unfold panFree; rw [hp]; exact if_pos hreb
  · unfold panHandoff; rw [hp]; exact if_pos hreb
  · unfold panAcquire; rw [hp]; exact if_pos hreb
  · unfold panRelease; rw [hp]; exact if_pos hreb

/-- The HELD entries with the entry of a handle changed. -/
def heldChanged (h : Nat) (f : HeldBuf → HeldBuf) (s : State) : State :=
  { s with pans := { s.pans with held := modFirst (fun c => c.handle == h) f s.pans.held } }

theorem ownerRequests_of_held (hp : panOfHandle s h = some p) (hreb : (s.pan p).rebuilding = false) (hb : bufState s p h = .held b)
    (hcount : (s.pan p).countMode = false) :
    panFree r h s = (if b.owner = r then serveWaiting (panAnswer .done (freeBuf p b s)) else panMisuse errForeign r h b.owner p s)
      ∧ panHandoff r h dest s = (if b.owner = r then panAnswer .done (heldChanged h (fun c => { c with owner := dest }) s)
          else panMisuse errForeign r h b.owner p s) := by
  refine ⟨?_, ?_⟩
  · unfold panFree; rw [hp]; simp only [hreb, hb, hcount, Bool.false_eq_true, if_false]
  · unfold panHandoff; rw [hp]; simp only [hreb, hb, hcount, Bool.false_eq_true, if_false]; rfl

theorem ownerRequests_of_free (hp : panOfHandle s h = some p) (hreb : (s.pan p).rebuilding = false) (hb : bufState s p h = .free)
    (hcount : (s.pan p).countMode = false) :
    panFree r h s = panMisuse errDouble r h noOwner p s ∧ panHandoff r h dest s = panMisuse errDouble r h noOwner p s := by
  refine ⟨?_, ?_⟩
  · unfold panFree; rw [hp]; simp only [hreb, hb, hcount, Bool.false_eq_true, if_false]
  · unfold panHandoff; rw [hp]; simp only [hreb, hb, hcount, Bool.false_eq_true, if_false]

theorem countRequests_of_held (hp : panOfHandle s h = some p) (hreb : (s.pan p).rebuilding = false) (hb : bufState s p h = .held b)
    (hcount : (s.pan p).countMode = true) :
    panFree r h s = panReject errMode r h s ∧ panHandoff r h dest s = panReject errMode r h s
      ∧ panAcquire r h s = (if b.refs < 255 then panAnswer .done (heldChanged h (fun c => { c with refs := c.refs + 1 }) s) else panReject errRefs r h s)
      ∧ panRelease r h s = (if b.refs ≤ 1 then serveWaiting (panAnswer .done (freeBuf p b s))
          else panAnswer .done (heldChanged h (fun c => { c with refs := c.refs - 1 }) s)) := by
  refine ⟨?_, ?_, ?_, ?_⟩
  · unfold panFree; rw [hp]; simp only [hreb, hb, hcount, Bool.false_eq_true, if_false, if_true]
  · unfold panHandoff; rw [hp]; simp only [hreb, hb, hcount, Bool.false_eq_true, if_false, if_true]
  · unfold panAcquire; rw [hp]; simp only [hreb, hb, hcount, Bool.false_eq_true, if_false, Bool.not_true]; rfl
  · unfold panRelease; rw [hp]; simp only [hreb, hb, hcount, Bool.false_eq_true, if_false, Bool.not_true]; rfl

/-- A buffer that goes back with nothing waiting for it. -/
theorem serveWaiting_freed (h0 : allWaiters s = []) : serveWaiting (panAnswer .done (freeBuf p b s)) = panAnswer .done (freeBuf p b s) := by
  refine serveWaiting_of_idle ((allWaiters_eq_nil_iff _).mpr fun q => ?_)
  obtain ⟨v, o, d, x, hf, hw, -⟩ := freeBuf_frame p b s
  have : ((panAnswer .done (freeBuf p b s)).pan q).waiting = v[q].waiting := by rw [hf]; rfl
  rw [this, hw, (allWaiters_eq_nil_iff s).mp h0]

end

/-! ### A rebuild's end -/

/-- The machine with a pan's list as its rebuild has it. -/
def relisted (p : Fin 4) (s : State) : State :=
  relink p (s.modPan p (fun q => { q with rebuilding := false, list := rebuildList s p }))

theorem relink_frame (p : Fin 4) (s : State) :
    ∃ o d x, relink p s = { s with pans := { s.pans with overlaid := o }, buf := d, evt := x } := by
  unfold relink
  generalize s.pans.overlaid ++ s.buf.damage.map (·.1) = l
  induction l generalizing s with
  | nil => exact ⟨s.pans.overlaid, s.buf, s.evt, rfl⟩
  | cons st l ih =>
    rw [List.foldl_cons]
    obtain ⟨o, d, x, h⟩ := ih (if (s.pan p).baseKib ≤ st && (st - (s.pan p).baseKib) % panKib p == 0 then
      match linkAfter (s.pan p).list (panFirst s p + (st - (s.pan p).baseKib) / panKib p) with | some n => writeLink st n s | none => s else s)
    have hone : ∃ o d x, (if (s.pan p).baseKib ≤ st && (st - (s.pan p).baseKib) % panKib p == 0 then
        match linkAfter (s.pan p).list (panFirst s p + (st - (s.pan p).baseKib) / panKib p) with | some n => writeLink st n s | none => s else s)
          = { s with pans := { s.pans with overlaid := o }, buf := d, evt := x } := by
      split
      · split
        · exact writeLink_frame ..
        · exact ⟨s.pans.overlaid, s.buf, s.evt, rfl⟩
      · exact ⟨s.pans.overlaid, s.buf, s.evt, rfl⟩
    obtain ⟨o', d', x', h'⟩ := hone
    exact ⟨o, d, x, h.trans (by rw [h'])⟩

theorem decisionOrder_nil : decisionOrder [] = [] := by decide

theorem dropNoWaits_of_idle {s : State} (h0 : allWaiters s = []) : dropNoWaits s = s := by unfold dropNoWaits; rw [h0]; rfl

theorem pan_relisted (p : Fin 4) (s : State) : (relisted p s).pan p = { s.pan p with rebuilding := false, list := rebuildList s p } := by
  obtain ⟨o, d, x, h⟩ := relink_frame p (s.modPan p (fun q => { q with rebuilding := false, list := rebuildList s p }))
  unfold relisted
  rw [h]
  exact pan_modPan_same s p _

theorem waiting_relisted (p q : Fin 4) (s : State) : ((relisted p s).pan q).waiting = (s.pan q).waiting := by
  obtain ⟨o, d, x, h⟩ := relink_frame p (s.modPan p (fun q => { q with rebuilding := false, list := rebuildList s p }))
  unfold relisted
  rw [h]
  by_cases hq : p = q
  · subst hq; exact (congrArg Pan.waiting (pan_modPan_same s p _)).trans rfl
  · exact congrArg Pan.waiting (pan_modPan_other s _ hq)

theorem pans_relisted (p : Fin 4) (s : State) :
    (relisted p s).pans.held = s.pans.held ∧ (relisted p s).pans.grants = s.pans.grants ∧ (relisted p s).pans.deferred = s.pans.deferred := by
  obtain ⟨o, d, x, h⟩ := relink_frame p (s.modPan p (fun q => { q with rebuilding := false, list := rebuildList s p }))
  unfold relisted
  rw [h]
  exact ⟨rfl, rfl, rfl⟩

/-- A rebuild ends with nothing that waited for it. -/
theorem listRebuilt_of_idle {p : Fin 4} {s : State} (hreb : (s.pan p).rebuilding = true) (hdef : s.pans.deferred = []) (h0 : allWaiters s = []) :
    listRebuilt p s = { relisted p s with pans := { (relisted p s).pans with deferred := [] } } := by
  have hidle : allWaiters { relisted p s with pans := { (relisted p s).pans with deferred := [] } } = [] :=
    (allWaiters_eq_nil_iff _).mpr fun q => (waiting_relisted p q s).trans ((allWaiters_eq_nil_iff s).mp h0 q)
  refine (if_pos hreb).trans ?_
  show dropNoWaits (serveWaiting ((decisionOrder (relisted p s).pans.deferred).foldl panCarry { relisted p s with pans := { (relisted p s).pans with deferred := [] } })) = _
  rw [(pans_relisted p s).2.2, hdef, decisionOrder_nil, List.foldl_nil, serveWaiting_of_idle hidle, dropNoWaits_of_idle hidle]

theorem rebuildList_sorted (s : State) (p : Fin 4) : ((rebuildList s p).map (·.first)).Pairwise (· < ·) := by
  unfold rebuildList
  rw [List.map_map, List.pairwise_map]
  exact (List.pairwise_lt_range.filter _).imp fun h => Nat.add_lt_add_left h _

theorem rebuildList_free (s : State) (p : Fin 4) {f : FreeRun} (hf : f ∈ rebuildList s p) : ∀ b ∈ s.pans.held, b.handle ≠ f.first := by
  obtain ⟨i, hi, rfl⟩ := List.mem_map.mp hf
  intro b hb heq
  have := (List.mem_filter.mp hi).2
  simp only [Bool.not_eq_true', List.any_eq_false, beq_iff_eq] at this
  exact this b hb heq

/-! ### What the requests answer -/

section

variable {s : State} {r : Nat} {f : State → State}

/-- A request whose answer changes the pan manager's registers alone. -/
theorem gives_of_settled {c : Instr} {u : State} {P : State → Prop} (hc : exec c s = .next (panRequest r f s)) (hs : panServes s = true) (hr : r < 64)
    (hg : s.pans.grants = []) (h : f s = u) (hgu : u.pans.grants = s.pans.grants) (hP : ∀ t, PanSettled u t → P t) : Gives (exec c s) P :=
  ⟨_, hc, hP _ (request_settled hs hr hg h hgu)⟩

end

/-- The answers that an event goes with. -/
theorem misuse_pans (kind r h owner : Nat) (p : Fin 4) (s : State) :
    (panMisuse kind r h owner p s).pans = { s.pans with result := .rejected kind, errKind := kind, errReq := r, errHandle := h % 2 ^ 18 }
      ∧ (panMisuse kind r h owner p s).evt = (raiseEv (if kind = errDouble then .panDoubleFree else .panForeignFree) 0x5 p.val noInst
          (leBytes 4 h ++ leBytes 1 r ++ leBytes 1 owner) s).evt :=
  ⟨(Frames.raiseEv_same Frames.sub_refl Frames.same_refl).pans rfl, raiseEv_evt_congr (s := s) (t := panReject kind r h s) rfl rfl ..⟩

theorem badHandle_pans (r h : Nat) (s : State) :
    (panBadHandle r h s).pans = { s.pans with result := .rejected errHandle, errKind := errHandle, errReq := r, errHandle := h % 2 ^ 18 }
      ∧ (panBadHandle r h s).evt = (raiseEv .panBadHandle 0x5 noRes noInst (leBytes 4 h ++ leBytes 1 r) s).evt :=
  ⟨(Frames.raiseEv_same Frames.sub_refl Frames.same_refl).pans rfl, raiseEv_evt_congr (s := s) (t := panReject errHandle r h s) rfl rfl ..⟩

theorem panRequestsAnswer : Claims.PanRequestsAnswer := by
  intro r h dest s p hs hr hg h0
  refine ⟨fun hp hreb => ⟨fun b hb hsorted => ⟨fun hcount how => ⟨?_, ?_⟩, fun hcount hfor c hc => ?_, fun hcount => ⟨fun hrefs => ?_, fun hrefs => ?_,
    fun hrefs => ?_, fun hrefs => ?_, fun c hc => ?_⟩⟩, fun hb hcount c hc => ?_⟩, fun hp hreb => ?_, fun hp c hc => ?_, ?_, fun hreb => ?_, fun hreb hdef => ?_⟩
  · obtain ⟨hfree, -⟩ := ownerRequests_of_held (r := r) (dest := dest) hp hreb hb hcount
    obtain ⟨v, o, d, x, hf, hw, hn⟩ := freeBuf_frame p b s
    refine gives_of_settled rfl hs hr hg (hfree.trans ((if_pos how).trans (serveWaiting_freed h0))) (by rw [hf]; rfl) fun t ht => ?_
    unfold State.pan
    rw [ht.pans, hf, (bufState_held hb).2.2]
    refine ⟨rfl, rfl, hn, fun w hw => ?_⟩
    show (unitsCharged b.charge (· - panUnits p) s.pans.heldUnits)[w] = _
    rw [hw]; exact unitsCharged_some _ _
  · obtain ⟨-, hhand⟩ := ownerRequests_of_held (r := r) (dest := dest % 64) hp hreb hb hcount
    refine gives_of_settled rfl hs hr hg (hhand.trans (if_pos how)) rfl fun t ht => ?_
    rw [ht.pans]
    exact ⟨rfl, mem_modFirst (f := fun c : HeldBuf => { c with owner := dest % 64 }) (find_of_bufState hb), map_handle_modFirst (by exact fun _ => rfl) _, rfl, rfl⟩
  · obtain ⟨hfree, -⟩ := ownerRequests_of_held (r := r) (dest := dest) hp hreb hb hcount
    obtain ⟨-, hhand⟩ := ownerRequests_of_held (r := r) (dest := dest % 64) hp hreb hb hcount
    have hmis := misuse_pans errForeign r h b.owner p s
    rcases hc with rfl | rfl
    · exact gives_of_settled rfl hs hr hg (hfree.trans (if_neg hfor)) (by rw [hmis.1]) fun t ht => ⟨ht.pans.trans hmis.1, ht.evt.trans hmis.2⟩
    · exact gives_of_settled rfl hs hr hg (hhand.trans (if_neg hfor)) (by rw [hmis.1]) fun t ht => ⟨ht.pans.trans hmis.1, ht.evt.trans hmis.2⟩
  · obtain ⟨-, -, hacq, -⟩ := countRequests_of_held (r := r) (dest := dest) hp hreb hb hcount
    refine gives_of_settled rfl hs hr hg (hacq.trans (if_pos hrefs)) rfl fun t ht => ?_
    rw [ht.pans]
    exact ⟨rfl, mem_modFirst (f := fun c : HeldBuf => { c with refs := c.refs + 1 }) (find_of_bufState hb), rfl⟩
  · obtain ⟨-, -, hacq, -⟩ := countRequests_of_held (r := r) (dest := dest) hp hreb hb hcount
    exact gives_of_settled rfl hs hr hg (hacq.trans (if_neg (by omega))) rfl fun t ht => ht.pans
  · obtain ⟨-, -, -, hrel⟩ := countRequests_of_held (r := r) (dest := dest) hp hreb hb hcount
    refine gives_of_settled rfl hs hr hg (hrel.trans (if_neg (by omega))) rfl fun t ht => ?_
    rw [ht.pans]
    exact ⟨rfl, mem_modFirst (f := fun c : HeldBuf => { c with refs := c.refs - 1 }) (find_of_bufState hb), rfl⟩
  · obtain ⟨-, -, -, hrel⟩ := countRequests_of_held (r := r) (dest := dest) hp hreb hb hcount
    obtain ⟨v, o, d, x, hf, hw, hn⟩ := freeBuf_frame p b s
    refine gives_of_settled rfl hs hr hg (hrel.trans ((if_pos hrefs).trans (serveWaiting_freed h0))) (by rw [hf]; rfl) fun t ht => ?_
    rw [ht.pans, hf, (bufState_held hb).2.2]
    exact ⟨rfl, rfl⟩
  · obtain ⟨hfree, -, -, -⟩ := countRequests_of_held (r := r) (dest := dest) hp hreb hb hcount
    obtain ⟨-, hhand, -, -⟩ := countRequests_of_held (r := r) (dest := dest % 64) hp hreb hb hcount
    rcases hc with rfl | rfl
    · exact gives_of_settled rfl hs hr hg hfree rfl fun t ht => ht.pans
    · exact gives_of_settled rfl hs hr hg hhand rfl fun t ht => ht.pans
  · obtain ⟨hfree, -⟩ := ownerRequests_of_free (r := r) (dest := dest) hp hreb hb hcount
    obtain ⟨-, hhand⟩ := ownerRequests_of_free (r := r) (dest := dest % 64) hp hreb hb hcount
    have hmis := misuse_pans errDouble r h noOwner p s
    rcases hc with rfl | rfl
    · exact gives_of_settled rfl hs hr hg hfree (by rw [hmis.1]) fun t ht => ht.pans.trans hmis.1
    · exact gives_of_settled rfl hs hr hg hhand (by rw [hmis.1]) fun t ht => ht.pans.trans hmis.1
  · obtain ⟨hfree, -, hacq, hrel⟩ := requests_of_rebuilding (r := r) (dest := dest) hp hreb
    obtain ⟨-, hhand, -, -⟩ := requests_of_rebuilding (r := r) (dest := dest % 64) hp hreb
    exact ⟨gives_of_settled rfl hs hr hg hfree rfl fun t ht => ht.pans, gives_of_settled rfl hs hr hg hhand rfl fun t ht => ht.pans,
      gives_of_settled rfl hs hr hg hacq rfl fun t ht => ht.pans, gives_of_settled rfl hs hr hg hrel rfl fun t ht => ht.pans⟩
  · obtain ⟨hfree, -, hacq, hrel⟩ := requests_of_none (r := r) (dest := dest) hp
    obtain ⟨-, hhand, -, -⟩ := requests_of_none (r := r) (dest := dest % 64) hp
    have hbad := badHandle_pans r h s
    rcases hc with rfl | rfl | rfl | rfl
    · exact gives_of_settled rfl hs hr hg hfree (by rw [hbad.1]) fun t ht => ⟨ht.pans.trans hbad.1, ht.evt.trans hbad.2⟩
    · exact gives_of_settled rfl hs hr hg hhand (by rw [hbad.1]) fun t ht => ⟨ht.pans.trans hbad.1, ht.evt.trans hbad.2⟩
    · exact gives_of_settled rfl hs hr hg hacq (by rw [hbad.1]) fun t ht => ⟨ht.pans.trans hbad.1, ht.evt.trans hbad.2⟩
    · exact gives_of_settled rfl hs hr hg hrel (by rw [hbad.1]) fun t ht => ⟨ht.pans.trans hbad.1, ht.evt.trans hbad.2⟩
  · refine gives_of_settled (f := panCancel r) (u := panAnswer .done (dropWaiter r s)) rfl hs hr hg rfl ?_ fun t ht => ?_
    · rw [dropWaiter_frame]; rfl
    · have hpan (q : Fin 4) : t.pan q = (dropWaiter r s).pan q := by unfold State.pan; rw [ht.pans]; rfl
      refine ⟨by rw [ht.pans]; rfl, fun q w hw => ?_, ?_⟩
      · rw [hpan, pan_dropWaiter] at hw
        simpa using (List.mem_filter.mp hw).2
      · rw [ht.pans, dropWaiter_frame]; rfl
  · have hsame : listRebuilt p s = s := if_neg (by rw [hreb]; decide)
    exact gives_of_settled (r := reqSteward) rfl hs (by decide) hg hsame rfl fun t ht => ht.pans
  · have hre := listRebuilt_of_idle hreb hdef h0
    obtain ⟨hheld, hgr, -⟩ := pans_relisted p s
    refine gives_of_settled (r := reqSteward) rfl hs (by decide) hg hre hgr fun t ht => ?_
    have hpan : t.pan p = { s.pan p with rebuilding := false, list := rebuildList s p } := by
      rw [← pan_relisted p s]; unfold State.pan; rw [ht.pans]
    rw [hpan, ht.pans]
    exact ⟨rfl, hheld, rebuildList_sorted s p, fun f hf => rebuildList_free s p hf⟩

end Sys2Proof.PanManager

/-- Settles O55: each request is decided by the pan of its handle, the state of its buffer and the pan's mode. -/
theorem Sys2Proof.panRequests : Obligations.PanRequests := ⟨PanManager.allocAnswers, PanManager.panRequestsAnswer⟩

end

section

/-! PROOFS. Write commands start (R55, R129, R246, R266, R277, R280). -/

open Sys2Proof Sys2Proof.Machine Sys2Proof.Claims

namespace Sys2Proof.Machine

/-! ### Streams that are changed -/

theorem find_modAll {α : Type} {p : α → Bool} {f : α → α} (hf : ∀ a, p (f a) = p a) (l : List α) : (modAll p f l).find? p = (l.find? p).map f := by
  induction l with
  | nil => rfl
  | cons a l ih =>
    unfold modAll at ih ⊢
    rw [List.map_cons]
    by_cases ha : p a = true
    · rw [if_pos ha, List.find?_cons_of_pos (by rw [hf, ha]), List.find?_cons_of_pos ha]
      rfl
    · rw [if_neg ha, List.find?_cons_of_neg ha, List.find?_cons_of_neg ha, ih]

theorem stream?_modStream {s : State} {sid : Nat} {f : Machine.Stream → Machine.Stream} (hf : ∀ x, (f x).sid = x.sid) :
    (s.modStream sid f).stream? sid = (s.stream? sid).map f :=
  find_modAll (fun a => by rw [hf]) s.streams

/-! ### Write commands -/

section

variable {s : State} {v : Inst} {c : Cmd} {x : Machine.Stream}

theorem not_pausedOut (h : (s.inst v).state = .active) : ¬ pausedOut s v = true := by simp [pausedOut, h]

theorem startWrite_begun {n : Nat} (hst : (s.inst v).state = .active) (hx : s.openStream? v c.target = some x) (hcut : x.cut = none) (hdir : x.dir = .append)
    (hf : writeFault c (writeParams c.desc) = none) : startWrite v c n s = hostBursts v c.uid x.sid n (loadSegment v c.uid (u16 c.desc 16) (u64 c.desc 8)
      (s.modCmd (some v) c.uid (fun c => { c with phase := .running }))) := by
  unfold startWrite
  simp only [hf, if_neg (not_pausedOut hst)]
  exact streamCmd_open _ hx hcut (by rw [hdir]; rfl)

theorem writeFault_none (hres : reservedZero c.desc [(8, 10), (24, 12)] = true) (hs : u64 c.desc 8 % 64 = 0) (ht : u64 c.desc 24 % 64 = 0)
    (h1 : 1 ≤ u16 c.desc 16) (h256 : u16 c.desc 16 ≤ 256) : writeFault c (writeParams c.desc) = none := by
  have hs' : aligned64 (writeParams c.desc).sgl = true := (aligned64_iff _).mpr hs
  have ht' : aligned64 (writeParams c.desc).tails = true := (aligned64_iff _).mpr ht
  have he : (writeParams c.desc).entries = u16 c.desc 16 := rfl
  simp [writeFault, firstFault, hres, hs', ht', he, h1, h256]

theorem closeStream_waits {s1 : State} {y : Machine.Stream} (hst : (s.inst v).state = .active) (hx : s.openStream? v c.target = some x) (hcut : x.cut = none)
    (hdir : x.dir = .append) (hearly : closeEarly x.sid c.uid s = (none, s1)) (hy : s1.stream? x.sid = some y) (hres : reservedZero c.desc [] = true) :
    closeStream v c s = settleWaits (dispatch (pump x.sid (endStream (s1.modCmd (some v) c.uid (fun c => { c with phase := .commitWait x.sid y.itemPos })) y))) := by
  unfold closeStream
  simp [hres, hx, hdir, pausedOut, hst, hcut, hearly, hy]

theorem closeStream_ends (hx : s.openStream? v c.target = some x) (hdir : x.dir ≠ .append) (hres : reservedZero c.desc [] = true) :
    closeStream v c s = completeSt (some v) c.uid .ok (sweepStreams (endStream s x)) := by
  unfold closeStream
  simp [hres, hx, hdir, closeNow, endSt]

theorem sync_waits {s1 : State} {y : Machine.Stream} (hst : (s.inst v).state = .active) (hx : s.openStream? v c.target = some x) (hcut : x.cut = none)
    (hdir : x.dir = .append) (hearly : closeEarly x.sid c.uid s = (none, s1)) (hy : s1.stream? x.sid = some y) (hres : reservedZero c.desc [] = true) :
    sync v c s = settleWaits (pump x.sid (dispatch
      ((addItem x.sid .flush s1).modCmd (some v) c.uid (fun c => { c with phase := .commitWait x.sid y.itemPos })))) := by
  unfold sync
  rw [if_neg (by simp [hres]), if_neg (not_pausedOut hst), streamCmd_open _ hx hcut (by rw [hdir]; rfl)]
  simp only [hearly, hy]

/-- Filemarks that join a stream's order, and its count of them. -/
def marksAdded (sid count : Nat) (s : State) : State :=
  ((List.range count).foldl (fun s _ => addItem sid .mark s) s).modStream sid (fun x => { x with marksTotal := x.marksTotal + count })

theorem writeMark_waits {s1 : State} {y : Machine.Stream} (hst : (s.inst v).state = .active) (hx : s.openStream? v c.target = some x) (hcut : x.cut = none)
    (hdir : x.dir = .append) (hearly : closeEarly x.sid c.uid s = (none, s1)) (hy : s1.stream? x.sid = some y)
    (hres : reservedZero c.desc [(8, 2)] = true) (hcount : u16 c.desc 8 ≠ 0) :
    writeMark v c s = settleWaits (pump x.sid (dispatch
      (((marksAdded x.sid (u16 c.desc 8) s1).modInst v (fun i => { i with stats := { i.stats with marks := i.stats.marks + u16 c.desc 8 } })).modCmd (some v) c.uid
        (fun c' => { c' with phase := .markWait x.sid (if y.itemPos = x.itemPos then none else some (y.itemPos - 1)) (y.marksTotal + u16 c.desc 8) })))) := by
  unfold writeMark
  rw [if_neg (by simp [hres, hcount]), if_neg (not_pausedOut hst), streamCmd_open _ hx hcut (by rw [hdir]; rfl)]
  simp only [hearly, hy]
  rfl

end

theorem stream?_addItem {s : State} {sid : Nat} {mk : Nat → Item} {y : Machine.Stream} (hy : s.stream? sid = some y) :
    (addItem sid mk s).stream? sid = some { y with items := y.items ++ [mk y.itemPos], itemPos := y.itemPos + 1 } := by
  unfold addItem
  rw [stream?_modStream (by exact fun _ => rfl), hy]
  rfl

/-- Items that are added one after another. -/
theorem stream?_foldl_addItem {sid : Nat} {mk : Nat → Item} (n : Nat) {s : State} {y : Machine.Stream} (hy : s.stream? sid = some y) :
    ((List.range n).foldl (fun s _ => addItem sid mk s) s).stream? sid
      = some { y with items := y.items ++ (List.range n).map (fun i => mk (y.itemPos + i)), itemPos := y.itemPos + n } := by
  induction n with
  | zero => simp [hy]
  | succ n ih =>
    rw [List.range_succ, List.foldl_append, List.foldl_cons, List.foldl_nil, stream?_addItem ih]
    simp [Nat.add_assoc]

theorem stream?_marksAdded {sid n : Nat} {s : State} {y : Machine.Stream} (hy : s.stream? sid = some y) :
    (marksAdded sid n s).stream? sid = some { y with
      items := y.items ++ (List.range n).map (fun i => .mark (y.itemPos + i)), itemPos := y.itemPos + n, marksTotal := y.marksTotal + n } := by
  unfold marksAdded
  rw [stream?_modStream (by exact fun _ => rfl), stream?_foldl_addItem n hy]
  rfl

theorem insts_marksAdded (sid n : Nat) (s : State) : (marksAdded sid n s).insts = s.insts := by
  have h : ∀ (l : List Nat) (t : State), (l.foldl (fun s _ => addItem sid .mark s) t).insts = t.insts := fun l => by
    induction l with
    | nil => exact fun _ => rfl
    | cons a l ih => exact fun t => (ih _).trans rfl
  exact h _ s

theorem writeCommandsStart : Claims.WriteCommandsStart := by
  intro v cid c x s hst hx hcut hdir
  refine ⟨fun n hres hs ht h1 h256 => ⟨fun h => ?_, fun h => ?_⟩, fun s1 y hearly hy hres => ⟨fun h => ?_, fun h => ?_⟩⟩
  · exact congrArg Host.Outcome.next ((instCmd_started _ h).trans (startWrite_begun hst hx hcut hdir (writeFault_none hres hs ht h1 h256)))
  · exact congrArg Host.Outcome.next ((instCmd_started _ h).trans (startWrite_begun hst hx hcut hdir (writeFault_none hres hs ht h1 h256)))
  · exact congrArg Host.Outcome.next ((instCmd_started _ h).trans (closeStream_waits hst hx hcut hdir hearly hy hres))
  · exact congrArg Host.Outcome.next ((instCmd_started _ h).trans (sync_waits hst hx hcut hdir hearly hy hres))

theorem writeMarkAddsMarks : Claims.WriteMarkAddsMarks := by
  intro v cid c x y s s1 hstart hres hcount hst hx hcut hdir hearly hy
  refine ⟨_, congrArg Host.Outcome.next ((instCmd_started _ hstart).trans (writeMark_waits hst hx hcut hdir hearly hy hres hcount)),
    (marksAdded x.sid (u16 c.desc 8) s1).modInst v (fun i => { i with stats := { i.stats with marks := i.stats.marks + u16 c.desc 8 } }), rfl,
    ⟨_, stream?_marksAdded hy, rfl, rfl, rfl⟩, ?_⟩
  rw [inst_modInst_same]
  show ((marksAdded x.sid (u16 c.desc 8) s1).inst v).stats.marks + _ = _
  unfold State.inst
  rw [insts_marksAdded]

end Sys2Proof.Machine

/-- Settles O11: each command passes the checks that its hypotheses name, and its row's body is what is left. -/
theorem Sys2Proof.writeCommands : Obligations.WriteCommands := ⟨writeCommandsStart, writeMarkAddsMarks⟩

end

section

/-! PROOFS. Read commands start (R129, R246, R270, R280), and LOCATE and SPACE take the tape (R270, R326, R421). -/

open Sys2Proof Sys2Proof.Machine Sys2Proof.Claims

namespace Sys2Proof.Machine

/-! ### Read commands -/

section

variable {s : State} {v : Inst} {c : Cmd} {x : Machine.Stream} {p : TapePoint}

theorem readRecords_runs {s1 : State} (hst : (s.inst v).state = .active) (hx : s.openStream? v c.target = some x) (hcut : x.cut = none) (hdir : x.dir = .read)
    (hf : readFault c (readParams c.desc) = none) (hsrc : u64 c.desc 32 = 0) (hent : u16 c.desc 40 = 0) (hheld : tapeHeld s = false)
    (hjob : startJob v c (readParams c.desc) s = .ok s1) : readRecords v c s = pumpReads (needTape x s1) := by
  have hff2 : (StreamDir.read == .ff2) = false := rfl
  have hnone : ((readParams c.desc).src != 0 || (readParams c.desc).srcEntries != 0) = false := by simp [readParams, hsrc, hent]
  unfold readRecords
  simp only [hf, if_neg (not_pausedOut hst)]
  refine (streamCmd_open _ hx hcut (by rw [hdir]; rfl)).trans ?_
  simp only [hdir, hff2, hnone, hheld, hjob, Bool.false_eq_true, if_false]

theorem locate_moves (hst : (s.inst v).state = .active) (hx : s.openStream? v c.target = some x) (hcut : x.cut = none) (hdir : x.dir = .read)
    (hres : reservedZero c.desc [(8, 1), (16, 8)] = true) (hkind : u8 c.desc 8 ≤ 2) :
    locate v c p s = moveThen v c x p
      { status := if (u8 c.desc 8 = 0 ∧ p.records < u64 c.desc 16) ∨ (u8 c.desc 8 = 1 ∧ p.marks < u64 c.desc 16) then .endOfData else .ok
        r0 := p.records, r1 := p.marks, r2 := p.dsn } s := by
  unfold locate
  refine (if_neg (by simp [hres, hkind])).trans ((if_neg (not_pausedOut hst)).trans ((streamCmd_open _ hx hcut (by rw [hdir]; rfl)).trans ?_))
  simp only [Bool.or_eq_true, Bool.and_eq_true, beq_iff_eq, decide_eq_true_eq]

theorem space_moves (hst : (s.inst v).state = .active) (hx : s.openStream? v c.target = some x) (hcut : x.cut = none) (hdir : x.dir = .read)
    (hres : reservedZero c.desc [(8, 1), (16, 8)] = true) (hkind : u8 c.desc 8 ≤ 1) :
    space v c p s = moveThen v c x p (spaceEnd (signed 64 (u64 c.desc 16))
      (if u8 c.desc 8 = 0 then (p.records : Int) - x.rd.records else (p.marks : Int) - x.rd.marks) (u8 c.desc 8 == 0 && p.metMark)) s := by
  unfold space
  exact (if_neg (by simp [hres, hkind])).trans ((if_neg (not_pausedOut hst)).trans (streamCmd_open _ hx hcut (by rw [hdir]; rfl)))

end

theorem readCommandsStart : Claims.ReadCommandsStart := by
  intro v cid c x p s hst hx hcut
  refine ⟨fun h hres hdir => ?_, fun s1 h hf hdir hsrc hent hheld hjob => ?_, fun h hres hkind hdir => ?_, fun h hres hkind hdir => ?_⟩
  · exact congrArg Host.Outcome.next ((instCmd_started _ h).trans (closeStream_ends hx hdir hres))
  · exact congrArg Host.Outcome.next ((instCmd_started _ h).trans (readRecords_runs hst hx hcut hdir hf hsrc hent hheld hjob))
  · exact congrArg Host.Outcome.next ((instCmd_started (fun c s => locate v c p s) h).trans (locate_moves hst hx hcut hdir hres hkind))
  · exact congrArg Host.Outcome.next ((instCmd_started (fun c s => space v c p s) h).trans (space_moves hst hx hcut hdir hres hkind))

/-! ### A move for LOCATE or SPACE -/

/-- A reader put back to where its stream stands: what it had decoded. -/
def readerCleared (sid : Nat) (s : State) : State := s.modStream sid (fun x =>
  { x with rd := { x.rd with ready := [], parse := {}, nextNo := 0, again := none, nextDsn := x.rd.dsn, nextPos := 0, nextEntry := 0 } })

theorem rewindRead_same_dropped (sid : Nat) (s : State) :
    Frames.Same 0x180 (dropRBlks sid (fun _ => true) (readerCleared sid s)) (rewindRead sid s) := by
  unfold rewindRead
  extract_lets u w
  have hw : dropRBlks sid (fun _ => true) (readerCleared sid s) = w := rfl
  rw [hw]
  split
  · exact Frames.same_refl
  · exact Frames.same_foldl (fun _ _ h => Frames.same_if (Frames.State_modCmd_same Frames.sub_refl h) h) Frames.same_refl

/-- The stream placed at a point of the tape. -/
def pointTaken (x : Machine.Stream) (p : TapePoint) (s : State) : State :=
  modRd x.sid (fun r => { r with records := p.records, marks := p.marks, dsn := p.dsn }) s

theorem placeRead_streams (x : Machine.Stream) (p : TapePoint) (s : State) :
    (placeRead x p s).streams = (readerCleared x.sid (pointTaken x p s)).streams :=
  (rewindRead_same_dropped x.sid (pointTaken x p s)).streams rfl

theorem placeRead_blks (x : Machine.Stream) (p : TapePoint) (s : State) :
    (placeRead x p s).rtv.blks = s.rtv.blks.filter (fun b => !(b.sid == x.sid && true)) :=
  congrArg Rtv.blks ((rewindRead_same_dropped x.sid (pointTaken x p s)).rtv rfl)

theorem readAnew_rtv (part low : Nat) (s : State) :
    (readAnew part low s).rtv.part = part ∧ (readAnew part low s).rtv.low = low ∧ (readAnew part low s).rtv.blks = s.rtv.blks := ⟨rfl, rfl, rfl⟩

theorem beginMove_fmt (why : MoveFor) (stay : Bool) (s : State) :
    (beginMove why stay s).fmt.motion = .positioning ∧ (beginMove why stay s).mot.target = 6500000 := ⟨rfl, rfl⟩

theorem beginMove_locate_mode (s : State) : (beginMove .locate false s).glb.mode = .locate :=
  (congrArg Glb.mode ((Frames.startLoops_same Frames.sub_refl Frames.same_refl).glb rfl)).trans (setMode_mode .locate s)

theorem moveTakesTape : Claims.MoveTakesTape := by
  intro v c x p r s hheld
  dsimp only
  have hmove : moveThen v c x p r s = (acquireAll (beginMove .locate false (readAnew x.part p.dsn (placeRead x p s)))).modCmd (some v) c.uid
      (fun c => { c with phase := .moveWait r }) := if_neg (by rw [hheld]; decide)
  have hplace := Frames.placeRead_same (x0 := x) (x1 := p) Frames.sub_refl (Frames.same_refl (r := s))
  have hanew := Frames.readAnew_same (x0 := x.part) (x1 := p.dsn) Frames.sub_refl (Frames.same_refl (r := placeRead x p s))
  have hbegin := Frames.beginMove_same (x0 := .locate) (x1 := false) Frames.sub_refl (Frames.same_refl (r := readAnew x.part p.dsn (placeRead x p s)))
  have hend : Frames.Same 0x300180 (beginMove .locate false (readAnew x.part p.dsn (placeRead x p s))) (moveThen v c x p r s) := by
    rw [hmove]
    exact Frames.State_modCmd_same rfl (Frames.acquireAll_same rfl Frames.same_refl)
  have hlast : ∃ s1 : State, moveThen v c x p r s = s1.modCmd (some v) c.uid (fun c => { c with phase := .moveWait r }) := ⟨_, hmove⟩
  clear hmove
  generalize moveThen v c x p r s = t at *
  have hrtv := (hend.rtv rfl).trans (hbegin.rtv rfl)
  have hstreams := (hend.streams rfl).trans ((hbegin.streams rfl).trans ((hanew.streams rfl).trans (placeRead_streams x p s)))
  refine ⟨?_, ?_, ?_, ?_, ?_, fun b hb => ?_, ?_, ?_, ?_, hlast, fun y hy => ?_⟩
  · rw [hend.glb rfl, beginMove_locate_mode]
  · rw [hend.fmt rfl, (beginMove_fmt ..).1]
  · rw [hend.mot rfl, (beginMove_fmt ..).2]
  · rw [hrtv, (readAnew_rtv ..).1]
  · rw [hrtv, (readAnew_rtv ..).2.1]
  · rw [hrtv, (readAnew_rtv ..).2.2, placeRead_blks] at hb
    simpa using (List.mem_filter.mp hb).2
  · exact (hend.hostMem rfl).trans ((hbegin.hostMem rfl).trans ((hanew.hostMem rfl).trans (hplace.hostMem rfl)))
  · exact (hend.sec rfl).trans ((hbegin.sec rfl).trans ((hanew.sec rfl).trans (hplace.sec rfl)))
  · exact (hend.seqs rfl).trans ((hbegin.seqs rfl).trans ((hanew.seqs rfl).trans (hplace.seqs rfl)))
  · have hpoint : (pointTaken x p s).stream? x.sid = some { y with rd := { y.rd with records := p.records, marks := p.marks, dsn := p.dsn } } := by
      unfold pointTaken modRd
      rw [stream?_modStream (by exact fun _ => rfl), hy]
      rfl
    have hz : t.stream? x.sid = (readerCleared x.sid (pointTaken x p s)).stream? x.sid := by
      unfold State.stream?; rw [hstreams]
    rw [readerCleared, stream?_modStream (by exact fun _ => rfl), hpoint] at hz
    exact ⟨_, hz, rfl, rfl, rfl, rfl⟩

end Sys2Proof.Machine

/-- Settles O12: the commands pass their checks, and a move takes the tape through the parts that placing and moving change. -/
theorem Sys2Proof.readCommands : Obligations.ReadCommands := ⟨readCommandsStart, moveTakesTape⟩

end

section

/-! PROOFS. Cartridges are loaded, unloaded and calibrated (R53, R54, R165, R274, R275, R402, R422). -/

open Sys2Proof Sys2Proof.Machine Sys2Proof.Claims

namespace Sys2Proof.Machine

/-! ### CART_LOAD -/

/-- The directory that a load ends with. -/
def dirTaken (view : CartView) (dir : List DirEntry) (blank : Bool) : List DirEntry :=
  if blank then dir.map freshEntry
  else (dir.zipIdx).map (fun e => if e.1.defined then scanEntry e.1 (view.scan.filter (fun x => x.part == e.2)) else e.1)

/-- The cartridge as a load finds it. -/
def cartFound (view : CartView) (cm : Bytes) (dir : List DirEntry) (blank : Bool) : Cart :=
  { loaded := true, cm := cm, writes := view.writes, serial := slice cm 16 16, dir := dirTaken view dir blank
    tapeSession := if blank then [] else (List.range 16).map (fun p => (p, scanSession (view.scan.filter (fun x => x.part == p))))
    tagCounts := if blank then [] else view.tagCounts
    extents := view.scan.map (fun d => { part := d.part, dsn := d.dsn, wrap := d.wrap, startBit := d.startBit, endBit := d.endBit })
    eodBit := if blank then []
      else (List.range 16).filterMap (fun p => (scanEnd (view.scan.filter (fun x => x.part == p))).map (fun x => (p, eodBitAfter x))) }

/-- The machine with the cartridge taken, its directory not yet written. -/
def cartTaken (view : CartView) (cm : Bytes) (dir : List DirEntry) (blank : Bool) (s : State) : State :=
  { s with
    cart := cartFound view cm dir blank, rtv := {}
    rch := (dropJobs s).rch.map (fun r => { r with framed := [0, 0, 0], started := [false, false, false], startVals := [none, none, none] }) }

/-- The machine with the cartridge checked and its start values set. -/
def cartChecked (view : CartView) (cm : Bytes) (dir : List DirEntry) (blank : Bool) (s : State) : State :=
  calibrate view.results (holdCheck view (writeDir (cartTaken view cm dir blank s)))

/-- The machine THREADED with a cartridge. -/
def cartThreaded (view : CartView) (cm : Bytes) (dir : List DirEntry) (blank : Bool) (s : State) : State :=
  setMode .threaded { cartChecked view cm dir blank s with fmt := { (cartChecked view cm dir blank s).fmt with motion := .stopped } }

section

variable {view : CartView} {cm : Bytes} {dir : List DirEntry} {blank : Bool} {s : State} {c : Cmd}

theorem finishLoad_threads (hw : view.writes = true) : finishLoad c view cm dir blank s = complete none c.uid
    { status := .ok, blank := blank, r0 := u64 (slice cm 16 16) 0, r1 := u64 (slice cm 16 16) 8, r2 := (dirTaken view dir blank).countP (·.defined) }
    (cartThreaded view cm dir blank s) := if_neg (by rw [hw]; simp)

theorem writeDir_cart (s : State) : (writeDir s).cart.loaded = s.cart.loaded ∧ (writeDir s).cart.serial = s.cart.serial ∧ (writeDir s).cart.dir = s.cart.dir := by
  unfold writeDir writeCm
  split <;> exact ⟨rfl, rfl, rfl⟩

theorem cartChecked_same (s : State) : Frames.Same 0x100014 (writeDir (cartTaken view cm dir blank s)) (cartChecked view cm dir blank s) :=
  Frames.calibrate_same rfl (Frames.holdCheck_same rfl Frames.same_refl)

theorem writeDir_taken_same (s : State) : Frames.Same 0x10000 (cartTaken view cm dir blank s) (writeDir (cartTaken view cm dir blank s)) :=
  Frames.writeDir_same rfl Frames.same_refl

/-- What a load leaves of the rest of the machine. -/
theorem cartThreaded_fields (hidle : s.glb.mode = .idle) :
    let t := cartThreaded view cm dir blank s
    t.glb.mode = .threaded ∧ t.glb.seq = s.glb.seq + 1 ∧ t.cart.loaded = true ∧ t.cart.serial = slice cm 16 16 ∧ t.cart.dir = dirTaken view dir blank
      ∧ t.rtv = {} ∧ t.fmt = { s.fmt with motion := .stopped } ∧ t.insts = s.insts ∧ t.streams = s.streams ∧ t.blks = s.blks ∧ t.seqs = s.seqs
      ∧ t.sec = s.sec ∧ t.pans = s.pans := by
  have hchk := cartChecked_same (view := view) (cm := cm) (dir := dir) (blank := blank) s
  have hwr := writeDir_taken_same (view := view) (cm := cm) (dir := dir) (blank := blank) s
  obtain ⟨hl, hser, hdir⟩ := writeDir_cart (cartTaken view cm dir blank s)
  have hset := Frames.setMode_same (x0 := .threaded) Frames.sub_refl (Frames.same_refl
    (r := { cartChecked view cm dir blank s with fmt := { (cartChecked view cm dir blank s).fmt with motion := .stopped } }))
  have hglb : (cartChecked view cm dir blank s).glb = s.glb := (hchk.glb rfl).trans (hwr.glb rfl)
  have hseq : (cartThreaded view cm dir blank s).glb.seq = s.glb.seq + 1 := by
    unfold cartThreaded setMode
    rw [if_neg (by rw [hglb, hidle]; decide)]
    simp [hglb]
  have hcart : (cartThreaded view cm dir blank s).cart = (writeDir (cartTaken view cm dir blank s)).cart := (hset.cart rfl).trans (hchk.cart rfl)
  have hfmt : (cartChecked view cm dir blank s).fmt = s.fmt := (hchk.fmt rfl).trans (hwr.fmt rfl)
  refine ⟨setMode_mode .threaded _, hseq, ?_, ?_, ?_, ?_, ?_, ?_, ?_, ?_, ?_, ?_, ?_⟩
  · rw [hcart, hl]; rfl
  · rw [hcart, hser]; rfl
  · rw [hcart, hdir]; rfl
  · exact (hset.rtv rfl).trans ((hchk.rtv rfl).trans (hwr.rtv rfl))
  · refine (hset.fmt rfl).trans ?_
    rw [hfmt]
  · exact (hset.insts rfl).trans ((hchk.insts rfl).trans (hwr.insts rfl))
  · exact (hset.streams rfl).trans ((hchk.streams rfl).trans (hwr.streams rfl))
  · exact (hset.blks rfl).trans ((hchk.blks rfl).trans (hwr.blks rfl))
  · exact (hset.seqs rfl).trans ((hchk.seqs rfl).trans (hwr.seqs rfl))
  · exact (hset.sec rfl).trans ((hchk.sec rfl).trans (hwr.sec rfl))
  · exact (hset.pans rfl).trans ((hchk.pans rfl).trans (hwr.pans rfl))

/-- A load of a good cartridge goes on to its end with the directory found or offered. -/
theorem cartLoad_finishes (hres : reservedZero c.desc [(8, 1), (16, 8)] = true) (hfl : u8 c.desc 8 ≤ 1) (ht : c.target = 0xFFFF) (ha : u64 c.desc 16 % 64 = 0)
    (hidle : s.glb.mode = .idle) (hcm : view.cm = some cm) (hman : manufactureOk cm = true) (hth : view.threads = true)
    (hdir : directoryOk cm = true ∨ u8 c.desc 8 = 1 ∧ dirReservedZero (hostRead s 0 (u64 c.desc 16) 512) = true
      ∧ dirValid (dirOfBytes (hostRead s 0 (u64 c.desc 16) 512)) = true) :
    cartLoad view c s = if directoryOk cm then finishLoad c view cm (dirOfBytes (slice cm cmDirectory 512)) false s
      else finishLoad c view cm (dirOfBytes (hostRead s 0 (u64 c.desc 16) 512)) true s := by
  have hno : noTarget c = true := (noTarget_iff c).mpr ht
  have hal := (aligned64_iff _).mpr ha
  unfold cartLoad
  simp only [hres, hfl, hno, hal, hidle, hcm, hman, hth, decide_true, Bool.not_true, Bool.or_false, Bool.false_eq_true, if_false, bne_self_eq_false]
  split
  · rfl
  · rename_i hbad
    obtain ⟨h1, hz, hv⟩ := hdir.resolve_left hbad
    simp [h1, hz, hv]

end

theorem cartLoadThreads : Claims.CartLoadThreads := by
  intro cid c view cm s hserved hres hfl ht ha hidle hcm hman hth hw image hdir
  have hload := cartLoad_finishes hres hfl ht ha hidle hcm hman hth hdir
  have hexec : exec (.cartLoad cid view) s = .next (cartLoad view c s) :=
    congrArg Host.Outcome.next (mgmtCmd_started (cartLoad view) hserved.1 (.inl hserved.2))
  have finish (dir : List DirEntry) (blank : Bool) (hb : blank = !directoryOk cm) (hd : directoryOk cm = false → dirTaken view dir blank = (dirOfBytes image).map freshEntry)
      (heq : cartLoad view c s = finishLoad c view cm dir blank s) : Gives (exec (.cartLoad cid view) s) fun t =>
      (∃ s1, t = complete none c.uid { status := .ok, blank := !directoryOk cm, r0 := u64 (slice cm 16 16) 0, r1 := u64 (slice cm 16 16) 8
                                       r2 := t.cart.dir.countP (·.defined) } s1)
        ∧ t.glb.mode = .threaded ∧ t.glb.seq = s.glb.seq + 1 ∧ t.cart.loaded = true ∧ t.cart.serial = slice cm 16 16
        ∧ (directoryOk cm = false → t.cart.dir = (dirOfBytes image).map freshEntry) ∧ t.rtv = {}
        ∧ t.fmt = { s.fmt with motion := .stopped } ∧ t.insts = s.insts ∧ t.streams = s.streams ∧ t.blks = s.blks
        ∧ t.seqs = s.seqs ∧ t.sec = s.sec ∧ t.pans = s.pans := by
    obtain ⟨h1, h2, h3, h4, h5, h6, h7, h8, h9, h10, h11, h12, h13⟩ := cartThreaded_fields (view := view) (cm := cm) (dir := dir) (blank := blank) hidle
    refine ⟨_, hexec.trans (congrArg Host.Outcome.next (heq.trans (finishLoad_threads hw))), ?_⟩
    simp only [complete_glb, complete_cart, complete_rtv, complete_fmt, complete_none_insts, complete_streams, complete_blks, complete_seqs, complete_sec,
      complete_pans, h5]
    exact ⟨⟨_, by rw [← hb]⟩, h1, h2, h3, h4, hd, h6, h7, h8, h9, h10, h11, h12, h13⟩
  by_cases hd : directoryOk cm = true
  · exact finish _ false (by rw [hd]; rfl) (fun h => absurd (hd.symm.trans h) (by decide)) (hload.trans (if_pos hd))
  · exact finish _ true (by rw [Bool.eq_false_iff.mpr hd]; rfl) (fun _ => rfl) (hload.trans (if_neg hd))

/-! ### CART_UNLOAD and CART_CALIBRATE -/

section

variable {s : State} {c : Cmd}

theorem cartUnload_takesTape (hres : reservedZero c.desc [] = true) (ht : c.target = 0xFFFF) (hheld : tapeHeld s = false) (htape : s.glb.mode.onTape = true)
    (huse : cartInUse s = false) (hsess : s.fmt.sess = none) (hw : s.cart.writes = true) :
    cartUnload c s = beginMove .mgmt (s.glb.mode == .threaded) ({ s with
      cart := { s.cart with cm := patch (patch s.cart.cm cmPreset (newPreset s)) cmDirectory (dirBytes s.cart.dir) }
      hif := (s.modCmd none c.uid (fun c => { c with phase := .unloadWait })).hif }) := by
  have hno : noTarget c = true := (noTarget_iff c).mpr ht
  have hpre : writeCm cmPreset (newPreset s) s = { s with cart := { s.cart with cm := patch s.cart.cm cmPreset (newPreset s) } } := if_pos hw
  have hdir : writeDir { s with cart := { s.cart with cm := patch s.cart.cm cmPreset (newPreset s) } }
      = { s with cart := { s.cart with cm := patch (patch s.cart.cm cmPreset (newPreset s)) cmDirectory (dirBytes s.cart.dir) } } := if_pos hw
  have hnow : cartUnload c s = unloadNow c s := by
    unfold cartUnload
    simp [hres, hno, htape, huse, hheld, hsess]
  rw [hnow]
  refine (if_pos hw).trans ?_
  rw [hpre, hdir]
  rfl

theorem cartUnload_waits (hres : reservedZero c.desc [] = true) (ht : c.target = 0xFFFF) (hheld : tapeHeld s = false) (htape : s.glb.mode.onTape = true)
    (huse : cartInUse s = false) (hsess : s.fmt.sess.isSome = true) :
    cartUnload c s = s.modCmd none c.uid (fun c => { c with phase := .sessionWait }) := by
  have hno : noTarget c = true := (noTarget_iff c).mpr ht
  unfold cartUnload
  simp [hres, hno, htape, huse, hheld, hsess]

theorem cartCalibrate_takesTape {results : List CalResult} (hres : reservedZero c.desc [] = true) (ht : c.target = 0xFFFF) (hheld : tapeHeld s = false)
    (hend : sessionEnding s = false) (hmode : s.glb.mode = .threaded) :
    cartCalibrate results c s = beginMove .mgmt true (s.modCmd none c.uid (fun c => { c with phase := .calWait results })) := by
  have hno : noTarget c = true := (noTarget_iff c).mpr ht
  have hnow : cartCalibrate results c s = takeTape c (.calWait results) s := by
    unfold cartCalibrate
    simp [hres, hno, hend, hmode, hheld]
  rw [hnow, takeTape, hmode]
  rfl

/-- The device IDLE, its cartridge let go. -/
def cartGone (s : State) : State :=
  let s := setMode .idle (if s.glb.mode = .threaded then s else setMode .threaded s)
  { dropReadBufs s with
    cart := { cm := s.cart.cm }, rtv := {}, fmt := { (dropReadBufs s).fmt with motion := .stopped, moveFor := .none }
    mot := { s.mot with state := .stopped, stop := false, target := 0, speedRef := 0, speed := 0 } }

theorem unloaded_eq (c : Cmd) (s : State) : unloaded c s = mOk c 0 0 0 (cartGone s) := rfl

theorem cartGone_fields (s : State) : (cartGone s).glb.mode = .idle ∧ (cartGone s).rtv = {} ∧ (cartGone s).fmt.motion = .stopped
    ∧ (cartGone s).cart = { cm := s.cart.cm } ∧ (cartGone s).sec = s.sec ∧ (cartGone s).seqs = s.seqs := by
  have h0 : Frames.Same 0x6 s (if s.glb.mode = .threaded then s else setMode .threaded s) :=
    Frames.same_if Frames.same_refl (Frames.setMode_same Frames.sub_refl Frames.same_refl)
  unfold cartGone
  generalize (if s.glb.mode = .threaded then s else setMode .threaded s) = u at *
  have h1 : Frames.Same 0x6 s (setMode .idle u) := Frames.setMode_same Frames.sub_refl h0
  have hmode : (setMode .idle u).glb.mode = .idle := setMode_mode ..
  generalize setMode .idle u = w at *
  have h2 := Frames.dropReadBufs_same Frames.sub_refl (Frames.same_refl (r := w))
  refine ⟨?_, rfl, rfl, ?_, ?_, ?_⟩
  · exact (congrArg Glb.mode (h2.glb rfl)).trans hmode
  · exact congrArg (fun k : Cart => ({ cm := k.cm } : Cart)) (h1.cart rfl)
  · exact (h2.sec rfl).trans (h1.sec rfl)
  · exact (h2.seqs rfl).trans (h1.seqs rfl)

theorem positionReached_mgmt {wrap : Fin 240} (hmo : s.fmt.motion = .positioning) (hfor : s.fmt.moveFor = .mgmt) :
    positionReached wrap s = endTapeWork s := by
  unfold positionReached
  rw [if_pos hmo, hfor]

end

theorem cartUnloadAndCalibrate : Claims.CartUnloadAndCalibrate := by
  intro cid c s hres ht hheld
  refine ⟨fun hs htape huse hsess hw => ?_, fun hs htape huse hsess => ?_, fun results hs hend hmode => ?_, fun wrap hmo hfor => ⟨fun hcmds => ?_, fun results hcmds => ?_⟩⟩
  · have hun := cartUnload_takesTape hres ht hheld htape huse hsess hw
    refine ⟨_, congrArg Host.Outcome.next ((mgmtCmd_started cartUnload hs.1 (.inl hs.2)).trans hun), ?_⟩
    have hmove := Frames.beginMove_same (x0 := .mgmt) (x1 := s.glb.mode == .threaded) Frames.sub_refl (Frames.same_refl (r := { s with
      cart := { s.cart with cm := patch (patch s.cart.cm cmPreset (newPreset s)) cmDirectory (dirBytes s.cart.dir) }
      hif := (s.modCmd none c.uid (fun c => { c with phase := .unloadWait })).hif }))
    dsimp only
    rw [hmove.cart rfl, hmove.hif rfl]
    exact ⟨rfl, rfl, rfl⟩
  · exact congrArg Host.Outcome.next ((mgmtCmd_started cartUnload hs.1 (.inl hs.2)).trans (cartUnload_waits hres ht hheld htape huse hsess))
  · exact congrArg Host.Outcome.next ((mgmtCmd_started (cartCalibrate results) hs.1 (.inl hs.2)).trans (cartCalibrate_takesTape hres ht hheld hend hmode))
  · have hend : endTapeWork s = mOk c 0 0 0 (cartGone s) := by
      unfold endTapeWork
      rw [show (s.ring none).cmds = _ from hcmds]
      rfl
    obtain ⟨h1, h2, h3, h4, h5, h6⟩ := cartGone_fields s
    refine ⟨_, congrArg Host.Outcome.next ((positionReached_mgmt hmo hfor).trans hend), ?_⟩
    simp only [mOk_glb, mOk_rtv, mOk_fmt, mOk_cart, mOk_sec, mOk_seqs]
    exact ⟨⟨_, rfl⟩, h1, h2, h3, h4, h5, h6⟩
  · have hend : endTapeWork s = mOk c 0 0 0 (calibrate results (beginStop s)) := by
      unfold endTapeWork
      rw [show (s.ring none).cmds = _ from hcmds]
      rfl
    exact congrArg Host.Outcome.next ((positionReached_mgmt hmo hfor).trans hend)

end Sys2Proof.Machine

/-- Settles O18: a load ends by its last stages alone, and each management command's tape work is the model's own. -/
theorem Sys2Proof.cartridgeCommands : Obligations.CartridgeCommands := ⟨cartLoadThreads, cartUnloadAndCalibrate⟩

end

section

/-! PROOFS. The end of a pace window (R13 to R15, R135, R289). -/

open Sys2Proof Sys2Proof.Machine Sys2Proof.Claims

namespace Sys2Proof.Machine

/-! ### Shares that waited -/

/-- The shares of an instance, now and from the next allocation on. -/
def shares (s : State) (v : Inst) : Nat × Nat := ((s.inst v).share, (s.inst v).shareNext)

theorem shares_setInstState (v w : Inst) (st : InstState) (s : State) : shares (setInstState v st s) w = shares s w := by
  unfold shares
  by_cases h : v = w
  · subst h; rw [setInstState_inst]
  · rw [setInstState_inst_other _ _ _ _ h]

theorem shares_pauseInst (v w : Inst) (s : State) : shares (pauseInst v s) w = shares s w := by
  unfold pauseInst
  rw [shares_setInstState]
  unfold shares State.modRing
  by_cases h : v = w
  · subst h; rw [inst_modInst_same]
  · rw [inst_modInst_other _ _ _ _ h]

theorem shares_putShare (v w : Inst) (n : Nat) (s : State) :
    shares (putShare v n s) w = if v = w then (n, (s.inst v).shareNext) else shares s w := by
  have hmod : shares (s.modInst v (fun i => { i with share := n })) w = if v = w then (n, (s.inst v).shareNext) else shares s w := by
    unfold shares
    by_cases h : v = w
    · subst h; rw [inst_modInst_same, if_pos rfl]
    · rw [inst_modInst_other _ _ _ _ h, if_neg h]
  rw [← hmod]
  unfold putShare
  generalize s.modInst v (fun i => { i with share := n }) = u
  dsimp only
  split
  · split
    · rw [shares_pauseInst]
    · rfl
  · split
    · rfl
    · rw [shares_setInstState]
  · rfl

/-- A share that waits taken up. -/
def takeShare (s : State) (v : Inst) : State := if (s.inst v).share = (s.inst v).shareNext then s else putShare v (s.inst v).shareNext s

theorem takeShare_same (s : State) (v : Inst) : (shares (takeShare s v) v).1 = (shares (takeShare s v) v).2 := by
  unfold takeShare
  split
  · assumption
  · rw [shares_putShare, if_pos rfl]

theorem takeShare_keeps (s : State) (v w : Inst) (h : (shares s w).1 = (shares s w).2) : (shares (takeShare s v) w).1 = (shares (takeShare s v) w).2 := by
  by_cases hv : v = w
  · subst hv; exact takeShare_same s v
  · unfold takeShare
    split
    · exact h
    · rw [shares_putShare, if_neg hv]; exact h

theorem foldl_takeShare (l : List Inst) (s : State) (w : Inst) (h : w ∈ l ∨ (shares s w).1 = (shares s w).2) :
    (shares (l.foldl takeShare s) w).1 = (shares (l.foldl takeShare s) w).2 := by
  induction l generalizing s with
  | nil => exact h.resolve_left (by simp)
  | cons v l ih =>
    refine ih _ ?_
    rcases h with h | h
    · rcases List.mem_cons.mp h with rfl | h
      · exact .inr (takeShare_same s _)
      · exact .inl h
    · exact .inr (takeShare_keeps s v w h)

theorem takeShares_taken (s : State) (v : Inst) : ((takeShares s).inst v).share = ((takeShares s).inst v).shareNext := by
  have hmem : v ∈ allInsts := List.mem_finRange v
  have heq : takeShares s = allInsts.foldl takeShare s := rfl
  have h : ((allInsts.foldl takeShare s).inst v).share = ((allInsts.foldl takeShare s).inst v).shareNext := by
    generalize allInsts = l at hmem
    exact foldl_takeShare l s v (.inl hmem)
  rw [heq, h]

/-! ### The ratios -/

theorem publishCeilings_pace (s : State) : (publishCeilings true s).pace.valid = s.pace.valid ∧ (publishCeilings true s).pace.last = s.pace.last := by
  unfold publishCeilings
  split
  · exact ⟨rfl, rfl⟩
  · extract_lets raise step new changed p t
    split
    · rw [(Frames.raiseEv_same Frames.sub_refl Frames.same_refl).pace rfl]; exact ⟨rfl, rfl⟩
    · exact ⟨rfl, rfl⟩

/-- The machine as the monitor leaves it. -/
def paceMeasured (counts : List Nat) (s : State) : State :=
  if rbit s.pace.ctrl 0 then followRead (publishCeilings true (measurePace counts s)) else s

theorem paceMeasured_same (counts : List Nat) (s : State) : Frames.Same 0x100a010 s (paceMeasured counts s) :=
  Frames.same_if (Frames.followRead_same rfl (Frames.publishCeilings_same rfl (Frames.measurePace_same rfl Frames.same_refl))) Frames.same_refl

theorem paceMeasured_fmt (counts : List Nat) (s : State) : ∃ r, (paceMeasured counts s).fmt = { s.fmt with ramping := r } := by
  have hpub : Frames.Same 0x8010 s (publishCeilings true (measurePace counts s)) :=
    Frames.publishCeilings_same rfl (Frames.measurePace_same rfl Frames.same_refl)
  unfold paceMeasured
  split
  · unfold followRead
    split
    · exact ⟨true, by rw [hpub.fmt rfl]⟩
    · exact ⟨s.fmt.ramping, hpub.fmt rfl⟩
  · exact ⟨s.fmt.ramping, rfl⟩

theorem paceMeasured_mot (counts : List Nat) {s : State} (h : s.glb.mode ≠ .retrieve) : (paceMeasured counts s).mot = s.mot := by
  have hpub : Frames.Same 0x8010 s (publishCeilings true (measurePace counts s)) :=
    Frames.publishCeilings_same rfl (Frames.measurePace_same rfl Frames.same_refl)
  unfold paceMeasured
  split
  · unfold followRead
    rw [if_neg (by rw [hpub.glb rfl]; simp [h])]
    exact hpub.mot rfl
  · rfl

theorem paceMeasured_on (counts : List Nat) {s : State} (h : rbit s.pace.ctrl 0 = true) :
    (paceMeasured counts s).pace.valid = true
      ∧ ∀ i : Fin 8, siteOn s i.val = true → (paceMeasured counts s).pace.last[i] = some (counts.getD i.val 0 % 2 ^ 24 * 16384 / s.pace.nom[i]) := by
  have hpace : (paceMeasured counts s).pace = (publishCeilings true (measurePace counts s)).pace := by
    unfold paceMeasured
    rw [if_pos h]
    exact (Frames.followRead_same Frames.sub_refl Frames.same_refl).pace rfl
  obtain ⟨hv, hl⟩ := publishCeilings_pace (measurePace counts s)
  rw [hpace, hv]
  refine ⟨rfl, fun i hi => ?_⟩
  refine (congrArg (·[i]) hl).trans ?_
  simp [measurePace, hi, paceRatio]

/-! ### The window's end -/

theorem judgeMarks_fmt (s : State) : ∃ h f, (judgeMarks s).fmt = { s.fmt with hard := h, filling := f } := by
  unfold judgeMarks
  extract_lets b mark hard hard' filling filling'
  exact ⟨hard', filling', rfl⟩

theorem chooseSpeed_fmt (s : State) : ∃ w a, (chooseSpeed s).fmt = { s.fmt with spWant := w, stopAllowed := a } :=
  ⟨(wanted s).1, (wanted s).2, rfl⟩

theorem judged_fmt (s : State) : ∃ h f w a, (decideSpeed s).fmt = { s.fmt with
    intake := (s.fmt.winIntake :: s.fmt.intake).take 64, winIntake := 0, hard := h, filling := f, spWant := w, stopAllowed := a } :=
  have ⟨h, f, hj⟩ := judgeMarks_fmt { s with fmt := { s.fmt with intake := (s.fmt.winIntake :: s.fmt.intake).take 64, winIntake := 0 } }
  have ⟨w, a, hc⟩ := chooseSpeed_fmt (judgeMarks { s with fmt := { s.fmt with intake := (s.fmt.winIntake :: s.fmt.intake).take 64, winIntake := 0 } })
  ⟨h, f, w, a, hc.trans (by rw [hj])⟩

theorem decideEffort_fmt (waited : Nat) (s : State) : ∃ b m, (decideEffort waited s).fmt = { s.fmt with boundWindows := b, marginWindows := m } := by
  unfold decideEffort
  extract_lets b m hold
  split
  · exact ⟨_, _, rfl⟩
  · split
    · exact ⟨_, _, rfl⟩
    · split <;> exact ⟨_, _, rfl⟩

theorem decideEffort_codec (waited : Nat) (s : State) : ∃ k, (decideEffort waited s).codec = { s.codec with cmpCtrl := k } := by
  unfold decideEffort
  extract_lets b m hold
  split
  · exact ⟨s.codec.cmpCtrl, rfl⟩
  · split
    · exact ⟨_, rfl⟩
    · split
      · exact ⟨_, rfl⟩
      · exact ⟨s.codec.cmpCtrl, rfl⟩

theorem paceWindowEnd_eq (counts : List Nat) (waited : Nat) {s : State} (ho : s.glb.mode ≠ .off) (hr : s.glb.mode ≠ .reset) (hq : s.glb.mode ≠ .quench) :
    paceWindowEnd counts waited s = takeShares (decideEffort waited (decideSpeed (closeRatio (paceMeasured counts s)))) := by
  unfold paceWindowEnd
  split
  · rename_i h; exact absurd h ho
  · rename_i h; exact absurd h hr
  · rename_i h; exact absurd h hq
  · rfl

end Sys2Proof.Machine

/-- Settles O44: the stages of a window's end each change their own part, and the shares that waited are taken up last. -/
theorem Sys2Proof.paceWindows : Obligations.PaceWindows := by
  intro counts waited s ho hr hq
  refine ⟨_, congrArg Host.Outcome.next (paceWindowEnd_eq counts waited ho hr hq), ?_⟩
  have hshares := takeShares_taken (decideEffort waited (decideSpeed (closeRatio (paceMeasured counts s))))
  have htake : Frames.Same 0x80001c0 _ (takeShares (decideEffort waited (decideSpeed (closeRatio (paceMeasured counts s))))) :=
    Frames.takeShares_same rfl Frames.same_refl
  have heff : Frames.Same 0x3000 _ (decideEffort waited (decideSpeed (closeRatio (paceMeasured counts s)))) := Frames.decideEffort_same rfl Frames.same_refl
  have hspeed : Frames.Same 0x2000 _ (decideSpeed (closeRatio (paceMeasured counts s))) := Frames.decideSpeed_same rfl Frames.same_refl
  have hclose : Frames.Same 0x1000 _ (closeRatio (paceMeasured counts s)) := Frames.closeRatio_same rfl Frames.same_refl
  have hmeas := paceMeasured_same counts s
  obtain ⟨k, hcodec⟩ := decideEffort_codec waited (decideSpeed (closeRatio (paceMeasured counts s)))
  obtain ⟨b, m, hfmt⟩ := decideEffort_fmt waited (decideSpeed (closeRatio (paceMeasured counts s)))
  obtain ⟨hd, fl, w, a, hjudged⟩ := judged_fmt (closeRatio (paceMeasured counts s))
  obtain ⟨rr, hramp⟩ := paceMeasured_fmt counts s
  have hpace := (htake.pace rfl).trans ((heff.pace rfl).trans ((hspeed.pace rfl).trans (hclose.pace rfl)))
  have hcod : (takeShares (decideEffort waited (decideSpeed (closeRatio (paceMeasured counts s))))).codec = { (closeRatio s).codec with cmpCtrl := k } := by
    rw [htake.codec rfl, hcodec, hspeed.codec rfl]
    unfold closeRatio
    rw [hmeas.codec rfl]
  have hf : (takeShares (decideEffort waited (decideSpeed (closeRatio (paceMeasured counts s))))).fmt = { s.fmt with
      ramping := rr, intake := (s.fmt.winIntake :: s.fmt.intake).take 64, winIntake := 0, hard := hd, filling := fl, spWant := w, stopAllowed := a
      boundWindows := b, marginWindows := m } := by
    rw [htake.fmt rfl, hfmt, hjudged, hclose.fmt rfl, hramp]
  dsimp only
  rw [hcod, hf, hpace]
  refine ⟨rfl, rfl, fun h => if_neg h, rfl, rfl, rfl, fun h => paceMeasured_on counts h, fun h => ?_, hshares, ?_, fun h => ?_⟩
  · unfold paceMeasured; rw [if_neg (by rw [h]; decide)]
  · exact (htake.rch rfl).trans ((heff.rch rfl).trans ((hspeed.rch rfl).trans ((hclose.rch rfl).trans (hmeas.rch rfl))))
  · exact (htake.mot rfl).trans ((heff.mot rfl).trans ((hspeed.mot rfl).trans ((hclose.mot rfl).trans (paceMeasured_mot counts h))))

end

section

/-! PROOFS. What a slice and a cipher engine make of a block that has had no trouble (R79, R87, R89, R93, R111). -/

open Sys2Proof Sys2Proof.Machine Sys2Proof.Claims

namespace Sys2Proof.Machine

/-! ### Dispatch leaves what the slices have made (R85) -/

/-- One machine has the coded blocks of another, with the counts of coding. -/
def KeepsCoded (s t : State) : Prop :=
  (∀ b ∈ s.blks, ∃ x ∈ t.blks, x.id = b.id ∧ x.coded = b.coded)
    ∧ t.codec.winIn = s.codec.winIn ∧ t.codec.winCoded = s.codec.winCoded
    ∧ ∀ n : Fin 8, t.codec.slices[n].blocks = s.codec.slices[n].blocks

theorem KeepsCoded.refl (s : State) : KeepsCoded s s := ⟨fun b hb => ⟨b, hb, rfl, rfl⟩, rfl, rfl, fun _ => rfl⟩

theorem KeepsCoded.trans {s t u : State} (h : KeepsCoded s t) (k : KeepsCoded t u) : KeepsCoded s u := by
  obtain ⟨hb, hi, hc, hn⟩ := h
  obtain ⟨kb, ki, kc, kn⟩ := k
  refine ⟨fun b hbs => ?_, ki.trans hi, kc.trans hc, fun n => (kn n).trans (hn n)⟩
  obtain ⟨x, hx, hxi, hxc⟩ := hb b hbs
  obtain ⟨y, hy, hyi, hyc⟩ := kb x hx
  exact ⟨y, hy, hyi.trans hxi, hyc.trans hxc⟩

/-- A change of the first element that meets a condition leaves every element in the list, or its changed form. -/
theorem mem_or_mem_modFirst {α : Type} {q : α → Bool} {f : α → α} {l : List α} {b : α} (h : b ∈ l) :
    b ∈ modFirst q f l ∨ f b ∈ modFirst q f l := by
  induction l with
  | nil => cases h
  | cons a l ih =>
    unfold modFirst
    split
    · rcases List.mem_cons.mp h with rfl | h
      · exact .inr List.mem_cons_self
      · exact .inl (List.mem_cons_of_mem _ h)
    · rcases List.mem_cons.mp h with rfl | h
      · exact .inl List.mem_cons_self
      · exact (ih h).imp (List.mem_cons_of_mem _) (List.mem_cons_of_mem _)

theorem keepsCoded_modBlk {f : Blk → Blk} (hi : ∀ b, (f b).id = b.id) (hc : ∀ b, (f b).coded = b.coded) (id : Nat) (s : State) :
    KeepsCoded s (s.modBlk id f) := by
  refine ⟨fun b hb => ?_, rfl, rfl, fun _ => rfl⟩
  rcases mem_or_mem_modFirst (q := fun b : Blk => b.id == id) (f := f) hb with h | h
  · exact ⟨b, h, rfl, rfl⟩
  · exact ⟨f b, h, hi b, hc b⟩

theorem blocks_vmod (v : Vector Slice 8) (m n : Fin 8) {f : Slice → Slice} (hf : ∀ c, (f c).blocks = c.blocks) :
    (vmod v m f)[n].blocks = v[n].blocks := by
  by_cases h : m = n
  · subst h; exact (congrArg Slice.blocks (vmod_same v m f)).trans (hf _)
  · exact congrArg Slice.blocks (vmod_other v m n f h)

theorem keepsCoded_missSecond (s : State) : KeepsCoded s (missSecond s) := by
  refine ⟨fun b hb => ⟨_, List.mem_map_of_mem hb, ?_, ?_⟩, rfl, rfl, fun _ => rfl⟩
  · (repeat' split) <;> rfl
  · (repeat' split) <;> rfl

theorem keepsCoded_dispatchSlice (s : State) : KeepsCoded s (dispatchSlice s) := by
  unfold dispatchSlice
  split
  · exact .refl s
  next b _ =>
    split
    · exact .refl s
    next m _ =>
      have h := keepsCoded_modBlk (f := fun b' => { b' with place := .slice m.val, effort := if b.started then b.effort else effortNow s b.effort, started := true })
        (fun _ => rfl) (fun _ => rfl) b.id s
      exact ⟨h.1, rfl, rfl, fun n => blocks_vmod _ m n fun _ => rfl⟩

theorem keepsCoded_dispatchEngine (s : State) : KeepsCoded s (dispatchEngine s) := by
  unfold dispatchEngine
  split
  · exact .refl s
  next b _ =>
    split
    · exact .refl s
    next e _ =>
      exact ⟨(keepsCoded_modBlk (f := fun b' => { b' with place := .engine e.val }) (fun _ => rfl) (fun _ => rfl) b.id s).1, rfl, rfl, fun _ => rfl⟩

theorem keepsCoded_dispatch (s : State) : KeepsCoded s (dispatch s) := by
  have slices : ∀ u : State, KeepsCoded u ((List.range 8).foldl (fun u _ => dispatchSlice u) u) := fun u =>
    List.foldlRecOn (motive := KeepsCoded u) _ _ (.refl u) fun x hx _ _ => hx.trans (keepsCoded_dispatchSlice x)
  have engines : ∀ u : State, KeepsCoded u ((List.range 4).foldl (fun u _ => dispatchEngine u) u) := fun u =>
    List.foldlRecOn (motive := KeepsCoded u) _ _ (.refl u) fun x hx _ _ => hx.trans (keepsCoded_dispatchEngine x)
  unfold dispatch
  refine (keepsCoded_missSecond s).trans (.trans ?_ (engines _))
  split
  · exact .refl _
  · exact slices _

/-! ### The clauses -/

theorem passAfter_none {t : Tries} (h : t.first = none) (kind : Nat) (s : State) : passAfter t kind s = s := by
  unfold passAfter
  rw [h]

theorem find_of_codedIn {s : State} {n : Fin 8} {b : Blk} (h : codedIn s n = some b) : s.blks.find? (fun c => c.id == b.id) = some b := by
  unfold codedIn at h
  split at h
  next id _ =>
    have hid : (b.id == id) = true := List.find?_some (p := fun c : Blk => c.id == id) h
    rw [eq_of_beq hid]
    exact h
  · cases h

/-- The machine after a slice has coded its block, before the next dispatch. -/
def coded (n : Fin 8) (b : Blk) (c : Bytes) (s : State) : State :=
  let s := s.modBlk b.id (fun b => { b with coded := c, place := .cipherQueue })
  let s := { s with codec.slices := vmod s.codec.slices n (fun c => { c with use := .idle, attempt := 0, blocks := c.blocks + 1 }) }
  { s with codec.winIn := s.codec.winIn + b.input.length, codec.winCoded := s.codec.winCoded + c.length }

theorem sliceCode_pass {s : State} {n : Fin 8} {b : Blk} (h : codedIn s n = some b) (hf : b.tries.first = none) :
    sliceCode n .pass s = dispatch (coded n b (codeBlock b.effort (seedOf b) b.head b.input) s) := by
  unfold sliceCode
  rw [h]
  exact congrArg dispatch (passAfter_none hf 3 _)

theorem sliceCode_gives {s : State} {n : Fin 8} {b : Blk} (h : codedIn s n = some b) (hf : b.tries.first = none) :
    Gives (exec (.sliceCodeDone n .pass) s) fun t =>
      let coded := codeBlock b.effort (seedOf b) b.head b.input
      (∃ x ∈ t.blks, x.id = b.id ∧ x.coded = coded) ∧ t.codec.winIn = s.codec.winIn + b.input.length
        ∧ t.codec.winCoded = s.codec.winCoded + coded.length ∧ t.codec.slices[n].blocks = s.codec.slices[n].blocks + 1
        ∧ t.streams = s.streams ∧ t.fmt = s.fmt ∧ t.insts = s.insts ∧ t.evt = s.evt := by
  refine ⟨_, congrArg Host.Outcome.next (sliceCode_pass h hf), ?_⟩
  dsimp only
  generalize hc : codeBlock b.effort (seedOf b) b.head b.input = c
  obtain ⟨hb, hi, ho, hn⟩ := keepsCoded_dispatch (coded n b c s)
  have k := Frames.dispatch_same Frames.sub_refl (Frames.same_refl (r := coded n b c s))
  generalize dispatch (coded n b c s) = t at *
  refine ⟨?_, hi, ho, (hn n).trans (congrArg Slice.blocks (vmod_same _ n _)), k.streams rfl, k.fmt rfl, k.insts rfl, k.evt rfl⟩
  have hm : { b with coded := c, place := .cipherQueue } ∈ (coded n b c s).blks :=
    PanManager.mem_modFirst (f := fun b : Blk => { b with coded := c, place := .cipherQueue }) (find_of_codedIn h)
  exact hb _ hm

theorem cipherSeal_pass {s : State} {e : Fin 4} {b : Blk} (h : sealedIn s e = some b) (hf : b.sealTries.first = none) :
    cipherSeal e .pass s = settleWaits (settleGrants (onBehalf (panAlloc (reqEngine e.val) (blkOut b).length (some b.v) true)
      ((match b.key with | some k => cacheKey e b.v k.slot k.epoch k.key s | none => s).modBlk b.id
        (fun b' => { b' with out := blkOut b, place := .panWait e.val })))) := by
  unfold cipherSeal
  rw [h]
  exact congrArg (fun u => settleWaits (settleGrants (onBehalf (panAlloc (reqEngine e.val) (blkOut b).length (some b.v) true) u)))
    (passAfter_none hf 4 _)

/-- A block of tape that is open waits for a slice. -/
theorem opened_tape {b : RBlk} (hf : b.tries.first = none) (ht : b.tagFailed = none) (h2 : b.ff2 = none) (e : Fin 4) (plain : Bytes) (s : State) :
    opened e b plain s = pumpReads (dispatchRead (queueSlice false b.id
      (s.modRBlk b.id (fun b => { b with plain := plain, tagFailed := none, heldBy := some e.val })))) := by
  unfold opened
  rw [h2, ht]
  exact congrArg (fun u => pumpReads (dispatchRead u)) (passAfter_none hf 4 _)

/-- An FF2 block that is open is a record. -/
theorem opened_ff2 {b : RBlk} {iv : Bytes} (hf : b.tries.first = none) (ht : b.tagFailed = none) (h2 : b.ff2 = some iv) (e : Fin 4)
    (plain : Bytes) (s : State) :
    opened e b plain s = pumpReads (dispatchRead (freeEngine e
      ((s.modRBlk b.id (fun b => { b with plain := plain, tagFailed := none, heldBy := some e.val })).modRBlk b.id
        (fun b => { b with heldBy := none, place := .done })))) := by
  unfold opened
  rw [h2, ht]
  exact congrArg (fun u => pumpReads (dispatchRead u)) (passAfter_none hf 4 _)

section
variable {s : State} {e : Fin 4} {b : RBlk} {x : Stream} {k : SlotNo} (h : heldByEngine s e = some b) (hx : s.stream? b.sid = some x)
include h hx

theorem cipherOpen_sealed (hk : x.slot = some k) (he : b.encrypted = true) (h2 : b.ff2 = none) : cipherOpen e .pass s = openSealed e x k b .pass s := by
  unfold cipherOpen
  rw [h]
  dsimp only
  rw [hx]
  dsimp only
  rw [hk, he, h2]

theorem cipherOpen_clear (he : b.encrypted = false) (h2 : b.ff2 = none) : cipherOpen e .pass s = opened e b b.bytes s := by
  unfold cipherOpen
  rw [h]
  dsimp only
  rw [hx]
  dsimp only
  rw [he, h2]

theorem cipherOpen_ff2 {iv : Bytes} (hk : x.slot = some k) (h2 : b.ff2 = some iv) :
    cipherOpen e .pass s = opened e b (ff2Plain (s.slot x.v k).kind (s.slot x.v k).root iv b.bytes) s := by
  unfold cipherOpen
  rw [h]
  dsimp only
  rw [hx]
  dsimp only
  rw [hk, h2]

end

theorem openSealed_pass {e : Fin 4} {x : Stream} {k : SlotNo} {b : RBlk} {s : State} {plain : Bytes}
    (h : openBlock (sessionKey (s.slot x.v k).root b.serial b.part b.session b.epoch) b.salt b.counter b.epoch b.tag b.part b.session b.bytes = some plain) :
    openSealed e x k b .pass s
      = opened e b plain (cacheKey e x.v k b.epoch (sessionKey (s.slot x.v k).root b.serial b.part b.session b.epoch) s) := by
  unfold openSealed
  rw [if_neg (by decide)]
  dsimp only
  rw [h]

theorem decompressDone_pass {s : State} {n : Fin 8} {b : RBlk} {out : Bytes} (h : heldBySlice s n = some b) (ho : decodeBlock b.plain = .ok out) :
    decompressDone n .pass s = pumpReads (dispatchRead (drainRead b.sid
      (freeSlice n (s.modRBlk b.id (fun b => { b with output := out, place := .done }))))) := by
  unfold decompressDone
  rw [h]
  dsimp only
  rw [ho]

end Sys2Proof.Machine

/-- Settles O47: with no trouble there is nothing to blame, so each unit's work is the codec's or the cipher's, and what follows on it
(dispatch, the pan manager, the readers) leaves what was made. -/
theorem Sys2Proof.enginesFinishBlocks : Obligations.EnginesFinishBlocks := by
  intro s
  refine ⟨fun n check h => ?_, fun n b h hf => sliceCode_gives h hf, fun e check h => ?_,
    fun e b h hf => ?_, fun e check h => ?_, fun e b x h hx hf ht => ?_,
    fun n check h => ?_, fun n b out h ho => congrArg Host.Outcome.next (decompressDone_pass h ho)⟩
  · exact congrArg Host.Outcome.next (by unfold sliceCode; rw [h])
  · exact congrArg Host.Outcome.next (by unfold cipherSeal; rw [h])
  · exact congrArg Host.Outcome.next (cipherSeal_pass h hf)
  · exact congrArg Host.Outcome.next (by unfold cipherOpen; rw [h])
  · exact ⟨fun k plain hk he h2 ho => congrArg Host.Outcome.next ((cipherOpen_sealed h hx hk he h2).trans
        ((openSealed_pass ho).trans (opened_tape hf ht h2 e plain _))),
      fun he h2 => congrArg Host.Outcome.next ((cipherOpen_clear h hx he h2).trans (opened_tape hf ht h2 e b.bytes s)),
      fun k iv hk h2 => congrArg Host.Outcome.next ((cipherOpen_ff2 h hx hk h2).trans (opened_ff2 hf ht h2 e _ s))⟩
  · exact congrArg Host.Outcome.next (by unfold decompressDone; rw [h])
end

section

/-! PROOFS. The commit point passes only what is verified (R127). -/

open Sys2Proof Sys2Proof.Machine Sys2Proof.Claims

namespace Sys2Proof.Machine

theorem le_foldl_max (l : List Nat) (a : Nat) : a ≤ l.foldl max a ∧ ∀ k ∈ l, k ≤ l.foldl max a := by
  induction l generalizing a with
  | nil => exact ⟨Nat.le_refl a, fun k hk => absurd hk List.not_mem_nil⟩
  | cons b l ih =>
    obtain ⟨ha, hl⟩ := ih (max a b)
    refine ⟨Nat.le_trans (Nat.le_max_left a b) ha, fun k hk => ?_⟩
    rcases List.mem_cons.mp hk with rfl | hk
    · exact Nat.le_trans (Nat.le_max_right a k) ha
    · exact hl k hk

theorem foldl_max_mem (l : List Nat) (a : Nat) : l.foldl max a = a ∨ l.foldl max a ∈ l := by
  induction l generalizing a with
  | nil => exact .inl rfl
  | cons b l ih =>
    rcases ih (max a b) with h | h
    · rw [List.foldl_cons, h]
      have hchoice : max a b = a ∨ max a b = b := by omega
      exact hchoice.imp id fun h => by rw [h]; exact List.mem_cons_self
    · exact .inr (List.mem_cons_of_mem b h)

/-- The order before which every copy must stand when the first `k` datasets are committed: that of the first that stays, or, when none
stays, one beyond the newest. -/
def stayOrder (l : List WrDs) (k : Nat) : Nat :=
  match l[k]? with
  | some y => y.order
  | none => match l.getLast? with | some z => z.order + 1 | none => 0

/-- The first `k` datasets may be committed. -/
def committable (l : List WrDs) (k : Nat) : Bool :=
  (l.take k).all (fun w => w.verified && w.closed && decide (w.lastHome < stayOrder l k))

theorem committable_iff {l : List WrDs} {k : Nat} :
    committable l k = true ↔ ∀ w ∈ l.take k, w.unpassed = [] ∧ w.closed = true ∧ w.lastHome < stayOrder l k := by
  simp [committable, WrDs.verified, and_assoc]

theorem committedCount_eq (l : List WrDs) : committedCount l = ((List.range (l.length + 1)).filter (committable l)).foldl max 0 := rfl

theorem committedCount_mem (l : List WrDs) : committedCount l ≤ l.length ∧ committable l (committedCount l) = true := by
  rw [committedCount_eq]
  rcases foldl_max_mem ((List.range (l.length + 1)).filter (committable l)) 0 with h | h
  · rw [h]
    exact ⟨Nat.zero_le _, rfl⟩
  · obtain ⟨hr, hc⟩ := List.mem_filter.mp h
    exact ⟨Nat.le_of_lt_succ (List.mem_range.mp hr), hc⟩

theorem le_committedCount {l : List WrDs} {k : Nat} (hk : k ≤ l.length) (hc : committable l k = true) : k ≤ committedCount l :=
  (le_foldl_max _ 0).2 k (List.mem_filter.mpr ⟨List.mem_range.mpr (Nat.lt_succ_of_le hk), hc⟩)

end Sys2Proof.Machine

/-- Settles O50: the commit point is the largest of the numbers of datasets that may be committed. -/
theorem Sys2Proof.onlyVerifiedCommits : Obligations.OnlyVerifiedCommits := by
  intro l
  obtain ⟨hle, hc⟩ := committedCount_mem l
  have hall := committable_iff.mp hc
  refine ⟨hle, fun w hw => ?_, fun w hw y hy => ?_, fun k hk hb hlast => le_committedCount hk (committable_iff.mpr fun w hw => ?_)⟩
  · obtain ⟨hu, hcl, _⟩ := hall w hw
    exact ⟨hu, hcl⟩
  · obtain ⟨_, _, hlt⟩ := hall w hw
    unfold stayOrder at hlt
    rw [Option.mem_def.mp hy] at hlt
    exact hlt
  · obtain ⟨hu, hcl, hy⟩ := hb w hw
    refine ⟨hu, hcl, ?_⟩
    have hwl : w ∈ l := List.mem_of_mem_take hw
    unfold stayOrder
    split
    case h_1 y h => exact hy y h
    case h_2 h =>
      have hkl : k = l.length := Nat.le_antisymm hk (List.getElem?_eq_none_iff.mp h)
      split
      case h_1 z hz => exact Nat.lt_succ_of_le (hlast hkl w hwl z hz)
      case h_2 hz => exact absurd hwl (List.getLast?_eq_none_iff.mp hz ▸ List.not_mem_nil)
end

section

/-! PROOFS. Slot decisions share the positions (R288, R289), and tiers are fixed whole (R43, R44, R114). -/

open Sys2Proof Sys2Proof.Machine Sys2Proof.Claims

namespace Sys2Proof.Machine

/-! ### Credits (R289) -/

/-- The credit of an instance before the grant. -/
def creditOf (ps : List Inst) (s : State) (v : Inst) : Int :=
  if ps.contains v then (s.inst v).credit + ((s.inst v).share : Int)
  else if (waiting s v).isEmpty || (s.inst v).share = 0 then 0 else (s.inst v).credit

/-- One instance's part of `addCredits`. -/
def addCredit (ps : List Inst) (s : State) (v : Inst) : State :=
  if ps.contains v then s.modInst v (fun i => { i with credit := i.credit + (i.share : Int) })
  else if (waiting s v).isEmpty || (s.inst v).share = 0 then s.modInst v (fun i => { i with credit := 0 }) else s

theorem modInst_frame (v : Inst) (f : InstSt → InstSt) (s : State) : ∃ x, s.modInst v f = { s with insts := x } := ⟨_, rfl⟩

theorem addCredit_frame (ps : List Inst) (s : State) (v : Inst) : ∃ x, addCredit ps s v = { s with insts := x } := by
  unfold addCredit
  split
  · exact ⟨_, rfl⟩
  · split
    · exact ⟨_, rfl⟩
    · exact ⟨s.insts, rfl⟩

theorem addCredit_inst_same (ps : List Inst) (s : State) (v : Inst) : (addCredit ps s v).inst v = { s.inst v with credit := creditOf ps s v } := by
  unfold addCredit creditOf
  split
  · exact inst_modInst_same _ _ _
  · split
    · exact inst_modInst_same _ _ _
    · rfl

theorem addCredit_inst_other {ps : List Inst} {s : State} {v w : Inst} (h : v ≠ w) : (addCredit ps s v).inst w = s.inst w := by
  unfold addCredit
  split
  · exact inst_modInst_other _ _ _ _ h
  · split
    · exact inst_modInst_other _ _ _ _ h
    · rfl

theorem creditOf_congr {ps : List Inst} {s t : State} {v : Inst} (hs : t.streams = s.streams) (hi : t.inst v = s.inst v) : creditOf ps t v = creditOf ps s v := by
  unfold creditOf waiting
  rw [hs, hi]

theorem foldl_addCredit (ps l : List Inst) (hl : l.Nodup) (s : State) :
    (∃ x, l.foldl (addCredit ps) s = { s with insts := x })
      ∧ ∀ v, (l.foldl (addCredit ps) s).inst v = if v ∈ l then { s.inst v with credit := creditOf ps s v } else s.inst v := by
  induction l generalizing s with
  | nil => exact ⟨⟨s.insts, rfl⟩, fun v => rfl⟩
  | cons a l ih =>
    obtain ⟨ha, hl⟩ := List.nodup_cons.mp hl
    obtain ⟨x, hx⟩ := addCredit_frame ps s a
    obtain ⟨⟨y, hy⟩, hv⟩ := ih hl (addCredit ps s a)
    refine ⟨⟨y, hy.trans (by rw [hx])⟩, fun v => (hv v).trans ?_⟩
    by_cases hav : a = v
    · subst hav
      rw [if_neg ha, if_pos List.mem_cons_self, addCredit_inst_same]
    · have hs : (addCredit ps s a).streams = s.streams := by rw [hx]
      have hiff : v ∈ a :: l ↔ v ∈ l := by rw [List.mem_cons]; exact or_iff_right (Ne.symm hav)
      simp only [hiff, addCredit_inst_other hav,
        creditOf_congr (ps := ps) hs (addCredit_inst_other hav)]

theorem allInsts_nodup : allInsts.Nodup := List.nodup_finRange 64

theorem mem_allInsts (v : Inst) : v ∈ allInsts := List.mem_finRange v

theorem addCredits_inst (ps : List Inst) (s : State) (v : Inst) : (addCredits ps s).inst v = { s.inst v with credit := creditOf ps s v } :=
  ((foldl_addCredit ps allInsts allInsts_nodup s).2 v).trans (if_pos (mem_allInsts v))

theorem addCredits_frame (ps : List Inst) (s : State) : ∃ x, addCredits ps s = { s with insts := x } :=
  (foldl_addCredit ps allInsts allInsts_nodup s).1

theorem waiting_addCredits (ps : List Inst) (s : State) (v : Inst) : waiting (addCredits ps s) v = waiting s v := by
  obtain ⟨x, hx⟩ := addCredits_frame ps s
  rw [hx]
  rfl

/-! ### The winner and the stream that has waited longest -/

/-- `v` has the highest credit of those listed, and the lowest number of those with it. -/
def Wins (s : State) (ps : List Inst) (v : Inst) : Prop :=
  v ∈ ps ∧ ∀ z ∈ ps, (s.inst z).credit ≤ (s.inst v).credit ∧ ((s.inst z).credit = (s.inst v).credit → v ≤ z)

theorem winner_wins (s : State) {ps : List Inst} (hp : ps.Pairwise (· < ·)) (hne : ps ≠ []) : ∃ v, winner s ps = some v ∧ Wins s ps v := by
  induction ps with
  | nil => exact absurd rfl hne
  | cons a ps ih =>
    obtain ⟨ha, hp⟩ := List.pairwise_cons.mp hp
    unfold winner
    by_cases hps : ps = []
    · subst hps
      exact ⟨a, rfl, List.mem_cons_self, fun z hz => by rw [List.mem_singleton.mp hz]; exact ⟨Int.le_refl _, fun _ => Fin.le_refl _⟩⟩
    · obtain ⟨w, hw, hwp, hall⟩ := ih hp hps
      rw [hw]
      dsimp only
      split
      next h =>
        refine ⟨w, rfl, List.mem_cons_of_mem a hwp, fun z hz => ?_⟩
        rcases List.mem_cons.mp hz with rfl | hz
        · exact ⟨Int.le_of_lt h, fun he => absurd he (Int.ne_of_lt h)⟩
        · exact hall z hz
      next h =>
        refine ⟨a, rfl, List.mem_cons_self, fun z hz => ?_⟩
        rcases List.mem_cons.mp hz with rfl | hz
        · exact ⟨Int.le_refl _, fun _ => Fin.le_refl _⟩
        · exact ⟨Int.le_trans (hall z hz).1 (Int.not_lt.mp h), fun _ => Fin.le_of_lt (ha z hz)⟩

theorem longest_isSome {l : List Stream} (h : l ≠ []) : ∃ x, longest l = some x := by
  cases l with
  | nil => exact absurd rfl h
  | cons x l =>
    unfold longest
    split
    · exact ⟨x, rfl⟩
    next y _ =>
      split
      · exact ⟨y, rfl⟩
      · exact ⟨x, rfl⟩

theorem participants_pairwise (s : State) : (participants s).Pairwise (· < ·) :=
  List.Pairwise.filter _ (List.pairwise_lt_finRange 64)

theorem waiting_of_mem_participants {s : State} {v : Inst} (h : v ∈ participants s) : waiting s v ≠ [] := by
  have hc := (List.mem_filter.mp h).2
  simp only [Bool.and_eq_true, Bool.not_eq_true', List.isEmpty_eq_false_iff] at hc
  exact hc.1.1.1

/-! ### The sum of the credits -/

theorem sum_map_raised {l : List Inst} {f g : Inst → Int} {h : Inst → Nat} (hf : ∀ z ∈ l, f z = g z + h z) :
    (l.map f).sum = (l.map g).sum + ((l.map h).sum : Nat) := by
  induction l with
  | nil => rfl
  | cons a l ih =>
    have ha := hf a List.mem_cons_self
    have hr := ih fun z hz => hf z (List.mem_cons_of_mem a hz)
    simp only [List.map_cons, List.sum_cons, Int.natCast_add, ha, hr]
    omega

/-- Each gains its share and one pays the sum of the shares: the sum stays. -/
theorem sum_map_charged {l : List Inst} (hl : l.Nodup) {v : Inst} (hv : v ∈ l) {f g : Inst → Int} {h : Inst → Nat} {w : Int}
    (hf : ∀ z ∈ l, z ≠ v → f z = g z + h z) (hfv : f v = g v + h v - w) : (l.map f).sum = (l.map g).sum + ((l.map h).sum : Nat) - w := by
  induction l with
  | nil => exact absurd hv List.not_mem_nil
  | cons a l ih =>
    obtain ⟨ha, hl⟩ := List.nodup_cons.mp hl
    simp only [List.map_cons, List.sum_cons, Int.natCast_add]
    by_cases hav : a = v
    · subst hav
      have hr := sum_map_raised fun z hz => hf z (List.mem_cons_of_mem a hz) (ne_of_mem_of_not_mem hz ha)
      rw [hfv, hr]
      omega
    · have hr := ih hl ((List.mem_cons.mp hv).resolve_left (Ne.symm hav)) fun z hz => hf z (List.mem_cons_of_mem a hz)
      rw [hf a List.mem_cons_self hav, hr]
      omega

theorem foldl_add_eq_sum (l : List Nat) : l.foldl (· + ·) 0 = l.sum := by
  rw [List.sum_eq_foldl]

/-! ### A slot decision -/

/-- The winner of a decision pays. -/
def charged (ps : List Inst) (v : Inst) (w : Nat) (s : State) : State :=
  (addCredits ps s).modInst v (fun i => { i with credit := i.credit - (w : Int), granted := i.granted + 1 })

theorem charged_frame (ps : List Inst) (v : Inst) (w : Nat) (s : State) : ∃ x, charged ps v w s = { s with insts := x } := by
  obtain ⟨x, hx⟩ := addCredits_frame ps s
  exact ⟨_, (congrArg (fun u : State => u.modInst v _) hx).trans rfl⟩

theorem charged_inst_same (ps : List Inst) (v : Inst) (w : Nat) (s : State) :
    (charged ps v w s).inst v = { s.inst v with credit := creditOf ps s v - (w : Int), granted := (s.inst v).granted + 1 } := by
  unfold charged
  rw [inst_modInst_same, addCredits_inst]

theorem charged_inst_other {ps : List Inst} {v z : Inst} {w : Nat} {s : State} (h : z ≠ v) :
    (charged ps v w s).inst z = { s.inst z with credit := creditOf ps s z } := by
  unfold charged
  rw [inst_modInst_other _ _ _ _ (Ne.symm h), addCredits_inst]

theorem creditOf_mem {ps : List Inst} {s : State} {v : Inst} (h : v ∈ ps) : creditOf ps s v = (s.inst v).credit + ((s.inst v).share : Int) :=
  if_pos (List.contains_iff_mem.mpr h)

theorem creditOf_out {ps : List Inst} {s : State} {v : Inst} (h : v ∉ ps) :
    creditOf ps s v = if (waiting s v).isEmpty || (s.inst v).share = 0 then 0 else (s.inst v).credit :=
  if_neg fun hc => h (List.contains_iff_mem.mp hc)

theorem not_mem_participants {s : State} {z : Inst} (h : waiting s z = [] ∨ (s.inst z).share = 0) : z ∉ participants s := fun hm => by
  have hc := (List.mem_filter.mp hm).2
  simp only [Bool.and_eq_true, Bool.not_eq_true', List.isEmpty_eq_false_iff, bne_iff_ne] at hc
  exact h.elim hc.1.1.1 hc.1.1.2

theorem slotDecision_idle {s : State} (h : 8 ≤ (noteWaits s).fmt.asm.length ∨ (noteWaits s).pans.asmFor.isSome = true
    ∨ ∀ x ∈ (noteWaits s).streams, x.waitSince = none) : slotDecision s = noteWaits s := by
  unfold slotDecision
  refine if_pos ?_
  simpa [or_assoc] using h

section
variable {s : State} (hl : (noteWaits s).fmt.asm.length < 8) (ha : (noteWaits s).pans.asmFor = none)
  (hw : ∃ x ∈ (noteWaits s).streams, x.waitSince.isSome = true)
include hl ha hw

/-- There is something to decide. -/
theorem decides : (decide (8 ≤ (noteWaits s).fmt.asm.length) || (noteWaits s).pans.asmFor.isSome
    || (noteWaits s).streams.all (fun x => x.waitSince.isNone)) ≠ true := by
  obtain ⟨x, hx, hxw⟩ := hw
  rw [ha, Ne, Bool.or_eq_true, Bool.or_eq_true, decide_eq_true_eq, List.all_eq_true]
  rintro ((h | h) | h)
  · omega
  · exact absurd h (by decide)
  · exact absurd (h x hx) (Option.isSome_iff_ne_none.mp hxw ∘ Option.isNone_iff_eq_none.mp)

theorem slotDecision_drains {x : Stream} (hx : longest (draining (takeShares (noteWaits s))) = some x) :
    slotDecision s = grantSlot x none (takeShares (noteWaits s)) := by
  unfold slotDecision
  dsimp only
  rw [if_neg (decides hl ha hw), hx]

theorem slotDecision_wins {u : State} {v : Inst} {x : Stream} (hu : takeShares (noteWaits s) = u) (hd : draining u = [])
    (hv : winner (addCredits (participants u) u) (participants u) = some v) (hx : longest (waiting (addCredits (participants u) u) v) = some x) :
    slotDecision s = grantSlot x (some v)
      (charged (participants u) v (((participants u).map (fun v => ((addCredits (participants u) u).inst v).share)).foldl (· + ·) 0) u) := by
  unfold slotDecision
  dsimp only
  rw [if_neg (decides hl ha hw), hu, hd]
  dsimp only [longest]
  rw [hv]
  dsimp only
  rw [hx]
  rfl

end

theorem slotDecisionsShare : SlotDecisionsShare := by
  intro s
  extract_lets n u ps w raised
  refine ⟨fun h => congrArg Host.Outcome.next (slotDecision_idle h), fun hl ha hw => ⟨fun x hx => ?_, fun hd hps => ?_⟩⟩
  · exact congrArg Host.Outcome.next (slotDecision_drains hl ha hw hx)
  · have hshare : ∀ z, ((addCredits ps u).inst z).share = (u.inst z).share := fun z => by rw [addCredits_inst]
    have hcredit : ∀ z ∈ ps, ((addCredits ps u).inst z).credit = raised z := fun z hz => by rw [addCredits_inst, creditOf_mem hz]
    obtain ⟨v, hv, hvp, hwins⟩ := winner_wins (addCredits ps u) (participants_pairwise u) hps
    obtain ⟨x, hx⟩ := longest_isSome (waiting_of_mem_participants hvp)
    have hnodup : ps.Nodup := (participants_pairwise u).imp Fin.ne_of_lt
    obtain ⟨f, hf⟩ := charged_frame ps v w u
    have hsame : ((charged ps v w u).inst v).credit = raised v - w := by rw [charged_inst_same, creditOf_mem hvp]
    have hother : ∀ z ∈ ps, z ≠ v → ((charged ps v w u).inst z).credit = raised z := fun z hz hzv => by
      rw [charged_inst_other hzv, creditOf_mem hz]
    refine ⟨v, x, charged ps v w u, hvp, fun z hz => ?_, hx, ?_, hsame, by rw [charged_inst_same], fun z hz hzv => ⟨hother z hz hzv, ?_⟩, ?_,
      fun z hz => ?_, fun z hz hzw hzs => ?_, by rw [hf], by rw [hf], by rw [hf]⟩
    · have h := hwins z hz
      rw [hcredit z hz, hcredit v hvp] at h
      exact h
    · refine congrArg Host.Outcome.next ((slotDecision_wins hl ha hw rfl hd hv ((congrArg longest (waiting_addCredits _ _ _)).trans hx)).trans ?_)
      exact congrArg (fun f : Inst → Nat => grantSlot x (some v) (charged ps v ((ps.map f).foldl (· + ·) 0) u)) (funext hshare)
    · rw [charged_inst_other hzv]
    · rw [sum_map_charged hnodup hvp (h := fun z => (u.inst z).share) hother hsame]
      have hw : (w : Nat) = (ps.map (fun z => (u.inst z).share)).sum := foldl_add_eq_sum _
      omega
    · have hzp : z ∉ ps := not_mem_participants hz
      rw [charged_inst_other (ne_of_mem_of_not_mem hvp hzp).symm, creditOf_out hzp, if_pos]
      simpa using hz
    · rw [charged_inst_other (ne_of_mem_of_not_mem hvp hz).symm, creditOf_out hz, if_neg]
      simpa using ⟨hzw, hzs⟩

/-! ### Data tiers (R43, R44, R114) -/

/-- The machine with other plans, rewrites and counts of judgements. -/
def withPlans (s : State) (ps : List CwoPlan) (rw : List Rewrite) (j f : Nat) : State :=
  { s with fmt.plans := ps, fmt.rewrites := rw, fmt.judged := j, fmt.fails := f }

/-- The plan of row `m` of data tier `slot` on a channel in service. -/
def rowPlan (w : WrDs) (slot : Nat) (s : State) (m : Nat) : CwoPlan :=
  { chan := w.map.getD m 0, mapPos := m, ds := some w.buf.id, index := slot * w.map.length + m, attempt := 0, tierSlot := slot
    header := planHeader w (slot * w.map.length + m) 0 slot s.fmt.wrap (w.map.getD m 0), tier := s.fmt.tiersFixed, home := w.buf.id }

theorem fixFill_frame (w : WrDs) (s : State) (m : Nat) :
    ∃ ps, fixFill w s m = withPlans s (s.fmt.plans ++ ps) s.fmt.rewrites s.fmt.judged s.fmt.fails := by
  unfold fixFill
  dsimp only
  split
  · exact ⟨[_], rfl⟩
  · exact ⟨[], by rw [List.append_nil]; rfl⟩

theorem fixPosition_frame (w : WrDs) (slot : Nat) (s : State) (m : Nat) :
    ∃ ps rw j f, fixPosition w slot s m = withPlans s (s.fmt.plans ++ ps) rw j f := by
  unfold fixPosition
  dsimp only
  split
  · obtain ⟨ps, h⟩ := fixFill_frame w s m
    exact ⟨ps, _, _, _, h⟩
  · split
    · exact ⟨[_], _, _, _, rfl⟩
    · exact ⟨[], _, _, _, by rw [List.append_nil]; rfl⟩

theorem fixPosition_row {w : WrDs} {slot : Nat} {s : State} {m : Nat} (hi : slot * w.map.length + m < 3072) (hc : chanUp s (w.map.getD m 0) = true) :
    (fixPosition w slot s m).fmt.plans = s.fmt.plans ++ [rowPlan w slot s m] := by
  unfold fixPosition
  dsimp only
  rw [if_neg (show ¬datasetRows ≤ slot * w.map.length + m from Nat.not_le.mpr hi), if_pos hc]
  rfl

theorem chanUp_withPlans (s : State) (ps : List CwoPlan) (rw : List Rewrite) (j f c : Nat) : chanUp (withPlans s ps rw j f) c = chanUp s c := rfl

theorem rowPlan_withPlans (w : WrDs) (slot : Nat) (s : State) (ps : List CwoPlan) (rw : List Rewrite) (j f m : Nat) :
    rowPlan w slot (withPlans s ps rw j f) m = rowPlan w slot s m := rfl

/-- All positions of a data tier: the rows whose channels are in service are among the plans, and nothing but plans, rewrites and counts
of judgements has changed. -/
theorem foldl_fixPosition (w : WrDs) (slot : Nat) (s : State) (n : Nat) :
    (∃ ps rw j f, (List.range n).foldl (fixPosition w slot) s = withPlans s ps rw j f)
      ∧ ∀ m < n, slot * w.map.length + m < 3072 → chanUp s (w.map.getD m 0) = true →
          rowPlan w slot s m ∈ ((List.range n).foldl (fixPosition w slot) s).fmt.plans := by
  induction n with
  | zero => exact ⟨⟨_, _, _, _, rfl⟩, fun m hm => absurd hm (Nat.not_lt_zero m)⟩
  | succ n ih =>
    obtain ⟨⟨ps, rw, j, f, hu⟩, hp⟩ := ih
    rw [List.range_succ, List.foldl_append, List.foldl_cons, List.foldl_nil]
    generalize (List.range n).foldl (fixPosition w slot) s = u at *
    obtain ⟨qs, rw', j', f', hq⟩ := fixPosition_frame w slot u n
    refine ⟨⟨u.fmt.plans ++ qs, rw', j', f', hq.trans (by rw [hu]; rfl)⟩, fun m hm hi hc => ?_⟩
    rcases Nat.lt_succ_iff_lt_or_eq.mp hm with hm | rfl
    · rw [hq]
      exact List.mem_append_left qs (hp m hm hi hc)
    · rw [fixPosition_row hi (by rw [hu]; exact hc)]
      refine List.mem_append_right _ (List.mem_singleton.mpr ?_)
      rw [hu]
      rfl

/-- The PAFLT# of the preamplifiers that stays shut at a boundary. -/
def stillShut (s : State) : BitVec 8 := s.fmt.pafltShut &&& ~~~(s.fmt.pafltFrame &&& ~~~s.fmt.paflt)

/-- The first part of a boundary: the gate reopens if it may. -/
def gateMayOpen (s : State) : State :=
  let s := { s with fmt.pafltShut := stillShut s }
  if s.fmt.gateWanted && !s.fmt.gateOpen && s.srv.gateOk && !s.fmt.ctGate then { s with fmt.gateOpen := true, fmt.closedFrames := 0 } else s

theorem gateMayOpen_frame (s : State) : ∃ o cf, gateMayOpen s = { s with fmt.pafltShut := stillShut s, fmt.gateOpen := o, fmt.closedFrames := cf } := by
  unfold gateMayOpen
  dsimp only
  split
  · exact ⟨true, 0, rfl⟩
  · exact ⟨_, _, rfl⟩

/-- A boundary may open the gate and mark what passes under a closed one; it changes the plans in their marks alone. -/
theorem gateBoundary_frame (s : State) : ∃ sh o cf ps, gateBoundary s
    = { s with fmt.pafltShut := sh, fmt.gateOpen := o, fmt.closedFrames := cf, fmt.plans := ps }
      ∧ ∀ p ∈ s.fmt.plans, ∃ c un, { p with cutByGate := c, underrun := un } ∈ ps := by
  have keep : ∀ l : List CwoPlan, ∀ p ∈ l, ∃ c un, { p with cutByGate := c, underrun := un } ∈ l := fun l p hp => ⟨p.cutByGate, p.underrun, hp⟩
  have mark : ∀ u : State, ∃ ps, markTier u = { u with fmt.plans := ps } ∧ ∀ p ∈ u.fmt.plans, ∃ c un, { p with cutByGate := c, underrun := un } ∈ ps := by
    intro u
    unfold markTier
    split
    · exact ⟨u.fmt.plans, rfl, keep _⟩
    next k _ =>
      refine ⟨_, rfl, fun p hp => ?_⟩
      have hm := List.mem_map_of_mem (f := fun a : CwoPlan => if a.tier == k then
        { a with cutByGate := a.cutByGate || !u.fmt.gateOpen, underrun := a.underrun || chanShut u a.chan } else a) hp
      split at hm
      · exact ⟨_, _, hm⟩
      · exact ⟨_, _, hm⟩
  obtain ⟨o, cf, h⟩ := gateMayOpen_frame s
  unfold gateBoundary
  change ∃ sh o cf ps, (if (gateMayOpen s).fmt.gateWanted then markTier (gateMayOpen s) else gateMayOpen s) = _ ∧ _
  rw [h]
  split
  · obtain ⟨ps, hps, hall⟩ := mark _
    exact ⟨_, o, cf, ps, hps, hall⟩
  · exact ⟨_, o, cf, s.fmt.plans, rfl, keep _⟩

theorem rowFailures_nil (tier : Nat) (s : State) : rowFailures tier [] s = s := rfl

theorem readTier_undamaged {s : State} (h : s.buf.damage = []) (tier : Nat) : readTier tier s = s := by
  unfold readTier
  rw [h]
  rfl

theorem fixNext_data {s : State} {id : Nat} {w : WrDs} (hc : s.fmt.cur = some id) (hw : s.wr? id = some w)
    (hs : s.fmt.slot < dataTiers w.map.length) : fixNext s = fixData w s := by
  unfold fixNext
  rw [hc]
  simp only [Option.bind_some, hw]
  exact if_pos hs

theorem tierFix_data {s : State} {id : Nat} {w : WrDs} (hm : s.glb.mode = .append) (hr : s.fmt.motion = .running) (hv : s.fmt.recovering = false)
    (hd : s.fmt.dropDue = false) (ha : s.fmt.afterSep = .goOn) (hb : s.buf.damage = []) (hc : s.fmt.cur = some id) (hw : s.wr? id = some w)
    (hs : s.fmt.slot < dataTiers w.map.length) : tierFix [] s = gateBoundary (fixData w s) := by
  have hbuf : (fixData w s).buf.damage = [] := by
    obtain ⟨⟨ps, rw, j, f, hu⟩, _⟩ := foldl_fixPosition w s.fmt.slot s w.map.length
    unfold fixData tierDone modWr
    rw [hu]
    exact hb
  unfold tierFix
  rw [hm, hr, hd, hv, ha, fixNext_data hc hw hs, readTier_undamaged hbuf, rowFailures_nil]
  rfl

/-! ### Underruns (R12) -/

theorem modFirst_split {α : Type} {q : α → Bool} {f : α → α} {a b : List α} {x : α} (ha : ∀ y ∈ a, q y = false) (hx : q x = true) :
    modFirst q f (a ++ x :: b) = a ++ f x :: b := by
  induction a with
  | nil => exact if_pos hx
  | cons y a ih =>
    have hy : ¬q y = true := by rw [ha y List.mem_cons_self]; decide
    exact (if_neg hy).trans (congrArg (y :: ·) (ih fun z hz => ha z (List.mem_cons_of_mem y hz)))

theorem modFirst_none {α : Type} {q : α → Bool} {f : α → α} {l : List α} (h : ∀ y ∈ l, q y = false) : modFirst q f l = l := by
  induction l with
  | nil => rfl
  | cons y l ih =>
    have hy : ¬q y = true := by rw [h y List.mem_cons_self]; decide
    exact (if_neg hy).trans (congrArg (y :: ·) (ih fun z hz => h z (List.mem_cons_of_mem y hz)))

/-- The recording under the head on a channel. -/
theorem underHead_eq_false {s : State} {c : Chan} {q : CwoPlan} (h : q.chan ≠ c.val ∨ headTier s ≠ some q.tier) :
    (q.chan == c.val && some q.tier == headTier s) = false := by
  rcases h with h | h
  · rw [beq_eq_false_iff_ne.mpr h, Bool.false_and]
  · rw [beq_eq_false_iff_ne.mpr (Ne.symm h), Bool.and_false]

theorem tiersAreFixed : TiersAreFixed := by
  intro s
  refine ⟨fun id w hm hr hv hd ha hb hc hw hs => ?_, fun c p a b hp hpc hph hno => ?_, fun c hno => ?_⟩
  · refine ⟨_, congrArg Host.Outcome.next (tierFix_data hm hr hv hd ha hb hc hw hs), ?_⟩
    obtain ⟨⟨ps, rw, j, f, hu⟩, hrows⟩ := foldl_fixPosition w s.fmt.slot s w.map.length
    obtain ⟨sh, o, cf, qs, hg, hmark⟩ := gateBoundary_frame (fixData w s)
    rw [hg]
    have hfix : fixData w s = tierDone w.buf.id w.map.length 0 (withPlans s ps rw j f) := congrArg (tierDone w.buf.id w.map.length 0) hu
    rw [hu] at hrows
    rw [hfix] at hmark ⊢
    refine ⟨rfl, rfl, rfl, fun m hml hi hch => ?_, rfl, rfl, rfl⟩
    obtain ⟨cut, un, hq⟩ := hmark _ (hrows m hml hi hch)
    exact ⟨_, hq, rfl, rfl, rfl, rfl, rfl, rfl, rfl⟩
  · have hq : (p.chan == c.val && some p.tier == headTier s) = true := by rw [hpc, hph]; simp
    have hl := modFirst_split (q := fun p : CwoPlan => p.chan == c.val && some p.tier == headTier s)
      (f := fun p => { p with underrun := true }) (b := b) (fun q hq => underHead_eq_false (hno q hq)) hq
    exact congrArg (fun l => Host.Outcome.next { s with fmt.plans := l }) ((congrArg (modFirst _ _) hp).trans hl)
  · exact congrArg (fun l => Host.Outcome.next { s with fmt.plans := l })
      (modFirst_none fun q hq => underHead_eq_false (hno q hq))

end Sys2Proof.Machine

/-- Settles O48: the credits move by what each instance of a decision gains and the winner pays; a tier fixes each position in turn. -/
theorem Sys2Proof.slotsAndTiers : Obligations.SlotsAndTiers := ⟨slotDecisionsShare, tiersAreFixed⟩
end

section

/-! PROOFS. Servo frames, the fence and preamplifier faults (R173, R176, R178, R179, R181, R182, R398). -/

open Sys2Proof Sys2Proof.Machine Sys2Proof.Claims

namespace Sys2Proof.Machine

/-! ### What append recovery does to the servo -/

/-- What a frame decided: the validity of both elements, the PES and the count of missed frames. -/
def verdict (q : Srv) : Bool × Bool × Int × Nat := (q.validA, q.validB, q.pes, q.cntMissed)

/-- A part of an operation keeps the verdict, and the whole servo where a loop is on; the loops then stay on. -/
def KeepsServo (r t : State) : Prop := verdict t.srv = verdict r.srv ∧ (r.mot.loopEn ≠ 0 → t.srv = r.srv ∧ t.mot.loopEn ≠ 0)

theorem KeepsServo.refl (s : State) : KeepsServo s s := ⟨rfl, fun h => ⟨rfl, h⟩⟩

theorem KeepsServo.trans {r s t : State} (h : KeepsServo r s) (k : KeepsServo s t) : KeepsServo r t := by
  obtain ⟨hv, hs⟩ := h
  obtain ⟨kv, ks⟩ := k
  refine ⟨kv.trans hv, fun he => ?_⟩
  obtain ⟨h1, h2⟩ := hs he
  obtain ⟨k1, k2⟩ := ks h2
  exact ⟨k1.trans h1, k2⟩

theorem KeepsServo.of_eq {r t : State} (hs : t.srv = r.srv) (hm : t.mot.loopEn = r.mot.loopEn) : KeepsServo r t :=
  ⟨by rw [hs], fun h => ⟨hs, by rw [hm]; exact h⟩⟩

/-- An operation whose frame has neither the servo nor motion. -/
theorem KeepsServo.of_same {w : BitVec 30} {r t : State} (h : Frames.Same w r t) (hs : w.getLsbD 23 = false) (hm : w.getLsbD 24 = false) :
    KeepsServo r t := .of_eq (h.srv hs) (congrArg Mot.loopEn (h.mot hm))

theorem keepsServo_foldl {α : Type} {f : State → α → State} (hf : ∀ s a, KeepsServo s (f s a)) (l : List α) (s : State) : KeepsServo s (l.foldl f s) :=
  List.foldlRecOn (motive := KeepsServo s) l f (.refl s) fun x hx a _ => hx.trans (hf x a)

theorem keepsServo_beginStop (s : State) : KeepsServo s (beginStop s) := by
  unfold beginStop
  split
  · exact .of_eq rfl rfl
  · exact .refl s

theorem verdict_loopsWoken (mask : BitVec 4) (s : State) : verdict (loopsWoken mask s).srv = verdict s.srv := by
  unfold loopsWoken
  split
  · exact (congrArg verdict (raiseEv_srv ..)).trans rfl
  · rfl

theorem keepsServo_setLoops {mask : BitVec 4} (hm : mask ≠ 0) (s : State) : KeepsServo s (setLoops mask s) := by
  have hsrv : (setLoops mask s).srv = (loopsWoken mask s).srv := by rw [setLoops_eq]; exact (enableLoops_same mask (loopsWoken mask s)).srv rfl
  refine ⟨by rw [hsrv]; exact verdict_loopsWoken mask s, fun h => ⟨?_, by rw [setLoops_eq]; exact hm⟩⟩
  have hw : loopsWoken mask s = s := if_neg fun hc => h (of_decide_eq_true (Bool.and_eq_true_iff.mp hc).1)
  rw [hsrv, hw]

theorem keepsServo_startLoops (s : State) : KeepsServo s (startLoops s) := by
  unfold startLoops
  split
  · exact .refl s
  · exact keepsServo_setLoops (by decide) s

theorem keepsServo_beginMove (why : MoveFor) (stay : Bool) (s : State) : KeepsServo s (beginMove why stay s) := by
  have hmode : KeepsServo s (if stay then s else setMode .locate s) := by
    split
    · exact .refl s
    · exact .of_same (Frames.setMode_same Frames.sub_refl Frames.same_refl) rfl rfl
  unfold beginMove
  exact (hmode.trans (keepsServo_startLoops _)).trans (.of_eq rfl rfl)

theorem keepsServo_toCommitPoint (s : State) : KeepsServo s (toCommitPoint s) := by
  have stop : KeepsServo s (beginStop (dropGates { s with fmt.dropDue := false })) :=
    .trans (s := dropGates { s with fmt.dropDue := false }) (.of_eq rfl rfl) (keepsServo_beginStop _)
  unfold toCommitPoint
  dsimp only
  split
  · exact stop.trans (keepsServo_beginMove _ _ _)
  · exact stop.trans (.of_eq rfl rfl)

theorem keepsServo_unloadNow (c : Cmd) (s : State) : KeepsServo s (unloadNow c s) := by
  unfold unloadNow
  split
  · have records := Frames.State_modCmd_same (x1 := none) (x2 := c.uid) (x3 := fun c => { c with phase := .unloadWait }) (w := 0x101c0)
      rfl (Frames.writeDir_same rfl (Frames.writeCm_same (x0 := cmPreset) (x1 := newPreset s) rfl (Frames.same_refl (r := s))))
    exact (KeepsServo.of_same records rfl rfl).trans (keepsServo_beginMove _ _ _)
  · exact .of_same (Frames.mEnd_same Frames.sub_refl Frames.same_refl) rfl rfl

theorem keepsServo_afterSession (s : State) : KeepsServo s (afterSession s) := by
  unfold afterSession
  refine keepsServo_foldl (fun s c => ?_) _ s
  split
  · exact keepsServo_unloadNow c s
  · exact .refl s

theorem keepsServo_giveBack (h : Option Nat) (s : State) : KeepsServo s (giveBack h s) :=
  .of_same (Frames.giveBack_same Frames.sub_refl Frames.same_refl) rfl rfl

theorem keepsServo_endFailed (w : WSession) (s : State) : KeepsServo s (endFailed w s) := by
  unfold endFailed
  extract_lets a held _ _ b c
  have ha : KeepsServo s a := .of_same (Frames.setEod_same Frames.sub_refl Frames.same_refl) rfl rfl
  have hb : KeepsServo a b := .trans (.of_eq rfl rfl) (keepsServo_beginStop _)
  have hc : KeepsServo b c := keepsServo_foldl (fun s w => keepsServo_giveBack _ s) _ _
  have hm : KeepsServo c (settleWaits (setMode .threaded c)) :=
    .of_same (Frames.settleWaits_same (w := 0x80005c6) rfl (Frames.setMode_same rfl Frames.same_refl)) rfl rfl
  exact (((ha.trans hb).trans hc).trans hm).trans (keepsServo_afterSession _)

theorem keepsServo_failWrite (st : Status) (s : State) : KeepsServo s (failWrite st s) := by
  unfold failWrite
  split
  · exact .refl s
  next w _ =>
    split
    · exact keepsServo_endFailed w s
    · extract_lets held _ a b c d e
      have ha : KeepsServo s a := .of_same (Frames.failStreams_same (w := 0x2a463dd0) rfl
        (Frames.dropUnwritten_same rfl (Frames.set_2000 rfl Frames.same_refl))) rfl rfl
      have hb : KeepsServo a b := keepsServo_foldl (fun s w => keepsServo_giveBack _ s) _ _
      have hc : KeepsServo b c := .of_same (Frames.raiseEv_same Frames.sub_refl Frames.same_refl) rfl rfl
      have hd : KeepsServo c d := .of_same (w := 0x2a463dd4) (Frames.same_if Frames.same_refl
        (Frames.same_if (Frames.failGroup_same rfl (Frames.tellAll_same rfl Frames.same_refl)) (Frames.tellPos_same rfl Frames.same_refl))) rfl rfl
      clear_value a b c d
      have he := keepsServo_toCommitPoint { d with fmt.sess := some e, fmt.nextDsn := d.fmt.commitDsn, fmt.recovery := 0 }
      exact ((((ha.trans hb).trans hc).trans hd).trans (.trans (.of_eq rfl rfl) he)).trans
        (.of_same (Frames.settleWaits_same Frames.sub_refl Frames.same_refl) rfl rfl)

theorem keepsServo_startRecovery (f : Bool) (s : State) : KeepsServo s (startRecovery f s) := by
  unfold startRecovery
  split
  · exact .refl s
  · split
    · exact keepsServo_failWrite _ s
    · extract_lets _ a b
      have ha : KeepsServo s a := .of_eq rfl rfl
      have hb : KeepsServo a b := .of_same (Frames.raiseEv_same Frames.sub_refl Frames.same_refl) rfl rfl
      clear_value b
      split
      · exact (ha.trans hb).trans (.of_eq rfl rfl)
      · exact (ha.trans hb).trans (keepsServo_toCommitPoint _)

/-! ### The fence (R182) -/

/-- No loop has to be started for a write that fails. -/
def LoopsStand (s : State) : Prop := s.mot.loopEn ≠ 0 ∨ s.glb.mode ≠ .append

theorem gateDrop_verdict (s : State) : verdict (gateDrop s).srv = verdict s.srv := by
  unfold gateDrop
  split
  · rfl
  · dsimp only
    split
    · rfl
    · split
      · exact (keepsServo_startRecovery _ _).1
      · exact congrArg verdict ((Frames.markTier_same Frames.sub_refl Frames.same_refl).srv rfl)

theorem gateDrop_stands {s : State} (h : LoopsStand s) : (gateDrop s).srv = s.srv ∧ LoopsStand (gateDrop s) := by
  unfold gateDrop
  split
  · exact ⟨rfl, h⟩
  · dsimp only
    split
    next hm => exact ⟨rfl, .inr (bne_iff_ne.mp hm)⟩
    next hm =>
      have he : s.mot.loopEn ≠ 0 := h.resolve_right fun k => hm (bne_iff_ne.mpr k)
      split
      · have ⟨hs, hl⟩ := (keepsServo_startRecovery true { s with fmt.gateOpen := false, fmt.closedFrames := 0 }).2 he
        exact ⟨hs, .inl hl⟩
      · have k := Frames.markTier_same Frames.sub_refl (Frames.same_refl (r := { s with fmt.gateOpen := false, fmt.closedFrames := 0 }))
        exact ⟨k.srv rfl, .inl (by rw [k.mot rfl]; exact he)⟩

/-- The servo with the fence's flag and count. -/
def fenced (q : Srv) (ok : Bool) (n : Nat) : Srv := { q with gateOk := ok, cntFences := n }

theorem verdict_fenced (q : Srv) (ok : Bool) (n : Nat) : verdict (fenced q ok n) = verdict q := rfl

theorem fence_verdict (cause : Nat) (s : State) : verdict (fence cause s).srv = verdict s.srv := by
  unfold fence
  dsimp only
  split
  · rfl
  · rw [gateDrop_verdict, raiseEv_srv]
    rfl

theorem fence_stands {s : State} (h : LoopsStand s) (cause : Nat) : (∃ n, (fence cause s).srv = fenced s.srv false n) ∧ LoopsStand (fence cause s) := by
  unfold fence
  dsimp only
  split
  · exact ⟨⟨s.srv.cntFences, rfl⟩, h⟩
  · refine (fun k => ⟨⟨_, k.1.trans (raiseEv_srv ..)⟩, k.2⟩) (gateDrop_stands ?_)
    have k := Frames.raiseEv_same (w := 0x10) (x0 := .srvFence) (x1 := 0xC) (x2 := noRes) (x3 := noInst)
      (x4 := leBytes 2 (unsigned 16 s.srv.pes) ++ leBytes 4 s.srv.lx ++ leBytes 1 cause) rfl
      (Frames.same_refl (r := { s with srv := { s.srv with gateOk := false, cntFences := satInc 65535 s.srv.cntFences } }))
    unfold LoopsStand
    rw [k.mot rfl, k.glb rfl]
    exact h

theorem judgeFence_verdict (decided : Bool) (s : State) : verdict (judgeFence decided s).srv = verdict s.srv := by
  unfold judgeFence
  dsimp only
  split
  · exact fence_verdict 0 s
  · split
    · split
      · exact fence_verdict 1 s
      · rfl
    · split
      · split
        · exact fence_verdict 2 s
        · rfl
      · split <;> rfl

/-- The fence judges by its flag and count alone where the loops stand; a state in which the gate may not stay open closes it. -/
theorem judgeFence_stands {s : State} (h : LoopsStand s) (decided : Bool) :
    (∃ ok n, (judgeFence decided s).srv = fenced s.srv ok n ∧ (s.srv.state.open_ = false → decided = false → ok = false))
      ∧ LoopsStand (judgeFence decided s) := by
  have shut : ∀ cause, (∃ ok n, (fence cause s).srv = fenced s.srv ok n ∧ (s.srv.state.open_ = false → decided = false → ok = false))
      ∧ LoopsStand (fence cause s) := fun cause => by
    obtain ⟨⟨n, hn⟩, hl⟩ := fence_stands h cause
    exact ⟨⟨false, n, hn, fun _ _ => rfl⟩, hl⟩
  unfold judgeFence
  dsimp only
  split
  · exact shut 0
  · split
    · split
      · exact shut 1
      next hg => exact ⟨⟨s.srv.gateOk, s.srv.cntFences, rfl, fun _ _ => Bool.eq_false_iff.mpr hg⟩, h⟩
    next ho =>
      have open_ : ∀ ok : Bool, s.srv.state.open_ = false → decided = false → ok = false := fun ok h => absurd (by rw [h]; rfl) ho
      split
      · split
        · exact shut 2
        · exact ⟨⟨_, _, rfl, open_ _⟩, h⟩
      · split
        · exact ⟨⟨true, s.srv.cntFences, rfl, open_ true⟩, h⟩
        · exact ⟨⟨_, _, rfl, open_ _⟩, h⟩

/-! ### Lock lost (R181) -/

/-- The servo as a search begins. -/
def searching (q : Srv) : Srv := { q with state := .search, good := 0, lxValid := false, group := [] }

theorem startSearch_srv (s : State) : (startSearch s).srv = searching s.srv := raiseEv_srv ..

theorem startSearch_stands {s : State} (h : LoopsStand s) : LoopsStand (startSearch s) := by
  have k := Frames.startSearch_same Frames.sub_refl (Frames.same_refl (r := s))
  unfold LoopsStand
  rw [k.mot rfl, k.glb rfl]
  exact h

/-- What lock lost does in each mode. -/
def lockLost (s : State) : State :=
  match s.glb.mode with
  | .append => startRecovery true s
  | .retrieve => { beginStop s with fmt.moveFor := .turn }
  | .locate => { beginStop s with fmt.moveFor := if s.fmt.moveFor = .none then .locate else s.fmt.moveFor }
  | _ => s

theorem keepsServo_lockLost (s : State) : KeepsServo s (lockLost s) ∧ (s.glb.mode ≠ .append → (lockLost s).srv = s.srv) := by
  unfold lockLost
  split
  next h => exact ⟨keepsServo_startRecovery true s, fun k => absurd h k⟩
  next => exact ⟨(keepsServo_beginStop s).trans (.of_eq rfl rfl), fun _ => (Frames.beginStop_same Frames.sub_refl Frames.same_refl).srv rfl⟩
  next => exact ⟨(keepsServo_beginStop s).trans (.of_eq rfl rfl), fun _ => (Frames.beginStop_same Frames.sub_refl Frames.same_refl).srv rfl⟩
  next => exact ⟨.refl s, fun _ => rfl⟩

theorem enterSearch_eq (s : State) : enterSearch s = lockLost (judgeFence false (startSearch s)) := rfl

theorem enterSearch_verdict (s : State) : verdict (enterSearch s).srv = verdict s.srv := by
  rw [enterSearch_eq, (keepsServo_lockLost _).1.1, judgeFence_verdict, startSearch_srv]
  rfl

theorem enterSearch_stands {s : State} (h : LoopsStand s) : ∃ n, (enterSearch s).srv = fenced (searching s.srv) false n := by
  obtain ⟨⟨ok, n, hs, hok⟩, hl⟩ := judgeFence_stands (startSearch_stands h) false
  rw [enterSearch_eq]
  obtain ⟨hk, hm⟩ := keepsServo_lockLost (judgeFence false (startSearch s))
  have hst : (lockLost (judgeFence false (startSearch s))).srv = (judgeFence false (startSearch s)).srv := hl.elim (fun he => (hk.2 he).1) hm
  have hopen : (startSearch s).srv.state.open_ = false := by rw [startSearch_srv]; rfl
  exact ⟨n, by rw [hst, hs, hok hopen rfl, startSearch_srv]⟩

/-! ### Frames that pass (R176, R179, R181) -/

theorem l2Sample_srv (s : State) : ∃ n, (l2Sample s).srv = { s.srv with l2Count := n } := by
  unfold l2Sample
  split
  · exact ⟨s.srv.l2Count, rfl⟩
  · extract_lets high _ _ u
    have hu : u.srv = s.srv := by
      show State.srv (if _ then _ else _) = _
      split
      · exact (Frames.bankSwap_same Frames.sub_refl Frames.same_refl).srv rfl
      · rfl
    clear_value u
    exact ⟨_, ((Frames.runLoop_same Frames.sub_refl Frames.same_refl).srv rfl).trans
      (congrArg (fun q : Srv => { q with l2Count := q.l2Count + 1 }) hu)⟩

theorem l2Sample_verdict (s : State) : verdict (l2Sample s).srv = verdict s.srv := by
  obtain ⟨n, h⟩ := l2Sample_srv s
  rw [h]
  rfl

/-- The counts of a frame and the run-up: the servo, the mode and the loops stay. -/
theorem runUpAt_countFrame (s : State) : (runUpAt (countFrame s)).srv = s.srv ∧ (LoopsStand s → LoopsStand (runUpAt (countFrame s))) := by
  have hk := Frames.runUpAt_same (w := 0x1002000) rfl (Frames.countFrame_same rfl (Frames.same_refl (r := s)))
  have hl : (runUpAt (countFrame s)).mot.loopEn = s.mot.loopEn := by
    unfold runUpAt
    split
    · rfl
    · split
      · rfl
      · split <;> rfl
  refine ⟨hk.srv rfl, fun h => ?_⟩
  unfold LoopsStand
  rw [hl, hk.glb rfl]
  exact h

/-- The servo as an element's frame leaves it before the LX field is taken. -/
def framed (q : Srv) (va vb st : Bool) (pes : Int) (yA yB : Nat) (az : Int) (errs : List Int) : Srv :=
  { q with validA := va, validB := vb, straddle := st, pes := pes, yA := yA, yB := yB, az := az, azErrs := errs }

theorem takeLx_framed (f : BitVec 16) (q : Srv) (va vb st : Bool) (pes : Int) (yA yB : Nat) (az : Int) (errs : List Int) :
    takeLx f (framed q va vb st pes yA yB az errs) = framed (takeLx f q) va vb st pes yA yB az errs := by
  unfold takeLx assembleLx nextLx framed
  dsimp only
  (repeat' split) <;> rfl

theorem assembleLx_frame (q : Srv) (i b : Nat) : ∃ lx v g m, assembleLx q i b = { q with lx := lx, lxValid := v, group := g, mismatches := m } := by
  unfold assembleLx
  extract_lets want start group
  split
  · exact ⟨_, _, _, _, rfl⟩
  · exact ⟨_, _, _, _, rfl⟩

/-- Taking an LX field changes LX and its assembly alone. -/
theorem takeLx_frame (f : BitVec 16) (q : Srv) : ∃ lx v g m, takeLx f q = { q with lx := lx, lxValid := v, group := g, mismatches := m } := by
  unfold takeLx
  dsimp only
  split
  · split
    · exact ⟨_, _, _, _, rfl⟩
    · split
      · exact ⟨_, _, _, _, rfl⟩
      · split
        · exact ⟨_, _, _, _, rfl⟩
        · exact ⟨_, _, _, _, rfl⟩
  · split
    · exact assembleLx_frame q _ _
    · exact ⟨_, _, _, _, rfl⟩

theorem lockOn_verdict (q : Srv) : verdict (lockOn q) = verdict q := by
  unfold lockOn
  dsimp only
  split
  · split <;> rfl
  · rfl
  · rfl

/-- The fourth valid frame of a search with a valid LX locks. -/
theorem lockOn_locks {q : Srv} (h : q.state = .search) (hg : 3 ≤ q.good) (hl : q.lxValid = true) : (lockOn q).state = .locked := by
  unfold lockOn
  rw [h, hl]
  dsimp only
  rw [if_pos (by simpa using hg)]

theorem lockOn_searches {q : Srv} (h : q.state = .search) (hg : q.good < 3) : (lockOn q).state = .search := by
  have hc : ¬(decide (4 ≤ q.good + 1) && q.lxValid) = true := by
    rw [Bool.and_eq_true, decide_eq_true_eq]
    omega
  unfold lockOn
  rw [h]
  exact (congrArg Srv.state (if_neg hc)).trans rfl

/-- The PES with element A valid alone. -/
theorem frameDecided_elemA {f : ServoFrame} {s : State} {y : Int × Bool} (ho : s.srv.state ≠ .off) (hA : rbit s.srv.ctrl 0 = true)
    (hy : f.elemA.bind (elemY s 0) = some y) (hB : rbit s.srv.ctrl 1 = false) :
    ∃ st yA yB az errs, frameDecided f s = l2Sample (judgeFence true (runUpAt (countFrame { s with
      srv := lockOn (takeLx f.lxField (framed s.srv true false st (pesOf y.1 (targetY s 0)) yA yB az errs)) }))) := by
  unfold frameDecided
  rw [if_neg ho, hA, hB, hy]
  exact ⟨_, _, _, _, _, rfl⟩

theorem servoFrame_valid {f : ServoFrame} {s : State} {y : Int × Bool} (ho : s.srv.state ≠ .off) (hA : rbit s.srv.ctrl 0 = true)
    (hy : f.elemA.bind (elemY s 0) = some y) (hB : rbit s.srv.ctrl 1 = false) :
    Gives (exec (.servoFrameDecided f) s) fun t => t.srv.validA = true ∧ t.srv.validB = false ∧ t.srv.pes = pesOf y.1 (targetY s 0)
      ∧ (LoopsStand s →
          (s.srv.state = .search → 3 ≤ s.srv.good → (takeLx f.lxField s.srv).lxValid = true → t.srv.state = .locked)
          ∧ (s.srv.state = .search → s.srv.good < 3 → t.srv.state = .search)) := by
  obtain ⟨st, yA, yB, az, errs, hf⟩ := frameDecided_elemA ho hA hy hB
  refine ⟨_, congrArg Host.Outcome.next hf, ?_⟩
  dsimp only
  rw [takeLx_framed]
  obtain ⟨lx, v, g, m, hlx⟩ := takeLx_frame f.lxField s.srv
  rw [hlx]
  generalize hq : framed _ true false st _ yA yB az errs = q
  obtain ⟨hsrv, hst⟩ := runUpAt_countFrame { s with srv := lockOn q }
  generalize runUpAt (countFrame { s with srv := lockOn q }) = u at *
  have hv : verdict (l2Sample (judgeFence true u)).srv = (true, false, pesOf y.1 (targetY s 0), s.srv.cntMissed) := by
    rw [l2Sample_verdict, judgeFence_verdict, hsrv, lockOn_verdict, ← hq]
    rfl
  simp only [verdict, Prod.mk.injEq] at hv
  obtain ⟨hvA, hvB, hpes, _⟩ := hv
  refine ⟨hvA, hvB, hpes, fun h => ?_⟩
  obtain ⟨⟨ok, n, hj, _⟩, _⟩ := judgeFence_stands (hst h) true
  obtain ⟨c, hl⟩ := l2Sample_srv (judgeFence true u)
  have hstate : (l2Sample (judgeFence true u)).srv.state = (lockOn q).state := by rw [hl, hj, hsrv]; rfl
  rw [hstate, ← hq]
  exact ⟨fun hs hg hv => lockOn_locks hs hg hv, fun hs hg => lockOn_searches hs hg⟩

/-- The servo after a missed frame has been counted. -/
def missedFrame (q : Srv) : Srv :=
  { q with validA := false, validB := false, good := 0, missed := q.missed + 1, cntMissed := satInc 65535 q.cntMissed, group := []
           lx := if q.lxValid then nextLx q else q.lx }

/-- What the servo makes of a missed frame, after the counts. -/
def afterMissed (n : Nat) (s : State) : State :=
  if s.srv.state = .search then s
  else if max 4 (fld s.srv.fence 18 4) ≤ n then enterSearch s
  else if fld s.srv.fence 16 2 < n then judgeFence false { s with srv.state := .fenced }
  else { s with srv.state := .flywheel }

theorem frameMissed_eq {s : State} (h : s.srv.state ≠ .off) :
    frameMissed s = l2Sample (afterMissed (s.srv.missed + 1) (runUpAt (countFrame { s with srv := missedFrame s.srv }))) := if_neg h

theorem afterMissed_verdict (n : Nat) (s : State) : verdict (afterMissed n s).srv = verdict s.srv := by
  unfold afterMissed
  split
  · rfl
  · split
    · exact enterSearch_verdict s
    · split
      · exact (judgeFence_verdict false _).trans rfl
      · rfl

theorem servoFrame_missed {s : State} (h : s.srv.state ≠ .off) : Gives (exec .frameMissed s) fun t =>
    t.srv.cntMissed = satInc 65535 s.srv.cntMissed ∧ t.srv.validA = false ∧ t.srv.validB = false
      ∧ (LoopsStand s →
          t.srv.missed = s.srv.missed + 1
          ∧ (s.srv.state ≠ .search → s.srv.missed + 1 ≤ fld s.srv.fence 16 2 → s.srv.missed + 1 < max 4 (fld s.srv.fence 18 4) →
              t.srv.state = .flywheel ∧ (s.srv.lxValid = true → t.srv.lx = nextLx s.srv))
          ∧ (s.srv.state ≠ .search → fld s.srv.fence 16 2 < s.srv.missed + 1 → s.srv.missed + 1 < max 4 (fld s.srv.fence 18 4) →
              t.srv.state = .fenced ∧ t.srv.gateOk = false)
          ∧ (max 4 (fld s.srv.fence 18 4) ≤ s.srv.missed + 1 ∨ s.srv.state = .search → t.srv.state = .search)) := by
  refine ⟨_, congrArg Host.Outcome.next (frameMissed_eq h), ?_⟩
  dsimp only
  obtain ⟨hsrv, hst⟩ := runUpAt_countFrame { s with srv := missedFrame s.srv }
  generalize runUpAt (countFrame { s with srv := missedFrame s.srv }) = u at *
  change u.srv = missedFrame s.srv at hsrv
  have hv : verdict (l2Sample (afterMissed (s.srv.missed + 1) u)).srv = (false, false, s.srv.pes, satInc 65535 s.srv.cntMissed) := by
    rw [l2Sample_verdict, afterMissed_verdict, hsrv]
    rfl
  simp only [verdict, Prod.mk.injEq] at hv
  obtain ⟨hvA, hvB, _, hc⟩ := hv
  refine ⟨hc, hvA, hvB, fun hl => ?_⟩
  have hu : LoopsStand u := hst hl
  obtain ⟨n, hn⟩ := l2Sample_srv (afterMissed (s.srv.missed + 1) u)
  rw [hn]
  dsimp only
  have hst : u.srv.state = s.srv.state := by rw [hsrv]; rfl
  have hf : u.srv.fence = s.srv.fence := by rw [hsrv]; rfl
  by_cases hs : s.srv.state = .search
  · have he : afterMissed (s.srv.missed + 1) u = u := if_pos (hst.trans hs)
    rw [he, hsrv]
    exact ⟨rfl, fun k => absurd hs k, fun k => absurd hs k, fun _ => hs⟩
  by_cases hlost : max 4 (fld s.srv.fence 18 4) ≤ s.srv.missed + 1
  · have he : afterMissed (s.srv.missed + 1) u = enterSearch u := (if_neg (by rw [hst]; exact hs)).trans (if_pos (by rw [hf]; exact hlost))
    obtain ⟨k, hk⟩ := enterSearch_stands hu
    rw [he, hk, hsrv]
    exact ⟨rfl, fun _ _ hlt => absurd hlost (Nat.not_le.mpr hlt), fun _ _ hlt => absurd hlost (Nat.not_le.mpr hlt), fun _ => rfl⟩
  have hno : ¬(max 4 (fld s.srv.fence 18 4) ≤ s.srv.missed + 1 ∨ s.srv.state = .search) := not_or.mpr ⟨hlost, hs⟩
  by_cases hfence : fld s.srv.fence 16 2 < s.srv.missed + 1
  · have he : afterMissed (s.srv.missed + 1) u = judgeFence false { u with srv.state := .fenced } :=
      (if_neg (by rw [hst]; exact hs)).trans ((if_neg (by rw [hf]; exact hlost)).trans (if_pos (by rw [hf]; exact hfence)))
    obtain ⟨⟨ok, k, hj, hok⟩, _⟩ := judgeFence_stands (s := { u with srv.state := .fenced }) hu false
    rw [he, hj, hok rfl rfl]
    exact ⟨congrArg Srv.missed hsrv, fun _ hle => absurd hle (Nat.not_le.mpr hfence), fun _ _ _ => ⟨rfl, rfl⟩, fun k => absurd k hno⟩
  · have he : afterMissed (s.srv.missed + 1) u = { u with srv.state := .flywheel } :=
      (if_neg (by rw [hst]; exact hs)).trans ((if_neg (by rw [hf]; exact hlost)).trans (if_neg (by rw [hf]; exact hfence)))
    rw [he]
    exact ⟨congrArg Srv.missed hsrv, fun _ _ _ => ⟨rfl, fun hv => (congrArg Srv.lx hsrv).trans (if_pos hv)⟩, fun _ hlt => absurd hlt hfence,
      fun k => absurd k hno⟩

theorem servoFrames : ServoFrames := fun _ => ⟨fun _ _ ho hA hy hB => servoFrame_valid ho hA hy hB, fun h => servoFrame_missed h⟩

/-! ### Preamplifier faults (R398) -/

theorem markTier_frame (s : State) : ∃ ps, markTier s = { s with fmt.plans := ps } := by
  unfold markTier
  split
  · exact ⟨s.fmt.plans, rfl⟩
  · exact ⟨_, rfl⟩

theorem preampFaults : PreampFaults := by
  intro k s
  refine ⟨⟨_, rfl, ?_⟩, _, rfl, rfl, ?_, rfl, rfl⟩
  · obtain ⟨ps, h⟩ := markTier_frame { s with
      fmt.paflt := s.fmt.paflt ||| BitVec.twoPow 8 k.val, fmt.pafltShut := s.fmt.pafltShut ||| BitVec.twoPow 8 k.val
      fmt.pafltOne := s.fmt.pafltOne &&& ~~~BitVec.twoPow 8 k.val, fmt.pafltFrame := s.fmt.pafltFrame &&& ~~~BitVec.twoPow 8 k.val }
    rw [show pafltAssert k s = _ from h]
    refine ⟨rfl, rfl, ?_, rfl, rfl⟩
    unfold wgate
    dsimp only
    split
    · exact BitVec.not_or
    · exact BitVec.zero_and.symm
  · show (s.fmt.pafltFrame &&& ~~~BitVec.twoPow 8 k.val).getLsbD k.val = false
    simp

/-! ### Servo fields (R173, R178, R179) -/

theorem grayOf_div_two (k : Nat) : grayOf k / 2 = grayOf (k / 2) := by
  unfold grayOf
  rw [Nat.xor_div_two]

theorem grayOf_mod_two (k : Nat) : grayOf k % 2 = (k % 2 + k / 2 % 2) % 2 := by
  unfold grayOf
  have h := @Nat.xor_mod_two_eq_one k (k / 2)
  omega

/-- The running exclusive-or undoes the Gray code. -/
theorem ungray_grayOf (n : Nat) : ∀ k < 2 ^ n, ungray n (grayOf k) = k := by
  induction n with
  | zero => intro k hk; exact (Nat.lt_one_iff.mp hk).symm
  | succ n ih =>
    intro k hk
    have hi := ih (k / 2) (by omega)
    unfold ungray
    rw [grayOf_div_two, hi, grayOf_mod_two]
    dsimp only
    omega

theorem takeLx_assembles {f : BitVec 16} {q : Srv} {i b : Nat} (hv : q.lxValid = false) (hf : lxParts f = (i, b, true)) :
    takeLx f q = assembleLx q i b := by
  unfold takeLx
  rw [hf, hv]
  rfl

theorem servoFieldsDecode : ServoFieldsDecode := by
  refine ⟨fun k hk => ungray_grayOf 10 k hk, fun f b q hv hf hg hp => ?_⟩
  extract_lets t
  have h0 : takeLx (f 0) q = { q with group := [(0, b 0)] } := by
    rw [takeLx_assembles hv (hp 0)]
    simp [assembleLx, hf, hg]
  have h1 : takeLx (f 1) (takeLx (f 0) q) = { q with group := [(0, b 0), (1, b 1)] } := by
    rw [h0, takeLx_assembles (q := { q with group := [(0, b 0)] }) hv (hp 1)]
    simp [assembleLx, hf]
  have h2 : takeLx (f 2) (takeLx (f 1) (takeLx (f 0) q)) = { q with group := [(0, b 0), (1, b 1), (2, b 2)] } := by
    rw [h1, takeLx_assembles (q := { q with group := [(0, b 0), (1, b 1)] }) hv (hp 2)]
    simp [assembleLx, hf]
  have ht : t = assembleLx { q with group := [(0, b 0), (1, b 1), (2, b 2)] } 3 (b 3) := by
    show takeLx (f 3) _ = _
    rw [h2, takeLx_assembles (q := { q with group := [(0, b 0), (1, b 1), (2, b 2)] }) hv (hp 3)]
    rfl
  rw [ht]
  simp [assembleLx, hf, List.lookup]
  omega

end Sys2Proof.Machine

/-- Settles O39: a frame's verdict is kept by the fence and the recovery that it may start; the state moves by the count of frames. -/
theorem Sys2Proof.servoFramesDecode : Obligations.ServoFramesDecode := ⟨servoFrames, preampFaults, servoFieldsDecode⟩
end

section

/-! PROOFS. Read timing, adaptation and the windows of the marks (R141, R142, R146, R149 to R153, R155). -/

open Sys2Proof Sys2Proof.Machine Sys2Proof.Claims

namespace Sys2Proof.Machine

/-! ### A read channel changed -/

theorem rch_modRch_same (s : State) (c : Chan) (f : RChan → RChan) : (s.modRch c f).rch[c] = f s.rch[c] := vmod_same _ _ _

theorem rch_modRch_other (s : State) {c d : Chan} (f : RChan → RChan) (h : d ≠ c) : (s.modRch c f).rch[d] = s.rch[d] := vmod_other _ _ _ _ (Ne.symm h)

/-- What a change of a channel makes of it is all that counts. -/
theorem modRch_congr {s : State} {c : Chan} {f g : RChan → RChan} (h : f s.rch[c] = g s.rch[c]) : s.modRch c f = s.modRch c g :=
  congrArg (fun r => { s with rch := vset s.rch c r }) h

theorem modRch_self {s : State} {c : Chan} {f : RChan → RChan} (h : f s.rch[c] = s.rch[c]) : s.modRch c f = s :=
  (modRch_congr (g := id) h).trans (congrArg (fun v => { s with rch := v }) (vset_self s.rch c))

/-! ### Timing and adaptation (R141, R142, R146) -/

theorem live_eq_false {r : RChan} (h : r.sync = .stopped) : r.live = false := by unfold RChan.live; rw [h]; rfl

theorem live_eq_true {r : RChan} (h : r.sync ≠ .stopped) : r.live = true := bne_iff_ne.mpr h

theorem setPhase_turns_phase (r : RChan) (phi : Int) : 64 * (r.setPhase phi).turns + (r.setPhase phi).phase = phi := by
  show 64 * (phi / 64) + ((phi % 64).toNat : Int) = phi
  omega

theorem setPhase_phase_lt (r : RChan) (phi : Int) : (r.setPhase phi).phase < 64 := by
  show (phi % 64).toNat < 64
  omega

theorem setPhase_wraps (r : RChan) (phi : Int) : (r.setPhase phi).wraps
    = List.replicate (phi / 64 - r.turns).natAbs (r.count, if phi / 64 < r.turns then -1 else 1) ++ r.wraps := by
  have hsign : (if phi / 64 - r.turns < 0 then (-1 : Int) else 1) = if phi / 64 < r.turns then -1 else 1 := by
    (repeat' split) <;> omega
  rw [← hsign]
  rfl

/-- A running channel after 32 bits: the samples, the offset and the phase. -/
def timed (c : Chan) (samples : List Int) (tau phi : Int) (s : State) (r : RChan) : RChan :=
  RChan.setPhase { r.take c.val s.rdc.inSeparator samples with tau := tau } phi

theorem timed_fields (c : Chan) (samples : List Int) (tau phi : Int) (s : State) (r : RChan) :
    (timed c samples tau phi s r).tau = tau ∧ (timed c samples tau phi s r).phase < 64
      ∧ 64 * (timed c samples tau phi s r).turns + (timed c samples tau phi s r).phase = phi
      ∧ (timed c samples tau phi s r).count = r.count + samples.length + ((timed c samples tau phi s r).turns - r.turns)
      ∧ (timed c samples tau phi s r).wraps = List.replicate ((timed c samples tau phi s r).turns - r.turns).natAbs
          (r.count + samples.length, if (timed c samples tau phi s r).turns < r.turns then -1 else 1) ++ r.wraps := by
  have hc := RChan.take_count c.val s.rdc.inSeparator samples r
  have ha := RChan.take_alike c.val s.rdc.inSeparator samples r
  unfold timed
  generalize r.take c.val s.rdc.inSeparator samples = q at *
  have ht : q.turns = r.turns := by rw [ha]
  have hw : q.wraps = r.wraps := by rw [ha]
  refine ⟨rfl, setPhase_phase_lt _ phi, setPhase_turns_phase _ phi, ?_, (setPhase_wraps _ phi).trans ?_⟩
  · rw [← hc, ← ht]
    rfl
  · rw [← hc, ← ht, ← hw]
    rfl

/-- The machine with the phases of the clock tracks as measured. -/
def phased (phiA phiB : Int) (s : State) : State := { s with rdc := takePhases phiA phiB s.rdc }

/-- The tracked offset after 32 bits (R141). -/
def tauNext (c : Chan) (sum : Int) (s : State) : Int := s.rch[c].tau + clampI (-2) 2 (roundShift sum (fld s.rdc.adapt 12 4))

theorem timingUpdate_live {c : Chan} {s : State} (h : s.rch[c].sync ≠ .stopped) (samples : List Int) (sum phiA phiB : Int) :
    timingUpdate c samples sum phiA phiB s = (phased phiA phiB s).modRch c (timed c samples (tauNext c sum s)
      (samplePhase (basePhase (takePhases phiA phiB s.rdc)) (takePhases phiA phiB s.rdc).skew (tauNext c sum s) c.val (rbit s.rdc.clkCfg 4))
      (phased phiA phiB s)) := by
  unfold timingUpdate
  rw [if_neg (by rw [live_eq_true h]; decide)]
  rfl

theorem timingTracks : TimingTracks := by
  intro c samples sum phiA phiB s
  refine ⟨fun h => congrArg Host.Outcome.next (if_pos (by rw [live_eq_false h]; rfl)), fun h => ?_, fun h => ?_, fun h => ?_⟩
  · refine ⟨_, congrArg Host.Outcome.next (timingUpdate_live h samples sum phiA phiB), ?_⟩
    generalize hphi : samplePhase _ _ _ _ _ = phi
    obtain ⟨htau, hphase, hturns, hcount, hwraps⟩ := timed_fields c samples (tauNext c sum s) phi (phased phiA phiB s) s.rch[c]
    have hc := rch_modRch_same (phased phiA phiB s) c (timed c samples (tauNext c sum s) phi (phased phiA phiB s))
    change _ = timed c samples (tauNext c sum s) phi (phased phiA phiB s) s.rch[c] at hc
    have hother : ∀ d : Chan, d ≠ c → ((phased phiA phiB s).modRch c (timed c samples (tauNext c sum s) phi (phased phiA phiB s))).rch[d] = s.rch[d] :=
      fun d hd => rch_modRch_other (phased phiA phiB s) _ hd
    have hrdc : ((phased phiA phiB s).modRch c (timed c samples (tauNext c sum s) phi (phased phiA phiB s))).rdc = takePhases phiA phiB s.rdc := rfl
    have hrest : ∀ f, ((phased phiA phiB s).modRch c f).fmt = s.fmt ∧ ((phased phiA phiB s).modRch c f).wch = s.wch
      ∧ ((phased phiA phiB s).modRch c f).rtv = s.rtv := fun f => ⟨rfl, rfl, rfl⟩
    have hrest := hrest (timed c samples (tauNext c sum s) phi (phased phiA phiB s))
    generalize (phased phiA phiB s).modRch c (timed c samples (tauNext c sum s) phi (phased phiA phiB s)) = u at *
    generalize timed c samples (tauNext c sum s) phi (phased phiA phiB s) s.rch[c] = r at *
    rw [hc, hrdc]
    refine ⟨htau, hphase, ?_, fun hA => if_pos hA, fun hB => if_pos hB, fun hA hB => if_pos (by rw [hA, hB]; rfl), fun hAB => if_neg ?_, hcount, hwraps,
      hother, hrest⟩
    · rw [hturns, htau, ← hphi]
      rfl
    · rcases hAB with h | h <;> simp [h]
  · exact congrArg Host.Outcome.next (modRch_congr (if_pos h))
  · exact congrArg Host.Outcome.next (modRch_self (if_neg (Nat.not_le.mpr h)))

/-! ### Search windows (R149 to R152) -/

/-- The machine with a window noted. -/
def noted (c : Chan) (mark : Option (Nat × Int)) (sep : Bool) (s : State) : State :=
  { s with rdc.windows := s.rdc.windows ++ [(c.val, mark, sep)] }

theorem noted_any (c : Chan) (mark : Option (Nat × Int)) (sep : Bool) (s : State) (k : Nat) :
    (noted c mark sep s).rdc.windows.any (fun w => w.1 == k) = (s.rdc.windows.any (fun w => w.1 == k) || c.val == k) := by
  unfold noted
  rw [List.any_append]
  simp

theorem closeWindow_waits {c : Chan} {mark : Option (Nat × Int)} {sep : Bool} {s : State}
    (h : ∃ k ∈ rchUp s, k ≠ c.val ∧ s.rdc.windows.any (fun w => w.1 == k) = false) : closeWindow c mark sep s = noted c mark sep s := by
  obtain ⟨k, hk, hkc, hw⟩ := h
  refine if_neg fun hall => ?_
  have hn : (noted c mark sep s).rdc.windows.any (fun w => w.1 == k) = true := List.all_eq_true.mp hall k hk
  rw [noted_any, hw, Bool.false_or] at hn
  exact hkc (eq_of_beq hn).symm

theorem closeWindow_last {c : Chan} {mark : Option (Nat × Int)} {sep : Bool} {s : State} (hs : s.rdc.inSeparator = false)
    (h : ∀ k ∈ rchUp s, k = c.val ∨ s.rdc.windows.any (fun w => w.1 == k) = true) : closeWindow c mark sep s = decideTier (noted c mark sep s) := by
  have hall : (rchUp (noted c mark sep s)).all (fun k => (noted c mark sep s).rdc.windows.any (fun w => w.1 == k)) = true := by
    refine List.all_eq_true.mpr fun k hk => ?_
    rw [noted_any]
    rcases h k hk with rfl | h
    · simp
    · rw [h, Bool.true_or]
  exact (if_pos hall).trans (if_neg (by show ¬s.rdc.inSeparator = true; rw [hs]; decide))

/-- What a window in tracking finds. -/
def trackBest (c : Chan) (r : RChan) : Option (Nat × Int) :=
  (bestCand r.expected (r.marksNear c.val (bitsMsb 32 sm32) 3 r.expected 24)).map (fun x => (x.2, x.1))

/-- Whether the separator's tone stands where SM32 is expected. -/
def trackTone (c : Chan) (r : RChan) : Bool := decide (hamming (tone 32) (r.bitsFrom c.val r.expected 32) ≤ 3)

theorem trackWindow_tier {c : Chan} {s : State} (hs : s.rdc.inSeparator = false) : trackWindow c s
    = if s.rch[c].arrived (s.rch[c].expected + 55) then closeWindow c (trackBest c s.rch[c]) (trackTone c s.rch[c]) s else s := by
  unfold trackWindow
  dsimp only
  simp only [hs, Bool.false_eq_true, if_false]
  by_cases ha : s.rch[c].arrived (s.rch[c].expected + 55) = true
  · rw [ha]
    rfl
  · rw [Bool.eq_false_iff.mpr ha]
    rfl

section
variable {c : Chan} {s : State} (tone_ : Int)

theorem syncWindow_out (h : s.retired 1 c.val = true ∨ s.rdc.windows.any (fun w => w.1 == c.val) = true) : syncWindow c tone_ s = s :=
  if_pos (Bool.or_eq_true_iff.mpr h)

variable (hr : s.retired 1 c.val = false) (hw : s.rdc.windows.any (fun w => w.1 == c.val) = false)
include hr hw

theorem syncWindow_stopped (h : s.rch[c].sync = .stopped) : syncWindow c tone_ s
    = if s.glb.mode = .retrieve ∧ s.fmt.motion = .running then noteMissing c.val s else s := by
  unfold syncWindow
  rw [if_neg (by rw [hr, hw]; decide), h]
  simp only [Bool.and_eq_true, decide_eq_true_eq]

theorem syncWindow_tracks (h : s.rch[c].sync = .tracking ∨ s.rch[c].sync = .flywheeling) : syncWindow c tone_ s = trackWindow c s := by
  unfold syncWindow
  rw [if_neg (by rw [hr, hw]; decide)]
  rcases h with h | h <;> rw [h]

end

theorem markWindows : MarkWindows := by
  intro c tone_ s
  extract_lets r u
  refine ⟨fun h => congrArg Host.Outcome.next (syncWindow_out tone_ h), fun hr hw => ⟨fun h => congrArg Host.Outcome.next (syncWindow_stopped tone_ hr hw h),
    fun h hs => ?_⟩⟩
  have track := (syncWindow_tracks tone_ hr hw h).trans (trackWindow_tier hs)
  refine ⟨fun ha => ?_, fun ha hk => ?_, fun ha hk => ?_⟩
  · exact congrArg Host.Outcome.next (track.trans (if_neg (Bool.eq_false_iff.mp ha)))
  · exact congrArg Host.Outcome.next (track.trans ((if_pos ha).trans (closeWindow_waits hk)))
  · exact congrArg Host.Outcome.next (track.trans ((if_pos ha).trans (closeWindow_last hs hk)))

/-! ### Resync marks (R153, R155) -/

/-- The expected position of a resync mark, from the alignment with the slips repaired so far. -/
def resyncAt (j : Fin 4) (r : RChan) : Int := r.chosen - 48 + r.slipOff + resyncOffset j.val

/-- The mark found in the window of RM`j`. -/
def resyncBest (c : Chan) (j : Fin 4) (r : RChan) : Option (Int × Nat) :=
  bestCand (resyncAt j r) (r.marksNear c.val (bitsMsb 16 (resyncMark j.val)) 2 (resyncAt j r) 4)

/-- A channel after the window of RM`j`. -/
def resynced (c : Chan) (j : Fin 4) (r : RChan) : RChan :=
  match resyncBest c j r with
  | none => { r with marksOk := false }
  | some x => if x.1 = resyncAt j r then r else r.repair j.val (x.1 - resyncAt j r)

theorem resyncWindow_eq {c : Chan} {j : Fin 4} {s : State} (hf : s.rch[c].framing = true) (ha : s.rch[c].arrived (resyncAt j s.rch[c] + 19) = true) :
    resyncWindow c j s = if j.val = 3 then offer c (s.modRch c (resynced c j)) else s.modRch c (resynced c j) := by
  have hu {u v : State} (h : u = v) : (if j.val = 3 then offer c u else u) = if j.val = 3 then offer c v else v := by rw [h]
  have hcond : ¬(!s.rch[c].framing || !s.rch[c].arrived (resyncAt j s.rch[c] + 19)) = true := by rw [hf, ha]; decide
  unfold resyncAt at hcond
  unfold resyncWindow
  dsimp only
  rw [if_neg hcond]
  refine hu (modRch_congr ?_)
  unfold resynced resyncBest resyncAt
  generalize bestCand _ _ = b
  rfl

theorem resyncWindow_out {c : Chan} {j : Fin 4} {s : State} (h : s.rch[c].framing = false ∨ s.rch[c].arrived (resyncAt j s.rch[c] + 19) = false) :
    resyncWindow c j s = s := by
  unfold resyncAt at h
  unfold resyncWindow
  extract_lets r p u
  refine if_pos (Bool.or_eq_true_iff.mpr (h.imp (fun h => ?_) fun h => ?_))
  · rw [show r.framing = false from h]; rfl
  · rw [show r.arrived (p + 19) = false from h]; rfl

theorem repair_fields (r : RChan) (j : Nat) (d : Int) : (r.repair j d).slipOff = r.slipOff + d ∧ (r.repair j d).slipLog = r.slipLog ++ [(d, j)]
    ∧ (r.repair j d).marksOk = false ∧ (r.repair j d).slips = satInc 255 r.slips ∧ (r.repair j d).chosen = r.chosen ∧ (r.repair j d).jobs = r.jobs
    ∧ (r.repair j d).base = r.base ∧ (r.repair j d).found = r.found := ⟨rfl, rfl, rfl, rfl, rfl, rfl, rfl, rfl⟩

/-- What every window leaves, and what it makes of the alignment and of the marks. -/
theorem resynced_fields {c : Chan} {j : Fin 4} {r : RChan} {b : Option (Int × Nat)} {p : Int} (hb : resyncBest c j r = b) (hp : resyncAt j r = p) :
    (resynced c j r).slipOff = r.slipOff + (match (generalizing := false) b with | some y => y.1 - p | none => 0)
      ∧ (resynced c j r).marksOk = (r.marksOk && b.map (·.1) == some p)
      ∧ (resynced c j r).chosen = r.chosen ∧ (resynced c j r).jobs = r.jobs ∧ (resynced c j r).base = r.base ∧ (resynced c j r).found = r.found := by
  unfold resynced
  rw [hb, hp]
  cases b with
  | none => exact ⟨(Int.add_zero _).symm, by simp, rfl, rfl, rfl, rfl⟩
  | some x =>
    dsimp only
    by_cases h : x.1 = p
    · rw [if_pos h, Option.map_some, h]
      exact ⟨by rw [Int.sub_self, Int.add_zero], by rw [beq_self_eq_true, Bool.and_true], rfl, rfl, rfl, rfl⟩
    · rw [if_neg h]
      obtain ⟨hs, _, hm, _, hc, hj, hb, hf⟩ := repair_fields r j.val (x.1 - p)
      have hne : (some x.1 == some (p)) = false := beq_eq_false_iff_ne.mpr fun e => h (Option.some.inj e)
      exact ⟨hs, by rw [hm, Option.map_some, hne, Bool.and_false], hc, hj, hb, hf⟩

theorem attemptsOf_head (s : State) (base chosen : Int) : (attemptsOf s base chosen).head? = some chosen := by
  unfold attemptsOf
  split <;> rfl

/-- The CWO that is offered. -/
def offered (s : State) (r : RChan) : CwoJob :=
  { id := s.nextId, wrap := rchWrap s, expected := r.base, chosen := r.chosen, found := r.found, slipOff := r.slipOff, smDist := r.smDist
    marksOk := r.marksOk, slips := r.slipLog, erased := r.erased, cuts := r.cuts, attempts := attemptsOf s r.base r.chosen }

theorem offer_fields (c : Chan) (s : State) :
    (offer c s).nextId = s.nextId + 1 ∧ (offer c s).rch[c].framing = false ∧ (offer c s).rch[c].jobs = s.rch[c].jobs ++ [offered s s.rch[c]]
      ∧ (offer c s).rch[c].expected = (if s.rch[c].found then s.rch[c].chosen else s.rch[c].base) + s.rch[c].slipOff + 19280
      ∧ (∀ e : Chan, e ≠ c → (offer c s).rch[e] = s.rch[e]) ∧ (offer c s).rdc = s.rdc := by
  have h : ∀ f : RChan → RChan, (vmod s.rch c f)[c] = f s.rch[c] := fun f => vmod_same _ _ f
  unfold offer
  dsimp only [State.modRch]
  rw [h]
  refine ⟨rfl, rfl, rfl, ?_, fun e he => vmod_other _ _ _ _ (Ne.symm he), rfl⟩
  dsimp only
  split <;> rfl

theorem resyncWindows : ResyncWindows := by
  intro c j s
  extract_lets r p best
  have hp : resyncAt j s.rch[c] = p := rfl
  have hbest : resyncBest c j s.rch[c] = best := rfl
  clear_value best p
  refine ⟨fun h => congrArg Host.Outcome.next (resyncWindow_out (by rw [hp]; exact h)), fun hf ha => ?_⟩
  have heq := resyncWindow_eq (j := j) hf (by rw [hp]; exact ha)
  have hplain (hj : j ≠ 3) : resyncWindow c j s = s.modRch c (resynced c j) := heq.trans (if_neg fun h => hj (Fin.ext h))
  have hsame : (s.modRch c (resynced c j)).rch[c] = resynced c j s.rch[c] := rch_modRch_same s c _
  refine ⟨fun hj hb => ?_, fun k hj hb => ?_, fun d k hj hb hd => ?_, fun hj => ?_⟩
  · refine congrArg Host.Outcome.next ((hplain hj).trans (modRch_congr ?_))
    unfold resynced
    rw [hbest, hb]
  · refine congrArg Host.Outcome.next ((hplain hj).trans (modRch_self ?_))
    unfold resynced
    rw [hbest, hb, hp]
    exact if_pos rfl
  · refine ⟨_, congrArg Host.Outcome.next (hplain hj), ?_⟩
    dsimp only
    have hr : resynced c j s.rch[c] = s.rch[c].repair j.val d := by
      unfold resynced
      rw [hbest, hb]
      dsimp only
      have hback (p : Int) : p + d - p = d := by omega
      rw [hp, if_neg (by omega), hback]
    obtain ⟨hs, hl, hm, hn, hc, _⟩ := repair_fields s.rch[c] j.val d
    have hrch : ∀ e : Chan, e ≠ c → (s.modRch c (resynced c j)).rch[e] = s.rch[e] := fun e he => rch_modRch_other s _ he
    have hrdc : (s.modRch c (resynced c j)).rdc = s.rdc := rfl
    generalize s.modRch c (resynced c j) = u at *
    rw [hsame, hr]
    exact ⟨hs, hl, hm, hn, hc, hrch, hrdc⟩
  · refine ⟨_, congrArg Host.Outcome.next (heq.trans (if_pos (congrArg Fin.val hj))), ?_⟩
    dsimp only
    obtain ⟨hi, hfr, hjobs, hexp, hother, hrdc⟩ := offer_fields c (s.modRch c (resynced c j))
    obtain ⟨hs, hm, hc, hjb, hb, hfd⟩ := resynced_fields hbest hp
    have hrch : ∀ e : Chan, e ≠ c → (s.modRch c (resynced c j)).rch[e] = s.rch[e] := fun e he => rch_modRch_other s _ he
    have hid : (s.modRch c (resynced c j)).nextId = s.nextId := rfl
    have hrd : (s.modRch c (resynced c j)).rdc = s.rdc := rfl
    generalize resynced c j s.rch[c] = q at *
    generalize s.modRch c (resynced c j) = u at *
    rw [hsame] at hjobs hexp
    rw [hfr, hjobs, hexp, hi]
    refine ⟨by rw [hid], rfl, ⟨offered u q, by rw [hjb], hid, hc, ?_, hs, hm, ?_⟩, fun e he => (hother e he).trans (hrch e he), hrdc.trans hrd⟩
    · exact (attemptsOf_head _ _ _).trans (congrArg some hc)
    · rw [hc, hb, hfd]
      rfl

end Sys2Proof.Machine

/-- Settles O40: the samples leave what the phase is reckoned from; a window is judged on the channel as it stands when its bits are there. -/
theorem Sys2Proof.readTimingAndMarks : Obligations.ReadTimingAndMarks := ⟨timingTracks, markWindows, resyncWindows⟩
end

section

/-! PROOFS. The mover: descriptors, bursts and request lines (R241 to R253). -/

open Sys2Proof Sys2Proof.Machine Sys2Proof.Claims

namespace Sys2Proof.Machine

/-! ### The engines take up work (R248, R249) -/

/-- The machine with the engines and lines of the mover as given; the engines' counts and the lines' requests are those it had. -/
def ReassignedWork (s t : State) : Prop :=
  ∃ (es : Vector MovEng 4) (ls : Vector ReqLine 38), t = { s with mov.eng := es, mov.line := ls }
    ∧ (∀ e : Fin 4, es[e].bytes = s.mov.eng[e].bytes) ∧ ∀ l : Fin 38, ls[l].pending = s.mov.line[l].pending

theorem ReassignedWork.refl (s : State) : ReassignedWork s s := ⟨_, _, rfl, fun _ => rfl, fun _ => rfl⟩

theorem ReassignedWork.trans {s t u : State} (h : ReassignedWork s t) (k : ReassignedWork t u) : ReassignedWork s u := by
  obtain ⟨eng, line, rfl, hb, hp⟩ := h
  obtain ⟨eng', line', rfl, kb, kp⟩ := k
  exact ⟨eng', line', rfl, fun e => (kb e).trans (hb e), fun l => (kp l).trans (hp l)⟩

theorem reassigned_dropRetired (s : State) : ReassignedWork s (dropRetired s) := by
  refine ⟨_, _, rfl, fun e => ?_, fun _ => rfl⟩
  rw [Fin.getElem_fin, Vector.getElem_ofFn]
  dsimp only
  split <;> rfl

theorem reassigned_bindLines (s : State) : ReassignedWork s (bindLines s) := by
  refine ⟨_, _, rfl, fun _ => rfl, fun l => ?_⟩
  rw [Fin.getElem_fin, Vector.getElem_ofFn]

theorem engBytes_vmod (v : Vector MovEng 4) (i e : Fin 4) {f : MovEng → MovEng} (hf : ∀ x, (f x).bytes = x.bytes) : (vmod v i f)[e].bytes = v[e].bytes := by
  by_cases h : i = e
  · subst h; exact (congrArg MovEng.bytes (vmod_same v i f)).trans (hf _)
  · exact congrArg MovEng.bytes (vmod_other v i e f h)

/-- One engine takes the next piece of work. -/
def takeWork (s : State) : State :=
  match nextWork s with
  | none => s
  | some d =>
    match moverFor s (moverTries s d.tries) with
    | none => s
    | some e => { s with mov.eng := vmod s.mov.eng e (fun x => { x with use := some d.id, op := d.op, line := if d.flag 1 then d.line else 0x3F }) }

theorem reassigned_takeWork (s : State) : ReassignedWork s (takeWork s) := by
  unfold takeWork
  split
  · exact .refl s
  · split
    · exact .refl s
    · exact ⟨_, _, rfl, fun e => engBytes_vmod _ _ e fun _ => rfl, fun _ => rfl⟩

theorem reassigned_assignWork (s : State) : ReassignedWork s (assignWork s) :=
  ((reassigned_dropRetired s).trans (reassigned_bindLines _)).trans
    (List.foldlRecOn (motive := ReassignedWork _) _ _ (.refl _) fun u hu _ _ => hu.trans (reassigned_takeWork u))

theorem reassigned_freeMover (e : Fin 4) (s : State) : ReassignedWork s (freeMover e s) :=
  ⟨_, _, rfl, fun f => engBytes_vmod _ e f fun _ => rfl, fun _ => rfl⟩

/-! ### Ends of descriptors (R242, R247, R252) -/

/-- What the end of a descriptor with an error leaves in the mover. -/
theorem endDesc_error {d : MovDesc} {status : Nat} (h : (status = 0 || status = 2) = false) (engine entry offset : Nat) (s : State) :
    (endDesc d status engine entry offset s).mov.queue = s.mov.queue.filter (fun x => x.id != d.id)
      ∧ (endDesc d status engine entry offset s).mov.errStatus = status
      ∧ (endDesc d status engine entry offset s).mov.errReq = u8 d.bytes 2 % 64
      ∧ (endDesc d status engine entry offset s).mov.errEntry = entry % 65536 := by
  unfold endDesc
  simp only [h, Bool.false_eq_true, if_false]
  split <;> exact ⟨rfl, rfl, rfl, rfl⟩

theorem endDesc_queue (d : MovDesc) (status engine entry offset : Nat) (s : State) :
    (endDesc d status engine entry offset s).mov.queue = s.mov.queue.filter (fun x => x.id != d.id) := by
  unfold endDesc
  (repeat' split) <;> rfl

theorem endDesc_cpls {d : MovDesc} (h : d.service = false) (status engine entry offset : Nat) (s : State) :
    (endDesc d status engine entry offset s).mov.cpls = movCplBytes d status engine entry offset :: s.mov.cpls := by
  unfold endDesc
  rw [h]
  dsimp only
  rw [if_neg Bool.false_ne_true]
  split <;> rfl

theorem endDesc_bytes (d : MovDesc) (status engine entry offset : Nat) (s : State) (e : Fin 4) :
    (endDesc d status engine entry offset s).mov.eng[e].bytes = s.mov.eng[e].bytes := by
  have h : (s.mov.eng.map (fun (x : MovEng) => if x.use == some d.id then { x with use := none, line := 0x3F, op := 0 } else x))[e].bytes
      = s.mov.eng[e].bytes := by
    rw [Fin.getElem_fin, Vector.getElem_map]
    split <;> rfl
  unfold endDesc
  (repeat' split) <;> exact h

/-- The end of a descriptor changes the mover alone. -/
theorem endDesc_frame (d : MovDesc) (status engine entry offset : Nat) (s : State) : ∃ m, endDesc d status engine entry offset s = { s with mov := m } :=
  ⟨_, rfl⟩

theorem not_mem_endDesc (d : MovDesc) (status engine entry offset : Nat) (s : State) :
    ∀ x ∈ (endDesc d status engine entry offset s).mov.queue, x.id ≠ d.id := by
  rw [endDesc_queue]
  exact fun x hx => bne_iff_ne.mp (List.mem_filter.mp hx).2

theorem filter_fresh {l : List MovDesc} {n : Nat} (h : ∀ x ∈ l, x.id < n) : l.filter (fun x => x.id != n) = l :=
  List.filter_eq_self.mpr fun x hx => bne_iff_ne.mpr (Nat.ne_of_lt (h x hx))

theorem filter_fresh_append {l : List MovDesc} {d : MovDesc} (h : ∀ x ∈ l, x.id < d.id) : (l ++ [d]).filter (fun x => x.id != d.id) = l := by
  rw [List.filter_append, filter_fresh h]
  simp

theorem find_fresh_append {l : List MovDesc} {d : MovDesc} (h : ∀ x ∈ l, x.id < d.id) : (l ++ [d]).find? (fun x => x.id == d.id) = some d := by
  have hn : l.find? (fun x => x.id == d.id) = none := List.find?_eq_none.mpr fun x hx => by
    rw [beq_iff_eq]
    exact Nat.ne_of_lt (h x hx)
  rw [List.find?_append, hn]
  simp

theorem modFirst_fresh_append {l : List MovDesc} {d : MovDesc} {f : MovDesc → MovDesc} (h : ∀ x ∈ l, x.id < d.id) :
    modFirst (fun x => x.id == d.id) f (l ++ [d]) = l ++ [f d] :=
  modFirst_split (fun x hx => beq_eq_false_iff_ne.mpr (Nat.ne_of_lt (h x hx))) (beq_self_eq_true d.id)

/-! ### Descriptors come (R242, R246) -/

/-- A descriptor as it comes. -/
def comes (desc : Bytes) (s : State) : MovDesc := { id := s.nextId, bytes := padTo 64 desc }

/-- A serial number has been given out. -/
def numbered (s : State) : State := { s with nextId := s.nextId + 1 }

/-- The machine with a descriptor at the end of its queue. -/
def queued (d : MovDesc) (s : State) : State := { numbered s with mov.queue := s.mov.queue ++ [d] }

section
variable {desc : Bytes} {s : State}

theorem postDesc_bad (n : Nat) (h : badDesc (comes desc s) = true) : postDesc desc false n s = endBad (comes desc s) movBadDesc 0 noMovEntry (numbered s) :=
  if_pos h

theorem postDesc_misaligned (n : Nat) (h : badDesc (comes desc s) = false) (hm : misaligned (comes desc s) = true) :
    postDesc desc false n s = endBad (comes desc s) movAlign 0 noMovEntry (numbered s) :=
  (if_neg (Bool.eq_false_iff.mp h)).trans (if_pos hm)

theorem postDesc_row (n : Nat) (h : badDesc (comes desc s) = false) (hm : misaligned (comes desc s) = false) (hl : (comes desc s).listed = false) :
    postDesc desc false n s = runBursts (comes desc s).id n (assignWork (endIfDone (comes desc s).id 0 (queued (comes desc s) s))) :=
  ((if_neg (Bool.eq_false_iff.mp h)).trans (if_neg (Bool.eq_false_iff.mp hm))).trans
    (congrArg (fun u => runBursts (comes desc s).id n (assignWork u)) (if_neg (Bool.eq_false_iff.mp hl)))

theorem postDesc_listed (n : Nat) (h : badDesc (comes desc s) = false) (hm : misaligned (comes desc s) = false) (hl : (comes desc s).listed = true) :
    postDesc desc false n s = runBursts (comes desc s).id n (assignWork (settleEntries (comes desc s).id 0 entryFuel
      (loadMovSegment (comes desc s) 256 (comes desc s).list.2 0 (queued (comes desc s) s)))) :=
  ((if_neg (Bool.eq_false_iff.mp h)).trans (if_neg (Bool.eq_false_iff.mp hm))).trans
    (congrArg (fun u => runBursts (comes desc s).id n (assignWork u)) (if_pos hl))

end

/-- The event of a bad descriptor is that of the machine as it stood. -/
theorem raiseEv_evt_numbered (e : Ev) (a b c : Nat) (x : Bytes) (s : State) (m : Mov) (k : Nat) :
    (raiseEv e a b c x { s with mov := m, nextId := k }).evt = (raiseEv e a b c x s).evt := by
  unfold raiseEv
  dsimp only
  split <;> rfl

/-- What a refused descriptor leaves. -/
theorem endBad_fields (d : MovDesc) {status : Nat} (h : (status = 0 || status = 2) = false) (entry : Nat) (s : State) :
    (endBad d status 0 entry s).mov.queue = s.mov.queue.filter (fun x => x.id != d.id) ∧ (endBad d status 0 entry s).mov.errStatus = status
      ∧ (endBad d status 0 entry s).mov.errReq = u8 d.bytes 2 % 64 ∧ (endBad d status 0 entry s).mov.errEntry = entry % 65536
      ∧ (endBad d status 0 entry s).nextId = s.nextId ∧ (endBad d status 0 entry s).hostMem = s.hostMem ∧ (endBad d status 0 entry s).buf = s.buf
      ∧ (endBad d status 0 entry s).evt = (raiseEv .movDesc 0x6 noRes d.inst (slice d.bytes 0 12) s).evt := by
  have k := Frames.raiseEv_same (x0 := .movDesc) (x1 := 0x6) (x2 := noRes) (x3 := d.inst) (x4 := slice d.bytes 0 12) Frames.sub_refl
    (Frames.same_refl (r := endDesc d status 0 entry d.moved s))
  obtain ⟨hq, hs, hr, he⟩ := endDesc_error h 0 entry d.moved s
  unfold endBad
  refine ⟨?_, ?_, ?_, ?_, k.nextId rfl, k.hostMem rfl, k.buf rfl, raiseEv_evt_numbered _ _ _ _ _ s _ s.nextId⟩
  · rw [k.mov rfl, hq]
  · rw [k.mov rfl, hs]
  · rw [k.mov rfl, hr]
  · rw [k.mov rfl, he]

theorem u8_padTo (n : Nat) (b : Bytes) (i : Nat) (h : i < n) : u8 (padTo n b) i = u8 b i := by
  unfold u8 padTo
  congr 1
  rw [List.getD_eq_getElem?_getD, List.getD_eq_getElem?_getD, List.getElem?_append, List.length_take, List.getElem?_take, if_pos h]
  split
  · rfl
  next hi =>
    rw [List.getElem?_eq_none (by omega : b.length ≤ i), List.getElem?_replicate]
    split <;> rfl

/-- The operation of a descriptor is that of its bytes as posted. -/
theorem comes_op (desc : Bytes) (s : State) : (comes desc s).op = u8 desc 0 := u8_padTo 64 desc 0 (by decide)

theorem op_of_good {d : MovDesc} (h : badDesc d = false) : 1 ≤ d.op ∧ d.op ≤ 5 := by
  unfold badDesc at h
  simp only [Bool.or_eq_false_iff, Bool.not_eq_false', Bool.and_eq_true, decide_eq_true_eq] at h
  exact h.1.1.1.1.2

theorem not_listed {d : MovDesc} (h : d.op ≠ opGather) (k : d.op ≠ opScatter) : d.listed = false := by
  unfold MovDesc.listed
  rw [beq_eq_false_iff_ne.mpr h, beq_eq_false_iff_ne.mpr k]
  rfl

theorem is_listed {d : MovDesc} (h : d.op = opGather ∨ d.op = opScatter) : d.listed = true := by
  unfold MovDesc.listed
  rcases h with h | h <;> rw [h] <;> rfl

/-- A queued descriptor of length 0 ends at once; another waits. -/
theorem endIfDone_queued {desc : Bytes} {s : State} (hl : (comes desc s).listed = false) (hf : ∀ x ∈ s.mov.queue, x.id < s.nextId) :
    endIfDone (comes desc s).id 0 (queued (comes desc s) s)
      = if (comes desc s).length = 0 then endDesc (comes desc s) movOk 0 noMovEntry 0 (queued (comes desc s) s) else queued (comes desc s) s := by
  unfold endIfDone
  rw [show (queued (comes desc s) s).mov.queue.find? (fun d => d.id == (comes desc s).id) = some (comes desc s) from find_fresh_append hf]
  dsimp only
  rw [hl]
  refine ite_congr (propext ?_) (fun _ => rfl) fun _ => rfl
  rw [Bool.not_false, Bool.true_and, decide_eq_true_eq]
  exact Nat.le_zero

/-! ### The rows (R241, R242, R246) -/

/-- What a descriptor that breaks R242 or R246 leaves. -/
def Refused (desc : Bytes) (s : State) (status : Nat) (t : State) : Prop :=
  t.mov.queue = s.mov.queue.filter (fun x => x.id != (comes desc s).id) ∧ t.mov.errStatus = status ∧ t.mov.errReq = u8 (comes desc s).bytes 2 % 64
    ∧ t.nextId = s.nextId + 1 ∧ t.hostMem = s.hostMem ∧ t.buf = s.buf
    ∧ t.evt = (raiseEv .movDesc 0x6 noRes (comes desc s).inst (slice (comes desc s).bytes 0 12) s).evt

theorem refused_endBad {desc : Bytes} {s : State} {status : Nat} (h : (status = 0 || status = 2) = false) (entry : Nat) :
    Refused desc s status (endBad (comes desc s) status 0 entry (numbered s)) := by
  obtain ⟨hq, hs, hr, _, hn, hm, hb, he⟩ := endBad_fields (comes desc s) h entry (numbered s)
  exact ⟨hq, hs, hr, hn, hm, hb, he.trans (raiseEv_evt_numbered _ _ _ _ _ s s.mov _)⟩

theorem postDesc_stops (desc : Bytes) (n : Nat) (s : State) :
    (badDesc (comes desc s) = true → Refused desc s movBadDesc (postDesc desc false n s))
      ∧ (badDesc (comes desc s) = false → misaligned (comes desc s) = true → Refused desc s movAlign (postDesc desc false n s)) := by
  refine ⟨fun h => ?_, fun h hm => ?_⟩
  · rw [postDesc_bad n h]
    exact refused_endBad rfl noMovEntry
  · rw [postDesc_misaligned n h hm]
    exact refused_endBad rfl noMovEntry

/-- What a good descriptor without a list leaves before its bursts: it waits, or, with nothing to move, has ended OK. -/
theorem postDesc_row_gives {desc : Bytes} {s : State} (hnl : badDesc (comes desc s) = false → (comes desc s).listed = false) (n : Nat)
    (h : badDesc (comes desc s) = false) (hm : misaligned (comes desc s) = false) (hf : ∀ x ∈ s.mov.queue, x.id < s.nextId) :
    ∃ u, postDesc desc false n s = runBursts (comes desc s).id n u ∧ u.nextId = s.nextId + 1 ∧ u.hostMem = s.hostMem ∧ u.buf = s.buf ∧ u.evt = s.evt
      ∧ (0 < (comes desc s).length → u.mov.queue = s.mov.queue ++ [comes desc s] ∧ u.mov.cpls = s.mov.cpls)
      ∧ ((comes desc s).length = 0 → u.mov.queue = s.mov.queue ∧ u.mov.cpls = movCplBytes (comes desc s) movOk 0 noMovEntry 0 :: s.mov.cpls) := by
  refine ⟨_, postDesc_row n h hm (hnl h), ?_⟩
  rw [endIfDone_queued (hnl h) hf]
  by_cases hz : (comes desc s).length = 0
  · rw [if_pos hz]
    obtain ⟨eng, line, hw, _⟩ := reassigned_assignWork (endDesc (comes desc s) movOk 0 noMovEntry 0 (queued (comes desc s) s))
    rw [hw]
    refine ⟨rfl, rfl, rfl, rfl, fun hp => absurd hz (Nat.ne_of_gt hp), fun _ => ⟨?_, ?_⟩⟩
    · exact (endDesc_queue _ _ _ _ _ _).trans (filter_fresh_append hf)
    · exact endDesc_cpls rfl _ _ _ _ _
  · rw [if_neg hz]
    obtain ⟨eng, line, hw, _⟩ := reassigned_assignWork (queued (comes desc s) s)
    rw [hw]
    exact ⟨rfl, rfl, rfl, rfl, fun _ => ⟨rfl, rfl⟩, fun h => absurd h hz⟩

/-- Reading a list's entries rests on host memory alone. -/
theorem readEntries_congr {s t : State} (h : t.hostMem = s.hostMem) (sp n addr : Nat) : readEntries t sp n addr = readEntries s sp n addr := by
  induction n generalizing addr with
  | zero => rfl
  | succ n ih =>
    have hr : hostRead t sp addr 16 = hostRead s sp addr 16 := by unfold hostRead; rw [h]
    unfold readEntries
    rw [hr, ih]

theorem settleEntries_settled {id : Nat} {e : Fin 4} {s : State} (h : nextEntry id e s = s) (n : Nat) : settleEntries id e n s = s := by
  induction n with
  | zero => rfl
  | succ n ih =>
    unfold settleEntries
    rw [h, ih]

theorem movSegment_host {d : MovDesc} (hl : d.list.1 = spHostList) (n addr : Nat) (s : State) :
    movSegment d d.list.1 n addr s = (some (segmentOf (readEntries s d.hostSpace n addr)), s) := by
  unfold movSegment
  rw [hl, if_neg (by decide)]

section
variable {d : MovDesc} {s : State} {n addr : Nat} {es : List SgEntry} (hl : d.list.1 = spHostList) (hes : segmentOf (readEntries s d.hostSpace n addr) = es)
include hl hes

theorem loadMovSegment_bad {i : Nat} (h : firstBad es 0 = some i) (engine : Nat) :
    loadMovSegment d n addr engine s = endBad d movAlign engine (d.job.index + i) s := by
  unfold loadMovSegment
  dsimp only
  rw [movSegment_host hl, hes]
  dsimp only
  rw [h]

theorem loadMovSegment_good (h : firstBad es 0 = none) (engine : Nat) :
    loadMovSegment d n addr engine s = modDesc d.id (fun d => { d with job := { d.job with entries := es }, inEntry := 0 }) s := by
  unfold loadMovSegment
  dsimp only
  rw [movSegment_host hl, hes]
  dsimp only
  rw [h]

end

theorem find_modFirst {α : Type} {p : α → Bool} {f : α → α} (hf : ∀ a, p (f a) = p a) (l : List α) : (modFirst p f l).find? p = (l.find? p).map f := by
  induction l with
  | nil => rfl
  | cons a l ih =>
    unfold modFirst
    by_cases h : p a = true
    · rw [if_pos h, List.find?_cons_of_pos (by rw [hf, h]), List.find?_cons_of_pos h, Option.map_some]
    · rw [if_neg h, List.find?_cons_of_neg h, List.find?_cons_of_neg h, ih]

/-- The descriptor of a number has its list in host memory, and host memory, the buffer and the serial numbers are those of `r`. -/
def HostListed (id : Nat) (r s : State) : Prop :=
  s.nextId = r.nextId ∧ s.hostMem = r.hostMem ∧ s.buf = r.buf ∧ ∀ x, s.mov.queue.find? (fun d => d.id == id) = some x → x.list.1 = spHostList

theorem hostListed_modDesc {id : Nat} {r s : State} {f : MovDesc → MovDesc} (h : HostListed id r s) (hi : ∀ d, (f d).id = d.id) (hb : ∀ d, (f d).bytes = d.bytes) :
    HostListed id r (modDesc id f s) := by
  obtain ⟨hn, hm, hbuf, hl⟩ := h
  refine ⟨hn, hm, hbuf, fun x hx => ?_⟩
  have hfind := find_modFirst (p := fun d : MovDesc => d.id == id) (f := f) (fun d => by rw [hi]) s.mov.queue
  obtain ⟨d, hd, rfl⟩ := Option.map_eq_some_iff.mp (hfind.symm.trans hx)
  have hd := hl d hd
  unfold MovDesc.list MovDesc.op MovDesc.srcSpace MovDesc.dstSpace MovDesc.src MovDesc.dst at hd ⊢
  rw [hb]
  exact hd

theorem find_endDesc (d : MovDesc) (status engine entry offset : Nat) (s : State) :
    (endDesc d status engine entry offset s).mov.queue.find? (fun x => x.id == d.id) = none :=
  List.find?_eq_none.mpr fun x hx => by
    rw [beq_iff_eq]
    exact not_mem_endDesc d status engine entry offset s x hx

theorem hostListed_endDesc {d : MovDesc} {r s : State} (h : HostListed d.id r s) (status engine entry offset : Nat) :
    HostListed d.id r (endDesc d status engine entry offset s) := by
  obtain ⟨hn, hm, hb, _⟩ := h
  exact ⟨hn, hm, hb, fun x hx => by rw [find_endDesc] at hx; cases hx⟩

theorem hostListed_loadMovSegment {d : MovDesc} {r s : State} (h : HostListed d.id r s) (hl : d.list.1 = spHostList) (n addr engine : Nat) :
    HostListed d.id r (loadMovSegment d n addr engine s) := by
  cases hb : firstBad (segmentOf (readEntries s d.hostSpace n addr)) 0 with
  | none =>
    rw [loadMovSegment_good hl rfl hb]
    exact hostListed_modDesc h (fun _ => rfl) fun _ => rfl
  | some i =>
    rw [loadMovSegment_bad hl rfl hb]
    obtain ⟨hn, hm, hbuf, hq⟩ := hostListed_endDesc h movAlign engine (d.job.index + i) d.moved
    have k := Frames.raiseEv_same (x0 := .movDesc) (x1 := 0x6) (x2 := noRes) (x3 := d.inst) (x4 := slice d.bytes 0 12) Frames.sub_refl
      (Frames.same_refl (r := endDesc d movAlign engine (d.job.index + i) d.moved s))
    refine ⟨(k.nextId rfl).trans hn, (k.hostMem rfl).trans hm, (k.buf rfl).trans hbuf, fun x hx => hq x ?_⟩
    rw [← k.mov rfl]
    exact hx

theorem hostListed_nextEntry {id : Nat} {e : Fin 4} {r s : State} (h : HostListed id r s) : HostListed id r (nextEntry id e s) := by
  have hid {u : State} {d : MovDesc} (hd : u.mov.queue.find? (fun d => d.id == id) = some d) : d.id = id :=
    eq_of_beq (List.find?_some (p := fun d : MovDesc => d.id == id) hd)
  unfold nextEntry
  split
  · exact h
  next d hd =>
    obtain rfl := hid hd
    split
    · exact hostListed_endDesc h _ _ _ _
    next en rest _ =>
      split
      · have hu : HostListed d.id r (modDesc d.id (fun d => { d with job := { d.job with index := d.job.index + 1, entries := [] } }) s) :=
          hostListed_modDesc h (fun _ => rfl) fun _ => rfl
        dsimp only
        split
        next x hx =>
          have hx' := hid hx
          have hl := hu.2.2.2 x hx
          rw [← hx'] at hu ⊢
          exact hostListed_loadMovSegment hu hl _ _ _
        · exact hu
      · split
        · split
          · exact hostListed_endDesc h _ _ _ _
          · exact hostListed_modDesc h (fun _ => rfl) fun _ => rfl
        · exact h

theorem hostListed_settleEntries {id : Nat} {e : Fin 4} {r : State} (n : Nat) : ∀ s, HostListed id r s → HostListed id r (settleEntries id e n s) := by
  induction n with
  | zero => exact fun s h => h
  | succ n ih => exact fun s h => ih _ (hostListed_nextEntry h)

theorem nextEntry_gone {id : Nat} {e : Fin 4} {s : State} (h : s.mov.queue.find? (fun d => d.id == id) = none) : nextEntry id e s = s := by
  unfold nextEntry
  rw [h]

/-- An entry that has bytes to move stays in hand. -/
theorem nextEntry_moves {id : Nat} {e : Fin 4} {s : State} {d : MovDesc} {en : SgEntry} {rest : List SgEntry}
    (hd : s.mov.queue.find? (fun d => d.id == id) = some d) (he : d.job.entries = en :: rest) (hl : en.link = false) (hm : d.inEntry < en.len) :
    nextEntry id e s = s := by
  unfold nextEntry
  rw [hd]
  dsimp only
  rw [he]
  dsimp only
  rw [hl, if_neg Bool.false_ne_true, if_neg (Nat.not_le.mpr hm)]

/-- A list's descriptor of which an entry moves bytes waits for its bursts; one with a bad entry has ended. -/
theorem postDesc_listed_gives {desc : Bytes} {s : State} (ho : (comes desc s).op = opGather ∨ (comes desc s).op = opScatter) (n : Nat)
    (h : badDesc (comes desc s) = false) (hm : misaligned (comes desc s) = false) (hl : (comes desc s).list.1 = spHostList)
    (hf : ∀ x ∈ s.mov.queue, x.id < s.nextId) {es : List SgEntry} (hes : segmentOf (readEntries s (comes desc s).hostSpace 256 (comes desc s).list.2) = es) :
    ∃ u, postDesc desc false n s = runBursts (comes desc s).id n u ∧ u.nextId = s.nextId + 1 ∧ u.hostMem = s.hostMem ∧ u.buf = s.buf
      ∧ (∀ e rest, es = e :: rest → firstBad es 0 = none → e.link = false → 0 < e.len →
          u.mov.queue = s.mov.queue ++ [{ comes desc s with job := { (comes desc s).job with entries := es } }] ∧ u.evt = s.evt)
      ∧ (∀ i, firstBad es 0 = some i → u.mov.queue = s.mov.queue ∧ u.mov.errStatus = movAlign ∧ u.mov.errEntry = i % 65536
          ∧ u.evt = (raiseEv .movDesc 0x6 noRes (comes desc s).inst (slice (comes desc s).bytes 0 12) s).evt) := by
  refine ⟨_, postDesc_listed n h hm (is_listed ho), ?_⟩
  have hes' : segmentOf (readEntries (queued (comes desc s) s) (comes desc s).hostSpace 256 (comes desc s).list.2) = es := by
    rw [readEntries_congr (t := queued (comes desc s) s) (s := s) rfl]
    exact hes
  have hfind : (queued (comes desc s) s).mov.queue.find? (fun d => d.id == (comes desc s).id) = some (comes desc s) := find_fresh_append hf
  have hin : HostListed (comes desc s).id (numbered s) (queued (comes desc s) s) :=
    ⟨rfl, rfl, rfl, fun x hx => by rw [← Option.some.inj (hfind.symm.trans hx)]; exact hl⟩
  obtain ⟨hn, hh, hb, _⟩ := hostListed_settleEntries (e := 0) entryFuel _ (hostListed_loadMovSegment (n := 256) (addr := (comes desc s).list.2) (engine := 0) hin hl)
  have good (e : SgEntry) (rest : List SgEntry) (he : es = e :: rest) (hok : firstBad es 0 = none) (hlk : e.link = false) (hlen : 0 < e.len) :
      settleEntries (comes desc s).id 0 entryFuel (loadMovSegment (comes desc s) 256 (comes desc s).list.2 0 (queued (comes desc s) s))
        = { queued (comes desc s) s with mov.queue := s.mov.queue ++ [{ comes desc s with job := { (comes desc s).job with entries := es } }] } := by
    have hload := loadMovSegment_good hl hes' hok 0
    have hq : (modDesc (comes desc s).id (fun d => { d with job := { d.job with entries := es }, inEntry := 0 }) (queued (comes desc s) s)).mov.queue
        = s.mov.queue ++ [{ comes desc s with job := { (comes desc s).job with entries := es } }] := modFirst_fresh_append hf
    rw [hload]
    refine (settleEntries_settled (nextEntry_moves ((congrArg _ hq).trans (find_fresh_append (d := { comes desc s with job := _ }) hf)) he hlk hlen) _).trans ?_
    exact congrArg (fun q => { queued (comes desc s) s with mov.queue := q }) hq
  have bad (i : Nat) (hbad : firstBad es 0 = some i) :
      settleEntries (comes desc s).id 0 entryFuel (loadMovSegment (comes desc s) 256 (comes desc s).list.2 0 (queued (comes desc s) s))
        = endBad (comes desc s) movAlign 0 ((comes desc s).job.index + i) (queued (comes desc s) s) := by
    rw [loadMovSegment_bad hl hes' hbad]
    refine settleEntries_settled (nextEntry_gone ?_) _
    rw [(endBad_fields (comes desc s) (status := movAlign) rfl _ _).1]
    exact List.find?_eq_none.mpr fun x hx => by
      rw [beq_iff_eq]
      exact bne_iff_ne.mp (List.mem_filter.mp hx).2
  generalize settleEntries (comes desc s).id 0 entryFuel _ = v at *
  obtain ⟨eng, line, hw, _⟩ := reassigned_assignWork v
  rw [hw]
  refine ⟨hn, hh, hb, fun e rest he hok hlk hlen => ?_, fun i hbad => ?_⟩
  · rw [good e rest he hok hlk hlen]
    exact ⟨rfl, rfl⟩
  · rw [bad i hbad]
    obtain ⟨hq, hs, _, he, _, _, _, hev⟩ := endBad_fields (comes desc s) (status := movAlign) rfl ((comes desc s).job.index + i) (queued (comes desc s) s)
    exact ⟨hq.trans (filter_fresh_append hf), hs, he.trans (congrArg (· % 65536) (Nat.zero_add i)), hev.trans (raiseEv_evt_numbered _ _ _ _ _ s _ _)⟩

theorem execOp_posts {op : Nat} {desc : Bytes} {s : State} (hr : moverRuns s = true)
    (ho : u8 desc 0 = op ∨ (op = opCopy ∧ (u8 desc 0 ≤ 1 ∨ 5 < u8 desc 0))) (n : Nat) : execOp op desc n s = postDesc desc false n s := by
  refine if_pos ?_
  rw [hr, Bool.true_and]
  rcases ho with h | ⟨rfl, h⟩
  · rw [h, beq_self_eq_true, Bool.true_or]
  · by_cases h1 : u8 desc 0 = 1
    · rw [h1]; rfl
    · simp only [Bool.or_eq_true, Bool.and_eq_true, Bool.not_eq_true', Bool.and_eq_false_iff, decide_eq_false_iff_not, beq_self_eq_true, true_and]
      exact .inr (by omega)

theorem descriptorsAreTaken : DescriptorsAreTaken := by
  intro desc n s hr
  extract_lets d refused stopped row _ listed
  have stops : stopped (postDesc desc false n s) := postDesc_stops desc n s
  have rows (hnl : badDesc (comes desc s) = false → (comes desc s).listed = false) : row (postDesc desc false n s) :=
    ⟨stops, fun h hm hf => postDesc_row_gives hnl n h hm hf⟩
  have lists (ho : (comes desc s).op = opGather ∨ (comes desc s).op = opScatter) : listed (postDesc desc false n s) :=
    ⟨stops, fun h hm hl hf es hes => postDesc_listed_gives ho n h hm hl hf hes⟩
  have hop := comes_op desc s
  refine ⟨fun h => ⟨_, congrArg Host.Outcome.next (execOp_posts hr (.inr ⟨rfl, h⟩) n), rows fun hb => ?_⟩,
    fun h => ⟨_, congrArg Host.Outcome.next (execOp_posts hr (.inl h) n), rows fun _ => ?_⟩,
    fun h => ⟨_, congrArg Host.Outcome.next (execOp_posts hr (.inl h) n), rows fun _ => ?_⟩,
    fun h => ⟨_, congrArg Host.Outcome.next (execOp_posts hr (.inl h) n), lists (.inl (hop.trans h))⟩,
    fun h => ⟨_, congrArg Host.Outcome.next (execOp_posts hr (.inl h) n), lists (.inr (hop.trans h))⟩⟩
  · obtain ⟨h1, h5⟩ := op_of_good hb
    have he : (comes desc s).op = 1 := by omega
    exact not_listed (by rw [he]; decide) (by rw [he]; decide)
  · exact not_listed (by rw [hop, h]; decide) (by rw [hop, h]; decide)
  · exact not_listed (by rw [hop, h]; decide) (by rw [hop, h]; decide)

end Sys2Proof.Machine
end

section

/-! PROOFS. The mover's bursts, and faults of host memory (R243, R248 to R253, R258, R285). -/

open Sys2Proof Sys2Proof.Machine Sys2Proof.Claims

namespace Sys2Proof.Machine

/-! ### What an access to buffer memory leaves of the mover's queue (R254) -/

/-- The mover's queue stays, or all of it has ended. -/
def QueueStaysOrEnds (s t : State) : Prop := t.mov.queue = s.mov.queue ∨ t.mov.queue = []

theorem QueueStaysOrEnds.refl (s : State) : QueueStaysOrEnds s s := .inl rfl

theorem QueueStaysOrEnds.trans {s t u : State} (h : QueueStaysOrEnds s t) (k : QueueStaysOrEnds t u) : QueueStaysOrEnds s u := by
  rcases k with k | k
  · exact h.imp k.trans k.trans
  · exact .inr k

/-- An operation whose frame does not have the mover. -/
theorem QueueStaysOrEnds.of_same {w : BitVec 30} {s t : State} (h : Frames.Same w s t) (hw : w.getLsbD 19 = false) : QueueStaysOrEnds s t :=
  .inl (congrArg Mov.queue (h.mov hw))

theorem QueueStaysOrEnds.of_if {p : Prop} [Decidable p] {s a b : State} (ha : QueueStaysOrEnds s a) (hb : QueueStaysOrEnds s b) :
    QueueStaysOrEnds s (if p then a else b) := by
  split
  · exact ha
  · exact hb

theorem queueStaysOrEnds_foldl {α : Type} {f : State → α → State} (hf : ∀ s a, QueueStaysOrEnds s (f s a)) (l : List α) (s : State) :
    QueueStaysOrEnds s (l.foldl f s) :=
  List.foldlRecOn (motive := QueueStaysOrEnds s) l f (.refl s) fun x hx a _ => hx.trans (hf x a)

theorem mem_foldl_endDesc (l : List MovDesc) (s : State) {x : MovDesc}
    (hx : x ∈ (l.foldl (fun s d => endDesc d 6 d.engine noMovEntry d.moved s) s).mov.queue) : x ∈ s.mov.queue ∧ ∀ d ∈ l, x.id ≠ d.id := by
  induction l generalizing s with
  | nil => exact ⟨hx, fun d hd => absurd hd List.not_mem_nil⟩
  | cons d l ih =>
    obtain ⟨hm, hl⟩ := ih _ hx
    rw [endDesc_queue] at hm
    obtain ⟨hm, hd⟩ := List.mem_filter.mp hm
    exact ⟨hm, List.forall_mem_cons.mpr ⟨bne_iff_ne.mp hd, hl⟩⟩

theorem abortMover_queue (s : State) : (abortMover s).mov.queue = [] :=
  List.eq_nil_iff_forall_not_mem.mpr fun x hx => by
    obtain ⟨hm, hl⟩ := mem_foldl_endDesc s.mov.queue s hx
    exact hl x hm rfl

/-- What PEWTER leaves of the datapath, once the mover has aborted. -/
def pewterOff (s : State) : State :=
  let s := unassignAll (abortAll .abortedPewter (abortMover s))
  powerFor .pewter (abandonData { s with pans.active := false, buf := s.buf.portsOff, chn.port := s.chn.port.map RingPort.off })

theorem pewterOff_queue (s : State) : (pewterOff s).mov.queue = [] := by
  have h : Frames.Same 0xa763dc4 (abortMover s) (pewterOff s) := Frames.powerFor_same rfl (Frames.abandonData_same rfl (Frames.set_2060000 rfl
    (Frames.unassignAll_same rfl (Frames.abortAll_same rfl Frames.same_refl))))
  rw [h.mov rfl]
  exact abortMover_queue s

theorem queue_enterPewter (cause kind number : Nat) (s : State) : QueueStaysOrEnds s (enterPewter cause kind number s) := by
  unfold enterPewter
  split
  · exact .refl s
  · exact .inr (pewterOff_queue _)

theorem queue_judgePewter (kind number : Nat) (s : State) : QueueStaysOrEnds s (judgePewter kind number s) := by
  unfold judgePewter
  split
  · exact queue_enterPewter _ _ _ s
  · exact .refl s

theorem queue_loseDevice (d : Fin 8) (cause : Nat) (s : State) : QueueStaysOrEnds s (loseDevice d cause s) := by
  unfold loseDevice
  split
  · exact .refl s
  · extract_lets _ a b c lost
    have ha : QueueStaysOrEnds s a := .inl rfl
    have hb : QueueStaysOrEnds a b := .of_same (w := 0x30) (Frames.storeMap_same rfl (Frames.setRetired_same rfl Frames.same_refl)) rfl
    have hc : QueueStaysOrEnds b c := .of_same (Frames.raiseEv_same Frames.sub_refl Frames.same_refl) rfl
    have h := (ha.trans hb).trans hc
    split
    · have hj := queue_judgePewter 5 d.val { c with buf.state := 5 }
      exact h.trans (show QueueStaysOrEnds c _ from hj)
    · split
      · exact h.trans (.inl rfl)
      · exact h

theorem queue_retire (k n cause : Nat) (s : State) : QueueStaysOrEnds s (retire k n cause s) := by
  unfold retire
  split
  · exact .refl s
  · extract_lets a b _ c d e f
    have ha : QueueStaysOrEnds s a := .of_same (w := 0x601810) (Frames.requeueHeld_same rfl (Frames.setRetired_same rfl Frames.same_refl)) rfl
    have hb : QueueStaysOrEnds a b := .of_same (Frames.same_if (Frames.raiseEv_same Frames.sub_refl Frames.same_refl)
      (Frames.raiseEv_same Frames.sub_refl Frames.same_refl)) rfl
    have hc : QueueStaysOrEnds b c := .of_same (w := 0x24) (Frames.storeMap_same rfl (Frames.set_4 rfl Frames.same_refl)) rfl
    have hd : QueueStaysOrEnds c d := .of_same (Frames.same_if (Frames.publishCeilings_same Frames.sub_refl Frames.same_refl) Frames.same_refl) rfl
    have he : QueueStaysOrEnds d e := .of_if (queue_loseDevice _ _ _) (.refl d)
    have hf : QueueStaysOrEnds e f := .of_same (Frames.same_if (Frames.retrainPort_same Frames.sub_refl Frames.same_refl) Frames.same_refl) rfl
    exact (((((ha.trans hb).trans hc).trans hd).trans he).trans hf).trans (queue_judgePewter _ _ _)

theorem queue_strike (k n : Nat) (s : State) : QueueStaysOrEnds s (strike k n s) := by
  unfold strike
  split
  · exact .refl s
  · extract_lets i cfg b level leakAt _ t
    have ht : QueueStaysOrEnds s t := .inl rfl
    exact .of_if (ht.trans (queue_retire _ _ _ _)) ht

theorem queue_strikeLines (r : StripeRead) (s : State) : QueueStaysOrEnds s (strikeLines r s) := by
  unfold strikeLines
  extract_lets ls devs t
  have ht : QueueStaysOrEnds s t := queueStaysOrEnds_foldl
    (f := fun s d => { s with buf.dev := vmod s.buf.dev d (fun x => { x with lines := satInc 65535 x.lines }) }) (fun _ _ => .inl rfl) devs s
  exact ht.trans (queueStaysOrEnds_foldl (fun _ _ => queue_strike _ _ _) _ _)

theorem queue_bufWrite (st off : Nat) (data : Bytes) (errs : List LineError) (spares : Nat) (s : State) :
    QueueStaysOrEnds s (bufWrite st off data errs spares s) := by
  have answer (a : BufResult) (u : State) : QueueStaysOrEnds u (bufAnswer a u) := .of_same (Frames.bufAnswer_same Frames.sub_refl Frames.same_refl) rfl
  have put (i : Nat) (b : Bytes) (u : State) : QueueStaysOrEnds u (putData i b u) := .of_same (Frames.putData_same Frames.sub_refl Frames.same_refl) rfl
  unfold bufWrite
  extract_lets full r all t u
  refine .of_if (answer _ _) (.of_if (.trans ?_ (answer _ _)) (.of_if ((put _ _ _).trans (answer _ _)) ?_))
  · exact .of_same (Frames.noteUnfilled_same Frames.sub_refl Frames.same_refl) rfl
  · have ht : QueueStaysOrEnds s t := .of_same (w := 0x60010) (Frames.writeBackLines_same rfl (Frames.noteDecode_same rfl Frames.same_refl)) rfl
    have hu : QueueStaysOrEnds t u := .of_if (.of_same (Frames.noteUncorr_same Frames.sub_refl Frames.same_refl) rfl) (.refl t)
    exact (((ht.trans hu).trans (put _ _ _)).trans (queue_strikeLines _ _)).trans (answer _ _)

theorem queue_writeBuffer (fuel : Nat) : ∀ (ba : Nat) (bs : Bytes) (s : State), QueueStaysOrEnds s (writeBuffer fuel ba bs s).2 := by
  induction fuel with
  | zero => exact fun _ _ s => .refl s
  | succ n ih =>
    intro ba bs s
    unfold writeBuffer
    split
    · exact .refl s
    · exact (queue_bufWrite _ _ _ _ _ _).trans (ih _ _ _)

/-! ### A burst ends (R243, R252) -/

theorem id_of_find {id : Nat} {l : List MovDesc} {d : MovDesc} (h : l.find? (fun x => x.id == id) = some d) : d.id = id :=
  eq_of_beq (List.find?_some (p := fun x : MovDesc => x.id == id) h)

theorem not_mem_of_find_none {id : Nat} {l : List MovDesc} (h : l.find? (fun x => x.id == id) = none) : ∀ x ∈ l, x.id ≠ id := fun x hx =>
  bne_iff_ne.mp (by simpa using List.find?_eq_none.mp h x hx)

/-- A descriptor without a list of which all bytes have moved ends. -/
theorem endIfDone_ends {id : Nat} {e : Fin 4} {s : State} (h : ∀ d, s.mov.queue.find? (fun d => d.id == id) = some d → d.listed = false ∧ d.length ≤ d.moved) :
    ∀ x ∈ (endIfDone id e s).mov.queue, x.id ≠ id := by
  unfold endIfDone
  split
  next hn => exact not_mem_of_find_none hn
  next d hd =>
    obtain ⟨hl, hm⟩ := h d hd
    obtain rfl := id_of_find hd
    rw [if_pos (by rw [hl, Bool.not_false, Bool.true_and]; exact decide_eq_true hm)]
    exact not_mem_endDesc d _ _ _ _ s

theorem endWrite_ends (id : Nat) (e : Fin 4) (entry : Nat) (s : State) : ∀ x ∈ (endWrite id e entry true s).mov.queue, x.id ≠ id := by
  unfold endWrite
  split
  next hn => exact not_mem_of_find_none hn
  next d hd =>
    obtain rfl := id_of_find hd
    exact not_mem_endDesc d _ _ _ _ s

theorem endWrite_errStatus {id : Nat} {s : State} {d : MovDesc} (h : s.mov.queue.find? (fun d => d.id == id) = some d) (e : Fin 4) (entry : Nat) :
    (endWrite id e entry true s).mov.errStatus = movPoison := by
  unfold endWrite
  rw [h]
  exact (endDesc_error (d := d) (status := movPoison) rfl e.val entry d.moved s).2.1

theorem endIfDone_engBytes (id : Nat) (e f : Fin 4) (s : State) : (endIfDone id e s).mov.eng[f].bytes = s.mov.eng[f].bytes := by
  unfold endIfDone
  split
  · rfl
  · split
    · exact endDesc_bytes _ _ _ _ _ s f
    · rfl

/-- A descriptor after `b` has moved. -/
def afterBytes (e : Fin 4) (b : Bytes) (d : MovDesc) : MovDesc :=
  { d with moved := d.moved + b.length, inEntry := d.inEntry + b.length, crc := crc32cRun d.crc b, tries := {}, engine := e.val }

theorem find_movedBytes (id : Nat) (e : Fin 4) (b : Bytes) (s : State) :
    (movedBytes id e b s).mov.queue.find? (fun d => d.id == id) = (s.mov.queue.find? (fun d => d.id == id)).map (afterBytes e b) :=
  find_modFirst (p := fun d : MovDesc => d.id == id) (f := afterBytes e b) (fun _ => rfl) s.mov.queue

theorem movedBytes_engBytes (id : Nat) (e : Fin 4) (b : Bytes) (s : State) : (movedBytes id e b s).mov.eng[e].bytes = s.mov.eng[e].bytes + b.length :=
  congrArg MovEng.bytes (vmod_same _ _ _)

section
variable {e : Fin 4} {s : State} {d : MovDesc} {id : Nat} (hd : s.mov.queue.find? (fun x => x.id == id) = some d) (he : s.mov.eng[e].use = some id)
  (hu : ∀ f : Fin 4, s.retired 7 f.val = true → s.mov.eng[f].use = none)

include hd he hu in
/-- A burst on an engine in service that passes and need not wait. -/
theorem burstDone_pass (hf : d.flag 1 = false) (ht : d.tries.first = none) (hw : portWaits d s = false) :
    burstDone e (.descriptor id) .pass s = assignWork (freeMover e (descBurst d e s)) := by
  have hleft : ¬((List.finRange 4).any (fun f => s.retired 7 f.val && s.mov.eng[f].use.isSome)) = true := by
    rw [List.any_eq_true]
    rintro ⟨f, _, h⟩
    rw [Bool.and_eq_true] at h
    rw [hu f h.1] at h
    exact Bool.false_ne_true h.2
  have hserve : serveLine d s = s := by
    unfold serveLine
    rw [hf]
    split <;> rfl
  unfold burstDone
  dsimp only
  rw [if_neg hleft]
  unfold runBurst
  rw [hd]
  dsimp only
  rw [he, hw, passAfter_none ht, hserve, if_neg (by rw [bne_self_eq_false]; exact Bool.false_ne_true)]
  exact if_neg Bool.false_ne_true

end

/-- What an engine's release and the next pieces of work leave. -/
theorem assigned_fields (e : Fin 4) (s : State) :
    (assignWork (freeMover e s)).mov.queue = s.mov.queue ∧ (assignWork (freeMover e s)).mov.errStatus = s.mov.errStatus
      ∧ (∀ f : Fin 4, (assignWork (freeMover e s)).mov.eng[f].bytes = s.mov.eng[f].bytes)
      ∧ (assignWork (freeMover e s)).hostMem = s.hostMem ∧ (assignWork (freeMover e s)).buf = s.buf ∧ (assignWork (freeMover e s)).evt = s.evt := by
  obtain ⟨es, ls, hw, hb, _⟩ := (reassigned_freeMover e s).trans (reassigned_assignWork _)
  rw [hw]
  exact ⟨rfl, rfl, hb, rfl, rfl, rfl⟩

/-- The frame of what follows on bytes that have moved. -/
theorem moved_same (id : Nat) (e : Fin 4) (b : Bytes) (s : State) : Frames.Same 0x80000 s (endIfDone id e (movedBytes id e b s)) :=
  Frames.endIfDone_same rfl (Frames.movedBytes_same rfl Frames.same_refl)

theorem toPage_fits {addr n : Nat} (sp : Nat) (h : addr % 4096 + n ≤ 4096) : toPage sp addr n = n := by
  unfold toPage
  split
  · exact Nat.min_eq_left (by omega)
  · rfl

theorem burstMax_unpaced {d : MovDesc} (h : d.flag 1 = false) : burstMax d = 4096 := by
  unfold burstMax
  rw [h]
  rfl

/-- The first burst of an unpaced COPY within a burst and a page carries all of it. -/
theorem copyLen_whole {d : MovDesc} (hf : d.flag 1 = false) (hm : d.moved = 0) (hl : d.length ≤ 4096) (hs : d.src % 4096 + d.length ≤ 4096)
    (hd : d.dst % 4096 + d.length ≤ 4096) : copyLen d = d.length := by
  unfold copyLen
  rw [burstMax_unpaced hf, hm, Nat.sub_zero, Nat.add_zero, Nat.add_zero, Nat.min_eq_right hl, toPage_fits _ hs, toPage_fits _ hd]

theorem hostRead_length (s : State) (sp addr n : Nat) : (hostRead s sp addr n).length = n := by
  unfold hostRead
  rw [List.length_map, List.length_range]

theorem copyBurst_host {d : MovDesc} (hs : d.srcSpace = spHost) (hd : d.dstSpace = spHost) (hm : d.moved = 0) (e : Fin 4) (s : State) :
    copyBurst d e s = endIfDone d.id e (movedBytes d.id e (hostRead s d.hostSpace d.src (copyLen d))
      (hostWrite d.hostSpace d.dst (hostRead s d.hostSpace d.src (copyLen d)) s)) := by
  unfold copyBurst
  simp only [hs, hd, hm, Nat.add_zero]
  rfl

theorem patternBytes_length (d : MovDesc) (n : Nat) : (patternBytes d n).length = n := by
  unfold patternBytes
  rw [List.length_map, List.length_range]

/-- The first burst of an unpaced FILL of at most a burst. -/
theorem fillBurst_whole {d : MovDesc} (hf : d.flag 1 = false) (h2 : d.flag 2 = false) (hm : d.moved = 0) (hl : d.length ≤ 4096) (e : Fin 4) (s : State) :
    fillBurst d e s = if (writeBuffer (d.length / 1024 + 2) d.dst (patternBytes d d.length) s).1
      then endWrite d.id e noMovEntry true (writeBuffer (d.length / 1024 + 2) d.dst (patternBytes d d.length) s).2
      else endIfDone d.id e (movedBytes d.id e (patternBytes d d.length) (writeBuffer (d.length / 1024 + 2) d.dst (patternBytes d d.length) s).2) := by
  unfold fillBurst
  simp only [burstMax_unpaced hf, hm, h2, Nat.sub_zero, Nat.add_zero, Nat.min_eq_right hl, patternBytes_length, Bool.false_eq_true, if_false]

theorem portWaits_eq_false {d : MovDesc} {s : State} (h : d.srcSpace ≠ spPort ∨ (d.op ≠ opCopy ∧ d.op ≠ opScatter)) : portWaits d s = false := by
  unfold portWaits
  rcases h with h | ⟨h, k⟩
  · rw [beq_eq_false_iff_ne.mpr h, Bool.false_and]
  · rw [if_neg h, beq_eq_false_iff_ne.mpr k, Bool.false_and, Bool.and_false]

theorem requestLine_room {l : Fin 38} {s : State} (h : s.mov.line[l].pending.length < 4) :
    (requestLine l s).mov.line[l].pending = s.mov.line[l].pending ++ [(s.nextId, s.glb.time)] ∧ (requestLine l s).nextId = s.nextId + 1
      ∧ (requestLine l s).mov.queue = s.mov.queue ∧ ∀ k, k ≠ l → (requestLine l s).mov.line[k].pending = s.mov.line[k].pending := by
  unfold requestLine
  rw [if_neg (Nat.not_le.mpr h)]
  obtain ⟨es, ls, hw, _, hp⟩ := reassigned_assignWork { s with
    mov.line := vmod s.mov.line l (fun x => { x with pending := x.pending ++ [(s.nextId, s.glb.time)] }), nextId := s.nextId + 1 }
  rw [hw]
  exact ⟨(hp l).trans (congrArg ReqLine.pending (vmod_same _ _ _)), rfl, rfl,
    fun k hk => (hp k).trans (congrArg ReqLine.pending (vmod_other _ _ _ _ (Ne.symm hk)))⟩

theorem burstsMoveBytes : BurstsMoveBytes := by
  intro e s d id hd he _ hu
  have hid : d.id = id := id_of_find hd
  refine ⟨fun hop hs hdst hf ht hm hpos hl hsrc hdl => ?_, fun hop h2 hf ht hm hpos hl => ?_, fun hh => ?_,
    fun l => ⟨fun h => ⟨_, rfl, requestLine_room h⟩, fun h => congrArg Host.Outcome.next (if_pos h)⟩⟩
  · have hburst : descBurst d e s = endIfDone id e (movedBytes id e (hostRead s d.hostSpace d.src d.length)
        (hostWrite d.hostSpace d.dst (hostRead s d.hostSpace d.src d.length) s)) := by
      unfold descBurst
      rw [if_pos hop, copyBurst_host hs hdst hm, copyLen_whole hf hm hl hsrc hdl, hid]
    refine ⟨_, congrArg Host.Outcome.next (burstDone_pass hd he hu hf ht (portWaits_eq_false (.inl (by rw [hs]; decide)))), ?_⟩
    obtain ⟨hq, _, hb, hmem, hbuf, hev⟩ := assigned_fields e (descBurst d e s)
    rw [hq, hb, hmem, hbuf, hev, hburst]
    have k := moved_same id e (hostRead s d.hostSpace d.src d.length) (hostWrite d.hostSpace d.dst (hostRead s d.hostSpace d.src d.length) s)
    refine ⟨k.hostMem rfl, endIfDone_ends fun x hx => ?_, ?_, k.buf rfl, k.evt rfl⟩
    · rw [find_movedBytes, show (hostWrite _ _ _ s).mov.queue.find? (fun x => x.id == id) = some d from hd] at hx
      obtain rfl := Option.some.inj hx
      exact ⟨not_listed (by rw [show (afterBytes e _ d).op = d.op from rfl, hop]; decide) (by rw [show (afterBytes e _ d).op = d.op from rfl, hop]; decide),
        by show d.length ≤ d.moved + _; rw [hostRead_length]; omega⟩
    · rw [endIfDone_engBytes, movedBytes_engBytes, hostRead_length]
      rfl
  · have hburst : descBurst d e s = fillBurst d e s := by
      unfold descBurst
      rw [if_neg (by rw [hop]; decide), if_pos hop]
    refine ⟨_, congrArg Host.Outcome.next (burstDone_pass hd he hu hf ht (portWaits_eq_false (.inr ⟨by rw [hop]; decide, by rw [hop]; decide⟩))), ?_⟩
    obtain ⟨hq, hst, _, hmem, hbuf, _⟩ := assigned_fields e (descBurst d e s)
    have hqueue := queue_writeBuffer (d.length / 1024 + 2) d.dst (patternBytes d d.length) s
    rw [hq, hst, hmem, hbuf, hburst, fillBurst_whole hf h2 hm hl, hid]
    generalize writeBuffer (d.length / 1024 + 2) d.dst (patternBytes d d.length) s = w at *
    by_cases hw : w.1 = true
    · rw [if_pos hw]
      have k := Frames.endWrite_same (x0 := id) (x1 := e) (x2 := noMovEntry) (x3 := true) Frames.sub_refl (Frames.same_refl (r := w.2))
      exact ⟨k.buf rfl, k.hostMem rfl, endWrite_ends id e noMovEntry w.2, fun _ hsame => endWrite_errStatus (by rw [hsame]; exact hd) e noMovEntry⟩
    · rw [if_neg hw]
      have k := moved_same id e (patternBytes d d.length) w.2
      refine ⟨k.buf rfl, k.hostMem rfl, endIfDone_ends fun x hx => ?_, fun h => absurd h hw⟩
      rw [find_movedBytes] at hx
      rcases hqueue with hqueue | hqueue
      · rw [hqueue, hd] at hx
        obtain rfl := Option.some.inj hx
        exact ⟨not_listed (by rw [show (afterBytes e _ d).op = d.op from rfl, hop]; decide) (by rw [show (afterBytes e _ d).op = d.op from rfl, hop]; decide),
          by show d.length ≤ d.moved + _; rw [patternBytes_length]; omega⟩
      · rw [hqueue] at hx
        cases hx
  · have hfault : hostFault (.mover e) s = assignWork (endDesc d movHostFault e.val (if d.listed then d.job.index else noMovEntry) d.moved s) := by
      unfold hostFault
      dsimp only
      rw [he]
      dsimp only
      rw [hd]
      exact if_pos hh
    refine ⟨_, congrArg Host.Outcome.next hfault, ?_⟩
    obtain ⟨es, ls, hw, _⟩ := reassigned_assignWork (endDesc d movHostFault e.val (if d.listed then d.job.index else noMovEntry) d.moved s)
    rw [hw]
    refine ⟨?_, (endDesc_error (d := d) (status := movHostFault) rfl _ _ _ s).2.1, rfl, rfl⟩
    rw [← hid]
    exact not_mem_endDesc d _ _ _ _ s

/-! ### Faults that stop a ring (R253, R258, R285) -/

/-- The ring of an instance with its error, before the event and the state of the instance. -/
def faulted (v : Inst) (kind : Nat) (s : State) : State := setHifErr kind (some v) (s.modRing (some v) (fun q => { q with stopped := true, err := kind }))

theorem stopRing_inst (v : Inst) (kind : Nat) (s : State) :
    (stopRing (some v) kind s).inst v = (if (s.inst v).state = .active ∨ (s.inst v).state = .paused ∨ (s.inst v).state = .quiescing
        then { s.inst v with ring := { (s.inst v).ring with stopped := true, err := kind }, state := .faulted, seq := (s.inst v).seq + 1 }
        else { s.inst v with ring := { (s.inst v).ring with stopped := true, err := kind } })
      ∧ (∀ u, u ≠ v → (stopRing (some v) kind s).inst u = s.inst u) ∧ (stopRing (some v) kind s).streams = s.streams := by
  have hsame := fun x => Frames.raiseEv_same (x0 := .hifRingFault) (x1 := 0x2) (x2 := noRes) (x3 := ringInst (some v)) (x4 := x) Frames.sub_refl
    (Frames.same_refl (r := faulted v kind s))
  have hv : (faulted v kind s).inst v = { s.inst v with ring := { (s.inst v).ring with stopped := true, err := kind } } := inst_modInst_same s v _
  have hu : ∀ u, u ≠ v → (faulted v kind s).inst u = s.inst u := fun u h => inst_modInst_other s v u _ (Ne.symm h)
  have hstr : (faulted v kind s).streams = s.streams := rfl
  unfold stopRing
  extract_lets f r
  have hr : ∀ u, r.inst u = (faulted v kind s).inst u := fun u => congrArg (fun i : Vector InstSt 64 => i[u]) ((hsame _).insts rfl)
  have hrs : r.streams = s.streams := ((hsame _).streams rfl).trans hstr
  clear_value r
  have hstate : (r.inst v).state = (s.inst v).state := by rw [hr, hv]
  have fails (h : (s.inst v).state = .active ∨ (s.inst v).state = .paused ∨ (s.inst v).state = .quiescing) :
      (setInstState v .faulted r).inst v = (if (s.inst v).state = .active ∨ (s.inst v).state = .paused ∨ (s.inst v).state = .quiescing
          then { s.inst v with ring := { (s.inst v).ring with stopped := true, err := kind }, state := .faulted, seq := (s.inst v).seq + 1 }
          else { s.inst v with ring := { (s.inst v).ring with stopped := true, err := kind } })
        ∧ (∀ u, u ≠ v → (setInstState v .faulted r).inst u = s.inst u) ∧ (setInstState v .faulted r).streams = s.streams := by
    have hne : (s.inst v).state ≠ .faulted := by rcases h with h | h | h <;> rw [h] <;> decide
    rw [setInstState_inst, hstate, if_neg hne, if_pos h, hr, hv]
    exact ⟨rfl, fun u hu' => (setInstState_inst_other _ _ _ _ (Ne.symm hu')).trans ((hr u).trans (hu u hu')),
      ((Frames.setInstState_same Frames.sub_refl Frames.same_refl).streams rfl).trans hrs⟩
  dsimp only
  split
  next h => exact fails (.inl (hstate.symm.trans h))
  next h => exact fails (.inr (.inl (hstate.symm.trans h)))
  next h => exact fails (.inr (.inr (hstate.symm.trans h)))
  next h1 h2 h3 =>
    rw [hstate] at h1 h2 h3
    rw [if_neg (not_or.mpr ⟨h1, not_or.mpr ⟨h2, h3⟩⟩)]
    exact ⟨(hr v).trans hv, fun u hu' => (hr u).trans (hu u hu'), hrs⟩

/-- A ring that has stopped, and what its stop leaves. -/
def RingStopped (v : Inst) (kind : Nat) (s t : State) : Prop :=
  (t.ring (some v)).stopped = true ∧ (t.ring (some v)).err = kind ∧ (t.ring (some v)).cmds = (s.ring (some v)).cmds
    ∧ ((s.inst v).state = .active ∨ (s.inst v).state = .paused ∨ (s.inst v).state = .quiescing → (t.inst v).state = .faulted)
    ∧ (∀ u, u ≠ v → t.inst u = s.inst u) ∧ t.streams = s.streams

theorem stopRing_stops (v : Inst) (kind : Nat) (s : State) : RingStopped v kind s (stopRing (some v) kind s) := by
  obtain ⟨hv, hu, hs⟩ := stopRing_inst v kind s
  unfold RingStopped State.ring
  dsimp only
  rw [hv]
  split
  · exact ⟨rfl, rfl, rfl, fun _ => rfl, hu, hs⟩
  next h => exact ⟨rfl, rfl, rfl, fun k => absurd k h, hu, hs⟩

theorem hostFaultsStopRings : HostFaultsStopRings := by
  intro v s
  refine ⟨fun hf => ⟨_, congrArg Host.Outcome.next (if_pos hf), stopRing_stops v 2 s⟩, fun hs hst => ⟨_, congrArg Host.Outcome.next (if_neg ?_), stopRing_stops v 3 s⟩,
    fun c hc hp hlt hf hop => congrArg Host.Outcome.next ?_⟩
  · rw [Bool.or_eq_true, hs]
    exact not_or.mpr ⟨Bool.false_ne_true, fun h => hst (eq_of_beq h)⟩
  · have hcid : (BitVec.ofNat 16 c.cid).toNat = c.cid := by rw [BitVec.toNat_ofNat, Nat.mod_eq_of_lt hlt]
    have hdata : (!dataOpcodes.contains c.opcode) = false := by rcases hop with h | h <;> rw [h] <;> rfl
    show dataFault (some v) (BitVec.ofNat 16 c.cid) s = _
    unfold dataFault
    rw [hcid, hf]
    dsimp only
    rw [hdata, if_neg Bool.false_ne_true, hp]
    dsimp only
    rw [hc]
    rfl

end Sys2Proof.Machine

/-- Settles O56: a descriptor joins the queue with a fresh number, its burst moves what its lengths allow, and a fault ends it; the mover's
queue outlives an access to buffer memory or ends whole with it. -/
theorem Sys2Proof.moverAndHostFaults : Obligations.MoverAndHostFaults := ⟨descriptorsAreTaken, burstsMoveBytes, hostFaultsStopRings⟩
end

section

/-! PROOFS. Accesses to an UNFILLED stripe and the visits of the rake (R207, R220). -/

open Sys2Proof Sys2Proof.Machine Sys2Proof.Claims

namespace Sys2Proof.Machine

/-! ### UNFILLED stripes -/

theorem unfilledStripes : UnfilledStripes := by
  intro ba data errs spares s hm
  have hwrite : exec (.bufferWrite ba data errs spares) s
      = .next (bufWrite (ba / 1024) (ba % 1024) (data.take (1024 - ba % 1024)) errs spares s) := rfl
  refine ⟨fun h5 => ⟨?_, fun h0 hl => ?_, fun hp => ?_⟩, fun h5 => ⟨congrArg Host.Outcome.next (if_pos h5), congrArg Host.Outcome.next (if_pos h5)⟩⟩
  · exact congrArg Host.Outcome.next ((if_neg h5).trans (if_pos hm))
  · have hfull : ((ba % 1024 == 0) && ((data.take (1024 - ba % 1024)).length == 1024)) = true := by simp [h0]; omega
    rw [hwrite]
    refine congrArg Host.Outcome.next ((if_neg h5).trans ((if_pos hm).trans ?_))
    rw [hfull]; rfl
  · have hpart : ((ba % 1024 == 0) && ((data.take (1024 - ba % 1024)).length == 1024)) = false := by
      rw [Bool.and_eq_false_iff, beq_eq_false_iff_ne, beq_eq_false_iff_ne, List.length_take]; omega
    rw [hwrite]
    refine congrArg Host.Outcome.next ((if_neg h5).trans ((if_pos hm).trans ?_))
    rw [hpart]; rfl

/-! ### A stripe as it was written decodes as itself (R202) -/

theorem getD_column (rows : List Bytes) (k l : Nat) : (column rows k).getD l 0 = (rows.getD l []).getD k 0 := by
  unfold column
  simp only [List.getD_eq_getElem?_getD, List.getElem?_map]
  cases rows[l]? <;> simp

/-- A line is the column of its own bytes. -/
theorem map_getD_range {b : Bytes} (h : b.length = 64) : (List.range 64).map (fun k => b.getD k 0) = b := by
  refine List.ext_getElem (by simp [h]) fun i h1 h2 => ?_
  simp [List.getD_eq_getElem?_getD, h2]

theorem flatten_slices {b : Bytes} (n : Nat) (h : b.length = 64 * n) : ((List.range n).map (fun l => slice b (64 * l) 64)).flatten = b := by
  induction n generalizing b with
  | zero => simp at h; subst h; rfl
  | succ n ih =>
    have htake : ((List.range n).map (fun l => slice b (64 * l) 64)) = (List.range n).map (fun l => slice (b.take (64 * n)) (64 * l) 64) := by
      refine List.map_congr_left fun l hl => ?_
      have hl := List.mem_range.mp hl
      rw [slice_eq_take (by omega), slice_eq_take (by rw [List.length_take]; omega), List.drop_take, List.take_take, Nat.min_eq_left (by omega)]
    have hlast : slice b (64 * n) 64 = b.drop (64 * n) := by
      rw [slice_eq_take (by omega), List.take_of_length_le (by rw [List.length_drop]; omega)]
    rw [List.range_succ, List.map_append, List.flatten_append, htake, ih (by rw [List.length_take]; omega), List.map_singleton, hlast,
      List.flatten_singleton, List.take_append_drop]

/-- The slices of lines put end to end are the lines. -/
theorem slices_flatten {ls : List Bytes} (h : ∀ b ∈ ls, b.length = 64) : (List.range ls.length).map (fun l => slice ls.flatten (64 * l) 64) = ls := by
  induction ls with
  | nil => rfl
  | cons b ls ih =>
    obtain ⟨hb, hls⟩ := List.forall_mem_cons.mp h
    have hfirst : slice (b ++ ls.flatten) (64 * 0) 64 = b := by
      rw [slice_eq_take (by rw [List.length_append]; omega), Nat.mul_zero, List.drop_zero, List.take_left' hb]
    have hnext (l : Nat) : slice (b ++ ls.flatten) (64 * (l + 1)) 64 = slice ls.flatten (64 * l) 64 := by
      have : (b ++ ls.flatten).drop (64 * (l + 1)) = ls.flatten.drop (64 * l) := by
        rw [List.drop_append, hb, List.drop_eq_nil_of_le (by omega), List.nil_append]
        congr 1
      unfold slice
      rw [this]
    rw [List.length_cons, List.range_succ_eq_map, List.map_cons, List.map_map, List.flatten_cons, hfirst]
    exact congrArg (b :: ·) ((List.map_congr_left fun l _ => hnext l).trans (ih hls))

section
variable {data : Bytes} (hlen : data.length = 1024)

/-- The sixteen data lines of a stripe. -/
def dataLines (data : Bytes) : List Bytes := (List.range 16).map (fun l => slice data (64 * l) 64)

theorem length_stripeCheck (rows : List Bytes) : (stripeCheck rows).length = 4 := by simp [stripeCheck]

theorem length_of_mem_stripeCheck {rows : List Bytes} {b : Bytes} (h : b ∈ stripeCheck rows) : b.length = 64 := by
  simp only [stripeCheck, List.mem_map] at h
  obtain ⟨i, -, rfl⟩ := h
  simp

include hlen in
/-- The lines of an encoded stripe: the data lines, and then the check lines. -/
theorem linesOf_encodeStripe : linesOf (encodeStripe data) = dataLines data ++ stripeCheck (dataLines data) := by
  have hc := length_stripeCheck (dataLines data)
  have hn : (dataLines data ++ stripeCheck (dataLines data)).length = 20 := by rw [List.length_append, hc]; simp [dataLines]
  have hl : ∀ b ∈ dataLines data ++ stripeCheck (dataLines data), b.length = 64 := by
    intro b hb
    rcases List.mem_append.mp hb with h | h
    · obtain ⟨l, -, rfl⟩ := List.mem_map.mp h
      exact length_slice _ _ _
    · exact length_of_mem_stripeCheck h
  have hflat : (dataLines data ++ stripeCheck (dataLines data)).flatten = encodeStripe data := by
    rw [List.flatten_append, dataLines, flatten_slices 16 (by omega)]; rfl
  have h := slices_flatten hl
  rwa [hn, hflat] at h

/-- Every column of an encoded stripe is a word of the buffer code. -/
theorem column_encoded (rows : List Bytes) {k : Nat} (hk : k < 64) :
    column (rows ++ stripeCheck rows) k = column rows k ++ rsCheck 4 (column rows k) := by
  have hcheck : column (stripeCheck rows) k = rsCheck 4 (column rows k) := by
    refine List.ext_getElem (by simp [column, length_stripeCheck, length_rsCheck]) fun i h1 h2 => ?_
    have hrow : (column (stripeCheck rows) k)[i] = (rsCheck 4 (column rows k)).getD i 0 := by
      simp [column, stripeCheck, List.getD_eq_getElem?_getD, hk]
    rw [hrow, List.getD_eq_getElem?_getD, List.getElem?_eq_getElem h2]; rfl
  rw [← hcheck]
  exact List.map_append

/-- Lines whose columns are words of the buffer code decode as themselves. -/
theorem decodeStripe_codewords {lines : List Bytes} (hn : lines.length = 20) (hl : ∀ b ∈ lines, b.length = 64)
    (hw : ∀ k < 64, ∀ j < 4, rsSyndrome (column lines k) j = 0) : decodeStripe lines [] = some (lines, []) := by
  have hcols : (List.range 64).map (fun k => rsDecode 4 (column lines k) [] ((4 - ([] : List Nat).length) / 2))
      = (List.range 64).map (fun k => some (column lines k, [])) :=
    List.map_congr_left fun k hk => rsDecode_codeword (hw k (List.mem_range.mp hk)) _
  have hrows : (List.range 20).map (fun l => ((List.range 64).map (fun k => column lines k)).map (fun w => w.getD l 0)) = lines := by
    refine List.ext_getElem (by simp [hn]) fun l h1 h2 => ?_
    have hb : (lines.getD l []).length = 64 := by
      rw [List.getD_eq_getElem?_getD, List.getElem?_eq_getElem h2]; exact hl _ (List.getElem_mem h2)
    simp only [List.getElem_map, List.getElem_range, List.map_map]
    refine (List.map_congr_left fun k _ => getD_column lines k l).trans ((map_getD_range hb).trans ?_)
    rw [List.getD_eq_getElem?_getD, List.getElem?_eq_getElem h2]; rfl
  have hws : ((List.range 64).map (fun k => some (column lines k, ([] : List Nat)))).map (fun c => (c.getD ([], [])).1)
      = (List.range 64).map (fun k => column lines k) := List.map_map
  have hes : ((List.range 64).map (fun k => some (column lines k, ([] : List Nat)))).flatMap (fun c => (c.getD ([], [])).2) = [] := by
    simp [List.flatMap_map]
  have hany : ((List.range 64).map (fun k => some (column lines k, ([] : List Nat)))).any (fun c => c.isNone) = false := by simp [List.any_map]
  unfold decodeStripe
  simp only [hcols, hany, hws, hes, hrows]
  simp

include hlen in
theorem decodeStripe_encoded : decodeStripe (linesOf (encodeStripe data)) [] = some (linesOf (encodeStripe data), []) := by
  refine decodeStripe_codewords (by simp [linesOf]) (fun b hb => ?_) fun k hk j hj => ?_
  · obtain ⟨l, -, rfl⟩ := List.mem_map.mp hb
    exact length_slice _ _ _
  · rw [linesOf_encodeStripe hlen, column_encoded _ hk]
    exact rsSyndrome_encoded hj _

include hlen in
theorem take_linesOf_encodeStripe : ((linesOf (encodeStripe data)).take 16).flatten = data := by
  rw [linesOf_encodeStripe hlen, List.take_left' (by simp [dataLines]), dataLines, flatten_slices 16 (by omega)]

end

/-! ### The rake (R220) -/

section
variable {s : State} {st : Nat} (hd : ∀ x ∈ s.buf.damage, x.1 ≠ physStripe s st) (hlost : ∀ d : Fin 8, s.buf.dev[d].lost = false)
  (hlen : (standing s st).length = 1024)

include hd in
theorem damageOf_eq_nil : damageOf s (physStripe s st) = [] := by
  unfold damageOf
  rw [List.find?_eq_none.mpr fun x hx => by simpa using hd x hx]; rfl

include hlost in
theorem lostLines_eq_nil (p : Nat) : lostLines s p = [] := List.filter_eq_nil_iff.mpr fun l _ => by
  rw [hlost (lineDev s p l)]; exact Bool.false_ne_true

include hd hlost hlen in
/-- A stripe as it was written is read without an error. -/
theorem readStripe_sound : readStripe s st [] = { at_ := physStripe s st, raw := linesOf (encodeStripe (standing s st)), erased := [], poisoned := []
                                                  decoded := some (linesOf (encodeStripe (standing s st)), []) } := by
  have herr : addErrors (damageOf s (physStripe s st)) [] = [] := damageOf_eq_nil hd
  have hnone (l : List Nat) : l.filter (fun _ => false) = [] := List.filter_eq_nil_iff.mpr fun _ _ => Bool.false_ne_true
  unfold readStripe readLines
  simp only [lostLines_eq_nil hlost, herr]
  simp only [List.any_nil, Bool.and_false, Bool.or_false, hnone, List.contains_nil, Bool.false_eq_true, if_false, lineRead,
    List.find?_nil, List.zipIdx_map_fst]
  rw [decodeStripe_encoded hlen]

include hd hlost hlen in
/-- The rake's visit to such a stripe changes nothing. -/
theorem visitStripe_sound (spares : Nat) : visitStripe st [] spares s = (readStripe s st [], s) := by
  have hr := readStripe_sound hd hlost hlen
  have hwb : (readStripe s st []).writeBack = [] := by rw [hr]; rfl
  have herr : errorsAt s st [] = [] := damageOf_eq_nil hd
  have hsame : setDamage (readStripe s st []).at_ [] s = s := by
    rw [hr]
    exact congrArg (fun l => { s with buf := { s.buf with damage := l } }) (List.filter_eq_self.mpr fun x hx => bne_iff_ne.mpr (hd x hx))
  have hnote : noteDecode st (readStripe s st []) s = s := by unfold noteDecode; rw [hr]; rfl
  have hback : writeBackLines st (readStripe s st []) [] spares s = s := by
    have hdec : (readStripe s st []).decoded = some (linesOf (encodeStripe (standing s st)), []) := by rw [hr]
    unfold writeBackLines
    rw [hdec]
    simp only [take_linesOf_encodeStripe hlen, List.filter_nil, if_true, List.isEmpty_nil, hsame]
  have hstrike : strikeLines (readStripe s st []) s = s := by unfold strikeLines; rw [hwb, hr]; rfl
  unfold visitStripe
  have hdec : (readStripe s st []).decoded.isNone = false := by rw [hr]; rfl
  simp only [herr, hnote, hdec, Bool.false_eq_true, if_false, hback, hstrike]

end

/-- The queue of the rake with one stripe more, unless it waits already. -/
def rakeQueued (q : List Nat) (p : Nat) : List Nat := if q.contains p then q else q ++ [p]

theorem rakeQueued_prefix (q : List Nat) (p : Nat) : q <+: rakeQueued q p := by
  unfold rakeQueued
  split
  · exact List.prefix_rfl
  · exact List.prefix_append q [p]

theorem mem_rakeQueued (q : List Nat) (p : Nat) : p ∈ rakeQueued q p := by
  unfold rakeQueued
  split
  next h => exact List.contains_iff_mem.mp h
  next => simp

theorem rakeQueued_nodup {q : List Nat} (h : q.Nodup) (p : Nat) : (rakeQueued q p).Nodup := by
  unfold rakeQueued
  split
  next => exact h
  next hp => exact List.nodup_append.mpr ⟨h, by simp, fun a ha b hb he => hp (by rw [List.mem_singleton.mp hb] at he; simpa [← he] using ha)⟩

theorem foldl_rakeQueued (l : List Nat) (q : List Nat) :
    q <+: l.foldl rakeQueued q ∧ (∀ p ∈ l, p ∈ l.foldl rakeQueued q) ∧ (q.Nodup → (l.foldl rakeQueued q).Nodup) := by
  induction l generalizing q with
  | nil => exact ⟨List.prefix_rfl, fun p hp => absurd hp List.not_mem_nil, id⟩
  | cons a l ih =>
    obtain ⟨hpre, hmem, hnd⟩ := ih (rakeQueued q a)
    refine ⟨(rakeQueued_prefix q a).trans hpre, List.forall_mem_cons.mpr ⟨hpre.subset (mem_rakeQueued q a), hmem⟩, fun h => hnd (rakeQueued_nodup h a)⟩

theorem eventPoll_out {d : Fin 8} {lines : List Nat} {s : State} (h : s.buf.nDev ≤ d.val ∨ s.buf.dev[d].lost = true) : eventPoll d lines s = s :=
  if_pos (by simpa using h)

/-- The stripes of the device lines that a poll names. -/
def polledStripes (d : Fin 8) (lines : List Nat) (s : State) : List Nat := (lines.map (fun x => (x * s.buf.nDev + d.val) / 20)).filter (raked s)

theorem eventPoll_in {d : Fin 8} {lines : List Nat} {s : State} (hn : d.val < s.buf.nDev) (hl : s.buf.dev[d].lost = false) :
    eventPoll d lines s = { s with buf := { s.buf with
      rakeQueue := (polledStripes d lines s).foldl rakeQueued s.buf.rakeQueue
      dev := vmod s.buf.dev d (fun x => { x with mail := [.getEvents, .clearEvents] }) } } := if_neg (by rw [hl, Bool.or_false]; simpa using hn)

/-- The rake is off, or the fill has not begun or service has ended. -/
theorem rakeVisit_off {errs : List LineError} {spares : Nat} {s : State} (h : rbit s.buf.rakeCfg 0 = false ∨ s.buf.state < 2 ∨ 4 < s.buf.state) :
    rakeVisit errs spares s = s := by
  refine if_pos ?_
  rcases h with h | h | h
  · simp [h]
  · have : ¬(s.buf.state = 2 ∨ s.buf.state = 3 ∨ s.buf.state = 4) := by omega
    simp_all
  · have : ¬(s.buf.state = 2 ∨ s.buf.state = 3 ∨ s.buf.state = 4) := by omega
    simp_all

/-- The visit where the rake is on. -/
theorem rakeVisit_on {errs : List LineError} {spares : Nat} {s : State} (hon : rbit s.buf.rakeCfg 0 = true) (h2 : 2 ≤ s.buf.state) (h4 : s.buf.state ≤ 4) :
    (∀ p rest, s.buf.rakeQueue = p :: rest → rakeVisit errs spares s = rakeAt p errs spares { s with buf := { s.buf with rakeQueue := rest } })
    ∧ (s.buf.rakeQueue = [] → rakeNext s s.buf.rakePos = none → rakeVisit errs spares s = s)
    ∧ (∀ p, s.buf.rakeQueue = [] → rakeNext s s.buf.rakePos = some p →
        (∀ q, rakeNext (rakeAt p errs spares s) (p + 1) = some q →
          rakeVisit errs spares s = { rakeAt p errs spares s with buf := { (rakeAt p errs spares s).buf with rakePos := q } })
        ∧ (rakeNext (rakeAt p errs spares s) (p + 1) = none → rakeVisit errs spares s =
            { rakeAt p errs spares s with buf := { (rakeAt p errs spares s).buf with rakePos := 0, rakePasses := (rakeAt p errs spares s).buf.rakePasses + 1 } })) := by
  have hstate : s.buf.state = 2 ∨ s.buf.state = 3 ∨ s.buf.state = 4 := by omega
  have hc : ¬((!rbit s.buf.rakeCfg 0 || !(s.buf.state == 2 || s.buf.state == 3 || s.buf.state == 4)) = true) := by
    rcases hstate with h | h | h <;> simp [hon, h]
  refine ⟨fun p rest hq => (if_neg hc).trans (by rw [hq]), fun hq hn => (if_neg hc).trans (by rw [hq, hn]), fun p hq hp => ⟨fun q h => ?_, fun h => ?_⟩⟩
  all_goals
    refine (if_neg hc).trans ?_
    rw [hq, hp]
    simp only [h]

theorem rakeAt_eq (p : Nat) (errs : List LineError) (spares : Nat) (s : State) : rakeAt p errs spares s =
    if (visitStripe (logicalOf s p) errs spares s).1.writeBack = [] then (visitStripe (logicalOf s p) errs spares s).2
    else { (visitStripe (logicalOf s p) errs spares s).2 with
      buf := { (visitStripe (logicalOf s p) errs spares s).2.buf with rakeCorrected := satInc 65535 (visitStripe (logicalOf s p) errs spares s).2.buf.rakeCorrected } } := by
  unfold rakeAt
  simp only [List.isEmpty_iff]

theorem rakeVisits : RakeVisits := by
  intro errs spares s
  dsimp only
  simp only [← rakeAt_eq]
  refine ⟨fun h => congrArg Host.Outcome.next (rakeVisit_off h), fun hon h2 h4 => ?_, fun p hd hl hlen => visitStripe_sound hd hl hlen spares,
    fun d lines => ⟨fun hn hl => ?_, fun h => congrArg Host.Outcome.next (eventPoll_out h)⟩⟩
  · obtain ⟨hq, hnone, hturn⟩ := rakeVisit_on (errs := errs) (spares := spares) hon h2 h4
    refine ⟨fun p rest h => congrArg Host.Outcome.next (hq p rest h), fun he hn => congrArg Host.Outcome.next (hnone he hn), fun p he hp => ?_⟩
    obtain ⟨hnext, hpass⟩ := hturn p he hp
    exact ⟨fun q h => congrArg Host.Outcome.next (hnext q h), fun h => congrArg Host.Outcome.next (hpass h)⟩
  · obtain ⟨hpre, hmem, hnd⟩ := foldl_rakeQueued (polledStripes d lines s) s.buf.rakeQueue
    refine ⟨_, congrArg Host.Outcome.next (eventPoll_in hn hl), rfl, hpre, fun x hx hr => hmem _ ?_, hnd⟩
    exact List.mem_filter.mpr ⟨List.mem_map_of_mem hx, hr⟩

end Sys2Proof.Machine

end

section

/-! PROOFS. Bring-up, loss and fill of the memory devices (R203, R212 to R218). -/

open Sys2Proof Sys2Proof.Machine Sys2Proof.Claims

namespace Sys2Proof.Machine

/-! ### The retirement marks and the buffer through an event and through PEWTER -/

theorem enqueueEvent_buckets (u : Evt) (r : EvRec) : (enqueueEvent u r).buckets = u.buckets := by
  unfold enqueueEvent
  repeat' split
  all_goals rfl

theorem raiseEv_buckets (e : Ev) (src res inst : Nat) (det : Bytes) (s : State) : (raiseEv e src res inst det s).evt.buckets = s.evt.buckets := by
  unfold raiseEv
  split
  · rfl
  · exact enqueueEvent_buckets _ _

theorem settlePan_buckets (p : Fin 4) (s : State) : (settlePan p s).evt.buckets = s.evt.buckets := by
  unfold settlePan
  extract_lets q l c a det b
  have hb : b.evt.buckets = s.evt.buckets := by
    unfold b
    split
    · exact raiseEv_buckets _ _ _ _ _ a
    · rfl
  split
  · exact (raiseEv_buckets _ _ _ _ _ b).trans hb
  · exact hb

/-- What entering PEWTER leaves: the buffer as it was, or with its ports off. -/
structure PortsStandOrOff (s t : State) : Prop where
  buckets : t.evt.buckets = s.evt.buckets
  buf : t.buf = s.buf ∨ t.buf = s.buf.portsOff

theorem PortsStandOrOff.refl (s : State) : PortsStandOrOff s s := ⟨rfl, .inl rfl⟩

theorem enterPewter_ports (cause kind number : Nat) (s : State) : PortsStandOrOff s (enterPewter cause kind number s) := by
  unfold enterPewter
  split
  · exact .refl s
  · extract_lets _ a _ b c _ d _ u _ _ x
    have ha : Frames.Same 0x30 s a := Frames.storeMap_same rfl (Frames.set_10 rfl Frames.same_refl)
    have hbk : b.evt.buckets = s.evt.buckets := raiseEv_buckets _ _ _ _ _ _
    have hbb : b.buf = s.buf := (Frames.raiseEv_same (w := 0x10) rfl Frames.same_refl).buf rfl
    have hd : Frames.Same 0x1002000 b d :=
      Frames.same_if (Frames.beginStop_same rfl (Frames.dropGates_same rfl Frames.same_refl)) (Frames.set_1000000 rfl (Frames.dropGates_same rfl Frames.same_refl))
    have hu : Frames.Same 0x80811c0 d u := Frames.unassignAll_same rfl (Frames.abortAll_same rfl (Frames.abortMover_same rfl Frames.same_refl))
    have hue : u.evt = d.evt := hu.evt rfl
    have hub : u.buf = d.buf := hu.buf rfl
    clear_value u
    have hx : Frames.Same 0x703c04 { u with pans.active := false, buf := u.buf.portsOff, chn.port := u.chn.port.map RingPort.off } (powerFor .pewter x) :=
      Frames.powerFor_same rfl (Frames.abandonData_same rfl Frames.same_refl)
    have hxe : (powerFor .pewter x).evt = u.evt := hx.evt rfl
    have hxb : (powerFor .pewter x).buf = u.buf.portsOff := hx.buf rfl
    exact ⟨by rw [hxe, hue, hd.evt rfl, hbk], .inr (by rw [hxb, hub, hd.buf rfl, hbb])⟩

theorem judgePewter_ports (kind number : Nat) (s : State) : PortsStandOrOff s (judgePewter kind number s) := by
  unfold judgePewter
  split
  · exact enterPewter_ports _ _ _ s
  · exact .refl s

/-! ### A device that is lost (R214) -/

theorem getElem_toList_eq {α : Type} (v : Vector α 8) : v.toList = (List.finRange 8).map (fun e => v[e]) := by
  refine List.ext_getElem (by simp) fun i h1 h2 => ?_
  simp

theorem lostCount_eq (v : Vector MemDev 8) : (v.toList.filter (fun x => x.lost)).length = (List.finRange 8).countP (fun e => v[e].lost) := by
  rw [getElem_toList_eq, List.filter_map, List.length_map, List.countP_eq_length_filter]
  rfl

theorem countP_eq_one_fin8 : ∀ d : Fin 8, (List.finRange 8).countP (fun e => e == d) = 1 := by decide

theorem two_le_countP_fin8 : ∀ d e : Fin 8, d ≠ e → 2 ≤ (List.finRange 8).countP (fun k => k == d || k == e) := by decide

/-- The devices with `d` gone. -/
def devGone (d : Fin 8) (cause : Nat) (v : Vector MemDev 8) : Vector MemDev 8 :=
  vmod v d (fun x => { x with lost := true, present := false, linkUp := false, active := false, cause := cause, width := 0 })

theorem lostCount_devGone_first {d : Fin 8} {v : Vector MemDev 8} (h : ∀ e : Fin 8, v[e].lost = false) (cause : Nat) :
    ((devGone d cause v).toList.filter (fun x => x.lost)).length = 1 := by
  rw [lostCount_eq, ← countP_eq_one_fin8 d]
  refine congrArg (fun g => List.countP g (List.finRange 8)) (funext fun e => ?_)
  by_cases he : e = d
  · subst he
    rw [beq_self_eq_true]
    exact congrArg MemDev.lost (vmod_same v e _)
  · rw [beq_eq_false_iff_ne.mpr he]
    exact (congrArg MemDev.lost (vmod_other v d e _ (Ne.symm he))).trans (h e)

theorem lostCount_devGone_second {d e : Fin 8} {v : Vector MemDev 8} (hd : v[d].lost = false) (he : v[e].lost = true) (cause : Nat) :
    2 ≤ ((devGone d cause v).toList.filter (fun x => x.lost)).length := by
  have hne : d ≠ e := fun h => Bool.false_ne_true (hd.symm.trans (h ▸ he))
  rw [lostCount_eq]
  refine Nat.le_trans (two_le_countP_fin8 d e hne) (List.countP_mono_left fun k _ hk => ?_)
  rcases Bool.or_eq_true_iff.mp hk with hk | hk
  · rw [beq_iff_eq.mp hk]
    exact congrArg MemDev.lost (vmod_same v d _)
  · rw [beq_iff_eq.mp hk]
    exact (congrArg MemDev.lost (vmod_other v d e _ hne)).trans he

/-- A lost device: marked and retired. -/
structure DeviceGone (d : Fin 8) (t : State) : Prop where
  lost : t.buf.dev[d].lost = true
  retired : t.retired 5 d.val = true
  active : t.buf.dev[d].active = false

theorem portsOff_dev (b : Buf) (d : Fin 8) : b.portsOff.dev[d] = { b.dev[d] with linkUp := false, active := false, width := 0, rate16 := false } :=
  Vector.getElem_map _ _

theorem DeviceGone.of_ports {d : Fin 8} {s t : State} (h : DeviceGone d s) (k : PortsStandOrOff s t) : DeviceGone d t where
  lost := by
    rcases k.buf with hb | hb
    · rw [hb]; exact h.lost
    · rw [hb, portsOff_dev]; exact h.lost
  retired := by unfold State.retired; rw [k.buckets]; exact h.retired
  active := by
    rcases k.buf with hb | hb
    · rw [hb]; exact h.active
    · rw [hb, portsOff_dev]

section
variable {d : Fin 8} {cause : Nat} {s : State}

/-- The machine once device `d` is marked lost, before what its loss ends. -/
def lossMarked (d : Fin 8) (cause : Nat) (s : State) : State :=
  raiseEv .memdevLost 0x4 d.val noInst (leBytes 1 d.val ++ leBytes 1 cause)
    (storeMap (setRetired 5 d.val true { s with buf := { s.buf with dev := devGone d cause s.buf.dev } }))

theorem lossMarked_buf (d : Fin 8) (cause : Nat) (s : State) : (lossMarked d cause s).buf = { s.buf with dev := devGone d cause s.buf.dev } :=
  (Frames.raiseEv_same (w := 0x30) rfl (Frames.storeMap_same rfl (Frames.setRetired_same rfl Frames.same_refl))).buf rfl

theorem lossMarked_glb (d : Fin 8) (cause : Nat) (s : State) : (lossMarked d cause s).glb = s.glb :=
  (Frames.raiseEv_same (w := 0x30) rfl (Frames.storeMap_same rfl (Frames.setRetired_same rfl Frames.same_refl))).glb rfl

theorem lossMarked_gone (d : Fin 8) (cause : Nat) (s : State) : DeviceGone d (lossMarked d cause s) where
  lost := by rw [lossMarked_buf]; exact congrArg MemDev.lost (vmod_same _ _ _)
  active := by rw [lossMarked_buf]; exact congrArg MemDev.active (vmod_same _ _ _)
  retired := by
    unfold State.retired lossMarked
    rw [raiseEv_buckets]
    exact congrArg Bucket.retired (vmod_same _ _ _)

variable (hl : s.buf.dev[d].lost = false)
include hl

/-- Buffer service ends: a second device, or the first of four. -/
theorem loseDevice_ends (h : s.buf.nDev ≤ 4 ∨ ∃ e : Fin 8, s.buf.dev[e].lost = true) :
    PortsStandOrOff { lossMarked d cause s with buf := { (lossMarked d cause s).buf with state := 5 } } (loseDevice d cause s) := by
  have hc : s.buf.nDev ≤ 4 ∨ 2 ≤ ((lossMarked d cause s).buf.dev.toList.filter (fun x => x.lost)).length := by
    rw [lossMarked_buf]
    exact h.imp_right fun ⟨e, he⟩ => lostCount_devGone_second hl he cause
  have heq : loseDevice d cause s = judgePewter 5 d.val { lossMarked d cause s with buf := { (lossMarked d cause s).buf with state := 5 } } := by
    refine (if_neg (by rw [hl]; exact Bool.false_ne_true)).trans (if_pos ?_)
    have hn : (lossMarked d cause s).buf.nDev = s.buf.nDev := by rw [lossMarked_buf]
    simp only [Bool.or_eq_true, decide_eq_true_eq]
    exact hc.imp_left fun h4 => Nat.le_trans (Nat.le_of_eq hn) h4
  rw [heq]
  exact judgePewter_ports _ _ _

/-- The first of more than four: service goes on. -/
theorem loseDevice_goesOn (hn : 4 < s.buf.nDev) (h : ∀ e : Fin 8, s.buf.dev[e].lost = false) :
    loseDevice d cause s = if s.buf.state = 3 then { lossMarked d cause s with buf := { (lossMarked d cause s).buf with state := 4 } } else lossMarked d cause s := by
  have hst : (lossMarked d cause s).buf.state = s.buf.state := by rw [lossMarked_buf]
  refine (if_neg (by rw [hl]; exact Bool.false_ne_true)).trans ((if_neg ?_).trans (by rw [← hst]; rfl))
  have hn' : (lossMarked d cause s).buf.nDev = s.buf.nDev := by rw [lossMarked_buf]
  have hone : ((lossMarked d cause s).buf.dev.toList.filter (fun x => x.lost)).length = 1 := by
    rw [lossMarked_buf]; exact lostCount_devGone_first h cause
  simp only [Bool.or_eq_true, decide_eq_true_eq]
  rintro (hle | hle)
  · exact absurd (Nat.le_trans (Nat.le_of_eq hn'.symm) hle) (by omega)
  · exact absurd (hone ▸ hle) (by decide)

/-- Either way the device is gone, and nothing that is stored is forgotten. -/
theorem loseDevice_keeps : DeviceGone d (loseDevice d cause s) ∧ (loseDevice d cause s).buf.stripes = s.buf.stripes
    ∧ (loseDevice d cause s).buf.damage = s.buf.damage ∧ (loseDevice d cause s).buf.mark = s.buf.mark
    ∧ (loseDevice d cause s).buf.nDev = s.buf.nDev := by
  have hgone := lossMarked_gone d cause s
  have hbuf := lossMarked_buf d cause s
  by_cases hn : s.buf.nDev ≤ 4 ∨ ∃ e : Fin 8, s.buf.dev[e].lost = true
  · have hk := loseDevice_ends (cause := cause) hl hn
    have hg : DeviceGone d { lossMarked d cause s with buf := { (lossMarked d cause s).buf with state := 5 } } := ⟨hgone.lost, hgone.retired, hgone.active⟩
    refine ⟨hg.of_ports hk, ?_⟩
    rcases hk.buf with h | h
    · rw [h]; dsimp only; rw [hbuf]; exact ⟨rfl, rfl, rfl, rfl⟩
    · rw [h]; dsimp only [Buf.portsOff]; rw [hbuf]; exact ⟨rfl, rfl, rfl, rfl⟩
  · obtain ⟨hn, hall⟩ := not_or.mp hn
    have hall : ∀ e : Fin 8, s.buf.dev[e].lost = false := fun e => Bool.eq_false_iff.mpr fun h => hall ⟨e, h⟩
    rw [loseDevice_goesOn hl (by omega) hall]
    split
    · exact ⟨⟨hgone.lost, hgone.retired, hgone.active⟩, by dsimp only; rw [hbuf]; exact ⟨rfl, rfl, rfl, rfl⟩⟩
    · exact ⟨hgone, by rw [hbuf]; exact ⟨rfl, rfl, rfl, rfl⟩⟩

end

/-! ### The fill begins anew (R218, R219) -/

/-- A machine whose buffer is `b`, with nothing held and nothing written over. -/
structure Emptied (b : Buf) (k : Vector Bucket 304) (s : State) : Prop where
  buf : s.buf = b
  held : s.pans.held = []
  overlaid : s.pans.overlaid = []
  buckets : s.evt.buckets = k

theorem relink_of_clean {s : State} (ho : s.pans.overlaid = []) (hd : s.buf.damage = []) (p : Fin 4) : relink p s = s := by
  unfold relink
  rw [ho, hd]; rfl

theorem emptied_settlePan {b : Buf} {k : Vector Bucket 304} {s : State} (h : Emptied b k s) (p : Fin 4) : Emptied b k (settlePan p s) := by
  have hbk := (settlePan_buckets p s).trans h.buckets
  obtain ⟨v, x, heq, -, -⟩ := PanManager.settlePan_frame p s
  rw [heq] at hbk ⊢
  exact ⟨h.buf, h.held, h.overlaid, hbk⟩

theorem emptied_modPan {b : Buf} {k : Vector Bucket 304} {s : State} (h : Emptied b k s) (p : Fin 4) (f : Pan → Pan) : Emptied b k (s.modPan p f) :=
  ⟨h.buf, h.held, h.overlaid, h.buckets⟩

theorem emptied_rebuildPan {b : Buf} {k : Vector Bucket 304} {s : State} (hd : b.damage = []) (h : Emptied b k s) (mark : Nat) (p : Fin 4) :
    Emptied b k (rebuildPan mark s p) := by
  unfold rebuildPan
  extract_lets a n
  have ha : Emptied b k a := emptied_modPan h _ _
  split
  · have hs : Emptied b k (settlePan p _) := emptied_settlePan (emptied_modPan ha p (fun q =>
      { q with filled := n, free := n
               list := if q.bitmap || n = 0 then [] else [{ first := panFirst a p + n - 1, count := n, down := true }] })) p
    rw [relink_of_clean hs.overlaid (by rw [hs.buf, hd])]
    exact hs
  · exact emptied_modPan ha _ _

theorem emptied_rebuildTable {s : State} (ho : s.pans.overlaid = []) (hd : s.buf.damage = []) : Emptied s.buf s.evt.buckets (rebuildTable s) := by
  unfold rebuildTable
  extract_lets _ a
  have ha : Emptied s.buf s.evt.buckets a := ⟨rfl, rfl, ho, rfl⟩
  exact List.foldlRecOn (motive := Emptied s.buf s.evt.buckets) allPans _ ha fun _ h p _ => emptied_rebuildPan hd h _ p

/-- The buffer as the fill finds it, with its new tag. -/
def filledAnew (s : State) : Buf :=
  let up := (List.range 8).filter (fun k => (List.finRange 8).any (fun d => s.buf.dev[d].linkUp && linkOf s d.val == k))
  { s.buf with
    mark := 0, sparesDone := false, remap := Vector.replicate 32 {}, remapFull := false, stripes := [], damage := [], fillTag := draw s 8
    rakePos := 0, rakeQueue := [], links := BitVec.ofNat 8 (up.foldl (fun a k => a + 2 ^ k) 0), state := 2
    dev := s.buf.dev.mapFinIdx (fun i x _ => if x.present then { x with tag := some (tagLine (draw s 8) i) } else x) }

/-- The machine before its pan table is built anew. -/
def fillStart (s : State) : State := { drawn 8 s with buf := filledAnew s, pans := { s.pans with written := [], overlaid := [] } }

theorem fillFromZero_empties (s : State) : Emptied (filledAnew s) s.evt.buckets (fillFromZero s) := by
  have htable : Emptied (filledAnew s) s.evt.buckets (rebuildTable (fillStart s)) :=
    emptied_rebuildTable (s := fillStart s) rfl rfl
  have hk := raiseEv_buckets .bufFillRestart 0x4 noRes noInst [] (rebuildTable (fillStart s))
  obtain ⟨x, hx⟩ := PanManager.raiseEv_frame .bufFillRestart 0x4 noRes noInst [] (rebuildTable (fillStart s))
  have heq : fillFromZero s = raiseEv .bufFillRestart 0x4 noRes noInst [] (rebuildTable (fillStart s)) := rfl
  rw [heq, hx]
  rw [hx] at hk
  exact ⟨htable.buf, htable.held, htable.overlaid, hk.trans htable.buckets⟩

theorem fillFromZero_freeCtr (s : State) : (fillFromZero s).freeCtr = (drawn 8 s).freeCtr :=
  (Frames.raiseEv_same (w := 0x60010) rfl (Frames.rebuildTable_same rfl (Frames.set_60000 rfl Frames.same_refl)) : Frames.Same 0x60010 (drawn 8 s) (fillFromZero s)).freeCtr rfl

theorem filledAnew_dev (s : State) (e : Fin 8) : (filledAnew s).dev[e]
    = if s.buf.dev[e].present then { s.buf.dev[e] with tag := some (tagLine (draw s 8) e.val) } else s.buf.dev[e] :=
  Vector.getElem_mapFinIdx _

/-! ### A loss in bring-up -/

theorem bringupSettle_other {s : State} (h : s.buf.state ≠ 1) : bringupSettle s = s := if_pos (by simp [h])

theorem bringupSettle_awaits {s : State} {e : Fin 8} (hn : e.val < s.buf.nDev) (ha : s.buf.dev[e].active = false) (hl : s.buf.dev[e].lost = false) :
    bringupSettle s = s := by
  refine if_pos ?_
  have hall : (List.finRange 8).all (fun d => decide (s.buf.nDev ≤ d.val) || s.buf.dev[d].active || s.buf.dev[d].lost) = false := by
    refine List.all_eq_false.mpr ⟨e, List.mem_finRange e, ?_⟩
    rw [ha, hl, decide_eq_false (by omega)]; decide
  rw [hall, Bool.not_false, Bool.or_true]

/-- Every device is accepted or absent. -/
theorem bringupSettle_all {s : State} (h1 : s.buf.state = 1) (hall : ∀ e : Fin 8, e.val < s.buf.nDev → s.buf.dev[e].active = true ∨ s.buf.dev[e].lost = true) :
    bringupSettle s = if fillResumes s then
      settleGrants (fillPans { s with buf := { s.buf with state := if s.buf.mark = s.usable && s.buf.sparesDone then readyState s else 2 } })
    else fillFromZero s := by
  have h : (List.finRange 8).all (fun d => decide (s.buf.nDev ≤ d.val) || s.buf.dev[d].active || s.buf.dev[d].lost) = true := by
    refine List.all_eq_true.mpr fun e _ => ?_
    by_cases hn : e.val < s.buf.nDev
    · rcases hall e hn with h | h <;> simp only [h, Bool.or_true, Bool.true_or]
    · rw [decide_eq_true (by omega)]; rfl
  exact if_neg (by rw [h]; simp [h1])

theorem fillResumes_of_lost {s : State} {d : Fin 8} (hn : d.val < s.buf.nDev) (hl : s.buf.dev[d].lost = true) : fillResumes s = false := by
  unfold fillResumes
  have hall : (List.finRange 8).all (fun d => decide (s.buf.nDev ≤ d.val)
      || (s.buf.dev[d].present && !s.buf.dev[d].lost && s.buf.dev[d].tagOk && s.buf.dev[d].media)) = false := by
    refine List.all_eq_false.mpr ⟨d, List.mem_finRange d, ?_⟩
    rw [hl, decide_eq_false (by omega)]; simp
  rw [hall, Bool.and_false]

theorem DeviceGone.fillFromZero {d : Fin 8} {s : State} (h : DeviceGone d s) : DeviceGone d (fillFromZero s) := by
  have he := fillFromZero_empties s
  refine ⟨?_, ?_, ?_⟩
  · rw [he.buf, filledAnew_dev]; split <;> exact h.lost
  · unfold State.retired; rw [he.buckets]; exact h.retired
  · rw [he.buf, filledAnew_dev]; split <;> exact h.active

theorem DeviceGone.bringupSettle {d : Fin 8} {s : State} (h : DeviceGone d s) (hn : d.val < s.buf.nDev) : DeviceGone d (bringupSettle s) := by
  unfold Machine.bringupSettle
  split
  · exact h
  · rw [fillResumes_of_lost hn h.lost]
    exact h.fillFromZero

theorem absentDev_gone {d : Fin 8} {s : State} (hn : d.val < s.buf.nDev) (hl : s.buf.dev[d].lost = false) : DeviceGone d (absentDev d s) :=
  have ⟨hgone, _, _, _, hnd⟩ := loseDevice_keeps (cause := 0) hl
  hgone.bringupSettle (hnd ▸ hn)

/-! ### The statements -/

/-- The machine once device `d` is accepted: its decoder committed and locked, its mailbox served and its tag line checked. -/
def deviceAccepted (d : Fin 8) (tagOk media : Bool) (s : State) : State :=
  { s with buf := { s.buf with dev := vmod s.buf.dev d (fun x =>
      { x with active := true, present := true, media := media, hdm := some (hdmOf s d), mail := bringupMail
               tagOk := tagOk && x.tag == some (tagLine s.buf.fillTag d.val) }) } }

section
variable {s : State} {d : Fin 8} (h1 : s.buf.state = 1) (hn : d.val < s.buf.nDev)
include h1 hn

theorem cxlLinkUp_taken {gts width : Nat} {mem single : Bool} (hl : s.buf.dev[d].lost = false) (hu : s.buf.dev[d].linkUp = false)
    (hp : s.buf.perstOff.getLsbD (linkOf s d.val / 4) = true) :
    ((gts < 16 ∨ mem = false ∨ single = false) → cxlLinkUp d gts width mem single s = absentDev d s)
    ∧ (16 ≤ gts → mem = true → single = true → cxlLinkUp d gts width mem single s =
        let u := { s with buf := { s.buf with dev := vmod s.buf.dev d (fun x => { x with linkUp := true, rate16 := decide (gts < 32), width := widthCode width }) } }
        if (decide (gts < 32) || decide (width < linkLanes s (linkOf s d.val))) = true then
          raiseEv .cxlDegraded 0x4 d.val noInst (leBytes 1 d.val ++ leBytes 1 (bit (decide (gts < 32))) ++ leBytes 1 (widthCode width)) u
        else u) := by
  have hc : ¬((decide (s.buf.state ≠ 1) || decide (s.buf.nDev ≤ d.val) || s.buf.dev[d].lost || s.buf.dev[d].linkUp
      || !s.buf.perstOff.getLsbD (linkOf s d.val / 4)) = true) := by
    rw [hl, hu, hp, h1, decide_eq_false (by omega : ¬s.buf.nDev ≤ d.val)]; decide
  refine ⟨fun h => (if_neg hc).trans (if_pos ?_), fun hg hm hs => (if_neg hc).trans ((if_neg ?_).trans rfl)⟩
  · rcases h with h | rfl | rfl <;> simp [*]
  · subst hm hs; simp; omega

theorem memoryActive_taken {gib : Nat} {tagOk media : Bool} (hu : s.buf.dev[d].linkUp = true) (ha : s.buf.dev[d].active = false) :
    memoryActive d gib tagOk media s = if gib < 2 ^ s.buf.cap * 16 then absentDev d s
      else bringupSettle (deviceAccepted d tagOk media s) := by
  refine if_neg ?_
  rw [hu, ha, h1, decide_eq_false (by omega : ¬s.buf.nDev ≤ d.val)]; decide

theorem bringupTimeout_taken (ha : s.buf.dev[d].active = false) (hl : s.buf.dev[d].lost = false) : bringupTimeout d s = absentDev d s := by
  refine if_neg ?_
  rw [hl, ha, h1, decide_eq_false (by omega : ¬s.buf.nDev ≤ d.val)]; decide

end

theorem DeviceGone.gives {d : Fin 8} {t : State} {o : Out} (ho : o = .next t) (h : DeviceGone d t) :
    Gives o fun t => t.buf.dev[d].lost = true ∧ t.retired 5 d.val = true ∧ t.buf.dev[d].active = false :=
  ⟨t, ho, h.lost, h.retired, h.active⟩

theorem perstRelease_taken {s : State} (h1 : s.buf.state = 1) : perstRelease s = { s with buf := { s.buf with
    perstOff := BitVec.ofNat 2 (bit ((List.range 4).any (fun i => s.buf.devLinks.getLsbD i)) + 2 * bit ((List.range 4).any (fun i => s.buf.devLinks.getLsbD (4 + i)))) } } := by
  refine (if_neg (by simp [h1])).trans ?_
  simp only [Nat.zero_add]

theorem memoryActive_settles {s : State} {d : Fin 8} {gib : Nat} {tagOk media : Bool} (h1 : s.buf.state = 1) (hn : d.val < s.buf.nDev)
    (hu : s.buf.dev[d].linkUp = true) (ha : s.buf.dev[d].active = false) (hg : 2 ^ s.buf.cap * 16 ≤ gib) :
    ((∃ e : Fin 8, e ≠ d ∧ e.val < s.buf.nDev ∧ s.buf.dev[e].active = false ∧ s.buf.dev[e].lost = false) →
      exec (.memoryActive d gib tagOk media) s = .next (deviceAccepted d tagOk media s))
    ∧ ((∀ e : Fin 8, e ≠ d → e.val < s.buf.nDev → s.buf.dev[e].active = true ∨ s.buf.dev[e].lost = true) →
      (fillResumes (deviceAccepted d tagOk media s) = false → Gives (exec (.memoryActive d gib tagOk media) s) fun t =>
        t.buf.state = 2 ∧ t.buf.mark = 0 ∧ t.buf.stripes = [] ∧ t.buf.damage = [] ∧ t.buf.fillTag = draw s 8 ∧ t.freeCtr = (drawn 8 s).freeCtr
          ∧ t.pans.held = [] ∧ (∀ i : Fin 32, t.buf.remap[i].valid = false)
          ∧ (∀ e : Fin 8, (deviceAccepted d tagOk media s).buf.dev[e].present = true → t.buf.dev[e].tag = some (tagLine (draw s 8) e.val)))
      ∧ (fillResumes (deviceAccepted d tagOk media s) = true → exec (.memoryActive d gib tagOk media) s =
          .next (settleGrants (fillPans { deviceAccepted d tagOk media s with buf := { (deviceAccepted d tagOk media s).buf with
            state := if s.buf.mark = s.usable ∧ s.buf.sparesDone = true then readyState (deviceAccepted d tagOk media s) else 2 } })))) := by
  have htake := (memoryActive_taken (gib := gib) (tagOk := tagOk) (media := media) h1 hn hu ha).trans (if_neg (by omega))
  have hdu : (deviceAccepted d tagOk media s).buf.dev[d].active = true := congrArg MemDev.active (vmod_same s.buf.dev d _)
  have hother (e : Fin 8) (he : e ≠ d) : (deviceAccepted d tagOk media s).buf.dev[e] = s.buf.dev[e] := vmod_other s.buf.dev d e _ (Ne.symm he)
  have hfields : (deviceAccepted d tagOk media s).buf.state = 1 ∧ (deviceAccepted d tagOk media s).buf.nDev = s.buf.nDev
      ∧ (deviceAccepted d tagOk media s).buf.mark = s.buf.mark ∧ (deviceAccepted d tagOk media s).usable = s.usable
      ∧ (deviceAccepted d tagOk media s).buf.sparesDone = s.buf.sparesDone ∧ draw (deviceAccepted d tagOk media s) 8 = draw s 8
      ∧ (drawn 8 (deviceAccepted d tagOk media s)).freeCtr = (drawn 8 s).freeCtr := ⟨h1, rfl, rfl, rfl, rfl, rfl, rfl⟩
  generalize deviceAccepted d tagOk media s = u at htake hdu hother hfields ⊢
  obtain ⟨hu1, hun, hum, huu, hus, hudraw, hudrawn⟩ := hfields
  refine ⟨fun ⟨e, hne, hen, hea, hel⟩ => congrArg Host.Outcome.next (htake.trans (bringupSettle_awaits (e := e) (hun ▸ hen) ?_ ?_)), fun hall => ?_⟩
  · rw [hother e hne, hea]
  · rw [hother e hne, hel]
  · have hsettle := bringupSettle_all hu1 fun e hen => by
      by_cases he : e = d
      · subst he; exact .inl hdu
      · rw [hother e he]; exact hall e he (hun ▸ hen)
    refine ⟨fun hr => ⟨_, congrArg Host.Outcome.next (htake.trans (hsettle.trans (if_neg (by rw [hr]; exact Bool.false_ne_true)))), ?_⟩, fun hr => ?_⟩
    · have he := fillFromZero_empties u
      dsimp only
      rw [he.buf]
      refine ⟨rfl, rfl, rfl, rfl, hudraw, (fillFromZero_freeCtr u).trans hudrawn, he.held, fun i => ?_, fun e hp => ?_⟩
      · exact congrArg Remap.valid (Vector.getElem_replicate _)
      · rw [filledAnew_dev, if_pos hp, hudraw]
    · refine congrArg Host.Outcome.next (htake.trans (hsettle.trans ((if_pos hr).trans ?_)))
      simp only [Bool.and_eq_true, decide_eq_true_eq, hum, huu, hus]

theorem bringUp : BringUp := by
  intro s d h1 hn
  refine ⟨congrArg Host.Outcome.next (perstRelease_taken h1), fun hl hu hp => ⟨fun gts width hg => ?_, fun gts width mem single h => ?_⟩,
    fun gib tagOk media hu ha hg => ?_, fun gib tagOk media hu ha hl hg => ?_, fun ha hl => ?_⟩
  · refine congrArg Host.Outcome.next (((cxlLinkUp_taken (mem := true) (single := true) h1 hn hl hu hp).2 hg rfl rfl).trans ?_)
    simp only [Bool.or_eq_true, decide_eq_true_eq]
  · exact DeviceGone.gives (congrArg Host.Outcome.next ((cxlLinkUp_taken h1 hn hl hu hp).1 h)) (absentDev_gone hn hl)
  · exact memoryActive_settles h1 hn hu ha hg
  · exact DeviceGone.gives (congrArg Host.Outcome.next ((memoryActive_taken h1 hn hu ha).trans (if_pos hg))) (absentDev_gone hn hl)
  · exact DeviceGone.gives (congrArg Host.Outcome.next (bringupTimeout_taken h1 hn ha hl)) (absentDev_gone hn hl)

/-- The intact bits once device `d` is lost by `cause`. -/
def linkDown (d : Fin 8) (cause : Fin 3) (s : State) : State :=
  if cause.val = 0 then { s with buf := { s.buf with links := s.buf.links &&& ~~~(BitVec.ofNat 8 (2 ^ linkOf s d.val)) } } else s

theorem linkDown_frame (d : Fin 8) (cause : Fin 3) (s : State) : linkDown d cause s = { s with buf := { s.buf with
    links := if cause.val = 0 then s.buf.links &&& ~~~(BitVec.ofNat 8 (2 ^ linkOf s d.val)) else s.buf.links } } := by
  unfold linkDown
  split <;> rfl

theorem memdevLost_keeps {s : State} {d : Fin 8} {cause : Fin 3} (hn : d.val < s.buf.nDev) (hu : s.buf.dev[d].linkUp = true)
    (hl : s.buf.dev[d].lost = false) (h1 : s.buf.state ≠ 1) : Gives (exec (.memdevLost d cause) s) fun t => t.buf.dev[d].lost = true ∧ t.retired 5 d.val = true
      ∧ t.buf.stripes = s.buf.stripes ∧ t.buf.damage = s.buf.damage ∧ t.buf.mark = s.buf.mark
      ∧ (4 < s.buf.nDev → (∀ e : Fin 8, s.buf.dev[e].lost = false) → s.buf.state ≠ 5 →
          t.buf.links = (if cause.val = 0 then s.buf.links &&& ~~~(BitVec.ofNat 8 (2 ^ linkOf s d.val)) else s.buf.links)
            ∧ t.buf.state = (if s.buf.state = 3 then 4 else s.buf.state) ∧ t.glb.mode = s.glb.mode)
      ∧ (s.buf.nDev ≤ 4 ∨ (∃ e : Fin 8, s.buf.dev[e].lost = true) → t.buf.state = 5) := by
  have heq : memdevLost d cause s = bringupSettle (loseDevice d cause.val (linkDown d cause s)) :=
    if_neg (by rw [hu, hl, decide_eq_false (by omega : ¬s.buf.nDev ≤ d.val)]; decide)
  have hframe := linkDown_frame d cause s
  generalize linkDown d cause s = r at heq hframe
  have hl' : r.buf.dev[d].lost = false := by rw [hframe]; exact hl
  have hndev : r.buf.nDev = s.buf.nDev := by rw [hframe]
  have hdevs (e : Fin 8) : r.buf.dev[e].lost = s.buf.dev[e].lost := by rw [hframe]
  have hst : r.buf.state = s.buf.state := by rw [hframe]
  have hends (h : s.buf.nDev ≤ 4 ∨ ∃ e : Fin 8, s.buf.dev[e].lost = true) : (loseDevice d cause.val r).buf.state = 5 := by
    rcases (loseDevice_ends (cause := cause.val) hl' (h.imp (fun h4 => Nat.le_trans (Nat.le_of_eq hndev) h4) fun ⟨e, he⟩ => ⟨e, (hdevs e).trans he⟩)).buf with hb | hb
    · rw [hb]
    · rw [hb]; rfl
  have hgoes (hn4 : 4 < s.buf.nDev) (hall : ∀ e : Fin 8, s.buf.dev[e].lost = false) :=
    loseDevice_goesOn (cause := cause.val) hl' (hndev ▸ hn4) fun e => (hdevs e).trans (hall e)
  obtain ⟨hgone, hstripes, hdamage, hmark, -⟩ := loseDevice_keeps (cause := cause.val) hl'
  have hstate (hn4 : 4 < s.buf.nDev) (hall : ∀ e : Fin 8, s.buf.dev[e].lost = false) :
      (loseDevice d cause.val r).buf.links = r.buf.links ∧ (loseDevice d cause.val r).buf.state = (if s.buf.state = 3 then 4 else s.buf.state)
        ∧ (loseDevice d cause.val r).glb.mode = s.glb.mode := by
    have hmode : r.glb.mode = s.glb.mode := by rw [hframe]
    have hbuf := lossMarked_buf d cause.val r
    have hglb := lossMarked_glb d cause.val r
    rw [hgoes hn4 hall, hst]
    split
    · exact ⟨by dsimp only; rw [hbuf], rfl, (congrArg Glb.mode hglb).trans hmode⟩
    · exact ⟨by rw [hbuf], by rw [hbuf, hst], (congrArg Glb.mode hglb).trans hmode⟩
  have hne : (loseDevice d cause.val r).buf.state ≠ 1 := by
    by_cases h : s.buf.nDev ≤ 4 ∨ ∃ e : Fin 8, s.buf.dev[e].lost = true
    · rw [hends h]; decide
    · obtain ⟨h4, hall⟩ := not_or.mp h
      rw [(hstate (by omega) fun e => Bool.eq_false_iff.mpr fun he => hall ⟨e, he⟩).2.1]
      split
      · decide
      · exact h1
  refine ⟨_, congrArg Host.Outcome.next (heq.trans (bringupSettle_other hne)), hgone.lost, hgone.retired, hstripes.trans (by rw [hframe]),
    hdamage.trans (by rw [hframe]), hmark.trans (by rw [hframe]), fun h4 hall _ => ?_, hends⟩
  obtain ⟨hlinks, hs, hm⟩ := hstate h4 hall
  exact ⟨hlinks.trans (by rw [hframe]), hs, hm⟩

theorem find_filtered_in {α : Type} {l : List (Nat × α)} {p lo hi : Nat} (h : lo ≤ p) (h' : p < hi) :
    (l.filter (fun x => decide (x.1 < lo) || decide (hi ≤ x.1))).find? (fun x => x.1 == p) = none := by
  refine List.find?_eq_none.mpr fun x hx hp => ?_
  have hx := (List.mem_filter.mp hx).2
  simp only [beq_iff_eq, Bool.or_eq_true, decide_eq_true_eq] at hp hx
  omega

theorem find_filtered_out {α : Type} {l : List (Nat × α)} {p lo hi : Nat} (h : p < lo) :
    (l.filter (fun x => decide (x.1 < lo) || decide (hi ≤ x.1))).find? (fun x => x.1 == p) = l.find? (fun x => x.1 == p) := by
  rw [List.find?_filter]
  refine congrArg (fun g => l.find? g) (funext fun x => ?_)
  by_cases hx : x.1 = p <;> simp [hx, h]

theorem lossAndFill : LossAndFill := by
  intro s d
  refine ⟨fun cause hn hu hl h1 => memdevLost_keeps hn hu hl h1, fun h2 hm => ?_, fun h2 hm => ?_, fun h2 => congrArg Host.Outcome.next (if_pos h2)⟩
  · refine ⟨congrArg Host.Outcome.next ((if_neg (not_not_intro h2)).trans (if_pos hm)), fun p hlo hhi => ⟨?_, ?_⟩, fun p hp => ⟨?_, ?_⟩⟩
    · unfold storedData; rw [find_filtered_in hlo hhi]; rfl
    · unfold damageOf; rw [find_filtered_in hlo hhi]; rfl
    · unfold storedData; rw [find_filtered_out hp]
    · unfold damageOf; rw [find_filtered_out hp]
  · exact congrArg Host.Outcome.next ((if_neg (not_not_intro h2)).trans (if_neg (by omega)))

end Sys2Proof.Machine

/-- Settles O53: an access to an UNFILLED stripe, the rake's visits, bring-up, and the loss and the fill of the memory devices. -/
theorem Sys2Proof.bufferUpkeep : Obligations.BufferUpkeep := ⟨unfilledStripes, rakeVisits, bringUp, lossAndFill⟩

end

section

/-! PROOFS. A write that fails again: the session that ends frees its datasets, and a grant of the ring parity path that is taken up
meanwhile lets the stripes of a member start a session anew (R131, R314). -/

open Sys2Proof Sys2Proof.Machine Sys2Proof.Claims

namespace Sys2Proof.Machine

/-- A member of a formed group whose failed session has a dataset in hand, while a grant of the ring parity path waits to be taken up and the
session of the group has been told to end. -/
def failedMember : State :=
  { Tests.live .append with
    fmt := { State.reset.fmt with
      sess := some { part := 0, session := 1, failed := true }, gateWanted := true, closedFrames := 64, recovery := 15
      written := [{ buf := { id := 1, kind := typeData, handle := some 0 }, dsn := 0, session := 1, first := true, vaultPos := 0, wrap := 0, startBit := 0
                    map := [], unpassed := [], order := 0 }] }
    chn.grp := { State.reset.chn.grp with state := 2, position := 1, stripes := [{ stripe := 0 }], sessionEnd := some 0 }
    pans.grants := [(reqParity, 0)] }

/-- Its gate has been shut longer than fence_frames, at the limit of recoveries. -/
theorem failedMember_shut : failedMember.fmt.gateWanted = true ∧ failedMember.fmt.gateOpen = false
    ∧ max 1 (fld failedMember.fmt.appendCfg 2 6) < failedMember.fmt.closedFrames ∧ failedMember.fmt.recovering = false
    ∧ fld failedMember.fmt.appendCfg 0 2 ≤ failedMember.fmt.recovery := by decide +kernel

/-- A session runs once the failed one has ended. -/
theorem failedMember_sess : (fenceTimeout failedMember).fmt.sess ≠ none := by decide +kernel

end Sys2Proof.Machine

/-- Refutes O49: in `failedMember` the session that has failed already ends, but freeing its dataset takes up the grant of the ring parity
path, and the member's stripes start the group's session at once, so a session runs afterwards. -/
theorem Sys2Proof.not_judgementAndRestarts : ¬ Obligations.JudgementAndRestarts := by
  intro h
  obtain ⟨-, -, -, hfailed, -⟩ := h.2 failedMember
  obtain ⟨hwanted, hopen, hlong, hrecovering, hlimit⟩ := failedMember_shut
  obtain ⟨t, ht, hsess, -⟩ := hfailed { part := 0, session := 1, failed := true } ⟨hwanted, hopen, hlong⟩ hrecovering rfl hlimit rfl
  have hst : fenceTimeout failedMember = t := Host.Outcome.next.inj ht
  exact failedMember_sess (hst ▸ hsess)

end

section

/-! PROOFS. Clock tracks lost and regained, and reading that goes on (R142, R143, R57, R160 to R162, R421). -/

open Sys2Proof Sys2Proof.Machine Sys2Proof.Claims

namespace Sys2Proof.Machine

/-! ### A gate that is shut stays shut while a write is given up -/

/-- Writing whose gate is shut stays so. -/
def StaysShut (s t : State) : Prop := s.fmt.gateOpen = false → t.fmt.gateOpen = false

theorem StaysShut.refl (s : State) : StaysShut s s := id

theorem StaysShut.trans {r s t : State} (h : StaysShut r s) (k : StaysShut s t) : StaysShut r t := fun h0 => k (h h0)

theorem StaysShut.of_eq {s t : State} (h : t.fmt.gateOpen = s.fmt.gateOpen) : StaysShut s t := h.trans

/-- An operation whose frame does not have the format state. -/
theorem StaysShut.of_same {w : BitVec 30} {s t : State} (h : Frames.Same w s t) (hw : w.getLsbD 13 = false) : StaysShut s t :=
  .of_eq (congrArg Fmt.gateOpen (h.fmt hw))

theorem staysShut_foldl {α : Type} {f : State → α → State} (hf : ∀ s a, StaysShut s (f s a)) (l : List α) (s : State) : StaysShut s (l.foldl f s) :=
  List.foldlRecOn (motive := StaysShut s) l f (.refl s) fun _ h a _ => h.trans (hf _ a)

theorem StaysShut.of_if {p : Prop} [Decidable p] {s a b : State} (ha : StaysShut s a) (hb : StaysShut s b) : StaysShut s (if p then a else b) := by
  split
  · exact ha
  · exact hb

theorem staysShut_sendPayload (h : HeldDs) (s : State) : StaysShut s (sendPayload h s) :=
  .of_same (Frames.sendPayload_same Frames.sub_refl Frames.same_refl) rfl

theorem staysShut_stripeDs (d : DsBuf) (s : State) : StaysShut s (stripeDs d s) := by
  unfold stripeDs
  extract_lets _ _ _ _ _ _ _ _ _ _ _ b
  have hb : StaysShut s b := .of_if (.of_eq rfl) (.of_eq rfl)
  exact hb.trans (staysShut_sendPayload _ b)

theorem staysShut_joinQueue (d : DsBuf) (s : State) : StaysShut s (joinQueue d s) := by
  unfold joinQueue
  split
  · exact staysShut_stripeDs d s
  · exact .of_eq rfl

theorem staysShut_closeDs (id : Nat) (s : State) : StaysShut s (closeDs id s) := by
  unfold closeDs
  split
  · exact .refl s
  · exact fun h => staysShut_joinQueue _ _ h

theorem staysShut_padStripe (x : Stream) (pos : Nat) (s : State) : StaysShut s (padStripe x pos s) := by
  unfold padStripe
  split
  · exact .refl s
  · refine staysShut_foldl (fun a _ => ?_) _ s
    split
    · exact .refl a
    · extract_lets d
      have ha : StaysShut a { a with nextId := a.nextId + 1 } := .of_eq rfl
      exact ha.trans (staysShut_stripeDs d _)

theorem staysShut_popItem (sid : Nat) (s : State) : StaysShut s (popItem sid s) := .of_eq rfl

theorem staysShut_pumpOne (sid : Nat) (s : State) : StaysShut s (pumpOne sid s) := by
  unfold pumpOne
  split
  · exact .refl s
  · split
    · exact .of_if (.of_eq rfl) (staysShut_closeDs _ s)
    · exact (staysShut_closeDs _ s).trans ((staysShut_padStripe _ _ _).trans (staysShut_popItem sid _))
    · exact (staysShut_padStripe _ _ s).trans (staysShut_popItem sid _)
    · exact .refl s

theorem staysShut_pump (sid : Nat) (s : State) : StaysShut s (pump sid s) := by
  unfold pump
  split
  · exact .refl s
  · exact (staysShut_foldl (fun s _ => staysShut_pumpOne sid s) _ s).trans (.of_same (Frames.noteWaits_same Frames.sub_refl Frames.same_refl) rfl)

theorem staysShut_releaseHandle (r h : Nat) (s : State) : StaysShut s (releaseHandle r h s) :=
  .of_same (Frames.releaseHandle_same Frames.sub_refl Frames.same_refl) rfl

theorem staysShut_openDs (sid handle : Nat) (s : State) : StaysShut s (openDs sid handle s) := by
  unfold openDs
  split
  · exact staysShut_releaseHandle _ _ s
  · exact fun h => staysShut_pump sid _ h

theorem staysShut_handOver (r h dest : Nat) (s : State) : StaysShut s (onBehalf (panHandoff r h dest) s) :=
  .of_same (w := 0x20010) (Frames.onBehalf_same rfl (fun _ hk => Frames.panHandoff_same rfl hk) Frames.same_refl) rfl

theorem staysShut_blkSealed (e id handle : Nat) (s : State) : StaysShut s (blkSealed e id handle s) := by
  unfold blkSealed
  split
  · exact staysShut_releaseHandle _ _ s
  · extract_lets x a _ b c d e f
    have ha : StaysShut s b := .of_same (w := 0x60000) (Frames.set_20000 rfl (Frames.freshStripes_same rfl Frames.same_refl)) rfl
    have hc : StaysShut b c := staysShut_handOver _ _ _ b
    have hf : StaysShut c f := .of_same (w := 0x980) (Frames.State_modInst_same rfl (Frames.State_modCmd_same rfl (Frames.State_modBlk_same rfl Frames.same_refl))) rfl
    exact ((ha.trans hc).trans hf).trans (staysShut_pump _ f)

theorem staysShut_joinStripe (s : State) : StaysShut s (joinStripe s) := by
  unfold joinStripe
  split
  · exact .refl s
  · dsimp only
    split
    · exact .of_eq rfl
    · exact .of_eq rfl

theorem staysShut_endStripes (s : State) : StaysShut s (endStripes s) := by
  unfold endStripes
  split
  · exact .refl s
  · split
    · exact .refl s
    · dsimp only
      split
      · exact .of_eq rfl
      · exact .of_eq rfl

theorem staysShut_settleStripes (s : State) : StaysShut s (settleStripes s) := by
  unfold settleStripes
  split
  · exact .refl s
  · refine .trans ?_ (.trans (staysShut_foldl (fun s _ => staysShut_joinStripe s) _ _) (staysShut_endStripes _))
    exact staysShut_foldl (fun s _ => .of_same (w := 0x2000000) (Frames.tellPos_same rfl (Frames.set_2000000 rfl Frames.same_refl)) rfl) _ s

theorem staysShut_takeUp (s : State) (g : Nat × Nat) : StaysShut s (takeUp s g) := by
  unfold takeUp
  extract_lets _ a x b
  have ha : StaysShut s a := .of_eq rfl
  have hb : StaysShut a b := (StaysShut.of_same (Frames.freshStripes_same Frames.sub_refl Frames.same_refl) rfl).trans (staysShut_handOver _ _ _ _)
  split
  · split
    · exact fun h => staysShut_openDs _ _ _ h
    · exact .refl s
  · split
    · split
      · exact (ha.trans hb).trans fun h => staysShut_settleStripes _ h
      · exact .refl s
    · split
      · split
        · exact .of_eq rfl
        · exact fun h => staysShut_releaseHandle _ _ _ h
      · split
        · exact fun h => staysShut_blkSealed _ _ _ _ h
        · exact .refl s

theorem staysShut_settleGrants (s : State) : StaysShut s (settleGrants s) :=
  (staysShut_foldl staysShut_takeUp _ s).trans (.of_same (Frames.dispatch_same Frames.sub_refl Frames.same_refl) rfl)

theorem staysShut_giveBack (h : Option Nat) (s : State) : StaysShut s (giveBack h s) := by
  unfold giveBack
  split
  · exact (staysShut_releaseHandle _ _ s).trans (staysShut_settleGrants _)
  · exact .refl s

theorem staysShut_beginStop (s : State) : StaysShut s (beginStop s) := by
  unfold beginStop
  split
  · exact .of_eq rfl
  · exact .refl s

theorem staysShut_beginMove (why : MoveFor) (stay : Bool) (s : State) : StaysShut s (beginMove why stay s) := by
  have hmode : StaysShut s (if stay then s else setMode .locate s) :=
    .of_if (.refl s) (.of_same (Frames.setMode_same Frames.sub_refl Frames.same_refl) rfl)
  unfold beginMove
  exact hmode.trans (.trans (.of_same (Frames.startLoops_same Frames.sub_refl Frames.same_refl) rfl) (.of_eq rfl))

theorem staysShut_toCommitPoint (s : State) : StaysShut s (toCommitPoint s) := by
  have stop : StaysShut s (beginStop (dropGates { s with fmt.dropDue := false })) := fun _ => staysShut_beginStop _ rfl
  unfold toCommitPoint
  dsimp only
  split
  · exact stop.trans (staysShut_beginMove _ _ _)
  · exact stop.trans (.of_eq rfl)

theorem staysShut_dropUnwritten (s : State) : StaysShut s (dropUnwritten s) := by
  have h : StaysShut s { s with fmt.asm := [], fmt.queue := [] } := .of_eq rfl
  exact h.trans (staysShut_foldl (fun s (d : DsBuf) => staysShut_giveBack d.handle s) _ _)

theorem staysShut_failStreams (st : Status) (s : State) : StaysShut s (failStreams st s) := by
  unfold failStreams
  extract_lets xs ids a gone b c
  have ha : StaysShut s a := staysShut_foldl (fun s x => .of_same (w := 0x80005c0) (Frames.cutStream_same rfl (Frames.failAll_same rfl Frames.same_refl)) rfl) _ s
  have hb : StaysShut a b := .of_same (Frames.discardBlocks_same Frames.sub_refl Frames.same_refl) rfl
  refine ((ha.trans hb).trans (.of_eq rfl)).trans (staysShut_foldl (fun s x => ?_) gone c)
  split
  · exact staysShut_giveBack _ s
  · exact .refl s

theorem staysShut_powerFor (m : Mode) (s : State) : StaysShut s (powerFor m s) := .of_same (Frames.powerFor_same Frames.sub_refl Frames.same_refl) rfl

theorem staysShut_failGroup (s : State) : StaysShut s (failGroup s) := by
  unfold failGroup
  split
  · exact .refl s
  · split
    · extract_lets a keep gone _ _ b c d
      have ha : StaysShut s a := .of_same (Frames.raiseEv_same Frames.sub_refl Frames.same_refl) rfl
      have hc : StaysShut a c := .trans (s := b) (.of_eq rfl) ((staysShut_dropUnwritten b).trans (staysShut_failStreams _ _))
      have hd : StaysShut c d := staysShut_foldl (fun s x => staysShut_giveBack _ s) _ _
      exact ((ha.trans hc).trans hd).trans fun h => staysShut_powerFor _ _ h
    · exact fun h => staysShut_foldl (fun s x => staysShut_giveBack _ s) _ _ (staysShut_powerFor _ _ h)

theorem staysShut_unloadNow (c : Cmd) (s : State) : StaysShut s (unloadNow c s) := by
  unfold unloadNow
  split
  · have records := Frames.State_modCmd_same (x1 := none) (x2 := c.uid) (x3 := fun c => { c with phase := .unloadWait }) (w := 0x101c0)
      rfl (Frames.writeDir_same rfl (Frames.writeCm_same (x0 := cmPreset) (x1 := newPreset s) rfl (Frames.same_refl (r := s))))
    exact (StaysShut.of_same records rfl).trans (staysShut_beginMove _ _ _)
  · exact .of_same (Frames.mEnd_same Frames.sub_refl Frames.same_refl) rfl

theorem staysShut_afterSession (s : State) : StaysShut s (afterSession s) :=
  staysShut_foldl (fun s c => .of_if (staysShut_unloadNow c s) (.refl s)) _ s

theorem staysShut_endFailed (w : WSession) (s : State) : StaysShut s (endFailed w s) := by
  unfold endFailed
  extract_lets a held _ _ b c
  have hb : StaysShut s b := fun _ => staysShut_beginStop _ rfl
  have hc : StaysShut b c := staysShut_foldl (fun s w => staysShut_giveBack _ s) _ _
  have hm : StaysShut c (settleWaits (setMode .threaded c)) :=
    .of_same (Frames.settleWaits_same (w := 0x80005c6) rfl (Frames.setMode_same rfl Frames.same_refl)) rfl
  exact ((hb.trans hc).trans hm).trans (staysShut_afterSession _)

theorem staysShut_failWrite (st : Status) (s : State) : StaysShut s (failWrite st s) := by
  unfold failWrite
  split
  · exact .refl s
  next w _ =>
    split
    · exact staysShut_endFailed w s
    · extract_lets held u a b c d e
      have ha : StaysShut s a := fun h => staysShut_failStreams _ _ (staysShut_dropUnwritten _ h)
      have hb : StaysShut a b := staysShut_foldl (fun s w => staysShut_giveBack _ s) _ _
      have hc : StaysShut b c := .of_same (Frames.raiseEv_same Frames.sub_refl Frames.same_refl) rfl
      have hd : StaysShut c d := .of_if (.refl c) (.of_if
        (.trans (.of_same (Frames.tellAll_same Frames.sub_refl Frames.same_refl) rfl) (staysShut_failGroup _))
        (.of_same (Frames.tellPos_same Frames.sub_refl Frames.same_refl) rfl))
      clear_value a b c d
      have he := staysShut_toCommitPoint { d with fmt.sess := some e, fmt.nextDsn := d.fmt.commitDsn, fmt.recovery := 0 }
      exact ((((ha.trans hb).trans hc).trans hd).trans fun h => he h).trans (.of_same (Frames.settleWaits_same Frames.sub_refl Frames.same_refl) rfl)

theorem staysShut_startRecovery (f : Bool) (s : State) : StaysShut s (startRecovery f s) := by
  unfold startRecovery
  split
  · exact .refl s
  · split
    · exact staysShut_failWrite _ s
    · extract_lets _ a b
      have hb : StaysShut s b := .trans (s := a) (.of_eq rfl) (.of_same (Frames.raiseEv_same Frames.sub_refl Frames.same_refl) rfl)
      clear_value b
      split
      · exact hb.trans (.of_eq rfl)
      · exact hb.trans (staysShut_toCommitPoint _)

/-- A gate that drops is shut afterwards. -/
theorem gateDrop_shut (s : State) : (gateDrop s).fmt.gateOpen = false := by
  unfold gateDrop
  split
  next h => exact Bool.not_eq_true' _ |>.mp h
  next =>
    dsimp only
    split
    · rfl
    · split
      · exact staysShut_startRecovery true _ rfl
      · obtain ⟨ps, h⟩ := markTier_frame { s with fmt.gateOpen := false, fmt.closedFrames := 0 }
        rw [h]

/-! ### Clock tracks (R142, R143) -/

section
variable {s : State}

/-- The read-data state once the input of clock track `b` is lost. -/
def inputsAfter (b : Bool) (q : Rdc) : Rdc := { q with lockA := q.lockA && b, lockB := q.lockB && !b, losses := satInc 65535 q.losses }

/-- The loss of an input, counted and told. -/
def inputLost (b : Bool) (s : State) : State := raiseEv .ctLost 0xB noRes noInst (leBytes 1 (bit b)) { s with rdc := inputsAfter b s.rdc }

theorem inputLost_same (b : Bool) (s : State) : Frames.Same 0x10 { s with rdc := inputsAfter b s.rdc } (inputLost b s) :=
  Frames.raiseEv_same Frames.sub_refl Frames.same_refl

theorem inputsAfter_other (b : Bool) (q : Rdc) (one : (if b then q.lockB else q.lockA) = true) (other : (if b then q.lockA else q.lockB) = true) :
    inputsAfter b q = { q with lockA := b, lockB := !b, losses := satInc 65535 q.losses } := by
  cases b
  · simp only [Bool.false_eq_true, if_false] at one other; simp [inputsAfter, other]
  · simp only [if_true] at one other; simp [inputsAfter, other]

theorem inputsAfter_none (b : Bool) (q : Rdc) (other : (if b then q.lockA else q.lockB) = false) :
    inputsAfter b q = { q with lockA := false, lockB := false, losses := satInc 65535 q.losses } := by
  cases b
  · simp only [Bool.false_eq_true, if_false] at other; simp [inputsAfter, other]
  · simp only [if_true] at other; simp [inputsAfter, other]

theorem map_acquire_sync (v : Vector RChan 128) (onTone moved : Bool) (n : Int) (k : Chan) :
    (v.map (RChan.acquire onTone moved n))[k].sync = .acquisition := by
  rw [Fin.getElem_fin, Vector.getElem_map]; rfl

theorem all_stopped_iff (v : Vector RChan 128) : v.toList.all (fun r => r.sync == .stopped) = true ↔ ∀ k : Chan, v[k].sync = .stopped := by
  rw [List.all_eq_true]
  refine ⟨fun h k => ?_, fun h r hr => ?_⟩
  · have := h v[k] (by simp)
    exact beq_iff_eq.mp this
  · obtain ⟨i, hi, rfl⟩ := List.getElem_of_mem hr
    have := h ⟨i, by simpa using hi⟩
    simpa using this

theorem acquired (onTone moved : Bool) (s : State) (k : Chan) : (enterAcquisition onTone moved s).rch[k].sync = .acquisition :=
  map_acquire_sync _ _ _ _ k

theorem acquireAll_framing (s : State) (k : Chan) : (acquireAll s).rch[k].framing = false := by
  have h : (acquireAll s).rch[k] = RChan.acquire true true (commonCount s) s.rch[k] := Vector.getElem_map _ _
  rw [h]; exact Bool.and_false _

/-- Both inputs lost: holdover. -/
def holdoverBegun (s : State) : State :=
  { s with rdc := { s.rdc with holdover := true, holdLeft := max 1 (fld s.rdc.clkCfg 0 4) } }

variable {b : Bool}

theorem ctLost_one (one : (if b then s.rdc.lockB else s.rdc.lockA) = true) (other : (if b then s.rdc.lockA else s.rdc.lockB) = true) :
    ctLost b s = inputLost b s := by
  refine (if_neg (by rw [one]; decide)).trans (if_pos ?_)
  have hl := (inputLost_same b s).rdc rfl
  refine (congrArg (fun q : Rdc => (q.lockA || q.lockB)) hl).trans ?_
  rw [inputsAfter_other b _ one other]
  cases b <;> rfl

theorem ctLost_both (one : (if b then s.rdc.lockB else s.rdc.lockA) = true) (other : (if b then s.rdc.lockA else s.rdc.lockB) = false) :
    ctLost b s = if (holdoverBegun (inputLost b s)).glb.mode = .append then
        gateDrop { holdoverBegun (inputLost b s) with fmt := { (holdoverBegun (inputLost b s)).fmt with ctGate := true } }
      else holdoverBegun (inputLost b s) := by
  refine (if_neg (by rw [one]; decide)).trans (if_neg ?_)
  have hl := (inputLost_same b s).rdc rfl
  refine fun h => Bool.false_ne_true (Eq.trans (Eq.symm ?_) h)
  refine (congrArg (fun q : Rdc => (q.lockA || q.lockB)) hl).trans ?_
  rw [inputsAfter_none b _ other]; rfl

theorem holdoverBegun_rdc (other : (if b then s.rdc.lockA else s.rdc.lockB) = false) : (holdoverBegun (inputLost b s)).rdc =
    { s.rdc with lockA := false, lockB := false, losses := satInc 65535 s.rdc.losses, holdover := true, holdLeft := max 1 (fld s.rdc.clkCfg 0 4) } := by
  have hl := (inputLost_same b s).rdc rfl
  refine (congrArg (fun q : Rdc => { q with holdover := true, holdLeft := max 1 (fld q.clkCfg 0 4) }) hl).trans ?_
  dsimp only
  rw [inputsAfter_none b _ other]

theorem ctLost_holdover (one : (if b then s.rdc.lockB else s.rdc.lockA) = true) (other : (if b then s.rdc.lockA else s.rdc.lockB) = false)
    (hm : s.glb.mode ≠ .append) : Gives (exec (.ctLost b) s) fun t => t.rdc =
      { s.rdc with lockA := false, lockB := false, losses := satInc 65535 s.rdc.losses, holdover := true, holdLeft := max 1 (fld s.rdc.clkCfg 0 4) }
      ∧ t.fmt = s.fmt ∧ t.rch = s.rch := by
  have hs := inputLost_same b s
  have hmode : (holdoverBegun (inputLost b s)).glb.mode = s.glb.mode := congrArg Glb.mode (hs.glb rfl)
  exact ⟨_, congrArg Host.Outcome.next ((ctLost_both one other).trans (if_neg (by rw [hmode]; exact hm))), holdoverBegun_rdc other, hs.fmt rfl, hs.rch rfl⟩

theorem ctLost_append (one : (if b then s.rdc.lockB else s.rdc.lockA) = true) (other : (if b then s.rdc.lockA else s.rdc.lockB) = false)
    (hm : s.glb.mode = .append) : Gives (exec (.ctLost b) s) fun t => t.rdc =
      { s.rdc with lockA := false, lockB := false, losses := satInc 65535 s.rdc.losses, holdover := true, holdLeft := max 1 (fld s.rdc.clkCfg 0 4) }
      ∧ t.fmt.gateOpen = false ∧ t.rch = s.rch := by
  have hs := inputLost_same b s
  have hr := holdoverBegun_rdc other
  have hrch : (holdoverBegun (inputLost b s)).rch = s.rch := hs.rch rfl
  have hmode : (holdoverBegun (inputLost b s)).glb.mode = s.glb.mode := congrArg Glb.mode (hs.glb rfl)
  have heq := (ctLost_both one other).trans (if_pos (by rw [hmode]; exact hm))
  generalize holdoverBegun (inputLost b s) = u at hr hrch heq
  have hg := Frames.gateDrop_same Frames.sub_refl (Frames.same_refl (r := { u with fmt := { u.fmt with ctGate := true } }))
  exact ⟨_, congrArg Host.Outcome.next heq, (hg.rdc rfl).trans hr, gateDrop_shut _, (hg.rch rfl).trans hrch⟩

/-- The machine once the input of clock track `b` is back, before channels acquire. -/
def inputBack (b : Bool) (s : State) : State :=
  { s with rdc := { s.rdc with lockA := s.rdc.lockA || !b, lockB := s.rdc.lockB || b, holdover := false } }

theorem inputBack_locks (b : Bool) (s : State) : ((inputBack b s).rdc.lockA && (inputBack b s).rdc.lockB) = (if b then s.rdc.lockA else s.rdc.lockB) := by
  cases b <;> simp [inputBack]

theorem ctRegained_eq (b : Bool) (s : State) : ctRegained b s =
    let u := if (s.rch.toList.all (fun r => r.sync == .stopped) && (s.glb.mode == .append || s.glb.mode == .retrieve)) = true then reacquire (inputBack b s) else inputBack b s
    { u with fmt := { u.fmt with ctGate := u.fmt.ctGate && !(u.rdc.lockA && u.rdc.lockB) } } := rfl

theorem ctRegained_idle (ha : s.glb.mode ≠ .append) (hr : s.glb.mode ≠ .retrieve) : ctRegained b s =
    { s with rdc := { s.rdc with lockA := s.rdc.lockA || !b, lockB := s.rdc.lockB || b, holdover := false }
             fmt := { s.fmt with ctGate := s.fmt.ctGate && !(if b then s.rdc.lockA else s.rdc.lockB) } } := by
  rw [ctRegained_eq, if_neg (by simp [ha, hr])]
  dsimp only
  rw [inputBack_locks]; rfl

theorem ctRegained_taped (hm : s.glb.mode = .append ∨ s.glb.mode = .retrieve) : Gives (exec (.ctRegained b) s) fun t =>
    t.rdc.lockA = (s.rdc.lockA || !b) ∧ t.rdc.lockB = (s.rdc.lockB || b) ∧ t.rdc.holdover = false
      ∧ t.fmt = { s.fmt with ctGate := s.fmt.ctGate && !(if b then s.rdc.lockA else s.rdc.lockB) }
      ∧ ((∃ k : Chan, s.rch[k].sync ≠ .stopped) → t.rch = s.rch)
      ∧ ((∀ k : Chan, s.rch[k].sync = .stopped) → ∀ k : Chan, t.rch[k].sync = .acquisition) := by
  refine ⟨_, congrArg Host.Outcome.next (ctRegained_eq b s), ?_⟩
  have hmode : (s.glb.mode == .append || s.glb.mode == .retrieve) = true := by simpa using hm
  rw [hmode, Bool.and_true]
  dsimp only
  rw [← inputBack_locks b s]
  split
  next h =>
    have h := (all_stopped_iff s.rch).mp h
    exact ⟨rfl, rfl, rfl, rfl, fun ⟨k, hk⟩ => absurd (h k) hk, fun _ k => acquired _ _ _ k⟩
  next h =>
    exact ⟨rfl, rfl, rfl, rfl, fun _ => rfl, fun hall => absurd ((all_stopped_iff s.rch).mpr hall) h⟩

end

theorem clockTracks : ClockTracks := by
  intro b s one other held
  refine ⟨fun h => congrArg Host.Outcome.next (if_pos (by rw [Bool.not_eq_true']; exact h)), fun h1 h2 => ?_, ctLost_holdover, ctLost_append, ctRegained_taped,
    fun ha hr => congrArg Host.Outcome.next (ctRegained_idle ha hr), fun h0 hz => congrArg Host.Outcome.next (if_neg (by simp [h0, hz])),
    fun h => congrArg Host.Outcome.next (if_pos (by rcases h with h | h <;> simp [h])), fun z hm => ?_,
    fun z ha hr => congrArg Host.Outcome.next (if_neg (by simp [ha, hr]))⟩
  · have hs := inputLost_same b s
    refine ⟨_, congrArg Host.Outcome.next (ctLost_one h1 h2), (hs.rdc rfl).trans (inputsAfter_other b _ h1 h2), hs.fmt rfl, hs.rch rfl, ?_⟩
    exact PanManager.raiseEv_evt_congr (s := s) (t := { s with rdc := inputsAfter b s.rdc }) rfl rfl .ctLost 0xB noRes noInst (leBytes 1 (bit b))
  · have heq : synthLock z s = acquireAll (coldStartAll z.val { s with rdc.zone := z.val }) := if_pos (by simpa using hm)
    have hc := Frames.coldStartAll_same (x0 := z.val) Frames.sub_refl (Frames.same_refl (r := { s with rdc.zone := z.val }))
    have hzone := congrArg Rdc.zone (hc.rdc rfl)
    have hfmt := hc.fmt rfl
    have hrtv := hc.rtv rfl
    generalize coldStartAll z.val { s with rdc.zone := z.val } = u at heq hzone hfmt hrtv
    exact ⟨_, congrArg Host.Outcome.next heq, hzone, fun k => ⟨acquired _ _ u k, acquireAll_framing u k⟩, hfmt, hrtv⟩

end Sys2Proof.Machine

end

section

/-! PROOFS. Positions reached, and reading that goes on (R57, R130, R160 to R162, R421). -/

open Sys2Proof Sys2Proof.Machine Sys2Proof.Claims

namespace Sys2Proof.Machine

/-! ### A position reached -/

/-- The machine as writing begins, before its channels acquire. -/
def gateAsked (s : State) : State :=
  let u := enterZone (zoneOf s.fmt.wrap) (setMode .append s)
  { u with fmt := { u.fmt with
      motion := .running, moveFor := .none, gateWanted := true, gateOpen := u.srv.gateOk && !u.fmt.ctGate, closedFrames := 0, stopped := false }
           srv.forward := wrapForward u.fmt.wrap, rdc.zone := zoneOf u.fmt.wrap }

/-- The machine at its new speed, the tape on its way to it. -/
def atSpeed (code : Nat) (s : State) : State :=
  let u := setSpeed code s
  { u with mot.target := speedMm u.fmt.spCur * 1000 }

theorem openGate_eq (s : State) : openGate s = atSpeed (writeSpeed (gateAsked s)) (acquireAll (gateAsked s)) := rfl

theorem atSpeed_same (code : Nat) (s : State) : Frames.Same 0x1002010 s (atSpeed code s) :=
  Frames.set_1000000 rfl (Frames.setSpeed_same rfl Frames.same_refl)

theorem atSpeed_fmt (code : Nat) (s : State) : ∃ n, (atSpeed code s).fmt = { s.fmt with spCur := code, spSeq := n } := setSpeed_fmt code s

theorem zoneEntered_same (z : Nat) (m : Mode) (s : State) : Frames.Same 0x100006 s (enterZone z (setMode m s)) :=
  Frames.enterZone_same rfl (Frames.setMode_same rfl Frames.same_refl)

theorem openGate_fields {s : State} : (openGate s).glb.mode = .append ∧ (openGate s).fmt.motion = .running ∧ (openGate s).fmt.gateWanted = true
    ∧ (openGate s).fmt.gateOpen = (s.srv.gateOk && !s.fmt.ctGate) ∧ (openGate s).srv.forward = wrapForward (openGate s).fmt.wrap
    ∧ (openGate s).mot.target = speedMm (openGate s).fmt.spCur * 1000 ∧ (∀ k : Chan, (openGate s).rch[k].sync = .acquisition) := by
  have hz := zoneEntered_same (zoneOf s.fmt.wrap) .append s
  have hmode : (enterZone (zoneOf s.fmt.wrap) (setMode .append s)).glb.mode = .append :=
    (congrArg Glb.mode ((Frames.enterZone_same (w := 0x100000) rfl Frames.same_refl).glb rfl)).trans (setMode_mode .append s)
  have hfmt := hz.fmt rfl
  have hsrv := hz.srv rfl
  have hgate : (gateAsked s).fmt.gateOpen = ((enterZone (zoneOf s.fmt.wrap) (setMode .append s)).srv.gateOk
      && !(enterZone (zoneOf s.fmt.wrap) (setMode .append s)).fmt.ctGate) := rfl
  have hasked : (gateAsked s).glb.mode = .append ∧ (gateAsked s).fmt.motion = .running ∧ (gateAsked s).fmt.gateWanted = true
      ∧ (gateAsked s).fmt.gateOpen = (s.srv.gateOk && !s.fmt.ctGate) ∧ (gateAsked s).srv.forward = wrapForward (gateAsked s).fmt.wrap :=
    ⟨hmode, rfl, rfl, hgate.trans (by rw [hsrv, hfmt]), rfl⟩
  rw [openGate_eq]
  generalize gateAsked s = u at hasked
  obtain ⟨h1, h2, h3, h4, h5⟩ := hasked
  have hacq : ∀ k : Chan, (acquireAll u).rch[k].sync = .acquisition := acquired true true u
  have ha : Frames.Same 0x300000 u (acquireAll u) := Frames.acquireAll_same Frames.sub_refl Frames.same_refl
  generalize acquireAll u = v at hacq ha
  have hs := atSpeed_same (writeSpeed u) v
  obtain ⟨n, hf⟩ := atSpeed_fmt (writeSpeed u) v
  rw [hs.glb rfl, ha.glb rfl, hf, ha.fmt rfl, hs.srv rfl, ha.srv rfl, hs.rch rfl]
  exact ⟨h1, h2, h3, h4, h5, by unfold atSpeed; rw [← ha.fmt rfl, ← hf]; rfl, hacq⟩

/-- The machine as reading begins at a wrap, before its channels acquire. -/
def readingAsked (wrap : Nat) (s : State) : State :=
  let u := setMode .retrieve s
  { u with rtv.wrap := wrap, fmt.motion := .running, fmt.moveFor := .none, rtv.stopped := false, srv.forward := wrapForward wrap }

/-- Its channels with the values of the zone. -/
def zoneTaken (again : Bool) (z : Nat) (s : State) : State := if again then coldStartAll z s else enterZone z s

theorem zoneTaken_same (again : Bool) (z : Nat) (s : State) : Frames.Same 0x100000 s (zoneTaken again z s) :=
  Frames.same_if (Frames.coldStartAll_same Frames.sub_refl Frames.same_refl) (Frames.enterZone_same Frames.sub_refl Frames.same_refl)

theorem beginReading_eq (wrap : Nat) (s : State) : ∃ again, beginReading wrap s =
    let u := acquireAll (zoneTaken again (zoneOf wrap) (readingAsked wrap s))
    atSpeed (readSpeed u) { u with rdc.zone := zoneOf wrap } := ⟨_, rfl⟩

theorem beginReading_fields (wrap : Nat) (s : State) : (beginReading wrap s).glb.mode = .retrieve ∧ (beginReading wrap s).rtv.wrap = wrap
    ∧ (beginReading wrap s).fmt.motion = .running ∧ (beginReading wrap s).rtv.stopped = false ∧ (beginReading wrap s).srv.forward = wrapForward wrap
    ∧ (beginReading wrap s).rdc.zone = zoneOf wrap ∧ (beginReading wrap s).mot.target = speedMm (beginReading wrap s).fmt.spCur * 1000
    ∧ (∀ k : Chan, (beginReading wrap s).rch[k].sync = .acquisition) := by
  obtain ⟨again, heq⟩ := beginReading_eq wrap s
  rw [heq]
  dsimp only
  have hasked : (readingAsked wrap s).glb.mode = .retrieve ∧ (readingAsked wrap s).rtv.wrap = wrap ∧ (readingAsked wrap s).fmt.motion = .running
      ∧ (readingAsked wrap s).rtv.stopped = false ∧ (readingAsked wrap s).srv.forward = wrapForward wrap := ⟨setMode_mode .retrieve s, rfl, rfl, rfl, rfl⟩
  generalize readingAsked wrap s = u at hasked
  obtain ⟨h1, h2, h3, h4, h5⟩ := hasked
  have ha : Frames.Same 0x300000 u (acquireAll (zoneTaken again (zoneOf wrap) u)) :=
    Frames.acquireAll_same rfl (Frames.same_if (Frames.coldStartAll_same rfl Frames.same_refl) (Frames.enterZone_same rfl Frames.same_refl))
  have hacq : ∀ k : Chan, (acquireAll (zoneTaken again (zoneOf wrap) u)).rch[k].sync = .acquisition := acquired true true _
  generalize acquireAll (zoneTaken again (zoneOf wrap) u) = v at hacq ha
  have hs := atSpeed_same (readSpeed v) { v with rdc.zone := zoneOf wrap }
  obtain ⟨n, hf⟩ := atSpeed_fmt (readSpeed v) { v with rdc.zone := zoneOf wrap }
  have hmot : (atSpeed (readSpeed v) { v with rdc.zone := zoneOf wrap }).mot.target
      = speedMm (atSpeed (readSpeed v) { v with rdc.zone := zoneOf wrap }).fmt.spCur * 1000 := rfl
  generalize atSpeed (readSpeed v) { v with rdc.zone := zoneOf wrap } = x at hs hf hmot
  refine ⟨?_, ?_, ?_, ?_, ?_, ?_, hmot, ?_⟩
  · rw [hs.glb rfl]; exact (congrArg Glb.mode (ha.glb rfl)).trans h1
  · rw [hs.rtv rfl]; exact (congrArg Rtv.wrap (ha.rtv rfl)).trans h2
  · rw [hf]; exact (congrArg Fmt.motion (ha.fmt rfl)).trans h3
  · rw [hs.rtv rfl]; exact (congrArg Rtv.stopped (ha.rtv rfl)).trans h4
  · rw [hs.srv rfl]; exact (congrArg Srv.forward (ha.srv rfl)).trans h5
  · rw [hs.rdc rfl]
  · rw [hs.rch rfl]; exact hacq

section
variable {s : State} {wrap : Fin 240}

/-- Writing begins or goes on where the head stands: from the state that the move's purpose leaves. -/
theorem positionReached_writes (hmo : s.fmt.motion = .positioning)
    (hfor : s.fmt.moveFor = .splice ∨ s.fmt.moveFor = .recovery ∨ (s.fmt.moveFor = .turn ∧ s.glb.mode = .append)) :
    ∃ u, positionReached wrap s = openGate u ∧ u.srv = s.srv ∧ u.fmt.ctGate = s.fmt.ctGate := by
  unfold positionReached
  rw [if_pos hmo]
  rcases hfor with h | h | ⟨h, hm⟩
  · exact ⟨dropJobs s, by rw [h], rfl, rfl⟩
  · exact ⟨dropJobs (rewind s), by rw [h], rfl, rfl⟩
  · obtain ⟨w, a, hc⟩ := chooseSpeed_fmt s
    exact ⟨chooseSpeed s, by rw [h]; exact if_pos hm, (Frames.chooseSpeed_same (w := 0x2000) rfl Frames.same_refl).srv rfl, by rw [hc]⟩

theorem positionReached_reads
    (h : (s.fmt.motion = .positioning ∧ (s.fmt.moveFor = .readStart ∨ s.fmt.moveFor = .reread ∨ (s.fmt.moveFor = .turn ∧ s.glb.mode ≠ .append)))
      ∨ (s.fmt.motion = .running ∧ s.glb.mode = .retrieve)) : positionReached wrap s = beginReading wrap.val s := by
  unfold positionReached
  rcases h with ⟨hmo, h | h | ⟨h, hm⟩⟩ | ⟨hmo, hm⟩
  · rw [if_pos hmo, h]
  · rw [if_pos hmo, h]
  · rw [if_pos hmo, h]; exact if_neg hm
  · rw [if_neg (by rw [hmo]; decide), hmo, hm]; rfl

theorem positionReached_locate (hmo : s.fmt.motion = .positioning) (hfor : s.fmt.moveFor = .locate ∨ s.fmt.moveFor = .none) :
    positionReached wrap s = beginStop (endMoves { s with rtv.wrap := wrap.val, srv.forward := wrapForward wrap.val }) := by
  unfold positionReached
  rw [if_pos hmo]
  rcases hfor with h | h <;> rw [h]

theorem positionReached_else (hmo : s.fmt.motion ≠ .positioning) (hrun : s.fmt.motion = .running → s.glb.mode ≠ .retrieve) : positionReached wrap s = s := by
  unfold positionReached
  rw [if_neg hmo]
  exact if_neg (by simpa using hrun)

theorem beginStop_running (h : s.mot.state = .running) : beginStop s =
    { s with mot.stop := true, mot.state := .stopping, mot.target := 0, fmt.motion := .stopping, fmt.moveFor := .none } := by
  unfold beginStop
  exact if_pos (by rw [h]; decide)

theorem locateReached (hmo : s.fmt.motion = .positioning) (hfor : s.fmt.moveFor = .locate ∨ s.fmt.moveFor = .none) (hst : s.mot.state = .running) :
    Gives (exec (.positionReached wrap) s) fun t =>
      t.glb.mode = s.glb.mode ∧ t.rtv.wrap = wrap.val ∧ t.fmt.motion = .stopping ∧ t.mot.target = 0 ∧ t.srv.forward = wrapForward wrap.val := by
  have heq := positionReached_locate (wrap := wrap) hmo hfor
  have he := Frames.endMoves_same Frames.sub_refl (Frames.same_refl (r := { s with rtv.wrap := wrap.val, srv.forward := wrapForward wrap.val }))
  have hglb := congrArg Glb.mode (he.glb rfl)
  have hrtv := congrArg Rtv.wrap (he.rtv rfl)
  have hsrv := congrArg Srv.forward (he.srv rfl)
  have hmot := (congrArg Mot.state (he.mot rfl)).trans hst
  generalize endMoves { s with rtv.wrap := wrap.val, srv.forward := wrapForward wrap.val } = u at heq hglb hrtv hsrv hmot
  exact ⟨_, congrArg Host.Outcome.next (heq.trans (beginStop_running hmot)), hglb, hrtv, rfl, rfl, hsrv⟩

end

/-! ### A dataset read again (R57, R160) -/

theorem addRow_fields (d : RdDs) (i : Nat) (row : Bytes) :
    (d.addRow i row).dsn = d.dsn ∧ (d.addRow i row).pos = d.pos ∧ (d.addRow i row).pass = d.pass := by
  unfold RdDs.addRow
  split
  · exact ⟨rfl, rfl, rfl⟩
  · exact ⟨rfl, rfl, rfl⟩

/-- Two datasets in hand that agree in what names them and in their pass. -/
def SameReading (d e : RdDs) : Prop := e.dsn = d.dsn ∧ e.pos = d.pos ∧ e.pass = d.pass

theorem SameReading.trans {d e f : RdDs} (h : SameReading d e) (k : SameReading e f) : SameReading d f := by
  obtain ⟨h1, h2, h3⟩ := h
  obtain ⟨k1, k2, k3⟩ := k
  exact ⟨k1.trans h1, k2.trans h2, k3.trans h3⟩

theorem sameReading_foldl {α : Type} {f : RdDs → α → RdDs} (hf : ∀ d a, SameReading d (f d a)) (l : List α) (d : RdDs) : SameReading d (l.foldl f d) :=
  List.foldlRecOn (motive := SameReading d) l f ⟨rfl, rfl, rfl⟩ fun _ h a _ => h.trans (hf _ a)

theorem c2Fill_fields (d : RdDs) : SameReading d d.c2Fill := by
  unfold RdDs.c2Fill
  refine sameReading_foldl (fun e k => ?_) _ d
  dsimp only
  split
  · exact ⟨rfl, rfl, rfl⟩
  · split
    · exact sameReading_foldl (fun e x => addRow_fields e _ _) _ e
    · exact ⟨rfl, rfl, rfl⟩

/-- What C2 makes of a dataset in hand. -/
def filledIn (d : RdDs) : RdDs := { d.c2Fill with corrected := d.corrected || d.pass != 0 }

theorem filledIn_fields (d : RdDs) : SameReading d (filledIn d) := by
  have h := c2Fill_fields d
  unfold filledIn
  generalize d.c2Fill = e at h
  exact h

theorem rdAt_filledIn {s : State} {dsn : Nat} {e : RdDs} (h : s.rdAt dsn 0 = some e) : (s.modRdDs dsn filledIn).rdAt dsn 0 = some (filledIn e) := by
  have hf (a : RdDs) : ((filledIn a).dsn == dsn && (filledIn a).pos == 0) = (a.dsn == dsn && a.pos == 0) := by
    obtain ⟨h1, h2, -⟩ := filledIn_fields a
    rw [h1, h2]
  unfold State.rdAt at h ⊢
  unfold State.modRdDs
  generalize filledIn = f at hf ⊢
  exact (find_modAll hf s.rtv.ds).trans (by rw [h]; rfl)

theorem beginReread_fields (dsn pass : Nat) (s : State) : (beginReread dsn pass s).rtv.reread = some (dsn, pass)
    ∧ (beginReread dsn pass s).fmt.moveFor = .reread ∧ (beginReread dsn pass s).glb = s.glb := by
  unfold beginReread
  extract_lets _ _ u
  have hu : u.glb = s.glb := rfl
  have hr : u.rtv.reread = some (dsn, pass) := rfl
  split
  · have hs : Frames.Same 0x1002000 u (beginStop u) := Frames.beginStop_same Frames.sub_refl Frames.same_refl
    exact ⟨(congrArg Rtv.reread (hs.rtv rfl)).trans hr, rfl, (hs.glb rfl).trans hu⟩
  · have hs : Frames.Same 0x1800010 u (startLoops u) := Frames.startLoops_same Frames.sub_refl Frames.same_refl
    exact ⟨(congrArg Rtv.reread (hs.rtv rfl)).trans hr, rfl, (hs.glb rfl).trans hu⟩

theorem datasetRecovery_rereads {s : State} {dsn : Nat} {d e : RdDs} (hm : s.glb.mode = .retrieve) (hd : s.rdAt dsn 0 = some d) (hc : d.complete = false)
    (hl : d.lost = false) (he : (erasePoison d s).rdAt dsn 0 = some e) (hfull : e.c2Fill.full = false) (hp : e.pass < rereadMax (erasePoison d s)) :
    datasetRecovery dsn s = beginReread dsn (e.pass + 1) ((erasePoison d s).modRdDs dsn filledIn) := by
  have hpass : (filledIn e).pass = e.pass := (filledIn_fields e).2.2
  have hrows : (filledIn e).full = false := by unfold filledIn; generalize e.c2Fill = c at hfull; exact hfull
  unfold datasetRecovery
  rw [if_neg (by rw [hm]; decide), hd]
  dsimp only
  rw [if_neg (by rw [hc, hl]; decide)]
  generalize erasePoison d s = u at he hp
  have hfind : (u.modRdDs dsn fun d => { d.c2Fill with corrected := d.corrected || d.pass != 0 }).rdAt dsn 0 = some (filledIn e) := rdAt_filledIn he
  rw [hfind]
  dsimp only
  rw [if_neg (by rw [hrows]; decide), hpass]
  exact if_pos hp

theorem readAheadRestart_starts {s : State} (hm : s.glb.mode = .retrieve) (hs : s.rtv.stopped = true) (hmo : s.fmt.motion = .stopped)
    (he : s.rtv.eodSeen = false) (ha : aheadCount s ≤ rdAhead s / 2) :
    readAheadRestart s = beginMove .readStart true { s with rtv.stopped := false } := if_pos (by rw [hm, hs, hmo, he]; simpa using ha)

theorem readingGoesOn : ReadingGoesOn := by
  intro s
  refine ⟨fun dsn d e hm hd hc hl he hfull hp => ?_, fun hm hs hmo he ha => ?_, fun wrap => ⟨fun hmo hfor => ?_, fun h => ?_,
    fun hmo hfor => congrArg Host.Outcome.next (positionReached_mgmt hmo hfor), locateReached,
    fun hmo hrun => congrArg Host.Outcome.next (positionReached_else hmo hrun)⟩⟩
  · exact ⟨_, congrArg Host.Outcome.next (datasetRecovery_rereads hm hd hc hl he hfull hp), beginReread_fields dsn (e.pass + 1) _⟩
  · have hmove : Frames.Same 0x1800010 { s with rtv.stopped := false } (startLoops { s with rtv.stopped := false }) :=
      Frames.startLoops_same Frames.sub_refl Frames.same_refl
    refine ⟨_, congrArg Host.Outcome.next (readAheadRestart_starts hm hs hmo he ha), hmove.rtv rfl, rfl, rfl, rfl, ?_⟩
    exact (congrArg Glb.mode (hmove.glb rfl)).trans hm
  · obtain ⟨u, heq, hsrv, hgate⟩ := positionReached_writes (wrap := wrap) hmo hfor
    have hf := openGate_fields (s := u)
    rw [hsrv, hgate] at hf
    exact ⟨_, congrArg Host.Outcome.next heq, hf⟩
  · exact ⟨_, congrArg Host.Outcome.next (positionReached_reads h), beginReading_fields wrap.val s⟩

end Sys2Proof.Machine

/-- Settles O43: the losses and returns of the clock tracks, and each way in which reading goes on. -/
theorem Sys2Proof.clocksAndReading : Obligations.ClocksAndReading := ⟨clockTracks, readingGoesOn⟩

end

section

/-! PROOFS. Two CWOs of one number: an attempt of the second is booked on the first (R156). -/

open Sys2Proof Sys2Proof.Machine Sys2Proof.Claims

namespace Sys2Proof.Machine

/-- A CWO in hand at alignment 100 with `l` left to try. -/
def numberedJob (l : List Int) : CwoJob :=
  { id := 9, wrap := 0, expected := 100, chosen := 100, found := true, slipOff := 0, smDist := 0, marksOk := true, slips := [], erased := [], cuts := []
    attempts := l }

/-- What channel 4 has heard where no header stands. -/
def noHeaderBytes : Bytes := Tests.wHeader.bytes.map (fun x => ~~~x)

/-- Channel 4 with two CWOs of one number, its samples just complete and without a header: the first CWO has no attempt left, the second two. -/
def twoOfOneNumber : State :=
  (Tests.wHeard noHeaderBytes).modRch 4 (fun r => { r with jobs := [numberedJob [], numberedJob [100, 101]] })

/-- The machine with an attempt of the second booked on the CWO that its number finds. -/
def attemptBooked (header : Bytes) : State :=
  twoOfOneNumber.modJob 4 9 (fun j => { j with attempts := j.attempts.drop 1, running := j.running ++ [(100, header, some none)] })

theorem twoOfOneNumber_next : twoOfOneNumber.rch[(4 : Chan)].jobs.find? (mayAttempt twoOfOneNumber) = some (numberedJob [100, 101]) := by decide +kernel

theorem twoOfOneNumber_arrived : twoOfOneNumber.rch[(4 : Chan)].arrived (100 + 19231) = true := by decide +kernel

theorem twoOfOneNumber_standing : twoOfOneNumber.rch[(4 : Chan)].standing (100 + 32) = true := by decide +kernel

theorem headerAt_withJobs (r : RChan) (l : List CwoJob) (c : Nat) (a : Int) : { r with jobs := l }.headerAt c a = r.headerAt c a := rfl

theorem twoOfOneNumber_header : headerAccepted 0 (twoOfOneNumber.rch[(4 : Chan)].headerAt (4 : Chan).val 100) = none := by
  have hheard := Tests.witness_AttemptsAndRuns_noHeader
  unfold twoOfOneNumber noHeaderBytes
  generalize Tests.wHeard (Tests.wHeader.bytes.map (fun x => ~~~x)) = s at hheard ⊢
  rw [rch_modRch_same, headerAt_withJobs]
  exact hheard

theorem twoOfOneNumber_attempt :
    headerDone 4 twoOfOneNumber = settleJob 4 9 (attemptBooked (twoOfOneNumber.rch[(4 : Chan)].headerAt (4 : Chan).val 100)) := by
  have hheader := twoOfOneNumber_header
  unfold headerDone
  rw [twoOfOneNumber_next]
  refine (if_neg ?_).trans ((if_neg ?_).trans ?_)
  · rw [show twoOfOneNumber.rch[(4 : Chan)].arrived ((numberedJob [100, 101]).attempts.headD 0 + 19231) = true from twoOfOneNumber_arrived]; decide
  · rw [show twoOfOneNumber.rch[(4 : Chan)].standing ((numberedJob [100, 101]).attempts.headD 0 + 32) = true from twoOfOneNumber_standing]; decide
  · have hfirst : (numberedJob [100, 101]).attempts.headD 0 = 100 := rfl
    have hchosen : (100 : Int) = (numberedJob [100, 101]).chosen := rfl
    have hwrap : (numberedJob [100, 101]).wrap = 0 := rfl
    simp only [hfirst, hwrap, hheader, if_pos hchosen]
    rfl

/-- The first is judged with the attempt of the second: it has none left and ends, and the second leaves with it. -/
theorem attemptBooked_ends (header : Bytes) : (settleJob 4 9 (attemptBooked header)).rch[(4 : Chan)].jobs = [] := rfl

theorem attemptBooked_jobs (header : Bytes) : (attemptBooked header).rch[(4 : Chan)].jobs ≠ [] := nofun

end Sys2Proof.Machine

/-- Refutes O42: in `twoOfOneNumber` the CWO that may attempt is not the first of its number; the attempt whose header is not accepted is
booked on the one before it, which has nothing left, so it does not end alone: both CWOs leave the channel. -/
theorem Sys2Proof.not_attemptsAndRuns : ¬ Obligations.AttemptsAndRuns := by
  intro h
  obtain ⟨-, -, hattempt⟩ := h.1 4 (numberedJob [100, 101]) 100 twoOfOneNumber twoOfOneNumber_next rfl
  have heq := (hattempt twoOfOneNumber_arrived twoOfOneNumber_standing).2 twoOfOneNumber_header rfl (by decide)
  have hrun : settleJob 4 9 (attemptBooked (twoOfOneNumber.rch[(4 : Chan)].headerAt (4 : Chan).val 100))
      = attemptBooked (twoOfOneNumber.rch[(4 : Chan)].headerAt (4 : Chan).val 100) := twoOfOneNumber_attempt.symm.trans (Host.Outcome.next.inj heq)
  exact attemptBooked_jobs _ (hrun ▸ attemptBooked_ends _)

end

section

/-! PROOFS. What a port of the ring sends and answers: checks, acknowledgement and retry (R300 to R304). -/

open Sys2Proof Sys2Proof.Machine Sys2Proof.Claims

namespace Sys2Proof.Machine

/-! ### One port of the machine -/

section
variable {s : State} {q : Fin 2}

theorem rport_modPort_same (s : State) (q : Fin 2) (f : RingPort → RingPort) : (s.modPort q f).rport q = f (s.rport q) := vmod_same _ _ _

theorem rport_modPort_other (s : State) {q k : Fin 2} (f : RingPort → RingPort) (h : q ≠ k) : (s.modPort q f).rport k = s.rport k := vmod_other _ _ _ _ h

theorem modPort_self (s : State) (q : Fin 2) : s.modPort q (fun _ => s.rport q) = s :=
  congrArg (fun v => { s with chn := { s.chn with port := v } }) (vset_self s.chn.port q)

theorem modPort_value (s : State) (q : Fin 2) (f : RingPort → RingPort) : s.modPort q f = s.modPort q (fun _ => f (s.rport q)) := rfl

theorem modPort_modPort (s : State) (q : Fin 2) (f g : RingPort → RingPort) : (s.modPort q f).modPort q g = s.modPort q (fun p => g (f p)) := by
  unfold State.modPort
  have h : vmod (vmod s.chn.port q f) q g = vmod s.chn.port q (fun p => g (f p)) := by
    unfold vmod
    rw [vset_same]
    exact Vector.set_set _ _
  exact congrArg (fun v => { s with chn := { s.chn with port := v } }) h

theorem otherPort_ne (q : Fin 2) : q ≠ otherPort q := by
  revert q; decide

theorem portUp_eq (s : State) (q : Fin 2) : portUp s q = true ↔ (s.rport q).state = 2 := beq_iff_eq

/-- A port that differs in what it is to send alone: what waits, what is not acknowledged, the next seq and what went out. -/
def PortAlike (p r : RingPort) : Prop := ∃ a b c d, r = { p with queue := a, unacked := b, txSeq := c, out := d }

theorem PortAlike.refl (p : RingPort) : PortAlike p p := ⟨p.queue, p.unacked, p.txSeq, p.out, rfl⟩

theorem PortAlike.trans {p r x : RingPort} (h : PortAlike p r) (k : PortAlike r x) : PortAlike p x := by
  obtain ⟨a, b, c, d, rfl⟩ := h
  obtain ⟨a', b', c', d', rfl⟩ := k
  exact ⟨a', b', c', d', rfl⟩

/-- The machine differs in what port `q` is to send alone. -/
def SendsAt (q : Fin 2) (s t : State) : Prop := ∃ p, PortAlike (s.rport q) p ∧ t = s.modPort q (fun _ => p)

theorem SendsAt.refl (q : Fin 2) (s : State) : SendsAt q s s := ⟨s.rport q, .refl _, (modPort_self s q).symm⟩

theorem SendsAt.trans {s t u : State} (h : SendsAt q s t) (k : SendsAt q t u) : SendsAt q s u := by
  obtain ⟨p, hp, rfl⟩ := h
  obtain ⟨r, hr, rfl⟩ := k
  rw [rport_modPort_same] at hr
  exact ⟨r, hp.trans hr, modPort_modPort _ _ _ _⟩

theorem SendsAt.of_modPort {f : RingPort → RingPort} (h : PortAlike (s.rport q) (f (s.rport q))) : SendsAt q s (s.modPort q f) := ⟨_, h, rfl⟩

theorem sendsAt_foldl {α : Type} {f : State → α → State} (hf : ∀ s a, SendsAt q s (f s a)) (l : List α) (s : State) : SendsAt q s (l.foldl f s) :=
  List.foldlRecOn (motive := SendsAt q s) l f (.refl q s) fun _ h a _ => h.trans (hf _ a)

theorem SendsAt.other {t : State} (h : SendsAt q s t) {k : Fin 2} (hk : q ≠ k) : t.rport k = s.rport k := by
  obtain ⟨p, -, rfl⟩ := h
  exact rport_modPort_other s _ hk

theorem SendsAt.grp {t : State} (h : SendsAt q s t) : t.chn.grp = s.chn.grp := by
  obtain ⟨p, -, rfl⟩ := h; rfl

theorem SendsAt.port {t : State} (h : SendsAt q s t) : PortAlike (s.rport q) (t.rport q) := by
  obtain ⟨p, hp, rfl⟩ := h
  rw [rport_modPort_same]; exact hp

theorem sendsAt_pumpFrame (q : Fin 2) (s : State) : SendsAt q s (pumpFrame q s) := by
  unfold pumpFrame
  dsimp only
  split
  · exact .refl q s
  · split
    · exact .refl q s
    · exact .of_modPort ⟨_, _, _, _, rfl⟩

theorem sendsAt_pumpPort (q : Fin 2) (s : State) : SendsAt q s (pumpPort q s) := sendsAt_foldl (fun s _ => sendsAt_pumpFrame q s) _ s

theorem pumpPort_of_empty (h : (s.rport q).queue = []) : pumpPort q s = s := by
  unfold pumpPort; rw [h]; rfl

theorem sendsAt_enqueueFrame (q : Fin 2) (f : Bytes) (s : State) : SendsAt q s (enqueueFrame q f s) := by
  unfold enqueueFrame
  split
  · exact .trans (.of_modPort ⟨_, _, _, _, rfl⟩) (sendsAt_pumpPort q _)
  · exact .refl q s

theorem sendsAt_sendAgain (q : Fin 2) (seq : BitVec 12) (s : State) : SendsAt q s (sendAgain q seq s) := by
  unfold sendAgain
  dsimp only
  split
  · exact .refl q s
  · exact .of_modPort ⟨_, _, _, _, rfl⟩

theorem emitFrame_up (h : portUp s q = true) (f : Bytes) : emitFrame q f s = s.modPort q (fun p => { p with out := sealFrame 0 false f :: p.out }) := if_pos h

/-! ### Frames that are checked -/

theorem sendAck_up (h : portUp s q = true) :
    sendAck q s = s.modPort q (fun p => { p with out := sealFrame 0 false (ackFrame s q ftAck) :: p.out, toAck := 0 }) := by
  unfold sendAck
  rw [emitFrame_up h]
  exact modPort_modPort _ _ _ _

theorem sendNak_silent (h : (s.rport q).nakOut = true) (ht : s.glb.time < (s.rport q).nakAt + 4000) : sendNak q s = s := if_pos (by simp [h, ht])

theorem sendNak_up (h : portUp s q = true) (hn : ((s.rport q).nakOut && decide (s.glb.time < (s.rport q).nakAt + 4000)) = false) :
    sendNak q s = s.modPort q (fun p => { p with out := sealFrame 0 false (ackFrame s q ftNak) :: p.out, nakOut := true, nakAt := s.glb.time
                                                 nakSent := satInc 65535 p.nakSent }) := by
  refine (if_neg (by rw [h, hn]; decide)).trans ?_
  rw [emitFrame_up h]
  exact modPort_modPort _ _ _ _

theorem sendNak_answers (h : portUp s q = true) :
    (∃ p, sendNak q s = s.modPort q (fun _ => p) ∧ p.rxSeq = (s.rport q).rxSeq ∧ p.unacked = (s.rport q).unacked ∧ p.queue = (s.rport q).queue ∧ p.nakOut = true)
      ∧ ((s.rport q).nakOut = true → s.glb.time < (s.rport q).nakAt + 4000 → sendNak q s = s)
      ∧ ((s.rport q).nakOut = false → ((sendNak q s).rport q).nakSent = satInc 65535 (s.rport q).nakSent
          ∧ ((sendNak q s).rport q).out.length = (s.rport q).out.length + 1) := by
  refine ⟨?_, sendNak_silent, fun hn => ?_⟩
  · by_cases hs : ((s.rport q).nakOut && decide (s.glb.time < (s.rport q).nakAt + 4000)) = true
    · obtain ⟨ho, ht⟩ := Bool.and_eq_true_iff.mp hs
      exact ⟨s.rport q, (sendNak_silent ho (of_decide_eq_true ht)).trans (modPort_self s q).symm, rfl, rfl, rfl, ho⟩
    · rw [sendNak_up h (Bool.eq_false_iff.mpr hs)]
      exact ⟨_, modPort_value s q _, rfl, rfl, rfl, rfl⟩
  · rw [sendNak_up h (by rw [hn]; rfl), rport_modPort_same]
    exact ⟨rfl, rfl⟩

variable {f : Bytes} {l : BitVec 4} {type : Nat} {msg : Option Nat} {act : State → State}

/-- The checks of a frame with a seq, in their order. -/
theorem receive_checks (q : Fin 2) (f : Bytes) (l : BitVec 4) (type : Nat) (msg : Option Nat) (act : State → State) (s : State) :
    (portUp s q = false → receive q f l type msg act s = s)
    ∧ (portUp s q = true → frameSound f = false → receive q f l type msg act s = failFrame q f l s)
    ∧ (portUp s q = true → frameSound f = true → frameIs type msg f = false → receive q f l type msg act s = s)
    ∧ (portUp s q = true → frameSound f = true → frameIs type msg f = true → frameClean f = false → receive q f l type msg act s = dropFrame q f s)
    ∧ (portUp s q = true → frameSound f = true → frameIs type msg f = true → frameClean f = true → fSeq f ≠ (s.rport q).rxSeq →
        receive q f l type msg act s = sendNak q s) := by
  unfold receive
  refine ⟨fun h => ?_, fun h1 h2 => ?_, fun h1 h2 h3 => ?_, fun h1 h2 h3 h4 => ?_, fun h1 h2 h3 h4 h5 => ?_⟩
  · rw [h]; rfl
  · rw [h1, h2]; rfl
  · rw [h1, h2, h3]; rfl
  · rw [h1, h2, h3, h4]; rfl
  · rw [h1, h2, h3, h4]; exact if_pos (bne_iff_ne.mpr h5)

/-- A frame that is accepted acts. -/
theorem receive_accepted (h : Accepted q f type msg s) : receive q f l type msg act s = act (acceptFrame q s) := by
  obtain ⟨h1, h2, h3, h4, h5⟩ := h
  unfold receive
  rw [h1, h2, h3, h4, h5, bne_self_eq_false]; rfl

/-- Every row of a frame with a seq is received so. -/
theorem frameRows_receive {x : Instr × Nat × Option Nat} (hx : x ∈ frameRows q f l) (s : State) :
    ∃ act, exec x.1 s = .next (receive q f l x.2.1 x.2.2 act s) := by
  simp only [frameRows, List.mem_cons, List.not_mem_nil, or_false] at hx
  rcases hx with rfl | rfl | rfl | rfl | rfl | rfl | rfl | rfl | rfl | rfl | rfl | rfl | rfl | rfl | rfl | rfl | rfl | rfl | rfl <;> exact ⟨_, rfl⟩

end

theorem framesAreChecked : FramesAreChecked := by
  intro q f l s x hx
  obtain ⟨act, hrow⟩ := frameRows_receive hx s
  obtain ⟨h1, h2, h3, h4, h5⟩ := receive_checks q f l x.2.1 x.2.2 act s
  refine ⟨fun hp => hrow.trans (congrArg Host.Outcome.next (h1 hp)), fun hp hs => hrow.trans (congrArg Host.Outcome.next (h2 hp hs)),
    fun hp hs hi => hrow.trans (congrArg Host.Outcome.next (h3 hp hs hi)), fun hp hs hi hc => hrow.trans (congrArg Host.Outcome.next (h4 hp hs hi hc)),
    fun hp hs hi hc hq => ⟨_, hrow.trans (congrArg Host.Outcome.next (h5 hp hs hi hc hq)), sendNak_answers hp⟩⟩

/-! ### Acknowledgement and retry (R303, R304) -/

section
variable {s : State} {q : Fin 2}

theorem portUp_modPort (s : State) (q : Fin 2) (f : RingPort → RingPort) (h : (f (s.rport q)).state = (s.rport q).state) :
    portUp (s.modPort q f) q = portUp s q := by
  unfold portUp
  rw [rport_modPort_same, h]

/-- A port that has accepted one more frame, of which `n` are not acknowledged. -/
def RingPort.accepted (n : Nat) (p : RingPort) : RingPort := { p with rxSeq := p.rxSeq + 1, toAck := n, nakOut := false }

theorem acceptFrame_few (h : ¬16 ≤ (s.rport q).toAck + 1) : acceptFrame q s = s.modPort q (fun p => p.accepted (p.toAck + 1)) := by
  unfold acceptFrame
  dsimp only
  rw [rport_modPort_same]
  exact if_neg h

theorem acceptFrame_sixteenth (hp : portUp s q = true) (h : 16 ≤ (s.rport q).toAck + 1) :
    ∃ o, acceptFrame q s = s.modPort q (fun p => { p.accepted 0 with out := o :: p.out }) := by
  have hup := (portUp_modPort s q (fun p => { p with rxSeq := p.rxSeq + 1, toAck := p.toAck + 1, nakOut := false }) rfl).trans hp
  unfold acceptFrame
  dsimp only
  rw [rport_modPort_same]
  exact ⟨_, (if_pos h).trans ((sendAck_up hup).trans (modPort_modPort _ _ _ _))⟩

/-- A frame that is accepted moves its port on alone. -/
theorem acceptFrame_port (hp : portUp s q = true) :
    ∃ o, acceptFrame q s = s.modPort q (fun p => { p.accepted (if 16 ≤ (s.rport q).toAck + 1 then 0 else (s.rport q).toAck + 1) with out := o }) := by
  by_cases h : 16 ≤ (s.rport q).toAck + 1
  · obtain ⟨o, ho⟩ := acceptFrame_sixteenth hp h
    rw [if_pos h]
    exact ⟨o :: (s.rport q).out, ho⟩
  · rw [if_neg h]
    exact ⟨(s.rport q).out, acceptFrame_few h⟩

theorem ackTimer_idle (h : (s.rport q).toAck = 0) : ackTimer q s = s := if_neg (by rw [h]; simp)

theorem ackTimer_up (h : portUp s q = true) (ha : (s.rport q).toAck ≠ 0) : ackTimer q s = sendAck q s := if_pos (by simp [h, ha])

/-! #### Frames that go again -/

/-- Frames of which each has been sent once more. -/
def sentAgain (l : List (BitVec 12 × Bytes × Nat)) : List (BitVec 12 × Bytes × Nat) := l.map (fun y => (y.1, y.2.1, y.2.2 + 1))

/-- What they are on the wire, newest first. -/
def wireAgain (l : List (BitVec 12 × Bytes × Nat)) : List Bytes := (l.map (fun y => sealFrame y.1 true y.2.1)).reverse

theorem sendAgain_first {x : BitVec 12 × Bytes × Nat} {b : List (BitVec 12 × Bytes × Nat)} (h : (s.rport q).unacked = x :: b) :
    sendAgain q x.1 s = s.modPort q (fun p => { p with out := wireAgain (x :: b) ++ p.out, unacked := sentAgain (x :: b) }) := by
  have hd : (s.rport q).unacked.dropWhile (fun y => y.1 != x.1) = x :: b := by rw [h]; simp
  have ht : (s.rport q).unacked.takeWhile (fun y => y.1 != x.1) = [] := by rw [h]; simp
  unfold sendAgain
  rw [hd]
  refine (if_neg (by simp)).trans ?_
  rw [modPort_value, modPort_value s q (fun p => { p with out := wireAgain (x :: b) ++ p.out, unacked := sentAgain (x :: b) }), hd, ht]
  rfl

theorem resendFrom_first {x : BitVec 12 × Bytes × Nat} {b : List (BitVec 12 × Bytes × Nat)} (h : (s.rport q).unacked = x :: b) :
    resendFrom q x.1 s = s.modPort q (fun p => { p with out := wireAgain (x :: b) ++ p.out, unacked := sentAgain (x :: b), resends := satInc 65535 p.resends }) := by
  unfold resendFrom
  rw [if_pos (by rw [h]; simp), sendAgain_first (b := b) (by rw [rport_modPort_same]; exact h)]
  exact modPort_modPort _ _ _ _

theorem goBack_again {x : BitVec 12 × Bytes × Nat} {b : List (BitVec 12 × Bytes × Nat)} (h : (s.rport q).unacked = x :: b) (hr : x.2.2 < resendMax s) :
    goBack q x.1 s = s.modPort q (fun p => { p with out := wireAgain (x :: b) ++ p.out, unacked := sentAgain (x :: b), resends := satInc 65535 p.resends }) := by
  unfold goBack
  rw [h]
  exact (if_neg (by omega)).trans (resendFrom_first h)

theorem goBack_gone {x : BitVec 12 × Bytes × Nat} {b : List (BitVec 12 × Bytes × Nat)} (h : (s.rport q).unacked = x :: b) (hr : resendMax s ≤ x.2.2)
    (seq : BitVec 12) : goBack q seq s = linkGone q s := by
  unfold goBack
  rw [h]
  exact if_pos hr

theorem releaseTo_found {p : RingPort} {a b : List (BitVec 12 × Bytes × Nat)} {x : BitVec 12 × Bytes × Nat} (h : p.unacked = a ++ x :: b)
    (ha : ∀ y ∈ a, y.1 ≠ x.1) (hx : x.1 ≠ p.txSeq) : releaseTo x.1 p = { p with unacked := x :: b } := by
  have hd : p.unacked.dropWhile (fun y => y.1 != x.1) = x :: b := by
    rw [h, List.dropWhile_append_of_pos fun y hy => bne_iff_ne.mpr (ha y hy)]
    simp
  unfold releaseTo
  rw [if_neg hx, hd]
  dsimp only
  rw [if_neg (by simp)]
  split
  next hlen =>
    have hnil : a = [] := by rw [h] at hlen; simp at hlen; exact hlen
    rw [hnil, List.nil_append] at h
    rw [← h]
  next => rfl

end

end Sys2Proof.Machine

end

section

/-! PROOFS. What the ports of the ring send, links that go down and come up, acknowledgement and retry (R299 to R310). -/

open Sys2Proof Sys2Proof.Machine Sys2Proof.Claims

namespace Sys2Proof.Machine

section
variable {s t : State} {q : Fin 2}

/-! ### What both ports are to send -/

/-- The machine differs in what its ring ports are to send alone. -/
def Sends (s t : State) : Prop := (∀ k, PortAlike (s.rport k) (t.rport k)) ∧ t = { s with chn.port := t.chn.port }

theorem Sends.refl (s : State) : Sends s s := ⟨fun _ => .refl _, rfl⟩

theorem Sends.trans {u : State} (h : Sends s t) (k : Sends t u) : Sends s u := by
  obtain ⟨hp, ht⟩ := h
  obtain ⟨kp, ku⟩ := k
  refine ⟨fun i => (hp i).trans (kp i), ?_⟩
  generalize t.chn.port = v at ht
  rw [ku, ht]

theorem Sends.of_at (h : SendsAt q s t) : Sends s t := by
  refine ⟨fun k => ?_, ?_⟩
  · by_cases hk : q = k
    · exact hk ▸ h.port
    · rw [h.other hk]; exact .refl _
  · obtain ⟨p, -, rfl⟩ := h; rfl

theorem sends_enqueueFrame (q : Fin 2) (f : Bytes) (s : State) : Sends s (enqueueFrame q f s) := .of_at (sendsAt_enqueueFrame q f s)

theorem sends_sendAll (f : Bytes) (s : State) : Sends s (sendAll f s) := by
  unfold sendAll
  split
  · exact sends_enqueueFrame _ _ _
  · exact (sends_enqueueFrame _ _ _).trans (sends_enqueueFrame _ _ _)

theorem Sends.state (h : Sends s t) (k : Fin 2) : (t.rport k).state = (s.rport k).state := by
  obtain ⟨_, _, _, _, h⟩ := h.1 k
  rw [h]

theorem Sends.chn (h : Sends s t) : t.chn = { s.chn with port := t.chn.port } := congrArg State.chn h.2

theorem Sends.grp (h : Sends s t) : t.chn.grp = s.chn.grp := (congrArg Chn.grp h.chn :)

theorem Sends.fmt (h : Sends s t) : t.fmt = s.fmt := (congrArg State.fmt h.2 :)

theorem SendsAt.state (h : SendsAt q s t) : (t.rport q).state = (s.rport q).state := (Sends.of_at h).state q

/-! ### Links that go down -/

theorem beginFlood_up (h : portUp s q = true) : Sends { s with chn.state := 2 } (beginFlood s) := by
  have hor : (portUp { s with chn.state := 2 } portEast || portUp { s with chn.state := 2 } portWest) = true := by
    match q, h with
    | 0, h => exact Bool.or_eq_true_iff.mpr (.inl h)
    | 1, h => exact Bool.or_eq_true_iff.mpr (.inr h)
  unfold beginFlood
  exact (if_pos hor) ▸ (sends_enqueueFrame _ _ _).trans (sends_enqueueFrame _ _ _)

theorem beginFlood_state (k : Fin 2) (s : State) : ((beginFlood s).rport k).state = (s.rport k).state := by
  unfold beginFlood
  dsimp only
  split
  · exact ((sends_enqueueFrame _ _ _).trans (sends_enqueueFrame _ _ _)).state k
  · exact (congrArg (fun c : Chn => c.port[k].state) (raiseEv_chn _ _ _ _ _ _) :)

theorem restartFlood_state (k : Fin 2) (s : State) : ((restartFlood s).rport k).state = (s.rport k).state := by
  refine (beginFlood_state k _).trans ?_
  exact (congrArg RingPort.state (Vector.getElem_map RingPort.unattested k.isLt) :)

theorem cutBetween_state (a port other : Nat) (k : Fin 2) (s : State) : ((cutBetween a port other s).rport k).state = (s.rport k).state := by
  unfold cutBetween
  split <;> rfl

theorem cutBetween_grp (a port other : Nat) (s : State) : (cutBetween a port other s).chn.grp = s.chn.grp := by
  unfold cutBetween
  split <;> rfl

theorem inGroup_congr (h : t.chn.grp = s.chn.grp) : inGroup t = inGroup s := by unfold inGroup; rw [h]

theorem routeChanged_outside (h : inGroup s = false) : routeChanged s = s := by
  unfold routeChanged
  rw [h]; rfl

/-- A link that is up is down once it has gone, for a member of no group. -/
theorem linkGone_state (hp : portUp s q = true) (hg : inGroup s = false) : ((linkGone q s).rport q).state = 0 := by
  have h2 : (s.rport q).state = 2 := (portUp_eq s q).mp hp
  have hoff : ((s.modPort q RingPort.off).rport q).state = 0 := by rw [rport_modPort_same]; rfl
  have hgo : inGroup (s.modPort q RingPort.off) = false := hg
  unfold linkGone
  rw [if_neg (by rw [h2]; simp)]
  dsimp only
  generalize s.modPort q RingPort.off = u at hoff hgo ⊢
  split
  · exact hoff
  · split
    · split
      · exact hoff
      · exact (beginFlood_state q u).trans hoff
    · split
      · exact (restartFlood_state q u).trans hoff
      · split
        · exact hoff
        · have hc := (cutBetween_state u.chn.addr q.val (neighbour s q) q u).trans hoff
          have hcg := (inGroup_congr (cutBetween_grp u.chn.addr q.val (neighbour s q) u)).trans hgo
          generalize cutBetween u.chn.addr q.val (neighbour s q) u = v at hc hcg ⊢
          have hs := sends_sendAll (topologyFrame v v.chn.state q (neighbour s q)) v
          rw [routeChanged_outside ((inGroup_congr hs.grp).trans hcg)]
          exact (hs.state q).trans hc

/-! ### ACK, NAK and the timers -/

variable {f : Bytes} {l : BitVec 4} {type : Nat} {act : State → State}

theorem receiveAck_down (h : portUp s q = false) : receiveAck q f l type act s = s := by
  unfold receiveAck; rw [h]; rfl

theorem receiveAck_unsound (h : portUp s q = true) (hs : frameSound f = false) : receiveAck q f l type act s = failFrame q f l s := by
  unfold receiveAck; rw [h, hs]; rfl

theorem receiveAck_good (h : portUp s q = true) (hs : frameSound f = true) (hi : frameIs type none f = true) (hc : frameClean f = true) :
    receiveAck q f l type act s = act s := by
  unfold receiveAck; rw [h, hs, hi, hc]; rfl

theorem ackTimer_down (h : portUp s q = false) : ackTimer q s = s := if_neg (by rw [h]; simp)

theorem ackTimeout_down (h : portUp s q = false) : ackTimeout q s = s := by
  unfold ackTimeout
  split
  · rfl
  · rw [h]; rfl

theorem ackTimeout_none (h : (s.rport q).unacked = []) : ackTimeout q s = s := by
  unfold ackTimeout; rw [h]

theorem ackTimeout_up {x : BitVec 12 × Bytes × Nat} {b : List (BitVec 12 × Bytes × Nat)} (h : portUp s q = true) (hu : (s.rport q).unacked = x :: b) :
    ackTimeout q s = goBack q x.1 s := by
  unfold ackTimeout; rw [hu]
  exact if_pos h

/-- A port whose frames before those of `l` are acknowledged, with the window `w`. -/
def RingPort.released (w : Nat) (l : List (BitVec 12 × Bytes × Nat)) (p : RingPort) : RingPort := { p with unacked := l, peerWindow := w }

/-- What an ACK or NAK says of a port's frames: those before `x` are free, with the window of the frame. -/
theorem release_port {a b : List (BitVec 12 × Bytes × Nat)} {x : BitVec 12 × Bytes × Nat} (h : (s.rport q).unacked = a ++ x :: b)
    (ha : ∀ y ∈ a, y.1 ≠ x.1) (hx : x.1 ≠ (s.rport q).txSeq) (hf : fAckSeq f = x.1) :
    s.modPort q (fun p => { releaseTo (fAckSeq f) p with peerWindow := fWindow f })
      = s.modPort q (RingPort.released (fWindow f) (x :: b)) := by
  rw [modPort_value s q, modPort_value s q (RingPort.released (fWindow f) (x :: b)), hf, releaseTo_found h ha hx]
  rfl

theorem onAck_freed {a b : List (BitVec 12 × Bytes × Nat)} {x : BitVec 12 × Bytes × Nat} (h : (s.rport q).unacked = a ++ x :: b)
    (ha : ∀ y ∈ a, y.1 ≠ x.1) (hx : x.1 ≠ (s.rport q).txSeq) (hf : fAckSeq f = x.1) (hq : (s.rport q).queue = []) :
    onAck q f s = s.modPort q (RingPort.released (fWindow f) (x :: b)) := by
  unfold onAck
  rw [release_port h ha hx hf]
  exact pumpPort_of_empty (by rw [rport_modPort_same]; exact hq)

theorem onNak_again {a b : List (BitVec 12 × Bytes × Nat)} {x : BitVec 12 × Bytes × Nat} (h : (s.rport q).unacked = a ++ x :: b)
    (ha : ∀ y ∈ a, y.1 ≠ x.1) (hx : x.1 ≠ (s.rport q).txSeq) (hf : fAckSeq f = x.1) (hq : (s.rport q).queue = []) (hr : x.2.2 < resendMax s) :
    onNak q f s = s.modPort q (fun p => { p with peerWindow := fWindow f, out := wireAgain (x :: b) ++ p.out, unacked := sentAgain (x :: b)
                                                 resends := satInc 65535 p.resends }) := by
  unfold onNak
  rw [release_port h ha hx hf, hf, goBack_again (s := s.modPort q (RingPort.released (fWindow f) (x :: b))) (b := b) (by rw [rport_modPort_same]; rfl) hr, modPort_modPort]
  exact pumpPort_of_empty (by rw [rport_modPort_same]; exact hq)

theorem onNak_gone {a b : List (BitVec 12 × Bytes × Nat)} {x : BitVec 12 × Bytes × Nat} (h : (s.rport q).unacked = a ++ x :: b)
    (ha : ∀ y ∈ a, y.1 ≠ x.1) (hx : x.1 ≠ (s.rport q).txSeq) (hf : fAckSeq f = x.1) (hp : portUp s q = true) (hr : resendMax s ≤ x.2.2)
    (hg : inGroup s = false) : ((onNak q f s).rport q).state = 0 := by
  unfold onNak
  rw [release_port h ha hx hf, goBack_gone (s := s.modPort q (RingPort.released (fWindow f) (x :: b))) (b := b) (by rw [rport_modPort_same]; rfl) hr]
  exact (sendsAt_pumpPort q _).state.trans (linkGone_state ((portUp_modPort s q _ rfl).trans hp) hg)

end

theorem linksRetry : LinksRetry := by
  intro q f l s
  refine ⟨fun hp => ⟨congrArg Host.Outcome.next (receiveAck_down hp), congrArg Host.Outcome.next (receiveAck_down hp),
      congrArg Host.Outcome.next (ackTimer_down hp), congrArg Host.Outcome.next (ackTimeout_down hp)⟩,
    fun hp hs => ⟨congrArg Host.Outcome.next (receiveAck_unsound hp hs), congrArg Host.Outcome.next (receiveAck_unsound hp hs)⟩,
    fun hp => ⟨?_, fun ha => ?_, fun ha => congrArg Host.Outcome.next (ackTimer_idle ha), fun a x b hu ha hq hx hs hc hf => ⟨fun hi => ?_, fun hi => ⟨fun hr => ?_, fun hr hg => ?_⟩⟩,
      fun hu => congrArg Host.Outcome.next (ackTimeout_none hu), fun x b hu => ⟨fun hr => ?_, fun hr hg => ?_⟩⟩⟩
  · obtain ⟨o, ho⟩ := acceptFrame_port hp
    dsimp only
    rw [ho, rport_modPort_same, rport_modPort_other _ _ (otherPort_ne q)]
    exact ⟨rfl, rfl, rfl, rfl, rfl⟩
  · refine ⟨_, congrArg Host.Outcome.next ((ackTimer_up hp ha).trans (sendAck_up hp)), ?_⟩
    dsimp only
    rw [rport_modPort_same]
    exact ⟨rfl, rfl, rfl, rfl⟩
  · refine ⟨_, congrArg Host.Outcome.next ((receiveAck_good hp hs hi hc).trans (onAck_freed hu ha hx hf hq)), ?_⟩
    dsimp only
    rw [rport_modPort_same]
    exact ⟨rfl, rfl, rfl, rfl⟩
  · refine ⟨_, congrArg Host.Outcome.next ((receiveAck_good hp hs hi hc).trans (onNak_again hu ha hx hf hq hr)), ?_⟩
    dsimp only
    rw [rport_modPort_same]
    exact ⟨rfl, rfl, rfl, rfl⟩
  · exact ⟨_, congrArg Host.Outcome.next (receiveAck_good hp hs hi hc), onNak_gone hu ha hx hf hp hr hg⟩
  · refine ⟨_, congrArg Host.Outcome.next ((ackTimeout_up hp hu).trans (goBack_again hu hr)), ?_⟩
    dsimp only
    rw [rport_modPort_same]
    exact ⟨rfl, rfl, rfl, rfl⟩
  · refine ⟨_, congrArg Host.Outcome.next ((ackTimeout_up hp hu).trans (goBack_gone hu hr _)), linkGone_state hp hg⟩

end Sys2Proof.Machine

end

section

/-! PROOFS. Links that come and go, assembly and the roster (R299 to R310). -/

open Sys2Proof Sys2Proof.Machine Sys2Proof.Claims

namespace Sys2Proof.Machine

section
variable {s t : State} {q : Fin 2}

/-! ### Links that train, retrain and go down -/

theorem training_of_either (h : (s.rport q).state = 1 ∨ (s.rport (otherPort q)).state = 1) : training s = true := by
  refine Bool.or_eq_true_iff.mpr ?_
  match q, h with
  | 0, h => exact h.imp beq_iff_eq.mpr beq_iff_eq.mpr
  | 1, h => exact h.symm.imp beq_iff_eq.mpr beq_iff_eq.mpr

theorem not_training (h : (s.rport q).state ≠ 1) (ho : (s.rport (otherPort q)).state ≠ 1) : training s = false := by
  refine Bool.or_eq_false_iff.mpr ?_
  match q, h, ho with
  | 0, h, ho => exact ⟨beq_eq_false_iff_ne.mpr h, beq_eq_false_iff_ne.mpr ho⟩
  | 1, h, ho => exact ⟨beq_eq_false_iff_ne.mpr ho, beq_eq_false_iff_ne.mpr h⟩

theorem linkTrained_assembly {lanes : Nat} (he : s.chn.enable = true) (hw : widthOk s q lanes = true) (h1 : s.chn.state = 1) (hq : (s.rport q).state = 1) :
    linkTrained q lanes s = (if training (pumpPort q (s.modPort q (RingPort.trained lanes))) then pumpPort q (s.modPort q (RingPort.trained lanes))
      else beginFlood (pumpPort q (s.modPort q (RingPort.trained lanes)))) := by
  unfold linkTrained
  rw [he, hw, if_neg (by decide), if_pos h1, hq]
  rfl

theorem linkTrained_waits {lanes : Nat} (he : s.chn.enable = true) (hw : widthOk s q lanes = true) (h1 : s.chn.state = 1) (hq : (s.rport q).state = 1)
    (ho : (s.rport (otherPort q)).state = 1) (he' : (s.rport q).queue = []) : linkTrained q lanes s = s.modPort q (RingPort.trained lanes) := by
  rw [linkTrained_assembly he hw h1 hq, pumpPort_of_empty (by rw [rport_modPort_same]; exact he')]
  exact if_pos (training_of_either (q := q) (.inr (by rw [rport_modPort_other _ _ (otherPort_ne q)]; exact ho)))

theorem linkTrained_floods {lanes : Nat} (he : s.chn.enable = true) (hw : widthOk s q lanes = true) (h1 : s.chn.state = 1) (hq : (s.rport q).state = 1)
    (ho : (s.rport (otherPort q)).state ≠ 1) :
    (linkTrained q lanes s).chn.state = 2 ∧ ((linkTrained q lanes s).rport q).state = 2 ∧ ((linkTrained q lanes s).rport q).lanes = lanes
      ∧ ((linkTrained q lanes s).rport q).rxSeq = 0 := by
  rw [linkTrained_assembly he hw h1 hq]
  have hat := sendsAt_pumpPort q (s.modPort q (RingPort.trained lanes))
  have hport := hat.port
  have hother := hat.other (otherPort_ne q)
  rw [rport_modPort_same] at hport
  rw [rport_modPort_other _ _ (otherPort_ne q)] at hother
  generalize pumpPort q (s.modPort q (RingPort.trained lanes)) = u at hport hother ⊢
  obtain ⟨_, _, _, _, hport⟩ := hport
  have hu : (u.rport q).state = 2 := by rw [hport]; rfl
  rw [if_neg (by rw [not_training (q := q) (by rw [hu]; decide) (by rw [hother]; exact ho)]; decide)]
  have hb := beginFlood_up ((portUp_eq u q).mpr hu)
  obtain ⟨_, _, _, _, hp⟩ := hb.1 q
  exact ⟨(congrArg Chn.state hb.chn :), by rw [hp]; exact hu, by rw [hp]; exact (congrArg RingPort.lanes hport :), by rw [hp]; exact (congrArg RingPort.rxSeq hport :)⟩

theorem retrainDone_port {lanes : Nat} (hq : (s.rport q).state = 1) (hw : widthOk s q lanes = true) :
    SendsAt q (s.modPort q (fun p => { p with state := 2, lanes := lanes })) (retrainDone q lanes s) := by
  unfold retrainDone
  rw [if_neg (by rw [hq, hw]; decide)]
  dsimp only
  refine .trans ?_ (sendsAt_pumpPort q _)
  split
  · exact .refl q _
  · exact sendsAt_sendAgain q _ _

theorem sends_told (h : inGroup s = false) (f : Bytes) : Sends s (routeChanged (sendAll f s)) := by
  have hs := sends_sendAll f s
  rw [routeChanged_outside ((inGroup_congr hs.grp).trans h)]
  exact hs

/-- A link of a ring that goes down, at a member of no group. -/
theorem linkGone_ring (h5 : s.chn.state = 5) (h2 : (s.rport q).state = 2) (hg : s.chn.grp.state = 0) (hn : neighbour s q ≠ noAddr) :
    Sends (cutBetween s.chn.addr q.val (neighbour s q) (s.modPort q RingPort.off)) (linkGone q s) := by
  have hc : (s.modPort q RingPort.off).chn.state = 5 := h5
  have hig : inGroup (cutBetween s.chn.addr q.val (neighbour s q) (s.modPort q RingPort.off)) = false := by
    refine (inGroup_congr (cutBetween_grp _ _ _ _)).trans ?_
    unfold inGroup
    exact (congrArg (fun n : Nat => n == 1 || n == 2) hg).trans rfl
  unfold linkGone
  rw [if_neg (by rw [h2]; simp)]
  dsimp only
  rw [hc, h2, if_neg (by decide), if_neg (by decide), if_neg (by decide), if_neg hn]
  exact sends_told hig _

theorem neighbour_ring (h5 : s.chn.state = 5) : neighbour s q = if q = 0 then (s.chn.addr + 1) % max 1 s.chn.members else (s.chn.addr + max 1 s.chn.members - 1) % max 1 s.chn.members := by
  unfold neighbour onRing
  rw [h5]; rfl

theorem cutBetween_ring (h5 : s.chn.state = 5) (a port other : Nat) :
    cutBetween a port other s = { s with chn.state := 6, chn.line := (List.range (max 1 s.chn.members)).map (fun i => ((if port = 0 then other else a) + i) % max 1 s.chn.members) } :=
  if_pos (beq_iff_eq.mpr h5)

theorem head?_ring {n : Nat} (hn : 0 < n) (a : Nat) : ((List.range n).map (fun i => (a + i) % n)).head? = some (a % n) := by
  obtain ⟨m, rfl⟩ : ∃ m, n = m + 1 := ⟨n - 1, by omega⟩
  rw [List.range_succ_eq_map]
  rfl

end

theorem linksComeAndGo : LinksComeAndGo := by
  intro q lanes s
  refine ⟨fun he hw h1 hq ho hu => congrArg Host.Outcome.next (linkTrained_waits he hw h1 hq ho hu),
    fun he hw h1 hq ho => ⟨_, rfl, linkTrained_floods he hw h1 hq ho⟩, fun hq hw => ⟨_, rfl, ?_⟩, fun h0 hu => congrArg Host.Outcome.next (if_pos (by rw [h0, hu]; rfl)),
    fun h5 h2 hg ha hm => ⟨_, rfl, ?_⟩⟩
  · have hat := retrainDone_port hq hw
    have hport := hat.port
    rw [rport_modPort_same] at hport
    obtain ⟨_, _, _, _, hport⟩ := hport
    dsimp only
    rw [hport]
    exact ⟨rfl, rfl, rfl, (hat.other (otherPort_ne q)).trans (rport_modPort_other _ _ (otherPort_ne q)), hat.grp⟩
  · have hmax : max 1 s.chn.members = s.chn.members := by omega
    have hnb := neighbour_ring (q := q) h5
    rw [hmax] at hnb
    have hlt : neighbour s q < s.chn.members := by
      rw [hnb]; split <;> exact Nat.mod_lt _ (by omega)
    have hs := linkGone_ring h5 h2 hg (by unfold noAddr; omega)
    rw [cutBetween_ring (s := s.modPort q RingPort.off) h5] at hs
    have hc := hs.chn
    refine ⟨(congrArg Chn.state hc :), (hs.state q).trans ?_, ?_, (congrArg Chn.addr hc :), ?_⟩
    · exact congrArg RingPort.state (rport_modPort_same s q RingPort.off)
    · rw [(congrArg Chn.line hc :)]
      dsimp only
      rw [List.length_map, List.length_range]
      exact hmax
    · rw [(congrArg Chn.line hc :)]
      change ((List.range (max 1 s.chn.members)).map (fun i => ((if q.val = 0 then neighbour s q else s.chn.addr) + i) % max 1 s.chn.members)).head? = _
      rw [hmax, head?_ring (by omega), hnb]
      match q with
      | 0 => exact congrArg some (Nat.mod_mod _ _)
      | 1 => exact congrArg some (Nat.mod_eq_of_lt ha)

end Sys2Proof.Machine

end

section

/-! PROOFS. Assembly of the ring: beacons, tokens, attestation, the roster and the topology (R301, R302, R309). -/

open Sys2Proof Sys2Proof.Machine Sys2Proof.Claims

namespace Sys2Proof.Machine

section
variable {s t u : State} {q : Fin 2} {f : Bytes} {l : BitVec 4}

/-! ### What an accepted frame leaves -/

/-- The machine differs in its ring ports alone. -/
def PortsMoved (s t : State) : Prop := t = { s with chn.port := t.chn.port }

theorem PortsMoved.trans (h : PortsMoved s t) (k : PortsMoved t u) : PortsMoved s u := by
  unfold PortsMoved at *
  generalize t.chn.port = v at h
  rw [k, h]

theorem Sends.moved (h : Sends s t) : PortsMoved s t := h.2

theorem PortsMoved.chn (h : PortsMoved s t) : t.chn = { s.chn with port := t.chn.port } := (congrArg State.chn h :)

theorem PortsMoved.grp (h : PortsMoved s t) : t.chn.grp = s.chn.grp := (congrArg Chn.grp h.chn :)

theorem PortsMoved.fmt (h : PortsMoved s t) : t.fmt = s.fmt := (congrArg State.fmt h :)

theorem acceptFrame_moved (h : portUp s q = true) : PortsMoved s (acceptFrame q s) := by
  obtain ⟨o, ho⟩ := acceptFrame_port h
  rw [ho]; rfl

theorem sends_forwardFrame (q : Fin 2) (f : Bytes) (s : State) : Sends s (forwardFrame q f s) := by
  unfold forwardFrame
  dsimp only
  split
  · exact .refl s
  · exact sends_enqueueFrame _ _ _

/-- A broadcast of another member, accepted, is sent on and acts. -/
theorem receive_broadcast {msg : Option Nat} {type : Nat} {act : State → State} (h : Accepted q f type msg s) (hd : fDst f = noAddr) (hs : fSrc f ≠ s.chn.addr) :
    ∃ u, PortsMoved s u ∧ receive q f l type msg (routed q f act) s = act u := by
  have hm := acceptFrame_moved h.1
  refine ⟨forwardFrame q f (acceptFrame q s), hm.trans (sends_forwardFrame _ _ _).moved, (receive_accepted h).trans ?_⟩
  have hsrc : fSrc f ≠ (acceptFrame q s).chn.addr := by rw [(congrArg Chn.addr hm.chn :)]; exact hs
  generalize acceptFrame q s = v at hsrc ⊢
  unfold routed
  rw [if_pos hd, if_neg hsrc]

/-! ### Beacons -/

theorem sends_either {c : Prop} [Decidable c] (o q : Fin 2) (f g : Bytes) (s : State) : Sends s (if c then enqueueFrame o f s else enqueueFrame q g s) := by
  split
  · exact sends_enqueueFrame _ _ _
  · exact sends_enqueueFrame _ _ _

theorem flood_lower {p : Bytes} (hs : slice p 16 16 ≠ deviceIdent) (he : (u8 p 35).testBit 0 = false) (hl : beNat (slice p 0 16) < beNat s.chn.lowest) :
    ∃ r, Sends { s with chn.lowest := slice p 0 16, chn.lowestRait := r } (flood q p s) := by
  refine ⟨if slice p 16 16 == slice p 0 16 then u8 p 33 else s.chn.lowestRait, ?_⟩
  unfold flood
  dsimp only
  rw [if_neg (show ¬(slice p 16 16 == deviceIdent) = true by rw [beq_iff_eq]; exact hs), if_neg (show ¬(u8 p 35).testBit 0 = true by rw [he]; decide), if_neg (Nat.not_lt.mpr (Nat.le_of_lt hl))]
  exact sends_either _ _ _ _ _

theorem onBeacon_lower (hv : u8 (fPayload f) 32 = 1) (h2 : s.chn.state = 2) (hs : slice (fPayload f) 16 16 ≠ deviceIdent)
    (he : (u8 (fPayload f) 35).testBit 0 = false) (hl : beNat (slice (fPayload f) 0 16) < beNat s.chn.lowest) :
    ∃ r, Sends { s with chn.lowest := slice (fPayload f) 0 16, chn.lowestRait := r } (onBeacon q f s) := by
  unfold onBeacon
  dsimp only
  rw [hv, if_neg (by decide), if_neg (by omega)]
  exact flood_lower hs he hl

/-! ### Tokens -/

/-- The machine differs in its ring ports, its roster and whether the members form a chain, and what is not the ring's or the format's. -/
def PlaceKept (s t : State) : Prop := t.chn = { s.chn with port := t.chn.port, roster := t.chn.roster, chain := t.chn.chain } ∧ t.fmt = s.fmt

theorem PlaceKept.refl (s : State) : PlaceKept s s := ⟨rfl, rfl⟩

theorem PlaceKept.trans (h : PlaceKept s t) (k : PlaceKept t u) : PlaceKept s u := by
  obtain ⟨hc, hf⟩ := h
  obtain ⟨kc, kf⟩ := k
  refine ⟨?_, kf.trans hf⟩
  generalize t.chn.port = v, t.chn.roster = r, t.chn.chain = c at hc
  rw [kc, hc]

theorem PortsMoved.place (h : PortsMoved s t) : PlaceKept s t := by
  refine ⟨?_, h.fmt⟩
  unfold PortsMoved at h
  generalize t.chn.port = v at h ⊢
  rw [h]

theorem Sends.place (h : Sends s t) : PlaceKept s t := h.moved.place

theorem placeKept_measureHop (s : State) : PlaceKept s (measureHop s).2 := ⟨rfl, rfl⟩

theorem placeKept_announce (n : Nat) (s : State) : PlaceKept s (announce n s) := by
  unfold announce
  exact .trans (t := noteMember { addr := s.chn.addr, flags := memberFlags s, latency := n, ident := deviceIdent } s) ⟨rfl, rfl⟩
    ((sends_enqueueFrame _ _ _).trans (sends_enqueueFrame _ _ _)).place

theorem placeKept_sendStep3 (q : Fin 2) (s : State) : PlaceKept s (sendStep3 q s) := by
  unfold sendStep3
  dsimp only
  split
  · exact .trans (t := s.modPort q (fun p => { p with sent := 3 })) ⟨rfl, rfl⟩ (sends_enqueueFrame _ _ _).place
  · exact .refl s

theorem placeKept_startAttest (q : Fin 2) (s : State) : PlaceKept s (startAttest q s) := by
  unfold startAttest
  split
  · exact .refl s
  · extract_lets n s1 s2
    have h1 : PlaceKept s s1 := ⟨rfl, rfl⟩
    exact (h1.trans (sends_enqueueFrame _ _ _).place).trans ((sends_enqueueFrame _ _ _).place.trans (placeKept_sendStep3 _ _))

theorem placeKept_attestAll (s : State) : PlaceKept { s with chn.state := 4 } (attestAll s) := (placeKept_startAttest _ _).trans (placeKept_startAttest _ _)

/-- A member that tells of itself at its place attests there. -/
theorem placeKept_attestAll_announce (n : Nat) (h : PlaceKept s t) : PlaceKept { s with chn.state := 4 } (attestAll (announce n t)) := by
  obtain ⟨hc, hf⟩ := h.trans (placeKept_announce n t)
  refine .trans (t := { announce n t with chn.state := 4 }) ⟨?_, hf⟩ (placeKept_attestAll _)
  exact (congrArg (fun c : Chn => { c with state := 4 }) hc :)

/-- The member at its place in the order of the token. -/
def placed (tk : Token) (east : Bool) (s : State) : State :=
  { s with chn.state := 4, chn.addr := tk.next, chn.raitOk := s.chn.lowestRait == 1, chn.east := east }

theorem placeKept_takeAddress (tk : Token) (e : Bool) (s : State) : PlaceKept (placed tk e s) { (takeAddress tk e s).2 with chn.state := 4 } := ⟨rfl, rfl⟩

theorem PlaceKept.enqueue (h : PlaceKept s t) (q : Fin 2) (f : Bytes) : PlaceKept s (enqueueFrame q f t) := h.trans (sends_enqueueFrame q f t).place

theorem onToken_first (hl : (tokenOf f).anchor = s.chn.lowest) (h2 : s.chn.state = 2) (ha : s.chn.anchor = false) (hn : s.chn.addr = noAddr) :
    ∃ e, PlaceKept (placed (tokenOf f) e s) (onToken q f s) := by
  unfold onToken
  dsimp only
  generalize tokenOf f = tk at hl ⊢
  rw [if_neg (by rw [hl, h2]; simp), if_neg (by rw [ha]; decide), if_pos hn]
  by_cases h0 : tk.phase = 0
  · rw [if_pos h0]
    refine ⟨true, .trans (placeKept_takeAddress tk true s) ?_⟩
    generalize takeAddress tk true s = a
    split
    · have hs : PlaceKept { a.2 with chn.state := 4 } (attestAll (announce (measureHop a.2).1 (measureHop a.2).2)) :=
        placeKept_attestAll_announce _ (placeKept_measureHop a.2)
      generalize attestAll (announce (measureHop a.2).1 (measureHop a.2).2) = u at hs ⊢
      exact hs.enqueue _ _
    · have hs : PlaceKept { a.2 with chn.state := 4 } (attestAll (announce 0 { a.2 with chn.chain := true })) := placeKept_attestAll_announce _ ⟨rfl, rfl⟩
      generalize attestAll (announce 0 { a.2 with chn.chain := true }) = u at hs ⊢
      exact hs.enqueue _ _
  · rw [if_neg h0]
    refine ⟨false, .trans (placeKept_takeAddress tk false s) ?_⟩
    generalize takeAddress tk false s = a
    have hs : PlaceKept { a.2 with chn.state := 4 } (attestAll (announce (measureHop a.2).1 { (measureHop a.2).2 with chn.chain := true })) :=
      placeKept_attestAll_announce _ ⟨rfl, rfl⟩
    generalize attestAll (announce (measureHop a.2).1 { (measureHop a.2).2 with chn.chain := true }) = u at hs ⊢
    split
    · exact hs.enqueue _ _
    · exact hs.enqueue _ _

/-! ### Attestation, the roster and the topology -/

theorem onAttest_first (h1 : u8 (fPayload f) 0 = 1) (h0 : (s.rport q).step = 0) :
    onAttest q f s = s.modPort q (fun p => { p with issuing := slice (fPayload f) 164 (min 1884 (u16 (fPayload f) 2)), step := 1 }) := by
  unfold onAttest
  dsimp only
  rw [h1, h0]
  rfl

theorem insertMember_perm (m : Member) (l : List Member) : (insertMember m l).Perm (m :: l) := by
  induction l with
  | nil => exact .refl _
  | cons x l ih =>
    unfold insertMember
    split
    · exact .refl _
    · exact (ih.cons x).trans (.swap m x l)

theorem mem_noteMember {m x : Member} : x ∈ (noteMember m s).chn.roster ↔ x = m ∨ (x ∈ s.chn.roster ∧ x.ident ≠ m.ident) := by
  unfold noteMember
  rw [(insertMember_perm _ _).mem_iff, List.mem_cons, List.mem_filter, bne_iff_ne]

theorem countP_noteMember (m : Member) (s : State) : (noteMember m s).chn.roster.countP (fun x => x.ident == m.ident) = 1 := by
  unfold noteMember
  rw [(insertMember_perm _ _).countP_eq, List.countP_cons_of_pos (by simp), List.countP_filter, List.countP_eq_zero.mpr (by simp +contextual)]

/-- What a ROSTER says of a member. -/
def rosterMember (f : Bytes) : Member :=
  { addr := u16 (fBody f) 0 % 1024, flags := u8 (fBody f) 2, latency := u32 (fBody f) 4, ident := slice (fBody f) 8 16 }

theorem onRoster_other (h : slice (fBody f) 8 16 ≠ deviceIdent) : onRoster f s = noteMember (rosterMember f) s := by
  unfold onRoster
  exact if_neg (by rw [beq_eq_false_iff_ne.mpr h]; simp)

theorem onTopology_ring (h5 : s.chn.state = 5) (hg : s.chn.grp.state = 0) :
    ∃ v, onTopology f s = { s with chn.port := v, chn.state := 6, chn.line := (List.range (max 1 s.chn.members)).map (fun i =>
      ((if u8 (fBody f) 1 = 0 then u16 (fBody f) 2 % 1024 else fSrc f) + i) % max 1 s.chn.members) } := by
  unfold onTopology
  extract_lets b port other mine u
  have hu : PortsMoved s u := by
    dsimp only [u]
    split <;> rfl
  have hu5 : u.chn.state = 5 := (congrArg Chn.state hu.chn :).trans h5
  have hig : inGroup (cutBetween (fSrc f) port other u) = false := by
    unfold inGroup
    rw [cutBetween_grp, hu.grp, hg]; rfl
  rw [if_pos (by rw [hu5]; decide), routeChanged_outside hig, cutBetween_ring hu5]
  clear_value u
  unfold PortsMoved at hu
  generalize u.chn.port = v at hu
  exact ⟨v, by rw [hu]⟩

end

theorem assemblySteps : AssemblySteps := by
  intro q f l s
  refine ⟨fun ha h2 hv hs he hl => ⟨_, congrArg Host.Outcome.next (receive_accepted ha), ?_⟩,
    fun ha h2 han hn hl => ⟨_, congrArg Host.Outcome.next (receive_accepted ha), ?_⟩,
    fun ha h1 h0 => ⟨_, congrArg Host.Outcome.next (receive_accepted ha), ?_⟩,
    fun ha hd hs hg => ?_, fun ha hd hs hg hi => ?_, fun ha hd hs h5 h0 hz => ?_⟩
  · have hm := acceptFrame_moved ha.1
    have hc := hm.chn
    generalize acceptFrame q s = u at hm hc ⊢
    obtain ⟨r, hr⟩ := onBeacon_lower (s := u) (q := q) hv ((congrArg Chn.state hc :).trans h2) hs he (by rw [(congrArg Chn.lowest hc :)]; exact hl)
    have hb := hr.chn
    exact ⟨(congrArg Chn.lowest hb :), (congrArg Chn.state hb :).trans ((congrArg Chn.state hc :).trans h2),
      (congrArg Chn.addr hb :).trans (congrArg Chn.addr hc :), (congrArg Chn.grp hb :).trans hm.grp⟩
  · have hm := acceptFrame_moved ha.1
    have hc := hm.chn
    generalize acceptFrame q s = u at hm hc ⊢
    obtain ⟨e, hb, hf⟩ := onToken_first (s := u) (q := q) (hl.trans (congrArg Chn.lowest hc :).symm) ((congrArg Chn.state hc :).trans h2)
      ((congrArg Chn.anchor hc :).trans han) ((congrArg Chn.addr hc :).trans hn)
    exact ⟨(congrArg Chn.addr hb :), (congrArg Chn.state hb :), (congrArg Chn.raitOk hb :).trans (congrArg (fun c : Chn => c.lowestRait == 1) hc :),
      (congrArg Chn.anchor hb :).trans ((congrArg Chn.anchor hc :).trans han), (congrArg Chn.grp hb :).trans hm.grp, hf.trans hm.fmt⟩
  · obtain ⟨o, ho⟩ := acceptFrame_port ha.1
    rw [ho, onAttest_first h1 (by rw [rport_modPort_same]; exact h0), modPort_modPort, rport_modPort_same]
    exact ⟨rfl, rfl, rfl, rfl⟩
  · obtain ⟨u, hm, hu⟩ := receive_broadcast (l := l) (act := unlessStrange f (onRoster f)) ha hd hs
    have hst : strangeGroup u f = true := by unfold strangeGroup; rw [hm.grp]; exact hg
    refine ⟨_, congrArg Host.Outcome.next (hu.trans (if_pos hst)), ?_⟩
    exact ⟨(congrArg Chn.roster hm.chn :), (congrArg Chn.addr hm.chn :), (congrArg Chn.state hm.chn :)⟩
  · obtain ⟨u, hm, hu⟩ := receive_broadcast (l := l) (act := unlessStrange f (onRoster f)) ha hd hs
    have hst : strangeGroup u f = false := by unfold strangeGroup; rw [hm.grp]; exact hg
    refine ⟨_, congrArg Host.Outcome.next (hu.trans ((if_neg (by rw [hst]; decide)).trans (onRoster_other hi))), ?_⟩
    refine ⟨mem_noteMember.mpr (.inl rfl), countP_noteMember (rosterMember f) u, (congrArg Chn.addr hm.chn :), fun m hmi => ?_⟩
    rw [mem_noteMember, (congrArg Chn.roster hm.chn :)]
    exact ⟨fun h => h.elim (fun h => absurd (congrArg Member.ident h) hmi) And.left, fun h => .inr ⟨h, hmi⟩⟩
  · obtain ⟨u, hm, hu⟩ := receive_broadcast (l := l) (act := unlessStrange f (onTopology f)) ha hd hs
    have hst : strangeGroup u f = false := by unfold strangeGroup; rw [hz, bne_self_eq_false]; rfl
    obtain ⟨v, hv⟩ := onTopology_ring (f := f) ((congrArg Chn.state hm.chn :).trans h5) ((congrArg Group.state hm.grp :).trans h0)
    refine ⟨_, congrArg Host.Outcome.next (hu.trans ((if_neg (by rw [hst]; decide)).trans hv)), rfl, ?_, ?_, (congrArg Group.state hm.grp :).trans h0⟩
    · dsimp only
      rw [List.length_map, List.length_range, (congrArg Chn.members hm.chn :)]
    · dsimp only
      rw [head?_ring (by omega), (congrArg Chn.members hm.chn :)]

end Sys2Proof.Machine

/-- Settles O57: what the checks of a frame, the go-back of a port, a link's change and each assembly message do, with `PortAlike` saying that
frames to be sent change nothing else of a port. -/
theorem Sys2Proof.ringLinks : Obligations.RingLinks := ⟨framesAreChecked, linksRetry, linksComeAndGo, assemblySteps⟩

end

section

/-! PROOFS. RAIT groups form (R302, R312, R314). -/

open Sys2Proof Sys2Proof.Machine Sys2Proof.Claims

namespace Sys2Proof.Machine

section
variable {s t u : State} {q : Fin 2} {f : Bytes} {l : BitVec 4} {msg : Nat} {act : State → State}

/-! ### Group messages that act -/

theorem PortsMoved.port (h : PortsMoved s t) : ∃ v, t = { s with chn.port := v } := ⟨_, h⟩

/-- A frame to this member acts on the machine that accepted it. -/
theorem routed_here (hd : fDst f = s.chn.addr) (ha : s.chn.addr ≠ noAddr) : routed q f act s = act s := by
  unfold routed
  rw [if_neg (by rw [hd]; exact ha), if_pos hd]

theorem acceptFrame_addr (h : portUp s q = true) : (acceptFrame q s).chn.addr = s.chn.addr := (congrArg Chn.addr (acceptFrame_moved h).chn :)

/-- A message of this device's group acts. -/
theorem groupRow_acts (h : ForGroup q f msg s) : groupRow q f l msg act s = act (acceptFrame q s) := by
  obtain ⟨hacc, hd, ha, hst, hid⟩ := h
  have haddr := acceptFrame_addr hacc.1
  have hg := (acceptFrame_moved hacc.1).grp
  unfold groupRow
  rw [receive_accepted hacc, routed_here (by rw [haddr]; exact hd) (by rw [haddr]; exact ha)]
  generalize acceptFrame q s = u at hg ⊢
  have hstrange : strangeGroup u f = false := by
    unfold strangeGroup
    rw [hg]
    rcases hid with hid | hid
    · rw [hid, bne_iff_ne.mpr hst, beq_self_eq_true]; simp
    · rw [hid, bne_self_eq_false]; rfl
  unfold ofGroup unlessStrange
  rw [if_neg (by rw [hg]; exact hst), hstrange]
  rfl

/-- A message of this device's group acts on a machine that has moved on in its ports alone. -/
theorem groupRow_moved (h : ForGroup q f msg s) : ∃ v, groupRow q f l msg act s = act { s with chn.port := v } := by
  obtain ⟨v, hv⟩ := (acceptFrame_moved h.1.1).port
  exact ⟨v, (groupRow_acts h).trans (congrArg act hv)⟩

/-! ### What is kept by position -/

theorem lookup_filter_other {α : Type} {j k : Nat} (h : j ≠ k) (l : List (Nat × α)) : (l.filter (fun x => x.1 != k)).lookup j = l.lookup j := by
  induction l with
  | nil => rfl
  | cons x l ih =>
    obtain ⟨i, w⟩ := x
    by_cases hi : i = k
    · rw [List.filter_cons_of_neg (by simp [hi]), ih, List.lookup_cons, beq_false_of_ne (by rw [hi]; exact h)]
    · rw [List.filter_cons_of_pos (by simp [hi]), List.lookup_cons, List.lookup_cons, ih]

theorem lookup_put_other {α : Type} {j k : Nat} (h : j ≠ k) (v : α) (l : List (Nat × α)) :
    ((k, v) :: l.filter (fun x => x.1 != k)).lookup j = l.lookup j := by
  rw [List.lookup_cons, beq_false_of_ne h]
  exact lookup_filter_other h l

theorem allSerials_none {g : Group} {p : Nat} (hp : p < g.size) (h : g.serials.lookup p = none) : allSerials g = none := by
  unfold allSerials
  refine if_neg fun hall => ?_
  rw [List.all_map, List.all_eq_true] at hall
  have := hall p (List.mem_range.mpr hp)
  rw [Function.comp_apply, h] at this
  exact absurd this (by decide)

theorem tryForm_waits (h : allSerials s.chn.grp = none) : tryForm s = s := by
  unfold tryForm
  dsimp only
  rw [h]

/-! ### Answers and the group record -/

theorem sends_sendTo (dst : Nat) (f : Bytes) (s : State) : Sends s (sendTo dst f s) := by
  unfold sendTo
  split
  · exact sends_enqueueFrame _ _ _
  · exact .refl s

theorem sends_tellPos (p msg pos : Nat) (b : Bytes) (s : State) : Sends s (tellPos p msg pos b s) := by
  unfold tellPos
  split
  · exact sends_sendTo _ _ _
  · exact .refl s

theorem sends_sendAnswer (s : State) : Sends s (sendAnswer s) := by
  unfold sendAnswer
  dsimp only
  split
  · exact .refl s
  · exact sends_tellPos _ _ _ _ _

theorem onJoin_sends (s : State) :
    Sends { s with chn.grp.state := if s.chn.grp.state = 2 then 1 else s.chn.grp.state, chn.grp.serials := [] } (onJoin s) := by
  unfold onJoin
  by_cases h : s.chn.grp.state = 2
  · rw [if_pos h, if_pos h]; exact sends_sendAnswer _
  · rw [if_neg h, if_neg h]; exact sends_sendAnswer _

/-- A group as it is formed at a stripe with a session. -/
def Group.formedAt (s0 session : Nat) (g : Group) : Group :=
  { g with state := 2, s0 := s0, session := session, next := 0, stripes := [], held := [], commits := [], commit := s0, xoff := []
           sessionEnd := none, serve := [], wanted := [], got := [], rebuilt := [] }

theorem writeCm_takes {off : Nat} {b : Bytes} (h : s.cart.writes = true) : writeCm off b s = { s with cart.cm := patch s.cart.cm off b } := if_pos h

theorem writeCm_refuses {off : Nat} {b : Bytes} (h : s.cart.writes = false) : writeCm off b s = s := if_neg (by rw [h]; decide)

theorem writeCm_chn (off : Nat) (b : Bytes) (s : State) : (writeCm off b s).chn = s.chn :=
  (Frames.writeCm_same Frames.sub_refl Frames.same_refl).chn rfl

theorem writeCm_fmt (off : Nat) (b : Bytes) (s : State) : (writeCm off b s).fmt = s.fmt :=
  (Frames.writeCm_same Frames.sub_refl Frames.same_refl).fmt rfl

theorem formHere_grp (s0 n : Nat) (l : List Bytes) (s : State) : (formHere s0 n l s).chn.grp = s.chn.grp.formedAt s0 n :=
  (congrArg Chn.grp (writeCm_chn cmGroup (groupRecord (s.chn.grp.formedAt s0 n) l) { s with chn.grp := s.chn.grp.formedAt s0 n }) :)

theorem formHere_fmt (s0 n : Nat) (l : List Bytes) (s : State) : (formHere s0 n l s).fmt = s.fmt :=
  writeCm_fmt cmGroup (groupRecord (s.chn.grp.formedAt s0 n) l) { s with chn.grp := s.chn.grp.formedAt s0 n }

theorem formHere_writes {s0 n : Nat} {l : List Bytes} (h : s.cart.writes = true) :
    (formHere s0 n l s).cart = { s.cart with cm := patch s.cart.cm cmGroup (groupRecord (s.chn.grp.formedAt s0 n) l) } :=
  (congrArg State.cart (writeCm_takes (s := { s with chn.grp := s.chn.grp.formedAt s0 n }) h) :)

theorem formHere_refuses {s0 n : Nat} {l : List Bytes} (h : s.cart.writes = false) : (formHere s0 n l s).cart = s.cart :=
  (congrArg State.cart (writeCm_refuses (s := { s with chn.grp := s.chn.grp.formedAt s0 n }) h) :)

theorem onStart_forms {serials : List Bytes} (h1 : s.chn.grp.state = 1) (ha : allSerials s.chn.grp = some serials)
    (hc : slice (fBody f) 8 4 = crcBytes (serials.flatMap (padTo 16))) : onStart f s = formHere (u32 (fBody f) 0) (u32 (fBody f) 4) serials s := by
  unfold onStart
  rw [ha]
  exact if_pos (by rw [h1, hc, beq_self_eq_true]; rfl)

theorem onStart_refuses {serials : List Bytes} (ha : allSerials s.chn.grp = some serials)
    (hc : slice (fBody f) 8 4 ≠ crcBytes (serials.flatMap (padTo 16))) : onStart f s = s := by
  unfold onStart
  rw [ha]
  exact if_neg (by rw [beq_false_of_ne hc]; simp)

theorem onSerial_notes (h1 : s.chn.grp.state = 1) :
    onSerial f s = { s with chn.grp.serials := (fPos f, slice (fBody f) 0 16) :: s.chn.grp.serials.filter (fun x => x.1 != fPos f) } :=
  if_neg (by rw [h1]; decide)

theorem onJoinAck_notes (h1 : s.chn.grp.state = 1) (ho : isOrigin s = true) (hm : ∃ p, p < s.chn.grp.size ∧ p ≠ fPos f ∧ s.chn.grp.serials.lookup p = none) :
    onJoinAck f s = { s with
      chn.grp.answers := (fPos f, u32 (fBody f) 4, u32 (fBody f) 8, slice (fBody f) 0 4 == s.chn.grp.crc) :: s.chn.grp.answers.filter (fun x => x.1 != fPos f)
      chn.grp.serials := (fPos f, slice (fBody f) 16 16) :: s.chn.grp.serials.filter (fun x => x.1 != fPos f) } := by
  obtain ⟨p, hp, hne, hnone⟩ := hm
  unfold onJoinAck
  rw [if_neg (by rw [h1, ho]; decide)]
  exact tryForm_waits (allSerials_none hp ((lookup_put_other hne _ _).trans hnone))

end

theorem groupsForm : GroupsForm := by
  intro q f l s
  refine ⟨fun h => ?_, fun h h1 ho hm => ?_, fun h h1 => ?_, fun serials h h1 ha hc => ?_, fun serials h h1 ha hc => ?_⟩
  · obtain ⟨v, hv⟩ := groupRow_moved (l := l) (act := onJoin) h
    have hs := onJoin_sends { s with chn.port := v }
    refine ⟨_, congrArg Host.Outcome.next hv, (congrArg Group.state hs.grp :), (congrArg Group.serials hs.grp :), (congrArg State.cart hs.2 :), hs.fmt⟩
  · obtain ⟨v, hv⟩ := groupRow_moved (l := l) (act := onJoinAck f) h
    exact ⟨_, congrArg Host.Outcome.next (hv.trans (onJoinAck_notes (s := { s with chn.port := v }) h1 ho hm)), rfl, List.lookup_cons_self, h1⟩
  · obtain ⟨v, hv⟩ := groupRow_moved (l := l) (act := onSerial f) h
    exact ⟨_, congrArg Host.Outcome.next (hv.trans (onSerial_notes (s := { s with chn.port := v }) h1)), List.lookup_cons_self,
      fun p hp => lookup_put_other hp _ _, h1⟩
  · obtain ⟨v, hv⟩ := groupRow_moved (l := l) (act := onStart f) h
    refine ⟨_, congrArg Host.Outcome.next (hv.trans (onStart_forms (s := { s with chn.port := v }) h1 ha hc)), ?_⟩
    have hg := formHere_grp (u32 (fBody f) 0) (u32 (fBody f) 4) serials { s with chn.port := v }
    refine ⟨(congrArg Group.state hg :), (congrArg Group.s0 hg :), (congrArg Group.session hg :), (congrArg Group.next hg :), (congrArg Group.stripes hg :),
      fun hw => ⟨s.chn.grp.formedAt (u32 (fBody f) 0) (u32 (fBody f) 4), formHere_writes (s := { s with chn.port := v }) hw, rfl, rfl⟩,
      fun hw => formHere_refuses (s := { s with chn.port := v }) hw, formHere_fmt _ _ _ _⟩
  · refine congrArg Host.Outcome.next ((groupRow_acts h).trans (onStart_refuses ?_ hc))
    rw [(acceptFrame_moved h.1.1).grp]
    exact ha

end Sys2Proof.Machine

end

section

/-! PROOFS. RAIT groups at work: rows, confirmations, commits and sessions (R313 to R320). -/

open Sys2Proof Sys2Proof.Machine Sys2Proof.Claims

namespace Sys2Proof.Machine

section
variable {s : State} {q : Fin 2} {f : Bytes} {l : BitVec 4}

/-! ### Rows of append at a member -/

theorem askStripeBuffer_idle (h : ∀ x ∈ s.chn.grp.stripes, x.handle.isSome = true) : askStripeBuffer s = s := by
  refine if_neg fun hany => ?_
  obtain ⟨x, hx, hn⟩ := List.any_eq_true.mp hany
  rw [Option.isNone_iff_eq_none] at hn
  exact absurd (h x hx) (by rw [hn]; decide)

theorem settleXoff_idle (h : (s.pan 3).low = s.chn.grp.xoffSent) : settleXoff s = s := by
  unfold settleXoff
  exact if_pos (by rw [h]; simp)

theorem joinStripe_idle (h : ∀ x ∈ s.chn.grp.stripes, x.whole = false) : joinStripe s = s := by
  have hnone : s.chn.grp.stripes.find? (fun x => x.stripe == nextStripe s && x.whole) = none :=
    List.find?_eq_none.mpr fun x hx => by rw [h x hx]; simp
  unfold joinStripe
  rw [hnone]

theorem foldl_fixed {α β : Type} {f : α → β → α} {a : α} (h : ∀ b, f a b = a) (l : List β) : l.foldl f a = a := by
  induction l with
  | nil => rfl
  | cons b l ih => rw [List.foldl_cons, h, ih]

/-- While no stripe is whole and none has become whole, a member settles the end of its session alone. -/
theorem settleStripes_partial (h2 : s.chn.grp.state = 2) (ho : isOrigin s = false) (h : ∀ x ∈ s.chn.grp.stripes, x.whole = false ∧ stripeWhole s.chn.grp x = false) :
    settleStripes s = endStripes s := by
  have hnew : s.chn.grp.stripes.filter (fun x => !x.whole && stripeWhole s.chn.grp x) = [] :=
    List.filter_eq_nil_iff.mpr fun x hx => by rw [(h x hx).2]; simp
  unfold settleStripes
  rw [if_neg (by rw [h2, ho]; decide), hnew]
  exact congrArg endStripes (foldl_fixed (fun _ => joinStripe_idle fun x hx => (h x hx).1) _)

theorem endStripes_none (h : s.chn.grp.sessionEnd = none) : endStripes s = s := by
  unfold endStripes
  rw [h]

theorem endStripes_before {e : Nat} (h : s.chn.grp.sessionEnd = some e) (he : nextStripe s < e) : endStripes s = s := by
  unfold endStripes
  rw [h]
  exact if_pos he

theorem endStripes_due {e : Nat} {w : WSession} (h : s.chn.grp.sessionEnd = some e) (he : e ≤ nextStripe s) (hw : s.fmt.sess = some w) :
    endStripes s = { s with fmt.sess := some { w with ending := true }, chn.grp.sessionEnd := none } := by
  unfold endStripes
  rw [h]
  dsimp only
  rw [if_neg (by omega), hw]
  simp only [Option.isSome_some, if_true, Option.map_some, hw]

theorem length_modFirst {α : Type} (p : α → Bool) (f : α → α) (l : List α) : (modFirst p f l).length = l.length := by
  induction l with
  | nil => rfl
  | cons x l ih =>
    unfold modFirst
    split
    · rfl
    · exact congrArg (· + 1) ih

theorem stripe_take_rows (g : Group) (pos r : Nat) (row : Bytes) (x : Stripe) : ∃ y, Stripe.take g pos r row x = { x with rows := y } ∧ y.length ≤ x.rows.length + 1 := by
  unfold Stripe.take
  split
  · split
    · exact ⟨x.rows, rfl, by omega⟩
    · exact ⟨_, rfl, by rw [List.length_append]; exact Nat.le_refl _⟩
  · dsimp only
    split
    · exact ⟨_, rfl, by rw [length_modFirst]; omega⟩
    · exact ⟨_, rfl, by rw [List.length_append]; exact Nat.le_refl _⟩

/-- A member whose stripes all have a buffer and lack rows has nothing to settle. -/
theorem settle_partial (h2 : s.chn.grp.state = 2) (ho : isOrigin s = false) (he : s.chn.grp.sessionEnd = none) (hlow : (s.pan 3).low = s.chn.grp.xoffSent)
    (h : ∀ x ∈ s.chn.grp.stripes, x.handle.isSome = true ∧ x.whole = false ∧ stripeWhole s.chn.grp x = false) :
    settleXoff (settleStripes (askStripeBuffer s)) = s := by
  rw [askStripeBuffer_idle fun x hx => (h x hx).1, settleStripes_partial h2 ho fun x hx => (h x hx).2, endStripes_none he]
  exact settleXoff_idle hlow

/-- A row of the one stripe in hand is placed, and does not make it whole. -/
theorem placeData_one {x : Stripe} (h2 : s.chn.grp.state = 2) (ho : isOrigin s = false) (hn : nextStripe s ≤ fStripe f) (hx : s.chn.grp.stripes = [x])
    (hs : x.stripe = fStripe f) (hh : x.handle.isSome = true) (hw : x.whole = false) (hl : x.rows.length + 1 < payloadRows)
    (he : s.chn.grp.sessionEnd = none) (hlow : (s.pan 3).low = s.chn.grp.xoffSent) :
    placeData f s = { s with fmt.winIntake := s.fmt.winIntake + 2048
                             chn.grp.stripes := [Stripe.take s.chn.grp (fPos f) (fRow f) (fPayload f) x] } := by
  obtain ⟨y, hy, hlen⟩ := stripe_take_rows s.chn.grp (fPos f) (fRow f) (fPayload f) x
  have hins : insertStripe { stripe := fStripe f } s.chn.grp.stripes = [x] := by
    rw [hx]; exact if_pos hs.symm
  have hmod : modFirst (fun z => z.stripe == fStripe f) (Stripe.take s.chn.grp (fPos f) (fRow f) (fPayload f)) [x]
      = [Stripe.take s.chn.grp (fPos f) (fRow f) (fPayload f) x] := by
    unfold modFirst
    rw [hs, beq_self_eq_true]; rfl
  unfold placeData
  dsimp only
  rw [if_neg (by omega), hins, hmod, hy]
  have hwhole : stripeWhole s.chn.grp { x with rows := y } = false := by
    have hne : (y.length == payloadRows) = false := beq_false_of_ne (by omega)
    unfold stripeWhole
    rw [hne, Bool.and_false]; rfl
  refine settle_partial (s := { s with fmt.winIntake := s.fmt.winIntake + 2048, chn.grp.stripes := [{ x with rows := y }] }) h2 ho he hlow fun z hz => ?_
  rw [List.mem_singleton.mp hz]
  exact ⟨hh, hw, hwhole⟩

theorem isTarget_member (h : isTarget s f = true) : s.chn.grp.state = 2 ∧ isOrigin s = false := by
  unfold isTarget at h
  simp only [Bool.and_eq_true, beq_iff_eq, Bool.not_eq_true'] at h
  obtain ⟨⟨⟨⟨⟨h2, ho⟩, -⟩, -⟩, -⟩, -⟩ := h
  exact ⟨h2, ho⟩

theorem dataRow_here (hd : fDst f = s.chn.addr) (ht : isTarget s f = true) : dataRow f q s = placeData f s := by
  have hpass : (decide (fDst f = s.chn.addr) || decide (fSrc f = s.chn.addr)) = true := by rw [hd]; simp
  unfold dataRow
  dsimp only
  rw [if_pos hpass]
  exact if_pos ht

/-! ### Rows of retrieve -/

/-- A row that a request covers and of which nothing is known is missing. -/
theorem takeRow_missing {r : RowReq} {pos stripe row : Nat} (hr : r ∈ s.chn.grp.wanted) (hp : r.position = pos) (hs : r.stripe = stripe) (h1 : r.first ≤ row)
    (h2 : row < r.first + r.count) (hn : rowAt s stripe row pos = none) :
    takeRow pos stripe row none s = settleRow stripe row { s with chn.grp.got := (pos, stripe, row, none) :: s.chn.grp.got } := by
  have hany : s.chn.grp.wanted.any (fun q => q.position == pos && q.stripe == stripe && decide (q.first ≤ row) && decide (row < q.first + q.count)) = true :=
    List.any_eq_true.mpr ⟨r, hr, by simp [hp, hs, h1, h2]⟩
  unfold takeRow
  dsimp only
  rw [hany, hn]
  rfl

theorem onReadRow_lost {r : RowReq} (ho : isOrigin s = true) (h2 : s.chn.grp.state = 2) (hf : fOrigin f = s.chn.addr) (hl : (fFlags f).testBit 1 = true)
    (hr : r ∈ s.chn.grp.wanted) (hp : r.position = fPos f) (hs : r.stripe = fStripe f) (h1 : r.first ≤ fRow f) (h3 : fRow f < r.first + r.count)
    (hn : rowAt s (fStripe f) (fRow f) (fPos f) = none) :
    onReadRow f s = settleRow (fStripe f) (fRow f) { s with chn.grp.got := (fPos f, fStripe f, fRow f, none) :: s.chn.grp.got } := by
  unfold onReadRow
  rw [if_pos (by rw [ho, h2, hf]; simp), if_pos hl]
  exact takeRow_missing hr hp hs h1 h3 hn

theorem readRowTimeout_missing {r : RowReq} {pos stripe row : Nat} (ho : isOrigin s = true) (h2 : s.chn.grp.state = 2) (hr : r ∈ s.chn.grp.wanted)
    (hp : r.position = pos) (hs : r.stripe = stripe) (h1 : r.first ≤ row) (h3 : row < r.first + r.count) (hn : rowAt s stripe row pos = none) :
    readRowTimeout pos stripe row s = settleRow stripe row { s with chn.grp.got := (pos, stripe, row, none) :: s.chn.grp.got } := by
  unfold readRowTimeout
  rw [if_pos (by rw [ho, h2]; rfl)]
  exact takeRow_missing hr hp hs h1 h3 hn

/-- The rows that a READ_REQ asks of this member. -/
def askedRows (f : Bytes) (s : State) : RowReq :=
  { position := s.chn.grp.position, stripe := u32 (fBody f) 0, first := u16 (fBody f) 4, count := min (u16 (fBody f) 6) (payloadRows - u16 (fBody f) 4) }

theorem onReadReq_owed (ho : isOrigin s = false) (h2 : s.chn.grp.state = 2) (hp : fPos f = s.chn.grp.position) (hs : s.fmt.sess = none) (hv : s.chn.grp.serve = [])
    (hst : s.rtv.started = true) (hpart : s.rtv.part = s.chn.grp.part) (hlow : s.rtv.low ≤ u32 (fBody f) 0) (hn : s.rdAt (u32 (fBody f) 0) 0 = none)
    (he : s.rtv.eodSeen = false) (h6 : u16 (fBody f) 6 ≠ 0) (h4 : u16 (fBody f) 4 < payloadRows) :
    onReadReq f s = { s with chn.grp.serve := [askedRows f s] } := by
  have hcount : min (u16 (fBody f) 6) (payloadRows - u16 (fBody f) 4) ≠ 0 := by omega
  unfold onReadReq
  dsimp only
  rw [if_neg (by rw [ho, h2, hp, hs]; simpa using hcount), hst, hpart, if_pos (by simpa using hlow), hv]
  unfold serveAll
  rw [List.nil_append, List.foldl_cons, List.foldl_nil]
  have hrd : ({ s with chn.grp.serve := [askedRows f s] }).rdAt (u32 (fBody f) 0) 0 = none := hn
  have heod : ({ s with chn.grp.serve := [askedRows f s] }).rtv.eodSeen = false := he
  change (match ({ s with chn.grp.serve := [askedRows f s] }).rdAt (u32 (fBody f) 0) 0 with | some _ => _ | none => _) = _
  rw [hrd]
  exact if_neg (by rw [heod]; decide)

/-! ### Messages of the group -/

theorem onPayloadOk_origin (ho : isOrigin s = true) :
    onPayloadOk f s = { s with chn.grp.held := modAll (fun h => h.stripe == u32 (fBody f) 0 && !h.confirmed.contains (fPos f))
                                                 (fun h => { h with confirmed := fPos f :: h.confirmed }) s.chn.grp.held } :=
  if_neg (by rw [ho]; decide)

theorem groupCommit_empty (hh : s.chn.grp.held = []) : ∃ c, s.chn.grp.commit ≤ c ∧ groupCommit s = { s with chn.grp.commit := c } := by
  unfold groupCommit
  split
  · exact ⟨s.chn.grp.commit, Nat.le_refl _, rfl⟩
  · dsimp only
    rw [hh]
    exact ⟨_, Nat.le_max_left _ _, rfl⟩

theorem settleWaits_chn (s : State) : (settleWaits s).chn = s.chn := (Frames.settleWaits_same Frames.sub_refl Frames.same_refl).chn rfl

/-- STRIPE_COMMIT where no payload is held. -/
theorem onStripeCommit_empty (ho : isOrigin s = true) (hh : s.chn.grp.held = []) : ∃ c, s.chn.grp.commit ≤ c ∧ (onStripeCommit f s).chn.grp =
    { s.chn.grp with commits := (fPos f, u32 (fBody f) 0) :: s.chn.grp.commits.filter (fun x => x.1 != fPos f), commit := c } := by
  unfold onStripeCommit
  rw [if_neg (by rw [ho]; decide), settleWaits_chn]
  obtain ⟨c, hc, hg⟩ := groupCommit_empty (s := { s with chn.grp.commits := (fPos f, u32 (fBody f) 0) :: s.chn.grp.commits.filter (fun x => x.1 != fPos f) }) hh
  exact ⟨c, hc, (congrArg (fun u : State => u.chn.grp) hg :)⟩

theorem onXoff_notes (ho : isOrigin s = true) (hl : s.chn.grp.isLost (fPos f) = false) :
    onXoff f s = { s with chn.grp.xoff := fPos f :: s.chn.grp.xoff.filter (fun p => p != fPos f) } :=
  if_pos (by rw [ho, hl]; rfl)

theorem onXon_sends (ho : isOrigin s = true) : Sends { s with chn.grp.xoff := s.chn.grp.xoff.filter (fun p => p != fPos f) } (onXon f s) := by
  unfold onXon
  rw [if_pos ho]
  exact (Sends.of_at (sendsAt_pumpPort _ _)).trans (.of_at (sendsAt_pumpPort _ _))

theorem onSessionEnd_member (ho : isOrigin s = false) (h2 : s.chn.grp.state = 2) (he : s.chn.grp.stripes = []) :
    onSessionEnd f s = endStripes { s with chn.grp.sessionEnd := some (u32 (fBody f) 0) } := by
  unfold onSessionEnd
  rw [if_neg (by rw [ho, h2]; decide)]
  refine settleStripes_partial (s := { s with chn.grp.sessionEnd := some (u32 (fBody f) 0) }) h2 ho fun x hx => ?_
  have : x ∈ s.chn.grp.stripes := hx
  rw [he] at this
  exact absurd this List.not_mem_nil

theorem onPositionLost_member (ho : isOrigin s = false) : onPositionLost f s = { s with chn.grp.lost := s.chn.grp.lost ||| BitVec.twoPow 32 (fPos f) } :=
  if_neg (by rw [ho]; decide)

end

end Sys2Proof.Machine

end

section

/-! PROOFS. A RAIT group that has failed, and the positions that it knows as lost (R318, R319). -/

open Sys2Proof Sys2Proof.Machine Sys2Proof.Claims

namespace Sys2Proof.Machine

/-! ### A failed group stays ended, and a lost position lost, while buffers are given back -/

section
variable {r s t : State}

/-- The group of a member has ended: it has failed, no stripe and no row is owed, and a session that there is ends. -/
def Ended (s : State) : Prop := s.chn.grp.state = 3 ∧ s.chn.grp.stripes = [] ∧ s.chn.grp.serve = [] ∧ ∀ w, s.fmt.sess = some w → w.ending = true

/-- The positions lost stay as they are, and a group that has ended stays so. -/
def GroupKept (s t : State) : Prop := t.chn.grp.lost = s.chn.grp.lost ∧ (Ended s → Ended t)

/-- What `GroupKept` speaks of. -/
def groupView (s : State) : BitVec 32 × Nat × List Stripe × List RowReq × Option WSession :=
  (s.chn.grp.lost, s.chn.grp.state, s.chn.grp.stripes, s.chn.grp.serve, s.fmt.sess)

theorem GroupKept.refl (s : State) : GroupKept s s := ⟨rfl, id⟩

theorem GroupKept.trans (h : GroupKept r s) (k : GroupKept s t) : GroupKept r t := ⟨k.1.trans h.1, k.2 ∘ h.2⟩

theorem GroupKept.of_view (h : groupView t = groupView s) : GroupKept s t := by
  obtain ⟨hl, hst, hs, hv, hw⟩ : t.chn.grp.lost = s.chn.grp.lost ∧ t.chn.grp.state = s.chn.grp.state ∧ t.chn.grp.stripes = s.chn.grp.stripes
      ∧ t.chn.grp.serve = s.chn.grp.serve ∧ t.fmt.sess = s.fmt.sess := by
    simpa only [groupView, Prod.mk.injEq] using h
  refine ⟨hl, ?_⟩
  unfold Ended
  rw [hst, hs, hv, hw]
  exact id

/-- An operation whose frame has neither the ring's nor the format's state. -/
theorem GroupKept.of_same {w : BitVec 30} (h : Frames.Same w s t) (hc : w.getLsbD 25 = false) (hf : w.getLsbD 13 = false) : GroupKept s t := by
  refine .of_view ?_
  unfold groupView
  rw [h.chn hc, h.fmt hf]

theorem GroupKept.of_sends (h : Sends s t) : GroupKept s t := by
  refine .of_view ?_
  unfold groupView
  rw [h.grp, h.fmt]

theorem groupKept_foldl {α : Type} {f : State → α → State} (hf : ∀ s a, GroupKept s (f s a)) (l : List α) (s : State) : GroupKept s (l.foldl f s) :=
  List.foldlRecOn (motive := GroupKept s) l f (.refl s) fun _ h a _ => h.trans (hf _ a)

theorem GroupKept.of_if {p : Prop} [Decidable p] {a b : State} (ha : GroupKept s a) (hb : GroupKept s b) : GroupKept s (if p then a else b) := by
  split
  · exact ha
  · exact hb

end

theorem groupKept_tellPos (p msg pos : Nat) (b : Bytes) (s : State) : GroupKept s (tellPos p msg pos b s) := .of_sends (sends_tellPos _ _ _ _ _)

theorem groupKept_tellAll (msg pos : Nat) (b : Bytes) (s : State) : GroupKept s (tellAll msg pos b s) := .of_sends (sends_sendAll _ _)

theorem groupKept_sendPayload (h : HeldDs) (s : State) : GroupKept s (sendPayload h s) := by
  unfold sendPayload
  exact groupKept_foldl (fun s _ => groupKept_foldl (fun s _ => .of_sends (sends_enqueueFrame _ _ s)) _ s) _ s

theorem groupKept_stripeDs (d : DsBuf) (s : State) : GroupKept s (stripeDs d s) := by
  unfold stripeDs
  extract_lets _ _ _ _ _ _ _ _ _ _ _ b
  have hb : GroupKept s b := .of_if (.of_view rfl) (.of_view rfl)
  exact hb.trans (groupKept_sendPayload _ b)

theorem groupKept_joinQueue (d : DsBuf) (s : State) : GroupKept s (joinQueue d s) := by
  unfold joinQueue
  split
  · exact groupKept_stripeDs d s
  · exact .of_view rfl

theorem groupKept_closeDs (id : Nat) (s : State) : GroupKept s (closeDs id s) := by
  unfold closeDs
  split
  · exact .refl s
  · refine .trans ?_ (groupKept_joinQueue _ _)
    exact .of_view rfl

theorem groupKept_padStripe (x : Stream) (pos : Nat) (s : State) : GroupKept s (padStripe x pos s) := by
  unfold padStripe
  split
  · exact .refl s
  · refine groupKept_foldl (fun a _ => ?_) _ s
    split
    · exact .refl a
    · extract_lets d
      have ha : GroupKept a { a with nextId := a.nextId + 1 } := .of_view rfl
      exact ha.trans (groupKept_stripeDs d _)

theorem groupKept_popItem (sid : Nat) (s : State) : GroupKept s (popItem sid s) := .of_view rfl

theorem groupKept_pumpOne (sid : Nat) (s : State) : GroupKept s (pumpOne sid s) := by
  unfold pumpOne
  split
  · exact .refl s
  · split
    · exact .of_if (.of_view rfl) (groupKept_closeDs _ s)
    · exact (groupKept_closeDs _ s).trans ((groupKept_padStripe _ _ _).trans (groupKept_popItem sid _))
    · exact (groupKept_padStripe _ _ s).trans (groupKept_popItem sid _)
    · exact .refl s

theorem groupKept_pump (sid : Nat) (s : State) : GroupKept s (pump sid s) := by
  unfold pump
  split
  · exact .refl s
  · exact (groupKept_foldl (fun s _ => groupKept_pumpOne sid s) _ s).trans (.of_same (Frames.noteWaits_same Frames.sub_refl Frames.same_refl) rfl rfl)

theorem groupKept_releaseHandle (r h : Nat) (s : State) : GroupKept s (releaseHandle r h s) :=
  .of_same (Frames.releaseHandle_same Frames.sub_refl Frames.same_refl) rfl rfl

theorem groupKept_freshStripes (a n : Nat) (s : State) : GroupKept s (freshStripes a n s) :=
  .of_same (Frames.freshStripes_same Frames.sub_refl Frames.same_refl) rfl rfl

theorem groupKept_openDs (sid handle : Nat) (s : State) : GroupKept s (openDs sid handle s) := by
  unfold openDs
  split
  · exact groupKept_releaseHandle _ _ s
  · have hfresh := groupKept_freshStripes (bufExtent s handle).1 (bufExtent s handle).2 s
    dsimp only
    generalize freshStripes (bufExtent s handle).1 (bufExtent s handle).2 s = a at hfresh ⊢
    refine hfresh.trans (.trans ?_ (groupKept_pump sid _))
    exact .of_view rfl

theorem groupKept_handOver (r h dest : Nat) (s : State) : GroupKept s (onBehalf (panHandoff r h dest) s) :=
  .of_same (w := 0x20010) (Frames.onBehalf_same rfl (fun _ hk => Frames.panHandoff_same rfl hk) Frames.same_refl) rfl rfl

theorem groupKept_blkSealed (e id handle : Nat) (s : State) : GroupKept s (blkSealed e id handle s) := by
  unfold blkSealed
  split
  · exact groupKept_releaseHandle _ _ s
  · extract_lets x a _ b c d e f
    have hb : GroupKept a b := .of_view rfl
    have hf : GroupKept c f := .of_same (w := 0x980) (Frames.State_modInst_same rfl (Frames.State_modCmd_same rfl (Frames.State_modBlk_same rfl Frames.same_refl))) rfl rfl
    exact ((groupKept_freshStripes _ _ s).trans (hb.trans (groupKept_handOver _ _ _ b))).trans (hf.trans (groupKept_pump _ f))

/-! #### Stripes that settle -/

theorem joinStripe_lost (s : State) : (joinStripe s).chn.grp.lost = s.chn.grp.lost := by
  unfold joinStripe
  split
  · rfl
  · dsimp only
    split
    · rfl
    · rfl

theorem endStripes_lost (s : State) : (endStripes s).chn.grp.lost = s.chn.grp.lost := by
  unfold endStripes
  split
  · rfl
  · split
    · rfl
    · dsimp only
      split
      · rfl
      · rfl

theorem foldl_lost {α : Type} {f : State → α → State} (hf : ∀ s a, (f s a).chn.grp.lost = s.chn.grp.lost) (l : List α) (s : State) :
    (l.foldl f s).chn.grp.lost = s.chn.grp.lost :=
  List.foldlRecOn (motive := fun t : State => t.chn.grp.lost = s.chn.grp.lost) l f rfl fun _ h a _ => (hf _ a).trans h

/-- A group that has ended settles nothing. -/
theorem groupKept_settleStripes (s : State) : GroupKept s (settleStripes s) := by
  unfold settleStripes
  split
  · exact .refl s
  next h2 =>
    refine ⟨?_, fun he => absurd (by rw [he.1]; rfl) h2⟩
    refine (endStripes_lost _).trans ((foldl_lost (fun s _ => joinStripe_lost s) _ _).trans (foldl_lost (fun s x => ?_) _ s))
    dsimp only
    rw [Sends.grp (sends_tellPos _ _ _ _ _)]

theorem groupKept_takeUp (s : State) (g : Nat × Nat) : GroupKept s (takeUp s g) := by
  unfold takeUp
  extract_lets _ a x b
  have ha : GroupKept s a := .of_view rfl
  have hb : GroupKept a b := (groupKept_freshStripes _ _ a).trans (groupKept_handOver _ _ _ _)
  split
  · split
    · exact ha.trans (groupKept_openDs _ _ a)
    · exact .refl s
  · split
    · split
      next hany =>
        refine ⟨(groupKept_settleStripes _).1.trans (ha.trans hb).1, fun he => ?_⟩
        rw [he.2.1] at hany
        exact absurd hany (by decide)
      · exact .refl s
    · split
      · split
        · exact (ha.trans (groupKept_freshStripes x.1 x.2 a)).trans (.of_view rfl)
        · exact ha.trans (groupKept_releaseHandle _ _ a)
      · split
        · refine .trans (s := { a with codec.engines := _ }) (.of_view rfl) (groupKept_blkSealed _ _ _ _)
        · exact .refl s

theorem groupKept_settleGrants (s : State) : GroupKept s (settleGrants s) :=
  (groupKept_foldl groupKept_takeUp _ s).trans (.of_same (Frames.dispatch_same Frames.sub_refl Frames.same_refl) rfl rfl)

theorem groupKept_giveBack (h : Option Nat) (s : State) : GroupKept s (giveBack h s) := by
  unfold giveBack
  split
  · exact (groupKept_releaseHandle _ _ s).trans (groupKept_settleGrants _)
  · exact .refl s

/-! ### The group fails -/

theorem groupKept_settleWaits (s : State) : GroupKept s (settleWaits s) := .of_same (Frames.settleWaits_same Frames.sub_refl Frames.same_refl) rfl rfl

theorem groupKept_dropUnwritten (s : State) : GroupKept s (dropUnwritten s) := by
  have h : GroupKept s { s with fmt.asm := [], fmt.queue := [] } := .of_view rfl
  exact h.trans (groupKept_foldl (fun s (d : DsBuf) => groupKept_giveBack d.handle s) _ _)

theorem groupKept_failStreams (st : Status) (s : State) : GroupKept s (failStreams st s) := by
  unfold failStreams
  extract_lets xs ids a gone b c
  have ha : GroupKept s a := groupKept_foldl (fun s x => .of_same (w := 0x80005c0) (Frames.cutStream_same rfl (Frames.failAll_same rfl Frames.same_refl)) rfl rfl) _ s
  have hb : GroupKept a b := .of_same (Frames.discardBlocks_same Frames.sub_refl Frames.same_refl) rfl rfl
  have hc : GroupKept b c := .of_view rfl
  refine ((ha.trans hb).trans hc).trans (groupKept_foldl (fun s x => ?_) gone c)
  split
  · exact groupKept_giveBack _ s
  · exact .refl s

theorem groupKept_powerFor (m : Mode) (s : State) : GroupKept s (powerFor m s) := .of_view rfl

/-- A member whose group fails has ended. -/
theorem failGroup_ended {s : State} (hg : inGroup s = true) (ho : isOrigin s = false) : Ended (failGroup s) := by
  unfold failGroup
  rw [if_neg (by rw [hg]; decide), if_neg (by rw [ho]; decide)]
  refine (groupKept_foldl (fun s (x : Stripe) => groupKept_giveBack x.handle s) _ _).2 ((groupKept_powerFor _ _).2 ⟨rfl, rfl, rfl, fun w hw => ?_⟩)
  obtain ⟨v, -, rfl⟩ := Option.map_eq_some_iff.mp hw
  rfl

theorem failGroup_lost (s : State) : (failGroup s).chn.grp.lost = s.chn.grp.lost := by
  unfold failGroup
  split
  · rfl
  · split
    · extract_lets a keep gone _ _ b c d
      have ha : a.chn.grp.lost = s.chn.grp.lost := by dsimp only [a]; rw [raiseEv_chn]
      have hc : GroupKept b c := (groupKept_dropUnwritten b).trans (groupKept_failStreams _ _)
      have hd : GroupKept c d := groupKept_foldl (fun s x => groupKept_giveBack _ s) _ _
      exact (hd.1.trans hc.1).trans ha
    · exact (groupKept_foldl (fun s (x : Stripe) => groupKept_giveBack x.handle s) _ _).1

end Sys2Proof.Machine

end

section

/-! PROOFS. RAIT groups work: a position that is lost stays lost (R313 to R320). -/

open Sys2Proof Sys2Proof.Machine Sys2Proof.Claims

namespace Sys2Proof.Machine

/-! ### Operations that leave the group as it is -/

section
variable {r s t : State}

/-- The group is as it was. -/
def GroupStands (s t : State) : Prop := t.chn.grp = s.chn.grp

theorem GroupStands.refl (s : State) : GroupStands s s := rfl

theorem GroupStands.trans (h : GroupStands r s) (k : GroupStands s t) : GroupStands r t := Eq.trans k h

/-- An operation whose frame does not have the ring's state. -/
theorem GroupStands.of_same {w : BitVec 30} (h : Frames.Same w s t) (hc : w.getLsbD 25 = false) : GroupStands s t := congrArg Chn.grp (h.chn hc)

theorem GroupStands.of_if {p : Prop} [Decidable p] {a b : State} (ha : GroupStands s a) (hb : GroupStands s b) : GroupStands s (if p then a else b) := by
  split
  · exact ha
  · exact hb

theorem groupStands_foldl {α : Type} {f : State → α → State} (hf : ∀ s a, GroupStands s (f s a)) (l : List α) (s : State) : GroupStands s (l.foldl f s) :=
  List.foldlRecOn (motive := GroupStands s) l f (.refl s) fun _ h a _ => h.trans (hf _ a)

end

theorem groupStands_enterPewter (cause kind number : Nat) (s : State) : GroupStands s (enterPewter cause kind number s) := by
  unfold enterPewter
  refine .of_if (.refl s) ?_
  extract_lets _ a _ b c _ d _ u _ _ x
  have ha : GroupStands s a := .of_same (w := 0x30) (Frames.storeMap_same rfl (Frames.set_10 rfl Frames.same_refl)) rfl
  have hb : GroupStands a b := .of_same (w := 0x12) (Frames.raiseEv_same rfl (Frames.set_2 rfl Frames.same_refl)) rfl
  have hd : GroupStands b d := .of_same (w := 0x1002000)
    (Frames.same_if (Frames.beginStop_same rfl (Frames.dropGates_same rfl Frames.same_refl)) (Frames.set_1000000 rfl (Frames.dropGates_same rfl Frames.same_refl))) rfl
  have hu : GroupStands d u := .of_same (w := 0x80811c0) (Frames.unassignAll_same rfl (Frames.abortAll_same rfl (Frames.abortMover_same rfl Frames.same_refl))) rfl
  clear_value u
  have hx : GroupStands u (powerFor .pewter x) := rfl
  exact (((ha.trans hb).trans hd).trans hu).trans hx

theorem groupStands_judgePewter (kind number : Nat) (s : State) : GroupStands s (judgePewter kind number s) := by
  unfold judgePewter
  split
  · exact groupStands_enterPewter _ _ _ s
  · exact .refl s

theorem groupStands_loseDevice (d : Fin 8) (cause : Nat) (s : State) : GroupStands s (loseDevice d cause s) := by
  unfold loseDevice
  refine .of_if (.refl s) ?_
  extract_lets _ a b c lost
  have hc : GroupStands s c := .of_same (w := 0x40030)
    (Frames.raiseEv_same rfl (Frames.storeMap_same rfl (Frames.setRetired_same rfl (Frames.set_40000 rfl Frames.same_refl)))) rfl
  refine hc.trans (.of_if ?_ (.of_if rfl (.refl c)))
  exact .trans (s := { c with buf.state := 5 }) rfl (groupStands_judgePewter _ _ _)

theorem groupStands_retire (k n cause : Nat) (s : State) : GroupStands s (retire k n cause s) := by
  unfold retire
  refine .of_if (.refl s) ?_
  extract_lets a b _ c d e f
  have ha : GroupStands s a := .of_same (w := 0x601810) (Frames.requeueHeld_same rfl (Frames.setRetired_same rfl Frames.same_refl)) rfl
  have hb : GroupStands a b := .of_same (w := 0x10) (Frames.same_if (Frames.raiseEv_same rfl Frames.same_refl) (Frames.raiseEv_same rfl Frames.same_refl)) rfl
  have hc : GroupStands b c := .of_same (w := 0x24) (Frames.storeMap_same rfl (Frames.set_4 rfl Frames.same_refl)) rfl
  have hd : GroupStands c d := .of_same (w := 0x8010) (Frames.same_if (Frames.publishCeilings_same rfl Frames.same_refl) Frames.same_refl) rfl
  have he : GroupStands d e := .of_if (groupStands_loseDevice _ _ d) (.refl d)
  have hf : GroupStands e f := .of_if rfl (.refl e)
  exact ((((ha.trans hb).trans hc).trans hd).trans (he.trans hf)).trans (groupStands_judgePewter _ _ f)

theorem groupStands_strike (k n : Nat) (s : State) : GroupStands s (strike k n s) := by
  unfold strike
  refine .of_if (.refl s) ?_
  extract_lets i cfg b level leakAt _ a
  have ha : GroupStands s a := rfl
  exact ha.trans (.of_if (groupStands_retire _ _ _ a) (.refl a))

theorem groupStands_passAfter (t : Tries) (kind : Nat) (s : State) : GroupStands s (passAfter t kind s) := by
  unfold passAfter
  split
  · exact .of_if (.refl s) (groupStands_retire _ _ _ s)
  · exact .refl s

/-! ### Blocks that a reader takes -/

theorem groupStands_raiseResend (a b c d e g : Nat) (s : State) : GroupStands s (raiseResend a b c d e g s) :=
  .of_same (Frames.raiseResend_same Frames.sub_refl Frames.same_refl) rfl

theorem groupStands_dispatchRead (s : State) : GroupStands s (dispatchRead s) := .of_same (Frames.dispatchRead_same Frames.sub_refl Frames.same_refl) rfl

theorem groupStands_queueSlice (front : Bool) (id : Nat) (s : State) : GroupStands s (queueSlice front id s) :=
  .of_same (Frames.queueSlice_same Frames.sub_refl Frames.same_refl) rfl

theorem groupStands_stopAt (sid id : Nat) (st : Status) (s : State) : GroupStands s (stopAt sid id st s) :=
  .of_same (Frames.stopAt_same Frames.sub_refl Frames.same_refl) rfl

theorem groupStands_failDecode (n : Fin 8) (id : Nat) (s : State) : GroupStands s (failDecode n id false s) := by
  unfold failDecode
  split
  · exact .refl s
  · extract_lets t0 a _ b two free c
    have ha : GroupStands s a := groupStands_raiseResend _ _ _ _ _ _ s
    have hb : GroupStands a b := rfl
    have hc : GroupStands b c := by
      dsimp only [c, free]
      split
      · exact groupStands_queueSlice _ _ _
      · exact groupStands_queueSlice _ _ _
      · exact .of_if (groupStands_stopAt _ _ _ b) rfl
      · exact groupStands_stopAt _ _ _ b
    exact ((ha.trans hb).trans hc).trans ((groupStands_strike _ _ c).trans (groupStands_dispatchRead _))

theorem groupStands_recordBad (x : Stream) (b : RBlk) (no : Nat) (s : State) : GroupStands s (recordBad x b no s) := by
  unfold recordBad
  refine .of_if (.of_same (w := 0x401400) (Frames.dropRBlks_same rfl (Frames.pushItem_same rfl Frames.same_refl)) rfl) ?_
  extract_lets bs st a
  have ha : GroupStands s a := (groupStands_raiseResend _ _ _ _ _ _ s).trans (groupStands_strike _ _ _)
  exact ha.trans (.of_same (w := 0x401400) (Frames.dispatchRead_same rfl (Frames.decodeAgain_same rfl (Frames.modRd_same rfl Frames.same_refl))) rfl)

theorem groupStands_takeBlock (x : Stream) (b : RBlk) (s : State) : GroupStands s (takeBlock x b s) := by
  unfold takeBlock
  extract_lets n m p base bad _ a good c
  have ha : GroupStands s a := .trans (s := { s with codec.slices := vmod s.codec.slices n (fun c => { c with blocks := c.blocks + 1 }) }) rfl (groupStands_passAfter _ _ _)
  have hc : GroupStands a c := groupStands_foldl (fun s _ => .of_same (Frames.pushItem_same Frames.sub_refl Frames.same_refl) rfl) _ a
  split
  · exact groupStands_failDecode _ _ s
  clear_value c good bad a
  refine (ha.trans hc).trans ?_
  split
  · exact groupStands_recordBad _ _ _ c
  · exact .of_same (w := 0x401400) (Frames.modRd_same rfl (Frames.settleParsed_same rfl Frames.same_refl)) rfl

theorem groupStands_drainHead (sid : Nat) (s : State) : GroupStands s (drainHead sid s) := by
  unfold drainHead
  split
  · refine .of_if (.refl s) ?_
    split
    · exact .of_same (w := 0x401400) (Frames.dropRBlks_same rfl (Frames.pushItem_same rfl Frames.same_refl)) rfl
    · refine .of_if ?_ (.of_if ?_ (groupStands_takeBlock _ _ s))
      · exact .of_same (w := 0x400400) (Frames.removeRBlk_same rfl (Frames.pushItem_same rfl Frames.same_refl)) rfl
      · exact .of_same (w := 0x400400) (Frames.removeRBlk_same rfl (Frames.modRd_same rfl Frames.same_refl)) rfl
  · exact .refl s

theorem groupStands_drainRead (sid : Nat) (s : State) : GroupStands s (drainRead sid s) := groupStands_foldl (fun s _ => groupStands_drainHead sid s) _ s

end Sys2Proof.Machine

end

section

/-! PROOFS. RAIT groups at work settle (R313 to R320). -/

open Sys2Proof Sys2Proof.Machine Sys2Proof.Claims

namespace Sys2Proof.Machine

/-! ### A position that is lost stays lost -/

section
variable {r s t : State}

/-- The positions lost are as they were. -/
def LostKept (s t : State) : Prop := t.chn.grp.lost = s.chn.grp.lost

theorem LostKept.refl (s : State) : LostKept s s := rfl

theorem LostKept.trans (h : LostKept r s) (k : LostKept s t) : LostKept r t := Eq.trans k h

theorem GroupStands.lost (h : GroupStands s t) : LostKept s t := congrArg Group.lost h

theorem GroupKept.kept (h : GroupKept s t) : LostKept s t := h.1

theorem LostKept.of_same {w : BitVec 30} (h : Frames.Same w s t) (hc : w.getLsbD 25 = false) : LostKept s t := (GroupStands.of_same h hc).lost

theorem lostKept_foldl {α : Type} {f : State → α → State} (hf : ∀ s a, LostKept s (f s a)) (l : List α) (s : State) : LostKept s (l.foldl f s) :=
  foldl_lost hf l s

theorem LostKept.of_if {p : Prop} [Decidable p] {a b : State} (ha : LostKept s a) (hb : LostKept s b) : LostKept s (if p then a else b) := by
  split
  · exact ha
  · exact hb

end

/-! #### Rows that a reader rebuilds or loses -/

theorem lostKept_askRows (stripe first count pos : Nat) (s : State) : LostKept s (askRows stripe first count pos s) := by
  unfold askRows
  split
  · exact .refl s
  · exact .trans (s := { s with chn.grp.wanted := _ }) rfl (groupKept_tellPos _ _ _ _ _).kept

theorem lostKept_loseRows (stripe : Nat) (l : List Nat) (s : State) : LostKept s (loseRows stripe l s) :=
  .of_same (Frames.loseRows_same Frames.sub_refl Frames.same_refl) rfl

theorem lostKept_noteRebuild (stripe : Nat) (s : State) : LostKept s (noteRebuild stripe s) := by
  unfold noteRebuild
  refine .of_if (.refl s) ?_
  unfold LostKept
  rw [raiseEv_chn]

theorem lostKept_rebuildRow (stripe r : Nat) (s : State) : LostKept s (rebuildRow stripe r s) := by
  unfold rebuildRow
  extract_lets g data missing pars have_ gone known
  refine .of_if (.refl s) (.of_if (lostKept_loseRows _ _ s) (.of_if (lostKept_foldl (fun s j => ?_) pars s) ?_))
  · exact .of_if (.refl s) (lostKept_askRows _ _ _ _ s)
  · split
    · exact lostKept_loseRows _ _ s
    · refine (lostKept_noteRebuild stripe s).trans (lostKept_foldl (fun s x => ?_) _ _)
      rfl

theorem lostKept_finishRemote (stripe pos : Nat) (s : State) : LostKept s (finishRemote stripe pos s) :=
  .of_same (Frames.finishRemote_same Frames.sub_refl Frames.same_refl) rfl

theorem lostKept_settleReadBufs (s : State) : LostKept s (settleReadBufs s) := by
  unfold settleReadBufs
  extract_lets done _ a b c
  have hb : LostKept a b := lostKept_foldl (fun s d => by
    split
    · exact (groupKept_releaseHandle _ _ s).kept
    · exact .refl s) done a
  have hc : LostKept b c := .of_if (.of_same (w := 0x20010) (Frames.onBehalf_same rfl (fun _ hk => Frames.panAlloc_same rfl hk) Frames.same_refl) rfl) (.refl b)
  have ha : LostKept s a := rfl
  exact ((ha.trans hb).trans hc).trans (groupKept_settleGrants c).kept

theorem lostKept_pumpReads (s : State) : LostKept s (pumpReads s) := by
  unfold pumpReads
  refine .trans (lostKept_foldl (fun s x => lostKept_foldl (fun s _ => ?_) _ s) _ s)
    (.trans (.of_same (Frames.settleAllReads_same Frames.sub_refl Frames.same_refl) rfl) (lostKept_settleReadBufs _))
  split
  · exact .trans (.of_if (.of_same (Frames.extractPseudo_same Frames.sub_refl Frames.same_refl) rfl) (.refl s)) (groupStands_drainRead _ _).lost
  · exact .refl s

theorem lostKept_settleRow (stripe r : Nat) (s : State) : LostKept s (settleRow stripe r s) := by
  unfold settleRow
  refine (lostKept_rebuildRow stripe r s).trans (.trans (lostKept_foldl (fun s p => ?_) _ _) (lostKept_pumpReads _))
  exact .of_if (.refl s) (lostKept_finishRemote _ _ s)

theorem lostKept_loseReads (s : State) : LostKept s (loseReads s) := by
  unfold loseReads
  refine lostKept_foldl (fun s d => ?_) _ s
  split
  · exact lostKept_foldl (fun s r => lostKept_settleRow d.dsn r s) _ s
  · exact .refl s

theorem lostKept_groupCommit (s : State) : LostKept s (groupCommit s) := by
  unfold groupCommit
  refine .of_if (.refl s) ?_
  exact .trans (s := { s with chn.grp.commit := _, chn.grp.held := _ }) rfl (lostKept_foldl (fun s (h : HeldDs) => (groupKept_giveBack h.ds.handle s).kept) _ _)

theorem lostKept_tellFail (cause : Nat) (s : State) : LostKept s (tellFail cause s) :=
  ((groupKept_tellAll _ _ _ s).kept.trans (failGroup_lost _)).trans (groupKept_settleWaits _).kept

theorem lostKept_pumpPorts (s : State) : LostKept s (pumpPorts s) :=
  (GroupKept.of_sends ((Sends.of_at (sendsAt_pumpPort _ s)).trans (.of_at (sendsAt_pumpPort _ _)))).kept

theorem losePosition_lost {p cause : Nat} {s : State} (ho : isOrigin s = true) (hl : s.chn.grp.isLost p = false) (hp : p < s.chn.grp.size) :
    (losePosition p cause s).chn.grp.lost = s.chn.grp.lost ||| BitVec.twoPow 32 p := by
  unfold losePosition
  rw [if_neg (by rw [ho, hl]; simpa using hp)]
  extract_lets _ _ a b c lost
  have hb : LostKept a b := by unfold LostKept; dsimp only [b]; rw [raiseEv_chn]
  have hc : LostKept b c := (groupKept_tellAll _ _ _ b).kept
  refine LostKept.trans (hb.trans hc) (.of_if (lostKept_tellFail _ c) ?_)
  exact (((lostKept_loseReads c).trans (lostKept_groupCommit _)).trans (lostKept_pumpPorts _)).trans (groupKept_settleWaits _).kept

theorem confirmTimeout_lost {h : HeldDs} {pos : Nat} {s : State} (ho : isOrigin s = true) (hh : h ∈ s.chn.grp.held) (ht : pos ∈ h.targets s.chn.grp)
    (hp : pos < s.chn.grp.size) (h32 : pos < 32) : (confirmTimeout pos h.stripe s).chn.grp.isLost pos = true := by
  have hany : s.chn.grp.held.any (fun x => x.stripe == h.stripe && (x.targets s.chn.grp).contains pos) = true :=
    List.any_eq_true.mpr ⟨h, hh, by rw [beq_self_eq_true, List.contains_iff_mem.mpr ht]; rfl⟩
  have hl : s.chn.grp.isLost pos = false := by
    have hmem := (List.mem_filter.mp ht).2
    simp only [Bool.and_eq_true, Bool.not_eq_true'] at hmem
    exact hmem.1.2
  unfold confirmTimeout
  rw [if_pos (by rw [ho, hany]; rfl)]
  unfold Group.isLost
  rw [losePosition_lost ho hl hp, BitVec.getLsbD_or, BitVec.getLsbD_twoPow]
  simp [h32]

/-! ### Groups at work -/

theorem isOrigin_congr {s t : State} (h : t.chn.grp = s.chn.grp) : isOrigin t = isOrigin s := by
  unfold isOrigin
  rw [inGroup_congr h, h]

theorem onGroupFail_ended {s : State} (hg : inGroup s = true) (ho : isOrigin s = false) : Ended (onGroupFail s) :=
  (groupKept_settleWaits _).2 (failGroup_ended hg ho)

/-- What a PAYLOAD_OK of a position notes of the payloads held. -/
def noteOk (st pos : Nat) (l : List HeldDs) : List HeldDs :=
  modAll (fun h => h.stripe == st && !h.confirmed.contains pos) (fun h => { h with confirmed := pos :: h.confirmed }) l

/-- A payload held after a PAYLOAD_OK: as it was and not meant, or confirmed by the position. -/
theorem mem_noteOk {st pos : Nat} {l : List HeldDs} {h : HeldDs} (hm : h ∈ noteOk st pos l) : (h ∈ l ∧ (h.stripe = st → pos ∈ h.confirmed)) ∨ (h.stripe = st ∧ pos ∈ h.confirmed) := by
  unfold noteOk modAll at hm
  obtain ⟨x, hx, rfl⟩ := List.mem_map.mp hm
  split
  next hc =>
    obtain ⟨hs, -⟩ := Bool.and_eq_true_iff.mp hc
    exact .inr ⟨beq_iff_eq.mp hs, List.mem_cons_self⟩
  next hc =>
    refine .inl ⟨hx, fun hs => ?_⟩
    refine Decidable.byContradiction fun hne => ?_
    exact hc (by simp [hs, hne])

theorem map_ds_noteOk (st pos : Nat) (l : List HeldDs) : (noteOk st pos l).map (·.ds) = l.map (·.ds) := by
  unfold noteOk modAll
  rw [List.map_map]
  refine List.map_congr_left fun x _ => ?_
  rw [Function.comp_apply]
  split <;> rfl

theorem groupsWork : GroupsWork := by
  intro q f l s
  refine ⟨fun x ha hd ht hn hx hs hh hw hl he hlow => ?_, fun h ho => ?_, fun h ho hh => ?_, fun h ho hl => ?_, fun h ho => ?_,
    fun h ho h2 he => ⟨fun hn => ?_, fun w hn hw => ?_⟩, fun h ho h2 hp hs hv_nil hst hpart hlow hn he h6 h4 => ?_, fun h ho => ?_, fun h ho hg => ?_,
    fun r ha hd hadr ho h2 hf hr hp hs h1 h3 hn hl => ?_, fun r pos stripe row ho h2 hr hp hs h1 h3 hn => ?_, fun h pos ho hh ht hp h32 => ?_⟩
  · obtain ⟨v, hv⟩ := (acceptFrame_moved ha.1).port
    obtain ⟨h2, ho⟩ := isTarget_member ht
    refine ⟨_, congrArg Host.Outcome.next ((receive_accepted ha).trans ((congrArg (dataRow f q) hv).trans ((dataRow_here (s := { s with chn.port := v }) hd ht).trans
      (placeData_one (s := { s with chn.port := v }) h2 ho hn hx hs hh hw hl he hlow)))), rfl, rfl, rfl, rfl⟩
  · obtain ⟨v, hv⟩ := groupRow_moved (l := l) (act := onPayloadOk f) h
    refine ⟨_, congrArg Host.Outcome.next (hv.trans (onPayloadOk_origin (s := { s with chn.port := v }) ho)), fun x hx hs => ?_, map_ds_noteOk _ _ s.chn.grp.held,
      fun x hx hs => ?_, rfl⟩
    · exact (mem_noteOk (l := s.chn.grp.held) hx).elim (fun hk => hk.2 hs) And.right
    · exact (mem_noteOk (l := s.chn.grp.held) hx).elim And.left fun hk => absurd hk.1 hs
  · obtain ⟨v, hv⟩ := groupRow_moved (l := l) (act := onStripeCommit f) h
    obtain ⟨c, hc, hg⟩ := onStripeCommit_empty (f := f) (s := { s with chn.port := v }) ho hh
    refine ⟨_, congrArg Host.Outcome.next hv, ?_⟩
    dsimp only
    rw [hg]
    exact ⟨List.lookup_cons_self, fun p hp => lookup_put_other hp _ _, hc⟩
  · obtain ⟨v, hv⟩ := groupRow_moved (l := l) (act := onXoff f) h
    refine ⟨_, congrArg Host.Outcome.next (hv.trans (onXoff_notes (s := { s with chn.port := v }) ho hl)), List.mem_cons_self, fun p hp => ?_, rfl⟩
    by_cases hpf : p = fPos f
    · exact hpf ▸ List.mem_cons_self
    · exact List.mem_cons_of_mem _ (List.mem_filter.mpr ⟨hp, bne_iff_ne.mpr hpf⟩)
  · obtain ⟨v, hv⟩ := groupRow_moved (l := l) (act := onXon f) h
    have hs := onXon_sends (f := f) (s := { s with chn.port := v }) ho
    exact ⟨_, congrArg Host.Outcome.next hv, (congrArg Group.xoff hs.grp :), hs.fmt⟩
  · obtain ⟨v, hv⟩ := groupRow_moved (l := l) (act := onSessionEnd f) h
    exact ⟨_, congrArg Host.Outcome.next (hv.trans ((onSessionEnd_member (s := { s with chn.port := v }) ho h2 he).trans
      (endStripes_before (s := { s with chn.port := v, chn.grp.sessionEnd := some (u32 (fBody f) 0) }) rfl hn))), rfl, rfl⟩
  · obtain ⟨v, hv⟩ := groupRow_moved (l := l) (act := onSessionEnd f) h
    exact ⟨_, congrArg Host.Outcome.next (hv.trans ((onSessionEnd_member (s := { s with chn.port := v }) ho h2 he).trans
      (endStripes_due (s := { s with chn.port := v, chn.grp.sessionEnd := some (u32 (fBody f) 0) }) rfl hn hw))), rfl, rfl⟩
  · obtain ⟨v, hv⟩ := groupRow_moved (l := l) (act := onReadReq f) h
    exact ⟨_, congrArg Host.Outcome.next (hv.trans (onReadReq_owed (s := { s with chn.port := v }) ho h2 hp hs hv_nil hst hpart hlow hn he h6 h4)), rfl, rfl⟩
  · obtain ⟨v, hv⟩ := groupRow_moved (l := l) (act := onPositionLost f) h
    exact ⟨_, congrArg Host.Outcome.next (hv.trans (onPositionLost_member (s := { s with chn.port := v }) ho)), rfl, rfl⟩
  · have hgrp := (acceptFrame_moved h.1.1).grp
    exact ⟨_, congrArg Host.Outcome.next (groupRow_acts h), onGroupFail_ended ((inGroup_congr hgrp).trans hg) ((isOrigin_congr hgrp).trans ho)⟩
  · obtain ⟨v, hv⟩ := (acceptFrame_moved ha.1).port
    refine congrArg Host.Outcome.next ((receive_accepted ha).trans ?_)
    rw [hv]
    exact (routed_here (s := { s with chn.port := v }) hd hadr).trans (onReadRow_lost (s := { s with chn.port := v }) ho h2 hf hl hr hp hs h1 h3 hn)
  · exact congrArg Host.Outcome.next (readRowTimeout_missing ho h2 hr hp hs h1 h3 hn)
  · exact ⟨_, rfl, confirmTimeout_lost ho hh ht hp h32⟩

end Sys2Proof.Machine

/-- Settles O58: `GroupsForm` and `GroupsWork`; what a member gives back while its group fails keeps the group ended (`GroupKept`), and whatever a
reader takes or loses keeps a lost position lost (`LostKept`). -/
theorem Sys2Proof.groupsFormAndWork : Obligations.GroupsFormAndWork := ⟨groupsForm, groupsWork⟩

end
